-- ==== Sys2Proof/Word.lean ====
section
/-!
DEFINITION. The word types of the model and their plainest arithmetic. Registers, addresses under computation and fields
of encoded words are bit vectors; counts, indices and keys are natural numbers.
-/

namespace Sys2Proof

/-- A scalar register, g0 to g31 (R6). -/
abbrev Word := BitVec 64

/-- One byte of memory. -/
abbrev Byte := BitVec 8

/-- A vector register, v0 to v31, and one 64-byte line (R6). -/
abbrev Vec := BitVec 512

end Sys2Proof
end

