-- ==== Sys2Proof/Types.lean ====
section
/-!
DEFINITION. The types of operands and of messages: element types, scopes, the fields of a protocol message, and `Ev`, the
device's own steps as the machine keeps them in its lists of work in flight. `Ev` has one constructor for each row of
spec/opcode_table.json that has no word; Sys2Proof/Syntax.lean has the same rows again as constructors of `Instr`.
-/

namespace Sys2Proof

/-- The element type codes of R232. -/
inductive Ty where
  | i8 | i16 | i32 | i64 | n8 | n16 | n32 | n64 | bf16 | f16 | f32 | f64 | f8e4 | f8e5
  deriving DecidableEq, Repr

/-- The scope codes of R293. -/
inductive Scope where
  | thr | core | clu | dev | sys
  deriving DecidableEq, Repr

/-- The fence kinds of R293. -/
inductive FenceKind where
  | acq | rel | full
  deriving DecidableEq, Repr

/-- The stable states of a caching agent's line (R41) and the GNT codes of R45. -/
inductive Moesi where
  | i | s | e | o | m
  deriving DecidableEq, Repr

/-- A message of the protocol (R45, R154, R156, R160, R162, R167, R170). One record holds the fields of every layout;
a field that a message's layout lacks is zero. `ck` names the context core (256-entry region number times 64 plus the
region-relative core) that a scratchpad access, message or capsule is addressed to. -/
structure Msg where
  /-- SRC: sender identity (R40). -/
  src : Nat := 0
  /-- DST: receiver identity (R40). -/
  dst : Nat := 0
  /-- TXID, 12 bits. -/
  txid : Nat := 0
  /-- ADDR: physical address bits [47:6]. -/
  line : Nat := 0
  /-- VER (R58). -/
  ver : BitVec 8 := 0
  /-- GNT: state granted or now held. -/
  gnt : Moesi := .i
  /-- OFF: byte offset in the line. -/
  off : Nat := 0
  /-- LENM1 + 1. -/
  len : Nat := 64
  /-- ATOP (R61, R156). -/
  atop : Nat := 0
  /-- Payload of up to 64 bytes; `none` when DATA = 0. -/
  data : Option (BitVec 512) := none
  /-- POISON (R30). -/
  poison : Bool := false
  /-- WB (R47). -/
  wb : Bool := false
  /-- STAT: 0 OK, 1 ERR, 2 CAPACITY. -/
  stat : Nat := 0
  /-- SRCTHR, or the THREADID of LLK, SCK, WATCH and WOKE. -/
  thread : Nat := 0
  /-- Reservation epoch of LLK and SCK (R62). -/
  epoch : BitVec 8 := 0
  /-- REGION. -/
  region : Nat := 0
  /-- Context core addressed by a scratchpad access, message or capsule. -/
  ck : Nat := 0
  /-- Context core of the sender of a scratchpad access, message or capsule. -/
  srcCk : Nat := 0
  /-- POFF, or SPOFF. -/
  poff : Nat := 0
  /-- SUB of a barrier operation (R156). -/
  sub : Nat := 0
  /-- FULL of an SPDAT (R156). -/
  full : Bool := false
  /-- MASK of MCRD and MCD. -/
  mask : BitVec 64 := 0
  /-- BAR of MCRD and MCD. -/
  bar : Nat := 0
  /-- NOBAR. -/
  nobar : Bool := false
  /-- CMB: combined atomic (R158). -/
  cmb : Bool := false
  /-- CEL: eligible for combining (R158). -/
  cel : Bool := false
  /-- Second TXID of a combined atomic. -/
  txid2 : Nat := 0
  /-- Second SRC of a combined atomic. -/
  src2 : Nat := 0
  /-- Capsule: CTAG. -/
  ctag : Nat := 0
  /-- Capsule: SLOT. -/
  slot : Nat := 0
  /-- Capsule: CHUNK index. -/
  chunk : Nat := 0
  /-- Capsule: LAST. -/
  last : Bool := false
  /-- Capsule: LENGTH of an LREQ. -/
  length : Nat := 0
  /-- DEC: AMOUNT. -/
  amount : Nat := 0
  /-- A reserved bit of the header is not zero (R154). -/
  rsv : Bool := false
  /-- A non-caching request of a unit of the device (R40) whose access is one step of the model: it is answered by a mark at the
  home (`Slice.ready`) and carries no data. -/
  mark : Bool := false
  /-- USER: the delivery field of R324; DIRSVC: the notice word. -/
  delivery : BitVec 64 := 0
  deriving DecidableEq, Repr

/-- A unit named in an error record (R29, R31). -/
inductive HwUnit where
  | core (n : Nat) | cluster (n : Nat) | slice (n : Nat) | way (slice way : Nat) | channel (n : Nat)
  | hostPort | frontEnd | controlCore (n : Nat) | link (n : Nat) | netInterface (n : Nat)
  deriving DecidableEq, Repr

/-- An ATS translation completion (R71), as the host's IOMMU returns it for one outstanding Translation Request. -/
structure AtsCompletion where
  /-- Tag of the request answered. -/
  tag : Nat := 0
  /-- Unsupported Request or Completer Abort status. -/
  abort : Bool := false
  r : Bool := false
  w : Bool := false
  x : Bool := false
  /-- Privileged page. -/
  priv : Bool := false
  /-- U: untranslated access only. -/
  u : Bool := false
  /-- log2 of the size of the translated range. -/
  sizeLog : Nat := 12
  /-- Translated address of the range's first byte. -/
  pa : Nat := 0
  deriving DecidableEq, Repr

/-- The response codes of a page request (R74). -/
inductive PriCode where
  | success | invalid | failure
  deriving DecidableEq, Repr

/-- An ATS Invalidate Request (R78). `pasid = none` covers every PASID. -/
structure AtsInvalidate where
  itag : Nat := 0
  pasid : Option Nat := none
  va : Nat := 0
  sizeLog : Nat := 12
  deriving DecidableEq, Repr

/-- The operands of a BRUN command (R92). -/
structure BankRun where
  startGranule : Nat := 0
  startByte : Nat := 0
  /-- FMT of R85. -/
  fmt : Nat := 0
  /-- SCL of R88. -/
  scl : Bool := false
  ks : Nat := 1
  rows : Nat := 1
  scaleGranule : Nat := 0
  scaleByte : Nat := 0
  codetab : BitVec 128 := 0
  deriving DecidableEq, Repr


/-- A step of the device that waits to happen: a message in flight, or work that a unit has pending. -/
inductive Ev where
  /-- R27: POWER_ON_RESET. -/
  | powerOnReset
  /-- R28: DEVICE_RESET. -/
  | deviceReset
  /-- R35: BOOT_LAYER. -/
  | bootLayer (layer : Nat)
  /-- R28: CLUSTER_RESET. -/
  | clusterReset (c : Nat)
  /-- R16: LINK_RESET. -/
  | linkReset
  /-- R16: LANE_FAULT. -/
  | laneFault (module : Nat) (covered : Bool)
  /-- R16: LINK_TRAIN_TIMEOUT. -/
  | linkTrainTimeout
  /-- R19: CHANNEL_FAILURE. -/
  | channelFailure (ch : Nat) (atBoot : Bool)
  /-- R31: CORRECTED_ERROR. -/
  | correctedError (unit : HwUnit) (addr : Word)
  /-- R21: DROOP_TRIP. -/
  | droopTrip (c : Nat)
  /-- R21: DROOP_STRETCH_END. -/
  | droopStretchEnd (c : Nat)
  /-- R20: CLOCK_FREQUENCY_SWITCH. -/
  | clockFrequencySwitch (c : Nat)
  /-- R24: LS1_ENTRY. -/
  | ls1Entry (c : Nat)
  /-- R25: LS2_ENTRY. -/
  | ls2Entry (c : Nat)
  /-- R24: LS3_ENTRY. -/
  | ls3Entry
  /-- R24: LS4_ENTRY. -/
  | ls4Entry
  /-- R25: POWER_STATE_EXIT. -/
  | powerStateExit (c : Nat)
  /-- R32: RETENTION_SLEEP. -/
  | retentionSleep (k : Nat)
  /-- R32: CONTROL_CORE_WAKE. -/
  | controlCoreWake (k : Nat)
  /-- R25: LATTOL_WRITE. -/
  | lattolWrite (v : Word)
  /-- R22: PWRLIMIT_WRITE. -/
  | pwrlimitWrite (v : Word)
  /-- R37: READLOG. -/
  | readlog
  /-- R38: REPORT. -/
  | report
  /-- R39: READERR. -/
  | readerr
  /-- R36: STAGE. -/
  | stage
  /-- R39: BADOP. -/
  | badop
  /-- R39: MAILBOX_COMPLETION. -/
  | mailboxCompletion
  /-- R104: EVICT. -/
  | evict (q : Nat)
  /-- R104: RESUME. -/
  | resume (q : Nat)
  /-- R104: SKIP. -/
  | skip (q : Nat)
  /-- R104: DISABLE. -/
  | disable (q : Nat)
  /-- R104: QCTL_BAD_OPERATION. -/
  | qctlBadOperation (q : Nat)
  /-- R106: DOORBELL. -/
  | doorbell (q : Nat) (off : Nat) (len : Nat) (v : Word)
  /-- R132: SVCIMG_WRITE. -/
  | svcimgWrite (v : Word)
  /-- R6: REGISTER_WRITE. -/
  | registerWrite (off : Nat) (v : Word)
  /-- R74: PRI_ENABLE. -/
  | priEnable (on : Bool)
  /-- R109: QUEUE_LOAD. -/
  | queueLoad (q : Nat)
  /-- R110: QUEUE_SELECT. -/
  | queueSelect (pr : Nat)
  /-- R111: QUEUE_SLICE_EXPIRY. -/
  | queueSliceExpiry (pr : Nat)
  /-- R114: NOP_PACKET. -/
  | nopPacket (q : Nat)
  /-- R124: LAUNCH_PACKET. -/
  | launchPacket (q : Nat)
  /-- R115: COPY_PACKET. -/
  | copyPacket (q : Nat)
  /-- R115: BMV_PACKET. -/
  | bmvPacket (q : Nat)
  /-- R115: SIGNAL_PACKET. -/
  | signalPacket (q : Nat)
  /-- R115: WAIT_PACKET. -/
  | waitPacket (q : Nat)
  /-- R115: WAIT_POLL. -/
  | waitPoll (q : Nat)
  /-- R115: WAIT_TIMEOUT. -/
  | waitTimeout (q : Nat)
  /-- R115: WRITE_SIGNAL_PACKET. -/
  | writeSignalPacket (q : Nat)
  /-- R118: BIND_PACKET. -/
  | bindPacket (q : Nat)
  /-- R118: UNBIND_PACKET. -/
  | unbindPacket (q : Nat)
  /-- R81: PRI_STOP_MARKER. -/
  | priStopMarker (pasid : Nat)
  /-- R119: CUSTOM_PACKET. -/
  | customPacket (q : Nat)
  /-- R120: PACKET_COMPLETE. -/
  | packetComplete (q : Nat) (idx : Nat)
  /-- R121: COALESCER_HOLD_EXPIRY. -/
  | coalescerHoldExpiry (q : Nat)
  /-- R71: ATS_TRANSLATION_COMPLETION. -/
  | atsTranslationCompletion (c : AtsCompletion)
  /-- R74: PAGE_REQUEST_RESPONSE. -/
  | pageRequestResponse (prg : Nat) (code : PriCode)
  /-- R74: PAGE_REQUEST_TIMEOUT. -/
  | pageRequestTimeout (prg : Nat)
  /-- R78: ATS_INVALIDATE_REQUEST. -/
  | atsInvalidateRequest (r : AtsInvalidate)
  /-- R78: INVALIDATION_COMPLETION. -/
  | invalidationCompletion (itag : Nat)
  /-- R52: RDS. -/
  | rds (x : Msg)
  /-- R52: RDX. -/
  | rdx (x : Msg)
  /-- R52: UPG. -/
  | upg (x : Msg)
  /-- R52: RDNC. -/
  | rdnc (x : Msg)
  /-- R52: WRNC. -/
  | wrnc (x : Msg)
  /-- R52: WRF. -/
  | wrf (x : Msg)
  /-- R61: ATOM. -/
  | atom (x : Msg)
  /-- R62: LLK. -/
  | llk (x : Msg)
  /-- R62: SCK. -/
  | sck (x : Msg)
  /-- R63: WATCH. -/
  | watch (x : Msg)
  /-- R46: ECI_MALFORMED_REQUEST. -/
  | eciMalformedRequest (h : BitVec 128)
  /-- R54: NODE_MERGE. -/
  | nodeMerge (sl : Nat) (region : Nat) (level : Nat) (path : Nat)
  /-- R164: REPLICA_DROP. -/
  | replicaDrop (sl : Nat) (line : Nat)
  /-- R165: DRAM_FILL. -/
  | dramFill (sl : Nat) (line : Nat)
  /-- R166: REPLAY_RETRY. -/
  | replayRetry (sl : Nat)
  /-- R64: PROBE_TIMEOUT. -/
  | probeTimeout (sl : Nat) (line : Nat) (agent : Nat)
  /-- R47: SINV. -/
  | sinv (x : Msg)
  /-- R47: SSHR. -/
  | sshr (x : Msg)
  /-- R47: SBINV. -/
  | sbinv (x : Msg)
  /-- R47: DS. -/
  | ds (x : Msg)
  /-- R47: DE. -/
  | de (x : Msg)
  /-- R47: DM. -/
  | dm (x : Msg)
  /-- R47: GM. -/
  | gm (x : Msg)
  /-- R46: CMP. -/
  | cmp (x : Msg)
  /-- R159: ATR. -/
  | atr (x : Msg)
  /-- R62: LKD. -/
  | lkd (x : Msg)
  /-- R62: SCF. -/
  | scf (x : Msg)
  /-- R354: WOKE. -/
  | woke (x : Msg)
  /-- R46: RTY. -/
  | rty (x : Msg)
  /-- R47: WBA. -/
  | wba (x : Msg)
  /-- R47: WBX. -/
  | wbx (x : Msg)
  /-- R48: PACK. -/
  | pack (x : Msg)
  /-- R59: PDAT. -/
  | pdat (x : Msg)
  /-- R59: WBD. -/
  | wbd (x : Msg)
  /-- R59: EVC. -/
  | evc (x : Msg)
  /-- R44: CRD. -/
  | crd (x : Msg)
  /-- R60: L1_BACKGROUND_SWEEP. -/
  | l1BackgroundSweep (core : Nat)
  /-- R161: MCRD. -/
  | mcrd (x : Msg)
  /-- R161: MCRD_WINDOW_CLOSE. -/
  | mcrdWindowClose (sl : Nat) (entry : Nat)
  /-- R162: MCD. -/
  | mcd (x : Msg)
  /-- R156: SPWR. -/
  | spwr (x : Msg)
  /-- R156: SPRD. -/
  | sprd (x : Msg)
  /-- R209: SPSY. -/
  | spsy (x : Msg)
  /-- R209: SPSY_RESEND. -/
  | spsyResend (core : Nat) (txid : Nat)
  /-- R156: SPDAT. -/
  | spdat (x : Msg)
  /-- R163: REPL. -/
  | repl (x : Msg)
  /-- R164: RREC. -/
  | rrec (x : Msg)
  /-- R163: RDIN. -/
  | rdin (x : Msg)
  /-- R164: RDRM. -/
  | rdrm (x : Msg)
  /-- R169: GRANT. -/
  | grant (x : Msg)
  /-- R170: ALW_RET. -/
  | alwRet (x : Msg)
  /-- R171: CRET. -/
  | cret (x : Msg)
  /-- R405: DSACK. -/
  | dsack (x : Msg)
  /-- R168: USER_MESSAGE. -/
  | userMessage (x : Msg)
  /-- R133: DEC. -/
  | dec (x : Msg)
  /-- R144: NOTICE. -/
  | notice (x : Msg)
  /-- R404: DIRSVC. -/
  | dirsvc (x : Msg)
  /-- R169: LREQ. -/
  | lreq (x : Msg)
  /-- R169: LREQ_RESEND. -/
  | lreqResend (ck : Nat) (ctag : Nat)
  /-- R277: CHUNK. -/
  | chunk (x : Msg)
  /-- R141: DEFERRED_MESSAGE_RETRY. -/
  | deferredMessageRetry (x : Msg)
  /-- R153: NETWORK_LINK_RETRY. -/
  | networkLinkRetry (link : Nat) (cured : Bool)
  /-- R124: REGION_RUNNABLE. -/
  | regionRunnable (r : Nat)
  /-- R127: REGION_SLICE_EXPIRY. -/
  | regionSliceExpiry (r : Nat)
  /-- R125: REGION_END. -/
  | regionEnd (r : Nat)
  /-- R140: PARTITION_HALT. -/
  | partitionHalt (r : Nat) (p : Nat)
  /-- R141: CONTEXT_SWAP. -/
  | contextSwap (c : Nat)
  /-- R141: BAY_BACKGROUND_WRITE. -/
  | bayBackgroundWrite (bay : Nat)
  /-- R137: ROSTER_MULTIPLEX. -/
  | rosterMultiplex (ck : Nat)
  /-- R135: GRACE_EXPIRY. -/
  | graceExpiry (tk : Nat)
  /-- R143: HEARTBEAT_MISS. -/
  | heartbeatMiss (tk : Nat)
  /-- R134: DISPATCH. -/
  | dispatch (ck : Nat)
  /-- R210: WAIT_LIMIT_EXPIRY. -/
  | waitLimitExpiry (tk : Nat)
  /-- R231: TIMER_EXPIRY. -/
  | timerExpiry (tk : Nat)
  /-- R231: INTERRUPT_ENTRY. -/
  | interruptEntry (tk : Nat)
  /-- R198: DEFERRED_POISON. -/
  | deferredPoison (tk : Nat)
  /-- R212: FLUME_TRANSFER. -/
  | flumeTransfer (tk : Nat) (k : Nat)
  /-- R217: JOB_CARD_START. -/
  | jobCardStart (ck : Nat) (id : Nat)
  /-- R216: COPY_JOB_COMPLETE. -/
  | copyJobComplete (ck : Nat) (id : Nat)
  /-- R455: JOB_STATUS_FAIL. -/
  | jobStatusFail (ck : Nat) (id : Nat)
  /-- R223: SLUICE_OUTLET_FIRE. -/
  | sluiceOutletFire (ck : Nat) (o : Nat)
  /-- R264: MATRIX_REQUEST_SERVE. -/
  | matrixRequestServe (c : Nat)
  /-- R265: MATRIX_RESULT_BIND. -/
  | matrixResultBind (c : Nat) (id : Nat)
  /-- R264: FACTORISATION_STEP_END. -/
  | factorisationStepEnd (c : Nat)
  /-- R267: MLONG_COMPLETE. -/
  | mlongComplete (ck : Nat) (id : Nat)
  /-- R91: BMV_JOB_START. -/
  | bmvJobStart (j : Nat)
  /-- R92: XLD. -/
  | xld (u : Nat) (off : Nat) (x : List (BitVec 256))
  /-- R92: BRUN. -/
  | brun (u : Nat) (run : BankRun)
  /-- R98: BHALT. -/
  | bhalt (u : Nat)
  /-- R92: BRES. -/
  | bres (u : Nat)
  /-- R92: PRD. -/
  | prd (u : Nat) (first : Nat) (count : Nat)
  /-- R91: BANK_PASS_BATCH_END. -/
  | bankPassBatchEnd (j : Nat)
  /-- R99: BMV_JOB_COMPLETION. -/
  | bmvJobCompletion (j : Nat)
  /-- R279: DEAD_LETTER. -/
  | deadLetter (ck : Nat) (id : Nat)
  /-- R407: DSDONE_WAIT_LOG. -/
  | dsdoneWaitLog (sl : Nat) (line : Nat)
  /-- R16: ADAPTER_RETRY. -/
  | adapterRetry (module : Nat)
  /-- R21: SUPPLY_RECOVERY. -/
  | supplyRecovery (c : Nat)
  /-- R29: UNRECOVERABLE_FAILURE. -/
  | unrecoverableFailure (unit : HwUnit)
  deriving DecidableEq, Repr

end Sys2Proof
end

