-- ==== Sys2Proof/Syntax.lean ====
section
/-!
DEFINITION. The instructions and device steps of the Luatos 880: one constructor of `Instr` for every row of
spec/opcode_table.json. The first 283 are Flaulo instruction words (spec/14, R285 to R295); the other 157 are the
device's own steps (spec/95), each whole and indivisible, whose arguments name the unit concerned or the message that
arrives.
-/

namespace Sys2Proof

/-- One step of the machine: an instruction word, or a step of the device. -/

inductive Instr where
  /-- R312. Branch if equal. -/
  | beq (p : Bool) (a : BitVec 5) (b : BitVec 5) (o : BitVec 11)
  /-- R312. Branch if not equal. -/
  | bne (p : Bool) (a : BitVec 5) (b : BitVec 5) (o : BitVec 11)
  /-- R312. Branch if signed less. -/
  | blt (p : Bool) (a : BitVec 5) (b : BitVec 5) (o : BitVec 11)
  /-- R312. Branch if signed greater or equal. -/
  | bge (p : Bool) (a : BitVec 5) (b : BitVec 5) (o : BitVec 11)
  /-- R312. Branch if unsigned less. -/
  | bltu (p : Bool) (a : BitVec 5) (b : BitVec 5) (o : BitVec 11)
  /-- R312. Branch if unsigned greater or equal. -/
  | bgeu (p : Bool) (a : BitVec 5) (b : BitVec 5) (o : BitVec 11)
  /-- R313. Decrement a register and branch while the result is non-zero and below the bound. -/
  | bdec (p : Bool) (a : BitVec 5) (n : BitVec 8) (o : BitVec 11)
  /-- R314. Branch if a pool word's full/empty bit is full. -/
  | btagf (p : Bool) (a : BitVec 5) (o : BitVec 11)
  /-- R314. Branch if a pool word's full/empty bit is empty. -/
  | btage (p : Bool) (a : BitVec 5) (o : BitVec 11)
  /-- R315. Branch if any bit of the mask is 1. -/
  | bany (p : Bool) (a : BitVec 3) (o : BitVec 11)
  /-- R315. Branch if no bit of the mask is 1. -/
  | bnone (p : Bool) (a : BitVec 3) (o : BitVec 11)
  /-- R315. Branch if every bit of the mask is 1. -/
  | ball (p : Bool) (a : BitVec 3) (o : BitVec 11)
  /-- R315. Branch if some bit of the mask is 0. -/
  | bnall (p : Bool) (a : BitVec 3) (o : BitVec 11)
  /-- R316. Jump by a 24-bit word displacement. -/
  | jmp (p : Bool) (o : BitVec 24)
  /-- R317. Push the return address on the return store and jump. -/
  | call (p : Bool) (o : BitVec 24)
  /-- R316. Jump to the address in a register. -/
  | jr (p : Bool) (a : BitVec 5)
  /-- R317. Push the return address and jump to the address in a register. -/
  | callr (p : Bool) (a : BitVec 5)
  /-- R318. Pop the newest return address, refilling from the spill area if needed. -/
  | ret (p : Bool)
  /-- R320. Make the thread ineligible for issue for 16 A-cycles. -/
  | yield (p : Bool)
  /-- R321. Reload HBEATWIN with HBWIN in a region with an armed heartbeat. -/
  | hbeat (p : Bool)
  /-- R320. C-class no-operation that may open a pair. -/
  | cnop (p : Bool)
  /-- R325. Send 8 bytes of a g register as a user message, as a release. -/
  | sendw (p : Bool) (a : BitVec 5) (b : BitVec 5)
  /-- R325. Send 64 bytes of a v register as a user message, as a release. -/
  | sendv (p : Bool) (a : BitVec 5) (b : BitVec 5)
  /-- R326. Send a decrement message to a task record, as a release. -/
  | sendc (p : Bool) (a : BitVec 5) (b : BitVec 5)
  /-- R328. Take the oldest matching message and write 8 bytes to a g register. -/
  | recvw (p : Bool) (d : BitVec 5) (l : BitVec 4)
  /-- R328. Take the oldest matching message and write 64 bytes to a v register. -/
  | recvv (p : Bool) (d : BitVec 5) (l : BitVec 4)
  /-- R330. Test whether a port has a message or a free send buffer. -/
  | ptest (p : Bool) (d : BitVec 5) (k : BitVec 2)
  /-- R331. Enter WAITW and take work, notices, wakes or a message from the dispatcher. -/
  | waitw
  /-- R398. Read a state register. -/
  | srr (p : Bool) (d : BitVec 5) (s : BitVec 12)
  /-- R398. Write a state register field by field. -/
  | srw (p : Bool) (a : BitVec 5) (s : BitVec 12)
  /-- R398. Set bits of a state register and return its old value. -/
  | srset (p : Bool) (d : BitVec 5) (a : BitVec 5) (s : BitVec 12)
  /-- R398. Clear bits of a state register and return its old value. -/
  | srclr (p : Bool) (d : BitVec 5) (a : BitVec 5) (s : BitVec 12)
  /-- R230. Return from a handler to TRAPPC with the saved mode. -/
  | eret
  /-- R401. Wait for earlier stores and invalidate the core's instruction cache. -/
  | icinv (p : Bool)
  /-- R402. Send an MSI-X vector to the host as a system-scope release. -/
  | sighost (p : Bool) (a : BitVec 5)
  /-- R322. Raise SOFTWARE with the immediate in TRAPVAL. -/
  | trap (i : BitVec 14)
  /-- R323. Pre-emption point: save the thread by a liveness-mask entry if a request is pending. -/
  | ppt (i : BitVec 14)
  /-- R409. Read the directory node record that holds a line. -/
  | dsread (p : Bool) (d : BitVec 5) (a : BitVec 5) (l : BitVec 4)
  /-- R406. Send a software-table SINV from a line's home to an agent and return the response. -/
  | dsprobe (p : Bool) (d : BitVec 5) (a : BitVec 5) (b : BitVec 5) (l : BitVec 4)
  /-- R407. Complete an open transaction that an INVAL notice reported. -/
  | dsdone (p : Bool) (a : BitVec 5)
  /-- R408. Clear OVF of a line's node unless the home ignores it. -/
  | dsclr (p : Bool) (a : BitVec 5)
  /-- R410. Make a 64 KiB region read-only-broadcast. -/
  | dsbcast (p : Bool) (a : BitVec 5)
  /-- R410. Declare a weight-stable range and recall its owned copies. -/
  | dsstab (p : Bool) (a : BitVec 5)
  /-- R410. Release a weight-stable range so that its held writes are served. -/
  | dsrel (p : Bool) (a : BitVec 5)
  /-- R405. Take the oldest directory-service notice without parking. -/
  | dspoll (p : Bool) (d : BitVec 5) (l : BitVec 4)
  /-- R411. Copy the oldest spilled message to an 80-byte record. -/
  | spltake (p : Bool) (d : BitVec 5) (a : BitVec 5) (l : BitVec 4)
  /-- R411. Place a recorded message into the inbox through the loop-back port. -/
  | lbsend (p : Bool) (a : BitVec 5)
  /-- R411. Clear spill mode if the spill inbox is empty. -/
  | splend (p : Bool)
  /-- R338. Load a zero-extended byte. -/
  | ldBu (p : Bool) (d : BitVec 5) (a : BitVec 5) (i : BitVec 7) (l : BitVec 4)
  /-- R338. Load a zero-extended half-word. -/
  | ldHu (p : Bool) (d : BitVec 5) (a : BitVec 5) (i : BitVec 7) (l : BitVec 4)
  /-- R338. Load a zero-extended word. -/
  | ldWu (p : Bool) (d : BitVec 5) (a : BitVec 5) (i : BitVec 7) (l : BitVec 4)
  /-- R338. Load 8 bytes. -/
  | ldD (p : Bool) (d : BitVec 5) (a : BitVec 5) (i : BitVec 7) (l : BitVec 4)
  /-- R338. Load a sign-extended byte. -/
  | ldB (p : Bool) (d : BitVec 5) (a : BitVec 5) (i : BitVec 7) (l : BitVec 4)
  /-- R338. Load a sign-extended half-word. -/
  | ldH (p : Bool) (d : BitVec 5) (a : BitVec 5) (i : BitVec 7) (l : BitVec 4)
  /-- R338. Load a sign-extended word. -/
  | ldW (p : Bool) (d : BitVec 5) (a : BitVec 5) (i : BitVec 7) (l : BitVec 4)
  /-- R338. Store a byte. -/
  | stB (p : Bool) (d : BitVec 5) (a : BitVec 5) (i : BitVec 7)
  /-- R338. Store a half-word. -/
  | stH (p : Bool) (d : BitVec 5) (a : BitVec 5) (i : BitVec 7)
  /-- R338. Store a word. -/
  | stW (p : Bool) (d : BitVec 5) (a : BitVec 5) (i : BitVec 7)
  /-- R338. Store 8 bytes. -/
  | stD (p : Bool) (d : BitVec 5) (a : BitVec 5) (i : BitVec 7)
  /-- R338. Indexed zero-extending byte load. -/
  | ldxBu (p : Bool) (d : BitVec 5) (a : BitVec 5) (b : BitVec 5) (l : BitVec 4)
  /-- R338. Indexed zero-extending half-word load. -/
  | ldxHu (p : Bool) (d : BitVec 5) (a : BitVec 5) (b : BitVec 5) (l : BitVec 4)
  /-- R338. Indexed zero-extending word load. -/
  | ldxWu (p : Bool) (d : BitVec 5) (a : BitVec 5) (b : BitVec 5) (l : BitVec 4)
  /-- R338. Indexed 8-byte load. -/
  | ldxD (p : Bool) (d : BitVec 5) (a : BitVec 5) (b : BitVec 5) (l : BitVec 4)
  /-- R338. Indexed sign-extending byte load. -/
  | ldxB (p : Bool) (d : BitVec 5) (a : BitVec 5) (b : BitVec 5) (l : BitVec 4)
  /-- R338. Indexed sign-extending half-word load. -/
  | ldxH (p : Bool) (d : BitVec 5) (a : BitVec 5) (b : BitVec 5) (l : BitVec 4)
  /-- R338. Indexed sign-extending word load. -/
  | ldxW (p : Bool) (d : BitVec 5) (a : BitVec 5) (b : BitVec 5) (l : BitVec 4)
  /-- R338. Indexed byte store. -/
  | stxB (p : Bool) (d : BitVec 5) (a : BitVec 5) (b : BitVec 5)
  /-- R338. Indexed half-word store. -/
  | stxH (p : Bool) (d : BitVec 5) (a : BitVec 5) (b : BitVec 5)
  /-- R338. Indexed word store. -/
  | stxW (p : Bool) (d : BitVec 5) (a : BitVec 5) (b : BitVec 5)
  /-- R338. Indexed 8-byte store. -/
  | stxD (p : Bool) (d : BitVec 5) (a : BitVec 5) (b : BitVec 5)
  /-- R340. Load 64 bytes into a vector register. -/
  | vld (p : Bool) (d : BitVec 5) (a : BitVec 5) (i : BitVec 7) (l : BitVec 4)
  /-- R340. Store 64 bytes from a vector register. -/
  | vst (p : Bool) (d : BitVec 5) (a : BitVec 5) (i : BitVec 7)
  /-- R342. Gather active lanes from indexed addresses. -/
  | vgath (p : Bool) (d : BitVec 5) (a : BitVec 5) (b : BitVec 5) (m : BitVec 3) (e : BitVec 2) (l : BitVec 4)
  /-- R342. Scatter active lanes to indexed addresses. -/
  | vscat (p : Bool) (d : BitVec 5) (a : BitVec 5) (b : BitVec 5) (m : BitVec 3) (e : BitVec 2)
  /-- R342. Masked contiguous vector load. -/
  | vldm (p : Bool) (d : BitVec 5) (a : BitVec 5) (m : BitVec 3) (e : BitVec 2) (l : BitVec 4)
  /-- R342. Masked contiguous vector store. -/
  | vstm (p : Bool) (d : BitVec 5) (a : BitVec 5) (m : BitVec 3) (e : BitVec 2)
  /-- R343. Wait until a pool word is full, read it and set it empty, as an acquire. -/
  | ldfe (p : Bool) (d : BitVec 5) (a : BitVec 5) (l : BitVec 4)
  /-- R343. Wait until a pool word is full and read it, as an acquire. -/
  | ldff (p : Bool) (d : BitVec 5) (a : BitVec 5) (l : BitVec 4)
  /-- R343. Wait until a pool word is empty, write it and set it full, as a release. -/
  | stfe (p : Bool) (d : BitVec 5) (a : BitVec 5)
  /-- R343. Write a pool word and set it full, as a release. -/
  | stff (p : Bool) (d : BitVec 5) (a : BitVec 5)
  /-- R346. Far atomic add returning the old value. -/
  | amoadd (p : Bool) (d : BitVec 5) (a : BitVec 5) (s : Scope) (z : Bool) (l : BitVec 4)
  /-- R346. Far atomic AND. -/
  | amoand (p : Bool) (d : BitVec 5) (a : BitVec 5) (s : Scope) (z : Bool) (l : BitVec 4)
  /-- R346. Far atomic OR. -/
  | amoor (p : Bool) (d : BitVec 5) (a : BitVec 5) (s : Scope) (z : Bool) (l : BitVec 4)
  /-- R346. Far atomic XOR. -/
  | amoxor (p : Bool) (d : BitVec 5) (a : BitVec 5) (s : Scope) (z : Bool) (l : BitVec 4)
  /-- R346. Far atomic signed maximum. -/
  | amosmax (p : Bool) (d : BitVec 5) (a : BitVec 5) (s : Scope) (z : Bool) (l : BitVec 4)
  /-- R346. Far atomic signed minimum. -/
  | amosmin (p : Bool) (d : BitVec 5) (a : BitVec 5) (s : Scope) (z : Bool) (l : BitVec 4)
  /-- R346. Far atomic unsigned maximum. -/
  | amoumax (p : Bool) (d : BitVec 5) (a : BitVec 5) (s : Scope) (z : Bool) (l : BitVec 4)
  /-- R346. Far atomic unsigned minimum. -/
  | amoumin (p : Bool) (d : BitVec 5) (a : BitVec 5) (s : Scope) (z : Bool) (l : BitVec 4)
  /-- R346. Far atomic swap. -/
  | amoswap (p : Bool) (d : BitVec 5) (a : BitVec 5) (s : Scope) (z : Bool) (l : BitVec 4)
  /-- R346. Far atomic compare-and-swap with the new value in g(d + 1). -/
  | amocas (p : Bool) (d : BitVec 4) (a : BitVec 5) (s : Scope) (z : Bool) (l : BitVec 4)
  /-- R349. Load-locked 4 bytes and set the link. -/
  | ldlkW (p : Bool) (d : BitVec 5) (a : BitVec 5) (l : BitVec 4)
  /-- R349. Load-locked 8 bytes and set the link. -/
  | ldlkD (p : Bool) (d : BitVec 5) (a : BitVec 5) (l : BitVec 4)
  /-- R349. Store-conditional 4 bytes with status in g d. -/
  | stckW (p : Bool) (d : BitVec 5) (a : BitVec 5) (b : BitVec 5) (l : BitVec 4)
  /-- R349. Store-conditional 8 bytes with status in g d. -/
  | stckD (p : Bool) (d : BitVec 5) (a : BitVec 5) (b : BitVec 5) (l : BitVec 4)
  /-- R350. Acquire load at a scope. -/
  | ldacq (p : Bool) (d : BitVec 5) (a : BitVec 5) (k : BitVec 2) (s : Scope) (l : BitVec 4)
  /-- R350. Release store at a scope. -/
  | strel (p : Bool) (d : BitVec 5) (a : BitVec 5) (k : BitVec 2) (s : Scope)
  /-- R353. Acquire, release or full fence at a scope. -/
  | fence (p : Bool) (k : FenceKind) (s : Scope)
  /-- R354. Register a watch on a word and bind its status when the home answers. -/
  | waita (p : Bool) (d : BitVec 5) (a : BitVec 5) (b : BitVec 5) (l : BitVec 4)
  /-- R357. Arm a barrier with a new target, discarding arrivals. -/
  | barinit (p : Bool) (a : BitVec 5) (b : BitVec 5)
  /-- R357. Add to a barrier's target and arm it, keeping arrivals. -/
  | barexpect (p : Bool) (a : BitVec 5) (b : BitVec 5)
  /-- R358. Count bytes at a barrier as a release. -/
  | bararrive (p : Bool) (a : BitVec 5) (b : BitVec 5)
  /-- R359. Wait until a barrier's generation differs from the one named, as an acquire. -/
  | waitbar (p : Bool) (a : BitVec 5) (b : BitVec 5)
  /-- R360. Read a barrier's generation, state, flags and count. -/
  | barread (p : Bool) (d : BitVec 5) (a : BitVec 5) (l : BitVec 4)
  /-- R389. Issue a bulk copy job card. -/
  | cpyb (p : Bool) (d : BitVec 5) (a : BitVec 5) (b : BitVec 5)
  /-- R388. Issue a tensor copy from a descriptor. -/
  | cpyt (p : Bool) (a : BitVec 5)
  /-- R390. Issue a tensor copy into a held queue. -/
  | cpyth (p : Bool) (a : BitVec 5) (b : BitVec 5)
  /-- R388. Issue a matrix long operation. -/
  | mlong (p : Bool) (a : BitVec 5)
  /-- R390. Issue a matrix long operation into a held queue. -/
  | mlongh (p : Bool) (a : BitVec 5) (b : BitVec 5)
  /-- R89. Check and issue a BMV job card. -/
  | bmvj (p : Bool) (a : BitVec 5)
  /-- R390. Issue a BMV job card into a held queue. -/
  | bmvjh (p : Bool) (a : BitVec 5) (b : BitVec 5)
  /-- R392. Bind a flume to a pattern record. -/
  | fbind (p : Bool) (k : BitVec 3) (a : BitVec 5)
  /-- R393. Unbind a flume, draining an out-flume. -/
  | funbind (p : Bool) (k : BitVec 3)
  /-- R394. Add a count to a sluice counter as a core-scope release. -/
  | sbpulse (p : Bool) (a : BitVec 5)
  /-- R394. Clear selected sluice counters. -/
  | sbclr (p : Bool) (a : BitVec 5)
  /-- R274. Send a capsule to its next slip destination. -/
  | capsend (p : Bool) (a : BitVec 5) (l : BitVec 4)
  /-- R276. Send a capsule to its owner regardless of its slip. -/
  | capret (p : Bool) (a : BitVec 5)
  /-- R276. Discard a held capsule and free its slot. -/
  | capdrop (p : Bool) (a : BitVec 5)
  /-- R396. Dead-letter a held capsule with a software code. -/
  | capdead (p : Bool) (a : BitVec 5) (b : BitVec 5)
  /-- R397. Read the next slip entry and advance POS. -/
  | cappop (p : Bool) (d : BitVec 5) (a : BitVec 5)
  /-- R397. Insert a slip entry at POS. -/
  | cappush (p : Bool) (a : BitVec 5) (b : BitVec 5)
  /-- R397. Overwrite a pending slip entry. -/
  | capset (p : Bool) (a : BitVec 5) (b : BitVec 5) (c : BitVec 5)
  /-- R397. Read a pending slip entry. -/
  | capget (p : Bool) (d : BitVec 5) (a : BitVec 5) (c : BitVec 5)
  /-- R397. Advance POS past pending slip entries. -/
  | capskip (p : Bool) (a : BitVec 5) (b : BitVec 5)
  /-- R419. Accumulate A times B into a tile. -/
  | mma (p : Bool) (z : BitVec 4) (a : BitVec 5) (b : BitVec 5) (e : BitVec 5) (l : BitVec 4)
  /-- R419. Compute A times B into a tile starting from a cleared tile. -/
  | mmaz (p : Bool) (z : BitVec 4) (a : BitVec 5) (b : BitVec 5) (e : BitVec 5) (l : BitVec 4)
  /-- R422. Read and convert tile elements into a vector register. -/
  | zrd (p : Bool) (v : BitVec 5) (a : BitVec 5) (z : BitVec 4) (t : Ty) (l : BitVec 4)
  /-- R422. Convert a vector register's lanes and write them into tile elements. -/
  | zwr (p : Bool) (v : BitVec 5) (a : BitVec 5) (z : BitVec 4) (t : Ty) (l : BitVec 4)
  /-- R421. Clear a tile to zero. -/
  | mclr (p : Bool) (z : BitVec 4) (l : BitVec 4)
  /-- R420. Compute an MMA edge word from extents and GEOM1. -/
  | medge (p : Bool) (d : BitVec 5) (a : BitVec 5) (b : BitVec 5) (c : BitVec 5)
  /-- R428. LU factorisation with partial pivoting of a tile. -/
  | mlu (p : Bool) (z : BitVec 4) (v : BitVec 5) (g : BitVec 5) (l : BitVec 4)
  /-- R429. Cholesky factorisation of a tile. -/
  | mchol (p : Bool) (z : BitVec 4) (l : BitVec 4)
  /-- R430. Householder QR factorisation of a tile. -/
  | mqr (p : Bool) (z : BitVec 4) (v : BitVec 4) (l : BitVec 4)
  /-- R431. Triangular solve of a tile against a triangular tile. -/
  | mtrsm (p : Bool) (z : BitVec 4) (y : BitVec 4) (s : Bool) (u : Bool) (n : Bool) (l : BitVec 4)
  /-- R416. Check and write FMTCTX. -/
  | mfmt (p : Bool) (a : BitVec 5)
  /-- R416. Load the code tables from 16 bytes of memory. -/
  | mctld (p : Bool) (a : BitVec 5)
  /-- R416. Set the code tables from two registers. -/
  | mctset (p : Bool) (a : BitVec 5) (b : BitVec 5)
  /-- R305. 64-bit add. -/
  | add (d : BitVec 5) (a : BitVec 5) (b : BitVec 5)
  /-- R305. 64-bit subtract. -/
  | sub (d : BitVec 5) (a : BitVec 5) (b : BitVec 5)
  /-- R305. Bitwise AND. -/
  | and (d : BitVec 5) (a : BitVec 5) (b : BitVec 5)
  /-- R305. Bitwise OR. -/
  | or (d : BitVec 5) (a : BitVec 5) (b : BitVec 5)
  /-- R305. Bitwise XOR. -/
  | xor (d : BitVec 5) (a : BitVec 5) (b : BitVec 5)
  /-- R305. AND with the complement of b. -/
  | andn (d : BitVec 5) (a : BitVec 5) (b : BitVec 5)
  /-- R305. Shift left logical. -/
  | sll (d : BitVec 5) (a : BitVec 5) (b : BitVec 5)
  /-- R305. Shift right logical. -/
  | srl (d : BitVec 5) (a : BitVec 5) (b : BitVec 5)
  /-- R305. Shift right arithmetic. -/
  | sra (d : BitVec 5) (a : BitVec 5) (b : BitVec 5)
  /-- R305. Rotate left. -/
  | rol (d : BitVec 5) (a : BitVec 5) (b : BitVec 5)
  /-- R305. Rotate right. -/
  | ror (d : BitVec 5) (a : BitVec 5) (b : BitVec 5)
  /-- R305. Set if signed less. -/
  | slt (d : BitVec 5) (a : BitVec 5) (b : BitVec 5)
  /-- R305. Set if unsigned less. -/
  | sltu (d : BitVec 5) (a : BitVec 5) (b : BitVec 5)
  /-- R305. Set if equal. -/
  | seq (d : BitVec 5) (a : BitVec 5) (b : BitVec 5)
  /-- R306. Signed minimum. -/
  | min (d : BitVec 5) (a : BitVec 5) (b : BitVec 5)
  /-- R306. Signed maximum. -/
  | max (d : BitVec 5) (a : BitVec 5) (b : BitVec 5)
  /-- R306. Unsigned minimum. -/
  | minu (d : BitVec 5) (a : BitVec 5) (b : BitVec 5)
  /-- R306. Unsigned maximum. -/
  | maxu (d : BitVec 5) (a : BitVec 5) (b : BitVec 5)
  /-- R306. Low 64 bits of the product. -/
  | mul (d : BitVec 5) (a : BitVec 5) (b : BitVec 5)
  /-- R306. High 64 bits of the signed product. -/
  | mulh (d : BitVec 5) (a : BitVec 5) (b : BitVec 5)
  /-- R306. High 64 bits of the unsigned product. -/
  | mulhu (d : BitVec 5) (a : BitVec 5) (b : BitVec 5)
  /-- R306. Signed division. -/
  | div (d : BitVec 5) (a : BitVec 5) (b : BitVec 5)
  /-- R306. Unsigned division. -/
  | divu (d : BitVec 5) (a : BitVec 5) (b : BitVec 5)
  /-- R306. Signed remainder. -/
  | rem (d : BitVec 5) (a : BitVec 5) (b : BitVec 5)
  /-- R306. Unsigned remainder. -/
  | remu (d : BitVec 5) (a : BitVec 5) (b : BitVec 5)
  /-- R306. 32-bit add, sign-extended. -/
  | add32 (d : BitVec 5) (a : BitVec 5) (b : BitVec 5)
  /-- R306. 32-bit subtract, sign-extended. -/
  | sub32 (d : BitVec 5) (a : BitVec 5) (b : BitVec 5)
  /-- R306. 32-bit multiply, sign-extended. -/
  | mul32 (d : BitVec 5) (a : BitVec 5) (b : BitVec 5)
  /-- R307. Multiply-add. -/
  | madd (d : BitVec 5) (a : BitVec 5) (b : BitVec 5) (c : BitVec 5)
  /-- R307. Multiply-subtract from c. -/
  | msub (d : BitVec 5) (a : BitVec 5) (b : BitVec 5) (c : BitVec 5)
  /-- R307. Conditional select. -/
  | csel (d : BitVec 5) (a : BitVec 5) (b : BitVec 5) (c : BitVec 5)
  /-- R307. Count leading zeros. -/
  | clz (d : BitVec 5) (a : BitVec 5)
  /-- R307. Count trailing zeros. -/
  | ctz (d : BitVec 5) (a : BitVec 5)
  /-- R307. Population count. -/
  | popc (d : BitVec 5) (a : BitVec 5)
  /-- R307. Reverse byte order. -/
  | bswap (d : BitVec 5) (a : BitVec 5)
  /-- R307. Sign-extend a byte. -/
  | sextB (d : BitVec 5) (a : BitVec 5)
  /-- R307. Sign-extend a half-word. -/
  | sextH (d : BitVec 5) (a : BitVec 5)
  /-- R307. Sign-extend a word. -/
  | sextW (d : BitVec 5) (a : BitVec 5)
  /-- R307. Zero-extend a word. -/
  | zextW (d : BitVec 5) (a : BitVec 5)
  /-- R308. Add a sign-extended immediate. -/
  | addi (d : BitVec 5) (a : BitVec 5) (i : BitVec 14)
  /-- R308. AND with a sign-extended immediate. -/
  | andi (d : BitVec 5) (a : BitVec 5) (i : BitVec 14)
  /-- R308. OR with a zero-extended immediate. -/
  | ori (d : BitVec 5) (a : BitVec 5) (i : BitVec 14)
  /-- R308. XOR with a zero-extended immediate. -/
  | xori (d : BitVec 5) (a : BitVec 5) (i : BitVec 14)
  /-- R308. Shift left logical by an immediate. -/
  | slli (d : BitVec 5) (a : BitVec 5) (n : BitVec 6)
  /-- R308. Shift right logical by an immediate. -/
  | srli (d : BitVec 5) (a : BitVec 5) (n : BitVec 6)
  /-- R308. Shift right arithmetic by an immediate. -/
  | srai (d : BitVec 5) (a : BitVec 5) (n : BitVec 6)
  /-- R308. Rotate right by an immediate. -/
  | rori (d : BitVec 5) (a : BitVec 5) (n : BitVec 6)
  /-- R308. Set if signed less than an immediate. -/
  | slti (d : BitVec 5) (a : BitVec 5) (i : BitVec 14)
  /-- R308. Set if unsigned less than an immediate. -/
  | sltiu (d : BitVec 5) (a : BitVec 5) (i : BitVec 14)
  /-- R291. Write the sign-extended immediate times 2^13. -/
  | movhi (d : BitVec 5) (i : BitVec 19)
  /-- R291. Shift d left 16 and insert a 16-bit immediate. -/
  | insh (d : BitVec 5) (i : BitVec 16)
  /-- R310. f32 add. -/
  | fadd (d : BitVec 5) (a : BitVec 5) (b : BitVec 5)
  /-- R310. f32 subtract. -/
  | fsub (d : BitVec 5) (a : BitVec 5) (b : BitVec 5)
  /-- R310. f32 multiply. -/
  | fmul (d : BitVec 5) (a : BitVec 5) (b : BitVec 5)
  /-- R310. f32 divide. -/
  | fdiv (d : BitVec 5) (a : BitVec 5) (b : BitVec 5)
  /-- R310. f32 square root. -/
  | fsqrt (d : BitVec 5) (a : BitVec 5)
  /-- R310. f32 minimum. -/
  | fmin (d : BitVec 5) (a : BitVec 5) (b : BitVec 5)
  /-- R310. f32 maximum. -/
  | fmax (d : BitVec 5) (a : BitVec 5) (b : BitVec 5)
  /-- R310. Flip the f32 sign bit. -/
  | fneg (d : BitVec 5) (a : BitVec 5)
  /-- R310. Clear the f32 sign bit. -/
  | fabs (d : BitVec 5) (a : BitVec 5)
  /-- R310. Copy the sign of b onto a. -/
  | fcpsgn (d : BitVec 5) (a : BitVec 5) (b : BitVec 5)
  /-- R310. f32 compare equal. -/
  | fcmeq (d : BitVec 5) (a : BitVec 5) (b : BitVec 5)
  /-- R310. f32 compare less. -/
  | fcmlt (d : BitVec 5) (a : BitVec 5) (b : BitVec 5)
  /-- R310. f32 compare less or equal. -/
  | fcmle (d : BitVec 5) (a : BitVec 5) (b : BitVec 5)
  /-- R310. f32 fused multiply-add. -/
  | ffma (d : BitVec 5) (a : BitVec 5) (b : BitVec 5) (c : BitVec 5)
  /-- R310. f32 fused multiply-subtract. -/
  | ffms (d : BitVec 5) (a : BitVec 5) (b : BitVec 5) (c : BitVec 5)
  /-- R310. Negated f32 fused multiply-add. -/
  | ffnma (d : BitVec 5) (a : BitVec 5) (b : BitVec 5) (c : BitVec 5)
  /-- R310. f32 fused multiply-add of the negated product. -/
  | ffnms (d : BitVec 5) (a : BitVec 5) (b : BitVec 5) (c : BitVec 5)
  /-- R311. Scalar conversion between float and integer types. -/
  | fconv (d : BitVec 5) (a : BitVec 5) (t : Ty) (r : BitVec 2) (s : Bool) (u : Ty)
  /-- R311. Round an f32 to an integral value. -/
  | frint (d : BitVec 5) (a : BitVec 5) (r : BitVec 2)
  /-- R367. Vector add. -/
  | vadd (d : BitVec 5) (a : BitVec 5) (b : BitVec 5) (m : BitVec 3) (t : Ty)
  /-- R367. Saturating vector add. -/
  | vadds (d : BitVec 5) (a : BitVec 5) (b : BitVec 5) (m : BitVec 3) (t : Ty)
  /-- R367. Vector subtract. -/
  | vsub (d : BitVec 5) (a : BitVec 5) (b : BitVec 5) (m : BitVec 3) (t : Ty)
  /-- R367. Saturating vector subtract. -/
  | vsubs (d : BitVec 5) (a : BitVec 5) (b : BitVec 5) (m : BitVec 3) (t : Ty)
  /-- R367. Vector multiply. -/
  | vmul (d : BitVec 5) (a : BitVec 5) (b : BitVec 5) (m : BitVec 3) (t : Ty)
  /-- R367. High half of the vector integer product. -/
  | vmulh (d : BitVec 5) (a : BitVec 5) (b : BitVec 5) (m : BitVec 3) (t : Ty)
  /-- R367. Vector divide. -/
  | vdiv (d : BitVec 5) (a : BitVec 5) (b : BitVec 5) (m : BitVec 3) (t : Ty)
  /-- R367. Vector minimum. -/
  | vmin (d : BitVec 5) (a : BitVec 5) (b : BitVec 5) (m : BitVec 3) (t : Ty)
  /-- R367. Vector maximum. -/
  | vmax (d : BitVec 5) (a : BitVec 5) (b : BitVec 5) (m : BitVec 3) (t : Ty)
  /-- R368. Vector fused multiply-add into vd. -/
  | vfma (d : BitVec 5) (a : BitVec 5) (b : BitVec 5) (m : BitVec 3) (t : Ty)
  /-- R368. Vector fused multiply-subtract. -/
  | vfms (d : BitVec 5) (a : BitVec 5) (b : BitVec 5) (m : BitVec 3) (t : Ty)
  /-- R368. Negated vector fused multiply-add. -/
  | vfnma (d : BitVec 5) (a : BitVec 5) (b : BitVec 5) (m : BitVec 3) (t : Ty)
  /-- R368. Vector fused multiply-add of the negated product. -/
  | vfnms (d : BitVec 5) (a : BitVec 5) (b : BitVec 5) (m : BitVec 3) (t : Ty)
  /-- R369. Vector AND. -/
  | vand (d : BitVec 5) (a : BitVec 5) (b : BitVec 5) (m : BitVec 3) (t : Ty)
  /-- R369. Vector OR. -/
  | vor (d : BitVec 5) (a : BitVec 5) (b : BitVec 5) (m : BitVec 3) (t : Ty)
  /-- R369. Vector XOR. -/
  | vxor (d : BitVec 5) (a : BitVec 5) (b : BitVec 5) (m : BitVec 3) (t : Ty)
  /-- R369. Vector AND with complement. -/
  | vandn (d : BitVec 5) (a : BitVec 5) (b : BitVec 5) (m : BitVec 3) (t : Ty)
  /-- R369. Vector shift left. -/
  | vshl (d : BitVec 5) (a : BitVec 5) (b : BitVec 5) (m : BitVec 3) (t : Ty)
  /-- R369. Vector logical shift right. -/
  | vshr (d : BitVec 5) (a : BitVec 5) (b : BitVec 5) (m : BitVec 3) (t : Ty)
  /-- R369. Vector arithmetic shift right. -/
  | vsra (d : BitVec 5) (a : BitVec 5) (b : BitVec 5) (m : BitVec 3) (t : Ty)
  /-- R369. Vector rotate left. -/
  | vrol (d : BitVec 5) (a : BitVec 5) (b : BitVec 5) (m : BitVec 3) (t : Ty)
  /-- R370. Vector compare equal into a mask. -/
  | vcmpeq (d : BitVec 3) (a : BitVec 5) (b : BitVec 5) (m : BitVec 3) (t : Ty)
  /-- R370. Vector compare not equal into a mask. -/
  | vcmpne (d : BitVec 3) (a : BitVec 5) (b : BitVec 5) (m : BitVec 3) (t : Ty)
  /-- R370. Vector compare less into a mask. -/
  | vcmplt (d : BitVec 3) (a : BitVec 5) (b : BitVec 5) (m : BitVec 3) (t : Ty)
  /-- R370. Vector compare less or equal into a mask. -/
  | vcmple (d : BitVec 3) (a : BitVec 5) (b : BitVec 5) (m : BitVec 3) (t : Ty)
  /-- R371. Select lanes of va or vb by a mask. -/
  | vsel (d : BitVec 5) (a : BitVec 5) (b : BitVec 5) (m : BitVec 3) (t : Ty)
  /-- R375. Vector negate. -/
  | vneg (d : BitVec 5) (a : BitVec 5) (m : BitVec 3) (t : Ty)
  /-- R375. Vector absolute value. -/
  | vabs (d : BitVec 5) (a : BitVec 5) (m : BitVec 3) (t : Ty)
  /-- R375. Vector copy sign. -/
  | vcpsgn (d : BitVec 5) (a : BitVec 5) (b : BitVec 5) (m : BitVec 3) (t : Ty)
  /-- R375. Vector move. -/
  | vmov (d : BitVec 5) (a : BitVec 5) (m : BitVec 3) (t : Ty)
  /-- R367. Vector square root. -/
  | vsqrt (d : BitVec 5) (a : BitVec 5) (m : BitVec 3) (t : Ty)
  /-- R248. Vector base-2 exponential. -/
  | vexp2 (d : BitVec 5) (a : BitVec 5) (m : BitVec 3) (t : Ty)
  /-- R249. Vector base-2 logarithm. -/
  | vlog2 (d : BitVec 5) (a : BitVec 5) (m : BitVec 3) (t : Ty)
  /-- R250. Vector reciprocal. -/
  | vrcp (d : BitVec 5) (a : BitVec 5) (m : BitVec 3) (t : Ty)
  /-- R251. Vector reciprocal square root. -/
  | vrsqrt (d : BitVec 5) (a : BitVec 5) (m : BitVec 3) (t : Ty)
  /-- R385. Counter-based mixer on n32 lanes. -/
  | vmix32 (d : BitVec 5) (a : BitVec 5) (b : BitVec 5) (m : BitVec 3)
  /-- R385. Mixer giving a uniform f32 in [0, 1). -/
  | vmix32u (d : BitVec 5) (a : BitVec 5) (b : BitVec 5) (m : BitVec 3)
  /-- R385. Mixer giving a uniform f32 between lo and hi. -/
  | vmix32r (d : BitVec 4) (a : BitVec 5) (b : BitVec 5) (m : BitVec 3)
  /-- R382. Tree sum reduction. -/
  | vrsum (d : BitVec 5) (a : BitVec 5) (m : BitVec 3) (t : Ty)
  /-- R382. Maximum reduction with lane index. -/
  | vrmax (d : BitVec 5) (a : BitVec 5) (m : BitVec 3) (t : Ty)
  /-- R382. Minimum reduction with lane index. -/
  | vrmin (d : BitVec 5) (a : BitVec 5) (m : BitVec 3) (t : Ty)
  /-- R383. Inclusive sum scan. -/
  | vscsum (d : BitVec 5) (a : BitVec 5) (m : BitVec 3) (t : Ty)
  /-- R383. Inclusive maximum scan. -/
  | vscmax (d : BitVec 5) (a : BitVec 5) (m : BitVec 3) (t : Ty)
  /-- R383. Inclusive minimum scan. -/
  | vscmin (d : BitVec 5) (a : BitVec 5) (m : BitVec 3) (t : Ty)
  /-- R376. Permute lanes by an index vector. -/
  | vperm (d : BitVec 5) (a : BitVec 5) (b : BitVec 5) (m : BitVec 3) (t : Ty)
  /-- R376. Pack the active lanes and zero the rest. -/
  | vcompr (d : BitVec 5) (a : BitVec 5) (m : BitVec 3) (t : Ty)
  /-- R377. Broadcast a g register into the active lanes. -/
  | vbcast (d : BitVec 5) (a : BitVec 5) (m : BitVec 3) (t : Ty)
  /-- R377. Broadcast one lane of va into the active lanes. -/
  | vsplat (d : BitVec 5) (a : BitVec 5) (b : BitVec 5) (m : BitVec 3) (t : Ty)
  /-- R377. Insert a g register into one lane. -/
  | vins (d : BitVec 5) (a : BitVec 5) (b : BitVec 5) (t : Ty)
  /-- R377. Extract one lane into a g register. -/
  | vext (d : BitVec 5) (a : BitVec 5) (b : BitVec 5) (t : Ty)
  /-- R379. Vector conversion between element types, with register groups for width changes. -/
  | vcvt (d : BitVec 5) (a : BitVec 5) (t : Ty) (r : BitVec 2) (s : Bool) (h : Bool) (m : BitVec 2) (u : Ty)
  /-- R380. Quantise 48 f32 values into an sb8 block. -/
  | vqblkSb8 (d : BitVec 5) (a : BitVec 5) (r : BitVec 2) (s : Bool)
  /-- R380. Quantise 48 f32 values into an sb4 block. -/
  | vqblkSb4 (d : BitVec 5) (a : BitVec 5) (r : BitVec 2) (s : Bool)
  /-- R381. Dequantise an sb8 block into 48 f32 values. -/
  | vdqblkSb8 (d : BitVec 5) (a : BitVec 5)
  /-- R381. Dequantise an sb4 block into 48 f32 values. -/
  | vdqblkSb4 (d : BitVec 5) (a : BitVec 5)
  /-- R372. Mask AND. -/
  | mand (d : BitVec 3) (a : BitVec 3) (b : BitVec 3)
  /-- R372. Mask OR. -/
  | mor (d : BitVec 3) (a : BitVec 3) (b : BitVec 3)
  /-- R372. Mask XOR. -/
  | mxor (d : BitVec 3) (a : BitVec 3) (b : BitVec 3)
  /-- R372. Mask AND with complement. -/
  | mandn (d : BitVec 3) (a : BitVec 3) (b : BitVec 3)
  /-- R373. Copy a mask to a g register. -/
  | mtog (d : BitVec 5) (a : BitVec 3)
  /-- R373. Copy a g register to a mask. -/
  | gtom (d : BitVec 3) (a : BitVec 5)
  /-- R373. Count set mask bits below the lane count. -/
  | mpopc (d : BitVec 5) (a : BitVec 3) (t : Ty)
  /-- R373. Index of the first set mask bit. -/
  | mfirst (d : BitVec 5) (a : BitVec 3) (t : Ty)
  /-- R374. Write to each active lane the count of active lanes below it. -/
  | viota (d : BitVec 5) (m : BitVec 3) (t : Ty)
  /-- R386. F64V vector add. -/
  | vaddF64 (d : BitVec 5) (a : BitVec 5) (b : BitVec 5) (m : BitVec 3)
  /-- R386. F64V vector subtract. -/
  | vsubF64 (d : BitVec 5) (a : BitVec 5) (b : BitVec 5) (m : BitVec 3)
  /-- R386. F64V vector multiply. -/
  | vmulF64 (d : BitVec 5) (a : BitVec 5) (b : BitVec 5) (m : BitVec 3)
  /-- R386. F64V vector divide. -/
  | vdivF64 (d : BitVec 5) (a : BitVec 5) (b : BitVec 5) (m : BitVec 3)
  /-- R386. F64V fused multiply-add. -/
  | vfmaF64 (d : BitVec 5) (a : BitVec 5) (b : BitVec 5) (m : BitVec 3)
  /-- R386. F64V fused multiply-subtract. -/
  | vfmsF64 (d : BitVec 5) (a : BitVec 5) (b : BitVec 5) (m : BitVec 3)
  /-- R386. F64V negated fused multiply-add. -/
  | vfnmaF64 (d : BitVec 5) (a : BitVec 5) (b : BitVec 5) (m : BitVec 3)
  /-- R386. F64V fused multiply-add of the negated product. -/
  | vfnmsF64 (d : BitVec 5) (a : BitVec 5) (b : BitVec 5) (m : BitVec 3)
  /-- R386. F64V vector minimum. -/
  | vminF64 (d : BitVec 5) (a : BitVec 5) (b : BitVec 5) (m : BitVec 3)
  /-- R386. F64V vector maximum. -/
  | vmaxF64 (d : BitVec 5) (a : BitVec 5) (b : BitVec 5) (m : BitVec 3)
  /-- R386. F64V vector square root. -/
  | vsqrtF64 (d : BitVec 5) (a : BitVec 5) (m : BitVec 3)
  /-- R386. F64V tree sum reduction. -/
  | vrsumF64 (d : BitVec 5) (a : BitVec 5) (m : BitVec 3)
  /-- R386. F64V conversion to or from f64. -/
  | vcvtF64 (d : BitVec 5) (a : BitVec 5) (t : Ty) (r : BitVec 2) (s : Bool) (h : Bool) (m : BitVec 2) (u : Ty)
  /-- R27. A supply ramp clears all device state, DRAM contents included, and keeps the fuses and the non-volatile failure record. -/
  | powerOnReset
  /-- R28. A host platform reset or a PCIe function-level reset runs the write-back sweep, then resets cores, slices, network, front end and translation caches and restarts firmware from the boot ROM. -/
  | deviceReset
  /-- R35. A boot layer checks the next layer's image in slot A and then slot B, measures it, derives its secret and key, erases its own secret and jumps to it, or stops boot with FWSTAT.FAIL. -/
  | bootLayer (layer : Nat)
  /-- R28. Firmware resets one cluster: started messages leave whole, uncommitted send buffers are discarded, allowances are returned, and the homes extract M and O lines from the retained L1 arrays. -/
  | clusterReset (c : Nat)
  /-- R16. The adapter retrains the host link on its own or at the host's request, keeps all device state and replays in-flight flits. -/
  | linkReset
  /-- R16. A lane fault that lane repair cannot cover degrades its module to x32, or takes the module out of service, and is recorded as a corrected link error. -/
  | laneFault (module : Nat) (covered : Bool)
  /-- R16. Neither module trains within 1 ms after a link reset, and the device raises a device-fatal error. -/
  | linkTrainTimeout
  /-- R19. An LPDDR6 channel fails in service: later accesses to it return poisoned data and firmware records the failure for the next device reset. -/
  | channelFailure (ch : Nat) (atBoot : Bool)
  /-- R31. A corrected error is counted and logged in the control-tile ring; a count of 16 within 2^32 cycles makes the unit unit-fatal, and a slice way is then retired. -/
  | correctedError (unit : HwUnit) (addr : Word)
  /-- R21. A droop detector trips and the cluster's A-clock runs at twice its nominal period from the first or second edge after the trip. -/
  | droopTrip (c : Nat)
  /-- R21. After 64 stretched cycles counted from the recovery of the supply, stretching of the cluster's A-clock ends. -/
  | droopStretchEnd (c : Nat)
  /-- R20. A cluster's A-clock generator, having locked the new frequency, switches to it at one A-clock edge. -/
  | clockFrequencySwitch (c : Nat)
  /-- R24. A cluster with no ready thread gates its A-clock while its cycle counter keeps counting. -/
  | ls1Entry (c : Nat)
  /-- R25. A cluster with no partition assigned writes back its L1s, has its cores dropped as sharers and is power-gated. -/
  | ls2Entry (c : Nat)
  /-- R24. After 2^14 F-cycles without ECI traffic, with every cluster in LS2 and every queue idle, the device stops the S-clock and puts the slices in retention and the DRAM in self refresh. -/
  | ls3Entry
  /-- R24. With the LS3 conditions met and the host link idle, the front end turns off, the link enters its low-power state and the control tile enters retention. -/
  | ls4Entry
  /-- R25. A request, doorbell or event aborts a state entry or wakes the device or cluster, which serves it within the exit latency of the state. -/
  | powerStateExit (c : Nat)
  /-- R32. A control core with no pending work gates its clock and keeps its registers and the tile SRAM. -/
  | retentionSleep (k : Nat)
  /-- R32. A doorbell to a non-resident queue, a policy event, an error record or an MBCMD write wakes a sleeping control core within 200 F-cycles. -/
  | controlCoreWake (k : Nat)
  /-- R25. A write of the latency tolerance sets the deepest permitted power state and, if lowered, makes the device exit at once to a state that meets it. -/
  | lattolWrite (v : Word)
  /-- R22. A write of the package power limit, clamped to 15–90 W, makes the front end choose a new operating point. -/
  | pwrlimitWrite (v : Word)
  /-- R37. Mailbox command 0x01 writes the measurement log entries to the mailbox buffer. -/
  | readlog
  /-- R38. Mailbox command 0x02 reads the host's nonce and writes an attestation report signed with the Alias key over it. -/
  | report
  /-- R39. Mailbox command 0x03 writes the error records of the ring, oldest first. -/
  | readerr
  /-- R36. Mailbox command 0x04 checks an image and writes it to the slot of its layer that did not boot, raising the fused minimum SVN when ARG bit 0 asks for it. -/
  | stage
  /-- R39. An MBCMD write with an unlisted OP completes with status BADOP. -/
  | badop
  /-- R39. A mailbox command finishes: MBRSP.BUSY clears, STATUS and LENGTH are set, and MSI-X vector 1 fires. -/
  | mailboxCompletion
  /-- R104. QCTL operation 1 removes a queue from the resident filter once no packet of it is started and incomplete. -/
  | evict (q : Nat)
  /-- R104. QCTL operation 2 returns a queue from ERROR to READY, restarting a packet that failed in processing. -/
  | resume (q : Nat)
  /-- R104. QCTL operation 3 returns a queue from ERROR to READY, advancing the head past a packet that failed in processing. -/
  | skip (q : Nat)
  /-- R104. QCTL operation 4 stops a queue: started packets run to completion and later doorbells are ignored. -/
  | disable (q : Nat)
  /-- R104. A QCTL write with an unlisted OP sets RESULT 1. -/
  | qctlBadOperation (q : Nat)
  /-- R106. A write of TAIL to a queue's doorbell page makes the queue READY, records a pending doorbell for a non-resident queue, or puts the queue in ERROR with OVERRUN. -/
  | doorbell (q : Nat) (off : Nat) (len : Nat) (v : Word)
  /-- R132. A write of the service-image register is stored unless a partition context exists, and the first EN = 1 makes the scheduler create the standby contexts. -/
  | svcimgWrite (v : Word)
  /-- R6. A write to a memory-mapped register with no behaviour of its own stores its RW fields and ignores reserved bits. -/
  | registerWrite (off : Nat) (v : Word)
  /-- R74. The host disables and enables the PRI capability, which clears the PRI Stopped state. -/
  | priEnable (on : Bool)
  /-- R109. Firmware makes a pending queue resident, evicting an idle resident queue, checks its entry and sorter program, and replays the pending tail. -/
  | queueLoad (q : Nat)
  /-- R110. A free packet processor takes the READY queue of highest priority, round-robin among equals, for a queue slice. -/
  | queueSelect (pr : Nat)
  /-- R111. A queue slice expires and the processor leaves the queue once the packet in processing completes, carrying any overrun into the next slice. -/
  | queueSliceExpiry (pr : Nat)
  /-- R114. A NOP packet takes no action and, with BARRIER set, acts as a queue fence. -/
  | nopPacket (q : Nat)
  /-- R124. A LAUNCH packet checks the child RCB and partition word and creates a PENDING child region. -/
  | launchPacket (q : Nat)
  /-- R115. A COPY packet hands a copy or pattern fill to the block copier. -/
  | copyPacket (q : Nat)
  /-- R115. A BMV packet reads and checks a BMV job card and starts the job. -/
  | bmvPacket (q : Nat)
  /-- R115. A SIGNAL packet performs ADD, OR or SWAP at the home as a release at system scope. -/
  | signalPacket (q : Nat)
  /-- R115. A WAIT packet reads a word and parks the queue until the masked word meets its comparison. -/
  | waitPacket (q : Nat)
  /-- R115. A parked WAIT re-reads its word every 256 F-cycles, or at once when a SIGNAL or WRITE_SIGNAL completes, and unparks the queue when the condition holds. -/
  | waitPoll (q : Nat)
  /-- R115. A WAIT whose limit passes fails its packet with TIMEOUT. -/
  | waitTimeout (q : Nat)
  /-- R115. A WRITE_SIGNAL packet writes up to 32 bytes with WRNC, waits for completion and then adds SIGVAL at the signal word. -/
  | writeSignalPacket (q : Nat)
  /-- R118. A BIND packet checks the target queue and root RCB, performs the PASID binding of R80 and gives the queue its new PASID and effective values. -/
  | bindPacket (q : Nat)
  /-- R118. A BIND packet with UNBIND set removes the target queue's binding through the invalidation and generation steps. -/
  | unbindPacket (q : Nat)
  /-- R81. The service sends a PRI Stop Marker for an unbound PASID once its outstanding page requests have been answered or have timed out. -/
  | priStopMarker (pasid : Nat)
  /-- R119. A CUSTOM packet runs the queue's sorter program and starts up to four emitted packets in its place. -/
  | customPacket (q : Nat)
  /-- R120. A packet completes at system scope, and with CMPL set the front end adds 1 at CNTVA and to the coalescer's pending count. -/
  | packetComplete (q : Nat) (idx : Nat)
  /-- R121. The coalescer's hold timer reaches HOLD + 1 and the coalescer fires. -/
  | coalescerHoldExpiry (q : Nat)
  /-- R71. An ATS Translation Completion arrives and is installed and used, or leads to a page request, ACCESS or PAGE_FAIL. -/
  | atsTranslationCompletion (c : AtsCompletion)
  /-- R74. A PRI response arrives: Success wakes the waiters to reissue, Invalid Request fails them with PAGE_FAIL, and Response Failure also stops PRI. -/
  | pageRequestResponse (prg : Nat) (code : PriCode)
  /-- R74. A page request gets no response within 2^26 F-cycles: its waiters take PAGE_FAIL and a corrected host-port error is logged. -/
  | pageRequestTimeout (prg : Nat)
  /-- R78. An ATS Invalidate Request removes matching ATC entries and is sent to every CTU, which removes its entries. -/
  | atsInvalidateRequest (r : AtsInvalidate)
  /-- R78. When every CTU has acknowledged that the accesses translated with removed entries have completed, the service sends the Invalidation Completion. -/
  | invalidationCompletion (itag : Nat)
  /-- R52. A read-for-sharing request is served at the home by the directory state of the line's node. -/
  | rds (x : Msg)
  /-- R52. A read-for-ownership request is served at the home, probing other holders and granting M. -/
  | rdx (x : Msg)
  /-- R52. An upgrade request invalidates the other holders and grants M with GM or DM. -/
  | upg (x : Msg)
  /-- R52. A non-caching read returns the bytes named, recalling owned data by SSHR. -/
  | rdnc (x : Msg)
  /-- R52. A non-caching partial write invalidates holders and writes at home. -/
  | wrnc (x : Msg)
  /-- R52. A non-caching whole-line write invalidates holders and writes the line at home. -/
  | wrf (x : Msg)
  /-- R61. A far atomic pins the node, recalls the line, performs the operation at the home and returns the old value in ATR. -/
  | atom (x : Msg)
  /-- R62. A load-locked request returns the line's data in LKD and records a reservation. -/
  | llk (x : Msg)
  /-- R62. A store-conditional writes at home and returns CMP if its reservation is present, and SCF otherwise. -/
  | sck (x : Msg)
  /-- R63. A watch request is recorded in the watch table, the word is read, and WOKE is returned at once if the word differs from the comparand. -/
  | watch (x : Msg)
  /-- R46. A REQ from an ECI agent with a core-only or reserved opcode, GNT set or a reserved field is answered CMP with ERR and logged. -/
  | eciMalformedRequest (h : BitVec 128)
  /-- R54. Two sibling nodes free of requests for 2^18 S-cycles with equal records merge into their parent. -/
  | nodeMerge (sl : Nat) (region : Nat) (level : Nat) (path : Nat)
  /-- R164. A replica without a request for 2^18 S-cycles is removed by RDRM and RREC. -/
  | replicaDrop (sl : Nat) (line : Nat)
  /-- R165. A DRAM fill overwrites the waiting list, the slice serves the missing and listed requests in order and fires the way's wake tag. -/
  | dramFill (sl : Nat) (line : Nat)
  /-- R166. A request waiting on a busy line or set re-enters the slice pipeline every 32 S-cycles. -/
  | replayRetry (sl : Nat)
  /-- R64. An ECI agent that does not answer a probe within 2^20 S-cycles has the transaction completed, the line poisoned in the slice and a unit-fatal host-port error logged. -/
  | probeTimeout (sl : Nat) (line : Nat) (agent : Nat)
  /-- R47. An invalidating probe reaches a caching agent, which invalidates the line and answers PACK or PDAT, subject to the version test. -/
  | sinv (x : Msg)
  /-- R47. A downgrading probe turns M into O and E into S and returns dirty data. -/
  | sshr (x : Msg)
  /-- R47. A region probe invalidates every S copy in a 64 KiB region at an agent. -/
  | sbinv (x : Msg)
  /-- R47. A data reply granting S completes a fill and applies deferred probes. -/
  | ds (x : Msg)
  /-- R47. A data reply granting E completes a fill and applies deferred probes. -/
  | de (x : Msg)
  /-- R47. A data reply granting M completes a fill or an upgrade and applies deferred probes. -/
  | dm (x : Msg)
  /-- R47. A grant of M without data completes an upgrade from SM_A or OM_A. -/
  | gm (x : Msg)
  /-- R46. A completion of RDNC, WRNC, WRF, SCK, a multicast delivery or a capsule's last chunk reaches its requester. -/
  | cmp (x : Msg)
  /-- R159. An atomic result returns the old value, and a combined result is split into two replies at the first diverging reply switch. -/
  | atr (x : Msg)
  /-- R62. Load-locked data reaches the requesting core and binds to the thread. -/
  | lkd (x : Msg)
  /-- R62. A store-conditional failure reaches the requesting core and gives status 1. -/
  | scf (x : Msg)
  /-- R354. A watch reply reaches the core and binds the WAITA status to the thread. -/
  | woke (x : Msg)
  /-- R46. A retry response tells an agent to resend its request when it chooses. -/
  | rty (x : Msg)
  /-- R47. Write-back accepted: the agent's XI_A line becomes I. -/
  | wba (x : Msg)
  /-- R47. Write-back cancelled: the agent's XI_A line becomes I. -/
  | wbx (x : Msg)
  /-- R48. A probe response without data reaches the home, which matches it by version to its outstanding probe. -/
  | pack (x : Msg)
  /-- R59. A probe response with data reaches the home, which takes the data and uses the stale write-back filter when WB = 1. -/
  | pdat (x : Msg)
  /-- R59. A dirty write-back reaches the home and is accepted with WBA or cancelled with WBX by the filter and version tests. -/
  | wbd (x : Msg)
  /-- R59. A clean eviction reaches the home, which drops the pointer of a level-10 node and answers WBA or WBX. -/
  | evc (x : Msg)
  /-- R44. A credit return adds LENM1 + 1 credits for the class in ATOP. -/
  | crd (x : Msg)
  /-- R60. Every 64 A-cycles while the write-back queue is empty, the L1 writes back one dirty line of an absent context. -/
  | l1BackgroundSweep (core : Nat)
  /-- R161. A masked multicast read opens or joins a merge entry at the home, or is served alone. -/
  | mcrd (x : Msg)
  /-- R161. A merge window closes 64 S-cycles after its first MCRD, and the entry is served once the line's data is at hand. -/
  | mcrdWindowClose (sl : Nat) (entry : Nat)
  /-- R162. A multicast data reply is split at reply switches and written into each receiving pool, counted at its barrier and answered with CMP. -/
  | mcd (x : Msg)
  /-- R156. A remote scratchpad write is applied at the owner core, which returns the copy allowance and answers SPDAT. -/
  | spwr (x : Msg)
  /-- R156. A remote scratchpad read is performed at the owner core and answered with SPDAT. -/
  | sprd (x : Msg)
  /-- R209. A remote synchronising, atomic, barrier or cancel access is performed, parked or refused with CAPACITY at the owner core. -/
  | spsy (x : Msg)
  /-- R209. A requester's interface resends an SPSY refused with CAPACITY after 128 S-cycles. -/
  | spsyResend (core : Nat) (txid : Nat)
  /-- R156. The reply to a remote scratchpad access reaches the requester and binds data or completes the access. -/
  | spdat (x : Msg)
  /-- R163. A replica push installs a hot line's replica at a helper slice. -/
  | repl (x : Msg)
  /-- R164. A replica recall removes a helper's replica, which answers PACK. -/
  | rrec (x : Msg)
  /-- R163. A redirect install adds a redirect entry at an interface, or is refused with CAPACITY. -/
  | rdin (x : Msg)
  /-- R164. A redirect removal drops an interface's redirect for a line. -/
  | rdrm (x : Msg)
  /-- R169. A landing-slot grant reaches the sender, which then sends the capsule's chunks, or returns it if its context is not resident. -/
  | grant (x : Msg)
  /-- R170. A RET returns a landing slot granted but unused, or refuses an LREQ so that the sender resends it later. -/
  | alwRet (x : Msg)
  /-- R171. A copy-allowance return restores LENM1 + 1 allowances for the destination. -/
  | cret (x : Msg)
  /-- R405. A SHARER notice acknowledgement lowers the slice's count of unacknowledged notices. -/
  | dsack (x : Msg)
  /-- R168. A user message enters the destination core's inbox, its deferred ring, or the spill inbox in spill mode. -/
  | userMessage (x : Msg)
  /-- R133. A decrement message subtracts from a task record's COUNT at its home core, appends the record to the run list at zero and records a fault event on underflow. -/
  | dec (x : Msg)
  /-- R144. A fault notice reaches a core named in FNMASK for delivery by the dispatcher. -/
  | notice (x : Msg)
  /-- R404. A directory-service notice enters the service core's notice queue. -/
  | dirsvc (x : Msg)
  /-- R169. A landing-slot request is granted a free slot, queued, or refused with RET when 64 are queued. -/
  | lreq (x : Msg)
  /-- R169. The sender's interface sends a refused LREQ again 256 S-cycles later. -/
  | lreqResend (ck : Nat) (ctag : Nat)
  /-- R277. A capsule chunk lands in its granted slot, and the last one makes the capsule LANDED, counts a hop and is answered with CMP. -/
  | chunk (x : Msg)
  /-- R141. An interface offers a message held because a deferred ring was full again every 128 S-cycles. -/
  | deferredMessageRetry (x : Msg)
  /-- R153. A flit fails its CRC and the sender replays from that flit, and after 16 failures in a row the link is unit-fatal. -/
  | networkLinkRetry (link : Nat) (cured : Bool)
  /-- R124. A PENDING region becomes RUNNABLE once save slots are reserved for its partitions, and its pass is set. -/
  | regionRunnable (r : Nat)
  /-- R127. A resident region's slice count reaches SLICE, its pass advances and a scheduling point occurs. -/
  | regionSliceExpiry (r : Nat)
  /-- R125. A quiescent region ends: STATE := ENDED, its partitions and save slots are freed and its LAUNCH packet completes. -/
  | regionEnd (r : Nat)
  /-- R140. All partitions of a pre-empted region halt threads at unit boundaries, pause copy jobs and finish MMAs. -/
  | partitionHalt (r : Nat) (p : Nat)
  /-- R141. The context-save engine moves the outgoing context to a pond bay or its save slot and brings in the incoming context or a first placement. -/
  | contextSwap (c : Nat)
  /-- R141. A pond bay whose context is not selected is written to the context's save slot and freed. -/
  | bayBackgroundWrite (bay : Nat)
  /-- R137. Every 2^14 A-cycles of a core whose roster exceeds 15, the scheduler requests pre-emption of one resident thread and restores the longest-out ready SAVED thread. -/
  | rosterMultiplex (ck : Nat)
  /-- R135. A READY thread with a pre-emption request that reaches no PPT within GRACE is saved in full. -/
  | graceExpiry (tk : Nat)
  /-- R143. A thread's heartbeat count reaches zero: it stops, its sends are fenced, its unstarted job cards are cancelled and a fault event of kind 1 arises. -/
  | heartbeatMiss (tk : Nat)
  /-- R134. The dispatcher gives the earliest WAITW thread a fault notice, capsule, fault task, task, notice or message and makes it READY. -/
  | dispatch (ck : Nat)
  /-- R210. A thread's wait count reaches WAITLIMIT: a full/empty wait is removed or cancelled with SYNC_TIMEOUT, a WAITBAR or receive traps, and WAITA binds status 3. -/
  | waitLimitExpiry (tk : Nat)
  /-- R231. CYCLE reaches CYCLECMP and INTPEND.TIMER is set. -/
  | timerExpiry (tk : Nat)
  /-- R231. An enabled pending interrupt is taken at a unit boundary of a READY thread, SLUICE before TIMER. -/
  | interruptEntry (tk : Nat)
  /-- R198. A poisoned long-latency result is raised as POISON when the thread needs it or its window ends. -/
  | deferredPoison (tk : Nat)
  /-- R212. The core's transfer unit fetches an in-flume entry or writes an out-flume entry, and sends a drain pulse after an out-flume's last entry. -/
  | flumeTransfer (tk : Nat) (k : Nat)
  /-- R217. The core's task scheduler starts a queued card once no earlier card with an overlapping footprint is running. -/
  | jobCardStart (ck : Nat) (id : Nat)
  /-- R216. A copy whose elements have all landed writes its status word and sends a copy-done pulse. -/
  | copyJobComplete (ck : Nat) (id : Nat)
  /-- R455. A job whose status word cannot be translated ends without it and raises a fault event of kind 2. -/
  | jobStatusFail (ck : Nat) (id : Nat)
  /-- R223. Each A-cycle an outlet with a true term fires its launch, wake or message action and subtracts its thresholds. -/
  | sluiceOutletFire (ck : Nat) (o : Nat)
  /-- R264. When the matrix unit is free it serves the oldest request of the next core in rotation, reloading its format context if needed. -/
  | matrixRequestServe (c : Nat)
  /-- R265. An MMA or factorisation ends and its tile and registers are bound to the issuing thread. -/
  | matrixResultBind (c : Nat) (id : Nat)
  /-- R264. A factorisation column step ends and the factorisation gives up the unit if another core waits. -/
  | factorisationStepEnd (c : Nat)
  /-- R267. A matrix long operation finishes its MMAs, writes its status word and sends a matrix-done pulse. -/
  | mlongComplete (ck : Nat) (id : Nat)
  /-- R91. A BMV job translates its footprint, checks layout, sweeps its slabs and broadcasts x to the bank latches. -/
  | bmvJobStart (j : Nat)
  /-- R92. A bank command writes words into a bank's vector latch. -/
  | xld (u : Nat) (off : Nat) (x : List (BitVec 256))
  /-- R92. A bank command starts a pass computing partial sums of local rows into the partial buffer. -/
  | brun (u : Nat) (run : BankRun)
  /-- R98. A bank command suspends a pass at the next block boundary so that normal accesses are served. -/
  | bhalt (u : Nat)
  /-- R92. A bank command resumes a suspended pass. -/
  | bres (u : Nat)
  /-- R92. A bank command returns FP32 partial sums with poison flags to the reducer. -/
  | prd (u : Nat) (first : Nat) (count : Nat)
  /-- R91. A bank unit finishes a batch of up to 256 local rows and its partials are read into the reducer. -/
  | bankPassBatchEnd (j : Nat)
  /-- R99. The reducer writes y, counts scratchpad bytes at the barrier, writes the status word and sends the completion pulse. -/
  | bmvJobCompletion (j : Nat)
  /-- R279. A capsule is dead-lettered: its fault record is written and the image is written into the dead-letter box or discarded, with a fault event of kind 3. -/
  | deadLetter (ck : Nat) (id : Nat)
  /-- R407. Every 2^24 S-cycles while a home waits for DSDONE it logs a corrected error of the slice. -/
  | dsdoneWaitLog (sl : Nat) (line : Nat)
  /-- R16. A flit on the UCIe host link fails its CRC, the die-to-die adapter replays it, and a corrected error of the link is recorded. -/
  | adapterRetry (module : Nat)
  /-- R21. The core supply of a tripped cluster rises back above the trip level, and the count of 64 stretched cycles starts from zero. -/
  | supplyRecovery (c : Nat)
  /-- R29. A core, way, slice or control core fails unrecoverably, and the unit is mapped out, or the device becomes device-fatal when both control cores fail. -/
  | unrecoverableFailure (unit : HwUnit)
  deriving DecidableEq, Repr

end Sys2Proof
end

