-- ==== Sys2Proof/WellFormed.lean ====
section
/-!
DEFINITION. What the opcode map asks of an instruction's operands beyond their field widths: the type classes of R295,
the conversions of R311, R378 and R386, and the register groups of R379 to R381. A word that breaks one of these raises
ILLEGAL_OP (R288). The device's steps name their units; a step that names a unit the device lacks is ill-formed.
-/

namespace Sys2Proof

/-- Width in bits of an element type (R232). -/
def Ty.width : Ty → Nat
  | .i8 | .n8 | .f8e4 | .f8e5 => 8
  | .i16 | .n16 | .bf16 | .f16 => 16
  | .i32 | .n32 | .f32 => 32
  | .i64 | .n64 | .f64 => 64

/-- Type class I of R295: codes 0x0 to 0x7. -/
def Ty.isI : Ty → Bool
  | .i8 | .i16 | .i32 | .i64 | .n8 | .n16 | .n32 | .n64 => true
  | _ => false

/-- The signed integer types. -/
def Ty.isSigned : Ty → Bool
  | .i8 | .i16 | .i32 | .i64 => true
  | _ => false

/-- Type class F of R295. -/
def Ty.isF : Ty → Bool
  | .bf16 | .f16 | .f32 => true
  | _ => false

/-- Type class F8 of R295. -/
def Ty.isF8 : Ty → Bool
  | .f8e4 | .f8e5 => true
  | _ => false

/-- Type class X of R295: any code but 0xB. -/
def Ty.isX : Ty → Bool
  | .f64 => false
  | _ => true

/-- The number of lanes of a vector of this type (R362). -/
def Ty.lanes (t : Ty) : Nat := 512 / t.width

/-- The reason an instruction is not well-formed. -/
inductive WfError where
  /-- The type lies outside the class R295 gives for the major and selector. -/
  | typeClass
  /-- The pair of types, the rounding mode, SAT or H is one that the conversion does not allow (R311, R378, R386). -/
  | conversion
  /-- A register group runs past v31 (R363, R378, R380, R381). -/
  | registerGroup
  /-- The step names a unit that the device does not have. -/
  | noSuchUnit
  deriving DecidableEq, Repr

/-- A check that gives `e` when the condition fails. -/
def WfError.unless (e : WfError) (b : Bool) : Option WfError := if b then none else some e

/-- R378: a conversion that is always exact: float to a wider float, integer to integer, or f8e4 or f8e5 to f16, bf16
or f32. -/
def Ty.exactTo (ts td : Ty) : Bool :=
  (ts.isI && td.isI) || (!ts.isI && !td.isI && td.width > ts.width)

/-- The length of the register group of a conversion (R379): half the width ratio, at least one. -/
def Ty.group (ts td : Ty) : Nat :=
  let r := (Nat.max ts.width td.width) / (Nat.min ts.width td.width)
  Nat.max 1 (r / 2)

/-- R378 (and R386 for the f64 forms): the field combinations that `vcvt` allows, its type class apart. -/
def vcvtFields (d a : BitVec 5) (td ts : Ty) (rm : BitVec 2) (sat h : Bool) : Option WfError :=
  if td = ts then some .conversion
  else if rm ≠ 0 ∧ ts.exactTo td then some .conversion
  else if sat ∧ (ts.isI == td.isI) ∧ td.width > ts.width then some .conversion
  else if h ∧ td.width = ts.width then some .conversion
  else if td.width < ts.width ∧ a.toNat + ts.group td > 32 then some .registerGroup
  else if td.width > ts.width ∧ d.toNat + ts.group td > 32 then some .registerGroup
  else none

/-- The types that `fconv` names (R311). -/
def Ty.isFconv : Ty → Bool
  | .f32 | .f16 | .bf16 | .i32 | .i64 | .n32 | .n64 => true
  | _ => false

/-- R311: the field combinations that `fconv` allows. -/
def fconvFields (td ts : Ty) (sat : Bool) : Option WfError :=
  if !td.isFconv || !ts.isFconv then some .typeClass
  else if td = ts || (td.isI && ts.isI) then some .conversion
  else if sat && !(td.isF && ts.isF && td ≠ .f32) then some .conversion
  else none

/-- R386: one type is f64 and the other is of class F, i32, i64, n32 or n64. -/
def f64Pair (td ts : Ty) : Bool :=
  let other : Ty → Bool := fun t => t.isF || t = .i32 || t = .i64 || t = .n32 || t = .n64
  (td = .f64 && other ts) || (ts = .f64 && other td)

/-- R421: the element types of ZRD and ZWR. -/
def Ty.isTile : Ty → Bool
  | .i8 | .i16 | .i32 | .n8 | .n16 | .n32 | .bf16 | .f16 | .f32 | .f8e4 | .f8e5 => true
  | _ => false

/-- A message names identities of eight bits and a line of the 48-bit physical address space (R40, R45). -/
def Msg.wf (x : Msg) : Bool :=
  x.src < 256 && x.dst < 256 && x.line < 2 ^ 42 && x.off < 64 && 1 ≤ x.len && x.len ≤ 64 && x.txid < 4096 &&
    x.atop < 16 && x.stat < 3

/-- The reason an instruction is not well-formed, or `none`. -/
def Instr.wfError : Instr → Option WfError
  | .beq _ _ _ _ => none
  | .bne _ _ _ _ => none
  | .blt _ _ _ _ => none
  | .bge _ _ _ _ => none
  | .bltu _ _ _ _ => none
  | .bgeu _ _ _ _ => none
  | .bdec _ _ _ _ => none
  | .btagf _ _ _ => none
  | .btage _ _ _ => none
  | .bany _ _ _ => none
  | .bnone _ _ _ => none
  | .ball _ _ _ => none
  | .bnall _ _ _ => none
  | .jmp _ _ => none
  | .call _ _ => none
  | .jr _ _ => none
  | .callr _ _ => none
  | .ret _ => none
  | .yield _ => none
  | .hbeat _ => none
  | .cnop _ => none
  | .sendw _ _ _ => none
  | .sendv _ _ _ => none
  | .sendc _ _ _ => none
  | .recvw _ _ _ => none
  | .recvv _ _ _ => none
  | .ptest _ _ _ => none
  | .waitw => none
  | .srr _ _ _ => none
  | .srw _ _ _ => none
  | .srset _ _ _ _ => none
  | .srclr _ _ _ _ => none
  | .eret => none
  | .icinv _ => none
  | .sighost _ _ => none
  | .trap _ => none
  | .ppt _ => none
  | .dsread _ _ _ _ => none
  | .dsprobe _ _ _ _ _ => none
  | .dsdone _ _ => none
  | .dsclr _ _ => none
  | .dsbcast _ _ => none
  | .dsstab _ _ => none
  | .dsrel _ _ => none
  | .dspoll _ _ _ => none
  | .spltake _ _ _ _ => none
  | .lbsend _ _ => none
  | .splend _ => none
  | .ldBu _ _ _ _ _ => none
  | .ldHu _ _ _ _ _ => none
  | .ldWu _ _ _ _ _ => none
  | .ldD _ _ _ _ _ => none
  | .ldB _ _ _ _ _ => none
  | .ldH _ _ _ _ _ => none
  | .ldW _ _ _ _ _ => none
  | .stB _ _ _ _ => none
  | .stH _ _ _ _ => none
  | .stW _ _ _ _ => none
  | .stD _ _ _ _ => none
  | .ldxBu _ _ _ _ _ => none
  | .ldxHu _ _ _ _ _ => none
  | .ldxWu _ _ _ _ _ => none
  | .ldxD _ _ _ _ _ => none
  | .ldxB _ _ _ _ _ => none
  | .ldxH _ _ _ _ _ => none
  | .ldxW _ _ _ _ _ => none
  | .stxB _ _ _ _ => none
  | .stxH _ _ _ _ => none
  | .stxW _ _ _ _ => none
  | .stxD _ _ _ _ => none
  | .vld _ _ _ _ _ => none
  | .vst _ _ _ _ => none
  | .vgath _ _ _ _ _ _ _ => none
  | .vscat _ _ _ _ _ _ => none
  | .vldm _ _ _ _ _ _ => none
  | .vstm _ _ _ _ _ => none
  | .ldfe _ _ _ _ => none
  | .ldff _ _ _ _ => none
  | .stfe _ _ _ => none
  | .stff _ _ _ => none
  | .amoadd _ _ _ _ _ _ => none
  | .amoand _ _ _ _ _ _ => none
  | .amoor _ _ _ _ _ _ => none
  | .amoxor _ _ _ _ _ _ => none
  | .amosmax _ _ _ _ _ _ => none
  | .amosmin _ _ _ _ _ _ => none
  | .amoumax _ _ _ _ _ _ => none
  | .amoumin _ _ _ _ _ _ => none
  | .amoswap _ _ _ _ _ _ => none
  | .amocas _ _ _ _ _ _ => none
  | .ldlkW _ _ _ _ => none
  | .ldlkD _ _ _ _ => none
  | .stckW _ _ _ _ _ => none
  | .stckD _ _ _ _ _ => none
  | .ldacq _ _ _ _ _ _ => none
  | .strel _ _ _ _ _ => none
  | .fence _ _ _ => none
  | .waita _ _ _ _ _ => none
  | .barinit _ _ _ => none
  | .barexpect _ _ _ => none
  | .bararrive _ _ _ => none
  | .waitbar _ _ _ => none
  | .barread _ _ _ _ => none
  | .cpyb _ _ _ _ => none
  | .cpyt _ _ => none
  | .cpyth _ _ _ => none
  | .mlong _ _ => none
  | .mlongh _ _ _ => none
  | .bmvj _ _ => none
  | .bmvjh _ _ _ => none
  | .fbind _ _ _ => none
  | .funbind _ _ => none
  | .sbpulse _ _ => none
  | .sbclr _ _ => none
  | .capsend _ _ _ => none
  | .capret _ _ => none
  | .capdrop _ _ => none
  | .capdead _ _ _ => none
  | .cappop _ _ _ => none
  | .cappush _ _ _ => none
  | .capset _ _ _ _ => none
  | .capget _ _ _ _ => none
  | .capskip _ _ _ => none
  | .mma _ _ _ _ _ _ => none
  | .mmaz _ _ _ _ _ _ => none
  | .zrd _ _ _ _ t _ => WfError.typeClass.unless t.isTile
  | .zwr _ _ _ _ t _ => WfError.typeClass.unless t.isTile
  | .mclr _ _ _ => none
  | .medge _ _ _ _ _ => none
  | .mlu _ _ _ _ _ => none
  | .mchol _ _ _ => none
  | .mqr _ _ _ _ => none
  | .mtrsm _ _ _ _ _ _ _ => none
  | .mfmt _ _ => none
  | .mctld _ _ => none
  | .mctset _ _ _ => none
  | .add _ _ _ => none
  | .sub _ _ _ => none
  | .and _ _ _ => none
  | .or _ _ _ => none
  | .xor _ _ _ => none
  | .andn _ _ _ => none
  | .sll _ _ _ => none
  | .srl _ _ _ => none
  | .sra _ _ _ => none
  | .rol _ _ _ => none
  | .ror _ _ _ => none
  | .slt _ _ _ => none
  | .sltu _ _ _ => none
  | .seq _ _ _ => none
  | .min _ _ _ => none
  | .max _ _ _ => none
  | .minu _ _ _ => none
  | .maxu _ _ _ => none
  | .mul _ _ _ => none
  | .mulh _ _ _ => none
  | .mulhu _ _ _ => none
  | .div _ _ _ => none
  | .divu _ _ _ => none
  | .rem _ _ _ => none
  | .remu _ _ _ => none
  | .add32 _ _ _ => none
  | .sub32 _ _ _ => none
  | .mul32 _ _ _ => none
  | .madd _ _ _ _ => none
  | .msub _ _ _ _ => none
  | .csel _ _ _ _ => none
  | .clz _ _ => none
  | .ctz _ _ => none
  | .popc _ _ => none
  | .bswap _ _ => none
  | .sextB _ _ => none
  | .sextH _ _ => none
  | .sextW _ _ => none
  | .zextW _ _ => none
  | .addi _ _ _ => none
  | .andi _ _ _ => none
  | .ori _ _ _ => none
  | .xori _ _ _ => none
  | .slli _ _ _ => none
  | .srli _ _ _ => none
  | .srai _ _ _ => none
  | .rori _ _ _ => none
  | .slti _ _ _ => none
  | .sltiu _ _ _ => none
  | .movhi _ _ => none
  | .insh _ _ => none
  | .fadd _ _ _ => none
  | .fsub _ _ _ => none
  | .fmul _ _ _ => none
  | .fdiv _ _ _ => none
  | .fsqrt _ _ => none
  | .fmin _ _ _ => none
  | .fmax _ _ _ => none
  | .fneg _ _ => none
  | .fabs _ _ => none
  | .fcpsgn _ _ _ => none
  | .fcmeq _ _ _ => none
  | .fcmlt _ _ _ => none
  | .fcmle _ _ _ => none
  | .ffma _ _ _ _ => none
  | .ffms _ _ _ _ => none
  | .ffnma _ _ _ _ => none
  | .ffnms _ _ _ _ => none
  | .fconv _ _ t _ s u => fconvFields t u s
  | .frint _ _ _ => none
  | .vadd _ _ _ _ t => WfError.typeClass.unless (t.isI || t.isF)
  | .vadds _ _ _ _ t => WfError.typeClass.unless t.isI
  | .vsub _ _ _ _ t => WfError.typeClass.unless (t.isI || t.isF)
  | .vsubs _ _ _ _ t => WfError.typeClass.unless t.isI
  | .vmul _ _ _ _ t => WfError.typeClass.unless (t.isI || t.isF)
  | .vmulh _ _ _ _ t => WfError.typeClass.unless t.isI
  | .vdiv _ _ _ _ t => WfError.typeClass.unless (t.isI || t.isF)
  | .vmin _ _ _ _ t => WfError.typeClass.unless (t.isI || t.isF)
  | .vmax _ _ _ _ t => WfError.typeClass.unless (t.isI || t.isF)
  | .vfma _ _ _ _ t => WfError.typeClass.unless t.isF
  | .vfms _ _ _ _ t => WfError.typeClass.unless t.isF
  | .vfnma _ _ _ _ t => WfError.typeClass.unless t.isF
  | .vfnms _ _ _ _ t => WfError.typeClass.unless t.isF
  | .vand _ _ _ _ t => WfError.typeClass.unless t.isI
  | .vor _ _ _ _ t => WfError.typeClass.unless t.isI
  | .vxor _ _ _ _ t => WfError.typeClass.unless t.isI
  | .vandn _ _ _ _ t => WfError.typeClass.unless t.isI
  | .vshl _ _ _ _ t => WfError.typeClass.unless t.isI
  | .vshr _ _ _ _ t => WfError.typeClass.unless t.isI
  | .vsra _ _ _ _ t => WfError.typeClass.unless t.isI
  | .vrol _ _ _ _ t => WfError.typeClass.unless t.isI
  | .vcmpeq _ _ _ _ t => WfError.typeClass.unless (t.isI || t.isF)
  | .vcmpne _ _ _ _ t => WfError.typeClass.unless (t.isI || t.isF)
  | .vcmplt _ _ _ _ t => WfError.typeClass.unless (t.isI || t.isF)
  | .vcmple _ _ _ _ t => WfError.typeClass.unless (t.isI || t.isF)
  | .vsel _ _ _ _ t => WfError.typeClass.unless t.isX
  | .vneg _ _ _ t => WfError.typeClass.unless (t.isI || t.isF || t.isF8)
  | .vabs _ _ _ t => WfError.typeClass.unless (t.isI || t.isF || t.isF8)
  | .vcpsgn _ _ _ _ t => WfError.typeClass.unless (t.isF || t.isF8)
  | .vmov _ _ _ t => WfError.typeClass.unless t.isX
  | .vsqrt _ _ _ t => WfError.typeClass.unless t.isF
  | .vexp2 _ _ _ t => WfError.typeClass.unless t.isF
  | .vlog2 _ _ _ t => WfError.typeClass.unless t.isF
  | .vrcp _ _ _ t => WfError.typeClass.unless t.isF
  | .vrsqrt _ _ _ t => WfError.typeClass.unless t.isF
  | .vmix32 _ _ _ _ => none
  | .vmix32u _ _ _ _ => none
  | .vmix32r _ _ _ _ => none
  | .vrsum _ _ _ t => WfError.typeClass.unless (t.isI || t.isF || t.isF8)
  | .vrmax _ _ _ t => WfError.typeClass.unless (t.isI || t.isF || t.isF8)
  | .vrmin _ _ _ t => WfError.typeClass.unless (t.isI || t.isF || t.isF8)
  | .vscsum _ _ _ t => WfError.typeClass.unless (t.isI || t.isF)
  | .vscmax _ _ _ t => WfError.typeClass.unless (t.isI || t.isF)
  | .vscmin _ _ _ t => WfError.typeClass.unless (t.isI || t.isF)
  | .vperm _ _ _ _ t => WfError.typeClass.unless t.isX
  | .vcompr _ _ _ t => WfError.typeClass.unless t.isX
  | .vbcast _ _ _ t => WfError.typeClass.unless t.isX
  | .vsplat _ _ _ _ t => WfError.typeClass.unless t.isX
  | .vins _ _ _ t => WfError.typeClass.unless t.isX
  | .vext _ _ _ t => WfError.typeClass.unless t.isX
  | .vcvt d a t r s h _ u => if t.isX && u.isX then vcvtFields d a t u r s h else some .typeClass
  | .vqblkSb8 _ a _ _ => WfError.registerGroup.unless (a.toNat ≤ 29)
  | .vqblkSb4 _ a _ _ => WfError.registerGroup.unless (a.toNat ≤ 29)
  | .vdqblkSb8 d _ => WfError.registerGroup.unless (d.toNat ≤ 29)
  | .vdqblkSb4 d _ => WfError.registerGroup.unless (d.toNat ≤ 29)
  | .mand _ _ _ => none
  | .mor _ _ _ => none
  | .mxor _ _ _ => none
  | .mandn _ _ _ => none
  | .mtog _ _ => none
  | .gtom _ _ => none
  | .mpopc _ _ t => WfError.typeClass.unless (t.isI || t.isF)
  | .mfirst _ _ t => WfError.typeClass.unless (t.isI || t.isF)
  | .viota _ _ t => WfError.typeClass.unless t.isI
  | .vaddF64 _ _ _ _ => none
  | .vsubF64 _ _ _ _ => none
  | .vmulF64 _ _ _ _ => none
  | .vdivF64 _ _ _ _ => none
  | .vfmaF64 _ _ _ _ => none
  | .vfmsF64 _ _ _ _ => none
  | .vfnmaF64 _ _ _ _ => none
  | .vfnmsF64 _ _ _ _ => none
  | .vminF64 _ _ _ _ => none
  | .vmaxF64 _ _ _ _ => none
  | .vsqrtF64 _ _ _ => none
  | .vrsumF64 _ _ _ => none
  | .vcvtF64 d a t r s h _ u => if f64Pair t u then vcvtFields d a t u r s h else some .typeClass
  | .powerOnReset => none
  | .deviceReset => none
  | .bootLayer layer => WfError.noSuchUnit.unless (layer == 1 || layer == 2)
  | .clusterReset c => WfError.noSuchUnit.unless (c < 16)
  | .linkReset => none
  | .laneFault module _ => WfError.noSuchUnit.unless (module < 2)
  | .linkTrainTimeout => none
  | .channelFailure ch _ => WfError.noSuchUnit.unless (ch < 16)
  | .correctedError _ _ => none
  | .droopTrip c => WfError.noSuchUnit.unless (c < 16)
  | .droopStretchEnd c => WfError.noSuchUnit.unless (c < 16)
  | .clockFrequencySwitch c => WfError.noSuchUnit.unless (c < 16)
  | .ls1Entry c => WfError.noSuchUnit.unless (c < 16)
  | .ls2Entry c => WfError.noSuchUnit.unless (c < 16)
  | .ls3Entry => none
  | .ls4Entry => none
  | .powerStateExit c => WfError.noSuchUnit.unless (c < 16)
  | .retentionSleep k => WfError.noSuchUnit.unless (k < 2)
  | .controlCoreWake k => WfError.noSuchUnit.unless (k < 2)
  | .lattolWrite _ => none
  | .pwrlimitWrite _ => none
  | .readlog => none
  | .report => none
  | .readerr => none
  | .stage => none
  | .badop => none
  | .mailboxCompletion => none
  | .evict q => WfError.noSuchUnit.unless (q < 4096)
  | .resume q => WfError.noSuchUnit.unless (q < 4096)
  | .skip q => WfError.noSuchUnit.unless (q < 4096)
  | .disable q => WfError.noSuchUnit.unless (q < 4096)
  | .qctlBadOperation q => WfError.noSuchUnit.unless (q < 4096)
  | .doorbell q _ _ _ => WfError.noSuchUnit.unless (q < 4096)
  | .svcimgWrite _ => none
  | .registerWrite _ _ => none
  | .priEnable _ => none
  | .queueLoad q => WfError.noSuchUnit.unless (q < 4096)
  | .queueSelect pr => WfError.noSuchUnit.unless (pr < 4)
  | .queueSliceExpiry pr => WfError.noSuchUnit.unless (pr < 4)
  | .nopPacket q => WfError.noSuchUnit.unless (q < 4096)
  | .launchPacket q => WfError.noSuchUnit.unless (q < 4096)
  | .copyPacket q => WfError.noSuchUnit.unless (q < 4096)
  | .bmvPacket q => WfError.noSuchUnit.unless (q < 4096)
  | .signalPacket q => WfError.noSuchUnit.unless (q < 4096)
  | .waitPacket q => WfError.noSuchUnit.unless (q < 4096)
  | .waitPoll q => WfError.noSuchUnit.unless (q < 4096)
  | .waitTimeout q => WfError.noSuchUnit.unless (q < 4096)
  | .writeSignalPacket q => WfError.noSuchUnit.unless (q < 4096)
  | .bindPacket q => WfError.noSuchUnit.unless (q < 4096)
  | .unbindPacket q => WfError.noSuchUnit.unless (q < 4096)
  | .priStopMarker _ => none
  | .customPacket q => WfError.noSuchUnit.unless (q < 4096)
  | .packetComplete q _ => WfError.noSuchUnit.unless (q < 4096)
  | .coalescerHoldExpiry q => WfError.noSuchUnit.unless (q < 4096)
  | .atsTranslationCompletion _ => none
  | .pageRequestResponse _ _ => none
  | .pageRequestTimeout _ => none
  | .atsInvalidateRequest _ => none
  | .invalidationCompletion _ => none
  | .rds x => WfError.noSuchUnit.unless x.wf
  | .rdx x => WfError.noSuchUnit.unless x.wf
  | .upg x => WfError.noSuchUnit.unless x.wf
  | .rdnc x => WfError.noSuchUnit.unless x.wf
  | .wrnc x => WfError.noSuchUnit.unless x.wf
  | .wrf x => WfError.noSuchUnit.unless x.wf
  | .atom x => WfError.noSuchUnit.unless x.wf
  | .llk x => WfError.noSuchUnit.unless x.wf
  | .sck x => WfError.noSuchUnit.unless x.wf
  | .watch x => WfError.noSuchUnit.unless x.wf
  | .eciMalformedRequest _ => none
  | .nodeMerge sl _ _ _ => WfError.noSuchUnit.unless (sl < 64)
  | .replicaDrop sl _ => WfError.noSuchUnit.unless (sl < 64)
  | .dramFill sl _ => WfError.noSuchUnit.unless (sl < 64)
  | .replayRetry sl => WfError.noSuchUnit.unless (sl < 64)
  | .probeTimeout sl _ _ => WfError.noSuchUnit.unless (sl < 64)
  | .sinv x => WfError.noSuchUnit.unless x.wf
  | .sshr x => WfError.noSuchUnit.unless x.wf
  | .sbinv x => WfError.noSuchUnit.unless x.wf
  | .ds x => WfError.noSuchUnit.unless x.wf
  | .de x => WfError.noSuchUnit.unless x.wf
  | .dm x => WfError.noSuchUnit.unless x.wf
  | .gm x => WfError.noSuchUnit.unless x.wf
  | .cmp x => WfError.noSuchUnit.unless x.wf
  | .atr x => WfError.noSuchUnit.unless x.wf
  | .lkd x => WfError.noSuchUnit.unless x.wf
  | .scf x => WfError.noSuchUnit.unless x.wf
  | .woke x => WfError.noSuchUnit.unless x.wf
  | .rty x => WfError.noSuchUnit.unless x.wf
  | .wba x => WfError.noSuchUnit.unless x.wf
  | .wbx x => WfError.noSuchUnit.unless x.wf
  | .pack x => WfError.noSuchUnit.unless x.wf
  | .pdat x => WfError.noSuchUnit.unless x.wf
  | .wbd x => WfError.noSuchUnit.unless x.wf
  | .evc x => WfError.noSuchUnit.unless x.wf
  | .crd x => WfError.noSuchUnit.unless x.wf
  | .l1BackgroundSweep core => WfError.noSuchUnit.unless (core < 64)
  | .mcrd x => WfError.noSuchUnit.unless x.wf
  | .mcrdWindowClose sl _ => WfError.noSuchUnit.unless (sl < 64)
  | .mcd x => WfError.noSuchUnit.unless x.wf
  | .spwr x => WfError.noSuchUnit.unless x.wf
  | .sprd x => WfError.noSuchUnit.unless x.wf
  | .spsy x => WfError.noSuchUnit.unless x.wf
  | .spsyResend core _ => WfError.noSuchUnit.unless (core < 64)
  | .spdat x => WfError.noSuchUnit.unless x.wf
  | .repl x => WfError.noSuchUnit.unless x.wf
  | .rrec x => WfError.noSuchUnit.unless x.wf
  | .rdin x => WfError.noSuchUnit.unless x.wf
  | .rdrm x => WfError.noSuchUnit.unless x.wf
  | .grant x => WfError.noSuchUnit.unless x.wf
  | .alwRet x => WfError.noSuchUnit.unless x.wf
  | .cret x => WfError.noSuchUnit.unless x.wf
  | .dsack x => WfError.noSuchUnit.unless x.wf
  | .userMessage x => WfError.noSuchUnit.unless x.wf
  | .dec x => WfError.noSuchUnit.unless x.wf
  | .notice x => WfError.noSuchUnit.unless x.wf
  | .dirsvc x => WfError.noSuchUnit.unless x.wf
  | .lreq x => WfError.noSuchUnit.unless x.wf
  | .lreqResend _ _ => none
  | .chunk x => WfError.noSuchUnit.unless x.wf
  | .deferredMessageRetry x => WfError.noSuchUnit.unless x.wf
  | .networkLinkRetry _ _ => none
  | .regionRunnable _ => none
  | .regionSliceExpiry _ => none
  | .regionEnd _ => none
  | .partitionHalt _ _ => none
  | .contextSwap c => WfError.noSuchUnit.unless (c < 16)
  | .bayBackgroundWrite bay => WfError.noSuchUnit.unless (bay < 2)
  | .rosterMultiplex _ => none
  | .graceExpiry _ => none
  | .heartbeatMiss _ => none
  | .dispatch _ => none
  | .waitLimitExpiry _ => none
  | .timerExpiry _ => none
  | .interruptEntry _ => none
  | .deferredPoison _ => none
  | .flumeTransfer _ k => WfError.noSuchUnit.unless (k < 8)
  | .jobCardStart _ _ => none
  | .copyJobComplete _ _ => none
  | .jobStatusFail _ _ => none
  | .sluiceOutletFire _ o => WfError.noSuchUnit.unless (o < 16)
  | .matrixRequestServe c => WfError.noSuchUnit.unless (c < 16)
  | .matrixResultBind c _ => WfError.noSuchUnit.unless (c < 16)
  | .factorisationStepEnd c => WfError.noSuchUnit.unless (c < 16)
  | .mlongComplete _ _ => none
  | .bmvJobStart _ => none
  | .xld u _ _ => WfError.noSuchUnit.unless (u < 256)
  | .brun u _ => WfError.noSuchUnit.unless (u < 256)
  | .bhalt u => WfError.noSuchUnit.unless (u < 256)
  | .bres u => WfError.noSuchUnit.unless (u < 256)
  | .prd u _ _ => WfError.noSuchUnit.unless (u < 256)
  | .bankPassBatchEnd _ => none
  | .bmvJobCompletion _ => none
  | .deadLetter _ _ => none
  | .dsdoneWaitLog sl _ => WfError.noSuchUnit.unless (sl < 64)
  | .adapterRetry module => WfError.noSuchUnit.unless (module < 2)
  | .supplyRecovery c => WfError.noSuchUnit.unless (c < 16)
  | .unrecoverableFailure _ => none

/-- The well-formed instructions. -/
def Instr.wf (i : Instr) : Bool := i.wfError.isNone

/-- The constructors that are instruction words, as against steps of the device. -/
def Instr.isWord : Instr → Bool
  | .powerOnReset => false
  | .deviceReset => false
  | .bootLayer _ => false
  | .clusterReset _ => false
  | .linkReset => false
  | .laneFault _ _ => false
  | .linkTrainTimeout => false
  | .channelFailure _ _ => false
  | .correctedError _ _ => false
  | .droopTrip _ => false
  | .droopStretchEnd _ => false
  | .clockFrequencySwitch _ => false
  | .ls1Entry _ => false
  | .ls2Entry _ => false
  | .ls3Entry => false
  | .ls4Entry => false
  | .powerStateExit _ => false
  | .retentionSleep _ => false
  | .controlCoreWake _ => false
  | .lattolWrite _ => false
  | .pwrlimitWrite _ => false
  | .readlog => false
  | .report => false
  | .readerr => false
  | .stage => false
  | .badop => false
  | .mailboxCompletion => false
  | .evict _ => false
  | .resume _ => false
  | .skip _ => false
  | .disable _ => false
  | .qctlBadOperation _ => false
  | .doorbell _ _ _ _ => false
  | .svcimgWrite _ => false
  | .registerWrite _ _ => false
  | .priEnable _ => false
  | .queueLoad _ => false
  | .queueSelect _ => false
  | .queueSliceExpiry _ => false
  | .nopPacket _ => false
  | .launchPacket _ => false
  | .copyPacket _ => false
  | .bmvPacket _ => false
  | .signalPacket _ => false
  | .waitPacket _ => false
  | .waitPoll _ => false
  | .waitTimeout _ => false
  | .writeSignalPacket _ => false
  | .bindPacket _ => false
  | .unbindPacket _ => false
  | .priStopMarker _ => false
  | .customPacket _ => false
  | .packetComplete _ _ => false
  | .coalescerHoldExpiry _ => false
  | .atsTranslationCompletion _ => false
  | .pageRequestResponse _ _ => false
  | .pageRequestTimeout _ => false
  | .atsInvalidateRequest _ => false
  | .invalidationCompletion _ => false
  | .rds _ => false
  | .rdx _ => false
  | .upg _ => false
  | .rdnc _ => false
  | .wrnc _ => false
  | .wrf _ => false
  | .atom _ => false
  | .llk _ => false
  | .sck _ => false
  | .watch _ => false
  | .eciMalformedRequest _ => false
  | .nodeMerge _ _ _ _ => false
  | .replicaDrop _ _ => false
  | .dramFill _ _ => false
  | .replayRetry _ => false
  | .probeTimeout _ _ _ => false
  | .sinv _ => false
  | .sshr _ => false
  | .sbinv _ => false
  | .ds _ => false
  | .de _ => false
  | .dm _ => false
  | .gm _ => false
  | .cmp _ => false
  | .atr _ => false
  | .lkd _ => false
  | .scf _ => false
  | .woke _ => false
  | .rty _ => false
  | .wba _ => false
  | .wbx _ => false
  | .pack _ => false
  | .pdat _ => false
  | .wbd _ => false
  | .evc _ => false
  | .crd _ => false
  | .l1BackgroundSweep _ => false
  | .mcrd _ => false
  | .mcrdWindowClose _ _ => false
  | .mcd _ => false
  | .spwr _ => false
  | .sprd _ => false
  | .spsy _ => false
  | .spsyResend _ _ => false
  | .spdat _ => false
  | .repl _ => false
  | .rrec _ => false
  | .rdin _ => false
  | .rdrm _ => false
  | .grant _ => false
  | .alwRet _ => false
  | .cret _ => false
  | .dsack _ => false
  | .userMessage _ => false
  | .dec _ => false
  | .notice _ => false
  | .dirsvc _ => false
  | .lreq _ => false
  | .lreqResend _ _ => false
  | .chunk _ => false
  | .deferredMessageRetry _ => false
  | .networkLinkRetry _ _ => false
  | .regionRunnable _ => false
  | .regionSliceExpiry _ => false
  | .regionEnd _ => false
  | .partitionHalt _ _ => false
  | .contextSwap _ => false
  | .bayBackgroundWrite _ => false
  | .rosterMultiplex _ => false
  | .graceExpiry _ => false
  | .heartbeatMiss _ => false
  | .dispatch _ => false
  | .waitLimitExpiry _ => false
  | .timerExpiry _ => false
  | .interruptEntry _ => false
  | .deferredPoison _ => false
  | .flumeTransfer _ _ => false
  | .jobCardStart _ _ => false
  | .copyJobComplete _ _ => false
  | .jobStatusFail _ _ => false
  | .sluiceOutletFire _ _ => false
  | .matrixRequestServe _ => false
  | .matrixResultBind _ _ => false
  | .factorisationStepEnd _ => false
  | .mlongComplete _ _ => false
  | .bmvJobStart _ => false
  | .xld _ _ _ => false
  | .brun _ _ => false
  | .bhalt _ => false
  | .bres _ => false
  | .prd _ _ _ => false
  | .bankPassBatchEnd _ => false
  | .bmvJobCompletion _ => false
  | .deadLetter _ _ => false
  | .dsdoneWaitLog _ _ => false
  | .adapterRetry _ => false
  | .supplyRecovery _ => false
  | .unrecoverableFailure _ => false
  | _ => true

end Sys2Proof
end

