-- ==== Sys2Proof/Decode.lean ====
section
/-!
DEFINITION. Decoding of Flaulo words (R285 to R296), total on any word and any bytes, and the encoder written from the
same formats. A word that the opcode map does not allocate, or whose operands break a rule of Sys2Proof/WellFormed.lean,
decodes to no instruction; the machine takes ILLEGAL_OP on it (R288). Lean's compiler cannot represent the constructors
of `Instr` past the 244th, so the definitions that build them are marked noncomputable; the kernel evaluates them all.
-/

namespace Sys2Proof

/-- Bits [lo + n - 1 : lo] of a word. -/
def bits (w lo n : Nat) : Nat := w / 2 ^ lo % 2 ^ n

/-- A one-bit field. -/
def flag (w lo : Nat) : Bool := bits w lo 1 == 1

/-- The type code of R232. -/
def Ty.code : Ty → Nat
  | .i8 => 0
  | .i16 => 1
  | .i32 => 2
  | .i64 => 3
  | .n8 => 4
  | .n16 => 5
  | .n32 => 6
  | .n64 => 7
  | .bf16 => 8
  | .f16 => 9
  | .f32 => 10
  | .f64 => 11
  | .f8e4 => 12
  | .f8e5 => 13

/-- The Ty a code names; reserved codes name none. -/
def Ty.ofCode : Nat → Option Ty
  | 0 => some .i8
  | 1 => some .i16
  | 2 => some .i32
  | 3 => some .i64
  | 4 => some .n8
  | 5 => some .n16
  | 6 => some .n32
  | 7 => some .n64
  | 8 => some .bf16
  | 9 => some .f16
  | 10 => some .f32
  | 11 => some .f64
  | 12 => some .f8e4
  | 13 => some .f8e5
  | _ => none

/-- The code of R293. -/
def Scope.code : Scope → Nat
  | .thr => 0
  | .core => 1
  | .clu => 2
  | .dev => 3
  | .sys => 4

/-- The Scope a code names; reserved codes name none. -/
def Scope.ofCode : Nat → Option Scope
  | 0 => some .thr
  | 1 => some .core
  | 2 => some .clu
  | 3 => some .dev
  | 4 => some .sys
  | _ => none

/-- The code of R293. -/
def FenceKind.code : FenceKind → Nat
  | .acq => 0
  | .rel => 1
  | .full => 2

/-- The FenceKind a code names; reserved codes name none. -/
def FenceKind.ofCode : Nat → Option FenceKind
  | 0 => some .acq
  | 1 => some .rel
  | 2 => some .full
  | _ => none

/-- C-class major 0x01: BEQ, BNE, BLT, BGE, BLTU, BGEU. -/
def decC01 (w : Nat) : Option Instr :=
  if bits w 11 3 = 0 then some (.beq (flag w 31) (.ofNat 5 (bits w 19 5)) (.ofNat 5 (bits w 14 5)) (.ofNat 11 (bits w 0 11)))
  else if bits w 11 3 = 1 then some (.bne (flag w 31) (.ofNat 5 (bits w 19 5)) (.ofNat 5 (bits w 14 5)) (.ofNat 11 (bits w 0 11)))
  else if bits w 11 3 = 2 then some (.blt (flag w 31) (.ofNat 5 (bits w 19 5)) (.ofNat 5 (bits w 14 5)) (.ofNat 11 (bits w 0 11)))
  else if bits w 11 3 = 3 then some (.bge (flag w 31) (.ofNat 5 (bits w 19 5)) (.ofNat 5 (bits w 14 5)) (.ofNat 11 (bits w 0 11)))
  else if bits w 11 3 = 4 then some (.bltu (flag w 31) (.ofNat 5 (bits w 19 5)) (.ofNat 5 (bits w 14 5)) (.ofNat 11 (bits w 0 11)))
  else if bits w 11 3 = 5 then some (.bgeu (flag w 31) (.ofNat 5 (bits w 19 5)) (.ofNat 5 (bits w 14 5)) (.ofNat 11 (bits w 0 11)))
  else none

/-- C-class major 0x02: BDEC. -/
def decC02 (w : Nat) : Option Instr :=
  some (.bdec (flag w 31) (.ofNat 5 (bits w 19 5)) (.ofNat 8 (bits w 11 8)) (.ofNat 11 (bits w 0 11)))

/-- C-class major 0x03: BTAGF, BTAGE. -/
def decC03 (w : Nat) : Option Instr :=
  if bits w 11 8 = 0 then some (.btagf (flag w 31) (.ofNat 5 (bits w 19 5)) (.ofNat 11 (bits w 0 11)))
  else if bits w 11 8 = 1 then some (.btage (flag w 31) (.ofNat 5 (bits w 19 5)) (.ofNat 11 (bits w 0 11)))
  else none

/-- C-class major 0x04: BANY, BNONE, BALL, BNALL. -/
def decC04 (w : Nat) : Option Instr :=
  if bits w 11 8 = 0 ∧ bits w 22 2 = 0 then some (.bany (flag w 31) (.ofNat 3 (bits w 19 3)) (.ofNat 11 (bits w 0 11)))
  else if bits w 11 8 = 1 ∧ bits w 22 2 = 0 then some (.bnone (flag w 31) (.ofNat 3 (bits w 19 3)) (.ofNat 11 (bits w 0 11)))
  else if bits w 11 8 = 2 ∧ bits w 22 2 = 0 then some (.ball (flag w 31) (.ofNat 3 (bits w 19 3)) (.ofNat 11 (bits w 0 11)))
  else if bits w 11 8 = 3 ∧ bits w 22 2 = 0 then some (.bnall (flag w 31) (.ofNat 3 (bits w 19 3)) (.ofNat 11 (bits w 0 11)))
  else none

/-- C-class major 0x05: JMP. -/
def decC05 (w : Nat) : Option Instr :=
  some (.jmp (flag w 31) (.ofNat 24 (bits w 0 24)))

/-- C-class major 0x06: CALL. -/
def decC06 (w : Nat) : Option Instr :=
  some (.call (flag w 31) (.ofNat 24 (bits w 0 24)))

/-- C-class major 0x07: JR, CALLR, RET, YIELD, HBEAT, CNOP. -/
def decC07 (w : Nat) : Option Instr :=
  if bits w 0 14 = 0 ∧ bits w 19 5 = 0 then some (.jr (flag w 31) (.ofNat 5 (bits w 14 5)))
  else if bits w 0 14 = 1 ∧ bits w 19 5 = 0 then some (.callr (flag w 31) (.ofNat 5 (bits w 14 5)))
  else if bits w 0 24 = 2 then some (.ret (flag w 31))
  else if bits w 0 24 = 3 then some (.yield (flag w 31))
  else if bits w 0 24 = 4 then some (.hbeat (flag w 31))
  else if bits w 0 24 = 5 then some (.cnop (flag w 31))
  else none

/-- C-class major 0x08: SENDW, SENDV, SENDC, RECVW, RECVV, PTEST, WAITW. -/
def decC08 (w : Nat) : Option Instr :=
  if bits w 0 9 = 0 ∧ bits w 19 5 = 0 then some (.sendw (flag w 31) (.ofNat 5 (bits w 14 5)) (.ofNat 5 (bits w 9 5)))
  else if bits w 0 9 = 16 ∧ bits w 19 5 = 0 then some (.sendv (flag w 31) (.ofNat 5 (bits w 14 5)) (.ofNat 5 (bits w 9 5)))
  else if bits w 0 9 = 32 ∧ bits w 19 5 = 0 then some (.sendc (flag w 31) (.ofNat 5 (bits w 14 5)) (.ofNat 5 (bits w 9 5)))
  else if bits w 4 15 = 3 then some (.recvw (flag w 31) (.ofNat 5 (bits w 19 5)) (.ofNat 4 (bits w 0 4)))
  else if bits w 4 15 = 4 then some (.recvv (flag w 31) (.ofNat 5 (bits w 19 5)) (.ofNat 4 (bits w 0 4)))
  else if bits w 0 14 = 80 ∧ bits w 16 3 = 0 then some (.ptest (flag w 31) (.ofNat 5 (bits w 19 5)) (.ofNat 2 (bits w 14 2)))
  else if bits w 0 24 = 96 ∧ bits w 31 1 = 0 then some .waitw
  else none

/-- C-class major 0x09: SRR, SRW, SRSET, SRCLR. -/
def decC09 (w : Nat) : Option Instr :=
  if bits w 12 7 = 0 then some (.srr (flag w 31) (.ofNat 5 (bits w 19 5)) (.ofNat 12 (bits w 0 12)))
  else if bits w 12 2 = 1 ∧ bits w 19 5 = 0 then some (.srw (flag w 31) (.ofNat 5 (bits w 14 5)) (.ofNat 12 (bits w 0 12)))
  else if bits w 12 2 = 2 then some (.srset (flag w 31) (.ofNat 5 (bits w 19 5)) (.ofNat 5 (bits w 14 5)) (.ofNat 12 (bits w 0 12)))
  else if bits w 12 2 = 3 then some (.srclr (flag w 31) (.ofNat 5 (bits w 19 5)) (.ofNat 5 (bits w 14 5)) (.ofNat 12 (bits w 0 12)))
  else none

/-- C-class major 0x0A: ERET, ICINV, SIGHOST. -/
def decC0A (w : Nat) : Option Instr :=
  if bits w 0 24 = 0 ∧ bits w 31 1 = 0 then some .eret
  else if bits w 0 24 = 1 then some (.icinv (flag w 31))
  else if bits w 0 14 = 2 ∧ bits w 19 5 = 0 then some (.sighost (flag w 31) (.ofNat 5 (bits w 14 5)))
  else none

/-- C-class major 0x0B: TRAP. -/
def decC0B (w : Nat) : Option Instr :=
  if bits w 14 10 = 0 ∧ bits w 31 1 = 0 then some (.trap (.ofNat 14 (bits w 0 14)))
  else none

/-- C-class major 0x0E: PPT. -/
def decC0E (w : Nat) : Option Instr :=
  if bits w 14 10 = 0 ∧ bits w 31 1 = 0 then some (.ppt (.ofNat 14 (bits w 0 14)))
  else none

/-- C-class major 0x0C: DSREAD, DSPROBE, DSDONE, DSCLR, DSBCAST, DSSTAB, DSREL, DSPOLL. -/
def decC0C (w : Nat) : Option Instr :=
  if bits w 4 10 = 0 then some (.dsread (flag w 31) (.ofNat 5 (bits w 19 5)) (.ofNat 5 (bits w 14 5)) (.ofNat 4 (bits w 0 4)))
  else if bits w 4 5 = 1 then some (.dsprobe (flag w 31) (.ofNat 5 (bits w 19 5)) (.ofNat 5 (bits w 14 5)) (.ofNat 5 (bits w 9 5)) (.ofNat 4 (bits w 0 4)))
  else if bits w 0 14 = 32 ∧ bits w 19 5 = 0 then some (.dsdone (flag w 31) (.ofNat 5 (bits w 14 5)))
  else if bits w 0 14 = 48 ∧ bits w 19 5 = 0 then some (.dsclr (flag w 31) (.ofNat 5 (bits w 14 5)))
  else if bits w 0 14 = 64 ∧ bits w 19 5 = 0 then some (.dsbcast (flag w 31) (.ofNat 5 (bits w 14 5)))
  else if bits w 0 14 = 80 ∧ bits w 19 5 = 0 then some (.dsstab (flag w 31) (.ofNat 5 (bits w 14 5)))
  else if bits w 0 14 = 96 ∧ bits w 19 5 = 0 then some (.dsrel (flag w 31) (.ofNat 5 (bits w 14 5)))
  else if bits w 4 15 = 7 then some (.dspoll (flag w 31) (.ofNat 5 (bits w 19 5)) (.ofNat 4 (bits w 0 4)))
  else none

/-- C-class major 0x0D: SPLTAKE, LBSEND, SPLEND. -/
def decC0D (w : Nat) : Option Instr :=
  if bits w 4 10 = 0 then some (.spltake (flag w 31) (.ofNat 5 (bits w 19 5)) (.ofNat 5 (bits w 14 5)) (.ofNat 4 (bits w 0 4)))
  else if bits w 0 14 = 16 ∧ bits w 19 5 = 0 then some (.lbsend (flag w 31) (.ofNat 5 (bits w 14 5)))
  else if bits w 0 24 = 32 then some (.splend (flag w 31))
  else none

/-- C-class major 0x10: LD_BU, LD_HU, LD_WU, LD_D, LD_B, LD_H, LD_W. -/
def decC10 (w : Nat) : Option Instr :=
  if bits w 11 3 = 0 then some (.ldBu (flag w 31) (.ofNat 5 (bits w 19 5)) (.ofNat 5 (bits w 14 5)) (.ofNat 7 (bits w 4 7)) (.ofNat 4 (bits w 0 4)))
  else if bits w 11 3 = 1 then some (.ldHu (flag w 31) (.ofNat 5 (bits w 19 5)) (.ofNat 5 (bits w 14 5)) (.ofNat 7 (bits w 4 7)) (.ofNat 4 (bits w 0 4)))
  else if bits w 11 3 = 2 then some (.ldWu (flag w 31) (.ofNat 5 (bits w 19 5)) (.ofNat 5 (bits w 14 5)) (.ofNat 7 (bits w 4 7)) (.ofNat 4 (bits w 0 4)))
  else if bits w 11 3 = 3 then some (.ldD (flag w 31) (.ofNat 5 (bits w 19 5)) (.ofNat 5 (bits w 14 5)) (.ofNat 7 (bits w 4 7)) (.ofNat 4 (bits w 0 4)))
  else if bits w 11 3 = 4 then some (.ldB (flag w 31) (.ofNat 5 (bits w 19 5)) (.ofNat 5 (bits w 14 5)) (.ofNat 7 (bits w 4 7)) (.ofNat 4 (bits w 0 4)))
  else if bits w 11 3 = 5 then some (.ldH (flag w 31) (.ofNat 5 (bits w 19 5)) (.ofNat 5 (bits w 14 5)) (.ofNat 7 (bits w 4 7)) (.ofNat 4 (bits w 0 4)))
  else if bits w 11 3 = 6 then some (.ldW (flag w 31) (.ofNat 5 (bits w 19 5)) (.ofNat 5 (bits w 14 5)) (.ofNat 7 (bits w 4 7)) (.ofNat 4 (bits w 0 4)))
  else none

/-- C-class major 0x11: ST_B, ST_H, ST_W, ST_D. -/
def decC11 (w : Nat) : Option Instr :=
  if bits w 0 4 = 0 ∧ bits w 11 3 = 0 then some (.stB (flag w 31) (.ofNat 5 (bits w 19 5)) (.ofNat 5 (bits w 14 5)) (.ofNat 7 (bits w 4 7)))
  else if bits w 0 4 = 0 ∧ bits w 11 3 = 1 then some (.stH (flag w 31) (.ofNat 5 (bits w 19 5)) (.ofNat 5 (bits w 14 5)) (.ofNat 7 (bits w 4 7)))
  else if bits w 0 4 = 0 ∧ bits w 11 3 = 2 then some (.stW (flag w 31) (.ofNat 5 (bits w 19 5)) (.ofNat 5 (bits w 14 5)) (.ofNat 7 (bits w 4 7)))
  else if bits w 0 4 = 0 ∧ bits w 11 3 = 3 then some (.stD (flag w 31) (.ofNat 5 (bits w 19 5)) (.ofNat 5 (bits w 14 5)) (.ofNat 7 (bits w 4 7)))
  else none

/-- C-class major 0x12: LDX_BU, LDX_HU, LDX_WU, LDX_D, LDX_B, LDX_H, LDX_W, STX_B, STX_H, STX_W, STX_D. -/
def decC12 (w : Nat) : Option Instr :=
  if bits w 4 5 = 0 then some (.ldxBu (flag w 31) (.ofNat 5 (bits w 19 5)) (.ofNat 5 (bits w 14 5)) (.ofNat 5 (bits w 9 5)) (.ofNat 4 (bits w 0 4)))
  else if bits w 4 5 = 1 then some (.ldxHu (flag w 31) (.ofNat 5 (bits w 19 5)) (.ofNat 5 (bits w 14 5)) (.ofNat 5 (bits w 9 5)) (.ofNat 4 (bits w 0 4)))
  else if bits w 4 5 = 2 then some (.ldxWu (flag w 31) (.ofNat 5 (bits w 19 5)) (.ofNat 5 (bits w 14 5)) (.ofNat 5 (bits w 9 5)) (.ofNat 4 (bits w 0 4)))
  else if bits w 4 5 = 3 then some (.ldxD (flag w 31) (.ofNat 5 (bits w 19 5)) (.ofNat 5 (bits w 14 5)) (.ofNat 5 (bits w 9 5)) (.ofNat 4 (bits w 0 4)))
  else if bits w 4 5 = 4 then some (.ldxB (flag w 31) (.ofNat 5 (bits w 19 5)) (.ofNat 5 (bits w 14 5)) (.ofNat 5 (bits w 9 5)) (.ofNat 4 (bits w 0 4)))
  else if bits w 4 5 = 5 then some (.ldxH (flag w 31) (.ofNat 5 (bits w 19 5)) (.ofNat 5 (bits w 14 5)) (.ofNat 5 (bits w 9 5)) (.ofNat 4 (bits w 0 4)))
  else if bits w 4 5 = 6 then some (.ldxW (flag w 31) (.ofNat 5 (bits w 19 5)) (.ofNat 5 (bits w 14 5)) (.ofNat 5 (bits w 9 5)) (.ofNat 4 (bits w 0 4)))
  else if bits w 0 9 = 128 then some (.stxB (flag w 31) (.ofNat 5 (bits w 19 5)) (.ofNat 5 (bits w 14 5)) (.ofNat 5 (bits w 9 5)))
  else if bits w 0 9 = 144 then some (.stxH (flag w 31) (.ofNat 5 (bits w 19 5)) (.ofNat 5 (bits w 14 5)) (.ofNat 5 (bits w 9 5)))
  else if bits w 0 9 = 160 then some (.stxW (flag w 31) (.ofNat 5 (bits w 19 5)) (.ofNat 5 (bits w 14 5)) (.ofNat 5 (bits w 9 5)))
  else if bits w 0 9 = 176 then some (.stxD (flag w 31) (.ofNat 5 (bits w 19 5)) (.ofNat 5 (bits w 14 5)) (.ofNat 5 (bits w 9 5)))
  else none

/-- C-class major 0x13: VLD, VST. -/
def decC13 (w : Nat) : Option Instr :=
  if bits w 11 3 = 0 then some (.vld (flag w 31) (.ofNat 5 (bits w 19 5)) (.ofNat 5 (bits w 14 5)) (.ofNat 7 (bits w 4 7)) (.ofNat 4 (bits w 0 4)))
  else if bits w 0 4 = 0 ∧ bits w 11 3 = 1 then some (.vst (flag w 31) (.ofNat 5 (bits w 19 5)) (.ofNat 5 (bits w 14 5)) (.ofNat 7 (bits w 4 7)))
  else none

/-- C-class major 0x14: VGATH. -/
def decC14 (w : Nat) : Option Instr :=
  some (.vgath (flag w 31) (.ofNat 5 (bits w 19 5)) (.ofNat 5 (bits w 14 5)) (.ofNat 5 (bits w 9 5)) (.ofNat 3 (bits w 6 3)) (.ofNat 2 (bits w 4 2)) (.ofNat 4 (bits w 0 4)))

/-- C-class major 0x15: VSCAT. -/
def decC15 (w : Nat) : Option Instr :=
  if bits w 0 4 = 0 then some (.vscat (flag w 31) (.ofNat 5 (bits w 19 5)) (.ofNat 5 (bits w 14 5)) (.ofNat 5 (bits w 9 5)) (.ofNat 3 (bits w 6 3)) (.ofNat 2 (bits w 4 2)))
  else none

/-- C-class major 0x16: VLDM. -/
def decC16 (w : Nat) : Option Instr :=
  if bits w 9 5 = 0 then some (.vldm (flag w 31) (.ofNat 5 (bits w 19 5)) (.ofNat 5 (bits w 14 5)) (.ofNat 3 (bits w 6 3)) (.ofNat 2 (bits w 4 2)) (.ofNat 4 (bits w 0 4)))
  else none

/-- C-class major 0x17: VSTM. -/
def decC17 (w : Nat) : Option Instr :=
  if bits w 0 4 = 0 ∧ bits w 9 5 = 0 then some (.vstm (flag w 31) (.ofNat 5 (bits w 19 5)) (.ofNat 5 (bits w 14 5)) (.ofNat 3 (bits w 6 3)) (.ofNat 2 (bits w 4 2)))
  else none

/-- C-class major 0x18: LDFE, LDFF, STFE, STFF. -/
def decC18 (w : Nat) : Option Instr :=
  if bits w 4 10 = 0 then some (.ldfe (flag w 31) (.ofNat 5 (bits w 19 5)) (.ofNat 5 (bits w 14 5)) (.ofNat 4 (bits w 0 4)))
  else if bits w 4 10 = 1 then some (.ldff (flag w 31) (.ofNat 5 (bits w 19 5)) (.ofNat 5 (bits w 14 5)) (.ofNat 4 (bits w 0 4)))
  else if bits w 0 14 = 32 then some (.stfe (flag w 31) (.ofNat 5 (bits w 19 5)) (.ofNat 5 (bits w 14 5)))
  else if bits w 0 14 = 48 then some (.stff (flag w 31) (.ofNat 5 (bits w 19 5)) (.ofNat 5 (bits w 14 5)))
  else none

/-- C-class major 0x19: AMOADD, AMOAND, AMOOR, AMOXOR, AMOSMAX, AMOSMIN, AMOUMAX, AMOUMIN, AMOSWAP, AMOCAS. -/
def decC19 (w : Nat) : Option Instr :=
  if bits w 4 2 = 0 ∧ bits w 7 4 = 0 then (Scope.ofCode (bits w 11 3)).bind fun s => some (.amoadd (flag w 31) (.ofNat 5 (bits w 19 5)) (.ofNat 5 (bits w 14 5)) s (flag w 6) (.ofNat 4 (bits w 0 4)))
  else if bits w 4 2 = 0 ∧ bits w 7 4 = 1 then (Scope.ofCode (bits w 11 3)).bind fun s => some (.amoand (flag w 31) (.ofNat 5 (bits w 19 5)) (.ofNat 5 (bits w 14 5)) s (flag w 6) (.ofNat 4 (bits w 0 4)))
  else if bits w 4 2 = 0 ∧ bits w 7 4 = 2 then (Scope.ofCode (bits w 11 3)).bind fun s => some (.amoor (flag w 31) (.ofNat 5 (bits w 19 5)) (.ofNat 5 (bits w 14 5)) s (flag w 6) (.ofNat 4 (bits w 0 4)))
  else if bits w 4 2 = 0 ∧ bits w 7 4 = 3 then (Scope.ofCode (bits w 11 3)).bind fun s => some (.amoxor (flag w 31) (.ofNat 5 (bits w 19 5)) (.ofNat 5 (bits w 14 5)) s (flag w 6) (.ofNat 4 (bits w 0 4)))
  else if bits w 4 2 = 0 ∧ bits w 7 4 = 4 then (Scope.ofCode (bits w 11 3)).bind fun s => some (.amosmax (flag w 31) (.ofNat 5 (bits w 19 5)) (.ofNat 5 (bits w 14 5)) s (flag w 6) (.ofNat 4 (bits w 0 4)))
  else if bits w 4 2 = 0 ∧ bits w 7 4 = 5 then (Scope.ofCode (bits w 11 3)).bind fun s => some (.amosmin (flag w 31) (.ofNat 5 (bits w 19 5)) (.ofNat 5 (bits w 14 5)) s (flag w 6) (.ofNat 4 (bits w 0 4)))
  else if bits w 4 2 = 0 ∧ bits w 7 4 = 6 then (Scope.ofCode (bits w 11 3)).bind fun s => some (.amoumax (flag w 31) (.ofNat 5 (bits w 19 5)) (.ofNat 5 (bits w 14 5)) s (flag w 6) (.ofNat 4 (bits w 0 4)))
  else if bits w 4 2 = 0 ∧ bits w 7 4 = 7 then (Scope.ofCode (bits w 11 3)).bind fun s => some (.amoumin (flag w 31) (.ofNat 5 (bits w 19 5)) (.ofNat 5 (bits w 14 5)) s (flag w 6) (.ofNat 4 (bits w 0 4)))
  else if bits w 4 2 = 0 ∧ bits w 7 4 = 8 then (Scope.ofCode (bits w 11 3)).bind fun s => some (.amoswap (flag w 31) (.ofNat 5 (bits w 19 5)) (.ofNat 5 (bits w 14 5)) s (flag w 6) (.ofNat 4 (bits w 0 4)))
  else if bits w 4 2 = 0 ∧ bits w 7 4 = 9 ∧ bits w 19 1 = 0 then (Scope.ofCode (bits w 11 3)).bind fun s => some (.amocas (flag w 31) (.ofNat 4 (bits w 20 4)) (.ofNat 5 (bits w 14 5)) s (flag w 6) (.ofNat 4 (bits w 0 4)))
  else none

/-- C-class major 0x1A: LDLK_W, LDLK_D, STCK_W, STCK_D. -/
def decC1A (w : Nat) : Option Instr :=
  if bits w 4 10 = 0 then some (.ldlkW (flag w 31) (.ofNat 5 (bits w 19 5)) (.ofNat 5 (bits w 14 5)) (.ofNat 4 (bits w 0 4)))
  else if bits w 4 10 = 1 then some (.ldlkD (flag w 31) (.ofNat 5 (bits w 19 5)) (.ofNat 5 (bits w 14 5)) (.ofNat 4 (bits w 0 4)))
  else if bits w 4 5 = 2 then some (.stckW (flag w 31) (.ofNat 5 (bits w 19 5)) (.ofNat 5 (bits w 14 5)) (.ofNat 5 (bits w 9 5)) (.ofNat 4 (bits w 0 4)))
  else if bits w 4 5 = 3 then some (.stckD (flag w 31) (.ofNat 5 (bits w 19 5)) (.ofNat 5 (bits w 14 5)) (.ofNat 5 (bits w 9 5)) (.ofNat 4 (bits w 0 4)))
  else none

/-- C-class major 0x1B: LDACQ. -/
def decC1B (w : Nat) : Option Instr :=
  if bits w 4 2 = 0 ∧ bits w 9 3 = 0 then (Scope.ofCode (bits w 6 3)).bind fun s => some (.ldacq (flag w 31) (.ofNat 5 (bits w 19 5)) (.ofNat 5 (bits w 14 5)) (.ofNat 2 (bits w 12 2)) s (.ofNat 4 (bits w 0 4)))
  else none

/-- C-class major 0x1C: STREL. -/
def decC1C (w : Nat) : Option Instr :=
  if bits w 0 6 = 0 ∧ bits w 9 3 = 0 then (Scope.ofCode (bits w 6 3)).bind fun s => some (.strel (flag w 31) (.ofNat 5 (bits w 19 5)) (.ofNat 5 (bits w 14 5)) (.ofNat 2 (bits w 12 2)) s)
  else none

/-- C-class major 0x1D: FENCE. -/
def decC1D (w : Nat) : Option Instr :=
  if bits w 0 6 = 0 ∧ bits w 9 3 = 0 ∧ bits w 14 10 = 0 then (FenceKind.ofCode (bits w 12 2)).bind fun k => (Scope.ofCode (bits w 6 3)).bind fun s => some (.fence (flag w 31) k s)
  else none

/-- C-class major 0x1E: WAITA. -/
def decC1E (w : Nat) : Option Instr :=
  if bits w 4 5 = 0 then some (.waita (flag w 31) (.ofNat 5 (bits w 19 5)) (.ofNat 5 (bits w 14 5)) (.ofNat 5 (bits w 9 5)) (.ofNat 4 (bits w 0 4)))
  else none

/-- C-class major 0x1F: BARINIT, BAREXPECT, BARARRIVE, WAITBAR, BARREAD. -/
def decC1F (w : Nat) : Option Instr :=
  if bits w 0 9 = 0 ∧ bits w 19 5 = 0 then some (.barinit (flag w 31) (.ofNat 5 (bits w 14 5)) (.ofNat 5 (bits w 9 5)))
  else if bits w 0 9 = 16 ∧ bits w 19 5 = 0 then some (.barexpect (flag w 31) (.ofNat 5 (bits w 14 5)) (.ofNat 5 (bits w 9 5)))
  else if bits w 0 9 = 32 ∧ bits w 19 5 = 0 then some (.bararrive (flag w 31) (.ofNat 5 (bits w 14 5)) (.ofNat 5 (bits w 9 5)))
  else if bits w 0 9 = 48 ∧ bits w 19 5 = 0 then some (.waitbar (flag w 31) (.ofNat 5 (bits w 14 5)) (.ofNat 5 (bits w 9 5)))
  else if bits w 4 10 = 4 then some (.barread (flag w 31) (.ofNat 5 (bits w 19 5)) (.ofNat 5 (bits w 14 5)) (.ofNat 4 (bits w 0 4)))
  else none

/-- C-class major 0x20: CPYB, CPYT, CPYTH. -/
def decC20 (w : Nat) : Option Instr :=
  if bits w 0 9 = 0 then some (.cpyb (flag w 31) (.ofNat 5 (bits w 19 5)) (.ofNat 5 (bits w 14 5)) (.ofNat 5 (bits w 9 5)))
  else if bits w 0 14 = 16 ∧ bits w 19 5 = 0 then some (.cpyt (flag w 31) (.ofNat 5 (bits w 14 5)))
  else if bits w 0 9 = 32 ∧ bits w 19 5 = 0 then some (.cpyth (flag w 31) (.ofNat 5 (bits w 14 5)) (.ofNat 5 (bits w 9 5)))
  else none

/-- C-class major 0x21: MLONG, MLONGH, BMVJ, BMVJH. -/
def decC21 (w : Nat) : Option Instr :=
  if bits w 0 14 = 0 ∧ bits w 19 5 = 0 then some (.mlong (flag w 31) (.ofNat 5 (bits w 14 5)))
  else if bits w 0 9 = 16 ∧ bits w 19 5 = 0 then some (.mlongh (flag w 31) (.ofNat 5 (bits w 14 5)) (.ofNat 5 (bits w 9 5)))
  else if bits w 0 14 = 32 ∧ bits w 19 5 = 0 then some (.bmvj (flag w 31) (.ofNat 5 (bits w 14 5)))
  else if bits w 0 9 = 48 ∧ bits w 19 5 = 0 then some (.bmvjh (flag w 31) (.ofNat 5 (bits w 14 5)) (.ofNat 5 (bits w 9 5)))
  else none

/-- C-class major 0x22: FBIND, FUNBIND. -/
def decC22 (w : Nat) : Option Instr :=
  if bits w 0 14 = 0 ∧ bits w 22 2 = 3 then some (.fbind (flag w 31) (.ofNat 3 (bits w 19 3)) (.ofNat 5 (bits w 14 5)))
  else if bits w 0 19 = 1 ∧ bits w 22 2 = 3 then some (.funbind (flag w 31) (.ofNat 3 (bits w 19 3)))
  else none

/-- C-class major 0x23: SBPULSE, SBCLR. -/
def decC23 (w : Nat) : Option Instr :=
  if bits w 0 14 = 0 ∧ bits w 19 5 = 0 then some (.sbpulse (flag w 31) (.ofNat 5 (bits w 14 5)))
  else if bits w 0 14 = 1 ∧ bits w 19 5 = 0 then some (.sbclr (flag w 31) (.ofNat 5 (bits w 14 5)))
  else none

/-- C-class major 0x24: CAPSEND, CAPRET, CAPDROP, CAPDEAD. -/
def decC24 (w : Nat) : Option Instr :=
  if bits w 4 10 = 0 ∧ bits w 19 5 = 0 then some (.capsend (flag w 31) (.ofNat 5 (bits w 14 5)) (.ofNat 4 (bits w 0 4)))
  else if bits w 0 14 = 16 ∧ bits w 19 5 = 0 then some (.capret (flag w 31) (.ofNat 5 (bits w 14 5)))
  else if bits w 0 14 = 32 ∧ bits w 19 5 = 0 then some (.capdrop (flag w 31) (.ofNat 5 (bits w 14 5)))
  else if bits w 0 9 = 48 ∧ bits w 19 5 = 0 then some (.capdead (flag w 31) (.ofNat 5 (bits w 14 5)) (.ofNat 5 (bits w 9 5)))
  else none

/-- C-class major 0x25: CAPPOP, CAPPUSH, CAPSET, CAPGET, CAPSKIP. -/
def decC25 (w : Nat) : Option Instr :=
  if bits w 0 14 = 0 then some (.cappop (flag w 31) (.ofNat 5 (bits w 19 5)) (.ofNat 5 (bits w 14 5)))
  else if bits w 0 9 = 1 ∧ bits w 19 5 = 0 then some (.cappush (flag w 31) (.ofNat 5 (bits w 14 5)) (.ofNat 5 (bits w 9 5)))
  else if bits w 0 4 = 2 ∧ bits w 19 5 = 0 then some (.capset (flag w 31) (.ofNat 5 (bits w 14 5)) (.ofNat 5 (bits w 9 5)) (.ofNat 5 (bits w 4 5)))
  else if bits w 0 4 = 3 ∧ bits w 9 5 = 0 then some (.capget (flag w 31) (.ofNat 5 (bits w 19 5)) (.ofNat 5 (bits w 14 5)) (.ofNat 5 (bits w 4 5)))
  else if bits w 0 9 = 4 ∧ bits w 19 5 = 0 then some (.capskip (flag w 31) (.ofNat 5 (bits w 14 5)) (.ofNat 5 (bits w 9 5)))
  else none

/-- C-class major 0x2C: MMA. -/
def decC2C (w : Nat) : Option Instr :=
  if bits w 19 1 = 0 then some (.mma (flag w 31) (.ofNat 4 (bits w 20 4)) (.ofNat 5 (bits w 14 5)) (.ofNat 5 (bits w 9 5)) (.ofNat 5 (bits w 4 5)) (.ofNat 4 (bits w 0 4)))
  else none

/-- C-class major 0x2D: MMAZ. -/
def decC2D (w : Nat) : Option Instr :=
  if bits w 19 1 = 0 then some (.mmaz (flag w 31) (.ofNat 4 (bits w 20 4)) (.ofNat 5 (bits w 14 5)) (.ofNat 5 (bits w 9 5)) (.ofNat 5 (bits w 4 5)) (.ofNat 4 (bits w 0 4)))
  else none

/-- C-class major 0x2E: ZRD, ZWR, MCLR. -/
def decC2E (w : Nat) : Option Instr :=
  if bits w 8 2 = 0 then (Ty.ofCode (bits w 4 4)).bind fun t => some (.zrd (flag w 31) (.ofNat 5 (bits w 19 5)) (.ofNat 5 (bits w 14 5)) (.ofNat 4 (bits w 10 4)) t (.ofNat 4 (bits w 0 4)))
  else if bits w 8 2 = 1 then (Ty.ofCode (bits w 4 4)).bind fun t => some (.zwr (flag w 31) (.ofNat 5 (bits w 19 5)) (.ofNat 5 (bits w 14 5)) (.ofNat 4 (bits w 10 4)) t (.ofNat 4 (bits w 0 4)))
  else if bits w 4 6 = 32 ∧ bits w 14 10 = 0 then some (.mclr (flag w 31) (.ofNat 4 (bits w 10 4)) (.ofNat 4 (bits w 0 4)))
  else none

/-- C-class major 0x2F: MEDGE. -/
def decC2F (w : Nat) : Option Instr :=
  if bits w 0 4 = 0 then some (.medge (flag w 31) (.ofNat 5 (bits w 19 5)) (.ofNat 5 (bits w 14 5)) (.ofNat 5 (bits w 9 5)) (.ofNat 5 (bits w 4 5)))
  else none

/-- C-class major 0x30: MLU, MCHOL, MQR. -/
def decC30 (w : Nat) : Option Instr :=
  if bits w 4 6 = 0 then some (.mlu (flag w 31) (.ofNat 4 (bits w 20 4)) (.ofNat 5 (bits w 15 5)) (.ofNat 5 (bits w 10 5)) (.ofNat 4 (bits w 0 4)))
  else if bits w 4 16 = 1 then some (.mchol (flag w 31) (.ofNat 4 (bits w 20 4)) (.ofNat 4 (bits w 0 4)))
  else if bits w 4 12 = 2 then some (.mqr (flag w 31) (.ofNat 4 (bits w 20 4)) (.ofNat 4 (bits w 16 4)) (.ofNat 4 (bits w 0 4)))
  else none

/-- C-class major 0x31: MTRSM. -/
def decC31 (w : Nat) : Option Instr :=
  if bits w 4 9 = 0 then some (.mtrsm (flag w 31) (.ofNat 4 (bits w 20 4)) (.ofNat 4 (bits w 16 4)) (flag w 15) (flag w 14) (flag w 13) (.ofNat 4 (bits w 0 4)))
  else none

/-- C-class major 0x32: MFMT, MCTLD, MCTSET. -/
def decC32 (w : Nat) : Option Instr :=
  if bits w 0 14 = 0 ∧ bits w 19 5 = 0 then some (.mfmt (flag w 31) (.ofNat 5 (bits w 14 5)))
  else if bits w 0 14 = 1 ∧ bits w 19 5 = 0 then some (.mctld (flag w 31) (.ofNat 5 (bits w 14 5)))
  else if bits w 0 9 = 2 ∧ bits w 19 5 = 0 then some (.mctset (flag w 31) (.ofNat 5 (bits w 14 5)) (.ofNat 5 (bits w 9 5)))
  else none

/-- A-class major 0x00: ADD, SUB, AND, OR, XOR, ANDN, SLL, SRL, SRA, ROL, ROR, SLT, SLTU, SEQ. -/
def decA00 (w : Nat) : Option Instr :=
  if bits w 0 9 = 0 ∧ bits w 31 1 = 0 then some (.add (.ofNat 5 (bits w 19 5)) (.ofNat 5 (bits w 14 5)) (.ofNat 5 (bits w 9 5)))
  else if bits w 0 9 = 1 ∧ bits w 31 1 = 0 then some (.sub (.ofNat 5 (bits w 19 5)) (.ofNat 5 (bits w 14 5)) (.ofNat 5 (bits w 9 5)))
  else if bits w 0 9 = 2 ∧ bits w 31 1 = 0 then some (.and (.ofNat 5 (bits w 19 5)) (.ofNat 5 (bits w 14 5)) (.ofNat 5 (bits w 9 5)))
  else if bits w 0 9 = 3 ∧ bits w 31 1 = 0 then some (.or (.ofNat 5 (bits w 19 5)) (.ofNat 5 (bits w 14 5)) (.ofNat 5 (bits w 9 5)))
  else if bits w 0 9 = 4 ∧ bits w 31 1 = 0 then some (.xor (.ofNat 5 (bits w 19 5)) (.ofNat 5 (bits w 14 5)) (.ofNat 5 (bits w 9 5)))
  else if bits w 0 9 = 5 ∧ bits w 31 1 = 0 then some (.andn (.ofNat 5 (bits w 19 5)) (.ofNat 5 (bits w 14 5)) (.ofNat 5 (bits w 9 5)))
  else if bits w 0 9 = 6 ∧ bits w 31 1 = 0 then some (.sll (.ofNat 5 (bits w 19 5)) (.ofNat 5 (bits w 14 5)) (.ofNat 5 (bits w 9 5)))
  else if bits w 0 9 = 7 ∧ bits w 31 1 = 0 then some (.srl (.ofNat 5 (bits w 19 5)) (.ofNat 5 (bits w 14 5)) (.ofNat 5 (bits w 9 5)))
  else if bits w 0 9 = 8 ∧ bits w 31 1 = 0 then some (.sra (.ofNat 5 (bits w 19 5)) (.ofNat 5 (bits w 14 5)) (.ofNat 5 (bits w 9 5)))
  else if bits w 0 9 = 9 ∧ bits w 31 1 = 0 then some (.rol (.ofNat 5 (bits w 19 5)) (.ofNat 5 (bits w 14 5)) (.ofNat 5 (bits w 9 5)))
  else if bits w 0 9 = 10 ∧ bits w 31 1 = 0 then some (.ror (.ofNat 5 (bits w 19 5)) (.ofNat 5 (bits w 14 5)) (.ofNat 5 (bits w 9 5)))
  else if bits w 0 9 = 11 ∧ bits w 31 1 = 0 then some (.slt (.ofNat 5 (bits w 19 5)) (.ofNat 5 (bits w 14 5)) (.ofNat 5 (bits w 9 5)))
  else if bits w 0 9 = 12 ∧ bits w 31 1 = 0 then some (.sltu (.ofNat 5 (bits w 19 5)) (.ofNat 5 (bits w 14 5)) (.ofNat 5 (bits w 9 5)))
  else if bits w 0 9 = 13 ∧ bits w 31 1 = 0 then some (.seq (.ofNat 5 (bits w 19 5)) (.ofNat 5 (bits w 14 5)) (.ofNat 5 (bits w 9 5)))
  else none

/-- A-class major 0x01: MIN, MAX, MINU, MAXU, MUL, MULH, MULHU, DIV, DIVU, REM, REMU, ADD32, SUB32, MUL32. -/
def decA01 (w : Nat) : Option Instr :=
  if bits w 0 9 = 0 ∧ bits w 31 1 = 0 then some (.min (.ofNat 5 (bits w 19 5)) (.ofNat 5 (bits w 14 5)) (.ofNat 5 (bits w 9 5)))
  else if bits w 0 9 = 1 ∧ bits w 31 1 = 0 then some (.max (.ofNat 5 (bits w 19 5)) (.ofNat 5 (bits w 14 5)) (.ofNat 5 (bits w 9 5)))
  else if bits w 0 9 = 2 ∧ bits w 31 1 = 0 then some (.minu (.ofNat 5 (bits w 19 5)) (.ofNat 5 (bits w 14 5)) (.ofNat 5 (bits w 9 5)))
  else if bits w 0 9 = 3 ∧ bits w 31 1 = 0 then some (.maxu (.ofNat 5 (bits w 19 5)) (.ofNat 5 (bits w 14 5)) (.ofNat 5 (bits w 9 5)))
  else if bits w 0 9 = 4 ∧ bits w 31 1 = 0 then some (.mul (.ofNat 5 (bits w 19 5)) (.ofNat 5 (bits w 14 5)) (.ofNat 5 (bits w 9 5)))
  else if bits w 0 9 = 5 ∧ bits w 31 1 = 0 then some (.mulh (.ofNat 5 (bits w 19 5)) (.ofNat 5 (bits w 14 5)) (.ofNat 5 (bits w 9 5)))
  else if bits w 0 9 = 6 ∧ bits w 31 1 = 0 then some (.mulhu (.ofNat 5 (bits w 19 5)) (.ofNat 5 (bits w 14 5)) (.ofNat 5 (bits w 9 5)))
  else if bits w 0 9 = 7 ∧ bits w 31 1 = 0 then some (.div (.ofNat 5 (bits w 19 5)) (.ofNat 5 (bits w 14 5)) (.ofNat 5 (bits w 9 5)))
  else if bits w 0 9 = 8 ∧ bits w 31 1 = 0 then some (.divu (.ofNat 5 (bits w 19 5)) (.ofNat 5 (bits w 14 5)) (.ofNat 5 (bits w 9 5)))
  else if bits w 0 9 = 9 ∧ bits w 31 1 = 0 then some (.rem (.ofNat 5 (bits w 19 5)) (.ofNat 5 (bits w 14 5)) (.ofNat 5 (bits w 9 5)))
  else if bits w 0 9 = 10 ∧ bits w 31 1 = 0 then some (.remu (.ofNat 5 (bits w 19 5)) (.ofNat 5 (bits w 14 5)) (.ofNat 5 (bits w 9 5)))
  else if bits w 0 9 = 11 ∧ bits w 31 1 = 0 then some (.add32 (.ofNat 5 (bits w 19 5)) (.ofNat 5 (bits w 14 5)) (.ofNat 5 (bits w 9 5)))
  else if bits w 0 9 = 12 ∧ bits w 31 1 = 0 then some (.sub32 (.ofNat 5 (bits w 19 5)) (.ofNat 5 (bits w 14 5)) (.ofNat 5 (bits w 9 5)))
  else if bits w 0 9 = 13 ∧ bits w 31 1 = 0 then some (.mul32 (.ofNat 5 (bits w 19 5)) (.ofNat 5 (bits w 14 5)) (.ofNat 5 (bits w 9 5)))
  else none

/-- A-class major 0x02: MADD, MSUB, CSEL, CLZ, CTZ, POPC, BSWAP, SEXT_B, SEXT_H, SEXT_W, ZEXT_W. -/
def decA02 (w : Nat) : Option Instr :=
  if bits w 0 4 = 0 ∧ bits w 31 1 = 0 then some (.madd (.ofNat 5 (bits w 19 5)) (.ofNat 5 (bits w 14 5)) (.ofNat 5 (bits w 9 5)) (.ofNat 5 (bits w 4 5)))
  else if bits w 0 4 = 1 ∧ bits w 31 1 = 0 then some (.msub (.ofNat 5 (bits w 19 5)) (.ofNat 5 (bits w 14 5)) (.ofNat 5 (bits w 9 5)) (.ofNat 5 (bits w 4 5)))
  else if bits w 0 4 = 2 ∧ bits w 31 1 = 0 then some (.csel (.ofNat 5 (bits w 19 5)) (.ofNat 5 (bits w 14 5)) (.ofNat 5 (bits w 9 5)) (.ofNat 5 (bits w 4 5)))
  else if bits w 0 14 = 3 ∧ bits w 31 1 = 0 then some (.clz (.ofNat 5 (bits w 19 5)) (.ofNat 5 (bits w 14 5)))
  else if bits w 0 14 = 4 ∧ bits w 31 1 = 0 then some (.ctz (.ofNat 5 (bits w 19 5)) (.ofNat 5 (bits w 14 5)))
  else if bits w 0 14 = 5 ∧ bits w 31 1 = 0 then some (.popc (.ofNat 5 (bits w 19 5)) (.ofNat 5 (bits w 14 5)))
  else if bits w 0 14 = 6 ∧ bits w 31 1 = 0 then some (.bswap (.ofNat 5 (bits w 19 5)) (.ofNat 5 (bits w 14 5)))
  else if bits w 0 14 = 7 ∧ bits w 31 1 = 0 then some (.sextB (.ofNat 5 (bits w 19 5)) (.ofNat 5 (bits w 14 5)))
  else if bits w 0 14 = 8 ∧ bits w 31 1 = 0 then some (.sextH (.ofNat 5 (bits w 19 5)) (.ofNat 5 (bits w 14 5)))
  else if bits w 0 14 = 9 ∧ bits w 31 1 = 0 then some (.sextW (.ofNat 5 (bits w 19 5)) (.ofNat 5 (bits w 14 5)))
  else if bits w 0 14 = 10 ∧ bits w 31 1 = 0 then some (.zextW (.ofNat 5 (bits w 19 5)) (.ofNat 5 (bits w 14 5)))
  else none

/-- A-class major 0x03: ADDI. -/
def decA03 (w : Nat) : Option Instr :=
  if bits w 31 1 = 0 then some (.addi (.ofNat 5 (bits w 19 5)) (.ofNat 5 (bits w 14 5)) (.ofNat 14 (bits w 0 14)))
  else none

/-- A-class major 0x04: ANDI. -/
def decA04 (w : Nat) : Option Instr :=
  if bits w 31 1 = 0 then some (.andi (.ofNat 5 (bits w 19 5)) (.ofNat 5 (bits w 14 5)) (.ofNat 14 (bits w 0 14)))
  else none

/-- A-class major 0x05: ORI. -/
def decA05 (w : Nat) : Option Instr :=
  if bits w 31 1 = 0 then some (.ori (.ofNat 5 (bits w 19 5)) (.ofNat 5 (bits w 14 5)) (.ofNat 14 (bits w 0 14)))
  else none

/-- A-class major 0x06: XORI. -/
def decA06 (w : Nat) : Option Instr :=
  if bits w 31 1 = 0 then some (.xori (.ofNat 5 (bits w 19 5)) (.ofNat 5 (bits w 14 5)) (.ofNat 14 (bits w 0 14)))
  else none

/-- A-class major 0x07: SLLI, SRLI, SRAI, RORI. -/
def decA07 (w : Nat) : Option Instr :=
  if bits w 6 8 = 0 ∧ bits w 31 1 = 0 then some (.slli (.ofNat 5 (bits w 19 5)) (.ofNat 5 (bits w 14 5)) (.ofNat 6 (bits w 0 6)))
  else if bits w 6 8 = 64 ∧ bits w 31 1 = 0 then some (.srli (.ofNat 5 (bits w 19 5)) (.ofNat 5 (bits w 14 5)) (.ofNat 6 (bits w 0 6)))
  else if bits w 6 8 = 128 ∧ bits w 31 1 = 0 then some (.srai (.ofNat 5 (bits w 19 5)) (.ofNat 5 (bits w 14 5)) (.ofNat 6 (bits w 0 6)))
  else if bits w 6 8 = 192 ∧ bits w 31 1 = 0 then some (.rori (.ofNat 5 (bits w 19 5)) (.ofNat 5 (bits w 14 5)) (.ofNat 6 (bits w 0 6)))
  else none

/-- A-class major 0x08: SLTI. -/
def decA08 (w : Nat) : Option Instr :=
  if bits w 31 1 = 0 then some (.slti (.ofNat 5 (bits w 19 5)) (.ofNat 5 (bits w 14 5)) (.ofNat 14 (bits w 0 14)))
  else none

/-- A-class major 0x09: SLTIU. -/
def decA09 (w : Nat) : Option Instr :=
  if bits w 31 1 = 0 then some (.sltiu (.ofNat 5 (bits w 19 5)) (.ofNat 5 (bits w 14 5)) (.ofNat 14 (bits w 0 14)))
  else none

/-- A-class major 0x0A: MOVHI. -/
def decA0A (w : Nat) : Option Instr :=
  if bits w 31 1 = 0 then some (.movhi (.ofNat 5 (bits w 19 5)) (.ofNat 19 (bits w 0 19)))
  else none

/-- A-class major 0x0B: INSH. -/
def decA0B (w : Nat) : Option Instr :=
  if bits w 16 3 = 0 ∧ bits w 31 1 = 0 then some (.insh (.ofNat 5 (bits w 19 5)) (.ofNat 16 (bits w 0 16)))
  else none

/-- A-class major 0x10: FADD, FSUB, FMUL, FDIV, FSQRT, FMIN, FMAX, FNEG, FABS, FCPSGN, FCMEQ, FCMLT, FCMLE. -/
def decA10 (w : Nat) : Option Instr :=
  if bits w 0 9 = 0 ∧ bits w 31 1 = 0 then some (.fadd (.ofNat 5 (bits w 19 5)) (.ofNat 5 (bits w 14 5)) (.ofNat 5 (bits w 9 5)))
  else if bits w 0 9 = 1 ∧ bits w 31 1 = 0 then some (.fsub (.ofNat 5 (bits w 19 5)) (.ofNat 5 (bits w 14 5)) (.ofNat 5 (bits w 9 5)))
  else if bits w 0 9 = 2 ∧ bits w 31 1 = 0 then some (.fmul (.ofNat 5 (bits w 19 5)) (.ofNat 5 (bits w 14 5)) (.ofNat 5 (bits w 9 5)))
  else if bits w 0 9 = 3 ∧ bits w 31 1 = 0 then some (.fdiv (.ofNat 5 (bits w 19 5)) (.ofNat 5 (bits w 14 5)) (.ofNat 5 (bits w 9 5)))
  else if bits w 0 14 = 4 ∧ bits w 31 1 = 0 then some (.fsqrt (.ofNat 5 (bits w 19 5)) (.ofNat 5 (bits w 14 5)))
  else if bits w 0 9 = 5 ∧ bits w 31 1 = 0 then some (.fmin (.ofNat 5 (bits w 19 5)) (.ofNat 5 (bits w 14 5)) (.ofNat 5 (bits w 9 5)))
  else if bits w 0 9 = 6 ∧ bits w 31 1 = 0 then some (.fmax (.ofNat 5 (bits w 19 5)) (.ofNat 5 (bits w 14 5)) (.ofNat 5 (bits w 9 5)))
  else if bits w 0 14 = 7 ∧ bits w 31 1 = 0 then some (.fneg (.ofNat 5 (bits w 19 5)) (.ofNat 5 (bits w 14 5)))
  else if bits w 0 14 = 8 ∧ bits w 31 1 = 0 then some (.fabs (.ofNat 5 (bits w 19 5)) (.ofNat 5 (bits w 14 5)))
  else if bits w 0 9 = 9 ∧ bits w 31 1 = 0 then some (.fcpsgn (.ofNat 5 (bits w 19 5)) (.ofNat 5 (bits w 14 5)) (.ofNat 5 (bits w 9 5)))
  else if bits w 0 9 = 10 ∧ bits w 31 1 = 0 then some (.fcmeq (.ofNat 5 (bits w 19 5)) (.ofNat 5 (bits w 14 5)) (.ofNat 5 (bits w 9 5)))
  else if bits w 0 9 = 11 ∧ bits w 31 1 = 0 then some (.fcmlt (.ofNat 5 (bits w 19 5)) (.ofNat 5 (bits w 14 5)) (.ofNat 5 (bits w 9 5)))
  else if bits w 0 9 = 12 ∧ bits w 31 1 = 0 then some (.fcmle (.ofNat 5 (bits w 19 5)) (.ofNat 5 (bits w 14 5)) (.ofNat 5 (bits w 9 5)))
  else none

/-- A-class major 0x11: FFMA, FFMS, FFNMA, FFNMS. -/
def decA11 (w : Nat) : Option Instr :=
  if bits w 0 4 = 0 ∧ bits w 31 1 = 0 then some (.ffma (.ofNat 5 (bits w 19 5)) (.ofNat 5 (bits w 14 5)) (.ofNat 5 (bits w 9 5)) (.ofNat 5 (bits w 4 5)))
  else if bits w 0 4 = 1 ∧ bits w 31 1 = 0 then some (.ffms (.ofNat 5 (bits w 19 5)) (.ofNat 5 (bits w 14 5)) (.ofNat 5 (bits w 9 5)) (.ofNat 5 (bits w 4 5)))
  else if bits w 0 4 = 2 ∧ bits w 31 1 = 0 then some (.ffnma (.ofNat 5 (bits w 19 5)) (.ofNat 5 (bits w 14 5)) (.ofNat 5 (bits w 9 5)) (.ofNat 5 (bits w 4 5)))
  else if bits w 0 4 = 3 ∧ bits w 31 1 = 0 then some (.ffnms (.ofNat 5 (bits w 19 5)) (.ofNat 5 (bits w 14 5)) (.ofNat 5 (bits w 9 5)) (.ofNat 5 (bits w 4 5)))
  else none

/-- A-class major 0x12: FCONV. -/
def decA12 (w : Nat) : Option Instr :=
  if bits w 4 3 = 0 ∧ bits w 31 1 = 0 then (Ty.ofCode (bits w 10 4)).bind fun t => (Ty.ofCode (bits w 0 4)).bind fun u => some (.fconv (.ofNat 5 (bits w 19 5)) (.ofNat 5 (bits w 14 5)) t (.ofNat 2 (bits w 8 2)) (flag w 7) u)
  else none

/-- A-class major 0x13: FRINT. -/
def decA13 (w : Nat) : Option Instr :=
  if bits w 0 8 = 10 ∧ bits w 10 4 = 10 ∧ bits w 31 1 = 0 then some (.frint (.ofNat 5 (bits w 19 5)) (.ofNat 5 (bits w 14 5)) (.ofNat 2 (bits w 8 2)))
  else none

/-- A-class major 0x14: VADD, VADDS. -/
def decA14 (w : Nat) : Option Instr :=
  if bits w 4 2 = 0 ∧ bits w 31 1 = 0 then (Ty.ofCode (bits w 0 4)).bind fun t => some (.vadd (.ofNat 5 (bits w 19 5)) (.ofNat 5 (bits w 14 5)) (.ofNat 5 (bits w 9 5)) (.ofNat 3 (bits w 6 3)) t)
  else if bits w 4 2 = 1 ∧ bits w 31 1 = 0 then (Ty.ofCode (bits w 0 4)).bind fun t => some (.vadds (.ofNat 5 (bits w 19 5)) (.ofNat 5 (bits w 14 5)) (.ofNat 5 (bits w 9 5)) (.ofNat 3 (bits w 6 3)) t)
  else none

/-- A-class major 0x15: VSUB, VSUBS. -/
def decA15 (w : Nat) : Option Instr :=
  if bits w 4 2 = 0 ∧ bits w 31 1 = 0 then (Ty.ofCode (bits w 0 4)).bind fun t => some (.vsub (.ofNat 5 (bits w 19 5)) (.ofNat 5 (bits w 14 5)) (.ofNat 5 (bits w 9 5)) (.ofNat 3 (bits w 6 3)) t)
  else if bits w 4 2 = 1 ∧ bits w 31 1 = 0 then (Ty.ofCode (bits w 0 4)).bind fun t => some (.vsubs (.ofNat 5 (bits w 19 5)) (.ofNat 5 (bits w 14 5)) (.ofNat 5 (bits w 9 5)) (.ofNat 3 (bits w 6 3)) t)
  else none

/-- A-class major 0x16: VMUL, VMULH. -/
def decA16 (w : Nat) : Option Instr :=
  if bits w 4 2 = 0 ∧ bits w 31 1 = 0 then (Ty.ofCode (bits w 0 4)).bind fun t => some (.vmul (.ofNat 5 (bits w 19 5)) (.ofNat 5 (bits w 14 5)) (.ofNat 5 (bits w 9 5)) (.ofNat 3 (bits w 6 3)) t)
  else if bits w 4 2 = 1 ∧ bits w 31 1 = 0 then (Ty.ofCode (bits w 0 4)).bind fun t => some (.vmulh (.ofNat 5 (bits w 19 5)) (.ofNat 5 (bits w 14 5)) (.ofNat 5 (bits w 9 5)) (.ofNat 3 (bits w 6 3)) t)
  else none

/-- A-class major 0x17: VDIV. -/
def decA17 (w : Nat) : Option Instr :=
  if bits w 4 2 = 0 ∧ bits w 31 1 = 0 then (Ty.ofCode (bits w 0 4)).bind fun t => some (.vdiv (.ofNat 5 (bits w 19 5)) (.ofNat 5 (bits w 14 5)) (.ofNat 5 (bits w 9 5)) (.ofNat 3 (bits w 6 3)) t)
  else none

/-- A-class major 0x18: VMIN, VMAX. -/
def decA18 (w : Nat) : Option Instr :=
  if bits w 4 2 = 0 ∧ bits w 31 1 = 0 then (Ty.ofCode (bits w 0 4)).bind fun t => some (.vmin (.ofNat 5 (bits w 19 5)) (.ofNat 5 (bits w 14 5)) (.ofNat 5 (bits w 9 5)) (.ofNat 3 (bits w 6 3)) t)
  else if bits w 4 2 = 1 ∧ bits w 31 1 = 0 then (Ty.ofCode (bits w 0 4)).bind fun t => some (.vmax (.ofNat 5 (bits w 19 5)) (.ofNat 5 (bits w 14 5)) (.ofNat 5 (bits w 9 5)) (.ofNat 3 (bits w 6 3)) t)
  else none

/-- A-class major 0x19: VFMA, VFMS, VFNMA, VFNMS. -/
def decA19 (w : Nat) : Option Instr :=
  if bits w 4 2 = 0 ∧ bits w 31 1 = 0 then (Ty.ofCode (bits w 0 4)).bind fun t => some (.vfma (.ofNat 5 (bits w 19 5)) (.ofNat 5 (bits w 14 5)) (.ofNat 5 (bits w 9 5)) (.ofNat 3 (bits w 6 3)) t)
  else if bits w 4 2 = 1 ∧ bits w 31 1 = 0 then (Ty.ofCode (bits w 0 4)).bind fun t => some (.vfms (.ofNat 5 (bits w 19 5)) (.ofNat 5 (bits w 14 5)) (.ofNat 5 (bits w 9 5)) (.ofNat 3 (bits w 6 3)) t)
  else if bits w 4 2 = 2 ∧ bits w 31 1 = 0 then (Ty.ofCode (bits w 0 4)).bind fun t => some (.vfnma (.ofNat 5 (bits w 19 5)) (.ofNat 5 (bits w 14 5)) (.ofNat 5 (bits w 9 5)) (.ofNat 3 (bits w 6 3)) t)
  else if bits w 4 2 = 3 ∧ bits w 31 1 = 0 then (Ty.ofCode (bits w 0 4)).bind fun t => some (.vfnms (.ofNat 5 (bits w 19 5)) (.ofNat 5 (bits w 14 5)) (.ofNat 5 (bits w 9 5)) (.ofNat 3 (bits w 6 3)) t)
  else none

/-- A-class major 0x1A: VAND, VOR, VXOR, VANDN. -/
def decA1A (w : Nat) : Option Instr :=
  if bits w 4 2 = 0 ∧ bits w 31 1 = 0 then (Ty.ofCode (bits w 0 4)).bind fun t => some (.vand (.ofNat 5 (bits w 19 5)) (.ofNat 5 (bits w 14 5)) (.ofNat 5 (bits w 9 5)) (.ofNat 3 (bits w 6 3)) t)
  else if bits w 4 2 = 1 ∧ bits w 31 1 = 0 then (Ty.ofCode (bits w 0 4)).bind fun t => some (.vor (.ofNat 5 (bits w 19 5)) (.ofNat 5 (bits w 14 5)) (.ofNat 5 (bits w 9 5)) (.ofNat 3 (bits w 6 3)) t)
  else if bits w 4 2 = 2 ∧ bits w 31 1 = 0 then (Ty.ofCode (bits w 0 4)).bind fun t => some (.vxor (.ofNat 5 (bits w 19 5)) (.ofNat 5 (bits w 14 5)) (.ofNat 5 (bits w 9 5)) (.ofNat 3 (bits w 6 3)) t)
  else if bits w 4 2 = 3 ∧ bits w 31 1 = 0 then (Ty.ofCode (bits w 0 4)).bind fun t => some (.vandn (.ofNat 5 (bits w 19 5)) (.ofNat 5 (bits w 14 5)) (.ofNat 5 (bits w 9 5)) (.ofNat 3 (bits w 6 3)) t)
  else none

/-- A-class major 0x1B: VSHL, VSHR, VSRA, VROL. -/
def decA1B (w : Nat) : Option Instr :=
  if bits w 4 2 = 0 ∧ bits w 31 1 = 0 then (Ty.ofCode (bits w 0 4)).bind fun t => some (.vshl (.ofNat 5 (bits w 19 5)) (.ofNat 5 (bits w 14 5)) (.ofNat 5 (bits w 9 5)) (.ofNat 3 (bits w 6 3)) t)
  else if bits w 4 2 = 1 ∧ bits w 31 1 = 0 then (Ty.ofCode (bits w 0 4)).bind fun t => some (.vshr (.ofNat 5 (bits w 19 5)) (.ofNat 5 (bits w 14 5)) (.ofNat 5 (bits w 9 5)) (.ofNat 3 (bits w 6 3)) t)
  else if bits w 4 2 = 2 ∧ bits w 31 1 = 0 then (Ty.ofCode (bits w 0 4)).bind fun t => some (.vsra (.ofNat 5 (bits w 19 5)) (.ofNat 5 (bits w 14 5)) (.ofNat 5 (bits w 9 5)) (.ofNat 3 (bits w 6 3)) t)
  else if bits w 4 2 = 3 ∧ bits w 31 1 = 0 then (Ty.ofCode (bits w 0 4)).bind fun t => some (.vrol (.ofNat 5 (bits w 19 5)) (.ofNat 5 (bits w 14 5)) (.ofNat 5 (bits w 9 5)) (.ofNat 3 (bits w 6 3)) t)
  else none

/-- A-class major 0x1C: VCMPEQ, VCMPNE, VCMPLT, VCMPLE. -/
def decA1C (w : Nat) : Option Instr :=
  if bits w 4 2 = 0 ∧ bits w 22 2 = 0 ∧ bits w 31 1 = 0 then (Ty.ofCode (bits w 0 4)).bind fun t => some (.vcmpeq (.ofNat 3 (bits w 19 3)) (.ofNat 5 (bits w 14 5)) (.ofNat 5 (bits w 9 5)) (.ofNat 3 (bits w 6 3)) t)
  else if bits w 4 2 = 1 ∧ bits w 22 2 = 0 ∧ bits w 31 1 = 0 then (Ty.ofCode (bits w 0 4)).bind fun t => some (.vcmpne (.ofNat 3 (bits w 19 3)) (.ofNat 5 (bits w 14 5)) (.ofNat 5 (bits w 9 5)) (.ofNat 3 (bits w 6 3)) t)
  else if bits w 4 2 = 2 ∧ bits w 22 2 = 0 ∧ bits w 31 1 = 0 then (Ty.ofCode (bits w 0 4)).bind fun t => some (.vcmplt (.ofNat 3 (bits w 19 3)) (.ofNat 5 (bits w 14 5)) (.ofNat 5 (bits w 9 5)) (.ofNat 3 (bits w 6 3)) t)
  else if bits w 4 2 = 3 ∧ bits w 22 2 = 0 ∧ bits w 31 1 = 0 then (Ty.ofCode (bits w 0 4)).bind fun t => some (.vcmple (.ofNat 3 (bits w 19 3)) (.ofNat 5 (bits w 14 5)) (.ofNat 5 (bits w 9 5)) (.ofNat 3 (bits w 6 3)) t)
  else none

/-- A-class major 0x1D: VSEL. -/
def decA1D (w : Nat) : Option Instr :=
  if bits w 4 2 = 0 ∧ bits w 31 1 = 0 then (Ty.ofCode (bits w 0 4)).bind fun t => some (.vsel (.ofNat 5 (bits w 19 5)) (.ofNat 5 (bits w 14 5)) (.ofNat 5 (bits w 9 5)) (.ofNat 3 (bits w 6 3)) t)
  else none

/-- A-class major 0x1E: VNEG, VABS, VCPSGN, VMOV. -/
def decA1E (w : Nat) : Option Instr :=
  if bits w 4 2 = 0 ∧ bits w 9 5 = 0 ∧ bits w 31 1 = 0 then (Ty.ofCode (bits w 0 4)).bind fun t => some (.vneg (.ofNat 5 (bits w 19 5)) (.ofNat 5 (bits w 14 5)) (.ofNat 3 (bits w 6 3)) t)
  else if bits w 4 2 = 1 ∧ bits w 9 5 = 0 ∧ bits w 31 1 = 0 then (Ty.ofCode (bits w 0 4)).bind fun t => some (.vabs (.ofNat 5 (bits w 19 5)) (.ofNat 5 (bits w 14 5)) (.ofNat 3 (bits w 6 3)) t)
  else if bits w 4 2 = 2 ∧ bits w 31 1 = 0 then (Ty.ofCode (bits w 0 4)).bind fun t => some (.vcpsgn (.ofNat 5 (bits w 19 5)) (.ofNat 5 (bits w 14 5)) (.ofNat 5 (bits w 9 5)) (.ofNat 3 (bits w 6 3)) t)
  else if bits w 4 2 = 3 ∧ bits w 9 5 = 0 ∧ bits w 31 1 = 0 then (Ty.ofCode (bits w 0 4)).bind fun t => some (.vmov (.ofNat 5 (bits w 19 5)) (.ofNat 5 (bits w 14 5)) (.ofNat 3 (bits w 6 3)) t)
  else none

/-- A-class major 0x1F: VSQRT. -/
def decA1F (w : Nat) : Option Instr :=
  if bits w 4 2 = 0 ∧ bits w 9 5 = 0 ∧ bits w 31 1 = 0 then (Ty.ofCode (bits w 0 4)).bind fun t => some (.vsqrt (.ofNat 5 (bits w 19 5)) (.ofNat 5 (bits w 14 5)) (.ofNat 3 (bits w 6 3)) t)
  else none

/-- A-class major 0x20: VEXP2, VLOG2, VRCP, VRSQRT. -/
def decA20 (w : Nat) : Option Instr :=
  if bits w 4 2 = 0 ∧ bits w 9 5 = 0 ∧ bits w 31 1 = 0 then (Ty.ofCode (bits w 0 4)).bind fun t => some (.vexp2 (.ofNat 5 (bits w 19 5)) (.ofNat 5 (bits w 14 5)) (.ofNat 3 (bits w 6 3)) t)
  else if bits w 4 2 = 1 ∧ bits w 9 5 = 0 ∧ bits w 31 1 = 0 then (Ty.ofCode (bits w 0 4)).bind fun t => some (.vlog2 (.ofNat 5 (bits w 19 5)) (.ofNat 5 (bits w 14 5)) (.ofNat 3 (bits w 6 3)) t)
  else if bits w 4 2 = 2 ∧ bits w 9 5 = 0 ∧ bits w 31 1 = 0 then (Ty.ofCode (bits w 0 4)).bind fun t => some (.vrcp (.ofNat 5 (bits w 19 5)) (.ofNat 5 (bits w 14 5)) (.ofNat 3 (bits w 6 3)) t)
  else if bits w 4 2 = 3 ∧ bits w 9 5 = 0 ∧ bits w 31 1 = 0 then (Ty.ofCode (bits w 0 4)).bind fun t => some (.vrsqrt (.ofNat 5 (bits w 19 5)) (.ofNat 5 (bits w 14 5)) (.ofNat 3 (bits w 6 3)) t)
  else none

/-- A-class major 0x21: VMIX32, VMIX32U, VMIX32R. -/
def decA21 (w : Nat) : Option Instr :=
  if bits w 0 6 = 6 ∧ bits w 31 1 = 0 then some (.vmix32 (.ofNat 5 (bits w 19 5)) (.ofNat 5 (bits w 14 5)) (.ofNat 5 (bits w 9 5)) (.ofNat 3 (bits w 6 3)))
  else if bits w 0 6 = 26 ∧ bits w 31 1 = 0 then some (.vmix32u (.ofNat 5 (bits w 19 5)) (.ofNat 5 (bits w 14 5)) (.ofNat 5 (bits w 9 5)) (.ofNat 3 (bits w 6 3)))
  else if bits w 0 6 = 42 ∧ bits w 19 1 = 0 ∧ bits w 31 1 = 0 then some (.vmix32r (.ofNat 4 (bits w 20 4)) (.ofNat 5 (bits w 14 5)) (.ofNat 5 (bits w 9 5)) (.ofNat 3 (bits w 6 3)))
  else none

/-- A-class major 0x22: VRSUM, VRMAX, VRMIN. -/
noncomputable def decA22 (w : Nat) : Option Instr :=
  if bits w 4 2 = 0 ∧ bits w 9 5 = 0 ∧ bits w 31 1 = 0 then (Ty.ofCode (bits w 0 4)).bind fun t => some (.vrsum (.ofNat 5 (bits w 19 5)) (.ofNat 5 (bits w 14 5)) (.ofNat 3 (bits w 6 3)) t)
  else if bits w 4 2 = 1 ∧ bits w 9 5 = 0 ∧ bits w 31 1 = 0 then (Ty.ofCode (bits w 0 4)).bind fun t => some (.vrmax (.ofNat 5 (bits w 19 5)) (.ofNat 5 (bits w 14 5)) (.ofNat 3 (bits w 6 3)) t)
  else if bits w 4 2 = 2 ∧ bits w 9 5 = 0 ∧ bits w 31 1 = 0 then (Ty.ofCode (bits w 0 4)).bind fun t => some (.vrmin (.ofNat 5 (bits w 19 5)) (.ofNat 5 (bits w 14 5)) (.ofNat 3 (bits w 6 3)) t)
  else none

/-- A-class major 0x23: VSCSUM, VSCMAX, VSCMIN. -/
noncomputable def decA23 (w : Nat) : Option Instr :=
  if bits w 4 2 = 0 ∧ bits w 9 5 = 0 ∧ bits w 31 1 = 0 then (Ty.ofCode (bits w 0 4)).bind fun t => some (.vscsum (.ofNat 5 (bits w 19 5)) (.ofNat 5 (bits w 14 5)) (.ofNat 3 (bits w 6 3)) t)
  else if bits w 4 2 = 1 ∧ bits w 9 5 = 0 ∧ bits w 31 1 = 0 then (Ty.ofCode (bits w 0 4)).bind fun t => some (.vscmax (.ofNat 5 (bits w 19 5)) (.ofNat 5 (bits w 14 5)) (.ofNat 3 (bits w 6 3)) t)
  else if bits w 4 2 = 2 ∧ bits w 9 5 = 0 ∧ bits w 31 1 = 0 then (Ty.ofCode (bits w 0 4)).bind fun t => some (.vscmin (.ofNat 5 (bits w 19 5)) (.ofNat 5 (bits w 14 5)) (.ofNat 3 (bits w 6 3)) t)
  else none

/-- A-class major 0x24: VPERM, VCOMPR. -/
noncomputable def decA24 (w : Nat) : Option Instr :=
  if bits w 4 2 = 0 ∧ bits w 31 1 = 0 then (Ty.ofCode (bits w 0 4)).bind fun t => some (.vperm (.ofNat 5 (bits w 19 5)) (.ofNat 5 (bits w 14 5)) (.ofNat 5 (bits w 9 5)) (.ofNat 3 (bits w 6 3)) t)
  else if bits w 4 2 = 1 ∧ bits w 9 5 = 0 ∧ bits w 31 1 = 0 then (Ty.ofCode (bits w 0 4)).bind fun t => some (.vcompr (.ofNat 5 (bits w 19 5)) (.ofNat 5 (bits w 14 5)) (.ofNat 3 (bits w 6 3)) t)
  else none

/-- A-class major 0x25: VBCAST, VSPLAT. -/
noncomputable def decA25 (w : Nat) : Option Instr :=
  if bits w 4 2 = 0 ∧ bits w 9 5 = 0 ∧ bits w 31 1 = 0 then (Ty.ofCode (bits w 0 4)).bind fun t => some (.vbcast (.ofNat 5 (bits w 19 5)) (.ofNat 5 (bits w 14 5)) (.ofNat 3 (bits w 6 3)) t)
  else if bits w 4 2 = 1 ∧ bits w 31 1 = 0 then (Ty.ofCode (bits w 0 4)).bind fun t => some (.vsplat (.ofNat 5 (bits w 19 5)) (.ofNat 5 (bits w 14 5)) (.ofNat 5 (bits w 9 5)) (.ofNat 3 (bits w 6 3)) t)
  else none

/-- A-class major 0x26: VINS, VEXT. -/
noncomputable def decA26 (w : Nat) : Option Instr :=
  if bits w 4 5 = 0 ∧ bits w 31 1 = 0 then (Ty.ofCode (bits w 0 4)).bind fun t => some (.vins (.ofNat 5 (bits w 19 5)) (.ofNat 5 (bits w 14 5)) (.ofNat 5 (bits w 9 5)) t)
  else if bits w 4 5 = 1 ∧ bits w 31 1 = 0 then (Ty.ofCode (bits w 0 4)).bind fun t => some (.vext (.ofNat 5 (bits w 19 5)) (.ofNat 5 (bits w 14 5)) (.ofNat 5 (bits w 9 5)) t)
  else none

/-- A-class major 0x27: VCVT. -/
noncomputable def decA27 (w : Nat) : Option Instr :=
  if bits w 31 1 = 0 then (Ty.ofCode (bits w 10 4)).bind fun t => (Ty.ofCode (bits w 0 4)).bind fun u => some (.vcvt (.ofNat 5 (bits w 19 5)) (.ofNat 5 (bits w 14 5)) t (.ofNat 2 (bits w 8 2)) (flag w 7) (flag w 6) (.ofNat 2 (bits w 4 2)) u)
  else none

/-- A-class major 0x28: VQBLK_SB8, VQBLK_SB4. -/
noncomputable def decA28 (w : Nat) : Option Instr :=
  if bits w 0 7 = 10 ∧ bits w 10 4 = 5 ∧ bits w 31 1 = 0 then some (.vqblkSb8 (.ofNat 5 (bits w 19 5)) (.ofNat 5 (bits w 14 5)) (.ofNat 2 (bits w 8 2)) (flag w 7))
  else if bits w 0 7 = 10 ∧ bits w 10 4 = 6 ∧ bits w 31 1 = 0 then some (.vqblkSb4 (.ofNat 5 (bits w 19 5)) (.ofNat 5 (bits w 14 5)) (.ofNat 2 (bits w 8 2)) (flag w 7))
  else none

/-- A-class major 0x29: VDQBLK_SB8, VDQBLK_SB4. -/
noncomputable def decA29 (w : Nat) : Option Instr :=
  if bits w 0 14 = 10245 ∧ bits w 31 1 = 0 then some (.vdqblkSb8 (.ofNat 5 (bits w 19 5)) (.ofNat 5 (bits w 14 5)))
  else if bits w 0 14 = 10246 ∧ bits w 31 1 = 0 then some (.vdqblkSb4 (.ofNat 5 (bits w 19 5)) (.ofNat 5 (bits w 14 5)))
  else none

/-- A-class major 0x2A: MAND, MOR, MXOR, MANDN. -/
noncomputable def decA2A (w : Nat) : Option Instr :=
  if bits w 0 9 = 0 ∧ bits w 12 2 = 0 ∧ bits w 17 2 = 0 ∧ bits w 22 2 = 0 ∧ bits w 31 1 = 0 then some (.mand (.ofNat 3 (bits w 19 3)) (.ofNat 3 (bits w 14 3)) (.ofNat 3 (bits w 9 3)))
  else if bits w 0 9 = 16 ∧ bits w 12 2 = 0 ∧ bits w 17 2 = 0 ∧ bits w 22 2 = 0 ∧ bits w 31 1 = 0 then some (.mor (.ofNat 3 (bits w 19 3)) (.ofNat 3 (bits w 14 3)) (.ofNat 3 (bits w 9 3)))
  else if bits w 0 9 = 32 ∧ bits w 12 2 = 0 ∧ bits w 17 2 = 0 ∧ bits w 22 2 = 0 ∧ bits w 31 1 = 0 then some (.mxor (.ofNat 3 (bits w 19 3)) (.ofNat 3 (bits w 14 3)) (.ofNat 3 (bits w 9 3)))
  else if bits w 0 9 = 48 ∧ bits w 12 2 = 0 ∧ bits w 17 2 = 0 ∧ bits w 22 2 = 0 ∧ bits w 31 1 = 0 then some (.mandn (.ofNat 3 (bits w 19 3)) (.ofNat 3 (bits w 14 3)) (.ofNat 3 (bits w 9 3)))
  else none

/-- A-class major 0x2B: MTOG, GTOM, MPOPC, MFIRST. -/
noncomputable def decA2B (w : Nat) : Option Instr :=
  if bits w 0 14 = 0 ∧ bits w 17 2 = 0 ∧ bits w 31 1 = 0 then some (.mtog (.ofNat 5 (bits w 19 5)) (.ofNat 3 (bits w 14 3)))
  else if bits w 0 14 = 16 ∧ bits w 22 2 = 0 ∧ bits w 31 1 = 0 then some (.gtom (.ofNat 3 (bits w 19 3)) (.ofNat 5 (bits w 14 5)))
  else if bits w 4 10 = 2 ∧ bits w 17 2 = 0 ∧ bits w 31 1 = 0 then (Ty.ofCode (bits w 0 4)).bind fun t => some (.mpopc (.ofNat 5 (bits w 19 5)) (.ofNat 3 (bits w 14 3)) t)
  else if bits w 4 10 = 3 ∧ bits w 17 2 = 0 ∧ bits w 31 1 = 0 then (Ty.ofCode (bits w 0 4)).bind fun t => some (.mfirst (.ofNat 5 (bits w 19 5)) (.ofNat 3 (bits w 14 3)) t)
  else none

/-- A-class major 0x2C: VIOTA. -/
noncomputable def decA2C (w : Nat) : Option Instr :=
  if bits w 4 2 = 0 ∧ bits w 9 10 = 0 ∧ bits w 31 1 = 0 then (Ty.ofCode (bits w 0 4)).bind fun t => some (.viota (.ofNat 5 (bits w 19 5)) (.ofNat 3 (bits w 6 3)) t)
  else none

/-- A-class major 0x38: VADD_F64, VSUB_F64, VMUL_F64, VDIV_F64. -/
noncomputable def decA38 (w : Nat) : Option Instr :=
  if bits w 0 6 = 11 ∧ bits w 31 1 = 0 then some (.vaddF64 (.ofNat 5 (bits w 19 5)) (.ofNat 5 (bits w 14 5)) (.ofNat 5 (bits w 9 5)) (.ofNat 3 (bits w 6 3)))
  else if bits w 0 6 = 27 ∧ bits w 31 1 = 0 then some (.vsubF64 (.ofNat 5 (bits w 19 5)) (.ofNat 5 (bits w 14 5)) (.ofNat 5 (bits w 9 5)) (.ofNat 3 (bits w 6 3)))
  else if bits w 0 6 = 43 ∧ bits w 31 1 = 0 then some (.vmulF64 (.ofNat 5 (bits w 19 5)) (.ofNat 5 (bits w 14 5)) (.ofNat 5 (bits w 9 5)) (.ofNat 3 (bits w 6 3)))
  else if bits w 0 6 = 59 ∧ bits w 31 1 = 0 then some (.vdivF64 (.ofNat 5 (bits w 19 5)) (.ofNat 5 (bits w 14 5)) (.ofNat 5 (bits w 9 5)) (.ofNat 3 (bits w 6 3)))
  else none

/-- A-class major 0x39: VFMA_F64, VFMS_F64, VFNMA_F64, VFNMS_F64. -/
noncomputable def decA39 (w : Nat) : Option Instr :=
  if bits w 0 6 = 11 ∧ bits w 31 1 = 0 then some (.vfmaF64 (.ofNat 5 (bits w 19 5)) (.ofNat 5 (bits w 14 5)) (.ofNat 5 (bits w 9 5)) (.ofNat 3 (bits w 6 3)))
  else if bits w 0 6 = 27 ∧ bits w 31 1 = 0 then some (.vfmsF64 (.ofNat 5 (bits w 19 5)) (.ofNat 5 (bits w 14 5)) (.ofNat 5 (bits w 9 5)) (.ofNat 3 (bits w 6 3)))
  else if bits w 0 6 = 43 ∧ bits w 31 1 = 0 then some (.vfnmaF64 (.ofNat 5 (bits w 19 5)) (.ofNat 5 (bits w 14 5)) (.ofNat 5 (bits w 9 5)) (.ofNat 3 (bits w 6 3)))
  else if bits w 0 6 = 59 ∧ bits w 31 1 = 0 then some (.vfnmsF64 (.ofNat 5 (bits w 19 5)) (.ofNat 5 (bits w 14 5)) (.ofNat 5 (bits w 9 5)) (.ofNat 3 (bits w 6 3)))
  else none

/-- A-class major 0x3A: VMIN_F64, VMAX_F64, VSQRT_F64, VRSUM_F64. -/
noncomputable def decA3A (w : Nat) : Option Instr :=
  if bits w 0 6 = 11 ∧ bits w 31 1 = 0 then some (.vminF64 (.ofNat 5 (bits w 19 5)) (.ofNat 5 (bits w 14 5)) (.ofNat 5 (bits w 9 5)) (.ofNat 3 (bits w 6 3)))
  else if bits w 0 6 = 27 ∧ bits w 31 1 = 0 then some (.vmaxF64 (.ofNat 5 (bits w 19 5)) (.ofNat 5 (bits w 14 5)) (.ofNat 5 (bits w 9 5)) (.ofNat 3 (bits w 6 3)))
  else if bits w 0 6 = 43 ∧ bits w 9 5 = 0 ∧ bits w 31 1 = 0 then some (.vsqrtF64 (.ofNat 5 (bits w 19 5)) (.ofNat 5 (bits w 14 5)) (.ofNat 3 (bits w 6 3)))
  else if bits w 0 6 = 59 ∧ bits w 9 5 = 0 ∧ bits w 31 1 = 0 then some (.vrsumF64 (.ofNat 5 (bits w 19 5)) (.ofNat 5 (bits w 14 5)) (.ofNat 3 (bits w 6 3)))
  else none

/-- A-class major 0x3B: VCVT_F64. -/
noncomputable def decA3B (w : Nat) : Option Instr :=
  if bits w 31 1 = 0 then (Ty.ofCode (bits w 10 4)).bind fun t => (Ty.ofCode (bits w 0 4)).bind fun u => some (.vcvtF64 (.ofNat 5 (bits w 19 5)) (.ofNat 5 (bits w 14 5)) t (.ofNat 2 (bits w 8 2)) (flag w 7) (flag w 6) (.ofNat 2 (bits w 4 2)) u)
  else none

/-- The instruction a word's bits name by the opcode map (R294, R295), before the operand rules. -/
noncomputable def decodeRaw (w : Nat) : Option Instr :=
  match bits w 24 7 with
  | 1 => decC01 w
  | 2 => decC02 w
  | 3 => decC03 w
  | 4 => decC04 w
  | 5 => decC05 w
  | 6 => decC06 w
  | 7 => decC07 w
  | 8 => decC08 w
  | 9 => decC09 w
  | 10 => decC0A w
  | 11 => decC0B w
  | 14 => decC0E w
  | 12 => decC0C w
  | 13 => decC0D w
  | 16 => decC10 w
  | 17 => decC11 w
  | 18 => decC12 w
  | 19 => decC13 w
  | 20 => decC14 w
  | 21 => decC15 w
  | 22 => decC16 w
  | 23 => decC17 w
  | 24 => decC18 w
  | 25 => decC19 w
  | 26 => decC1A w
  | 27 => decC1B w
  | 28 => decC1C w
  | 29 => decC1D w
  | 30 => decC1E w
  | 31 => decC1F w
  | 32 => decC20 w
  | 33 => decC21 w
  | 34 => decC22 w
  | 35 => decC23 w
  | 36 => decC24 w
  | 37 => decC25 w
  | 44 => decC2C w
  | 45 => decC2D w
  | 46 => decC2E w
  | 47 => decC2F w
  | 48 => decC30 w
  | 49 => decC31 w
  | 50 => decC32 w
  | 64 => decA00 w
  | 65 => decA01 w
  | 66 => decA02 w
  | 67 => decA03 w
  | 68 => decA04 w
  | 69 => decA05 w
  | 70 => decA06 w
  | 71 => decA07 w
  | 72 => decA08 w
  | 73 => decA09 w
  | 74 => decA0A w
  | 75 => decA0B w
  | 80 => decA10 w
  | 81 => decA11 w
  | 82 => decA12 w
  | 83 => decA13 w
  | 84 => decA14 w
  | 85 => decA15 w
  | 86 => decA16 w
  | 87 => decA17 w
  | 88 => decA18 w
  | 89 => decA19 w
  | 90 => decA1A w
  | 91 => decA1B w
  | 92 => decA1C w
  | 93 => decA1D w
  | 94 => decA1E w
  | 95 => decA1F w
  | 96 => decA20 w
  | 97 => decA21 w
  | 98 => decA22 w
  | 99 => decA23 w
  | 100 => decA24 w
  | 101 => decA25 w
  | 102 => decA26 w
  | 103 => decA27 w
  | 104 => decA28 w
  | 105 => decA29 w
  | 106 => decA2A w
  | 107 => decA2B w
  | 108 => decA2C w
  | 120 => decA38 w
  | 121 => decA39 w
  | 122 => decA3A w
  | 123 => decA3B w
  | _ => none

/-- The instruction a 32-bit word names; `none` where the word raises ILLEGAL_OP (R288). -/
noncomputable def decodeWord (w : Nat) : Option Instr := (decodeRaw w).filter Instr.wf

/-- R5: the bytes at rising addresses, least significant first. -/
def leNat : List Byte → Nat
  | [] => 0
  | b :: bs => b.toNat + 256 * leNat bs

/-- R5: `n` bytes of a number, least significant first. -/
def leBytes : Nat → Nat → List Byte
  | 0, _ => []
  | n + 1, w => BitVec.ofNat 8 w :: leBytes n (w / 256)

/-- Decoding from memory: the instruction of the first four bytes and the bytes that follow. -/
noncomputable def decodeBytes : List Byte → Option (Instr × List Byte)
  | b0 :: b1 :: b2 :: b3 :: rest => (decodeWord (leNat [b0, b1, b2, b3])).map fun i => (i, rest)
  | _ => none

/-- The instruction the decoder reads where the word `w` of the opcode table stands: every row of the table that has
bits has 32 of them. -/
noncomputable def decodeTableWord (nbits w : Nat) : Option Instr :=
  if nbits ≤ 32 then (decodeBytes (leBytes 4 (w % 2 ^ nbits))).map Prod.fst else none

/-- The bit of a flag. -/
def bitOf (b : Bool) : Nat := if b then 1 else 0

/-- A word built from its fixed bits and its fields, each with the position of its lowest bit. -/
def pack (base : Nat) : List (Nat × Nat) → Nat
  | [] => base
  | (v, lo) :: fs => pack (base + v * 2 ^ lo) fs

/-- The word of an instruction, from the formats of R289 and R290; the device's steps have no word. -/
def encode : Instr → Option Nat
  | .beq p a b o => some (pack 0x01000000 [(bitOf p, 31), (a.toNat, 19), (b.toNat, 14), (o.toNat, 0)])
  | .bne p a b o => some (pack 0x01000800 [(bitOf p, 31), (a.toNat, 19), (b.toNat, 14), (o.toNat, 0)])
  | .blt p a b o => some (pack 0x01001000 [(bitOf p, 31), (a.toNat, 19), (b.toNat, 14), (o.toNat, 0)])
  | .bge p a b o => some (pack 0x01001800 [(bitOf p, 31), (a.toNat, 19), (b.toNat, 14), (o.toNat, 0)])
  | .bltu p a b o => some (pack 0x01002000 [(bitOf p, 31), (a.toNat, 19), (b.toNat, 14), (o.toNat, 0)])
  | .bgeu p a b o => some (pack 0x01002800 [(bitOf p, 31), (a.toNat, 19), (b.toNat, 14), (o.toNat, 0)])
  | .bdec p a n o => some (pack 0x02000000 [(bitOf p, 31), (a.toNat, 19), (n.toNat, 11), (o.toNat, 0)])
  | .btagf p a o => some (pack 0x03000000 [(bitOf p, 31), (a.toNat, 19), (o.toNat, 0)])
  | .btage p a o => some (pack 0x03000800 [(bitOf p, 31), (a.toNat, 19), (o.toNat, 0)])
  | .bany p a o => some (pack 0x04000000 [(bitOf p, 31), (a.toNat, 19), (o.toNat, 0)])
  | .bnone p a o => some (pack 0x04000800 [(bitOf p, 31), (a.toNat, 19), (o.toNat, 0)])
  | .ball p a o => some (pack 0x04001000 [(bitOf p, 31), (a.toNat, 19), (o.toNat, 0)])
  | .bnall p a o => some (pack 0x04001800 [(bitOf p, 31), (a.toNat, 19), (o.toNat, 0)])
  | .jmp p o => some (pack 0x05000000 [(bitOf p, 31), (o.toNat, 0)])
  | .call p o => some (pack 0x06000000 [(bitOf p, 31), (o.toNat, 0)])
  | .jr p a => some (pack 0x07000000 [(bitOf p, 31), (a.toNat, 14)])
  | .callr p a => some (pack 0x07000001 [(bitOf p, 31), (a.toNat, 14)])
  | .ret p => some (pack 0x07000002 [(bitOf p, 31)])
  | .yield p => some (pack 0x07000003 [(bitOf p, 31)])
  | .hbeat p => some (pack 0x07000004 [(bitOf p, 31)])
  | .cnop p => some (pack 0x07000005 [(bitOf p, 31)])
  | .sendw p a b => some (pack 0x08000000 [(bitOf p, 31), (a.toNat, 14), (b.toNat, 9)])
  | .sendv p a b => some (pack 0x08000010 [(bitOf p, 31), (a.toNat, 14), (b.toNat, 9)])
  | .sendc p a b => some (pack 0x08000020 [(bitOf p, 31), (a.toNat, 14), (b.toNat, 9)])
  | .recvw p d l => some (pack 0x08000030 [(bitOf p, 31), (d.toNat, 19), (l.toNat, 0)])
  | .recvv p d l => some (pack 0x08000040 [(bitOf p, 31), (d.toNat, 19), (l.toNat, 0)])
  | .ptest p d k => some (pack 0x08000050 [(bitOf p, 31), (d.toNat, 19), (k.toNat, 14)])
  | .waitw => some (pack 0x08000060 [])
  | .srr p d s => some (pack 0x09000000 [(bitOf p, 31), (d.toNat, 19), (s.toNat, 0)])
  | .srw p a s => some (pack 0x09001000 [(bitOf p, 31), (a.toNat, 14), (s.toNat, 0)])
  | .srset p d a s => some (pack 0x09002000 [(bitOf p, 31), (d.toNat, 19), (a.toNat, 14), (s.toNat, 0)])
  | .srclr p d a s => some (pack 0x09003000 [(bitOf p, 31), (d.toNat, 19), (a.toNat, 14), (s.toNat, 0)])
  | .eret => some (pack 0x0A000000 [])
  | .icinv p => some (pack 0x0A000001 [(bitOf p, 31)])
  | .sighost p a => some (pack 0x0A000002 [(bitOf p, 31), (a.toNat, 14)])
  | .trap i => some (pack 0x0B000000 [(i.toNat, 0)])
  | .ppt i => some (pack 0x0E000000 [(i.toNat, 0)])
  | .dsread p d a l => some (pack 0x0C000000 [(bitOf p, 31), (d.toNat, 19), (a.toNat, 14), (l.toNat, 0)])
  | .dsprobe p d a b l => some (pack 0x0C000010 [(bitOf p, 31), (d.toNat, 19), (a.toNat, 14), (b.toNat, 9), (l.toNat, 0)])
  | .dsdone p a => some (pack 0x0C000020 [(bitOf p, 31), (a.toNat, 14)])
  | .dsclr p a => some (pack 0x0C000030 [(bitOf p, 31), (a.toNat, 14)])
  | .dsbcast p a => some (pack 0x0C000040 [(bitOf p, 31), (a.toNat, 14)])
  | .dsstab p a => some (pack 0x0C000050 [(bitOf p, 31), (a.toNat, 14)])
  | .dsrel p a => some (pack 0x0C000060 [(bitOf p, 31), (a.toNat, 14)])
  | .dspoll p d l => some (pack 0x0C000070 [(bitOf p, 31), (d.toNat, 19), (l.toNat, 0)])
  | .spltake p d a l => some (pack 0x0D000000 [(bitOf p, 31), (d.toNat, 19), (a.toNat, 14), (l.toNat, 0)])
  | .lbsend p a => some (pack 0x0D000010 [(bitOf p, 31), (a.toNat, 14)])
  | .splend p => some (pack 0x0D000020 [(bitOf p, 31)])
  | .ldBu p d a i l => some (pack 0x10000000 [(bitOf p, 31), (d.toNat, 19), (a.toNat, 14), (i.toNat, 4), (l.toNat, 0)])
  | .ldHu p d a i l => some (pack 0x10000800 [(bitOf p, 31), (d.toNat, 19), (a.toNat, 14), (i.toNat, 4), (l.toNat, 0)])
  | .ldWu p d a i l => some (pack 0x10001000 [(bitOf p, 31), (d.toNat, 19), (a.toNat, 14), (i.toNat, 4), (l.toNat, 0)])
  | .ldD p d a i l => some (pack 0x10001800 [(bitOf p, 31), (d.toNat, 19), (a.toNat, 14), (i.toNat, 4), (l.toNat, 0)])
  | .ldB p d a i l => some (pack 0x10002000 [(bitOf p, 31), (d.toNat, 19), (a.toNat, 14), (i.toNat, 4), (l.toNat, 0)])
  | .ldH p d a i l => some (pack 0x10002800 [(bitOf p, 31), (d.toNat, 19), (a.toNat, 14), (i.toNat, 4), (l.toNat, 0)])
  | .ldW p d a i l => some (pack 0x10003000 [(bitOf p, 31), (d.toNat, 19), (a.toNat, 14), (i.toNat, 4), (l.toNat, 0)])
  | .stB p d a i => some (pack 0x11000000 [(bitOf p, 31), (d.toNat, 19), (a.toNat, 14), (i.toNat, 4)])
  | .stH p d a i => some (pack 0x11000800 [(bitOf p, 31), (d.toNat, 19), (a.toNat, 14), (i.toNat, 4)])
  | .stW p d a i => some (pack 0x11001000 [(bitOf p, 31), (d.toNat, 19), (a.toNat, 14), (i.toNat, 4)])
  | .stD p d a i => some (pack 0x11001800 [(bitOf p, 31), (d.toNat, 19), (a.toNat, 14), (i.toNat, 4)])
  | .ldxBu p d a b l => some (pack 0x12000000 [(bitOf p, 31), (d.toNat, 19), (a.toNat, 14), (b.toNat, 9), (l.toNat, 0)])
  | .ldxHu p d a b l => some (pack 0x12000010 [(bitOf p, 31), (d.toNat, 19), (a.toNat, 14), (b.toNat, 9), (l.toNat, 0)])
  | .ldxWu p d a b l => some (pack 0x12000020 [(bitOf p, 31), (d.toNat, 19), (a.toNat, 14), (b.toNat, 9), (l.toNat, 0)])
  | .ldxD p d a b l => some (pack 0x12000030 [(bitOf p, 31), (d.toNat, 19), (a.toNat, 14), (b.toNat, 9), (l.toNat, 0)])
  | .ldxB p d a b l => some (pack 0x12000040 [(bitOf p, 31), (d.toNat, 19), (a.toNat, 14), (b.toNat, 9), (l.toNat, 0)])
  | .ldxH p d a b l => some (pack 0x12000050 [(bitOf p, 31), (d.toNat, 19), (a.toNat, 14), (b.toNat, 9), (l.toNat, 0)])
  | .ldxW p d a b l => some (pack 0x12000060 [(bitOf p, 31), (d.toNat, 19), (a.toNat, 14), (b.toNat, 9), (l.toNat, 0)])
  | .stxB p d a b => some (pack 0x12000080 [(bitOf p, 31), (d.toNat, 19), (a.toNat, 14), (b.toNat, 9)])
  | .stxH p d a b => some (pack 0x12000090 [(bitOf p, 31), (d.toNat, 19), (a.toNat, 14), (b.toNat, 9)])
  | .stxW p d a b => some (pack 0x120000A0 [(bitOf p, 31), (d.toNat, 19), (a.toNat, 14), (b.toNat, 9)])
  | .stxD p d a b => some (pack 0x120000B0 [(bitOf p, 31), (d.toNat, 19), (a.toNat, 14), (b.toNat, 9)])
  | .vld p d a i l => some (pack 0x13000000 [(bitOf p, 31), (d.toNat, 19), (a.toNat, 14), (i.toNat, 4), (l.toNat, 0)])
  | .vst p d a i => some (pack 0x13000800 [(bitOf p, 31), (d.toNat, 19), (a.toNat, 14), (i.toNat, 4)])
  | .vgath p d a b m e l => some (pack 0x14000000 [(bitOf p, 31), (d.toNat, 19), (a.toNat, 14), (b.toNat, 9), (m.toNat, 6), (e.toNat, 4), (l.toNat, 0)])
  | .vscat p d a b m e => some (pack 0x15000000 [(bitOf p, 31), (d.toNat, 19), (a.toNat, 14), (b.toNat, 9), (m.toNat, 6), (e.toNat, 4)])
  | .vldm p d a m e l => some (pack 0x16000000 [(bitOf p, 31), (d.toNat, 19), (a.toNat, 14), (m.toNat, 6), (e.toNat, 4), (l.toNat, 0)])
  | .vstm p d a m e => some (pack 0x17000000 [(bitOf p, 31), (d.toNat, 19), (a.toNat, 14), (m.toNat, 6), (e.toNat, 4)])
  | .ldfe p d a l => some (pack 0x18000000 [(bitOf p, 31), (d.toNat, 19), (a.toNat, 14), (l.toNat, 0)])
  | .ldff p d a l => some (pack 0x18000010 [(bitOf p, 31), (d.toNat, 19), (a.toNat, 14), (l.toNat, 0)])
  | .stfe p d a => some (pack 0x18000020 [(bitOf p, 31), (d.toNat, 19), (a.toNat, 14)])
  | .stff p d a => some (pack 0x18000030 [(bitOf p, 31), (d.toNat, 19), (a.toNat, 14)])
  | .amoadd p d a s z l => some (pack 0x19000000 [(bitOf p, 31), (d.toNat, 19), (a.toNat, 14), (s.code, 11), (bitOf z, 6), (l.toNat, 0)])
  | .amoand p d a s z l => some (pack 0x19000080 [(bitOf p, 31), (d.toNat, 19), (a.toNat, 14), (s.code, 11), (bitOf z, 6), (l.toNat, 0)])
  | .amoor p d a s z l => some (pack 0x19000100 [(bitOf p, 31), (d.toNat, 19), (a.toNat, 14), (s.code, 11), (bitOf z, 6), (l.toNat, 0)])
  | .amoxor p d a s z l => some (pack 0x19000180 [(bitOf p, 31), (d.toNat, 19), (a.toNat, 14), (s.code, 11), (bitOf z, 6), (l.toNat, 0)])
  | .amosmax p d a s z l => some (pack 0x19000200 [(bitOf p, 31), (d.toNat, 19), (a.toNat, 14), (s.code, 11), (bitOf z, 6), (l.toNat, 0)])
  | .amosmin p d a s z l => some (pack 0x19000280 [(bitOf p, 31), (d.toNat, 19), (a.toNat, 14), (s.code, 11), (bitOf z, 6), (l.toNat, 0)])
  | .amoumax p d a s z l => some (pack 0x19000300 [(bitOf p, 31), (d.toNat, 19), (a.toNat, 14), (s.code, 11), (bitOf z, 6), (l.toNat, 0)])
  | .amoumin p d a s z l => some (pack 0x19000380 [(bitOf p, 31), (d.toNat, 19), (a.toNat, 14), (s.code, 11), (bitOf z, 6), (l.toNat, 0)])
  | .amoswap p d a s z l => some (pack 0x19000400 [(bitOf p, 31), (d.toNat, 19), (a.toNat, 14), (s.code, 11), (bitOf z, 6), (l.toNat, 0)])
  | .amocas p d a s z l => some (pack 0x19000480 [(bitOf p, 31), (d.toNat, 20), (a.toNat, 14), (s.code, 11), (bitOf z, 6), (l.toNat, 0)])
  | .ldlkW p d a l => some (pack 0x1A000000 [(bitOf p, 31), (d.toNat, 19), (a.toNat, 14), (l.toNat, 0)])
  | .ldlkD p d a l => some (pack 0x1A000010 [(bitOf p, 31), (d.toNat, 19), (a.toNat, 14), (l.toNat, 0)])
  | .stckW p d a b l => some (pack 0x1A000020 [(bitOf p, 31), (d.toNat, 19), (a.toNat, 14), (b.toNat, 9), (l.toNat, 0)])
  | .stckD p d a b l => some (pack 0x1A000030 [(bitOf p, 31), (d.toNat, 19), (a.toNat, 14), (b.toNat, 9), (l.toNat, 0)])
  | .ldacq p d a k s l => some (pack 0x1B000000 [(bitOf p, 31), (d.toNat, 19), (a.toNat, 14), (k.toNat, 12), (s.code, 6), (l.toNat, 0)])
  | .strel p d a k s => some (pack 0x1C000000 [(bitOf p, 31), (d.toNat, 19), (a.toNat, 14), (k.toNat, 12), (s.code, 6)])
  | .fence p k s => some (pack 0x1D000000 [(bitOf p, 31), (k.code, 12), (s.code, 6)])
  | .waita p d a b l => some (pack 0x1E000000 [(bitOf p, 31), (d.toNat, 19), (a.toNat, 14), (b.toNat, 9), (l.toNat, 0)])
  | .barinit p a b => some (pack 0x1F000000 [(bitOf p, 31), (a.toNat, 14), (b.toNat, 9)])
  | .barexpect p a b => some (pack 0x1F000010 [(bitOf p, 31), (a.toNat, 14), (b.toNat, 9)])
  | .bararrive p a b => some (pack 0x1F000020 [(bitOf p, 31), (a.toNat, 14), (b.toNat, 9)])
  | .waitbar p a b => some (pack 0x1F000030 [(bitOf p, 31), (a.toNat, 14), (b.toNat, 9)])
  | .barread p d a l => some (pack 0x1F000040 [(bitOf p, 31), (d.toNat, 19), (a.toNat, 14), (l.toNat, 0)])
  | .cpyb p d a b => some (pack 0x20000000 [(bitOf p, 31), (d.toNat, 19), (a.toNat, 14), (b.toNat, 9)])
  | .cpyt p a => some (pack 0x20000010 [(bitOf p, 31), (a.toNat, 14)])
  | .cpyth p a b => some (pack 0x20000020 [(bitOf p, 31), (a.toNat, 14), (b.toNat, 9)])
  | .mlong p a => some (pack 0x21000000 [(bitOf p, 31), (a.toNat, 14)])
  | .mlongh p a b => some (pack 0x21000010 [(bitOf p, 31), (a.toNat, 14), (b.toNat, 9)])
  | .bmvj p a => some (pack 0x21000020 [(bitOf p, 31), (a.toNat, 14)])
  | .bmvjh p a b => some (pack 0x21000030 [(bitOf p, 31), (a.toNat, 14), (b.toNat, 9)])
  | .fbind p k a => some (pack 0x22C00000 [(bitOf p, 31), (k.toNat, 19), (a.toNat, 14)])
  | .funbind p k => some (pack 0x22C00001 [(bitOf p, 31), (k.toNat, 19)])
  | .sbpulse p a => some (pack 0x23000000 [(bitOf p, 31), (a.toNat, 14)])
  | .sbclr p a => some (pack 0x23000001 [(bitOf p, 31), (a.toNat, 14)])
  | .capsend p a l => some (pack 0x24000000 [(bitOf p, 31), (a.toNat, 14), (l.toNat, 0)])
  | .capret p a => some (pack 0x24000010 [(bitOf p, 31), (a.toNat, 14)])
  | .capdrop p a => some (pack 0x24000020 [(bitOf p, 31), (a.toNat, 14)])
  | .capdead p a b => some (pack 0x24000030 [(bitOf p, 31), (a.toNat, 14), (b.toNat, 9)])
  | .cappop p d a => some (pack 0x25000000 [(bitOf p, 31), (d.toNat, 19), (a.toNat, 14)])
  | .cappush p a b => some (pack 0x25000001 [(bitOf p, 31), (a.toNat, 14), (b.toNat, 9)])
  | .capset p a b c => some (pack 0x25000002 [(bitOf p, 31), (a.toNat, 14), (b.toNat, 9), (c.toNat, 4)])
  | .capget p d a c => some (pack 0x25000003 [(bitOf p, 31), (d.toNat, 19), (a.toNat, 14), (c.toNat, 4)])
  | .capskip p a b => some (pack 0x25000004 [(bitOf p, 31), (a.toNat, 14), (b.toNat, 9)])
  | .mma p z a b e l => some (pack 0x2C000000 [(bitOf p, 31), (z.toNat, 20), (a.toNat, 14), (b.toNat, 9), (e.toNat, 4), (l.toNat, 0)])
  | .mmaz p z a b e l => some (pack 0x2D000000 [(bitOf p, 31), (z.toNat, 20), (a.toNat, 14), (b.toNat, 9), (e.toNat, 4), (l.toNat, 0)])
  | .zrd p v a z t l => some (pack 0x2E000000 [(bitOf p, 31), (v.toNat, 19), (a.toNat, 14), (z.toNat, 10), (t.code, 4), (l.toNat, 0)])
  | .zwr p v a z t l => some (pack 0x2E000100 [(bitOf p, 31), (v.toNat, 19), (a.toNat, 14), (z.toNat, 10), (t.code, 4), (l.toNat, 0)])
  | .mclr p z l => some (pack 0x2E000200 [(bitOf p, 31), (z.toNat, 10), (l.toNat, 0)])
  | .medge p d a b c => some (pack 0x2F000000 [(bitOf p, 31), (d.toNat, 19), (a.toNat, 14), (b.toNat, 9), (c.toNat, 4)])
  | .mlu p z v g l => some (pack 0x30000000 [(bitOf p, 31), (z.toNat, 20), (v.toNat, 15), (g.toNat, 10), (l.toNat, 0)])
  | .mchol p z l => some (pack 0x30000010 [(bitOf p, 31), (z.toNat, 20), (l.toNat, 0)])
  | .mqr p z v l => some (pack 0x30000020 [(bitOf p, 31), (z.toNat, 20), (v.toNat, 16), (l.toNat, 0)])
  | .mtrsm p z y s u n l => some (pack 0x31000000 [(bitOf p, 31), (z.toNat, 20), (y.toNat, 16), (bitOf s, 15), (bitOf u, 14), (bitOf n, 13), (l.toNat, 0)])
  | .mfmt p a => some (pack 0x32000000 [(bitOf p, 31), (a.toNat, 14)])
  | .mctld p a => some (pack 0x32000001 [(bitOf p, 31), (a.toNat, 14)])
  | .mctset p a b => some (pack 0x32000002 [(bitOf p, 31), (a.toNat, 14), (b.toNat, 9)])
  | .add d a b => some (pack 0x40000000 [(d.toNat, 19), (a.toNat, 14), (b.toNat, 9)])
  | .sub d a b => some (pack 0x40000001 [(d.toNat, 19), (a.toNat, 14), (b.toNat, 9)])
  | .and d a b => some (pack 0x40000002 [(d.toNat, 19), (a.toNat, 14), (b.toNat, 9)])
  | .or d a b => some (pack 0x40000003 [(d.toNat, 19), (a.toNat, 14), (b.toNat, 9)])
  | .xor d a b => some (pack 0x40000004 [(d.toNat, 19), (a.toNat, 14), (b.toNat, 9)])
  | .andn d a b => some (pack 0x40000005 [(d.toNat, 19), (a.toNat, 14), (b.toNat, 9)])
  | .sll d a b => some (pack 0x40000006 [(d.toNat, 19), (a.toNat, 14), (b.toNat, 9)])
  | .srl d a b => some (pack 0x40000007 [(d.toNat, 19), (a.toNat, 14), (b.toNat, 9)])
  | .sra d a b => some (pack 0x40000008 [(d.toNat, 19), (a.toNat, 14), (b.toNat, 9)])
  | .rol d a b => some (pack 0x40000009 [(d.toNat, 19), (a.toNat, 14), (b.toNat, 9)])
  | .ror d a b => some (pack 0x4000000A [(d.toNat, 19), (a.toNat, 14), (b.toNat, 9)])
  | .slt d a b => some (pack 0x4000000B [(d.toNat, 19), (a.toNat, 14), (b.toNat, 9)])
  | .sltu d a b => some (pack 0x4000000C [(d.toNat, 19), (a.toNat, 14), (b.toNat, 9)])
  | .seq d a b => some (pack 0x4000000D [(d.toNat, 19), (a.toNat, 14), (b.toNat, 9)])
  | .min d a b => some (pack 0x41000000 [(d.toNat, 19), (a.toNat, 14), (b.toNat, 9)])
  | .max d a b => some (pack 0x41000001 [(d.toNat, 19), (a.toNat, 14), (b.toNat, 9)])
  | .minu d a b => some (pack 0x41000002 [(d.toNat, 19), (a.toNat, 14), (b.toNat, 9)])
  | .maxu d a b => some (pack 0x41000003 [(d.toNat, 19), (a.toNat, 14), (b.toNat, 9)])
  | .mul d a b => some (pack 0x41000004 [(d.toNat, 19), (a.toNat, 14), (b.toNat, 9)])
  | .mulh d a b => some (pack 0x41000005 [(d.toNat, 19), (a.toNat, 14), (b.toNat, 9)])
  | .mulhu d a b => some (pack 0x41000006 [(d.toNat, 19), (a.toNat, 14), (b.toNat, 9)])
  | .div d a b => some (pack 0x41000007 [(d.toNat, 19), (a.toNat, 14), (b.toNat, 9)])
  | .divu d a b => some (pack 0x41000008 [(d.toNat, 19), (a.toNat, 14), (b.toNat, 9)])
  | .rem d a b => some (pack 0x41000009 [(d.toNat, 19), (a.toNat, 14), (b.toNat, 9)])
  | .remu d a b => some (pack 0x4100000A [(d.toNat, 19), (a.toNat, 14), (b.toNat, 9)])
  | .add32 d a b => some (pack 0x4100000B [(d.toNat, 19), (a.toNat, 14), (b.toNat, 9)])
  | .sub32 d a b => some (pack 0x4100000C [(d.toNat, 19), (a.toNat, 14), (b.toNat, 9)])
  | .mul32 d a b => some (pack 0x4100000D [(d.toNat, 19), (a.toNat, 14), (b.toNat, 9)])
  | .madd d a b c => some (pack 0x42000000 [(d.toNat, 19), (a.toNat, 14), (b.toNat, 9), (c.toNat, 4)])
  | .msub d a b c => some (pack 0x42000001 [(d.toNat, 19), (a.toNat, 14), (b.toNat, 9), (c.toNat, 4)])
  | .csel d a b c => some (pack 0x42000002 [(d.toNat, 19), (a.toNat, 14), (b.toNat, 9), (c.toNat, 4)])
  | .clz d a => some (pack 0x42000003 [(d.toNat, 19), (a.toNat, 14)])
  | .ctz d a => some (pack 0x42000004 [(d.toNat, 19), (a.toNat, 14)])
  | .popc d a => some (pack 0x42000005 [(d.toNat, 19), (a.toNat, 14)])
  | .bswap d a => some (pack 0x42000006 [(d.toNat, 19), (a.toNat, 14)])
  | .sextB d a => some (pack 0x42000007 [(d.toNat, 19), (a.toNat, 14)])
  | .sextH d a => some (pack 0x42000008 [(d.toNat, 19), (a.toNat, 14)])
  | .sextW d a => some (pack 0x42000009 [(d.toNat, 19), (a.toNat, 14)])
  | .zextW d a => some (pack 0x4200000A [(d.toNat, 19), (a.toNat, 14)])
  | .addi d a i => some (pack 0x43000000 [(d.toNat, 19), (a.toNat, 14), (i.toNat, 0)])
  | .andi d a i => some (pack 0x44000000 [(d.toNat, 19), (a.toNat, 14), (i.toNat, 0)])
  | .ori d a i => some (pack 0x45000000 [(d.toNat, 19), (a.toNat, 14), (i.toNat, 0)])
  | .xori d a i => some (pack 0x46000000 [(d.toNat, 19), (a.toNat, 14), (i.toNat, 0)])
  | .slli d a n => some (pack 0x47000000 [(d.toNat, 19), (a.toNat, 14), (n.toNat, 0)])
  | .srli d a n => some (pack 0x47001000 [(d.toNat, 19), (a.toNat, 14), (n.toNat, 0)])
  | .srai d a n => some (pack 0x47002000 [(d.toNat, 19), (a.toNat, 14), (n.toNat, 0)])
  | .rori d a n => some (pack 0x47003000 [(d.toNat, 19), (a.toNat, 14), (n.toNat, 0)])
  | .slti d a i => some (pack 0x48000000 [(d.toNat, 19), (a.toNat, 14), (i.toNat, 0)])
  | .sltiu d a i => some (pack 0x49000000 [(d.toNat, 19), (a.toNat, 14), (i.toNat, 0)])
  | .movhi d i => some (pack 0x4A000000 [(d.toNat, 19), (i.toNat, 0)])
  | .insh d i => some (pack 0x4B000000 [(d.toNat, 19), (i.toNat, 0)])
  | .fadd d a b => some (pack 0x50000000 [(d.toNat, 19), (a.toNat, 14), (b.toNat, 9)])
  | .fsub d a b => some (pack 0x50000001 [(d.toNat, 19), (a.toNat, 14), (b.toNat, 9)])
  | .fmul d a b => some (pack 0x50000002 [(d.toNat, 19), (a.toNat, 14), (b.toNat, 9)])
  | .fdiv d a b => some (pack 0x50000003 [(d.toNat, 19), (a.toNat, 14), (b.toNat, 9)])
  | .fsqrt d a => some (pack 0x50000004 [(d.toNat, 19), (a.toNat, 14)])
  | .fmin d a b => some (pack 0x50000005 [(d.toNat, 19), (a.toNat, 14), (b.toNat, 9)])
  | .fmax d a b => some (pack 0x50000006 [(d.toNat, 19), (a.toNat, 14), (b.toNat, 9)])
  | .fneg d a => some (pack 0x50000007 [(d.toNat, 19), (a.toNat, 14)])
  | .fabs d a => some (pack 0x50000008 [(d.toNat, 19), (a.toNat, 14)])
  | .fcpsgn d a b => some (pack 0x50000009 [(d.toNat, 19), (a.toNat, 14), (b.toNat, 9)])
  | .fcmeq d a b => some (pack 0x5000000A [(d.toNat, 19), (a.toNat, 14), (b.toNat, 9)])
  | .fcmlt d a b => some (pack 0x5000000B [(d.toNat, 19), (a.toNat, 14), (b.toNat, 9)])
  | .fcmle d a b => some (pack 0x5000000C [(d.toNat, 19), (a.toNat, 14), (b.toNat, 9)])
  | .ffma d a b c => some (pack 0x51000000 [(d.toNat, 19), (a.toNat, 14), (b.toNat, 9), (c.toNat, 4)])
  | .ffms d a b c => some (pack 0x51000001 [(d.toNat, 19), (a.toNat, 14), (b.toNat, 9), (c.toNat, 4)])
  | .ffnma d a b c => some (pack 0x51000002 [(d.toNat, 19), (a.toNat, 14), (b.toNat, 9), (c.toNat, 4)])
  | .ffnms d a b c => some (pack 0x51000003 [(d.toNat, 19), (a.toNat, 14), (b.toNat, 9), (c.toNat, 4)])
  | .fconv d a t r s u => some (pack 0x52000000 [(d.toNat, 19), (a.toNat, 14), (t.code, 10), (r.toNat, 8), (bitOf s, 7), (u.code, 0)])
  | .frint d a r => some (pack 0x5300280A [(d.toNat, 19), (a.toNat, 14), (r.toNat, 8)])
  | .vadd d a b m t => some (pack 0x54000000 [(d.toNat, 19), (a.toNat, 14), (b.toNat, 9), (m.toNat, 6), (t.code, 0)])
  | .vadds d a b m t => some (pack 0x54000010 [(d.toNat, 19), (a.toNat, 14), (b.toNat, 9), (m.toNat, 6), (t.code, 0)])
  | .vsub d a b m t => some (pack 0x55000000 [(d.toNat, 19), (a.toNat, 14), (b.toNat, 9), (m.toNat, 6), (t.code, 0)])
  | .vsubs d a b m t => some (pack 0x55000010 [(d.toNat, 19), (a.toNat, 14), (b.toNat, 9), (m.toNat, 6), (t.code, 0)])
  | .vmul d a b m t => some (pack 0x56000000 [(d.toNat, 19), (a.toNat, 14), (b.toNat, 9), (m.toNat, 6), (t.code, 0)])
  | .vmulh d a b m t => some (pack 0x56000010 [(d.toNat, 19), (a.toNat, 14), (b.toNat, 9), (m.toNat, 6), (t.code, 0)])
  | .vdiv d a b m t => some (pack 0x57000000 [(d.toNat, 19), (a.toNat, 14), (b.toNat, 9), (m.toNat, 6), (t.code, 0)])
  | .vmin d a b m t => some (pack 0x58000000 [(d.toNat, 19), (a.toNat, 14), (b.toNat, 9), (m.toNat, 6), (t.code, 0)])
  | .vmax d a b m t => some (pack 0x58000010 [(d.toNat, 19), (a.toNat, 14), (b.toNat, 9), (m.toNat, 6), (t.code, 0)])
  | .vfma d a b m t => some (pack 0x59000000 [(d.toNat, 19), (a.toNat, 14), (b.toNat, 9), (m.toNat, 6), (t.code, 0)])
  | .vfms d a b m t => some (pack 0x59000010 [(d.toNat, 19), (a.toNat, 14), (b.toNat, 9), (m.toNat, 6), (t.code, 0)])
  | .vfnma d a b m t => some (pack 0x59000020 [(d.toNat, 19), (a.toNat, 14), (b.toNat, 9), (m.toNat, 6), (t.code, 0)])
  | .vfnms d a b m t => some (pack 0x59000030 [(d.toNat, 19), (a.toNat, 14), (b.toNat, 9), (m.toNat, 6), (t.code, 0)])
  | .vand d a b m t => some (pack 0x5A000000 [(d.toNat, 19), (a.toNat, 14), (b.toNat, 9), (m.toNat, 6), (t.code, 0)])
  | .vor d a b m t => some (pack 0x5A000010 [(d.toNat, 19), (a.toNat, 14), (b.toNat, 9), (m.toNat, 6), (t.code, 0)])
  | .vxor d a b m t => some (pack 0x5A000020 [(d.toNat, 19), (a.toNat, 14), (b.toNat, 9), (m.toNat, 6), (t.code, 0)])
  | .vandn d a b m t => some (pack 0x5A000030 [(d.toNat, 19), (a.toNat, 14), (b.toNat, 9), (m.toNat, 6), (t.code, 0)])
  | .vshl d a b m t => some (pack 0x5B000000 [(d.toNat, 19), (a.toNat, 14), (b.toNat, 9), (m.toNat, 6), (t.code, 0)])
  | .vshr d a b m t => some (pack 0x5B000010 [(d.toNat, 19), (a.toNat, 14), (b.toNat, 9), (m.toNat, 6), (t.code, 0)])
  | .vsra d a b m t => some (pack 0x5B000020 [(d.toNat, 19), (a.toNat, 14), (b.toNat, 9), (m.toNat, 6), (t.code, 0)])
  | .vrol d a b m t => some (pack 0x5B000030 [(d.toNat, 19), (a.toNat, 14), (b.toNat, 9), (m.toNat, 6), (t.code, 0)])
  | .vcmpeq d a b m t => some (pack 0x5C000000 [(d.toNat, 19), (a.toNat, 14), (b.toNat, 9), (m.toNat, 6), (t.code, 0)])
  | .vcmpne d a b m t => some (pack 0x5C000010 [(d.toNat, 19), (a.toNat, 14), (b.toNat, 9), (m.toNat, 6), (t.code, 0)])
  | .vcmplt d a b m t => some (pack 0x5C000020 [(d.toNat, 19), (a.toNat, 14), (b.toNat, 9), (m.toNat, 6), (t.code, 0)])
  | .vcmple d a b m t => some (pack 0x5C000030 [(d.toNat, 19), (a.toNat, 14), (b.toNat, 9), (m.toNat, 6), (t.code, 0)])
  | .vsel d a b m t => some (pack 0x5D000000 [(d.toNat, 19), (a.toNat, 14), (b.toNat, 9), (m.toNat, 6), (t.code, 0)])
  | .vneg d a m t => some (pack 0x5E000000 [(d.toNat, 19), (a.toNat, 14), (m.toNat, 6), (t.code, 0)])
  | .vabs d a m t => some (pack 0x5E000010 [(d.toNat, 19), (a.toNat, 14), (m.toNat, 6), (t.code, 0)])
  | .vcpsgn d a b m t => some (pack 0x5E000020 [(d.toNat, 19), (a.toNat, 14), (b.toNat, 9), (m.toNat, 6), (t.code, 0)])
  | .vmov d a m t => some (pack 0x5E000030 [(d.toNat, 19), (a.toNat, 14), (m.toNat, 6), (t.code, 0)])
  | .vsqrt d a m t => some (pack 0x5F000000 [(d.toNat, 19), (a.toNat, 14), (m.toNat, 6), (t.code, 0)])
  | .vexp2 d a m t => some (pack 0x60000000 [(d.toNat, 19), (a.toNat, 14), (m.toNat, 6), (t.code, 0)])
  | .vlog2 d a m t => some (pack 0x60000010 [(d.toNat, 19), (a.toNat, 14), (m.toNat, 6), (t.code, 0)])
  | .vrcp d a m t => some (pack 0x60000020 [(d.toNat, 19), (a.toNat, 14), (m.toNat, 6), (t.code, 0)])
  | .vrsqrt d a m t => some (pack 0x60000030 [(d.toNat, 19), (a.toNat, 14), (m.toNat, 6), (t.code, 0)])
  | .vmix32 d a b m => some (pack 0x61000006 [(d.toNat, 19), (a.toNat, 14), (b.toNat, 9), (m.toNat, 6)])
  | .vmix32u d a b m => some (pack 0x6100001A [(d.toNat, 19), (a.toNat, 14), (b.toNat, 9), (m.toNat, 6)])
  | .vmix32r d a b m => some (pack 0x6100002A [(d.toNat, 20), (a.toNat, 14), (b.toNat, 9), (m.toNat, 6)])
  | .vrsum d a m t => some (pack 0x62000000 [(d.toNat, 19), (a.toNat, 14), (m.toNat, 6), (t.code, 0)])
  | .vrmax d a m t => some (pack 0x62000010 [(d.toNat, 19), (a.toNat, 14), (m.toNat, 6), (t.code, 0)])
  | .vrmin d a m t => some (pack 0x62000020 [(d.toNat, 19), (a.toNat, 14), (m.toNat, 6), (t.code, 0)])
  | .vscsum d a m t => some (pack 0x63000000 [(d.toNat, 19), (a.toNat, 14), (m.toNat, 6), (t.code, 0)])
  | .vscmax d a m t => some (pack 0x63000010 [(d.toNat, 19), (a.toNat, 14), (m.toNat, 6), (t.code, 0)])
  | .vscmin d a m t => some (pack 0x63000020 [(d.toNat, 19), (a.toNat, 14), (m.toNat, 6), (t.code, 0)])
  | .vperm d a b m t => some (pack 0x64000000 [(d.toNat, 19), (a.toNat, 14), (b.toNat, 9), (m.toNat, 6), (t.code, 0)])
  | .vcompr d a m t => some (pack 0x64000010 [(d.toNat, 19), (a.toNat, 14), (m.toNat, 6), (t.code, 0)])
  | .vbcast d a m t => some (pack 0x65000000 [(d.toNat, 19), (a.toNat, 14), (m.toNat, 6), (t.code, 0)])
  | .vsplat d a b m t => some (pack 0x65000010 [(d.toNat, 19), (a.toNat, 14), (b.toNat, 9), (m.toNat, 6), (t.code, 0)])
  | .vins d a b t => some (pack 0x66000000 [(d.toNat, 19), (a.toNat, 14), (b.toNat, 9), (t.code, 0)])
  | .vext d a b t => some (pack 0x66000010 [(d.toNat, 19), (a.toNat, 14), (b.toNat, 9), (t.code, 0)])
  | .vcvt d a t r s h m u => some (pack 0x67000000 [(d.toNat, 19), (a.toNat, 14), (t.code, 10), (r.toNat, 8), (bitOf s, 7), (bitOf h, 6), (m.toNat, 4), (u.code, 0)])
  | .vqblkSb8 d a r s => some (pack 0x6800140A [(d.toNat, 19), (a.toNat, 14), (r.toNat, 8), (bitOf s, 7)])
  | .vqblkSb4 d a r s => some (pack 0x6800180A [(d.toNat, 19), (a.toNat, 14), (r.toNat, 8), (bitOf s, 7)])
  | .vdqblkSb8 d a => some (pack 0x69002805 [(d.toNat, 19), (a.toNat, 14)])
  | .vdqblkSb4 d a => some (pack 0x69002806 [(d.toNat, 19), (a.toNat, 14)])
  | .mand d a b => some (pack 0x6A000000 [(d.toNat, 19), (a.toNat, 14), (b.toNat, 9)])
  | .mor d a b => some (pack 0x6A000010 [(d.toNat, 19), (a.toNat, 14), (b.toNat, 9)])
  | .mxor d a b => some (pack 0x6A000020 [(d.toNat, 19), (a.toNat, 14), (b.toNat, 9)])
  | .mandn d a b => some (pack 0x6A000030 [(d.toNat, 19), (a.toNat, 14), (b.toNat, 9)])
  | .mtog d a => some (pack 0x6B000000 [(d.toNat, 19), (a.toNat, 14)])
  | .gtom d a => some (pack 0x6B000010 [(d.toNat, 19), (a.toNat, 14)])
  | .mpopc d a t => some (pack 0x6B000020 [(d.toNat, 19), (a.toNat, 14), (t.code, 0)])
  | .mfirst d a t => some (pack 0x6B000030 [(d.toNat, 19), (a.toNat, 14), (t.code, 0)])
  | .viota d m t => some (pack 0x6C000000 [(d.toNat, 19), (m.toNat, 6), (t.code, 0)])
  | .vaddF64 d a b m => some (pack 0x7800000B [(d.toNat, 19), (a.toNat, 14), (b.toNat, 9), (m.toNat, 6)])
  | .vsubF64 d a b m => some (pack 0x7800001B [(d.toNat, 19), (a.toNat, 14), (b.toNat, 9), (m.toNat, 6)])
  | .vmulF64 d a b m => some (pack 0x7800002B [(d.toNat, 19), (a.toNat, 14), (b.toNat, 9), (m.toNat, 6)])
  | .vdivF64 d a b m => some (pack 0x7800003B [(d.toNat, 19), (a.toNat, 14), (b.toNat, 9), (m.toNat, 6)])
  | .vfmaF64 d a b m => some (pack 0x7900000B [(d.toNat, 19), (a.toNat, 14), (b.toNat, 9), (m.toNat, 6)])
  | .vfmsF64 d a b m => some (pack 0x7900001B [(d.toNat, 19), (a.toNat, 14), (b.toNat, 9), (m.toNat, 6)])
  | .vfnmaF64 d a b m => some (pack 0x7900002B [(d.toNat, 19), (a.toNat, 14), (b.toNat, 9), (m.toNat, 6)])
  | .vfnmsF64 d a b m => some (pack 0x7900003B [(d.toNat, 19), (a.toNat, 14), (b.toNat, 9), (m.toNat, 6)])
  | .vminF64 d a b m => some (pack 0x7A00000B [(d.toNat, 19), (a.toNat, 14), (b.toNat, 9), (m.toNat, 6)])
  | .vmaxF64 d a b m => some (pack 0x7A00001B [(d.toNat, 19), (a.toNat, 14), (b.toNat, 9), (m.toNat, 6)])
  | .vsqrtF64 d a m => some (pack 0x7A00002B [(d.toNat, 19), (a.toNat, 14), (m.toNat, 6)])
  | .vrsumF64 d a m => some (pack 0x7A00003B [(d.toNat, 19), (a.toNat, 14), (m.toNat, 6)])
  | .vcvtF64 d a t r s h m u => some (pack 0x7B000000 [(d.toNat, 19), (a.toNat, 14), (t.code, 10), (r.toNat, 8), (bitOf s, 7), (bitOf h, 6), (m.toNat, 4), (u.code, 0)])
  | .powerOnReset => none
  | .deviceReset => none
  | .bootLayer _ => none
  | .clusterReset _ => none
  | .linkReset => none
  | .laneFault _ _ => none
  | .linkTrainTimeout => none
  | .channelFailure _ _ => none
  | .correctedError _ _ => none
  | .droopTrip _ => none
  | .droopStretchEnd _ => none
  | .clockFrequencySwitch _ => none
  | .ls1Entry _ => none
  | .ls2Entry _ => none
  | .ls3Entry => none
  | .ls4Entry => none
  | .powerStateExit _ => none
  | .retentionSleep _ => none
  | .controlCoreWake _ => none
  | .lattolWrite _ => none
  | .pwrlimitWrite _ => none
  | .readlog => none
  | .report => none
  | .readerr => none
  | .stage => none
  | .badop => none
  | .mailboxCompletion => none
  | .evict _ => none
  | .resume _ => none
  | .skip _ => none
  | .disable _ => none
  | .qctlBadOperation _ => none
  | .doorbell _ _ _ _ => none
  | .svcimgWrite _ => none
  | .registerWrite _ _ => none
  | .priEnable _ => none
  | .queueLoad _ => none
  | .queueSelect _ => none
  | .queueSliceExpiry _ => none
  | .nopPacket _ => none
  | .launchPacket _ => none
  | .copyPacket _ => none
  | .bmvPacket _ => none
  | .signalPacket _ => none
  | .waitPacket _ => none
  | .waitPoll _ => none
  | .waitTimeout _ => none
  | .writeSignalPacket _ => none
  | .bindPacket _ => none
  | .unbindPacket _ => none
  | .priStopMarker _ => none
  | .customPacket _ => none
  | .packetComplete _ _ => none
  | .coalescerHoldExpiry _ => none
  | .atsTranslationCompletion _ => none
  | .pageRequestResponse _ _ => none
  | .pageRequestTimeout _ => none
  | .atsInvalidateRequest _ => none
  | .invalidationCompletion _ => none
  | .rds _ => none
  | .rdx _ => none
  | .upg _ => none
  | .rdnc _ => none
  | .wrnc _ => none
  | .wrf _ => none
  | .atom _ => none
  | .llk _ => none
  | .sck _ => none
  | .watch _ => none
  | .eciMalformedRequest _ => none
  | .nodeMerge _ _ _ _ => none
  | .replicaDrop _ _ => none
  | .dramFill _ _ => none
  | .replayRetry _ => none
  | .probeTimeout _ _ _ => none
  | .sinv _ => none
  | .sshr _ => none
  | .sbinv _ => none
  | .ds _ => none
  | .de _ => none
  | .dm _ => none
  | .gm _ => none
  | .cmp _ => none
  | .atr _ => none
  | .lkd _ => none
  | .scf _ => none
  | .woke _ => none
  | .rty _ => none
  | .wba _ => none
  | .wbx _ => none
  | .pack _ => none
  | .pdat _ => none
  | .wbd _ => none
  | .evc _ => none
  | .crd _ => none
  | .l1BackgroundSweep _ => none
  | .mcrd _ => none
  | .mcrdWindowClose _ _ => none
  | .mcd _ => none
  | .spwr _ => none
  | .sprd _ => none
  | .spsy _ => none
  | .spsyResend _ _ => none
  | .spdat _ => none
  | .repl _ => none
  | .rrec _ => none
  | .rdin _ => none
  | .rdrm _ => none
  | .grant _ => none
  | .alwRet _ => none
  | .cret _ => none
  | .dsack _ => none
  | .userMessage _ => none
  | .dec _ => none
  | .notice _ => none
  | .dirsvc _ => none
  | .lreq _ => none
  | .lreqResend _ _ => none
  | .chunk _ => none
  | .deferredMessageRetry _ => none
  | .networkLinkRetry _ _ => none
  | .regionRunnable _ => none
  | .regionSliceExpiry _ => none
  | .regionEnd _ => none
  | .partitionHalt _ _ => none
  | .contextSwap _ => none
  | .bayBackgroundWrite _ => none
  | .rosterMultiplex _ => none
  | .graceExpiry _ => none
  | .heartbeatMiss _ => none
  | .dispatch _ => none
  | .waitLimitExpiry _ => none
  | .timerExpiry _ => none
  | .interruptEntry _ => none
  | .deferredPoison _ => none
  | .flumeTransfer _ _ => none
  | .jobCardStart _ _ => none
  | .copyJobComplete _ _ => none
  | .jobStatusFail _ _ => none
  | .sluiceOutletFire _ _ => none
  | .matrixRequestServe _ => none
  | .matrixResultBind _ _ => none
  | .factorisationStepEnd _ => none
  | .mlongComplete _ _ => none
  | .bmvJobStart _ => none
  | .xld _ _ _ => none
  | .brun _ _ => none
  | .bhalt _ => none
  | .bres _ => none
  | .prd _ _ _ => none
  | .bankPassBatchEnd _ => none
  | .bmvJobCompletion _ => none
  | .deadLetter _ _ => none
  | .dsdoneWaitLog _ _ => none
  | .adapterRetry _ => none
  | .supplyRecovery _ => none
  | .unrecoverableFailure _ => none

end Sys2Proof
end

