-- ==== Sys2Proof/Machine/Bits.lean ====
section
/-!
DEFINITION. Bit fields, sign extension and byte order (R4, R5, R291), and the byte view of vectors and lines.
-/

namespace Sys2Proof.Machine

/-- Bits [lo + n - 1 : lo] of a 64-bit word, as a number. -/
def field (w : Word) (lo n : Nat) : Nat := bits w.toNat lo n

/-- A 64-bit word from a number. -/
def word (n : Nat) : Word := BitVec.ofNat 64 n

/-- A word with bits [lo + n - 1 : lo] replaced. -/
def setField (w : Word) (lo n : Nat) (x : Nat) : Word :=
  word (w.toNat - bits w.toNat lo n * 2 ^ lo + x % 2 ^ n * 2 ^ lo)

/-- Sign extension of the low `n` bits of a number to 64 bits. -/
def sext (n x : Nat) : Word := (BitVec.ofNat n x).signExtend 64

/-- The immediate I14, sign-extended (R291). -/
def simm {n : Nat} (i : BitVec n) : Word := i.signExtend 64

/-- The immediate I14, zero-extended (R291). -/
def zimm {n : Nat} (i : BitVec n) : Word := i.setWidth 64

/-- Bits [lo + n - 1 : lo] of a vector. -/
def slice (v : Vec) (lo n : Nat) : BitVec n := v.extractLsb' lo n

/-- A vector with `n` bits at `lo` replaced. -/
def splice (v : Vec) (lo n : Nat) (x : Nat) : Vec :=
  let m : Vec := (BitVec.ofNat 512 (2 ^ n - 1)) <<< lo
  (v &&& ~~~ m) ||| ((BitVec.ofNat 512 (x % 2 ^ n)) <<< lo)

/-- Byte `i` of a vector or line. -/
def byteAt (v : Vec) (i : Nat) : Byte := v.extractLsb' (8 * i) 8

/-- `n` bytes of a vector from byte `i`, as a number. -/
def bytesAt (v : Vec) (i n : Nat) : Nat := v.toNat / 2 ^ (8 * i) % 2 ^ (8 * n)

/-- A vector with `n` bytes at byte `i` replaced by the low bytes of a number. -/
def putBytes (v : Vec) (i n x : Nat) : Vec := splice v (8 * i) (8 * n) x

/-- A vector of bytes, byte 0 first (R5). -/
def vecOfBytes (l : List Byte) : Vec := BitVec.ofNat 512 (leNat l)

/-- The 64 bytes of a vector, byte 0 first. -/
def bytesOfVec (v : Vec) : List Byte := leBytes 64 v.toNat

/-- The bytes of `new` where the mask has ones, and of `old` elsewhere. -/
def mergeBytes (old new : Vec) (mask : BitVec 64) : Vec :=
  (List.range 64).foldl (fun acc i => if mask.getLsbD i then putBytes acc i 1 (bytesAt new i 1) else acc) old

/-- A byte mask of `n` ones from byte `i`. -/
def byteMask (i n : Nat) : BitVec 64 := BitVec.ofNat 64 ((2 ^ n - 1) * 2 ^ i)

/-- Lane `i` of a vector of `w`-bit elements (R232). -/
def lane (w : Nat) (v : Vec) (i : Nat) : Nat := v.toNat / 2 ^ (w * i) % 2 ^ w

/-- A vector of `w`-bit lanes from a function (R232). -/
def ofLanes (w : Nat) (f : Nat → Nat) : Vec :=
  BitVec.ofNat 512 ((List.range (512 / w)).foldl (fun acc i => acc + f i % 2 ^ w * 2 ^ (w * i)) 0)

/-- The number of ones among the low `n` bits of a number. -/
def popCount : Nat → Nat → Nat
  | 0, _ => 0
  | n + 1, x => x % 2 + popCount n (x / 2)

/-- The position of the highest one, plus one; 0 for 0. -/
def bitLength (x : Nat) : Nat := if x = 0 then 0 else Nat.log2 x + 1

/-- The number of trailing zeros of a non-zero number below 2^n; n for 0. -/
def trailingZeros : Nat → Nat → Nat
  | 0, _ => 0
  | n + 1, x => if x % 2 = 1 then 0 else 1 + trailingZeros n (x / 2)

/-- The value of the low `w` bits as a two's complement number. -/
def toSigned (w x : Nat) : Int := (BitVec.ofNat w x).toInt

/-- The low `w` bits of an integer. -/
def ofSigned (w : Nat) (x : Int) : Nat := (BitVec.ofInt w x).toNat

/-- The number whose bits the list gives, least significant first. -/
def leBits : List Bool → Nat
  | [] => 0
  | b :: l => (if b then 1 else 0) + 2 * leBits l

/-- 0 or 1. -/
def boolWord (b : Bool) : Word := if b then 1 else 0

/-- The mask with ones in the low `n` bits. -/
def ones (n : Nat) : Nat := 2 ^ n - 1

end Sys2Proof.Machine
end

