-- ==== Sys2Proof/Machine/Float.lean ====
section
/-!
DEFINITION. Floating-point formats and exact arithmetic (R232 to R243, spec/11). A finite value is a sign, a magnitude and
an exponent, exactly; every operation computes on these without error and rounds once at the end. The flags are a
five-bit word: IV, ZD, OV, UN, IX from bit 0 (R235).
-/

namespace Sys2Proof.Machine

/-- Exception flags in the order of FPCSR.FLAGS (R235). -/
abbrev Flags := BitVec 5

def Flags.iv : Flags := 1
def Flags.zd : Flags := 2
def Flags.ov : Flags := 4
def Flags.un : Flags := 8
def Flags.ix : Flags := 16

/-- How a format spends its codes of all-ones exponent (R233, R236). -/
inductive Specials where
  /-- Infinities and NaNs as IEEE 754. -/
  | ieee
  /-- f8e4: only the code of all ones is a NaN; no infinities. -/
  | nanOnly
  /-- f4e2: neither infinities nor NaNs. -/
  | finite
  deriving DecidableEq, Repr

/-- A binary floating-point format (R233, R236). -/
structure Fmt where
  width : Nat
  ebits : Nat
  mbits : Nat
  bias : Nat
  specials : Specials
  deriving DecidableEq, Repr

def fmtF64 : Fmt := ⟨64, 11, 52, 1023, .ieee⟩
def fmtF32 : Fmt := ⟨32, 8, 23, 127, .ieee⟩
def fmtF16 : Fmt := ⟨16, 5, 10, 15, .ieee⟩
def fmtBf16 : Fmt := ⟨16, 8, 7, 127, .ieee⟩
def fmtF8e4 : Fmt := ⟨8, 4, 3, 7, .nanOnly⟩
def fmtF8e5 : Fmt := ⟨8, 5, 2, 15, .ieee⟩
def fmtF4e2 : Fmt := ⟨4, 2, 1, 1, .finite⟩

/-- The format of a floating-point element type; f32 stands for the integer types, which have none. -/
def fmtOf : Ty → Fmt
  | .f64 => fmtF64
  | .f16 => fmtF16
  | .bf16 => fmtBf16
  | .f8e4 => fmtF8e4
  | .f8e5 => fmtF8e5
  | _ => fmtF32

/-- A value: (−1)^neg · m · 2^e when finite. -/
inductive FVal where
  | nan (signalling : Bool)
  | inf (neg : Bool)
  | fin (neg : Bool) (m : Nat) (e : Int)
  deriving DecidableEq, Repr

/-- The canonical NaN of a format (R233, R236). -/
def Fmt.cnan (f : Fmt) : Nat :=
  match f.specials with
  | .ieee => ones f.ebits * 2 ^ f.mbits + 2 ^ (f.mbits - 1)
  | .nanOnly => ones (f.width - 1)
  | .finite => 0

/-- An infinity of an IEEE format. -/
def Fmt.infinity (f : Fmt) (neg : Bool) : Nat := bitOf neg * 2 ^ (f.width - 1) + ones f.ebits * 2 ^ f.mbits

/-- The code of the largest finite magnitude. -/
def Fmt.maxCode (f : Fmt) : Nat :=
  match f.specials with
  | .ieee => ones f.ebits * 2 ^ f.mbits - 1
  | .nanOnly => ones (f.width - 1) - 1
  | .finite => ones (f.width - 1)

/-- A zero with a sign. -/
def Fmt.zero (f : Fmt) (neg : Bool) : Nat := bitOf neg * 2 ^ (f.width - 1)

/-- The value of a code (R233, R236). -/
def Fmt.decode (f : Fmt) (x : Nat) : FVal :=
  let neg := bits x (f.width - 1) 1 == 1
  let ex := bits x f.mbits f.ebits
  let fr := bits x 0 f.mbits
  let special : Bool := match f.specials with
    | .ieee => ex == ones f.ebits
    | .nanOnly => ex == ones f.ebits && fr == ones f.mbits
    | .finite => false
  if special then
    if f.specials = .ieee ∧ fr = 0 then .inf neg
    else .nan (f.specials = .ieee && bits x (f.mbits - 1) 1 == 0)
  else if ex = 0 then .fin neg fr (1 - (f.bias : Int) - f.mbits)
  else .fin neg (fr + 2 ^ f.mbits) ((ex : Int) - f.bias - f.mbits)

/-- The rounding modes of R240. -/
inductive Rm where
  | rne | rtz | rup | rdn
  deriving DecidableEq, Repr

/-- The mode of a two-bit code (R240). -/
def Rm.ofCode (c : BitVec 2) : Rm :=
  if c = 0 then .rne else if c = 1 then .rtz else if c = 2 then .rup else .rdn

/-- m · 2^(−shift) rounded to an integer, with whether anything was lost. The mode sees the sign. -/
def roundShift (rm : Rm) (neg : Bool) (m : Nat) (shift : Int) : Nat × Bool :=
  if shift ≤ 0 then (m * 2 ^ (-shift).toNat, false)
  else
    let s := shift.toNat
    let q := m / 2 ^ s
    let r := m % 2 ^ s
    let half := 2 ^ (s - 1)
    let up : Bool := match rm with
      | .rne => decide (r > half) || (r == half && q % 2 == 1)
      | .rtz => false
      | .rup => !neg && r != 0
      | .rdn => neg && r != 0
    (if up then q + 1 else q, r != 0)

/-- The result of an overflow by the mode (R240). -/
def Fmt.overflow (f : Fmt) (rm : Rm) (sat neg : Bool) : Nat :=
  let big := bitOf neg * 2 ^ (f.width - 1) + f.maxCode
  match f.specials with
  | .finite => big
  | .nanOnly => if sat then big else f.cnan
  | .ieee =>
    let toMax : Bool := match rm with
      | .rne => false
      | .rtz => true
      | .rup => neg
      | .rdn => !neg
    if sat || toMax then big else f.infinity neg

/-- (−1)^neg · m · 2^e rounded once into a format (R234, R240), with its flags. -/
def Fmt.round (f : Fmt) (rm : Rm) (sat neg : Bool) (m : Nat) (e : Int) : Nat × Flags :=
  if m = 0 then (f.zero neg, 0)
  else
    let emin : Int := 1 - (f.bias : Int)
    let ev : Int := (bitLength m : Int) - 1 + e
    let qu : Int := ev - f.mbits
    let q : Int := max qu (emin - f.mbits)
    let r := roundShift rm neg m (q - e)
    let ru := roundShift rm neg m (qu - e)
    -- normalise a carry out of the significand
    let mant := if r.1 = 2 ^ (f.mbits + 1) then 2 ^ f.mbits else r.1
    let qn := if r.1 = 2 ^ (f.mbits + 1) then q + 1 else q
    let biased : Nat := if mant < 2 ^ f.mbits then 0 else (qn + f.mbits + f.bias).toNat
    let code := if mant < 2 ^ f.mbits then mant else biased * 2 ^ f.mbits + (mant - 2 ^ f.mbits)
    if code > f.maxCode then (f.overflow rm sat neg, Flags.ov ||| Flags.ix)
    else
      let evu : Int := (bitLength ru.1 : Int) - 1 + qu
      let tiny : Bool := decide (evu < emin)
      let fl : Flags := if r.2 then (if tiny then Flags.un ||| Flags.ix else Flags.ix) else 0
      (bitOf neg * 2 ^ (f.width - 1) + code, fl)

/-- Rounding to nearest even (R234). -/
def Fmt.rne (f : Fmt) (neg : Bool) (m : Nat) (e : Int) : Nat × Flags := f.round .rne false neg m e

/-- A signed integer times 2^e, rounded to nearest even; an exact zero takes the given sign. -/
def Fmt.rneInt (f : Fmt) (zeroNeg : Bool) (x : Int) (e : Int) : Nat × Flags :=
  if x = 0 then (f.zero zeroNeg, 0) else f.rne (decide (x < 0)) x.natAbs e

def FVal.isNan : FVal → Bool
  | .nan _ => true
  | _ => false

def FVal.isSnan : FVal → Bool
  | .nan s => s
  | _ => false

def FVal.isInf : FVal → Bool
  | .inf _ => true
  | _ => false

def FVal.isZero : FVal → Bool
  | .fin _ m _ => m == 0
  | _ => false

/-- The sign of a number; false for a NaN. -/
def FVal.neg : FVal → Bool
  | .nan _ => false
  | .inf n => n
  | .fin n _ _ => n

def FVal.negate : FVal → FVal
  | .nan s => .nan s
  | .inf n => .inf (!n)
  | .fin n m e => .fin (!n) m e

/-- The signed significand of a finite value at exponent `e0`, which is at most its own exponent. -/
def FVal.at : FVal → Int → Int
  | .fin n m e, e0 => (if n then -1 else 1) * ((m * 2 ^ (e - e0).toNat : Nat) : Int)
  | _, _ => 0

/-- The exponent of a finite value. -/
def FVal.exp : FVal → Int
  | .fin _ _ e => e
  | _ => 0

/-- IV for any signalling NaN among the operands (R234). -/
def snanFlag (xs : List FVal) : Flags := if xs.any FVal.isSnan then Flags.iv else 0

/-- a + b rounded once (R234). -/
def FVal.add (f : Fmt) (a b : FVal) : Nat × Flags :=
  match a, b with
  | .nan _, _ | _, .nan _ => (f.cnan, snanFlag [a, b])
  | .inf n, .inf n' => if n = n' then (f.infinity n, 0) else (f.cnan, Flags.iv)
  | .inf n, _ => (f.infinity n, 0)
  | _, .inf n => (f.infinity n, 0)
  | .fin n _ e, .fin n' _ e' =>
    let e0 := min e e'
    f.rneInt (n && n') (a.at e0 + b.at e0) e0

/-- a × b rounded once (R234). -/
def FVal.mul (f : Fmt) (a b : FVal) : Nat × Flags :=
  match a, b with
  | .nan _, _ | _, .nan _ => (f.cnan, snanFlag [a, b])
  | .inf n, .inf n' => (f.infinity (n != n'), 0)
  | .inf n, .fin n' m _ => if m = 0 then (f.cnan, Flags.iv) else (f.infinity (n != n'), 0)
  | .fin n m _, .inf n' => if m = 0 then (f.cnan, Flags.iv) else (f.infinity (n != n'), 0)
  | .fin n m e, .fin n' m' e' => f.rne (n != n') (m * m') (e + e')

/-- a ÷ b rounded once (R234): the quotient is carried with a sticky bit well below the rounding position. -/
def FVal.div (f : Fmt) (a b : FVal) : Nat × Flags :=
  match a, b with
  | .nan _, _ | _, .nan _ => (f.cnan, snanFlag [a, b])
  | .inf _, .inf _ => (f.cnan, Flags.iv)
  | .inf n, .fin n' _ _ => (f.infinity (n != n'), 0)
  | .fin n _ _, .inf n' => (f.zero (n != n'), 0)
  | .fin n m e, .fin n' m' e' =>
    if m' = 0 then (if m = 0 then (f.cnan, Flags.iv) else (f.infinity (n != n'), Flags.zd))
    else if m = 0 then (f.zero (n != n'), 0)
    else
      let k := bitLength m' + f.mbits + 3
      let q := m * 2 ^ k / m'
      let s := if m * 2 ^ k % m' = 0 then 0 else 1
      f.rne (n != n') (2 * q + s) (e - e' - k - 1)

/-- The integer square root by Newton's method; `fuel` bounds the iterations. -/
def isqrtAux : Nat → Nat → Nat → Nat
  | 0, _, x => x
  | fuel + 1, n, x =>
    let y := (x + n / x) / 2
    if y < x then isqrtAux fuel n y else x

/-- The greatest integer whose square is at most `n`. -/
def isqrt (n : Nat) : Nat := if n = 0 then 0 else isqrtAux (bitLength n + 8) n (2 ^ ((bitLength n + 1) / 2 + 1))

/-- The square root rounded once (R234, R310). -/
def FVal.sqrt (f : Fmt) (a : FVal) : Nat × Flags :=
  match a with
  | .nan s => (f.cnan, if s then Flags.iv else 0)
  | .inf n => if n then (f.cnan, Flags.iv) else (f.infinity false, 0)
  | .fin n m e =>
    if m = 0 then (f.zero n, 0)
    else if n then (f.cnan, Flags.iv)
    else
      -- shift so that the exponent is even and the root has more than mbits + 2 bits
      let k : Nat := 2 * (f.mbits + 4) + (if (e : Int) % 2 = 0 then 0 else 1)
      let mm := m * 2 ^ k
      let r := isqrt mm
      let s := if r * r = mm then 0 else 1
      f.rne false (2 * r + s) ((e - k) / 2 - 1)

/-- a · b + c rounded once (R234). -/
def FVal.fma (f : Fmt) (a b c : FVal) : Nat × Flags :=
  let zeroInf := (a.isZero && b.isInf) || (a.isInf && b.isZero)
  if zeroInf then (f.cnan, Flags.iv)
  else if a.isNan || b.isNan || c.isNan then (f.cnan, snanFlag [a, b, c])
  else
    let pn := a.neg != b.neg
    if a.isInf || b.isInf then
      if c.isInf && c.neg != pn then (f.cnan, Flags.iv) else (f.infinity pn, 0)
    else match a, b, c with
      | .fin _ m e, .fin _ m' e', .fin n'' _ e'' =>
        let p : FVal := .fin pn (m * m') (e + e')
        let e0 := min (e + e') e''
        f.rneInt (pn && n'') (p.at e0 + c.at e0) e0
      | _, _, .inf n => (f.infinity n, 0)
      | _, _, _ => (f.cnan, 0)

/-- The order of two numbers: a < b, with −0 equal to +0. False when either is a NaN. -/
def FVal.lt (a b : FVal) : Bool :=
  match a, b with
  | .nan _, _ | _, .nan _ => false
  | .inf n, .inf n' => n && !n'
  | .inf n, _ => n
  | _, .inf n => !n
  | .fin _ _ e, .fin _ _ e' => let e0 := min e e'; decide (a.at e0 < b.at e0)

/-- Equality of numbers, with −0 equal to +0; false when either is a NaN. -/
def FVal.eqv (a b : FVal) : Bool := !a.isNan && !b.isNan && !a.lt b && !b.lt a

/-- R234: minimum or maximum; a NaN operand gives the canonical NaN, and −0 is less than +0. -/
def Fmt.minmax (f : Fmt) (isMax : Bool) (x y : Nat) : Nat × Flags :=
  let a := f.decode x
  let b := f.decode y
  if a.isNan || b.isNan then (f.cnan, snanFlag [a, b])
  else
    let less : Bool := a.lt b || (a.isZero && b.isZero && a.neg && !b.neg)
    (if less != isMax then x else y, 0)

def Fmt.add (f : Fmt) (x y : Nat) : Nat × Flags := FVal.add f (f.decode x) (f.decode y)
def Fmt.sub (f : Fmt) (x y : Nat) : Nat × Flags := FVal.add f (f.decode x) (f.decode y).negate
def Fmt.mul (f : Fmt) (x y : Nat) : Nat × Flags := FVal.mul f (f.decode x) (f.decode y)
def Fmt.div (f : Fmt) (x y : Nat) : Nat × Flags := FVal.div f (f.decode x) (f.decode y)
def Fmt.sqrt (f : Fmt) (x : Nat) : Nat × Flags := FVal.sqrt f (f.decode x)
def Fmt.fma (f : Fmt) (x y z : Nat) : Nat × Flags := FVal.fma f (f.decode x) (f.decode y) (f.decode z)

/-- a · b − c (R310, R368). -/
def Fmt.fms (f : Fmt) (x y z : Nat) : Nat × Flags :=
  FVal.fma f (f.decode x) (f.decode y) (f.decode z).negate

/-- The sign flipped, a NaN kept canonical: the negation that follows a rounding (R310). -/
def Fmt.negResult (f : Fmt) (r : Nat × Flags) : Nat × Flags :=
  if (f.decode r.1).isNan then r else (if bits r.1 (f.width - 1) 1 = 1 then r.1 - 2 ^ (f.width - 1) else r.1 + 2 ^ (f.width - 1), r.2)

/-- −(a · b + c): the negation follows the rounding (R310). -/
def Fmt.fnma (f : Fmt) (x y z : Nat) : Nat × Flags := f.negResult (f.fma x y z)

/-- −a · b + c (R310). -/
def Fmt.fnms (f : Fmt) (x y z : Nat) : Nat × Flags :=
  FVal.fma f (f.decode x).negate (f.decode y) (f.decode z)

/-- Bitwise negate, absolute value and sign copy (R234, R310). -/
def Fmt.neg (f : Fmt) (x : Nat) : Nat := Nat.xor (x % 2 ^ f.width) (2 ^ (f.width - 1))
def Fmt.abs (f : Fmt) (x : Nat) : Nat := x % 2 ^ (f.width - 1)
def Fmt.cpsgn (f : Fmt) (x y : Nat) : Nat := x % 2 ^ (f.width - 1) + bits y (f.width - 1) 1 * 2 ^ (f.width - 1)

/-- Comparisons: the condition, and IV for a signalling NaN, or for any NaN in an ordered compare (R310, R370). -/
def Fmt.cmpEq (f : Fmt) (x y : Nat) : Bool × Flags :=
  ((f.decode x).eqv (f.decode y), snanFlag [f.decode x, f.decode y])

def Fmt.cmpLt (f : Fmt) (x y : Nat) : Bool × Flags :=
  ((f.decode x).lt (f.decode y), if (f.decode x).isNan || (f.decode y).isNan then Flags.iv else 0)

def Fmt.cmpLe (f : Fmt) (x y : Nat) : Bool × Flags :=
  ((f.decode x).lt (f.decode y) || (f.decode x).eqv (f.decode y),
    if (f.decode x).isNan || (f.decode y).isNan then Flags.iv else 0)

/-! ## Conversions (R240) -/

/-- Float to float: exact to a wider format, otherwise rounded by the mode with saturation (R240). -/
def convFF (fd fs : Fmt) (rm : Rm) (sat : Bool) (x : Nat) : Nat × Flags :=
  match fs.decode x with
  | .nan s => (fd.cnan, if s then Flags.iv else if fd.specials = .finite then Flags.iv else 0)
  | .inf n =>
    match fd.specials with
    | .ieee => if sat then (bitOf n * 2 ^ (fd.width - 1) + fd.maxCode, 0) else (fd.infinity n, 0)
    | .nanOnly => if sat then (bitOf n * 2 ^ (fd.width - 1) + fd.maxCode, 0) else (fd.cnan, Flags.iv)
    | .finite => (bitOf n * 2 ^ (fd.width - 1) + fd.maxCode, Flags.ov ||| Flags.ix)
  | .fin n m e => fd.round rm sat n m e

/-- The least and the greatest value of an integer type. -/
def tyMinVal (t : Ty) : Int := if t.isSigned then -(2 ^ (t.width - 1) : Nat) else 0
def tyMaxVal (t : Ty) : Int := if t.isSigned then (2 ^ (t.width - 1) : Nat) - 1 else (2 ^ t.width : Nat) - 1

/-- The value of an integer element. -/
def tyIval (t : Ty) (x : Nat) : Int := if t.isSigned then toSigned t.width x else (x % 2 ^ t.width : Nat)

/-- Float to integer: rounded by the mode, clamped; NaN gives 0 (R240). -/
def convFI (td : Ty) (fs : Fmt) (rm : Rm) (x : Nat) : Nat × Flags :=
  match fs.decode x with
  | .nan _ => (0, Flags.iv)
  | .inf n => (ofSigned td.width (if n then (tyMinVal td) else (tyMaxVal td)), Flags.iv)
  | .fin n m e =>
    let r := roundShift rm n m (-e)
    let v : Int := if n then -(r.1 : Int) else r.1
    if v < (tyMinVal td) then (ofSigned td.width (tyMinVal td), Flags.iv)
    else if v > (tyMaxVal td) then (ofSigned td.width (tyMaxVal td), Flags.iv)
    else (ofSigned td.width v, if r.2 then Flags.ix else 0)

/-- Integer to float: rounded by the mode (R240). -/
def convIF (fd : Fmt) (ts : Ty) (rm : Rm) (sat : Bool) (x : Nat) : Nat × Flags :=
  let v := tyIval ts x
  if v = 0 then (fd.zero false, 0)
  else
    let r := fd.round rm sat (decide (v < 0)) v.natAbs 0
    (r.1, r.2 &&& (Flags.ov ||| Flags.ix))

/-- Integer to integer: extended, truncated, or clamped with SAT (R240). -/
def convII (td ts : Ty) (sat : Bool) (x : Nat) : Nat × Flags :=
  let v := tyIval ts x
  if sat then (ofSigned td.width (max (tyMinVal td) (min (tyMaxVal td) v)), 0) else (ofSigned td.width v, 0)

/-- One element converted from type `ts` to type `td` (R240). -/
def convert (td ts : Ty) (rm : Rm) (sat : Bool) (x : Nat) : Nat × Flags :=
  match td.isI, ts.isI with
  | true, true => convII td ts sat x
  | true, false => convFI td (fmtOf ts) rm x
  | false, true => convIF (fmtOf td) ts rm sat x
  | false, false => convFF (fmtOf td) (fmtOf ts) rm sat x

/-- R311: an f32 rounded to an integral value in a mode; IX when the value changes. -/
def frintF32 (rm : Rm) (x : Nat) : Nat × Flags :=
  match fmtF32.decode x with
  | .nan s => (fmtF32.cnan, if s then Flags.iv else 0)
  | .inf _ => (x, 0)
  | .fin n m e =>
    if m = 0 then (x, 0)
    else
      let r := roundShift rm n m (-e)
      ((fmtF32.round .rne false n r.1 0).1, if r.2 then Flags.ix else 0)

/-! ## Twin-scale blocks (R238, R241) -/

/-- A twin-scale format: bits per element, magnitude bits, MMAX, B and G (R238). -/
structure SbFmt where
  ewidth : Nat
  mmax : Nat
  b : Nat
  g : Nat
  deriving DecidableEq, Repr

def sb8 : SbFmt := ⟨8, 63, 132, 6⟩
def sb4 : SbFmt := ⟨4, 3, 128, 2⟩

/-- The value of an element under its block's exponent bytes (R238); zero has no sign (DEDUCED, notes/assumptions/119.md). -/
def SbFmt.value (f : SbFmt) (e0 e1 x : Nat) : FVal :=
  if e0 = 0xFF ∨ e1 = 0xFF then .nan false
  else
    let e := if bits x (f.ewidth - 1) 1 = 1 then e1 else e0
    let m := bits x 0 (f.ewidth - 2)
    .fin (m != 0 && bits x (f.ewidth - 2) 1 == 1) m ((e : Int) - f.b)

/-- x · 2^(b − e) rounded to an integer in a mode: magnitude and exactness (R241). -/
def SbFmt.q (rm : Rm) (b e : Nat) (x : FVal) : Nat × Bool :=
  match x with
  | .fin n m ex => roundShift rm n m (-(ex + (b : Int) - e))
  | _ => (0, false)

/-- R241: the least exponent at which every element fits, searched upwards. -/
def SbFmt.leastExp (f : SbFmt) (rm : Rm) (xs : List FVal) : Nat → Nat → Option Nat
  | 0, _ => none
  | fuel + 1, e => if xs.all (fun x => (SbFmt.q rm f.b e x).1 ≤ f.mmax) then some e else f.leastExp rm xs fuel (e + 1)

/-- R241: 48 f32 values to one block: elements, E0, E1 and flags. -/
def SbFmt.quantise (f : SbFmt) (rm : Rm) (sat : Bool) (xs : List FVal) : List Nat × Nat × Nat × Flags :=
  if xs.any (fun x => x.isNan || x.isInf) then (xs.map fun _ => 0, 0xFF, 0xFF, Flags.iv)
  else
    let found := f.leastExp rm xs 255 0
    if found.isNone && !sat then (xs.map fun _ => 0, 0xFF, 0xFF, Flags.ov)
    else
      let e1 := found.getD 254
      let e0 := e1 - f.g
      let el : FVal → Nat × Bool := fun x =>
        let q0 := SbFmt.q rm f.b e0 x
        let small := q0.1 ≤ f.mmax
        let q := if small then q0 else SbFmt.q rm f.b e1 x
        let m := min q.1 f.mmax
        let s := x.neg
        ((if small then 0 else 2 ^ (f.ewidth - 1)) + bitOf s * 2 ^ (f.ewidth - 2) + m, q.2 || decide (q.1 ≠ m))
      let rs := xs.map el
      (rs.map Prod.fst, e0, e1, (if rs.any Prod.snd then Flags.ix else 0) ||| (if found.isNone then Flags.ov else 0))

/-! ## Exact sums (R93, R94, R242, R243) -/

/-- The exact sum of finite values as an integer at the least exponent. -/
def exactSum (xs : List FVal) : Int × Int :=
  let e0 := xs.foldl (fun m x => min m x.exp) 0
  (xs.foldl (fun acc x => acc + x.at e0) 0, e0)

/-- The exact product of two values (R243): infinities and NaNs by their own rules. -/
def FVal.prod (a b : FVal) : FVal :=
  match a, b with
  | .nan _, _ | _, .nan _ => .nan false
  | .inf n, .inf n' => .inf (n != n')
  | .inf n, .fin n' m _ => if m = 0 then .nan false else .inf (n != n')
  | .fin n m _, .inf n' => if m = 0 then .nan false else .inf (n != n')
  | .fin n m e, .fin n' m' e' => .fin (n != n') (m * m') (e + e')

/-- R93, R94, R242, R243: the f32 of the exact sum of a group's products. -/
def groupSum (ps : List FVal) : Nat :=
  if ps.any FVal.isNan then fmtF32.cnan
  else
    let pos := ps.any fun p => p.isInf && !p.neg
    let neg := ps.any fun p => p.isInf && p.neg
    if pos && neg then fmtF32.cnan
    else if pos then fmtF32.infinity false
    else if neg then fmtF32.infinity true
    else let s := exactSum ps; (fmtF32.rneInt false s.1 s.2).1

/-- A value times 2^n (R237). -/
def FVal.scale (x : FVal) (n : Int) : FVal :=
  match x with
  | .fin s m e => .fin s m (e + n)
  | y => y

/-- One binary32 addition with canonical NaN (R93). -/
def addF32 (x y : Nat) : Nat := (fmtF32.add x y).1

end Sys2Proof.Machine
end

