-- ==== Sys2Proof/Config.lean ====
section
/-!
DEFINITION. What one Luatos 880 fixes for its life, and the free values: the values that the manual leaves open. A free
value is a constant without a body applied to a plain counter of the state (`State.free`), so no proof can see it
(notes/assumptions/1.md). The implementation's constants are the limits the manual states.
-/

namespace Sys2Proof.Config

/-- A free 64-bit value: an unpredictable register or word (R7, R139, R198, R210). -/
opaque freeWord : Nat → BitVec 64

/-- A free 512-bit value: an unpredictable vector register or line (R7, R139, R198). -/
opaque freeVec : Nat → BitVec 512

/-- A free byte: a byte of memory the manual calls unpredictable (R115, R214, R280). -/
opaque freeByte : Nat → BitVec 8

/-- A free choice among alternatives the manual allows (an order it does not give). -/
opaque freeNat : Nat → Nat

/-- S(0): the 32-byte device secret in the fuses (R33). -/
opaque deviceSecret : BitVec 256

/-- The four Hazon public keys in the fuses (R34, R35). -/
opaque hazonKey : Nat → List (BitVec 8)

/-- The device's power estimate in watts for a configuration under full load (R22): clusters, A-clock in units of
100 MHz, LPDDR6 rate in Mb/s per pin. -/
opaque powerEstimate : Nat → Nat → Nat → Nat

/-- R19: the hash that spreads physical addresses over the channels outside the bank-compute window, for a channel
count: the channel of a 256-byte granule. -/
opaque channelHash : Nat → Nat → Nat

/-- Byte `i` of an error record as READERR writes it: the manual names what a record holds and not where (R31). Class, logical
unit, physical unit, address, sequence number. -/
opaque errorByte : Nat → HwUnit → HwUnit → Word → Nat → Nat → BitVec 8

end Sys2Proof.Config
end

