-- ==== Sys2Proof/Machine/State.lean ====
section
/-!
DEFINITION. The state of the Luatos 880 as plain data, and `State.reset`, the device right after its power-on reset. Each
field cites the rule that names it. Sparse arrays are lists of (key, value) in rising order of key with no entry equal
to the array's default (`Tbl`); the operations over them stand in Sys2Proof/Machine/Table.lean.

Keys. A logical core is 4 × cluster + core (R40). A context core is named by `ck = 64 × region + region-relative core`
(R204); the standby context of logical core c (R132) is region 0x100, core c. A thread is named by `tk = 16 × ck + slot`
of its home core (R131). A line is its physical address bits [47:6].
-/

namespace Sys2Proof.Machine

/-- A sparse array: keys rising, no entry equal to the default. -/
abbrev Tbl (α : Type) := List (Nat × α)

/-! ## Threads (R6, R135, R195 to R231) -/

/-- The thread states of R135 other than SAVING and SAVED, which `Place` holds. -/
inductive TState where
  | ready | long | waitw | sync | pageWait | stopped
  deriving DecidableEq, Repr

/-- Where a thread's context lies (R135, R138). -/
inductive Place where
  /-- In this slot of the core on whose roster the thread is. -/
  | inSlot (slot : Nat)
  /-- Saved, fully or by a mask, in the core's thread-context cache or its save slot. -/
  | saved
  /-- The slot's context does not exist: the slot is not used. -/
  | absent
  deriving DecidableEq, Repr

/-- A register that a pending result will write (R196). -/
inductive Dst where
  | g (r : Nat) | v (r : Nat) | z (tile : Nat)
  deriving DecidableEq, Repr

/-- Where one piece of a pending result comes from. -/
inductive LaneSrc where
  /-- `len` bytes of memory at a physical address, read from the L1 or awaited from the home. -/
  | mem (pa : Nat)
  /-- Bytes of a pool: context core and pool offset; a remote core answers SPDAT. -/
  | pool (ck off : Nat)
  /-- A reply that carries its value, matched by TXID: ATR, LKD, CMP or SCF of SCK, SPDAT of SPSY, WOKE, CMP of a
  capsule, DSPROBE's answer. -/
  | reply
  deriving DecidableEq, Repr

/-- One piece of a pending result: `len` bytes that land at byte `at_` of the result buffer. -/
structure Lane where
  src : LaneSrc := .reply
  len : Nat := 8
  at_ : Nat := 0
  txid : Nat := 0
  done : Bool := false
  /-- The address that POISON reports, where the piece met poison (R198, R342). -/
  bad : Option Word := none
  deriving DecidableEq, Repr

/-- What waits: the kinds of pending result (R196, R292). -/
inductive PendKind where
  /-- A plain load, gather, vector load, RECV or inter-core read. -/
  | load
  /-- A far or pool atomic (R345). -/
  | atomic
  /-- A parked full/empty access; the virtual address for SYNC_TIMEOUT (R210). -/
  | fullEmpty (va : Word)
  /-- LDLK and STCK (R349). -/
  | locked
  /-- WAITA, with the wait limit running (R355). -/
  | waita
  /-- WAITBAR on a barrier generation (R359). -/
  | waitbar (index gen : Nat)
  /-- CAPSEND or CAPRET from general scratchpad (R274, R276). -/
  | capsule
  /-- A request at the matrix unit (R265). -/
  | matrix
  /-- DSREAD, DSPROBE or DSPOLL (R403). -/
  | dirsvc
  /-- BARINIT or BAREXPECT on a remote barrier, with the address that BARRIER reports (R357). -/
  | barPost (ea : Word)
  deriving DecidableEq, Repr

/-- A remote store or barrier operation of a thread that is not yet complete (R205, R334). -/
structure RemoteOp where
  txid : Nat
  ck : Nat
  off : Nat
  deriving DecidableEq, Repr

/-- How the result buffer becomes a register value. -/
inductive Fin_ where
  /-- Zero-extended low bytes to a g register. -/
  | gz (r bytes : Nat)
  /-- Sign-extended low bytes to a g register. -/
  | gs (r bytes : Nat)
  /-- The whole buffer to a v register. -/
  | vec (r : Nat)
  /-- The buffer to an out-flume's queue. -/
  | flume (k : Nat)
  /-- CODETAB0 and CODETAB1 (R416). -/
  | codetab
  /-- No register. -/
  | none
  deriving DecidableEq, Repr

/-- What a unit did beside its pending result, kept while a trap of that result would be precise at the unit, which then has no effect
(R195): the contents before it of the registers that it wrote, what it took, and what it has yet to send. -/
structure Undo where
  g : List (Nat × Word) := []
  v : List (Nat × Vec) := []
  m : List (Nat × Word) := []
  fpcsr : Word := 0
  /-- Entries popped from in-flumes, and messages taken by in ports. -/
  popped : List (Nat × Vec) := []
  taken : List Msg := []
  /-- Entries for out-flumes, by v register, and messages of out ports: they leave with the result, or with the next unit. -/
  push : List (Nat × Vec) := []
  sends : List Msg := []
  deriving DecidableEq, Repr

/-- A pending result of a thread (R196). -/
structure Pending where
  id : Nat := 0
  kind : PendKind := .load
  dsts : List Dst := []
  fin : Fin_ := .none
  /-- Instructions of the lookahead window still allowed to issue. -/
  window : Nat := 0
  /-- Later units have issued since (R198, R210). -/
  later : Bool := false
  lanes : List Lane := []
  buf : Vec := 0
  /-- TRAPVAL of poison met by the result (R198). -/
  poison : Option Word := none
  /-- The result is an acquire: it holds the thread's later memory-class units (R352). -/
  acq : Bool := false
  /-- The line of an atomic, LDLK or STCK in progress: the thread's later accesses to it wait (R339). -/
  line : Option Nat := none
  /-- Address of the unit that waits (R210). -/
  upc : Word := 0
  /-- A numeric fault of a factorisation: cause code and TRAPVAL (R426). -/
  fault : Option (Nat × Word) := none
  /-- What a precise trap of the result takes back (R195). -/
  undo : Option Undo := none
  deriving DecidableEq, Repr

/-- An entry of a thread's store buffer (R206): bytes of one line not yet in the L1. -/
structure StoreEntry where
  line : Nat
  mask : BitVec 64
  data : Vec
  deriving DecidableEq, Repr

/-- A bound flume (R211, R212). -/
structure Flume where
  base : Nat := 0
  out : Bool := false
  cnt : List Nat := []
  str : List Int := []
  /-- Next entry of the pattern to prefetch or to write. -/
  pos : Nat := 0
  /-- Entries popped or pushed so far. -/
  used : Nat := 0
  queue : List Vec := []
  /-- In-flume: beside each queued entry, the address of a poisoned word among the bytes fetched for it. -/
  bad : List (Option Word) := []
  deriving DecidableEq, Repr

/-- A translation that one reissue of a unit may use once (R79, R80). -/
structure OnceXlat where
  vpn : Nat
  ppn : Nat
  r : Bool
  w : Bool
  x : Bool
  priv : Bool
  deriving DecidableEq, Repr

/-- Who waits for a translation or a page (R67, R72, R77, R117). -/
inductive Waiter where
  | thread (tk : Nat)
  | card (ck id : Nat)
  | queue (q : Nat)
  | bmv (job : Nat)
  | feWrite (pasid va : Nat)
  /-- A job of the block copier. -/
  | copy (id : Nat)
  | dead (ck id : Nat)
  deriving DecidableEq, Repr

/-- What translation has done for the access that a requester is making (R73, R74, R79). -/
structure XState where
  /-- Page requests caused by the unit being issued (R73). -/
  reqs : Nat := 0
  /-- Virtual page for which a Success response was received (R73). -/
  ok : Option Nat := none
  /-- A failure to be raised at the reissue: cause code and virtual page (R74). -/
  fault : Option (Nat × Nat) := none
  /-- Translations that may be used once (R79). -/
  once : List OnceXlat := []
  deriving DecidableEq, Repr

/-- The context of a hardware thread (R6, R138, R200). -/
structure Thread where
  /-- g0 to g31 (R6); g0 is never stored. -/
  g : Tbl Word := []
  /-- v0 to v31 (R6). -/
  v : Tbl Vec := []
  /-- m1 to m7 (R6); m0 reads all ones. -/
  m : Tbl Word := []
  /-- The program counter. -/
  pc : Word := 0
  /-- PRIV: 0 user, 1 system, 2 firmware (R227). -/
  priv : BitVec 2 := 0
  /-- The return store, oldest first, at most 8 (R226). -/
  retStore : List Word := []
  st : TState := .ready
  place : Place := .absent
  /-- Context core on whose roster the thread is (R137, R145). -/
  roster : Nat := 0
  /-- A wake recorded while the thread was out of its slot (R135). -/
  wakeRec : Bool := false
  /-- A thread pre-emption request is pending, with the A-cycles of GRACE left (R135). -/
  preempt : Option Nat := none
  /-- THREADID (R296). -/
  threadId : BitVec 4 := 0
  /-- POOLWORD (R202). -/
  poolword : Word := 0
  /-- GEOM0 to GEOM3 (R201). -/
  geom0 : Word := 0
  geom1 : Word := 0
  geom2 : Word := 0
  geom3 : Word := 0
  /-- CYCLECMP (R231). -/
  cyclecmp : Word := 0
  /-- TRAPCAUSE, TRAPVAL, TRAPPC, TRAPSTATUS, TRAPVEC (R228). -/
  trapcause : Word := 0
  trapval : Word := 0
  trappc : Word := 0
  trapstatus : Word := 0
  trapvec : Word := 0
  /-- INTEN (R231). -/
  inten : Word := 0
  /-- INTPEND.TIMER (R231). -/
  timer : Bool := false
  /-- The recorded-wake set of R222; INTPEND.SLUICE is a view of it. -/
  wakes : BitVec 16 := 0
  /-- WAITLIMIT (R210). -/
  waitlimit : Word := 0
  /-- The wait count of R210. -/
  waitcount : Nat := 0
  /-- A-cycles in a slot in a wait state, since the thread was last READY or LONG there (R137). -/
  waited : Nat := 0
  /-- TRAPVAL of the timeout of a receive that is parked before issue (R328, R329). -/
  park : Option Word := none
  /-- HBEATWIN (R143). -/
  hbeatwin : Word := 0
  /-- The count of HBEATWIN has reached zero: the thread has missed its heartbeat (R143). -/
  missed : Bool := false
  /-- RETBASE, RETLIMIT, RETSP (R226). -/
  retbase : Word := 0
  retlimit : Word := 0
  retsp : Word := 0
  /-- PORTCFG (R199). -/
  portcfg : Word := 0
  /-- LIVETAB, LIVECNT (R139). -/
  livetab : Word := 0
  livecnt : Word := 0
  /-- FPCSR (R235). -/
  fpcsr : Word := 0
  /-- FMTCTX, CODETAB0, CODETAB1 (R257, R239). -/
  fmtctx : Word := 0
  codetab0 : Word := 0
  codetab1 : Word := 0
  /-- FACTSTEP (R269). -/
  factstep : Word := 0
  /-- ZBASE (R260). -/
  zbase : Word := 0
  /-- Reservation epoch (R62). -/
  epoch : BitVec 8 := 0
  /-- The link of LDLK: its line, while valid (R349). -/
  link : Option Nat := none
  pend : List Pending := []
  sbuf : List StoreEntry := []
  remote : List RemoteOp := []
  /-- The send buffer: a committed message that its interface holds back (R141, R168, R224). -/
  send : Option Ev := none
  /-- Bound flumes, by flume number 0 to 7 (R211). -/
  flumes : Tbl Flume := []
  /-- The landing slot of the capsule the thread holds (R278). -/
  holds : Option Nat := none
  /-- CYCLE of the core's cluster when the thread last issued since it took its slot (R136). -/
  lastIssue : Option Nat := none
  /-- Translation of the unit being issued. -/
  x : XState := {}
  /-- An INVAL notice was taken and its DSDONE not yet issued (R132). -/
  invalHeld : Bool := false
  /-- A service thread took a notice and has not come back to WAITW or to an empty DSPOLL (R404, R405). -/
  noticeHeld : Bool := false
  /-- A remote BTAGF or BTAGE in progress: the tag of its SPRD, and the full/empty bit once it is answered (R314). -/
  btag : Option (Nat × Option Bool) := none
  /-- The saved copy of the slot-local area (R138). -/
  sla : Option (List Byte) := none
  /-- The thread's sends are fenced (R143). -/
  fenced : Bool := false
  /-- S-cycle at which the thread was placed in its slot, or was last taken out of it (R137). -/
  since : Nat := 0
  deriving DecidableEq, Repr

/-! ## Context cores: pools and what belongs to a partition context (R140, R202 to R225, R271 to R284) -/

/-- The kinds of synchronising access that park (R208). -/
inductive ParkKind where
  | ldfe | ldff | stfe
  deriving DecidableEq, Repr

/-- A request parked on a pool word (R208, R209): the word's offset, the requester and its request tag. -/
structure Parked where
  off : Nat
  kind : ParkKind
  value : Word := 0
  /-- A local request names its thread; a remote one is answered to `src` by SPDAT with `txid`. -/
  tk : Nat := 0
  remote : Bool := false
  src : Nat := 0
  srcCk : Nat := 0
  txid : Nat := 0
  deriving DecidableEq, Repr

/-- A waiter on a barrier (R218, R359). -/
structure BarWaiter where
  index : Nat
  gen : Nat
  tk : Nat := 0
  remote : Bool := false
  src : Nat := 0
  srcCk : Nat := 0
  txid : Nat := 0
  deriving DecidableEq, Repr

/-- A byte range of a footprint (R217): scratchpad ranges name their context core, memory ranges `none`. -/
structure Range where
  ck : Option Nat := none
  base : Nat := 0
  len : Nat := 0
  deriving DecidableEq, Repr

/-- What a job card does (R213, R88, R266). -/
inductive JobKind where
  | copy | mlong | bmv
  deriving DecidableEq, Repr

/-- One dimension of a tensor copy (R213). -/
structure CopyDim where
  cnt : Nat
  sstr : Int
  dstr : Int
  deriving DecidableEq, Repr

/-- A job card as read at issue (R213, R214, R217, R266, R88). -/
structure Card where
  id : Nat := 0
  kind : JobKind := .copy
  /-- Issuing thread, its PASID mode and linear index (R144). -/
  tk : Nat := 0
  priv : Bool := false
  untranslated : Bool := false
  lin : Nat := 0
  /-- Held queue 0 to 7, until its outlet launches the card (R222, R390). -/
  held : Option Nat := none
  /-- The card has started. -/
  started : Bool := false
  reads : List Range := []
  writes : List Range := []
  /-- Order of issue or launch (R217). -/
  seq : Nat := 0
  -- copies
  esz : Nat := 0
  dims : List CopyDim := []
  src : Word := 0
  dst : Word := 0
  mc : Bool := false
  mdev : Bool := false
  mask : BitVec 64 := 0
  noalloc : Bool := false
  bar : Nat := 0xFFFF
  tag : Nat := 0
  stAddr : Word := 0
  /-- Elements, or multicast lines, already transferred (R140). -/
  pos : Nat := 0
  /-- Reads and writes of this card still to be answered. -/
  outstanding : List Nat := []
  /-- Transfers to destinations for which no copy allowance is left (R171). -/
  toLand : List Msg := []
  /-- Source addresses of the multicast reads in flight, by tag (R90). -/
  mcSrc : List (Nat × Nat) := []
  /-- Status so far and the failing address (R90). -/
  status : Nat := 0
  failAddr : Nat := 0
  /-- Translation of the element or range being accessed, and whether the card waits for it (R77). -/
  x : XState := {}
  paused : Bool := false
  -- matrix long operations
  zc : Bool := false
  count : Nat := 0
  zidx : Nat := 0
  edge : Word := 0
  aBase : Word := 0
  bBase : Word := 0
  aStep : Int := 0
  bStep : Int := 0
  fmt : Word := 0
  ct0 : Word := 0
  ct1 : Word := 0
  /-- BMV: the job's number at the bank-compute controllers. -/
  job : Nat := 0
  deriving DecidableEq, Repr

/-- The states of a landing slot (R277). -/
inductive SlotState where
  | free | reserved | landed | held | sending | deadwrite
  deriving DecidableEq, Repr

/-- A landing slot (R277): its state, and the incoming transfer's sender and chunks landed. -/
structure Slot where
  st : SlotState := .free
  src : Nat := 0
  srcCk : Nat := 0
  ctag : Nat := 0
  length : Nat := 0
  chunks : List Nat := []
  holder : Option Nat := none
  /-- Order in which the slot became LANDED (R278). -/
  order : Nat := 0
  /-- The capsule was sent by CAPRET (R276). -/
  ret : Bool := false
  deriving DecidableEq, Repr

/-- An LREQ queued at its destination (R169). -/
structure LreqWait where
  src : Nat
  srcCk : Nat
  ctag : Nat
  length : Nat
  ret : Bool := false
  deriving DecidableEq, Repr

/-- An outgoing capsule of an interface (R274, R283). -/
structure OutCap where
  ctag : Nat
  /-- Pool offset of the image. -/
  off : Nat
  /-- Landing slot of the image, when it lies in one. -/
  slot : Option Nat := none
  /-- Thread and pending result of a long-latency CAPSEND. -/
  tk : Nat := 0
  pend : Option Nat := none
  length : Nat := 0
  dstCk : Nat := 0
  /-- The slip entry used, for UNREACHABLE and CUTOFF records. -/
  entry : Word := 0
  /-- Copy of the image's first 256 bytes kept in the network domain (R283). -/
  header : List Byte := []
  /-- Granted landing slot, once known. -/
  granted : Option Nat := none
  /-- The chunks have been injected. -/
  sent : Bool := false
  /-- The LREQ was refused and waits to be sent again (R169). -/
  refused : Bool := false
  /-- The sending cluster was reset: only the header is left (R283). -/
  cut : Bool := false
  deriving DecidableEq, Repr

/-- A fault record as delivered by a notice or a fault task: its first 24 bytes (R144). -/
structure FaultRec where
  cause : Nat := 0
  kind : Nat := 0
  lin : Nat := 0xFFFFFFFF
  pc : Word := 0
  val : Word := 0
  deriving DecidableEq, Repr

/-- A dead letter in progress (R279): where the image lies and the fields of its fault record (R280). -/
structure DeadLetter where
  id : Nat := 0
  /-- The landing slot that holds the image, or none for an image in general scratchpad or a kept header. -/
  slot : Option Nat := none
  /-- Pool offset of the image. -/
  off : Nat := 0
  /-- The header and slip kept by the interface, where the image itself is lost (R283). -/
  image : Option (List Byte) := none
  reason : Nat := 0
  cause : Nat := 0
  /-- Thread slot of the holder, 0xFF for none. -/
  holder : Nat := 0xFF
  code : Nat := 0
  pc : Word := 0
  val : Word := 0
  lin : Nat := 0xFFFFFFFF
  /-- The record is in the image. -/
  marked : Bool := false
  x : XState := {}
  deriving DecidableEq, Repr

/-- One core of a partition context: pool, boards, queues (R140). The standby contexts have no pool. -/
structure CtxCore where
  /-- The pool's bytes (R202, R203). -/
  pool : Tbl Byte := []
  /-- Full/empty bits, by 8-byte word (R208). -/
  full : Tbl Bool := []
  /-- Poisoned 8-byte words of the pool (R30, R198). -/
  poison : Tbl Bool := []
  parked : List Parked := []
  barWait : List BarWaiter := []
  /-- SBCNT0 to 31, SBTERM0 to 31, SBOUT0 to 15 (R220 to R222). -/
  sbcnt : Tbl Word := []
  sbterm : Tbl Word := []
  sbout : Tbl Word := []
  /-- The card queue, held cards included, at most 256 (R217, R222, R224). -/
  cards : List Card := []
  /-- Run list: record offsets, head first (R133, R134). -/
  run : List Nat := []
  /-- Threads in WAITW, in the order they entered it (R134). -/
  waiters : List Nat := []
  notices : List FaultRec := []
  /-- Fault-task queue, at most 8 (R144). -/
  faultTasks : List FaultRec := []
  /-- USER messages waiting for a thread, at most 64 (R168). -/
  inbox : List Msg := []
  slots : Tbl Slot := []
  lreqs : List LreqWait := []
  outcaps : List OutCap := []
  /-- The 2-bit counters of DKIND 1, by destination partition (R273). -/
  capCtr : Tbl Nat := []
  dead : List DeadLetter := []
  /-- The matrix unit's format-context copy for the core (R259). -/
  fmtctx : Word := 0
  codetab0 : Word := 0
  codetab1 : Word := 0
  /-- Outlet wakes not yet delivered and the next landing order number. -/
  landCount : Nat := 0
  /-- Logical core that hosts this context core in place of its own (R146). -/
  host : Option Nat := none
  deriving DecidableEq, Repr

/-- A partition context (R130, R140, R141, R264). -/
structure Context where
  region : Nat := 0
  part : Nat := 0
  /-- The cluster on which the context is resident. -/
  cluster : Option Nat := none
  lastCluster : Option Nat := none
  /-- Context tag of R60. -/
  tag : BitVec 8 := 0
  /-- The holding-pond bay that holds the context (R141). -/
  bay : Option Nat := none
  saveSlot : Nat := 0
  /-- The deferred ring (R141). -/
  deferred : List Ev := []
  /-- The core last served by the matrix unit (R264). -/
  mxLast : Nat := 3
  /-- Halting has been requested; every thread stops at its next unit boundary (R140). -/
  halting : Bool := false
  halted : Bool := false
  /-- The context has run before: it is not at its first placement (R131). -/
  placed : Bool := false
  deriving DecidableEq, Repr

/-! ## Cores, clusters and the matrix units -/

/-- A registration in a slice's or a tile's notice queue for the service thread (R404). -/
structure Notice where
  /-- 1 SHARER, 2 INVAL (R404). -/
  kind : Nat := 0
  agent : Nat := 0
  sl : Nat := 0
  line : Nat := 0
  level : Nat := 0
  ver : BitVec 8 := 0
  token : Nat := 0
  /-- 1 for every line of the node's range (eviction). -/
  span : Nat := 0
  deriving DecidableEq, Repr

/-- A redirect installed at an interface (R163): a line and the helper slice's identity. -/
structure Redirect where
  line : Nat
  helper : Nat
  deriving DecidableEq, Repr

/-- A logical core: what stays with the core or its tile's interface whatever context is resident. -/
structure Core where
  /-- L1 instruction cache: lines and their bytes (R207); the list is in order of last use. -/
  icache : List (Nat × Vec) := []
  /-- Directory-service notices for the service thread (R404). -/
  notices : List Notice := []
  /-- Directory-service probes that the service thread has outstanding: requester thread, pending result, line (R406). -/
  dsProbes : List (Nat × Nat × Nat) := []
  /-- Spill mode and the spill inbox of 16 (R168). -/
  spill : Bool := false
  spillInbox : List Msg := []
  /-- The spill's wake has been given to the service thread (R411). -/
  spillWake : Bool := false
  /-- The port map (R147): port of each logical core and slice identity; absent entries are the identity map. -/
  portMap : Tbl Nat := []
  /-- Redirect entries, at most 8 (R163). -/
  redirects : List Redirect := []
  /-- Messages injected and delivered, by region (R167). -/
  injected : Tbl Nat := []
  delivered : Tbl Nat := []
  /-- Copy allowances consumed, by destination core; 2 are held for each at reset (R171). -/
  allowUsed : Tbl Nat := []
  /-- Synchronising requests sent, not yet answered and not cancelled (R209). -/
  spsyOut : List Msg := []
  /-- Synchronising requests refused with CAPACITY, to be sent again (R209). -/
  spsyHeld : List Msg := []
  /-- Remote stores of one vector instruction that wait for an allowance, oldest first. -/
  spwrHeld : List Msg := []
  /-- Entries of the thread-context cache, least recently used first, at most 32 (R138). -/
  tcc : List Nat := []
  /-- The last issuing slot (R136). -/
  lastSlot : Nat := 15
  /-- CYCLE of the cluster at the core's last turn. -/
  lastTurn : Option Nat := none
  /-- The core's 2^14 A-cycles are over, and the scheduler may ask a thread for its slot (R137). -/
  muxDue : Bool := false
  /-- The core is mapped out (R10). -/
  out : Bool := false
  /-- Next request tag of the core's interface. -/
  nextTx : Nat := 0
  deriving DecidableEq, Repr

/-- An entry of a cluster translation unit (R67) or of the address translation cache (R68). -/
structure Xlat where
  pasid : Nat
  gen : BitVec 8
  /-- log2 of the page or range size. -/
  sizeLog : Nat
  vpn : Nat
  ppn : Nat
  r : Bool
  w : Bool
  x : Bool
  priv : Bool
  deriving DecidableEq, Repr

/-- A CTU miss outstanding at the service (R67, R70): who waits, and the access. -/
structure XlatWait where
  w : Waiter
  /-- Cluster whose CTU asks; `none` for the front end. -/
  cluster : Option Nat
  va : Nat
  needR : Bool
  needW : Bool
  needX : Bool
  /-- The access is in system mode (R66). -/
  priv : Bool := false
  deriving DecidableEq, Repr

/-- What a queued matrix request does (R255, R263, R421, R424). -/
inductive MxOp where
  | mma (clear : Bool) | mlu | mchol | mqr | mtrsm (side up unit : Bool) | long (card : Nat)
  deriving DecidableEq, Repr

/-- A request at the matrix unit (R264). -/
structure MxReq where
  id : Nat := 0
  op : MxOp := .mchol
  /-- Issuing context core and thread; `pend` is the thread's pending result. -/
  ck : Nat := 0
  tk : Nat := 0
  pend : Nat := 0
  tile : Nat := 0
  tile2 : Nat := 0
  a : Word := 0
  b : Word := 0
  edge : Word := 0
  fmt : Word := 0
  ct0 : Word := 0
  ct1 : Word := 0
  /-- Destination registers of a factorisation, and its next step and partial results (R270). -/
  vd : Nat := 0
  gd : Nat := 0
  step : Nat := 0
  begun : Bool := false
  perm : Vec := 0
  amax : BitVec 32 := 0
  umax : BitVec 32 := 0
  tau : List (BitVec 32) := []
  /-- The first step of this issue, and whether it resumes (R427). -/
  s0 : Nat := 0
  resume : Bool := false
  /-- The unit held a second word: a halt lets the factorisation run on (R270). -/
  paired : Bool := false
  /-- Operand rows of A and columns of B as read at issue: element bytes and scale bytes (R255, R413). -/
  aRuns : List (Nat × Nat) := []
  bRuns : List (Nat × Nat) := []
  /-- Address of the first poisoned operand or tile word (R268, R425). -/
  bad : Option Word := none
  /-- Numeric fault of a factorisation: cause and TRAPVAL (R426). -/
  fault : Option (Nat × Word) := none
  deriving DecidableEq, Repr

/-- An entry to LS2 that takes several steps: none, begun, or aborted by a request that arrived meanwhile (R25). -/
inductive EntryStep where
  | none | begun | aborted
  deriving DecidableEq, Repr

/-- Power states of a cluster (R24). -/
inductive ClusterPower where
  | ls0 | ls1 | ls2
  deriving DecidableEq, Repr

/-- A cluster: its counter, clock, translation unit and matrix unit. -/
structure Cluster where
  /-- CYCLE (R3, R296). -/
  cycle : Word := 0
  /-- A-cycles since the device's reset, which no cluster reset clears: the cluster's own clock of R31. -/
  acycles : Nat := 0
  /-- A-clock in units of 100 MHz, and a frequency being locked (R20). -/
  freq : Nat := 16
  newFreq : Option Nat := none
  /-- Droop stretching: none, or the count of stretched cycles since the supply recovered (R21). -/
  stretch : Option Nat := none
  /-- The supply is below the trip level. -/
  low : Bool := false
  power : ClusterPower := .ls0
  /-- The entry to LS2 in progress (R25). -/
  entry : EntryStep := .none
  /-- In service under the operating point in force (R22, R23). -/
  inService : Bool := true
  /-- Leaving service at the next swap (R23). -/
  leaving : Bool := false
  /-- A unit-fatal core of the cluster, mapped out at the next swap (R10). -/
  failed : List Nat := []
  /-- CTU entries, least recently used first, at most 2048 (R67). -/
  ctu : List Xlat := []
  /-- Matrix requests, by COREID, oldest first (R264). -/
  mxQueue : Tbl (List MxReq) := []
  /-- The request whose result is computed and not yet bound (R265). -/
  mxDone : List MxReq := []
  /-- The factorisation step in progress (R264). -/
  mxStep : Option MxReq := none
  /-- The partition's 8-bit context-tag counter (R130). -/
  tagCounter : BitVec 8 := 0
  /-- Region whose partition context is resident. -/
  resident : Option Nat := none
  /-- Region and partition selected to come in (R127). -/
  incoming : Option Nat := none
  /-- In cluster reset (R28). -/
  resetting : Bool := false
  /-- Its failed cores are being mapped out: the homes extract their lines (R65). -/
  mapping : Bool := false
  deriving DecidableEq, Repr

/-! ## Coherence (R40 to R65) -/

/-- The states of a caching agent's line (R47). -/
inductive AState where
  | i | s | e | o | m | isD | imD | smA | omA | xiA
  deriving DecidableEq, Repr

/-- Probe kinds (R46). -/
inductive ProbeKind where
  | sinv | sshr | sbinv
  deriving DecidableEq, Repr

/-- A line at a caching agent (R47 to R49, R60). -/
structure ALine where
  st : AState := .i
  ver : BitVec 8 := 0
  data : Vec := 0
  /-- XI_A of a line that was dirty. -/
  dirty : Bool := false
  poison : Bool := false
  tag : BitVec 8 := 0
  /-- Probes deferred in the miss entry, oldest first, at most 2 (R49). -/
  deferred : List Msg := []
  /-- Order of last use. -/
  used : Nat := 0
  /-- The store of a host agent that the line's miss is to serve: its bytes' mask and data (R47, R49). -/
  store : Option (BitVec 64 × Vec) := none
  deriving DecidableEq, Repr

/-- A directory node's state (R50). -/
inductive NState where
  | unc | shr | own | bcast
  deriving DecidableEq, Repr

/-- A directory node (R50). -/
structure Node where
  region : Nat := 0
  level : Nat := 0
  path : Nat := 0
  st : NState := .unc
  ovf : Bool := false
  pinned : Bool := false
  ver : BitVec 8 := 0
  owner : Nat := 0
  /-- Sharer identities, slot 0 first, at most 4. -/
  sh : List Nat := []
  /-- S-cycle of the node's last request, for replacement (R56) and merging (R54). -/
  used : Nat := 0
  deriving DecidableEq, Repr

/-- An outstanding probe of a transaction (R48). -/
structure Probe where
  agent : Nat
  line : Nat
  ver : BitVec 8
  deriving DecidableEq, Repr

/-- What a transaction at the home does once its probes are answered. -/
inductive TxnKind where
  /-- Serve the request by R52 (also split, replication removal and broadcast recall on the way). -/
  | request
  /-- Evict a node (R56). -/
  | evict
  /-- A probe sent for DSPROBE (R406). -/
  | dsprobe
  /-- Recall for a broadcast or stable declaration (R55, R97). -/
  | recall
  /-- The reset sweep (R28). -/
  | sweep
  /-- Replication of a hot line: awaiting PACKs of REPL and RDIN (R163). -/
  | replicate
  /-- Removal of replication: awaiting PACKs of RDRM and RREC (R164). -/
  | unreplicate
  /-- Lines are made clean (R95, R97): the owner's dirty data come home, and the slice's dirty copies go to DRAM. -/
  | clean
  deriving DecidableEq, Repr

/-- An open transaction at a home (R52). -/
structure Txn where
  id : Nat := 0
  kind : TxnKind := .request
  /-- The request, with its constructor kept in `ev`. -/
  ev : Option Ev := none
  msg : Msg := {}
  line : Nat := 0
  probes : List Probe := []
  /-- Agents and lines answered with WB = 1 while the filter was full: the home waits for their WBK (R59). -/
  awaitWb : List (Nat × Nat) := []
  /-- Agents and lines of a probed region whose WBK has come: their later probe responses are discarded (R59). -/
  came : List (Nat × Nat) := []
  /-- Data taken from answers. -/
  got : Bool := false
  /-- The service thread's DSDONE is awaited (R57), with this token (R404). -/
  awaitDs : Bool := false
  token : Nat := 0
  /-- Node key being evicted or recalled: region, level, path. -/
  node : Nat × Nat × Nat := (0, 0, 0)
  /-- Requester of a directory-service operation: thread. -/
  tk : Nat := 0
  pend : Nat := 0
  /-- The answer to a DSPROBE (R406). -/
  result : Nat := 0
  deriving DecidableEq, Repr

/-- A line's data in a slice (R1, R165): the way that holds it, and the S-cycle of its last use. -/
structure SLine where
  data : Vec := 0
  dirty : Bool := false
  poison : Bool := false
  way : Nat := 0
  used : Nat := 0
  deriving DecidableEq, Repr

/-- A load-locked reservation (R62). -/
structure Reservation where
  agent : Nat
  thread : Nat
  epoch : BitVec 8
  line : Nat
  deriving DecidableEq, Repr

/-- A merge-table entry or an MCRD served alone (R161, R456). -/
structure Merge where
  id : Nat := 0
  line : Nat := 0
  poff : Nat := 0
  bar : Nat := 0
  nobar : Bool := false
  region : Nat := 0
  mask : BitVec 64 := 0
  /-- Issuers: SRC, TXID, at most 8. -/
  issuers : List (Nat × Nat) := []
  /-- The merge window is open. -/
  isOpen : Bool := true
  /-- The MCD has been sent; receivers still to answer. -/
  sent : Bool := false
  awaiting : List Nat := []
  /-- The line was poisoned when it was sent (R30). -/
  poison : Bool := false
  deriving DecidableEq, Repr

/-- A hot-table entry (R163). -/
structure Hot where
  line : Nat
  count : Nat
  start : Nat
  /-- Replicated at the three helpers. -/
  active : Bool := false
  /-- Interfaces that hold a redirect. -/
  ifaces : List Nat := []
  helpers : List Nat := []
  last : Nat := 0
  deriving DecidableEq, Repr

/-- A cache slice with its directory (R50 to R64, R149, R161 to R166). -/
structure Slice where
  nodes : List Node := []
  /-- Set versions of the 512 sets (R50). -/
  setVer : Tbl (BitVec 8) := []
  lines : List (Nat × SLine) := []
  /-- Lines whose DRAM fill is pending, with the requests that joined the waiting list (R165). -/
  filling : List (Nat × List Ev) := []
  txns : List Txn := []
  /-- The replay queue (R166). -/
  replay : List Ev := []
  /-- The stale write-back filter: agent, line (R59). -/
  filter : List (Nat × Nat) := []
  reservations : List Reservation := []
  /-- The watch table: agent, thread, line (R63). -/
  watches : List (Nat × Nat × Nat) := []
  merges : List Merge := []
  hot : List Hot := []
  /-- Replicas held as helper: line and data (R163). -/
  replicas : List (Nat × Vec) := []
  /-- Broadcast regions and stable ranges that the slice applies (R55, R97). -/
  stable : List Nat := []
  /-- Ways out of service, and whether the spare way stands in for one (R10). -/
  outWays : List Nat := []
  spareWayUsed : Bool := false
  /-- Non-caching accesses whose probes have been answered: identity, line, and whether it is a write. The home serves such an
  access when it is made again, unless another request on the line has been served since (R52). -/
  ready : List (Nat × Nat × Bool) := []
  /-- SHARER notices not yet acknowledged (R405). -/
  unacked : Nat := 0
  deriving DecidableEq, Repr

/-! ## Translation service (R66 to R81) -/

/-- An ATS Translation Request outstanding on the host port (R68, R70). -/
structure AtsReq where
  tag : Nat
  pasid : Nat
  gen : BitVec 8
  vpn : Nat
  priv : Bool
  /-- Execute Requested (R70). -/
  needX : Bool := false
  waits : List XlatWait := []
  stale : Bool := false
  deriving DecidableEq, Repr

/-- A page request outstanding, or a fault queued for one (R72, R73). -/
structure PageReq where
  prg : Nat
  pasid : Nat
  gen : BitVec 8
  vpn : Nat
  needR : Bool
  needW : Bool
  needX : Bool
  priv : Bool
  /-- Who waits for it (R72). -/
  waits : List Waiter := []
  /-- Who waits for its end without sharing it: it does not ask for all that they need (R73). -/
  others : List Waiter := []
  /-- Sent to the host; otherwise queued for the allocation (R73). -/
  sent : Bool := false
  deriving DecidableEq, Repr

/-- An invalidation in progress (R78). -/
structure Inval where
  itag : Nat
  req : AtsInvalidate
  /-- Accesses in flight when it started, which must complete first: pending results (thread, id) and buffered stores
  (thread, line). -/
  pends : List (Nat × Nat)
  stores : List (Nat × Nat)
  /-- Engine elements under way: context core, card and tag (R78). -/
  elems : List (Nat × Nat × Nat) := []
  /-- Bank-compute jobs that must have stopped (R79). -/
  jobs : List Nat := []
  /-- Started for a bind or unbind rather than by the host (R80): the PASID. -/
  bindPasid : Option Nat := none
  deriving DecidableEq, Repr

/-- The shared translation service. -/
structure Service where
  atsEn : Bool := false
  pasidEn : Bool := false
  priEn : Bool := false
  priStopped : Bool := false
  /-- Outstanding Page Request Allocation (R73). -/
  allocation : Nat := 0
  atc : List Xlat := []
  /-- Bound PASIDs, at most 1024 (R68). -/
  bound : List Nat := []
  /-- Bind generations (R80). -/
  gens : Tbl (BitVec 8) := []
  ats : List AtsReq := []
  pages : List PageReq := []
  invals : List Inval := []
  /-- Invalidate Requests beyond the 32 in progress, oldest first (R78). -/
  invalWait : List AtsInvalidate := []
  /-- PRG indices whose request has timed out and whose response may still come (R74). -/
  latePrgs : List Nat := []
  /-- PASIDs unbound whose page requests are outstanding (R81). -/
  stopPending : List Nat := []
  nextTag : Nat := 0
  deriving DecidableEq, Repr

/-! ## Bank compute (R82 to R101) -/

/-- A bank unit (R92): vector latch as 32-byte words, partial buffer with poison flags, running pass. -/
structure BankUnit where
  latch : Tbl (BitVec 256) := []
  /-- The job whose pass the unit runs. -/
  job : Option Nat := none
  part : Tbl (BitVec 32) := []
  partPoison : Tbl Bool := []
  run : Option BankRun := none
  /-- Next local row and block of the pass, its accumulator, and whether it is halted. -/
  row : Nat := 0
  blk : Nat := 0
  acc : BitVec 32 := 0
  accPoison : Bool := false
  halted : Bool := false
  /-- Virtual address of the first poisoned byte that the pass of a job met. -/
  failVa : Option Nat := none
  deriving DecidableEq, Repr

/-- The phases of a BMV job (R91). -/
inductive BmvPhase where
  | waiting | translating | sweeping | running | writing | done
  deriving DecidableEq, Repr

/-- A BMV job at the bank-compute controllers (R88 to R100). -/
structure BmvJob where
  id : Nat := 0
  /-- Issuing context core and card, or a front-end queue and packet index. -/
  ck : Nat := 0
  card : Nat := 0
  queue : Option (Nat × Nat) := none
  pasid : Nat := 0
  priv : Bool := false
  untranslated : Bool := false
  fmt : Nat := 0
  scl : Bool := false
  kg : Nat := 1
  ks : Nat := 1
  m : Nat := 1
  wbase : Nat := 0
  sbase : Nat := 0
  xaddr : Word := 0
  yaddr : Word := 0
  staddr : Nat := 0
  codetab : BitVec 128 := 0
  bar : Nat := 0xFFFF
  ysp : Bool := false
  xsp : Bool := false
  phase : BmvPhase := .waiting
  /-- Translated pages of the footprint: key 2 × virtual page number, plus 1 for writing; value physical page number + 1. -/
  pages : Tbl Nat := []
  x : XState := {}
  /-- The slabs have been swept and x broadcast: step 4 of R91 is past. -/
  swept : Bool := false
  /-- Lines of the footprint that the clean sweep has still to do (R95). -/
  toSweep : Option (List Nat) := none
  /-- x was read from a poisoned line (R94). -/
  xPoison : Bool := false
  /-- Local rows of each group reduced, and the reducer's partials of the batch in hand, by 256 × unit + entry. -/
  rowsDone : Nat := 0
  red : Tbl (BitVec 32) := []
  redBad : Tbl Bool := []
  /-- Values of y with their poison, and how many of them are written. -/
  ys : List (BitVec 32 × Bool) := []
  written : Nat := 0
  status : Nat := 0
  failAddr : Nat := 0
  /-- The status word cannot be written (R455). -/
  noStatus : Bool := false
  deriving DecidableEq, Repr

/-- The bank-compute controllers and registers. -/
structure Bmv where
  /-- BMVCAP.PRESENT (R82). -/
  present : Bool := true
  /-- The devices' mode register enables the bank-compute extension (R92) (notes/assumptions/150.md). -/
  extEn : Bool := true
  /-- BMVWIN as written, and as in force since the last device reset (R82, R83). -/
  winEn : Bool := false
  winBase : BitVec 18 := 0
  winSize : BitVec 8 := 0
  curEn : Bool := false
  curBase : BitVec 18 := 0
  curSize : BitVec 8 := 0
  units : Tbl BankUnit := []
  jobs : List BmvJob := []
  /-- Weight-stable ranges, by 2 MiB number, at most 64 (R97). -/
  stable : List (Nat × Nat) := []
  /-- Ranges whose declaration is in progress: their writes are held, and their owned and dirty lines are on the way to DRAM (R97). -/
  declaring : List (Nat × Nat) := []
  nextJob : Nat := 1
  deriving DecidableEq, Repr

/-! ## Front end (R102 to R121) -/

/-- The states of a queue (R108). -/
inductive QState where
  | disabled | idle | ready | active | parked | error | binding
  deriving DecidableEq, Repr

/-- A queue-table entry (R102). -/
structure QEntry where
  ringva : Nat := 0
  logsize : Nat := 4
  en : Bool := false
  priv : Bool := false
  prio : Nat := 0
  qslice : Nat := 0
  msivec : Nat := 2
  headva : Nat := 0
  cntva : Nat := 0
  errva : Nat := 0
  sortva : Nat := 0
  sortlen : Nat := 0
  winva : Nat := 0
  deriving DecidableEq, Repr

/-- The effective values of an RCB (R122, R123). -/
structure RcbVals where
  prio : Nat := 8
  fdom : Bool := true
  fhpc : Word := 0
  fnmask : BitVec 64 := 0
  frva : Nat := 0
  frlog : Nat := 0
  hbarm : Bool := false
  hbwin : Nat := 0
  parts : Nat := 16
  tpc : Nat := 15
  gran : Nat := 48
  weight : Nat := 16
  slice : Nat := 2 ^ 20
  grace : Nat := 4096
  waitdef : Nat := 0
  dlbva : Nat := 0
  dlblog : Nat := 0
  deriving DecidableEq, Repr

/-- Why a queue is parked (R108). -/
inductive ParkReason where
  | none | page | memory | bind | barrier | regions
  deriving DecidableEq, Repr

/-- The addresses of a queue (R103): bus addresses, virtual in a PASID, or those of a queue with PRIV = 0 that no BIND has bound. -/
inductive Space where
  | bus | pasid (p : Nat) | unbound
  deriving DecidableEq, Repr

/-- A packet read, and processed or not (R110, R112). -/
structure Packet where
  /-- Its ring index, and the number under which it was started. -/
  idx : Nat := 0
  ser : Nat := 0
  bytes : List Byte := []
  /-- It has been started: its processing has passed the BARRIER bit (R112, R116). -/
  begun : Bool := false
  /-- The sorter has run on a CUSTOM packet; the emitted packets still to be processed (R119). -/
  sorted : Bool := false
  emitted : List (List Byte) := []
  /-- Parts of its work not yet done: regions, copies, jobs. -/
  open_ : Nat := 0
  /-- Its processing has completed. -/
  processed : Bool := false
  /-- The addition at CNTVA has been made (R120). -/
  counted : Bool := false
  deriving DecidableEq, Repr

/-- A resident queue (R108, R109). -/
structure Queue where
  q : Nat := 0
  entry : QEntry := {}
  st : QState := .idle
  /-- Head and kept tail (R105, R106). -/
  head : BitVec 32 := 0
  tail : BitVec 32 := 0
  /-- Packets read since the last head write (R107). -/
  sinceHead : Nat := 0
  reason : ParkReason := .none
  /-- The packet being processed, and those started and incomplete. -/
  cur : Option Packet := none
  started : List Packet := []
  /-- Failed after processing, so the head is past the packet (R116). -/
  failedAfter : Bool := false
  /-- The queue is in ERROR while its packet in hand, or the BIND that targets it, runs to its end (R116, R118). -/
  inError : Bool := false
  /-- Overrun carried forward in F-cycles (R111). -/
  deficit : Nat := 0
  /-- Binding: PASID and root's effective values and address (R118). -/
  pasid : Option Nat := none
  root : RcbVals := {}
  rootVa : Nat := 0
  /-- The sorter program has been read and checked, and passed (R119). -/
  sorterRead : Bool := false
  sorterOk : Bool := false
  sorter : List (BitVec 32) := []
  /-- The scratch window. -/
  scratch : Tbl Byte := []
  /-- Polls done by a WAIT, in F-cycles (R115). -/
  waited : Nat := 0
  /-- Step of WRITE_SIGNAL, BIND or UNBIND reached. -/
  stepNo : Nat := 0
  /-- Translation of the access being made. -/
  x : XState := {}
  deriving DecidableEq, Repr

/-- A packet processor (R110, R111). -/
structure Processor where
  queue : Option Nat := none
  /-- F-cycles left of the queue slice; expired while a packet is processed. -/
  left : Nat := 0
  expired : Bool := false
  deriving DecidableEq, Repr

/-- A coalescer (R121). -/
structure Coal where
  thresh : BitVec 8 := 1
  idlef : Bool := true
  en : Bool := false
  hold : BitVec 16 := 0xFFFF
  pend : BitVec 16 := 0
  run : Bool := false
  elapsed : BitVec 16 := 0
  /-- MSIVEC of the queue when it was last resident. -/
  vec : Nat := 0
  deriving DecidableEq, Repr

/-- A job of the block copier (R115). -/
structure BlockCopy where
  id : Nat := 0
  q : Nat := 0
  ser : Nat := 0
  space : Space := .bus
  src : Nat := 0
  dst : Nat := 0
  len : Nat := 0
  pattern : Option Word := none
  /-- Bytes delivered; the first poisoned source address met. -/
  pos : Nat := 0
  poison : Option Nat := none
  x : XState := {}
  waiting : Bool := false
  deriving DecidableEq, Repr

/-- A write of the front end that waits for a page (R122). -/
structure FeWrite where
  space : Space
  va : Nat
  data : List Byte
  /-- The queue that it is made for (R117). -/
  q : Option Nat := none
  /-- The addition of 1 at a completion counter for a packet: queue and number (R120). -/
  cnt : Option (Nat × Nat) := none
  x : XState := {}
  deriving DecidableEq, Repr

/-- The front end. -/
structure FrontEnd where
  /-- QTBASE (R104). -/
  qtEn : Bool := false
  qtBase : BitVec 36 := 0
  /-- QCTL: operation in progress and RESULT (R104). -/
  qctlBusy : Option (Nat × Nat) := none
  qctlResult : BitVec 8 := 0
  /-- Resident queues, least recently served first, at most 256 (R109). -/
  queues : List Queue := []
  /-- The 4096-bit pending map, with the pending tail of each queue (R109). -/
  pending : List (Nat × BitVec 32) := []
  /-- TAIL as last written, by queue (R106), and doorbell heads of queues not resident. -/
  tails : Tbl (BitVec 32) := []
  heads : Tbl (BitVec 32) := []
  /-- Bindings of queues that are not resident. -/
  bindings : List (Nat × Nat × Nat × RcbVals) := []
  disabled : List Nat := []
  procs : List Processor := [{}, {}, {}, {}]
  /-- Round-robin position at each PRIO: the queue served last. -/
  rr : Tbl Nat := []
  coal : Tbl Coal := []
  copies : List BlockCopy := []
  writes : List FeWrite := []
  /-- NOTICE messages injected, by region (R167). -/
  injected : Tbl Nat := []
  deriving DecidableEq, Repr

/-! ## Scheduler (R122 to R146) -/

/-- A region's state (R122). -/
inductive RState where
  | pending | runnable | ended | faulted
  deriving DecidableEq, Repr

/-- A live region (R122 to R131, R144). -/
structure Region where
  st : RState := .pending
  vals : RcbVals := {}
  /-- RCB address, parent region (none for a child of the root), PASID and queue. -/
  rcb : Nat := 0
  parent : Option Nat := none
  rootVa : Nat := 0
  pasid : Nat := 0
  q : Nat := 0
  pkt : Nat := 0
  depth : Nat := 1
  entry : Word := 0
  argva : Word := 0
  gx : Nat := 1
  gy : Nat := 1
  gz : Nat := 1
  tpc : Nat := 1
  poolword : Word := 0
  cause : Nat := 0
  fcount : Nat := 0
  frhead : Nat := 0
  pass : Nat := 0
  /-- A-cycles since placement or the last expiry (R127, R128). -/
  used : Nat := 0
  expired : Bool := false
  /-- Selected by the last scheduling point (R127). -/
  selected : Bool := false
  resident : Bool := false
  /-- Clusters of its partitions when last placed. -/
  clusters : List Nat := []
  saveSlots : List Nat := []
  /-- Fault tasks held while the queue at core 0 is full (R144). -/
  heldTasks : List FaultRec := []
  /-- The region has ended, and its clusters are held until their service threads have dealt with the notices they took (R132). -/
  ended : Bool := false
  deriving DecidableEq, Repr

/-- The scheduler and its registers. -/
structure Sched where
  /-- SVCIMG, SVCDATA (R132). -/
  svcEn : Bool := false
  svcBase : BitVec 36 := 0
  svcDataBase : BitVec 24 := 0
  /-- SAVEBASE, SAVECNT (R142). -/
  saveEn : Bool := false
  saveBase : BitVec 25 := 0
  saveCount : BitVec 13 := 0
  regions : Tbl (Option Region) := []
  /-- Partition contexts, keyed by 16 × region + partition. -/
  contexts : Tbl (Option Context) := []
  /-- The standby contexts have been created (R132). -/
  standby : Bool := false
  /-- A region has been stopped: a scheduling point is due (R127). -/
  due : Bool := false
  /-- Bays with a background write in progress (R141). -/
  bayWrite : List Nat := []
  deriving DecidableEq, Repr

/-! ## Control tile, power, errors and links (R8 to R39) -/

/-- The device's power states (R24). -/
inductive DevPower where
  | ls0 | ls3 | ls4
  deriving DecidableEq, Repr

/-- An error record (R31). -/
structure ErrRec where
  /-- 0 corrected, 1 poisoned, 2 unit-fatal, 3 device-fatal. -/
  cls : Nat
  unit : HwUnit
  addr : Word
  seq : Nat
  deriving DecidableEq, Repr

/-- A mailbox command in progress (R39). -/
structure Mailbox where
  busy : Bool := false
  op : BitVec 8 := 0
  arg : BitVec 8 := 0
  addr : BitVec 52 := 0
  /-- MBADDR as it stood when the command was written. -/
  base : BitVec 52 := 0
  status : BitVec 8 := 0
  length : BitVec 32 := 0
  deriving DecidableEq, Repr

/-- The control tile (R32 to R39). -/
structure Control where
  /-- Control core k sleeps (R32). -/
  sleep : List Bool := [false, false]
  wake : List Bool := [false, false]
  /-- FWSTAT (R39). -/
  ready : Bool := false
  fail : Bool := false
  slots : BitVec 2 := 0
  svn : BitVec 16 := 0
  mbox : Mailbox := {}
  /-- The layer now running: 0 boot ROM, 1, 2. -/
  layer : Nat := 0
  /-- S(n) of the layer now running; erased when the next layer starts (R33). -/
  secret : List Byte := []
  /-- Public keys of the layers that have run (R33, R38). -/
  pubKeys : List (List Byte) := []
  /-- Private seed of the running layer, kept by layer 2 to sign reports. -/
  seed : List Byte := []
  /-- The measurement log (R37). -/
  log : List (List Byte) := []
  /-- The error ring, oldest first, at most 256, and the next sequence number (R31). -/
  errors : List ErrRec := []
  errSeq : Nat := 0
  /-- Corrected errors per unit: the counts of its clock at the last of them, at most 16 (R31). -/
  errCount : List (HwUnit × List Nat) := []
  -- fuses and the non-volatile store
  /-- Image slots: layer 1 A, B, layer 2 A, B (R35). -/
  images : List (List Byte) := [[], [], [], []]
  /-- Slots whose image has booted once (R36). -/
  booted : List Bool := [false, false, false, false]
  revoked : List Bool := [false, false, false, false]
  /-- The fused minimum is to be raised once the slot's image has booted (R36). -/
  raise : List Bool := [false, false, false, false]
  minSvn : BitVec 16 := 0
  minSvn2 : BitVec 16 := 0
  /-- Device resets since manufacture (R38). -/
  resets : BitVec 32 := 0
  /-- The failure record: physical units to map out at the next reset (R9). -/
  failures : List HwUnit := []
  /-- The slot, of A and B, that was staged last for layers 1 and 2, and that boot tries first at the next device reset (R36). -/
  staged : List (Option Nat) := [none, none]
  /-- The fuse map (R9, R10): physical clusters and slices of the logical ones that are not at their own number, ways mapped out by
  (physical slice, way), and whether the map can be read (R29). -/
  fuseClusters : Tbl Nat := []
  fuseSlices : Tbl Nat := []
  fuseWays : List (Nat × Nat) := []
  fuseBad : Bool := false
  deriving DecidableEq, Repr

/-- Power management and memory capacity (R19 to R26, R454). -/
structure Power where
  /-- LATTOL.TOL (R26). -/
  tol : BitVec 32 := 0
  /-- PWRLIMIT.WATTS (R26). -/
  limit : BitVec 8 := 0x2D
  /-- PWRSTAT.DEV, PWRSTAT.WATTS (R26). -/
  dev : DevPower := .ls0
  watts : BitVec 8 := 0x2D
  /-- Clusters available and LPDDR6 rate in Mb/s at the operating point in force (R22). -/
  clusters : Nat := 16
  rate : Nat := 14400
  /-- A rate that waits for a boundary between passes (R100). -/
  newRate : Option Nat := none
  /-- MEMCAP.CHANNELS, MEMCAP.TOP in MiB (R454). -/
  channels : Nat := 16
  top : Nat := 2 ^ 18
  /-- Groups of four channels taken out at boot, and channels failed in service (R19). -/
  groupsOut : List Nat := []
  failedCh : List Nat := []
  /-- The device stopped accepting work (R29). -/
  fatal : Bool := false
  /-- F-cycles since the last ECI traffic (R24). -/
  eciIdle : Nat := 0
  /-- A reset sweep is in progress: requests are answered RTY (R28, R65). -/
  sweeping : Bool := false
  /-- Logical-to-physical cluster and slice maps (R9); absent entries are the identity. -/
  clusterMap : Tbl Nat := []
  sliceMap : Tbl Nat := []
  deriving DecidableEq, Repr

/-- The UCIe host port (R14 to R16, R44). -/
structure HostPort where
  /-- Lanes of each module: 64, 32 or 0. -/
  width : List Nat := [64, 64]
  up : Bool := true
  /-- A link reset is in progress (R16). -/
  training : Bool := false
  /-- ECI credits that the device holds towards the host, by class code (R44). -/
  credits : Tbl Nat := [(1, 64), (2, 256)]
  /-- Messages that wait for a credit. -/
  held : List Ev := []
  /-- Credits of each host agent in use, by 8 × agent + class code (R44), and the host's messages that wait for one. -/
  hostUsed : Tbl Nat := []
  hostHeld : List Ev := []
  /-- Messages sent to the host and requests to it, oldest first. -/
  sent : List Ev := []
  /-- MSI-X vectors sent (R121). -/
  msix : List Nat := []
  /-- Masked vectors and pending bits (R121). -/
  masked : List Nat := []
  msixPend : List Nat := []
  /-- Translation and page requests sent: tag or PRG, PASID, page (R70, R72). -/
  atsSent : List (Nat × Nat × Nat) := []
  priSent : List (Nat × Nat × Nat) := []
  invDone : List Nat := []
  stopMarkers : List Nat := []
  /-- Consecutive failed retries, by network link (R153). -/
  linkFails : Tbl Nat := []
  deriving DecidableEq, Repr

/-! ## The unit in issue and the schedule -/

/-- Which word of a unit is being executed (R195). -/
inductive Phase where
  | lone | aOfPair | cOfPair
  deriving DecidableEq, Repr

/-- The registers that a word names: sources and destinations in g, v and m, and tiles. -/
structure Names where
  gs : List Nat := []
  vs : List Nat := []
  gd : List Nat := []
  vd : List Nat := []
  md : List Nat := []
  zs : List Nat := []
  deriving DecidableEq, Repr

/-- The effect of an A-class word, held until its pair is complete (R195): register writes, flag bits, traps. -/
structure AEffect where
  n : Names := {}
  gw : List (Nat × Word) := []
  vw : List (Nat × Vec) := []
  mw : List (Nat × Word) := []
  /-- Exception flags to OR into FPCSR.FLAGS. -/
  flags : BitVec 5 := 0
  /-- Messages that writes of out ports send (R329). -/
  sends : List Msg := []
  /-- The trap that the word raises: cause code and TRAPVAL. -/
  trap : Option (Nat × Word) := none
  /-- The word must wait: the thread's next state, and the TRAPVAL of a timeout. -/
  wait : Option (TState × Option Word) := none
  /-- The word is of an F64V major (R145). -/
  f64v : Bool := false
  deriving DecidableEq, Repr

/-- The unit that the current thread issues (R195, R287). -/
structure UnitCtx where
  phase : Phase := .lone
  /-- The thread. -/
  tk : Nat := 0
  /-- Address of the unit's first word. -/
  addr : Word := 0
  /-- The words of the unit. -/
  word0 : BitVec 32 := 0
  word1 : BitVec 32 := 0
  /-- v registers that the C word of the pair reads: a flume among them gives its first entry to the C word. -/
  cReads : List Nat := []
  /-- Effect of the A word of the pair. -/
  a : AEffect := {}
  /-- The logical core on which the unit issues. -/
  core : Nat := 0
  /-- The unit was refused (R197): its thread keeps its place and another thread may issue in the cycle (R136). -/
  refused : Bool := false
  deriving DecidableEq, Repr

/-- Where data become uncorrectable (R29, R30). -/
inductive Site where
  | dram (line : Nat) | slice (line : Nat) | agent (a line : Nat) | pool (ck word : Nat)
  deriving DecidableEq, Repr

/-- What the schedule lets happen next. The manual orders little between units; the list is an input (R3, R43). -/
inductive Choice where
  /-- The oldest pending step, or, where none is pending, the next core's A-cycle. -/
  | auto
  /-- The pending step at this position, or the oldest of its channel. -/
  | ev (i : Nat)
  /-- This core's next A-cycle. -/
  | core (c : Nat)
  /-- A step that the outside world or a timer causes, or a request of a host agent. -/
  | occur (e : Ev)
  /-- A host agent's access to a line of its own cache (R41): load, store, replacement. -/
  | hostLoad (agent line : Nat)
  | hostStore (agent line : Nat) (mask : BitVec 64) (data : Vec)
  | hostDrop (agent line : Nat)
  /-- Data become uncorrectable (R29): of a line of DRAM, of a slice or of an agent's cache, or of a word of a pool. -/
  | uncorrectable (site : Site)
  /-- The fuse map can no longer be read (R29). -/
  | fuseFault
  /-- Two pending ADD requests meet in a request-network switch and combine (R158). -/
  | combine (i j : Nat)
  deriving DecidableEq, Repr

/-- Why the machine stops with a fault. -/
inductive Fault where
  /-- Raised by the meaning of an instruction word when the thread named as issuing does not exist. Safe: `step` issues
  only threads that exist. -/
  | noThread
  deriving DecidableEq, Repr

/-- Why a step is refused. -/
inductive Refusal where
  /-- Raised by `exec` for an instruction that has no meaning yet. Safe: nothing is claimed of it. -/
  | notModelled (mnemonic : String)
  deriving DecidableEq, Repr

/-- The whole machine. -/
structure State where
  threads : Tbl (Option Thread) := []
  ctx : Tbl CtxCore := []
  cores : Tbl Core := []
  clusters : Tbl Cluster := []
  /-- Lines of the caching agents, keyed by agent × 2^42 + line (R41, R60, R206). -/
  agents : Tbl ALine := []
  slices : Tbl Slice := []
  /-- DRAM bytes (R17, R27); an unlisted byte reads zero. -/
  dram : List Host.Cell := []
  /-- Poisoned lines of DRAM (R30). -/
  dramPoison : Tbl Bool := []
  svc : Service := {}
  bmv : Bmv := {}
  fe : FrontEnd := {}
  sched : Sched := {}
  ctl : Control := {}
  pow : Power := {}
  port : HostPort := {}
  /-- The unit in issue. -/
  unit : UnitCtx := {}
  /-- Work and messages pending, oldest first. -/
  agenda : List Ev := []
  /-- The schedule to come. -/
  choices : List Choice := []
  /-- The core whose turn comes next under `auto`, and whether a core is to go before the next pending step. -/
  turn : Nat := 0
  flip : Bool := false
  /-- Steps so far: order of uses (replacement, R56, R67), and numbers of requests. -/
  clock : Nat := 0
  /-- S-cycles so far: one a step while the S-clock runs (R20). -/
  sclk : Nat := 0
  /-- F-cycles of the front end so far: one a step while it is on (R20). -/
  fclk : Nat := 0
  /-- The counter that free values are drawn with; the model's own field. -/
  free : Nat := 0
  deriving DecidableEq, Repr

/-- The device after its power-on reset (R27): every field at its stated reset value, memory with nothing listed. -/
def State.reset : State := {}

end Sys2Proof.Machine
end

