-- ==== Sys2Proof/Machine/Table.lean ====
section
/-!
DEFINITION. Sparse arrays. A `Tbl α` is a list of (key, value) pairs, keys strictly rising, that lists no entry equal to
the default; equal arrays are therefore equal lists. DRAM, the pools, the register files and the tables of records all
use these operations.
-/

namespace Sys2Proof.Machine

/-- The value at a key; an unlisted key holds the default. -/
def Tbl.get {α : Type} (z : α) : Tbl α → Nat → α
  | [], _ => z
  | (k, v) :: t, n => if k = n then v else if n < k then z else Tbl.get z t n

/-- Writes a value at a key; writing the default removes the entry. -/
def Tbl.put {α : Type} [DecidableEq α] (z : α) : Tbl α → Nat → α → Tbl α
  | [], n, x => if x = z then [] else [(n, x)]
  | (k, v) :: t, n, x =>
    if n < k then (if x = z then (k, v) :: t else (n, x) :: (k, v) :: t)
    else if k = n then (if x = z then t else (n, x) :: t)
    else (k, v) :: Tbl.put z t n x

/-- Applies a function to the value at a key. -/
def Tbl.upd {α : Type} [DecidableEq α] (z : α) (t : Tbl α) (n : Nat) (f : α → α) : Tbl α :=
  Tbl.put z t n (f (Tbl.get z t n))

/-- Every key of the array lies above `lo`, keys rise, and no entry holds the default. -/
def Tbl.above {α : Type} [DecidableEq α] (z : α) : Nat → Tbl α → Bool
  | _, [] => true
  | lo, (k, v) :: t => decide (lo ≤ k) && decide (v ≠ z) && Tbl.above z (k + 1) t

/-- The canonical form of an array. -/
def Tbl.wf {α : Type} [DecidableEq α] (z : α) (t : Tbl α) : Bool := Tbl.above z 0 t

/-- The array without the entries of a range of keys. -/
def Tbl.dropRange {α : Type} (t : Tbl α) (lo hi : Nat) : Tbl α := t.filter fun e => e.1 < lo || hi ≤ e.1

/-- The first element of a list that meets a test, removed from the list. -/
def takeFirst {α : Type} (p : α → Bool) : List α → Option (α × List α)
  | [] => none
  | x :: xs => if p x then some (x, xs) else (takeFirst p xs).map fun r => (r.1, x :: r.2)

/-- Replaces the elements that meet a test. -/
def mapIf {α : Type} (p : α → Bool) (f : α → α) (l : List α) : List α := l.map fun x => if p x then f x else x

/-- The last `n` elements of a list: the oldest are dropped. -/
def keepLast {α : Type} (n : Nat) (l : List α) : List α := l.drop (l.length - n)

/-- Folds a state over a list of steps. -/
def foldS {α σ : Type} (f : α → σ → σ) (l : List α) (s : σ) : σ := l.foldl (fun s a => f a s) s

/-- Runs steps in order until one gives an error. -/
def foldE {α σ ε : Type} (f : α → σ → Except ε σ) : List α → σ → Except ε σ
  | [], s => .ok s
  | a :: l, s => match f a s with
    | .ok s' => foldE f l s'
    | .error e => .error e

end Sys2Proof.Machine
end

