-- ==== Sys2Proof/Machine/MxNum.lean ====
section
/-!
DEFINITION. The arithmetic of the matrix unit: operand formats and accepted pairs (R256), element values with their scales
(R236 to R239), the sums of an MMA (R242 to R244, R419), edge words (R262, R263), and the steps of the factorisations
(R428 to R431), as functions of tiles. A tile is a list of 32 rows of 32 element codes.
-/

namespace Sys2Proof.Machine

/-! ## Formats (R256) -/

/-- The operand formats, in the order of their codes. -/
inductive MFmt where
  | bf16 | f16 | f8e4 | f8e5 | i8 | sb8 | sb4 | i4t | f4e2 | i4
  deriving DecidableEq, Repr

def MFmt.ofCode (n : Nat) : Option MFmt :=
  [MFmt.bf16, .f16, .f8e4, .f8e5, .i8, .sb8, .sb4, .i4t, .f4e2, .i4][n]?

/-- Bits per element. -/
def MFmt.wd : MFmt → Nat
  | .bf16 | .f16 => 16
  | .f8e4 | .f8e5 | .i8 | .sb8 => 8
  | .sb4 | .i4t | .f4e2 | .i4 => 4

/-- A single-scale plane is allowed (R257). -/
def MFmt.scales : MFmt → Bool
  | .f8e4 | .f8e5 | .f4e2 => true
  | _ => false

def MFmt.twin : MFmt → Bool
  | .sb8 | .sb4 => true
  | _ => false

/-- The families of R256's table. -/
inductive MKind where
  | half | byteF | byteI | nibF | nibI
  deriving DecidableEq, Repr

def MFmt.kind : MFmt → MKind
  | .bf16 | .f16 => .half
  | .f8e4 | .f8e5 | .sb8 => .byteF
  | .i8 => .byteI
  | .f4e2 | .sb4 => .nibF
  | .i4 | .i4t => .nibI

/-- K and the accumulator of an accepted pair: `true` is INT32 (R256). -/
def pairOf (a b : MFmt) : Option (Nat × Bool) :=
  match a.kind, b.kind with
  | .half, .half => some (192, false)
  | .byteF, .byteF | .byteF, .byteI | .byteI, .byteF => some (384, false)
  | .byteI, .byteI => some (384, true)
  | .nibF, .nibF => some (768, false)
  | .nibI, .nibI => some (768, true)
  | .nibI, .byteI | .byteI, .nibI => some (384, true)
  | _, _ => none

/-- One operand as FMTCTX describes it (R255, R257): format, bytes per scale entry, stride and scale offset in bytes. -/
structure MSide where
  fmt : MFmt
  sb : Nat
  str : Nat
  sco : Nat
  deriving DecidableEq, Repr

/-- The shape of an MMA: K, INT32 and both operands. -/
structure MShape where
  k : Nat
  int : Bool
  a : MSide
  b : MSide
  deriving DecidableEq, Repr

/-- K of R256 for a FMTCTX; `none` where R256 accepts no such pair. -/
def shapeK (fc : Word) : Option (Nat × Bool) :=
  match MFmt.ofCode (field fc 0 4), MFmt.ofCode (field fc 4 4) with
  | some a, some b => pairOf a b
  | _, _ => none

/-- Bytes of scale per block. -/
def MFmt.sbOf (f : MFmt) (scl : Bool) : Nat := if f.twin then 2 else bitOf scl

/-- The shape of a FMTCTX that passes R256 and the first case of R258. -/
def shapeOf (fc : Word) : Option MShape :=
  match MFmt.ofCode (field fc 0 4), MFmt.ofCode (field fc 4 4) with
  | some a, some b => match pairOf a b with
    | some (k, int) =>
      let as := fc.getLsbD 8
      let bs := fc.getLsbD 9
      if (as && !a.scales) || (bs && !b.scales) || decide (field fc 16 12 < k * a.wd / 512) ||
          decide (field fc 28 12 < k * b.wd / 512) then none
      else some { k := k, int := int, a := ⟨a, a.sbOf as, 64 * field fc 16 12, 64 * field fc 40 12⟩,
                  b := ⟨b, b.sbOf bs, 64 * field fc 28 12, 64 * field fc 52 12⟩ }
    | none => none
  | _, _ => none

/-! ## Edge words (R262, R263) -/

/-- Active rows, columns and elements of an edge word. -/
def edgeRv (e : Word) : Nat := if field e 0 6 = 0 then 32 else field e 0 6
def edgeCv (e : Word) : Nat := if field e 6 6 = 0 then 32 else field e 6 6
def edgeKv (e : Word) (k : Nat) : Nat := if field e 12 10 = 0 then k else field e 12 10
def edgeEmpty (e : Word) : Bool := e.getLsbD 63

/-- RV or CV of 32 or more, or a reserved bit set. -/
def edgeBad (e : Word) : Bool :=
  decide (31 < field e 0 6) || decide (31 < field e 6 6) || field e 22 2 != 0 || field e 60 3 != 0

/-- R263: the edge word of a tile at (x, y) of a matrix of m × n with depth `krem` remaining. -/
def medge (x y : Nat) (m n krem : Int) (k : Nat) : Word :=
  let rows := min 32 (max 0 (m - 32 * (y : Int)))
  let cols := min 32 (max 0 (n - 32 * (x : Int)))
  let kv := min (k : Int) (max 0 krem)
  let empty : Bool := rows == 0 || cols == 0 || kv == 0
  let low : Nat := if empty then 2 ^ 63 else rows.toNat % 32 + cols.toNat % 32 * 2 ^ 6 + kv.toNat % k * 2 ^ 12
  word (low + y % 2 ^ 18 * 2 ^ 24 + x % 2 ^ 18 * 2 ^ 42)

/-! ## Element values (R236 to R239) -/

/-- The value of an integer as a floating-point value, exact. -/
def FVal.ofInt (x : Int) : FVal := .fin (decide (x < 0)) x.natAbs 0

/-- R239: entry `c` of the code table, signed. -/
def codeEntry (ct : Nat) (c : Nat) : Int := toSigned 8 (bits ct (8 * c) 8)

/-- The integer of an i8, i4 or i4t element. -/
def MFmt.int (f : MFmt) (ct x : Nat) : Int :=
  match f with
  | .i8 => toSigned 8 x
  | .i4 => toSigned 4 x
  | .i4t => codeEntry ct x
  | _ => 0

/-- The value of an element under its block's scale bytes `e0` and `e1`; a single scale is `e0`. -/
def MFmt.value (f : MFmt) (ct e0 e1 x : Nat) : FVal :=
  let one (v : FVal) : FVal := if e0 = 0xFF then .nan false else v.scale ((e0 : Int) - 127)
  match f with
  | .bf16 => fmtBf16.decode x
  | .f16 => fmtF16.decode x
  | .f8e4 => one (fmtF8e4.decode x)
  | .f8e5 => one (fmtF8e5.decode x)
  | .f4e2 => one (fmtF4e2.decode x)
  | .sb8 => SbFmt.value Sys2Proof.Machine.sb8 e0 e1 x
  | .sb4 => SbFmt.value Sys2Proof.Machine.sb4 e0 e1 x
  | .i8 | .i4 | .i4t => .ofInt (f.int ct x)

/-- One row of A or column of B: its element bytes and its scale bytes, as little-endian numbers. -/
structure MRun where
  data : Nat
  sc : Nat
  deriving DecidableEq, Repr

/-- The 48 values of group `g` of a run; elements at or beyond `kv` are +0 (R262). -/
def MSide.group (s : MSide) (ct kv : Nat) (r : MRun) (g : Nat) : List FVal :=
  let e0 := if s.sb = 0 then 127 else bits r.sc (8 * s.sb * g) 8
  let e1 := if s.sb = 2 then bits r.sc (16 * g + 8) 8 else 127
  (List.range 48).map fun i =>
    if 48 * g + i < kv then s.fmt.value ct e0 e1 (bits r.data ((48 * g + i) * s.fmt.wd) s.fmt.wd) else .fin false 0 0

/-- The 48 integers of a group. -/
def MSide.groupInt (s : MSide) (ct kv : Nat) (r : MRun) (g : Nat) : List Int :=
  (List.range 48).map fun i =>
    if 48 * g + i < kv then s.fmt.int ct (bits r.data ((48 * g + i) * s.fmt.wd) s.fmt.wd) else 0

/-! ## MMA (R419) -/

/-- GroupSum of R419 for an FP32 tile (R242, R243). -/
def sumF (a b : List FVal) : Nat := groupSum (List.zipWith FVal.prod a b)

/-- GroupSum for an INT32 tile (R244). -/
def sumI (a b : List Int) : Nat := ofSigned 32 ((List.zipWith (· * ·) a b).foldl (· + ·) 0)

/-- The groups that KV' reaches. -/
def groupsOf (kv : Nat) : List Nat := List.range ((kv + 47) / 48)

/-- One element: the sums of its groups added to `acc` in ascending K; with `clear`, group 0 replaces it. -/
def accumulate (add : Nat → Nat → Nat) (clear : Bool) (acc : Nat) (sums : List Nat) : Nat :=
  match sums with
  | [] => acc
  | v :: l => l.foldl add (if clear then v else add acc v)

def addI32 (x y : Nat) : Nat := (x + y) % 2 ^ 32

/-- The tile after an MMA (R419). -/
def mmaTile (p : MShape) (ct : Nat) (edge : Word) (clear : Bool) (as bs : List MRun) (z : List (List Nat)) : List (List Nat) :=
  let kv := edgeKv edge p.k
  if p.int then
    let ga := as.map fun r => (groupsOf kv).map fun g => p.a.groupInt ct kv r g
    let gb := bs.map fun r => (groupsOf kv).map fun g => p.b.groupInt ct kv r g
    z.mapIdx fun i row => match ga[i]? with
      | some x => row.mapIdx fun j e => match gb[j]? with
        | some y => accumulate addI32 clear e (List.zipWith sumI x y)
        | none => e
      | none => row
  else
    let ga := as.map fun r => (groupsOf kv).map fun g => p.a.group ct kv r g
    let gb := bs.map fun r => (groupsOf kv).map fun g => p.b.group ct kv r g
    z.mapIdx fun i row => match ga[i]? with
      | some x => row.mapIdx fun j e => match gb[j]? with
        | some y => accumulate addF32 clear e (List.zipWith sumF x y)
        | none => e
      | none => row

/-! ## Tiles -/

/-- A 32 × 32 tile. -/
abbrev Tile := List (List Nat)

def Tile.el (a : Tile) (i j : Nat) : Nat := (a.getD i []).getD j 0

def Tile.ofFn (f : Nat → Nat → Nat) : Tile := (List.range 32).map fun i => (List.range 32).map fun j => f i j

/-! ## Steps of the factorisations (R428 to R431) -/

def f32Nan (x : Nat) : Bool := (fmtF32.decode x).isNan
def f32Inf (x : Nat) : Bool := (fmtF32.decode x).isInf
def f32Zero (x : Nat) : Bool := fmtF32.abs x == 0
/-- FMA(-a, b, c). -/
def fnmsF32 (a b c : Nat) : Nat := (fmtF32.fnms a b c).1
def fmaF32 (a b c : Nat) : Nat := (fmtF32.fma a b c).1
def divF32 (a b : Nat) : Nat := (fmtF32.div a b).1
def subF32 (a b : Nat) : Nat := (fmtF32.sub a b).1
def sqrtF32 (a : Nat) : Nat := (fmtF32.sqrt a).1
def maxF32 (a b : Nat) : Nat := (fmtF32.minmax true a b).1

/-- A numeric fault: the cause and the row (R426). -/
structure FactFault where
  cause : Nat
  row : Nat
  deriving DecidableEq, Repr

/-- What a step gives: the tile, and the step's pivot row, running max|U| or tau. -/
structure FactStep where
  z : Tile
  piv : Nat := 0
  umax : Nat := 0
  tau : Nat := 0
  deriving DecidableEq, Repr

/-- The rows from `k` on. -/
def from32 (k : Nat) : List Nat := (List.range 32).filter (k ≤ ·)

/-- The largest magnitude among the elements that are no NaN (R428). -/
def tileAmax (a : Tile) : Nat :=
  a.foldl (fun m r => r.foldl (fun m x => if f32Nan x then m else max m (fmtF32.abs x)) m) 0

/-- The pivot row of column `k`; a NaN in the column is the fault of its row. -/
def luPivot (a : Tile) (k : Nat) : Except FactFault Nat :=
  foldE (fun i p => if f32Nan (a.el i k) then .error ⟨0x17, i⟩
    else .ok (if fmtF32.abs (a.el p k) < fmtF32.abs (a.el i k) then i else p)) (from32 k) k

/-- R428, step k. -/
def luStep (a : Tile) (k umax : Nat) : Except FactFault FactStep :=
  match luPivot a k with
  | .error e => .error e
  | .ok p =>
    if f32Zero (a.el p k) then .error ⟨0x0C, k⟩
    else
      let b := Tile.ofFn fun i j => if i = k then a.el p j else if i = p then a.el k j else a.el i j
      let m (i : Nat) : Nat := divF32 (b.el i k) (b.el k k)
      let z := Tile.ofFn fun i j =>
        if k < i ∧ j = k then m i else if k < i ∧ k < j then fnmsF32 (m i) (b.el k j) (b.el i j) else b.el i j
      .ok { z := z, piv := p, umax := (from32 k).foldl (fun u j => maxF32 u (fmtF32.abs (z.el k j))) umax }

/-- R429, step k. -/
def cholStep (a : Tile) (k : Nat) : Except FactFault FactStep :=
  let d := a.el k k
  if f32Nan d ∨ f32Zero d ∨ (fmtF32.decode d).neg then .error ⟨0x0D, k⟩
  else
    let r := sqrtF32 d
    let c (i : Nat) : Nat := divF32 (a.el i k) r
    .ok { z := Tile.ofFn fun i j =>
      if j = k then (if i = k then r else if k < i then c i else a.el i j)
      else if i = k ∧ k < j then 0
      else if k < j ∧ j ≤ i then fnmsF32 (c i) (c j) (a.el i j)
      else a.el i j }

/-- R430, step k. -/
def qrStep (a : Tile) (k : Nat) : Except FactFault FactStep :=
  match (from32 k).find? fun i => f32Nan (a.el i k) || f32Inf (a.el i k) with
  | some i => .error ⟨0x17, i⟩
  | none =>
    let alpha := a.el k k
    let sig := (from32 (k + 1)).foldl (fun s i => fmaF32 (a.el i k) (a.el i k) s) 0
    if f32Zero sig then .ok { z := a }
    else
      let nn := fmaF32 alpha alpha sig
      if f32Inf nn then .error ⟨0x17, k⟩
      else
        let nrm := sqrtF32 nn
        let beta := if bits alpha 31 1 = 1 then nrm else fmtF32.neg nrm
        let tau := divF32 (subF32 beta alpha) beta
        let sc := subF32 alpha beta
        let v (i : Nat) : Nat := divF32 (a.el i k) sc
        let t (j : Nat) : Nat :=
          (fmtF32.mul tau ((from32 (k + 1)).foldl (fun w i => fmaF32 (v i) (a.el i j) w) (a.el k j))).1
        .ok { tau := tau, z := Tile.ofFn fun i j =>
          if j = k then (if i = k then beta else if k < i then v i else a.el i j)
          else if k < j then
            (if i = k then fnmsF32 (t j) 0x3F800000 (a.el k j) else if k < i then fnmsF32 (t j) (v i) (a.el i j) else a.el i j)
          else a.el i j }

/-- The diagonal index of a step of MTRSM (R431). -/
def trsmIndex (side up : Bool) (s : Nat) : Nat := if side = up then s else 31 - s

/-- R431, step s, on B with the triangle T: `side` and `up` are true for `.r` and `.up`. -/
def trsmStep (b t : Tile) (side up unit : Bool) (s : Nat) : Except FactFault FactStep :=
  let k := trsmIndex side up s
  let d := t.el k k
  if !unit ∧ f32Nan d then .error ⟨0x17, k⟩
  else if !unit ∧ f32Zero d then .error ⟨0x0C, k⟩
  else
    let x (e : Nat) : Nat := if unit then e else divF32 e d
    let beyond (i : Nat) (rising : Bool) : Bool := if rising then decide (k < i) else decide (i < k)
    .ok { z := Tile.ofFn fun i j =>
      if side then
        (if j = k then x (b.el i k)
         else if beyond j up then fnmsF32 (x (b.el i k)) (t.el k j) (b.el i j) else b.el i j)
      else
        (if i = k then x (b.el k j)
         else if beyond i (!up) then fnmsF32 (t.el i k) (x (b.el k j)) (b.el i j) else b.el i j) }

/-- The permutation of R428 from the pivot rows. -/
def permOf (piv : Nat → Nat) : List Nat :=
  (List.range 32).foldl (fun l k => (l.set k (l.getD (piv k) 0)).set (piv k) (l.getD k 0)) (List.range 32)

end Sys2Proof.Machine
end

