-- ==== Sys2Proof/Machine/Ops.lean ====
section
/-!
DEFINITION. Named operations over the state: access to its tables, registers with their fixed values (R6), the topology of
cores and contexts (R204), fault events (R144), and taking a trap and returning from one (R228, R230), which every
instruction shares.
-/

namespace Sys2Proof.Machine

/-! ## Tables -/

/-- The thread with key `tk`. -/
def State.thr (s : State) (tk : Nat) : Option Thread := Tbl.get none s.threads tk

def State.setThr (s : State) (tk : Nat) (t : Thread) : State :=
  { s with threads := Tbl.put none s.threads tk (some t) }

/-- Applies a function to a thread that exists. -/
def State.modThr (s : State) (tk : Nat) (f : Thread → Thread) : State :=
  match s.thr tk with
  | some t => s.setThr tk (f t)
  | none => s

def State.cx (s : State) (ck : Nat) : CtxCore := Tbl.get {} s.ctx ck
def State.setCx (s : State) (ck : Nat) (x : CtxCore) : State := { s with ctx := Tbl.put {} s.ctx ck x }
def State.modCx (s : State) (ck : Nat) (f : CtxCore → CtxCore) : State := s.setCx ck (f (s.cx ck))

def State.core (s : State) (c : Nat) : Core := Tbl.get {} s.cores c
def State.modCore (s : State) (c : Nat) (f : Core → Core) : State :=
  { s with cores := Tbl.put {} s.cores c (f (s.core c)) }

def State.clu (s : State) (c : Nat) : Cluster := Tbl.get {} s.clusters c
def State.modClu (s : State) (c : Nat) (f : Cluster → Cluster) : State :=
  { s with clusters := Tbl.put {} s.clusters c (f (s.clu c)) }

def State.sl (s : State) (n : Nat) : Slice := Tbl.get {} s.slices n
def State.setSl (s : State) (n : Nat) (x : Slice) : State := { s with slices := Tbl.put {} s.slices n x }
def State.modSl (s : State) (n : Nat) (f : Slice → Slice) : State := s.setSl n (f (s.sl n))

def State.region (s : State) (r : Nat) : Option Region := Tbl.get none s.sched.regions r
def State.setRegion (s : State) (r : Nat) (x : Option Region) : State :=
  { s with sched := { s.sched with regions := Tbl.put none s.sched.regions r x } }
def State.modRegion (s : State) (r : Nat) (f : Region → Region) : State :=
  match s.region r with
  | some x => s.setRegion r (some (f x))
  | none => s

/-- The context of partition p of region r, by key 16 × r + p. -/
def State.context (s : State) (k : Nat) : Option Context := Tbl.get none s.sched.contexts k
def State.setContext (s : State) (k : Nat) (x : Option Context) : State :=
  { s with sched := { s.sched with contexts := Tbl.put none s.sched.contexts k x } }
def State.modContext (s : State) (k : Nat) (f : Context → Context) : State :=
  match s.context k with
  | some x => s.setContext k (some (f x))
  | none => s

/-- Adds a step to the work pending. Messages of one class between two identities keep their order (R43). -/
def State.later (s : State) (e : Ev) : State := { s with agenda := s.agenda ++ [e] }

/-- Adds a step unless it is pending already. -/
def State.laterOnce (s : State) (e : Ev) : State := if s.agenda.contains e then s else s.later e

/-- The next order number of uses. -/
def State.tickClock (s : State) : State := { s with clock := s.clock + 1 }

/-- An S-cycle and an F-cycle pass: the S-clock stops in LS3 and LS4, and the front end is off in LS4 (R20, R24). -/
def State.tickCycles (s : State) : State :=
  { s with sclk := if s.pow.dev = .ls0 then s.sclk + 1 else s.sclk
           fclk := if s.pow.dev = .ls4 then s.fclk else s.fclk + 1 }

/-- Draws the next free value's number (Sys2Proof/Config.lean). -/
def State.draw (s : State) : State := { s with free := s.free + 1 }

/-! ## Topology (R40, R66, R204) -/

/-- The region number of the standby contexts (R132). -/
def standbyRegion : Nat := 0x100

def regionOfCk (ck : Nat) : Nat := ck / 64
def rcOfCk (ck : Nat) : Nat := ck % 64
def ckOfTk (tk : Nat) : Nat := tk / 16
def slotOfTk (tk : Nat) : Nat := tk % 16
def mkCk (region rc : Nat) : Nat := region * 64 + rc
def mkTk (ck slot : Nat) : Nat := ck * 16 + slot

/-- The key of the partition context that holds a context core. -/
def ctxKeyOfCk (ck : Nat) : Nat := ck / 4

/-- The cluster on which a context core's partition is resident. -/
def State.clusterOfCk (s : State) (ck : Nat) : Option Nat :=
  if regionOfCk ck = standbyRegion then
    (if (s.clu (rcOfCk ck / 4)).resident.isNone then some (rcOfCk ck / 4) else none)
  else match s.context (ctxKeyOfCk ck) with
    | some c => c.cluster
    | none => none

/-- The logical core where a context core is, its host by R146 if it has one; `none` while it is not resident. -/
def State.coreOfCk (s : State) (ck : Nat) : Option Nat :=
  match s.clusterOfCk ck with
  | some c => some ((s.cx ck).host.getD (4 * c + ck % 4))
  | none => none

/-- The context core whose own place is a logical core: the resident partition's, else the standby context's. -/
def State.ckOfCore (s : State) (c : Nat) : Option Nat :=
  match (s.clu (c / 4)).resident with
  | some k => some (4 * k + c % 4)
  | none => if s.sched.standby then some (mkCk standbyRegion c) else none

/-- The context cores served by a logical core: its own and those it hosts (R146). -/
def State.cksOfCore (s : State) (c : Nat) : List Nat :=
  match (s.clu (c / 4)).resident with
  | some k => (List.range 4).filterMap fun j => if s.coreOfCk (4 * k + j) = some c then some (4 * k + j) else none
  | none => if s.sched.standby then [mkCk standbyRegion c] else []

/-- The service thread of a context core runs in slot 15 (R131, R132). -/
def isService (tk : Nat) : Bool := slotOfTk tk == 15

/-- Addresses of firmware-mode threads and of service threads are physical (R66). -/
def untranslated (tk : Nat) (t : Thread) : Bool := isService tk || t.priv == 2

/-- The PASID of a context core's region. -/
def State.pasidOf (s : State) (ck : Nat) : Option Nat := (s.region (regionOfCk ck)).map Region.pasid

/-- The region's effective values; the defaults where the region does not exist. -/
def State.valsOf (s : State) (ck : Nat) : RcbVals :=
  match s.region (regionOfCk ck) with
  | some r => r.vals
  | none => {}

/-- The number of cores of a region (R204). -/
def State.ncores (s : State) (ck : Nat) : Nat := if regionOfCk ck = standbyRegion then 0 else 4 * (s.valsOf ck).parts

/-- Identity of a core agent and of a home (R40). -/
def homeId (sl : Nat) : Nat := 0x80 + sl

/-- R149: the home slice of a line, from physical address bits [47:6]. -/
def homeOf (line : Nat) : Nat :=
  Nat.xor (bits line 0 6) (Nat.xor (bits line 6 6) (Nat.xor (bits line 12 6) (Nat.xor (bits line 18 6)
    (Nat.xor (bits line 24 6) (Nat.xor (bits line 30 6) (bits line 36 6))))))

/-! ## Registers (R6) -/

/-- g0 reads as zero. -/
def Thread.rg (t : Thread) (r : Nat) : Word := if r = 0 then 0 else Tbl.get 0 t.g r
/-- A write to g0 is discarded. -/
def Thread.wg (t : Thread) (r : Nat) (x : Word) : Thread := if r = 0 then t else { t with g := Tbl.put 0 t.g r x }
def Thread.rv (t : Thread) (r : Nat) : Vec := Tbl.get 0 t.v r
def Thread.wv (t : Thread) (r : Nat) (x : Vec) : Thread := { t with v := Tbl.put 0 t.v r x }
/-- m0 reads as all ones. -/
def Thread.rm (t : Thread) (r : Nat) : Word := if r = 0 then BitVec.allOnes 64 else Tbl.get 0 t.m r
/-- A write to m0 is discarded. -/
def Thread.wm (t : Thread) (r : Nat) (x : Word) : Thread := if r = 0 then t else { t with m := Tbl.put 0 t.m r x }

/-! ## Port and flume registers (R199, R211) -/

def Thread.portEn (t : Thread) (k : Nat) : Bool := t.portcfg.getLsbD k
def Thread.portOut (t : Thread) (k : Nat) : Bool := t.portcfg.getLsbD (4 + k)
/-- DCk and DTk of PORTCFG (R199). -/
def Thread.portDc (t : Thread) (k : Nat) : Nat := field t.portcfg (8 + 12 * k) 6
def Thread.portDt (t : Thread) (k : Nat) : Nat := field t.portcfg (14 + 12 * k) 4
/-- The port that a g register names while enabled. -/
def Thread.portOf (t : Thread) (r : Nat) : Option Nat :=
  if 28 ≤ r ∧ t.portEn (r - 28) then some (r - 28) else none
/-- The bound flume that a v register names. -/
def Thread.flumeOf (t : Thread) (r : Nat) : Option (Nat × Flume) :=
  if 24 ≤ r then (t.flumes.find? fun e => e.1 == r - 24).map fun e => (r - 24, e.2) else none

/-! ## Cause codes (R229) -/

namespace Cause
def illegalOp : Nat := 0x01
def bundle : Nat := 0x02
def priv : Nat := 0x03
def align : Nat := 0x04
def access : Nat := 0x05
def pageFail : Nat := 0x06
def syncTimeout : Nat := 0x07
def retEmpty : Nat := 0x08
def stackLimit : Nat := 0x09
def fp : Nat := 0x0A
def matrixFmt : Nat := 0x0B
def zeroPivot : Nat := 0x0C
def notPd : Nat := 0x0D
def heartbeat : Nat := 0x0E
def barrier : Nat := 0x0F
def poison : Nat := 0x10
def capsule : Nat := 0x11
def port : Nat := 0x12
def footprint : Nat := 0x13
def engine : Nat := 0x14
def software : Nat := 0x15
def extensionAbsent : Nat := 0x16
def factNonfinite : Nat := 0x17
end Cause

/-! ## Errors of units (R29, R31) -/

/-- Appends a record to the ring of 256 (R31). -/
def State.logError (s : State) (cls : Nat) (u : HwUnit) (addr : Word) : State :=
  { s with ctl := { s.ctl with
      errors := keepLast 256 (s.ctl.errors ++ [⟨cls, u, addr, s.ctl.errSeq⟩])
      errSeq := s.ctl.errSeq + 1
      wake := [true, true] } }

/-- An event that wakes a control core (R32). -/
def State.wakeControl (s : State) : State := { s with ctl := { s.ctl with wake := [true, true] } }

/-! ## Stopping threads and fault events (R143, R144) -/

/-- A thread is in a slot (R135). -/
def Place.slotted : Place → Bool
  | .inSlot _ => true
  | .saved | .absent => false

/-- The linear index of a thread (R131, R201). -/
def Thread.lin (t : Thread) : Nat := field t.geom2 0 32

/-- Cancels the cards of a thread that have not started (R143). -/
def cancelCards (tk : Nat) (x : CtxCore) : CtxCore :=
  { x with cards := x.cards.filter fun c => c.tk != tk || c.started }

/-- Puts a dead letter in progress at a context core (R279). -/
def State.startDead (s : State) (ck : Nat) (d : DeadLetter) : State :=
  let id := s.clock
  (s.tickClock.modCx ck fun x => { x with dead := x.dead ++ [{ d with id := id }] }).later (.deadLetter ck id)

/-- The dead letter of a landing slot: the slot enters DEADWRITE (R277). -/
def State.deadSlot (s : State) (ck k : Nat) (d : DeadLetter) : State :=
  (s.modCx ck fun x => { x with slots := Tbl.upd {} x.slots k fun sl => { sl with st := .deadwrite, holder := none } }).startDead ck
    { d with slot := some k }

/-- Dead-letters the capsule that a thread holds, with the thread's cause and PC (R279, R280). -/
def State.deadLetterHeld (s : State) (tk reason cause : Nat) (pc val : Word) (code : Nat) : State :=
  match s.thr tk with
  | some t =>
    match t.holds with
    | some k =>
      let d : DeadLetter := { reason := reason, cause := cause, holder := slotOfTk tk, code := code, pc := pc, val := val, lin := t.lin }
      (s.deadSlot (ckOfTk tk) k d).modThr tk fun t => { t with holds := none }
    | none => s
  | none => s

/-- Stops a thread: no later send of it leaves, its unstarted cards are cancelled, and its capsule is dead-lettered. A message that its
interface holds back is committed and goes on (R28, R143, R144). -/
def State.stopThread (s : State) (tk cause : Nat) : State :=
  let s := match s.thr tk with
    | some t => s.deadLetterHeld tk 1 cause t.pc 0 0
    | none => s
  let s := s.modThr tk fun t => { t with st := .stopped, fenced := true }
  s.modCx (ckOfTk tk) fun x => { cancelCards tk x with waiters := x.waiters.filter (· != tk) }

/-- The user threads of a region, in order of key. -/
def State.regionThreads (s : State) (r : Nat) : List Nat :=
  s.threads.filterMap fun e => if regionOfCk (ckOfTk e.1) = r ∧ !isService e.1 then some e.1 else none

/-- Dead-letters the LANDED capsules of a context core with reason REGION (R279, R284). -/
def State.deadLetterLanded (s : State) (ck : Nat) : State :=
  foldS (fun e s =>
    if e.2.st = .landed then
      s.deadSlot ck e.1 { reason := 7, cause := Cause.capsule }
    else s) (s.cx ck).slots s

/-- The 64-byte fault record (R144). -/
def faultBytes (f : FaultRec) (rcb fcount : Nat) : List Byte :=
  leBytes 1 f.cause ++ leBytes 1 f.kind ++ leBytes 2 0 ++ leBytes 4 f.lin ++ leBytes 8 f.pc.toNat ++
    leBytes 8 f.val.toNat ++ leBytes 8 rcb ++ leBytes 8 fcount ++ leBytes 24 0

/-- Queues a write of the front end; it is performed once its translation is at hand (R122). -/
def State.feWrite (s : State) (q : Option Nat) (space : Space) (va : Nat) (data : List Byte) : State :=
  { s with fe := { s.fe with writes := s.fe.writes ++ [{ space := space, va := va, data := data, q := q }] } }

/-- The front end's write of a hw field of a region's RCB (R122). -/
def State.rcbWrite (s : State) (r : Nat) (off : Nat) (data : List Byte) : State :=
  match s.region r with
  | some x => s.feWrite none (.pasid x.pasid) (x.rcb + off) data
  | none => s

/-- Code of a region's state in STATE (R122). -/
def RState.code : RState → Nat
  | .pending => 0 | .runnable => 1 | .ended => 2 | .faulted => 3

/-- The front end's interface injects NOTICE, and counts it for its region (R144, R167). -/
def State.sendNotice (s : State) (r rc : Nat) (rec_ : List Byte) : State :=
  { s.later (.notice { src := 0xC0, dst := (s.coreOfCk (mkCk r rc)).getD 0, region := r, ck := mkCk r rc, data := some (vecOfBytes rec_) }) with
    fe := { s.fe with injected := Tbl.upd 0 s.fe.injected r (· + 1) } }

/-- Sets a region's state and writes STATE and CAUSE (R122). -/
def State.setRegionState (s : State) (r : Nat) (st : RState) (cause : Nat) : State :=
  (s.modRegion r fun x => { x with st := st, cause := cause }).rcbWrite r 0x50 (leBytes 2 (st.code + 256 * cause))

/-- Makes a region FAULTED: every thread stops and its capsules are dead-lettered (R144, R284), and a scheduling point is due (R127). A
region that is FAULTED already keeps the CAUSE of the event that made it so (R122). -/
def State.faultRegion (s : State) (r cause : Nat) : State :=
  let s := { s with sched := { s.sched with due := true } }
  let s := foldS (fun tk s => s.stopThread tk cause) (s.regionThreads r) s
  let s := foldS (fun rc s => s.deadLetterLanded (mkCk r rc)) (List.range 64) s
  (if (s.region r).any fun x => x.st == .faulted then s else s.setRegionState r .faulted cause).later (.regionEnd r)

/-- A fault event (R144): the record in the fault ring, notices, and the fault task; a region without a handler becomes
FAULTED and passes the event to its parent as kind 5. `fuel` bounds the levels of regions (R124 allows 8). -/
def State.faultEventAux : Nat → State → Nat → FaultRec → Nat → State
  | 0, s, _, _, _ => s
  | fuel + 1, s, r, f, rcb =>
    match s.region r with
    | none => s
    | some x =>
      let fcount := x.fcount + 1
      let ring := x.vals.frva != 0
      let rec_ := faultBytes f rcb fcount
      let s := if ring then s.feWrite none (.pasid x.pasid) (x.vals.frva + 64 * (x.frhead % 2 ^ x.vals.frlog)) rec_ else s
      let frhead := if ring then x.frhead + 1 else x.frhead
      let s := s.modRegion r fun x => { x with fcount := fcount, frhead := frhead }
      let s := if ring then s.rcbWrite r 0x3C (leBytes 4 frhead) else s
      let s := s.rcbWrite r 0x54 (leBytes 4 fcount)
      let s := foldS (fun rc s =>
        if x.vals.fnmask.getLsbD rc ∧ rc < 4 * x.vals.parts then s.sendNotice r rc rec_ else s) (List.range 64) s
      if x.vals.fdom ∧ x.vals.fhpc ≠ 0 then
        let h := mkCk r 0
        if (s.cx h).faultTasks.length < 8 then
          (s.modCx h fun y => { y with faultTasks := y.faultTasks ++ [f] }).laterOnce (.dispatch h)
        else s.modRegion r fun x => { x with heldTasks := x.heldTasks ++ [f] }
      else
        let s := s.faultRegion r f.cause
        match x.parent with
        | some p => State.faultEventAux fuel s p { f with kind := 5 } rcb
        | none => s

/-- A fault event in a region (R144). -/
def State.faultEvent (s : State) (r : Nat) (f : FaultRec) : State :=
  match s.region r with
  | some x => State.faultEventAux 10 s r f x.rcb
  | none => s

/-! ## Traps (R228 to R231) -/

/-- TRAPSTATUS after a trap (R228). -/
def trapStatus (mode : BitVec 2) (wordBit defer : Bool) : Word :=
  word (mode.toNat + 4 + 8 * bitOf wordBit + 16 * bitOf defer)

/-- TRAPSTATUS.INH. -/
def Thread.inh (t : Thread) : Bool := t.trapstatus.getLsbD 2

/-- The reservation epoch advances and the link is cleared (R62, R349). -/
def Thread.bumpEpoch (t : Thread) : Thread := { t with epoch := t.epoch + 1, link := none }

/-- Trap entry, steps 2 to 7 of R228, for a thread whose trap can be taken. -/
def Thread.enterTrap (t : Thread) (cause val pc : Word) (wordBit defer : Bool) : Thread :=
  { t.bumpEpoch with
    trappc := pc, trapcause := cause, trapval := val, trapstatus := trapStatus t.priv wordBit defer,
    pc := t.trapvec, st := .ready, waitcount := 0, park := none, x := {}, btag := none }

/-- A trap cannot be taken with INH = 1 or TRAPVEC = 0 (R228). -/
def Thread.canTrap (t : Thread) : Bool := !t.inh && t.trapvec != 0

/-- Takes a trap (R228): the handler is entered, or, where it cannot be taken, the thread stops with its context kept and
a fault event of kind 0 arises. `pc` is the unit that TRAPPC names. -/
def State.takeTrap (s : State) (tk : Nat) (cause : Nat) (val pc : Word) (wordBit defer : Bool) : State :=
  match s.thr tk with
  | none => s
  | some t =>
    if t.canTrap then s.setThr tk (t.enterTrap (word cause) val pc wordBit defer)
    else
      let s := (s.deadLetterHeld tk 1 cause pc val 0).modThr tk fun t => { t with st := .stopped }
      s.faultEvent (regionOfCk (ckOfTk tk)) ⟨cause, 0, t.lin, pc, val⟩

/-- Trap return (R230): PC := TRAPPC, PRIV := PMODE, INH := 0. -/
def Thread.trapReturn (t : Thread) : Thread :=
  { t with pc := t.trappc, priv := t.trapstatus.extractLsb' 0 2, trapstatus := t.trapstatus &&& ~~~ 4 }

/-- INTPEND (R231): SLUICE views the recorded-wake set, TIMER is its own bit. -/
def Thread.intpend (t : Thread) : Word := word (2 * bitOf (t.wakes != 0) + 4 * bitOf t.timer)

/-- The source that an interrupt would be taken for, SLUICE first (R231). -/
def Thread.interrupt? (t : Thread) : Option Nat :=
  if t.st = .ready ∧ t.inten.getLsbD 0 ∧ t.canTrap then
    (if t.wakes != 0 ∧ t.inten.getLsbD 1 then some 1
     else if t.timer ∧ t.inten.getLsbD 2 then some 2 else none)
  else none

/-- Interrupt entry (R228, R231): TRAPCAUSE bit 63 and the source; TRAPVAL the recorded-wake set for SLUICE. -/
def Thread.enterInterrupt (t : Thread) (src : Nat) : Thread :=
  t.enterTrap (word (2 ^ 63 + src)) (if src = 1 then t.wakes.setWidth 64 else 0) t.pc false false

end Sys2Proof.Machine
end

