-- ==== Sys2Proof/Machine/Results.lean ====
section
/-!
DEFINITION. Waking threads, user messages leaving a thread (R324, R325, R329) and pending results: how a result that took
its time is bound to its register (R196, R198).
-/

namespace Sys2Proof.Machine

/-! ## Waking (R135) -/

/-- Wakes a thread: READY in its slot; recorded while it is saved or being saved (R135). -/
def Thread.woken (t : Thread) : Thread :=
  match t.place with
  | .inSlot _ => if t.st = .stopped then t else { t with st := .ready }
  | _ => { t with wakeRec := true }

def State.wake (s : State) (tk : Nat) : State := s.modThr tk Thread.woken

/-! ## User messages (R324, R325) -/

/-- The delivery field of R324. -/
def deliveryField (thread : Nat) (any : Bool) (ch : Nat) : Word := word (thread + 16 * bitOf any + 32 * ch)

def msgThread (m : Msg) : Nat := field m.delivery 0 4
def msgAny (m : Msg) : Bool := m.delivery.getLsbD 4
def msgCh (m : Msg) : Nat := field m.delivery 5 3

/-- A USER message from a thread to a region-relative core (R325). -/
def State.userMsg (s : State) (tk dstRc thread : Nat) (any : Bool) (ch : Nat) (payload : Vec) (len : Nat) : Msg :=
  let ck := ckOfTk tk
  let r := regionOfCk ck
  { src := (s.coreOfCk ck).getD 0, dst := (s.coreOfCk (mkCk r dstRc)).getD 0, len := len, data := some payload,
    thread := slotOfTk tk, region := r, ck := mkCk r dstRc, srcCk := ck, delivery := deliveryField thread any ch }

/-- Counts a message injected by a core's interface for a region (R167). -/
def State.countInj (s : State) (core region : Nat) : State :=
  s.modCore core fun c => { c with injected := Tbl.upd 0 c.injected region (· + 1) }

/-- Counts a message delivered at a core's interface for a region (R167). -/
def State.countDel (s : State) (core region : Nat) : State :=
  s.modCore core fun c => { c with delivered := Tbl.upd 0 c.delivered region (· + 1) }

/-- Commits a message in the thread's send buffer and injects it whole (R157, R325). A fenced thread sends nothing (R143). -/
def State.commit (s : State) (tk : Nat) (e : Ev) (region : Nat) : State :=
  match s.thr tk with
  | some t =>
    if t.fenced then s
    else (s.countInj ((s.coreOfCk (ckOfTk tk)).getD 0) region).later e
  | none => s

/-- The destination word of port k, as R324 lays one out (R329). -/
def Thread.portWord (t : Thread) (k : Nat) : Word := word (t.portDc k + 64 * t.portDt k)

/-- A write of an out port: a message as SENDW sends one, with ANY = 0 and CH = k + 1 (R329). -/
def State.sendPort (s : State) (tk k : Nat) (x : Word) : State :=
  match s.thr tk with
  | some t =>
    let m := s.userMsg tk (t.portDc k) (t.portDt k) false (k + 1) (x.setWidth 512) 8
    s.commit tk (.userMessage m) m.region
  | none => s

/-! ## Register writes with their aliases -/

/-- Writes a g register; an enabled out port sends instead (R329). -/
def State.writeG (s : State) (tk r : Nat) (x : Word) : State :=
  match s.thr tk with
  | some t =>
    match t.portOf r with
    | some k => if t.portOut k then s.sendPort tk k x else s.setThr tk (t.wg r x)
    | none => s.setThr tk (t.wg r x)
  | none => s

/-- Pushes an entry on an out-flume's queue; the transfer unit writes it in its turn (R212). -/
def Thread.pushFlume (t : Thread) (k : Nat) (x : Vec) : Thread :=
  { t with flumes := t.flumes.map fun e => if e.1 = k then (k, { e.2 with queue := e.2.queue ++ [x], used := e.2.used + 1 }) else e }

/-- Writes a v register; a bound out-flume takes an entry instead (R212). -/
def State.writeV (s : State) (tk r : Nat) (x : Vec) : State :=
  match s.thr tk with
  | some t =>
    match t.flumeOf r with
    | some (k, f) => if f.out then (s.setThr tk (t.pushFlume k x)).laterOnce (.flumeTransfer tk k) else s.setThr tk (t.wv r x)
    | none => s.setThr tk (t.wv r x)
  | none => s

def State.writeM (s : State) (tk r : Nat) (x : Word) : State := s.modThr tk fun t => t.wm r x

/-! ## Pending results (R196, R198) -/

/-- All pieces of a pending result are at hand. -/
def Pending.complete (p : Pending) : Bool := p.lanes.all Lane.done

/-- A condition found with the result waits to be taken (R198, R210, R426). -/
def Pending.bad (p : Pending) : Bool := p.poison.isSome || p.fault.isSome

/-- Writes the result buffer to its register. -/
def State.bindFin (s : State) (tk : Nat) (f : Fin_) (buf : Vec) : State :=
  match f with
  | .gz r n => s.writeG tk r (word (bytesAt buf 0 n))
  | .gs r n => s.writeG tk r (sext (8 * n) (bytesAt buf 0 n))
  | .vec r => s.writeV tk r buf
  | .flume k => s.modThr tk fun t => t.pushFlume k buf
  | .codetab => s.modThr tk fun t => { t with codetab0 := word (bytesAt buf 0 8), codetab1 := word (bytesAt buf 8 8) }
  | .none => s

/-- A thread that waited for a result leaves LONG or SYNC (R135, R196). -/
def Thread.resultBound (t : Thread) : Thread :=
  if t.st = .long ∨ t.st = .sync then t.woken else t

/-- What a unit held back with a pending result leaves now: the unit stands (R195). -/
def State.releaseHeld (s : State) (tk : Nat) (p : Pending) : State :=
  match p.undo with
  | none => s
  | some u =>
    let s := foldS (fun (e : Nat × Vec) (s : State) => s.writeV tk e.1 e.2) u.push s
    let s := foldS (fun (m : Msg) (s : State) => s.commit tk (.userMessage m) m.region) u.sends s
    s.modThr tk fun t => { t with pend := mapIf (fun q => q.id == p.id) (fun q => { q with undo := none }) t.pend }

/-- Binds a complete result: the register is written and the entry ends. A result with a condition stays until the
thread next needs it or its window ends (R198). -/
def State.bindPend (s : State) (tk id : Nat) : State :=
  match s.thr tk with
  | none => s
  | some t =>
    match t.pend.find? fun p => p.id == id with
    | none => s
    | some p =>
      if !p.complete then s
      else if p.bad then
        let s := s.modThr tk Thread.resultBound
        if t.st = .long ∨ t.st = .sync then s.later (.deferredPoison tk) else s
      else
        let s := (s.releaseHeld tk p).modThr tk fun t => { t with pend := t.pend.filter fun q => q.id != id }
        (s.bindFin tk p.fin p.buf).modThr tk Thread.resultBound

/-- The data of one piece arrives: `data` holds it in its low bytes. POISON names the lowest poisoned piece (R342). -/
def Pending.fill (p : Pending) (i : Nat) (data : Vec) (poison : Option Word) : Pending :=
  match p.lanes[i]? with
  | some l =>
    let lanes := p.lanes.set i { l with done := true, bad := poison }
    { p with lanes := lanes
             buf := if l.len = 64 ∧ l.at_ = 0 then data else putBytes p.buf l.at_ l.len (bytesAt data 0 l.len)
             poison := match lanes.findSome? Lane.bad with | some x => some x | none => p.poison }
  | none => p

/-- Fills piece `i` of a pending result and binds the result once complete. -/
def State.fillLane (s : State) (tk id i : Nat) (data : Vec) (poison : Option Word) : State :=
  (s.modThr tk fun t => { t with pend := mapIf (fun p => p.id == id) (fun p => p.fill i data poison) t.pend }).bindPend tk id

/-- The pending result and piece that carry a request tag. -/
def Thread.findTx (t : Thread) (txid : Nat) : Option (Pending × Nat) :=
  t.pend.findSome? fun p =>
    (p.lanes.findIdx? fun l => l.txid == txid && !l.done && l.txid != 0).map fun i => (p, i)

/-- A reply with a request tag reaches a thread: its piece is filled. -/
def State.replyLane (s : State) (tk txid : Nat) (data : Vec) (poison : Option Word) : State :=
  match s.thr tk with
  | some t =>
    match t.findTx txid with
    | some (p, i) => s.fillLane tk p.id i data poison
    | none => s
  | none => s

/-- The thread on a core that waits for a request tag. -/
def State.txOwner (s : State) (txid : Nat) (cks : List Nat) : Option Nat :=
  s.threads.findSome? fun e =>
    match e.2 with
    | some t => if (cks.contains t.roster || cks.contains (ckOfTk e.1)) && (t.findTx txid).isSome then some e.1 else none
    | none => none

/-- A fresh request tag of a core's interface; tags are never zero and are used in rotation. -/
def State.newTx (s : State) (core : Nat) : State × Nat :=
  let n := (s.core core).nextTx % 4095 + 1
  (s.modCore core fun c => { c with nextTx := n }, n)

/-- A result is added to a thread's pending results (R196). `la` is the lookahead; the words of the unit itself do not
count against it. -/
def State.addPend (s : State) (tk la : Nat) (p : Pending) : State × Nat :=
  let id := s.clock
  let n := if s.unit.phase = .lone then 1 else 2
  ((s.tickClock).modThr tk fun t => { t with pend := t.pend ++ [{ p with id := id, window := la + n }] }, id)

end Sys2Proof.Machine
end

