-- ==== Sys2Proof/Machine/Pool.lean ====
section
/-!
DEFINITION. The pool of a context core (R202 to R205): its layout, scratchpad addresses, full/empty words (R208), barriers
(R218) and the sluice board (R220 to R223).
-/

namespace Sys2Proof.Machine

/-! ## Layout (R202, R203) -/

/-- The size of a granule in bytes. -/
def granule : Nat := 32768

def pwTotg (p : Word) : Nat := field p 0 6
def pwRfg (p : Word) : Nat := field p 6 2
def pwAccg (p : Word) : Nat := field p 8 6
def pwSlots (p : Word) : Nat := field p 16 3
def pwSla (p : Word) : Nat := field p 20 4
/-- SPG (R203). -/
def pwSpg (p : Word) : Nat := pwTotg p - pwRfg p - pwAccg p - pwSlots p

/-- The partition word of a context core's region. -/
def State.poolwordOf (s : State) (ck : Nat) : Word :=
  match s.region (regionOfCk ck) with
  | some r => r.poolword
  | none => 0

/-- The end of the scratchpad, where landing slot 0 begins. -/
def State.slotBase (s : State) (ck : Nat) : Nat := granule * pwSpg (s.poolwordOf ck)
/-- The end of the scratchpad and landing slots. -/
def State.spLimit (s : State) (ck : Nat) : Nat := s.slotBase ck + granule * pwSlots (s.poolwordOf ck)
/-- The first byte of tile `n` of the accumulator store. -/
def State.tileBase (s : State) (ck n : Nat) : Nat := s.spLimit ck + 4096 * n
/-- The number of accumulator tiles. -/
def State.tileCount (s : State) (ck : Nat) : Nat := 8 * pwAccg (s.poolwordOf ck)
/-- The end of the barrier table. -/
def barTableEnd : Nat := 0x2000
/-- The slot-local area of a slot: its first byte and its size (R203). -/
def State.slaSize (s : State) (ck : Nat) : Nat := 128 * pwSla (s.poolwordOf ck)
def State.slaBase (s : State) (ck slot : Nat) : Nat := barTableEnd + slot * s.slaSize ck
/-- The first byte of general scratchpad (R203). -/
def State.generalBase (s : State) (ck : Nat) : Nat := barTableEnd + 16 * s.slaSize ck

/-- The landing slot that an offset lies in. -/
def State.slotOfOff (s : State) (ck off : Nat) : Option Nat :=
  if s.slotBase ck ≤ off ∧ off < s.spLimit ck then some ((off - s.slotBase ck) / granule) else none

/-! ## Scratchpad addresses (R204) -/

/-- An address whose bits [63:30] are all ones. -/
def isSp (a : Word) : Bool := field a 30 34 == 2 ^ 34 - 1

/-- The context core and pool offset that a scratchpad address names, for a thread of home core `ck`; `none` where R204
raises ACCESS for its form, its reserved bits, its core index or its offset. -/
def State.spDecode (s : State) (ck : Nat) (a : Word) : Option (Nat × Nat) :=
  let off := field a 0 21
  let form := field a 28 2
  let target : Option Nat :=
    if form = 0 then (if field a 21 7 = 0 then some ck else none)
    else if form = 1 then (if field a 23 5 = 0 then some (4 * (ck / 4) + field a 21 2) else none)
    else if form = 2 then
      (if field a 27 1 = 0 ∧ field a 21 6 < s.ncores ck then some (mkCk (regionOfCk ck) (field a 21 6)) else none)
    else none
  match target with
  | some c => if off < s.spLimit c then some (c, off) else none
  | none => none

/-- The device-form address of a pool offset (R204). -/
def deviceForm (ck off : Nat) : Word := word ((2 ^ 34 - 1) * 2 ^ 30 + 2 * 2 ^ 28 + rcOfCk ck * 2 ^ 21 + off)

/-- A context core's pool is served by the core on which the current unit issues. -/
def State.isLocal (s : State) (ck : Nat) : Bool := s.coreOfCk ck == some s.unit.core

/-! ## Pool bytes (R184, R198) -/

/-- `n` bytes of a pool from an offset, as a number. -/
def State.poolRead (s : State) (ck off n : Nat) : Nat :=
  leNat ((List.range n).map fun i => Tbl.get 0 (s.cx ck).pool (off + i))

/-- The first poisoned word among `n` bytes from an offset. -/
def State.poolPoison (s : State) (ck off n : Nat) : Option Nat :=
  (s.cx ck).poison.findSome? fun e => if off / 8 ≤ e.1 ∧ e.1 ≤ (off + n - 1) / 8 then some (8 * e.1) else none

/-- The bytes of a list written at an offset. -/
def putList (t : Tbl Byte) : Nat → List Byte → Tbl Byte
  | _, [] => t
  | off, b :: l => putList (Tbl.put 0 t off b) (off + 1) l

/-- Writes bytes to a pool. A write of a whole 8-byte word clears its poison (R30 for lines). -/
def CtxCore.poolWrite (x : CtxCore) (off : Nat) (l : List Byte) : CtxCore :=
  { x with pool := putList x.pool off l
           poison := x.poison.filter fun e => !(off ≤ 8 * e.1 && 8 * e.1 + 8 ≤ off + l.length) }

def State.poolWrite (s : State) (ck off : Nat) (l : List Byte) : State := s.modCx ck fun x => x.poolWrite off l

/-- Marks the words of a byte range poisoned. -/
def State.poolMark (s : State) (ck off n : Nat) : State :=
  if n = 0 then s
  else s.modCx ck fun x => { x with
    poison := (List.range ((off + n - 1) / 8 + 1 - off / 8)).foldl (fun p i => Tbl.put false p (off / 8 + i) true) x.poison }

/-! ## Replies to a parked or a remote access -/

/-- The answer to a request of R209: a local requester's piece is filled, a remote one is answered by SPDAT, with a payload where the
request returns a value (R156). -/
def State.spReply (s : State) (ck off tk : Nat) (remote : Bool) (src srcCk txid : Nat) (x : Option Word) (stat : Nat) (full : Bool)
    (poison : Bool) : State :=
  if remote then
    s.later (.spdat { src := (s.coreOfCk ck).getD 0, dst := src, txid := txid, data := x.map (·.setWidth 512), len := 8,
                      stat := stat, full := full, poison := poison, poff := off, ck := srcCk, srcCk := ck, region := regionOfCk ck })
  else s.replyLane tk txid ((x.getD 0).setWidth 512) (if poison then some (deviceForm ck (off / 8 * 8)) else none)

/-! ## Full/empty words (R208) -/

def State.fullBit (s : State) (ck off : Nat) : Bool := Tbl.get false (s.cx ck).full (off / 8)
def State.setFull (s : State) (ck off : Nat) (b : Bool) : State :=
  s.modCx ck fun x => { x with full := Tbl.put false x.full (off / 8) b }

/-- Completes a parked request, with a value where it returns one. -/
def State.completeParked (s : State) (ck : Nat) (q : Parked) (x : Option Word) (poison : Bool) : State :=
  s.spReply ck q.off q.tk q.remote q.src q.srcCk q.txid x 0 (s.fullBit ck q.off) poison

/-- One pass of Settle over the requests parked at a word, oldest first: the first request that can proceed does, and is
taken off the wait list; LDFF requests are all answered on the way. The flag says that the bit changed. -/
def State.settlePass (s : State) (ck w : Nat) : List Parked → List Parked → State × List Parked × Bool
  | [], kept => (s, kept.reverse, false)
  | q :: l, kept =>
    if q.off / 8 ≠ w then State.settlePass s ck w l (q :: kept)
    else
      let data := word (s.poolRead ck (8 * w) 8)
      let bad := (s.poolPoison ck (8 * w) 8).isSome
      match q.kind, s.fullBit ck (8 * w) with
      | .ldff, true => State.settlePass (s.completeParked ck q (some data) bad) ck w l kept
      | .ldfe, true => ((s.completeParked ck q (some data) bad).setFull ck (8 * w) false, kept.reverse ++ l, true)
      | .stfe, false =>
        let s := (s.poolWrite ck (8 * w) (leBytes 8 q.value.toNat)).setFull ck (8 * w) true
        (s.completeParked ck q none false, kept.reverse ++ l, true)
      | _, _ => State.settlePass s ck w l (q :: kept)

/-- Settle (R208): passes until none moves. Every pass that moves takes a request off the list. -/
def State.settleN (s : State) (ck w : Nat) : Nat → State
  | 0 => s
  | fuel + 1 =>
    let r := State.settlePass s ck w (s.cx ck).parked []
    let s' := r.1.modCx ck fun x => { x with parked := r.2.1 }
    if r.2.2 then State.settleN s' ck w fuel else s'

def State.settle (s : State) (ck off : Nat) : State := s.settleN ck (off / 8) ((s.cx ck).parked.length + 1)

/-- Appends a synchronising access to its word's wait list and settles the word (R343). -/
def State.park (s : State) (ck : Nat) (q : Parked) : State :=
  (s.modCx ck fun x => { x with parked := x.parked ++ [q] }).settle ck q.off

/-- STFF: the write that never parks. -/
def State.stff (s : State) (ck off : Nat) (x : Word) : State :=
  ((s.poolWrite ck off (leBytes 8 x.toNat)).setFull ck off true).settle ck off

/-! ## The sluice board (R220 to R223) -/

/-- A counter of the board after `n` pulses: COUNT saturates, and SAT records that it has. -/
def countPulse (c : Word) (n : Nat) : Word :=
  if 0xFFFF < field c 0 16 + n then setField (setField c 0 16 0xFFFF) 32 1 1 else setField c 0 16 (field c 0 16 + n)

/-- A pulse of source `src` with selector value `sel` matches a counter (R220): SEL 0xFFF matches any tag of source 1, and
is the selector of the sources that have none. -/
def pulseMatches (c : Word) (src sel : Nat) : Bool :=
  field c 16 4 == src && (field c 20 12 == sel || (src == 1 && field c 20 12 == 0xFFF))

/-- A term is true (R221). -/
def termTrue (x : CtxCore) (t : Nat) : Bool :=
  let w := Tbl.get 0 x.sbterm t
  let used (j : Nat) : Bool := field w (16 * j + 5) 1 == 1
  let holds (j : Nat) : Bool := decide (field w (16 * j + 6) 10 ≤ field (Tbl.get 0 x.sbcnt (field w (16 * j) 5)) 0 16)
  ((List.range 4).any used) && (List.range 4).all fun j => !used j || holds j

/-- The true term in the lowest slot of an outlet (R223). -/
def outletTerm (x : CtxCore) (o : Nat) : Option Nat :=
  let w := Tbl.get 0 x.sbout o
  (List.range 4).findSome? fun j =>
    if field w (6 * j + 5) 1 = 1 ∧ termTrue x (field w (6 * j) 5) then some (field w (6 * j) 5) else none

/-- The first card of a held queue. -/
def heldHead (x : CtxCore) (h : Nat) : Option Card := x.cards.find? fun c => c.held == some h

/-- The term for which an outlet fires now, if it does (R223): ACT is one of the actions and a launch finds a card. -/
def outletFires (x : CtxCore) (o : Nat) : Option Nat :=
  let w := Tbl.get 0 x.sbout o
  let act := field w 24 3
  if act = 0 ∨ 3 < act then none
  else if act = 1 ∧ (heldHead x (field w 32 10)).isNone then none
  else outletTerm x o

/-- Subtracts a term's thresholds from its counters (R223). -/
def subtractTerm (x : CtxCore) (t : Nat) : CtxCore :=
  let w := Tbl.get 0 x.sbterm t
  (List.range 4).foldl (fun x j =>
    if field w (16 * j + 5) 1 = 1 then
      let i := field w (16 * j) 5
      let c := Tbl.get 0 x.sbcnt i
      { x with sbcnt := Tbl.put 0 x.sbcnt i (setField c 0 16 (field c 0 16 - field w (16 * j + 6) 10)) }
    else x) x

/-- Makes the firing of the outlets that can fire pending, in ascending order. -/
def State.sluiceCheck (s : State) (ck : Nat) : State :=
  foldS (fun o s => if (outletFires (s.cx ck) o).isSome then s.laterOnce (.sluiceOutletFire ck o) else s) (List.range 16) s

/-- A completion pulse (R220). -/
def State.pulse (s : State) (ck src sel : Nat) : State :=
  (s.modCx ck fun x => { x with
    sbcnt := (List.range 32).foldl (fun t i =>
      let c := Tbl.get 0 t i
      if pulseMatches c src sel then Tbl.put 0 t i (countPulse c 1) else t) x.sbcnt }).sluiceCheck ck

/-! ## Barriers (R218) -/

/-- A barrier word. -/
structure Bar where
  target : Nat
  arrived : Nat
  gen : Nat
  armed : Bool
  flags : Nat
  deriving DecidableEq, Repr

def State.bar (s : State) (ck n : Nat) : Bar :=
  let w := s.poolRead ck (16 * n) 16
  { target := bits w 0 48, arrived := bits w 48 48, gen := bits w 96 16, armed := bits w 112 8 == 1, flags := bits w 120 8 }

def State.setBar (s : State) (ck n : Nat) (b : Bar) : State :=
  s.poolWrite ck (16 * n) (leBytes 16 (b.target + b.arrived * 2 ^ 48 + b.gen * 2 ^ 96 + bitOf b.armed * 2 ^ 112 +
    b.flags * 2 ^ 120))

/-- Check (R218) on the word: the word after it, and whether the generation advanced. -/
def Bar.check (b : Bar) : Bar × Bool :=
  if b.armed ∧ b.target ≤ b.arrived then
    ({ b with flags := if b.target < b.arrived then Nat.lor b.flags 1 else b.flags
              gen := (b.gen + 1) % 65536, arrived := 0, armed := false }, true)
  else (b, false)

/-- Count (R218) before its Check. -/
def Bar.count (b : Bar) (n : Nat) : Bar :=
  if 2 ^ 48 ≤ b.arrived + n then { b with arrived := 2 ^ 48 - 1, flags := Nat.lor b.flags 2 }
  else { b with arrived := b.arrived + n }

/-- Answers the waiters of a barrier whose generation differs from the one they name. -/
def State.wakeBar (s : State) (ck n : Nat) : State :=
  let gen := (s.bar ck n).gen
  let go := (s.cx ck).barWait.filter fun w => w.index == n && w.gen != gen
  let s := s.modCx ck fun x => { x with barWait := x.barWait.filter fun w => !(w.index == n && w.gen != gen) }
  foldS (fun w s => s.spReply ck (16 * n) w.tk w.remote w.src w.srcCk w.txid none 0 false false) go s

/-- Writes a barrier word and applies Check: an advance wakes the waiters and pulses the board. -/
def State.barCheck (s : State) (ck n : Nat) (b : Bar) : State :=
  let r := b.check
  let s := s.setBar ck n r.1
  if r.2 then (s.wakeBar ck n).pulse ck 3 n else s

/-- Count (R218): a landing or an arrival of `n` bytes. -/
def State.barCount (s : State) (ck i n : Nat) : State := s.barCheck ck i ((s.bar ck i).count n)

/-- BARINIT (R218, R357). It changes the full/empty bits of the barrier's two words (R184); the manual does not state to what (notes/assumptions/148.md). -/
def State.barInit (s : State) (ck i t : Nat) : State :=
  let n := s.free
  let s := s.setBar ck i { target := t, arrived := 0, gen := (s.bar ck i).gen, armed := true, flags := 0 }
  { ((s.setFull ck (16 * i) (Config.freeNat n % 2 == 1)).setFull ck (16 * i + 8) (Config.freeNat (n + 1) % 2 == 1)) with free := n + 2 }

/-- BAREXPECT (R218); `none` where the new target reaches 2^48. -/
def State.barExpect (s : State) (ck i t : Nat) : Option State :=
  let b := s.bar ck i
  if 2 ^ 48 ≤ b.target + t then none else some (s.barCheck ck i { b with target := b.target + t, armed := true })

end Sys2Proof.Machine
end

