-- ==== Sys2Proof/Machine/Translate.lean ====
section
/-!
DEFINITION. Address translation: the cluster translation units, the shared translation service, page requests,
invalidation and the binding of PASIDs (R66 to R81).
-/

namespace Sys2Proof.Machine

/-! ## Memory limits (R454) -/

/-! ## The capabilities of the PCIe function (R69) -/

/-- PASID: Max PASID Width, Execute Permission Supported, Privileged Mode Supported. -/
def pasidWidth : Nat := 20
def pasidExecute : Bool := true
def pasidPrivileged : Bool := true
/-- ATS: Invalidate Queue Depth, Page Aligned Request, Global Invalidate Supported. -/
def invalQueueDepth : Nat := 32
def atsPageAligned : Bool := true
def atsGlobalInval : Bool := true
/-- PRI: Outstanding Page Request Capacity. -/
def priCapacity : Nat := 512

/-- The first physical address above installed DRAM. -/
def State.memTop (s : State) : Nat := s.pow.top * 2 ^ 20

/-! ## The access state of a requester -/

def State.xOf (s : State) : Waiter → XState
  | .thread tk => match s.thr tk with | some t => t.x | none => {}
  | .card ck id => match (s.cx ck).cards.find? fun c => c.id == id with | some c => c.x | none => {}
  | .queue q => match s.fe.queues.find? fun e => e.q == q with | some e => e.x | none => {}
  | .bmv j => match s.bmv.jobs.find? fun e => e.id == j with | some e => e.x | none => {}
  | .feWrite p va => match s.fe.writes.find? fun (e : FeWrite) => e.space == .pasid p && e.va == va with | some e => e.x | none => {}
  | .copy id => match s.fe.copies.find? fun (e : BlockCopy) => e.id == id with | some e => e.x | none => {}
  | .dead ck id => match (s.cx ck).dead.find? fun d => d.id == id with | some d => d.x | none => {}

def State.modX (s : State) (w : Waiter) (f : XState → XState) : State :=
  match w with
  | .thread tk => s.modThr tk fun t => { t with x := f t.x }
  | .card ck id => s.modCx ck fun c => { c with cards := mapIf (fun e => e.id == id) (fun e => { e with x := f e.x }) c.cards }
  | .queue q => { s with fe := { s.fe with queues := mapIf (fun e => e.q == q) (fun e => { e with x := f e.x }) s.fe.queues } }
  | .bmv j => { s with bmv := { s.bmv with jobs := mapIf (fun e => e.id == j) (fun e => { e with x := f e.x }) s.bmv.jobs } }
  | .feWrite p va => { s with fe := { s.fe with
      writes := mapIf (fun (e : FeWrite) => e.space == .pasid p && e.va == va) (fun e => { e with x := f e.x }) s.fe.writes } }
  | .copy id => { s with fe := { s.fe with copies := mapIf (fun (e : BlockCopy) => e.id == id) (fun e => { e with x := f e.x }) s.fe.copies } }
  | .dead ck id => s.modCx ck fun c => { c with dead := mapIf (fun d => d.id == id) (fun d => { d with x := f d.x }) c.dead }

/-- The block copier goes on with a job. -/
def State.wakeCopy (s : State) (id : Nat) : State :=
  { s with fe := { s.fe with copies := mapIf (fun (e : BlockCopy) => e.id == id) (fun e => { e with waiting := false }) s.fe.copies } }

/-- A requester's wait for a translation or page ends; it makes its access again (R72, R77). A queue leaves PARKED once nothing of it
waits (Sys2Proof/Machine/Settle.lean). -/
def State.wakeWaiter (s : State) (w : Waiter) : State :=
  match w with
  | .thread tk => s.wake tk
  | .card ck id =>
    (s.modCx ck fun c => { c with cards := mapIf (fun e => e.id == id) (fun e => { e with paused := false }) c.cards }).laterOnce
      (.jobCardStart ck id)
  | .bmv j => s.laterOnce (.bmvJobStart j)
  | .queue _ | .feWrite _ _ => s
  | .copy id => s.wakeCopy id
  | .dead ck id => s.laterOnce (.deadLetter ck id)

/-! ## Lookups (R67, R68, R71) -/

/-- The access a translation is for: who makes it, the cluster whose CTU serves it, its PASID and mode, and the
permissions it needs. -/
structure Access where
  w : Waiter
  cluster : Option Nat := none
  pasid : Nat := 0
  priv : Bool := false
  r : Bool := false
  wr : Bool := false
  x : Bool := false
  deriving DecidableEq, Repr

/-- An entry covers a virtual address of a PASID. A privileged page serves requests with Privileged Mode Requested only. -/
def Xlat.covers (e : Xlat) (pasid : Nat) (gen : BitVec 8) (priv : Bool) (va : Nat) : Bool :=
  e.pasid == pasid && e.gen == gen && e.vpn == va / 2 ^ e.sizeLog && (priv || !e.priv)

/-- The permissions granted cover those needed; a system-mode request needs P (R71). -/
def permits (a : Access) (r w x priv : Bool) : Bool :=
  (!a.r || r) && (!a.wr || w) && (!a.x || x) && (!a.priv || priv)

def Xlat.pa (e : Xlat) (va : Nat) : Nat := e.ppn * 2 ^ e.sizeLog + va % 2 ^ e.sizeLog

/-- The largest size a CTU supports that fits in a range of 2^n bytes (R67, R71). -/
def ctuSize (n : Nat) : Nat := if 30 ≤ n then 30 else if 21 ≤ n then 21 else if 16 ≤ n then 16 else 12

/-- The part of a range that the CTU installs for an address. -/
def Xlat.forCtu (e : Xlat) (va : Nat) : Xlat :=
  let k := ctuSize e.sizeLog
  { e with sizeLog := k, vpn := va / 2 ^ k, ppn := e.pa va / 2 ^ k }

/-- Bind generation of a PASID (R80). -/
def State.genOf (s : State) (pasid : Nat) : BitVec 8 := Tbl.get 0 s.svc.gens pasid

/-- Two entries are for the same page: the newer one replaces the older. -/
def Xlat.sameKey (a b : Xlat) : Bool := a.pasid == b.pasid && a.gen == b.gen && a.sizeLog == b.sizeLog && a.vpn == b.vpn

/-- The set of an entry in a store of `n` sets: the low bits of its page number (notes/assumptions/43.md). -/
def Xlat.set (e : Xlat) (n : Nat) : Nat := e.vpn % n

/-- Puts an entry, as the most recently used, into a store of `n` sets of `w` ways, least recently used first: a full set loses its
oldest entry. -/
def installWay (n w : Nat) (l : List Xlat) (e : Xlat) : List Xlat :=
  let l := l.filter fun x => !x.sameKey e
  let mine := l.filter fun x => x.set n == e.set n
  (if w ≤ mine.length then match mine with
    | old :: _ => l.filter (· != old)
    | [] => l
  else l) ++ [e]

/-- The CTU: 256 sets of 8 ways (R67). -/
def State.installCtu (s : State) (c : Option Nat) (e : Xlat) : State :=
  match c with
  | some c => s.modClu c fun x => { x with ctu := installWay 256 8 x.ctu e }
  | none => s

/-- The ATC: 1024 sets of 16 ways (R68). -/
def State.installAtc (s : State) (e : Xlat) : State := { s with svc := { s.svc with atc := installWay 1024 16 s.svc.atc e } }

/-- Drops the entries of a PASID that cover one page, so that the reissue looks it up again from the start (R72). -/
def State.dropPage (s : State) (pasid vpn : Nat) : State :=
  let keep (e : Xlat) : Bool := !(e.pasid == pasid && e.vpn == vpn * 4096 / 2 ^ e.sizeLog)
  { s with svc := { s.svc with atc := s.svc.atc.filter keep }
           clusters := s.clusters.map fun c => (c.1, { c.2 with ctu := c.2.ctu.filter keep }) }

/-- The outcome of a translation. -/
inductive XRes where
  | pa (s : State) (pa : Nat)
  | fault (cause : Nat)
  /-- The access waits: LONG for a Translation Request, PAGEWAIT for a page, and refused (READY) while the tables of
  requests are full. -/
  | wait (s : State) (st : TState)

/-- Page requests sent and not answered. -/
def Service.sentPages (v : Service) : Nat := (v.pages.filter PageReq.sent).length

/-- A PRG index of the 512 that no request has, and whose response is not still to come after a time-out (R74) (notes/assumptions/152.md). -/
def Service.freshPrg (v : Service) : Option Nat :=
  (List.range priCapacity).find? fun n => (v.pages.all fun p => !(p.sent && p.prg == n)) && !v.latePrgs.contains n

/-- Sends queued page requests while the allocation lasts (R73). -/
def State.sendPagesN (s : State) : Nat → State
  | 0 => s
  | fuel + 1 =>
    if s.svc.sentPages < min s.svc.allocation priCapacity then
      match takeFirst (fun p => !p.sent) s.svc.pages, s.svc.freshPrg with
      | some (p, _), some prg =>
        let p' := { p with sent := true, prg := prg }
        State.sendPagesN { s with
          svc := { s.svc with pages := s.svc.pages.map fun e => if e = p then p' else e }
          port := { s.port with priSent := s.port.priSent ++ [(prg, p.pasid, p.vpn)] } } fuel
      | _, _ => s
    else s

def State.sendPages (s : State) : State := s.sendPagesN s.svc.pages.length

/-- A page request asks for every permission that an access needs (R73). -/
def PageReq.asksFor (p : PageReq) (a : Access) : Bool :=
  (!a.r || p.needR) && (!a.wr || p.needW) && (!a.x || p.needX) && (!a.priv || p.priv)

/-- A page request by R72 and R73, or its failure. A fault that needs more than an outstanding request asks for waits for that one,
and looks the page up again from the start. -/
def State.pageRequest (s : State) (a : Access) (va : Nat) : XRes :=
  let vpn := va / 4096
  let x := s.xOf a.w
  if !s.svc.priEn || s.svc.priStopped then .fault Cause.pageFail
  else if 4 ≤ x.reqs then .fault Cause.pageFail
  else
    let gen := s.genOf a.pasid
    let same (p : PageReq) : Bool := p.pasid == a.pasid && p.vpn == vpn && p.gen == gen
    let shared (p : PageReq) : Bool := same p && p.asksFor a
    if (s.svc.pages.any same) ∧ !(s.svc.pages.any shared) then
      .wait ({ s with svc := { s.svc with pages := mapIf same (fun p => { p with others := p.others ++ [a.w] }) s.svc.pages } }.modX a.w
        fun x => { x with ok := none }) .pageWait
    else
    let s := s.modX a.w fun x => { x with reqs := x.reqs + 1, ok := none }
    if s.svc.pages.any shared then
      .wait { s with svc := { s.svc with pages := mapIf shared (fun p => { p with waits := p.waits ++ [a.w] }) s.svc.pages } }
        .pageWait
    else
      let p : PageReq := { prg := 513, pasid := a.pasid, gen := gen, vpn := vpn, needR := a.r, needW := a.wr, needX := a.x,
                           priv := a.priv, waits := [a.w] }
      .wait (State.sendPages { s with svc := { s.svc with pages := s.svc.pages ++ [p] } }) .pageWait

/-- A present translation lacks the permission: a page request, or ACCESS once a Success response has been received for the
page (R71, R73). -/
def State.lacking (s : State) (a : Access) (va : Nat) : XRes :=
  if (s.xOf a.w).ok = some (va / 4096) then .fault Cause.access else s.pageRequest a va

/-- An ATC miss: joins the outstanding Translation Request for the page, or sends one (R68, R70). -/
def State.atsRequest (s : State) (a : Access) (va : Nat) : XRes :=
  let vpn := va / 4096
  let gen := s.genOf a.pasid
  let wt : XlatWait := { w := a.w, cluster := a.cluster, va := va, needR := a.r, needW := a.wr, needX := a.x, priv := a.priv }
  let same (q : AtsReq) : Bool := q.pasid == a.pasid && q.gen == gen && q.vpn == vpn && !q.stale
  let ofCluster := (s.svc.ats.filter fun q => q.waits.any fun w => w.cluster == a.cluster).length
  if s.svc.ats.any same then
    .wait { s with svc := { s.svc with ats := mapIf same (fun q => { q with waits := q.waits ++ [wt] }) s.svc.ats } } .long
  else if 256 ≤ s.svc.ats.length ∨ (a.cluster.isSome ∧ 32 ≤ ofCluster) then .wait s .ready
  else
    let tag := s.svc.nextTag
    .wait { s with
      svc := { s.svc with
        nextTag := tag + 1
        ats := s.svc.ats ++ [{ tag := tag, pasid := a.pasid, gen := gen, vpn := vpn, needX := a.x, priv := a.priv, waits := [wt] }] }
      port := { s.port with atsSent := s.port.atsSent ++ [(tag, a.pasid, vpn)] } } .long

/-- The outcome of a hit on an entry that the caches hold: a page beyond installed DRAM raises ACCESS (R71, R454); one that lacks a
permission makes a page request, as a completion that lacks it does (notes/assumptions/131.md). -/
def State.hit (s : State) (a : Access) (e : Xlat) (va : Nat) : XRes :=
  if s.memTop ≤ e.pa va then .fault Cause.access
  else if permits a e.r e.w e.x e.priv then .pa s (e.pa va)
  else s.lacking a va

/-- The lookup (R67, R68, R70), after the checks that come first. -/
def State.translateGo (s : State) (a : Access) (va vpn : Nat) (x : XState) : XRes :=
  match x.once.find? fun e => e.vpn == vpn && permits a e.r e.w e.x e.priv with
  | some e => .pa s (e.ppn * 4096 + va % 4096)
  | none =>
    let gen := s.genOf a.pasid
    let ctu := match a.cluster with | some c => (s.clu c).ctu | none => []
    match ctu.find? fun e => e.covers a.pasid gen a.priv va with
    | some e => (s.installCtu a.cluster e).hit a e va
    | none =>
      match s.svc.atc.find? fun e => e.covers a.pasid gen a.priv va with
      | some e => ((s.installAtc e).installCtu a.cluster (e.forCtu va)).hit a e va
      | none => s.atsRequest a va

/-- Translates one virtual address (R67 to R73). -/
def State.translate (s : State) (a : Access) (va : Nat) : XRes :=
  let vpn := va / 4096
  let x := s.xOf a.w
  if !s.svc.atsEn || !s.svc.pasidEn then .fault Cause.access
  else match x.fault with
  | some (cause, page) => if page = vpn then .fault cause else s.translateGo a va vpn x
  | none => s.translateGo a va vpn x

/-- The address of an access that is not translated (R66, R454). -/
def State.physical (s : State) (va : Nat) : XRes := if va < s.memTop then .pa s va else .fault Cause.access

/-! ## Answers of the host -/

/-- Gives a waiter's access an outcome that its reissue meets. -/
def State.failWaiter (s : State) (w : Waiter) (cause vpn : Nat) : State :=
  (s.modX w fun x => { x with fault := some (cause, vpn) }).wakeWaiter w

/-- A bind of the PASID is in its first step: what is asked for meanwhile is used once and not cached (R80). -/
def Service.binding (v : Service) (pasid : Nat) : Bool := v.invals.any fun i => i.bindPasid == some pasid

/-- One waiter of a Translation Request meets its completion (R71). -/
def State.answerAts (s : State) (q : AtsReq) (c : AtsCompletion) (e : Xlat) (wt : XlatWait) : State :=
  let a : Access := { w := wt.w, cluster := wt.cluster, pasid := q.pasid, priv := wt.priv, r := wt.needR, wr := wt.needW, x := wt.needX }
  let page (r : XRes) : State :=
    match r with
    | .pa s _ => s.wakeWaiter wt.w
    | .fault cause => s.failWaiter wt.w cause q.vpn
    | .wait s st => match wt.w with
      | .thread tk => s.modThr tk fun t => if t.st = .long then { t with st := st } else t
      | _ => s
  if c.abort then s.failWaiter wt.w Cause.pageFail q.vpn
  else if !c.r && !c.w then page (s.pageRequest a wt.va)
  else if c.u then s.failWaiter wt.w Cause.access q.vpn
  else if s.memTop < e.pa (q.vpn * 4096) + 4096 then s.failWaiter wt.w Cause.access q.vpn
  else if !permits a c.r c.w c.x c.priv then page (s.lacking a wt.va)
  else if q.stale ∨ s.svc.binding q.pasid then
    (s.modX wt.w fun x => { x with once := x.once ++
      [{ vpn := q.vpn, ppn := e.pa (q.vpn * 4096) / 4096, r := c.r, w := c.w, x := c.x, priv := c.priv }] }).wakeWaiter wt.w
  else ((s.installAtc e).installCtu wt.cluster (e.forCtu (q.vpn * 4096))).wakeWaiter wt.w

/-- ATS_TRANSLATION_COMPLETION (R71, R79, R80): a completion for no outstanding request is discarded. -/
def State.onAtsCompletion (s : State) (c : AtsCompletion) : State :=
  match takeFirst (fun q => q.tag == c.tag) s.svc.ats with
  | none => s
  | some (q, rest) =>
    let s := { s with svc := { s.svc with ats := rest }, port := { s.port with atsSent := s.port.atsSent.filter fun e => e.1 != c.tag } }
    if q.gen ≠ s.genOf q.pasid ∨ !s.svc.bound.contains q.pasid then foldS (fun wt s => s.wakeWaiter wt.w) q.waits s
    else
      let e : Xlat := { pasid := q.pasid, gen := q.gen, sizeLog := max c.sizeLog 12, vpn := q.vpn * 4096 / 2 ^ max c.sizeLog 12,
                        ppn := c.pa / 2 ^ max c.sizeLog 12, r := c.r, w := c.w, x := c.x, priv := c.priv }
      foldS (fun wt s => s.answerAts q c e wt) q.waits s

/-- A page request ends: its waiters get a cause, or wake with the Success noted (R73, R74, R80). -/
def State.endPage (s : State) (p : PageReq) (cause : Option Nat) : State :=
  let current : Bool := p.gen == s.genOf p.pasid
  let s := foldS (fun w s =>
    if current = false then s.wakeWaiter w
    else match cause with
      | some c => s.failWaiter w c p.vpn
      | none => (s.modX w fun x => { x with ok := some p.vpn }).wakeWaiter w) p.waits s
  foldS (fun w (s : State) => s.wakeWaiter w) p.others s

/-- PAGE_REQUEST_RESPONSE (R74): a response for no outstanding PRG index is discarded; a late one frees its index. -/
def State.onPageResponse (s : State) (prg : Nat) (code : PriCode) : State :=
  match takeFirst (fun p => p.sent && p.prg == prg) s.svc.pages with
  | none => State.sendPages { s with svc := { s.svc with latePrgs := s.svc.latePrgs.filter (· != prg) } }
  | some (p, rest) =>
    let s := { s with svc := { s.svc with pages := rest }, port := { s.port with priSent := s.port.priSent.filter fun e => e.1 != prg } }
    match code with
    | .success => State.sendPages ((s.dropPage p.pasid p.vpn).endPage p none)
    | .invalid => State.sendPages (s.endPage p (some Cause.pageFail))
    | .failure =>
      let queued := s.svc.pages.filter fun e => !e.sent
      let s := { s with svc := { s.svc with priStopped := true, pages := s.svc.pages.filter PageReq.sent } }
      foldS (fun e s => s.endPage e (some Cause.pageFail)) queued (s.endPage p (some Cause.pageFail))

/-- PRI_ENABLE (R69, R74): enabling after disabling clears the PRI Stopped state. -/
def State.onPriEnable (s : State) (on : Bool) : State :=
  { s with svc := { s.svc with priEn := on, priStopped := if on then s.svc.priStopped else false } }

/-! ## Invalidation (R78, R79) -/

/-- An entry lies in the range of an invalidation. -/
def invalCovers (r : AtsInvalidate) (pasid va sizeLog : Nat) : Bool :=
  (match r.pasid with | some p => p == pasid | none => true) &&
    decide (va / 2 ^ sizeLog * 2 ^ sizeLog < r.va / 2 ^ r.sizeLog * 2 ^ r.sizeLog + 2 ^ r.sizeLog) &&
    decide (r.va / 2 ^ r.sizeLog * 2 ^ r.sizeLog < va / 2 ^ sizeLog * 2 ^ sizeLog + 2 ^ sizeLog)

/-- A pending result still reads memory; a WAITA's watch is not awaited (R78). -/
def Pending.memInFlight (p : Pending) : Bool :=
  p.kind != .waita && p.lanes.any fun l => !l.done && match l.src with
    | .mem _ => true
    | .reply => p.kind == .atomic || p.kind == .locked
    | .pool _ _ => false

/-- The accesses in flight: pending results and buffered stores of every thread. -/
def State.inFlight (s : State) : List (Nat × Nat) × List (Nat × Nat) :=
  (s.threads.flatMap fun e => match e.2 with
      | some t => (t.pend.filter Pending.memInFlight).map fun p => (e.1, p.id)
      | none => [],
   s.threads.flatMap fun e => match e.2 with
      | some t => t.sbuf.map fun b => (e.1, b.line)
      | none => [])

/-- The elements of engines under way: tags of the transfers that cards await. -/
def State.elemsInFlight (s : State) : List (Nat × Nat × Nat) :=
  s.ctx.flatMap fun e => e.2.cards.flatMap fun c => c.outstanding.map fun n => (e.1, c.id, n)

/-- A bank-compute job uses the translation of its footprint. -/
def BmvJob.busy (j : BmvJob) : Bool := j.phase == .running || j.phase == .writing

/-- Starts an invalidation: entries are removed, requests outstanding are marked, and the accesses in flight recorded. The
bank-compute jobs whose footprint it meets stop at their next yield point. -/
def State.startInval (s : State) (r : AtsInvalidate) (bind : Option Nat) : State :=
  let hit (e : Xlat) : Bool := invalCovers r e.pasid (e.vpn * 2 ^ e.sizeLog) e.sizeLog
  let meets (j : BmvJob) : Bool := j.pages.any fun p => invalCovers r j.pasid (p.1 / 2 * 4096) 12
  let jobs := (s.bmv.jobs.filter fun j => j.busy && meets j).map BmvJob.id
  let f := s.inFlight
  let s := { s with
    svc := { s.svc with
      atc := s.svc.atc.filter fun e => !hit e
      ats := mapIf (fun q => invalCovers r q.pasid (q.vpn * 4096) 12) (fun q => { q with stale := true }) s.svc.ats
      invals := s.svc.invals ++ [{ itag := r.itag, req := r, pends := f.1, stores := f.2, elems := s.elemsInFlight, jobs := jobs, bindPasid := bind }] }
    clusters := s.clusters.map fun c => (c.1, { c.2 with ctu := c.2.ctu.filter fun e => !hit e })
    bmv := { s.bmv with jobs := mapIf (fun j => !j.busy && meets j) (fun j => { j with
      phase := if j.phase = .sweeping then .translating else j.phase, pages := [], toSweep := none }) s.bmv.jobs } }
  let s := foldS (fun u s => if u.2.run.isSome && jobs.any (fun j => u.2.job == some j) then s.later (.bhalt u.1) else s) s.bmv.units s
  foldS (fun j s => s.laterOnce (.bmvJobStart j)) jobs s

/-- Invalidate Requests of the host that are in progress. -/
def Service.hostInvals (v : Service) : Nat := (v.invals.filter fun i => i.bindPasid.isNone).length

/-- ATS_INVALIDATE_REQUEST (R78): requests are executed in arrival order, at most 32 at a time. -/
def State.onInvalidate (s : State) (r : AtsInvalidate) : State :=
  if s.svc.hostInvals < invalQueueDepth then s.startInval r none
  else { s with svc := { s.svc with invalWait := s.svc.invalWait ++ [r] } }

/-- The oldest Invalidate Request that waits begins. -/
def State.nextInval (s : State) : State :=
  match s.svc.invalWait with
  | r :: rest => ({ s with svc := { s.svc with invalWait := rest } }).startInval r none
  | [] => s

/-- An invalidation has nothing left to wait for. -/
def State.invalDone (s : State) (v : Inval) : Bool :=
  (v.pends.all fun e => match s.thr e.1 with
    | some t => t.pend.all fun p => p.id != e.2 || !p.memInFlight
    | none => true) &&
  (v.stores.all fun e => match s.thr e.1 with
    | some t => t.sbuf.all fun b => b.line != e.2
    | none => true) &&
  (v.elems.all fun e => (s.cx e.1).cards.all fun c => c.id != e.2.1 || !c.outstanding.contains e.2.2) &&
  (v.jobs.all fun j => s.bmv.jobs.all fun b => b.id != j || !b.busy)

/-- INVALIDATION_COMPLETION (R78), and the generation's advance where a bind or unbind asked for it (R80, R81). -/
def State.onInvalDone (s : State) (itag : Nat) : State :=
  match takeFirst (fun v => v.itag == itag && s.invalDone v) s.svc.invals with
  | none => s
  | some (v, rest) =>
    match v.bindPasid with
    | none => State.nextInval { s with svc := { s.svc with invals := rest }, port := { s.port with invDone := s.port.invDone ++ [itag] } }
    | some p =>
      let next := s.genOf p + 1
      if (s.svc.ats.any fun q => q.pasid == p && q.gen == next) || (s.svc.pages.any fun q => q.pasid == p && q.gen == next) then s
      else { s with svc := { s.svc with invals := rest, gens := Tbl.put 0 s.svc.gens p next } }

/-- PRI_STOP_MARKER (R81): an unbound PASID has no page request left. -/
def State.onStopMarker (s : State) (pasid : Nat) : State :=
  if s.svc.stopPending.contains pasid ∧ (s.svc.pages.all fun p => p.pasid != pasid) then
    { s with svc := { s.svc with stopPending := s.svc.stopPending.filter (· != pasid) }
             port := { s.port with stopMarkers := s.port.stopMarkers ++ [pasid] } }
  else s

end Sys2Proof.Machine
end

