-- ==== Sys2Proof/Machine/Bank.lean ====
section
/-!
DEFINITION. DRAM (R17, R19, R30) and the bank units in it (R82 to R86, R92 to R94, R98): the window, the geometry of a job, the
commands of the bank-compute extension, and the accesses to a bank whose pass is running.
-/

namespace Sys2Proof.Machine

/-! ## DRAM -/

/-- `n` bytes of DRAM from an address, as a number. -/
def State.dramRead (s : State) (a n : Nat) : Nat := leNat ((List.range n).map fun i => Tbl.get 0 s.dram (a + i))

def State.dramWrite (s : State) (a : Nat) (l : List Byte) : State := { s with dram := putList s.dram a l }

def State.dramLine (s : State) (line : Nat) : Vec := BitVec.ofNat 512 (s.dramRead (64 * line) 64)

/-! ## The window and the units (R82, R83) -/

/-- NU: the number of bank units. -/
def State.bankUnits (s : State) : Nat := 16 * s.pow.channels

/-- The window is enabled (R82). -/
def State.winOn (s : State) : Bool := s.bmv.curEn && s.bmv.curSize != 0

/-- Window base and end; a window beyond installed DRAM is truncated to it. -/
def State.winLo (s : State) : Nat := s.bmv.curBase.toNat * 2 ^ 30
def State.winHi (s : State) : Nat := if s.winOn then min (s.winLo + s.bmv.curSize.toNat * 2 ^ 30) s.memTop else s.winLo

/-- The physical address of a byte of a unit's storage: granule `o / 2048` of the unit. -/
def State.unitPa (s : State) (u o : Nat) : Nat := s.winLo + ((o / 2048) * s.bankUnits + u) * 2048 + o % 2048

/-- Offset in its unit's storage of a physical address of the window. -/
def State.unitOff (s : State) (pa : Nat) : Nat := (pa - s.winLo) / 2048 / s.bankUnits * 2048 + pa % 2048

def State.bank (s : State) (u : Nat) : BankUnit := Tbl.get {} s.bmv.units u
def State.modBank (s : State) (u : Nat) (f : BankUnit → BankUnit) : State :=
  { s with bmv := { s.bmv with units := Tbl.upd {} s.bmv.units u f } }

def State.bmvJob (s : State) (j : Nat) : Option BmvJob := s.bmv.jobs.find? fun e => e.id == j
def State.modJob (s : State) (j : Nat) (f : BmvJob → BmvJob) : State :=
  { s with bmv := { s.bmv with jobs := mapIf (fun e => e.id == j) f s.bmv.jobs } }

/-! ## Formats and geometry (R84 to R86) -/

/-- BB and SB of a format code; `none` for a code that R85 does not list. -/
def bmvSizes (fmt : Nat) (scl : Bool) : Option (Nat × Nat) :=
  match fmt with
  | 5 => some (48, 2)
  | 6 => some (24, 2)
  | 2 | 3 => some (48, bitOf scl)
  | 7 => some (24, bitOf scl)
  | _ => none

/-- The values of a block from its bytes and its scale bytes (R85, R237 to R239). -/
def bmvBlock (fmt sb ct : Nat) (data sc : Nat) : List FVal :=
  let e0 := if sb = 0 then 127 else bits sc 0 8
  let e1 := bits sc 8 8
  (List.range 48).map fun i =>
    match fmt with
    | 5 => MFmt.value .sb8 ct e0 e1 (bits data (8 * i) 8)
    | 6 => MFmt.value .sb4 ct e0 e1 (bits data (4 * i) 4)
    | 2 => MFmt.value .f8e4 ct e0 127 (bits data (8 * i) 8)
    | 3 => MFmt.value .f8e5 ct e0 127 (bits data (8 * i) 8)
    | _ => if e0 = 0xFF then .nan false else (FVal.ofInt (codeEntry ct (bits data (4 * i) 4))).scale ((e0 : Int) - 127)

def BmvJob.bb (j : BmvJob) : Nat := ((bmvSizes j.fmt j.scl).getD (0, 0)).1
def BmvJob.sb (j : BmvJob) : Nat := ((bmvSizes j.fmt j.scl).getD (0, 0)).2
/-- K of R84. -/
def BmvJob.k (j : BmvJob) : Nat := j.kg * j.ks * 48
/-- RG: row groups. -/
def State.rg (s : State) (j : BmvJob) : Nat := s.bankUnits / j.kg
/-- Local rows of a row group. -/
def State.rowsOf (s : State) (j : BmvJob) (r : Nat) : Nat := (j.m + s.rg j - 1 - r) / s.rg j
/-- RPG: rows per group. -/
def State.rpg (s : State) (j : BmvJob) : Nat := (j.m + s.rg j - 1) / s.rg j
/-- Bytes of virtual space that a slab with entries of `w` bytes takes (R86). -/
def State.slabLen (s : State) (j : BmvJob) (w : Nat) : Nat := (s.rpg j * j.ks * w + 2047) / 2048 * s.bankUnits * 2048

/-- Virtual address of slab byte `n` of unit `u` (R86). -/
def State.slabVa (s : State) (base u n : Nat) : Nat := (base + ((n / 2048) * s.bankUnits + u) * 2048 + n % 2048) % 2 ^ 64

/-! ## Translated pages of a job (R77) -/

/-- Key of a translated page. -/
def pageKey (vpn : Nat) (w : Bool) : Nat := 2 * vpn + bitOf w

/-- Physical address of a translated byte. -/
def BmvJob.pa (j : BmvJob) (va : Nat) (w : Bool) : Nat := (Tbl.get 0 j.pages (pageKey (va / 4096) w) - 1) * 4096 + va % 4096

/-! ## Channels (R19) -/

/-- The aligned groups of four channels in service, lowest first (R19). -/
def State.groupsIn (s : State) : List Nat := (List.range 4).filter fun g => !s.pow.groupsOut.contains g

/-- The logical channel of the k-th channel in service (R19). -/
def State.channelNo (s : State) (k : Nat) : Nat := 4 * s.groupsIn.getD (k / 4) 0 + k % 4

/-- The logical channel that holds a line, among those in service: by granules of a unit in the bank-compute window (R83), elsewhere
by the hash (R19). -/
def State.channelOf (s : State) (line : Nat) : Nat :=
  let pa := 64 * line
  s.channelNo (if s.winLo ≤ pa ∧ pa < s.winHi then (pa - s.winLo) / 2048 % s.bankUnits % s.pow.channels
    else Config.channelHash s.pow.channels (pa / 256) % s.pow.channels)

/-- What DRAM delivers of a line is poisoned: marked so, or of a channel that has failed in service (R19, R30). -/
def State.dramBad (s : State) (line : Nat) : Bool :=
  Tbl.get false s.dramPoison line || s.pow.failedCh.any fun c => s.channelOf line == c

/-! ## A bank unit (R92 to R94) -/

/-- Physical address of byte `i` of what a pass reads: in a job, the slab's bytes from the batch's first row, through the job's
pages; in a pass without a job, the bytes of the unit's storage from the start granule. -/
def State.runPa (s : State) (u : Nat) (x : BankUnit) (r : BankRun) (scale : Bool) (i : Nat) : Nat × Option Nat :=
  match x.job with
  | some n => match s.bmvJob n with
    | some j =>
      let w := if scale then j.sb else j.bb
      let va := s.slabVa (if scale then j.sbase else j.wbase) u (j.rowsDone * j.ks * w + i)
      (j.pa va false, some va)
    | none => (0, none)
  | none => (s.unitPa u ((if scale then r.scaleGranule * 2048 + r.scaleByte else r.startGranule * 2048 + r.startByte) + i), none)

/-- Bytes of a pass: their value, and the first poisoned one, with its virtual address in a job. -/
def State.runBytes (s : State) (u : Nat) (x : BankUnit) (r : BankRun) (scale : Bool) (i n : Nat) : Nat × Option (Option Nat) :=
  let ps := (List.range n).map fun k => s.runPa u x r scale (i + k)
  (leNat (ps.map fun p => Tbl.get 0 s.dram p.1), (ps.find? fun p => s.dramBad (p.1 / 64)).map Prod.snd)

/-- One block of a pass (R93): its value is added to the row's partial sum; the row's last block stores the partial. -/
def State.bankBlock (s : State) (u : Nat) (x : BankUnit) (r : BankRun) : BankUnit :=
  let z := (bmvSizes r.fmt r.scl).getD (0, 0)
  let n := x.row * r.ks + x.blk
  let d := s.runBytes u x r false (n * z.1) z.1
  let c := s.runBytes u x r true (n * z.2) z.2
  let xs := (List.range 48).map fun i =>
    fmtBf16.decode (bits (Tbl.get 0 x.latch ((48 * x.blk + i) / 16)).toNat ((48 * x.blk + i) % 16 * 16) 16)
  let v := groupSum (List.zipWith FVal.prod (bmvBlock r.fmt z.2 r.codetab.toNat d.1 c.1) xs)
  let acc := if x.blk = 0 then v else addF32 x.acc.toNat v
  let met : Option (Option Nat) := match d.2 with
    | some a => some a
    | none => c.2
  let bad := met.isSome || (x.accPoison && x.blk != 0)
  let fail := match x.failVa with
    | some a => some a
    | none => met.getD none
  let y := { x with acc := BitVec.ofNat 32 acc, accPoison := bad, failVa := fail }
  if x.blk + 1 = r.ks then
    { y with part := Tbl.put 0 x.part x.row (BitVec.ofNat 32 acc), partPoison := Tbl.put false x.partPoison x.row bad
             row := x.row + 1, blk := 0 }
  else { y with blk := x.blk + 1 }

/-- The next `n` blocks of a pass. -/
def State.bankBlocks (s : State) (u : Nat) (r : BankRun) : Nat → BankUnit → BankUnit
  | 0, x => x
  | n + 1, x => State.bankBlocks s u r n (s.bankBlock u x r)

/-- Blocks of a pass still to do. -/
def BankUnit.left (x : BankUnit) : Nat :=
  match x.run with
  | some r => r.rows * r.ks - (x.row * r.ks + x.blk)
  | none => 0

/-- A pass is running: it is neither halted nor over, and the bank takes no other command (R92). -/
def BankUnit.running (x : BankUnit) : Bool := x.run.isSome && !x.halted && x.left != 0

/-- The devices accept the commands of the bank-compute extension: they have it, and their mode register enables it (R92). -/
def State.bankExt (s : State) : Bool := s.bmv.present && s.bmv.extEn

/-- XLD (R92). -/
def State.onXld (s : State) (u off : Nat) (l : List (BitVec 256)) : State :=
  if !s.bankExt ∨ (s.bank u).running ∨ l.isEmpty ∨ 96 < off + l.length then s
  else s.modBank u fun x => { x with latch := ((List.range l.length).zip l).foldl (fun t e => Tbl.put 0 t (off + e.1) e.2) x.latch }

/-- BRUN (R92). -/
def State.onBrun (s : State) (u : Nat) (r : BankRun) : State :=
  if !s.bankExt ∨ (s.bank u).running ∨ r.rows = 0 ∨ 256 < r.rows ∨ r.ks = 0 ∨ 32 < r.ks ∨ (bmvSizes r.fmt r.scl).isNone then s
  else s.modBank u fun x => { x with run := some r, row := 0, blk := 0, acc := 0, accPoison := false, halted := false }

/-- BHALT (R92, R98): the pass stops at the next block boundary; how far it has come is left open. -/
def State.onBhalt (s : State) (u : Nat) : State :=
  let x := s.bank u
  match x.run with
  | some r =>
    if !s.bankExt ∨ x.halted then s
    else
      let n := Config.freeNat s.free % (x.left + 1)
      (s.draw).modBank u fun x => { s.bankBlocks u r n x with halted := true }
  | none => s

/-- BRES (R92). -/
def State.onBres (s : State) (u : Nat) : State := if s.bankExt then s.modBank u fun x => { x with halted := false } else s

/-- PRD (R92): partial sums with their poison flags go to the reducer of the unit's job. -/
def State.onPrd (s : State) (u first count : Nat) : State :=
  let x := s.bank u
  if !s.bankExt ∨ x.running ∨ count = 0 ∨ 256 < first + count then s
  else match x.job with
  | some j => s.modJob j fun b => { b with
      red := (List.range count).foldl (fun t i => Tbl.put 0 t (256 * u + first + i) (Tbl.get 0 x.part (first + i))) b.red
      redBad := (List.range count).foldl (fun t i => Tbl.put false t (256 * u + first + i) (Tbl.get false x.partPoison (first + i))) b.redBad }
  | none => s

/-- A normal access to a bank with a running pass (R98): BHALT before it. -/
def State.pauseBanks (s : State) (pa : Nat) (f : State → State) : State :=
  let u := (pa - s.winLo) / 2048 % s.bankUnits
  if s.winLo ≤ pa ∧ pa < s.winHi ∧ (s.bank u).running then (f (s.onBhalt u)).onBres u else f s

/-- The units of a job. -/
def State.jobUnits (s : State) (n : Nat) : List Nat := s.bmv.units.filterMap fun e => if e.2.job = some n then some e.1 else none

/-! ## Accesses to DRAM beside the passes (R98) -/

/-- Writes a line to DRAM with its poison. -/
def State.dramStore (s : State) (line : Nat) (d : Vec) (poison : Bool) : State :=
  let s := s.dramWrite (64 * line) (bytesOfVec d)
  { s with dramPoison := Tbl.put false s.dramPoison line poison }

/-- A line written to DRAM by the controllers: a bank with a running pass is halted for it (R98). -/
def State.dramPutLine (s : State) (line : Nat) (d : Vec) (poison : Bool) : State :=
  s.pauseBanks (64 * line) fun s => s.dramStore line d poison

end Sys2Proof.Machine
end

