-- ==== Sys2Proof/Machine/Errors.lean ====
section
/-!
DEFINITION. Units, their spares and their errors: the maps of R9 and the ports of R147, the failure record, the slices' ways (R1,
R10), and the four classes of R29 with the counts and the log of R31.
-/

namespace Sys2Proof.Machine

/-! ## Messages to the host (R121) -/

/-- The entries to LS2 that are in progress abort: a message to the host, an ECI request or a doorbell came meanwhile (R25). -/
def State.abortEntries (s : State) : State :=
  { s with clusters := s.clusters.map fun e => (e.1, if e.2.entry = .begun then { e.2 with entry := .aborted } else e.2) }

/-- Sends an MSI-X message; a masked vector records its pending bit (R121). It is an event that aborts an entry to LS2 (R25). -/
def State.sendMsix (s : State) (v : Nat) : State :=
  let s := s.abortEntries
  if s.port.masked.contains v then
    { s with port := { s.port with msixPend := if s.port.msixPend.contains v then s.port.msixPend else s.port.msixPend ++ [v] } }
  else { s with port := { s.port with msix := s.port.msix ++ [v] } }

/-! ## Logical and physical units (R8, R9) -/

/-- The physical cluster of a logical one, and the physical slice. -/
def State.physCluster (s : State) (c : Nat) : Nat := Tbl.get c s.pow.clusterMap c
def State.physSlice (s : State) (n : Nat) : Nat := Tbl.get n s.pow.sliceMap n

/-- The physical unit of a logical one (R9, R31). -/
def State.physicalUnit (s : State) : HwUnit → HwUnit
  | .core n => .core (4 * s.physCluster (n / 4) + n % 4)
  | .cluster n => .cluster (s.physCluster n)
  | .slice n => .slice (s.physSlice n)
  | .way n w => .way (s.physSlice n) w
  | u => u

/-- The fabricated tile of a logical core, and that of a logical slice: each tile pairs a physical core with the physical slice of
its number. -/
def State.tileOfCore (s : State) (c : Nat) : Nat := 4 * s.physCluster (c / 4) + c % 4
def State.tileOfSlice (s : State) (n : Nat) : Nat := s.physSlice n

/-- The enabled logical core of a tile. -/
def State.coreInTile (s : State) (t : Nat) : Option Nat :=
  (List.range 64).find? fun c => s.tileOfCore c == t && !(s.core c).out

/-- A physical unit stands in the failure record: a failed core takes its cluster with it. -/
def Control.clusterFailed (c : Control) (p : Nat) : Bool :=
  c.failures.any fun u => match u with
    | .core n => n / 4 == p
    | .cluster n => n == p
    | _ => false

/-- The spare cluster while it is unused: the fabricated cluster that no logical cluster names, unless it has failed (R8, R10). -/
def State.spareCluster (s : State) : Option Nat :=
  (List.range 17).find? fun p => !((List.range 16).any fun c => s.physCluster c == p) && !s.ctl.clusterFailed p

/-- The cores of a cluster that its next swap takes out of use: the failed ones, or all where the spare cluster replaces it. -/
def State.leavers (s : State) (c : Nat) : List Nat :=
  if (s.clu c).failed.isEmpty then []
  else if s.spareCluster.isSome then (List.range 4).map (4 * c + ·)
  else (s.clu c).failed

/-- A spare slice that is unused and has not failed. -/
def State.spareSlice (s : State) : Option Nat :=
  (List.range 68).find? fun p => !((List.range 64).any fun n => s.physSlice n == p) && !s.ctl.failures.contains (.slice p)

/-! ## Ports (R147, R148) -/

/-- The distance of two tiles, as the model orders the stops of the hub ring: by tile number (notes/assumptions/35.md). -/
def tileGap (a b : Nat) : Nat := max a b - min a b

/-- The active tile that becomes proxy for a slice of a tile without an enabled core: the nearest that is not yet a proxy. Ports are
named by the logical cores whose tiles they join. -/
def State.nearestPort (s : State) (t : Nat) (taken : List Nat) : Nat :=
  (((List.range 64).filter fun c => !(s.core c).out && !taken.contains c).foldl (fun (b : Option Nat) c => match b with
    | none => some c
    | some d => if tileGap (s.tileOfCore c) t < tileGap (s.tileOfCore d) t then some c else b) none).getD 0

/-- The port of every logical slice, slice 0 first, and the ports that are proxies. -/
def State.slicePorts (s : State) : List Nat × List Nat :=
  (List.range 64).foldl (fun (acc : List Nat × List Nat) n =>
    match s.coreInTile (s.tileOfSlice n) with
    | some c => (acc.1 ++ [c], acc.2)
    | none =>
      let p := s.nearestPort (s.tileOfSlice n) acc.2
      (acc.1 ++ [p], acc.2 ++ [p])) ([], [])

/-- Firmware joins the tiles of the enabled cores to the ports and loads every active interface's port map: entry c is the port of
logical core c, entry 64 + n that of logical slice n; absent entries are the number itself (R147). -/
def State.loadPorts (s : State) : State :=
  let map : Tbl Nat := ((List.range 64).zip s.slicePorts.1).foldl (fun t e => Tbl.put e.1 t (64 + e.1) e.2) []
  foldS (fun c (s : State) => s.modCore c fun x => { x with portMap := map }) (List.range 64) s

/-- The service core of a slice: the core of its tile, else the enabled core of its quarter with the lowest port (R404). -/
def State.serviceCore (s : State) (sl : Nat) : Nat :=
  match s.coreInTile (s.tileOfSlice sl) with
  | some c => c
  | none => ((List.range 16).find? fun i => !(s.core (16 * (sl / 16) + i)).out).elim sl (16 * (sl / 16) + ·)

/-! ## The failure record (R9, R10) -/

/-- A unit's physical unit enters the failure record. -/
def State.recordFailure (s : State) (u : HwUnit) : State :=
  let p := s.physicalUnit u
  { s with ctl := { s.ctl with failures := if s.ctl.failures.contains p then s.ctl.failures else s.ctl.failures ++ [p] } }

/-- Core n is mapped out at its partition's next swap. -/
def State.failCore (s : State) (n : Nat) : State :=
  s.modClu (n / 4) fun x => { x with failed := if x.failed.contains n then x.failed else x.failed ++ [n] }

/-! ## Slice lines and ways (R1, R10, R165) -/

def Slice.data (x : Slice) (line : Nat) : Option SLine := (x.lines.find? fun e => e.1 == line).map Prod.snd

/-- Replaces a line's copy, or adds one. -/
def Slice.putData (x : Slice) (line : Nat) (d : SLine) : Slice :=
  { x with lines := x.lines.filter (fun e => e.1 != line) ++ [(line, d)] }

/-- The set of a line in its slice: 1024 sets of 16 ways of 64 bytes. Bits [15:6] of the address are the lines of a region, of which a
slice homes 16; the set is taken from the bits above the hash's lowest field (notes/assumptions/149.md). -/
def sliceSet (line : Nat) : Nat := line / 64 % 1024

/-- The ways of a slice in service. -/
def Slice.ways (x : Slice) : List Nat := (List.range 16).filter fun w => !x.outWays.contains w

/-- The lines of a set. -/
def Slice.setLines (x : Slice) (line : Nat) : List (Nat × SLine) := x.lines.filter fun e => sliceSet e.1 == sliceSet line

/-- A way of the line's set that holds no line. -/
def Slice.freeWay (x : Slice) (line : Nat) : Option Nat :=
  x.ways.find? fun w => (x.setLines line).all fun e => e.2.way != w

/-- The least recently used of some lines. -/
def oldestLine (l : List (Nat × SLine)) : Option (Nat × SLine) :=
  l.foldl (fun b e => match b with
    | none => some e
    | some x => if e.2.used < x.2.used then some e else b) none

/-- The line that leaves a full set: the least recently used on which no transaction is open, else the least recently used. -/
def Slice.victimLine (x : Slice) (line : Nat) : Option (Nat × SLine) :=
  match oldestLine ((x.setLines line).filter fun e => x.txns.all fun t => t.line != e.1) with
  | some e => some e
  | none => oldestLine (x.setLines line)

/-- A line leaves a slice: dirty data go to DRAM, and its reservations are cancelled (R62). -/
def State.dropLine (s : State) (sl line : Nat) : State :=
  match (s.sl sl).data line with
  | none => s
  | some d =>
    let s := if d.dirty then s.dramPutLine line d.data d.poison else s
    s.modSl sl fun x => { x with lines := x.lines.filter (fun e => e.1 != line)
                                 reservations := x.reservations.filter fun r => r.line != line }

/-- Puts a line's data into its slice: over the copy that it holds, else into a free way, else in place of the set's victim. -/
def State.putLine (s : State) (sl line : Nat) (d : SLine) : State :=
  let d := { d with used := s.sclk }
  match (s.sl sl).data line with
  | some o => s.modSl sl fun x => x.putData line { d with way := o.way }
  | none =>
    match (s.sl sl).freeWay line with
    | some w => s.modSl sl fun x => x.putData line { d with way := w }
    | none =>
      match (s.sl sl).victimLine line with
      | some v => (s.dropLine sl v.1).modSl sl fun x => x.putData line { d with way := v.2.way }
      | none => if d.dirty then s.dramPutLine line d.data d.poison else s

/-- A line's data at its home: the slice's copy, else DRAM's. -/
def State.lineData (s : State) (sl line : Nat) : SLine :=
  ((s.sl sl).data line).getD { data := s.dramLine line, poison := s.dramBad line }

/-- Way w of a slice leaves service; the slice's spare way stands in for the first one. -/
def Slice.outWay (x : Slice) (w : Nat) : Slice :=
  if x.spareWayUsed then { x with outWays := if x.outWays.contains w then x.outWays else x.outWays ++ [w] }
  else { x with spareWayUsed := true }

/-- A way of a slice is retired (R10): its dirty lines are written back and its other lines are dropped. -/
def State.retireWay (s : State) (n w : Nat) : State :=
  (foldS (fun (l : Nat × SLine) (s : State) => if l.2.way = w then s.dropLine n l.1 else s) (s.sl n).lines s).modSl n fun x => x.outWay w

/-! ## Notices of errors (R29) -/

/-- A region is told of a unit-fatal error through its fault handler. The manual gives the record of such an event no cause, no kind
and no value. -/
def State.notifyRegion (s : State) (r : Nat) : State :=
  let n := s.free
  ({ s with free := n + 3 }).faultEvent r
    { cause := Config.freeNat n % 256, kind := Config.freeNat (n + 1) % 256, val := Config.freeWord (n + 2) }

/-- The region resident on a cluster is told. -/
def State.notifyCluster (s : State) (c : Nat) : State :=
  match (s.clu c).resident with
  | some k => s.notifyRegion (k / 16)
  | none => s

/-- Every resident region is told: the unit is one that all of them use (notes/assumptions/115.md). -/
def State.notifyAll (s : State) : State :=
  foldS (fun r (s : State) => s.notifyRegion r)
    ((List.range 16).filterMap fun c => (s.clu c).resident.map (· / 16)).eraseDups s

/-! ## The classes of R29 -/

/-- A device-fatal error: the device stops accepting work, and vector 0 fires if the link is up. -/
def State.deviceFatal (s : State) (u : HwUnit) (addr : Word) : State :=
  let s := ({ s with pow := { s.pow with fatal := true } }).logError 3 u addr
  if s.port.up then s.sendMsix 0 else s

/-- The tiles that a network link joins, as the model numbers links: a port and its perfect shuffle (R150). -/
def linkTiles (n : Nat) : Nat × Nat := (n % 64, n % 64 * 2 % 64 + n % 64 / 32)

/-- A unit-fatal error: the unit is mapped out by R10, R19 or R153, and the regions that it serves are told. A host port that is
unit-fatal is the loss of the host link (notes/assumptions/127.md). -/
def State.unitFatal (s : State) (u : HwUnit) (addr : Word) : State :=
  let s := s.logError 2 u addr
  match u with
  | .core n => ((s.recordFailure u).failCore n).notifyCluster (n / 4)
  | .cluster c => (foldS (fun j (s : State) => s.failCore (4 * c + j)) (List.range 4) (s.recordFailure u)).notifyCluster c
  | .slice _ => (s.recordFailure u).notifyAll
  | .frontEnd | .netInterface _ => s.recordFailure u
  | .link n =>
    let t := linkTiles n
    (((s.recordFailure (.core t.1)).recordFailure (.core t.2)).failCore t.1).failCore t.2
  | .way n w => ((s.recordFailure u).retireWay n w).notifyAll
  | .channel ch =>
    let s := s.recordFailure u
    ({ s with pow := { s.pow with failedCh := if s.pow.failedCh.contains ch then s.pow.failedCh else s.pow.failedCh ++ [ch] } }).notifyAll
  | .hostPort => ({ s with port := { s.port with up := false } }).deviceFatal u addr
  | .controlCore n =>
    let s := s.recordFailure u
    if s.ctl.failures.contains (.controlCore (1 - n)) then s.deviceFatal u addr else s

/-- The count of a unit's own clock: A-cycles of its cluster, F-cycles, or S-cycles. -/
def State.unitClock (s : State) : HwUnit → Nat
  | .core n => (s.clu (n / 4)).acycles
  | .cluster n => (s.clu n).acycles
  | .frontEnd | .controlCore _ => s.fclk
  | _ => s.sclk

/-- A corrected error: it is logged and counted, and the sixteenth within 2^32 cycles makes the unit unit-fatal (R31). -/
def State.corrected (s : State) (u : HwUnit) (addr : Word) : State :=
  let s := s.logError 0 u addr
  let now := s.unitClock u
  let old := match s.ctl.errCount.find? fun (e : HwUnit × List Nat) => e.1 == u with
    | some e => e.2
    | none => []
  let l := (old.filter fun t => decide (now < t + 2 ^ 32)) ++ [now]
  let rest := s.ctl.errCount.filter fun (e : HwUnit × List Nat) => e.1 != u
  if 16 ≤ l.length then ({ s with ctl := { s.ctl with errCount := rest } }).unitFatal u addr
  else { s with ctl := { s.ctl with errCount := rest ++ [(u, l)] } }

/-- Data found uncorrectable: the poisoned class, logged (R29, R31). -/
def State.poisoned (s : State) (u : HwUnit) (addr : Word) : State := s.logError 1 u addr

end Sys2Proof.Machine
end

