-- ==== Sys2Proof/Machine/Channel.lean ====
section
/-!
DEFINITION. Messages as their channels see them: class and order (R42, R43), what a held message does to its channel, and the credits
of the host port (R44).
-/

namespace Sys2Proof.Machine

/-! ## Classes (R42, R46, R155) -/

/-- The message of a pending step that is one, with its class code. -/
def evMsg : Ev → Option (Nat × Msg)
  | .rds m | .rdx m | .upg m | .rdnc m | .wrnc m | .wrf m | .atom m | .llk m | .sck m | .watch m => some (0, m)
  | .mcrd m | .spwr m | .sprd m | .spsy m => some (0, m)
  | .sinv m | .sshr m | .sbinv m | .rrec m | .rdin m | .rdrm m => some (1, m)
  | .ds m | .de m | .dm m | .gm m | .cmp m | .atr m | .lkd m | .scf m | .woke m | .rty m | .wba m | .wbx m | .pack m | .pdat m =>
    some (2, m)
  | .mcd m | .spdat m => some (2, m)
  | .wbd m | .evc m | .repl m => some (3, m)
  | .userMessage m | .dec m | .notice m | .dirsvc m => some (4, m)
  | .lreq m | .chunk m => some (5, m)
  | .crd m | .grant m | .alwRet m | .cret m | .dsack m => some (6, m)
  | _ => none

/-- The channel of a pending step: class, source and destination of a message (R43); the commands to one bank are a channel of their
own (R92), and the outlets of one sluice board act in ascending order (R223). -/
def channelKey (e : Ev) : Option (Nat × Nat × Nat) :=
  match evMsg e with
  | some (c, m) => some (c, m.src, m.dst)
  | none => match e with
    | .xld u _ _ | .brun u _ | .bhalt u | .bres u | .prd u _ _ => some (8, u, 0)
    | .sluiceOutletFire ck _ => some (9, ck, 0)
    | _ => none

/-- Whether two pending steps are of one channel, whose order holds. -/
def sameChannel (a b : Ev) : Bool := (channelKey a).isSome && channelKey a == channelKey b

/-- The position of the oldest pending step of the channel of the step at position `i`. -/
def oldestOf (l : List Ev) (i : Nat) : Nat :=
  match l[i]? with
  | some e => (l.findIdx? fun a => sameChannel a e).getD i
  | none => i

/-- A message that its destination cannot take yet stays at the head of its channel: the whole channel goes behind the other work
pending, in its order (R43). -/
def State.holdBack (s : State) (e : Ev) : State :=
  { s with agenda := s.agenda.filter (fun a => !sameChannel a e) ++ [e] ++ s.agenda.filter fun a => sameChannel a e }

/-! ## A page request without an answer (R74) -/

/-- PAGE_REQUEST_TIMEOUT: PAGE_FAIL, and a corrected error of the host port; the index stays in use for the late response. -/
def State.onPageTimeout (s : State) (prg : Nat) : State :=
  match takeFirst (fun (p : PageReq) => p.sent && p.prg == prg) s.svc.pages with
  | none => s
  | some (p, rest) =>
    let s := { s with svc := { s.svc with pages := rest, latePrgs := s.svc.latePrgs ++ [prg] }
                      port := { s.port with priSent := s.port.priSent.filter fun e => e.1 != prg } }
    State.sendPages ((s.endPage p (some Cause.pageFail)).corrected .hostPort 0)

/-! ## Credits of the host port (R44) -/

/-- An ECI agent of the host die. -/
def isEci (a : Nat) : Bool := decide (0x40 ≤ a) && decide (a < 0x50)

/-- The class of a message held for a credit. -/
def heldClass (e : Ev) : Nat := ((evMsg e).map Prod.fst).getD 7

/-- Sends a message that uses a credit of its class when it goes to the host: without a credit, or behind one that waits, it
waits. -/
def State.sendCredit (s : State) (cls : Nat) (dst : Nat) (e : Ev) : State :=
  if isEci dst then
    let n := Tbl.get 0 s.port.credits cls
    if n = 0 ∨ (s.port.held.any fun h => heldClass h == cls) then { s with port := { s.port with held := s.port.held ++ [e] } }
    else { (s.later e) with port := { s.port with credits := Tbl.put 0 s.port.credits cls (n - 1) } }
  else s.later e

def State.sendSnp (s : State) (dst : Nat) (e : Ev) : State := s.sendCredit 1 dst e
def State.sendRsp (s : State) (dst : Nat) (e : Ev) : State := s.sendCredit 2 dst e

/-- The credits that the device grants each host agent at link-up. -/
def hostLimit (cls : Nat) : Nat := match cls with | 0 => 64 | 2 => 256 | 3 => 32 | _ => 0

/-- Key of a host agent's credits of a class. -/
def hostKey (a cls : Nat) : Nat := 8 * a + cls

/-- The message of a host agent that waits for the agent's next credit of the class. -/
def State.hostWaiting (s : State) (a cls : Nat) : Option (Ev × List Ev) :=
  takeFirst (fun e => match evMsg e with | some (c, m) => c == cls && m.src == a | none => false) s.port.hostHeld

/-- An agent sends a message: a host agent needs a credit of its class, and its messages of the class go in order. A request of the host
aborts an entry to LS2 (R25). -/
def State.agentSend (s : State) (a cls : Nat) (e : Ev) : State :=
  if isEci a then
    let n := Tbl.get 0 s.port.hostUsed (hostKey a cls)
    if hostLimit cls ≤ n ∨ (s.hostWaiting a cls).isSome then { s with port := { s.port with hostHeld := s.port.hostHeld ++ [e] } }
    else
      let s := if cls = 0 then s.abortEntries else s
      { (s.later e) with port := { s.port with hostUsed := Tbl.put 0 s.port.hostUsed (hostKey a cls) (n + 1) } }
  else s.later e

/-- Credits come back to a host agent: its messages that waited go while the credits last. -/
def State.hostRefill (s : State) (a cls : Nat) : Nat → State
  | 0 => s
  | n + 1 =>
    match s.hostWaiting a cls with
    | some (e, rest) => State.hostRefill ({ s with port := { s.port with hostHeld := rest } }.later e) a cls n
    | none => { s with port := { s.port with hostUsed := Tbl.upd 0 s.port.hostUsed (hostKey a cls) (· - (n + 1)) } }

/-- A credit that a message from the host used is returned (R44). The manual names no sender of CRD: the model's comes from home 0
(notes/assumptions/128.md). -/
def State.returnCredit (s : State) (src cls : Nat) : State :=
  if isEci src then s.later (.crd { src := homeId 0, dst := src, atop := cls, len := 1 }) else s

/-- A host agent returns the credit of a message that it has sunk (R44). -/
def State.hostCredit (s : State) (a cls : Nat) : State :=
  if isEci a then s.later (.crd { src := a, dst := homeId 0, atop := cls, len := 1 }) else s

/-- Sends messages held for credits of a class, oldest first, while credits last. -/
def State.sendHeldN (s : State) (cls : Nat) : Nat → State
  | 0 => s
  | fuel + 1 =>
    let n := Tbl.get 0 s.port.credits cls
    match takeFirst (fun e => heldClass e == cls) s.port.held with
    | some (e, rest) =>
      if n = 0 then s
      else State.sendHeldN ({ s with port := { s.port with held := rest, credits := Tbl.put 0 s.port.credits cls (n - 1) } }.later e) cls fuel
    | none => s

/-- CRD: LENM1 + 1 credits of the class in ATOP. -/
def State.onCrd (s : State) (m : Msg) : State :=
  let cls := m.atop % 8
  if isEci m.dst then s.hostRefill m.dst cls m.len
  else
    let s := { s with port := { s.port with credits := Tbl.upd 0 s.port.credits cls (· + m.len) } }
    s.sendHeldN cls s.port.held.length

end Sys2Proof.Machine
end

