-- ==== Sys2Proof/Machine/Cache.lean ====
section
/-!
DEFINITION. The caching agents: the states of a line at a core's L1 or at an ECI agent (R41, R47
to R49, R60), store buffers (R206), probes and data replies.
-/

namespace Sys2Proof.Machine

/-! ## Lines of caching agents -/

def agentKey (a line : Nat) : Nat := a * 2 ^ 42 + line

def State.al (s : State) (a line : Nat) : ALine := Tbl.get {} s.agents (agentKey a line)
def State.setAl (s : State) (a line : Nat) (x : ALine) : State :=
  { s with agents := Tbl.put {} s.agents (agentKey a line) x }

/-- The lines of an agent. -/
def State.linesOf (s : State) (a : Nat) : List (Nat × ALine) :=
  s.agents.filterMap fun e => if e.1 / 2 ^ 42 = a then some (e.1 % 2 ^ 42, e.2) else none

/-- A load may read the line (R47). -/
def AState.readable : AState → Bool
  | .s | .e | .o | .m | .smA | .omA => true
  | _ => false

/-- A store may be performed: M, and E which becomes M without a message. -/
def AState.writable : AState → Bool
  | .e | .m => true
  | _ => false

def AState.stable : AState → Bool
  | .s | .e | .o | .m => true
  | _ => false

/-- The line's data are newer than the home's. -/
def AState.dirty : AState → Bool
  | .o | .m | .omA => true
  | _ => false

def AState.transient : AState → Bool
  | .isD | .imD | .smA | .omA => true
  | _ => false

/-- The GNT code of a state that an agent reports. -/
def AState.gnt : AState → Moesi
  | .s | .smA => .s
  | .e => .e
  | .o | .omA => .o
  | .m => .m
  | _ => .i

/-! ## Replacement (R60, R206) -/

/-- The context tag that a core's lines get now. -/
def State.tagOfCore (s : State) (c : Nat) : BitVec 8 :=
  match (s.clu (c / 4)).resident with
  | some k => match s.context k with | some x => x.tag | none => 0
  | none => 0

/-- Replaces a stable line: XI_A, with WBD for a dirty line and EVC for a clean one (R47). -/
def State.replaceLine (s : State) (a line : Nat) : State :=
  let l := s.al a line
  let m : Msg := { src := a, dst := homeId (homeOf line), line := line, ver := l.ver, poison := l.poison }
  if l.st.dirty then
    (s.setAl a line { l with st := .xiA, dirty := true }).agentSend a 3 (.wbd { m with data := some l.data })
  else (s.setAl a line { l with st := .xiA, dirty := false }).agentSend a 3 (.evc m)

/-- The victim of R60 among the stable lines of a set: the least recently used of an absent context, then the least
recently used. -/
def victim (tag : BitVec 8) (l : List (Nat × ALine)) : Option Nat :=
  let best (l : List (Nat × ALine)) : Option (Nat × ALine) :=
    l.foldl (fun b e => match b with
      | none => some e
      | some x => if e.2.used < x.2.used then some e else b) none
  let stable := l.filter fun e => e.2.st.stable
  match best (stable.filter fun e => e.2.tag != tag) with
  | some e => some e.1
  | none => (best stable).map Prod.fst

/-- Room for one more line in a core's L1: 64 miss entries, 512 sets of 12 ways, and a write-back buffer of 16. -/
def State.makeRoom (s : State) (c line : Nat) : Option State :=
  let ls := s.linesOf c
  if 64 ≤ (ls.filter fun e => e.2.st.transient).length then none
  else
    let set := ls.filter fun e => e.1 % 512 == line % 512 && e.2.st != .xiA
    if set.length < 12 then some s
    else if 16 ≤ (ls.filter fun e => e.2.st == .xiA).length then none
    else (victim (s.tagOfCore c) set).map fun v => s.replaceLine c v

/-! ## Requests of an agent -/

/-- Sends a caching request for a line. -/
def State.sendCaching (s : State) (a line : Nat) (k : AState) : State :=
  let m : Msg := { src := a, dst := homeId (homeOf line), line := line }
  s.agentSend a 0 (match k with
    | .isD => .rds m
    | .imD => .rdx m
    | _ => .upg m)

/-- An access of an agent to a line it cannot serve now: the transition of R47's Load and Store columns. A core needs a
miss entry and a way. -/
def State.agentMiss (s : State) (a line : Nat) (store : Bool) : State :=
  let l := s.al a line
  match l.st, store with
  | .i, st =>
    let k : AState := if st then .imD else .isD
    match (if a < 64 then s.makeRoom a line else some s) with
    | some s => (s.setAl a line { st := k, used := s.clock, tag := s.tagOfCore a, store := l.store }).sendCaching a line k
    | none => s
  | .s, true => (s.setAl a line { l with st := .smA, used := s.clock }).sendCaching a line .smA
  | .o, true => (s.setAl a line { l with st := .omA, used := s.clock }).sendCaching a line .omA
  | _, _ => s

/-! ## Store buffers and waiting loads -/

/-- The thread's own buffered stores to a line laid over its data (R206). -/
def Thread.forward (t : Thread) (line : Nat) (d : Vec) : Vec :=
  t.sbuf.foldl (fun d b => if b.line = line then mergeBytes d b.data b.mask else d) d

/-- The logical core where a thread's accesses go. -/
def State.coreOfThread (s : State) (t : Thread) : Nat := (s.coreOfCk t.roster).getD 64

/-- Fills the waiting pieces of one thread that read a line (R338). -/
def State.fillFromLine (s : State) (tk : Nat) (t : Thread) (line : Nat) (l : ALine) : State :=
  foldS (fun p s => foldS (fun (i : Nat) s =>
      match p.lanes[i]? with
      | some ln => match ln.src with
        | .mem pa =>
          if !ln.done && pa / 64 == line then
            let d := t.forward line l.data
            s.fillLane tk p.id i (BitVec.ofNat 512 (bytesAt d (pa % 64) ln.len))
              (if l.poison then some (word (64 * line)) else none)
          else s
        | _ => s
      | none => s) (List.range p.lanes.length) s) t.pend s

/-- Performs one thread's buffered stores to a line held in M or E (R206, R334). -/
def State.drainThread (s : State) (tk c line : Nat) : State :=
  match s.thr tk with
  | none => s
  | some t =>
    foldS (fun b s =>
      if b.line = line then
        let l := s.al c line
        let whole : Bool := b.mask == BitVec.allOnes 64
        s.setAl c line { l with st := .m, data := mergeBytes l.data b.data b.mask, used := s.clock, poison := l.poison && !whole }
      else s) t.sbuf (s.setThr tk { t with sbuf := t.sbuf.filter fun b => b.line != line })

/-- A line of a core changed: waiting loads are served, buffered stores performed, and what still waits asks again. -/
def State.kick (s : State) (c line : Nat) : State :=
  let l := s.al c line
  let mine := s.threads.filterMap fun e => match e.2 with
    | some t => if s.coreOfThread t = c then some (e.1, t) else none
    | none => none
  let waitsLoad := mine.any fun e => e.2.pend.any fun p => p.lanes.any fun ln => !ln.done && match ln.src with
    | .mem pa => pa / 64 == line
    | _ => false
  let waitsStore := mine.any fun e => e.2.sbuf.any fun b => b.line == line
  let s := if l.st.readable then foldS (fun e s => s.fillFromLine e.1 e.2 line l) mine s else s
  if waitsStore then
    (if l.st.writable then foldS (fun e s => s.drainThread e.1 c line) mine s else s.agentMiss c line true)
  else if waitsLoad ∧ !l.st.readable then s.agentMiss c line false
  else s

/-- The lines that a core's threads wait for. -/
def State.waitedLines (s : State) (c : Nat) : List Nat :=
  (s.threads.flatMap fun e => match e.2 with
    | some t =>
      if s.coreOfThread t = c then
        (t.sbuf.map fun b => b.line) ++ t.pend.flatMap fun p => p.lanes.filterMap fun ln =>
          match ln.src with
          | .mem pa => if ln.done then none else some (pa / 64)
          | _ => none
      else []
    | none => []).eraseDups

def State.kickAll (s : State) (c : Nat) : State := foldS (fun line s => s.kick c line) (s.waitedLines c) s

/-! ## Probes at an agent (R47 to R49) -/

/-- The answer to a probe. -/
def State.probeAnswer (s : State) (p : Msg) (l : ALine) (gnt : Moesi) (wb : Bool) (withData : Bool) : State :=
  let m : Msg := { src := p.dst, dst := p.src, txid := p.txid, line := p.line, ver := p.ver, gnt := gnt, wb := wb }
  s.agentSend p.dst 2 (if withData then .pdat { m with data := some l.data, poison := l.poison } else .pack m)

/-- A probe that passes the version test, or meets no line: R47's SINV and SSHR columns. -/
def State.probeStable (s : State) (k : ProbeKind) (p : Msg) : State :=
  let l := s.al p.dst p.line
  let share : Bool := k == .sshr
  match l.st with
  | .s | .e =>
    if share then (s.setAl p.dst p.line { l with st := .s }).probeAnswer p l .s false false
    else (s.setAl p.dst p.line {}).probeAnswer p l .i false false
  | .o | .m =>
    if share then (s.setAl p.dst p.line { l with st := .o }).probeAnswer p l .o false true
    else (s.setAl p.dst p.line {}).probeAnswer p l .i false true
  | .smA =>
    if share then s.probeAnswer p l .s false false
    else (s.setAl p.dst p.line { l with st := .imD }).probeAnswer p l .i false false
  | .omA =>
    if share then s.probeAnswer p l .o false true
    else (s.setAl p.dst p.line { l with st := .imD }).probeAnswer p l .i false true
  | .xiA => s.probeAnswer p l .i true l.dirty
  | _ => s.probeAnswer p l .i false false

/-- A probe to one line (R47, R48, R49). -/
def State.probe (s : State) (k : ProbeKind) (p : Msg) : State :=
  let l := s.al p.dst p.line
  match l.st with
  | .isD | .imD =>
    if l.deferred.length < 2 then
      s.setAl p.dst p.line { l with deferred := l.deferred ++ [{ p with sub := if k = .sshr then 1 else 0 }] }
    else s.probeAnswer p l .i false false
  | .i => s.probeAnswer p l .i false false
  | _ => if p.ver = l.ver then s.probeStable k p else s.probeAnswer p l .i false false

/-- SBINV at one line of its region (R47): a copy whose version matches is invalidated, dirty data go home in an answer of the
line's own, a line in XI_A answers for itself with WB = 1, and a line whose fill is awaited keeps the probe until the fill (R49). The
probe's own line stands in AMOUNT of what is kept. -/
def State.probeRegionLine (s : State) (p : Msg) (line : Nat) : State :=
  let l := s.al p.dst line
  let own : Msg := { p with line := line }
  match l.st with
  | .i => s
  | .isD | .imD =>
    if l.deferred.length < 2 then s.setAl p.dst line { l with deferred := l.deferred ++ [{ own with sub := 2, amount := p.line }] } else s
  | st =>
    if l.ver ≠ p.ver then s
    else match st with
      | .s | .e => s.setAl p.dst line {}
      | .smA => s.setAl p.dst line { l with st := .imD }
      | .o | .m => (s.setAl p.dst line {}).probeAnswer own l .i false true
      | .omA => (s.setAl p.dst line { l with st := .imD }).probeAnswer own l .i false true
      | _ => if line = p.line then s else s.probeAnswer own l .i true l.dirty

/-- A region probe is still deferred at a line of the agent. -/
def State.regionDeferred (s : State) (p : Msg) : Bool :=
  (s.linesOf p.dst).any fun e => e.2.deferred.any fun q => q.sub == 2 && q.src == p.src && q.ver == p.ver && q.amount == p.line

/-- The region's one answer, once no line of it keeps the probe: that of the probe's own line. -/
def State.answerRegion (s : State) (p : Msg) : State :=
  if s.regionDeferred p then s
  else
    let l := s.al p.dst p.line
    if l.st = .xiA ∧ l.ver = p.ver then s.probeAnswer p l .i true l.dirty else s.probeAnswer p l .i false false

/-- SBINV (R46, R47): every copy of the region's lines that the sender homes. -/
def State.probeRegion (s : State) (p : Msg) : State :=
  (foldS (fun (e : Nat × ALine) (s : State) =>
    if e.1 / 1024 = p.line / 1024 ∧ homeId (homeOf e.1) = p.src then s.probeRegionLine p e.1 else s) (s.linesOf p.dst) s).answerRegion p

/-! ## Data, grants and acknowledgements at an agent -/

/-- Applies the deferred probes of a line in arrival order (R49). -/
def State.applyDeferred (s : State) (a line : Nat) : State :=
  let l := s.al a line
  foldS (fun p s =>
    if p.sub = 2 then
      let p' : Msg := { p with sub := 0, amount := 0, line := p.amount }
      (s.probeRegionLine p' line).answerRegion p'
    else s.probe (if p.sub = 1 then .sshr else .sinv) { p with sub := 0 }) l.deferred
    (s.setAl a line { l with deferred := [] })

/-- A host agent's store that waits at a line: performed in E or M, else the agent asks for the line (R47). -/
def State.hostStore (s : State) (a line : Nat) : State :=
  let l := s.al a line
  match l.store with
  | none => s
  | some (mask, d) =>
    if l.st.writable then
      s.setAl a line { l with st := .m, data := mergeBytes l.data d mask, store := none, used := s.clock,
                              poison := l.poison && !(mask == BitVec.allOnes 64) }
    else s.agentMiss a line true

/-- The accesses of an agent that wait are served, or asked for, where they now can be: any line that a core's threads wait for may
have found a miss entry or a way (R206). -/
def State.serveWaiting (s : State) (a line : Nat) : State :=
  if a < 64 then (s.kick a line).kickAll a else s.hostStore a line

/-- DS, DE, DM or GM (R47): the line is installed, the accesses that waited are served, and deferred probes applied. A reply
that cannot occur is discarded and logged. -/
def State.dataReply (s : State) (st : AState) (m : Msg) : State :=
  let l := s.al m.dst m.line
  let ok : Bool := match l.st, st with
    | .isD, _ => m.data.isSome
    | .imD, .m => m.data.isSome
    | .smA, .m => true
    | .omA, .m => true
    | _, _ => false
  if ok then
    let l' : ALine := { l with st := st, ver := m.ver, data := m.data.getD l.data,
                               poison := if m.data.isSome then m.poison else l.poison, used := s.clock }
    ((s.setAl m.dst m.line l').serveWaiting m.dst m.line).applyDeferred m.dst m.line
  else s.corrected (if isEci m.dst then .hostPort else .netInterface m.dst) (word (64 * m.line))

/-- WBA or WBX (R47): XI_A becomes I, and accesses that waited ask anew. -/
def State.wbReply (s : State) (m : Msg) : State :=
  let l := s.al m.dst m.line
  if l.st = .xiA then (s.setAl m.dst m.line { store := l.store }).serveWaiting m.dst m.line
  else s.corrected (if isEci m.dst then .hostPort else .netInterface m.dst) (word (64 * m.line))

/-- RTY (R46): the agent sends its request again. -/
def State.resend (s : State) (m : Msg) : State :=
  let l := s.al m.dst m.line
  if l.st.transient then s.sendCaching m.dst m.line l.st else s

/-! ## Accesses of a core (R206, R338) -/

/-- Writes back and invalidates a core's own copy of a line, if it holds one (R62, R354). `none` while the copy is in a
transient state. -/
def State.flushLine (s : State) (c line : Nat) : Option State :=
  let l := s.al c line
  match l.st with
  | .i => some s
  | .s | .e | .o | .m => some (s.replaceLine c line)
  | _ => none

/-- An access of the thread to a line is in progress that a later store to it must follow (R339). -/
def Thread.lineHeld (t : Thread) (line : Nat) : Bool :=
  t.pend.any fun p => p.line == some line || p.lanes.any fun ln => !ln.done && match ln.src with
    | .mem pa => pa / 64 == line
    | _ => false

/-- Adds a store of bytes of one line to the thread's store buffer: performed at once in M or E, merged with an entry of the
line, or a new entry. `none` refuses the unit: a load of the line is still to be served. -/
def State.storeLine (s : State) (tk c line : Nat) (mask : BitVec 64) (d : Vec) : Option State :=
  match s.thr tk with
  | none => none
  | some t =>
    let l := s.al c line
    if t.lineHeld line then none
    else if l.st.writable ∧ (t.sbuf.all fun b => b.line != line) then
      some (s.setAl c line { l with st := .m, data := mergeBytes l.data d mask, used := s.clock,
                                    poison := l.poison && !(mask == BitVec.allOnes 64) })
    else if t.sbuf.any fun b => b.line == line then
      some (s.setThr tk { t with
        sbuf := mapIf (fun b => b.line == line) (fun b => { b with mask := b.mask ||| mask, data := mergeBytes b.data d mask }) t.sbuf })
    else
      some ((s.setThr tk { t with sbuf := t.sbuf ++ [{ line := line, mask := mask, data := mergeBytes 0 d mask }] }).agentMiss c
        line true)

/-- The bytes of a line that a load of the thread can read at once: an L1 hit with the thread's own stores laid over it, or
its own stores alone where they cover it. -/
def State.loadLine (s : State) (t : Thread) (c line off n : Nat) : Option (Nat × Bool) :=
  let l := s.al c line
  let covered : Bool := t.sbuf.any fun b => b.line == line && (b.mask &&& byteMask off n) == byteMask off n
  if l.st.readable then some (bytesAt (t.forward line l.data) off n, l.poison)
  else if covered then some (bytesAt (t.forward line 0) off n, false)
  else none

end Sys2Proof.Machine
end

