-- ==== Sys2Proof/Machine/Home.lean ====
section
/-!
DEFINITION. The homes: directory nodes (R50 to R57), requests and the transactions they open (R52, R61 to R63), write-backs
(R59), fills and the replay queue (R165, R166), hot lines (R163, R164) and masked multicast reads (R161, R456).
-/

namespace Sys2Proof.Machine

/-! ## Nodes (R50, R51) -/

/-- The set of a region's nodes. -/
def setOf (region : Nat) : Nat :=
  Nat.xor (bits region 0 9) (Nat.xor (bits region 9 9) (Nat.xor (bits region 18 9) (bits region 27 5)))

/-- A node's range holds a line: the top LEVEL bits of the line's path agree. -/
def Node.covers (n : Node) (line : Nat) : Bool :=
  n.region == line / 1024 && line % 1024 / 2 ^ (10 - n.level) == n.path / 2 ^ (10 - n.level)

def Node.sameKey (a b : Node) : Bool := a.region == b.region && a.level == b.level && a.path == b.path

/-- The node that covers a line. -/
def Slice.node (x : Slice) (line : Nat) : Option Node := x.nodes.find? fun n => n.covers line

def Slice.setNode (x : Slice) (n : Node) : Slice := { x with nodes := mapIf (fun e => e.sameKey n) (fun _ => n) x.nodes }

/-- The lines of a node's range that a slice homes. -/
def homedLines (sl : Nat) (n : Node) : List Nat :=
  (List.range (2 ^ (10 - n.level))).filterMap fun i =>
    let line := n.region * 1024 + n.path / 2 ^ (10 - n.level) * 2 ^ (10 - n.level) + i
    if homeOf line = sl then some line else none

/-- The possible holders that a node names. -/
def Node.holders (n : Node) : List Nat := ((if n.st = .own then [n.owner] else []) ++ n.sh).eraseDups

/-- A node's key: region, level and path. -/
def Node.key (n : Node) : Nat × Nat × Nat := (n.region, n.level, n.path)

/-- A transaction is open on a line. -/
def Slice.busy (x : Slice) (line : Nat) : Bool :=
  x.txns.any fun t => t.line == line && (t.kind == .request || t.kind == .replicate || t.kind == .unreplicate)

/-- The node of a line is being evicted, recalled or made clean. -/
def Slice.nodeHeld (x : Slice) (line : Nat) : Bool :=
  match x.node line with
  | some n => x.txns.any fun t => (t.kind == .evict || t.kind == .recall || t.kind == .clean) && t.node == n.key
  | none => false

/-- A transaction is open on a line of the node's range. -/
def Slice.nodeBusy (x : Slice) (n : Node) : Bool := x.txns.any fun t => t.kind != .dsprobe && n.covers t.line

/-- A node is pinned: a far atomic holds one of its lines. -/
def Slice.nodePinned (x : Slice) (n : Node) : Bool :=
  n.pinned || x.txns.any fun t => n.covers t.line && match t.ev with
    | some (.atom _) => true
    | some (.sck _) => true
    | _ => false

/-- The widest range that holds a line and overlaps no node of its region (R50). -/
def Slice.freshLevel (x : Slice) (line : Nat) : Nat :=
  let near := x.nodes.filter fun n => n.region == line / 1024
  let clash (level : Nat) : Bool :=
    near.any fun n =>
      let k := min level n.level
      line % 1024 / 2 ^ (10 - k) == n.path / 2 ^ (10 - k)
  ((List.range 11).find? fun level => !clash level).getD 10

def Slice.setUsed (x : Slice) (region : Nat) : Nat := (x.nodes.filter fun n => setOf n.region == setOf region).length

/-! ## Slice data (R165) -/

/-- Data taken from an agent's answer or write-back. -/
def State.takeData (s : State) (sl line : Nat) (d : Vec) (poison : Bool) : State :=
  s.putLine sl line { data := d, dirty := true, poison := poison }

/-- A line becomes clean: a dirty copy is written to DRAM (R95). -/
def State.cleanLine (s : State) (sl line : Nat) : State :=
  match (s.sl sl).data line with
  | some d =>
    if d.dirty then (s.dramPutLine line d.data d.poison).modSl sl fun x => x.putData line { d with dirty := false } else s
  | none => s

/-- A request on a line: its node and its copy are used now (R54, R56). -/
def State.touch (s : State) (sl line : Nat) : State :=
  s.modSl sl fun x =>
    let x := match x.node line with
      | some n => x.setNode { n with used := s.sclk }
      | none => x
    match x.data line with
    | some d => x.putData line { d with used := s.sclk }
    | none => x

/-! ## Reservations and watches (R62, R63, R354) -/

def State.cancelReservations (s : State) (sl line : Nat) : State :=
  s.modSl sl fun x => { x with reservations := x.reservations.filter fun r => r.line != line }

/-- WOKE to a watch. -/
def State.sendWoke (s : State) (sl : Nat) (w : Nat × Nat × Nat) (txid status stat : Nat) : State :=
  s.later (.woke { src := homeId sl, dst := w.1, txid := txid, line := w.2.2, thread := w.2.1, stat := stat,
                   data := some (BitVec.ofNat 512 status), len := 8 })

/-- A request that may write the line is granted or performed: its watches fire with status 1. -/
def State.fireWatches (s : State) (sl line : Nat) : State :=
  let x := s.sl sl
  let hit := x.watches.filter fun w => w.2.2 % 2 ^ 42 == line
  let s := s.setSl sl { x with watches := x.watches.filter fun w => w.2.2 % 2 ^ 42 != line }
  foldS (fun w s => s.sendWoke sl (w.1, w.2.1, line) (w.2.2 / 2 ^ 42) 1 0) hit s

/-! ## Replies -/

/-- The fields of a reply to a request. -/
def replyTo (sl : Nat) (m : Msg) : Msg :=
  { src := homeId sl, dst := m.src, txid := m.txid, line := m.line, off := m.off, len := m.len, thread := m.thread }

/-- Accesses of device units whose probes were answered lose their mark: all of a line, or only the writes (R52). -/
def Slice.unmark (x : Slice) (line : Nat) (all : Bool) : Slice :=
  { x with ready := x.ready.filter fun r => !(r.2.1 == line && (all || r.2.2)) }

/-- A grant: DS, DE, DM or GM with the node's version after it (R58). E and M grants may write the line. -/
def State.grant (s : State) (sl : Nat) (m : Msg) (g : Moesi) (ver : BitVec 8) (withData : Bool) : State :=
  let d := s.lineData sl m.line
  let r : Msg := { replyTo sl m with ver := ver, gnt := g, data := if withData then some d.data else none,
                                     poison := withData && d.poison, len := 64, off := 0 }
  let e : Ev := match g with
    | .s => .ds r
    | .e => .de r
    | _ => if withData then .dm r else .gm r
  let s := (s.sendRsp m.src e).modSl sl fun x => x.unmark m.line (decide (g ≠ .s))
  if g = .s then s else (s.cancelReservations sl m.line).fireWatches sl m.line

/-! ## Deferred probes that a home takes back (R49) -/

/-- A caching request of an agent for a line waits unserved at the home. -/
def State.requestWaits (s : State) (sl agent line : Nat) : Bool :=
  let mine (e : Ev) : Bool := match e with
    | .rds m | .rdx m | .upg m => m.src == agent && m.line == line
    | _ => false
  (s.sl sl).replay.any mine || (s.sl sl).filling.any fun f => f.1 == line && f.2.any mine

/-- Withdraws the probes deferred at an agent whose own request for the line waits unserved at this home: they are answered as
misses, for the agent holds no copy (R49). -/
def State.withdrawDeferred (s : State) (sl agent line : Nat) : State :=
  let l := s.al agent line
  let mine := l.deferred.filter fun p => p.src == homeId sl
  if mine.isEmpty then s
  else
    let s := s.setAl agent line { l with deferred := l.deferred.filter fun p => p.src != homeId sl }
    foldS (fun p (s : State) =>
      if p.sub = 2 then s.answerRegion { p with sub := 0, amount := 0, line := p.amount }
      else s.probeAnswer { p with sub := 0 } l .i false false) mine s

/-! ## The replay queue (R166) -/

/-- A request waits in the replay queue. -/
def State.replayPut (s : State) (sl : Nat) (e : Ev) (m : Msg) : State :=
  let s := s.modSl sl fun x => { x with replay := x.replay ++ [e] }
  match e with
  | .rds _ | .rdx _ | .upg _ => s.withdrawDeferred sl m.src m.line
  | _ => s

/-- The replay queue takes no more requests. -/
def Slice.full (x : Slice) : Bool := decide (256 ≤ x.replay.length)

/-- A transaction of the slice ended: waiting requests are tried again. -/
def State.retrySoon (s : State) (sl : Nat) : State :=
  if (s.sl sl).replay.isEmpty then s else s.laterOnce (.replayRetry sl)

/-! ## Requests by kind -/

/-- What a request asks of the directory (R52). -/
inductive ReqKind where
  | rds | own (upg : Bool) | read | write
  deriving DecidableEq, Repr

def reqKind : Ev → ReqKind
  | .rds _ => .rds
  | .rdx _ => .own false
  | .upg _ => .own true
  | .wrnc _ | .wrf _ | .atom _ | .sck _ => .write
  | _ => .read

/-- The requester still holds the line of an UPG (R52). -/
def State.stillHolds (s : State) (m : Msg) : Bool :=
  match (s.al m.src m.line).st with
  | .smA | .omA => true
  | st => st.readable

/-- A line lies in a weight-stable range that the slice applies (R97), by 2 MiB number. -/
def Slice.isStable (x : Slice) (line : Nat) : Bool := x.stable.contains (line / 32768)

/-- A request may write its line. -/
def ReqKind.writes : ReqKind → Bool
  | .own _ | .write => true
  | _ => false

/-- RDS of a line of the node is granted E: nobody else may hold the line (R52). -/
def Slice.exclusive (x : Slice) (n : Node) (m : Msg) : Bool :=
  n.st != .bcast && !x.isStable m.line && !n.ovf && !(n.sh.any (· != m.src)) && (n.st == .unc || (n.st == .own && n.owner == m.src))

/-- A request writes its line, or is granted its ownership (R164). -/
def Slice.takesLine (x : Slice) (k : ReqKind) (m : Msg) : Bool :=
  match k with
  | .rds => match x.node m.line with
    | some n => x.exclusive n m
    | none => !x.isStable m.line
  | k => k.writes

/-! ## Directory-service notices (R57, R404) -/

/-- The interface of a slice's tile injects DIRSVC. It is a message of no region, and counts as one (R167). -/
def State.sendNoticeOf (s : State) (sl : Nat) (m : Msg) : State :=
  (s.countInj (s.serviceCore sl) standbyRegion).later (.dirsvc { m with src := homeId sl, dst := s.serviceCore sl })

/-- Posts a SHARER notice to the slice's service core. -/
def State.postSharer (s : State) (sl agent line level : Nat) (ver : BitVec 8) : State :=
  (s.modSl sl fun x => { x with unacked := x.unacked + 1 }).sendNoticeOf sl { line := line, ver := ver, sub := 1, ctag := agent, chunk := level }

/-- Posts an INVAL notice for an open transaction, of one line or of a node's range. -/
def State.postInval (s : State) (sl line level : Nat) (ver : BitVec 8) (token span : Nat) : State :=
  s.sendNoticeOf sl { line := line, ver := ver, txid := token, sub := 2, chunk := level, slot := span }

/-- A token that names no open transaction of the slice yet. -/
def Slice.freshToken (x : Slice) : Nat :=
  ((List.range 65536).find? fun n => x.txns.all fun t => !(t.awaitDs && t.token == n)).getD 0

/-- Adds a sharer; the fifth sets OVF and goes to software (R57). -/
def State.addSharer (s : State) (sl : Nat) (n : Node) (a : Nat) (line : Nat) : State :=
  if n.sh.contains a ∨ (n.st = .own ∧ n.owner = a) then s
  else
    let st : NState := if n.st = .unc then .shr else n.st
    if n.sh.length < 4 then s.modSl sl fun x => x.setNode { n with st := st, sh := n.sh ++ [a] }
    else (s.modSl sl fun x => x.setNode { n with ovf := true }).postSharer sl a line n.level n.ver

/-! ## Transactions -/

/-- Sends a probe to an agent. -/
def State.sendProbe (s : State) (sl : Nat) (k : ProbeKind) (a line : Nat) (ver : BitVec 8) : State :=
  let m : Msg := { src := homeId sl, dst := a, line := line, ver := ver }
  s.sendSnp a (match k with
    | .sinv => .sinv m
    | .sshr => .sshr m
    | .sbinv => .sbinv m)

/-- A number that no transaction of the slice has. -/
def Slice.freshTxn (x : Slice) : Nat := (x.txns.map Txn.id).foldl max 0 + 1

/-- Opens a transaction with probes to be answered. -/
def State.openTxn (s : State) (sl : Nat) (t : Txn) (k : ProbeKind) (to_ : List (Nat × Nat)) (ver : BitVec 8) : State :=
  let t := { t with id := (s.sl sl).freshTxn, probes := to_.map fun p => ⟨p.1, p.2, ver⟩ }
  foldS (fun p s => s.sendProbe sl k p.1 p.2 ver) to_ (s.modSl sl fun x => { x with txns := x.txns ++ [t] })

/-- Frees an evicted node: its set version advances, and its lines' reservations and watches end (R50, R56, R354). -/
def State.freeNode (s : State) (sl : Nat) (n : Node) : State :=
  let s := s.modSl sl fun x => { x with
    nodes := x.nodes.filter fun e => !e.sameKey n
    setVer := Tbl.upd 0 x.setVer (setOf n.region) (· + 1) }
  foldS (fun line s => (s.cancelReservations sl line).fireWatches sl line) (homedLines sl n) s

/-- Starts the eviction of a node (R56): SINV to every possible holder for every homed line; the overflow's software step.
A node with nobody to ask is freed at once. -/
def State.startEvict (s : State) (sl : Nat) (n : Node) : State :=
  let targets := (homedLines sl n).flatMap fun line => n.holders.map fun a => (a, line)
  let t : Txn := { kind := .evict, line := n.region * 1024 + n.path, node := n.key, awaitDs := n.ovf,
                   token := (s.sl sl).freshToken }
  if targets.isEmpty ∧ !n.ovf then s.freeNode sl n
  else
    let s := s.openTxn sl t .sinv targets n.ver
    if n.ovf then s.postInval sl (n.region * 1024 + n.path) n.level n.ver t.token 1 else s

/-- The node to evict from a set: the least recently used that is neither BUSY nor PINNED and does not cover the line. -/
def Slice.victimNode (x : Slice) (line : Nat) : Option Node :=
  let free := x.nodes.filter fun n =>
    setOf n.region == setOf (line / 1024) && !x.nodeBusy n && !x.nodePinned n && !n.covers line
  free.foldl (fun b n => match b with
    | none => some n
    | some m => if n.used < m.used then some n else b) none

/-- An eviction in the set of a line is under way. -/
def Slice.evicting (x : Slice) (line : Nat) : Bool :=
  x.txns.any fun t => t.kind == .evict && setOf t.node.1 == setOf (line / 1024)

/-- Evicts one node to free a way for a line, unless an eviction in its set is under way (R56). -/
def State.evictFor (s : State) (sl line : Nat) : State :=
  if (s.sl sl).evicting line then s
  else match (s.sl sl).victimNode line with
    | some v => s.startEvict sl v
    | none => s

/-- A request waits for a way of its set; what has just been freed is tried soon. -/
def State.waitForWay (s : State) (sl : Nat) (e : Ev) (m : Msg) : State :=
  let s' := (s.evictFor sl m.line).replayPut sl e m
  if (s.sl sl).evicting m.line then s' else s'.retrySoon sl

/-- The ways that a split of a node down to level 10 adds to its set (R53). -/
def Slice.splitRoom (x : Slice) (n : Node) : Bool := decide (x.setUsed n.region + (10 - n.level) ≤ 16)

/-- Splits the node that covers a line down to level 10 (R53): each half keeps the record. -/
def Slice.splitTo (x : Slice) (line : Nat) : Nat → Slice
  | 0 => x
  | fuel + 1 =>
    match x.node line with
    | none => x
    | some n =>
      if 10 ≤ n.level then x
      else
        let base := n.path / 2 ^ (10 - n.level) * 2 ^ (10 - n.level)
        let a := { n with level := n.level + 1, path := base }
        let b := { n with level := n.level + 1, path := base + 2 ^ (9 - n.level) }
        Slice.splitTo { x with nodes := x.nodes.filter (fun e => !e.sameKey n) ++ [a, b] } line fuel

/-! ## Replication of hot lines (R163, R164) -/

/-- The three helper slices of a home. -/
def helpersOf (h : Nat) : List Nat := ((List.range 4).map fun q => 16 * q + h % 16).filter (· != h)

/-- The interfaces outside the home's quarter (R163). -/
def farTiles (h : Nat) : List Nat := (List.range 64).filter fun c => c / 16 != h / 16

/-- Removes a line's replication before a write: RDRM and RREC, awaited by a transaction. -/
def State.unreplicate (s : State) (sl line : Nat) (h : Hot) : State :=
  let t : Txn := { kind := .unreplicate, line := line, id := (s.sl sl).freshTxn,
                   probes := (h.helpers.map fun a => ⟨homeId a, line, 0⟩) ++ h.ifaces.map fun c => ⟨c, line, 0⟩ }
  let s := s.modSl sl fun x => { x with txns := x.txns ++ [t] }
  let s := foldS (fun c s => s.later (.rdrm { src := homeId sl, dst := c, line := line })) h.ifaces s
  foldS (fun a s => s.later (.rrec { src := homeId sl, dst := homeId a, line := line })) h.helpers s

/-- A hot-table entry whose window of 2^12 S-cycles is past starts again; else it counts one more request. -/
def Hot.count1 (h : Hot) (now : Nat) : Hot :=
  if h.start + 2 ^ 12 ≤ now then { h with count := 1, start := now, last := now } else { h with count := h.count + 1, last := now }

/-- An entry for a line that the hot table does not hold: while it is full, the first entry without replicas gives way. -/
def Slice.newHot (x : Slice) (line now : Nat) : Slice :=
  let hot := if x.hot.length < 32 then x.hot else match x.hot.find? fun h => !h.active with
    | some h => x.hot.filter fun e => e.line != h.line
    | none => x.hot
  if hot.length < 32 then { x with hot := hot ++ [{ line := line, count := 1, start := now, last := now }] } else x

/-- The line may be replicated: it is at hand, no transaction is open on it, and its node records no owner (R163). -/
def Slice.mayReplicate (x : Slice) (line : Nat) : Bool :=
  (x.data line).isSome && !x.busy line && match x.node line with
    | some n => n.st != .own
    | none => true

/-- Starts a line's replication: REPL to the helpers, RDIN to the interfaces outside the quarter (R163). -/
def State.replicate (s : State) (sl : Nat) (h : Hot) : State :=
  let h := { h with active := true, helpers := helpersOf sl, ifaces := farTiles sl }
  let d := s.lineData sl h.line
  let t : Txn := { kind := .replicate, line := h.line, id := (s.sl sl).freshTxn,
                   probes := (h.helpers.map fun a => ⟨homeId a, h.line, 0⟩) ++ h.ifaces.map fun c => ⟨c, h.line, 0⟩ }
  let s := s.modSl sl fun x => { x.unmark h.line false with
    hot := mapIf (fun e => e.line == h.line) (fun _ => h) x.hot, txns := x.txns ++ [t] }
  let s := foldS (fun a s => s.later (.repl { src := homeId sl, dst := homeId a, line := h.line, data := some d.data, poison := d.poison }))
    h.helpers s
  foldS (fun c s => s.later (.rdin { src := homeId sl, dst := c, line := h.line, slot := 16 * (c / 16) + sl % 16 })) h.ifaces s

/-- Counts an RDS, RDNC or MCRD request for a line, and starts its replication at 256 within 2^12 S-cycles (R163). -/
def State.countHot (s : State) (sl line : Nat) : State :=
  let x := s.sl sl
  match x.hot.find? fun h => h.line == line with
  | none => s.setSl sl (x.newHot line s.sclk)
  | some h =>
    let h := h.count1 s.sclk
    if 256 ≤ h.count ∧ !h.active ∧ x.mayReplicate line then s.replicate sl h
    else s.setSl sl { x with hot := mapIf (fun e => e.line == line) (fun _ => h) x.hot }

/-- A request that a helper serves keeps the replicas in use (R164). -/
def State.useReplica (s : State) (sl line : Nat) : State :=
  s.modSl sl fun x => { x with hot := mapIf (fun h => h.line == line) (fun h => { h with last := s.sclk }) x.hot }

/-- The helper that a core's interface sends reads of a line to: its redirect's, once every PACK has come (R163), while the helper
holds the replica. -/
def State.redirected (s : State) (core line : Nat) : Option (Nat × Vec) :=
  let x := s.sl (homeOf line)
  match (s.core core).redirects.find? fun r => r.line == line with
  | none => none
  | some r =>
    if x.txns.any fun t => t.kind == .replicate && t.line == line then none
    else ((s.sl r.helper).replicas.find? fun e => e.1 == line).map fun e => (r.helper, e.2)

/-! ## Atomics (R61) -/

/-- New field value of an atomic (R345) for a field of `w` bytes. -/
def atomicNew (op w old x y : Nat) : Nat :=
  let b := 8 * w
  match op with
  | 0 => (old + x) % 2 ^ b
  | 1 => Nat.land old x
  | 2 => Nat.lor old x
  | 3 => Nat.xor old x
  | 4 => if toSigned b old < toSigned b x then x else old
  | 5 => if toSigned b x < toSigned b old then x else old
  | 6 => max old x
  | 7 => min old x
  | 8 => x
  | _ => if old = x then y else old

/-! ## Writes at home (R52) -/

/-- A level-10 node whose holders have been invalidated names none of them any more (R51). -/
def Slice.dropHolders (x : Slice) (line : Nat) : Slice :=
  match x.node line with
  | some n => if n.level = 10 ∧ n.st ≠ .bcast then x.setNode { n with st := .unc, sh := [] } else x
  | none => x

/-- A listed sharer is not probed for its own request (R52), but the home must hold the line's only valid copy: the requester's own
S copy ends when the home writes, one that is on its way with its arrival (notes/assumptions/29.md). -/
def State.endOwnCopy (s : State) (sl a line : Nat) : State :=
  let l := s.al a line
  match l.st with
  | .s => s.setAl a line { store := l.store }
  | .smA => s.setAl a line { l with st := .imD }
  | .isD => match (s.sl sl).node line with
    | some n =>
      if n.sh.contains a ∧ !(n.st = .own ∧ n.owner = a) then
        s.setAl a line { l with deferred := l.deferred ++ [{ src := homeId sl, dst := a, line := line, ver := n.ver }] }
      else s
    | none => s
  | _ => s

/-- A request that may write the line is performed: reservations end and watches fire (R62, R63). -/
def State.settleWrite (s : State) (sl line src : Nat) : State :=
  (((s.endOwnCopy sl src line).modSl sl fun x => x.dropHolders line).cancelReservations sl line).fireWatches sl line

/-- The home writes bytes of a line that it holds alone (R52): a whole line clears poison, a part leaves it (R30). -/
def State.homeWrite (s : State) (sl line src off n x : Nat) : State :=
  let d := s.lineData sl line
  (s.putLine sl line
    { data := putBytes d.data off n x, dirty := true, poison := d.poison && !(decide (off = 0) && decide (n = 64)) }).settleWrite sl line src

/-! ## Multicast service (R162, R456) -/

/-- An entry's issuers are answered: every receiver has (R456). -/
def State.mergeDone (s : State) (sl : Nat) (g : Merge) : State :=
  let s := s.modSl sl fun x => { x with merges := x.merges.filter fun e => e.id != g.id }
  foldS (fun i (s : State) => s.later (.cmp { src := homeId sl, dst := i.1, txid := i.2, line := g.line, poison := g.poison })) g.issuers s

/-- Sends the MCD of an entry with the line's data; with no receiver to wait for, its issuers are answered at once. -/
def State.mcdOut (s : State) (sl : Nat) (g : Merge) (d : Vec) (poison : Bool) : State :=
  let to_ := (List.range 64).filter fun p => g.mask.getLsbD p
  if to_.isEmpty then s.mergeDone sl { g with poison := poison }
  else
    let s := s.modSl sl fun x => { x with
      merges := mapIf (fun e => e.id == g.id) (fun e => { e with isOpen := false, sent := true, awaiting := to_, poison := poison }) x.merges }
    let m : Msg := { src := homeId sl, txid := g.id, line := g.line, poff := g.poff, bar := g.bar, nobar := g.nobar,
                     region := g.region, mask := g.mask, data := some d, poison := poison }
    foldS (fun p s => s.later (.mcd { m with dst := p })) to_ s

/-- The data of an entry are sent from the home. -/
def State.sendMcd (s : State) (sl : Nat) (g : Merge) : State :=
  let d := s.lineData sl g.line
  s.mcdOut sl g d.data d.poison

/-! ## Completing a request -/

/-- A node's record after an ownership grant (R52, R58). -/
def Node.granted (n : Node) (a : Nat) : Node :=
  let ver := if n.st = .own ∧ n.owner = a then n.ver else n.ver + 1
  { n with st := .own, owner := a, ver := ver, sh := if n.level = 10 then [] else n.sh.filter (· != a) }

/-- An access of a device unit may be made: its probes have been answered (R52). -/
def State.markReady (s : State) (sl : Nat) (m : Msg) (write : Bool) : State :=
  s.modSl sl fun x => { x with ready := if x.ready.contains (m.src, m.line, write) then x.ready else x.ready ++ [(m.src, m.line, write)] }

/-- The last part of a request, with its probes answered and the line's data at hand. `conflict` says that another agent
owned the node, so that the requester holds nothing. -/
def State.finishRequest (s : State) (sl : Nat) (e : Ev) (conflict : Bool) : State :=
  match e with
  | .rds m =>
    match (s.sl sl).node m.line with
    | none => s
    | some n =>
      if n.st = .bcast then s.grant sl m .s n.ver true
      else if (s.sl sl).exclusive n m then
        let n' := n.granted m.src
        (s.modSl sl fun x => x.setNode n').grant sl m .e n'.ver true
      else (s.addSharer sl n m.src m.line).grant sl m .s n.ver true
  | .rdx m | .upg m =>
    match (s.sl sl).node m.line with
    | none => s
    | some n =>
      let upg : Bool := match e with | .upg _ => true | _ => false
      let n' := n.granted m.src
      (s.modSl sl fun x => x.setNode n').grant sl m .m n'.ver (!(upg && !conflict && s.stillHolds m))
  | .rdnc m =>
    if m.mark then s.markReady sl m false
    else
      -- the bytes read stand from payload byte 0 (notes/assumptions/134.md)
      let d := s.lineData sl m.line
      s.sendRsp m.src (.cmp { replyTo sl m with data := some (BitVec.ofNat 512 (bytesAt d.data m.off m.len)), poison := d.poison })
  | .wrnc m =>
    if m.mark then s.markReady sl m true
    else (s.homeWrite sl m.line m.src m.off m.len (bytesAt (m.data.getD 0) 0 m.len)).sendRsp m.src (.cmp (replyTo sl m))
  | .wrf m =>
    if m.mark then s.markReady sl m true else
    let s := s.homeWrite sl m.line m.src 0 64 (m.data.getD 0).toNat
    (if m.poison then s.putLine sl m.line { s.lineData sl m.line with poison := true } else s).sendRsp m.src (.cmp (replyTo sl m))
  | .atom m =>
    let d := s.lineData sl m.line
    let old := bytesAt d.data m.off m.len
    let x := bytesAt (m.data.getD 0) 0 m.len
    let y := bytesAt (m.data.getD 0) 8 m.len
    let r : Msg := { replyTo sl m with cmb := m.cmb, txid2 := m.txid2, src2 := m.src2, poison := d.poison,
                                       data := some (putBytes (BitVec.ofNat 512 old) 8 8 (bytesAt (m.data.getD 0) 8 8)) }
    let new := atomicNew (if m.cmb then 0 else m.atop) m.len old x y
    let s := if d.poison ∨ (m.atop = 9 ∧ old ≠ x ∧ !m.cmb) then s.settleWrite sl m.line m.src
             else s.homeWrite sl m.line m.src m.off m.len new
    s.sendRsp m.src (.atr r)
  | .llk m =>
    let d := s.lineData sl m.line
    let s := s.modSl sl fun x => { x with
      reservations :=
        let old := x.reservations.filter fun r => !(r.agent == m.src && r.thread == m.thread && r.line == m.line)
        keepLast 64 (old ++ [⟨m.src, m.thread, m.epoch, m.line⟩]) }
    s.sendRsp m.src (.lkd { replyTo sl m with data := some d.data, poison := d.poison })
  | .sck m =>
    let x := s.sl sl
    let d := s.lineData sl m.line
    if x.reservations.any fun r => r.agent == m.src && r.thread == m.thread && r.epoch == m.epoch && r.line == m.line then
      if d.poison then s.sendRsp m.src (.cmp { replyTo sl m with poison := true })
      else (s.homeWrite sl m.line m.src m.off m.len (bytesAt (m.data.getD 0) 0 m.len)).sendRsp m.src (.cmp (replyTo sl m))
    else s.sendRsp m.src (.scf (replyTo sl m))
  | .watch m =>
    let x := s.sl sl
    let d := s.lineData sl m.line
    let mine (w : Nat × Nat × Nat) : Bool := w == (m.src, m.thread, m.txid * 2 ^ 42 + m.line)
    if !x.watches.any mine then s
    else
      let drop := s.setSl sl { x with watches := x.watches.filter fun w => !mine w }
      if d.poison then drop.sendWoke sl (m.src, m.thread, m.line) m.txid 4 0
      else if bytesAt d.data m.off 8 ≠ bytesAt (m.data.getD 0) 0 8 then drop.sendWoke sl (m.src, m.thread, m.line) m.txid 0 0
      else s
  | .mcrdWindowClose _ id =>
    match (s.sl sl).merges.find? fun g => g.id == id with
    | some g => s.sendMcd sl g
    | none => s
  | _ => s

/-! ## Serving a request (R52) -/

/-- The message of a request. -/
def reqMsg (s : State) (sl : Nat) : Ev → Msg
  | .rds m | .rdx m | .upg m | .rdnc m | .wrnc m | .wrf m | .atom m | .llk m | .sck m | .watch m => m
  | .mcrdWindowClose _ id => match (s.sl sl).merges.find? fun g => g.id == id with
    | some g => { src := (g.issuers.headD (0, 0)).1, line := g.line }
    | none => {}
  | _ => {}

/-- The probes a request needs: kind and targets. A listed sharer is not probed for its own request (R52). -/
def probesFor (n : Node) (k : ReqKind) (src : Nat) : ProbeKind × List Nat :=
  match k with
  | .rds => (.sshr, if n.st = .own ∧ n.owner ≠ src then [n.owner] else [])
  | .read => (.sshr, if n.st = .own then [n.owner] else [])
  | .own _ => (.sinv, n.holders.filter (· != src))
  | .write => (.sinv, n.holders.filter fun a => a != src || decide (n.st = .own ∧ n.owner = src))

/-- The agents that a broadcast invalidation goes to: the enabled cores whose cluster is not in LS2, where none is probed (R65), and
the ECI agents while the link is up (R55). -/
def State.allAgents (s : State) : List Nat :=
  (List.range 64).filter (fun c => !(s.core c).out && (s.clu (c / 4)).power != .ls2) ++
    (if s.port.up then (List.range 16).map (· + 0x40) else [])

/-- A request for ownership of a line that another agent's node covers (R53). -/
def Node.conflicts (n : Node) (k : ReqKind) (src : Nat) : Bool :=
  match k with
  | .own _ => n.st == .own && n.owner != src
  | _ => false

/-- A request on a line of a node: splits, probes or completes it (R52 to R55). -/
def State.serveNode (s : State) (sl : Nat) (e : Ev) (m : Msg) (n : Node) : State :=
  let k := reqKind e
  if n.st = .bcast ∧ k.writes then
    s.openTxn sl { kind := .recall, line := m.line, ev := some e, msg := m, node := n.key } .sbinv (s.allAgents.map fun a => (a, m.line)) n.ver
  else
    let conflict := n.conflicts k m.src
    if conflict ∧ n.level < 10 ∧ !(s.sl sl).splitRoom n then s.waitForWay sl e m
    else
      let s := if conflict then s.modSl sl fun x => x.splitTo m.line 11 else s
      let n := ((s.sl sl).node m.line).getD n
      let p := probesFor n k m.src
      let inval := n.ovf && k.writes
      if p.2.isEmpty ∧ !inval then s.finishRequest sl e conflict
      else
        let t : Txn := { kind := .request, line := m.line, ev := some e, msg := m, got := conflict, awaitDs := inval,
                         node := n.key, token := (s.sl sl).freshToken }
        let s := s.openTxn sl t p.1 (p.2.map fun a => (a, m.line)) n.ver
        if inval then s.postInval sl m.line n.level n.ver t.token 0 else s

/-- The node that a request creates for an uncached line (R50). -/
def Slice.freshNode (x : Slice) (line now : Nat) : Node :=
  let level := x.freshLevel line
  { region := line / 1024, level := level, path := line % 1024 / 2 ^ (10 - level) * 2 ^ (10 - level),
    ver := Tbl.get 0 x.setVer (setOf (line / 1024)), used := now }

/-- Serves a request whose line is not busy and whose data are at hand. A masked multicast read creates no node
(notes/assumptions/30.md). -/
def State.serveReady (s : State) (sl : Nat) (e : Ev) (m : Msg) : State :=
  let s := s.touch sl m.line
  let x := s.sl sl
  match x.node m.line with
  | some n => s.serveNode sl e m n
  | none =>
    match e with
    | .mcrdWindowClose _ _ => s.finishRequest sl e false
    | _ =>
      if x.setUsed (m.line / 1024) < 16 then
        let n := x.freshNode m.line s.sclk
        (s.setSl sl { x with nodes := x.nodes ++ [n] }).serveNode sl e m n
      else s.waitForWay sl e m

/-- Serves a request at its home (R52, R165): it waits behind a stable range, a busy line or node, the removal of replicas, and a
fill. -/
def State.serve (s : State) (sl : Nat) (e : Ev) : State :=
  let m := reqMsg s sl e
  let x := s.sl sl
  let k := reqKind e
  let whole : Bool := match e with | .wrf _ => true | _ => false
  let joins : Bool := match e with | .rds _ => true | .rdnc _ => true | .mcrdWindowClose _ _ => true | _ => false
  if x.isStable m.line ∧ k.writes then s.replayPut sl e m
  else if x.busy m.line ∨ x.nodeHeld m.line then s.replayPut sl e m
  else match (if x.takesLine k m then x.hot.find? fun h => h.line == m.line && h.active else none) with
  | some h => (s.unreplicate sl m.line h).replayPut sl e m
  | none =>
    match x.filling.find? fun f => f.1 == m.line with
    | some f =>
      if joins ∧ f.2.length ≤ 31 then
        s.setSl sl { x with filling := mapIf (fun g => g.1 == m.line) (fun g => (g.1, g.2 ++ [e])) x.filling }
      else s.replayPut sl e m
    | none =>
      if (x.data m.line).isSome ∨ whole then s.serveReady sl e m
      else (s.setSl sl { x with filling := x.filling ++ [(m.line, [e])] }).later (.dramFill sl m.line)

/-- Serves a list of requests in order: once one of them has to wait, those after it on the same line wait behind it. -/
def State.serveAll (s : State) (sl : Nat) (l : List Ev) : State := foldS (fun e (s : State) => s.serve sl e) l s

/-- DRAM_FILL (R165): the line is in the slice. The request that missed and the waiting list are served in their order and one
transaction at a time, before what waits in the replay queue. -/
def State.onDramFill (s : State) (sl line : Nat) : State :=
  let x := s.sl sl
  match x.filling.find? fun f => f.1 == line with
  | none => s
  | some f =>
    let rest := x.replay
    let s := s.setSl sl { x with filling := x.filling.filter (fun g => g.1 != line), replay := [] }
    let s := (s.putLine sl line { data := s.dramLine line, poison := s.dramBad line }).serveAll sl f.2
    (s.modSl sl fun x => { x with replay := x.replay ++ rest }).retrySoon sl

/-- REPLAY_RETRY (R166): the queue's requests are tried in arrival order. -/
def State.onReplayRetry (s : State) (sl : Nat) : State :=
  let q := (s.sl sl).replay
  (s.modSl sl fun x => { x with replay := [] }).serveAll sl q

/-! ## Answers -/

/-- A node named by its key. -/
def Slice.nodeAt (x : Slice) (k : Nat × Nat × Nat) : Option Node := x.nodes.find? fun n => n.key == k

/-- The request of a transaction is completed. Where another line's grant has made the node another agent's meanwhile, it is served
anew, so that the node splits (R53). -/
def State.finishServed (s : State) (sl : Nat) (e : Ev) (t : Txn) : State :=
  let again : Bool := match (s.sl sl).node t.line with
    | some n => n.conflicts (reqKind e) t.msg.src && decide (n.level < 10)
    | none => false
  if again then s.serve sl e else (s.touch sl t.line).finishRequest sl e t.got

/-- The lines of a clean transaction are written to DRAM; a recalled node's owner holds nothing any more (R95, R97). -/
def State.finishClean (s : State) (sl : Nat) (t : Txn) : State :=
  if t.got then
    match (s.sl sl).nodeAt t.node with
    | some n =>
      let st : NState := if n.st ≠ .own then n.st else if n.sh.isEmpty ∧ !n.ovf then .unc else .shr
      foldS (fun line (s : State) => s.cleanLine sl line) (homedLines sl n) (s.modSl sl fun x => x.setNode { n with st := st })
    | none => s
  else
    (s.cleanLine sl t.line).modJob t.pend fun j => { j with toSweep := j.toSweep.map fun l => l.filter (· != t.line) }

/-- A transaction with nothing left to wait for completes. -/
def State.finishTxn (s : State) (sl : Nat) (t : Txn) : State :=
  if !t.probes.isEmpty ∨ !t.awaitWb.isEmpty ∨ t.awaitDs then s
  else
    let s := s.modSl sl fun x => { x with txns := x.txns.filter fun u => u.id != t.id }
    let s := match t.kind with
      | .request => match t.ev with
        | some e => s.finishServed sl e t
        | none => s
      | .evict => match (s.sl sl).nodeAt t.node with
        | some n => s.freeNode sl n
        | none => s
      | .recall =>
        let s := match (s.sl sl).nodeAt t.node with
          | some n => s.modSl sl fun x => x.setNode { n with st := .unc, ver := n.ver + 1, sh := [], ovf := false }
          | none => s
        match t.ev with
        | some e => s.serve sl e
        | none => s
      | .clean => s.finishClean sl t
      | .unreplicate => s.modSl sl fun x => { x with hot := x.hot.filter fun h => h.line != t.line }
      | .dsprobe => s.fillLane t.tk t.pend 0 (BitVec.ofNat 512 t.result) none
      | .sweep | .replicate => s
    s.retrySoon sl

/-- Changes a transaction and completes it if nothing is left to wait for. -/
def State.putTxn (s : State) (sl : Nat) (t : Txn) : State :=
  (s.modSl sl fun x => { x with txns := mapIf (fun u => u.id == t.id) (fun _ => t) x.txns }).finishTxn sl t

/-- Removes one probe of the first transaction that awaits it, applying a change to that transaction. -/
def State.answerProbe (s : State) (sl agent line : Nat) (ver : BitVec 8) (f : Txn → Txn) : State :=
  let hit (p : Probe) : Bool := p.agent == agent && p.line == line && p.ver == ver
  match (s.sl sl).txns.find? fun t => t.probes.any hit with
  | none => s
  | some t => s.putTxn sl (f { t with probes := t.probes.filter fun p => !hit p })

/-- The codes of GNT (R45). -/
def Moesi.code : Moesi → Nat
  | .i => 0 | .s => 1 | .e => 2 | .o => 3 | .m => 4

/-- The result of DSPROBE from an answer (R406): GNT, WB and DATA. -/
def probeResult (m : Msg) : Nat := Moesi.code m.gnt + 16 * bitOf m.wb + 32 * bitOf m.data.isSome

/-- The transaction that probes an agent's lines of a region (R55). -/
def Slice.recallOf (x : Slice) (agent line : Nat) (ver : Option (BitVec 8)) : Option Txn :=
  x.txns.find? fun t => t.kind == .recall && t.probes.any fun p =>
    p.agent == agent && p.line / 1024 == line / 1024 && (match ver with | some v => p.ver == v | none => true)

/-- A probe response with WB = 1 before the agent's WBK: the pair enters the filter; with the filter full, the transaction waits for
the WBK instead (R59). What has come already is waited for no more. -/
def State.awaitsWbk (s : State) (sl : Nat) (t : Txn) (m : Msg) : State × Txn :=
  let pair := (m.src, m.line)
  if !m.wb ∨ (s.sl sl).filter.contains pair ∨ t.came.contains pair then (s, t)
  else if 32 ≤ (s.sl sl).filter.length then (s, { t with awaitWb := t.awaitWb ++ [pair] })
  else (s.modSl sl fun x => { x with filter := x.filter ++ [pair] }, t)

/-- PACK or PDAT at the home (R48, R59): the answer to an outstanding probe of the same agent, line and version; or the answer of a
line of a region that is being probed (R55). Any other answer is discarded. -/
def State.onProbeAnswer (s : State) (m : Msg) : State :=
  let sl := m.dst - 0x80
  let hit (p : Probe) : Bool := p.agent == m.src && p.line == m.line && p.ver == m.ver
  let x := s.sl sl
  match x.txns.find? fun t => t.probes.any hit with
  | some t =>
    let r := s.awaitsWbk sl t m
    let held : Bool := r.2.awaitWb.contains (m.src, m.line)
    let s := match m.data with
      | some d => if held ∨ t.came.contains (m.src, m.line) then r.1 else r.1.takeData sl m.line d m.poison
      | none => r.1
    s.putTxn sl { r.2 with result := probeResult m, probes := t.probes.filter fun p => !hit p }
  | none =>
    match x.recallOf m.src m.line (some m.ver) with
    | none => s
    | some t =>
      if t.came.contains (m.src, m.line) then s
      else
        let r := s.awaitsWbk sl t m
        let s := match m.data with
          | some d => if r.2.awaitWb.contains (m.src, m.line) then r.1 else r.1.takeData sl m.line d m.poison
          | none => r.1
        s.modSl sl fun x => { x with txns := mapIf (fun u => u.id == t.id) (fun _ => r.2) x.txns }

/-- PACK to a replica push, recall or redirect message (R155). -/
def State.onReplicaAck (s : State) (m : Msg) : State :=
  let sl := m.dst - 0x80
  let refuse (h : Hot) : Hot := { h with
    helpers := h.helpers.filter (fun a => homeId a != m.src), ifaces := h.ifaces.filter (· != m.src) }
  let s := if m.stat = 2 then s.modSl sl fun x => { x with
      hot := (mapIf (fun h => h.line == m.line) refuse x.hot).filter fun h => !(h.active && h.helpers.isEmpty && h.ifaces.isEmpty) } else s
  s.answerProbe sl m.src m.line 0 id

/-- A probe reaches an agent (R47 to R49). -/
def State.onProbe (s : State) (k : ProbeKind) (m : Msg) : State :=
  let h := m.src - 0x80
  let back (line : Nat) (s : State) : State := if s.requestWaits h m.dst line then s.withdrawDeferred h m.dst line else s
  match k with
  | .sbinv =>
    let s := s.probeRegion m
    foldS (fun (e : Nat × ALine) (s : State) => if e.1 / 1024 = m.line / 1024 ∧ !e.2.deferred.isEmpty then back e.1 s else s)
      (s.linesOf m.dst) s
  | _ => back m.line (s.probe k m)

/-- WBA or WBX to the writer of a WBK. -/
def State.wbAck (s : State) (sl : Nat) (m : Msg) (a : Bool) : State :=
  s.sendRsp m.src (if a then .wba (replyTo sl m) else .wbx (replyTo sl m))

/-- The data of a WBK are taken. -/
def State.wbTake (s : State) (sl : Nat) (m : Msg) : State :=
  match m.data with
  | some d => s.takeData sl m.line d m.poison
  | none => s

/-- A writer's pointer is dropped from a level-10 node; a node without pointers becomes UNC (R51, R59). -/
def Node.dropPointer (n : Node) (a : Nat) : Node :=
  if n.level = 10 then
    let n := { n with sh := n.sh.filter (· != a), st := if n.st = .own ∧ n.owner = a then .shr else n.st }
    if n.st = .shr ∧ n.sh.isEmpty ∧ !n.ovf then { n with st := .unc } else n
  else n

/-- WBD or EVC at the home (R59): what a transaction waits for, or the answer to an outstanding probe of the line; cancelled by the
filter, by another version, or where no node covers the line (notes/assumptions/133.md); else accepted. -/
def State.onWriteBack (s : State) (m : Msg) : State :=
  let sl := m.dst - 0x80
  let x := s.sl sl
  match x.txns.find? fun t => t.awaitWb.contains (m.src, m.line) with
  | some t => ((s.wbTake sl m).putTxn sl { t with awaitWb := t.awaitWb.filter (· != (m.src, m.line)) }).wbAck sl m true
  | none =>
    match (x.txns.filter fun t => t.kind != .recall).findSome? fun t => t.probes.find? fun p => p.agent == m.src && p.line == m.line with
    | some p => ((s.wbTake sl m).answerProbe sl m.src m.line p.ver fun t => { t with result := 16 + 32 * bitOf m.data.isSome }).wbAck sl m true
    | none =>
      if x.filter.contains (m.src, m.line) then
        (s.setSl sl { x with filter := x.filter.filter (· != (m.src, m.line)) }).wbAck sl m false
      else
        let s := match x.recallOf m.src m.line none with
          | some t => s.modSl sl fun x => { x with
              txns := mapIf (fun u => u.id == t.id) (fun u => { u with came := u.came ++ [(m.src, m.line)] }) x.txns }
          | none => s
        match x.node m.line with
        | none => s.wbAck sl m false
        | some n =>
          if n.ver ≠ m.ver then s.wbAck sl m false
          else ((s.modSl sl fun x => x.setNode (n.dropPointer m.src)).wbTake sl m).wbAck sl m true

/-! ## Arrival of a request -/

/-- A request that names no memory (R454), or a write that leaves its line (R46). -/
def State.eciRefused (s : State) (e : Ev) (m : Msg) : Bool :=
  decide (s.memTop ≤ 64 * m.line) || match e with
    | .wrnc m => decide (64 < m.off + m.len)
    | _ => false

/-- A request that only a core agent may send (R46). -/
def coreOnly : Ev → Bool
  | .llk _ | .sck _ | .watch _ => true
  | _ => false

/-- The malformed atomic of R61. -/
def badAtom (m : Msg) : Bool := decide (9 < m.atop) || !(m.len == 4 || m.len == 8) || m.off % m.len != 0

/-- A request of an ECI agent that R46 and R454 refuse: it names no memory, or has an opcode of the cores, GNT set or a reserved bit.
The flag says that it is logged as a corrected error of the port. -/
def State.eciFault (s : State) (e : Ev) (m : Msg) : Option Bool :=
  if !isEci m.src then none
  else if coreOnly e ∨ m.gnt ≠ .i ∨ m.rsv then some true
  else if s.eciRefused e m then some false
  else none

/-- A request is admitted: an atomic that R61 calls malformed is answered ATR with STAT = ERR (notes/assumptions/135.md), a watch takes
a table entry (R63), and reads count for the hot table (R163). -/
def State.takeReq (s : State) (h : Nat) (e : Ev) : State :=
  match e with
  | .atom m => if badAtom m then s.sendRsp m.src (.atr { replyTo h m with stat := 1 }) else s.serve h e
  | .watch m =>
    if (s.sl h).watches.length < 128 then
      (s.modSl h fun x => { x with watches := x.watches ++ [(m.src, m.thread, m.txid * 2 ^ 42 + m.line)] }).serve h e
    else s.sendWoke h (m.src, m.thread, m.line) m.txid 2 2
  | .rds m | .rdnc m => (s.countHot h m.line).serve h e
  | _ => s.serve h e

/-- The replica by which a helper serves a read that names it (R163). -/
def State.replicaFor (s : State) (e : Ev) (m : Msg) : Option (Nat × Vec) :=
  let sl := m.dst - 0x80
  match e with
  | .rdnc _ => if sl ≠ homeOf m.line then (s.sl sl).replicas.find? fun r => r.1 == m.line else none
  | _ => none

/-- A request arrives at a home. What a host agent may not send is answered CMP with STAT = ERR (R46, R454); a reset sweep answers
every request RTY (R28, R65); a full replay queue turns an ECI agent away and holds the cores' requests back (R166); a helper
serves reads of lines it holds and sends the rest home (R163). -/
def State.onRequest (s : State) (e : Ev) (m : Msg) : State :=
  let s := s.returnCredit m.src 0
  let h := homeOf m.line
  match s.eciFault e m with
  | some logged =>
    let s := s.sendRsp m.src (.cmp { replyTo h m with stat := 1 })
    if logged then s.corrected .hostPort (word (64 * m.line)) else s
  | none =>
    if s.pow.sweeping then s.sendRsp m.src (.rty (replyTo h m))
    else match s.replicaFor e m with
    | some r =>
      (s.useReplica h m.line).sendRsp m.src
        (.cmp { replyTo (m.dst - 0x80) m with data := some (BitVec.ofNat 512 (bytesAt r.2 m.off m.len)) })
    | none =>
      if (s.sl h).full then (if isEci m.src then s.sendRsp m.src (.rty (replyTo h m)) else s.holdBack e)
      else s.takeReq h e

end Sys2Proof.Machine
end

