-- ==== Sys2Proof/Machine/Coherent.lean ====
section
/-!
DEFINITION. The non-caching accesses of the device's units (R40, R52): instruction fetch, engines and bank-compute jobs under the
identity of their core, the front end, and the control tile. A unit asks the home for every line it needs with an RDNC, WRNC or WRF
that the home serves like any other; once the home has marked all of them answered (`Slice.ready`), the access is one step. Until
then it is made again.
-/

namespace Sys2Proof.Machine

/-- The identities of the front end and of the control tile (R40). -/
def feId : Nat := 0xC0
def controlId : Nat := 0xC1

/-- The request by which a unit asks for a line. -/
def askEv (id line : Nat) (write whole : Bool) : Ev :=
  let m : Msg := { src := id, dst := homeId (homeOf line), line := line, mark := true }
  if !write then .rdnc m else if whole then .wrf m else .wrnc m

/-- A unit's request is on its way or waits at the home. -/
def State.asked (s : State) (e : Ev) (h : Nat) : Bool :=
  let x := s.sl h
  s.agenda.contains e || x.replay.contains e || (x.filling.any fun f => f.2.contains e) || x.txns.any fun t => t.ev == some e

/-- The home has answered a unit's request for a line, and the access may be made. A core's read may go to a helper (R163). -/
def State.granted (s : State) (id line : Nat) (write : Bool) : Bool :=
  let x := s.sl (homeOf line)
  (x.ready.contains (id, line, write) && !(write && x.isStable line)) || (!write && decide (id < 64) && (s.redirected id line).isSome)

/-- A unit asks for a line, unless it has been answered or has asked already. A full replay queue holds the request back (R166). -/
def State.ask (s : State) (id line : Nat) (write whole : Bool) : State :=
  let h := homeOf line
  let e := askEv id line write whole
  if s.granted id line write ∨ s.asked e h then s
  else
    let s := s.modSl h fun x => { x with ready := x.ready.filter (· != (id, line, write)) }
    if (s.sl h).full ∨ s.pow.sweeping then s.later e
    else if write then s.serve h e else (s.countHot h line).serve h e

/-- The lines of `n` bytes from an address. -/
def linesOfRange (pa n : Nat) : List Nat := (List.range ((pa + n + 63) / 64 - pa / 64)).map (· + pa / 64)

/-- The part of a line that a range covers, as first byte and count. -/
def partOfLine (pa n line : Nat) : Nat × Nat :=
  let lo := max pa (64 * line)
  (lo - 64 * line, min (pa + n) (64 * line + 64) - lo)

/-- A unit asks for every line of a range. -/
def State.askAll (s : State) (id pa n : Nat) (write : Bool) : State :=
  foldS (fun line (s : State) => s.ask id line write (decide ((partOfLine pa n line).2 = 64))) (linesOfRange pa n) s

def State.grantedAll (s : State) (id pa n : Nat) (write : Bool) : Bool := (linesOfRange pa n).all fun line => s.granted id line write

/-- The marks of a range are used up. -/
def State.useMarks (s : State) (id pa n : Nat) (write : Bool) : State :=
  foldS (fun line (s : State) => s.modSl (homeOf line) fun x => { x with ready := x.ready.filter (· != (id, line, write)) })
    (linesOfRange pa n) s

/-- What a unit reads of a line: a helper's replica for a redirected core, else the home's data. -/
def State.unitLine (s : State) (id line : Nat) : SLine :=
  match (if id < 64 then s.redirected id line else none) with
  | some r => { data := r.2 }
  | none => s.lineData (homeOf line) line

/-- Bytes of physical memory as the homes hold them, and the first poisoned line. -/
def State.unitBytes (s : State) (id pa n : Nat) : List Byte × Option Nat :=
  let lines := linesOfRange pa n
  ((((lines.flatMap fun line => bytesOfVec (s.unitLine id line).data)).drop (pa % 64)).take n, lines.find? fun line => (s.unitLine id line).poison)

/-- A unit reads bytes of physical memory: the state after it, the bytes, and the first poisoned line; or the state in which it waits
for its homes. -/
def State.cohBytes (s : State) (id pa n : Nat) : Except State (State × List Byte × Option Nat) :=
  let s := s.askAll id pa n false
  if s.grantedAll id pa n false then
    let s' := foldS (fun line (s : State) =>
      if id < 64 ∧ (s.redirected id line).isSome then s.useReplica (homeOf line) line else s) (linesOfRange pa n) s
    .ok (s'.useMarks id pa n false, s.unitBytes id pa n)
  else .error s

/-- A unit reads whole lines: their bytes in order, and the position of the first poisoned one. -/
def State.cohLines (s : State) (id : Nat) (lines : List Nat) : Except State (State × List Byte × Option Nat) :=
  let s := foldS (fun line (s : State) => s.ask id line false false) lines s
  if lines.all fun line => s.granted id line false then
    .ok (foldS (fun line (s : State) => s.useMarks id (64 * line) 64 false) lines s,
      lines.flatMap fun line => bytesOfVec (s.unitLine id line).data, lines.findIdx? fun line => (s.unitLine id line).poison)
  else .error s

/-- A unit reads one whole line: its data and their poison. -/
def State.cohRead (s : State) (id line : Nat) : Except State (State × Vec × Bool) :=
  match s.cohBytes id (64 * line) 64 with
  | .ok r => .ok (r.1, vecOfBytes r.2.1, r.2.2.isSome)
  | .error s => .error s

/-- The homes write a unit's bytes; poisoned bytes poison their lines (R30). -/
def State.unitWrite (s : State) (id pa : Nat) (l : List Byte) (poison : Bool) : State :=
  foldS (fun line (s : State) =>
    let p := partOfLine pa l.length line
    let s := s.homeWrite (homeOf line) line id p.1 p.2 (leNat ((l.drop (64 * line + p.1 - pa)).take p.2))
    if poison then s.putLine (homeOf line) line { s.lineData (homeOf line) line with poison := true, dirty := true } else s)
    (linesOfRange pa l.length) s

/-- A unit writes bytes at several places of physical memory, in order: the state after it, or the state in which it waits for its
homes. -/
def State.cohPuts (s : State) (id : Nat) (l : List (Nat × List Byte)) (poison : Bool) : Except State State :=
  let s := foldS (fun (e : Nat × List Byte) (s : State) => s.askAll id e.1 e.2.length true) l s
  if l.all fun e => s.grantedAll id e.1 e.2.length true then
    .ok (foldS (fun (e : Nat × List Byte) (s : State) => (s.useMarks id e.1 e.2.length true).unitWrite id e.1 e.2 poison) l s)
  else .error s

/-- A unit writes bytes to physical memory. -/
def State.cohPut (s : State) (id pa : Nat) (l : List Byte) (poison : Bool) : Except State State := s.cohPuts id [(pa, l)] poison

/-- A unit reads bytes and writes bytes computed from them, with nothing in between: the state after it and the bytes read. -/
def State.cohRmw (s : State) (id pa n : Nat) (f : List Byte → List Byte) : Except State (State × List Byte) :=
  let s := s.askAll id pa n true
  if s.grantedAll id pa n true then
    let old := (s.unitBytes feId pa n).1
    .ok ((s.useMarks id pa n true).unitWrite id pa (f old) false, old)
  else .error s

end Sys2Proof.Machine
end

