-- ==== Sys2Proof/Machine/Flags.lean ====
section
/-!
DEFINITION. The floating-point flags and their trap (R235): FPCSR's fields, the flags that an instruction's lanes raise, and
the FP trap's TRAPVAL.
-/

namespace Sys2Proof.Machine

/-- FPCSR.TEN. -/
def fpTen (fpcsr : Word) : Flags := fpcsr.extractLsb' 8 5

/-- The OR of the flags that the active lanes raise. -/
def laneOr (l : List (Nat × Flags)) : Flags := l.foldl (fun a e => a ||| e.2) 0

/-- The lowest lane that raised a flag of a set. -/
def lowestLane (l : List (Nat × Flags)) (m : Flags) : Nat :=
  (l.filter fun e => e.2 &&& m != 0).foldl (fun a e => min a e.1) 255

/-- TRAPVAL of the FP trap, if a raised flag has its trap enabled (R235). -/
def fpTrap (fpcsr : Word) (l : List (Nat × Flags)) : Option Word :=
  let f := laneOr l &&& fpTen fpcsr
  if f = 0 then none else some (word (f.toNat + 256 * lowestLane l f))

/-- FPCSR after an instruction that raised flags without trapping. -/
def fpRaise (fpcsr : Word) (f : Flags) : Word := fpcsr ||| f.setWidth 64

end Sys2Proof.Machine
end

