-- ==== Sys2Proof/Machine/Place.lean ====
section
/-!
DEFINITION. Flume queues (R211, R212), saving and restoring threads (R138, R139), and migration (R145).
-/

namespace Sys2Proof.Machine

/-! ## Flumes (R211, R212) -/

/-- The entries of a pattern. -/
def Flume.total (f : Flume) : Nat := f.cnt.foldl (· * ·) 1

/-- Pool offset of entry `i`: dimension 0 varies fastest (R211). -/
def Flume.addr (f : Flume) (i : Nat) : Nat :=
  let r := (f.cnt.zip f.str).foldl (fun (acc : Nat × Int) d => (acc.1 / d.1, acc.2 + (acc.1 % d.1 : Nat) * d.2)) (i, (0 : Int))
  ((f.base : Int) + r.2).toNat

/-- Writes the queued entries of an out-flume to the home pool, in push order. -/
def State.drainQuiet (s : State) (tk k : Nat) : State :=
  match s.thr tk with
  | none => s
  | some t =>
    match t.flumes.find? fun e => e.1 == k with
    | none => s
    | some (_, f) =>
      if !f.out ∨ f.queue.isEmpty then s
      else
        let r := foldS (fun (x : Vec) (acc : State × Nat) =>
          (acc.1.poolWrite (ckOfTk tk) (f.addr acc.2) (bytesOfVec x), acc.2 + 1)) f.queue (s, f.pos)
        r.1.modThr tk fun t => { t with flumes := mapIf (fun e => e.1 == k) (fun e => (e.1, { e.2 with queue := [], pos := r.2 })) t.flumes }

/-- The same, with the flume-drain pulse after the last entry (R212). -/
def State.drainFlume (s : State) (tk k : Nat) : State :=
  let left (s : State) : Bool := match s.thr tk with
    | some t => t.flumes.any fun e => e.1 == k && e.2.out && decide (e.2.pos < e.2.total)
    | none => false
  let s' := s.drainQuiet tk k
  if left s && !left s' then s'.pulse (ckOfTk tk) 5 k else s'

/-- Empties an in-flume's queue, its position moved back over the entries (R138). -/
def Flume.rewind (f : Flume) : Flume := if f.out then f else { f with queue := [], bad := [], pos := f.pos - f.queue.length }

/-! ## Saves and restores (R138, R139) -/

/-- CYCLE of the cluster where a thread runs. -/
def State.cycleOf (s : State) (t : Thread) : Nat := (s.clu (s.coreOfThread t / 4)).cycle.toNat

/-- A cluster in LS1 leaves it to act on a limit, a window, a timer or a slice that has expired there (R3). -/
def State.leaveLs1 (s : State) (c : Nat) : State :=
  if (s.clu c).power = .ls1 then s.modClu c fun x => { x with power := .ls0 } else s

/-- The cluster of a thread leaves LS1. -/
def State.leaveLs1Of (s : State) (t : Thread) : State := s.leaveLs1 (s.coreOfThread t / 4)

/-- What every save does to a thread: the reservation epoch advances (R62), flumes are emptied. -/
def State.saveEffects (s : State) (tk : Nat) : State :=
  let s := foldS (fun k s => s.drainFlume tk k) (List.range 8) s
  s.modThr tk fun t => { t.bumpEpoch with flumes := t.flumes.map fun e => (e.1, e.2.rewind) }

/-- An entry of the core's thread-context cache is taken; the least recently used of 32 goes to its save slot (R138). -/
def State.cacheThread (s : State) (c tk : Nat) : State :=
  s.modCore c fun x => { x with tcc := keepLast 32 (x.tcc.filter (· != tk) ++ [tk]) }

/-- The slot-local area of a thread's home slot. -/
def State.slaBytes (s : State) (tk : Nat) : List Byte :=
  let ck := ckOfTk tk
  (List.range (s.slaSize ck)).map fun i => Tbl.get 0 (s.cx ck).pool (s.slaBase ck (slotOfTk tk) + i)

/-- A full save: the thread leaves its slot. -/
def State.saveThread (s : State) (tk : Nat) : State :=
  match s.thr tk with
  | none => s
  | some t =>
    let s := (s.saveEffects tk).cacheThread (s.coreOfThread t) tk
    let area := s.slaBytes tk
    s.modThr tk fun t => { t with place := .saved, preempt := none, sla := some area, since := s.sclk }

/-- A liveness mask entry (R139). -/
structure LiveMask where
  g : BitVec 32
  v : BitVec 32
  m : BitVec 8
  /-- Saved 8-byte words of the slot-local area: first word and count. -/
  ranges : List (Nat × Nat)
  deriving DecidableEq, Repr

/-- A masked save: what is not live holds a free value when the thread is restored (R139, R7). -/
def State.saveMasked (s : State) (tk : Nat) (l : LiveMask) : State :=
  match s.thr tk with
  | none => s
  | some _ =>
    let s := s.saveThread tk
    let live (i : Nat) : Bool := l.ranges.any fun r => decide (r.1 ≤ i / 8) && decide (i / 8 < r.1 + r.2)
    let n := s.free
    let s := s.modThr tk fun t =>
      let t := (List.range 32).foldl (fun t r => if l.g.getLsbD r then t else t.wg r (Config.freeWord (n + r))) t
      let t := (List.range 32).foldl (fun t r =>
        if l.v.getLsbD r || (t.flumeOf r).isSome then t else t.wv r (Config.freeVec (n + 32 + r))) t
      let t := (List.range 8).foldl (fun t r => if l.m.getLsbD r then t else t.wm r (Config.freeWord (n + 64 + r))) t
      { t with sla := t.sla.map fun a => a.mapIdx fun i b => if live i then b else Config.freeByte (n + 72 + i) }
    { s with free := n + 72 + 1024 }

/-- A thread is restored to a slot of the core it is on: a recorded wake takes effect (R135). -/
def State.restoreThread (s : State) (tk slot : Nat) : State :=
  match s.thr tk with
  | none => s
  | some t =>
    let s := match t.sla with
      | some a => s.poolWrite (ckOfTk tk) (s.slaBase (ckOfTk tk) (slotOfTk tk)) a
      | none => s
    let s := s.modCore (s.coreOfThread t) fun x => { x with tcc := x.tcc.filter (· != tk) }
    s.modThr tk fun t => { t with place := .inSlot slot, sla := none, since := s.sclk, lastIssue := none, waited := 0, wakeRec := false,
                                  st := if t.wakeRec && t.st != .stopped then .ready else t.st }

/-- The threads whose roster is a logical core. -/
def State.rosterOf (s : State) (c : Nat) : List (Nat × Thread) :=
  s.threads.filterMap fun e => match e.2 with
    | some t => if s.coreOfCk t.roster = some c then some (e.1, t) else none
    | none => none

/-- The user slots that multiplexing uses on a context core (R203). -/
def State.userSlots (s : State) (ck : Nat) : Nat := if pwRfg (s.poolwordOf ck) = 1 then 11 else 15

/-- A free user slot of a core. -/
def State.freeSlot (s : State) (c ck : Nat) : Option Nat :=
  let used := (s.rosterOf c).filterMap fun e => match e.2.place with | .inSlot k => some k | _ => none
  (List.range (s.userSlots ck)).find? fun k => !used.contains k

/-- Moves a thread to the roster of another context core: saved in full, and placed in a free slot there if one exists; otherwise it
waits for the roster's multiplexing (R137, R145). -/
def State.moveThread (s : State) (tk ck : Nat) : State :=
  let s := (s.saveThread tk).modThr tk fun t => { t with roster := ck }
  match s.coreOfCk ck with
  | some c => match s.freeSlot c ck with
    | some k => s.restoreThread tk k
    | none => s
  | none => s

/-- The F64V core of a thread's cluster: core 0 of its partition, unless it is mapped out (R11). -/
def State.f64vCore (s : State) (ck : Nat) : Option Nat :=
  let z := ck / 4 * 4
  match s.coreOfCk z with
  | some c => if c % 4 = 0 ∧ !(s.core c).out then some z else none
  | none => none

/-- The core on which a thread issues has F64V. -/
def State.hasF64v (s : State) (c : Nat) : Bool := c % 4 == 0 && !(s.core c).out

/-! ## What stops a save -/

/-- A thread may be taken out of its slot: no result but a registered wait is pending, and its stores are performed (R135,
R336). -/
def Thread.quiet (t : Thread) : Bool :=
  t.sbuf.isEmpty && t.remote.isEmpty && t.pend.all fun p => match p.kind with
    | .fullEmpty _ | .waita | .waitbar _ _ => true
    | _ => false

end Sys2Proof.Machine
end

