-- ==== Sys2Proof/Machine/Operands.lean ====
section
/-!
DEFINITION. How a word reads its operands and how a unit issues: port and flume operands (R199, R212, R329), the checks of a
unit in the order of R287, interlocks and lookahead windows (R196, R198), pairs (R195, R286) and completion.
-/

namespace Sys2Proof.Machine

/-! ## Port and flume operands -/

/-- A message matches a receiver on a channel (R327). -/
def msgMatches (t : Thread) (ch : Nat) (m : Msg) : Bool := msgCh m == ch && (msgAny m || msgThread m == t.threadId.toNat)

/-- The oldest message of the thread's inbox that matches on a channel. The inbox is that of the home core (R324). -/
def State.firstMsg (s : State) (tk : Nat) (t : Thread) (ch : Nat) : Option Msg := (s.cx (ckOfTk tk)).inbox.find? (msgMatches t ch)

/-- Takes that message. -/
def State.takeMsg (s : State) (tk : Nat) (t : Thread) (ch : Nat) : State :=
  s.modCx (ckOfTk tk) fun x => match takeFirst (msgMatches t ch) x.inbox with
    | some r => { x with inbox := r.2 }
    | none => x

/-- The ports among some g registers. -/
def Thread.portsOf (t : Thread) (l : List Nat) : List Nat := (l.filterMap t.portOf).eraseDups

/-- The flumes among some v registers. -/
def Thread.flumesOf (t : Thread) (l : List Nat) : List (Nat × Flume) := (l.filterMap t.flumeOf).eraseDups

/-- The thread as a word reads it: in ports hold their message's bytes 0 to 7 and in-flumes their next entry. `shared` names
the v registers that the C word of the pair reads before this word. -/
def State.view (s : State) (tk : Nat) (t : Thread) (n : Names) (shared : List Nat) : Thread :=
  let t1 := (t.portsOf n.gs).foldl (fun u k => match s.firstMsg tk t (k + 1) with
    | some m => { u with g := Tbl.put 0 u.g (28 + k) (word (bytesAt (m.data.getD 0) 0 8)) }
    | none => u) t
  (t.flumesOf n.vs).foldl (fun u f =>
    { u with v := Tbl.put 0 u.v (24 + f.1) (f.2.queue.getD (if shared.contains (24 + f.1) then 1 else 0) 0) }) t1

/-- The PORT trap of a word's ports and flumes (R199, R212): a direction broken, or a pattern exhausted. -/
def Thread.portTrap (t : Thread) (n : Names) (shared : List Nat) : Option (Nat × Word) :=
  let bad : Option Nat :=
    match (t.portsOf n.gs).find? fun k => t.portOut k with
    | some k => some k
    | none => match (t.portsOf n.gd).find? fun k => !t.portOut k with
      | some k => some k
      | none => match (t.flumesOf n.vs).find? fun f =>
          f.2.out || decide (f.2.total ≤ f.2.used + (if shared.contains (24 + f.1) then 1 else 0)) with
        | some f => some (8 + f.1)
        | none => match (t.flumesOf n.vd).find? fun f => !f.2.out || decide (f.2.total ≤ f.2.used) with
          | some f => some (8 + f.1)
          | none => none
  bad.map fun k => (Cause.port, word k)

/-- The check of R325 on the destination of an out port. -/
def State.portDestTrap (s : State) (tk : Nat) (t : Thread) (gd : List Nat) : Option (Nat × Word) :=
  ((t.portsOf gd).find? fun k => decide (s.ncores (ckOfTk tk) ≤ t.portDc k) || (t.portDt k == 15 && t.priv == 0)).map
    fun k => (Cause.access, t.portWord k)

/-- Every earlier load, atomic, LDLK and synchronising access of the thread is bound, and its stores and the tile writes of its unit
requests performed (R190, R334, R351). -/
def Thread.performed (t : Thread) : Bool :=
  t.sbuf.isEmpty && t.remote.isEmpty && t.pend.all fun p => match p.kind with
    | .load | .atomic | .locked | .fullEmpty _ | .matrix => false
    | _ => true

/-- POISON of an in-flume entry that the word reads and whose bytes were poisoned when they were fetched: precise, log entry 160. -/
def Thread.flumePoison (t : Thread) (n : Names) (shared : List Nat) : Option (Nat × Word) :=
  ((t.flumesOf n.vs).findSome? fun f => f.2.bad.getD (if shared.contains (24 + f.1) then 1 else 0) none).map fun x => (Cause.poison, x)

/-- What a word's ports and flumes make it wait for: a message, an entry, room in a flume's queue or the send buffer. -/
def State.portWait (s : State) (tk : Nat) (t : Thread) (n : Names) (shared : List Nat) : Option (TState × Option Word) :=
  match (t.portsOf n.gs).find? fun k => (s.firstMsg tk t (k + 1)).isNone with
  | some k => some (.sync, some (word (0x100 + k)))
  | none =>
    if (t.flumesOf n.vs).any fun f => decide (f.2.queue.length ≤ (if shared.contains (24 + f.1) then 1 else 0)) then some (.sync, none)
    else if (t.flumesOf n.vd).any fun f => decide (4 ≤ f.2.queue.length) then some (.sync, none)
    else if (t.send.isSome ∨ !t.performed) ∧ !(t.portsOf n.gd).isEmpty then some (.ready, none)
    else none

/-! ## A-class words -/

/-- What the body of an A-class word gives: register writes, and the flags that its lanes raise. -/
structure AOut where
  gw : List (Nat × Word) := []
  vw : List (Nat × Vec) := []
  mw : List (Nat × Word) := []
  lanes : List (Nat × Flags) := []
  trap : Option (Nat × Word) := none

/-- The effect of an A-class word on the state before its unit (R195). -/
def State.evalA (s : State) (tk : Nat) (t : Thread) (n : Names) (shared : List Nat) (f64v : Bool) (body : Thread → AOut) : AEffect :=
  match t.portTrap n shared with
  | some x => { n := n, f64v := f64v, trap := some x }
  | none => match s.portDestTrap tk t n.gd with
    | some x => { n := n, f64v := f64v, trap := some x }
    | none => match s.portWait tk t n shared with
      | some w => { n := n, f64v := f64v, wait := some w }
      | none => match t.flumePoison n shared with
        | some x => { n := n, f64v := f64v, trap := some x }
        | none =>
          let o := body (s.view tk t n shared)
          match o.trap with
          | some x => { n := n, f64v := f64v, trap := some x }
          | none => match fpTrap t.fpcsr o.lanes with
            | some v => { n := n, f64v := f64v, trap := some (Cause.fp, v) }
            | none =>
              let out (e : Nat × Word) : Bool := (t.portOf e.1).isSome
              { n := n, f64v := f64v, gw := o.gw.filter fun e => !out e, vw := o.vw, mw := o.mw, flags := laneOr o.lanes
                sends := o.gw.filterMap fun e => (t.portOf e.1).map fun k =>
                  s.userMsg tk (t.portDc k) (t.portDt k) false (k + 1) (e.2.setWidth 512) 8 }

/-! ## Traps and waits of a unit -/

/-- The state in which a thread waits for a pending result (R135). -/
def Pending.waitState (p : Pending) : TState :=
  match p.kind with
  | .fullEmpty _ | .waita | .waitbar _ _ => .sync
  | _ => .long

/-- The free value that the destination of a result that cannot be bound holds (R198, R210). -/
def State.freeDst (s : State) (tk : Nat) (p : Pending) : State :=
  let n := s.free
  let s := s.modThr tk fun t => match p.fin with
    | .gz r _ => if (t.portOf r).isSome then t else t.wg r (Config.freeWord n)
    | .gs r _ => if (t.portOf r).isSome then t else t.wg r (Config.freeWord n)
    | .vec r => if (t.flumeOf r).isSome then t else t.wv r (Config.freeVec n)
    | .flume k => t.pushFlume k (Config.freeVec n)
    | .codetab | .none => t
  { s with free := n + 1 }

/-- A unit whose trap is precise has no effect (R195): its registers have what they held, and what it took comes back. -/
def State.undoUnit (s : State) (tk : Nat) (p : Pending) : State :=
  match p.undo with
  | none => s
  | some u =>
    let s := s.modThr tk fun t =>
      let t := u.g.foldl (fun (t : Thread) e => t.wg e.1 e.2) t
      let t := u.v.foldl (fun (t : Thread) e => t.wv e.1 e.2) t
      let t := u.m.foldl (fun (t : Thread) e => t.wm e.1 e.2) t
      { t with fpcsr := u.fpcsr, flumes := t.flumes.map fun e => match u.popped.find? fun x => x.1 == e.1 with
          | some x => (e.1, { e.2 with queue := x.2 :: e.2.queue, bad := none :: e.2.bad, used := e.2.used - 1 })
          | none => e }
    s.modCx (ckOfTk tk) fun x => { x with inbox := u.taken ++ x.inbox }

/-- Takes the condition found with a pending result (R198, R210, R426): with later units issued, or for poison, the trap is
deferred to the unit the thread would issue next; otherwise it is precise at the waiting unit. Results with a condition of
their own end with it. -/
def State.deferTrap (s : State) (tk : Nat) (p : Pending) : State :=
  match s.thr tk with
  | none => s
  | some t =>
    let bad := t.pend.filter Pending.bad
    let s := foldS (fun q s => s.freeDst tk q) (bad.filter fun q => q.later || q.fault.isNone) s
    let s := s.modThr tk fun t => { t with pend := t.pend.filter fun q => !q.bad }
    match p.fault with
    | some (c, v) => if p.later then s.takeTrap tk c v t.pc false true else (s.undoUnit tk p).takeTrap tk c v p.upc false false
    | none => (s.releaseHeld tk p).takeTrap tk Cause.poison (p.poison.getD 0) t.pc false true

/-- The thread waits in a state; READY means that the unit is refused (R197). -/
def State.waitUnit (s : State) (tk : Nat) (st : TState) (park : Option Word) : State :=
  let s := s.modThr tk fun t => { t with st := st, park := park }
  if st = .ready then { s with unit := { s.unit with refused := true } } else s

/-- The thread waits for its pending results; once they are bound, a condition among them is taken. -/
def State.awaitResults (s : State) (tk : Nat) (t : Thread) (p : Pending) : State :=
  match t.pend.find? fun q => !q.complete with
  | some q => s.waitUnit tk (if p.complete then q.waitState else p.waitState) none
  | none => match t.pend.find? Pending.bad with
    | some q => s.deferTrap tk q
    | none => s

/-- A trap raised by the unit in issue (R228): pending results are bound first. -/
def State.unitTrap (s : State) (tk cause : Nat) (val : Word) (wordBit : Bool) : State :=
  match s.thr tk with
  | none => s
  | some t => match t.pend with
    | p :: _ => s.awaitResults tk t p
    | [] => s.takeTrap tk cause val s.unit.addr wordBit false

/-! ## C-class words -/

/-- What the body of a C-class word gives. -/
inductive CRes where
  /-- It completes; the PC is the given one, or the next unit's. -/
  | done (s : State) (pc : Option Word)
  | trap (cause : Nat) (val : Word)
  /-- It waits without effect and issues again; READY refuses it. -/
  | wait (s : State) (st : TState) (park : Option Word)

/-- What is fixed about a C-class word: its registers, and whether it is privileged, memory-class, opens a window, sends. -/
structure CSpec where
  n : Names := {}
  priv : Bool := false
  mem : Bool := false
  la : Bool := false
  sends : Bool := false
  /-- v registers and tiles that the word names without the rules of flumes: results of the matrix unit, and the flume that
  FBIND and FUNBIND name (R392, R425). -/
  hidV : List Nat := []
  hidZ : List Nat := []
  /-- A unit request (R412). -/
  unitReq : Bool := false
  deriving DecidableEq, Repr

/-- The registers and tiles that the word names; a tile by its place in the accumulator store (R260). -/
def CSpec.names (c : CSpec) (t : Thread) : Names :=
  { c.n with vd := c.n.vd ++ c.hidV, zs := c.hidZ.map (· + field t.zbase 0 8) }

/-! ## Units -/

/-- The words of the unit in issue. -/
def UnitCtx.words (u : UnitCtx) : Nat := if u.phase = .lone then 1 else 2

/-- A register that a pending result will write is read or written. -/
def Dst.hits (n : Names) : Dst → Bool
  | .g r => r != 0 && (n.gs.contains r || n.gd.contains r)
  | .v r => n.vs.contains r || n.vd.contains r
  | .z t => n.zs.contains t

/-- The pending result that holds back a unit of `k` words (R196, R352, R412). -/
def Thread.holdBack (t : Thread) (c : CSpec) (b : Names) (k : Nat) : Option Pending :=
  match t.pend.find? fun p => decide (p.window < k) || (p.dsts.any fun d => d.hits (c.names t) || d.hits b) ||
      ((c.mem || c.sends || !(t.portsOf (c.n.gd ++ b.gd)).isEmpty) && p.acq) ||
      (c.unitReq && p.kind == .matrix) with
  | some p => some p
  | none => if c.la ∧ 8 ≤ t.pend.length then t.pend.head? else none

/-- The two words name one destination register (R195, R286). -/
def Names.clash (a b : Names) : Bool :=
  (a.gd.any fun r => r != 0 && b.gd.contains r) || (a.vd.any fun r => b.vd.contains r) ||
    a.md.any fun r => r != 0 && b.md.contains r

/-- The messages that a unit would commit (R325). -/
def Thread.messages (t : Thread) (c : CSpec) (a : AEffect) : Nat :=
  bitOf c.sends + (t.portsOf c.n.gd).length + (t.portsOf a.n.gd).length

/-- TRAPVAL of BUNDLE (R287). -/
def UnitCtx.bundleVal (u : UnitCtx) : Word := u.word0.setWidth 64 ||| ((u.word1.setWidth 64 : Word) <<< 32)

/-- Pops the in-flumes that a word read. -/
def Thread.popFlumes (t : Thread) (l : List Nat) : Thread :=
  { t with flumes := t.flumes.map fun e =>
      if l.contains (24 + e.1) ∧ !e.2.out then (e.1, { e.2 with queue := e.2.queue.drop 1, bad := e.2.bad.drop 1, used := e.2.used + 1 }) else e }

/-- The pending results after a unit of `k` words: windows shrink, and units have issued since those that were there. -/
def ageResults (old : List Pending) (k : Nat) (l : List Pending) : List Pending :=
  l.map fun p => { p with window := p.window - k, later := p.later || old.any fun q => q.id == p.id }

/-- A condition of the pending result traps precisely at its unit while no later unit has issued (R210, R357, R426). -/
def Pending.precise (p : Pending) : Bool :=
  match p.kind with
  | .fullEmpty _ | .waitbar _ _ | .barPost _ | .matrix => true
  | _ => false

/-- The pending result that a unit has opened and whose trap would be precise at the unit. -/
def State.openedPrecise (s : State) (tk : Nat) (t : Thread) : Option Pending :=
  match s.thr tk with
  | some u => u.pend.find? fun p => p.precise && t.pend.all fun q => q.id != p.id
  | none => none

/-- What a precise trap of a unit takes back. -/
def State.undoOf (s : State) (tk : Nat) (t : Thread) (c : CSpec) (a : AEffect) : Undo :=
  let out (e : Nat × Vec) : Bool := (t.flumeOf e.1).any fun f => f.2.out
  { g := a.gw.map fun e => (e.1, t.rg e.1)
    v := (a.vw.filter fun e => !out e).map fun e => (e.1, t.rv e.1)
    m := a.mw.map fun e => (e.1, t.rm e.1)
    fpcsr := t.fpcsr
    popped := (t.flumesOf (c.n.vs ++ a.n.vs)).filterMap fun f => f.2.queue.head?.map fun x => (f.1, x)
    taken := (t.portsOf (c.n.gs ++ a.n.gs)).filterMap fun k => s.firstMsg tk t (k + 1)
    push := a.vw.filter out
    sends := a.sends }

/-- The pending result of the unit that could still trap precisely, and what that trap would take back. -/
def State.heldUnit (s : State) (tk : Nat) (t : Thread) (c : CSpec) (a : AEffect) : Option (Nat × Undo) :=
  (s.openedPrecise tk t).map fun p => (p.id, s.undoOf tk t c a)

/-- The vector writes of an A word that are made at once: entries for out-flumes wait for the held result. -/
def AEffect.vwNow (a : AEffect) (held : Option (Nat × Undo)) : List (Nat × Vec) :=
  match held with
  | some h => a.vw.filter fun e => !h.2.push.contains e
  | none => a.vw

/-- The messages of the unit's out ports that leave at once. -/
def AEffect.sendsNow (a : AEffect) (held : Option (Nat × Undo)) : List Msg :=
  match held with
  | some _ => []
  | none => a.sends

/-- A pending result that holds its unit back keeps what its trap takes back, where that is anything (R195). -/
def AEffect.keepUndo (a : AEffect) (fpcsr : Word) (held : Option (Nat × Undo)) (p : Pending) : Pending :=
  match held with
  | some h => if p.id = h.1 ∧ (h.2 ≠ { fpcsr := fpcsr } ∨ a.flags ≠ 0) then { p with undo := some h.2 } else p
  | none => p

/-- The unit completes: messages are taken, flumes popped, the A word's results written, its flags raised, and the thread
moves to its next unit. `t` is the thread before the unit. What earlier units held back leaves now; what this one sends is held back
while a trap of its own pending result would be precise (R195). -/
def State.retire (s : State) (tk : Nat) (t : Thread) (c : CSpec) (a : AEffect) (k : Nat) (pc : Option Word) : State :=
  let s := foldS (fun (p : Pending) s => s.releaseHeld tk p) t.pend s
  let held := s.heldUnit tk t c a
  let s := foldS (fun p s => s.takeMsg tk t (p + 1)) (t.portsOf (c.n.gs ++ a.n.gs)) s
  let s := s.modThr tk fun u => (u.popFlumes c.n.vs).popFlumes a.n.vs
  let s := foldS (fun f s => s.laterOnce (.flumeTransfer tk f.1)) (t.flumesOf (c.n.vs ++ a.n.vs)) s
  let s := s.modThr tk fun u => a.gw.foldl (fun u e => u.wg e.1 e.2) u
  let s := foldS (fun e s => s.writeV tk e.1 e.2) (a.vwNow held) s
  let s := s.modThr tk fun u => a.mw.foldl (fun u e => u.wm e.1 e.2) u
  let s := foldS (fun (m : Msg) s => s.commit tk (.userMessage m) m.region) (a.sendsNow held) s
  s.modThr tk fun u =>
    let pend := (ageResults t.pend k u.pend).map (a.keepUndo t.fpcsr held)
    { u with
      fpcsr := fpRaise u.fpcsr a.flags
      pc := pc.getD (s.unit.addr + word (4 * k))
      pend := pend
      lastIssue := if u.lastIssue = t.lastIssue then some (s.clu (s.unit.core / 4)).cycle.toNat else u.lastIssue
      waitcount := 0, park := none, x := {}, btag := none
      st := if u.st = .ready then (match pend.find? fun p => p.window == 0 with
        | some p => p.waitState
        | none => .ready) else u.st }

/-- F64V on a core without it (R145): a user thread moves to core 0 of its cluster; otherwise EXTENSION_ABSENT. -/
def State.absentF64v (s : State) (tk : Nat) (t : Thread) (wordBit : Bool) : State :=
  match (if isService tk then none else s.f64vCore (ckOfTk tk)) with
  | some z => if t.quiet then s.moveThread tk z else s.waitUnit tk (if t.pend.isEmpty then .ready else .long) none
  | none => s.unitTrap tk Cause.extensionAbsent 0 wordBit

/-- The A word's own checks, and completion. `s'` is the state after the C word. -/
def State.finishA (s s' : State) (tk : Nat) (t : Thread) (c : CSpec) (a : AEffect) (pc : Option Word) : State :=
  let k := s.unit.words
  match a.trap with
  | some x => s.unitTrap tk x.1 x.2 (k == 2)
  | none => match a.wait with
    | some w => s.waitUnit tk w.1 w.2
    | none => s'.retire tk t c a k pc

/-- The checks of R287 from pairing on, and the unit's effect. -/
def State.finishUnit (s : State) (tk : Nat) (t : Thread) (c : CSpec) (a : AEffect) (body : Thread → State → CRes) : State :=
  let k := s.unit.words
  match t.holdBack c a.n k with
  | some p => s.awaitResults tk t p
  | none =>
    if k = 2 ∧ (c.names t).clash a.n then s.unitTrap tk Cause.bundle s.unit.bundleVal false
    else if a.f64v ∧ !s.hasF64v s.unit.core then s.absentF64v tk t (k == 2)
    else if c.priv ∧ t.priv = 0 then s.unitTrap tk Cause.priv 0 false
    else if 1 < t.messages c a then s.unitTrap tk Cause.bundle s.unit.bundleVal false
    else match t.portTrap c.n [] with
    | some x => s.unitTrap tk x.1 x.2 false
    | none => match s.portDestTrap tk t c.n.gd with
      | some x => s.unitTrap tk x.1 x.2 false
      | none => match s.portWait tk t c.n [] with
        | some w => s.waitUnit tk w.1 w.2
        | none => match t.flumePoison c.n [] with
          | some x => s.unitTrap tk x.1 x.2 false
          | none => match body (s.view tk t c.n []) s with
            | .trap cause val => s.unitTrap tk cause val false
            | .wait s' st park => s'.waitUnit tk st park
            | .done s' pc => s.finishA s' tk t c a pc

/-- An A-class word: alone it is a unit; as the second word of a pair its effect is kept for the C word (R195). -/
def issueA (n : Names) (f64v : Bool) (body : Thread → AOut) (s : State) : Host.Outcome State Fault Refusal :=
  let tk := s.unit.tk
  match s.thr tk with
  | none => .fault .noThread
  | some t =>
    match s.unit.phase with
    | .aOfPair => .next { s with unit := { s.unit with a := s.evalA tk t n s.unit.cReads f64v body } }
    | _ => .next (s.finishUnit tk t {} (s.evalA tk t n [] f64v body) fun _ s => .done s none)

/-- A C-class word: alone, or with the A word whose effect the unit holds. -/
def issueC (c : CSpec) (body : Thread → State → CRes) (s : State) : Host.Outcome State Fault Refusal :=
  let tk := s.unit.tk
  match s.thr tk with
  | none => .fault .noThread
  | some t => .next (s.finishUnit tk t c (if s.unit.phase = .cOfPair then s.unit.a else {}) body)

/-- The effect of a device step. -/
def event (f : State → State) (s : State) : Host.Outcome State Fault Refusal := .next (f s)

end Sys2Proof.Machine
end

