-- ==== Sys2Proof/Machine/Access.lean ====
section
/-!
DEFINITION. Memory and pool accesses of a thread: the checks of R333, the pieces of an access, loads and stores to memory and
to local and remote pools (R205, R334, R338 to R342), and what holds an access back (R188, R351).
-/

namespace Sys2Proof.Machine

/-! ## Checks (R333) -/

/-- Where an access goes. -/
inductive Target where
  | mem (va : Nat)
  | pool (ck off : Nat)
  deriving DecidableEq, Repr

/-- Steps 1 to 3 of R333 for an access of `n` bytes to memory or to the scratchpad and landing slots. -/
def State.target (s : State) (tk : Nat) (ea : Word) (n align : Nat) (memOk poolOk : Bool) : Except Nat Target :=
  if isSp ea then
    match s.spDecode (ckOfTk tk) ea with
    | none => .error Cause.access
    | some (ck, off) =>
      if !poolOk ∨ off < barTableEnd ∨ s.spLimit ck < off + n then .error Cause.access
      else if ea.toNat % align ≠ 0 then .error Cause.align
      else .ok (.pool ck off)
  else if !memOk then .error Cause.access
  else if ea.toNat % align ≠ 0 then .error Cause.align
  else .ok (.mem ea.toNat)

/-- A thread runs away from its home core: it has migrated, or another core hosts its home (R145, R146). -/
def State.away (s : State) (tk : Nat) (t : Thread) : Bool := t.roster != ckOfTk tk || (s.cx (ckOfTk tk)).host.isSome

/-- The scope at which an ordering operation of a thread acts: away from its home core, .thr and .core act at .clu (R176). -/
def State.scopeOf (s : State) (tk : Nat) (t : Thread) (sc : Scope) : Scope :=
  if s.away tk t ∧ (sc = .thr ∨ sc = .core) then .clu else sc

/-- Step 4: translation of one address for the thread of the unit in issue. -/
def State.xlatThread (s : State) (tk : Nat) (t : Thread) (va : Nat) (r w x : Bool) : XRes :=
  if untranslated tk t then s.physical va
  else match s.pasidOf (ckOfTk tk) with
    | some p => s.translate { w := .thread tk, cluster := some (s.unit.core / 4), pasid := p, priv := t.priv != 0, r := r, wr := w, x := x } va
    | none => .fault Cause.access

/-! ## Pieces -/

/-- A part of an access that lies in one line or one pool: its place, its length, and its place in the register. -/
structure Piece where
  tgt : Target
  len : Nat
  at_ : Nat
  deriving DecidableEq, Repr

/-- An access to memory cut at line boundaries. -/
def pieces (va n : Nat) (at_ : Nat) : List Piece :=
  let first := min n (64 - va % 64)
  if first = n then [⟨.mem va, n, at_⟩] else [⟨.mem va, first, at_⟩, ⟨.mem ((va + first) % 2 ^ 64), n - first, at_ + first⟩]

/-- The pieces of a checked access. -/
def Target.pieces (t : Target) (n at_ : Nat) : List Piece :=
  match t with
  | .mem va => Machine.pieces va n at_
  | .pool ck off => [⟨.pool ck off, n, at_⟩]

/-- A piece with its physical place. -/
structure Plan where
  src : LaneSrc
  len : Nat
  at_ : Nat
  deriving DecidableEq, Repr

/-- Translates every piece of an access before any is accessed (R76). A failure carries `val` as TRAPVAL where one is given,
else the piece's own address. -/
def State.planAll (s : State) (tk : Nat) (t : Thread) (r w : Bool) (val : Option Word) :
    List Piece → Except CRes (State × List Plan)
  | [] => .ok (s, [])
  | p :: l =>
    match p.tgt with
    | .pool ck off => match State.planAll s tk t r w val l with
      | .ok (s, q) => .ok (s, ⟨.pool ck off, p.len, p.at_⟩ :: q)
      | .error e => .error e
    | .mem va => match s.xlatThread tk t va r w false with
      | .fault c => .error (.trap c (val.getD (word va)))
      | .wait s st => .error (.wait s st none)
      | .pa s pa => match State.planAll s tk t r w val l with
        | .ok (s, q) => .ok (s, ⟨.mem pa, p.len, p.at_⟩ :: q)
        | .error e => .error e

/-! ## What holds an access back -/

/-- Two byte ranges overlap. -/
def overlap (a n b m : Nat) : Bool := decide (a < b + m) && decide (b < a + n)

/-- An access lies in a range of a footprint: pools by context core and offset, memory by virtual address (R217). -/
def Range.meets (g : Range) (tgt : Target) (n : Nat) : Bool :=
  match tgt with
  | .mem va => g.ck.isNone && overlap va n g.base g.len
  | .pool ck off => g.ck == some ck && overlap off n g.base g.len

/-- An unfinished job of the thread holds the access back (R188): its write footprint any access, its read footprint a
store. -/
def State.jobHolds (s : State) (tk : Nat) (tgt : Target) (n : Nat) (store : Bool) : Bool :=
  (s.cx (ckOfTk tk)).cards.any fun c =>
    c.tk == tk && ((c.writes.any fun g => g.meets tgt n) || (store && c.reads.any fun g => g.meets tgt n))

/-- An earlier remote access of the thread that meets the bytes of a pool access still awaits its answer (R205): any for a store, one
that is more than a load for a load. -/
def Thread.readHolds (t : Thread) (tgt : Target) (n : Nat) (store : Bool) : Bool :=
  match tgt with
  | .pool ck off => t.pend.any fun p => (store || p.kind != .load) && p.lanes.any fun l => !l.done && match l.src with
    | .pool k o => k == ck && overlap off n o l.len
    | _ => false
  | .mem _ => false

/-- An earlier remote store of the thread to the same pool line is not complete (R205). -/
def Thread.remoteHolds (t : Thread) (tgt : Target) : Bool :=
  match tgt with
  | .pool ck off => t.remote.any fun q => q.ck == ck && q.off / 64 == off / 64
  | .mem _ => false

/-! ## Messages to another core's pool (R156) -/

/-- The common fields of a request to the owner of a pool. -/
def State.spMsg (s : State) (tk ck off len txid : Nat) : Msg :=
  { src := s.unit.core, dst := (s.coreOfCk ck).getD 0, txid := txid, thread := slotOfTk tk, region := regionOfCk ck,
    ck := ck, srcCk := ckOfTk tk, poff := off, len := len, nobar := true }

/-! ## Loads -/

/-- One piece of a load as the state finds it: bytes at hand are brought, the others are asked for. -/
def State.laneFor (s : State) (tk : Nat) (p : Plan) (acc : List Lane × Vec × Option Word) :
    Option (State × List Lane × Vec × Option Word) :=
  match s.thr tk with
  | none => none
  | some t =>
    let put (x : Nat) (bad : Option Word) (s : State) :=
      some (s, acc.1 ++ [{ src := p.src, len := p.len, at_ := p.at_, done := true, bad := bad }], putBytes acc.2.1 p.at_ p.len x,
        (match acc.2.2 with | some y => some y | none => bad))
    match p.src with
    | .mem pa =>
      match s.loadLine t s.unit.core (pa / 64) (pa % 64) p.len with
      | some (x, bad) =>
        let l := s.al s.unit.core (pa / 64)
        put x (if bad then some (word (64 * (pa / 64))) else none)
          (if l.st = .i then s else s.setAl s.unit.core (pa / 64) { l with used := s.clock })
      | none =>
        let s := s.agentMiss s.unit.core (pa / 64) false
        some (s, acc.1 ++ [{ src := p.src, len := p.len, at_ := p.at_ }], acc.2.1, acc.2.2)
    | .pool ck off =>
      if s.isLocal ck then put (s.poolRead ck off p.len) ((s.poolPoison ck off p.len).map fun o => deviceForm ck o) s
      else
        let r := s.newTx s.unit.core
        some (r.1.later (.sprd (r.1.spMsg tk ck off p.len r.2)),
          acc.1 ++ [{ src := p.src, len := p.len, at_ := p.at_, txid := r.2 }], acc.2.1, acc.2.2)
    | .reply => none

/-- The lanes of a load, in order. -/
def State.lanesFor (s : State) (tk : Nat) : List Plan → List Lane × Vec × Option Word → Option (State × List Lane × Vec × Option Word)
  | [], acc => some (s, acc)
  | p :: l, acc => match s.laneFor tk p acc with
    | some (s, acc) => State.lanesFor s tk l acc
    | none => none

/-- Starts a load: bound at once when every byte is at hand and none is poisoned, otherwise a pending result (R196, R198). -/
def State.startLoad (s : State) (tk la : Nat) (plans : List Plan) (dsts : List Dst) (fin : Fin_) (acq : Bool) : CRes :=
  match s.lanesFor tk plans ([], 0, none) with
  | none => .wait s .ready none
  | some (s, lanes, buf, bad) =>
    if (lanes.all Lane.done) ∧ bad.isNone then .done (s.bindFin tk fin buf) none
    else .done (s.addPend tk la { dsts := dsts, fin := fin, lanes := lanes, buf := buf, poison := bad, acq := acq, upc := s.unit.addr }).1 none

/-- An atomic, LDLK or STCK of the thread on a line that the access meets is in progress (R339). -/
def Thread.atomicHolds (t : Thread) (plans : List Plan) : Bool :=
  plans.any fun p => match p.src with
    | .mem pa => t.pend.any fun q => q.line == some (pa / 64)
    | _ => false

/-- A load of `n` bytes at `ea`. -/
def State.load (s : State) (tk : Nat) (ea : Word) (n align la : Nat) (dsts : List Dst) (fin : Fin_) (acq : Bool) : CRes :=
  match s.thr tk with
  | none => .wait s .ready none
  | some t =>
    match s.target tk ea n align true true with
    | .error c => .trap c ea
    | .ok tgt =>
      match s.planAll tk t true false (some ea) (tgt.pieces n 0) with
      | .error e => e
      | .ok (s', plans) =>
        if s.jobHolds tk tgt n false ∨ t.remoteHolds tgt ∨ t.readHolds tgt n false then .wait s' .ready none
        else if t.atomicHolds plans then .wait s' .ready none
        else s'.startLoad tk la plans dsts fin acq

/-! ## Stores -/

/-- A remote store leaves with a copy allowance (R171). It waits at the interface, behind those for the same context that wait there,
for an allowance or for the partition to be resident (R205). -/
def State.sendSpwr (s : State) (core : Nat) (m : Msg) : State :=
  let wait : State := s.modCore core fun c => { c with spwrHeld := c.spwrHeld ++ [m] }
  match s.coreOfCk m.ck with
  | none => wait
  | some d =>
    if (s.core core).spwrHeld.any fun h => h.ck == m.ck then wait
    else if Tbl.get 0 (s.core core).allowUsed d < 2 then
      (s.modCore core fun c => { c with allowUsed := Tbl.upd 0 c.allowUsed d (· + 1) }).later (.spwr { m with dst := d })
    else wait

/-- A store finds no room: the store buffer of 8 entries is full, or no copy allowance is free (R197, R205). -/
def State.storeFull (s : State) (t : Thread) (plans : List Plan) : Bool :=
  plans.any fun p => match p.src with
    | .mem pa => decide (8 ≤ t.sbuf.length) && !(t.sbuf.any fun b => b.line == pa / 64) && !(s.al s.unit.core (pa / 64)).st.writable
    | .pool ck _ => !s.isLocal ck && (s.coreOfCk ck).any fun d => decide (2 ≤ Tbl.get 0 (s.core s.unit.core).allowUsed d)
    | .reply => false

/-- Performs or buffers one piece of a store; `none` refuses the unit. -/
def State.storePiece (s : State) (tk : Nat) (p : Plan) (x : Nat) : Option State :=
  match p.src with
  | .mem pa =>
    s.storeLine tk s.unit.core (pa / 64) (byteMask (pa % 64) p.len) (BitVec.ofNat 512 (x % 2 ^ (8 * p.len) * 2 ^ (8 * (pa % 64))))
  | .pool ck off =>
    if s.isLocal ck then some (s.poolWrite ck off (leBytes p.len x))
    else
      let r := s.newTx s.unit.core
      let s := r.1.modThr tk fun t => { t with remote := t.remote ++ [⟨r.2, ck, off⟩] }
      some (s.sendSpwr s.unit.core { s.spMsg tk ck off p.len r.2 with data := some (BitVec.ofNat 512 x) })
  | .reply => none

/-- The pieces of a store in order; `v` holds the bytes. -/
def State.storePieces (s : State) (tk : Nat) (v : Vec) : List Plan → Option State
  | [] => some s
  | p :: l => match s.storePiece tk p (bytesAt v p.at_ p.len) with
    | some s => State.storePieces s tk v l
    | none => none

/-- A store of `n` bytes at `ea`; a release waits until the thread's earlier accesses are performed (R351). -/
def State.store (s : State) (tk : Nat) (ea : Word) (n align : Nat) (v : Vec) (rel : Bool) : CRes :=
  match s.thr tk with
  | none => .wait s .ready none
  | some t =>
    match s.target tk ea n align true true with
    | .error c => .trap c ea
    | .ok tgt =>
      match s.planAll tk t false true (some ea) (tgt.pieces n 0) with
      | .error e => e
      | .ok (s', plans) =>
        if s.jobHolds tk tgt n true ∨ (rel ∧ !t.performed) ∨ s.storeFull t plans ∨ t.readHolds tgt n true then .wait s' .ready none
        else match s'.storePieces tk v plans with
          | some s => .done s none
          | none => .wait s' .ready none

/-! ## Vectors with lanes (R341, R342) -/

/-- The checked targets of the active lanes, lowest failing lane first (R333). -/
def State.laneTargets (s : State) (tk e : Nat) : List (Nat × Word) → Except (Nat × Word) (List (Nat × Target))
  | [] => .ok []
  | (i, ea) :: l => match s.target tk ea e e true true with
    | .error c => .error (c, ea)
    | .ok t => match State.laneTargets s tk e l with
      | .ok q => .ok ((i, t) :: q)
      | .error x => .error x

/-- The active lanes of a mask with their addresses. -/
def activeLanes (mask : Word) (count : Nat) (addr : Nat → Word) : List (Nat × Word) :=
  (List.range count).filterMap fun i => if mask.getLsbD i then some (i, addr i) else none

/-- A gather or a masked load. -/
def State.gather (s : State) (tk e la : Nat) (lanes : List (Nat × Word)) (d : Nat) : CRes :=
  match s.thr tk with
  | none => .wait s .ready none
  | some t =>
    match s.laneTargets tk e lanes with
    | .error (c, ea) => .trap c ea
    | .ok ts =>
      match s.planAll tk t true false none (ts.flatMap fun x => x.2.pieces e (x.1 * e)) with
      | .error r => r
      | .ok (s', plans) =>
        if (ts.any fun x => s.jobHolds tk x.2 e false || t.remoteHolds x.2 || t.readHolds x.2 e false) ∨ t.atomicHolds plans then .wait s' .ready none
        else s'.startLoad tk la plans [.v d] (.vec d) false

/-- A scatter or a masked store: of two lanes that name one element the highest writes it. -/
def State.scatter (s : State) (tk e : Nat) (lanes : List (Nat × Word)) (v : Vec) : CRes :=
  match s.thr tk with
  | none => .wait s .ready none
  | some t =>
    match s.laneTargets tk e lanes with
    | .error (c, ea) => .trap c ea
    | .ok ts =>
      match s.planAll tk t false true none (ts.flatMap fun x => x.2.pieces e (x.1 * e)) with
      | .error r => r
      | .ok (s', plans) =>
        let last := plans.filter fun p => plans.all fun q => !(q.src == p.src && decide (p.at_ < q.at_))
        if (ts.any fun x => s.jobHolds tk x.2 e true || t.readHolds x.2 e true) ∨ s.storeFull t plans then .wait s' .ready none
        else match s'.storePieces tk v last with
          | some s => .done s none
          | none => .wait s' .ready none

end Sys2Proof.Machine
end

