-- ==== Sys2Proof/Machine/Memory.lean ====
section
/-!
DEFINITION. The memory, atomic and synchronisation instructions (R337 to R360).
-/

namespace Sys2Proof.Machine

/-! ## Scalar loads and stores (R337, R338) -/

/-- A load of a g register: `ea` from the operands. -/
def ldOp (d : BitVec 5) (gs : List Nat) (l : BitVec 4) (n : Nat) (fin : Fin_) (ea : Thread → Word) :
    State → Host.Outcome State Fault Refusal :=
  issueC { n := { gs := gs, gd := [d.toNat] }, mem := true, la := true } fun t s =>
    s.load s.unit.tk (ea t) n n l.toNat [.g d.toNat] fin false

/-- ea := g a + SExt(I7) × size (R338). -/
def eaImm (a : BitVec 5) (i : BitVec 7) (n : Nat) (t : Thread) : Word := t.rg a.toNat + simm i * word n
/-- ea := g a + g b × size (R338). -/
def eaIdx (a b : BitVec 5) (n : Nat) (t : Thread) : Word := t.rg a.toNat + t.rg b.toNat * word n

/-- A store of the low `n` bytes of g d. -/
def stOp (d : BitVec 5) (gs : List Nat) (n : Nat) (ea : Thread → Word) : State → Host.Outcome State Fault Refusal :=
  issueC { n := { gs := gs ++ [d.toNat] }, mem := true } fun t s =>
    s.store s.unit.tk (ea t) n n ((t.rg d.toNat).setWidth 512) false

/-- R337, ld.bu. -/
def execLdBu (_p : Bool) (d a : BitVec 5) (i : BitVec 7) (l : BitVec 4) : State → Host.Outcome State Fault Refusal :=
  ldOp d [a.toNat] l 1 (.gz d.toNat 1) (eaImm a i 1)

/-- R337, ld.hu. -/
def execLdHu (_p : Bool) (d a : BitVec 5) (i : BitVec 7) (l : BitVec 4) : State → Host.Outcome State Fault Refusal :=
  ldOp d [a.toNat] l 2 (.gz d.toNat 2) (eaImm a i 2)

/-- R337, ld.wu. -/
def execLdWu (_p : Bool) (d a : BitVec 5) (i : BitVec 7) (l : BitVec 4) : State → Host.Outcome State Fault Refusal :=
  ldOp d [a.toNat] l 4 (.gz d.toNat 4) (eaImm a i 4)

/-- R337, ld.d. -/
def execLdD (_p : Bool) (d a : BitVec 5) (i : BitVec 7) (l : BitVec 4) : State → Host.Outcome State Fault Refusal :=
  ldOp d [a.toNat] l 8 (.gz d.toNat 8) (eaImm a i 8)

/-- R337, ld.b. -/
def execLdB (_p : Bool) (d a : BitVec 5) (i : BitVec 7) (l : BitVec 4) : State → Host.Outcome State Fault Refusal :=
  ldOp d [a.toNat] l 1 (.gs d.toNat 1) (eaImm a i 1)

/-- R337, ld.h. -/
def execLdH (_p : Bool) (d a : BitVec 5) (i : BitVec 7) (l : BitVec 4) : State → Host.Outcome State Fault Refusal :=
  ldOp d [a.toNat] l 2 (.gs d.toNat 2) (eaImm a i 2)

/-- R337, ld.w. -/
def execLdW (_p : Bool) (d a : BitVec 5) (i : BitVec 7) (l : BitVec 4) : State → Host.Outcome State Fault Refusal :=
  ldOp d [a.toNat] l 4 (.gs d.toNat 4) (eaImm a i 4)

/-- R337, st.b. -/
def execStB (_p : Bool) (d a : BitVec 5) (i : BitVec 7) : State → Host.Outcome State Fault Refusal :=
  stOp d [a.toNat] 1 (eaImm a i 1)

/-- R337, st.h. -/
def execStH (_p : Bool) (d a : BitVec 5) (i : BitVec 7) : State → Host.Outcome State Fault Refusal :=
  stOp d [a.toNat] 2 (eaImm a i 2)

/-- R337, st.w. -/
def execStW (_p : Bool) (d a : BitVec 5) (i : BitVec 7) : State → Host.Outcome State Fault Refusal :=
  stOp d [a.toNat] 4 (eaImm a i 4)

/-- R337, st.d. -/
def execStD (_p : Bool) (d a : BitVec 5) (i : BitVec 7) : State → Host.Outcome State Fault Refusal :=
  stOp d [a.toNat] 8 (eaImm a i 8)

/-- R337, ldx.bu. -/
def execLdxBu (_p : Bool) (d a b : BitVec 5) (l : BitVec 4) : State → Host.Outcome State Fault Refusal :=
  ldOp d [a.toNat, b.toNat] l 1 (.gz d.toNat 1) (eaIdx a b 1)

/-- R337, ldx.hu. -/
def execLdxHu (_p : Bool) (d a b : BitVec 5) (l : BitVec 4) : State → Host.Outcome State Fault Refusal :=
  ldOp d [a.toNat, b.toNat] l 2 (.gz d.toNat 2) (eaIdx a b 2)

/-- R337, ldx.wu. -/
def execLdxWu (_p : Bool) (d a b : BitVec 5) (l : BitVec 4) : State → Host.Outcome State Fault Refusal :=
  ldOp d [a.toNat, b.toNat] l 4 (.gz d.toNat 4) (eaIdx a b 4)

/-- R337, ldx.d. -/
def execLdxD (_p : Bool) (d a b : BitVec 5) (l : BitVec 4) : State → Host.Outcome State Fault Refusal :=
  ldOp d [a.toNat, b.toNat] l 8 (.gz d.toNat 8) (eaIdx a b 8)

/-- R337, ldx.b. -/
def execLdxB (_p : Bool) (d a b : BitVec 5) (l : BitVec 4) : State → Host.Outcome State Fault Refusal :=
  ldOp d [a.toNat, b.toNat] l 1 (.gs d.toNat 1) (eaIdx a b 1)

/-- R337, ldx.h. -/
def execLdxH (_p : Bool) (d a b : BitVec 5) (l : BitVec 4) : State → Host.Outcome State Fault Refusal :=
  ldOp d [a.toNat, b.toNat] l 2 (.gs d.toNat 2) (eaIdx a b 2)

/-- R337, ldx.w. -/
def execLdxW (_p : Bool) (d a b : BitVec 5) (l : BitVec 4) : State → Host.Outcome State Fault Refusal :=
  ldOp d [a.toNat, b.toNat] l 4 (.gs d.toNat 4) (eaIdx a b 4)

/-- R337, stx.b. -/
def execStxB (_p : Bool) (d a b : BitVec 5) : State → Host.Outcome State Fault Refusal :=
  stOp d [a.toNat, b.toNat] 1 (eaIdx a b 1)

/-- R337, stx.h. -/
def execStxH (_p : Bool) (d a b : BitVec 5) : State → Host.Outcome State Fault Refusal :=
  stOp d [a.toNat, b.toNat] 2 (eaIdx a b 2)

/-- R337, stx.w. -/
def execStxW (_p : Bool) (d a b : BitVec 5) : State → Host.Outcome State Fault Refusal :=
  stOp d [a.toNat, b.toNat] 4 (eaIdx a b 4)

/-- R337, stx.d. -/
def execStxD (_p : Bool) (d a b : BitVec 5) : State → Host.Outcome State Fault Refusal :=
  stOp d [a.toNat, b.toNat] 8 (eaIdx a b 8)

/-! ## Vector accesses (R340 to R342) -/

/-- R340, vld. -/
def execVld (_p : Bool) (d a : BitVec 5) (i : BitVec 7) (l : BitVec 4) : State → Host.Outcome State Fault Refusal :=
  issueC { n := { gs := [a.toNat], vd := [d.toNat] }, mem := true, la := true } fun t s =>
    s.load s.unit.tk (eaImm a i 64 t) 64 8 l.toNat [.v d.toNat] (.vec d.toNat) false

/-- R340, vst. -/
def execVst (_p : Bool) (d a : BitVec 5) (i : BitVec 7) : State → Host.Outcome State Fault Refusal :=
  issueC { n := { gs := [a.toNat], vs := [d.toNat] }, mem := true } fun t s =>
    s.store s.unit.tk (eaImm a i 64 t) 64 8 (t.rv d.toNat) false

/-- Lane addresses of a masked access (R341). -/
def maskAddr (a : BitVec 5) (e : Nat) (t : Thread) (i : Nat) : Word := t.rg a.toNat + word (i * e)
/-- Lane addresses of an indexed access (R341). -/
def idxAddr (a b : BitVec 5) (e : Nat) (t : Thread) (i : Nat) : Word :=
  t.rg a.toNat + sext (8 * e) (lane (8 * e) (t.rv b.toNat) i) * word e

/-- R341, vgath. -/
def execVgath (_p : Bool) (d a b : BitVec 5) (m : BitVec 3) (es : BitVec 2) (l : BitVec 4) :
    State → Host.Outcome State Fault Refusal :=
  issueC { n := { gs := [a.toNat], vs := [b.toNat], vd := [d.toNat] }, mem := true, la := true } fun t s =>
    let e := 2 ^ es.toNat
    s.gather s.unit.tk e l.toNat (activeLanes (t.rm m.toNat) (64 / e) (idxAddr a b e t)) d.toNat

/-- R341, vscat. -/
def execVscat (_p : Bool) (d a b : BitVec 5) (m : BitVec 3) (es : BitVec 2) : State → Host.Outcome State Fault Refusal :=
  issueC { n := { gs := [a.toNat], vs := [b.toNat, d.toNat] }, mem := true } fun t s =>
    let e := 2 ^ es.toNat
    s.scatter s.unit.tk e (activeLanes (t.rm m.toNat) (64 / e) (idxAddr a b e t)) (t.rv d.toNat)

/-- R341, vldm. -/
def execVldm (_p : Bool) (d a : BitVec 5) (m : BitVec 3) (es : BitVec 2) (l : BitVec 4) :
    State → Host.Outcome State Fault Refusal :=
  issueC { n := { gs := [a.toNat], vd := [d.toNat] }, mem := true, la := true } fun t s =>
    let e := 2 ^ es.toNat
    s.gather s.unit.tk e l.toNat (activeLanes (t.rm m.toNat) (64 / e) (maskAddr a e t)) d.toNat

/-- R341, vstm. -/
def execVstm (_p : Bool) (d a : BitVec 5) (m : BitVec 3) (es : BitVec 2) : State → Host.Outcome State Fault Refusal :=
  issueC { n := { gs := [a.toNat], vs := [d.toNat] }, mem := true } fun t s =>
    let e := 2 ^ es.toNat
    s.scatter s.unit.tk e (activeLanes (t.rm m.toNat) (64 / e) (maskAddr a e t)) (t.rv d.toNat)

/-! ## Requests to a pool's owner that bring an answer -/

/-- The interface sends SPSY and keeps it until it is answered (R209). -/
def State.sendSpsy (s : State) (core : Nat) (m : Msg) : State :=
  (s.modCore core fun c => { c with spsyOut := c.spsyOut ++ [m] }).later (.spsy m)

/-- Sends SPSY for a pending result: `p` lacks its lane, which the answer fills. -/
def State.spsyPend (s : State) (tk la ck off len atop sub : Nat) (x : Vec) (p : Pending) : State :=
  let r := s.newTx s.unit.core
  let r2 := r.1.addPend tk la { p with lanes := [{ src := .pool ck off, txid := r.2, len := 8 }], upc := s.unit.addr }
  r2.1.sendSpsy s.unit.core { s.spMsg tk ck off len r.2 with atop := atop, sub := sub, data := some x }

/-- Sends SPSY for an operation that the thread does not wait for. -/
def State.spsyPost (s : State) (tk ck off len atop sub : Nat) (x : Vec) : State :=
  let r := s.newTx s.unit.core
  (r.1.modThr tk fun t => { t with remote := t.remote ++ [⟨r.2, ck, off⟩] }).sendSpsy s.unit.core
    { s.spMsg tk ck off len r.2 with atop := atop, sub := sub, data := some x }

/-- A request of the thread's own core that may park: the pending result comes first, then the request. -/
def State.parkLocal (s : State) (tk la ck off : Nat) (k : ParkKind) (x : Word) (p : Pending) : State :=
  let r := s.newTx s.unit.core
  let r2 := r.1.addPend tk la { p with lanes := [{ src := .reply, txid := r.2, len := 8 }], upc := s.unit.addr }
  r2.1.park ck { off := off, kind := k, value := x, tk := tk, txid := r.2 }

/-! ## Full/empty accesses (R343, R344) -/

/-- The ATOP code of a synchronising access (R156). -/
def ParkKind.atop : ParkKind → Nat
  | .ldfe => 0xA | .ldff => 0xB | .stfe => 0xC

/-- LDFE and LDFF. -/
def State.syncLoad (s : State) (tk la : Nat) (ea : Word) (k : ParkKind) (d : Nat) : CRes :=
  match s.thr tk with
  | none => .wait s .ready none
  | some t =>
    match s.target tk ea 8 8 false true with
    | .error c => .trap c ea
    | .ok (.mem _) => .trap Cause.access ea
    | .ok (.pool ck off) =>
      if s.jobHolds tk (.pool ck off) 8 true ∨ t.remoteHolds (.pool ck off) then .wait s .ready none
      else
        let p : Pending := { kind := .fullEmpty ea, dsts := [.g d], fin := .gz d 8, acq := true }
        if s.isLocal ck then .done (s.parkLocal tk la ck off k 0 p) none
        else .done (s.spsyPend tk la ck off 8 k.atop 0 0 p) none

/-- STFE: the thread waits until the write is performed. STFF: it does not wait. Both are releases (R344). -/
def State.syncStore (s : State) (tk : Nat) (ea x : Word) (waits : Bool) : CRes :=
  match s.thr tk with
  | none => .wait s .ready none
  | some t =>
    match s.target tk ea 8 8 false true with
    | .error c => .trap c ea
    | .ok (.mem _) => .trap Cause.access ea
    | .ok (.pool ck off) =>
      if !t.performed ∨ s.jobHolds tk (.pool ck off) 8 true then .wait s .ready none
      else if waits then
        let p : Pending := { kind := .fullEmpty ea }
        if s.isLocal ck then .done (s.parkLocal tk 0 ck off .stfe x p) none
        else .done (s.spsyPend tk 0 ck off 8 0xC 0 (x.setWidth 512) p) none
      else if s.isLocal ck then .done (s.stff ck off x) none
      else .done (s.spsyPost tk ck off 8 0xD 0 (x.setWidth 512)) none

/-- R343, ldfe. -/
def execLdfe (_p : Bool) (d a : BitVec 5) (l : BitVec 4) : State → Host.Outcome State Fault Refusal :=
  issueC { n := { gs := [a.toNat], gd := [d.toNat] }, mem := true, la := true } fun t s =>
    s.syncLoad s.unit.tk l.toNat (t.rg a.toNat) .ldfe d.toNat

/-- R343, ldff. -/
def execLdff (_p : Bool) (d a : BitVec 5) (l : BitVec 4) : State → Host.Outcome State Fault Refusal :=
  issueC { n := { gs := [a.toNat], gd := [d.toNat] }, mem := true, la := true } fun t s =>
    s.syncLoad s.unit.tk l.toNat (t.rg a.toNat) .ldff d.toNat

/-- R343, stfe. -/
def execStfe (_p : Bool) (d a : BitVec 5) : State → Host.Outcome State Fault Refusal :=
  issueC { n := { gs := [a.toNat, d.toNat] }, mem := true, la := true } fun t s =>
    s.syncStore s.unit.tk (t.rg a.toNat) (t.rg d.toNat) true

/-- R343, stff. -/
def execStff (_p : Bool) (d a : BitVec 5) : State → Host.Outcome State Fault Refusal :=
  issueC { n := { gs := [a.toNat, d.toNat] }, mem := true } fun t s =>
    s.syncStore s.unit.tk (t.rg a.toNat) (t.rg d.toNat) false

/-! ## Far atomics (R345 to R348) -/

/-- An atomic on a field of a pool, performed at its owner (R348): the old value and the state after it. A poisoned field is
left unchanged (R346). -/
def State.poolAtomic (s : State) (ck off w op x y : Nat) : State × Nat :=
  let old := s.poolRead ck off w
  if (s.poolPoison ck off w).isSome ∨ (op = 9 ∧ old ≠ x) then (s, old)
  else (s.poolWrite ck off (leBytes w (atomicNew op w old x y)), old)

/-- The line is free of the thread's own unfinished accesses, so that a request to its home follows them (R339). -/
def Thread.lineClear (t : Thread) (line : Nat) : Bool := !t.lineHeld line && t.sbuf.all fun b => b.line != line

/-- A far atomic: `x` the operand or the expected value, `y` the new value of a CAS. -/
def State.atomic (s : State) (tk la op w : Nat) (ea : Word) (x y : Nat) (sc : Scope) (d : Nat) : CRes :=
  match s.thr tk with
  | none => .wait s .ready none
  | some t =>
    match s.target tk ea w w true true with
    | .error c => .trap c ea
    | .ok tgt =>
      match s.planAll tk t false true (some ea) [⟨tgt, w, 0⟩] with
      | .error e => e
      | .ok (s', plans) =>
        let acq : Bool := s.scopeOf tk t sc != .thr
        let v : Vec := putBytes (BitVec.ofNat 512 (x % 2 ^ (8 * w))) 8 8 y
        if (acq ∧ !t.performed) ∨ s.jobHolds tk tgt w true ∨ t.remoteHolds tgt ∨ t.readHolds tgt w true then .wait s' .ready none
        else match plans with
          | [⟨.mem pa, _, _⟩] =>
            if !t.lineClear (pa / 64) then .wait s' .ready none
            else
              let r := s'.newTx s.unit.core
              let p : Pending := { kind := .atomic, dsts := [.g d], fin := .gs d w, acq := acq, line := some (pa / 64), upc := s.unit.addr,
                                   lanes := [{ src := .reply, txid := r.2, len := 8 }] }
              let r2 := r.1.addPend tk la p
              let m : Msg := { src := s.unit.core, dst := homeId (homeOf (pa / 64)), txid := r.2, line := pa / 64, off := pa % 64,
                               len := w, atop := op, data := some v, thread := slotOfTk tk,
                               cel := op == 0 && (sc == .dev || sc == .sys) }
              .done (r2.1.later (.atom m)) none
          | [⟨.pool ck off, _, _⟩] =>
            if s.isLocal ck then
              let r := s'.poolAtomic ck off w op (x % 2 ^ (8 * w)) y
              match s'.poolPoison ck off w with
              | none => .done (r.1.bindFin tk (.gs d w) (BitVec.ofNat 512 r.2)) none
              | some o =>
                .done (r.1.addPend tk la { kind := .atomic, dsts := [.g d], fin := .gs d w, acq := acq, upc := s.unit.addr,
                                           buf := BitVec.ofNat 512 r.2, poison := some (deviceForm ck o) }).1 none
            else .done (s'.spsyPend tk la ck off w op 0 v { kind := .atomic, dsts := [.g d], fin := .gs d w, acq := acq }) none
          | _ => .wait s' .ready none

/-- The field width that SZ gives (R293). -/
def szBytes (z : Bool) : Nat := if z then 8 else 4

/-- A far atomic other than AMOCAS: the operand is g d. -/
def amoOp (op : Nat) (d a : BitVec 5) (sc : Scope) (z : Bool) (l : BitVec 4) : State → Host.Outcome State Fault Refusal :=
  issueC { n := { gs := [a.toNat, d.toNat], gd := [d.toNat] }, mem := true, la := true } fun t s =>
    s.atomic s.unit.tk l.toNat op (szBytes z) (t.rg a.toNat) (t.rg d.toNat).toNat 0 sc d.toNat

/-- R345, amoadd. -/
def execAmoadd (_p : Bool) (d a : BitVec 5) (sc : Scope) (z : Bool) (l : BitVec 4) : State → Host.Outcome State Fault Refusal :=
  amoOp 0 d a sc z l

/-- R345, amoand. -/
def execAmoand (_p : Bool) (d a : BitVec 5) (sc : Scope) (z : Bool) (l : BitVec 4) : State → Host.Outcome State Fault Refusal :=
  amoOp 1 d a sc z l

/-- R345, amoor. -/
def execAmoor (_p : Bool) (d a : BitVec 5) (sc : Scope) (z : Bool) (l : BitVec 4) : State → Host.Outcome State Fault Refusal :=
  amoOp 2 d a sc z l

/-- R345, amoxor. -/
def execAmoxor (_p : Bool) (d a : BitVec 5) (sc : Scope) (z : Bool) (l : BitVec 4) : State → Host.Outcome State Fault Refusal :=
  amoOp 3 d a sc z l

/-- R345, amosmax. -/
def execAmosmax (_p : Bool) (d a : BitVec 5) (sc : Scope) (z : Bool) (l : BitVec 4) : State → Host.Outcome State Fault Refusal :=
  amoOp 4 d a sc z l

/-- R345, amosmin. -/
def execAmosmin (_p : Bool) (d a : BitVec 5) (sc : Scope) (z : Bool) (l : BitVec 4) : State → Host.Outcome State Fault Refusal :=
  amoOp 5 d a sc z l

/-- R345, amoumax. -/
def execAmoumax (_p : Bool) (d a : BitVec 5) (sc : Scope) (z : Bool) (l : BitVec 4) : State → Host.Outcome State Fault Refusal :=
  amoOp 6 d a sc z l

/-- R345, amoumin. -/
def execAmoumin (_p : Bool) (d a : BitVec 5) (sc : Scope) (z : Bool) (l : BitVec 4) : State → Host.Outcome State Fault Refusal :=
  amoOp 7 d a sc z l

/-- R345, amoswap. -/
def execAmoswap (_p : Bool) (d a : BitVec 5) (sc : Scope) (z : Bool) (l : BitVec 4) : State → Host.Outcome State Fault Refusal :=
  amoOp 8 d a sc z l

/-- R345, amocas: the expected value in g d, the new value in g(d + 1), d even. -/
def execAmocas (_p : Bool) (d : BitVec 4) (a : BitVec 5) (sc : Scope) (z : Bool) (l : BitVec 4) :
    State → Host.Outcome State Fault Refusal :=
  let r := 2 * d.toNat
  issueC { n := { gs := [a.toNat, r, r + 1], gd := [r] }, mem := true, la := true } fun t s =>
    s.atomic s.unit.tk l.toNat 9 (szBytes z) (t.rg a.toNat) (t.rg r).toNat (t.rg (r + 1)).toNat sc r

/-! ## Load-locked and store-conditional (R349) -/

/-- A request to a home that brings one answer. -/
def State.homePend (s : State) (tk la : Nat) (p : Pending) (e : Nat → Ev) : State :=
  let r := s.newTx s.unit.core
  let r2 := r.1.addPend tk la { p with lanes := [{ src := .reply, txid := r.2, len := 8 }], upc := s.unit.addr }
  r2.1.later (e r.2)

/-- The checks of an access to memory alone, and its physical address. -/
def State.memOnly (s : State) (tk : Nat) (t : Thread) (ea : Word) (w : Nat) (write : Bool) : Except CRes (State × Nat) :=
  match s.target tk ea w w true false with
  | .error c => .error (.trap c ea)
  | .ok tgt => match s.planAll tk t (!write) write (some ea) [⟨tgt, w, 0⟩] with
    | .error e => .error e
    | .ok (s', [⟨.mem pa, _, _⟩]) => if s.jobHolds tk tgt w write then .error (.wait s' .ready none) else .ok (s', pa)
    | .ok (s', _) => .error (.wait s' .ready none)

/-- LDLK: the epoch advances, the link names the line, the L1 gives up its copy, and LLK is sent. -/
def State.ldlk (s : State) (tk la : Nat) (ea : Word) (w d : Nat) : CRes :=
  match s.thr tk with
  | none => .wait s .ready none
  | some t =>
    match s.memOnly tk t ea w true with
    | .error e => e
    | .ok (s', pa) =>
      let line := pa / 64
      if !t.lineClear line then .wait s' .ready none
      else match s'.flushLine s.unit.core line with
        | none => .wait s' .ready none
        | some s2 =>
          let s3 := s2.modThr tk fun t => { t with epoch := t.epoch + 1, link := some line }
          .done (s3.homePend tk la { kind := .locked, dsts := [.g d], fin := .gs d w, line := some line } fun tx =>
            .llk { src := s.unit.core, dst := homeId (homeOf line), txid := tx, line := line, off := pa % 64, len := w,
                   thread := slotOfTk tk, epoch := t.epoch + 1 }) none

/-- STCK: SCK while the link names the line, otherwise status 1 at once. -/
def State.stck (s : State) (tk la : Nat) (ea x : Word) (w d : Nat) : CRes :=
  match s.thr tk with
  | none => .wait s .ready none
  | some t =>
    match s.memOnly tk t ea w true with
    | .error e => e
    | .ok (s', pa) =>
      let line := pa / 64
      let s2 := s'.modThr tk fun t => { t with link := none }
      if t.link = some line then
        if !t.lineClear line then .wait s' .ready none
        else .done (s2.homePend tk la { kind := .locked, dsts := [.g d], fin := .gz d 8, line := some line } fun tx =>
          .sck { src := s.unit.core, dst := homeId (homeOf line), txid := tx, line := line, off := pa % 64, len := w,
                 thread := slotOfTk tk, epoch := t.epoch, data := some (x.setWidth 512) }) none
      else .done (s2.bindFin tk (.gz d 8) 1) none

/-- R349, ldlk.w. -/
def execLdlkW (_p : Bool) (d a : BitVec 5) (l : BitVec 4) : State → Host.Outcome State Fault Refusal :=
  issueC { n := { gs := [a.toNat], gd := [d.toNat] }, mem := true, la := true } fun t s =>
    s.ldlk s.unit.tk l.toNat (t.rg a.toNat) 4 d.toNat

/-- R349, ldlk.d. -/
def execLdlkD (_p : Bool) (d a : BitVec 5) (l : BitVec 4) : State → Host.Outcome State Fault Refusal :=
  issueC { n := { gs := [a.toNat], gd := [d.toNat] }, mem := true, la := true } fun t s =>
    s.ldlk s.unit.tk l.toNat (t.rg a.toNat) 8 d.toNat

/-- R349, stck.w. -/
def execStckW (_p : Bool) (d a b : BitVec 5) (l : BitVec 4) : State → Host.Outcome State Fault Refusal :=
  issueC { n := { gs := [a.toNat, b.toNat], gd := [d.toNat] }, mem := true, la := true } fun t s =>
    s.stck s.unit.tk l.toNat (t.rg a.toNat) (t.rg b.toNat) 4 d.toNat

/-- R349, stck.d. -/
def execStckD (_p : Bool) (d a b : BitVec 5) (l : BitVec 4) : State → Host.Outcome State Fault Refusal :=
  issueC { n := { gs := [a.toNat, b.toNat], gd := [d.toNat] }, mem := true, la := true } fun t s =>
    s.stck s.unit.tk l.toNat (t.rg a.toNat) (t.rg b.toNat) 8 d.toNat

/-! ## Acquire, release and fences (R350 to R353) -/

/-- R350, ldacq: b, h and w are sign-extended; at .thr a plain load. -/
def execLdacq (_p : Bool) (d a : BitVec 5) (k : BitVec 2) (sc : Scope) (l : BitVec 4) : State → Host.Outcome State Fault Refusal :=
  issueC { n := { gs := [a.toNat], gd := [d.toNat] }, mem := true, la := true } fun t s =>
    let n := 2 ^ k.toNat
    s.load s.unit.tk (t.rg a.toNat) n n l.toNat [.g d.toNat] (.gs d.toNat n) (s.scopeOf s.unit.tk t sc != .thr)

/-- R350, strel. -/
def execStrel (_p : Bool) (d a : BitVec 5) (k : BitVec 2) (sc : Scope) : State → Host.Outcome State Fault Refusal :=
  issueC { n := { gs := [a.toNat, d.toNat] }, mem := true } fun t s =>
    let n := 2 ^ k.toNat
    s.store s.unit.tk (t.rg a.toNat) n n ((t.rg d.toNat).setWidth 512) (s.scopeOf s.unit.tk t sc != .thr)

/-- Every earlier load, atomic, LDLK and synchronising read of the thread is bound (R353). -/
def Thread.readsBound (t : Thread) : Bool :=
  t.pend.all fun p => match p.kind with
    | .load | .atomic | .locked | .fullEmpty _ => false
    | _ => true

/-- What a fence waits for (R353). -/
def Thread.fenceDone (t : Thread) (k : FenceKind) : Bool :=
  match k with
  | .acq => t.readsBound
  | .rel | .full => t.performed

/-- R353, fence; at .thr it has no effect. -/
def execFence (_p : Bool) (k : FenceKind) (sc : Scope) : State → Host.Outcome State Fault Refusal :=
  issueC {} fun _ s =>
    match s.thr s.unit.tk with
    | none => .wait s .ready none
    | some t => if s.scopeOf s.unit.tk t sc = .thr ∨ t.fenceDone k then .done s none else .wait s .ready none

/-! ## Wait on address (R354, R355) -/

/-- R354, waita: the L1 gives up its copy and WATCH is sent with the comparand. -/
def execWaita (_p : Bool) (d a b : BitVec 5) (l : BitVec 4) : State → Host.Outcome State Fault Refusal :=
  issueC { n := { gs := [a.toNat, b.toNat], gd := [d.toNat] }, mem := true, la := true } fun v s =>
    let tk := s.unit.tk
    match s.thr tk with
    | none => .wait s .ready none
    | some t =>
      match s.memOnly tk t (v.rg a.toNat) 8 false with
      | .error e => e
      | .ok (s', pa) =>
        let line := pa / 64
        if !t.lineClear line then .wait s' .ready none
        else match s'.flushLine s.unit.core line with
          | none => .wait s' .ready none
          | some s2 =>
            .done (s2.homePend tk l.toNat { kind := .waita, dsts := [.g d.toNat], fin := .gz d.toNat 8 } fun tx =>
              .watch { src := s.unit.core, dst := homeId (homeOf line), txid := tx, line := line, off := pa % 64, len := 8,
                       thread := slotOfTk tk, data := some ((v.rg b.toNat).setWidth 512) }) none

/-! ## Barriers (R356 to R360) -/

/-- The barrier that an address names: context core and index. -/
def State.barTarget (s : State) (tk : Nat) (ea : Word) : Except Nat (Nat × Nat) :=
  if isSp ea then
    match s.spDecode (ckOfTk tk) ea with
    | none => .error Cause.access
    | some (ck, off) =>
      if barTableEnd ≤ off then .error Cause.access
      else if off % 16 ≠ 0 then .error Cause.align
      else .ok (ck, off / 16)
  else .error Cause.access

/-- A thread's wait for a remote barrier update: its next unit issues once the update is performed (R357). -/
def State.barPost (s : State) (tk ck i sub : Nat) (ea x : Word) : State :=
  s.spsyPend tk 0 ck (16 * i) 16 0xE sub (x.setWidth 512) { kind := .barPost ea }

/-- BARINIT and BAREXPECT. -/
def State.barArm (s : State) (tk : Nat) (ea t : Word) (expect : Bool) : CRes :=
  match s.barTarget tk ea with
  | .error c => .trap c ea
  | .ok (ck, i) =>
    if t = 0 ∨ 2 ^ 48 ≤ t.toNat then .trap Cause.barrier ea
    else if s.isLocal ck then
      (if expect then match s.barExpect ck i t.toNat with
        | some s => .done s none
        | none => .trap Cause.barrier ea
      else .done (s.barInit ck i t.toNat) none)
    else .done (s.barPost tk ck i (if expect then 1 else 0) ea t) none

/-- R357, barinit. -/
def execBarinit (_p : Bool) (a b : BitVec 5) : State → Host.Outcome State Fault Refusal :=
  issueC { n := { gs := [a.toNat, b.toNat] }, mem := true, la := true } fun t s => s.barArm s.unit.tk (t.rg a.toNat) (t.rg b.toNat) false

/-- R357, barexpect. -/
def execBarexpect (_p : Bool) (a b : BitVec 5) : State → Host.Outcome State Fault Refusal :=
  issueC { n := { gs := [a.toNat, b.toNat] }, mem := true, la := true } fun t s => s.barArm s.unit.tk (t.rg a.toNat) (t.rg b.toNat) true

/-- R358, bararrive: a release; the thread does not wait. -/
def execBararrive (_p : Bool) (a b : BitVec 5) : State → Host.Outcome State Fault Refusal :=
  issueC { n := { gs := [a.toNat, b.toNat] }, mem := true } fun v s =>
    let tk := s.unit.tk
    let n := v.rg b.toNat
    match s.thr tk, s.barTarget tk (v.rg a.toNat) with
    | none, _ => .wait s .ready none
    | _, .error c => .trap c (v.rg a.toNat)
    | some t, .ok (ck, i) =>
      if n = 0 ∨ 2 ^ 48 ≤ n.toNat then .trap Cause.barrier 0
      else if !t.performed then .wait s .ready none
      else if s.isLocal ck then .done (s.barCount ck i n.toNat) none
      else .done (s.spsyPost tk ck (16 * i) 16 0xE 2 (n.setWidth 512)) none

/-- R359, waitbar. -/
def execWaitbar (_p : Bool) (a b : BitVec 5) : State → Host.Outcome State Fault Refusal :=
  issueC { n := { gs := [a.toNat, b.toNat] }, mem := true, la := true } fun v s =>
    let tk := s.unit.tk
    let gen := field (v.rg b.toNat) 0 16
    match s.barTarget tk (v.rg a.toNat) with
    | .error c => .trap c (v.rg a.toNat)
    | .ok (ck, i) =>
      let p : Pending := { kind := .waitbar i gen, acq := true }
      if s.isLocal ck then
        (if (s.bar ck i).gen ≠ gen then .done s none
        else
          let r := s.newTx s.unit.core
          let r2 := r.1.addPend tk 0 { p with lanes := [{ src := .reply, txid := r.2, len := 8 }], upc := s.unit.addr }
          .done (r2.1.modCx ck fun x => { x with barWait := x.barWait ++ [{ index := i, gen := gen, tk := tk, txid := r.2 }] }) none)
      else .done (s.spsyPend tk 0 ck (16 * i) 16 0xE 3 (BitVec.ofNat 512 gen) p) none

/-- The value that BARREAD returns (R360). -/
def Bar.readout (b : Bar) : Word :=
  word (b.gen + 2 ^ 16 * bitOf b.armed + 2 ^ 24 * b.flags + 2 ^ 32 * min b.arrived (2 ^ 32 - 1))

/-- R360, barread. -/
def execBarread (_p : Bool) (d a : BitVec 5) (l : BitVec 4) : State → Host.Outcome State Fault Refusal :=
  issueC { n := { gs := [a.toNat], gd := [d.toNat] }, mem := true, la := true } fun v s =>
    let tk := s.unit.tk
    match s.barTarget tk (v.rg a.toNat) with
    | .error c => .trap c (v.rg a.toNat)
    | .ok (ck, i) =>
      if s.isLocal ck then .done (s.bindFin tk (.gz d.toNat 8) ((s.bar ck i).readout.setWidth 512)) none
      else .done (s.spsyPend tk l.toNat ck (16 * i) 16 0xE 4 0 { dsts := [.g d.toNat], fin := .gz d.toNat 8 }) none

end Sys2Proof.Machine
end

