-- ==== Sys2Proof/Machine/Control.lean ====
section
/-!
DEFINITION. Branches, jumps, calls and returns (R312 to R319), thread control (R320 to R323) and the return from a trap
(R230, R400).
-/

namespace Sys2Proof.Machine

/-! ## Branches (R312 to R315) -/

/-- The address that is 4 × SExt(D) from the word in issue, which is the unit's first. -/
def State.target11 (s : State) {n : Nat} (o : BitVec n) : Word := s.unit.addr + 4 * simm o

/-- A branch on a condition over its operands. -/
def branchOp (n : Names) (o : BitVec 11) (cond : Thread → Bool) : State → Host.Outcome State Fault Refusal :=
  issueC { n := n } fun t s => .done s (if cond t then some (s.target11 o) else none)

/-- A branch on a comparison of two registers. -/
def branch2 (a b : BitVec 5) (o : BitVec 11) (cond : Word → Word → Bool) : State → Host.Outcome State Fault Refusal :=
  branchOp { gs := [a.toNat, b.toNat] } o fun t => cond (t.rg a.toNat) (t.rg b.toNat)

/-- R312, beq. -/
def execBeq (_p : Bool) (a b : BitVec 5) (o : BitVec 11) : State → Host.Outcome State Fault Refusal :=
  branch2 a b o fun x y => x == y

/-- R312, bne. -/
def execBne (_p : Bool) (a b : BitVec 5) (o : BitVec 11) : State → Host.Outcome State Fault Refusal :=
  branch2 a b o fun x y => x != y

/-- R312, blt. -/
def execBlt (_p : Bool) (a b : BitVec 5) (o : BitVec 11) : State → Host.Outcome State Fault Refusal :=
  branch2 a b o fun x y => x.slt y

/-- R312, bge. -/
def execBge (_p : Bool) (a b : BitVec 5) (o : BitVec 11) : State → Host.Outcome State Fault Refusal :=
  branch2 a b o fun x y => y.sle x

/-- R312, bltu. -/
def execBltu (_p : Bool) (a b : BitVec 5) (o : BitVec 11) : State → Host.Outcome State Fault Refusal :=
  branch2 a b o fun x y => x.ult y

/-- R312, bgeu. -/
def execBgeu (_p : Bool) (a b : BitVec 5) (o : BitVec 11) : State → Host.Outcome State Fault Refusal :=
  branch2 a b o fun x y => y.ule x

/-- R313, bdec: n holds the bound less one. -/
def execBdec (_p : Bool) (a : BitVec 5) (n : BitVec 8) (o : BitVec 11) : State → Host.Outcome State Fault Refusal :=
  issueC { n := { gs := [a.toNat], gd := [a.toNat] } } fun t s =>
    let x := t.rg a.toNat - 1
    .done (s.writeG s.unit.tk a.toNat x)
      (if x ≠ 0 ∧ x.toNat < n.toNat + 1 then some (s.target11 o) else none)

/-- BTAGF and BTAGE: branches when the word's full/empty bit equals `full`. A remote word is read by SPRD; the unit issues
again with the answer. -/
def State.btagOp (s : State) (t : Thread) (ea : Word) (o : BitVec 11) (full : Bool) : CRes :=
  let tk := s.unit.tk
  let go (b : Bool) : CRes := .done s (if b = full then some (s.target11 o) else none)
  if !isSp ea then .trap Cause.access ea
  else match s.target tk ea 8 8 false true with
    | .error c => .trap c ea
    | .ok (.mem _) => .trap Cause.access ea
    | .ok (.pool ck off) =>
      if s.isLocal ck then go (s.fullBit ck off)
      else match t.btag with
        | some (_, some b) => go b
        | some (_, none) => .wait s .long none
        | none =>
          let r := s.newTx s.unit.core
          let s1 := r.1.modThr tk fun t => { t with btag := some (r.2, none) }
          .wait (s1.later (.sprd (s.spMsg tk ck off 8 r.2))) .long none

/-- R314, btagf. -/
def execBtagf (_p : Bool) (a : BitVec 5) (o : BitVec 11) : State → Host.Outcome State Fault Refusal :=
  issueC { n := { gs := [a.toNat] } } fun t s => s.btagOp t (t.rg a.toNat) o true

/-- R314, btage. -/
def execBtage (_p : Bool) (a : BitVec 5) (o : BitVec 11) : State → Host.Outcome State Fault Refusal :=
  issueC { n := { gs := [a.toNat] } } fun t s => s.btagOp t (t.rg a.toNat) o false

/-- R315, bany. -/
def execBany (_p : Bool) (a : BitVec 3) (o : BitVec 11) : State → Host.Outcome State Fault Refusal :=
  branchOp {} o fun t => t.rm a.toNat != 0

/-- R315, bnone. -/
def execBnone (_p : Bool) (a : BitVec 3) (o : BitVec 11) : State → Host.Outcome State Fault Refusal :=
  branchOp {} o fun t => t.rm a.toNat == 0

/-- R315, ball. -/
def execBall (_p : Bool) (a : BitVec 3) (o : BitVec 11) : State → Host.Outcome State Fault Refusal :=
  branchOp {} o fun t => t.rm a.toNat == BitVec.allOnes 64

/-- R315, bnall. -/
def execBnall (_p : Bool) (a : BitVec 3) (o : BitVec 11) : State → Host.Outcome State Fault Refusal :=
  branchOp {} o fun t => t.rm a.toNat != BitVec.allOnes 64

/-! ## Jumps (R316) -/

/-- R316, jmp. -/
def execJmp (_p : Bool) (o : BitVec 24) : State → Host.Outcome State Fault Refusal :=
  issueC {} fun _ s => .done s (some (s.target11 o))

/-- R316, jr. -/
def execJr (_p : Bool) (a : BitVec 5) : State → Host.Outcome State Fault Refusal :=
  issueC { n := { gs := [a.toNat] } } fun t s =>
    let x := t.rg a.toNat
    if field x 0 2 ≠ 0 then .trap Cause.align x else .done s (some x)

/-! ## The return store (R226, R317, R318) -/

/-- A register of the spill area that is not a multiple of 8. -/
def Thread.retMisaligned (t : Thread) : Option Word :=
  [t.retbase, t.retlimit, t.retsp].find? fun x => field x 0 3 != 0

/-- An acquire of the thread is in progress (R352). -/
def Thread.acquiring (t : Thread) : Bool := t.pend.any Pending.acq

/-- Pushes a return address, spilling the oldest entry first when the store is full. -/
def State.pushReturn (s : State) (ra : Word) (target : Word) : CRes :=
  let tk := s.unit.tk
  match s.thr tk with
  | none => .wait s .ready none
  | some t =>
    match t.retStore with
    | x :: rest =>
      if t.retStore.length < 8 then
        .done (s.setThr tk { t with retStore := t.retStore ++ [ra] }) (some target)
      else match t.retMisaligned with
        | some y => .trap Cause.align y
        | none =>
          if t.retlimit.toNat < t.retsp.toNat + 8 then .trap Cause.stackLimit 0
          else if t.acquiring then .wait s .ready none
          else match s.store tk t.retsp 8 8 (x.setWidth 512) false with
            | .done s' _ =>
              .done (s'.modThr tk fun t => { t with retStore := rest ++ [ra], retsp := t.retsp + 8 }) (some target)
            | r => r
    | [] => .done (s.setThr tk { t with retStore := [ra] }) (some target)

/-- Eight bytes that the thread reads within its unit, with its own buffered stores laid over them. -/
def State.readNow (s : State) (tk : Nat) (ea : Word) : Except CRes (State × Word) :=
  match s.thr tk with
  | none => .error (.wait s .ready none)
  | some t =>
    match s.target tk ea 8 8 true true with
    | .error c => .error (.trap c ea)
    | .ok tgt =>
      match s.planAll tk t true false (some ea) [⟨tgt, 8, 0⟩] with
      | .error e => .error e
      | .ok (s', plans) =>
        if s.jobHolds tk tgt 8 false ∨ t.remoteHolds tgt ∨ t.atomicHolds plans then .error (.wait s' .ready none)
        else match plans with
          | [⟨.mem pa, _, _⟩] =>
            (match s'.loadLine t s.unit.core (pa / 64) (pa % 64) 8 with
            | some (x, bad) => if bad then .error (.trap Cause.poison (word (64 * (pa / 64)))) else .ok (s', word x)
            | none => match s'.cohRead s.unit.core (pa / 64) with
              | .ok (s2, d, bad) =>
                if bad then .error (.trap Cause.poison (word (64 * (pa / 64))))
                else .ok (s2, word (bytesAt (t.forward (pa / 64) d) (pa % 64) 8))
              | .error s2 => .error (.wait s2 .ready none))
          | [⟨.pool ck off, _, _⟩] =>
            (match s'.poolPoison ck off 8 with
            | some o => .error (.trap Cause.poison (deviceForm ck o))
            | none => .ok (s', word (s'.poolRead ck off 8)))
          | _ => .error (.wait s' .ready none)

/-- The unit that follows the call. -/
def State.returnAddress (s : State) : Word := s.unit.addr + word (4 * s.unit.words)

/-- R317, call. -/
def execCall (_p : Bool) (o : BitVec 24) : State → Host.Outcome State Fault Refusal :=
  issueC {} fun _ s => s.pushReturn s.returnAddress (s.target11 o)

/-- R317, callr. -/
def execCallr (_p : Bool) (a : BitVec 5) : State → Host.Outcome State Fault Refusal :=
  issueC { n := { gs := [a.toNat] } } fun t s =>
    let x := t.rg a.toNat
    if field x 0 2 ≠ 0 then .trap Cause.align x else s.pushReturn s.returnAddress x

/-- RET: the newest entry, or one refilled from the spill area. -/
def State.popReturn (s : State) : CRes :=
  let tk := s.unit.tk
  match s.thr tk with
  | none => .wait s .ready none
  | some t =>
    match t.retStore.getLast? with
    | some x => .done (s.setThr tk { t with retStore := t.retStore.dropLast }) (some x)
    | none =>
      match t.retMisaligned with
      | some y => .trap Cause.align y
      | none =>
        if t.retsp.toNat ≤ t.retbase.toNat then .trap Cause.retEmpty 0
        else if t.acquiring then .wait s .ready none
        else match s.readNow tk (t.retsp - 8) with
          | .error r => r
          | .ok (s', x) => .done (s'.modThr tk fun t => { t with retsp := t.retsp - 8 }) (some x)

/-- R318, ret. -/
def execRet (_p : Bool) : State → Host.Outcome State Fault Refusal :=
  issueC {} fun _ s => s.popReturn

/-! ## Thread control (R320 to R323) -/

/-- The thread issues no unit for `n` A-cycles after this one. -/
def State.rest (s : State) (n : Nat) : State :=
  s.modThr s.unit.tk fun t => { t with lastIssue := some ((s.clu (s.unit.core / 4)).cycle.toNat + n - 3) }

/-- R320, yield. -/
def execYield (_p : Bool) : State → Host.Outcome State Fault Refusal :=
  issueC {} fun _ s => .done (s.rest 16) none

/-- R321, hbeat. -/
def execHbeat (_p : Bool) : State → Host.Outcome State Fault Refusal :=
  issueC {} fun _ s =>
    let v := s.valsOf (ckOfTk s.unit.tk)
    .done (if v.hbarm then s.modThr s.unit.tk fun t => { t with hbeatwin := word v.hbwin } else s) none

/-- R320, cnop. -/
def execCnop (_p : Bool) : State → Host.Outcome State Fault Refusal :=
  issueC {} fun _ s => .done s none

/-- R322, trap. -/
def execTrap (i : BitVec 14) : State → Host.Outcome State Fault Refusal :=
  issueC {} fun _ _ => .trap Cause.software (zimm i)

/-- An entry of the liveness-mask table from its 32 bytes (R139); `none` where a reserved field is set. -/
def liveMask (b : Nat) : Option LiveMask :=
  let w (k : Nat) : Nat := bits b (32 * k) 32
  let rng (k : Nat) : Nat × Nat := (bits (w (3 + k)) 0 7, bits (w (3 + k)) 8 8)
  if bits (w 2) 8 24 ≠ 0 ∨ w 7 ≠ 0 ∨ ((List.range 4).any fun k => bits (w (3 + k)) 7 1 != 0 || bits (w (3 + k)) 16 16 != 0) then none
  else some { g := BitVec.ofNat 32 (w 0), v := BitVec.ofNat 32 (w 1), m := BitVec.ofNat 8 (w 2), ranges := (List.range 4).map rng }

/-- Reads 32 bytes of the table, 8 at a time. -/
def State.readEntry (s : State) (tk : Nat) (ea : Word) : Except CRes (State × Nat) :=
  foldE (fun i (acc : State × Nat) => match acc.1.readNow tk (ea + word (8 * i)) with
    | .ok r => .ok (r.1, acc.2 + r.2.toNat * 2 ^ (64 * i))
    | .error e => .error e) (List.range 4) (s, 0)

/-- A PPT reached with a pre-emption request (R139): the entry is read, and the thread is saved by its mask; a read that
would trap or ask for a page makes the save full. -/
def State.pptSave (s : State) (t : Thread) (idx : Nat) : CRes :=
  let tk := s.unit.tk
  let next := s.unit.addr + 4
  let full := CRes.done (s.saveThread tk) (some next)
  if !t.pend.isEmpty ∨ !t.quiet then .wait s (if t.pend.isEmpty then .ready else .long) none
  else if t.livecnt.toNat ≤ idx then full
  else match s.readEntry tk (t.livetab + word (32 * idx)) with
    | .ok (s', b) => match liveMask b with
      | some m => .done (s'.saveMasked tk m) (some next)
      | none => .done (s'.saveThread tk) (some next)
    | .error (.wait s' st p) => if st = .pageWait then full else .wait s' st p
    | .error _ => full

/-- R323, ppt. -/
def execPpt (i : BitVec 14) : State → Host.Outcome State Fault Refusal :=
  issueC {} fun _ s =>
    match s.thr s.unit.tk with
    | some t => if t.preempt.isSome then s.pptSave t i.toNat else .done s none
    | none => .done s none

/-! ## Trap return (R230, R400) -/

/-- TRAPVAL of ILLEGAL_OP for the unit's first word (R287). -/
def UnitCtx.opVal (u : UnitCtx) : Word := u.word0.setWidth 64

/-- R400, eret: the return of R230; with INH = 0 it raises ILLEGAL_OP. -/
def execEret : State → Host.Outcome State Fault Refusal :=
  issueC {} fun t s =>
    if !t.inh then .trap Cause.illegalOp s.unit.opVal
    else .done (s.modThr s.unit.tk Thread.trapReturn) (some t.trappc)

end Sys2Proof.Machine
end

