-- ==== Sys2Proof/Machine/Deliver.lean ====
section
/-!
DEFINITION. The dispatcher of a core: decrement messages and the run list (R133), deliveries to threads in WAITW (R134, R222,
R278, R331, R405) and user messages arriving at the inbox (R168).
-/

namespace Sys2Proof.Machine

/-- The local-form address of a pool offset (R204). -/
def localForm (off : Nat) : Word := word ((2 ^ 34 - 1) * 2 ^ 30 + off)

/-! ## Registers of a delivery -/

/-- Writes g registers from `r` on. -/
def Thread.putArgs (t : Thread) : Nat → List Word → Thread
  | _, [] => t
  | r, x :: l => Thread.putArgs (t.wg r x) (r + 1) l

/-- Gives work to a thread in WAITW: g20 to g22 and g3 on are written and the thread is READY (R134). -/
def State.give (s : State) (tk : Nat) (g20 g21 g22 : Word) (args : List Word) : State :=
  let s := s.modThr tk fun t => ((((t.wg 20 g20).wg 21 g21).wg 22 g22).putArgs 3 args).woken
  s.modCx (ckOfTk tk) fun x => { x with waiters := x.waiters.filter (· != tk) }

/-- Eight-byte words of a payload. -/
def wordsOf (v : Vec) (n : Nat) : List Word := (List.range n).map fun i => word (bytesAt v (8 * i) 8)

/-! ## Kinds of work -/

/-- The least set bit of a recorded-wake set. -/
def lowestWake (w : BitVec 16) : Nat := ((List.range 16).find? fun i => w.getLsbD i).getD 0

/-- A recorded wake of a waiting thread: g20 = 3 and the outlet (R222). -/
def State.giveWake (s : State) (tk : Nat) (w : BitVec 16) : State :=
  let o := lowestWake w
  (s.modThr tk fun t => { t with wakes := t.wakes &&& ~~~ (1#16 <<< o) }).give tk 3 (word o) 0 []

/-- A fault notice (R134, R144). -/
def State.giveNotice (s : State) (tk : Nat) (f : FaultRec) : State :=
  s.give tk 2 (word (f.cause + 256 * f.kind)) (word f.lin) [f.pc, f.val]

/-- A fault task (R144); one held by the front end takes the freed entry. -/
def State.giveFaultTask (s : State) (tk ck : Nat) (f : FaultRec) : State :=
  let s := s.modCx ck fun x => { x with faultTasks := x.faultTasks.drop 1 }
  let s := match s.region (regionOfCk ck) with
    | some r => match r.heldTasks with
      | h :: rest =>
        (s.modRegion (regionOfCk ck) fun r => { r with heldTasks := rest }).modCx ck fun x => { x with faultTasks := x.faultTasks ++ [h] }
      | [] => s
    | none => s
  s.give tk 0 (s.valsOf ck).fhpc 0 ([word (f.cause + 256 * f.kind + 2 ^ 32 * f.lin), f.pc] ++ List.replicate 6 0)

/-- The head of the run list (R133, R134). -/
def State.giveTask (s : State) (tk ck off : Nat) : State :=
  let s := s.modCx ck fun x => { x with run := x.run.drop 1 }
  s.give tk 0 (word (s.poolRead ck (off + 8) 8)) (localForm off)
    ((List.range 8).map fun i => word (s.poolRead ck (off + 0x20 + 8 * i) 8))

/-- The LANDED slot that landed first. -/
def CtxCore.firstLanded (x : CtxCore) : Option (Nat × Slot) :=
  (x.slots.filter fun e => e.2.st == .landed).foldl (fun b e => match b with
    | none => some e
    | some y => if e.2.order < y.2.order then some e else b) none

/-- A landed capsule (R278): the slot becomes HELD. -/
def State.giveCapsule (s : State) (tk ck k : Nat) (sl : Slot) : State :=
  let off := s.slotBase ck + granule * k
  let rd (o n : Nat) : Nat := s.poolRead ck (off + o) n
  let pos := rd 6 1
  let e := if sl.ret ∨ pos = 0 then 0xFFF else rd (0x40 + 8 * (pos - 1)) 8
  let s := s.modCx ck fun x => { x with slots := Tbl.put {} x.slots k { sl with st := .held, holder := some (slotOfTk tk) } }
  let s := s.modThr tk fun t => { t with holds := some k }
  s.give tk 1 (word (bits e 0 12)) (localForm off)
    [word (bits e 32 32), word (rd 0 4), localForm (off + 0x100), word (rd 0x10 8), word pos]

/-- A user message taken by WAITW (R331). -/
def State.giveMessage (s : State) (tk : Nat) (t : Thread) (m : Msg) : State :=
  (s.takeMsg tk t 0).give tk 4 (word (m.src + 2 ^ 8 * m.thread + 2 ^ 12 * (m.len - 1))) 0
    (wordsOf (BitVec.ofNat 512 (bytesAt (m.data.getD 0) 0 m.len)) 8)

/-! ## The service thread (R405, R411) -/

/-- The 64 bytes of a directory-service notice (R404). -/
def Notice.bytes (n : Notice) : Vec :=
  BitVec.ofNat 512 (n.kind + 2 ^ 8 * n.agent + 2 ^ 16 * n.ver.toNat + 2 ^ 24 * n.sl + 2 ^ 32 * n.token + 2 ^ 48 * n.level +
    2 ^ 56 * n.span + 2 ^ 64 * (64 * n.line))

/-- Takes the oldest notice of a core's queue: a SHARER notice is acknowledged, an INVAL one is held to its DSDONE (R132). -/
def State.takeNotice (s : State) (c tk : Nat) : Option (State × Notice) :=
  match (s.core c).notices with
  | [] => none
  | n :: rest =>
    let s := (s.modCore c fun x => { x with notices := rest }).modThr tk fun t => { t with noticeHeld := true }
    some (if n.kind = 1 then s.later (.dsack { src := c, dst := homeId n.sl })
          else s.modThr tk fun t => { t with invalHeld := true }, n)

/-- One delivery to a waiting service thread, in the order of R405. -/
def State.serveService (s : State) (c tk : Nat) (t : Thread) : Option State :=
  match s.takeNotice c tk with
  | some (s, n) => some (s.give tk 5 (word n.kind) 0 (wordsOf n.bytes 8))
  | none =>
    let x := s.core c
    if x.spill ∧ !x.spillWake then
      some ((s.modCore c fun x => { x with spillWake := true }).give tk 6 (word x.spillInbox.length) 0 [])
    else if t.wakes ≠ 0 then some (s.giveWake tk t.wakes)
    else match (s.cx (ckOfTk tk)).inbox.find? fun m => msgCh m == 0 && !msgAny m && msgThread m == 15 with
      | some m => some (s.giveMessage tk t m)
      | none => none

/-! ## Delivery to user threads (R134, R331) -/

/-- One delivery to a user thread waiting at a context core. -/
def State.serveUser (s : State) (ck : Nat) : Option State :=
  let x := s.cx ck
  let users := x.waiters.filterMap fun tk => if isService tk then none else (s.thr tk).map fun t => (tk, t)
  match users.find? fun e => e.2.wakes != 0 with
  | some e => some (s.giveWake e.1 e.2.wakes)
  | none => match users with
    | [] => none
    | (tk, _) :: _ =>
      match x.notices with
      | f :: rest => some ((s.setCx ck { x with notices := rest }).giveNotice tk f)
      | [] => match x.firstLanded with
        | some (k, sl) => some (s.giveCapsule tk ck k sl)
        | none => match x.faultTasks with
          | f :: _ => some (s.giveFaultTask tk ck f)
          | [] => match x.run with
            | off :: _ => some (s.giveTask tk ck off)
            | [] => users.findSome? fun e => (s.firstMsg e.1 e.2 0).map fun m => s.giveMessage e.1 e.2 m

/-- One delivery at a context core that is resident. -/
def State.serveOne (s : State) (ck : Nat) : Option State :=
  match s.coreOfCk ck with
  | none => none
  | some c =>
    let tk := mkTk ck 15
    match s.thr tk with
    | some t =>
      if (s.cx ck).waiters.contains tk then
        match s.serveService c tk t with
        | some s => some s
        | none => s.serveUser ck
      else s.serveUser ck
    | none => s.serveUser ck

/-- DISPATCH (R134): one delivery, and another attempt while there is work for a waiter. -/
def State.onDispatch (s : State) (ck : Nat) : State :=
  match s.serveOne ck with
  | some s => s.laterOnce (.dispatch ck)
  | none => s

/-! ## Decrements (R133) -/

/-- Appends a record to a run list. The dispatcher writes NEXT of the record and of the one before it; what the link holds is left open
(notes/assumptions/129.md). -/
def State.appendTask (s : State) (ck off : Nat) : State :=
  let n := s.free
  let link (i : Nat) (o : Nat) (s : State) : State := s.poolWrite ck (o + 0x10) (leBytes 8 (Config.freeWord (n + i)).toNat)
  let s := match (s.cx ck).run.getLast? with
    | some o => link 0 o s
    | none => s
  let s := link 1 off { s with free := n + 2 }
  (s.modCx ck fun x => { x with run := x.run ++ [off] }).laterOnce (.dispatch ck)

/-- A decrement of a task record at its home core. -/
def State.decrement (s : State) (ck off amount : Nat) : State :=
  let fault (s : State) : State := s.faultEvent (regionOfCk ck) { cause := Cause.access, kind := 4, val := deviceForm ck off }
  if s.spLimit ck < off + 128 then fault s
  else
    let n := s.poolRead ck off 4
    if n < amount then fault s
    else
      let s := s.poolWrite ck off (leBytes 4 (n - amount))
      if n = amount ∧ !(s.cx ck).run.contains off then s.appendTask ck off else s

/-! ## Inbox (R168) -/

/-- The channel on which a thread waits for a message: its parked unit is RECVW or RECVV, or reads an in port (R328, R329). -/
def Thread.parkChannel (t : Thread) : Option Nat :=
  match t.park with
  | some v => if v = 0x200 then some 0 else if v.toNat / 4 = 0x40 then some (v.toNat % 4 + 1) else none
  | none => none

/-- Wakes the threads of a context core whose message is in the inbox, so that their units issue again. -/
def State.wakeReceivers (s : State) (ck : Nat) : State :=
  let tks := s.threads.filterMap fun e => match e.2 with
    | some t => if ckOfTk e.1 = ck ∧ t.st = .sync ∧ t.parkChannel.any (fun ch => (s.firstMsg e.1 t ch).isSome) then some e.1 else none
    | none => none
  (foldS (fun tk s => s.wake tk) tks s).laterOnce (.dispatch ck)

/-- Places a message in the inbox: pulse source 4 (R220), and receivers look again. -/
def State.inboxPut (s : State) (ck : Nat) (m : Msg) : State :=
  ((s.modCx ck fun x => { x with inbox := x.inbox ++ [m] }).pulse ck 4 0xFFF).wakeReceivers ck

/-- A USER message that its core can take: to the inbox, or to the spill inbox in spill mode. -/
def State.userArrives (s : State) (c ck : Nat) (m : Msg) : State :=
  let x := s.core c
  if !x.spill ∧ (s.cx ck).inbox.length < 64 then s.inboxPut ck m
  else
    let s := s.modCore c fun x => { x with spill := true, spillInbox := x.spillInbox ++ [m], spillWake := false }
    match s.ckOfCore c with
    | some k => s.laterOnce (.dispatch k)
    | none => s

end Sys2Proof.Machine
end

