-- ==== Sys2Proof/Machine/Messaging.lean ====
section
/-!
DEFINITION. User messages (R324 to R330) and WAITW (R331).
-/

namespace Sys2Proof.Machine

/-! ## Sends (R325, R326) -/

/-- The destination word's check (R325). -/
def State.destBad (s : State) (ck : Nat) (t : Thread) (d : Word) : Bool :=
  field d 11 53 != 0 || (d.getLsbD 10 && field d 6 4 != 0) || decide (s.ncores ck ≤ field d 0 6) ||
    (field d 6 4 == 15 && t.priv == 0)

/-- SENDW and SENDV: `n` bytes of `x`. -/
def State.send (s : State) (d : Word) (x : Vec) (n : Nat) : CRes :=
  let tk := s.unit.tk
  match s.thr tk with
  | none => .wait s .ready none
  | some t =>
    if s.destBad (ckOfTk tk) t d then .trap Cause.access d
    else if t.send.isSome ∨ !t.performed then .wait s .ready none
    else
      let m := s.userMsg tk (field d 0 6) (field d 6 4) (d.getLsbD 10) 0 x n
      .done (s.commit tk (.userMessage m) m.region) none

/-- R325, sendw. -/
def execSendw (_p : Bool) (a b : BitVec 5) : State → Host.Outcome State Fault Refusal :=
  issueC { n := { gs := [a.toNat, b.toNat] }, sends := true } fun t s =>
    s.send (t.rg a.toNat) ((t.rg b.toNat).setWidth 512) 8

/-- R325, sendv. -/
def execSendv (_p : Bool) (a b : BitVec 5) : State → Host.Outcome State Fault Refusal :=
  issueC { n := { gs := [a.toNat], vs := [b.toNat] }, sends := true } fun t s => s.send (t.rg a.toNat) (t.rv b.toNat) 64

/-- R326, sendc. -/
def execSendc (_p : Bool) (a b : BitVec 5) : State → Host.Outcome State Fault Refusal :=
  issueC { n := { gs := [a.toNat, b.toNat] }, sends := true } fun v s =>
    let tk := s.unit.tk
    let ea := v.rg a.toNat
    let n := v.rg b.toNat
    match s.thr tk with
    | none => .wait s .ready none
    | some t =>
      if ea.toNat % 128 ≠ 0 then .trap Cause.align ea
      else if !isSp ea then .trap Cause.access ea
      else match s.spDecode (ckOfTk tk) ea with
        | none => .trap Cause.access ea
        | some (ck, off) =>
          if n = 0 ∨ 65535 < n.toNat then .trap Cause.access n
          else if t.send.isSome ∨ !t.performed then .wait s .ready none
          else
            let m : Msg := { src := (s.coreOfCk (ckOfTk tk)).getD 0, dst := (s.coreOfCk ck).getD 0, thread := slotOfTk tk,
                             region := regionOfCk ck, ck := ck, srcCk := ckOfTk tk, poff := off, amount := n.toNat }
            .done (s.commit tk (.dec m) m.region) none

/-! ## Receives (R328) -/

/-- RECVW and RECVV: the oldest matching message with CH = 0 is taken, or the thread parks. -/
def State.recv (s : State) (fin : Fin_) : CRes :=
  let tk := s.unit.tk
  match s.thr tk with
  | none => .wait s .ready none
  | some t =>
    match s.firstMsg tk t 0 with
    | some m => .done ((s.takeMsg tk t 0).bindFin tk fin (BitVec.ofNat 512 (bytesAt (m.data.getD 0) 0 m.len))) none
    | none => .wait s .sync (some 0x200)

/-- R328, recvw. -/
def execRecvw (_p : Bool) (d : BitVec 5) (_l : BitVec 4) : State → Host.Outcome State Fault Refusal :=
  issueC { n := { gd := [d.toNat] }, la := true } fun _ s => s.recv (.gz d.toNat 8)

/-- R328, recvv. -/
def execRecvv (_p : Bool) (d : BitVec 5) (_l : BitVec 4) : State → Host.Outcome State Fault Refusal :=
  issueC { n := { vd := [d.toNat] }, la := true } fun _ s => s.recv (.vec d.toNat)

/-- R330, ptest. -/
def execPtest (_p : Bool) (d : BitVec 5) (k : BitVec 2) : State → Host.Outcome State Fault Refusal :=
  issueC { n := { gd := [d.toNat] } } fun _ s =>
    let tk := s.unit.tk
    match s.thr tk with
    | none => .wait s .ready none
    | some t =>
      let n := k.toNat
      let b : Bool := t.portEn n && (if t.portOut n then t.send.isNone else (s.firstMsg tk t (n + 1)).isSome)
      .done (s.writeG tk d.toNat (boolWord b)) none

/-! ## WAITW (R331) -/

/-- The local-form address of the slot whose capsule a thread holds. -/
def State.heldAddr (s : State) (tk k : Nat) : Word := localForm (s.slotBase (ckOfTk tk) + granule * k)

/-- R331, waitw: a thread away from its home core is first sent home (R145). -/
def execWaitw : State → Host.Outcome State Fault Refusal :=
  issueC {} fun _ s =>
    let tk := s.unit.tk
    match s.thr tk with
    | none => .wait s .ready none
    | some t =>
      if t.inh then .trap Cause.illegalOp s.unit.opVal
      else match t.holds with
        | some k => .trap Cause.capsule (s.heldAddr tk k)
        | none =>
          if t.roster ≠ ckOfTk tk then
            (if t.quiet ∧ t.pend.isEmpty then .wait (s.moveThread tk (ckOfTk tk)) t.st none
             else .wait s (if t.pend.isEmpty then .ready else .long) none)
          else
            let s := s.modThr tk fun t => { t with st := .waitw, noticeHeld := false }
            let s := s.modCx (ckOfTk tk) fun x => { x with waiters := x.waiters ++ [tk] }
            .done (s.laterOnce (.dispatch (ckOfTk tk))) none

end Sys2Proof.Machine
end

