-- ==== Sys2Proof/Machine/Special.lean ====
section
/-!
DEFINITION. State registers (R200, R296, R398, R399), instruction-cache invalidation (R401) and messages to the host (R402).
-/

namespace Sys2Proof.Machine

/-! ## Reading (R200, R296) -/

/-- The board of a thread's home core. -/
def State.board (s : State) (tk : Nat) : CtxCore := s.cx (ckOfTk tk)

/-- Read(S) of R398; `none` for a number outside R296. -/
def State.readSr (s : State) (tk : Nat) (t : Thread) (n : Nat) : Option Word :=
  if 0x100 ≤ n ∧ n < 0x120 then some (Tbl.get 0 (s.board tk).sbcnt (n - 0x100))
  else if 0x120 ≤ n ∧ n < 0x140 then some (Tbl.get 0 (s.board tk).sbterm (n - 0x120))
  else if 0x140 ≤ n ∧ n < 0x150 then some (Tbl.get 0 (s.board tk).sbout (n - 0x140))
  else match n with
  | 0x000 => some (t.threadId.setWidth 64)
  | 0x001 => some (word (ckOfTk tk % 4))
  | 0x002 => some (word ((s.clusterOfCk (ckOfTk tk)).getD 0))
  | 0x003 => some (t.priv.setWidth 64)
  | 0x004 => some t.poolword
  | 0x008 => some t.geom0
  | 0x009 => some t.geom1
  | 0x00A => some t.geom2
  | 0x00B => some t.geom3
  | 0x010 => some (s.clu (s.unit.core / 4)).cycle
  | 0x011 => some t.cyclecmp
  | 0x020 => some t.trapcause
  | 0x021 => some t.trapval
  | 0x022 => some t.trappc
  | 0x023 => some t.trapstatus
  | 0x024 => some t.trapvec
  | 0x028 => some t.inten
  | 0x029 => some t.intpend
  | 0x030 => some t.waitlimit
  | 0x031 => some t.hbeatwin
  | 0x038 => some t.retbase
  | 0x039 => some t.retlimit
  | 0x03A => some t.retsp
  | 0x040 => some t.portcfg
  | 0x044 => some t.livetab
  | 0x045 => some t.livecnt
  | 0x048 => some t.fpcsr
  | 0x050 => some t.fmtctx
  | 0x051 => some t.codetab0
  | 0x052 => some t.codetab1
  | 0x053 => some t.factstep
  | 0x054 => some t.zbase
  | _ => none

/-! ## Writing (R398, R399) -/

/-- The RW fields of a register; RO and reserved bits keep their value. -/
def srMask (n : Nat) : Word :=
  if 0x100 ≤ n ∧ n < 0x120 then 0xFFFFFFFF
  else if 0x140 ≤ n ∧ n < 0x150 then 0x000003FF07FFFFFF
  else match n with
  | 0x022 | 0x024 => 0xFFFFFFFFFFFFFFFC
  | 0x023 => 0x1F
  | 0x028 => 7
  | 0x029 => 0
  | 0x040 => 0x003FF3FF3FF3FFFF
  | 0x048 => 0x1F1F
  | 0x050 => 0xFFFFFFFFFFFF03FF
  | 0x053 => 0xFFFFFFFF000003FF
  | 0x054 => 0xFF
  | _ => BitVec.allOnes 64

/-- Registers that every mode may only read. -/
def srReadOnly (n : Nat) : Bool := decide (n ≤ 0x010)

/-- The value after a write of the RW fields. -/
def srMerge (n : Nat) (old x : Word) : Word := (old &&& ~~~ srMask n) ||| (x &&& srMask n)

/-- A thread's own register written (R399). -/
def Thread.putSr (t : Thread) (n : Nat) (x w1c : Word) : Thread :=
  match n with
  | 0x011 => { t with cyclecmp := x }
  | 0x020 => { t with trapcause := x }
  | 0x021 => { t with trapval := x }
  | 0x022 => { t with trappc := srMerge n 0 x }
  | 0x023 => { t with trapstatus := srMerge n t.trapstatus x }
  | 0x024 => { t with trapvec := srMerge n 0 x }
  | 0x028 => { t with inten := srMerge n t.inten x }
  | 0x029 => { t with wakes := if w1c.getLsbD 1 then 0 else t.wakes, timer := t.timer && !w1c.getLsbD 2 }
  | 0x030 => { t with waitlimit := x }
  | 0x031 => { t with hbeatwin := x }
  | 0x038 => { t with retbase := x, retsp := x }
  | 0x039 => { t with retlimit := x }
  | 0x03A => { t with retsp := x }
  | 0x040 => { t with portcfg := srMerge n t.portcfg x }
  | 0x044 => { t with livetab := x }
  | 0x045 => { t with livecnt := if 16384 < x.toNat then 16384 else x }
  | 0x048 => { t with fpcsr := srMerge n t.fpcsr x }
  | 0x050 => { t with fmtctx := srMerge n t.fmtctx x }
  | 0x051 => { t with codetab0 := x }
  | 0x052 => { t with codetab1 := x }
  | 0x053 => { t with factstep := srMerge n t.factstep x }
  | 0x054 => { t with zbase := srMerge n t.zbase x }
  | _ => t

/-- The sluice-board registers of R220 to R222; SAT is W1C. -/
def CtxCore.putSb (c : CtxCore) (n : Nat) (x w1c : Word) : CtxCore :=
  if n < 0x120 then
    { c with sbcnt := Tbl.upd 0 c.sbcnt (n - 0x100) fun old =>
        let y := srMerge n old x
        if w1c.getLsbD 32 then setField y 32 1 0 else y }
  else if n < 0x140 then { c with sbterm := Tbl.put 0 c.sbterm (n - 0x120) x }
  else { c with sbout := Tbl.upd 0 c.sbout (n - 0x140) fun old => srMerge n old x }

/-- The trap of a write that the mode may not make (R200). -/
def State.srWriteTrap (s : State) (t : Thread) (n : Nat) (x : Word) : Option (Nat × Word) :=
  if srReadOnly n ∨ (n = 0x031 ∧ t.priv = 0) then some (if t.priv = 0 then (Cause.priv, 0) else (Cause.illegalOp, s.unit.opVal))
  else if n = 0x023 ∧ t.priv.toNat < field x 0 2 then some (Cause.priv, 0)
  else none

/-- Write(S, x) of R398, its W1C fields written with `w1c`. -/
def State.writeSr (s : State) (tk n : Nat) (x w1c : Word) : State :=
  if 0x100 ≤ n then (s.modCx (ckOfTk tk) fun c => c.putSb n x w1c).sluiceCheck (ckOfTk tk)
  else s.modThr tk fun t => t.putSr n x w1c

/-- A state-register access: `f` gives the value to write and the W1C operand from the old value. The old value reaches g d under
the configuration before the write (R399). -/
def srOp (n : Names) (d : Option Nat) (k : Nat) (f : Thread → Word → Option (Word × Word)) : State → Host.Outcome State Fault Refusal :=
  issueC { n := n } fun v s =>
    let tk := s.unit.tk
    match s.thr tk with
    | none => .wait s .ready none
    | some t => match s.readSr tk t k with
      | none => .trap Cause.illegalOp s.unit.opVal
      | some old =>
        let s' := match d with | some r => s.writeG tk r old | none => s
        match f v old with
        | none => .done s' none
        | some (x, w1c) => match s.srWriteTrap t k x with
          | some (c, y) => .trap c y
          | none => .done (s'.writeSr tk k x w1c) none

/-- R398, srr. -/
def execSrr (_p : Bool) (d : BitVec 5) (k : BitVec 12) : State → Host.Outcome State Fault Refusal :=
  srOp { gd := [d.toNat] } (some d.toNat) k.toNat fun _ _ => none

/-- R398, srw. -/
def execSrw (_p : Bool) (a : BitVec 5) (k : BitVec 12) : State → Host.Outcome State Fault Refusal :=
  srOp { gs := [a.toNat] } none k.toNat fun t _ => some (t.rg a.toNat, t.rg a.toNat)

/-- R398, srset. -/
def execSrset (_p : Bool) (d a : BitVec 5) (k : BitVec 12) : State → Host.Outcome State Fault Refusal :=
  srOp { gs := [a.toNat], gd := [d.toNat] } (some d.toNat) k.toNat fun t old => some (old ||| t.rg a.toNat, t.rg a.toNat)

/-- R398, srclr. -/
def execSrclr (_p : Bool) (d a : BitVec 5) (k : BitVec 12) : State → Host.Outcome State Fault Refusal :=
  srOp { gs := [a.toNat], gd := [d.toNat] } (some d.toNat) k.toNat fun t old => some (old &&& ~~~ t.rg a.toNat, 0)

/-! ## Code and the host -/

/-- R401, icinv: the thread's stores are performed first, and it does not issue for 64 A-cycles. The instruction caches of the core that
fetches for the thread (R207) and of its home core lose their lines. -/
def execIcinv (_p : Bool) : State → Host.Outcome State Fault Refusal :=
  issueC {} fun _ s =>
    match s.thr s.unit.tk with
    | none => .wait s .ready none
    | some t =>
      if !t.sbuf.isEmpty ∨ !t.remote.isEmpty then .wait s .ready none
      else
        let clear (n : Nat) (s : State) : State := s.modCore n fun c => { c with icache := [] }
        .done ((clear ((s.coreOfCk (ckOfTk s.unit.tk)).getD s.unit.core) (clear s.unit.core s)).rest 64) none

/-- The size of the function's MSI-X table (R121): vectors 0 to 2047. -/
def msixCount : Nat := 2048

/-- R402, sighost. -/
def execSighost (_p : Bool) (a : BitVec 5) : State → Host.Outcome State Fault Refusal :=
  issueC { n := { gs := [a.toNat] }, priv := true } fun v s =>
    let x := v.rg a.toNat
    match s.thr s.unit.tk with
    | none => .wait s .ready none
    | some t =>
      if x.toNat < 2 ∨ msixCount ≤ x.toNat then .trap Cause.access x
      else if !t.performed then .wait s .ready none
      else .done (s.sendMsix x.toNat) none

end Sys2Proof.Machine
end

