-- ==== Sys2Proof/Machine/Matrix.lean ====
section
/-!
DEFINITION. The matrix unit (R255 to R270) and the matrix and factorisation instructions (R412 to R431): operands and checks,
accumulator tiles, requests and their service, steps, halts and results.
-/

namespace Sys2Proof.Machine

/-! ## Tiles of a pool (R260) -/

/-- The tile that zn names: its place in the accumulator store. -/
def Thread.tile (t : Thread) (z : BitVec 4) : Nat := field t.zbase 0 8 + z.toNat

/-- Pool offset of an element of a tile. -/
def State.tileOff (s : State) (ck n i j : Nat) : Nat := s.tileBase ck n + 128 * i + 4 * j

def State.tileRead (s : State) (ck n : Nat) : Tile := Tile.ofFn fun i j => s.poolRead ck (s.tileOff ck n i j) 4

/-- Writes the first `cv` columns of the first `rv` rows. -/
def State.tileWrite (s : State) (ck n rv cv : Nat) (z : Tile) : State :=
  foldS (fun i (s : State) => s.poolWrite ck (s.tileOff ck n i 0) (((z.getD i []).take cv).flatMap (leBytes 4))) (List.range rv) s

/-- The first poisoned word of the first `cv` columns of the first `rv` rows. -/
def State.tilePoison (s : State) (ck n rv cv : Nat) : Option Word :=
  (List.range rv).findSome? fun i => (s.poolPoison ck (s.tileOff ck n i 0) (4 * cv)).map fun o => deviceForm ck o

/-- The first poisoned word of the triangle that MTRSM reads (R425, R431). -/
def State.triPoison (s : State) (ck n : Nat) (up unit : Bool) : Option Word :=
  (List.range 1024).findSome? fun k =>
    let i := k / 32
    let j := k % 32
    if (if up then decide (i < j) else decide (j < i)) || (i == j && !unit) then
      (s.poolPoison ck (s.tileOff ck n i j) 4).map fun o => deviceForm ck o
    else none

/-! ## Operands (R255, R258) -/

/-- The core and offset of `n` runs of `len` bytes at steps of `step`, or the first offending address. -/
def State.runsAt (s : State) (ck : Nat) (base : Word) (n step len : Nat) : Except Word (Nat × Nat) :=
  if !isSp base ∨ field base 28 2 = 2 then .error base
  else match s.spDecode ck base with
    | none => .error base
    | some (c, off) =>
      match (List.range n).find? fun i => decide (s.spLimit c < off + step * i + len) with
      | some i => .error (base + word (step * i + (s.spLimit c - (off + step * i))))
      | none => .ok (c, off)

/-- An operand as read: runs, the byte ranges read, and the first poisoned word. -/
structure MxOperand where
  runs : List (Nat × Nat) := []
  ranges : List Range := []
  bad : Option Word := none

/-- Reads the active rows of an operand for a thread or card of context core `ck`. -/
def State.operand (s : State) (ck : Nat) (base : Word) (d : MSide) (n kv : Nat) : Except Word MxOperand :=
  let len := (kv * d.fmt.wd + 7) / 8
  let slen := (kv + 47) / 48 * d.sb
  let build (c off c' off' : Nat) : MxOperand :=
    { runs := (List.range n).map fun i => (s.poolRead c (off + d.str * i) len, s.poolRead c' (off' + 32 * i) slen)
      ranges := (List.range n).map (fun i => { ck := some c, base := off + d.str * i, len := len }) ++
        if slen = 0 then [] else (List.range n).map fun i => { ck := some c', base := off' + 32 * i, len := slen }
      bad := (List.range n).findSome? fun i =>
        match s.poolPoison c (off + d.str * i) len with
        | some o => some (deviceForm c o)
        | none => if slen = 0 then none else (s.poolPoison c' (off' + 32 * i) slen).map fun o => deviceForm c' o }
  match s.runsAt ck base n d.str len with
  | .error a => .error a
  | .ok (c, off) =>
    if slen = 0 then .ok (build c off c off)
    else match s.runsAt ck (base + word d.sco) n 32 slen with
      | .error a => .error a
      | .ok (c', off') => .ok (build c off c' off')

/-! ## Checks of an MMA (R258, R262, R418) -/

/-- The trap of steps 1 to 4 of R418 that do not depend on the operands' bytes. -/
def mmaTrap (fc edge ab bb : Word) (tile tiles : Nat) : Option (Nat × Word) :=
  let kBad : Bool := match shapeK fc with
    | some k => !edgeEmpty edge && decide (k.1 < field edge 12 10)
    | none => false
  if edgeBad edge || kBad then some (Cause.matrixFmt, edge)
  else if !edgeEmpty edge && (shapeOf fc).isNone then some (Cause.matrixFmt, fc)
  else if tiles ≤ tile then some (Cause.access, word tile)
  else if edgeEmpty edge then none
  else if ab.toNat % 64 ≠ 0 then some (Cause.align, ab)
  else if bb.toNat % 64 ≠ 0 then some (Cause.align, bb)
  else none

/-- Both operands of an MMA, A before B (step 5 of R418). -/
def State.operands (s : State) (ck : Nat) (fc edge ab bb : Word) : Except Word (MxOperand × MxOperand) :=
  match shapeOf fc with
  | none => .ok ({}, {})
  | some p =>
    if edgeEmpty edge then .ok ({}, {})
    else match s.operand ck ab p.a (edgeRv edge) (edgeKv edge p.k) with
      | .error x => .error x
      | .ok a => match s.operand ck bb p.b (edgeCv edge) (edgeKv edge p.k) with
        | .error x => .error x
        | .ok b => .ok (a, b)

/-- Both code tables, entry 0 lowest. -/
def MxReq.ct (r : MxReq) : Nat := r.ct0.toNat + r.ct1.toNat * 2 ^ 64

/-- The tile of an MMA after it; a poisoned word leaves it (R268). -/
def State.mmaEffect (s : State) (r : MxReq) (clear : Bool) : State × Option Word :=
  match shapeOf r.fmt with
  | none => (s, none)
  | some p =>
    if edgeEmpty r.edge then (s, none)
    else
      let bad := match r.bad with
        | some w => some w
        | none => if clear then none else s.tilePoison r.ck r.tile (edgeRv r.edge) (edgeCv r.edge)
      match bad with
      | some w => (s, some w)
      | none =>
        let z := mmaTile p r.ct r.edge clear (r.aRuns.map fun x => ⟨x.1, x.2⟩) (r.bRuns.map fun x => ⟨x.1, x.2⟩) (s.tileRead r.ck r.tile)
        (s.tileWrite r.ck r.tile (edgeRv r.edge) (edgeCv r.edge) z, none)

/-! ## Requests (R264, R412) -/

/-- The OP code of FACTSTEP (R269). -/
def MxOp.code : MxOp → Nat
  | .mlu => 1 | .mchol => 2 | .mqr => 3 | .mtrsm _ _ _ => 4
  | .mma _ | .long _ => 0

def MxOp.isFact (o : MxOp) : Bool := o.code != 0

/-- FACTSTEP from its fields (R269). -/
def factWord (step code : Nat) (valid : Bool) (amax : Nat) : Word :=
  word (step % 64 + code * 64 + bitOf valid * 512 + amax % 2 ^ 32 * 2 ^ 32)

def factStepOf (w : Word) : Nat := field w 0 6
def factOp (w : Word) : Nat := field w 6 3
def factValid (w : Word) : Bool := w.getLsbD 9
def factAmax (w : Word) : Nat := field w 32 32

/-- Appends a request to its core's queue. -/
def State.mxQueuePut (s : State) (ck : Nat) (r : MxReq) : State :=
  match s.clusterOfCk ck with
  | none => s
  | some c => (s.modClu c fun x => { x with mxQueue := Tbl.upd [] x.mxQueue (ck % 4) (· ++ [r]) }).laterOnce (.matrixRequestServe c)

/-- A unit request of a thread: its pending result, then the request. -/
def State.mxSubmit (s : State) (tk la : Nat) (t : Thread) (dsts : List Dst) (r : MxReq) : State :=
  let p := s.addPend tk la { kind := .matrix, dsts := dsts, lanes := [{}], upc := s.unit.addr }
  p.1.mxQueuePut (ckOfTk tk) { r with
    id := p.2, ck := ckOfTk tk, tk := tk, pend := p.2, fmt := t.fmtctx, ct0 := t.codetab0, ct1 := t.codetab1
    paired := s.unit.phase != .lone }

/-- The thread's own unfinished work holds the request back: a job over its operands or its tile (R188), or a remote store to
an operand's pool. -/
def State.mxHeld (s : State) (tk : Nat) (t : Thread) (reads : List Range) (tiles : List Nat) : Bool :=
  let ck := ckOfTk tk
  (reads.any fun g => match g.ck with
    | some c => s.jobHolds tk (.pool c g.base) g.len false || t.remote.any fun q => q.ck == c
    | none => false) ||
  tiles.any fun z => s.jobHolds tk (.pool ck (s.tileBase ck z)) 4096 true

/-- MMA and MMAZ (R418, R419). -/
def State.mma (s : State) (clear : Bool) (z : BitVec 4) (ab bb edge : Word) (la : Nat) : CRes :=
  let tk := s.unit.tk
  let ck := ckOfTk tk
  match s.thr tk with
  | none => .wait s .ready none
  | some t =>
    match mmaTrap t.fmtctx edge ab bb (t.tile z) (s.tileCount ck) with
    | some (c, v) => .trap c v
    | none => match s.operands ck t.fmtctx edge ab bb with
      | .error x => .trap Cause.access x
      | .ok (a, b) =>
        if s.mxHeld tk t (a.ranges ++ b.ranges) [t.tile z] then .wait s .ready none
        else .done (s.mxSubmit tk la t [.z (t.tile z)]
          { op := .mma clear, tile := t.tile z, a := ab, b := bb, edge := edge, aRuns := a.runs, bRuns := b.runs,
            bad := match a.bad with | some x => some x | none => b.bad }) none

/-- R417, mma. -/
def execMma (_p : Bool) (z : BitVec 4) (a b e : BitVec 5) (l : BitVec 4) : State → Host.Outcome State Fault Refusal :=
  issueC { n := { gs := [a.toNat, b.toNat, e.toNat] }, mem := true, la := true, unitReq := true, hidZ := [z.toNat] } fun v s =>
    s.mma false z (v.rg a.toNat) (v.rg b.toNat) (v.rg e.toNat) l.toNat

/-- R417, mmaz. -/
def execMmaz (_p : Bool) (z : BitVec 4) (a b e : BitVec 5) (l : BitVec 4) : State → Host.Outcome State Fault Refusal :=
  issueC { n := { gs := [a.toNat, b.toNat, e.toNat] }, mem := true, la := true, unitReq := true, hidZ := [z.toNat] } fun v s =>
    s.mma true z (v.rg a.toNat) (v.rg b.toNat) (v.rg e.toNat) l.toNat

/-! ## Factorisations at issue (R424, R425) -/

/-- A factorisation: `vds` its v registers, `gd` its g register. -/
def State.fact (s : State) (op : MxOp) (z : BitVec 4) (z2 : Option (BitVec 4)) (vds : List Nat) (gd la : Nat) : CRes :=
  let tk := s.unit.tk
  let ck := ckOfTk tk
  match s.thr tk with
  | none => .wait s .ready none
  | some t =>
    let tiles := t.tile z :: (z2.toList.map t.tile)
    let bad := tiles.find? fun n => decide (s.tileCount ck ≤ n)
    match bad with
    | some n => .trap Cause.access (word n)
    | none =>
      if z2 = some z then .trap Cause.matrixFmt (word (t.tile z))
      else if factValid t.factstep ∧ factOp t.factstep ≠ op.code then .trap Cause.matrixFmt t.factstep
      else match t.flumesOf vds with
        | f :: _ => .trap Cause.port (word (8 + f.1))
        | [] =>
          if s.mxHeld tk t [] tiles then .wait s .ready none
          else
            let resume := factValid t.factstep
            let s0 := if resume then factStepOf t.factstep else 0
            let dsts := tiles.map Dst.z ++ vds.map Dst.v ++ if gd = 0 then [] else [Dst.g gd]
            .done (s.mxSubmit tk la t dsts
              { op := op, tile := t.tile z, tile2 := (z2.map t.tile).getD 0, vd := vds.headD 0, gd := gd, step := s0, s0 := s0,
                resume := resume
                perm := if resume ∧ op = .mlu then t.rv (vds.headD 0) else 0
                amax := BitVec.ofNat 32 (if resume then factAmax t.factstep else 0)
                umax := if resume ∧ op = .mlu then (t.rg gd).setWidth 32 else 0 }) none

/-- R428, mlu. -/
def execMlu (_p : Bool) (z : BitVec 4) (v g : BitVec 5) (l : BitVec 4) : State → Host.Outcome State Fault Refusal :=
  issueC { n := { gd := [g.toNat] }, mem := true, la := true, unitReq := true, hidV := [v.toNat], hidZ := [z.toNat] } fun _ s =>
    s.fact .mlu z none [v.toNat] g.toNat l.toNat

/-- R429, mchol. -/
def execMchol (_p : Bool) (z : BitVec 4) (l : BitVec 4) : State → Host.Outcome State Fault Refusal :=
  issueC { mem := true, la := true, unitReq := true, hidZ := [z.toNat] } fun _ s => s.fact .mchol z none [] 0 l.toNat

/-- R430, mqr: `v` names the even pair's half number. -/
def execMqr (_p : Bool) (z : BitVec 4) (v : BitVec 4) (l : BitVec 4) : State → Host.Outcome State Fault Refusal :=
  issueC { mem := true, la := true, unitReq := true, hidV := [2 * v.toNat, 2 * v.toNat + 1], hidZ := [z.toNat] } fun _ s =>
    s.fact .mqr z none [2 * v.toNat, 2 * v.toNat + 1] 0 l.toNat

/-- R431, mtrsm: `sd`, `u` and `n` are SIDE, UP and UNIT. -/
def execMtrsm (_p : Bool) (z y : BitVec 4) (sd u n : Bool) (l : BitVec 4) : State → Host.Outcome State Fault Refusal :=
  issueC { mem := true, la := true, unitReq := true, hidZ := [z.toNat, y.toNat] } fun _ s =>
    s.fact (.mtrsm sd u n) z (some y) [] 0 l.toNat

/-! ## Steps of a factorisation (R264, R425 to R431) -/

/-- The step that a request would run now. -/
def State.factEval (s : State) (r : MxReq) : Except FactFault FactStep :=
  let a := s.tileRead r.ck r.tile
  match r.op with
  | .mlu => luStep a r.step r.umax.toNat
  | .mchol => cholStep a r.step
  | .mqr => qrStep a r.step
  | .mtrsm sd u n => trsmStep a (s.tileRead r.ck r.tile2) sd u n r.step
  | .mma _ | .long _ => .ok { z := a }

/-- The poison that the first step meets (R425). -/
def State.factPoison (s : State) (r : MxReq) : Option Word :=
  match s.tilePoison r.ck r.tile 32 32 with
  | some w => some w
  | none => match r.op with
    | .mtrsm _ u n => s.triPoison r.ck r.tile2 u n
    | _ => none

/-- The lanes of tau from the first step of this issue on, laid over two v registers. -/
def MxReq.putTau (r : MxReq) (t : Thread) : Thread :=
  r.tau.zipIdx.foldl (fun t x =>
    let k := r.s0 + x.2
    t.wv (r.vd + k / 16) (putBytes (t.rv (r.vd + k / 16)) (4 * (k % 16)) 4 x.1.toNat)) t

/-- The partial results of the completed steps in the destination registers; the rest is unpredictable (R270, R428, R430). -/
def State.factPartial (s : State) (r : MxReq) : State :=
  if r.step = r.s0 then s
  else
    let n := s.free
    match r.op with
    | .mlu => { (s.modThr r.tk fun t =>
        let t := t.wv r.vd (mergeBytes (Config.freeVec n) r.perm (byteMask 0 r.step))
        if (t.portOf r.gd).isSome then t else t.wg r.gd (r.umax.setWidth 64)) with free := n + 1 }
    | .mqr => { (s.modThr r.tk fun t =>
        let keep (j : Nat) : Vec :=
          mergeBytes (Config.freeVec (n + j)) (t.rv (r.vd + j)) (byteMask 0 (min 64 (4 * (r.step - 16 * j))))
        r.putTau ((t.wv r.vd (keep 0)).wv (r.vd + 1) (keep 1))) with free := n + 2 }
    | _ => s

/-- A request's result is computed; it is bound in its turn (R265). -/
def State.mxFinish (s : State) (c : Nat) (r : MxReq) : State :=
  (s.modClu c fun x => { x with mxDone := x.mxDone ++ [r] }).later (.matrixResultBind c r.id)

/-- A numeric fault at the start of a step (R426): FACTSTEP records it. -/
def State.factFault (s : State) (c : Nat) (r : MxReq) (e : FactFault) : State :=
  let s := (s.factPartial r).modThr r.tk fun t =>
    { t with factstep := factWord r.step r.op.code false (factAmax t.factstep) }
  s.mxFinish c { r with fault := some (e.cause, word (r.step + 256 * e.row)) }

/-- A column step starts: poison and numeric faults are found first. -/
def State.factBegin (s : State) (c : Nat) (r : MxReq) : State :=
  if 32 ≤ r.step then s.mxFinish c r
  else match (if r.begun then none else s.factPoison r) with
    | some w => s.mxFinish c { r with bad := some w }
    | none =>
      let fresh := !r.begun && !r.resume && r.op == .mlu
      let amax := tileAmax (s.tileRead r.ck r.tile)
      let r := if fresh then { r with amax := BitVec.ofNat 32 amax } else r
      let s := if fresh then s.modThr r.tk fun t => { t with factstep := setField t.factstep 32 32 amax } else s
      match s.factEval r with
      | .error e => s.factFault c r e
      | .ok _ => (s.modClu c fun x => { x with mxStep := some { r with begun := true } }).later (.factorisationStepEnd c)

/-- The effect of a step on its request and tile. -/
def State.factApply (s : State) (r : MxReq) (f : FactStep) : State × MxReq :=
  (s.tileWrite r.ck r.tile 32 32 f.z,
   { r with step := r.step + 1
            perm := if r.op = .mlu then putBytes r.perm r.step 1 f.piv else r.perm
            umax := if r.op = .mlu then BitVec.ofNat 32 f.umax else r.umax
            tau := if r.op = .mqr then r.tau ++ [BitVec.ofNat 32 f.tau] else r.tau })

/-! ## Halts (R270, R415) -/

/-- The pending result of a request. -/
def State.mxPend (s : State) (r : MxReq) : Option Pending :=
  match s.thr r.tk with
  | some t => t.pend.find? fun p => p.id == r.pend
  | none => none

/-- The partition of a context core is halting; a standby context stops when a partition is to come in (R132). -/
def State.halting (s : State) (ck : Nat) : Bool :=
  if regionOfCk ck = standbyRegion then (s.clu (rcOfCk ck / 4)).incoming.isSome
  else match s.context (ctxKeyOfCk ck) with
  | some x => x.halting
  | none => false

/-- A halt stops this request: a factorisation after which its thread has issued nothing. -/
def State.mxStops (s : State) (r : MxReq) : Bool :=
  r.op.isFact && !r.paired && match s.mxPend r with
    | some p => !p.later
    | none => true

/-- A factorisation leaves the unit at a halt: its thread's PC is at the instruction again, and a begun one is recorded. -/
def State.mxWithdraw (s : State) (r : MxReq) : State :=
  let s := if r.begun then
      (s.factPartial r).modThr r.tk fun t =>
        { t with factstep := factWord r.step r.op.code true (if r.op = .mlu then r.amax.toNat else factAmax t.factstep) }
    else s
  match s.mxPend r with
  | some p => s.modThr r.tk fun t =>
      { t with pend := t.pend.filter (fun q => q.id != p.id), pc := p.upc, st := if t.st = .long then .ready else t.st }
  | none => s

/-- The requests of a partition that a halt stops; matrix long operations stay with their cards. -/
def State.mxHalt (s : State) (c : Nat) : State :=
  let all := (s.clu c).mxQueue.flatMap Prod.snd
  let stop := all.filter s.mxStops
  let s := foldS (fun r s => s.mxWithdraw r) stop s
  s.modClu c fun x => { x with
    mxQueue := (List.range 4).foldl (fun q j => Tbl.upd [] q j fun l => l.filter fun r => !stop.contains r && (match r.op with
      | .long _ => false
      | _ => true)) x.mxQueue }

/-! ## Service (R259, R264) -/

/-- The core whose request is served next. -/
def Cluster.mxNext (x : Cluster) (last : Nat) : Option Nat :=
  ((List.range 4).map fun k => (last + 1 + k) % 4).find? fun j => !(Tbl.get [] x.mxQueue j).isEmpty

/-- One MMA of a matrix long operation (R267): its operands are read as it runs. -/
def State.mxLong (s : State) (c : Nat) (r : MxReq) (id : Nat) : State :=
  match (s.cx r.ck).cards.find? fun (k : Card) => k.id == id with
  | none => s
  | some k =>
    if k.status ≠ 0 then s else
    let setCard (f : Card → Card) (s : State) : State :=
      s.modCx r.ck fun x => { x with cards := mapIf (fun (y : Card) => y.id == id) f x.cards }
    let ab := k.aBase + BitVec.ofInt 64 (k.pos * k.aStep)
    let bb := k.bBase + BitVec.ofInt 64 (k.pos * k.bStep)
    let o := match s.operands r.ck k.fmt k.edge ab bb with
      | .ok o => o
      | .error w => ({ bad := some w }, {})
    let q : MxReq := { r with edge := k.edge, fmt := k.fmt, ct0 := k.ct0, ct1 := k.ct1, tile := k.zidx, aRuns := o.1.runs, bRuns := o.2.runs,
                              bad := match o.1.bad with | some x => some x | none => o.2.bad }
    let e := s.mmaEffect q (k.zc && k.pos == 0)
    match e.2 with
    | some w => (setCard (fun y => { y with status := 1, failAddr := w.toNat }) e.1).laterOnce (.mlongComplete r.ck id)
    | none =>
      let s := setCard (fun y => { y with pos := y.pos + 1 }) e.1
      if k.count ≤ k.pos + 1 then s.laterOnce (.mlongComplete r.ck id)
      else s.modClu c fun x => { x with mxQueue := Tbl.upd [] x.mxQueue (r.ck % 4) (r :: ·) }

/-- MATRIX_REQUEST_SERVE (R264): the free unit serves the oldest request of the next core. -/
def State.serveMatrix (s : State) (c : Nat) : State :=
  if (s.clu c).mxStep.isSome then s
  else match (s.clu c).resident with
    | none => s
    | some k => match s.context k with
      | none => s
      | some x => match (s.clu c).mxNext x.mxLast with
        | none => s
        | some j => match Tbl.get [] (s.clu c).mxQueue j with
          | [] => s
          | r :: rest =>
            let s := (s.modClu c fun y => { y with mxQueue := Tbl.put [] y.mxQueue j rest }).modContext k fun y => { y with mxLast := j }
            let s := s.modCx r.ck fun y => { y with fmtctx := r.fmt, codetab0 := r.ct0, codetab1 := r.ct1 }
            let s := match r.op with
              | .mma clear =>
                let e := s.mmaEffect r clear
                e.1.mxFinish c { r with bad := e.2 }
              | .long id => s.mxLong c r id
              | _ => s.factBegin c r
            if (s.clu c).mxStep.isNone ∧ ((s.clu c).mxNext 3).isSome then s.laterOnce (.matrixRequestServe c) else s

/-- FACTORISATION_STEP_END (R264, R270): the step's effect; the unit is given up where another core waits. -/
def State.endStep (s : State) (c : Nat) : State :=
  match (s.clu c).mxStep with
  | none => s
  | some r =>
    let s := s.modClu c fun x => { x with mxStep := none }
    let s := match s.factEval r with
      | .error e => s.factFault c r e
      | .ok f =>
        let a := s.factApply r f
        let s := a.1
        let r := a.2
        let others : Bool := (List.range 4).any fun j => j != r.ck % 4 && !(Tbl.get [] (s.clu c).mxQueue j).isEmpty
        if 32 ≤ r.step then s.mxFinish c r
        else if s.halting r.ck ∧ s.mxStops r then s.mxWithdraw r
        else if others then s.modClu c fun x => { x with mxQueue := Tbl.upd [] x.mxQueue (r.ck % 4) (r :: ·) }
        else s.factBegin c r
    if (s.clu c).mxStep.isNone ∧ ((s.clu c).mxNext 3).isSome then s.laterOnce (.matrixRequestServe c) else s

/-! ## Results (R265, R268, R426 to R430) -/

/-- The registers that a completed factorisation writes; VALID is cleared. -/
def State.factWrite (s : State) (r : MxReq) : State :=
  let s := s.modThr r.tk fun t => { t with factstep := setField t.factstep 9 1 0 }
  match r.op with
  | .mlu =>
    let p := permOf fun k => bytesAt r.perm k 1
    let v := p.zipIdx.foldl (fun v x => putBytes v (32 + x.2) 1 x.1) r.perm
    let s := s.modThr r.tk fun t => t.wv r.vd v
    if r.gd = 0 then s else s.writeG r.tk r.gd (word (divF32 r.umax.toNat r.amax.toNat))
  | .mqr => s.modThr r.tk r.putTau
  | _ => s

/-- MATRIX_RESULT_BIND (R265): registers are written and the pending result ends, or its condition is noted with it. -/
def State.bindMatrix (s : State) (c id : Nat) : State :=
  match takeFirst (fun (r : MxReq) => r.id == id) (s.clu c).mxDone with
  | none => s
  | some (r, rest) =>
    let s := s.modClu c fun x => { x with mxDone := rest }
    let s := if r.bad.isNone ∧ r.fault.isNone ∧ r.op.isFact then s.factWrite r else s
    let mark (p : Pending) : Pending := match r.fault with
      | some f => { p with fault := some f, later := true }
      | none => p
    let s := s.modThr r.tk fun t => { t with pend := mapIf (fun p => p.id == r.pend) mark t.pend }
    s.fillLane r.tk r.pend 0 0 r.bad

/-! ## Accumulator moves (R421 to R423) -/

/-- A factorisation that has begun works on the tile. -/
def State.factOn (s : State) (ck n : Nat) : Bool :=
  match s.clusterOfCk ck with
  | none => false
  | some c =>
    let hit (r : MxReq) : Bool := r.begun && r.ck == ck && r.tile == n
    (match (s.clu c).mxStep with | some r => hit r | none => false) || (s.clu c).mxQueue.any fun e => e.2.any hit

/-- Tile element of a lane (R422). -/
def moveEl (x : Word) (w l : Nat) : Nat × Nat :=
  let row := field x 0 5
  if w = 32 then (row, 16 * field x 5 1 + l) else if w = 16 then (row, l) else (row + l / 32, l % 32)

/-- The type of the tile's elements: ACC. -/
def moveAcc (x : Word) : Ty := if x.getLsbD 6 then .i32 else .f32

/-- A conversion that is always exact, for which RM must be 0 (R422). -/
def moveExact (src dst : Ty) (sat : Bool) : Bool :=
  src == dst || (src == .i32 && dst == .n32 && !sat) || (dst == .i32 && src.isI) ||
    (dst == .f32 && (src == .f16 || src == .bf16 || src == .f8e4 || src == .f8e5))

/-- The control word breaks R422. -/
def moveBad (x : Word) (t src dst : Ty) : Bool :=
  field x 7 1 != 0 || field x 11 53 != 0 || (field x 5 1 != 0 && t.width != 32) || (t.width == 8 && field x 0 1 != 0) ||
    (field x 8 2 != 0 && moveExact src dst (x.getLsbD 10)) ||
    (x.getLsbD 10 && dst == .f32 && (src == .f16 || src == .bf16 || src == .f8e4 || src == .f8e5))

/-- One element converted; identical types are a bit copy. -/
def moveConv (x : Word) (src dst : Ty) (e : Nat) : Nat :=
  if src = dst then e else (convert dst src (Rm.ofCode (BitVec.ofNat 2 (field x 8 2))) (x.getLsbD 10) e).1

/-- R421, zrd. -/
def execZrd (_p : Bool) (v a : BitVec 5) (z : BitVec 4) (ty : Ty) (l : BitVec 4) : State → Host.Outcome State Fault Refusal :=
  issueC { n := { gs := [a.toNat], vd := [v.toNat] }, mem := true, la := true, hidZ := [z.toNat] } fun u s =>
    let tk := s.unit.tk
    let ck := ckOfTk tk
    let x := u.rg a.toNat
    let n := u.tile z
    if s.tileCount ck ≤ n then .trap Cause.access (word n)
    else if moveBad x ty (moveAcc x) ty then .trap Cause.matrixFmt x
    else if s.factOn ck n ∨ s.jobHolds tk (.pool ck (s.tileBase ck n)) 4096 false then .wait s .ready none
    else
      let off (i : Nat) : Nat := s.tileOff ck n (moveEl x ty.width i).1 (moveEl x ty.width i).2
      let r := ofLanes ty.width fun i => moveConv x (moveAcc x) ty (s.poolRead ck (off i) 4)
      match (List.range ty.lanes).findSome? fun i => s.poolPoison ck (off i) 4 with
      | some o => .done (s.addPend tk l.toNat { dsts := [.v v.toNat], fin := .vec v.toNat, buf := r,
                                                 poison := some (deviceForm ck o), upc := s.unit.addr }).1 none
      | none => .done (s.bindFin tk (.vec v.toNat) r) none

/-- R421, zwr. -/
def execZwr (_p : Bool) (v a : BitVec 5) (z : BitVec 4) (ty : Ty) (_l : BitVec 4) : State → Host.Outcome State Fault Refusal :=
  issueC { n := { gs := [a.toNat], vs := [v.toNat] }, mem := true, la := true, hidZ := [z.toNat] } fun u s =>
    let tk := s.unit.tk
    let ck := ckOfTk tk
    let x := u.rg a.toNat
    let n := u.tile z
    if s.tileCount ck ≤ n then .trap Cause.access (word n)
    else if moveBad x ty ty (moveAcc x) then .trap Cause.matrixFmt x
    else if s.factOn ck n ∨ s.jobHolds tk (.pool ck (s.tileBase ck n)) 4096 true then .wait s .ready none
    else
      .done (foldS (fun i (s : State) =>
        let e := moveEl x ty.width i
        s.poolWrite ck (s.tileOff ck n e.1 e.2) (leBytes 4 (moveConv x ty (moveAcc x) (lane ty.width (u.rv v.toNat) i))))
        (List.range ty.lanes) s) none

/-- R421, mclr. -/
def execMclr (_p : Bool) (z : BitVec 4) (_l : BitVec 4) : State → Host.Outcome State Fault Refusal :=
  issueC { mem := true, la := true, hidZ := [z.toNat] } fun u s =>
    let tk := s.unit.tk
    let ck := ckOfTk tk
    let n := u.tile z
    if s.tileCount ck ≤ n then .trap Cause.access (word n)
    else if s.factOn ck n ∨ s.jobHolds tk (.pool ck (s.tileBase ck n)) 4096 true then .wait s .ready none
    else .done (s.tileWrite ck n 32 32 (Tile.ofFn fun _ _ => 0)) none

/-! ## Edge words, format context and code tables (R416, R420) -/

/-- R420, medge. -/
def execMedge (_p : Bool) (d a b c : BitVec 5) : State → Host.Outcome State Fault Refusal :=
  issueC { n := { gs := [a.toNat, b.toNat, c.toNat], gd := [d.toNat] } } fun v s =>
    match shapeK v.fmtctx with
    | none => .trap Cause.matrixFmt v.fmtctx
    | some k => .done (s.writeG s.unit.tk d.toNat
        (medge (field v.geom1 0 16) (field v.geom1 16 16) (v.rg a.toNat).toInt (v.rg b.toNat).toInt (v.rg c.toNat).toInt k.1)) none

/-- R416, mfmt. -/
def execMfmt (_p : Bool) (a : BitVec 5) : State → Host.Outcome State Fault Refusal :=
  issueC { n := { gs := [a.toNat] } } fun v s =>
    let x := v.rg a.toNat
    if field x 10 6 ≠ 0 ∨ (shapeOf x).isNone then .trap Cause.matrixFmt x
    else .done (s.modThr s.unit.tk fun t => { t with fmtctx := x }) none

/-- R416, mctld: both halves are written before the thread's next unit. -/
def execMctld (_p : Bool) (a : BitVec 5) : State → Host.Outcome State Fault Refusal :=
  issueC { n := { gs := [a.toNat] }, mem := true } fun v s => s.load s.unit.tk (v.rg a.toNat) 16 16 0 [] .codetab false

/-- R416, mctset. -/
def execMctset (_p : Bool) (a b : BitVec 5) : State → Host.Outcome State Fault Refusal :=
  issueC { n := { gs := [a.toNat, b.toNat] } } fun v s =>
    .done (s.modThr s.unit.tk fun t => { t with codetab0 := v.rg a.toNat, codetab1 := v.rg b.toNat }) none

end Sys2Proof.Machine
end

