-- ==== Sys2Proof/Machine/Engines.lean ====
section
/-!
DEFINITION. Job cards (R213 to R217, R266, R387 to R391), copies as they go, the end of a job (R216, R267, R455), flumes
(R211, R212, R392, R393) and the sluice board (R222, R223, R394).
-/

namespace Sys2Proof.Machine

/-! ## Reading a card (R388) -/

/-- The pool offset that steps 1 and 2 of R388 give for a record of `n` bytes in general scratchpad. -/
def State.recordAt (s : State) (ck : Nat) (a : Word) (n align : Nat) : Except Nat Nat :=
  if !isSp a then .error Cause.access
  else match s.spDecode ck a with
    | none => .error Cause.access
    | some (c, off) =>
      if c ≠ ck ∨ off < s.generalBase ck ∨ s.slotBase ck < off + n then .error Cause.access
      else if a.toNat % align ≠ 0 then .error Cause.align
      else .ok off

/-- BAR is no barrier, or an index (R214, R89). -/
def barOk (n : Nat) : Bool := n == 0xFFFF || decide (n < 512)

/-! ## Copies (R213, R214, R215) -/

/-- The elements of a copy. -/
def dimTotal (l : List CopyDim) : Nat := l.foldl (fun n d => n * d.cnt) 1

/-- Coordinates of an element: dimension 0 varies fastest. -/
def dimAddr (str : CopyDim → Int) : List CopyDim → Nat → Int
  | [], _ => 0
  | d :: l, i => (i % d.cnt : Nat) * str d + dimAddr str l (i / d.cnt)

/-- The least and greatest displacement of an element. -/
def dimSpan (str : CopyDim → Int) (l : List CopyDim) : Int × Int :=
  l.foldl (fun a d => let e := ((d.cnt - 1 : Nat) : Int) * str d; (a.1 + min 0 e, a.2 + max 0 e)) (0, 0)

/-- The copy fields of a descriptor of 256 bytes. -/
def copyOf (b : Nat) : Card :=
  { kind := .copy, esz := bits b 8 2, mc := bits b 24 1 == 1, mdev := bits b 25 1 == 1, noalloc := bits b 26 1 == 1, bar := bits b 32 16
    tag := bits b 48 12, src := word (bits b 64 64), dst := word (bits b 128 64), mask := word (bits b 192 64)
    dims := (List.range (bits b 16 8)).map fun d =>
      { cnt := bits b (256 + 128 * d) 32, sstr := toSigned 48 (bits b (288 + 128 * d) 48), dstr := toSigned 48 (bits b (336 + 128 * d) 48) }
    stAddr := word (bits b 1792 64) }

/-- A reserved field of a descriptor is set, or KIND or NDIM is wrong (R213, R214). -/
def copyBad (b : Nat) : Bool :=
  bits b 0 8 != 2 || bits b 10 6 != 0 || bits b 27 5 != 0 || bits b 60 4 != 0 || bits b 1856 192 != 0 ||
    bits b 16 8 == 0 || decide (12 < bits b 16 8)

/-- The rules of R214 and R215 on a copy's fields. -/
def Card.copyRules (c : Card) : Bool :=
  let e : Nat := 2 ^ c.esz
  let div (x : Int) (n : Nat) : Bool := x % (n : Int) == 0
  let lines : Bool := match c.dims with
    | [] => false
    | d :: l => d.sstr == (e : Int) && d.dstr == (e : Int) && d.cnt * e % 64 == 0 && c.src.toNat % 64 == 0 && c.dst.toNat % 64 == 0 &&
        l.all fun x => div x.sstr 64 && div x.dstr 64
  (c.dims.all fun d => d.cnt != 0 && div d.sstr e && div d.dstr e) && c.src.toNat % e == 0 && c.dst.toNat % e == 0 &&
    decide (dimTotal c.dims * e ≤ 2 ^ 48) && c.stAddr.toNat % 8 == 0 && barOk c.bar &&
    (!c.mc || (isSp c.dst && field c.dst 28 2 == 0 && field c.dst 21 7 == 0 && (if c.mdev then c.mask != 0 else field c.mask 0 4 != 0) && (isSp c.src || lines)))

/-- A footprint range from the least and greatest address; `none` where it wraps (R217). -/
def State.rangeOf (s : State) (ck : Nat) (base : Word) (lo hi : Int) : Option (List Range) :=
  let a := (base.toNat : Int) + lo
  let b := (base.toNat : Int) + hi
  if a < 0 ∨ 2 ^ 64 < b ∨ b ≤ a then none
  else if isSp base then
    match s.spDecode ck base with
    | some (c, off) => some [{ ck := some c, base := ((off : Int) + lo).toNat, len := (b - a).toNat }]
    | none => some []
  else some [{ base := a.toNat, len := (b - a).toNat }]

/-- The footprint of a copy (R217). -/
def State.copyPrint (s : State) (ck : Nat) (c : Card) : Option (List Range × List Range) :=
  let e : Int := (2 ^ c.esz : Nat)
  let r := dimSpan CopyDim.sstr c.dims
  let w := dimSpan CopyDim.dstr c.dims
  match s.rangeOf ck c.src r.1 (r.2 + e), s.rangeOf ck c.dst w.1 (w.2 + e) with
  | some a, some b => some (a, b)
  | _, _ => none

/-! ## Queueing a card (R388, R390) -/

/-- Steps 5 and 6 of R388, and the queueing of a card: the thread's earlier stores are drained first (R188). -/
def State.queueCard (s : State) (val : Word) (held : Option Nat) (c : Card) (print : Option (List Range × List Range)) : CRes :=
  let tk := s.unit.tk
  let ck := ckOfTk tk
  match s.thr tk, print with
  | some t, some p =>
    if 256 ≤ (s.cx ck).cards.length ∨ !t.sbuf.isEmpty ∨ !t.remote.isEmpty then .wait s .ready none
    else
      let id := s.clock
      let s := s.tickClock
      let c' : Card := { c with id := id, tk := tk, priv := t.priv != 0, untranslated := untranslated tk t, lin := t.lin, held := held,
                                reads := p.1, writes := p.2, seq := id }
      let s := s.modCx ck fun x => { x with cards := x.cards ++ [c'] }
      .done (if held.isNone then s.later (.jobCardStart ck id) else s.sluiceCheck ck) none
  | some _, none => .trap Cause.footprint val
  | none, _ => .wait s .ready none

/-- Steps 1 to 3 of R388: the card's bytes as a number. -/
def State.readCard (s : State) (a : Word) (n : Nat) (k : Nat → CRes) : CRes :=
  let tk := s.unit.tk
  let ck := ckOfTk tk
  match s.recordAt ck a n 64 with
  | .error c => .trap c a
  | .ok off =>
    if s.jobHolds tk (.pool ck off) n false then .wait s .ready none
    else if (s.poolPoison ck off n).isSome then .trap Cause.poison a
    else k (s.poolRead ck off n)

/-- The held queue that g b names: `none` breaks step 4. -/
def heldOf (b : Option Word) : Option (Option Nat) :=
  match b with
  | none => some none
  | some w => if w.toNat < 8 then some (some w.toNat) else none

/-- CPYT and CPYTH. -/
def State.issueCopy (s : State) (a : Word) (b : Option Word) : CRes :=
  s.readCard a 256 fun img =>
    let c := copyOf img
    match heldOf b with
    | none => .trap Cause.engine a
    | some h =>
      if copyBad img ∨ !c.copyRules then .trap Cause.engine a
      else s.queueCard a h c (s.copyPrint (ckOfTk s.unit.tk) c)

/-- R388, cpyt. -/
def execCpyt (_p : Bool) (a : BitVec 5) : State → Host.Outcome State Fault Refusal :=
  issueC { n := { gs := [a.toNat] }, mem := true } fun t s => s.issueCopy (t.rg a.toNat) none

/-- R390, cpyth. -/
def execCpyth (_p : Bool) (a b : BitVec 5) : State → Host.Outcome State Fault Refusal :=
  issueC { n := { gs := [a.toNat, b.toNat] }, mem := true } fun t s => s.issueCopy (t.rg a.toNat) (some (t.rg b.toNat))

/-- R389, cpyb. -/
def execCpyb (_p : Bool) (d a b : BitVec 5) : State → Host.Outcome State Fault Refusal :=
  issueC { n := { gs := [a.toNat, b.toNat, d.toNat] }, mem := true } fun t s =>
    let w := t.rg d.toNat
    let c : Card := { kind := .copy, dims := [{ cnt := field w 0 40, sstr := 1, dstr := 1 }], src := t.rg b.toNat, dst := t.rg a.toNat
                      bar := if w.getLsbD 49 then field w 40 9 else 0xFFFF, tag := field w 50 12, noalloc := w.getLsbD 62 }
    if w.getLsbD 63 ∨ !c.copyRules then .trap Cause.engine w
    else s.queueCard (t.rg a.toNat) none c (s.copyPrint (ckOfTk s.unit.tk) c)

/-! ## Matrix long operations (R266, R267) -/

/-- The fields of a matrix long card of 64 bytes. -/
def mlongOf (b : Nat) (t : Thread) : Card :=
  { kind := .mlong, zc := bits b 8 1 == 1, count := bits b 16 16, zidx := bits b 32 8, edge := word (bits b 64 64)
    aBase := word (bits b 128 64), bBase := word (bits b 192 64), aStep := toSigned 64 (bits b 256 64), bStep := toSigned 64 (bits b 320 64)
    fmt := word (bits b 384 64), stAddr := word (bits b 448 64), ct0 := t.codetab0, ct1 := t.codetab1 }

/-- Every step passes R258 and R260 (R267). -/
def State.mlongOk (s : State) (ck : Nat) (c : Card) : Bool :=
  (List.range c.count).all fun k =>
    let ab := c.aBase + BitVec.ofInt 64 (k * c.aStep)
    let bb := c.bBase + BitVec.ofInt 64 (k * c.bStep)
    (mmaTrap c.fmt c.edge ab bb c.zidx (s.tileCount ck)).isNone && match s.operands ck c.fmt c.edge ab bb with
      | .ok _ => true
      | .error _ => false

/-- The bounding span of one operand of every step, and of its scale plane. -/
def State.mlongSpan (s : State) (ck : Nat) (base : Word) (step : Int) (count : Nat) (d : MSide) (n kv : Nat) : Option (List Range) :=
  let far := step * ((count - 1 : Nat) : Int)
  let lo := min 0 far
  let hi := max 0 far
  let body (off str len : Nat) : Option (List Range) :=
    s.rangeOf ck base (lo + (off : Int)) (hi + ((off + str * (n - 1) + len : Nat) : Int))
  match body 0 d.str ((kv * d.fmt.wd + 7) / 8) with
  | none => none
  | some a => if d.sb = 0 then some a else (body d.sco 32 ((kv + 47) / 48 * d.sb)).map fun b => a ++ b

/-- The footprint of a matrix long operation (R267). -/
def State.mlongPrint (s : State) (ck : Nat) (c : Card) : Option (List Range × List Range) :=
  let tile : Range := { ck := some ck, base := s.tileBase ck c.zidx, len := 4096 }
  let st : Option (List Range) := if c.stAddr = 0 then some [] else s.rangeOf ck c.stAddr 0 8
  match st, (if edgeEmpty c.edge then none else shapeOf c.fmt) with
  | none, _ => none
  | some w, none => some ([], tile :: w)
  | some w, some p =>
    match s.mlongSpan ck c.aBase c.aStep c.count p.a (edgeRv c.edge) (edgeKv c.edge p.k),
      s.mlongSpan ck c.bBase c.bStep c.count p.b (edgeCv c.edge) (edgeKv c.edge p.k) with
    | some a, some b => some (a ++ b, tile :: w)
    | _, _ => none

/-- MLONG and MLONGH. -/
def State.issueMlong (s : State) (a : Word) (b : Option Word) : CRes :=
  s.readCard a 64 fun img =>
    match s.thr s.unit.tk, heldOf b with
    | some t, some h =>
      let ck := ckOfTk s.unit.tk
      let c := mlongOf img t
      let bad : Bool := bits img 0 8 != 4 || bits img 9 7 != 0 || bits img 40 24 != 0 || c.count == 0 || decide (256 < c.count) ||
        c.aStep % 64 != 0 || c.bStep % 64 != 0 || c.stAddr.toNat % 8 != 0
      if bad ∨ !s.mlongOk ck c then .trap Cause.engine a else s.queueCard a h c (s.mlongPrint ck c)
    | _, _ => .trap Cause.engine a

/-- R388, mlong. -/
def execMlong (_p : Bool) (a : BitVec 5) : State → Host.Outcome State Fault Refusal :=
  issueC { n := { gs := [a.toNat] }, mem := true } fun t s => s.issueMlong (t.rg a.toNat) none

/-- R390, mlongh. -/
def execMlongh (_p : Bool) (a b : BitVec 5) : State → Host.Outcome State Fault Refusal :=
  issueC { n := { gs := [a.toNat, b.toNat] }, mem := true } fun t s => s.issueMlong (t.rg a.toNat) (some (t.rg b.toNat))

/-! ## Accesses of a job -/

def State.cardOf (s : State) (ck id : Nat) : Option Card := (s.cx ck).cards.find? fun (c : Card) => c.id == id

def State.modCard (s : State) (ck id : Nat) (f : Card → Card) : State :=
  s.modCx ck fun x => { x with cards := mapIf (fun (c : Card) => c.id == id) f x.cards }

/-- Translation of one memory address of a job (R66, R77). -/
def State.xlatCard (s : State) (ck : Nat) (c : Card) (va : Nat) (r w : Bool) : XRes :=
  if c.untranslated then s.physical va
  else match s.pasidOf ck with
    | some p => s.translate { w := .card ck c.id, cluster := s.clusterOfCk ck, pasid := p, priv := c.priv, r := r, wr := w } va
    | none => .fault Cause.access

/-- The status code of a translation that fails (R90). -/
def statusOf (cause : Nat) : Nat := if cause = Cause.pageFail then 2 else 3

/-- Where `n` bytes of a job lie. -/
inductive JobPlace where
  | mem (s : State) (pa : Nat)
  | pool (ck off : Nat)
  | fail (status : Nat)
  | wait (s : State)

/-- Resolves an address of a job: plain accesses reach the scratchpad and landing slots, not the barrier table (R204). -/
def State.jobPlace (s : State) (ck : Nat) (c : Card) (a : Word) (n : Nat) (r w : Bool) : JobPlace :=
  if isSp a then
    match s.spDecode ck a with
    | none => .fail 3
    | some (k, off) => if off < barTableEnd ∨ s.spLimit k < off + n then .fail 3 else .pool k off
  else match s.xlatCard ck c a.toNat r w with
    | .pa s pa => .mem s pa
    | .fault e => .fail (statusOf e)
    | .wait s _ => .wait s

/-! ## The end of a job (R90, R144, R216, R267, R455) -/

/-- The status word of a job (R90). -/
def Card.statusWord (c : Card) : Word :=
  word (c.status + (if c.status = 0 ∨ c.status = 5 then 0 else c.failAddr % 2 ^ 48 * 2 ^ 16))

/-- Removes a card; the cards that waited for it are looked at again (R217). -/
def State.endCard (s : State) (ck id : Nat) : State :=
  let s := s.modCx ck fun x => { x with cards := x.cards.filter fun (c : Card) => c.id != id }
  foldS (fun (c : Card) (s : State) => if c.held.isNone ∧ !c.started then s.laterOnce (.jobCardStart ck c.id) else s) (s.cx ck).cards s

/-- The fault event of a job that ends with an error (R144). -/
def State.jobFault (s : State) (ck : Nat) (c : Card) (val : Word) : State :=
  s.faultEvent (regionOfCk ck) { cause := Cause.engine, kind := 2, lin := c.lin, val := val }

/-- What follows the status word: the pulse, or the fault event; then the card ends. -/
def State.jobEnd (s : State) (ck : Nat) (c : Card) (src sel : Nat) : State :=
  let s := if c.status = 0 then s.pulse ck src sel else s.jobFault ck c (word c.failAddr)
  s.endCard ck c.id

/-- The completion of a copy or matrix long operation whose work is done: the status word is written as an access of the job,
then `jobEnd`. A page that is absent makes it wait; a translation that fails ends the job by R455. -/
def State.jobComplete (s : State) (ck : Nat) (c : Card) (src sel : Nat) (again : Ev) : State :=
  let l := leBytes 8 c.statusWord.toNat
  if c.stAddr = 0 then s.jobEnd ck c src sel
  else match s.jobPlace ck c c.stAddr 8 false true with
    | .pool k off => (s.poolWrite k off l).jobEnd ck c src sel
    | .fail _ => s.later (.jobStatusFail ck c.id)
    | .wait s => s.modCard ck c.id fun y => { y with paused := true }
    | .mem s' pa => match s'.cohPut ((s.coreOfCk ck).getD 0) pa l false with
      | .ok s => s.jobEnd ck c src sel
      | .error s => s.later again

/-- Every element has landed, or the job has ended with an error, and nothing is outstanding. -/
def Card.copyOver (c : Card) : Bool :=
  c.outstanding.isEmpty && (decide (dimTotal c.dims ≤ c.pos) || decide (2 ≤ c.status))

/-- COPY_JOB_COMPLETE (R216). -/
def State.onCopyComplete (s : State) (ck id : Nat) : State :=
  match s.cardOf ck id with
  | some c =>
    if c.kind = .copy ∧ c.started ∧ c.copyOver ∧ !s.halting ck then s.jobComplete ck c 1 c.tag (.copyJobComplete ck id) else s
  | none => s

/-- MLONG_COMPLETE (R267). -/
def State.onMlongComplete (s : State) (ck id : Nat) : State :=
  match s.cardOf ck id with
  | some c =>
    if c.kind = .mlong ∧ c.started ∧ (c.count ≤ c.pos ∨ c.status ≠ 0) then s.jobComplete ck c 2 0xFFF (.mlongComplete ck id) else s
  | none => s

/-- The access to a status word fails now. -/
def State.statusFails (s : State) (ck : Nat) (c : Card) : Bool :=
  c.stAddr != 0 && match s.jobPlace ck c c.stAddr 8 false true with
    | .fail _ => true
    | _ => false

/-- JOB_STATUS_FAIL (R455): no status word, no pulse; a fault event of kind 2 with the word's address. -/
def State.onStatusFail (s : State) (ck id : Nat) : State :=
  match s.cardOf ck id with
  | some c => if c.started ∧ s.statusFails ck c then (s.jobFault ck c c.stAddr).endCard ck id else s
  | none => s

/-! ## A copy as it goes (R77, R214, R215) -/

/-- Elements that move together: contiguous at both ends, within one line of each, at most what is left of the run. -/
def Card.chunk (c : Card) (src dst : Word) : Nat :=
  let e : Nat := 2 ^ c.esz
  match c.dims with
  | d :: _ =>
    if d.sstr = (e : Int) ∧ d.dstr = (e : Int) then
      min (d.cnt - c.pos % d.cnt) (min ((64 - src.toNat % 64) / e) ((64 - dst.toNat % 64) / e))
    else 1
  | [] => 1

/-- The logical core that a context core stands for, whichever core hosts it (R146). -/
def State.placeOfCk (s : State) (ck : Nat) : Nat := 4 * (s.clusterOfCk ck).getD 0 + ck % 4

/-- The receivers of a multicast copy: context cores of the region (R215). -/
def State.receivers (s : State) (ck : Nat) (c : Card) : List Nat :=
  let r := regionOfCk ck
  if c.mdev then (List.range (s.ncores ck)).filterMap fun n => if c.mask.getLsbD n then some (mkCk r n) else none
  else (List.range 4).filterMap fun j => if c.mask.getLsbD j then some (ck / 4 * 4 + j) else none

/-- A transfer of a copy to another tile: sent with a copy allowance of its destination, else it waits for one, and only the
transfers to that destination with it (R171); one to a partition that is not resident waits for it (R205). -/
def State.landSend (s : State) (ck id : Nat) (m : Msg) : State :=
  let me := (s.coreOfCk ck).getD 0
  match s.coreOfCk m.ck with
  | some d =>
    if 2 ≤ Tbl.get 0 (s.core me).allowUsed d then s.modCard ck id fun y => { y with toLand := y.toLand ++ [m] }
    else s.sendSpwr me { m with src := me, dst := d }
  | none => s.modCard ck id fun y => { y with toLand := y.toLand ++ [m] }

/-- The transfers that wait for an allowance are tried again, oldest first. -/
def State.landHeld (s : State) (ck id : Nat) (l : List Msg) : State :=
  foldS (fun m (s : State) => s.landSend ck id m) l (s.modCard ck id fun y => { y with toLand := [] })

/-- Lands bytes of a copy in a pool: of the issuing core's own tile, or of another. -/
def State.landBytes (s : State) (ck id : Nat) (c : Card) (k off : Nat) (l : List Byte) (bad : Bool) : State :=
  if s.coreOfCk k = some ((s.coreOfCk ck).getD 0) then
    let s := s.poolWrite k off l
    let s := if bad then s.poolMark k off l.length else s
    if c.bar = 0xFFFF then s else s.barCount k c.bar l.length
  else
    let r := s.newTx ((s.coreOfCk ck).getD 0)
    (r.1.modCard ck id fun y => { y with outstanding := y.outstanding ++ [r.2] }).landSend ck id
      { txid := r.2, thread := slotOfTk c.tk, region := regionOfCk ck, ck := k, srcCk := ck, poff := off, len := l.length,
                       data := some (vecOfBytes l), poison := bad, bar := c.bar, nobar := c.bar == 0xFFFF }

/-- Two ranges overlap (R217). -/
def Range.hits (a b : Range) : Bool := a.ck == b.ck && overlap a.base a.len b.base b.len

/-- The `n` bytes from `dst` are also bytes of the copy's source: what lands there is unpredictable (R214). -/
def Card.wild (c : Card) (dst : Word) (n : Nat) : Bool :=
  (c.reads.any fun r => c.writes.any r.hits) && (List.range (dimTotal c.dims)).any fun j =>
    overlap dst.toNat n (c.src + BitVec.ofInt 64 (dimAddr CopyDim.sstr c.dims j)).toNat (2 ^ c.esz)

/-- Poisoned data were read: a copy that has not failed completes with POISON and the address of the first of them (R30, R90). -/
def Card.readPoison (c : Card) (va : Nat) : Card := if c.status = 0 then { c with status := 1, failAddr := va } else c

/-- The lines of a memory destination bypass the slices (NOALLOC, R213): their data go to DRAM at once. -/
def State.bypass (s : State) (pa n : Nat) : State :=
  foldS (fun line (s : State) => s.dropLine (homeOf line) line) ((List.range ((pa + n - 1) / 64 + 1 - pa / 64)).map (pa / 64 + ·)) s

/-- The next elements of a copy. -/
def State.copyStep (s : State) (ck : Nat) (c : Card) : State :=
  let id := c.id
  let again (s : State) : State := s.later (.jobCardStart ck id)
  let free := s.free
  let me := (s.coreOfCk ck).getD 0
  let src := c.src + BitVec.ofInt 64 (dimAddr CopyDim.sstr c.dims c.pos)
  let dst := c.dst + BitVec.ofInt 64 (dimAddr CopyDim.dstr c.dims c.pos)
  let k := c.chunk src dst
  let n := k * 2 ^ c.esz
  let stop (s : State) (st : Nat) (a : Word) : State :=
    again (s.modCard ck id fun y => { y with status := st, failAddr := a.toNat, x := {} })
  let moved (s : State) : State := again (s.modCard ck id fun y => { y with pos := y.pos + k, x := {} })
  let poisoned (s : State) (bad : Bool) : State :=
    if bad then s.modCard ck id fun y => y.readPoison src.toNat else s
  let pause (s : State) : State := s.modCard ck id fun y => { y with paused := true }
  -- delivery of the bytes read
  let deliver (s : State) (l : List Byte) (bad : Bool) : State :=
    let l := if c.wild dst n then (List.range n).map fun i => Config.freeByte (s.free + i) else l
    let s := if c.wild dst n then { s with free := s.free + n } else s
    let s' := poisoned s bad
    if c.mc then
      match s.spDecode ck dst with
      | none => stop s 3 dst
      | some (_, off) =>
        if off < barTableEnd ∨ s.spLimit ck < off + n then stop s 3 dst
        else moved (foldS (fun k (s : State) => s.landBytes ck id c k off l bad) (s.receivers ck c) s')
    else match s'.jobPlace ck c dst n false true with
      | .fail st => stop s st dst
      | .wait s => pause s
      | .pool k off => moved (s'.landBytes ck id c k off l bad)
      | .mem s' pa => match s'.cohPut me pa l bad with
        | .ok s => moved (if c.noalloc then s.bypass pa n else s)
        | .error u => again { u with free := free }
  match s.jobPlace ck c src n true false with
  | .fail st => stop s st src
  | .wait s => pause s
  | .pool q off => deliver s (leBytes n (s.poolRead q off n)) (s.poolPoison q off n).isSome
  | .mem s pa =>
    if c.mc then
      match s.spDecode ck dst with
      | none => stop s 3 dst
      | some (_, off) =>
        if off < barTableEnd ∨ s.spLimit ck < off + 64 then stop s 3 dst
        else
          let r := s.newTx me
          let mask := (s.receivers ck c).foldl (fun (m : BitVec 64) q => m ||| ((1 : BitVec 64) <<< s.placeOfCk q)) 0
          let m : Msg := { src := me, dst := homeId (homeOf (pa / 64)), txid := r.2, line := pa / 64, poff := off / 64, mask := mask,
                           bar := c.bar % 512, nobar := c.bar == 0xFFFF, region := regionOfCk ck, ck := ck, srcCk := ck }
          moved ((r.1.modCard ck id fun y =>
            { y with outstanding := y.outstanding ++ [r.2], mcSrc := y.mcSrc ++ [(r.2, src.toNat)] }).later (.mcrd m))
    else match s.cohBytes me pa n with
      | .ok (s, l, bad) => deliver s l bad.isSome
      | .error s => again s

/-! ## Starting a card (R217) -/

/-- Card A holds back card B, issued or launched after it (R217). -/
def Card.before (a b : Card) : Bool :=
  a.held.isNone && decide (a.seq < b.seq) &&
    ((a.writes.any fun w => (b.reads.any w.hits) || b.writes.any w.hits) || a.reads.any fun r => b.writes.any r.hits)

/-- A matrix long operation waits in its core's queue at the unit. -/
def State.mlongQueued (s : State) (ck id : Nat) : Bool :=
  match s.clusterOfCk ck with
  | some c => (Tbl.get [] (s.clu c).mxQueue (ck % 4)).any fun r => r.op == .long id
  | none => false

/-- A started card goes on: the next elements of a copy, which keeps at most 1024 of the tags of R45 in use
(notes/assumptions/153.md), the request of a matrix long operation, the job of bank compute. -/
def State.runCard (s : State) (ck : Nat) (c : Card) : State :=
  match c.kind with
  | .copy =>
    let s := s.landHeld ck c.id c.toLand
    if c.copyOver then s.laterOnce (.copyJobComplete ck c.id)
    else if dimTotal c.dims ≤ c.pos ∨ 2 ≤ c.status ∨ 1024 ≤ c.outstanding.length then s
    else s.copyStep ck c
  | .mlong =>
    if c.count ≤ c.pos ∨ c.status ≠ 0 then s.laterOnce (.mlongComplete ck c.id)
    else if s.mlongQueued ck c.id then s
    else s.mxQueuePut ck { id := c.id, op := .long c.id, ck := ck, tk := c.tk, fmt := c.fmt, ct0 := c.ct0, ct1 := c.ct1 }
  | .bmv => s.laterOnce (.bmvJobStart c.job)

/-- JOB_CARD_START (R217): a queued card starts once no earlier card of an overlapping footprint is left; a card that has
started goes on. A card of a context that is halting or not resident waits (R140). -/
def State.onCardStart (s : State) (ck id : Nat) : State :=
  match s.cardOf ck id with
  | none => s
  | some c =>
    if c.held.isSome ∨ (s.coreOfCk ck).isNone ∨ s.halting ck then s
    else if c.started then s.runCard ck { c with paused := false }
    else if (s.cx ck).cards.any fun a => a.before c then s
    else (s.modCard ck id fun y => { y with started := true }).runCard ck { c with started := true }

/-! ## Flumes (R211, R212, R392, R393) -/

/-- The pattern of a record of 32 bytes. -/
def flumeOf (b : Nat) : Flume :=
  { base := bits b 0 21, out := bits b 21 1 == 1, cnt := (List.range 4).map fun d => bits b (64 + 48 * d) 16
    str := (List.range 4).map fun d => toSigned 24 (bits b (80 + 48 * d) 24) }

/-- The trap of a pattern record (R211). -/
def State.flumeTrap (s : State) (ck b : Nat) : Option Nat :=
  let f := flumeOf b
  let span := (f.cnt.zip f.str).foldl (fun (a : Int × Int) d =>
    let e := ((d.1 - 1 : Nat) : Int) * d.2; (a.1 + min 0 e, a.2 + max 0 e)) ((0 : Int), (0 : Int))
  let reserved : Bool := bits b 22 42 != 0 || (List.range 4).any fun d => bits b (104 + 48 * d) 8 != 0
  if f.base % 8 ≠ 0 ∨ (f.str.any fun x => x % 8 != 0) then some Cause.align
  else if reserved ∨ (f.cnt.any (· == 0)) ∨ (f.base : Int) + span.1 < s.generalBase ck ∨ (s.slotBase ck : Int) < f.base + span.2 + 64 then
    some Cause.access
  else none

/-- R392, fbind: `k` names fk. -/
def execFbind (_p : Bool) (k : BitVec 3) (a : BitVec 5) : State → Host.Outcome State Fault Refusal :=
  issueC { n := { gs := [a.toNat] }, hidV := [24 + k.toNat], mem := true } fun v s =>
    let tk := s.unit.tk
    let ck := ckOfTk tk
    let x := v.rg a.toNat
    match s.recordAt ck x 32 32 with
    | .error c => .trap c x
    | .ok off =>
      match s.thr tk with
      | none => .wait s .ready none
      | some t =>
        if t.flumes.any fun e => e.1 == k.toNat then .trap Cause.port (word (16 + k.toNat))
        else if s.jobHolds tk (.pool ck off) 32 false then .wait s .ready none
        else match s.poolPoison ck off 32 with
        | some o => .trap Cause.poison (deviceForm ck o)
        | none => match s.flumeTrap ck (s.poolRead ck off 32) with
          | some c => .trap c x
          | none =>
            let f := flumeOf (s.poolRead ck off 32)
            let n := s.free
            let s := { s with free := n + 1 }
            let s := s.modThr tk fun t => { t.wv (24 + k.toNat) (Config.freeVec n) with flumes := t.flumes ++ [(k.toNat, f)] }
            .done (if f.out then s else s.laterOnce (.flumeTransfer tk k.toNat)) none

/-- R393, funbind. -/
def execFunbind (_p : Bool) (k : BitVec 3) : State → Host.Outcome State Fault Refusal :=
  issueC { hidV := [24 + k.toNat] } fun _ s =>
    let tk := s.unit.tk
    match s.thr tk with
    | none => .wait s .ready none
    | some t => match t.flumes.find? fun e => e.1 == k.toNat with
      | none => .done s none
      | some (_, f) =>
        let s := if f.out then s.drainQuiet tk k.toNat else s
        let n := s.free
        .done (({ s with free := n + 1 }).modThr tk fun t =>
          { t.wv (24 + k.toNat) (Config.freeVec n) with flumes := t.flumes.filter fun e => e.1 != k.toNat }) none

/-- FLUME_TRANSFER (R212): one entry is prefetched into an in-flume's queue or written from an out-flume's. -/
def State.onFlume (s : State) (tk k : Nat) : State :=
  match s.thr tk with
  | none => s
  | some t => match t.flumes.find? fun e => e.1 == k with
    | none => s
    | some (_, f) =>
      let ck := ckOfTk tk
      let put (s : State) (g : Flume) : State :=
        s.modThr tk fun t => { t with flumes := mapIf (fun e => e.1 == k) (fun e => (e.1, g)) t.flumes }
      let wake (s : State) : State := s.modThr tk fun t => if t.st = .sync ∧ t.park.isNone then t.woken else t
      match t.place with
      | .inSlot _ =>
        if f.out then
          match f.queue with
          | [] => s
          | x :: rest =>
            let s := wake (put (s.poolWrite ck (f.addr f.pos) (bytesOfVec x)) { f with queue := rest, pos := f.pos + 1 })
            if f.pos + 1 = f.total then s.pulse ck 5 k else if rest.isEmpty then s else s.laterOnce (.flumeTransfer tk k)
        else if f.queue.length < 4 ∧ f.pos < f.total then
          let x : Vec := BitVec.ofNat 512 (s.poolRead ck (f.addr f.pos) 64)
          let bad := (s.poolPoison ck (f.addr f.pos) 64).map (deviceForm ck)
          let s := wake (put s { f with queue := f.queue ++ [x], bad := f.bad ++ [bad], pos := f.pos + 1 })
          if f.queue.length + 1 < 4 ∧ f.pos + 1 < f.total then s.laterOnce (.flumeTransfer tk k) else s
        else s
      | _ => s

/-! ## The sluice board (R222, R223, R394) -/

/-- R394, sbpulse: a release, applied once the thread's earlier accesses are performed. -/
def execSbpulse (_p : Bool) (a : BitVec 5) : State → Host.Outcome State Fault Refusal :=
  issueC { n := { gs := [a.toNat] } } fun v s =>
    let tk := s.unit.tk
    let ck := ckOfTk tk
    let x := v.rg a.toNat
    match s.thr tk with
    | none => .wait s .ready none
    | some t =>
      if !t.performed then .wait s .ready none
      else .done ((s.modCx ck fun c => { c with sbcnt := Tbl.upd 0 c.sbcnt (field x 0 5) fun w => countPulse w (field x 8 8) }).sluiceCheck ck)
        none

/-- R394, sbclr. -/
def execSbclr (_p : Bool) (a : BitVec 5) : State → Host.Outcome State Fault Refusal :=
  issueC { n := { gs := [a.toNat] } } fun v s =>
    let x := v.rg a.toNat
    .done (s.modCx (ckOfTk s.unit.tk) fun c => { c with
      sbcnt := (List.range 32).foldl (fun t i =>
        if x.getLsbD i then Tbl.upd 0 t i fun w => setField (setField w 0 16 0) 32 1 0 else t) c.sbcnt }) none

/-- The action of an outlet (R222). -/
def State.outletAct (s : State) (ck o : Nat) : State :=
  let w := Tbl.get 0 (s.cx ck).sbout o
  let arg := field w 32 10
  match field w 24 3 with
  | 1 => match heldHead (s.cx ck) arg with
    | some c =>
      (s.tickClock.modCard ck c.id fun y => { y with held := none, seq := s.clock }).later (.jobCardStart ck c.id)
    | none => s
  | 2 =>
    let tk := mkTk ck (arg % 16)
    (s.modThr tk fun t => { t with wakes := t.wakes ||| (1#16 <<< o) }).laterOnce (.dispatch ck)
  | 3 =>
    let rc := field w 32 6
    if s.ncores ck ≤ rc then s
    else
      let me := (s.coreOfCk ck).getD 0
      let k := mkCk (regionOfCk ck) rc
      let m : Msg := { src := me, dst := (s.coreOfCk k).getD 0, len := 8, data := some (BitVec.ofNat 512 (o + 256 * me)), thread := 0,
                       region := regionOfCk ck, ck := k, srcCk := ck, delivery := deliveryField 0 true 0, ctag := 1 }
      (s.countInj me (regionOfCk ck)).later (.userMessage m)
  | _ => s

/-- SLUICE_OUTLET_FIRE (R223): the outlet's true term is subtracted, its action follows, and pulse source 7 counts it. -/
def State.onOutlet (s : State) (ck o : Nat) : State :=
  match outletFires (s.cx ck) o with
  | none => s
  | some term => (((s.modCx ck fun x => subtractTerm x term).outletAct ck o).pulse ck 7 o).sluiceCheck ck

end Sys2Proof.Machine
end

