-- ==== Sys2Proof/Machine/Capsules.lean ====
section
/-!
DEFINITION. Capsules: images and slips (R271, R272), sending (R273 to R276, R281), landing slots (R277), dead letters and their
box (R279, R280), and the capsule instructions (R396, R397).
-/

namespace Sys2Proof.Machine

/-! ## Images (R271) -/

/-- A capsule header and slip: the first 256 bytes of an image, as a number. -/
abbrev CapHead := Nat

def capRegion (h : CapHead) : Nat := bits h 32 8
def capPos (h : CapHead) : Nat := bits h 48 8
def capNslip (h : CapHead) : Nat := bits h 56 8
def capTlen (h : CapHead) : Nat := bits h 96 16
def capHops (h : CapHead) : Nat := bits h 112 8
def capOwner (h : CapHead) : Nat := bits h 120 6
def capId (h : CapHead) : Nat := bits h 0 32
def capNodlb (h : CapHead) : Bool := bits h 193 1 == 1
/-- Slip entry `i`. -/
def capSlip (h : CapHead) (i : Nat) : Nat := bits h (512 + 64 * i) 64

/-- A reserved field of the header is set. -/
def capReserved (h : CapHead) : Bool := bits h 45 3 != 0 || bits h 126 2 != 0 || bits h 194 62 != 0

/-- A slip entry that R275 does not accept: reserved DKIND or bits, or OP 0xFFF (R272). -/
def entryBad (e : Nat) : Bool :=
  let k := bits e 12 3
  decide (3 < k) || bits e 15 1 != 0 || bits e 22 10 != 0 || bits e 0 12 == 0xFFF || (k == 1 && bits e 20 2 != 0) ||
    (decide (2 ≤ k) && bits e 16 6 != 0)

/-- The entry that CAPRET stands for (R276). -/
def capretEntry : Nat := 0x3FFF

/-- Where an image of `n` bytes lies for a thread: its pool offset, and the landing slot that the thread holds. -/
def State.imageAt (s : State) (tk : Nat) (t : Thread) (a : Word) (n : Nat) : Option (Nat × Option Nat) :=
  let ck := ckOfTk tk
  if !isSp a ∨ a.toNat % 64 ≠ 0 then none
  else match s.spDecode ck a with
    | none => none
    | some (c, off) =>
      if c ≠ ck then none
      else if s.generalBase ck ≤ off ∧ off + n ≤ s.slotBase ck then some (off, none)
      else match s.slotOfOff ck off with
        | some k => if t.holds = some k ∧ off + n ≤ s.slotBase ck + granule * (k + 1) then some (off, some k) else none
        | none => none

/-! ## Landing slots (R169, R277) -/

/-- A free slot of a context core. -/
def State.freeLanding (s : State) (ck : Nat) : Option Nat :=
  (List.range (pwSlots (s.poolwordOf ck))).find? fun k => (Tbl.get {} (s.cx ck).slots k).st == .free

/-- Reserves a slot for a transfer and sends GRANT. -/
def State.grantSlot (s : State) (ck k : Nat) (l : LreqWait) : State :=
  let s := s.modCx ck fun x => { x with
    slots := Tbl.put {} x.slots k { st := .reserved, src := l.src, srcCk := l.srcCk, ctag := l.ctag, length := l.length, ret := l.ret } }
  s.later (.grant { src := (s.coreOfCk ck).getD 0, dst := l.src, ctag := l.ctag, slot := k, ck := l.srcCk, srcCk := ck, region := regionOfCk ck })

/-- Grants a free slot to the oldest queued LREQ. -/
def State.grantOldest (s : State) (ck : Nat) : State :=
  match (s.cx ck).lreqs, s.freeLanding ck with
  | l :: rest, some k => (s.modCx ck fun x => { x with lreqs := rest }).grantSlot ck k l
  | _, _ => s

/-- Grants the free slots of a context core, at most four (R133), to its queued LREQs in the order of their arrival (R169). -/
def State.grantQueued (s : State) (ck : Nat) : State := foldS (fun _ (s : State) => s.grantOldest ck) (List.range 4) s

/-- A slot becomes FREE: it is granted to the oldest queued LREQ. -/
def State.releaseSlot (s : State) (ck k : Nat) : State :=
  (s.modCx ck fun x => { x with slots := Tbl.put {} x.slots k {} }).grantOldest ck

/-! ## Dead letters (R279, R280) -/

/-- The fault record of R280 for a capsule whose POS is `pos`. -/
def DeadLetter.record (d : DeadLetter) (pos rc : Nat) : List Byte :=
  leBytes 1 d.cause ++ leBytes 1 d.reason ++ leBytes 1 pos ++ leBytes 1 rc ++ leBytes 1 d.holder ++ leBytes 1 d.code ++ leBytes 2 0 ++
    leBytes 8 d.pc.toNat ++ leBytes 8 d.val.toNat ++ leBytes 8 0

/-- The image of a dead letter: its bytes with the record and FREC written. -/
def DeadLetter.mark (d : DeadLetter) (rc : Nat) (l : List Byte) : List Byte :=
  l.take 0x18 ++ [(l.getD 0x18 0) ||| 1] ++ (l.take 0x20).drop 0x19 ++ d.record (l.getD 6 0).toNat rc ++ l.drop 0x40

/-- Pool offset of the image of a dead letter. -/
def State.deadOff (s : State) (ck : Nat) (d : DeadLetter) : Nat :=
  match d.slot with
  | some k => s.slotBase ck + granule * k
  | none => d.off

/-- The bytes of a dead letter's image. -/
def State.deadImage (s : State) (ck : Nat) (d : DeadLetter) : List Byte :=
  match d.image with
  | some l => l
  | none =>
    let off := s.deadOff ck d
    let n := 256 + min 16384 (s.poolRead ck (off + 12) 2)
    leBytes n (s.poolRead ck off n)

/-- A dead letter ends: its slot is FREE again, and the fault event of kind 3 follows (R279, R144). -/
def State.deadEnd (s : State) (ck : Nat) (d : DeadLetter) (val : Word) : State :=
  let s := s.modCx ck fun x => { x with dead := x.dead.filter fun (y : DeadLetter) => y.id != d.id }
  let s := match d.slot with
    | some k => s.releaseSlot ck k
    | none => s
  s.faultEvent (regionOfCk ck) { cause := Cause.capsule, kind := 3, lin := d.lin, pc := d.pc, val := val }

/-- Translation of the box's addresses: the region's PASID, in user mode. -/
def State.xlatDead (s : State) (ck : Nat) (d : DeadLetter) (va : Nat) : XRes :=
  match s.pasidOf ck with
  | some p => s.translate { w := .dead ck d.id, cluster := s.clusterOfCk ck, pasid := p, r := true, wr := true } va
  | none => .fault Cause.access

/-- Translates every page of a byte range; the physical address of each page's first byte in the range. -/
def State.pagesFor (f : State → Nat → XRes) : State → List Nat → Except XRes (State × List Nat)
  | s, [] => .ok (s, [])
  | s, va :: l => match f s va with
    | .pa s pa => match State.pagesFor f s l with
      | .ok (s, q) => .ok (s, pa :: q)
      | .error e => .error e
    | r => .error r

/-- The first addresses of the pages of a byte range. -/
def pageStarts (va n : Nat) : List Nat :=
  (List.range ((va + n + 4095) / 4096 - va / 4096)).map fun i => if i = 0 then va else (va / 4096 + i) * 4096

/-- Bytes that span pages, cut at the pages' ends: each part with its physical address. -/
def cutPages : List (Nat × Nat) → List Byte → List (Nat × List Byte)
  | [], _ => []
  | (v, pa) :: l, b =>
    let n := min b.length (4096 - v % 4096)
    (pa, b.take n) :: cutPages l (b.drop n)

/-- DEAD_LETTER (R279): the record is written into the image; then the image goes to the box, or is discarded. -/
def State.onDeadLetter (s : State) (ck id : Nat) : State :=
  match (s.cx ck).dead.find? fun (d : DeadLetter) => d.id == id with
  | none => s
  | some d =>
    let again (s : State) : State := s.later (.deadLetter ck id)
    let me := (s.coreOfCk ck).getD 0
    if !d.marked then
      let l := d.mark (rcOfCk ck) (s.deadImage ck d)
      let s := match d.image with
        | some _ => s
        | none => s.poolWrite ck (s.deadOff ck d) (l.take 64)
      let done (y : DeadLetter) : DeadLetter := { y with marked := true, image := if d.image.isSome then some l else none }
      again (s.modCx ck fun x => { x with dead := mapIf (fun (y : DeadLetter) => y.id == id) done x.dead })
    else
      let img := s.deadImage ck d
      let v := s.valsOf ck
      let log := min v.dlblog 10
      if capNodlb (leNat (img.take 256)) ∨ v.dlbva = 0 then s.deadEnd ck d 0
      else match s.xlatDead ck d v.dlbva with
        | .fault _ => s.deadEnd ck d (word v.dlbva)
        | .wait s _ => s
        | .pa s ctl => match s.cohBytes me ctl 24 with
          | .error s => again s
          | .ok (s', l, _) =>
            let written := leNat (l.take 8)
            let read := leNat ((l.drop 8).take 8)
            let dropped := leNat (l.drop 16)
            if 2 ^ log ≤ (written + 2 ^ 64 - read) % 2 ^ 64 then
              match s'.cohPut me (ctl + 16) (leBytes 8 (dropped + 1)) false with
              | .ok s => s.deadEnd ck d 0
              | .error s => again s
            else
              let rec_ := v.dlbva + 4096 + 32768 * (written % 2 ^ log)
              let starts := pageStarts rec_ img.length
              match State.pagesFor (fun s va => s.xlatDead ck d va) s starts with
              | .error (.fault _) => s.deadEnd ck d (word rec_)
              | .error (.wait s _) => s
              | .error (.pa s _) => s
              | .ok (s, pas) =>
                match s.cohPuts me (cutPages (starts.zip pas) img ++ [(ctl, leBytes 8 (written + 1))]) false with
                | .ok s => s.deadEnd ck d (word rec_)
                | .error s => again s

/-- Dead-letters the capsule of a sending thread: from its slot, or a copy of the image in general scratchpad. -/
def State.deadSend (s : State) (tk off : Nat) (slot : Option Nat) (reason : Nat) (val : Word) : State :=
  let ck := ckOfTk tk
  let d : DeadLetter := { reason := reason, cause := Cause.capsule, holder := slotOfTk tk, pc := s.unit.addr, val := val,
                          lin := match s.thr tk with | some t => t.lin | none => 0xFFFFFFFF }
  match slot with
  | some k => (s.deadSlot ck k d).modThr tk fun t => { t with holds := none }
  | none =>
    let n := 256 + s.poolRead ck (off + 12) 2
    let l := d.mark (rcOfCk ck) (leBytes n (s.poolRead ck off n))
    (s.poolWrite ck off (l.take 64)).startDead ck { d with off := off, image := some l, marked := true }

/-! ## Destinations (R273, R281) -/

/-- The context core that an entry names, and the counter of DKIND 1 to advance; `none` where R273 resolves nothing. -/
def State.capDest (s : State) (ck : Nat) (h : CapHead) (e : Nat) : Option (Nat × Option Nat) :=
  let here (n : Nat) : Option Nat := if n < s.ncores ck then some (mkCk (regionOfCk ck) n) else none
  match bits e 12 3 with
  | 0 => (here (bits e 16 6)).map fun k => (k, none)
  | 1 =>
    let p := bits e 16 4
    (here (4 * p + (Tbl.get 0 (s.cx ck).capCtr p + capId h) % 4)).map fun k => (k, some p)
  | 2 =>
    let a : Word := word (2 ^ 64 - 2 ^ 32 + bits e 32 32)
    if isSp a ∧ (field a 28 2 = 1 ∨ field a 28 2 = 2) then (s.spDecode ck a).map fun r => (r.1, none) else none
  | 3 => (here (capOwner h)).map fun k => (k, none)
  | _ => none

/-- A destination that exists but cannot take a capsule, or takes none from the thread in issue (R281). -/
def State.unreachable (s : State) (k : Nat) : Bool :=
  pwSlots (s.poolwordOf k) == 0 || (s.thr s.unit.tk).any (·.fenced) ||
  (match s.region (regionOfCk k) with
    | some r => r.st == .ended || r.st == .faulted
    | none => true) ||
  match s.coreOfCk k with
    | some c => (s.core c).out
    | none => false

/-! ## Sending (R274 to R276) -/

/-- A free CTAG of an interface. -/
def freshCtag (l : List OutCap) : Nat := ((List.range 9).find? fun n => l.all fun (o : OutCap) => o.ctag != n).getD 0

/-- Hands an image to the interface, which sends LREQ. -/
def State.handOver (s : State) (tk la off : Nat) (slot : Option Nat) (dst entry : Nat) (ret : Bool) : State :=
  let ck := ckOfTk tk
  let n := 256 + s.poolRead ck (off + 12) 2
  let r : State × Option Nat := match slot with
    | some k => ((s.modCx ck fun x => { x with slots := Tbl.upd {} x.slots k fun y => { y with st := .sending, holder := none } }).modThr tk
        fun t => { t with holds := none }, none)
    | none =>
      let p := s.addPend tk la { kind := .capsule, lanes := [{}], upc := s.unit.addr }
      (p.1, some p.2)
  let s := r.1
  let tag := freshCtag (s.cx ck).outcaps
  let o : OutCap := { ctag := tag, off := off, slot := slot, tk := tk, pend := r.2, length := n, dstCk := dst, entry := word entry,
                      header := leBytes 256 (s.poolRead ck off 256) }
  let me := (s.coreOfCk ck).getD 0
  let m : Msg := { src := me, dst := (s.coreOfCk dst).getD 0, ctag := tag, length := n, region := regionOfCk ck, ck := dst, srcCk := ck,
                   sub := bitOf ret }
  ((s.modCx ck fun x => { x with outcaps := x.outcaps ++ [o] }).countInj me (regionOfCk ck)).later (.lreq m)

/-- CAPSEND and CAPRET after the checks: the entry's destination, then the interface. -/
def State.sendEntry (s : State) (tk la off : Nat) (slot : Option Nat) (h : CapHead) (e : Nat) (ret : Bool) : State :=
  let ck := ckOfTk tk
  match s.capDest ck h e with
  | none => s.deadSend tk off slot 4 (word e)
  | some (k, ctr) =>
    if s.unreachable k then s.deadSend tk off slot 4 (word e)
    else
      let s := match ctr with
        | some p => s.modCx ck fun x => { x with capCtr := Tbl.upd 0 x.capCtr p fun n => (n + 1) % 4 }
        | none => s
      s.handOver tk la off slot k e ret

/-- CAPSEND and CAPRET (R274 to R276). -/
def State.capsend (s : State) (a : Word) (la : Nat) (ret : Bool) : CRes :=
  let tk := s.unit.tk
  let ck := ckOfTk tk
  match s.thr tk with
  | none => .wait s .ready none
  | some t => match s.imageAt tk t a 256 with
    | none => .trap Cause.capsule a
    | some (off, _) =>
      let h := s.poolRead ck off 256
      let pos := capPos h
      let e := if ret then capretEntry else capSlip h pos
      match s.imageAt tk t a (256 + capTlen h) with
      | none => .trap Cause.capsule a
      | some (_, slot) =>
        if capTlen h % 64 ≠ 0 ∨ 16384 < capTlen h ∨ 24 < capNslip h ∨ capNslip h < pos ∨ capReserved h ∨
            (!ret ∧ pos < capNslip h ∧ entryBad e) then .trap Cause.capsule a
        else match s.poolPoison ck off 256 with
        | some o => .trap Cause.poison (deviceForm ck o)
        | none =>
          if !t.performed ∨ 8 ≤ (s.cx ck).outcaps.length ∨ s.jobHolds tk (.pool ck off) (256 + capTlen h) true then .wait s .ready none
          else if !ret ∧ pos = capNslip h then .done (s.deadSend tk off slot 3 0) none
          else if capHops h = 255 then .done (s.deadSend tk off slot 5 0) none
          else
            let s := s.poolWrite ck (off + 4) (leBytes 1 (regionOfCk ck))
            let s := if ret then s else s.poolWrite ck (off + 6) (leBytes 1 (pos + 1))
            .done (s.sendEntry tk la off slot h e ret) none

/-- R274, capsend. -/
def execCapsend (_p : Bool) (a : BitVec 5) (l : BitVec 4) : State → Host.Outcome State Fault Refusal :=
  issueC { n := { gs := [a.toNat] }, mem := true, la := true } fun v s => s.capsend (v.rg a.toNat) l.toNat false

/-- R276, capret. -/
def execCapret (_p : Bool) (a : BitVec 5) : State → Host.Outcome State Fault Refusal :=
  issueC { n := { gs := [a.toNat] }, mem := true, la := true } fun v s => s.capsend (v.rg a.toNat) 0 true

/-- The slot that the thread holds and whose start an address names (R396). -/
def State.heldStart (s : State) (tk : Nat) (t : Thread) (a : Word) : Option Nat :=
  match s.imageAt tk t a 64 with
  | some (off, some k) => if off = s.slotBase (ckOfTk tk) + granule * k then some k else none
  | _ => none

/-- R276, capdrop. -/
def execCapdrop (_p : Bool) (a : BitVec 5) : State → Host.Outcome State Fault Refusal :=
  issueC { n := { gs := [a.toNat] }, mem := true } fun v s =>
    let tk := s.unit.tk
    match s.thr tk with
    | none => .wait s .ready none
    | some t => match s.heldStart tk t (v.rg a.toNat) with
      | none => .trap Cause.capsule (v.rg a.toNat)
      | some k => .done ((s.modThr tk fun t => { t with holds := none }).releaseSlot (ckOfTk tk) k) none

/-- R396, capdead. -/
def execCapdead (_p : Bool) (a b : BitVec 5) : State → Host.Outcome State Fault Refusal :=
  issueC { n := { gs := [a.toNat, b.toNat] }, mem := true } fun v s =>
    let tk := s.unit.tk
    match s.thr tk with
    | none => .wait s .ready none
    | some t => match s.heldStart tk t (v.rg a.toNat) with
      | none => .trap Cause.capsule (v.rg a.toNat)
      | some _ => .done (s.deadLetterHeld tk 2 Cause.capsule s.unit.addr 0 (field (v.rg b.toNat) 0 8)) none

/-! ## Editing a slip (R397) -/

/-- A slip edit: `f` gives the value for g d and the header after it, from the header. -/
def slipOp (n : Names) (d : Option Nat) (a : BitVec 5) (f : Thread → CapHead → Option (Word × List (Nat × Nat × Nat))) :
    State → Host.Outcome State Fault Refusal :=
  issueC { n := n, mem := true } fun v s =>
    let tk := s.unit.tk
    let ck := ckOfTk tk
    let x := v.rg a.toNat
    match s.thr tk with
    | none => .wait s .ready none
    | some t => match s.imageAt tk t x 256 with
      | none => .trap Cause.capsule x
      | some (off, _) =>
        let h := s.poolRead ck off 256
        if 24 < capNslip h ∨ capNslip h < capPos h then .trap Cause.capsule x
        else match f v h with
          | none => .trap Cause.capsule x
          | some (r, writes) =>
            if s.jobHolds tk (.pool ck off) 256 true then .wait s .ready none
            else match s.poolPoison ck off 256 with
            | some o => .trap Cause.poison (deviceForm ck o)
            | none =>
              let s := foldS (fun (w : Nat × Nat × Nat) (s : State) => s.poolWrite ck (off + w.1) (leBytes w.2.1 w.2.2)) writes s
              .done (match d with | some k => s.writeG tk k r | none => s) none

/-- R397, cappop. -/
def execCappop (_p : Bool) (d a : BitVec 5) : State → Host.Outcome State Fault Refusal :=
  slipOp { gs := [a.toNat], gd := [d.toNat] } (some d.toNat) a fun _ h =>
    if capNslip h ≤ capPos h then none else some (word (capSlip h (capPos h)), [(6, 1, capPos h + 1)])

/-- R397, cappush. -/
def execCappush (_p : Bool) (a b : BitVec 5) : State → Host.Outcome State Fault Refusal :=
  slipOp { gs := [a.toNat, b.toNat] } none a fun v h =>
    if capNslip h = 24 then none
    else some (0, ((List.range (capNslip h - capPos h)).map fun i => (0x48 + 8 * (capPos h + i), 8, capSlip h (capPos h + i))) ++
      [(0x40 + 8 * capPos h, 8, (v.rg b.toNat).toNat), (7, 1, capNslip h + 1)])

/-- R397, capset. -/
def execCapset (_p : Bool) (a b c : BitVec 5) : State → Host.Outcome State Fault Refusal :=
  slipOp { gs := [a.toNat, b.toNat, c.toNat] } none a fun v h =>
    let i := (v.rg c.toNat).toNat
    if capNslip h - capPos h ≤ i then none else some (0, [(0x40 + 8 * (capPos h + i), 8, (v.rg b.toNat).toNat)])

/-- R397, capget. -/
def execCapget (_p : Bool) (d a c : BitVec 5) : State → Host.Outcome State Fault Refusal :=
  slipOp { gs := [a.toNat, c.toNat], gd := [d.toNat] } (some d.toNat) a fun v h =>
    let i := (v.rg c.toNat).toNat
    if capNslip h - capPos h ≤ i then none else some (word (capSlip h (capPos h + i)), [])

/-- R397, capskip. -/
def execCapskip (_p : Bool) (a b : BitVec 5) : State → Host.Outcome State Fault Refusal :=
  slipOp { gs := [a.toNat, b.toNat] } none a fun v h =>
    let n := (v.rg b.toNat).toNat
    if capNslip h - capPos h < n then none else some (0, [(6, 1, capPos h + n)])

/-! ## Capsules on the network (R169, R277) -/

/-- LREQ at its destination: it joins the queue, where a free slot is granted at once to the oldest; with 64 waiting it is refused by
RET. -/
def State.onLreq (s : State) (ck : Nat) (m : Msg) : State :=
  let l : LreqWait := { src := m.src, srcCk := m.srcCk, ctag := m.ctag, length := m.length, ret := m.sub == 1 }
  if 64 ≤ (s.cx ck).lreqs.length then
    s.later (.alwRet { src := (s.coreOfCk ck).getD 0, dst := m.src, ctag := m.ctag, ck := m.srcCk, srcCk := ck, region := m.region, sub := 1 })
  else (s.modCx ck fun x => { x with lreqs := x.lreqs ++ [l] }).grantOldest ck

/-- The outgoing capsule of a context core with a tag. -/
def State.outCap (s : State) (ck tag : Nat) : Option OutCap := (s.cx ck).outcaps.find? fun (o : OutCap) => o.ctag == tag

def State.modOut (s : State) (ck tag : Nat) (f : OutCap → OutCap) : State :=
  s.modCx ck fun x => { x with outcaps := mapIf (fun (o : OutCap) => o.ctag == tag) f x.outcaps }

/-- GRANT at the sender: the chunks are sent. One that names no capsule waiting for it, or that comes during a reset of the cluster, is
returned (R172, R282, R283). -/
def State.onGrant (s : State) (ck : Nat) (m : Msg) : State :=
  let back : State := s.later (.alwRet { src := m.dst, dst := m.src, ctag := m.ctag, slot := m.slot, ck := m.srcCk, srcCk := ck, region := m.region })
  if (s.coreOfCk ck).isNone then
    (s.modOut ck m.ctag fun o => { o with refused := true }).later
      (.alwRet { src := m.dst, dst := m.src, ctag := m.ctag, slot := m.slot, ck := m.srcCk, srcCk := ck, region := m.region })
  else if (s.clusterOfCk ck).any fun k => (s.clu k).resetting then back
  else match s.outCap ck m.ctag with
    | none => back
    | some o =>
      if o.sent then back
      else
        let me := (s.coreOfCk ck).getD 0
        let n := (o.length + 63) / 64
        let s := s.modOut ck m.ctag fun o => { o with granted := some m.slot, sent := true }
        foldS (fun i (s : State) =>
          let bad : Bool := (s.poolPoison ck (o.off + 64 * i) 64).isSome
          (s.countInj me (regionOfCk ck)).later
            (.chunk { src := me, dst := m.src, ctag := m.ctag, slot := m.slot, chunk := i, last := i + 1 == n, ck := o.dstCk, srcCk := ck,
                      region := regionOfCk ck, data := some (BitVec.ofNat 512 (s.poolRead ck (o.off + 64 * i) 64)), poison := bad }))
          (List.range n) s

/-- RET: at a sender, its LREQ was refused and goes again in its time; at a destination, a grant comes back and its slot is
free for the next request (R169, R282). -/
def State.onRet (s : State) (ck : Nat) (m : Msg) : State :=
  if m.sub = 1 then (s.modOut ck m.ctag fun o => { o with refused := true }).later (.lreqResend ck m.ctag)
  else
    let sl := Tbl.get {} (s.cx ck).slots m.slot
    if sl.st = .reserved ∧ sl.srcCk = m.srcCk ∧ sl.ctag = m.ctag ∧ sl.chunks = [] then s.releaseSlot ck m.slot else s

/-- LREQ_RESEND (R169). -/
def State.onLreqResend (s : State) (ck tag : Nat) : State :=
  match s.outCap ck tag, s.coreOfCk ck with
  | some o, some me =>
    if o.refused then
      ((s.modOut ck tag fun o => { o with refused := false }).countInj me (regionOfCk ck)).later
        (.lreq { src := me, dst := (s.coreOfCk o.dstCk).getD 0, ctag := tag, length := o.length, region := regionOfCk ck, ck := o.dstCk,
                 srcCk := ck, sub := bitOf (o.entry == word capretEntry) })
    else s
  | _, _ => s

/-- A chunk lands (R277): once all have landed the slot is LANDED, HOPS advances, and CMP answers. A capsule of a FAULTED
region is dead-lettered then (R284). A chunk for a slot that is not reserved for it is discarded, and the last answered with
ERR (R283). -/
def State.onChunk (s : State) (ck : Nat) (m : Msg) : State :=
  let k := m.slot
  let sl := Tbl.get {} (s.cx ck).slots k
  let cmp (s : State) (stat : Nat) : State :=
    s.later (.cmp { src := (s.coreOfCk ck).getD 0, dst := m.src, ctag := m.ctag, ck := m.srcCk, srcCk := ck, region := m.region, stat := stat,
                    len := 1, slot := 4 })
  if sl.st ≠ .reserved ∨ sl.srcCk ≠ m.srcCk ∨ sl.ctag ≠ m.ctag then (if m.last then cmp s 1 else s)
  else
    let off := s.slotBase ck + granule * k
    let n := (sl.length + 63) / 64
    let s := s.poolWrite ck (off + 64 * m.chunk) (bytesOfVec (m.data.getD 0))
    let s := if m.poison then s.poolMark ck (off + 64 * m.chunk) 64 else s
    let sl := { sl with chunks := if sl.chunks.contains m.chunk then sl.chunks else sl.chunks ++ [m.chunk] }
    if sl.chunks.length < n then s.modCx ck fun x => { x with slots := Tbl.put {} x.slots k sl }
    else
      let s := s.poolWrite ck (off + 14) (leBytes 1 (s.poolRead ck (off + 14) 1 + 1))
      let s := s.modCx ck fun x => { x with slots := Tbl.put {} x.slots k { sl with st := .landed, order := x.landCount }, landCount := x.landCount + 1 }
      let s := cmp s 0
      match s.region (regionOfCk ck) with
      | some r => if r.st = .faulted then s.deadSlot ck k { reason := 7, cause := Cause.capsule } else s.laterOnce (.dispatch ck)
      | none => s

/-- The dead letter of a capsule whose image is lost with its cluster: the kept header, with TLEN 0 (R283). -/
def cutOff (o : OutCap) : DeadLetter :=
  { reason := 6, cause := Cause.capsule, image := some (o.header.take 12 ++ [0, 0] ++ o.header.drop 14) }

/-- The CMP of a last chunk at the sender (R277): the slot is free or the result bound; ERR dead-letters with CUTOFF. -/
def State.onCapCmp (s : State) (ck : Nat) (m : Msg) : State :=
  match s.outCap ck m.ctag with
  | none => s
  | some o =>
    let s := s.modCx ck fun x => { x with outcaps := x.outcaps.filter fun (y : OutCap) => y.ctag != m.ctag }
    let d : DeadLetter := { reason := 6, cause := Cause.capsule }
    if o.cut then (if m.stat = 0 then s else s.startDead ck (cutOff o))
    else
    let bind (s : State) : State := match o.pend with
      | some id => s.fillLane o.tk id 0 0 none
      | none => s
    match o.slot, m.stat with
    | some k, 0 => s.releaseSlot ck k
    | some k, _ => s.deadSlot ck k d
    | none, 0 => bind s
    | none, _ => bind (s.startDead ck { d with off := o.off, image := some (leBytes o.length (s.poolRead ck o.off o.length)) })

end Sys2Proof.Machine
end

