-- ==== Sys2Proof/Machine/Directory.lean ====
section
/-!
DEFINITION. Directory-service instructions (R403 to R410) and the inbox spill (R411).
-/

namespace Sys2Proof.Machine

/-! ## Operands (R403) -/

/-- A line address has bits [63:48] zero. -/
def lineBad (a : Word) : Bool := field a 48 16 != 0

def lineOf (a : Word) : Nat := field a 6 42

/-- A privileged instruction of the directory service. -/
def dsOp (n : Names) (la : Bool) (body : Thread → State → CRes) : State → Host.Outcome State Fault Refusal :=
  issueC { n := n, priv := true, la := la } body

/-! ## Reading and probing (R406, R409) -/

/-- The record of a node as DSREAD returns it: R50 in bytes 0 to 15, and byte 16 set to 1. -/
def nodeRecord (x : Slice) (n : Node) : Vec :=
  let st : Nat := match n.st with | .unc => 0 | .shr => 1 | .own => 2 | .bcast => 3
  let sh (i : Nat) : Nat := n.sh.getD i 0
  BitVec.ofNat 512 (n.region % 2 ^ 32 + n.level * 2 ^ 32 + n.path * 2 ^ 36 + st * 2 ^ 46 + bitOf n.ovf * 2 ^ 48 +
    bitOf (x.nodeBusy n) * 2 ^ 49 + bitOf (x.nodePinned n) * 2 ^ 50 + n.ver.toNat * 2 ^ 52 +
    (if n.st = .own then n.owner else 0) * 2 ^ 64 + sh 0 * 2 ^ 72 + sh 1 * 2 ^ 80 + sh 2 * 2 ^ 88 + sh 3 * 2 ^ 96 +
    n.sh.length * 2 ^ 104 + 2 ^ 128)

/-- R409, dsread. -/
def execDsread (_p : Bool) (d a : BitVec 5) (_l : BitVec 4) : State → Host.Outcome State Fault Refusal :=
  dsOp { gs := [a.toNat], vd := [d.toNat] } true fun v s =>
    let x := v.rg a.toNat
    if lineBad x then .trap Cause.access x
    else
      let h := s.sl (homeOf (lineOf x))
      .done (s.bindFin s.unit.tk (.vec d.toNat) (match h.node (lineOf x) with
        | some n => nodeRecord h n
        | none => 0)) none

/-- R406, dsprobe. -/
def execDsprobe (_p : Bool) (d a b : BitVec 5) (l : BitVec 4) : State → Host.Outcome State Fault Refusal :=
  dsOp { gs := [a.toNat, b.toNat], gd := [d.toNat] } true fun v s =>
    let x := v.rg a.toNat
    let y := v.rg b.toNat
    let agent := field x 0 8
    if field x 16 48 ≠ 0 ∨ 0x50 ≤ agent then .trap Cause.access x
    else if lineBad y then .trap Cause.access y
    else
      let line := lineOf y
      let p := s.addPend s.unit.tk l.toNat { kind := .dirsvc, dsts := [.g d.toNat], fin := .gz d.toNat 8, lanes := [{}], upc := s.unit.addr }
      .done (p.1.openTxn (homeOf line) { kind := .dsprobe, line := line, tk := s.unit.tk, pend := p.2 } .sinv [(agent, line)]
        (BitVec.ofNat 8 (field x 8 8))) none

/-! ## Completions (R407, R408) -/

/-- R407, dsdone. -/
def execDsdone (_p : Bool) (a : BitVec 5) : State → Host.Outcome State Fault Refusal :=
  dsOp { gs := [a.toNat] } false fun v s =>
    let x := v.rg a.toNat
    let sl := field x 16 6
    if field x 22 42 ≠ 0 then .trap Cause.access x
    else match (s.sl sl).txns.find? fun (t : Txn) => t.awaitDs && t.token == field x 0 16 with
      | none => .trap Cause.access x
      | some t =>
        let t' : Txn := { t with awaitDs := false }
        .done ((s.modThr s.unit.tk fun t => { t with invalHeld := false }).putTxn sl t') none

/-- R408, dsclr. -/
def execDsclr (_p : Bool) (a : BitVec 5) : State → Host.Outcome State Fault Refusal :=
  dsOp { gs := [a.toNat] } false fun v s =>
    let x := v.rg a.toNat
    if lineBad x then .trap Cause.access x
    else
      let sl := homeOf (lineOf x)
      let h := s.sl sl
      .done (match h.node (lineOf x) with
        | some n => if n.ovf ∧ !h.nodeBusy n ∧ h.unacked = 0 then s.setSl sl (h.setNode { n with ovf := false }) else s
        | none => s) none

/-! ## Broadcast regions and stable ranges (R55, R97, R410) -/

/-- One home's part of DSBCAST (R55): its nodes of the region are recalled by R56, and one BCAST node of level 0 takes their place.
The flag says that it is done. -/
def State.bcastHome (s : State) (region sl : Nat) : State × Bool :=
  let nodes := (s.sl sl).nodes.filter fun (n : Node) => n.region == region
  if nodes.any fun n => n.st == .bcast then (s, true)
  else
    let s := foldS (fun (n : Node) (s : State) =>
      if (s.sl sl).nodeBusy n ∨ (s.sl sl).nodePinned n then s else s.startEvict sl n) nodes s
    let x := s.sl sl
    if x.nodes.any fun (n : Node) => n.region == region then (s, false)
    else if x.setUsed region < 16 then
      let n : Node := { region := region, level := 0, path := 0, st := .bcast, ver := Tbl.get 0 x.setVer (setOf region), used := s.sclk }
      (s.setSl sl { x with nodes := x.nodes ++ [n] }, true)
    else (s.evictFor sl (region * 1024), false)

/-- R410, dsbcast: every home of the region's lines makes its part of it BCAST. -/
def execDsbcast (_p : Bool) (a : BitVec 5) : State → Host.Outcome State Fault Refusal :=
  dsOp { gs := [a.toNat] } false fun v s =>
    let x := v.rg a.toNat
    if field x 0 16 ≠ 0 ∨ field x 48 16 ≠ 0 then .trap Cause.access x
    else
      let r := foldS (fun sl (acc : State × Bool) =>
        let e := acc.1.bcastHome (field x 16 32) sl
        (e.1, acc.2 && e.2)) (List.range 64) (s, true)
      if r.2 then .done r.1 none else .wait r.1 .ready none

/-- The 2 MiB units that a stable-range operand names: the first and their number. -/
def stabRange (a : Word) : Nat × Nat := (field a 21 27, field a 0 21 + 1)

/-- A 2 MiB unit lies in a range. -/
def inStab (r : Nat × Nat) (n : Nat) : Bool := decide (r.1 ≤ n) && decide (n < r.1 + r.2)

/-- One home's part of a declaration (R97): SINV to the owners of the range's nodes; with nobody left that owns a line and no
transaction open, dirty data go to DRAM. The flag says that it is done. -/
def State.stabHome (s : State) (r : Nat × Nat) (sl : Nat) : State × Bool :=
  let owned := (s.sl sl).nodes.filter fun (n : Node) => inStab r (n.region / 32) && n.st == .own
  let s := foldS (fun (n : Node) (s : State) =>
    if (s.sl sl).nodeBusy n then s
    else s.openTxn sl { kind := .clean, got := true, line := n.region * 1024 + n.path, node := n.key } .sinv
      ((homedLines sl n).map fun line => (n.owner, line)) n.ver) owned s
  if !owned.isEmpty ∨ ((s.sl sl).txns.any fun (t : Txn) => inStab r (t.line / 32768)) then (s, false)
  else (foldS (fun (e : Nat × SLine) (s : State) => if inStab r (e.1 / 32768) then s.cleanLine sl e.1 else s) (s.sl sl).lines s, true)

/-- A declaration begins: from now on the homes hold the range's writes (R97). -/
def State.startStab (s : State) (r : Nat × Nat) : State :=
  if s.bmv.declaring.contains r then s
  else
    let units := (List.range r.2).map (· + r.1)
    foldS (fun sl (s : State) => s.modSl sl fun y => { y with stable := y.stable ++ units }) (List.range 64)
      { s with bmv := { s.bmv with declaring := s.bmv.declaring ++ [r] } }

/-- R410, dsstab: the homes hold writes to the range and recall its owned copies; the thread goes on when every home is done. -/
def execDsstab (_p : Bool) (a : BitVec 5) : State → Host.Outcome State Fault Refusal :=
  dsOp { gs := [a.toNat] } false fun v s =>
    let x := v.rg a.toNat
    let r := stabRange x
    let meets (q : Nat × Nat) : Bool := overlap q.1 q.2 r.1 r.2
    let others := s.bmv.stable ++ s.bmv.declaring.filter (· != r)
    if field x 48 16 ≠ 0 ∨ 64 ≤ others.length ∨ others.any meets ∨ s.memTop < (r.1 + r.2) * 2 ^ 21 then .trap Cause.access x
    else
      let e := foldS (fun sl (acc : State × Bool) =>
        let h := acc.1.stabHome r sl
        (h.1, acc.2 && h.2)) (List.range 64) (s.startStab r, true)
      if e.2 then
        .done { e.1 with bmv := { e.1.bmv with declaring := e.1.bmv.declaring.filter (· != r), stable := e.1.bmv.stable ++ [r] } } none
      else .wait e.1 .ready none

/-- R410, dsrel: a release at system scope; the homes serve what they held. -/
def execDsrel (_p : Bool) (a : BitVec 5) : State → Host.Outcome State Fault Refusal :=
  dsOp { gs := [a.toNat] } false fun v s =>
    let x := v.rg a.toNat
    let r := stabRange x
    if field x 48 16 ≠ 0 ∨ !s.bmv.stable.contains r then .trap Cause.access x
    else match s.thr s.unit.tk with
      | none => .wait s .ready none
      | some t =>
        if !t.performed then .wait s .ready none
        else
          let s := { s with bmv := { s.bmv with stable := s.bmv.stable.filter (· != r) } }
          .done (foldS (fun sl s => (s.modSl sl fun y => { y with
            stable := y.stable.filter fun n => !inStab r n }).retrySoon sl) (List.range 64) s) none

/-! ## Notices (R405) -/

/-- R405, dspoll. -/
def execDspoll (_p : Bool) (d : BitVec 5) (_l : BitVec 4) : State → Host.Outcome State Fault Refusal :=
  dsOp { vd := [d.toNat] } true fun _ s =>
    let tk := s.unit.tk
    if !isService tk then .trap Cause.illegalOp s.unit.opVal
    else match s.takeNotice s.unit.core tk with
      | some (s, n) => .done (s.bindFin tk (.vec d.toNat) n.bytes) none
      | none => .done ((s.modThr tk fun t => { t with noticeHeld := false }).bindFin tk (.vec d.toNat) 0) none

/-! ## Inbox spill (R411) -/

/-- The header of a spilled message (R167, R324), as a 16-byte number. -/
def userHeader (m : Msg) : Nat :=
  4 + m.src % 256 * 2 ^ 8 + m.dst % 256 * 2 ^ 16 + m.region % 256 * 2 ^ 24 + m.thread % 16 * 2 ^ 32 + field m.delivery 0 8 * 2 ^ 48 +
    (m.len - 1) % 64 * 2 ^ 96

/-- The payload of a message, zero beyond its length. -/
def userPayload (m : Msg) : Vec := BitVec.ofNat 512 (bytesAt (m.data.getD 0) 0 m.len)

/-- R411, spltake. -/
def execSpltake (_p : Bool) (d a : BitVec 5) (_l : BitVec 4) : State → Host.Outcome State Fault Refusal :=
  issueC { n := { gs := [a.toNat], gd := [d.toNat] }, priv := true, mem := true, la := true } fun v s =>
    let tk := s.unit.tk
    let ea := v.rg a.toNat
    if !isService tk then .trap Cause.illegalOp s.unit.opVal
    else match s.thr tk with
    | none => .wait s .ready none
    | some t => match s.target tk ea 80 16 true true with
      | .error c => .trap c ea
      | .ok tgt =>
        let second : Target := match tgt with
          | .mem va => .mem ((va + 16) % 2 ^ 64)
          | .pool ck off => .pool ck (off + 16)
        match (s.core s.unit.core).spillInbox with
        | [] => .done (s.writeG tk d.toNat (BitVec.allOnes 64)) none
        | m :: rest =>
          match s.planAll tk t false true (some ea) (tgt.pieces 16 0) with
          | .error e => e
          | .ok (s1, hdr) => match s1.planAll tk t false true (some ea) (second.pieces 64 0) with
            | .error e => e
            | .ok (s2, pay) =>
              if s.jobHolds tk tgt 80 true ∨ s2.storeFull t (hdr ++ pay) then .wait s2 .ready none
              else match s2.storePieces tk (BitVec.ofNat 512 (userHeader m)) hdr with
                | none => .wait s2 .ready none
                | some s3 => match s3.storePieces tk (userPayload m) pay with
                  | none => .wait s2 .ready none
                  | some s4 =>
                    .done ((s4.modCore s.unit.core fun c => { c with spillInbox := rest }).writeG tk d.toNat (word rest.length)) none

/-- Eighty bytes that the thread reads within its unit. -/
def State.readRecord (s : State) (tk : Nat) (ea : Word) : Except CRes (State × Nat) :=
  foldE (fun i (acc : State × Nat) => match acc.1.readNow tk (ea + word (8 * i)) with
    | .ok r => .ok (r.1, acc.2 + r.2.toNat * 2 ^ (64 * i))
    | .error e => .error e) (List.range 10) (s, 0)

/-- R411, lbsend. -/
def execLbsend (_p : Bool) (a : BitVec 5) : State → Host.Outcome State Fault Refusal :=
  issueC { n := { gs := [a.toNat] }, priv := true, mem := true } fun v s =>
    let tk := s.unit.tk
    let ea := v.rg a.toNat
    if !isService tk then .trap Cause.illegalOp s.unit.opVal
    else match s.thr tk with
    | none => .wait s .ready none
    | some t => match s.target tk ea 80 16 true true with
      | .error c => .trap c ea
      | .ok _ => match s.readRecord tk ea with
        | .error e => e
        | .ok (s', b) =>
          if bits b 0 8 ≠ 4 ∨ bits b 16 8 ≠ s.unit.core then .trap Cause.access ea
          else if !t.performed then .wait s' .ready none
          else if 64 ≤ (s.cx (ckOfTk tk)).inbox.length then .wait s' .sync (some 0x300)
          else
            let m : Msg := { src := bits b 8 8, dst := s.unit.core, region := bits b 24 8, thread := bits b 32 4, delivery := word (bits b 48 8),
                             len := bits b 96 6 + 1, data := some (BitVec.ofNat 512 (bits b 128 512)), ck := ckOfTk tk, srcCk := ckOfTk tk }
            .done (s'.inboxPut (ckOfTk tk) m) none

/-- R411, splend. -/
def execSplend (_p : Bool) : State → Host.Outcome State Fault Refusal :=
  issueC { priv := true } fun _ s =>
    if !isService s.unit.tk then .trap Cause.illegalOp s.unit.opVal
    else .done (s.modCore s.unit.core fun c => if c.spillInbox.isEmpty then { c with spill := false } else c) none

end Sys2Proof.Machine
end

