-- ==== Sys2Proof/Machine/BankCompute.lean ====
section
/-!
DEFINITION. Bank matrix-vector compute (R82 to R101): the job card and BMVJ, the bank units and their commands, and a job as it
goes through translation, layout check, clean sweep, broadcast, passes, reduction and completion.
-/

namespace Sys2Proof.Machine

/-! ## The footprint's pages (R91, R77) -/

/-- The pages of a byte range. -/
def pagesOf (base len : Nat) (w : Bool) : List (Nat × Bool) :=
  (List.range ((base + len + 4095) / 4096 - base / 4096)).map fun i => (base / 4096 + i, w)

/-- Pages of the part of a slab that a job has still to read: from the first granule of its next row, in entries of `w` bytes (R100). -/
def State.slabLeft (s : State) (j : BmvJob) (base w : Nat) : List (Nat × Bool) :=
  let g := j.rowsDone * j.ks * w / 2048 * s.bankUnits * 2048
  pagesOf (base + g) (s.slabLen j w - g) false

/-- Pages of both slabs that are still to be read. -/
def State.slabPages (s : State) (j : BmvJob) : List (Nat × Bool) :=
  s.slabLeft j j.wbase j.bb ++ (if j.sb = 0 then [] else s.slabLeft j j.sbase j.sb)

/-- Pages of the footprint that the job has still to use, scratchpad ranges apart. -/
def State.bmvPages (s : State) (j : BmvJob) : List (Nat × Bool) :=
  s.slabPages j ++ (if j.xsp ∨ j.swept then [] else pagesOf j.xaddr.toNat (2 * j.k) false) ++
    (if j.ysp then [] else pagesOf (j.yaddr.toNat + 4 * j.written) (4 * (j.m - j.written)) true) ++
    (if j.staddr = 0 ∨ isSp (word j.staddr) then [] else pagesOf j.staddr 8 true)

/-! ## The status of a job (R90, R94) -/

/-- A condition is met: the status takes the lowest non-zero code of those met, with its address (R94). -/
def BmvJob.meet (j : BmvJob) (status addr : Nat) : BmvJob :=
  if j.status = 0 ∨ status < j.status then { j with status := status, failAddr := addr } else j

/-! ## BMVJ (R88, R89) -/

/-- The fields of a card of 128 bytes. -/
def bmvOf (b : Nat) : BmvJob :=
  { fmt := bits b 8 4, scl := bits b 12 1 == 1, kg := 2 ^ bits b 16 8, ks := bits b 24 8, m := bits b 32 32, wbase := bits b 64 64
    sbase := bits b 128 64, xaddr := word (bits b 192 64), yaddr := word (bits b 256 64), staddr := bits b 320 64
    codetab := BitVec.ofNat 128 (bits b 384 128), bar := bits b 512 16, ysp := bits b 528 1 == 1, xsp := bits b 529 1 == 1 }

/-- A scratchpad operand: cluster-scope form, and wholly within the core's general scratchpad (R89). -/
def State.bmvSp (s : State) (ck : Nat) (a : Word) (n : Nat) : Bool :=
  isSp a && field a 28 2 == 1 && match s.spDecode ck a with
    | some (k, off) => decide (s.generalBase k ≤ off) && decide (off + n ≤ s.slotBase k)
    | none => false

/-- A card that R89 turns away. `ck` is the issuing context core; a packet's card has no scratchpad operand. -/
def State.bmvBad (s : State) (ck b : Nat) : Bool :=
  let j := bmvOf b
  let nu := s.bankUnits
  !s.bmv.present || !s.winOn || bits b 0 8 != 3 || (bmvSizes j.fmt j.scl).isNone || (j.scl && (j.fmt == 5 || j.fmt == 6)) ||
    decide (nu < j.kg) || nu % j.kg != 0 || j.ks == 0 || decide (32 < j.ks) || j.m == 0 || decide (2 ^ 24 < j.m) ||
    j.wbase % 2 ^ 21 != 0 || (j.sb != 0 && j.sbase % 2 ^ 21 != 0) || j.xaddr.toNat % 64 != 0 || j.yaddr.toNat % 64 != 0 ||
    j.staddr % 8 != 0 || !barOk j.bar || (j.xsp && !s.bmvSp ck j.xaddr (2 * j.k)) || (j.ysp && !s.bmvSp ck j.yaddr (4 * j.m)) ||
    bits b 13 3 != 0 || bits b 530 14 != 0 || bits b 544 480 != 0

/-- The footprint of a job (R88). -/
def State.bmvPrint (s : State) (ck : Nat) (j : BmvJob) : Option (List Range × List Range) :=
  let rng (a : Word) (n : Nat) : Option (List Range) := s.rangeOf ck a 0 n
  match rng (word j.wbase) (s.slabLen j j.bb), (if j.sb = 0 then some [] else rng (word j.sbase) (s.slabLen j j.sb)),
    rng j.xaddr (2 * j.k), rng j.yaddr (4 * j.m), (if j.staddr = 0 then some [] else rng (word j.staddr) 8) with
  | some w, some sc, some x, some y, some st => some (w ++ sc ++ x, y ++ st)
  | _, _, _, _, _ => none

/-- BMVJ and BMVJH: the job is made known to the controllers with its card. -/
def State.issueBmv (s : State) (a : Word) (b : Option Word) : CRes :=
  s.readCard a 128 fun img =>
    let tk := s.unit.tk
    let ck := ckOfTk tk
    match heldOf b, s.thr tk with
    | some h, some t =>
      if s.bmvBad ck img then .trap Cause.engine a
      else
        let n := s.bmv.nextJob
        let j := { bmvOf img with id := n, ck := ck, card := s.clock, pasid := (s.pasidOf ck).getD 0, priv := t.priv != 0
                                  untranslated := untranslated tk t }
        match s.queueCard a h { kind := .bmv, job := n, stAddr := word j.staddr } (s.bmvPrint ck j) with
        | .done s pc => .done { s with bmv := { s.bmv with jobs := s.bmv.jobs ++ [j], nextJob := n + 1 } } pc
        | r => r
    | _, _ => .trap Cause.engine a

/-- R88, R391, bmvj. -/
def execBmvj (_p : Bool) (a : BitVec 5) : State → Host.Outcome State Fault Refusal :=
  issueC { n := { gs := [a.toNat] }, mem := true } fun t s => s.issueBmv (t.rg a.toNat) none

/-- R88, R390, bmvjh. -/
def execBmvjh (_p : Bool) (a b : BitVec 5) : State → Host.Outcome State Fault Refusal :=
  issueC { n := { gs := [a.toNat, b.toNat] }, mem := true } fun t s => s.issueBmv (t.rg a.toNat) (some (t.rg b.toNat))

/-! ## Steps 2 and 3: translation and layout (R77, R87, R91) -/

def State.xlatBmv (s : State) (j : BmvJob) (va : Nat) (w : Bool) : XRes :=
  if j.untranslated then s.physical va
  else s.translate { w := .bmv j.id, cluster := if j.queue.isSome then none else s.clusterOfCk j.ck, pasid := j.pasid, priv := j.priv, r := !w,
                     wr := w } va

/-- Translates the pages of a list that are not translated yet. The flag says that all are at hand. A translation that may be used once
only serves no job: the page is translated anew (R79). A failure ends the job; what it has computed is still written (notes/assumptions/154.md). -/
def State.bmvXlat (s : State) (n : Nat) : List (Nat × Bool) → State × Bool
  | [] => (s, true)
  | (vpn, w) :: rest =>
    match s.bmvJob n with
    | none => (s, false)
    | some j =>
      if Tbl.get 0 j.pages (pageKey vpn w) ≠ 0 then State.bmvXlat s n rest
      else match (s.modJob n fun j => { j with x := { j.x with once := [] } }).xlatBmv j (vpn * 4096) w with
        | .pa s pa => State.bmvXlat (s.modJob n fun j => { j with pages := Tbl.put 0 j.pages (pageKey vpn w) (pa / 4096 + 1), x := {} }) n rest
        | .fault c =>
          let va := if vpn = j.xaddr.toNat / 4096 ∧ !w then j.xaddr.toNat
            else if vpn = j.yaddr.toNat / 4096 ∧ w then j.yaddr.toNat
            else vpn * 4096
          let st : Bool := j.staddr != 0 && w && !(pagesOf j.yaddr.toNat (4 * j.m) true).contains (vpn, w)
          (s.modJob n fun j => { j.meet (statusOf c) (if st then j.staddr else va) with noStatus := st, phase := .writing }, false)
        | .wait s _ => (s, false)

/-- The first page of the slabs still to be read that breaks R87. -/
def State.badLayout (s : State) (j : BmvJob) : Option Nat :=
  let m := s.bankUnits * 2048
  let bad (base : Nat) (p : Nat × Bool) : Bool :=
    let pa := j.pa (p.1 * 4096) false
    !(decide (s.winLo ≤ pa) && decide (pa + 4096 ≤ s.winHi) && (pa - s.winLo) % m == (p.1 * 4096 - base) % m)
  match (s.slabLeft j j.wbase j.bb).find? (bad j.wbase) with
  | some p => some (p.1 * 4096)
  | none => if j.sb = 0 then none
    else ((s.slabLeft j j.sbase j.sb).find? (bad j.sbase)).map fun p => p.1 * 4096

/-! ## Step 4: the clean sweep (R95) -/

/-- Physical page numbers of the slabs. -/
def State.slabPpns (s : State) (j : BmvJob) : List Nat := (s.slabPages j).map fun p => j.pa (p.1 * 4096) false / 4096

/-- Lines of the footprint that a job reads: the slabs', by page, and those of x. -/
def State.readsLine (s : State) (j : BmvJob) (line : Nat) : Bool :=
  (s.slabPpns j).contains (line / 64) ||
    (!j.xsp && (pagesOf j.xaddr.toNat (2 * j.k) false).any fun p => j.pa (p.1 * 4096) false / 4096 == line / 64)

/-- The identity under which a job reads and writes memory: its core's, or the front end's (R40). -/
def State.jobId (s : State) (j : BmvJob) : Nat := if j.queue.isSome then feId else (s.coreOfCk j.ck).getD 0

/-- Before the sweep (R95): the issuing thread's stores to what the job reads are drained, and its core's dirty lines there written back.
The flag says that nothing of them is left. -/
def State.ownSweep (s : State) (j : BmvJob) : State × Bool :=
  if j.queue.isSome then (s, true)
  else
    let a := s.jobId j
    let mine (s : State) : List (Nat × ALine) := (s.linesOf a).filter fun e =>
      (e.2.st.dirty || e.2.st == .imD || e.2.st == .xiA) && s.readsLine j e.1
    let stores : Bool := match s.cardOf j.ck j.card with
      | some c => match s.thr c.tk with
        | some t => t.sbuf.any fun b => s.readsLine j b.line
        | none => false
      | none => false
    let s' := foldS (fun (e : Nat × ALine) (s : State) => if e.2.st == .m || e.2.st == .o then s.replaceLine a e.1 else s) (mine s) s
    (s', !stores && (mine s).isEmpty)

/-- Lines of a slice to be swept: those of nodes that record an owner, those whose slice copy is newer than DRAM, and those of open
transactions, whose data may be on the way. -/
def State.sweepLines (s : State) (sl : Nat) (inSlab : Nat → Bool) : List Nat :=
  let x := s.sl sl
  (((x.nodes.filter fun (n : Node) => n.st == NState.own).flatMap fun n => homedLines sl n) ++
    (x.lines.filter fun e => e.2.dirty).map Prod.fst ++
    x.txns.flatMap fun (t : Txn) => t.line :: t.probes.map Probe.line).eraseDups.filter inSlab

/-- Sweeps one line at its home: SSHR to the owner of its node, whose answer is awaited; else the slice's copy goes to DRAM (R95). A
busy line waits. -/
def State.sweepLine (s : State) (n line : Nat) : State :=
  let h := homeOf line
  if (s.sl h).busy line ∨ (s.sl h).nodeHeld line then s
  else
    let clean (s : State) : State := (s.cleanLine h line).modJob n fun j => { j with toSweep := j.toSweep.map fun l => l.filter (· != line) }
    match (s.sl h).node line with
    | some d =>
      if d.st = NState.own then s.openTxn h { kind := .clean, line := line, node := d.key, pend := n } .sshr [(d.owner, line)] d.ver
      else clean s
    | none => clean s

/-- Sweeps what can be swept now; the flag says that nothing is left. -/
def State.sweepSlabs (s : State) (j : BmvJob) : State × Bool :=
  let n := j.id
  match j.toSweep with
  | none =>
    let r := s.ownSweep j
    if r.2 then
      let ppns := s.slabPpns j
      let all := (List.range 64).flatMap fun sl => s.sweepLines sl fun line => ppns.contains (line / 64)
      (s.modJob n fun j => { j with toSweep := some all }, false)
    else (r.1, false)
  | some l =>
    let s := foldS (fun line (s : State) => s.sweepLine n line) l s
    (s, match s.bmvJob n with
      | some j => j.toSweep == some []
      | none => false)

/-- Both slabs lie in declared weight-stable ranges (R97). -/
def State.slabsStable (s : State) (j : BmvJob) : Bool :=
  (s.slabPages j).all fun p => s.bmv.stable.any fun r => inStab r (j.pa (p.1 * 4096) false / 2 ^ 21)

/-! ## Step 5: x (R91) -/

/-- The bytes of x and the address of its first poisoned line; or the state in which the job waits for its homes. -/
def State.readX (s : State) (j : BmvJob) : Except State (State × List Byte × Option Nat) :=
  let n := 2 * j.k
  if j.xsp then
    match s.spDecode j.ck j.xaddr with
    | some (k, off) => .ok (s, leBytes n (s.poolRead k off n), (s.poolPoison k off n).map fun o => j.xaddr.toNat + (o - off))
    | none => .ok (s, List.replicate n 0, none)
  else match s.cohLines (s.jobId j) ((List.range ((n + 63) / 64)).map fun i => j.pa (j.xaddr.toNat + 64 * i) false / 64) with
    | .ok (s, l, p) => .ok (s, l.take n, p.map fun i => j.xaddr.toNat + 64 * i)
    | .error s => .error s

/-- 32-byte words of the span of x that position `p` holds. -/
def BmvJob.xSpan (j : BmvJob) (x : List Byte) (p : Nat) : List (BitVec 256) :=
  (List.range (3 * j.ks)).map fun i => BitVec.ofNat 256 (leNat ((x.drop (p * j.ks * 96 + 32 * i)).take 32))

/-! ## Steps 6 and 7: passes and reduction -/

/-- Starts the next batch: BRUN to every unit with rows left, and the batch's end. -/
def State.startBatch (s : State) (j : BmvJob) : State :=
  let s := foldS (fun u (s : State) =>
    let n := min 256 (s.rowsOf j (u / j.kg) - j.rowsDone)
    if n = 0 then s
    else
      let o := s.unitOff (j.pa (s.slabVa j.wbase u (j.rowsDone * j.ks * j.bb)) false)
      let p := if j.sb = 0 then 0 else s.unitOff (j.pa (s.slabVa j.sbase u (j.rowsDone * j.ks * j.sb)) false)
      s.later (.brun u { startGranule := o / 2048, startByte := o % 2048, fmt := j.fmt, scl := j.scl, ks := j.ks, rows := n,
                         scaleGranule := p / 2048, scaleByte := p % 2048, codetab := j.codetab })) (List.range s.bankUnits) s
  s.later (.bankPassBatchEnd j.id)

/-- The y values of a batch, by ascending row (R93): the partials of each row added in ascending position. -/
def State.batchYs (s : State) (j : BmvJob) : List (BitVec 32 × Bool) :=
  let rg := s.rg j
  ((List.range 256).flatMap fun e => (List.range rg).map fun r => (e, r)).filterMap fun (e, r) =>
    if (j.rowsDone + e) * rg + r < j.m then
      let p (i : Nat) : Nat := 256 * (r * j.kg + i) + e
      let y := (List.range (j.kg - 1)).foldl (fun y i => addF32 y (Tbl.get 0 j.red (p (i + 1))).toNat) (Tbl.get 0 j.red (p 0)).toNat
      some (BitVec.ofNat 32 y, j.xPoison || (List.range j.kg).any fun i => Tbl.get false j.redBad (p i))
    else none

/-- A command to one of some units is still on its way. -/
def State.cmdPending (s : State) (us : List Nat) : Bool :=
  s.agenda.any fun e => match e with
    | .xld u _ _ | .brun u _ | .bres u | .bhalt u => us.contains u
    | _ => false

/-- BANK_PASS_BATCH_END (R91): every unit of the job has come to the end of its rows, its partials are read, and the rows are
reduced. A job with commands on their way, or whose units are halted, waits. -/
def State.onBatchEnd (s : State) (n : Nat) : State :=
  match s.bmvJob n with
  | none => s
  | some j =>
    let us := s.jobUnits n
    if j.phase ≠ .running ∨ !j.swept ∨ (us.any fun u => (s.bank u).run.isSome && (s.bank u).halted) then s
    else if s.cmdPending us then s.later (.bankPassBatchEnd n)
    else
      let s := foldS (fun u (s : State) => match (s.bank u).run with
        | some r => (s.modBank u fun x => s.bankBlocks u r x.left x).onPrd u 0 r.rows
        | none => s) us s
      let fail := us.findSome? fun u => (s.bank u).failVa
      let s := foldS (fun u (s : State) => s.modBank u fun x => { x with run := none }) us s
      match s.bmvJob n with
      | none => s
      | some j =>
        let ys := s.batchYs j
        let j := match fail with
          | some a => j.meet 1 a
          | none => j
        let j' := { j with ys := j.ys ++ ys, rowsDone := j.rowsDone + 256, red := [], redBad := [] }
        let s := s.modJob n fun _ => j'
        if j'.rowsDone < s.rpg j' then s.startBatch j'
        else (s.modJob n fun j => { j with phase := .writing }).later (.bmvJobCompletion n)

/-! ## Completion (R90, R99, R455) -/

/-- Frees the units of a job. -/
def State.freeUnits (s : State) (n : Nat) : State :=
  foldS (fun u (s : State) => s.modBank u fun x => { x with job := none, run := none, halted := false, failVa := none }) (s.jobUnits n) s

/-- The end of a job: the pulse of source 6 or a fault event, and the card ends; a packet's job is reported to its queue. -/
def State.endJob (s : State) (j : BmvJob) : State :=
  let s := s.freeUnits j.id
  let s := foldS (fun (b : BmvJob) (s : State) =>
    if b.phase == .sweeping then s.laterOnce (.bmvJobStart b.id) else s) s.bmv.jobs s
  match j.queue with
  | some (q, i) => (s.modJob j.id fun _ => { j with phase := .done }).later (.packetComplete q i)
  | none =>
    let s := { s with bmv := { s.bmv with jobs := s.bmv.jobs.filter fun b => b.id != j.id } }
    match s.cardOf j.ck j.card with
    | some c =>
      let s := if j.status = 0 then s.pulse j.ck 6 0xFFF else s.jobFault j.ck c (word j.failAddr)
      s.endCard j.ck j.card
    | none => s

/-- The status word of a job (R90). -/
def BmvJob.statusWord (j : BmvJob) : Nat := j.status + (if j.status = 0 ∨ j.status = 5 then 0 else j.failAddr % 2 ^ 48 * 2 ^ 16)

/-- Writes the next line of y, and counts what lands in a scratchpad; or the state in which the write waits for its home. What has no
translation any more is not written. -/
def State.writeY (s : State) (j : BmvJob) : Except State State :=
  let ys := (j.ys.drop j.written).take 16
  let bad := ys.any Prod.snd
  let l := ys.flatMap fun y => leBytes 4 y.1.toNat
  let moved (s : State) : State := s.modJob j.id fun b => { b with written := b.written + ys.length }
  let va := j.yaddr.toNat + 4 * j.written
  if j.ysp then
    match s.spDecode j.ck (j.yaddr + word (4 * j.written)) with
    | some (k, off) =>
      let s := s.poolWrite k off l
      let s := if bad then s.poolMark k off l.length else s
      .ok (moved (if j.bar = 0xFFFF then s else s.barCount k j.bar l.length))
    | none => .ok (moved s)
  else if Tbl.get 0 j.pages (pageKey (va / 4096) true) = 0 then .ok (moved s)
  else match s.cohPut (s.jobId j) (j.pa va true) l bad with
    | .ok s => .ok (moved s)
    | .error s => .error s

/-- BMV_JOB_COMPLETION (R99): the writes of y, then the status word, then the end. -/
def State.onBmvCompletion (s : State) (n : Nat) : State :=
  match s.bmvJob n with
  | none => s
  | some j =>
    let again (s : State) : State := s.later (.bmvJobCompletion n)
    if j.phase ≠ .writing then s
    else if j.written < j.ys.length ∧ j.status ≠ 5 then
      match s.writeY j with
      | .ok s => again s
      | .error s => again s
    else if j.staddr = 0 ∨ j.noStatus then s.endJob j
    else
      let l := leBytes 8 j.statusWord
      if isSp (word j.staddr) then
        if j.status = 5 then s.endJob j else
        match s.spDecode j.ck (word j.staddr) with
        | some (k, off) =>
          if off < barTableEnd ∨ s.spLimit k < off + 8 then s.endJob { j with status := 3, failAddr := j.staddr }
          else (s.poolWrite k off l).endJob j
        | none => s.endJob { j with status := 3, failAddr := j.staddr }
      else
        let put (s : State) (pa : Nat) : State :=
          match s.cohPut (s.jobId j) pa l false with
          | .ok s => s.endJob j
          | .error s => again s
        if Tbl.get 0 j.pages (pageKey (j.staddr / 4096) true) ≠ 0 then put s (j.pa j.staddr true)
        else match s.xlatBmv j j.staddr true with
          | .pa s pa => put s pa
          | .fault c => s.endJob { j with status := statusOf c, failAddr := j.staddr }
          | .wait s _ => s

/-! ## A job as it starts and resumes (R91, R100) -/

/-- The job waits for a translation or a page. -/
def State.bmvWaits (s : State) (n : Nat) : Bool :=
  (s.svc.ats.any fun q => q.waits.any fun w => w.w == .bmv n) || s.svc.pages.any fun p => p.waits.contains (.bmv n)

/-- A job ends with a status: what it has computed is still written. -/
def State.failJob (s : State) (n status addr : Nat) : State :=
  (s.modJob n fun j => { j.meet status addr with phase := .writing }).later (.bmvJobCompletion n)

/-- The jobs of a cluster's cores end with ABORTED at their next yield point (R100): their units stop, and nothing more of y is
written. -/
def State.abortJobs (s : State) (c : Nat) : State :=
  foldS (fun (j : BmvJob) (s : State) =>
    if j.queue.isNone ∧ s.clusterOfCk j.ck = some c ∧ j.phase ≠ .done ∧ j.status ≠ 5 then
      let s := foldS (fun u (s : State) => s.onBhalt u) (s.jobUnits j.id) s
      (s.modJob j.id fun b => { b with phase := .writing, ys := [], written := 0, status := 5, failAddr := 0 }).later (.bmvJobCompletion j.id)
    else s) s.bmv.jobs s

/-- An invalidation has stopped the job's use of its translations once every unit is halted: it translates anew (R79, R100). -/
def State.stopForInval (s : State) (j : BmvJob) : State :=
  if (s.jobUnits j.id).any fun u => (s.bank u).running then s.laterOnce (.bmvJobStart j.id)
  else
    let done := s.svc.invals.filter fun v => v.jobs.contains j.id
    let s := s.modJob j.id fun b => { b with phase := .translating, pages := [], x := {} }
    foldS (fun (v : Inval) (s : State) => s.laterOnce (.invalidationCompletion v.itag)) done (s.later (.bmvJobStart j.id))

/-- Steps 4 to 6 of R91, for a job whose footprint is translated. -/
def State.bmvGo (s : State) (j : BmvJob) : State :=
  let n := j.id
  if 2 ≤ j.status then (s.modJob n fun b => { b with phase := .writing }).later (.bmvJobCompletion n)
  else if j.swept then
    -- resumed after an invalidation: the remaining footprint is checked again
    if s.rpg j ≤ j.rowsDone then (s.modJob n fun b => { b with phase := .writing }).later (.bmvJobCompletion n)
    else match s.badLayout j with
    | some a => s.failJob n 4 a
    | none =>
      let s := s.modJob n fun b => { b with phase := .running }
      (foldS (fun u (s : State) => if (s.bank u).halted then s.later (.bres u) else s) (s.jobUnits n) s).laterOnce (.bankPassBatchEnd n)
  else
    match s.badLayout j with
    | some a => s.failJob n 4 a
    | none =>
      if s.bmv.units.any fun e => e.2.job.isSome then s.modJob n fun b => { b with phase := .sweeping }
      else
        let r := if s.slabsStable j then (s, true) else s.sweepSlabs j
        if !r.2 then (r.1.modJob n fun b => { b with phase := .sweeping }).later (.bmvJobStart n)
        else match r.1.readX j with
          | .error s => (s.modJob n fun b => { b with phase := .sweeping }).later (.bmvJobStart n)
          | .ok (s, x, bad) =>
            let s := s.modJob n fun b =>
              let b := match bad with
                | some a => b.meet 1 a
                | none => b
              { b with phase := .running, swept := true, xPoison := bad.isSome }
            let s := foldS (fun u (s : State) =>
              (s.modBank u fun y => { y with job := some n, run := none, halted := false, failVa := none }).later
                (.xld u 0 (j.xSpan x (u % j.kg)))) (List.range s.bankUnits) s
            s.startBatch j

/-- BMV_JOB_START (R91): the job goes on from where it stands. Before step 5 a job of a context that is halting or not
resident waits (R100). -/
def State.onBmvStart (s : State) (n : Nat) : State :=
  match s.bmvJob n with
  | none => s
  | some j =>
    let away : Bool := j.queue.isNone && ((s.coreOfCk j.ck).isNone || s.halting j.ck)
    match j.phase with
    | .running =>
      if s.svc.invals.any fun v => v.jobs.contains n then s.stopForInval j else s
    | .writing =>
      if s.svc.invals.any fun v => v.jobs.contains n then s.stopForInval j else s.laterOnce (.bmvJobCompletion n)
    | .done => s
    | _ =>
      if (away ∧ !j.swept) ∨ s.bmvWaits n then s
      else
        let s := s.modJob n fun b => { b with phase := .translating }
        let r := s.bmvXlat n (s.bmvPages j)
        match r.1.bmvJob n with
        | some j => if r.2 then r.1.bmvGo j else if j.phase = .writing then r.1.later (.bmvJobCompletion n) else r.1
        | none => r.1

end Sys2Proof.Machine
end

