-- ==== Sys2Proof/Machine/Protocol.lean ====
section
/-!
DEFINITION. The steps of the coherence protocol and of the slices (spec/03, spec/08): requests at their homes, probes, replies and
write-backs, credits, node merges, fills and replays, masked multicast reads (R160 to R162, R456) and replicas of hot lines
(R163, R164).
-/

namespace Sys2Proof.Machine

/-! ## Arrival of a message (R46, R154) -/

/-- A message whose header has a reserved bit set is discarded at its destination interface and logged as a corrected error; a request
of an ECI agent goes on to be answered (R46). -/
def State.intake (s : State) (m : Msg) (cls : Nat) (f : State → State) : State :=
  if !m.rsv then f s
  else if isEci m.src then
    if cls = 0 then f s else (if cls = 2 ∨ cls = 3 then s.returnCredit m.src cls else s).corrected .hostPort (word (64 * m.line))
  else s.corrected (if isEci m.dst then .hostPort else .netInterface (m.dst % 64)) 0

/-- The meaning of a message's arrival. -/
def msgEvent (m : Msg) (cls : Nat) (f : State → State) : State → Host.Outcome State Fault Refusal := event fun s => s.intake m cls f

/-! ## Requests at a home (R52, R61 to R63) -/

/-- A redirected RDS that the helper serves (R163): the requester's interface redirects the line, its node is BCAST, and the
helper holds a replica. -/
def State.helperGrant (s : State) (m : Msg) : Option State :=
  let h := homeOf m.line
  if m.src < 64 ∧ m.dst = homeId h then
    match s.redirected m.src m.line, (s.sl h).node m.line with
    | some r, some n =>
      if n.st = NState.bcast then
        some ((s.useReplica h m.line).later (.ds { replyTo r.1 m with ver := n.ver, gnt := .s, data := some r.2, len := 64, off := 0 }))
      else none
    | _, _ => none
  else none

/-- R52, RDS. -/
def execRds (x : Msg) : State → Host.Outcome State Fault Refusal :=
  msgEvent x 0 fun s => match s.helperGrant x with
    | some s => s
    | none => s.onRequest (.rds x) x

/-- R52, RDX. -/
def execRdx (x : Msg) : State → Host.Outcome State Fault Refusal := msgEvent x 0 fun s => s.onRequest (.rdx x) x
/-- R52, UPG. -/
def execUpg (x : Msg) : State → Host.Outcome State Fault Refusal := msgEvent x 0 fun s => s.onRequest (.upg x) x
/-- R52, RDNC. -/
def execRdnc (x : Msg) : State → Host.Outcome State Fault Refusal := msgEvent x 0 fun s => s.onRequest (.rdnc x) x
/-- R52, WRNC. -/
def execWrnc (x : Msg) : State → Host.Outcome State Fault Refusal := msgEvent x 0 fun s => s.onRequest (.wrnc x) x
/-- R52, WRF. -/
def execWrf (x : Msg) : State → Host.Outcome State Fault Refusal := msgEvent x 0 fun s => s.onRequest (.wrf x) x
/-- R61, ATOM. -/
def execAtom (x : Msg) : State → Host.Outcome State Fault Refusal := msgEvent x 0 fun s => s.onRequest (.atom x) x
/-- R62, LLK. -/
def execLlk (x : Msg) : State → Host.Outcome State Fault Refusal := msgEvent x 0 fun s => s.onRequest (.llk x) x
/-- R62, SCK. -/
def execSck (x : Msg) : State → Host.Outcome State Fault Refusal := msgEvent x 0 fun s => s.onRequest (.sck x) x
/-- R63, WATCH. -/
def execWatch (x : Msg) : State → Host.Outcome State Fault Refusal := msgEvent x 0 fun s => s.onRequest (.watch x) x

/-- The state that a GNT code names (R45). -/
def gntOf (n : Nat) : Option Moesi := [Moesi.i, .s, .e, .o, .m][n]?

/-- Class and opcode of a message that ECI carries (R46). -/
def eciCode : Ev → Option (Nat × Nat)
  | .rds _ => some (0, 0)
  | .rdx _ => some (0, 1)
  | .upg _ => some (0, 2)
  | .rdnc _ => some (0, 3)
  | .wrnc _ => some (0, 4)
  | .wrf _ => some (0, 5)
  | .atom _ => some (0, 6)
  | .llk _ => some (0, 7)
  | .sck _ => some (0, 8)
  | .watch _ => some (0, 9)
  | .sinv _ => some (1, 0)
  | .sshr _ => some (1, 1)
  | .sbinv _ => some (1, 2)
  | .ds _ => some (2, 0)
  | .de _ => some (2, 1)
  | .dm _ => some (2, 2)
  | .gm _ => some (2, 3)
  | .cmp _ => some (2, 4)
  | .atr _ => some (2, 5)
  | .lkd _ => some (2, 6)
  | .scf _ => some (2, 7)
  | .woke _ => some (2, 8)
  | .rty _ => some (2, 9)
  | .wba _ => some (2, 0xA)
  | .wbx _ => some (2, 0xB)
  | .pack _ => some (2, 0x10)
  | .pdat _ => some (2, 0x11)
  | .wbd _ => some (3, 0)
  | .evc _ => some (3, 1)
  | .crd _ => some (6, 0)
  | _ => none

/-- The message that a class and an opcode name (R46). -/
def eciEv (cls op : Nat) (m : Msg) : Option Ev :=
  [Ev.rds m, .rdx m, .upg m, .rdnc m, .wrnc m, .wrf m, .atom m, .llk m, .sck m, .watch m, .sinv m, .sshr m, .sbinv m, .ds m, .de m,
    .dm m, .gm m, .cmp m, .atr m, .lkd m, .scf m, .woke m, .rty m, .wba m, .wbx m, .pack m, .pdat m, .wbd m, .evc m, .crd m].find? fun e =>
    eciCode e == some (cls, op)

/-- The 16-byte header of a message on ECI (R45). -/
def eciHeader (cls op : Nat) (m : Msg) : BitVec 128 :=
  BitVec.ofNat 128 (cls % 8 + op % 32 * 2 ^ 3 + m.src % 256 * 2 ^ 8 + m.dst % 256 * 2 ^ 16 + m.txid % 4096 * 2 ^ 24 + m.ver.toNat * 2 ^ 36 +
    Moesi.code m.gnt * 2 ^ 44 + m.line % 2 ^ 42 * 2 ^ 48 + m.off % 64 * 2 ^ 90 + (m.len - 1) % 64 * 2 ^ 96 + m.atop % 16 * 2 ^ 102 +
    bitOf m.data.isSome * 2 ^ 106 + bitOf m.poison * 2 ^ 107 + bitOf m.wb * 2 ^ 108 + m.stat % 8 * 2 ^ 109)

/-- The fields of a header (R45), with the payload that follows when DATA is 1; a reserved GNT code names no state. -/
def eciMsg (h : BitVec 128) (payload : BitVec 512) : Option Msg :=
  let n := h.toNat
  (gntOf (bits n 44 4)).map fun g =>
    { src := bits n 8 8, dst := bits n 16 8, txid := bits n 24 12, ver := BitVec.ofNat 8 (bits n 36 8), gnt := g, line := bits n 48 42
      off := bits n 90 6, len := bits n 96 6 + 1, atop := bits n 102 4, data := if bits n 106 1 = 1 then some payload else none
      poison := bits n 107 1 == 1, wb := bits n 108 1 == 1, stat := bits n 109 3, rsv := bits n 112 16 != 0 }

/-- The message that a header stands for; `none` where R46 calls the header malformed: a reserved class, opcode or code, or a reserved
field that is not zero. -/
def eciParse (h : BitVec 128) (payload : BitVec 512) : Option Ev :=
  match eciMsg h payload with
  | some m => if m.rsv ∨ 3 ≤ m.stat then none else eciEv (bits h.toNat 0 3) (bits h.toNat 3 5) m
  | none => none

/-- R46, ECI_MALFORMED_REQUEST: a malformed header from the host. A request is answered CMP with STAT = ERR; a message of another
class is discarded; both are logged as corrected errors of the port, and the credit goes back. -/
def State.onMalformed (s : State) (h : BitVec 128) : State :=
  let n := h.toNat
  let src := bits n 8 8
  let cls := bits n 0 3
  let m : Msg := { src := bits n 16 8, dst := src, txid := bits n 24 12, line := bits n 48 42, stat := 1 }
  if !isEci src then s
  else if cls = 0 ∧ (7 ≤ bits n 3 5 ∨ bits n 44 4 ≠ 0 ∨ (eciParse h 0).isNone) then
    ((s.returnCredit src cls).sendRsp src (.cmp m)).corrected .hostPort (word (64 * m.line))
  else if cls ≠ 0 ∧ (eciParse h 0).isNone then
    (if cls = 2 ∨ cls = 3 then s.returnCredit src cls else s).corrected .hostPort (word (64 * m.line))
  else s

def execEciMalformedRequest (h : BitVec 128) : State → Host.Outcome State Fault Refusal := event fun s => s.onMalformed h

/-! ## Nodes (R54) -/

/-- Two siblings that may merge (R54). -/
def Slice.mergeable (x : Slice) (clock : Nat) (a b : Node) : Bool :=
  let idle (n : Node) : Bool := decide (n.used + 2 ^ 18 ≤ clock) && !n.ovf && !x.nodeBusy n && !x.nodePinned n
  idle a && idle b && a.st == b.st && a.owner == b.owner && a.ver == b.ver && (a.sh.all b.sh.contains) && b.sh.all a.sh.contains

/-- NODE_MERGE (R54): the node named and its sibling become their parent. -/
def State.onMerge (s : State) (sl region level path : Nat) : State :=
  let x := s.sl sl
  let size := 2 ^ (10 - level)
  let find (p : Nat) : Option Node := x.nodes.find? fun n => n.region == region && n.level == level && n.path == p
  let base := path / (2 * size) * (2 * size)
  if level = 0 ∨ 10 < level then s
  else match find base, find (base + size) with
    | some a, some b =>
      if x.mergeable s.sclk a b then
        let p := { a with level := level - 1, path := base, used := max a.used b.used }
        s.setSl sl { x with nodes := x.nodes.filter (fun n => !(n.sameKey a || n.sameKey b)) ++ [p] }
      else s
    | _, _ => s

def execNodeMerge (sl region level path : Nat) : State → Host.Outcome State Fault Refusal := event fun s => s.onMerge sl region level path

/-! ## Fills and replays (R165, R166) -/

/-- R165, DRAM_FILL. A bank with a running pass is halted for the access (R98). -/
def execDramFill (sl line : Nat) : State → Host.Outcome State Fault Refusal :=
  event fun s => s.pauseBanks (64 * line) fun s => s.onDramFill sl line

/-- R166, REPLAY_RETRY. -/
def execReplayRetry (sl : Nat) : State → Host.Outcome State Fault Refusal := event fun s => s.onReplayRetry sl

/-! ## Probes and their answers (R47 to R49, R59, R64) -/

/-- A probe waits while its core's cluster is being reset, or its core is being mapped out, and the home has yet to extract the dirty
line (R65). -/
def State.probeWaits (s : State) (a line : Nat) : Bool :=
  let st := (s.al a line).st
  decide (a < 64) && ((s.clu (a / 4)).resetting || ((s.clu (a / 4)).mapping && (s.leavers (a / 4)).contains a)) && (st == .m || st == .o)

/-- A probe at its agent. -/
def State.probeAt (s : State) (k : ProbeKind) (e : Ev) (m : Msg) : State :=
  if s.probeWaits m.dst m.line then s.holdBack e else (s.hostCredit m.dst 1).onProbe k m

/-- R47, SINV. -/
def execSinv (x : Msg) : State → Host.Outcome State Fault Refusal := msgEvent x 1 fun s => s.probeAt .sinv (.sinv x) x
/-- R47, SSHR. -/
def execSshr (x : Msg) : State → Host.Outcome State Fault Refusal := msgEvent x 1 fun s => s.probeAt .sshr (.sshr x) x
/-- R47, SBINV. -/
def execSbinv (x : Msg) : State → Host.Outcome State Fault Refusal := msgEvent x 1 fun s => s.probeAt .sbinv (.sbinv x) x

/-- R48, PACK; SUB = 1 marks the answer to REPL, RREC, RDIN and RDRM (R155). -/
def execPack (x : Msg) : State → Host.Outcome State Fault Refusal :=
  msgEvent x 2 fun s => if x.sub = 1 then s.onReplicaAck x else (s.returnCredit x.src 2).onProbeAnswer x

/-- R59, PDAT. -/
def execPdat (x : Msg) : State → Host.Outcome State Fault Refusal := msgEvent x 2 fun s => (s.returnCredit x.src 2).onProbeAnswer x

/-- R59, WBD. -/
def execWbd (x : Msg) : State → Host.Outcome State Fault Refusal := msgEvent x 3 fun s => (s.returnCredit x.src 3).onWriteBack x
/-- R59, EVC. -/
def execEvc (x : Msg) : State → Host.Outcome State Fault Refusal := msgEvent x 3 fun s => (s.returnCredit x.src 3).onWriteBack x

/-- PROBE_TIMEOUT (R64): an ECI agent has not answered; the line is poisoned in the slice and the transaction goes on. -/
def State.onProbeTimeout (s : State) (sl line agent : Nat) : State :=
  if !isEci agent then s
  else match (s.sl sl).txns.findSome? fun t => t.probes.find? fun p => p.agent == agent && p.line == line with
    | none => s
    | some p =>
      let s := s.putLine sl line { s.lineData sl line with poison := true, dirty := true }
      (s.logError 2 .hostPort (word (64 * line))).answerProbe sl agent line p.ver id

def execProbeTimeout (sl line agent : Nat) : State → Host.Outcome State Fault Refusal := event fun s => s.onProbeTimeout sl line agent

/-! ## Replies (R47, R61, R62, R159, R354) -/

/-- R47, DS. -/
def execDs (x : Msg) : State → Host.Outcome State Fault Refusal := msgEvent x 2 fun s => (s.hostCredit x.dst 2).dataReply .s x
/-- R47, DE. -/
def execDe (x : Msg) : State → Host.Outcome State Fault Refusal := msgEvent x 2 fun s => (s.hostCredit x.dst 2).dataReply .e x
/-- R47, DM. -/
def execDm (x : Msg) : State → Host.Outcome State Fault Refusal := msgEvent x 2 fun s => (s.hostCredit x.dst 2).dataReply .m x
/-- R47, GM. -/
def execGm (x : Msg) : State → Host.Outcome State Fault Refusal := msgEvent x 2 fun s => (s.hostCredit x.dst 2).dataReply .m x

/-- A reply that the host's software sees. -/
def State.toHost (s : State) (e : Ev) : State := { s with port := { s.port with sent := s.port.sent ++ [e] } }

/-- TRAPVAL of a poisoned reply from a home (R198). -/
def linePoison (m : Msg) : Option Word := if m.poison then some (word (64 * m.line)) else none

/-- A home's reply to a thread of a core. -/
def State.homeReply (s : State) (m : Msg) (data : Vec) : State :=
  match s.txOwner m.txid (s.cksOfCore m.dst) with
  | some tk => s.replyLane tk m.txid data (linePoison m)
  | none => s

/-- The card on a core's contexts that waits for a request tag. -/
def State.cardOfTx (s : State) (c txid : Nat) : Option (Nat × Nat) :=
  (s.cksOfCore c).findSome? fun ck => ((s.cx ck).cards.find? fun d => d.outstanding.contains txid).map fun d => (ck, d.id)

/-- A transfer of a copy is done: the card goes on (R214, R456). Poison that a multicast line carried is the copy's (R30). -/
def State.cardDone (s : State) (c txid : Nat) (bad : Bool) : Option State :=
  (s.cardOfTx c txid).map fun e =>
    (s.modCard e.1 e.2 fun d =>
      let d := match bad, d.mcSrc.find? fun p => p.1 == txid with
        | true, some p => d.readPoison p.2
        | _, _ => d
      { d with outstanding := d.outstanding.filter (· != txid), mcSrc := d.mcSrc.filter fun p => p.1 != txid }).laterOnce
      (.jobCardStart e.1 e.2)

/-- The answer of a multicast receiver at the home (R456). -/
def State.mcdAnswer (s : State) (m : Msg) : State :=
  let sl := m.dst - 0x80
  match (s.sl sl).merges.find? fun g => g.id == m.txid && g.sent with
  | none => s
  | some g =>
    let left := g.awaiting.filter (· != m.src)
    if left.isEmpty then s.mergeDone sl g
    else s.modSl sl fun x => { x with merges := mapIf (fun e => e.id == g.id) (fun e => { e with awaiting := left }) x.merges }

/-- CMP (R46, R162, R274): of a capsule, of a multicast receiver, for the host, of a store-conditional, of a copy's line. -/
def State.onCmp (s : State) (m : Msg) : State :=
  if isEci m.dst then (s.hostCredit m.dst 2).toHost (.cmp m)
  else if 0x80 ≤ m.dst then s.mcdAnswer m
  else if m.slot = 4 then s.onCapCmp m.ck m
  else match s.cardDone m.dst m.txid m.poison with
    | some s => s
    | none => s.homeReply m 0

def execCmp (x : Msg) : State → Host.Outcome State Fault Refusal := msgEvent x 2 fun s => s.onCmp x

/-- ATR (R61, R159): a combined reply splits in two. -/
def State.onAtr (s : State) (m : Msg) : State :=
  if m.cmb then
    let d := m.data.getD 0
    let v := bytesAt d 0 m.len
    let first : Msg := { m with cmb := false, data := some (BitVec.ofNat 512 v) }
    let second : Msg := { first with dst := m.src2, txid := m.txid2, data := some (BitVec.ofNat 512 ((v + bytesAt d 8 m.len) % 2 ^ (8 * m.len))) }
    (s.later (.atr first)).later (.atr second)
  else if isEci m.dst then (s.hostCredit m.dst 2).toHost (.atr m)
  else s.homeReply m (BitVec.ofNat 512 (bytesAt (m.data.getD 0) 0 m.len))

def execAtr (x : Msg) : State → Host.Outcome State Fault Refusal := msgEvent x 2 fun s => s.onAtr x

/-- R62, LKD: the field at OFF of the line. -/
def execLkd (x : Msg) : State → Host.Outcome State Fault Refusal :=
  msgEvent x 2 fun s => s.homeReply x (BitVec.ofNat 512 (bytesAt (x.data.getD 0) x.off x.len))

/-- R62, SCF: status 1. -/
def execScf (x : Msg) : State → Host.Outcome State Fault Refusal := msgEvent x 2 fun s => s.homeReply x 1

/-- WOKE (R63, R354): the status goes to the thread's WAITA, wherever the thread is. -/
def State.onWoke (s : State) (m : Msg) : State :=
  let hit := s.threads.findSome? fun e => match e.2 with
    | some t => match t.findTx m.txid with
      | some (p, i) => if p.kind = .waita ∧ slotOfTk e.1 = m.thread then some (e.1, p.id, i) else none
      | none => none
    | none => none
  match hit with
  | some (tk, id, i) => s.fillLane tk id i (m.data.getD 0) none
  | none => s

def execWoke (x : Msg) : State → Host.Outcome State Fault Refusal := msgEvent x 2 fun s => s.onWoke x

/-- R46, RTY. -/
def execRty (x : Msg) : State → Host.Outcome State Fault Refusal :=
  msgEvent x 2 fun s => if isEci x.dst then ((s.hostCredit x.dst 2).toHost (.rty x)).resend x else s.resend x

/-- R47, WBA. -/
def execWba (x : Msg) : State → Host.Outcome State Fault Refusal := msgEvent x 2 fun s => (s.hostCredit x.dst 2).wbReply x
/-- R47, WBX. -/
def execWbx (x : Msg) : State → Host.Outcome State Fault Refusal := msgEvent x 2 fun s => (s.hostCredit x.dst 2).wbReply x

/-! ## Credits (R44) -/

/-- R44, CRD. -/
def execCrd (x : Msg) : State → Host.Outcome State Fault Refusal := msgEvent x 6 fun s => s.onCrd x

/-! ## Background sweep of an L1 (R60) -/

/-- L1_BACKGROUND_SWEEP: a dirty line of an absent context is written back while the write-back queue is empty (notes/assumptions/145.md). -/
def State.onSweep (s : State) (c : Nat) : State :=
  let ls := s.linesOf c
  if ls.any fun e => e.2.st == .xiA then s
  else match ls.find? fun e => (e.2.st == .m || e.2.st == .o) && e.2.tag != s.tagOfCore c with
    | some e => s.replaceLine c e.1
    | none => s

def execL1BackgroundSweep (core : Nat) : State → Host.Outcome State Fault Refusal := event fun s => s.onSweep core

/-! ## Masked multicast reads (R160 to R162, R456) -/

/-- A fresh number for a read that is served alone. -/
def Slice.freshAlone (x : Slice) : Nat :=
  ((List.range 4080).find? fun n => x.merges.all fun g => g.id != n + 16).getD 0 + 16

/-- A fresh number of an entry: 0 to 15 in the merge table, above for a read that is served alone. -/
def Slice.freshEntry (x : Slice) : Nat :=
  match (List.range 16).find? fun n => x.merges.all fun g => g.id != n with
  | some n => n
  | none => x.freshAlone

/-- The read of an entry is neither waiting nor sent. -/
def Slice.entryIdle (x : Slice) (sl id : Nat) : Bool :=
  let e : Ev := .mcrdWindowClose sl id
  !x.replay.contains e && !(x.filling.any fun f => f.2.contains e) && !(x.txns.any fun t => t.ev == some e)

/-- The data of an entry are sent from a helper's replica; an entry whose replica has been recalled goes to the home (R163). -/
def State.helperServe (s : State) (sl : Nat) (g : Merge) : State :=
  let h := homeOf g.line
  match (s.sl sl).replicas.find? fun r => r.1 == g.line with
  | some r => (s.useReplica h g.line).mcdOut sl g r.2 false
  | none =>
    let s := s.modSl sl fun x => { x with merges := x.merges.filter fun e => e.id != g.id }
    let id := (s.sl h).freshEntry
    (s.modSl h fun x => { x with merges := x.merges ++ [{ g with id := id, isOpen := false }] }).serve h (.mcrdWindowClose h id)

/-- MCRD_WINDOW_CLOSE: the entry is served once. -/
def State.onWindowClose (s : State) (sl id : Nat) : State :=
  match (s.sl sl).merges.find? fun g => g.id == id with
  | none => s
  | some g =>
    if g.sent ∨ !(g.isOpen || (s.sl sl).entryIdle sl id) then s
    else if (s.sl sl).full then s.laterOnce (.mcrdWindowClose sl id)
    else
      let s := s.modSl sl fun x => { x with merges := mapIf (fun e => e.id == id) (fun e => { e with isOpen := false }) x.merges }
      if homeOf g.line = sl then s.serve sl (.mcrdWindowClose sl id) else s.helperServe sl g

def execMcrdWindowClose (sl entry : Nat) : State → Host.Outcome State Fault Refusal := event fun s => s.onWindowClose sl entry

/-- An entry that an MCRD matches (R161). -/
def Merge.isFor (g : Merge) (m : Msg) : Bool :=
  g.line == m.line && g.poff == m.poff && g.bar == m.bar && g.nobar == m.nobar && g.region == m.region

/-- An MCRD at a slice: it merges into an entry whose window is open, opens one where none matches, or is served alone: after the
window of the entry that it matches, or with the table full (R161). -/
def State.mcrdAt (s : State) (sl : Nat) (m : Msg) : State :=
  let x := s.sl sl
  match x.merges.find? fun g => g.isOpen && g.isFor m && decide (g.issuers.length < 8) with
  | some g =>
    let join (e : Merge) : Merge := { e with mask := e.mask ||| m.mask, issuers := e.issuers ++ [(m.src, m.txid)] }
    s.setSl sl { x with merges := mapIf (fun e => e.id == g.id) join x.merges }
  | none =>
    let late : Bool := x.merges.any fun g => decide (g.id < 16) && !g.isOpen && g.isFor m
    let id := if late then x.freshAlone else x.freshEntry
    let g : Merge := { id := id, line := m.line, poff := m.poff, bar := m.bar, nobar := m.nobar, region := m.region, mask := m.mask,
                       issuers := [(m.src, m.txid)], isOpen := decide (id < 16) }
    let s := s.setSl sl { x with merges := x.merges ++ [g] }
    if id < 16 then s.later (.mcrdWindowClose sl id) else s.onWindowClose sl id

/-- MCRD (R160, R161, R163): an ECI agent's is a reserved opcode (R155); a redirected one goes to the helper, which sends on what
it holds no replica of. A full replay queue holds it back (R166). -/
def State.onMcrd (s : State) (m : Msg) : State :=
  let h := homeOf m.line
  if isEci m.src then ((s.returnCredit m.src 0).sendRsp m.src (.cmp { replyTo h m with stat := 1 })).corrected .hostPort (word (64 * m.line))
  else if s.pow.sweeping then s.sendRsp m.src (.rty (replyTo h m))
  else match s.redirected m.src m.line with
    | some r => (s.useReplica h m.line).mcrdAt r.1 m
    | none => if (s.sl h).full then s.holdBack (.mcrd m) else (s.countHot h m.line).mcrdAt h m

def execMcrd (x : Msg) : State → Host.Outcome State Fault Refusal := msgEvent x 0 fun s => s.onMcrd x

/-- MCD (R162): the line lands in the receiver's pool and counts at its barrier, unless its context is of another region. -/
def State.onMcd (s : State) (m : Msg) : State :=
  let s := match s.ckOfCore m.dst with
    | some ck =>
      if regionOfCk ck = m.region then
        let s := s.poolWrite ck (64 * m.poff) (bytesOfVec (m.data.getD 0))
        let s := if m.poison then s.poolMark ck (64 * m.poff) 64 else s
        if m.nobar then s else s.barCount ck m.bar 64
      else s
    | none => s
  s.later (.cmp { src := m.dst, dst := m.src, txid := m.txid, line := m.line })

def execMcd (x : Msg) : State → Host.Outcome State Fault Refusal := msgEvent x 2 fun s => s.onMcd x

/-! ## Replicas (R163, R164) -/

/-- The answer to a replica or redirect message. -/
def replicaAck (m : Msg) (ok : Bool) : Ev :=
  .pack { src := m.dst, dst := m.src, line := m.line, sub := 1, stat := if ok then 0 else 2 }

/-- REPL: a helper takes a replica while it has room for one of 32. A poisoned line is not replicated. -/
def State.onRepl (s : State) (m : Msg) : State :=
  let sl := m.dst - 0x80
  let x := s.sl sl
  let rest := x.replicas.filter fun r => r.1 != m.line
  if rest.length < 32 ∧ !m.poison then
    (s.setSl sl { x with replicas := rest ++ [(m.line, m.data.getD 0)] }).later (replicaAck m true)
  else s.later (replicaAck m false)

def execRepl (x : Msg) : State → Host.Outcome State Fault Refusal := msgEvent x 3 fun s => s.onRepl x

/-- R164, RREC. -/
def execRrec (x : Msg) : State → Host.Outcome State Fault Refusal :=
  msgEvent x 1 fun s => (s.modSl (x.dst - 0x80) fun y => { y with replicas := y.replicas.filter fun r => r.1 != x.line }).later (replicaAck x true)

/-- RDIN: an interface takes one of 8 redirects. -/
def State.onRdin (s : State) (m : Msg) : State :=
  let rest := (s.core m.dst).redirects.filter fun r => r.line != m.line
  if rest.length < 8 then
    (s.modCore m.dst fun c => { c with redirects := rest ++ [⟨m.line, m.slot⟩] }).later (replicaAck m true)
  else s.later (replicaAck m false)

def execRdin (x : Msg) : State → Host.Outcome State Fault Refusal := msgEvent x 1 fun s => s.onRdin x

/-- R164, RDRM. -/
def execRdrm (x : Msg) : State → Host.Outcome State Fault Refusal :=
  msgEvent x 1 fun s => (s.modCore x.dst fun c => { c with redirects := c.redirects.filter fun r => r.line != x.line }).later (replicaAck x true)

/-- REPLICA_DROP (R164): replication ends after 2^18 S-cycles without a request. -/
def State.onReplicaDrop (s : State) (sl line : Nat) : State :=
  match (s.sl sl).hot.find? fun h => h.line == line && h.active with
  | some h => if h.last + 2 ^ 18 ≤ s.sclk ∧ !(s.sl sl).busy line then s.unreplicate sl line h else s
  | none => s

def execReplicaDrop (sl line : Nat) : State → Host.Outcome State Fault Refusal := event fun s => s.onReplicaDrop sl line

end Sys2Proof.Machine
end

