-- ==== Sys2Proof/Machine/Network.lean ====
section
/-!
DEFINITION. The steps of the networks' other messages (spec/08, spec/10, spec/13): remote accesses to pools (R156, R205, R209),
allowances (R169 to R171), user messages, decrements and notices (R133, R144, R168), capsules (R169, R277), messages for contexts
that are not resident (R141), and retries of a network link (R153).
-/

namespace Sys2Proof.Machine

/-! ## Contexts that are not resident (R141) -/

/-- Where a message for a context goes: to its core while the context is resident, to the context's deferred ring, to its sender
while the ring is full, or nowhere once the context is gone. -/
inductive Addressed where
  | core (c : Nat)
  | ring (s : State)
  | full
  | gone

def State.addressed (s : State) (e : Ev) (m : Msg) : Addressed :=
  match s.coreOfCk m.ck with
  | some c => .core c
  | none => match s.context (ctxKeyOfCk m.ck) with
    | some x =>
      if x.deferred.length < 4096 then .ring (s.setContext (ctxKeyOfCk m.ck) (some { x with deferred := x.deferred ++ [e] })) else .full
    | none => if (s.region (regionOfCk m.ck)).isSome then .full else .gone

/-- A pending step is a remote access of one tile's interface to one context core. -/
def ofAccess (m : Msg) : Ev → Bool
  | .spwr x | .sprd x | .spsy x => x.src == m.src && x.ck == m.ck
  | _ => false

/-- A remote access to a context that is not resident waits at its interface, in order with the others to the same context; one to a
context that is gone is dropped (R205). -/
def State.spWaits (s : State) (e : Ev) (m : Msg) : State :=
  if (s.context (ctxKeyOfCk m.ck)).isSome then
    { s with agenda := s.agenda.filter (fun a => !ofAccess m a) ++ [e] ++ s.agenda.filter (ofAccess m) }
  else s

/-- The thread that sent a message holds it in its send buffer while `e` is some; a message sent by hardware has no thread. -/
def State.setSend (s : State) (m : Msg) (e : Option Ev) : State :=
  if m.ctag = 1 then s else s.modThr (mkTk m.srcCk m.thread) fun t => { t with send := e }

/-- The sender's interface holds a USER message or a decrement, and offers it again in its time. -/
def State.holdMsg (s : State) (m : Msg) (dec : Bool) : State :=
  let e : Ev := .deferredMessageRetry { m with sub := bitOf dec }
  (s.setSend m (some e)).later e

/-! ## User messages, decrements and notices (R133, R144, R168) -/

/-- A USER message at its core: accepted, or held at the port while the spill inbox is full. -/
def State.userAt (s : State) (c : Nat) (m : Msg) : State :=
  let x := s.core c
  if (!x.spill && decide ((s.cx m.ck).inbox.length < 64)) || decide (x.spillInbox.length < 16) then
    (s.userArrives c m.ck m).countDel c m.region
  else s.holdBack (.userMessage m)

def State.onUser (s : State) (m : Msg) : State :=
  match s.addressed (.userMessage m) m with
  | .core c => s.userAt c m
  | .ring s => s
  | .full => s.holdMsg m false
  | .gone => s

/-- R168, USER_MESSAGE. -/
def execUserMessage (x : Msg) : State → Host.Outcome State Fault Refusal := msgEvent x 4 fun s => s.onUser x

def State.decAt (s : State) (c : Nat) (m : Msg) : State := (s.decrement m.ck m.poff m.amount).countDel c m.region

def State.onDec (s : State) (m : Msg) : State :=
  match s.addressed (.dec m) m with
  | .core c => s.decAt c m
  | .ring s => s
  | .full => s.holdMsg m true
  | .gone => s

/-- R133, DEC. -/
def execDec (x : Msg) : State → Host.Outcome State Fault Refusal := msgEvent x 4 fun s => s.onDec x

/-- A fault record from its 64 bytes (R144). -/
def faultOf (v : Vec) : FaultRec :=
  { cause := bytesAt v 0 1, kind := bytesAt v 1 1, lin := bytesAt v 4 4, pc := word (bytesAt v 8 8), val := word (bytesAt v 16 8) }

def State.noticeAt (s : State) (m : Msg) : State :=
  (s.modCx m.ck fun x => { x with notices := x.notices ++ [faultOf (m.data.getD 0)] }).laterOnce (.dispatch m.ck)

def State.onNotice (s : State) (m : Msg) : State :=
  match s.addressed (.notice m) m with
  | .core c => (s.noticeAt m).countDel c m.region
  | .ring s => s
  | .full => s.holdBack (.notice m)
  | .gone => s

/-- R144, NOTICE. -/
def execNotice (x : Msg) : State → Host.Outcome State Fault Refusal := msgEvent x 4 fun s => s.onNotice x

/-- DEFERRED_MESSAGE_RETRY (R141): a held message is offered again; one whose sender was stopped is gone. -/
def State.onDeferredRetry (s : State) (m : Msg) : State :=
  let e : Ev := .deferredMessageRetry m
  let held : Bool := m.ctag == 1 || match s.thr (mkTk m.srcCk m.thread) with
    | some t => t.send == some e
    | none => false
  if !held then s
  else
    let m' := { m with sub := 0 }
    let d : Ev := if m.sub = 1 then .dec m' else .userMessage m'
    match s.addressed d m' with
    | .core c => let s := s.setSend m none; if m.sub = 1 then s.decAt c m' else s.userAt c m'
    | .ring s => s.setSend m none
    | .full => s.later e
    | .gone => s.setSend m none

def execDeferredMessageRetry (x : Msg) : State → Host.Outcome State Fault Refusal := event fun s => s.onDeferredRetry x

/-! ## Directory-service notices (R404, R405, R407) -/

/-- DIRSVC: the notice queue of 32 at the service core; a full queue holds the message at the port, and those behind it (notes/assumptions/146.md). -/
def State.onDirsvc (s : State) (m : Msg) : State :=
  let c := m.dst
  if (s.core c).notices.length < 32 then
    let n : Notice := { kind := m.sub, agent := m.ctag, sl := m.src - 0x80, line := m.line, level := m.chunk, ver := m.ver, token := m.txid, span := m.slot }
    let s := (s.modCore c fun x => { x with notices := x.notices ++ [n] }).countDel c standbyRegion
    match s.ckOfCore c with
    | some k => s.laterOnce (.dispatch k)
    | none => s
  else s.holdBack (.dirsvc m)

def execDirsvc (x : Msg) : State → Host.Outcome State Fault Refusal := msgEvent x 4 fun s => s.onDirsvc x

/-- R405, DSACK. An ECI agent's is a reserved opcode (R155) and is discarded. -/
def execDsack (x : Msg) : State → Host.Outcome State Fault Refusal :=
  msgEvent x 6 fun s => if isEci x.src then s.corrected .hostPort 0
    else s.modSl (x.dst - 0x80) fun y => { y with unacked := y.unacked - 1 }

/-- R407, DSDONE_WAIT_LOG: the home still waits for DSDONE, a corrected error of its slice. -/
def execDsdoneWaitLog (sl line : Nat) : State → Host.Outcome State Fault Refusal :=
  event fun s => if (s.sl sl).txns.any fun t => t.awaitDs && t.line == line then s.corrected (.slice sl) (word (64 * line)) else s

/-! ## Remote pool accesses (R156, R205, R209) -/

/-- The completion of a request to a pool's owner. -/
def spDone (s : State) (m : Msg) (stat : Nat) : Msg :=
  { src := (s.coreOfCk m.ck).getD 0, dst := m.src, txid := m.txid, stat := stat, ck := m.srcCk, srcCk := m.ck, region := m.region,
    poff := m.poff, len := m.len }

/-- SPWR: the bytes land, count at a copy's barrier, and both the completion and the allowance return. A request for a context
that is not resident waits (R205). -/
def State.onSpwr (s : State) (m : Msg) : State :=
  if (s.coreOfCk m.ck).isNone then s.spWaits (.spwr m) m
  else
    let s := s.poolWrite m.ck m.poff (leBytes m.len (m.data.getD 0).toNat)
    let s := if m.poison then s.poolMark m.ck m.poff m.len else s
    let s := if m.nobar then s else s.barCount m.ck m.bar m.len
    let r := spDone s m 0
    (s.later (.spdat r)).later (.cret { src := m.dst, dst := m.src, len := 1 })

def execSpwr (x : Msg) : State → Host.Outcome State Fault Refusal := msgEvent x 0 fun s => s.onSpwr x

/-- SPRD: the bytes read, with the full/empty bit of an aligned 8-byte word; POFF of a poisoned answer names the word. -/
def State.onSprd (s : State) (m : Msg) : State :=
  if (s.coreOfCk m.ck).isNone then s.spWaits (.sprd m) m
  else
    let bad := s.poolPoison m.ck m.poff m.len
    s.later (.spdat { spDone s m 0 with
      data := some (BitVec.ofNat 512 (s.poolRead m.ck m.poff m.len)), poison := bad.isSome, poff := bad.getD m.poff
      full := m.len == 8 && m.poff % 8 == 0 && s.fullBit m.ck m.poff })

def execSprd (x : Msg) : State → Host.Outcome State Fault Refusal := msgEvent x 0 fun s => s.onSprd x

/-- Remote requests parked at a context core. -/
def CtxCore.remoteParked (x : CtxCore) : Nat :=
  (x.parked.filter fun q => q.remote).length + (x.barWait.filter fun w => w.remote).length

/-- A cancel (R209): ERR if the request was still parked and is now removed, OK otherwise. -/
def State.spCancel (s : State) (m : Msg) : State :=
  let x := s.cx m.ck
  let mine (q : Parked) : Bool := q.remote && q.srcCk == m.srcCk && q.txid == m.txid
  let wait (w : BarWaiter) : Bool := w.remote && w.srcCk == m.srcCk && w.txid == m.txid
  if x.parked.any mine ∨ x.barWait.any wait then
    (s.setCx m.ck { x with parked := x.parked.filter (fun q => !mine q), barWait := x.barWait.filter fun w => !wait w }).later (.spdat (spDone s m 1))
  else s.later (.spdat (spDone s m 0))

/-- SPSY (R156, R209): atomics, full/empty operations, barrier operations and cancels at the owner. The answer carries a payload where
the operation returns a value. -/
def State.onSpsy (s : State) (m : Msg) : State :=
  if (s.coreOfCk m.ck).isNone then s.spWaits (.spsy m) m
  else
    let ck := m.ck
    let x := word (bytesAt (m.data.getD 0) 0 8)
    let i := m.poff / 16
    let done (s : State) (stat : Nat) : State := s.later (.spdat (spDone s m stat))
    let capacity (s : State) : State := done s 2
    let parks (k : ParkKind) : State :=
      let full := s.fullBit ck m.poff
      let must : Bool := match k with | .stfe => full | _ => !full
      if must ∧ 64 ≤ (s.cx ck).remoteParked then capacity s
      else s.park ck { off := m.poff, kind := k, value := x, remote := true, src := m.src, srcCk := m.srcCk, txid := m.txid }
    match m.atop with
    | 0xA => parks .ldfe
    | 0xB => parks .ldff
    | 0xC => parks .stfe
    | 0xD => done (s.stff ck m.poff x) 0
    | 0xE =>
      (match m.sub with
      | 0 => done (s.barInit ck i x.toNat) 0
      | 1 => (match s.barExpect ck i x.toNat with
        | some s => done s 0
        | none => done s 1)
      | 2 => done (s.barCount ck i x.toNat) 0
      | 3 =>
        let gen := field x 0 16
        if (s.bar ck i).gen ≠ gen then done s 0
        else if 64 ≤ (s.cx ck).remoteParked then capacity s
        else s.modCx ck fun c => { c with barWait := c.barWait ++ [{ index := i, gen := gen, remote := true, src := m.src, srcCk := m.srcCk, txid := m.txid }] }
      | _ => s.later (.spdat { spDone s m 0 with data := some ((s.bar ck i).readout.setWidth 512), len := 8 }))
    | 0xF => s.spCancel m
    | op =>
      let bad := s.poolPoison ck m.poff m.len
      let r := s.poolAtomic ck m.poff m.len op (bytesAt (m.data.getD 0) 0 m.len) (bytesAt (m.data.getD 0) 8 m.len)
      r.1.later (.spdat { spDone s m 0 with data := some (BitVec.ofNat 512 r.2), len := 8, poison := bad.isSome, poff := bad.getD m.poff })

def execSpsy (x : Msg) : State → Host.Outcome State Fault Refusal := msgEvent x 0 fun s => s.onSpsy x

/-- SPSY_RESEND (R209): a request refused for capacity goes again. -/
def State.onSpsyResend (s : State) (c txid : Nat) : State :=
  match takeFirst (fun (m : Msg) => m.txid == txid) (s.core c).spsyHeld with
  | some (m, rest) => (s.modCore c fun x => { x with spsyHeld := rest }).sendSpsy c { m with dst := (s.coreOfCk m.ck).getD 0 }
  | none => s

def execSpsyResend (core txid : Nat) : State → Host.Outcome State Fault Refusal := event fun s => s.onSpsyResend core txid

/-- A pending result ends with a condition (R210, R357): it is complete and the condition waits to be taken. -/
def State.failPend (s : State) (tk id cause : Nat) (val : Word) : State :=
  (s.modThr tk fun t => { t with pend := mapIf (fun p => p.id == id) (fun p => { p with
    fault := some (cause, val), lanes := p.lanes.map fun l => { l with done := true } }) t.pend }).bindPend tk id

/-- The request that SPDAT answers is kept no longer. -/
def State.dropOut (s : State) (m : Msg) : State :=
  s.modCore m.dst fun x => { x with spsyOut := x.spsyOut.filter fun q => !(q.txid == m.txid && q.srcCk == m.ck) }

/-- A wait that its owner, or the interface, has removed: SYNC_TIMEOUT, or BARRIER for an arming that is refused (R209, R210, R357). -/
def State.waitGone (s : State) (tk : Nat) (p : Pending) (i : Nat) (m : Msg) : State :=
  match p.kind with
  | .fullEmpty va => s.failPend tk p.id Cause.syncTimeout va
  | .waitbar n _ => s.failPend tk p.id Cause.syncTimeout (word n)
  | .barPost ea => s.failPend tk p.id Cause.barrier ea
  | _ => s.fillLane tk p.id i (m.data.getD 0) none

/-- SPDAT at a requesting thread with a piece that waits for it. A request refused for capacity waits to be sent again; one whose
cancel has been sent is dropped (R210). -/
def State.spdatLane (s : State) (tk : Nat) (p : Pending) (i : Nat) (m : Msg) : State :=
  let out := (s.core m.dst).spsyOut.find? fun q => q.txid == m.txid && q.srcCk == m.ck
  let s := s.dropOut m
  if m.stat = 2 then
    match out with
    | some q => (s.modCore m.dst fun x => { x with spsyHeld := x.spsyHeld ++ [q] }).later (.spsyResend m.dst m.txid)
    | none => s.waitGone tk p i m
  else if m.stat = 1 then s.waitGone tk p i m
  else s.fillLane tk p.id i (m.data.getD 0) (if m.poison then some (deviceForm m.srcCk (m.poff / 8 * 8)) else none)

/-- SPDAT (R156): the completion of a remote store, an answer for BTAGF or BTAGE, a piece of a pending result, or a copy's
transfer. -/
def State.onSpdat (s : State) (m : Msg) : State :=
  let mine (e : Nat × Option Thread) : Bool := ckOfTk e.1 == m.ck
  let hit : Option (Nat × Thread) := (s.threads.filter mine).findSome? fun e => match e.2 with
    | some t =>
      if (t.remote.any fun r => r.txid == m.txid) || (match t.btag with | some (n, none) => n == m.txid | _ => false) || (t.findTx m.txid).isSome
      then some (e.1, t) else none
    | none => none
  match hit with
  | some (tk, t) =>
    if t.remote.any fun r => r.txid == m.txid then
      (s.dropOut m).setThr tk { t with remote := t.remote.filter fun r => r.txid != m.txid }
    else match t.btag, t.findTx m.txid with
      | some (n, none), _ =>
        if n = m.txid then s.modThr tk fun t => { (if t.st = .long then t.woken else t) with btag := some (n, some m.full) } else s
      | _, some (p, i) => s.spdatLane tk p i m
      | _, none => s
  | none =>
    match (s.cx m.ck).cards.find? fun c => c.outstanding.contains m.txid with
    | some c => (s.modCard m.ck c.id fun d => { d with outstanding := d.outstanding.filter (· != m.txid) }).laterOnce (.jobCardStart m.ck c.id)
    | none => s

def execSpdat (x : Msg) : State → Host.Outcome State Fault Refusal := msgEvent x 2 fun s => s.onSpdat x

/-! ## Allowances (R169 to R171) -/

/-- The remote stores that wait at a core's interface are tried again, oldest first. -/
def State.sendSpwrHeld (s : State) (c : Nat) : State :=
  foldS (fun (m : Msg) (s : State) => s.sendSpwr c m) (s.core c).spwrHeld (s.modCore c fun x => { x with spwrHeld := [] })

/-- The copies of a core's contexts with transfers that wait at the interface go on. -/
def State.goLand (s : State) (c : Nat) : State :=
  foldS (fun ck (s : State) => foldS (fun (d : Card) (s : State) =>
    if d.toLand.isEmpty then s else s.laterOnce (.jobCardStart ck d.id)) (s.cx ck).cards s) (s.cksOfCore c) s

/-- What waits at the interfaces for an allowance or for a partition to be resident is tried again (R171, R205). -/
def State.retryHeld (s : State) (c : Nat) : State := (s.sendSpwrHeld c).goLand c

/-- CRET: LENM1 + 1 copy allowances are back. -/
def State.onCret (s : State) (m : Msg) : State :=
  (s.modCore m.dst fun c => { c with allowUsed := Tbl.upd 0 c.allowUsed m.src (· - m.len) }).retryHeld m.dst

def execCret (x : Msg) : State → Host.Outcome State Fault Refusal := msgEvent x 6 fun s => s.onCret x

/-- R169, GRANT. -/
def execGrant (x : Msg) : State → Host.Outcome State Fault Refusal := msgEvent x 6 fun s => s.onGrant x.ck x

/-- R169, R170, RET. -/
def execAlwRet (x : Msg) : State → Host.Outcome State Fault Refusal := msgEvent x 6 fun s => s.onRet x.ck x

/-! ## Capsules (R169, R277) -/

def State.lreqAt (s : State) (c : Nat) (m : Msg) : State := (s.onLreq m.ck m).countDel c m.region

/-- LREQ: with the destination's ring full, the sender's interface keeps it and sends it again (R141). -/
def State.onLreqMsg (s : State) (m : Msg) : State :=
  match s.addressed (.lreq m) m with
  | .core c => s.lreqAt c m
  | .ring s => s
  | .full => (s.modOut m.srcCk m.ctag fun o => { o with refused := true }).later (.lreqResend m.srcCk m.ctag)
  | .gone => s

/-- R169, LREQ. -/
def execLreq (x : Msg) : State → Host.Outcome State Fault Refusal := msgEvent x 5 fun s => s.onLreqMsg x

/-- R169, LREQ_RESEND. -/
def execLreqResend (ck ctag : Nat) : State → Host.Outcome State Fault Refusal := event fun s => s.onLreqResend ck ctag

def State.chunkAt (s : State) (c : Nat) (m : Msg) : State := (s.onChunk m.ck m).countDel c m.region

def State.onChunkMsg (s : State) (m : Msg) : State :=
  match s.addressed (.chunk m) m with
  | .core c => s.chunkAt c m
  | .ring s => s
  | .full => s.holdBack (.chunk m)
  | .gone => s

/-- R277, CHUNK. -/
def execChunk (x : Msg) : State → Host.Outcome State Fault Refusal := msgEvent x 5 fun s => s.onChunkMsg x

/-- R279, DEAD_LETTER. -/
def execDeadLetter (ck id : Nat) : State → Host.Outcome State Fault Refusal := event fun s => s.onDeadLetter ck id

/-- Delivers a message of a deferred ring through the loop-back port (R141). -/
def State.loopBack (s : State) (e : Ev) : State :=
  match e with
  | .userMessage m => s.onUser m
  | .dec m => s.onDec m
  | .notice m => s.onNotice m
  | .lreq m => s.onLreqMsg m
  | .chunk m => s.onChunkMsg m
  | _ => s

/-! ## Network links (R153) -/

/-- NETWORK_LINK_RETRY: every retry is a corrected error of the link (R29, R153); after 16 failed retries in a row the link is
unit-fatal, and the tiles that it joins are mapped out at their next swap. -/
def State.onLinkRetry (s : State) (n : Nat) (cured : Bool) : State :=
  let k := if cured then 0 else Tbl.get 0 s.port.linkFails n + 1
  let s := { s with port := { s.port with linkFails := Tbl.put 0 s.port.linkFails n k } }
  if k < 16 then s.corrected (.link n) 0 else s.unitFatal (.link n) 0

def execNetworkLinkRetry (link : Nat) (cured : Bool) : State → Host.Outcome State Fault Refusal := event fun s => s.onLinkRetry link cured

end Sys2Proof.Machine
end

