-- ==== Sys2Proof/Machine/Occur.lean ====
section
/-!
DEFINITION. The steps of the translation service (R71 to R81), of bank compute (R91 to R99), of the engines and the matrix unit
(R212 to R223, R264 to R267), and those that befall a waiting thread (R135, R143, R198, R210, R231).
-/

namespace Sys2Proof.Machine

/-! ## The translation service -/

/-- R71, ATS_TRANSLATION_COMPLETION. -/
def execAtsTranslationCompletion (c : AtsCompletion) : State → Host.Outcome State Fault Refusal := event fun s => s.onAtsCompletion c

/-- R74, PAGE_REQUEST_RESPONSE. -/
def execPageRequestResponse (prg : Nat) (code : PriCode) : State → Host.Outcome State Fault Refusal := event fun s => s.onPageResponse prg code

/-- R74, PAGE_REQUEST_TIMEOUT. -/
def execPageRequestTimeout (prg : Nat) : State → Host.Outcome State Fault Refusal := event fun s => s.onPageTimeout prg

/-- R74, PRI_ENABLE. -/
def execPriEnable (on : Bool) : State → Host.Outcome State Fault Refusal := event fun s => s.onPriEnable on

/-- R78, ATS_INVALIDATE_REQUEST. -/
def execAtsInvalidateRequest (r : AtsInvalidate) : State → Host.Outcome State Fault Refusal := event fun s => s.onInvalidate r

/-- R78, INVALIDATION_COMPLETION. -/
def execInvalidationCompletion (itag : Nat) : State → Host.Outcome State Fault Refusal := event fun s => s.onInvalDone itag

/-- R81, PRI_STOP_MARKER. -/
def execPriStopMarker (pasid : Nat) : State → Host.Outcome State Fault Refusal := event fun s => s.onStopMarker pasid

/-! ## Bank compute -/

/-- R91, BMV_JOB_START. -/
def execBmvJobStart (j : Nat) : State → Host.Outcome State Fault Refusal := event fun s => s.onBmvStart j

/-- R92, XLD. -/
def execXld (u off : Nat) (x : List (BitVec 256)) : State → Host.Outcome State Fault Refusal := event fun s => s.onXld u off x

/-- R92, BRUN. -/
def execBrun (u : Nat) (run : BankRun) : State → Host.Outcome State Fault Refusal := event fun s => s.onBrun u run

/-- R98, BHALT. -/
def execBhalt (u : Nat) : State → Host.Outcome State Fault Refusal := event fun s => s.onBhalt u

/-- R92, BRES. -/
def execBres (u : Nat) : State → Host.Outcome State Fault Refusal := event fun s => s.onBres u

/-- R92, PRD. -/
def execPrd (u first count : Nat) : State → Host.Outcome State Fault Refusal := event fun s => s.onPrd u first count

/-- R91, BANK_PASS_BATCH_END. -/
def execBankPassBatchEnd (j : Nat) : State → Host.Outcome State Fault Refusal := event fun s => s.onBatchEnd j

/-- R99, BMV_JOB_COMPLETION. -/
def execBmvJobCompletion (j : Nat) : State → Host.Outcome State Fault Refusal := event fun s => s.onBmvCompletion j

/-! ## The dispatcher, the engines and the matrix unit -/

/-- R134, DISPATCH. -/
def execDispatch (ck : Nat) : State → Host.Outcome State Fault Refusal := event fun s => s.onDispatch ck

/-- R212, FLUME_TRANSFER. -/
def execFlumeTransfer (tk k : Nat) : State → Host.Outcome State Fault Refusal := event fun s => s.onFlume tk k

/-- R217, JOB_CARD_START. -/
def execJobCardStart (ck id : Nat) : State → Host.Outcome State Fault Refusal := event fun s => s.onCardStart ck id

/-- R216, COPY_JOB_COMPLETE. -/
def execCopyJobComplete (ck id : Nat) : State → Host.Outcome State Fault Refusal := event fun s => s.onCopyComplete ck id

/-- R455, JOB_STATUS_FAIL. -/
def execJobStatusFail (ck id : Nat) : State → Host.Outcome State Fault Refusal := event fun s => s.onStatusFail ck id

/-- R223, SLUICE_OUTLET_FIRE. -/
def execSluiceOutletFire (ck o : Nat) : State → Host.Outcome State Fault Refusal := event fun s => s.onOutlet ck o

/-- R264, MATRIX_REQUEST_SERVE. -/
def execMatrixRequestServe (c : Nat) : State → Host.Outcome State Fault Refusal := event fun s => s.serveMatrix c

/-- R265, MATRIX_RESULT_BIND. -/
def execMatrixResultBind (c id : Nat) : State → Host.Outcome State Fault Refusal := event fun s => s.bindMatrix c id

/-- R264, FACTORISATION_STEP_END. -/
def execFactorisationStepEnd (c : Nat) : State → Host.Outcome State Fault Refusal := event fun s => s.endStep c

/-- R267, MLONG_COMPLETE. -/
def execMlongComplete (ck id : Nat) : State → Host.Outcome State Fault Refusal := event fun s => s.onMlongComplete ck id

/-! ## Wait limits (R210) -/

/-- The pending result that a thread in SYNC waits for. -/
def Thread.syncWait (t : Thread) : Option Pending := t.pend.find? fun p => !p.complete && p.waitState == .sync

/-- A synchronising request of `tk` with this tag, and what its removal from wherever it stands in the core leaves: parked
locally, waiting on a local barrier, or waiting to be sent again. -/
def State.dropLocalWait (s : State) (tk txid : Nat) : Option State :=
  let mine (q : Parked) : Bool := !q.remote && q.tk == tk && q.txid == txid
  let wait (w : BarWaiter) : Bool := !w.remote && w.tk == tk && w.txid == txid
  match s.ctx.find? fun e => e.2.parked.any mine || e.2.barWait.any wait with
  | some (ck, _) => some (s.modCx ck fun x => { x with parked := x.parked.filter (fun q => !mine q), barWait := x.barWait.filter fun w => !wait w })
  | none =>
    let held (m : Msg) : Bool := m.txid == txid && m.srcCk == ckOfTk tk && m.thread == slotOfTk tk
    match s.cores.find? fun e => e.2.spsyHeld.any held with
    | some (c, _) => some (s.modCore c fun x => { x with spsyHeld := x.spsyHeld.filter fun m => !held m })
    | none => none

/-- A full/empty wait or a WAITBAR reaches its limit: a local request is removed, a remote one is sent its cancel (R209). -/
def State.cancelWait (s : State) (tk : Nat) (p : Pending) (val : Word) : State :=
  match p.lanes.find? fun l => !l.done with
  | none => s
  | some l =>
    match s.dropLocalWait tk l.txid with
    | some s => s.failPend tk p.id Cause.syncTimeout val
    | none => match l.src with
      | .pool ck off =>
        -- the interface that sent the request sends its cancel after it; a request that waits there for its partition is dropped
        let mine (m : Msg) : Bool := m.txid == l.txid && m.srcCk == ckOfTk tk
        match s.cores.findSome? fun e => (e.2.spsyOut.find? mine).map fun m => (e.1, m) with
        | none => s
        | some (c, m) =>
          let s := s.modCore c fun x => { x with spsyOut := x.spsyOut.filter fun q => !mine q }
          if (s.coreOfCk ck).isNone then
            let waiting (e : Ev) : Bool := match e with | .spsy q => mine q && q.ck == ck && q.poff == off | _ => false
            ({ s with agenda := s.agenda.filter fun e => !waiting e }).failPend tk p.id Cause.syncTimeout val
          else (s.modThr tk fun t => { t with waitcount := 0 }).later (.spsy { m with atop := 0xF, sub := 0, data := none })
      | _ => s

/-- WAIT_LIMIT_EXPIRY (R210, R328, R355): the thread is in SYNC, in a slot, and its wait count has reached WAITLIMIT. -/
def State.onWaitLimit (s : State) (tk : Nat) : State :=
  match s.thr tk with
  | none => s
  | some t =>
    let slotted : Bool := match t.place with | .inSlot _ => true | _ => false
    if !slotted ∨ t.st ≠ .sync ∨ t.waitlimit = 0 ∨ t.waitcount < t.waitlimit.toNat then s
    else
      let s := s.leaveLs1Of t
      match t.park with
    | some v => { s with unit := { tk := tk, addr := t.pc, core := s.coreOfThread t } }.unitTrap tk Cause.syncTimeout v false
    | none => match t.syncWait with
      | none => s
      | some p => match p.kind with
        | .waita => s.fillLane tk p.id 0 3 none
        | .fullEmpty va => s.cancelWait tk p va
        | .waitbar n _ => s.cancelWait tk p (word n)
        | _ => s

/-- R210, WAIT_LIMIT_EXPIRY. -/
def execWaitLimitExpiry (tk : Nat) : State → Host.Outcome State Fault Refusal := event fun s => s.onWaitLimit tk

/-! ## Interrupts and deferred conditions (R198, R231) -/

/-- TIMER_EXPIRY: CYCLE has reached a CYCLECMP that is not zero. -/
def State.onTimer (s : State) (tk : Nat) : State :=
  match s.thr tk with
  | some t =>
    if t.cyclecmp ≠ 0 ∧ t.cyclecmp.toNat ≤ s.cycleOf t then (s.leaveLs1Of t).setThr tk { t with timer := true } else s
  | none => s

/-- R231, TIMER_EXPIRY. -/
def execTimerExpiry (tk : Nat) : State → Host.Outcome State Fault Refusal := event fun s => s.onTimer tk

/-- INTERRUPT_ENTRY: at a unit boundary, with the thread's pending results bound first (R228). -/
def State.onInterrupt (s : State) (tk : Nat) : State :=
  match s.thr tk with
  | none => s
  | some t =>
    let slotted : Bool := match t.place with | .inSlot _ => true | _ => false
    match t.interrupt? with
    | none => s
    | some src =>
      if !slotted then s
      else match t.pend with
        | p :: _ => s.awaitResults tk t p
        | [] => s.setThr tk (t.enterInterrupt src)

/-- R231, INTERRUPT_ENTRY. -/
def execInterruptEntry (tk : Nat) : State → Host.Outcome State Fault Refusal := event fun s => s.onInterrupt tk

/-- DEFERRED_POISON: every pending result is complete and one has met a condition. -/
def State.onDeferred (s : State) (tk : Nat) : State :=
  match s.thr tk with
  | none => s
  | some t =>
    if !t.pend.all Pending.complete then s
    else match t.pend.find? Pending.bad with
      | some p => s.deferTrap tk p
      | none => s

/-- R198, DEFERRED_POISON. -/
def execDeferredPoison (tk : Nat) : State → Host.Outcome State Fault Refusal := event fun s => s.onDeferred tk

/-! ## Pre-emption and heartbeats (R135, R143) -/

/-- GRACE_EXPIRY: a full save at a unit boundary, once the thread's results are bound and its stores performed. -/
def State.onGrace (s : State) (tk : Nat) : State :=
  match s.thr tk with
  | some t =>
    let slotted : Bool := match t.place with | .inSlot _ => true | _ => false
    if slotted ∧ t.preempt = some 0 ∧ t.quiet ∧ t.st ≠ .long then
      match s.coreOfCk t.roster with
      | some _ => (s.saveThread tk).laterOnce (.rosterMultiplex t.roster)
      | none => s.saveThread tk
    else s
  | none => s

/-- R135, GRACE_EXPIRY. -/
def execGraceExpiry (tk : Nat) : State → Host.Outcome State Fault Refusal := event fun s => s.onGrace tk

/-- A thread's heartbeat is missed: its armed count has reached zero, whatever state it has entered since (R143). -/
def State.missesHeartbeat (s : State) (tk : Nat) (t : Thread) : Bool :=
  !isService tk && t.st != .stopped && (s.valsOf (ckOfTk tk)).hbarm &&
    (t.missed || (t.place.slotted && t.hbeatwin == 0 && (t.st == .ready || t.st == .long)))

/-- HEARTBEAT_MISS: the thread stops, its context is saved in full and its slot freed, and a fault event of kind 1 arises. -/
def State.onHeartbeat (s : State) (tk : Nat) : State :=
  match s.thr tk with
  | some t =>
    if s.missesHeartbeat tk t then
      let s := (s.leaveLs1Of t).stopThread tk Cause.heartbeat
      let s := if t.place.slotted then s.saveThread tk else s
      (s.faultEvent (regionOfCk (ckOfTk tk)) ⟨Cause.heartbeat, 1, t.lin, t.pc, 0⟩).laterOnce (.rosterMultiplex t.roster)
    else s
  | none => s

/-- R143, HEARTBEAT_MISS. -/
def execHeartbeatMiss (tk : Nat) : State → Host.Outcome State Fault Refusal := event fun s => s.onHeartbeat tk

end Sys2Proof.Machine
end

