-- ==== Sys2Proof/Machine/Regions.lean ====
section
/-!
DEFINITION. Regions and the scheduler (spec/07): scheduling points (R126 to R128), halting a partition (R140), swapping contexts
(R130, R131, R141, R146), the end of a region (R125) and the multiplexing of a core's roster (R137).
-/

namespace Sys2Proof.Machine

/-! ## Regions and clusters -/

/-- The live regions, by number. -/
def State.liveRegions (s : State) : List (Nat × Region) := s.sched.regions.filterMap fun e =>
  (e.2.filter fun x => !x.ended).map fun x => (e.1, x)

/-- The regions that have ended and whose clusters are still held. -/
def State.overRegions (s : State) : List Nat := s.sched.regions.filterMap fun e => (e.2.filter Region.ended).map fun _ => e.1

/-- The key of a region's partition context. -/
def ctxKey (r p : Nat) : Nat := 16 * r + p

/-- The context cores of a context. -/
def cksOf (k : Nat) : List Nat := (List.range 4).map (4 * k + ·)

/-- The keys of a region's contexts. -/
def Region.keys (x : Region) (r : Nat) : List Nat := (List.range x.vals.parts).map (ctxKey r)

/-- A cluster takes partitions: it is in service and is not about to leave it (R22, R23). -/
def Cluster.serves (x : Cluster) : Bool := x.inService && !x.leaving && !x.resetting

def State.servers (s : State) : List Nat := (List.range 16).filter fun c => (s.clu c).serves

/-! ## Passes (R128) -/

/-- The least pass of the RUNNABLE regions of a priority. -/
def State.leastPass (s : State) (prio : Nat) : Option Nat :=
  ((s.liveRegions.filter fun e => e.2.st == .runnable && e.2.vals.prio == prio).map fun e => e.2.pass).min?

/-- A least pass above 2^62 is subtracted from every pass at its level. -/
def State.normPass (s : State) (prio : Nat) : State :=
  match s.leastPass prio with
  | some m =>
    if 2 ^ 62 < m then
      foldS (fun (e : Nat × Region) (s : State) =>
        if e.2.st = .runnable ∧ e.2.vals.prio = prio then s.modRegion e.1 fun x => { x with pass := x.pass - m } else s) s.liveRegions s
    else s
  | none => s

/-- The cores of a region's partitions in service: four each, and three for a degraded partition (R10). -/
def State.coresOf (s : State) (x : Region) : Nat :=
  4 * x.vals.parts - (x.clusters.flatMap fun c => (List.range 4).filter fun j => (s.core (4 * c + j)).out).length

/-- A region's pass advances by `used × PARTS × 256 / WEIGHT`, and the count starts again (R128). A degraded partition counts as three
cores of four (R10, notes/assumptions/130.md). -/
def State.advancePass (s : State) (r : Nat) : State :=
  match s.region r with
  | some x =>
    (s.setRegion r (some { x with pass := (x.pass + x.used * s.coresOf x * 64 / x.vals.weight) % 2 ^ 64, used := 0 })).normPass x.vals.prio
  | none => s

/-! ## Scheduling points (R126, R127) -/

/-- A resident region is protected: its slice has not expired, and no RUNNABLE region has a strictly higher PRIO (R127). -/
def State.guarded (s : State) (x : Region) : Bool :=
  x.resident && !x.expired && !(s.liveRegions.any fun y => y.2.st == .runnable && decide (x.vals.prio < y.2.vals.prio))

/-- The order of the candidates. -/
def candBefore (a b : Nat × Region) : Bool :=
  decide (b.2.vals.prio < a.2.vals.prio) ||
    (a.2.vals.prio == b.2.vals.prio && (decide (a.2.pass < b.2.pass) || (a.2.pass == b.2.pass && decide (a.1 < b.1))))

def insertCand (e : Nat × Region) : List (Nat × Region) → List (Nat × Region)
  | [] => [e]
  | x :: l => if candBefore e x then e :: x :: l else x :: insertCand e l

/-- The walk: it stops at the first candidate that does not fit. -/
def walk : Nat → List (Nat × Region) → List Nat
  | _, [] => []
  | free, (r, x) :: l => if x.vals.parts ≤ free then r :: walk (free - x.vals.parts) l else []

/-- The context starts to halt: no thread of it issues, and the matrix unit stops what a halt stops (R140, R270). -/
def State.haltContext (s : State) (k : Nat) : State :=
  match s.context k with
  | some x => match x.cluster with
    | some c => if x.halting then s else (s.setContext k (some { x with halting := true })).mxHalt c
    | none => s
  | none => s

/-- A region leaves residency: its contexts halt, and those still to come in do not. -/
def State.preemptRegion (s : State) (r : Nat) (on : Bool) : State :=
  match s.region r with
  | some x =>
    let s := (s.advancePass r).modRegion r fun y => { y with resident := false, selected := on, expired := false }
    foldS (fun k s =>
      let s := s.haltContext k
      { s with clusters := s.clusters.map fun e => (e.1, if e.2.incoming = some k then { e.2 with incoming := none } else e.2) }) (x.keys r) s
  | none => s

/-- What becomes of one region at a scheduling point. A FAULTED one that is not protected is pre-empted like any other. -/
def State.atPoint (s : State) (srv sel : List Nat) (r : Nat) (x : Region) : State :=
  let on := sel.contains r
  let moves := x.clusters.any fun c => !srv.contains c
  if s.guarded x then s
  else if x.st ≠ .runnable then (if x.resident then s.preemptRegion r false else s)
  else if x.resident then
    if !on ∨ moves then s.preemptRegion r on
    else if x.expired then s.modRegion r fun y => { y with selected := true, used := 0, expired := false }
    else s
  else s.modRegion r fun y => { y with selected := on }

/-- A scheduling point (R127). -/
def State.schedPoint (s : State) : State :=
  let srv := s.servers
  let live := s.liveRegions
  let kept := live.filter fun e => s.guarded e.2
  let used := (kept.flatMap fun e => e.2.clusters.filter srv.contains).length
  let cands := (live.filter fun e => e.2.st == .runnable && !s.guarded e.2 && decide (e.2.vals.parts ≤ srv.length)).foldr insertCand []
  let sel := walk (srv.length - used) cands
  foldS (fun (e : Nat × Region) (s' : State) =>
    if s.guarded e.2 then s' else s'.atPoint srv sel e.1 e.2) live s

/-! ## Placement (R126, R128, R146) -/

/-- Core j of a cluster is mapped out, or the cluster's next swap maps it out with no spare cluster to take its place (R10). -/
def State.goesOut (s : State) (c j : Nat) : Bool :=
  (s.core (4 * c + j)).out || ((s.clu c).failed.contains (4 * c + j) && s.spareCluster.isNone)

/-- The cores that host the logical contexts of the cluster's mapped-out cores for a region of this GRAN: the lowest surviving
core with room; `none` where there is none. -/
def State.hostPlan (s : State) (c gran : Nat) : Option (List (Nat × Nat)) :=
  let out := s.goesOut c
  (List.range 4).foldl (fun acc j => match acc with
    | none => none
    | some l =>
      if !out j then some l
      else match (List.range 4).find? fun k => !out k && decide (gran * (2 + (l.filter fun e => e.2 == k).length) ≤ 48) with
        | some k => some (l ++ [(j, k)])
        | none => none) (some [])

/-- A cluster can be assigned to a region now. -/
def State.freeFor (s : State) (x : Region) (c : Nat) : Bool :=
  let cl := s.clu c
  cl.incoming.isNone && (s.hostPlan c x.vals.gran).isSome && match cl.resident with
    | none => true
    | some k => match s.region (k / 16) with
      | some y => !y.resident
      | none => true

/-- The clusters for the partitions of a region: each takes the one it last used if it is free, else the lowest free one. -/
def assign (avail last : List Nat) (parts : Nat) : Option (List Nat) :=
  let own (p : Nat) : Option Nat := (last[p]?).filter avail.contains
  let kept := (List.range parts).filterMap own
  let rest := avail.filter fun c => !kept.contains c
  if avail.length < parts then none
  else some ((List.range parts).foldl (fun (acc : List Nat × List Nat) p => match own p with
    | some c => (acc.1 ++ [c], acc.2)
    | none => (acc.1 ++ acc.2.take 1, acc.2.drop 1)) ([], rest)).1

/-- A selected region whose contexts are all out of their clusters is placed: its clusters are to take them in. -/
def State.placeRegion (s : State) (r : Nat) (x : Region) : State :=
  if x.st ≠ .runnable ∨ !x.selected ∨ x.resident then s
  else if (x.keys r).any fun k => match s.context k with | some c => c.cluster.isSome | none => true then s
  else match assign ((s.servers).filter (s.freeFor x)) x.clusters x.vals.parts with
    | none => s
    | some l =>
      let s := s.modRegion r fun y => { y with resident := true, used := 0, expired := false, clusters := l }
      foldS (fun (e : Nat × Nat) (s : State) => s.modClu e.2 fun y => { y with incoming := some (ctxKey r e.1) })
        ((List.range x.vals.parts).zip l) s

/-- Places what has been selected. -/
def State.placeAll (s : State) : State :=
  foldS (fun (e : Nat × Region) (s : State) => match s.region e.1 with
    | some x => s.placeRegion e.1 x
    | none => s) (s.liveRegions.foldr insertCand []) s

/-! ## REGION_RUNNABLE, REGION_SLICE_EXPIRY (R124, R127, R132, R142) -/

/-- The save slots that no region holds. -/
def State.freeSlots (s : State) : List Nat :=
  let used := s.liveRegions.flatMap fun e => e.2.saveSlots
  (List.range (min s.sched.saveCount.toNat 4096)).filter fun n => !used.contains n

/-- A PENDING region can become RUNNABLE. -/
def State.canRun (s : State) (x : Region) : Bool :=
  x.st == .pending && s.sched.svcEn && s.sched.saveEn && decide (x.vals.parts ≤ s.freeSlots.length)

/-- A PENDING region waits because too few save slots are free (R142). -/
def State.slotsShort (s : State) (x : Region) : Bool :=
  x.st == .pending && s.sched.saveEn && decide (s.freeSlots.length < x.vals.parts)

def State.onRunnable (s : State) (r : Nat) : State :=
  match s.region r with
  | some x =>
    if !s.canRun x then s
    else
      let slots := s.freeSlots.take x.vals.parts
      let pass := match s.leastPass x.vals.prio with
        | some m => max x.pass m
        | none => x.pass
      let s := s.setRegion r (some { x with saveSlots := slots, pass := pass })
      let s := foldS (fun (e : Nat × Nat) (s : State) =>
        s.setContext (ctxKey r e.1) (some { region := r, part := e.1, saveSlot := e.2 })) ((List.range x.vals.parts).zip slots) s
      (s.setRegionState r .runnable 0).schedPoint
  | none => s

/-- R124, REGION_RUNNABLE. -/
def execRegionRunnable (r : Nat) : State → Host.Outcome State Fault Refusal := event fun s => s.onRunnable r

/-- The clusters of a region that are in LS1 leave it, to act on its slice (R3). -/
def State.leaveRegion (s : State) (r : Nat) : State :=
  foldS (fun c (s : State) => match (s.clu c).resident with
    | some k => if k / 16 = r then s.leaveLs1 c else s
    | none => s) (List.range 16) s

def State.onSliceExpiry (s : State) (r : Nat) : State :=
  match s.region r with
  | some x =>
    if x.resident ∧ !x.expired ∧ x.vals.slice ≤ x.used then
      (((s.leaveRegion r).advancePass r).modRegion r fun y => { y with expired := true }).schedPoint
    else s
  | none => s

/-- R127, REGION_SLICE_EXPIRY. -/
def execRegionSliceExpiry (r : Nat) : State → Host.Outcome State Fault Refusal := event fun s => s.onSliceExpiry r

/-! ## Halting a partition (R140) -/

/-- The threads whose home is a context. -/
def State.threadsOf (s : State) (k : Nat) : List (Nat × Thread) :=
  s.threads.filterMap fun e => match e.2 with
    | some t => if ctxKeyOfCk (ckOfTk e.1) = k then some (e.1, t) else none
    | none => none

/-- A thread can be saved at a halt: what it still awaits is registered elsewhere, or is a capsule's completion (R135, R282). -/
def Thread.haltQuiet (t : Thread) : Bool :=
  !t.invalHeld && t.sbuf.isEmpty && t.remote.isEmpty && t.pend.all fun p => match p.kind with
    | .fullEmpty _ | .waita | .waitbar _ _ | .capsule => true
    | _ => false

/-- A card lets its partition halt: nothing of it is outstanding, and its bank-compute job is not past step 4 (R100, R140). -/
def State.cardQuiet (s : State) (c : Card) : Bool :=
  c.outstanding.isEmpty && !(c.kind == .bmv && c.started && match s.bmvJob c.job with
    | some j => j.swept
    | none => false)

/-- The cluster's matrix unit holds no work. -/
def Cluster.mxIdle (x : Cluster) : Bool := x.mxStep.isNone && x.mxDone.isEmpty && x.mxQueue.all fun e => e.2.isEmpty

/-- Every core of a halting partition has halted. -/
def State.haltReady (s : State) (k : Nat) : Bool :=
  match s.context k with
  | some x => match x.cluster with
    | some c => x.halting && !x.halted && (s.threadsOf k).all (fun e => e.2.haltQuiet) && (s.clu c).mxIdle &&
        (cksOf k).all fun ck => (s.cx ck).cards.all s.cardQuiet
    | none => false
  | none => false

/-- PARTITION_HALT: the threads of the partition are saved in full. -/
def State.onHalt (s : State) (k : Nat) : State :=
  if !s.haltReady k then s
  else
    let s := foldS (fun (e : Nat × Thread) (s : State) => match e.2.place with
      | .inSlot _ => s.saveThread e.1
      | _ => s) (s.threadsOf k) s
    s.modContext k fun x => { x with halted := true }

/-- R140, PARTITION_HALT. -/
def execPartitionHalt (r p : Nat) : State → Host.Outcome State Fault Refusal := event fun s => s.onHalt (ctxKey r p)

/-! ## Swapping contexts (R130, R131, R141, R146) -/

/-- The standby context of a core is at rest. -/
def State.standbyQuiet (s : State) (c : Nat) : Bool :=
  (List.range 4).all fun j => match s.thr (mkTk (mkCk standbyRegion (4 * c + j)) 15) with
    | some t => t.haltQuiet
    | none => true

/-- The cluster can swap: the resident context has halted with every partition of its region, or there is none and a context is to
come in or a core to be mapped out. -/
def State.swapReady (s : State) (c : Nat) : Bool :=
  let x := s.clu c
  match x.resident with
  | some k => match s.context k, s.region (k / 16) with
    | some y, some r => y.halted && (r.keys (k / 16)).all fun j => match s.context j with
        | some z => z.cluster.isNone || z.halted
        | none => true
    | _, _ => true
  | none => (x.incoming.isSome || !x.failed.isEmpty) && s.standbyQuiet c

/-- Saves the standby contexts' threads of a cluster. -/
def State.standDown (s : State) (c : Nat) : State :=
  foldS (fun j (s : State) =>
    let tk := mkTk (mkCk standbyRegion (4 * c + j)) 15
    match s.thr tk with
    | some t => (match t.place with
      | .inSlot _ => s.saveThread tk
      | _ => s)
    | none => s) (List.range 4) s

/-- A free bay of the holding pond. -/
def State.freeBay (s : State) : Option Nat :=
  [0, 1].find? fun b => s.sched.contexts.all fun e => match e.2 with
    | some x => x.bay != some b
    | none => true

/-- The outgoing context leaves: to a free bay, else to its save slot. -/
def State.swapOut (s : State) (c : Nat) : State :=
  match (s.clu c).resident with
  | none => s.standDown c
  | some k =>
    let bay := s.freeBay
    let s := s.modContext k fun x => { x with cluster := none, lastCluster := some c, bay := bay }
    let s := foldS (fun ck (s : State) => s.modCx ck fun x => { x with host := none }) (cksOf k) s
    s.modClu c fun x => { x with resident := none }

/-! ## Lines that a home takes from a core (R25, R28, R65) -/

/-- A home takes a line from a core's L1. Dirty data of the line's owner go to the slice; they are poisoned where they cannot be read. -/
def State.extractLine (s : State) (a line : Nat) (l : ALine) (lost : Bool) : State :=
  let sl := homeOf line
  let owned : Bool := match (s.sl sl).node line with
    | some n => n.st == .own && n.owner == a && n.ver == l.ver
    | none => false
  let s := if l.st.dirty ∧ owned then s.takeData sl line l.data (l.poison || lost) else s
  let s := if l.st.dirty ∧ owned ∧ lost then s.poisoned (.core a) (word (64 * line)) else s
  s.setAl a line {}

/-- The directory drops a core from the nodes whose lines it no longer holds, but for nodes that a transaction works on. -/
def State.forgetCore (s : State) (a : Nat) : State :=
  let left (n : Node) : Bool := (s.linesOf a).any fun e => n.covers e.1
  let forget (n : Node) : Node :=
    let sh := n.sh.filter (· != a)
    if n.st = NState.own ∧ n.owner = a then { n with st := if sh.isEmpty then .unc else .shr, sh := sh, owner := 0 }
    else if n.st = NState.shr ∧ n.sh.contains a then { n with st := if sh.isEmpty && !n.ovf then .unc else .shr, sh := sh }
    else n
  { s with slices := s.slices.map fun e => (e.1, { e.2 with nodes := mapIf (fun n => !(left n || e.2.nodeBusy n)) forget e.2.nodes }) }

/-- The homes take the settled lines of a core's L1. Where the L1 may be unreadable, whether a line's data can be read is open
(notes/assumptions/151.md). In an orderly entry to LS2 a line on which a transaction is open is left to it. -/
def State.extractCore (s : State) (a : Nat) (torn : Bool) : State :=
  (foldS (fun (e : Nat × ALine) (s : State) =>
    if !e.2.st.stable ∨ (!torn ∧ (s.sl (homeOf e.1)).busy e.1) then s
    else if torn then ({ s with free := s.free + 1 }).extractLine a e.1 e.2 (Config.freeNat s.free % 2 == 1)
    else s.extractLine a e.1 e.2 false) (s.linesOf a) s).forgetCore a

/-- The directory names a core, or the core holds a line: it may still be probed. -/
def State.holdsLines (s : State) (a : Nat) : Bool :=
  !(s.linesOf a).isEmpty || s.slices.any fun e => e.2.nodes.any fun n => n.holders.contains a

/-! ## Mapping out (R10, R65, R147) -/

/-- Cores that have failed are mapped out: the spare cluster takes the partition whole, and the port maps follow (R147), else the
partition is degraded (R10). The control cores wake (R32, notes/assumptions/132.md). -/
def State.mapOut (s : State) (c : Nat) : State :=
  let x := s.clu c
  if x.failed.isEmpty then s
  else
    let gone := s.leavers c
    let s := match s.spareCluster with
      | some p =>
        let s := foldS (fun n (s : State) => s.modCore n fun y => { y with icache := [], out := false }) gone s
        ({ s with pow := { s.pow with clusterMap := Tbl.put c s.pow.clusterMap c p } }).loadPorts
      | none => foldS (fun n (s : State) => s.modCore n fun y => { y with icache := [], out := true }) gone s
    (s.modClu c fun y => { y with failed := [], ctu := [], mapping := false }).wakeControl

/-- The next value of the cluster's tag counter that no context last here and held in a bay has (R130). -/
def State.newTag (s : State) (c : Nat) : BitVec 8 :=
  let used := s.sched.contexts.filterMap fun e => match e.2 with
    | some x => if x.lastCluster = some c ∧ x.bay.isSome then some x.tag else none
    | none => none
  let n := (s.clu c).tagCounter
  (([1, 2, 3] : List (BitVec 8)).map (n + ·)).find? (fun t => !used.contains t) |>.getD (n + 1)

/-- GEOM0 to GEOM3 of a thread with linear index `i` in partition `p` (R201). -/
def Region.geometry (x : Region) (p i : Nat) (t : Thread) : Thread :=
  let n := x.gx * x.gy * x.gz
  { t with
    geom0 := word (x.gx + 2 ^ 16 * x.gy + 2 ^ 32 * x.gz + 2 ^ 48 * x.tpc)
    geom1 := word (i % x.gx + 2 ^ 16 * (i / x.gx % x.gy) + 2 ^ 32 * (i / (x.gx * x.gy) % x.gz) + 2 ^ 48 * bitOf (decide (n ≤ i)))
    geom2 := word (i + 2 ^ 32 * (4 * x.vals.parts * x.tpc))
    geom3 := word (n + 2 ^ 48 * p) }

/-- A user thread at first placement (R131). -/
def Region.firstThread (x : Region) (ck slot : Nat) : Thread :=
  let i := rcOfCk ck * x.tpc + slot
  let t : Thread := { pc := x.entry, place := .saved, roster := ck, threadId := BitVec.ofNat 4 slot, poolword := x.poolword,
                      waitlimit := word x.vals.waitdef, hbeatwin := if x.vals.hbarm then word x.vals.hbwin else 0 }
  ((x.geometry (rcOfCk ck / 4) i t).wg 3 x.argva).wg 4 (word i)

/-- The service thread at first placement and of a standby context (R132). -/
def State.serviceThread (s : State) (ck core : Nat) : Thread :=
  let t : Thread := { pc := word (s.sched.svcBase.toNat * 4096), priv := 1, place := .saved, roster := ck, threadId := 15,
                      poolword := match s.region (regionOfCk ck) with | some x => x.poolword | none => 0 }
  ((t.wg 3 (word core)).wg 4 (word (s.sched.svcDataBase.toNat * 2 ^ 24 + 0x40000 * core))).wg 5 (word (regionOfCk ck))

/-- First placement (R131): pools zero and empty, and every thread at its start. -/
def State.firstPlacement (s : State) (c k : Nat) : State :=
  match s.region (k / 16) with
  | none => s
  | some x =>
    foldS (fun (e : Nat × Nat) (s : State) =>
      let s := s.setCx e.2 { (s.cx e.2) with pool := [], full := [], poison := [] }
      let s := s.setThr (mkTk e.2 15) (s.serviceThread e.2 (4 * c + e.1))
      foldS (fun slot (s : State) => s.setThr (mkTk e.2 slot) (x.firstThread e.2 slot)) (List.range x.tpc) s)
      ((List.range 4).zip (cksOf k)) s

/-- Threads of a context core are restored into free slots; the service thread into slot 15 of its own core (R138, R146). -/
def State.restoreCore (s : State) (ck : Nat) : State :=
  match s.coreOfCk ck with
  | none => s
  | some c =>
    let here (e : Nat × Option Thread) : Option Nat := match e.2 with
      | some t => if t.roster = ck ∧ t.place = .saved ∧ t.st ≠ .stopped ∧ !(isService e.1 && (s.cx ck).host.isSome) then some e.1 else none
      | none => none
    foldS (fun tk (s : State) =>
      if isService tk then s.restoreThread tk 15
      else match s.freeSlot c ck with
        | some slot => s.restoreThread tk slot
        | none => s) (s.threads.filterMap here) s

/-- Work that a context brings with it goes on. -/
def State.resumeCore (s : State) (ck : Nat) : State :=
  let x := s.cx ck
  let s := foldS (fun (c : Card) (s : State) => s.laterOnce (.jobCardStart ck c.id)) x.cards s
  let s := foldS (fun (o : OutCap) (s : State) => if o.refused then s.laterOnce (.lreqResend ck o.ctag) else s) x.outcaps s
  let s := foldS (fun (d : DeadLetter) (s : State) => s.laterOnce (.deadLetter ck d.id)) x.dead s
  let s := foldS (fun (e : Nat × Option Thread) (s : State) => match e.2 with
    | some t => if ckOfTk e.1 = ck then foldS (fun (f : Nat × Flume) (s : State) => s.laterOnce (.flumeTransfer e.1 f.1)) t.flumes s else s
    | none => s) s.threads s
  (s.laterOnce (.dispatch ck)).sluiceCheck ck

/-- The incoming context: its tag, its first placement or its restore, and the delivery of its deferred ring. -/
def State.swapIn (s : State) (c k : Nat) : State :=
  match s.context k, s.region (k / 16) with
  | some x, some r =>
    let keep : Bool := x.placed && x.lastCluster == some c
    let tag := if keep then x.tag else s.newTag c
    let s := s.modClu c fun y => { y with resident := some k, incoming := none, tagCounter := if keep then y.tagCounter else tag, power := .ls0 }
    let s := if x.placed then s else s.firstPlacement c k
    let s := s.setContext k (some { x with cluster := some c, lastCluster := some c, tag := tag, bay := none, deferred := [],
                                           halting := false, halted := false, placed := true })
    let s := foldS (fun (e : Nat × Nat) (s : State) => s.modCx (4 * k + e.1) fun y => { y with host := some (4 * c + e.2) })
      ((s.hostPlan c r.vals.gran).getD []) s
    let s := foldS (fun ck (s : State) => s.restoreCore ck) (cksOf k) s
    let s := foldS (fun e (s : State) => s.loopBack e) x.deferred s
    let s := foldS (fun n (s : State) => s.retryHeld n) (s.cores.map Prod.fst) s
    foldS (fun ck (s : State) => s.resumeCore ck) (cksOf k) s
  | _, _ => s.modClu c fun y => { y with incoming := none }

/-- The standby contexts of a cluster without a partition run (R132). -/
def State.standIn (s : State) (c : Nat) : State :=
  if !s.sched.standby then s
  else foldS (fun j (s : State) =>
    let ck := mkCk standbyRegion (4 * c + j)
    (s.restoreCore ck).laterOnce (.dispatch ck)) (List.range 4) s

/-- A cluster without a partition that is to leave service does so (R23). -/
def State.leaveService (s : State) (c : Nat) : State :=
  let x := s.clu c
  if x.leaving ∧ x.resident.isNone ∧ x.incoming.isNone then (s.modClu c fun y => { y with leaving := false, inService := false }).schedPoint
  else s

/-- The incoming context's region can run on the cluster as it now is (R146). -/
def State.fits (s : State) (c k : Nat) : Bool :=
  match s.region (k / 16) with
  | some r => (s.hostPlan c r.vals.gran).isSome
  | none => true

/-- CONTEXT_SWAP. The lines of cores that are to be mapped out come home first. A region that does not fit the degraded partition is not
placed there, and waits (R146). -/
def State.onSwap (s : State) (c : Nat) : State :=
  if !s.swapReady c then s
  else if (s.leavers c).any s.holdsLines then
    (if (s.clu c).mapping then foldS (fun n (s : State) => s.extractCore n true) (s.leavers c) s
     else s.modClu c fun x => { x with mapping := true })
  else
    let s := (s.swapOut c).mapOut c
    match (s.clu c).incoming with
    | some k => if s.fits c k then s.swapIn c k else ((s.preemptRegion (k / 16) true).standIn c).leaveService c
    | none => (s.standIn c).leaveService c

/-- R141, CONTEXT_SWAP. -/
def execContextSwap (c : Nat) : State → Host.Outcome State Fault Refusal := event fun s => s.onSwap c

/-- The context that a bay holds. -/
def State.inBay (s : State) (b : Nat) : Option Nat :=
  (s.sched.contexts.find? fun e => match e.2 with | some x => x.bay == some b | none => false).map Prod.fst

/-- The region of a context is selected. -/
def State.isSelected (s : State) (k : Nat) : Bool := match s.region (k / 16) with | some r => r.selected | none => false

/-- BAY_BACKGROUND_WRITE: a bay whose context is not selected is freed. -/
def State.onBayWrite (s : State) (b : Nat) : State :=
  let s := { s with sched := { s.sched with bayWrite := s.sched.bayWrite.filter (· != b) } }
  match s.inBay b with
  | some k => if s.isSelected k then s else s.modContext k fun x => { x with bay := none }
  | none => s

/-- R141, BAY_BACKGROUND_WRITE. -/
def execBayBackgroundWrite (bay : Nat) : State → Host.Outcome State Fault Refusal := event fun s => s.onBayWrite bay

/-! ## The end of a region (R125, R284) -/

/-- Nothing of a region is left at a context core: no task, capsule or card. A context of a FAULTED region that is not resident does
no more work. -/
def State.coreQuiet (s : State) (faulted : Bool) (ck : Nat) : Bool :=
  let x := s.cx ck
  x.dead.isEmpty && ((x.outcaps.isEmpty && x.lreqs.isEmpty && x.cards.isEmpty && (x.slots.all fun e => e.2.st == .free) &&
    (faulted || (x.run.isEmpty && x.faultTasks.isEmpty))) || (faulted && (s.coreOfCk ck).isNone))

/-- MSG and CAP messages of a region that have been injected and not delivered. -/
def State.inTransit (s : State) (r : Nat) : Bool :=
  Tbl.get 0 s.fe.injected r + (s.cores.map fun e => Tbl.get 0 e.2.injected r).sum != (s.cores.map fun e => Tbl.get 0 e.2.delivered r).sum

/-- A step of the region's dispatchers is pending: its threads may be about to take work. -/
def State.dispatchPending (s : State) (r : Nat) : Bool :=
  s.agenda.any fun e => match e with
    | .dispatch ck => regionOfCk ck == r
    | _ => false

/-- A RUNNABLE region is quiescent (R125); a FAULTED one has come to rest (R284). Its threads' stores have been performed, for its
packet is complete only then (R112). -/
def State.quiescent (s : State) (r : Nat) (x : Region) : Bool :=
  let f := x.st == .faulted
  let resident := (x.keys r).any fun k => match s.context k with | some c => c.cluster.isSome | none => false
  (x.st == .runnable || f) && !x.ended &&
  ((x.keys r).all fun k => match s.context k with
    | some c => (f || c.placed) && !(f && c.halting && !c.halted)
    | none => f) &&
  (s.threads.all fun e => match e.2 with
    | some t => regionOfCk (ckOfTk e.1) != r || isService e.1 ||
        ((t.st == .stopped || (t.st == .waitw && !t.wakeRec)) && t.sbuf.isEmpty && t.remote.isEmpty)
    | none => true) &&
  ((List.range (4 * x.vals.parts)).all fun rc => s.coreQuiet f (mkCk r rc)) && (f || x.heldTasks.isEmpty) &&
  (s.liveRegions.all fun e => e.2.parent != some r) && !(s.inTransit r && (resident || !f)) &&
  !s.dispatchPending r

/-- A packet of a queue has one part less to do; a failure among its parts is kept for the front end. -/
def State.partDone (s : State) (q ser : Nat) : State :=
  { s with fe := { s.fe with queues := mapIf (fun (e : Queue) => e.q == q) (fun (e : Queue) => { e with
      cur := e.cur.map fun (p : Packet) => if p.ser = ser then { p with open_ := p.open_ - 1 } else p
      started := mapIf (fun (p : Packet) => p.ser == ser) (fun (p : Packet) => { p with open_ := p.open_ - 1 }) e.started }) s.fe.queues } }

/-- What a region held is given up: clusters, contexts, threads, save slots and counts. -/
def State.freeRegion (s : State) (r : Nat) (x : Region) : State :=
  let gone (k : Nat) : Bool := k / 16 == r
  let freed := (List.range 16).filter fun c => match (s.clu c).resident with | some k => gone k | none => false
  let s := { s with
    clusters := s.clusters.map fun e => (e.1, { e.2 with
      resident := e.2.resident.filter fun k => !gone k
      incoming := e.2.incoming.filter fun k => !gone k })
    threads := s.threads.filter fun e => regionOfCk (ckOfTk e.1) != r
    ctx := s.ctx.filter fun e => regionOfCk e.1 != r
    fe := { s.fe with injected := Tbl.put 0 s.fe.injected r 0 }
    cores := s.cores.map fun e => (e.1, { e.2 with injected := Tbl.put 0 e.2.injected r 0, delivered := Tbl.put 0 e.2.delivered r 0 }) }
  let s := foldS (fun k (s : State) => s.setContext k none) (x.keys r) s
  let s := s.setRegion r none
  foldS (fun c (s : State) => (s.standIn c).leaveService c) (freed.filter fun c => (s.clu c).incoming.isNone) s

/-- A service thread in a cluster of the region still deals with a notice that it took (R132). -/
def State.serviceBusy (s : State) (r : Nat) : Bool :=
  s.threads.any fun e => match e.2 with
    | some t => regionOfCk (ckOfTk e.1) == r && isService e.1 && (t.invalHeld || t.noticeHeld) && (s.coreOfCk (ckOfTk e.1)).isSome
    | none => false

/-- What a region held is given up, at once or when its service threads are done with their notices: they are not pre-empted, and
the region's end does not wait for them (R125, R132). -/
def State.leaveClusters (s : State) (r : Nat) (x : Region) : State :=
  if !s.serviceBusy r then s.freeRegion r x
  else
    let s := foldS (fun k (s : State) => s.modContext k fun y => { y with halting := false, halted := false }) (x.keys r) s
    ({ s with threads := s.threads.filter fun e => regionOfCk (ckOfTk e.1) != r || isService e.1 }).modRegion r fun y => { y with
      ended := true, resident := false, selected := false, saveSlots := [] }

/-- Queues parked until a region ends go on (R124). -/
def State.wakeLaunches (s : State) : State :=
  let qs := mapIf (fun (e : Queue) => e.st == .parked && e.reason == .regions) (fun (e : Queue) => { e with st := .ready, reason := .none })
    s.fe.queues
  { s with fe := { s.fe with queues := qs } }

/-- A quiescent region ends: its packet completes, or fails with ENGINE when the region is FAULTED; `fail` takes the queue, the
packet, the status and the faulting address. One that has ended gives up its clusters once its service threads are done. -/
def State.onRegionEnd (fail : State → Nat → Nat → Nat → Nat → State) (s : State) (r : Nat) : State :=
  match s.region r with
  | none => s
  | some x =>
    if x.ended then (if s.serviceBusy r then s else (s.freeRegion r x).wakeLaunches.schedPoint)
    else if !s.quiescent r x then s
    else
      let f := x.st == .faulted
      let s := if f then s else s.setRegionState r .ended 0
      let s := s.leaveClusters r x
      let s := s.partDone x.q x.pkt
      let s := if f then fail s x.q x.pkt 12 x.rcb else s.laterOnce (.packetComplete x.q x.pkt)
      s.wakeLaunches.schedPoint

/-! ## Multiplexing a roster (R137) -/

/-- The user threads on a core's roster. -/
def State.rosterUsers (s : State) (c : Nat) : List (Nat × Thread) := (s.rosterOf c).filter fun e => !isService e.1

/-- A SAVED thread of the roster is ready. -/
def Thread.savedReady (t : Thread) : Bool := t.place == .saved && t.st != .stopped && (t.st == .ready || t.wakeRec)

/-- The least by a measure. -/
def leastBy {α : Type} (f : α → Nat) (l : List α) : Option α :=
  l.foldl (fun b x => match b with
    | none => some x
    | some y => if f x < f y then some x else some y) none

/-- The thread in a slot to pre-empt: the one that has waited longest, else the READY one resident longest. -/
def State.muxVictim (s : State) (c : Nat) : Option (Nat × Thread) :=
  let inS := (s.rosterUsers c).filter fun e => match e.2.place with | .inSlot _ => true | _ => false
  let waits := inS.filter fun e => e.2.st == .waitw || e.2.st == .sync || e.2.st == .pageWait
  match leastBy (fun (e : Nat × Thread) => 2 ^ 64 - e.2.waited) waits with
  | some e => some e
  | none => leastBy (fun (e : Nat × Thread) => e.2.since) (inS.filter fun e => e.2.st == .ready)

/-- ROSTER_MULTIPLEX: a ready SAVED thread is restored to a free slot; without one, once every 2^14 A-cycles, a thread is asked to give
its slot up. -/
def State.onMultiplex (s : State) (ck : Nat) : State :=
  match s.coreOfCk ck with
  | none => s
  | some c =>
    if s.halting ck then s
    else
      let users := s.rosterUsers c
      match leastBy (fun (e : Nat × Thread) => e.2.since) (users.filter fun e => e.2.savedReady) with
      | none => s
      | some (tk, _) =>
        match s.freeSlot c ck with
        | some k => s.restoreThread tk k
        | none =>
          if !(s.core c).muxDue ∨ (users.any fun e => e.2.preempt.isSome) then s
          else match s.muxVictim c with
            | none => s
            | some (v, t) =>
              let s := s.modCore c fun x => { x with muxDue := false }
              if t.st = .ready then s.modThr v fun t => { t with preempt := some (s.valsOf ck).grace }
              else if t.quiet then (s.saveThread v).restoreThread tk (match t.place with | .inSlot k => k | _ => 0)
              else s.modThr v fun t => { t with preempt := some 0 }

/-- R137, ROSTER_MULTIPLEX. -/
def execRosterMultiplex (ck : Nat) : State → Host.Outcome State Fault Refusal := event fun s => s.onMultiplex ck

end Sys2Proof.Machine
end

