-- ==== Sys2Proof/Machine/FrontEnd.lean ====
section
/-!
DEFINITION. The front end (spec/06): the queue table and doorbells (R102 to R106), the resident filter and the packet processors
(R107 to R112), failures (R116, R117), completions and coalescers (R120, R121), the front end's own writes (R122), and QCTL (R104).
-/

namespace Sys2Proof.Machine

/-! ## Queues -/

def State.fq (s : State) (q : Nat) : Option Queue := s.fe.queues.find? fun (e : Queue) => e.q == q

def State.modFq (s : State) (q : Nat) (f : Queue → Queue) : State :=
  { s with fe := { s.fe with queues := mapIf (fun (e : Queue) => e.q == q) f s.fe.queues } }

def State.coal (s : State) (q : Nat) : Coal := Tbl.get {} s.fe.coal q
def State.setCoal (s : State) (q : Nat) (c : Coal) : State := { s with fe := { s.fe with coal := Tbl.put {} s.fe.coal q c } }

/-- The entry of a queue from its 64 bytes (R102); `none` where R103 refuses it. -/
def entryOf (b : Nat) : Option QEntry :=
  let w (k : Nat) : Nat := bits b (64 * k) 64
  let f := w 1
  let e : QEntry :=
    { ringva := w 0, logsize := bits f 0 5, en := bits f 5 1 == 1, priv := bits f 6 1 == 1, prio := bits f 8 4, qslice := bits f 16 16
      msivec := bits f 32 11, headva := w 2, cntva := w 3, errva := w 4, sortva := w 5, sortlen := bits (w 6) 0 10, winva := w 7 }
  if bits f 7 1 ≠ 0 ∨ bits f 12 4 ≠ 0 ∨ bits f 43 21 ≠ 0 ∨ bits (w 6) 10 54 ≠ 0 ∨ e.logsize < 4 ∨ 16 < e.logsize ∨ e.msivec < 2 ∨
      e.ringva % (64 * 2 ^ max e.logsize 6) ≠ 0 ∨ e.headva % 8 ≠ 0 ∨ e.cntva % 8 ≠ 0 ∨ e.errva % 32 ≠ 0 ∨ e.sortva % 64 ≠ 0 ∨
      e.winva % 64 ≠ 0 then none
  else some e

/-- The space of the addresses of the queue and its packets (R103). -/
def Queue.space (e : Queue) : Space :=
  if e.entry.priv then .bus
  else match e.pasid with
    | some p => .pasid p
    | none => .unbound

/-- Translates an address in a space for a requester: a queue with no binding has ACCESS (R103, R118). -/
def State.spaceXlat (s : State) (w : Waiter) (space : Space) (va : Nat) (write : Bool) : XRes :=
  match space with
  | .bus => s.physical va
  | .pasid p => s.translate { w := w, pasid := p, r := !write, wr := write } va
  | .unbound => .fault Cause.access

/-- The type of a packet and its other header fields (R113). -/
def pktType (b : List Byte) : Nat := leNat (b.take 1)
def pktBarrier (b : List Byte) : Bool := bits (leNat (b.take 8)) 8 1 == 1
def pktCmpl (b : List Byte) : Bool := bits (leNat (b.take 8)) 9 1 == 1
def pktSubop (b : List Byte) : Nat := bits (leNat (b.take 8)) 16 16
def pktTag (b : List Byte) : Nat := bits (leNat (b.take 8)) 32 32
/-- A field of a packet: `n` bytes at an offset. -/
def pktField (b : List Byte) (off n : Nat) : Nat := leNat ((b.drop off).take n)

/-- The packet in hand has been started: it runs to completion, whatever becomes of the queue (R104, R116). -/
def Queue.inHand (e : Queue) : Bool := e.cur.any Packet.begun

/-- Nothing of the queue is left to do. -/
def Queue.drained (e : Queue) : Bool := e.head == e.tail && e.cur.isNone && e.started.isEmpty

/-- The state of a queue that no processor serves and nothing holds back. -/
def Queue.rest (e : Queue) : QState := if e.drained then .idle else .ready

/-- The state of a queue once what kept it in another is done: DISABLED and ERROR come first. -/
def State.queueRest (s : State) (e : Queue) : QState :=
  if s.fe.disabled.contains e.q then .disabled else if e.inError then .error else e.rest

/-! ## The front end's own writes (R107, R116, R122) -/

/-- A write of the front end waits for a translation or a page. -/
def State.feWaits (s : State) (p va : Nat) : Bool :=
  (s.svc.ats.any fun q => q.waits.any fun w => w.w == .feWrite p va) ||
    s.svc.pages.any fun g => g.waits.contains (.feWrite p va) || g.others.contains (.feWrite p va)

/-- Something of a queue waits for a page: an access of its packet in hand, a copy, or a write made for it (R117). -/
def State.pageWaits (s : State) (q : Nat) : Bool :=
  let mine : Waiter → Bool
    | .queue n => n == q
    | .copy id => s.fe.copies.any fun (c : BlockCopy) => c.id == id && c.q == q
    | .feWrite p va => s.fe.writes.any fun (w : FeWrite) => w.space == .pasid p && w.va == va && w.q == some q
    | _ => false
  (s.svc.pages.any fun g => g.waits.any mine || g.others.any mine) || s.svc.ats.any fun r => r.waits.any fun w => w.w == .queue q

/-- What a write leaves behind: the packet whose completion it counts has been counted (R120). -/
def State.feDone (s : State) (w : FeWrite) : State :=
  let s := { s with fe := { s.fe with writes := s.fe.writes.erase w } }
  match w.cnt with
  | some (q, ser) => (s.modFq q fun e => { e with started := mapIf (fun (p : Packet) => p.ser == ser) (fun (p : Packet) => { p with counted := true }) e.started }).laterOnce
      (.packetComplete q ser)
  | none => s

/-- Performs a write whose place is known, or waits for its home. -/
def State.fePut (s : State) (w : FeWrite) (pa : Nat) : Except State State :=
  match w.cnt with
  | none => s.cohPut feId pa w.data false
  | some _ => match s.cohRmw feId pa 8 fun l => leBytes 8 (leNat l + 1) with
    | .ok r => .ok r.1
    | .error s => .error s

/-! ## Failures (R116) -/

/-- The processors that serve a queue are free again. -/
def State.freeProc (s : State) (q : Nat) : State :=
  { s with fe := { s.fe with procs := mapIf (fun (p : Processor) => p.queue == some q) (fun _ => {}) s.fe.procs } }

/-- Writes the head to HEADVA (R107). -/
def State.writeHead (s : State) (q : Nat) : State :=
  match s.fq q with
  | some e => (s.feWrite (some q) e.space e.entry.headva (leBytes 8 e.head.toNat)).modFq q fun e => { e with sinceHead := 0 }
  | none => s

/-- Puts a queue in ERROR: the head is written, the error record is written, and MSIVEC is sent at once. A packet in hand that has been
started, and a BIND that targets the queue, run on; a DISABLED queue stays so (R104, R116, R118). -/
def State.queueError (s : State) (q status typ cause idx tag addr : Nat) : State :=
  match s.fq q with
  | some e =>
    let rec_ := leBytes 1 status ++ leBytes 1 typ ++ leBytes 2 cause ++ leBytes 4 idx ++ leBytes 4 tag ++ leBytes 4 0 ++ leBytes 8 addr ++ leBytes 8 0
    let s :=
      if e.inHand ∨ e.st = .binding then s.modFq q fun e => { e with inError := true }
      else (s.freeProc q).modFq q fun e => { e with st := if s.fe.disabled.contains q then .disabled else .error, reason := .none }
    ((s.writeHead q).feWrite (some q) e.space e.entry.errva rec_).sendMsix e.entry.msivec
  | none => s

/-- The packet in hand fails in processing: the head stays at it. -/
def State.failNow (s : State) (q status cause addr : Nat) : State :=
  match s.fq q with
  | some e =>
    let b := match e.cur with | some p => p.bytes | none => []
    (s.modFq q fun e => { e with cur := none, stepNo := 0, waited := 0, x := {}, failedAfter := false, inError := false }).queueError q
      status (pktType b) cause e.head.toNat (pktTag b) addr
  | none => s

/-- The coalescer fires. -/
def State.coalFire (s : State) (q : Nat) : State :=
  let c := s.coal q
  let s := s.setCoal q { c with pend := 0, run := false, elapsed := 0 }
  if c.en then s.sendMsix c.vec else s

/-- The coalescer fires when the count has reached THRESH, or the queue is drained with IDLEF set (R121). -/
def State.coalCheck (s : State) (q : Nat) : State :=
  let c := s.coal q
  let drained : Bool := match s.fq q with | some e => e.drained | none => true
  if c.pend ≠ 0 ∧ (max c.thresh.toNat 1 ≤ c.pend.toNat ∨ (c.idlef ∧ drained)) then s.coalFire q else s

/-- A part of a packet's work has failed: in processing while the packet is in hand, else after it (R116). -/
def State.partFail (s : State) (q ser status addr : Nat) : State :=
  match s.fq q with
  | none => s
  | some e =>
    if e.cur.any fun (p : Packet) => p.ser == ser then s.failNow q status 0 addr
    else match e.started.find? fun (p : Packet) => p.ser == ser with
      | some p =>
        let s := s.queueError q status (pktType p.bytes) 0 p.idx (pktTag p.bytes) addr
        (s.modFq q fun y => { y with started := y.started.filter fun (p : Packet) => p.ser != ser
                                     failedAfter := if e.st = .error then e.failedAfter else true }).coalCheck q
      | none => s

/-- Makes a write whose address translates. The addition of a completion that fails fails its packet (R117); any other write is dropped,
a corrected error of the front end (R122, notes/assumptions/136.md). -/
def State.feTry (s : State) (w : FeWrite) : State :=
  match s.spaceXlat (.feWrite (match w.space with | .pasid p => p | _ => 0) w.va) w.space w.va true with
  | .pa s' pa => match s'.fePut w pa with
    | .ok s2 => s2.feDone w
    | .error s2 => s2
  | .wait s' _ => s'
  | .fault c =>
    let s := { s with fe := { s.fe with writes := s.fe.writes.erase w } }
    match w.cnt with
    | some (q, ser) => s.partFail q ser (if c = Cause.pageFail then 4 else 5) w.va
    | none => s.corrected .frontEnd (word w.va)

/-- Takes the front end's write in hand: it is made, waits, or is dropped and logged (R122). -/
def State.tryFeWrite (s : State) (w : FeWrite) : State :=
  match w.space with
  | .pasid p => if s.feWaits p w.va then s else s.feTry w
  | _ => s.feTry w

/-! ## Coalescers (R121) -/

/-- A completion is counted; PEND saturates. -/
def State.coalCount (s : State) (q : Nat) : State :=
  let c := s.coal q
  s.setCoal q { c with pend := if c.pend = 0xFFFF then c.pend else c.pend + 1, run := true, elapsed := if c.run then c.elapsed else 0 }

/-- COALESCER_HOLD_EXPIRY: the timer has reached HOLD + 1. -/
def State.onHold (s : State) (q : Nat) : State :=
  let c := s.coal q
  if c.run ∧ c.hold ≤ c.elapsed then s.coalFire q else s

/-- R121, COALESCER_HOLD_EXPIRY. -/
def execCoalescerHoldExpiry (q : Nat) : State → Host.Outcome State Fault Refusal := event fun s => s.onHold q

/-! ## Completion (R112, R120) -/

/-- The status of a bank-compute job as a packet's status (R115). -/
def bmvStatus (n : Nat) : Nat :=
  match n with | 1 => 13 | 2 => 4 | 3 => 5 | 4 => 15 | _ => 16

/-- A bank-compute job of a packet that has ended is reported to its queue. -/
def State.reapJob (s : State) (q ser : Nat) : State :=
  match s.bmv.jobs.find? fun (j : BmvJob) => j.queue == some (q, ser) && j.phase == .done with
  | some j =>
    let s := { s with bmv := { s.bmv with jobs := s.bmv.jobs.filter fun b => b.id != j.id } }
    let s := s.partDone q ser
    if j.status = 0 then s else s.partFail q ser (bmvStatus j.status) j.failAddr
  | none => s

/-- The queue after a packet of it has completed: one parked at a BARRIER may go on, and one with nothing left is IDLE. -/
def State.afterComplete (s : State) (q : Nat) : State :=
  match s.fq q with
  | some e =>
    let s := if e.st = .parked ∧ e.reason = .barrier ∧ e.started.isEmpty then s.modFq q fun e => { e with st := .ready, reason := .none }
      else if e.st = .ready ∧ e.drained then (s.modFq q fun e => { e with st := .idle }).writeHead q
      else s
    s.coalCheck q
  | none => s

/-- PACKET_COMPLETE: with CMPL, the addition at CNTVA comes first, then the count, then the coalescer. -/
def State.onComplete (s : State) (q ser : Nat) : State :=
  let s := s.reapJob q ser
  match s.fq q with
  | none => s
  | some e => match e.started.find? fun (p : Packet) => p.ser == ser with
    | none => s
    | some p =>
      if !p.processed ∨ p.open_ ≠ 0 then s
      else
        let finish (s : State) : State :=
          let s := s.modFq q fun e => { e with started := e.started.filter fun (p : Packet) => p.ser != ser }
          (if pktCmpl p.bytes then s.coalCount q else s).afterComplete q
        if pktCmpl p.bytes ∧ e.entry.cntva ≠ 0 ∧ !p.counted then
          let w : FeWrite := { space := e.space, va := e.entry.cntva, data := [], q := some q, cnt := some (q, ser) }
          if s.fe.writes.any fun y => y.cnt == some (q, ser) then s
          else
            let s := ({ s with fe := { s.fe with writes := s.fe.writes ++ [w] } }).tryFeWrite w
            let done : Bool := match s.fq q with
              | some e => e.started.any fun (p : Packet) => p.ser == ser && p.counted
              | none => false
            if done then finish s else s
        else finish s

/-- R120, PACKET_COMPLETE. -/
def execPacketComplete (q idx : Nat) : State → Host.Outcome State Fault Refusal := event fun s => s.onComplete q idx

/-- R125, REGION_END. -/
def execRegionEnd (r : Nat) : State → Host.Outcome State Fault Refusal := event fun s => State.onRegionEnd State.partFail s r

/-! ## Doorbells (R106) -/

/-- A new tail reaches a resident queue. A tail lowered to the head does not recall the packet there that has been read (R106) (notes/assumptions/143.md). -/
def State.ringTail (s : State) (q : Nat) (t : BitVec 32) : State :=
  match s.fq q with
  | none => s
  | some e =>
    if e.st = .disabled then s
    else if 2 ^ e.entry.logsize < (t - e.head).toNat then
      let s := s.queueError q 9 0 0 e.head.toNat 0 0
      s.modFq q fun y => { y with failedAfter := if e.st = .error then e.failedAfter else true }
    else
      let kept : Bool := t == e.head && (e.cur.isSome || (e.st == .error && !e.failedAfter))
      let s := s.modFq q fun e => { e with tail := if kept then t + 1 else t }
      if e.st = .idle ∧ t ≠ e.head then s.modFq q fun e => { e with st := .ready } else s

/-- DOORBELL: aligned 4- or 8-byte writes at offset 0 act. They abort an entry to LS2 (R25). -/
def State.onDoorbell (s : State) (q off len : Nat) (v : Word) : State :=
  if off ≠ 0 ∨ !(len == 4 || len == 8) ∨ 4096 ≤ q then s
  else
    let t := v.setWidth 32
    let s := s.abortEntries
    let s := { s with fe := { s.fe with tails := Tbl.put 0 s.fe.tails q t } }
    if !s.fe.qtEn ∨ s.fe.disabled.contains q then s
    else if (s.fq q).isSome then s.ringTail q t
    else
      let s := { s with fe := { s.fe with pending := (s.fe.pending.filter fun (e : Nat × BitVec 32) => e.1 != q) ++ [(q, t)] } }
      s.wakeControl.laterOnce (.queueLoad q)

/-- R106, DOORBELL. -/
def execDoorbell (q off len : Nat) (v : Word) : State → Host.Outcome State Fault Refusal := event fun s => s.onDoorbell q off len v

/-! ## The resident filter (R109) -/

/-- The queue that firmware evicts to make room: the least recently served that is IDLE with an empty coalescer. -/
def State.loadVictim (s : State) : Option Nat :=
  (s.fe.queues.find? fun (e : Queue) => e.st == .idle && (s.coal e.q).pend == 0).map Queue.q

/-- Takes a queue out of the filter. -/
def State.dropQueue (s : State) (q : Nat) : State :=
  match s.fq q with
  | some e => { s with fe := { s.fe with queues := s.fe.queues.filter (fun (y : Queue) => y.q != q), heads := Tbl.put 0 s.fe.heads q e.head } }
  | none => s

/-- A resident queue as it is loaded. -/
def State.freshQueue (s : State) (q : Nat) (e : QEntry) : Queue :=
  let h := Tbl.get 0 s.fe.heads q
  let b : Queue := { q := q, entry := e, head := h, tail := h, sorterRead := e.sortva == 0 }
  match s.fe.bindings.find? fun (y : Nat × Nat × Nat × RcbVals) => y.1 == q with
  | some (_, p, va, v) => { b with pasid := some p, rootVa := va, root := v }
  | none => b

/-- Reads the table's entry of a queue, or waits for its home; an entry that R103 refuses is none. -/
def State.readEntryOf (s : State) (q : Nat) : Except State (State × Option QEntry) :=
  let pa := s.fe.qtBase.toNat * 4096 + 64 * q
  if s.memTop < pa + 64 then .ok (s, none)
  else match s.cohBytes feId pa 64 with
    | .ok (s, l, bad) => .ok (s, if bad.isSome then none else entryOf (leNat l))
    | .error s => .error s

/-- Loads a queue whose entry is at hand, and replays its pending tail. The scratch window holds free values. -/
def State.loadQueue (s : State) (q : Nat) (t : BitVec 32) (e : QEntry) : State :=
  let n := s.free
  let b := { s.freshQueue q e with scratch := (List.range 256).foldl (fun m i => Tbl.put 0 m i (Config.freeByte (n + i))) [] }
  let s := { s with free := n + 256, fe := { s.fe with queues := s.fe.queues ++ [b] } }
  let s := s.setCoal q { s.coal q with vec := e.msivec }
  s.ringTail q t

/-- A BIND or UNBIND that targets the queue is past step 4 (R118). -/
def State.binding (s : State) (t : Nat) : Bool :=
  s.fe.queues.any fun (e : Queue) => e.stepNo == 3 && match e.cur with
    | some p => pktType p.bytes == 7 && pktField p.bytes 8 4 == t
    | none => false

/-- QUEUE_LOAD. -/
def State.onLoad (s : State) (q : Nat) : State :=
  match s.fe.pending.find? fun (e : Nat × BitVec 32) => e.1 == q with
  | none => s
  | some (_, t) =>
    let drop (s : State) : State := { s with fe := { s.fe with pending := s.fe.pending.filter fun (e : Nat × BitVec 32) => e.1 != q } }
    if (s.fq q).isSome then (drop s).ringTail q t
    else if s.fe.disabled.contains q ∨ !s.fe.qtEn then drop s
    else if s.binding q then s
    else match s.readEntryOf q with
      | .error s => s.later (.queueLoad q)
      | .ok (s, none) => (drop s).corrected .frontEnd (word (s.fe.qtBase.toNat * 4096 + 64 * q))
      | .ok (s, some e) =>
        if !e.en then drop s
        else if s.fe.queues.length < 256 then (drop s).loadQueue q t e
        else match s.loadVictim with
          | some v => ((drop s).dropQueue v).loadQueue q t e
          | none => s

/-- R109, QUEUE_LOAD. -/
def execQueueLoad (q : Nat) : State → Host.Outcome State Fault Refusal := event fun s => s.onLoad q

/-! ## QCTL (R104) -/

/-- The operation ends with a result. -/
def State.qctlDone (s : State) (r : BitVec 8) : State := { s with fe := { s.fe with qctlBusy := none, qctlResult := r } }

/-- A packet of the queue is started and incomplete. -/
def Queue.incomplete (e : Queue) : Bool := !e.started.isEmpty || e.inHand

/-- The queue may start no further packet: EVICT is in progress, or DISABLE is done (R104). -/
def State.stopped (s : State) (q : Nat) : Bool := s.fe.qctlBusy == some (q, 1) || s.fe.disabled.contains q

/-- EVICT completes once no packet of the queue is started and incomplete (notes/assumptions/156.md). -/
def State.onEvict (s : State) (q : Nat) : State :=
  match s.fq q with
  | none => ({ s with fe := { s.fe with disabled := s.fe.disabled.filter (· != q) } }).qctlDone 0
  | some e =>
    if e.st = .binding then s.qctlDone 2
    else if e.incomplete then
      ({ s with fe := { s.fe with qctlBusy := some (q, 1) } }).later (.evict q)
    else
      let s := (s.freeProc q).dropQueue q
      ({ s with fe := { s.fe with disabled := s.fe.disabled.filter (· != q) } }).qctlDone 0

/-- R104, EVICT. -/
def execEvict (q : Nat) : State → Host.Outcome State Fault Refusal := event fun s => s.onEvict q

/-- RESUME and SKIP of a queue in ERROR; SKIP moves the head past a packet that failed in processing. A queue whose packet in hand still
runs goes on from it. -/
def State.onResume (s : State) (q : Nat) (skip : Bool) : State :=
  match s.fq q with
  | none => s.qctlDone 2
  | some e =>
    if (e.st ≠ .error ∧ !e.inError) ∨ s.fe.disabled.contains q then s.qctlDone 2
    else if e.st ≠ .error then (s.modFq q fun e => { e with inError := false, failedAfter := false }).qctlDone 0
    else
      let s := s.modFq q fun e =>
        let e := if skip ∧ !e.failedAfter then { e with head := e.head + 1, cur := none } else e
        { e with st := .ready, failedAfter := false }
      (s.afterComplete q).qctlDone 0

/-- R104, RESUME. -/
def execResume (q : Nat) : State → Host.Outcome State Fault Refusal := event fun s => s.onResume q false

/-- R104, SKIP. -/
def execSkip (q : Nat) : State → Host.Outcome State Fault Refusal := event fun s => s.onResume q true

/-- DISABLE: started packets run on, the one in hand among them; no other packet starts, and later doorbells are ignored (notes/assumptions/144.md). -/
def State.onDisable (s : State) (q : Nat) : State :=
  let s := match s.fq q with
    | some e =>
      if e.inHand then s
      else (s.freeProc q).modFq q fun e => { e with st := .disabled, reason := .none, cur := none, inError := false }
    | none => s
  let s := { s with fe := { s.fe with disabled := if s.fe.disabled.contains q then s.fe.disabled else s.fe.disabled ++ [q]
                                      pending := s.fe.pending.filter fun (e : Nat × BitVec 32) => e.1 != q } }
  s.qctlDone 0

/-- R104, DISABLE. -/
def execDisable (q : Nat) : State → Host.Outcome State Fault Refusal := event fun s => s.onDisable q

/-- R104, QCTL_BAD_OPERATION. -/
def execQctlBadOperation (_q : Nat) : State → Host.Outcome State Fault Refusal := event fun s => s.qctlDone 1

/-! ## Packet processors (R110, R111) -/

/-- What an access of a packet gives. -/
inductive FeRes (α : Type) where
  | ok (s : State) (x : α)
  /-- The queue parks for a page or a translation. -/
  | park (s : State)
  /-- A line is in use: the access is made again. -/
  | busy (s : State)
  /-- The queue parks for another reason, and the packet's steps go on later. -/
  | hold (s : State) (r : ParkReason)
  /-- The packet fails. -/
  | fail (status cause addr : Nat)

/-- Translates an address of a packet. -/
def State.pktXlat (s : State) (q : Nat) (space : Space) (va : Nat) (w : Bool) : FeRes Nat :=
  match s.spaceXlat (.queue q) space va w with
  | .pa s pa => .ok (s.modX (.queue q) fun _ => {}) pa
  | .wait s .ready => .busy s
  | .wait s _ => .park s
  | .fault c => .fail (if c = Cause.pageFail then 4 else 5) 0 va

/-- Goes on with the outcome of an access. -/
def FeRes.bind {α β : Type} (x : FeRes α) (f : State → α → FeRes β) : FeRes β :=
  match x with
  | .ok s a => f s a
  | .park s => .park s
  | .busy s => .busy s
  | .hold s r => .hold s r
  | .fail a b c => .fail a b c

/-- Reads bytes that lie in one page; a poisoned line fails the packet with POISON. -/
def State.pktRead (s : State) (q : Nat) (space : Space) (va n : Nat) : FeRes (List Byte) :=
  (s.pktXlat q space va false).bind fun s pa => match s.cohBytes feId pa n with
    | .ok (s, l, none) => .ok s l
    | .ok (_, _, some _) => .fail 13 0 va
    | .error s => .busy s

/-- Reads consecutive lines. -/
def State.pktLines (s : State) (q : Nat) (space : Space) : Nat → Nat → FeRes (List Byte)
  | _, 0 => .ok s []
  | va, n + 1 => (s.pktRead q space va 64).bind fun s l =>
    (State.pktLines s q space (va + 64) n).bind fun s r => .ok s (l ++ r)

/-- The queue parks and its processor is free. -/
def State.parkQueue (s : State) (q : Nat) (r : ParkReason) : State :=
  ((s.freeProc q).modFq q fun e => { e with st := .parked, reason := r }).writeHead q

/-- A queue comes to rest, where nothing keeps it: IDLE and ERROR write the head (R107). -/
def State.restQueue (s : State) (q : Nat) : State :=
  match s.fq q with
  | some e =>
    let st := s.queueRest e
    let s := s.modFq q fun e => { e with st := st, reason := .none, inError := false }
    if st = .idle ∨ st = .error then (s.writeHead q).coalCheck q else s
  | none => s

/-- The processor leaves the queue, at the end of its slice or with nothing to start. -/
def State.releaseQueue (s : State) (q : Nat) : State := (s.freeProc q).restQueue q

/-- The processor that serves a queue. -/
def State.procOf (s : State) (q : Nat) : Option (Nat × Processor) :=
  ((List.range s.fe.procs.length).zip s.fe.procs).find? fun e => e.2.queue == some q

/-- The processor goes on with its queue's packet in hand, whatever its slice (R111). -/
def State.goOn (s : State) (q : Nat) : State :=
  match s.procOf q with
  | some (pr, _) => s.laterOnce (.queueSelect pr)
  | none => s

/-- The processor goes on with its queue, between packets: the slice's end takes effect, as do an error and DISABLE. -/
def State.nextOfQueue (s : State) (q : Nat) : State :=
  match s.procOf q, s.fq q with
  | some (_, p), some e => if p.expired ∨ e.inError ∨ s.stopped q then s.releaseQueue q else s.goOn q
  | _, _ => s

/-- The processing of the body in hand is done: the next emitted packet follows, or the packet is started and the head moves on. -/
def State.processed (s : State) (q : Nat) : State :=
  match s.fq q with
  | none => s
  | some e => match e.cur with
    | none => s
    | some p =>
      let rest := if p.sorted then p.emitted.drop 1 else []
      let clear (e : Queue) : Queue := { e with stepNo := 0, waited := 0, x := {} }
      if p.sorted ∧ !rest.isEmpty then (s.modFq q fun e => clear { e with cur := some { p with emitted := rest } }).goOn q
      else
        let s := s.modFq q fun e => clear { e with cur := none, head := e.head + 1, started := e.started ++ [{ p with emitted := [], processed := true }] }
        let s := if 16 ≤ e.sinceHead then s.writeHead q else s
        let s := if p.open_ = 0 then s.laterOnce (.packetComplete q p.ser) else s
        s.nextOfQueue q

/-- The step that processes a packet of a type. -/
def pktEv (q typ : Nat) : Option Ev :=
  match typ with
  | 0 => some (.nopPacket q) | 1 => some (.launchPacket q) | 2 => some (.copyPacket q) | 3 => some (.bmvPacket q)
  | 4 => some (.signalPacket q) | 5 => some (.waitPacket q) | 6 => some (.writeSignalPacket q)
  | 8 => some (.customPacket q) | _ => none

/-- BIND and UNBIND are told apart by SUBOP bit 0. -/
def bodyEv (q : Nat) (b : List Byte) : Option Ev :=
  if pktType b = 7 then some (if pktSubop b % 2 = 1 then .unbindPacket q else .bindPacket q) else pktEv q (pktType b)

/-- The body to be processed: the packet's own, or the next one emitted for it. -/
def Packet.body (p : Packet) : List Byte := if p.sorted then p.emitted.headD [] else p.bytes

/-- Starts the body in hand: a BARRIER waits for every earlier packet; an unknown type fails. -/
def State.startBody (s : State) (q : Nat) (e : Queue) (p : Packet) : State :=
  if p.sorted ∧ p.emitted.isEmpty then s.processed q
  else
    let b := p.body
    if pktBarrier b ∧ e.stepNo = 0 ∧ (!e.started.isEmpty ∨ (p.sorted ∧ p.open_ ≠ 0)) then s.parkQueue q .barrier
    else
    let s := s.modFq q fun e => { e with cur := some { p with begun := true } }
    if p.sorted ∧ 7 ≤ pktType b then s.failNow q 1 0 0
    else match bodyEv q b with
      | some ev => s.laterOnce ev
      | none => s.failNow q 1 0 0

/-- Reads the packet at the head. -/
def State.readPacket (s : State) (q : Nat) (pr : Nat) (e : Queue) : State :=
  let va := e.entry.ringva + 64 * (e.head.toNat % 2 ^ e.entry.logsize)
  match s.pktRead q e.space va 64 with
  | .ok s l =>
    let p : Packet := { idx := e.head.toNat, ser := s.clock, bytes := l }
    let s := s.tickClock.modFq q fun e => { e with cur := some p, sinceHead := e.sinceHead + 1, x := {} }
    (match s.fq q with
    | some e => s.startBody q e p
    | none => s)
  | .park s => s.parkQueue q .page
  | .busy s => s.later (.queueSelect pr)
  | .hold s r => s.parkQueue q r
  | .fail a b c => s.failNow q a b c

/-- The queue a free processor takes: READY with a packet to process, of highest PRIO, round-robin among equals. Of a queue that may
start no further packet, only the one in hand is. -/
def State.pickQueue (s : State) : Option Queue :=
  let go := s.fe.queues.filter fun (e : Queue) =>
    e.st == .ready && (e.inHand || (e.sorterRead && (e.cur.isSome || e.head != e.tail) && !s.stopped e.q))
  let top := go.foldl (fun n (e : Queue) => max n e.entry.prio) 0
  let same := go.filter fun (e : Queue) => e.entry.prio == top
  leastBy (fun (e : Queue) => (e.q + 4096 - (Tbl.get 0 s.fe.rr top + 1)) % 4096) same

/-- F-cycles of a queue slice (R102). -/
def QEntry.slice (e : QEntry) : Nat := 64 * max e.qslice 1

end Sys2Proof.Machine
end

