-- ==== Sys2Proof/Machine/Scalar.lean ====
section
/-!
DEFINITION. The scalar instructions of the A class: integers (R304 to R308) and f32 in g registers (R309 to R311).
-/

namespace Sys2Proof.Machine

/-! ## Shapes -/

/-- d := f(a, b) on 64-bit values. -/
def alu2 (d a b : BitVec 5) (f : Word → Word → Word) : State → Host.Outcome State Fault Refusal :=
  issueA { gs := [a.toNat, b.toNat], gd := [d.toNat] } false fun t => { gw := [(d.toNat, f (t.rg a.toNat) (t.rg b.toNat))] }

/-- d := f(a). -/
def alu1 (d a : BitVec 5) (f : Word → Word) : State → Host.Outcome State Fault Refusal :=
  issueA { gs := [a.toNat], gd := [d.toNat] } false fun t => { gw := [(d.toNat, f (t.rg a.toNat))] }

/-- d := f(a, b, c). -/
def alu3 (d a b c : BitVec 5) (f : Word → Word → Word → Word) : State → Host.Outcome State Fault Refusal :=
  issueA { gs := [a.toNat, b.toNat, c.toNat], gd := [d.toNat] } false fun t =>
    { gw := [(d.toNat, f (t.rg a.toNat) (t.rg b.toNat) (t.rg c.toNat))] }

/-- The shift amount b[5:0] (R305). -/
def shAmt (b : Word) : Nat := b.toNat % 64

/-- SExt32 (R306). -/
def sext32 (x : Word) : Word := (x.setWidth 32).signExtend 64

/-- Bits [127:64] of the signed product (R306). -/
def mulHigh (a b : Word) : Word := BitVec.ofInt 64 (a.toInt * b.toInt / 2 ^ 64)
/-- Bits [127:64] of the unsigned product (R306). -/
def mulHighU (a b : Word) : Word := BitVec.ofNat 64 (a.toNat * b.toNat / 2 ^ 64)

/-- Signed division, truncating towards zero; −2^63 by −1 wraps to −2^63 (R306). -/
def divS (a b : Word) : Word := if b = 0 then BitVec.allOnes 64 else BitVec.ofInt 64 (a.toInt.tdiv b.toInt)
def divU (a b : Word) : Word := if b = 0 then BitVec.allOnes 64 else BitVec.ofNat 64 (a.toNat / b.toNat)
/-- The remainder takes the sign of the dividend (R306). -/
def remS (a b : Word) : Word := if b = 0 then a else BitVec.ofInt 64 (a.toInt.tmod b.toInt)
def remU (a b : Word) : Word := if b = 0 then a else BitVec.ofNat 64 (a.toNat % b.toNat)

/-- Leading zero bits (R307). -/
def clz64 (a : Word) : Nat := 64 - bitLength a.toNat
/-- Trailing zero bits (R307). -/
def ctz64 (a : Word) : Nat := trailingZeros 64 a.toNat
/-- The bytes in reverse order (R307). -/
def bswap64 (a : Word) : Word := word (leNat (leBytes 8 a.toNat).reverse)

/-! ## Integer instructions (R305 to R308) -/

/-- R305, add. -/
def execAdd (d a b : BitVec 5) : State → Host.Outcome State Fault Refusal :=
  alu2 d a b fun a b => a + b

/-- R305, sub. -/
def execSub (d a b : BitVec 5) : State → Host.Outcome State Fault Refusal :=
  alu2 d a b fun a b => a - b

/-- R305, and. -/
def execAnd (d a b : BitVec 5) : State → Host.Outcome State Fault Refusal :=
  alu2 d a b fun a b => a &&& b

/-- R305, or. -/
def execOr (d a b : BitVec 5) : State → Host.Outcome State Fault Refusal :=
  alu2 d a b fun a b => a ||| b

/-- R305, xor. -/
def execXor (d a b : BitVec 5) : State → Host.Outcome State Fault Refusal :=
  alu2 d a b fun a b => a ^^^ b

/-- R305, andn. -/
def execAndn (d a b : BitVec 5) : State → Host.Outcome State Fault Refusal :=
  alu2 d a b fun a b => a &&& ~~~ b

/-- R305, sll. -/
def execSll (d a b : BitVec 5) : State → Host.Outcome State Fault Refusal :=
  alu2 d a b fun a b => a <<< shAmt b

/-- R305, srl. -/
def execSrl (d a b : BitVec 5) : State → Host.Outcome State Fault Refusal :=
  alu2 d a b fun a b => a >>> shAmt b

/-- R305, sra. -/
def execSra (d a b : BitVec 5) : State → Host.Outcome State Fault Refusal :=
  alu2 d a b fun a b => a.sshiftRight (shAmt b)

/-- R305, rol. -/
def execRol (d a b : BitVec 5) : State → Host.Outcome State Fault Refusal :=
  alu2 d a b fun a b => a.rotateLeft (shAmt b)

/-- R305, ror. -/
def execRor (d a b : BitVec 5) : State → Host.Outcome State Fault Refusal :=
  alu2 d a b fun a b => a.rotateRight (shAmt b)

/-- R305, slt. -/
def execSlt (d a b : BitVec 5) : State → Host.Outcome State Fault Refusal :=
  alu2 d a b fun a b => boolWord (a.slt b)

/-- R305, sltu. -/
def execSltu (d a b : BitVec 5) : State → Host.Outcome State Fault Refusal :=
  alu2 d a b fun a b => boolWord (a.ult b)

/-- R305, seq. -/
def execSeq (d a b : BitVec 5) : State → Host.Outcome State Fault Refusal :=
  alu2 d a b fun a b => boolWord (a == b)

/-- R306, min. -/
def execMin (d a b : BitVec 5) : State → Host.Outcome State Fault Refusal :=
  alu2 d a b fun a b => if a.slt b then a else b

/-- R306, max. -/
def execMax (d a b : BitVec 5) : State → Host.Outcome State Fault Refusal :=
  alu2 d a b fun a b => if a.slt b then b else a

/-- R306, minu. -/
def execMinu (d a b : BitVec 5) : State → Host.Outcome State Fault Refusal :=
  alu2 d a b fun a b => if a.ult b then a else b

/-- R306, maxu. -/
def execMaxu (d a b : BitVec 5) : State → Host.Outcome State Fault Refusal :=
  alu2 d a b fun a b => if a.ult b then b else a

/-- R306, mul. -/
def execMul (d a b : BitVec 5) : State → Host.Outcome State Fault Refusal :=
  alu2 d a b fun a b => a * b

/-- R306, mulh. -/
def execMulh (d a b : BitVec 5) : State → Host.Outcome State Fault Refusal :=
  alu2 d a b fun a b => mulHigh a b

/-- R306, mulhu. -/
def execMulhu (d a b : BitVec 5) : State → Host.Outcome State Fault Refusal :=
  alu2 d a b fun a b => mulHighU a b

/-- R306, div. -/
def execDiv (d a b : BitVec 5) : State → Host.Outcome State Fault Refusal :=
  alu2 d a b fun a b => divS a b

/-- R306, divu. -/
def execDivu (d a b : BitVec 5) : State → Host.Outcome State Fault Refusal :=
  alu2 d a b fun a b => divU a b

/-- R306, rem. -/
def execRem (d a b : BitVec 5) : State → Host.Outcome State Fault Refusal :=
  alu2 d a b fun a b => remS a b

/-- R306, remu. -/
def execRemu (d a b : BitVec 5) : State → Host.Outcome State Fault Refusal :=
  alu2 d a b fun a b => remU a b

/-- R306, add32. -/
def execAdd32 (d a b : BitVec 5) : State → Host.Outcome State Fault Refusal :=
  alu2 d a b fun a b => sext32 (a + b)

/-- R306, sub32. -/
def execSub32 (d a b : BitVec 5) : State → Host.Outcome State Fault Refusal :=
  alu2 d a b fun a b => sext32 (a - b)

/-- R306, mul32. -/
def execMul32 (d a b : BitVec 5) : State → Host.Outcome State Fault Refusal :=
  alu2 d a b fun a b => sext32 (a * b)

/-- R307, madd. -/
def execMadd (d a b c : BitVec 5) : State → Host.Outcome State Fault Refusal :=
  alu3 d a b c fun a b c => a * b + c

/-- R307, msub. -/
def execMsub (d a b c : BitVec 5) : State → Host.Outcome State Fault Refusal :=
  alu3 d a b c fun a b c => c - a * b

/-- R307, csel. -/
def execCsel (d a b c : BitVec 5) : State → Host.Outcome State Fault Refusal :=
  alu3 d a b c fun a b c => if c ≠ 0 then a else b

/-- R307, clz. -/
def execClz (d a : BitVec 5) : State → Host.Outcome State Fault Refusal :=
  alu1 d a fun a => word (clz64 a)

/-- R307, ctz. -/
def execCtz (d a : BitVec 5) : State → Host.Outcome State Fault Refusal :=
  alu1 d a fun a => word (ctz64 a)

/-- R307, popc. -/
def execPopc (d a : BitVec 5) : State → Host.Outcome State Fault Refusal :=
  alu1 d a fun a => word (popCount 64 a.toNat)

/-- R307, bswap. -/
def execBswap (d a : BitVec 5) : State → Host.Outcome State Fault Refusal :=
  alu1 d a fun a => bswap64 a

/-- R307, sextB. -/
def execSextB (d a : BitVec 5) : State → Host.Outcome State Fault Refusal :=
  alu1 d a fun a => (a.setWidth 8).signExtend 64

/-- R307, sextH. -/
def execSextH (d a : BitVec 5) : State → Host.Outcome State Fault Refusal :=
  alu1 d a fun a => (a.setWidth 16).signExtend 64

/-- R307, sextW. -/
def execSextW (d a : BitVec 5) : State → Host.Outcome State Fault Refusal :=
  alu1 d a fun a => sext32 a

/-- R307, zextW. -/
def execZextW (d a : BitVec 5) : State → Host.Outcome State Fault Refusal :=
  alu1 d a fun a => (a.setWidth 32).setWidth 64

/-- R308, addi. -/
def execAddi (d a : BitVec 5) (i : BitVec 14) : State → Host.Outcome State Fault Refusal :=
  alu1 d a fun a => a + simm i

/-- R308, andi. -/
def execAndi (d a : BitVec 5) (i : BitVec 14) : State → Host.Outcome State Fault Refusal :=
  alu1 d a fun a => a &&& simm i

/-- R308, ori. -/
def execOri (d a : BitVec 5) (i : BitVec 14) : State → Host.Outcome State Fault Refusal :=
  alu1 d a fun a => a ||| zimm i

/-- R308, xori. -/
def execXori (d a : BitVec 5) (i : BitVec 14) : State → Host.Outcome State Fault Refusal :=
  alu1 d a fun a => a ^^^ zimm i

/-- R308, slti. -/
def execSlti (d a : BitVec 5) (i : BitVec 14) : State → Host.Outcome State Fault Refusal :=
  alu1 d a fun a => boolWord (a.slt (simm i))

/-- R308, sltiu. -/
def execSltiu (d a : BitVec 5) (i : BitVec 14) : State → Host.Outcome State Fault Refusal :=
  alu1 d a fun a => boolWord (a.ult (simm i))

/-- R308, slli. -/
def execSlli (d a : BitVec 5) (n : BitVec 6) : State → Host.Outcome State Fault Refusal :=
  alu1 d a fun a => a <<< n.toNat

/-- R308, srli. -/
def execSrli (d a : BitVec 5) (n : BitVec 6) : State → Host.Outcome State Fault Refusal :=
  alu1 d a fun a => a >>> n.toNat

/-- R308, srai. -/
def execSrai (d a : BitVec 5) (n : BitVec 6) : State → Host.Outcome State Fault Refusal :=
  alu1 d a fun a => a.sshiftRight n.toNat

/-- R308, rori. -/
def execRori (d a : BitVec 5) (n : BitVec 6) : State → Host.Outcome State Fault Refusal :=
  alu1 d a fun a => a.rotateRight n.toNat

/-- R308, R291, movhi: the 32-bit value I19 × 2^13, sign-extended. -/
def execMovhi (d : BitVec 5) (i : BitVec 19) : State → Host.Outcome State Fault Refusal :=
  issueA { gd := [d.toNat] } false fun _ => { gw := [(d.toNat, sext 32 (i.toNat * 2 ^ 13))] }

/-- R308, R291, insh: (d shl 16) or I16; d is read. -/
def execInsh (d : BitVec 5) (i : BitVec 16) : State → Host.Outcome State Fault Refusal :=
  issueA { gs := [d.toNat], gd := [d.toNat] } false fun t => { gw := [(d.toNat, (t.rg d.toNat <<< 16) ||| zimm i)] }

/-! ## f32 in g registers (R309, R310) -/

/-- The f32 operand of a register (R309). -/
def f32Of (x : Word) : Nat := x.toNat % 2 ^ 32

/-- An f32 result with its flags; bits [63:32] are cleared. -/
def f32Out (d : BitVec 5) (r : Nat × Flags) : AOut := { gw := [(d.toNat, word (r.1 % 2 ^ 32))], lanes := [(0, r.2)] }

/-- d := f(a, b) on f32 values. -/
def fop2 (d a b : BitVec 5) (f : Nat → Nat → Nat × Flags) : State → Host.Outcome State Fault Refusal :=
  issueA { gs := [a.toNat, b.toNat], gd := [d.toNat] } false fun t => f32Out d (f (f32Of (t.rg a.toNat)) (f32Of (t.rg b.toNat)))

/-- d := f(a) on an f32 value. -/
def fop1 (d a : BitVec 5) (f : Nat → Nat × Flags) : State → Host.Outcome State Fault Refusal :=
  issueA { gs := [a.toNat], gd := [d.toNat] } false fun t => f32Out d (f (f32Of (t.rg a.toNat)))

/-- d := f(a, b, c) on f32 values. -/
def fop3 (d a b c : BitVec 5) (f : Nat → Nat → Nat → Nat × Flags) : State → Host.Outcome State Fault Refusal :=
  issueA { gs := [a.toNat, b.toNat, c.toNat], gd := [d.toNat] } false fun t =>
    f32Out d (f (f32Of (t.rg a.toNat)) (f32Of (t.rg b.toNat)) (f32Of (t.rg c.toNat)))

/-- R310, fadd. -/
def execFadd (d a b : BitVec 5) : State → Host.Outcome State Fault Refusal :=
  fop2 d a b fmtF32.add

/-- R310, fsub. -/
def execFsub (d a b : BitVec 5) : State → Host.Outcome State Fault Refusal :=
  fop2 d a b fmtF32.sub

/-- R310, fmul. -/
def execFmul (d a b : BitVec 5) : State → Host.Outcome State Fault Refusal :=
  fop2 d a b fmtF32.mul

/-- R310, fdiv. -/
def execFdiv (d a b : BitVec 5) : State → Host.Outcome State Fault Refusal :=
  fop2 d a b fmtF32.div

/-- R310, fmin. -/
def execFmin (d a b : BitVec 5) : State → Host.Outcome State Fault Refusal :=
  fop2 d a b (fmtF32.minmax false)

/-- R310, fmax. -/
def execFmax (d a b : BitVec 5) : State → Host.Outcome State Fault Refusal :=
  fop2 d a b (fmtF32.minmax true)

/-- R310, fsqrt. -/
def execFsqrt (d a : BitVec 5) : State → Host.Outcome State Fault Refusal :=
  fop1 d a fmtF32.sqrt

/-- R310, fneg: bit 31 flipped. -/
def execFneg (d a : BitVec 5) : State → Host.Outcome State Fault Refusal :=
  fop1 d a fun x => (fmtF32.neg x, 0)

/-- R310, fabs: bit 31 cleared. -/
def execFabs (d a : BitVec 5) : State → Host.Outcome State Fault Refusal :=
  fop1 d a fun x => (fmtF32.abs x, 0)

/-- R310, fcpsgn. -/
def execFcpsgn (d a b : BitVec 5) : State → Host.Outcome State Fault Refusal :=
  fop2 d a b fun x y => (fmtF32.cpsgn x y, 0)

/-- R310, fcmeq. -/
def execFcmeq (d a b : BitVec 5) : State → Host.Outcome State Fault Refusal :=
  fop2 d a b fun x y => (bitOf (fmtF32.cmpEq x y).1, (fmtF32.cmpEq x y).2)

/-- R310, fcmlt. -/
def execFcmlt (d a b : BitVec 5) : State → Host.Outcome State Fault Refusal :=
  fop2 d a b fun x y => (bitOf (fmtF32.cmpLt x y).1, (fmtF32.cmpLt x y).2)

/-- R310, fcmle. -/
def execFcmle (d a b : BitVec 5) : State → Host.Outcome State Fault Refusal :=
  fop2 d a b fun x y => (bitOf (fmtF32.cmpLe x y).1, (fmtF32.cmpLe x y).2)

/-- R310, ffma. -/
def execFfma (d a b c : BitVec 5) : State → Host.Outcome State Fault Refusal :=
  fop3 d a b c fmtF32.fma

/-- R310, ffms. -/
def execFfms (d a b c : BitVec 5) : State → Host.Outcome State Fault Refusal :=
  fop3 d a b c fmtF32.fms

/-- R310, ffnma. -/
def execFfnma (d a b c : BitVec 5) : State → Host.Outcome State Fault Refusal :=
  fop3 d a b c fmtF32.fnma

/-- R310, ffnms. -/
def execFfnms (d a b c : BitVec 5) : State → Host.Outcome State Fault Refusal :=
  fop3 d a b c fmtF32.fnms

/-- R311, fconv: the operand's low bits by its type; an i32 result is sign-extended, the others zero-extended. -/
def execFconv (d a : BitVec 5) (t : Ty) (r : BitVec 2) (sat : Bool) (u : Ty) : State → Host.Outcome State Fault Refusal :=
  issueA { gs := [a.toNat], gd := [d.toNat] } false fun th =>
    let x := convert t u (Rm.ofCode r) sat ((th.rg a.toNat).toNat % 2 ^ u.width)
    { gw := [(d.toNat, if t = .i32 then sext 32 x.1 else word (x.1 % 2 ^ t.width))], lanes := [(0, x.2)] }

/-- R311, frint. -/
def execFrint (d a : BitVec 5) (r : BitVec 2) : State → Host.Outcome State Fault Refusal :=
  fop1 d a (frintF32 (Rm.ofCode r))

end Sys2Proof.Machine
end

