-- ==== Sys2Proof/Machine/Sorter.lean ====
section
/-!
DEFINITION. The sorter (R119, R332): the checker, and the engine that runs a queue's program on a CUSTOM packet. A run is one
step of the machine: its accesses come in program order, and its writes to windows 4 to 7 are made when it has ended well.
-/

namespace Sys2Proof.Machine

/-! ## The sorter subset (R294, R295, R332) -/

/-- What a word of the subset does. -/
inductive SortWord where
  /-- An instruction that touches registers and the PC only: its meaning in the cores. -/
  | plain (f : State → Host.Outcome State Fault Refusal)
  /-- A load of `n` bytes into g d, sign-extended or not. -/
  | load (d n : Nat) (signed : Bool) (ea : Thread → Word)
  /-- A store of the low `n` bytes of g d. -/
  | store (d n : Nat) (ea : Thread → Word)
  | ret

/-- Size and signedness of the load kinds W (R338). -/
def loadKind (w : Nat) : Option (Nat × Bool) :=
  match w with
  | 0 => some (1, false) | 1 => some (2, false) | 2 => some (4, false) | 3 => some (8, false)
  | 4 => some (1, true) | 5 => some (2, true) | 6 => some (4, true) | _ => none

/-- C-class majors of the subset. -/
def sortC (w : Nat) : Option SortWord :=
  let d := bits w 19 5
  let a := BitVec.ofNat 5 (bits w 14 5)
  let b := BitVec.ofNat 5 (bits w 9 5)
  let i := BitVec.ofNat 7 (bits w 4 7)
  match bits w 24 6 with
  | 1 => match decC01 w with
    | some (.beq p a b o) => some (.plain (execBeq p a b o))
    | some (.bne p a b o) => some (.plain (execBne p a b o))
    | some (.blt p a b o) => some (.plain (execBlt p a b o))
    | some (.bge p a b o) => some (.plain (execBge p a b o))
    | some (.bltu p a b o) => some (.plain (execBltu p a b o))
    | some (.bgeu p a b o) => some (.plain (execBgeu p a b o))
    | _ => none
  | 2 => match decC02 w with
    | some (.bdec p a n o) => some (.plain (execBdec p a n o))
    | _ => none
  | 5 => match decC05 w with
    | some (.jmp p o) => some (.plain (execJmp p o))
    | _ => none
  | 7 => match decC07 w with
    | some (.ret _) => some .ret
    | _ => none
  | 0x10 => (loadKind (bits w 11 3)).map fun k => .load d k.1 k.2 (eaImm a i k.1)
  | 0x11 => if bits w 0 4 = 0 ∧ bits w 11 3 < 4 then some (.store d (2 ^ bits w 11 3) (eaImm a i (2 ^ bits w 11 3))) else none
  | 0x12 =>
    if bits w 4 5 < 7 then (loadKind (bits w 4 5)).map fun k => .load d k.1 k.2 (eaIdx a b k.1)
    else if bits w 0 4 = 0 ∧ 8 ≤ bits w 4 5 ∧ bits w 4 5 < 12 then
      some (.store d (2 ^ (bits w 4 5 - 8)) (eaIdx a b (2 ^ (bits w 4 5 - 8))))
    else none
  | _ => none

/-- A-class majors 0x00 to 0x02 of the subset; divide and remainder are left out. -/
def sortReg (w : Nat) : Option (State → Host.Outcome State Fault Refusal) :=
  match bits w 24 6 with
  | 0 => match decA00 w with
    | some (.add d a b) => some (execAdd d a b)
    | some (.sub d a b) => some (execSub d a b)
    | some (.and d a b) => some (execAnd d a b)
    | some (.or d a b) => some (execOr d a b)
    | some (.xor d a b) => some (execXor d a b)
    | some (.andn d a b) => some (execAndn d a b)
    | some (.sll d a b) => some (execSll d a b)
    | some (.srl d a b) => some (execSrl d a b)
    | some (.sra d a b) => some (execSra d a b)
    | some (.rol d a b) => some (execRol d a b)
    | some (.ror d a b) => some (execRor d a b)
    | some (.slt d a b) => some (execSlt d a b)
    | some (.sltu d a b) => some (execSltu d a b)
    | some (.seq d a b) => some (execSeq d a b)
    | _ => none
  | 1 => match decA01 w with
    | some (.min d a b) => some (execMin d a b)
    | some (.max d a b) => some (execMax d a b)
    | some (.minu d a b) => some (execMinu d a b)
    | some (.maxu d a b) => some (execMaxu d a b)
    | some (.mul d a b) => some (execMul d a b)
    | some (.mulh d a b) => some (execMulh d a b)
    | some (.mulhu d a b) => some (execMulhu d a b)
    | some (.add32 d a b) => some (execAdd32 d a b)
    | some (.sub32 d a b) => some (execSub32 d a b)
    | some (.mul32 d a b) => some (execMul32 d a b)
    | _ => none
  | 2 => match decA02 w with
    | some (.madd d a b c) => some (execMadd d a b c)
    | some (.msub d a b c) => some (execMsub d a b c)
    | some (.csel d a b c) => some (execCsel d a b c)
    | some (.clz d a) => some (execClz d a)
    | some (.ctz d a) => some (execCtz d a)
    | some (.popc d a) => some (execPopc d a)
    | some (.bswap d a) => some (execBswap d a)
    | some (.sextB d a) => some (execSextB d a)
    | some (.sextH d a) => some (execSextH d a)
    | some (.sextW d a) => some (execSextW d a)
    | some (.zextW d a) => some (execZextW d a)
    | _ => none
  | _ => none

/-- A-class majors 0x03 to 0x0B. -/
def sortImm (w : Nat) : Option (State → Host.Outcome State Fault Refusal) :=
  match bits w 24 6 with
  | 3 => match decA03 w with | some (.addi d a i) => some (execAddi d a i) | _ => none
  | 4 => match decA04 w with | some (.andi d a i) => some (execAndi d a i) | _ => none
  | 5 => match decA05 w with | some (.ori d a i) => some (execOri d a i) | _ => none
  | 6 => match decA06 w with | some (.xori d a i) => some (execXori d a i) | _ => none
  | 7 => match decA07 w with
    | some (.slli d a n) => some (execSlli d a n)
    | some (.srli d a n) => some (execSrli d a n)
    | some (.srai d a n) => some (execSrai d a n)
    | some (.rori d a n) => some (execRori d a n)
    | _ => none
  | 8 => match decA08 w with | some (.slti d a i) => some (execSlti d a i) | _ => none
  | 9 => match decA09 w with | some (.sltiu d a i) => some (execSltiu d a i) | _ => none
  | 0x0A => match decA0A w with | some (.movhi d i) => some (execMovhi d i) | _ => none
  | 0x0B => match decA0B w with | some (.insh d i) => some (execInsh d i) | _ => none
  | _ => none

/-- The word as a lone word of the subset; `none` for any other word. -/
def sortWord (w : Nat) : Option SortWord :=
  if bits w 31 1 = 1 then none
  else if bits w 30 1 = 0 then sortC w
  else if bits w 24 6 < 3 then (sortReg w).map .plain
  else (sortImm w).map .plain

/-! ## The checker (R119) -/

/-- A loop of a BDEC: the word it branches to, and itself. -/
abbrev SortLoop := Int × Int

/-- The target of a branch or jump at a word, and whether it is a BDEC. -/
def sortTarget (w i : Nat) : Option (Int × Bool) :=
  if bits w 30 1 = 1 then none
  else match bits w 24 6 with
    | 1 => some (i + toSigned 11 (bits w 0 11), false)
    | 2 => some (i + toSigned 11 (bits w 0 11), true)
    | 5 => some (i + toSigned 24 (bits w 0 24), false)
    | _ => none

def SortLoop.holds (l : SortLoop) (x : Int) : Bool := decide (l.1 ≤ x) && decide (x ≤ l.2)

/-- Two loops are disjoint, or one lies in the other. -/
def SortLoop.fit (a b : SortLoop) : Bool :=
  decide (a.2 < b.1) || decide (b.2 < a.1) || (a.holds b.1 && a.holds b.2) || (b.holds a.1 && b.holds a.2)

/-- The checker's rules. -/
def sortCheck (prog : List (BitVec 32)) : Bool :=
  let ws := (List.range prog.length).zip prog
  let jumps := ws.filterMap fun (e : Nat × BitVec 32) => (sortTarget e.2.toNat e.1).map fun t => (e.1, t)
  let loops : List SortLoop := jumps.filterMap fun (e : Nat × Int × Bool) => if e.2.2 then some (e.2.1, (e.1 : Int)) else none
  (ws.all fun e => (sortWord e.2.toNat).isSome) &&
  (jumps.all fun e => if e.2.2 then decide (0 ≤ e.2.1) && decide (e.2.1 < e.1) else decide ((e.1 : Int) < e.2.1) && decide (e.2.1 < prog.length)) &&
  (loops.all fun a => loops.all fun b => a.fit b) &&
  (jumps.all fun e => loops.all fun l => !l.holds e.2.1 || l.holds e.1)

/-! ## The engine (R119, R332) -/

/-- A run in progress: the machine with its reads done, the registers, the emit buffer, the scratch window, and the bytes
written to memory, by physical address. -/
structure SortRun where
  s : State
  t : Thread := {}
  emit : Tbl Byte := []
  scratch : Tbl Byte := []
  mem : List (Nat × Byte) := []

/-- A status of the packet: SORTFAULT with the trap cause recorded. -/
def sortFault {α : Type} (cause : Nat) : FeRes α := .fail 8 cause 0

/-- SORTFAULT for a condition that is no trap: the recorded cause code is left open. -/
def sortFaultOpen {α : Type} (r : SortRun) : FeRes α := sortFault (Config.freeNat r.s.free % 65536)

/-- Bytes of memory of the run, in one page: what it has written lies over what the homes hold. -/
def SortRun.readMem (r : SortRun) (e : Queue) (va n : Nat) : FeRes (SortRun × List Byte) :=
  (r.s.pktXlat e.q e.space va false).bind fun s pa => match s.cohBytes feId pa n with
    | .ok (s, l, none) => .ok s ({ r with s := s }, ((List.range n).zip l).map fun b =>
        match r.mem.find? fun m => m.1 == pa + b.1 with
        | some m => m.2
        | none => b.2)
    | .ok (_, _, some _) => .fail 13 0 va
    | .error s => .busy s

/-- The same across a page's end. -/
def SortRun.readVa (r : SortRun) (e : Queue) (va n : Nat) : FeRes (SortRun × List Byte) :=
  let k := min n (4096 - va % 4096)
  if k = n then r.readMem e va n
  else (r.readMem e va k).bind fun _ x => (x.1.readMem e (va + k) (n - k)).bind fun s y => .ok s (y.1, x.2 ++ y.2)

def SortRun.writeMem (r : SortRun) (e : Queue) (va : Nat) (l : List Byte) : FeRes SortRun :=
  (r.s.pktXlat e.q e.space va true).bind fun s pa =>
    .ok s { r with s := s, mem := (((List.range l.length).zip l).map fun b => (pa + b.1, b.2)) ++ r.mem }

def SortRun.writeVa (r : SortRun) (e : Queue) (va : Nat) (l : List Byte) : FeRes SortRun :=
  let k := min l.length (4096 - va % 4096)
  if k = l.length then r.writeMem e va l
  else (r.writeMem e va (l.take k)).bind fun _ x => x.writeMem e (va + k) (l.drop k)

/-- A window's entry of the table at WINVA: base, length (at most 1 MiB) and write permission. -/
def SortRun.window (r : SortRun) (e : Queue) (k : Nat) : FeRes (SortRun × Nat × Nat × Bool) :=
  if e.entry.winva = 0 then .ok r.s (r, 0, 0, false)
  else (r.readMem e (e.entry.winva + 16 * k) 16).bind fun s x =>
    let b := leNat x.2
    .ok s (x.1, bits b 0 64, min (bits b 64 32) (2 ^ 20), bits b 96 1 == 1)

/-- A load: `n` bytes of a window. -/
def SortRun.load (r : SortRun) (e : Queue) (p : Packet) (ea n : Nat) : FeRes (SortRun × List Byte) :=
  let off := ea % 2 ^ 28
  let tbl (m : Tbl Byte) : List Byte := (List.range n).map fun i => Tbl.get 0 m (off + i)
  if ea % n ≠ 0 then sortFault Cause.align
  else if 2 ^ 31 ≤ ea then sortFault Cause.access
  else match ea / 2 ^ 28 with
    | 0 => if off + n ≤ 64 then .ok r.s (r, (p.bytes.drop off).take n) else sortFault Cause.access
    | 1 => if off + n ≤ 64 * 2 ^ e.entry.logsize then r.readVa e (e.entry.ringva + off) n else sortFault Cause.access
    | 2 => if off + n ≤ 256 then .ok r.s (r, tbl r.emit) else sortFault Cause.access
    | 3 => if off + n ≤ 256 then .ok r.s (r, tbl r.scratch) else sortFault Cause.access
    | k => (r.window e (k - 4)).bind fun _ w =>
      if off + n ≤ w.2.2.1 then w.1.readVa e ((w.2.1 + off) % 2 ^ 64) n else sortFault Cause.access

/-- A store. -/
def SortRun.store (r : SortRun) (e : Queue) (ea : Nat) (l : List Byte) : FeRes SortRun :=
  let off := ea % 2 ^ 28
  let n := l.length
  if ea % n ≠ 0 then sortFault Cause.align
  else if 2 ^ 31 ≤ ea then sortFault Cause.access
  else match ea / 2 ^ 28 with
    | 0 | 1 => sortFault Cause.access
    | 2 => if off + n ≤ 256 then .ok r.s { r with emit := putList r.emit off l } else sortFault Cause.access
    | 3 => if off + n ≤ 256 then .ok r.s { r with scratch := putList r.scratch off l } else sortFault Cause.access
    | k => (r.window e (k - 4)).bind fun _ w =>
      if off + n ≤ w.2.2.1 ∧ w.2.2.2 then w.1.writeVa e ((w.2.1 + off) % 2 ^ 64) l else sortFault Cause.access

/-- The registers after an instruction that touches registers and the PC only: its meaning on a machine of one thread. -/
def plainStep (f : State → Host.Outcome State Fault Refusal) (t : Thread) (w : Nat) : Option Thread :=
  match f { threads := [(0, some t)], unit := { addr := t.pc, word0 := BitVec.ofNat 32 w } } with
  | .next s => s.thr 0
  | _ => none

/-- Runs until RET; `fuel` is the budget of 256 instructions. -/
def SortRun.go (e : Queue) (p : Packet) : Nat → SortRun → FeRes SortRun
  | 0, r => sortFaultOpen r
  | fuel + 1, r =>
    let i := r.t.pc.toNat / 4
    match e.sorter[i]? with
    | none => sortFaultOpen r
    | some w => match sortWord w.toNat with
      | none => sortFaultOpen r
      | some .ret => .ok r.s r
      | some (.plain f) => match plainStep f r.t w.toNat with
        | some t => SortRun.go e p fuel { r with t := t }
        | none => sortFaultOpen r
      | some (.load d n sg ea) => (r.load e p (ea r.t).toNat n).bind fun _ x =>
        let v : Word := if sg then sext (8 * n) (leNat x.2) else word (leNat x.2)
        SortRun.go e p fuel { x.1 with t := { (x.1.t.wg d v) with pc := x.1.t.pc + 4 } }
      | some (.store d n ea) => (r.store e (ea r.t).toNat (leBytes n (r.t.rg d).toNat)).bind fun _ x =>
        SortRun.go e p fuel { x with t := { x.t with pc := x.t.pc + 4 } }

/-- The registers at entry: g3 = SUBOP, g4 = the ring index, g5 = QID. -/
def sortEntry (e : Queue) (p : Packet) : Thread :=
  (((({} : Thread).wg 3 (word (pktSubop p.bytes))).wg 4 (word p.idx)).wg 5 (word e.q))

/-- The writes of a run, made at the homes once all of them are at hand. -/
def SortRun.commit (r : SortRun) : Except State State := r.s.cohPuts feId (r.mem.reverse.map fun m => (m.1, [m.2])) false

/-- Runs the sorter on a CUSTOM packet: the packets it emits, once its writes are made. -/
def State.sortRun (s : State) (e : Queue) (p : Packet) : FeRes (List (List Byte)) :=
  if !e.sorterOk then .fail 7 0 0
  else
    let n := s.free
    let r : SortRun := { s := { s with free := n + 257 }, t := sortEntry e p, scratch := e.scratch
                         emit := putList [] 0 ((List.range 256).map fun i => Config.freeByte (n + i)) }
    (SortRun.go e p 256 r).bind fun _ r =>
      let k := (r.t.rg 3).toNat
      if 4 < k then sortFaultOpen r
      else match r.commit with
        | .error s => .busy s
        | .ok s => .ok (s.modFq e.q fun y => { y with scratch := r.scratch })
            ((List.range k).map fun i => (List.range 64).map fun j => Tbl.get 0 r.emit (64 * i + j))

/-! ## Loading the program (R119) -/

/-- Reads and checks a queue's program; a program that cannot be read does not pass. -/
def State.readSorter (s : State) (e : Queue) : FeRes Unit :=
  let n := e.entry.sortlen + 1
  let take (l : List Byte) : List (BitVec 32) := (List.range n).map fun i => BitVec.ofNat 32 (leNat ((l.drop (4 * i)).take 4))
  let set (s : State) (prog : List (BitVec 32)) (ok : Bool) : FeRes Unit :=
    .ok (s.modFq e.q fun y => { y with sorterRead := true, sorter := prog, sorterOk := ok, x := {} }) ()
  match s.pktLines e.q e.space e.entry.sortva ((n + 15) / 16) with
  | .ok s l => set s (take l) (sortCheck (take l))
  | .fail _ _ _ => set s [] false
  | .park s => .park s
  | .busy s => .busy s
  | .hold s r => .hold s r

/-- The program of a queue that has been made resident or bound again is read and checked, and the queue parks for its pages. -/
def State.tryReadSorter (s : State) (e : Queue) : State :=
  if e.sorterRead ∨ !(e.st == .idle || e.st == .ready) then s
  else match s.readSorter e with
    | .ok s _ | .busy s => s
    | .park s => s.parkQueue e.q .page
    | .hold s r => s.parkQueue e.q r
    | .fail _ _ _ => s

end Sys2Proof.Machine
end

