-- ==== Sys2Proof/Machine/Packets.lean ====
section
/-!
DEFINITION. What packets do (R113 to R119, R122 to R124, R203): their checks, each type's effect, the block copier, and the
packet processors' choice of a queue (R110, R111).
-/

namespace Sys2Proof.Machine

/-! ## Checks (R113, R114) -/

/-- Bytes of a packet that must be zero. -/
def zeroBytes (b : List Byte) (lo hi : Nat) : Bool := pktField b lo (hi - lo) == 0

/-- The type may stand in a queue with this PRIV. -/
def typeAllowed (priv : Bool) (typ : Nat) : Bool :=
  match typ with
  | 1 | 3 | 8 => !priv
  | 7 => priv
  | _ => true

/-- Reserved fields and ranges of a body. -/
def bodyReserved (b : List Byte) : Bool :=
  let sub := pktSubop b
  match pktType b with
  | 0 => sub != 0 || !zeroBytes b 8 64
  | 1 => sub != 0 || !zeroBytes b 0x27 0x28 || !zeroBytes b 0x30 0x40 || pktField b 0x20 2 == 0 || pktField b 0x22 2 == 0 ||
      pktField b 0x24 2 == 0 || pktField b 0x26 1 == 0 || decide (15 < pktField b 0x26 1)
  | 2 => sub / 2 != 0 || pktField b 0x18 8 == 0 || decide (2 ^ 40 ≤ pktField b 0x18 8) || !zeroBytes b 0x28 0x40 ||
      (if sub = 1 then !zeroBytes b 8 0x10 else !zeroBytes b 0x20 0x28)
  | 3 => sub != 0 || !zeroBytes b 0x10 0x40
  | 4 => !(sub == 0 || sub == 2 || sub == 8) || !zeroBytes b 0x18 0x40
  | 5 => decide (4 ≤ sub) || !zeroBytes b 0x24 0x40
  | 6 => decide (32 ≤ sub)
  | 7 => decide (2 ≤ sub) || decide (2 ^ 12 ≤ pktField b 8 4) || decide (2 ^ 20 ≤ pktField b 0x0C 4) || !zeroBytes b 0x18 0x40 ||
      (sub == 1 && !zeroBytes b 0x0C 0x18)
  | _ => false

/-- Alignment rules of a body. -/
def bodyMisaligned (b : List Byte) : Bool :=
  match pktType b with
  | 1 => pktField b 8 8 % 64 != 0 || pktField b 0x10 8 % 4 != 0 || pktField b 0x18 8 % 64 != 0
  | 2 => pktSubop b == 1 && (pktField b 0x10 8 % 8 != 0 || pktField b 0x18 8 % 8 != 0)
  | 3 => pktField b 8 8 % 64 != 0
  | 4 | 5 => pktField b 8 8 % 8 != 0
  | 6 => decide (64 < pktField b 8 8 % 64 + (pktSubop b + 1)) || pktField b 0x30 8 % 8 != 0
  | 7 => pktField b 0x10 8 % 64 != 0
  | _ => false

/-- The status with which R113 turns a packet away. -/
def pktCheck (priv : Bool) (b : List Byte) : Option Nat :=
  if 8 < pktType b then some 1
  else if !typeAllowed priv (pktType b) then some 11
  else if bits (leNat (b.take 8)) 10 6 ≠ 0 ∨ bodyReserved b then some 2
  else if bodyMisaligned b then some 3
  else none

/-! ## How a body is processed -/

/-- Processes the body in hand: the processor goes on, the queue parks, or the packet fails. -/
def State.onBody (s : State) (q typ : Nat) (ev : Ev) (f : Queue → Packet → List Byte → FeRes Unit) : State :=
  match s.fq q with
  | none => s
  | some e => match e.cur with
    | none => s
    | some p =>
      if e.st ≠ .active ∨ pktType p.body ≠ typ then s
      else match pktCheck e.entry.priv p.body with
        | some st => s.failNow q st 0 0
        | none => match f e p p.body with
          | .ok s _ => s.processed q
          | .park s => s.parkQueue q .page
          | .busy s => s.laterOnce ev
          | .hold s r => s.parkQueue q r
          | .fail st c a => s.failNow q st c a

/-- Sets the step reached by the packet in hand. -/
def State.setStep (s : State) (q n : Nat) : State := s.modFq q fun e => { e with stepNo := n }

/-- R114, NOP_PACKET. -/
def execNopPacket (q : Nat) : State → Host.Outcome State Fault Refusal :=
  event fun s => s.onBody q 0 (.nopPacket q) fun _ _ _ => .ok s ()

/-! ## Signals (R115) -/

/-- Every parked WAIT polls at once. -/
def State.pollWaits (s : State) : State :=
  foldS (fun (e : Queue) (s : State) => if e.st = .parked ∧ e.reason = .memory then s.laterOnce (.waitPoll e.q) else s) s.fe.queues s

/-- An atomic of the front end on an 8-byte word at its home (R61). -/
def State.feAtomic (s : State) (op pa x : Nat) : Except State (State × List Byte) :=
  s.cohRmw feId pa 8 fun l => leBytes 8 (atomicNew op 8 (leNat l) x 0)

/-- The atomic of a packet on its signal word, and the polls that it sets off. -/
def State.pktSignal (s : State) (e : Queue) (op va x : Nat) : FeRes Unit :=
  (s.pktXlat e.q e.space va true).bind fun s pa => match s.feAtomic op pa x with
    | .ok r => .ok r.1.pollWaits ()
    | .error s => .busy s

/-- R115, SIGNAL_PACKET. -/
def execSignalPacket (q : Nat) : State → Host.Outcome State Fault Refusal :=
  event fun s => s.onBody q 4 (.signalPacket q) fun e _ b => s.pktSignal e (pktSubop b) (pktField b 8 8) (pktField b 0x10 8)

/-- WRITE_SIGNAL: both addresses are translated, the data is written, and then the word is added to. -/
def State.writeSignal (s : State) (e : Queue) (b : List Byte) : FeRes Unit :=
  let n := pktSubop b + 1
  let add (s : State) : FeRes Unit := s.pktSignal e 0 (pktField b 0x30 8) (pktField b 0x38 8)
  if e.stepNo ≠ 0 then add s
  else
    (s.pktXlat e.q e.space (pktField b 0x30 8) true).bind fun s _ =>
      (s.pktXlat e.q e.space (pktField b 8 8) true).bind fun s pa =>
        match s.cohPut feId pa ((b.drop 0x10).take n) false with
        | .ok s => add (s.setStep e.q 1)
        | .error s => .busy s

/-- R115, WRITE_SIGNAL_PACKET. -/
def execWriteSignalPacket (q : Nat) : State → Host.Outcome State Fault Refusal :=
  event fun s => s.onBody q 6 (.writeSignalPacket q) fun e _ b => s.writeSignal e b

/-! ## WAIT (R115) -/

/-- The condition of a WAIT on the word read. -/
def waitHolds (b : List Byte) (x : Nat) : Bool :=
  let m := Nat.land x (pktField b 0x18 8)
  let v := pktField b 0x10 8
  match pktSubop b with
  | 0 => m == v
  | 1 => m != v
  | 2 => decide (v ≤ m)
  | _ => decide (m < v)

/-- The word of a WAIT is read: the condition holds, or the queue parks. Step 2: the wait has begun. -/
def State.waitRead (s : State) (e : Queue) (b : List Byte) : FeRes Unit :=
  if e.stepNo = 1 then .ok s ()
  else (s.pktRead e.q e.space (pktField b 8 8) 8).bind fun s l =>
    if waitHolds b (leNat l) then .ok s () else .hold (s.setStep e.q 2) .memory

/-- R115, WAIT_PACKET. -/
def execWaitPacket (q : Nat) : State → Host.Outcome State Fault Refusal :=
  event fun s => s.onBody q 5 (.waitPacket q) fun e _ b => s.waitRead e b

/-- WAIT_POLL: a parked WAIT reads its word again; step 1 records that the condition held. -/
def State.onWaitPoll (s : State) (q : Nat) : State :=
  match s.fq q with
  | none => s
  | some e => match e.cur with
    | none => s
    | some p =>
      if e.st ≠ .parked ∨ e.reason ≠ .memory ∨ pktType p.body ≠ 5 then s
      else match s.waitRead e p.body with
        | .ok s _ => s.modFq q fun e => { e with st := .ready, reason := .none, stepNo := 1 }
        | .park s => s.modFq q fun e => { e with reason := .page }
        | .busy s => s.laterOnce (.waitPoll q)
        | .hold s _ => s
        | .fail st c a => s.failNow q st c a

/-- R115, WAIT_POLL. -/
def execWaitPoll (q : Nat) : State → Host.Outcome State Fault Refusal := event fun s => s.onWaitPoll q

/-- The limit of a WAIT in F-cycles; 0 for none. -/
def waitLimit (b : List Byte) : Nat := 1024 * pktField b 0x20 4

/-- WAIT_TIMEOUT. -/
def State.onWaitTimeout (s : State) (q : Nat) : State :=
  match s.fq q with
  | none => s
  | some e => match e.cur with
    | none => s
    | some p =>
      let b := p.body
      if e.st = .parked ∧ pktType b = 5 ∧ e.stepNo = 2 ∧ waitLimit b ≠ 0 ∧ waitLimit b ≤ e.waited then s.failNow q 6 0 (pktField b 8 8)
      else s

/-- R115, WAIT_TIMEOUT. -/
def execWaitTimeout (q : Nat) : State → Host.Outcome State Fault Refusal := event fun s => s.onWaitTimeout q

/-! ## COPY and the block copier (R115, R117) -/

/-- Adds a part of a packet's work. -/
def State.addPart (s : State) (q ser : Nat) : State :=
  s.modFq q fun e => { e with cur := e.cur.map fun (p : Packet) => if p.ser = ser then { p with open_ := p.open_ + 1 } else p }

/-- Hands a copy to the block copier. -/
def State.startCopy (s : State) (e : Queue) (p : Packet) (b : List Byte) : State :=
  let c : BlockCopy :=
    { id := s.clock, q := e.q, ser := p.ser, space := e.space, src := pktField b 8 8, dst := pktField b 0x10 8, len := pktField b 0x18 8
      pattern := if pktSubop b = 1 then some (word (pktField b 0x20 8)) else none }
  ({ s.tickClock with fe := { s.fe with copies := s.fe.copies ++ [c] } }).addPart e.q p.ser

/-- COPY: its addresses are translated, and the copy is handed on (R110). -/
def State.copyBody (s : State) (e : Queue) (p : Packet) (b : List Byte) : FeRes Unit :=
  let src : FeRes Nat := if pktSubop b = 1 then .ok s 0 else s.pktXlat e.q e.space (pktField b 8 8) false
  src.bind fun s _ => (s.pktXlat e.q e.space (pktField b 0x10 8) true).bind fun s _ => .ok (s.startCopy e p b) ()

/-- R115, COPY_PACKET. -/
def execCopyPacket (q : Nat) : State → Host.Outcome State Fault Refusal :=
  event fun s => s.onBody q 2 (.copyPacket q) fun e p b => s.copyBody e p b

/-- Source and destination overlap: the destination bytes are free. -/
def BlockCopy.overlaps (c : BlockCopy) : Bool := c.pattern.isNone && decide (c.src < c.dst + c.len) && decide (c.dst < c.src + c.len)

/-- Bytes of the next piece: within one line of the destination and one page of the source. -/
def BlockCopy.piece (c : BlockCopy) : Nat :=
  let n := min (64 - (c.dst + c.pos) % 64) (c.len - c.pos)
  if c.pattern.isSome then n else min n (4096 - (c.src + c.pos) % 4096)

def State.modCopy (s : State) (id : Nat) (f : BlockCopy → BlockCopy) : State :=
  { s with fe := { s.fe with copies := mapIf (fun (c : BlockCopy) => c.id == id) f s.fe.copies } }

/-- A copy ends; a status other than 0 fails its packet. -/
def State.endCopy (s : State) (c : BlockCopy) (status addr : Nat) : State :=
  let s := ({ s with fe := { s.fe with copies := s.fe.copies.filter fun y => y.id != c.id } }).partDone c.q c.ser
  if status = 0 then s.laterOnce (.packetComplete c.q c.ser) else s.partFail c.q c.ser status addr

/-- The copier's outcome of a translation that is not at hand. -/
def State.copyWaits (s : State) (c : BlockCopy) (st : TState) : State :=
  if st = .ready then s else s.modCopy c.id fun y => { y with waiting := true }

/-- The physical address that a copy's access goes to. -/
def State.copyXlat (s : State) (c : BlockCopy) (va : Nat) (w : Bool) : XRes :=
  s.spaceXlat (.copy c.id) c.space va w

/-- Writes a piece at the destination. -/
def State.copyWrite (s : State) (c : BlockCopy) (l : List Byte) (bad : Bool) : State :=
  match s.copyXlat c (c.dst + c.pos) true with
  | .fault k => s.endCopy c (if k = Cause.pageFail then 4 else 5) (c.dst + c.pos)
  | .wait s st => s.copyWaits c st
  | .pa s pa => match s.cohPut feId pa l bad with
    | .error s => s
    | .ok s => s.modCopy c.id fun y =>
        { y with pos := c.pos + l.length, x := {}, poison := if bad ∧ y.poison.isNone then some (c.src + c.pos) else y.poison }

/-- One piece of a copy. -/
def State.blockCopyStep (s : State) (c : BlockCopy) : State :=
  if c.waiting then s
  else if c.len ≤ c.pos then
    match c.poison with
    | some a => s.endCopy c 13 a
    | none => s.endCopy c 0 0
  else
    let n := c.piece
    match c.pattern with
    | some w => s.copyWrite c ((List.range n).map fun i => BitVec.ofNat 8 (bits w.toNat (8 * ((c.pos + i) % 8)) 8)) false
    | none => match s.copyXlat c (c.src + c.pos) false with
      | .fault k => s.endCopy c (if k = Cause.pageFail then 4 else 5) (c.src + c.pos)
      | .wait s st => s.copyWaits c st
      | .pa s pa => match s.cohBytes feId pa n with
        | .error s => s
        | .ok (s, l, bad) =>
          if c.overlaps then
            let k := s.free
            ({ s with free := k + n }).copyWrite c ((List.range n).map fun i => Config.freeByte (k + i)) bad.isSome
          else s.copyWrite c l bad.isSome

/-- Every copy in hand goes on by a piece. -/
def State.runCopies (s : State) : State := foldS (fun (c : BlockCopy) (s : State) => s.blockCopyStep c) s.fe.copies s

/-! ## BMV (R115) -/

/-- The card is read and checked, and its job starts. -/
def State.startBmv (s : State) (e : Queue) (p : Packet) (b : List Byte) : FeRes Unit :=
  let va := pktField b 8 8
  (s.pktLines e.q e.space va 2).bind fun s l =>
    let img := leNat l
    let j := bmvOf img
    if s.bmvBad 0 img ∨ j.xsp ∨ j.ysp ∨ j.bar ≠ 0xFFFF then .fail 12 0 va
    else
      let n := s.bmv.nextJob
      let j := { j with id := n, queue := some (e.q, p.ser), pasid := e.pasid.getD 0 }
      .ok ((({ s with bmv := { s.bmv with jobs := s.bmv.jobs ++ [j], nextJob := n + 1 } }).addPart e.q p.ser).later (.bmvJobStart n)) ()

/-- R115, BMV_PACKET. -/
def execBmvPacket (q : Nat) : State → Host.Outcome State Fault Refusal :=
  event fun s => s.onBody q 3 (.bmvPacket q) fun e p b => s.startBmv e p b

/-! ## Region control blocks (R122, R123) -/

/-- A reserved field of the 128 bytes is not zero. -/
def rcbReserved (b : Nat) : Bool :=
  let z (off lo n : Nat) : Bool := bits b (8 * off + lo) n == 0
  !(z 8 11 5 && z 8 22 2 && z 8 29 3 && z 8 36 4 && z 8 46 2 && z 8 56 8 && z 0x38 5 27 && z 0x48 5 59 && z 0x50 3 5 && z 0x50 16 16 &&
    z 0x58 0 320)

/-- The effective values of an RCB under its parent's (R123). -/
def rcbValues (b : Nat) (d : RcbVals) : RcbVals :=
  let f (off lo n : Nat) : Nat := bits b (8 * off + lo) n
  let o (k : Nat) : Bool := f 8 k 1 == 1
  let pick {α : Type} (k : Nat) (own : α) (inh : α) : α := if o k then own else inh
  { prio := pick 0 (f 8 16 4) d.prio
    fdom := pick 1 (f 8 20 1 == 1) d.fdom
    fhpc := pick 1 (word (f 0x20 0 64)) d.fhpc
    fnmask := pick 1 (word (f 0x28 0 64)) d.fnmask
    frva := pick 1 (f 0x30 0 64) d.frva
    frlog := pick 1 (f 0x38 0 5) d.frlog
    hbarm := pick 2 (f 8 21 1 == 1) d.hbarm
    hbwin := pick 2 (f 0x18 0 32) d.hbwin
    parts := pick 3 (f 8 24 5) d.parts
    tpc := pick 4 (f 8 32 4) d.tpc
    gran := pick 5 (f 8 40 6) d.gran
    weight := pick 6 (f 8 48 8) d.weight
    slice := pick 7 (max (f 0x10 0 32) (2 ^ 12)) d.slice
    grace := pick 8 (f 0x10 32 32) d.grace
    waitdef := pick 9 (f 0x18 32 32) d.waitdef
    dlbva := pick 10 (f 0x40 0 64) d.dlbva
    dlblog := pick 10 (f 0x48 0 5) d.dlblog }

/-- A field of an overridden group lies outside its range, or the heartbeat is armed with no window. What a group inherits was
in range when its own RCB was read. -/
def rcbRange (v : RcbVals) : Bool :=
  v.parts == 0 || decide (16 < v.parts) || v.tpc == 0 || v.gran == 0 || decide (48 < v.gran) || v.weight == 0 || decide (12 < v.frlog) ||
    v.frva % 64 != 0 || (v.hbarm && v.hbwin == 0)

/-! ## LAUNCH (R124, R203) -/

/-- A reserved field or value of a partition word. -/
def partWordReserved (p : Word) : Bool :=
  field p 14 2 != 0 || field p 19 1 != 0 || field p 24 40 != 0 || pwRfg p == 0 || pwRfg p == 3 || decide (32 < pwAccg p) ||
    decide (4 < pwSlots p) || decide (8 < pwSla p)

/-- R203's checks of a partition word that has no reserved value. -/
def partWordAccess (p : Word) (tpc gran : Nat) : Bool :=
  decide (pwTotg p ≤ pwRfg p + pwAccg p + pwSlots p) || (pwRfg p == 1 && decide (11 < tpc)) || decide (gran < pwTotg p)

/-- The parent that an RCB names under the queue's root: its number, values and depth. -/
def State.parentOf (s : State) (e : Queue) (parent : Nat) : Option (Option Nat × RcbVals × Nat) :=
  if parent = 0 then some (none, e.root, 0)
  else (s.sched.regions.findSome? fun (y : Nat × Option Region) => match y.2 with
    | some x => if !x.ended ∧ x.rcb = parent ∧ some x.pasid = e.pasid ∧ x.rootVa = e.rootVa then some (some y.1, x.vals, x.depth) else none
    | none => none)

/-- The lowest region number that is free. -/
def State.freeRegionNumber (s : State) : Option Nat := (List.range 256).find? fun r => (s.region r).isNone

/-- A region whose save area is short wakes the control cores: the scheduler needs a policy decision (R32, notes/assumptions/132.md). -/
def State.wakeShort (s : State) (x : Region) : State := if s.slotsShort x then s.wakeControl else s

/-- LAUNCH: the checks in order, and the region, PENDING. With 256 live regions the queue parks; a number whose ended region still holds
clusters is awaited (R124). -/
def State.launch (s : State) (e : Queue) (p : Packet) (b : List Byte) : FeRes Unit :=
  if 256 ≤ s.liveRegions.length then .hold s .regions
  else match s.freeRegionNumber with
  | none => .busy s
  | some r =>
    let va := pktField b 8 8
    let tpc := pktField b 0x26 1
    let pw := word (pktField b 0x28 8)
    (s.pktLines e.q e.space va 2).bind fun s l =>
      let rcb := leNat l
      if rcbReserved rcb ∨ partWordReserved pw then .fail 2 0 0
      else match s.parentOf e (bits rcb 0 64) with
        | none => .fail 5 0 va
        | some (parent, inh, depth) =>
          let v := rcbValues rcb inh
          if 8 < depth + 1 ∨ rcbRange v ∨ inh.parts < v.parts ∨ inh.tpc < v.tpc ∨ inh.gran < v.gran ∨ v.tpc < tpc ∨
              partWordAccess pw tpc v.gran then .fail 5 0 va
          else
            let x : Region :=
              { vals := { v with prio := min v.prio inh.prio }, rcb := va, parent := parent, rootVa := e.rootVa, pasid := e.pasid.getD 0
                q := e.q, pkt := p.ser, depth := depth + 1, entry := word (pktField b 0x10 8), argva := word (pktField b 0x18 8)
                gx := pktField b 0x20 2, gy := pktField b 0x22 2, gz := pktField b 0x24 2, tpc := tpc, poolword := pw }
            .ok ((((s.setRegion r (some x)).setRegionState r .pending 0).wakeShort x).addPart e.q p.ser) ()

/-- R124, LAUNCH_PACKET. -/
def execLaunchPacket (q : Nat) : State → Host.Outcome State Fault Refusal :=
  event fun s => s.onBody q 1 (.launchPacket q) fun e p b => s.launch e p b

/-! ## BIND and UNBIND (R80, R81, R118) -/

/-- Step 1: the target has PRIV = 0, nothing started and incomplete, and no other bind in progress. -/
def State.bindTargetOk (s : State) (t : Nat) : Except State (State × Bool) :=
  match s.fq t with
  | some e => .ok (s, !e.entry.priv && !e.incomplete && e.st != .binding && !s.binding t)
  | none => match s.readEntryOf t with
    | .error s => .error s
    | .ok (s, none) => .ok (s, false)
    | .ok (s, some y) => .ok (s, !y.priv && !s.binding t)

/-- The PASID and root that a queue is bound to. -/
def State.bindingOf (s : State) (t : Nat) : Option (Nat × Nat × RcbVals) :=
  (s.fe.bindings.find? fun (y : Nat × Nat × Nat × RcbVals) => y.1 == t).map fun y => y.2

/-- A queue is bound to a PASID. -/
def State.pasidUsed (s : State) (p : Nat) : Bool := s.fe.bindings.any fun (y : Nat × Nat × Nat × RcbVals) => y.2.1 == p

/-- A bind other than queue q's has reserved a PASID. -/
def State.pasidReserved (s : State) (q p : Nat) : Bool :=
  s.fe.queues.any fun (e : Queue) => e.q != q && e.stepNo != 0 && match e.cur with
    | some y => pktType y.body == 7 && pktSubop y.body == 0 && pktField y.body 0x0C 4 == p
    | none => false

/-- Gives a PASID up that no queue is bound to (R81, R118). -/
def State.releasePasid (s : State) (q p : Nat) : State :=
  if s.pasidUsed p ∨ s.pasidReserved q p then s
  else
    let open_ : Bool := s.svc.pages.any fun y => y.pasid == p
    { s with svc := { s.svc with
        bound := s.svc.bound.filter (· != p)
        stopPending := if open_ ∧ !s.svc.stopPending.contains p then s.svc.stopPending ++ [p] else s.svc.stopPending } }

/-- Tag of the invalidation that a bind or unbind of queue q starts. -/
def bindTag (q : Nat) : Nat := 0x100 + q

/-- Steps 4 and 5: the target enters BINDING, and the PASID's entries are removed and its generation advances. -/
def State.startBind (s : State) (q t pasid : Nat) : FeRes Unit :=
  if s.binding t then .fail 14 0 0
  else
  let s := ((s.freeProc t).modFq t fun e => { e with st := .binding, reason := .none, inError := false }).setStep q 3
  .hold (s.startInval { itag := bindTag q, pasid := some pasid, va := 0, sizeLog := 64 } (some pasid)) .bind

/-- Step 6: the target's new binding; its resident state is loaded again and its sorter checked again. -/
def State.rebind (s : State) (q t : Nat) (bd : Option (Nat × Nat × RcbVals)) : FeRes Unit :=
  let old := s.bindingOf t
  let rest := s.fe.bindings.filter fun (y : Nat × Nat × Nat × RcbVals) => y.1 != t
  let all := match bd with | some y => rest ++ [(t, y)] | none => rest
  let finish (s : State) : State :=
    let s := { s with fe := { s.fe with bindings := all } }
    match old with
    | some y => s.releasePasid q y.1
    | none => s
  if (s.fq t).isNone then .ok (finish s) ()
  else match s.readEntryOf t with
    | .error s => .busy s
    | .ok (s, none) => .ok (((finish s).dropQueue t).corrected .frontEnd (word (s.fe.qtBase.toNat * 4096 + 64 * t))) ()
    | .ok (s, some y) =>
      let s := (finish s).modFq t fun e =>
        { e with entry := y, pasid := bd.map fun x => x.1, rootVa := (bd.map fun x => x.2.1).getD 0
                 root := (bd.map fun x => x.2.2).getD {}, sorterRead := y.sortva == 0, sorterOk := false, sorter := [] }
      let s := s.setCoal t { s.coal t with vec := y.msivec }
      .ok (if y.en then s.restQueue t else s.modFq t fun e => { e with st := .disabled, inError := false }) ()

/-- BIND, by the steps of R118. Step 1 of the packet: its PASID is reserved; step 3: the invalidation is in progress. The root's
values wait in the binding queue, which has no root of its own. -/
def State.bind (s : State) (e : Queue) (b : List Byte) : FeRes Unit :=
  let t := pktField b 8 4
  let pasid := pktField b 0x0C 4
  let va := pktField b 0x10 8
  if e.stepNo = 3 then
    if s.svc.invals.any fun v => v.itag == bindTag e.q then .hold s .bind
    else s.rebind e.q t (some (pasid, va, e.root))
  else
    let reserved : FeRes Unit :=
      if e.stepNo = 1 then .ok s ()
      else match s.bindTargetOk t with
        | .error s => .busy s
        | .ok (_, false) => .fail 14 0 0
        | .ok (s, true) =>
          if s.svc.bound.contains pasid then .ok (s.setStep e.q 1) ()
          else if 1024 ≤ s.svc.bound.length then .fail 10 0 0
          else .ok (({ s with svc := { s.svc with bound := s.svc.bound ++ [pasid] } }).setStep e.q 1) ()
    reserved.bind fun s _ => (s.pktLines e.q (.pasid pasid) va 2).bind fun s l =>
      let rcb := leNat l
      let v := rcbValues rcb {}
      if rcbReserved rcb then .fail 2 0 va
      else if rcbRange v then .fail 5 0 va
      else (s.modFq e.q fun y => { y with root := v }).startBind e.q t pasid

/-- A BIND that fails in steps 1 to 3 gives up the place it reserved. -/
def State.onBind (s : State) (q : Nat) : State :=
  match s.fq q with
  | none => s
  | some e => match e.cur with
    | none => s
    | some p =>
      let s' := s.onBody q 7 (.bindPacket q) fun e _ b => s.bind e b
      let failed : Bool := match s'.fq q with
        | some y => y.cur.isNone && y.head == e.head
        | none => false
      if failed ∧ e.st = .active ∧ e.stepNo = 1 then s'.releasePasid q (pktField p.body 0x0C 4) else s'

/-- R118, BIND_PACKET. -/
def execBindPacket (q : Nat) : State → Host.Outcome State Fault Refusal :=
  event fun s => s.onBind q

/-- UNBIND: steps 1, 4 and 5 for the target's old PASID. -/
def State.unbind (s : State) (e : Queue) (b : List Byte) : FeRes Unit :=
  let t := pktField b 8 4
  if e.stepNo = 3 then
    if s.svc.invals.any fun v => v.itag == bindTag e.q then .hold s .bind else s.rebind e.q t none
  else match s.bindTargetOk t with
    | .error s => .busy s
    | .ok (_, false) => .fail 14 0 0
    | .ok (s, true) => match s.bindingOf t with
      | none => .ok s ()
      | some y => s.startBind e.q t y.1

/-- R118, UNBIND_PACKET. -/
def execUnbindPacket (q : Nat) : State → Host.Outcome State Fault Refusal :=
  event fun s => s.onBody q 7 (.unbindPacket q) fun e _ b => s.unbind e b

/-! ## CUSTOM (R119) -/

/-- The sorter's packets take the place of the CUSTOM packet. -/
def State.onCustom (s : State) (q : Nat) : State :=
  match s.fq q with
  | none => s
  | some e => match e.cur with
    | none => s
    | some p =>
      if e.st ≠ .active ∨ p.sorted ∨ pktType p.bytes ≠ 8 then s
      else match pktCheck e.entry.priv p.bytes with
        | some st => s.failNow q st 0 0
        | none => match s.sortRun e p with
          | .ok s l =>
            let s := s.modFq q fun y => { y with cur := some { p with sorted := true, emitted := l } }
            s.goOn q
          | .park s => s.parkQueue q .page
          | .busy s => s.laterOnce (.customPacket q)
          | .hold s r => s.parkQueue q r
          | .fail st c a => s.failNow q st c a

/-- R119, CUSTOM_PACKET. -/
def execCustomPacket (q : Nat) : State → Host.Outcome State Fault Refusal := event fun s => s.onCustom q

/-! ## Packet processors (R110, R111) -/

def State.modProc (s : State) (pr : Nat) (f : Processor → Processor) : State :=
  { s with fe := { s.fe with procs := ((List.range s.fe.procs.length).zip s.fe.procs).map fun e => if e.1 = pr then f e.2 else e.2 } }

/-- A processor goes on with its queue: the packet in hand, or the next packet of the ring. -/
def State.serveQueue (s : State) (pr q : Nat) : State :=
  match s.fq q with
  | none => s.freeProc q
  | some e =>
    if e.st ≠ .active then s.freeProc q
    else if (s.stopped q ∨ e.inError) ∧ !e.inHand then s.releaseQueue q
    else match e.cur with
      | some p => s.startBody q e p
      | none => if e.head = e.tail then s.releaseQueue q else s.readPacket q pr e

/-- A queue is taken for a slice, less its overrun; one whose overrun exceeds a slice is passed over. -/
def State.takeQueue (s : State) (pr : Nat) (e : Queue) : State :=
  let n := e.entry.slice
  let s := { s with fe := { s.fe with rr := Tbl.put 0 s.fe.rr e.entry.prio e.q } }
  if n < e.deficit then s.modFq e.q fun y => { y with deficit := y.deficit - n }
  else
    let s := s.modFq e.q fun y => { y with st := .active, reason := .none, deficit := 0 }
    let mine := s.fe.queues.filter fun (y : Queue) => y.q == e.q
    let s := { s with fe := { s.fe with queues := (s.fe.queues.filter fun (y : Queue) => y.q != e.q) ++ mine } }
    (s.modProc pr fun _ => { queue := some e.q, left := n - e.deficit }).serveQueue pr e.q

/-- QUEUE_SELECT. -/
def State.onQueueSelect (s : State) (pr : Nat) : State :=
  match s.fe.procs[pr]? with
  | none => s
  | some p => match p.queue with
    | some q => s.serveQueue pr q
    | none => match s.pickQueue with
      | some e => s.takeQueue pr e
      | none => s

/-- R110, QUEUE_SELECT. -/
def execQueueSelect (pr : Nat) : State → Host.Outcome State Fault Refusal := event fun s => s.onQueueSelect pr

/-- QUEUE_SLICE_EXPIRY: a packet in processing runs to the end of its processing. -/
def State.onQueueSlice (s : State) (pr : Nat) : State :=
  match s.fe.procs[pr]? with
  | none => s
  | some p => match p.queue with
    | none => s
    | some q =>
      if p.left ≠ 0 then s
      else match s.fq q with
        | some e => if e.cur.isSome then s.modProc pr fun p => { p with expired := true } else s.releaseQueue q
        | none => s

/-- R111, QUEUE_SLICE_EXPIRY. -/
def execQueueSliceExpiry (pr : Nat) : State → Host.Outcome State Fault Refusal := event fun s => s.onQueueSlice pr

end Sys2Proof.Machine
end

