-- ==== Sys2Proof/Machine/Crypto.lean ====
section
/-!
DEFINITION. The cryptographic functions that the control tile's firmware names (R33, R34, R37, R38): SHA-512, HMAC-SHA-512 and
Ed25519 with its usual message encoding. The manual names them and their parameters are the published ones
(notes/assumptions/107.md).
-/

namespace Sys2Proof.Machine

/-! ## SHA-512 -/

/-- The largest r with r to the power n at most x, taking bits of r from bit `k - 1` down. -/
def rootFrom (n x : Nat) : Nat → Nat → Nat
  | 0, r => r
  | k + 1, r => rootFrom n x k (if (r + 2 ^ k) ^ n ≤ x then r + 2 ^ k else r)

/-- The first 64 bits after the binary point of the n-th root of p. -/
def rootBits (n p : Nat) : Word := word (rootFrom n (p * 2 ^ (64 * n)) 72 0)

/-- The primes below `n`. -/
def primesBelow (n : Nat) : List Nat :=
  (List.range n).filter fun p => decide (2 ≤ p) && (List.range 21).all fun d => decide (d < 2) || d == p || p % d != 0

/-- The constants of the rounds: from the cube roots of the first 80 primes. -/
def sha512K : List Word := (primesBelow 410).map (rootBits 3)

/-- A hash value as its two halves: words 0 to 3 and words 4 to 7. -/
abbrev ShaHalves := List Word × List Word

/-- The initial hash value: from the square roots of the first 8 primes. -/
def sha512Init : ShaHalves :=
  (((primesBelow 20).map (rootBits 2)).take 4, ((primesBelow 20).map (rootBits 2)).drop 4)

/-- The exclusive or of a word's rotations to the right. -/
def xorRots (rs : List Nat) (x : Word) : Word := rs.foldr (fun r acc => x.rotateRight r ^^^ acc) 0

/-- One round: each half moves down a word; the upper half's new word takes the whole sum, the lower half's joins the word that
leaves the upper half. `kw` is the round's constant plus its schedule word. -/
def sha512Round (kw : Word) (v : ShaHalves) : ShaHalves :=
  let hi (i : Nat) : Word := v.1.getD i 0
  let lo (i : Nat) : Word := v.2.getD i 0
  let chosen := lo 2 ^^^ (lo 0 &&& (lo 1 ^^^ lo 2))
  let majority := (hi 0 &&& hi 1) ||| (hi 2 &&& (hi 0 ||| hi 1))
  let sum := lo 3 + xorRots [14, 18, 41] (lo 0) + chosen + kw
  ((sum + xorRots [28, 34, 39] (hi 0) + majority) :: v.1.take 3, (hi 3 + sum) :: v.2.take 3)

/-- The next word of the message schedule from the last sixteen. -/
def sha512Next (w : List Word) : Word :=
  let small (i r1 r2 sh : Nat) : Word := xorRots [r1, r2] (w.getD i 0) ^^^ (w.getD i 0 >>> sh)
  w.getD 0 0 + small 1 1 8 7 + w.getD 9 0 + small 14 19 61 6

/-- The rounds, one for each constant, with the sliding window of the schedule. -/
def sha512Rounds (w : List Word) (v : ShaHalves) : ShaHalves :=
  (sha512K.foldl (fun (a : List Word × ShaHalves) k =>
    (a.1.drop 1 ++ [sha512Next a.1], sha512Round (k + a.1.getD 0 0) a.2)) (w, v)).2

/-- Bytes most significant first. -/
def beBytes (n x : Nat) : List Byte := (leBytes n x).reverse
def beNat (l : List Byte) : Nat := leNat l.reverse

/-- The message with its padding. -/
def sha512Pad (l : List Byte) : List Byte :=
  let n := l.length
  l ++ [0x80] ++ List.replicate ((239 - n % 128) % 128) 0 ++ beBytes 16 (8 * n)

/-- The hash value after one block more. -/
def sha512Block (h : ShaHalves) (blk : List Byte) : ShaHalves :=
  let v := sha512Rounds ((List.range 16).map fun i => word (beNat ((blk.drop (8 * i)).take 8))) h
  (List.zipWith (· + ·) h.1 v.1, List.zipWith (· + ·) h.2 v.2)

/-- SHA-512: the padded message's blocks in order. -/
def sha512 (l : List Byte) : List Byte :=
  let p := sha512Pad l
  let h := (List.range (p.length / 128)).foldl (fun h i => sha512Block h ((p.drop (128 * i)).take 128)) sha512Init
  (h.1 ++ h.2).flatMap fun x => beBytes 8 x.toNat

/-- HMAC-SHA-512 with a key of at most 128 bytes. -/
def hmacSha512 (key msg : List Byte) : List Byte :=
  let k := key ++ List.replicate (128 - key.length) 0
  sha512 ((k.map fun b => b ^^^ 0x5C) ++ sha512 ((k.map fun b => b ^^^ 0x36) ++ msg))

/-! ## Ed25519 -/

def edP : Nat := 2 ^ 255 - 19
/-- The order of the base point. -/
def edL : Nat := 2 ^ 252 + 27742317777372353535851937790883648493

/-- b to the power e, by squaring; `fuel` bounds the bits of e. -/
def powMod (m : Nat) : Nat → Nat → Nat → Nat
  | 0, _, _ => 1 % m
  | fuel + 1, b, e =>
    if e = 0 then 1 % m
    else
      let h := powMod m fuel (b * b % m) (e / 2)
      if e % 2 = 1 then b * h % m else h

def edInv (x : Nat) : Nat := powMod edP 255 x (edP - 2)
def edSub (a b : Nat) : Nat := (a + edP - b % edP) % edP
/-- d of the curve. -/
def edD : Nat := edSub 0 (121665 * edInv 121666 % edP)

/-- A point in extended coordinates. -/
structure EdPoint where
  x : Nat
  y : Nat
  z : Nat
  t : Nat
  deriving DecidableEq, Repr

def EdPoint.zero : EdPoint := ⟨0, 1, 1, 0⟩

def EdPoint.add (p q : EdPoint) : EdPoint :=
  let a := edSub p.y p.x * edSub q.y q.x % edP
  let b := (p.y + p.x) * (q.y + q.x) % edP
  let c := 2 * p.t * q.t % edP * edD % edP
  let d := 2 * p.z * q.z % edP
  let e := edSub b a
  let f := edSub d c
  let g := (d + c) % edP
  let h := (b + a) % edP
  ⟨e * f % edP, g * h % edP, f * g % edP, e * h % edP⟩

/-- k times a point; `fuel` bounds the bits of k. -/
def EdPoint.mul : Nat → Nat → EdPoint → EdPoint
  | 0, _, _ => .zero
  | fuel + 1, k, p =>
    if k = 0 then .zero
    else
      let h := EdPoint.mul fuel (k / 2) (p.add p)
      if k % 2 = 1 then h.add p else h

def EdPoint.same (p q : EdPoint) : Bool := (p.x * q.z) % edP == (q.x * p.z) % edP && (p.y * q.z) % edP == (q.y * p.z) % edP

/-- x from y and its sign; `none` where no point has them. -/
def edX (y : Nat) (sign : Bool) : Option Nat :=
  if edP ≤ y then none
  else
    let x2 := edSub (y * y % edP) 1 * edInv ((edD * (y * y % edP) + 1) % edP) % edP
    if x2 = 0 then (if sign then none else some 0)
    else
      let r := powMod edP 255 x2 ((edP + 3) / 8)
      let r := if r * r % edP = x2 then r else r * powMod edP 255 2 ((edP - 1) / 4) % edP
      if r * r % edP ≠ x2 then none
      else some (if (r % 2 == 1) == sign then r else edP - r)

/-- The base point. -/
def edBase : EdPoint :=
  let y := 4 * edInv 5 % edP
  let x := (edX y false).getD 0
  ⟨x, y, 1, x * y % edP⟩

def EdPoint.bytes (p : EdPoint) : List Byte :=
  let zi := edInv p.z
  leBytes 32 (p.y * zi % edP + 2 ^ 255 * (p.x * zi % edP % 2))

def edPoint (l : List Byte) : Option EdPoint :=
  let n := leNat l
  let y := n % 2 ^ 255
  (edX y (decide (2 ^ 255 ≤ n))).map fun x => ⟨x, y, 1, x * y % edP⟩

/-- The secret scalar of a seed, and the prefix of its nonces. -/
def edSecret (seed : List Byte) : Nat × List Byte :=
  let h := sha512 seed
  (leNat (h.take 32) % 2 ^ 254 / 8 * 8 + 2 ^ 254, h.drop 32)

/-- The public key of a private seed. -/
def edPublic (seed : List Byte) : List Byte := (EdPoint.mul 256 (edSecret seed).1 edBase).bytes

def edSign (seed msg : List Byte) : List Byte :=
  let a := edSecret seed
  let r := leNat (sha512 (a.2 ++ msg)) % edL
  let rb := (EdPoint.mul 256 r edBase).bytes
  let k := leNat (sha512 (rb ++ edPublic seed ++ msg)) % edL
  rb ++ leBytes 32 ((r + k * a.1) % edL)

def edVerify (pub msg sig : List Byte) : Bool :=
  match edPoint pub, edPoint (sig.take 32) with
  | some a, some r =>
    let s := leNat (sig.drop 32)
    let k := leNat (sha512 (sig.take 32 ++ pub ++ msg)) % edL
    sig.length == 64 && decide (s < edL) && (EdPoint.mul 256 s edBase).same (r.add (EdPoint.mul 256 k a))
  | _, _ => false

end Sys2Proof.Machine
end

