-- ==== Sys2Proof/Machine/Firmware.lean ====
section
/-!
DEFINITION. The control tile (spec/02): retention sleep (R32), layered boot (R33 to R36), the measurement log and the report (R37,
R38), and the mailbox commands (R39).
-/

namespace Sys2Proof.Machine

/-! ## Retention sleep (R32) -/

def setAt {α : Type} (l : List α) (k : Nat) (x : α) : List α := l.set k x

/-- A control core has work. -/
def State.controlBusy (s : State) : Bool :=
  s.ctl.mbox.busy || s.fe.qctlBusy.isSome || (!s.ctl.ready && !s.ctl.fail) || !s.fe.pending.isEmpty

/-- RETENTION_SLEEP: a control core with no pending work sleeps; an event that has arrived cancels the entry. -/
def State.onRetention (s : State) (k : Nat) : State :=
  if s.ctl.wake.getD k false then { s with ctl := { s.ctl with wake := setAt s.ctl.wake k false } }
  else if s.controlBusy then s
  else { s with ctl := { s.ctl with sleep := setAt s.ctl.sleep k true } }

/-- R32, RETENTION_SLEEP. -/
def execRetentionSleep (k : Nat) : State → Host.Outcome State Fault Refusal := event fun s => s.onRetention k

/-- R32, CONTROL_CORE_WAKE. -/
def execControlCoreWake (k : Nat) : State → Host.Outcome State Fault Refusal :=
  event fun s => { s with ctl := { s.ctl with sleep := setAt s.ctl.sleep k false, wake := setAt s.ctl.wake k false } }

/-! ## Images (R34, R35) -/

def imgField (b : List Byte) (off n : Nat) : Nat := leNat ((b.drop off).take n)

/-- "LT880FW" and a zero byte. -/
def imgMagic : List Byte := [0x4C, 0x54, 0x38, 0x38, 0x30, 0x46, 0x57, 0x00]
/-- "LT880-LAYER" and "LT880-KEY". -/
def layerText : List Byte := [0x4C, 0x54, 0x38, 0x38, 0x30, 0x2D, 0x4C, 0x41, 0x59, 0x45, 0x52]
def keyText : List Byte := [0x4C, 0x54, 0x38, 0x38, 0x30, 0x2D, 0x4B, 0x45, 0x59]

def imgSvn (b : List Byte) : Nat := imgField b 0x0A 2
/-- Bytes of the whole image, header included. -/
def imgSize (b : List Byte) : Nat := 256 + imgField b 0x10 4

/-- The fused minimum SVN of a layer. -/
def Control.minOf (c : Control) (layer : Nat) : Nat := if layer = 1 then c.minSvn.toNat else c.minSvn2.toNat

/-- R35: the image is acceptable as that layer. -/
def Control.accepts (c : Control) (layer : Nat) (b : List Byte) : Bool :=
  let n := imgField b 0x10 4
  let key := imgField b 0x09 1
  decide (256 ≤ b.length) && b.take 8 == imgMagic && imgField b 8 1 == layer && ((b.drop 0x18).take 168).all (· == 0) && n % 64 == 0 &&
    decide (n ≤ 448 * 1024) && decide (imgSize b ≤ b.length) && decide (key < 4) && !(c.revoked.getD key true) &&
    decide (c.minOf layer ≤ imgSvn b) &&
    edVerify (Config.hazonKey key) (sha512 (b.take 0xC0 ++ (b.drop 256).take n)) ((b.drop 0xC0).take 64)

/-! ## Boot (R33 to R37) -/

/-- The private seed of a layer's key pair. -/
def layerSeed (secret : List Byte) : List Byte := (sha512 (secret ++ keyText)).take 32

/-- S(n + 1) from S(n) and the measurement. -/
def nextSecret (secret m : List Byte) : List Byte := hmacSha512 secret (m ++ layerText)

/-- The number of a layer's slot A; slot B follows it. -/
def slotA (layer : Nat) : Nat := 2 * (layer - 1)

/-- The slot from which a layer boots: the one staged last (R36, notes/assumptions/137.md), then A, then B. -/
def Control.bootSlot (c : Control) (layer : Nat) : Option Nat :=
  let first := match c.staged.getD (layer - 1) none with
    | some k => [k]
    | none => []
  (first ++ [slotA layer, slotA layer + 1]).find? fun k => c.accepts layer (c.images.getD k [])

/-- The measurement log's entry. -/
def logEntry (layer slot : Nat) (img m pub seed : List Byte) : List Byte :=
  let h := leBytes 1 layer ++ leBytes 1 slot ++ leBytes 2 (imgSvn img) ++ leBytes 4 (imgField img 0x0C 4) ++ m ++ pub
  h ++ edSign seed (sha512 h) ++ leBytes 24 0

/-- A minimum that the host has asked to raise is raised, once the image has booted (R36). -/
def Control.raiseMin (c : Control) : Control :=
  (List.range 4).foldl (fun (c : Control) k =>
    let n := BitVec.ofNat 16 (imgSvn (c.images.getD k []))
    if c.raise.getD k false ∧ c.booted.getD k false then
      let c := { c with raise := setAt c.raise k false }
      if k < 2 then { c with minSvn := if c.minSvn < n then n else c.minSvn }
      else { c with minSvn2 := if c.minSvn2 < n then n else c.minSvn2 }
    else c) c

/-- BOOT_LAYER: the running layer checks, measures and starts the next. The record of a boot that stops names control core 0 and address 0
(notes/assumptions/138.md). -/
def State.onBoot (s : State) (layer : Nat) : State :=
  let c := s.ctl
  if layer = 0 ∨ 2 < layer ∨ c.layer + 1 ≠ layer ∨ c.fail then s
  else match c.bootSlot layer with
    | none => ({ s with ctl := { c with fail := true } }).deviceFatal (.controlCore 0) 0
    | some k =>
      let img := c.images.getD k []
      let m := sha512 (img.take (imgSize img))
      let s0 := if layer = 1 then leBytes 32 Config.deviceSecret.toNat else c.secret
      let s1 := nextSecret s0 m
      let pub := edPublic (layerSeed s1)
      let keys := if layer = 1 then [edPublic (layerSeed s0), pub] else c.pubKeys ++ [pub]
      let c := { c with
        layer := layer, secret := s1, seed := layerSeed s1, pubKeys := keys
        log := c.log ++ [logEntry layer (k % 2) img m pub (layerSeed s0)]
        slots := if k % 2 = 1 then c.slots ||| BitVec.ofNat 2 layer else c.slots
        booted := setAt c.booted k true }
      let c := if layer = 2 then ({ c with ready := true, svn := BitVec.ofNat 16 (imgSvn img) }).raiseMin else c
      { s with ctl := c }

/-- R35, BOOT_LAYER. -/
def execBootLayer (layer : Nat) : State → Host.Outcome State Fault Refusal := event fun s => s.onBoot layer

/-! ## The mailbox (R39) -/

/-- The command ends with a status and a length; BUSY clears at MAILBOX_COMPLETION. -/
def State.mboxEnd (s : State) (status len : Nat) : State :=
  ({ s with ctl := { s.ctl with mbox := { s.ctl.mbox with status := BitVec.ofNat 8 status, length := BitVec.ofNat 32 len } } }).laterOnce
    .mailboxCompletion

/-- A command in progress of this code. -/
def State.mboxDoes (s : State) (op : Nat) : Bool := s.ctl.mbox.busy && s.ctl.mbox.op == BitVec.ofNat 8 op

/-- MBADDR as it stood when the command was written (R39). -/
def State.mboxBase (s : State) : Nat := s.ctl.mbox.base.toNat * 4096

/-- Writes a command's output; a bus address that is not memory gives DMAERR. -/
def State.mboxWrite (s : State) (e : Ev) (l : List Byte) : State :=
  let pa := s.mboxBase
  if s.memTop < pa + l.length then s.mboxEnd 3 0
  else match s.cohPut controlId pa l false with
    | .ok s => s.mboxEnd 0 l.length
    | .error s => s.laterOnce e

/-- R37, READLOG. -/
def execReadlog : State → Host.Outcome State Fault Refusal :=
  event fun s => if s.mboxDoes 1 then s.mboxWrite .readlog s.ctl.log.flatten else s

/-- The report on a nonce (R38). -/
def Control.report (c : Control) (nonce : List Byte) : List Byte :=
  let h := leBytes 4 1 ++ leBytes 4 c.log.length ++ nonce ++ sha512 c.log.flatten ++ c.pubKeys.getD 0 [] ++ c.pubKeys.getD 2 [] ++
    leBytes 2 c.minSvn.toNat ++ leBytes 2 c.minSvn2.toNat ++ leBytes 4 c.resets.toNat ++ leBytes 16 0
  h ++ edSign c.seed (sha512 h)

/-- REPORT. -/
def State.onReport (s : State) : State :=
  if !s.mboxDoes 2 then s
  else if s.memTop < s.mboxBase + 256 then s.mboxEnd 3 0
  else match s.cohBytes controlId s.mboxBase 32 with
    | .error s => s.laterOnce .report
    | .ok (s, l, bad) => if bad.isSome then s.mboxEnd 3 0 else s.mboxWrite .report (s.ctl.report l)

/-- R38, REPORT. -/
def execReport : State → Host.Outcome State Fault Refusal := event fun s => s.onReport

/-- The 32 bytes of an error record. -/
def State.errBytes (s : State) (r : ErrRec) : List Byte :=
  (List.range 32).map fun i => Config.errorByte r.cls r.unit (s.physicalUnit r.unit) r.addr r.seq i

/-- R39, READERR. -/
def execReaderr : State → Host.Outcome State Fault Refusal :=
  event fun s => if s.mboxDoes 3 then s.mboxWrite .readerr (s.ctl.errors.flatMap s.errBytes) else s

/-- STAGE: an image that passes goes to the slot of its layer that did not boot. -/
def State.onStage (s : State) : State :=
  let pa := s.mboxBase
  if !s.mboxDoes 4 then s
  else if s.memTop < pa + 256 then s.mboxEnd 3 0
  else match s.cohBytes controlId pa 256 with
    | .error s => s.laterOnce .stage
    | .ok (s, h, bad) =>
      if bad.isSome then s.mboxEnd 3 0
      else if 256 + 448 * 1024 < imgSize h then s.mboxEnd 2 0
      else if s.memTop < pa + imgSize h then s.mboxEnd 3 0
      else match s.cohBytes controlId pa (imgSize h) with
        | .error s => s.laterOnce .stage
        | .ok (s, img, bad) =>
          let layer := imgField img 8 1
          if bad.isSome then s.mboxEnd 3 0
          else if !(layer == 1 || layer == 2) ∨ !s.ctl.accepts layer img then s.mboxEnd 2 0
          else
            let k := slotA layer + (if s.ctl.slots.getLsbD (layer - 1) then 0 else 1)
            ({ s with ctl := { s.ctl with
                images := setAt s.ctl.images k img
                staged := setAt s.ctl.staged (layer - 1) (some k)
                booted := setAt s.ctl.booted k false
                raise := setAt s.ctl.raise k (s.ctl.mbox.arg.getLsbD 0) } }).mboxEnd 0 0

/-- R36, STAGE. -/
def execStage : State → Host.Outcome State Fault Refusal := event fun s => s.onStage

/-- R39, BADOP. -/
def execBadop : State → Host.Outcome State Fault Refusal :=
  event fun s => if s.ctl.mbox.busy ∧ !(s.mboxDoes 1 || s.mboxDoes 2 || s.mboxDoes 3 || s.mboxDoes 4) then s.mboxEnd 1 0 else s

/-- R39, MAILBOX_COMPLETION: BUSY clears and vector 1 fires. -/
def execMailboxCompletion : State → Host.Outcome State Fault Refusal :=
  event fun s => if s.ctl.mbox.busy then
      ({ s with ctl := { s.ctl with mbox := { s.ctl.mbox with busy := false } } }).sendMsix 1
    else s

end Sys2Proof.Machine
end

