-- ==== Sys2Proof/Machine/Power.lean ====
section
/-!
DEFINITION. Spares, the host port, memory channels, clocks, operating points, power states, resets and errors (spec/01).
-/

namespace Sys2Proof.Machine

/-! ## The maps at a reset (R9, R10, R19) -/

/-- A group of four channels leaves service, and the top of memory moves down. -/
def State.dropChannels (s : State) (ch : Nat) : State :=
  let g := ch / 4
  if s.pow.groupsOut.contains g then s
  else if s.pow.channels ≤ 4 then s.deviceFatal (.channel ch) 0
  else
    { s with pow := { s.pow with
        groupsOut := s.pow.groupsOut ++ [g], channels := s.pow.channels - 4
        top := s.pow.top / (s.pow.channels / 4) * (s.pow.channels / 4 - 1) } }

/-- The logical cluster, and the logical slice, that a physical one serves. -/
def State.logicalCluster (s : State) (p : Nat) : Option Nat := (List.range 16).find? fun c => s.physCluster c == p
def State.logicalSlice (s : State) (p : Nat) : Option Nat := (List.range 64).find? fun n => s.physSlice n == p

/-- Cores of a physical cluster are mapped out: the spare cluster replaces it whole, else the partition is degraded. -/
def State.replaceCluster (s : State) (p : Nat) (cores : List Nat) : State :=
  match s.logicalCluster p with
  | none => s
  | some c => match s.spareCluster with
    | some q => { s with pow := { s.pow with clusterMap := Tbl.put c s.pow.clusterMap c q } }
    | none => foldS (fun j (s : State) => s.modCore (4 * c + j) fun y => { y with out := true }) cores s

/-- What a physical unit of the failure record has mapped out at a reset. -/
def State.applyFailure (s : State) (u : HwUnit) : State :=
  match u with
  | .core p => s.replaceCluster (p / 4) [p % 4]
  | .cluster p => s.replaceCluster p [0, 1, 2, 3]
  | .slice p => match s.logicalSlice p, s.spareSlice with
    | some n, some q => { s with pow := { s.pow with sliceMap := Tbl.put n s.pow.sliceMap n q } }
    | _, _ => s
  | .way p w => match s.logicalSlice p with
    | some n => s.modSl n fun x => x.outWay w
    | none => s
  | .channel ch => s.dropChannels ch
  | _ => s

/-- Firmware loads both maps from the fuses, amends them from the failure record and loads the port maps (R9, R147). A fuse map that
cannot be read is device-fatal (R29); its record names control core 0 and address 0 (notes/assumptions/138.md). -/
def State.loadMaps (s : State) : State :=
  if s.ctl.fuseBad then s.deviceFatal (.controlCore 0) 0
  else
    let s := { s with pow := { s.pow with clusterMap := s.ctl.fuseClusters, sliceMap := s.ctl.fuseSlices } }
    let s := foldS (fun (e : Nat × Nat) (s : State) => s.applyFailure (.way e.1 e.2)) s.ctl.fuseWays s
    (foldS (fun u (s : State) => s.applyFailure u) s.ctl.failures s).loadPorts

/-! ## Errors (R29, R31) -/

/-- R31, CORRECTED_ERROR. -/
def execCorrectedError (u : HwUnit) (addr : Word) : State → Host.Outcome State Fault Refusal := event fun s => s.corrected u addr

/-- R29, UNRECOVERABLE_FAILURE. -/
def execUnrecoverableFailure (u : HwUnit) : State → Host.Outcome State Fault Refusal := event fun s => s.unitFatal u 0

/-! ## The host port (R14 to R16) -/

/-- R16, ADAPTER_RETRY: flits are replayed and nothing is lost; a corrected error of the port. -/
def execAdapterRetry (_module : Nat) : State → Host.Outcome State Fault Refusal := event fun s => s.corrected .hostPort 0

/-- A module changes its width, a corrected link error; with no module left the link is down. -/
def State.setWidth (s : State) (m w : Nat) : State :=
  let l := s.port.width.set m w
  ({ s with port := { s.port with width := l, up := s.port.up && l.any fun x => x != 0 } }).corrected .hostPort 0

/-- LANE_FAULT: a module falls back to x32, or out of service if it cannot train at all; whether an x64 module can is open (notes/assumptions/118.md). -/
def State.onLaneFault (s : State) (m : Nat) (covered : Bool) : State :=
  if covered then s
  else match s.port.width[m]? with
    | none => s
    | some w =>
      if w = 0 then s
      else ({ s with free := s.free + 1 }).setWidth m (if w = 64 ∧ Config.freeNat s.free % 2 = 0 then 32 else 0)

/-- R16, LANE_FAULT. -/
def execLaneFault (m : Nat) (covered : Bool) : State → Host.Outcome State Fault Refusal := event fun s => s.onLaneFault m covered

/-- LINK_RESET: a module that can train comes up again, and the flits in flight are replayed; one that cannot, while the other can, is
taken out of service. Whether a module in service trains is open (notes/assumptions/118.md). -/
def State.onLinkReset (s : State) : State :=
  let trains (m : Nat) : Bool := s.port.width.getD m 0 != 0 && Config.freeNat (s.free + m) % 2 == 0
  let s' := { s with free := s.free + 2 }
  if trains 0 || trains 1 then
    let s' := { s' with port := { s.port with up := true, training := false } }
    foldS (fun m (s' : State) => if trains m ∨ s'.port.width.getD m 0 = 0 then s' else s'.setWidth m 0) [0, 1] s'
  else { s' with port := { s.port with up := false, training := true } }

/-- R16, R27, LINK_RESET. -/
def execLinkReset : State → Host.Outcome State Fault Refusal := event fun s => s.onLinkReset

/-- R16, LINK_TRAIN_TIMEOUT: neither module has trained since the link's reset. -/
def execLinkTrainTimeout : State → Host.Outcome State Fault Refusal :=
  event fun s => if s.port.training then s.deviceFatal .hostPort 0 else s

/-! ## Channels (R19) -/

/-- CHANNEL_FAILURE: at boot its group leaves service; in service its data is poisoned from then on. -/
def State.onChannelFailure (s : State) (ch : Nat) (atBoot : Bool) : State :=
  if 16 ≤ ch then s
  else if atBoot then (if s.ctl.ready then s else s.dropChannels ch)
  else s.unitFatal (.channel ch) 0

/-- R19, CHANNEL_FAILURE. -/
def execChannelFailure (ch : Nat) (atBoot : Bool) : State → Host.Outcome State Fault Refusal := event fun s => s.onChannelFailure ch atBoot

/-! ## Clocks and droop (R20, R21) -/

/-- R21, DROOP_TRIP: A-cycles last twice as long, and the count of stretched cycles stops at zero. -/
def execDroopTrip (c : Nat) : State → Host.Outcome State Fault Refusal :=
  event fun s => s.modClu c fun x => { x with low := true, stretch := some 0 }

/-- R21, SUPPLY_RECOVERY: the count of stretched cycles starts. -/
def execSupplyRecovery (c : Nat) : State → Host.Outcome State Fault Refusal :=
  event fun s => s.modClu c fun x => if x.low then { x with low := false, stretch := some 0 } else x

/-- R21, DROOP_STRETCH_END. -/
def execDroopStretchEnd (c : Nat) : State → Host.Outcome State Fault Refusal :=
  event fun s => s.modClu c fun x => match x.stretch with
    | some n => if 64 ≤ n ∧ !x.low then { x with stretch := none } else x
    | none => x

/-- R20, CLOCK_FREQUENCY_SWITCH: the locked frequency takes over at one edge. -/
def execClockFrequencySwitch (c : Nat) : State → Host.Outcome State Fault Refusal :=
  event fun s => s.modClu c fun x => match x.newFreq with
    | some f => { x with freq := f, newFreq := none }
    | none => x

/-! ## Operating points (R22, R23) -/

/-- An operating point: clusters, A-clock in units of 100 MHz, LPDDR6 rate in Mb/s. -/
abbrev OpPoint := Nat × Nat × Nat

/-- The rows of R22, by package power. -/
def opRows : List (Nat × OpPoint) :=
  [(15, 4, 14, 8533), (28, 8, 18, 12800), (45, 16, 16, 14400), (75, 16, 23, 14400), (90, 16, 23, 14400)]

/-- Lowers the A-clock to 1.0 GHz at the least while the estimate exceeds the limit. -/
def lowerClock (w : Nat) (n r : Nat) : Nat → Nat → Nat
  | 0, f => f
  | fuel + 1, f => if w < Config.powerEstimate n f r ∧ 10 < f then lowerClock w n r fuel (f - 1) else f

/-- Raises the A-clock to 2.3 GHz at most while the estimate stays within the limit. -/
def raiseClock (w : Nat) (n r : Nat) : Nat → Nat → Nat
  | 0, f => f
  | fuel + 1, f => if f < 23 ∧ Config.powerEstimate n (f + 1) r ≤ w then raiseClock w n r fuel (f + 1) else f

/-- The configuration for a package power limit (R22). -/
def opPoint (w : Nat) : OpPoint :=
  match opRows.find? fun r => r.1 == w with
  | some r => r.2
  | none =>
    match (opRows.filter fun r => decide (r.1 < w)).getLast?, opRows.find? fun r => decide (w < r.1) with
    | some lo, some hi =>
      let f := lowerClock w hi.2.1 hi.2.2.2 13 hi.2.2.1
      if w < Config.powerEstimate hi.2.1 f hi.2.2.2 then (lo.2.1, raiseClock w lo.2.1 lo.2.2.2 13 lo.2.2.1, lo.2.2.2)
      else (hi.2.1, f, hi.2.2.2)
    | _, _ => (4, 14, 8533)

/-- No bank-compute job is running. -/
def State.jobsIdle (s : State) : Bool := s.bmv.jobs.all fun (j : BmvJob) => j.phase == .done

/-- A new LPDDR6 rate is taken once no job is running (R100). -/
def State.takeRate (s : State) : State :=
  match s.pow.newRate with
  | some r => if s.jobsIdle then { s with pow := { s.pow with rate := r, newRate := none } } else s
  | none => s

/-- The clusters take the operating point: the highest-numbered ones leave service at their next swap. -/
def State.setPoint (s : State) (w : Nat) : State :=
  let p := opPoint w
  let s := { s with pow := { s.pow with watts := BitVec.ofNat 8 w, clusters := p.1, newRate := if s.pow.rate = p.2.2 then none else some p.2.2 } }
  let one (c : Nat) (x : Cluster) : Cluster :=
    let x := { x with newFreq := if x.freq = p.2.1 then none else some p.2.1 }
    if c < p.1 then { x with inService := true, leaving := false }
    else if x.resident.isSome ∨ x.incoming.isSome then { x with leaving := x.inService }
    else { x with inService := false, leaving := false }
  (foldS (fun c (s : State) => s.modClu c (one c)) (List.range 16) s.takeRate).schedPoint

/-- A write of PWRLIMIT: limits below 15 W are taken as 15, above 90 W as 90 (R26). -/
def State.onPwrlimit (s : State) (v : Word) : State :=
  let w := field v 0 8
  ({ s with pow := { s.pow with limit := BitVec.ofNat 8 w } }).setPoint (max 15 (min 90 w))

/-- R22, PWRLIMIT_WRITE. -/
def execPwrlimitWrite (v : Word) : State → Host.Outcome State Fault Refusal := event fun s => s.onPwrlimit v

/-! ## Power states (R24, R25) -/

/-- No thread in a slot of the cluster is READY. -/
def State.noReady (s : State) (c : Nat) : Bool :=
  (List.range 4).all fun j => (s.rosterOf (4 * c + j)).all fun e => match e.2.place with
    | .inSlot _ => e.2.st != .ready
    | _ => true

/-- The notice queues of the cluster's tiles are empty and none of its cores is in spill mode (R132). -/
def State.tilesQuiet (s : State) (c : Nat) : Bool :=
  (List.range 4).all fun j => (s.core (4 * c + j)).notices.isEmpty && !(s.core (4 * c + j)).spill

/-- No partition is assigned to the cluster. -/
def State.unassigned (s : State) (c : Nat) : Bool := (s.clu c).resident.isNone && (s.clu c).incoming.isNone

/-- R24, LS1_ENTRY. -/
def execLs1Entry (c : Nat) : State → Host.Outcome State Fault Refusal :=
  event fun s => if s.pow.tol ≠ 0 ∧ (s.clu c).power = .ls0 ∧ s.noReady c then s.modClu c fun x => { x with power := .ls1 } else s

/-- LS2_ENTRY, one step: the homes take the lines of its L1s and drop its cores, and once no core may be probed the cluster is gated. A
request that came since the entry began aborts it (R25). -/
def State.onLs2 (s : State) (c : Nat) : State :=
  if (s.clu c).entry = .aborted ∨
      !(decide (20 ≤ s.pow.tol.toNat) && s.unassigned c && s.tilesQuiet c && s.standbyQuiet c && (s.clu c).power != .ls2) then
    s.modClu c fun x => { x with entry := .none }
  else
    let cores := (List.range 4).map (4 * c + ·)
    let s := foldS (fun n (s : State) => s.extractCore n false) cores s
    if cores.any s.holdsLines then (s.modClu c fun x => { x with entry := .begun }).later (.ls2Entry c)
    else (s.standDown c).modClu c fun x => { x with power := .ls2, entry := .none }

/-- R25, LS2_ENTRY. -/
def execLs2Entry (c : Nat) : State → Host.Outcome State Fault Refusal := event fun s => s.onLs2 c

/-- Every queue is idle. A DISABLED queue counts as idle, and one in ERROR does not (notes/assumptions/139.md). -/
def State.queuesIdle (s : State) : Bool :=
  s.fe.pending.isEmpty && s.fe.copies.isEmpty && s.fe.writes.isEmpty &&
    s.fe.queues.all fun (e : Queue) => (e.st == .idle || e.st == .disabled) && e.started.isEmpty

/-- The conditions of LS3 (R24, R100, R121). -/
def State.ls3Ready (s : State) : Bool :=
  ((List.range 16).all fun c => (s.clu c).power == .ls2) && s.queuesIdle && (s.fe.coal.all fun e => e.2.pend == 0) &&
    decide (2 ^ 14 ≤ s.pow.eciIdle) && s.jobsIdle

/-- The further conditions of LS4: the host link is idle, and both control cores are in retention sleep with nothing to wake them (R24,
R32) (notes/assumptions/155.md). -/
def State.ls4Ready (s : State) : Bool :=
  s.ls3Ready && s.port.held.isEmpty && s.port.hostHeld.isEmpty && s.ctl.sleep.all id && !(s.ctl.wake.any id)

/-- The deepest state of the device that the tolerance admits and whose conditions hold (R24). -/
def State.deepest (s : State) : DevPower :=
  let tol := s.pow.tol.toNat
  if 1500 ≤ tol ∧ s.ls4Ready then .ls4 else if 150 ≤ tol ∧ s.ls3Ready then .ls3 else .ls0

/-- The order of the device's power states. -/
def DevPower.depth : DevPower → Nat
  | .ls0 => 0 | .ls3 => 3 | .ls4 => 4

/-- R24, LS3_ENTRY. -/
def execLs3Entry : State → Host.Outcome State Fault Refusal :=
  event fun s => if s.pow.dev = .ls0 ∧ s.deepest = .ls3 then { s with pow := { s.pow with dev := .ls3 } } else s

/-- R24, LS4_ENTRY. -/
def execLs4Entry : State → Host.Outcome State Fault Refusal :=
  event fun s => if s.deepest = .ls4 then { s with pow := { s.pow with dev := .ls4 } } else s

/-- The tolerance admits a cluster's state (R24). -/
def State.admitted (s : State) (p : ClusterPower) : Bool :=
  match p with
  | .ls0 => true
  | .ls1 => decide (1 ≤ s.pow.tol.toNat)
  | .ls2 => decide (20 ≤ s.pow.tol.toNat)

/-- POWER_STATE_EXIT: the device leaves LS3 or LS4 for the deepest state that it may be in, or a cluster leaves LS1 or LS2 with its
standby contexts running again. -/
def State.onPowerExit (s : State) (c : Nat) : State :=
  if s.deepest.depth < s.pow.dev.depth then { s with pow := { s.pow with dev := s.deepest } }
  else match (s.clu c).power with
    | .ls0 => s
    | .ls1 => s.modClu c fun x => { x with power := .ls0 }
    | .ls2 =>
      let s := s.modClu c fun x => { x with power := .ls0 }
      if s.unassigned c then s.standIn c else s

/-- R25, POWER_STATE_EXIT. -/
def execPowerStateExit (c : Nat) : State → Host.Outcome State Fault Refusal := event fun s => s.onPowerExit c

/-- A write of LATTOL: states whose exit latency exceeds the new tolerance are left (R25). -/
def State.onLattol (s : State) (v : Word) : State :=
  let s := { s with pow := { s.pow with tol := BitVec.ofNat 32 (field v 0 32) } }
  let s := if s.deepest.depth < s.pow.dev.depth then s.laterOnce (.powerStateExit 0) else s
  foldS (fun c (s : State) => if s.admitted (s.clu c).power then s else s.laterOnce (.powerStateExit c)) (List.range 16) s

/-- R25, LATTOL_WRITE. -/
def execLattolWrite (v : Word) : State → Host.Outcome State Fault Refusal := event fun s => s.onLattol v

/-! ## Resets (R27, R28) -/

/-- What fuses and the non-volatile store keep. -/
def Control.kept (c : Control) : Control :=
  { images := c.images, booted := c.booted, revoked := c.revoked, raise := c.raise, minSvn := c.minSvn, minSvn2 := c.minSvn2
    resets := c.resets, failures := c.failures, staged := c.staged, fuseClusters := c.fuseClusters, fuseSlices := c.fuseSlices
    fuseWays := c.fuseWays, fuseBad := c.fuseBad }

/-- R27, POWER_ON_RESET: everything but the fuses and the non-volatile store; the maps are loaded anew. -/
def State.onPowerOn (s : State) : State :=
  State.loadMaps
    { State.reset with ctl := s.ctl.kept, choices := s.choices, turn := s.turn, flip := s.flip, clock := s.clock, free := s.free }

/-- R27, POWER_ON_RESET. -/
def execPowerOnReset : State → Host.Outcome State Fault Refusal := event fun s => s.onPowerOn

/-- A step of the coherence protocol that the sweep waits for. A request that is still on its way has begun nothing: it is answered RTY. -/
def sweepWaits : Ev → Bool
  | .sinv _ | .sshr _ | .sbinv _ | .ds _ | .de _ | .dm _ | .gm _ | .pack _ | .pdat _ | .wbd _ | .evc _ | .wba _ | .wbx _ | .dramFill _ _ |
    .replayRetry _ | .repl _ | .rrec _ | .mcd _ => true
  | _ => false

/-- No coherence transaction is in progress. -/
def State.sweepQuiet (s : State) : Bool :=
  !s.agenda.any sweepWaits && s.slices.all fun e => e.2.txns.isEmpty && e.2.filling.isEmpty && e.2.replay.isEmpty

/-- The sweep's end (R28): dirty lines of slices, cores and host agents are in DRAM, and no agent holds a line. -/
def State.sweepAll (s : State) : State :=
  let s := foldS (fun (e : Nat × Slice) (s : State) =>
    foldS (fun (l : Nat × SLine) (s : State) => if l.2.dirty then s.dramPutLine l.1 l.2.data l.2.poison else s) e.2.lines s) s.slices s
  let s := foldS (fun (e : Nat × ALine) (s : State) => match e.2.st with
    | .m | .o => s.dramPutLine (e.1 % 2 ^ 42) e.2.data e.2.poison
    | _ => s) s.agents s
  { s with agents := [], slices := [] }

/-- The window that a reset applies: the old and the new range are cleared when it changes (R83). -/
def State.applyWindow (s : State) : State :=
  let b := s.bmv
  let new : Bmv := { present := b.present, winEn := b.winEn, winBase := b.winBase, winSize := b.winSize
                     curEn := b.winEn, curBase := b.winBase, curSize := b.winSize }
  if b.winEn = b.curEn ∧ b.winBase = b.curBase ∧ b.winSize = b.curSize then { s with bmv := new }
  else
    let hit (on : Bool) (base : BitVec 18) (size : BitVec 8) (a : Nat) : Bool :=
      on && decide (base.toNat * 2 ^ 30 ≤ a) && decide (a < (base.toNat + size.toNat) * 2 ^ 30)
    let out (a : Nat) : Bool := !(hit b.curEn b.curBase b.curSize a || hit b.winEn b.winBase b.winSize a)
    { s with bmv := new, dram := s.dram.filter (fun e => out e.1), dramPoison := s.dramPoison.filter (fun e => out (64 * e.1)) }

/-- DEVICE_RESET: the sweep first; then everything but DRAM, fuses, the non-volatile store, the link, the error ring and BMVWIN. -/
def State.onDeviceReset (s : State) : State :=
  if !s.pow.sweeping then ({ s with pow := { s.pow with sweeping := true } }).later .deviceReset
  else if !s.sweepQuiet then s.later .deviceReset
  else
    let d := s.sweepAll.applyWindow
    let r : State := State.reset
    let c := s.ctl.kept
    State.loadMaps
      { r with
        dram := d.dram, dramPoison := d.dramPoison, bmv := d.bmv
        ctl := { c with resets := c.resets + 1, errors := s.ctl.errors, errSeq := s.ctl.errSeq }
        port := { r.port with width := s.port.width, up := s.port.up, training := s.port.training, sent := s.port.sent, msix := s.port.msix }
        choices := s.choices, turn := s.turn, flip := s.flip, clock := s.clock, free := s.free }

/-- R28, DEVICE_RESET. -/
def execDeviceReset : State → Host.Outcome State Fault Refusal := event fun s => s.onDeviceReset

/-! ## Cluster reset (R28, R172, R283) -/

/-- The capsules of a context core whose cluster is reset: of those that have left whole the interface keeps the header until their last
CMP, the others are dead-lettered from it, slots are reclaimed, and one fault event is recorded for each slot in use. A grant that comes
for a capsule that is gone goes back by RET (R172). -/
def State.resetCapsules (s : State) (ck : Nat) : State :=
  let x := s.cx ck
  let lost := (x.slots.filter fun e => e.2.st != .free).length
  let kept := (x.outcaps.filter OutCap.sent).map fun (o : OutCap) => { o with cut := true, slot := none, pend := none }
  let s := s.modCx ck fun y => { y with slots := [], outcaps := kept, dead := y.dead.filter fun (d : DeadLetter) => d.image.isSome }
  let s := foldS (fun (o : OutCap) (s : State) => if o.sent then s else s.startDead ck (cutOff o)) x.outcaps s
  foldS (fun _ (s : State) => s.faultEvent (regionOfCk ck) { cause := Cause.capsule, kind := 3 }) (List.range lost) s

/-- The matrix long operations of a cluster end with ABORTED (R267): the card stays until its status word is written. A status word in
a scratchpad of the cluster goes with it. -/
def State.abortLongs (s : State) (c : Nat) : State :=
  foldS (fun ck (s : State) =>
    let ends (k : Card) : Bool := k.kind == .mlong && k.held.isNone
    let lost (k : Card) : Bool := isSp k.stAddr && (s.spDecode ck k.stAddr).any fun e => s.clusterOfCk e.1 == some c
    let ids := ((s.cx ck).cards.filter ends).map Card.id
    let s := s.modCx ck fun x => { x with cards := mapIf ends (fun k =>
      { k with status := 5, failAddr := 0, started := true, paused := false, x := {}, stAddr := if lost k then 0 else k.stAddr }) x.cards }
    foldS (fun id (s : State) => s.laterOnce (.mlongComplete ck id)) ids s)
    ((List.range 4).filterMap fun n => s.ckOfCore (4 * c + n)) s

/-- A context core after its cluster's reset: its pool is clear, its user threads are stopped, its service thread starts again, and the
oldest requests for landing slots are granted. The messages that threads have committed stay in the tile's send buffers (R27). -/
def State.resetCtx (s : State) (core ck : Nat) : State :=
  let s := if regionOfCk ck = standbyRegion then s else s.resetCapsules ck
  let x := s.cx ck
  let s := s.setCx ck { lreqs := x.lreqs, outcaps := x.outcaps, dead := x.dead, host := x.host
                        cards := x.cards.filter fun (k : Card) => k.kind == .mlong && k.status == 5 }
  let s := foldS (fun (e : Nat × Option Thread) (s : State) => match e.2 with
    | some t =>
      if ckOfTk e.1 = ck ∧ !isService e.1 then s.setThr e.1 { st := .stopped, place := .absent, roster := t.roster, threadId := t.threadId, geom2 := t.geom2, send := t.send }
      else s
    | none => s) s.threads s
  let s := if regionOfCk ck = standbyRegion then s else s.grantQueued ck
  let tk := mkTk ck 15
  if (s.thr tk).isSome then (s.setThr tk (s.serviceThread ck core)).restoreThread tk 15 else s

/-- CLUSTER_RESET: the cores stop, their bank-compute jobs and matrix long operations end (R100, R267), the homes take the lines of the L1s, and then the cluster is
clear. -/
def State.onClusterReset (s : State) (c : Nat) : State :=
  let cores := (List.range 4).map (4 * c + ·)
  if !(s.clu c).resetting then (((s.modClu c fun x => { x with resetting := true, entry := .none }).abortJobs c).abortLongs c).later (.clusterReset c)
  else
  let s := foldS (fun n (s : State) => s.extractCore n true) cores s
  if cores.any fun n => !(s.linesOf n).isEmpty then s.later (.clusterReset c)
  else
    let s := { s with slices := s.slices.map fun e => (e.1, { e.2 with
      reservations := e.2.reservations.filter (fun r => !cores.contains r.agent), watches := e.2.watches.filter fun w => !cores.contains w.1 }) }
    let s := foldS (fun n (s : State) => s.modCore n fun y => { y with icache := [], dsProbes := [], tcc := [], lastSlot := 15, lastTurn := none, spsyOut := [], spsyHeld := [], spwrHeld := [] }) cores s
    let s := s.modClu c fun x => { x with ctu := [], mxQueue := [], mxDone := [], mxStep := none, cycle := 0, resetting := false }
    foldS (fun n (s : State) => match s.ckOfCore n with
      | some ck => s.resetCtx n ck
      | none => s) cores s

/-- R28, CLUSTER_RESET. -/
def execClusterReset (c : Nat) : State → Host.Outcome State Fault Refusal := event fun s => s.onClusterReset c

end Sys2Proof.Machine
end

