-- ==== Sys2Proof/Machine/Regs.lean ====
section
/-!
DEFINITION. The memory-mapped registers as the host writes and reads them (R6, R26, R39, R82, R104, R106, R121, R132, R142, R454),
and the capabilities of the PCIe function that the host enables (R69, R121), which the model gives offsets of its own.
-/

namespace Sys2Proof.Machine

/-! ## The service image (R132) -/

/-- No partition context exists. -/
def State.noContexts (s : State) : Bool := s.sched.contexts.isEmpty

/-- The scheduler creates the standby contexts; each runs where no partition context is. -/
def State.createStandby (s : State) : State :=
  let s := { s with sched := { s.sched with standby := true } }
  let s := foldS (fun c (s : State) => s.setThr (mkTk (mkCk standbyRegion c) 15) (s.serviceThread (mkCk standbyRegion c) c)) (List.range 64) s
  foldS (fun c (s : State) => if (s.clu c).resident.isNone then s.standIn c else s) (List.range 16) s

/-- A write of SVCIMG is ignored while any partition context exists; the first EN = 1 creates the standby contexts. -/
def State.onSvcimg (s : State) (v : Word) : State :=
  if !s.noContexts then s
  else
    let s := { s with sched := { s.sched with svcEn := v.getLsbD 0, svcBase := BitVec.ofNat 36 (field v 12 36) } }
    if s.sched.svcEn ∧ !s.sched.standby then s.createStandby else s

/-- R132, SVCIMG_WRITE. -/
def execSvcimgWrite (v : Word) : State → Host.Outcome State Fault Refusal := event fun s => s.onSvcimg v

/-! ## Registers with behaviour -/

/-- A write of QCTL starts an operation, unless one is in progress (R104). -/
def State.onQctl (s : State) (v : Word) : State :=
  let q := field v 0 12
  let op := field v 12 3
  if s.fe.qctlBusy.isSome then s
  else
    let e : Ev := match op with | 1 => .evict q | 2 => .resume q | 3 => .skip q | 4 => .disable q | _ => .qctlBadOperation q
    ({ s with fe := { s.fe with qctlBusy := some (q, op) } }).later e

/-- A write of MBCMD starts a command, unless one is in progress or layer 2 does not yet run (R39). Its STATUS and LENGTH read 0 until it
ends (notes/assumptions/140.md). -/
def State.onMbcmd (s : State) (v : Word) : State :=
  let op := field v 0 8
  if s.ctl.mbox.busy ∨ !s.ctl.ready then s
  else
    let e : Ev := match op with | 1 => .readlog | 2 => .report | 3 => .readerr | 4 => .stage | _ => .badop
    (({ s with ctl := { s.ctl with
        mbox := { s.ctl.mbox with busy := true, op := BitVec.ofNat 8 op, arg := BitVec.ofNat 8 (field v 8 8), base := s.ctl.mbox.addr
                                  status := 0, length := 0 } } }).wakeControl).later e

/-- A write of COALCFG; the coalescer may fire at once (R121). -/
def State.onCoalcfg (s : State) (q : Nat) (v : Word) : State :=
  (s.setCoal q { s.coal q with thresh := BitVec.ofNat 8 (field v 0 8), idlef := v.getLsbD 8, en := v.getLsbD 9
                               hold := BitVec.ofNat 16 (field v 16 16) }).coalCheck q

/-! ## Capabilities of the PCIe function -/

/-- Where the model puts the controls and the capability words of the ATS, PASID and PRI capabilities, and the vector control words of
the MSI-X table (notes/assumptions/141.md). -/
def atsControl : Nat := 0x1_0000_0000
def pasidControl : Nat := 0x1_0000_0008
def priAllocation : Nat := 0x1_0000_0010
def atsCapability : Nat := 0x1_0000_0020
def pasidCapability : Nat := 0x1_0000_0028
def priCapability : Nat := 0x1_0000_0030
def msixControl (v : Nat) : Nat := 0x1_0001_0000 + 16 * v

/-- ATS: the Invalidate Queue Depth of 32, which the field of 5 bits encodes as 0, Page Aligned Request and Global Invalidate Supported
(R69). -/
def atsCapValue : Nat := 32 % 32 + 2 ^ 5 + 2 ^ 6
/-- PASID: Execute Permission Supported, Privileged Mode Supported, and the Max PASID Width of 20 (R69). -/
def pasidCapValue : Nat := 2 ^ 1 + 2 ^ 2 + 20 * 2 ^ 8

/-- Masks or unmasks a vector; a pending one is sent when it is unmasked. -/
def State.maskVector (s : State) (v : Nat) (on : Bool) : State :=
  let rest := s.port.masked.filter (· != v)
  if on then { s with port := { s.port with masked := rest ++ [v] } }
  else
    let pend := s.port.msixPend.contains v
    let s := { s with port := { s.port with masked := rest, msixPend := s.port.msixPend.filter (· != v) } }
    if pend then s.sendMsix v else s

/-! ## Writes -/

/-- REGISTER_WRITE: the RW fields take the value; reserved bits are ignored. -/
def State.onRegister (s : State) (off : Nat) (v : Word) : State :=
  match off with
  | 0x2000 => s.onLattol v
  | 0x2008 => s.onPwrlimit v
  | 0x2808 => { s with bmv := { s.bmv with
      winEn := v.getLsbD 0, winBase := BitVec.ofNat 18 (field v 30 18), winSize := BitVec.ofNat 8 (field v 48 8) } }
  | 0x3008 => s.onMbcmd v
  | 0x3010 => { s with ctl := { s.ctl with mbox := { s.ctl.mbox with addr := BitVec.ofNat 52 (field v 12 52) } } }
  | 0x4000 => { s with fe := { s.fe with qtEn := v.getLsbD 0, qtBase := BitVec.ofNat 36 (field v 12 36) } }
  | 0x4008 => s.onQctl v
  | 0x5000 => if s.noContexts then { s with sched := { s.sched with saveEn := v.getLsbD 0, saveBase := BitVec.ofNat 25 (field v 23 25) } } else s
  | 0x5008 => if s.noContexts then { s with sched := { s.sched with saveCount := BitVec.ofNat 13 (field v 0 13) } } else s
  | 0x5010 => s.onSvcimg v
  | 0x5018 => if s.noContexts then { s with sched := { s.sched with svcDataBase := BitVec.ofNat 24 (field v 24 24) } } else s
  | _ =>
    if 0x10000 ≤ off ∧ off < 0x20000 ∧ off % 16 = 0 then s.onCoalcfg ((off - 0x10000) / 16) v
    else if off = atsControl then { s with svc := { s.svc with atsEn := v.getLsbD 0 } }
    else if off = pasidControl then { s with svc := { s.svc with pasidEn := v.getLsbD 0 } }
    else if off = priAllocation then State.sendPages { s with svc := { s.svc with allocation := field v 0 32 } }
    else if msixControl 0 ≤ off ∧ off < msixControl 2048 ∧ off % 16 = 0 then s.maskVector ((off - msixControl 0) / 16) (v.getLsbD 0)
    else s

/-- R6, REGISTER_WRITE. -/
def execRegisterWrite (off : Nat) (v : Word) : State → Host.Outcome State Fault Refusal := event fun s => s.onRegister off v

/-! ## Reads -/

/-- Code of a queue's state (R108). -/
def QState.code : QState → Nat
  | .disabled => 0 | .idle => 1 | .ready => 2 | .active => 3 | .parked => 4 | .error => 5 | .binding => 6

/-- What a read of a BAR0 register gives; write-only and reserved fields read zero (R6). -/
def State.regRead (s : State) (off : Nat) : Word :=
  let b (x : Bool) (k : Nat) : Nat := bitOf x * 2 ^ k
  match off with
  | 0x2000 => word s.pow.tol.toNat
  | 0x2008 => word s.pow.limit.toNat
  | 0x2010 =>
    word ((match s.pow.dev with | .ls0 => 0 | .ls3 => 3 | .ls4 => 4) +
      ((List.range 17).map fun c => b ((s.clu c).power == .ls2) (8 + c)).sum + s.pow.watts.toNat * 2 ^ 32)
  | 0x2800 => word (b s.bmv.present 0 + s.pow.channels * 2 ^ 8 + 0x20 * 2 ^ 16)
  | 0x2808 => word (b s.bmv.winEn 0 + s.bmv.winBase.toNat * 2 ^ 30 + s.bmv.winSize.toNat * 2 ^ 48)
  | 0x2810 => word (s.pow.channels + s.pow.top * 2 ^ 20)
  | 0x3000 => word (b s.ctl.ready 0 + b s.ctl.fail 1 + s.ctl.slots.toNat * 4 + s.ctl.svn.toNat * 2 ^ 16)
  | 0x3010 => word (s.ctl.mbox.addr.toNat * 2 ^ 12)
  | 0x3018 => word (b s.ctl.mbox.busy 0 + s.ctl.mbox.status.toNat * 2 ^ 8 + s.ctl.mbox.length.toNat * 2 ^ 16)
  | 0x4000 => word (b s.fe.qtEn 0 + s.fe.qtBase.toNat * 2 ^ 12)
  | 0x4008 => word (b s.fe.qctlBusy.isSome 16 + s.fe.qctlResult.toNat * 2 ^ 24)
  | 0x5000 => word (b s.sched.saveEn 0 + s.sched.saveBase.toNat * 2 ^ 23)
  | 0x5008 => word s.sched.saveCount.toNat
  | 0x5010 => word (b s.sched.svcEn 0 + s.sched.svcBase.toNat * 2 ^ 12)
  | 0x5018 => word (s.sched.svcDataBase.toNat * 2 ^ 24)
  | _ =>
    if 0x10000 ≤ off ∧ off < 0x20000 then
      let c := s.coal ((off - 0x10000) / 16)
      if off % 16 = 0 then word (c.thresh.toNat + b c.idlef 8 + b c.en 9 + c.hold.toNat * 2 ^ 16)
      else if off % 16 = 8 then word (c.pend.toNat + b c.run 16 + c.elapsed.toNat * 2 ^ 32)
      else 0
    else if off = atsControl then word (b s.svc.atsEn 0)
    else if off = pasidControl then word (b s.svc.pasidEn 0)
    else if off = priAllocation then word s.svc.allocation
    else if off = atsCapability then word atsCapValue
    else if off = pasidCapability then word pasidCapValue
    else if off = priCapability then word priCapacity
    else 0

/-- The data of a line as a coherent read finds them: an agent's dirty copy, else the home's. -/
def State.peekLine (s : State) (line : Nat) : Vec :=
  match s.agents.find? fun e => e.1 % 2 ^ 42 == line && e.2.st.dirty with
  | some e => e.2.data
  | none => (s.lineData (homeOf line) line).data

/-- EN of a queue's entry in the table. -/
def State.entryEn (s : State) (q : Nat) : Bool :=
  let pa := s.fe.qtBase.toNat * 4096 + 64 * q
  decide (pa + 64 ≤ s.memTop) && (s.peekLine (pa / 64)).getLsbD 69

/-- STATE of a queue (R108): DISABLE and ERROR show at once, while a packet in hand runs on. -/
def State.queueCode (s : State) (q : Nat) : Nat :=
  match s.fq q with
  | some e => if s.fe.disabled.contains q then 0 else if e.inError then 5 else e.st.code
  | none => if s.entryEn q && !s.fe.disabled.contains q then 1 else 0

/-- What a read of a queue's doorbell page gives (R106, R108). -/
def State.doorbellRead (s : State) (q off : Nat) : Word :=
  match off with
  | 0 => word (Tbl.get 0 s.fe.tails q).toNat
  | 8 => word (match s.fq q with | some e => e.head | none => Tbl.get 0 s.fe.heads q).toNat
  | 0x10 => word (s.queueCode q)
  | _ => 0

end Sys2Proof.Machine
end

