-- ==== Sys2Proof/Machine/Transcend.lean ====
section
/-!
DEFINITION. The transcendental functions VEXP2, VLOG2, VRCP and VRSQRT (R247 to R252) and the counter-based mixer (R253).
The tables hold the binary32 values of the exact reals that R247 names, computed from those definitions.
-/

namespace Sys2Proof.Machine

/-- T[j] = RoundF32(2^(j/64)) (R247). -/
def tabT : List Nat :=
  [0x3F800000, 0x3F8164D2, 0x3F82CD87, 0x3F843A29, 0x3F85AAC3, 0x3F871F62, 0x3F88980F, 0x3F8A14D5] ++
  [0x3F8B95C2, 0x3F8D1ADF, 0x3F8EA43A, 0x3F9031DC, 0x3F91C3D3, 0x3F935A2B, 0x3F94F4F0, 0x3F96942D] ++
  [0x3F9837F0, 0x3F99E046, 0x3F9B8D3A, 0x3F9D3EDA, 0x3F9EF532, 0x3FA0B051, 0x3FA27043, 0x3FA43516] ++
  [0x3FA5FED7, 0x3FA7CD94, 0x3FA9A15B, 0x3FAB7A3A, 0x3FAD583F, 0x3FAF3B79, 0x3FB123F6, 0x3FB311C4] ++
  [0x3FB504F3, 0x3FB6FD92, 0x3FB8FBAF, 0x3FBAFF5B, 0x3FBD08A4, 0x3FBF179A, 0x3FC12C4D, 0x3FC346CD] ++
  [0x3FC5672A, 0x3FC78D75, 0x3FC9B9BE, 0x3FCBEC15, 0x3FCE248C, 0x3FD06334, 0x3FD2A81E, 0x3FD4F35B] ++
  [0x3FD744FD, 0x3FD99D16, 0x3FDBFBB8, 0x3FDE60F5, 0x3FE0CCDF, 0x3FE33F89, 0x3FE5B907, 0x3FE8396A] ++
  [0x3FEAC0C7, 0x3FED4F30, 0x3FEFE4BA, 0x3FF28177, 0x3FF5257D, 0x3FF7D0DF, 0x3FFA83B3, 0x3FFD3E0C]

/-- Rc[j] = RoundF32(128 / (129 + 2j)) (R247). -/
def tabRc : List Nat :=
  [0x3F7E03F8, 0x3F7A232D, 0x3F76603E, 0x3F72B9D6, 0x3F6F2EB7, 0x3F6BBDB3, 0x3F6865AC, 0x3F652598] ++
  [0x3F61FC78, 0x3F5EE95C, 0x3F5BEB62, 0x3F5901B2, 0x3F562B81, 0x3F53680D, 0x3F50B6A0, 0x3F4E168A] ++
  [0x3F4B8728, 0x3F4907DA, 0x3F46980C, 0x3F443730, 0x3F41E4BC, 0x3F3FA030, 0x3F3D6910, 0x3F3B3EE7] ++
  [0x3F392144, 0x3F370FBB, 0x3F3509E7, 0x3F330F63, 0x3F311FD4, 0x3F2F3ADE, 0x3F2D602B, 0x3F2B8F6A] ++
  [0x3F29C84A, 0x3F280A81, 0x3F2655C4, 0x3F24A9CF, 0x3F23065E, 0x3F216B31, 0x3F1FD80A, 0x3F1E4CAD] ++
  [0x3F1CC8E1, 0x3F1B4C70, 0x3F19D723, 0x3F1868C8, 0x3F17012E, 0x3F15A025, 0x3F144581, 0x3F12F114] ++
  [0x3F11A2B4, 0x3F105A38, 0x3F0F177A, 0x3F0DDA52, 0x3F0CA29C, 0x3F0B7034, 0x3F0A42F8, 0x3F091AC7] ++
  [0x3F07F781, 0x3F06D905, 0x3F05BF37, 0x3F04A9FA, 0x3F039930, 0x3F028CC0, 0x3F01848E, 0x3F008081]

/-- LT[j] = RoundF32(−log2(Rc[j])) (R247). -/
def tabLT : List Nat :=
  [0x3C37F28B, 0x3D08E68D, 0x3D626FCC, 0x3D9D5182, 0x3DC8C50D, 0x3DF3975C, 0x3E0EE690, 0x3E23B551] ++
  [0x3E383A17, 0x3E4C76EA, 0x3E606DB6, 0x3E74205F, 0x3E83C856, 0x3E8D602E, 0x3E96D887, 0x3EA03234] ++
  [0x3EA96DEF, 0x3EB28C80, 0x3EBB8E97, 0x3EC474E2, 0x3ECD4011, 0x3ED5F0C3, 0x3EDE8798, 0x3EE70525] ++
  [0x3EEF69FF, 0x3EF7B6B5, 0x3EFFEBCB, 0x3F0404E8, 0x3F08089D, 0x3F0C0146, 0x3F0FEF1F, 0x3F13D260] ++
  [0x3F17AB44, 0x3F1B79FF, 0x3F1F3ECA, 0x3F22F9D5, 0x3F26AB53, 0x3F2A5375, 0x3F2DF268, 0x3F31885D] ++
  [0x3F35157E, 0x3F3899F4, 0x3F3C15EE, 0x3F3F8991, 0x3F42F506, 0x3F465873, 0x3F49B3FA, 0x3F4D07C5] ++
  [0x3F5053F6, 0x3F5398AF, 0x3F56D60F, 0x3F5A0C3A, 0x3F5D3B4E, 0x3F60636B, 0x3F6384AF, 0x3F669F36] ++
  [0x3F69B31C, 0x3F6CC084, 0x3F6FC782, 0x3F72C831, 0x3F75C2B1, 0x3F78B713, 0x3F7BA577, 0x3F7E8DF1]

/-- Q[j] (R247). -/
def tabQ : List Nat :=
  [0x3F7E05EC, 0x3F7A33F9, 0x3F768CDC, 0x3F730D8A, 0x3F6FB345, 0x3F6C7B90, 0x3F69642A, 0x3F666B02] ++
  [0x3F638E39, 0x3F60CC16, 0x3F5E2305, 0x3F5B9193, 0x3F59166B, 0x3F56B051, 0x3F545E22, 0x3F521ED0] ++
  [0x3F4FF162, 0x3F4DD4ED, 0x3F4BC89B, 0x3F49CBA2, 0x3F47DD45, 0x3F45FCD6, 0x3F4429AF, 0x3F426337] ++
  [0x3F40A8DE, 0x3F3EFA1C, 0x3F3D5671, 0x3F3BBD67, 0x3F3A2E8C, 0x3F38A975, 0x3F372DBF, 0x3F35BB09] ++
  [0x3F339F19, 0x3F30EB96, 0x3F2E565C, 0x3F2BDD46, 0x3F297E62, 0x3F2737F0, 0x3F250855, 0x3F22EE1D] ++
  [0x3F20E7F5, 0x3F1EF4A4, 0x3F1D130E, 0x3F1B422C, 0x3F19810C, 0x3F17CED0, 0x3F162AA9, 0x3F1493D9] ++
  [0x3F1309AF, 0x3F118B87, 0x3F1018C6, 0x3F0EB0E0, 0x3F0D534F, 0x3F0BFF97, 0x3F0AB544, 0x3F0973E8] ++
  [0x3F083B1E, 0x3F070A87, 0x3F05E1C7, 0x3F04C08B, 0x3F03A682, 0x3F029362, 0x3F0186E2, 0x3F0080C1]

def cC1 : Nat := 0x3F317218
def cC2 : Nat := 0x3E75FDF0
def cC3 : Nat := 0x3D635847
def cD1 : Nat := 0x3FB8AA3B
def cD2 : Nat := 0xBF38AA3B
def cD3 : Nat := 0x3EF6384F

/-- The constants 1, −1, 35/128, 5/16, 3/8 and 1/2 as binary32 codes. -/
def f32One : Nat := 0x3F800000
def f32MinusOne : Nat := 0xBF800000
def f32C35 : Nat := 0x3E8C0000
def f32C516 : Nat := 0x3EA00000
def f32C38 : Nat := 0x3EC00000
def f32Half : Nat := 0x3F000000

/-- One binary32 FMA, multiplication or addition, its result alone (R247). -/
def fmaF (a b c : Nat) : Nat := (fmtF32.fma a b c).1
def mulF (a b : Nat) : Nat := (fmtF32.mul a b).1
def addF (a b : Nat) : Nat := (fmtF32.add a b).1

/-- Scale(y, n): y · 2^n rounded once (R247). -/
def scaleF (y : Nat) (n : Int) : Nat × Flags :=
  match fmtF32.decode y with
  | .fin s m e => fmtF32.rne s m (e + n)
  | _ => (y, 0)

/-- Decompose of a non-zero finite magnitude m0 · 2^e0: e and the 23 fraction bits of m in [1, 2) (R247). -/
def decompose (m0 : Nat) (e0 : Int) : Int × Nat :=
  let l := bitLength m0
  ((l : Int) - 1 + e0, m0 * 2 ^ (24 - l) - 2 ^ 23)

/-- The binary32 code of m in [1, 2) with the given fraction. -/
def mCode (frac : Nat) : Nat := 127 * 2 ^ 23 + frac

/-- R248. -/
def vexp2F32 (x : Nat) : Nat × Flags :=
  match fmtF32.decode x with
  | .nan s => (fmtF32.cnan, if s then Flags.iv else 0)
  | .inf n => if n then (0, 0) else (fmtF32.infinity false, 0)
  | .fin n m e =>
    let v : FVal := .fin n m e
    if !v.lt (.fin false 128 0) then (fmtF32.infinity false, Flags.ov ||| Flags.ix)
    else if v.lt (.fin true 151 0) then (0, Flags.un ||| Flags.ix)
    else
      -- k := floor(64 · x) with x = s · 2^e exactly
      let s : Int := if n then -(m : Int) else m
      let k : Int := if e + 6 ≥ 0 then s * (2 ^ (e + 6).toNat : Nat) else s / (2 ^ (-(e + 6)).toNat : Nat)
      let j : Nat := (k % 64).toNat
      let nn : Int := (k - j) / 64
      let e0 : Int := min e (-6)
      let f := (fmtF32.rneInt false (v.at e0 - k * (2 ^ (-6 - e0).toNat : Nat)) e0).1
      let p := mulF (fmaF (fmaF cC3 f cC2) f cC1) f
      let tj := tabT.getD j 0
      let r := scaleF (fmaF tj p tj) nn
      let isInt : Bool := e ≥ 0 || m % 2 ^ (-e).toNat == 0
      (r.1, if isInt then r.2 else r.2 ||| Flags.ix)

/-- The binary32 code of an integer, exact below 2^24. -/
def intF32 (e : Int) : Nat := (fmtF32.rneInt false e 0).1

/-- R249. -/
def vlog2F32 (x : Nat) : Nat × Flags :=
  match fmtF32.decode x with
  | .nan s => (fmtF32.cnan, if s then Flags.iv else 0)
  | .inf n => if n then (fmtF32.cnan, Flags.iv) else (fmtF32.infinity false, 0)
  | .fin n m e =>
    if m = 0 then (fmtF32.infinity true, Flags.zd)
    else if n then (fmtF32.cnan, Flags.iv)
    else
      let d := decompose m e
      if d.2 = 0 then (intF32 d.1, 0)
      else
        let j := d.2 / 2 ^ 17
        let z := fmaF (mCode d.2) (tabRc.getD j 0) f32MinusOne
        let q := mulF (fmaF (fmaF cD3 z cD2) z cD1) z
        (addF (intF32 d.1) (addF (tabLT.getD j 0) q), Flags.ix)

/-- R250. -/
def vrcpF32 (x : Nat) : Nat × Flags :=
  match fmtF32.decode x with
  | .nan s => (fmtF32.cnan, if s then Flags.iv else 0)
  | .inf n => (fmtF32.zero n, 0)
  | .fin n m e =>
    let sgn : Nat × Flags → Nat × Flags := fun r => (if n then r.1 + 2 ^ 31 else r.1, r.2)
    if m = 0 then (fmtF32.infinity n, Flags.zd)
    else
      let d := decompose m e
      if d.2 = 0 then
        let r := scaleF f32One (-d.1)
        sgn (r.1, if -126 ≤ -d.1 then r.2 else r.2 ||| Flags.ix)
      else
        let j := d.2 / 2 ^ 17
        let rc := tabRc.getD j 0
        let z := fmaF (fmtF32.neg (mCode d.2)) rc f32One
        let t := fmaF (fmaF (fmaF z z z) z z) z z
        let y := fmaF rc t rc
        let r := if (fmtF32.cmpLt y f32One).1 then scaleF y (-d.1 - 1) else scaleF y (-d.1)
        sgn (r.1, r.2 ||| Flags.ix)

/-- R251. -/
def vrsqrtF32 (x : Nat) : Nat × Flags :=
  match fmtF32.decode x with
  | .nan s => (fmtF32.cnan, if s then Flags.iv else 0)
  | .inf n => if n then (fmtF32.cnan, Flags.iv) else (0, 0)
  | .fin n m e =>
    if m = 0 then (fmtF32.infinity n, Flags.zd)
    else if n then (fmtF32.cnan, Flags.iv)
    else
      let d := decompose m e
      let odd : Bool := d.1 % 2 != 0
      if d.2 = 0 && !odd then scaleF f32One (-(d.1 / 2))
      else
        let mm := if odd then mCode d.2 + 2 ^ 23 else mCode d.2
        let ee : Int := if odd then d.1 - 1 else d.1
        let j := (if odd then 32 else 0) + d.2 / 2 ^ 18
        let q := tabQ.getD j 0
        let h := mulF mm q
        let z := fmaF (fmtF32.neg h) q f32One
        let t := mulF (fmaF (fmaF (fmaF f32C35 z f32C516) z f32C38) z f32Half) z
        let r := scaleF (fmaF q t q) (-(ee / 2))
        (r.1, r.2 ||| Flags.ix)

/-- A function of f32 on an element of type f32, f16 or bf16: widened exactly, rounded once (R247, R252). -/
def viaF32 (fn : Nat → Nat × Flags) (t : Ty) (x : Nat) : Nat × Flags :=
  if t = .f32 then fn x
  else
    let w := convert .f32 t .rne false x
    let r := fn w.1
    let n := convert t .f32 .rne false r.1
    (n.1, w.2 ||| r.2 ||| n.2)

/-- A 32-bit rotation to the left. -/
def rotL32 (x n : Nat) : Nat := (x * 2 ^ n + x / 2 ^ (32 - n)) % 2 ^ 32

/-- R253. -/
def mix32 (c k : Nat) : Nat :=
  let h := Nat.xor (c % 2 ^ 32) (rotL32 (k % 2 ^ 32) 7)
  let h := Nat.xor h (h / 2 ^ 15) * 0xA3B195CD % 2 ^ 32
  let h := Nat.xor h (h / 2 ^ 13) * 0x6E2B4F27 % 2 ^ 32
  let h := Nat.xor h (k % 2 ^ 32)
  let h := Nat.xor h (h / 2 ^ 16) * 0x8C4D1B53 % 2 ^ 32
  Nat.xor h (h / 2 ^ 14)

/-- R253: the uniform f32 (h shr 8) · 2^−24. -/
def mixUniform (c k : Nat) : Nat := (fmtF32.rne false (mix32 c k / 2 ^ 8) (-24)).1

/-- R253: FMA(u, hi − lo, lo); a NaN bound gives the canonical NaN with IV. -/
def mixRange (c k lo hi : Nat) : Nat × Flags :=
  if (fmtF32.decode lo).isNan || (fmtF32.decode hi).isNan then (fmtF32.cnan, Flags.iv)
  else (fmaF (mixUniform c k) (fmtF32.sub hi lo).1 lo, 0)

end Sys2Proof.Machine
end

