-- ==== Sys2Proof/Machine/Vector.lean ====
section
/-!
DEFINITION. The vector instructions (R361 to R386): element-wise arithmetic, logic and shifts, compares, masks, moves,
permutes, conversions, reductions, scans, transcendentals, the mixer and the F64V majors.
-/

namespace Sys2Proof.Machine

/-! ## Lanes and masks (R362) -/

/-- Lane `i` is active under mask `m`. -/
def Thread.active (t : Thread) (m i : Nat) : Bool := (t.rm m).getLsbD i

/-- The lanes of vd: results of `f` in the active lanes, the old contents in the others; and the flags raised. -/
def maskedLanes (t : Thread) (d m w : Nat) (f : Nat → Nat × Flags) : AOut :=
  let rs := (List.range (512 / w)).map fun i => if t.active m i then some (f i) else none
  { vw := [(d, ofLanes w fun i => match rs.getD i none with
      | some r => r.1
      | none => lane w (t.rv d) i)]
    lanes := (List.range (512 / w)).filterMap fun i => (rs.getD i none).map fun r => (i, r.2) }

/-- vd := f(va, vb) in the active lanes. -/
def vop2 (d a b : BitVec 5) (m : BitVec 3) (ty : Ty) (f : Nat → Nat → Nat × Flags) : State → Host.Outcome State Fault Refusal :=
  issueA { vs := [a.toNat, b.toNat], vd := [d.toNat] } (ty == .f64) fun t =>
    let w := ty.width
    let x := t.rv a.toNat
    let y := t.rv b.toNat
    maskedLanes t d.toNat m.toNat w fun i => f (lane w x i) (lane w y i)

/-- vd := f(va) in the active lanes. -/
def vop1 (d a : BitVec 5) (m : BitVec 3) (ty : Ty) (f : Nat → Nat × Flags) : State → Host.Outcome State Fault Refusal :=
  issueA { vs := [a.toNat], vd := [d.toNat] } (ty == .f64) fun t =>
    let x := t.rv a.toNat
    maskedLanes t d.toNat m.toNat ty.width fun i => f (lane ty.width x i)

/-- vd := f(va, vb, vd) in the active lanes; vd is a source (R368). -/
def vop3 (d a b : BitVec 5) (m : BitVec 3) (ty : Ty) (f : Nat → Nat → Nat → Nat × Flags) :
    State → Host.Outcome State Fault Refusal :=
  issueA { vs := [a.toNat, b.toNat, d.toNat], vd := [d.toNat] } (ty == .f64) fun t =>
    let w := ty.width
    let x := t.rv a.toNat
    let y := t.rv b.toNat
    let z := t.rv d.toNat
    maskedLanes t d.toNat m.toNat w fun i => f (lane w x i) (lane w y i) (lane w z i)

/-! ## Lane functions (R367, R369, R375) -/

/-- An operation that raises no flag. -/
def pure2 (f : Nat → Nat → Nat) (x y : Nat) : Nat × Flags := (f x y, 0)

/-- The integer form for an integer type, the floating form otherwise. -/
def byClass (ty : Ty) (i : Nat → Nat → Nat) (f : Nat → Nat → Nat × Flags) (x y : Nat) : Nat × Flags :=
  if ty.isI then (i x y, 0) else f x y

/-- The low bits of an integer computed on the elements' values. -/
def ivalOp (ty : Ty) (f : Int → Int → Int) (x y : Nat) : Nat := ofSigned ty.width (f (tyIval ty x) (tyIval ty y))

/-- Clamped to the range of the type. -/
def tyClamp (ty : Ty) (v : Int) : Int := max (tyMinVal ty) (min (tyMaxVal ty) v)

/-- Bits [2w − 1 : w] of the product. -/
def mulHighOf (ty : Ty) (x y : Int) : Int := x * y / 2 ^ ty.width

/-- Integer division by R367. -/
def intDiv (ty : Ty) (x y : Nat) : Nat := if y = 0 then ones ty.width else ivalOp ty Int.tdiv x y

/-- A shift by the lane's count: `w` or more gives `far`. -/
def shiftOp (w : Nat) (f : Nat → Nat → Nat) (far : Nat → Nat) (x s : Nat) : Nat := if w ≤ s then far x else f x s

/-- An arithmetic shift to the right on `w` bits. -/
def sraBits (w x s : Nat) : Nat := ofSigned w (toSigned w x / 2 ^ s)

/-- A rotation to the left by s mod w on `w` bits. -/
def rolBits (w x s : Nat) : Nat := (x * 2 ^ (s % w) + x / 2 ^ (w - s % w)) % 2 ^ w

/-! ## Compares (R370) -/

/-- md := one bit for each lane, 0 where inactive. -/
def vcmp (d : BitVec 3) (a b : BitVec 5) (m : BitVec 3) (ty : Ty) (i : Int → Int → Bool) (f : Nat → Nat → Bool × Flags) :
    State → Host.Outcome State Fault Refusal :=
  issueA { vs := [a.toNat, b.toNat], md := [d.toNat] } false fun t =>
    let w := ty.width
    let x := t.rv a.toNat
    let y := t.rv b.toNat
    let rs := (List.range (512 / w)).map fun k =>
      let p := lane w x k
      let q := lane w y k
      if !t.active m.toNat k then (false, (0 : Flags)) else if ty.isI then (i (tyIval ty p) (tyIval ty q), 0) else f p q
    { mw := [(d.toNat, word (leBits (rs.map Prod.fst)))], lanes := rs.mapIdx fun k r => (k, r.2) }

/-! ## Reductions and scans (R245, R246, R382, R383) -/

/-- The node format of a floating reduction. -/
def nodeFmt (ty : Ty) : Fmt := if ty = .f64 then fmtF64 else fmtF32

/-- An element widened exactly to its node type; a NaN keeps whether it signals. -/
def widen (ty : Ty) (x : Nat) : Nat :=
  if ty = .f32 ∨ ty = .f64 then x
  else match (fmtOf ty).decode x with
    | .nan s => if s then 0x7F800001 else fmtF32.cnan
    | _ => (convert .f32 ty .rne false x).1

/-- An integer element extended to 64 bits. -/
def extend64 (ty : Ty) (x : Nat) : Nat := ofSigned 64 (tyIval ty x)

/-- The kinds of reduction. -/
inductive RedOp where
  | sum | max | min
  deriving DecidableEq, Repr

/-- The identity of R245 in the node type. -/
def RedOp.ident (op : RedOp) (ty : Ty) : Nat :=
  if ty.isI then
    match op with
    | .sum => 0
    | .max => if ty.isSigned then 2 ^ 63 else 0
    | .min => if ty.isSigned then 2 ^ 63 - 1 else 2 ^ 64 - 1
  else match op with
    | .sum => (nodeFmt ty).zero true
    | .max => (nodeFmt ty).infinity true
    | .min => (nodeFmt ty).infinity false

/-- One node on values of the node type. -/
def RedOp.node (op : RedOp) (ty : Ty) (x y : Nat) : Nat × Flags :=
  if ty.isI then
    let v (z : Nat) : Int := if ty.isSigned then toSigned 64 z else z
    match op with
    | .sum => ((x + y) % 2 ^ 64, 0)
    | .max => (if v x < v y then y else x, 0)
    | .min => (if v y < v x then y else x, 0)
  else match op with
    | .sum => (nodeFmt ty).add x y
    | .max => (nodeFmt ty).minmax true x y
    | .min => (nodeFmt ty).minmax false x y

/-- A node of the tree: its value, its winning lane while an active leaf feeds it, and the lowest active lane below it. -/
structure Leaf where
  val : Nat
  idx : Option Nat
  low : Nat
  deriving DecidableEq, Repr

/-- The second operand wins the index: an active leaf beats an inactive one, a NaN any number, else the operation decides;
ties keep the lower lane. -/
def RedOp.takesSecond (op : RedOp) (ty : Ty) (x y : Leaf) : Bool :=
  match x.idx, y.idx with
  | _, none => false
  | none, some _ => true
  | some i, some j =>
    let nan (z : Nat) : Bool := !ty.isI && ((nodeFmt ty).decode z).isNan
    let same : Bool := x.val == y.val || (nan x.val && nan y.val)
    if same then decide (j < i)
    else if nan x.val then false
    else if nan y.val then true
    else (op.node ty x.val y.val).1 == y.val

/-- Combines two nodes, with the flags of the step. -/
def RedOp.combine (op : RedOp) (ty : Ty) (x y : Leaf) : Leaf × Flags :=
  let r := op.node ty x.val y.val
  ({ val := r.1, idx := if op.takesSecond ty x y then y.idx else x.idx, low := Nat.min x.low y.low }, r.2)

/-- The pairwise tree of R245: `fuel` bounds its levels. -/
def RedOp.tree (op : RedOp) (ty : Ty) : Nat → List Leaf → List (Nat × Flags) → List Leaf × List (Nat × Flags)
  | 0, l, fl => (l, fl)
  | fuel + 1, l, fl =>
    if l.length < 2 then (l, fl)
    else
      let h := l.length / 2
      let rs := ((l.take h).zip (l.drop h)).map fun p => op.combine ty p.1 p.2
      RedOp.tree op ty fuel (rs.map Prod.fst) (fl ++ rs.map fun r => (r.1.low, r.2))

/-- vd := the reduction of the active lanes of va (R382). -/
def vreduce (d a : BitVec 5) (m : BitVec 3) (ty : Ty) (op : RedOp) : State → Host.Outcome State Fault Refusal :=
  issueA { vs := [a.toNat], vd := [d.toNat] } (ty == .f64) fun t =>
    let w := ty.width
    let x := t.rv a.toNat
    let leaves := (List.range (512 / w)).map fun i =>
      if t.active m.toNat i then
        { val := if ty.isI then extend64 ty (lane w x i) else widen ty (lane w x i), idx := some i, low := i : Leaf }
      else { val := op.ident ty, idx := none, low := 255 }
    let r := op.tree ty 6 leaves []
    let top := r.1.headD ⟨0, none, 255⟩
    let index : Nat := match op with
      | .sum => 0
      | _ => match top.idx with | some i => i | none => ones 64
    { vw := [(d.toNat, BitVec.ofNat 512 (top.val + 2 ^ 64 * index))], lanes := r.2 }

/-- ToElement of R383. -/
def toElement (ty : Ty) (r : Nat) : Nat × Flags :=
  if ty.isI then (r % 2 ^ ty.width, 0) else if ty = .f32 then (r, 0) else convert ty .f32 .rne false r

/-- The scan of R383: lanes with their flags, in order. -/
def RedOp.scan (op : RedOp) (ty : Ty) (act : Nat → Bool) (x : Vec) : Nat → Nat → Nat → List (Nat × Flags)
  | 0, _, _ => []
  | fuel + 1, i, r =>
    let e := lane ty.width x i
    let s : Nat × Flags := if act i then op.node ty r (if ty.isI then extend64 ty e else widen ty e) else (r, 0)
    let o := toElement ty s.1
    (o.1, s.2 ||| o.2) :: RedOp.scan op ty act x fuel (i + 1) s.1

/-- vd := the inclusive scan of va (R383). -/
def vscan (d a : BitVec 5) (m : BitVec 3) (ty : Ty) (op : RedOp) : State → Host.Outcome State Fault Refusal :=
  issueA { vs := [a.toNat], vd := [d.toNat] } false fun t =>
    let rs := op.scan ty (t.active m.toNat) (t.rv a.toNat) (512 / ty.width) 0 (op.ident ty)
    { vw := [(d.toNat, ofLanes ty.width fun i => (rs.getD i (0, 0)).1)], lanes := rs.mapIdx fun i r => (i, r.2) }

/-! ## Conversions (R378 to R381) -/

/-- The registers of a conversion's wider side: G of R379. -/
def groupOf (r : Nat) (wide narrow : Nat) : List Nat := (List.range (max 1 (wide / narrow / 2))).map (r + ·)

/-- VCVT (R379). -/
def vcvtOp (d a : BitVec 5) (td : Ty) (rm : BitVec 2) (sat hi : Bool) (m : BitVec 2) (ts : Ty) (f64v : Bool) :
    State → Host.Outcome State Fault Refusal :=
  let ws := ts.width
  let wd := td.width
  let srcs := if wd < ws then groupOf a.toNat ws wd else [a.toNat]
  let dsts := if ws < wd then groupOf d.toNat wd ws else [d.toNat]
  issueA { vs := srcs, vd := dsts } f64v fun t =>
    let ls := 512 / ws
    let ld := 512 / wd
    let n := if ws = wd then ls else if wd < ws then ld / 2 else ls / 2
    let h := if hi ∧ ws ≠ wd then n else 0
    let src (k : Nat) : Nat :=
      if ws = wd then lane ws (t.rv a.toNat) k
      else if wd < ws then lane ws (t.rv (a.toNat + k / ls)) (k % ls)
      else lane ws (t.rv a.toNat) (h + k)
    let rs := (List.range n).map fun k => if t.active m.toNat k then some (convert td ts (Rm.ofCode rm) sat (src k)) else none
    let at_ (r i : Nat) : Option (Nat × Flags) :=
      if ws < wd then rs.getD ((r - d.toNat) * ld + i) none
      else if h ≤ i ∧ i < h + n then rs.getD (i - h) none
      else none
    { vw := dsts.map fun r => (r, ofLanes wd fun i => match at_ r i with
        | some y => y.1
        | none => lane wd (t.rv r) i)
      lanes := (List.range n).filterMap fun k => (rs.getD k none).map fun y => (k, y.2) }

/-- VQBLK (R380). -/
def vqblkOp (d a : BitVec 5) (rm : BitVec 2) (sat : Bool) (f : SbFmt) : State → Host.Outcome State Fault Refusal :=
  issueA { vs := [a.toNat, a.toNat + 1, a.toNat + 2], vd := [d.toNat] } false fun t =>
    let xs := (List.range 48).map fun i => fmtF32.decode (lane 32 (t.rv (a.toNat + i / 16)) (i % 16))
    let q := f.quantise (Rm.ofCode rm) sat xs
    let body := (q.1.mapIdx fun i e => e * 2 ^ (f.ewidth * i)).foldl (· + ·) 0
    { vw := [(d.toNat, BitVec.ofNat 512 (body + q.2.1 * 2 ^ 384 + q.2.2.1 * 2 ^ 392))], lanes := [(0, q.2.2.2)] }

/-- The f32 of a block's element. -/
def f32OfVal (v : FVal) : Nat :=
  match v with
  | .fin n m e => (fmtF32.rne n m e).1
  | .inf n => fmtF32.infinity n
  | .nan _ => fmtF32.cnan

/-- VDQBLK (R381). -/
def vdqblkOp (d a : BitVec 5) (f : SbFmt) : State → Host.Outcome State Fault Refusal :=
  issueA { vs := [a.toNat], vd := [d.toNat, d.toNat + 1, d.toNat + 2] } false fun t =>
    let x := t.rv a.toNat
    let e0 := bytesAt x 48 1
    let e1 := bytesAt x 49 1
    { vw := (List.range 3).map fun j => (d.toNat + j, ofLanes 32 fun i =>
        f32OfVal (f.value e0 e1 (lane f.ewidth x (16 * j + i)))) }

/-! ## Instructions -/

/-- R367, vadd. -/
def execVadd (d a b : BitVec 5) (m : BitVec 3) (t : Ty) : State → Host.Outcome State Fault Refusal :=
  vop2 d a b m t (byClass t (ivalOp t (· + ·)) (fmtOf t).add)

/-- R367, vadds. -/
def execVadds (d a b : BitVec 5) (m : BitVec 3) (t : Ty) : State → Host.Outcome State Fault Refusal :=
  vop2 d a b m t (pure2 (ivalOp t fun x y => tyClamp t (x + y)))

/-- R367, vsub. -/
def execVsub (d a b : BitVec 5) (m : BitVec 3) (t : Ty) : State → Host.Outcome State Fault Refusal :=
  vop2 d a b m t (byClass t (ivalOp t (· - ·)) (fmtOf t).sub)

/-- R367, vsubs. -/
def execVsubs (d a b : BitVec 5) (m : BitVec 3) (t : Ty) : State → Host.Outcome State Fault Refusal :=
  vop2 d a b m t (pure2 (ivalOp t fun x y => tyClamp t (x - y)))

/-- R367, vmul. -/
def execVmul (d a b : BitVec 5) (m : BitVec 3) (t : Ty) : State → Host.Outcome State Fault Refusal :=
  vop2 d a b m t (byClass t (ivalOp t (· * ·)) (fmtOf t).mul)

/-- R367, vmulh. -/
def execVmulh (d a b : BitVec 5) (m : BitVec 3) (t : Ty) : State → Host.Outcome State Fault Refusal :=
  vop2 d a b m t (pure2 (ivalOp t (mulHighOf t)))

/-- R367, vdiv. -/
def execVdiv (d a b : BitVec 5) (m : BitVec 3) (t : Ty) : State → Host.Outcome State Fault Refusal :=
  vop2 d a b m t (byClass t (intDiv t) (fmtOf t).div)

/-- R367, vmin. -/
def execVmin (d a b : BitVec 5) (m : BitVec 3) (t : Ty) : State → Host.Outcome State Fault Refusal :=
  vop2 d a b m t (byClass t (ivalOp t min) ((fmtOf t).minmax false))

/-- R367, vmax. -/
def execVmax (d a b : BitVec 5) (m : BitVec 3) (t : Ty) : State → Host.Outcome State Fault Refusal :=
  vop2 d a b m t (byClass t (ivalOp t max) ((fmtOf t).minmax true))

/-- R368, vfma. -/
def execVfma (d a b : BitVec 5) (m : BitVec 3) (t : Ty) : State → Host.Outcome State Fault Refusal :=
  vop3 d a b m t (fmtOf t).fma

/-- R368, vfms. -/
def execVfms (d a b : BitVec 5) (m : BitVec 3) (t : Ty) : State → Host.Outcome State Fault Refusal :=
  vop3 d a b m t (fmtOf t).fms

/-- R368, vfnma. -/
def execVfnma (d a b : BitVec 5) (m : BitVec 3) (t : Ty) : State → Host.Outcome State Fault Refusal :=
  vop3 d a b m t (fmtOf t).fnma

/-- R368, vfnms. -/
def execVfnms (d a b : BitVec 5) (m : BitVec 3) (t : Ty) : State → Host.Outcome State Fault Refusal :=
  vop3 d a b m t (fmtOf t).fnms

/-- R369, vand. -/
def execVand (d a b : BitVec 5) (m : BitVec 3) (t : Ty) : State → Host.Outcome State Fault Refusal :=
  vop2 d a b m t (pure2 Nat.land)

/-- R369, vor. -/
def execVor (d a b : BitVec 5) (m : BitVec 3) (t : Ty) : State → Host.Outcome State Fault Refusal :=
  vop2 d a b m t (pure2 Nat.lor)

/-- R369, vxor. -/
def execVxor (d a b : BitVec 5) (m : BitVec 3) (t : Ty) : State → Host.Outcome State Fault Refusal :=
  vop2 d a b m t (pure2 Nat.xor)

/-- R369, vandn. -/
def execVandn (d a b : BitVec 5) (m : BitVec 3) (t : Ty) : State → Host.Outcome State Fault Refusal :=
  vop2 d a b m t (pure2 fun x y => Nat.land x (ones t.width - y))

/-- R369, vshl. -/
def execVshl (d a b : BitVec 5) (m : BitVec 3) (t : Ty) : State → Host.Outcome State Fault Refusal :=
  vop2 d a b m t (pure2 (shiftOp t.width (fun x s => x * 2 ^ s) fun _ => 0))

/-- R369, vshr. -/
def execVshr (d a b : BitVec 5) (m : BitVec 3) (t : Ty) : State → Host.Outcome State Fault Refusal :=
  vop2 d a b m t (pure2 (shiftOp t.width (fun x s => x / 2 ^ s) fun _ => 0))

/-- R369, vsra. -/
def execVsra (d a b : BitVec 5) (m : BitVec 3) (t : Ty) : State → Host.Outcome State Fault Refusal :=
  vop2 d a b m t (pure2 (shiftOp t.width (sraBits t.width) fun x => sraBits t.width x (t.width - 1)))

/-- R369, vrol. -/
def execVrol (d a b : BitVec 5) (m : BitVec 3) (t : Ty) : State → Host.Outcome State Fault Refusal :=
  vop2 d a b m t (pure2 (rolBits t.width))

/-- R370, vcmpeq. -/
def execVcmpeq (d : BitVec 3) (a b : BitVec 5) (m : BitVec 3) (t : Ty) : State → Host.Outcome State Fault Refusal :=
  vcmp d a b m t (fun x y => x == y) (fmtOf t).cmpEq

/-- R370, vcmpne. -/
def execVcmpne (d : BitVec 3) (a b : BitVec 5) (m : BitVec 3) (t : Ty) : State → Host.Outcome State Fault Refusal :=
  vcmp d a b m t (fun x y => x != y) fun x y => (!((fmtOf t).cmpEq x y).1, ((fmtOf t).cmpEq x y).2)

/-- R370, vcmplt. -/
def execVcmplt (d : BitVec 3) (a b : BitVec 5) (m : BitVec 3) (t : Ty) : State → Host.Outcome State Fault Refusal :=
  vcmp d a b m t (fun x y => decide (x < y)) (fmtOf t).cmpLt

/-- R370, vcmple. -/
def execVcmple (d : BitVec 3) (a b : BitVec 5) (m : BitVec 3) (t : Ty) : State → Host.Outcome State Fault Refusal :=
  vcmp d a b m t (fun x y => decide (x ≤ y)) (fmtOf t).cmpLe

/-- R371, vsel. -/
def execVsel (d a b : BitVec 5) (m : BitVec 3) (t : Ty) : State → Host.Outcome State Fault Refusal :=
  issueA { vs := [a.toNat, b.toNat], vd := [d.toNat] } false fun th =>
    { vw := [(d.toNat, ofLanes t.width fun i =>
        if th.active m.toNat i then lane t.width (th.rv a.toNat) i else lane t.width (th.rv b.toNat) i)] }

/-- R375, vneg. -/
def execVneg (d a : BitVec 5) (m : BitVec 3) (t : Ty) : State → Host.Outcome State Fault Refusal :=
  vop1 d a m t fun x => (if t.isI then ofSigned t.width (-tyIval t x) else (fmtOf t).neg x, 0)

/-- R375, vabs. -/
def execVabs (d a : BitVec 5) (m : BitVec 3) (t : Ty) : State → Host.Outcome State Fault Refusal :=
  vop1 d a m t fun x => (if t.isI then ofSigned t.width (tyIval t x).natAbs else (fmtOf t).abs x, 0)

/-- R375, vcpsgn. -/
def execVcpsgn (d a b : BitVec 5) (m : BitVec 3) (t : Ty) : State → Host.Outcome State Fault Refusal :=
  vop2 d a b m t (pure2 (fmtOf t).cpsgn)

/-- R375, vmov. -/
def execVmov (d a : BitVec 5) (m : BitVec 3) (t : Ty) : State → Host.Outcome State Fault Refusal :=
  vop1 d a m t fun x => (x, 0)

/-- R367, vsqrt. -/
def execVsqrt (d a : BitVec 5) (m : BitVec 3) (t : Ty) : State → Host.Outcome State Fault Refusal :=
  vop1 d a m t (fmtOf t).sqrt

/-- R384, vexp2. -/
def execVexp2 (d a : BitVec 5) (m : BitVec 3) (t : Ty) : State → Host.Outcome State Fault Refusal :=
  vop1 d a m t (viaF32 vexp2F32 t)

/-- R384, vlog2. -/
def execVlog2 (d a : BitVec 5) (m : BitVec 3) (t : Ty) : State → Host.Outcome State Fault Refusal :=
  vop1 d a m t (viaF32 vlog2F32 t)

/-- R384, vrcp. -/
def execVrcp (d a : BitVec 5) (m : BitVec 3) (t : Ty) : State → Host.Outcome State Fault Refusal :=
  vop1 d a m t (viaF32 vrcpF32 t)

/-- R384, vrsqrt. -/
def execVrsqrt (d a : BitVec 5) (m : BitVec 3) (t : Ty) : State → Host.Outcome State Fault Refusal :=
  vop1 d a m t (viaF32 vrsqrtF32 t)

/-- R385, vmix32. -/
def execVmix32 (d a b : BitVec 5) (m : BitVec 3) : State → Host.Outcome State Fault Refusal :=
  issueA { gs := [b.toNat], vs := [a.toNat], vd := [d.toNat] } false fun t =>
    let k := (t.rg b.toNat).toNat % 2 ^ 32
    maskedLanes t d.toNat m.toNat 32 fun i => (mix32 (lane 32 (t.rv a.toNat) i) k, 0)

/-- R385, vmix32u. -/
def execVmix32u (d a b : BitVec 5) (m : BitVec 3) : State → Host.Outcome State Fault Refusal :=
  issueA { gs := [b.toNat], vs := [a.toNat], vd := [d.toNat] } false fun t =>
    let k := (t.rg b.toNat).toNat % 2 ^ 32
    maskedLanes t d.toNat m.toNat 32 fun i => (mixUniform (lane 32 (t.rv a.toNat) i) k, 0)

/-- R385, vmix32r: the d field holds d div 2; the bounds lie in vd and v(d + 1). -/
def execVmix32r (d : BitVec 4) (a b : BitVec 5) (m : BitVec 3) : State → Host.Outcome State Fault Refusal :=
  let r := 2 * d.toNat
  issueA { gs := [b.toNat], vs := [a.toNat, r, r + 1], vd := [r] } false fun t =>
    let k := (t.rg b.toNat).toNat % 2 ^ 32
    maskedLanes t r m.toNat 32 fun i => mixRange (lane 32 (t.rv a.toNat) i) k (lane 32 (t.rv r) i) (lane 32 (t.rv (r + 1)) i)

/-- R382, vrsum. -/
def execVrsum (d a : BitVec 5) (m : BitVec 3) (t : Ty) : State → Host.Outcome State Fault Refusal :=
  vreduce d a m t .sum

/-- R382, vrmax. -/
def execVrmax (d a : BitVec 5) (m : BitVec 3) (t : Ty) : State → Host.Outcome State Fault Refusal :=
  vreduce d a m t .max

/-- R382, vrmin. -/
def execVrmin (d a : BitVec 5) (m : BitVec 3) (t : Ty) : State → Host.Outcome State Fault Refusal :=
  vreduce d a m t .min

/-- R383, vscsum. -/
def execVscsum (d a : BitVec 5) (m : BitVec 3) (t : Ty) : State → Host.Outcome State Fault Refusal :=
  vscan d a m t .sum

/-- R383, vscmax. -/
def execVscmax (d a : BitVec 5) (m : BitVec 3) (t : Ty) : State → Host.Outcome State Fault Refusal :=
  vscan d a m t .max

/-- R383, vscmin. -/
def execVscmin (d a : BitVec 5) (m : BitVec 3) (t : Ty) : State → Host.Outcome State Fault Refusal :=
  vscan d a m t .min

/-- R376, vperm. -/
def execVperm (d a b : BitVec 5) (m : BitVec 3) (t : Ty) : State → Host.Outcome State Fault Refusal :=
  issueA { vs := [a.toNat, b.toNat], vd := [d.toNat] } false fun th =>
    let w := t.width
    maskedLanes th d.toNat m.toNat w fun i => (lane w (th.rv a.toNat) (lane w (th.rv b.toNat) i % (512 / w)), 0)

/-- R376, vcompr. -/
def execVcompr (d a : BitVec 5) (m : BitVec 3) (t : Ty) : State → Host.Outcome State Fault Refusal :=
  issueA { vs := [a.toNat], vd := [d.toNat] } false fun th =>
    let w := t.width
    let kept := (List.range (512 / w)).filterMap fun i => if th.active m.toNat i then some (lane w (th.rv a.toNat) i) else none
    { vw := [(d.toNat, ofLanes w fun i => kept.getD i 0)] }

/-- R377, vbcast. -/
def execVbcast (d a : BitVec 5) (m : BitVec 3) (t : Ty) : State → Host.Outcome State Fault Refusal :=
  issueA { gs := [a.toNat], vd := [d.toNat] } false fun th =>
    maskedLanes th d.toNat m.toNat t.width fun _ => ((th.rg a.toNat).toNat % 2 ^ t.width, 0)

/-- R377, vsplat. -/
def execVsplat (d a b : BitVec 5) (m : BitVec 3) (t : Ty) : State → Host.Outcome State Fault Refusal :=
  issueA { gs := [b.toNat], vs := [a.toNat], vd := [d.toNat] } false fun th =>
    let w := t.width
    maskedLanes th d.toNat m.toNat w fun _ => (lane w (th.rv a.toNat) ((th.rg b.toNat).toNat % (512 / w)), 0)

/-- R377, vins. -/
def execVins (d a b : BitVec 5) (t : Ty) : State → Host.Outcome State Fault Refusal :=
  issueA { gs := [a.toNat, b.toNat], vs := [d.toNat], vd := [d.toNat] } false fun th =>
    let w := t.width
    let j := (th.rg b.toNat).toNat % (512 / w)
    { vw := [(d.toNat, splice (th.rv d.toNat) (w * j) w (th.rg a.toNat).toNat)] }

/-- R377, vext. -/
def execVext (d a b : BitVec 5) (t : Ty) : State → Host.Outcome State Fault Refusal :=
  issueA { gs := [b.toNat], vs := [a.toNat], gd := [d.toNat] } false fun th =>
    let w := t.width
    let x := lane w (th.rv a.toNat) ((th.rg b.toNat).toNat % (512 / w))
    { gw := [(d.toNat, if t.isSigned then sext w x else word x)] }

/-- R378, vcvt. -/
def execVcvt (d a : BitVec 5) (t : Ty) (r : BitVec 2) (s h : Bool) (m : BitVec 2) (u : Ty) : State → Host.Outcome State Fault Refusal :=
  vcvtOp d a t r s h m u false

/-- R380, vqblksb8. -/
def execVqblkSb8 (d a : BitVec 5) (r : BitVec 2) (s : Bool) : State → Host.Outcome State Fault Refusal :=
  vqblkOp d a r s sb8

/-- R380, vqblksb4. -/
def execVqblkSb4 (d a : BitVec 5) (r : BitVec 2) (s : Bool) : State → Host.Outcome State Fault Refusal :=
  vqblkOp d a r s sb4

/-- R381, vdqblksb8. -/
def execVdqblkSb8 (d a : BitVec 5) : State → Host.Outcome State Fault Refusal :=
  vdqblkOp d a sb8

/-- R381, vdqblksb4. -/
def execVdqblkSb4 (d a : BitVec 5) : State → Host.Outcome State Fault Refusal :=
  vdqblkOp d a sb4

/-- md := f(ma, mb) over all 64 bits (R372). -/
def maskOp (d a b : BitVec 3) (f : Word → Word → Word) : State → Host.Outcome State Fault Refusal :=
  issueA { md := [d.toNat] } false fun t => { mw := [(d.toNat, f (t.rm a.toNat) (t.rm b.toNat))] }

/-- R372, mand. -/
def execMand (d a b : BitVec 3) : State → Host.Outcome State Fault Refusal :=
  maskOp d a b fun x y => x &&& y

/-- R372, mor. -/
def execMor (d a b : BitVec 3) : State → Host.Outcome State Fault Refusal :=
  maskOp d a b fun x y => x ||| y

/-- R372, mxor. -/
def execMxor (d a b : BitVec 3) : State → Host.Outcome State Fault Refusal :=
  maskOp d a b fun x y => x ^^^ y

/-- R372, mandn. -/
def execMandn (d a b : BitVec 3) : State → Host.Outcome State Fault Refusal :=
  maskOp d a b fun x y => x &&& ~~~ y

/-- R373, mtog. -/
def execMtog (d : BitVec 5) (a : BitVec 3) : State → Host.Outcome State Fault Refusal :=
  issueA { gd := [d.toNat] } false fun t => { gw := [(d.toNat, t.rm a.toNat)] }

/-- R373, gtom. -/
def execGtom (d : BitVec 3) (a : BitVec 5) : State → Host.Outcome State Fault Refusal :=
  issueA { gs := [a.toNat], md := [d.toNat] } false fun t => { mw := [(d.toNat, t.rg a.toNat)] }

/-- R373, mpopc. -/
def execMpopc (d : BitVec 5) (a : BitVec 3) (t : Ty) : State → Host.Outcome State Fault Refusal :=
  issueA { gd := [d.toNat] } false fun th =>
    { gw := [(d.toNat, word (popCount (512 / t.width) (th.rm a.toNat).toNat))] }

/-- R373, mfirst. -/
def execMfirst (d : BitVec 5) (a : BitVec 3) (t : Ty) : State → Host.Outcome State Fault Refusal :=
  issueA { gd := [d.toNat] } false fun th =>
    { gw := [(d.toNat, match (List.range (512 / t.width)).find? fun i => th.active a.toNat i with
        | some i => word i
        | none => BitVec.allOnes 64)] }

/-- R374, viota. -/
def execViota (d : BitVec 5) (m : BitVec 3) (t : Ty) : State → Host.Outcome State Fault Refusal :=
  issueA { vd := [d.toNat] } false fun th =>
    maskedLanes th d.toNat m.toNat t.width fun i => (popCount i (th.rm m.toNat).toNat, 0)

/-- R386, vaddf64. -/
def execVaddF64 (d a b : BitVec 5) (m : BitVec 3) : State → Host.Outcome State Fault Refusal :=
  vop2 d a b m .f64 fmtF64.add

/-- R386, vsubf64. -/
def execVsubF64 (d a b : BitVec 5) (m : BitVec 3) : State → Host.Outcome State Fault Refusal :=
  vop2 d a b m .f64 fmtF64.sub

/-- R386, vmulf64. -/
def execVmulF64 (d a b : BitVec 5) (m : BitVec 3) : State → Host.Outcome State Fault Refusal :=
  vop2 d a b m .f64 fmtF64.mul

/-- R386, vdivf64. -/
def execVdivF64 (d a b : BitVec 5) (m : BitVec 3) : State → Host.Outcome State Fault Refusal :=
  vop2 d a b m .f64 fmtF64.div

/-- R386, vfmaf64. -/
def execVfmaF64 (d a b : BitVec 5) (m : BitVec 3) : State → Host.Outcome State Fault Refusal :=
  vop3 d a b m .f64 fmtF64.fma

/-- R386, vfmsf64. -/
def execVfmsF64 (d a b : BitVec 5) (m : BitVec 3) : State → Host.Outcome State Fault Refusal :=
  vop3 d a b m .f64 fmtF64.fms

/-- R386, vfnmaf64. -/
def execVfnmaF64 (d a b : BitVec 5) (m : BitVec 3) : State → Host.Outcome State Fault Refusal :=
  vop3 d a b m .f64 fmtF64.fnma

/-- R386, vfnmsf64. -/
def execVfnmsF64 (d a b : BitVec 5) (m : BitVec 3) : State → Host.Outcome State Fault Refusal :=
  vop3 d a b m .f64 fmtF64.fnms

/-- R386, vminf64. -/
def execVminF64 (d a b : BitVec 5) (m : BitVec 3) : State → Host.Outcome State Fault Refusal :=
  vop2 d a b m .f64 (fmtF64.minmax false)

/-- R386, vmaxf64. -/
def execVmaxF64 (d a b : BitVec 5) (m : BitVec 3) : State → Host.Outcome State Fault Refusal :=
  vop2 d a b m .f64 (fmtF64.minmax true)

/-- R386, vsqrtf64. -/
def execVsqrtF64 (d a : BitVec 5) (m : BitVec 3) : State → Host.Outcome State Fault Refusal :=
  vop1 d a m .f64 fmtF64.sqrt

/-- R386, vrsumf64. -/
def execVrsumF64 (d a : BitVec 5) (m : BitVec 3) : State → Host.Outcome State Fault Refusal :=
  vreduce d a m .f64 .sum

/-- R386, vcvtf64. -/
def execVcvtF64 (d a : BitVec 5) (t : Ty) (r : BitVec 2) (s h : Bool) (m : BitVec 2) (u : Ty) : State → Host.Outcome State Fault Refusal :=
  vcvtOp d a t r s h m u true

end Sys2Proof.Machine
end

