-- ==== Sys2Proof/Machine/Dispatch.lean ====
section
/-!
DEFINITION. The dispatch of every instruction word and every step of the device to its meaning, one arm per row of
spec/opcode_table.json.
-/

namespace Sys2Proof.Machine

def exec (i : Instr) (s : State) : Host.Outcome State Fault Refusal :=
  match i with
  | .beq p a b o => Sys2Proof.Machine.execBeq p a b o s
  | .bne p a b o => Sys2Proof.Machine.execBne p a b o s
  | .blt p a b o => Sys2Proof.Machine.execBlt p a b o s
  | .bge p a b o => Sys2Proof.Machine.execBge p a b o s
  | .bltu p a b o => Sys2Proof.Machine.execBltu p a b o s
  | .bgeu p a b o => Sys2Proof.Machine.execBgeu p a b o s
  | .bdec p a n o => Sys2Proof.Machine.execBdec p a n o s
  | .btagf p a o => Sys2Proof.Machine.execBtagf p a o s
  | .btage p a o => Sys2Proof.Machine.execBtage p a o s
  | .bany p a o => Sys2Proof.Machine.execBany p a o s
  | .bnone p a o => Sys2Proof.Machine.execBnone p a o s
  | .ball p a o => Sys2Proof.Machine.execBall p a o s
  | .bnall p a o => Sys2Proof.Machine.execBnall p a o s
  | .jmp p o => Sys2Proof.Machine.execJmp p o s
  | .call p o => Sys2Proof.Machine.execCall p o s
  | .jr p a => Sys2Proof.Machine.execJr p a s
  | .callr p a => Sys2Proof.Machine.execCallr p a s
  | .ret p => Sys2Proof.Machine.execRet p s
  | .yield p => Sys2Proof.Machine.execYield p s
  | .hbeat p => Sys2Proof.Machine.execHbeat p s
  | .cnop p => Sys2Proof.Machine.execCnop p s
  | .sendw p a b => Sys2Proof.Machine.execSendw p a b s
  | .sendv p a b => Sys2Proof.Machine.execSendv p a b s
  | .sendc p a b => Sys2Proof.Machine.execSendc p a b s
  | .recvw p d l => Sys2Proof.Machine.execRecvw p d l s
  | .recvv p d l => Sys2Proof.Machine.execRecvv p d l s
  | .ptest p d k => Sys2Proof.Machine.execPtest p d k s
  | .waitw => Sys2Proof.Machine.execWaitw s
  | .srr p d sel => Sys2Proof.Machine.execSrr p d sel s
  | .srw p a sel => Sys2Proof.Machine.execSrw p a sel s
  | .srset p d a sel => Sys2Proof.Machine.execSrset p d a sel s
  | .srclr p d a sel => Sys2Proof.Machine.execSrclr p d a sel s
  | .eret => Sys2Proof.Machine.execEret s
  | .icinv p => Sys2Proof.Machine.execIcinv p s
  | .sighost p a => Sys2Proof.Machine.execSighost p a s
  | .trap imm => Sys2Proof.Machine.execTrap imm s
  | .ppt imm => Sys2Proof.Machine.execPpt imm s
  | .dsread p d a l => Sys2Proof.Machine.execDsread p d a l s
  | .dsprobe p d a b l => Sys2Proof.Machine.execDsprobe p d a b l s
  | .dsdone p a => Sys2Proof.Machine.execDsdone p a s
  | .dsclr p a => Sys2Proof.Machine.execDsclr p a s
  | .dsbcast p a => Sys2Proof.Machine.execDsbcast p a s
  | .dsstab p a => Sys2Proof.Machine.execDsstab p a s
  | .dsrel p a => Sys2Proof.Machine.execDsrel p a s
  | .dspoll p d l => Sys2Proof.Machine.execDspoll p d l s
  | .spltake p d a l => Sys2Proof.Machine.execSpltake p d a l s
  | .lbsend p a => Sys2Proof.Machine.execLbsend p a s
  | .splend p => Sys2Proof.Machine.execSplend p s
  | .ldBu p d a imm l => Sys2Proof.Machine.execLdBu p d a imm l s
  | .ldHu p d a imm l => Sys2Proof.Machine.execLdHu p d a imm l s
  | .ldWu p d a imm l => Sys2Proof.Machine.execLdWu p d a imm l s
  | .ldD p d a imm l => Sys2Proof.Machine.execLdD p d a imm l s
  | .ldB p d a imm l => Sys2Proof.Machine.execLdB p d a imm l s
  | .ldH p d a imm l => Sys2Proof.Machine.execLdH p d a imm l s
  | .ldW p d a imm l => Sys2Proof.Machine.execLdW p d a imm l s
  | .stB p d a imm => Sys2Proof.Machine.execStB p d a imm s
  | .stH p d a imm => Sys2Proof.Machine.execStH p d a imm s
  | .stW p d a imm => Sys2Proof.Machine.execStW p d a imm s
  | .stD p d a imm => Sys2Proof.Machine.execStD p d a imm s
  | .ldxBu p d a b l => Sys2Proof.Machine.execLdxBu p d a b l s
  | .ldxHu p d a b l => Sys2Proof.Machine.execLdxHu p d a b l s
  | .ldxWu p d a b l => Sys2Proof.Machine.execLdxWu p d a b l s
  | .ldxD p d a b l => Sys2Proof.Machine.execLdxD p d a b l s
  | .ldxB p d a b l => Sys2Proof.Machine.execLdxB p d a b l s
  | .ldxH p d a b l => Sys2Proof.Machine.execLdxH p d a b l s
  | .ldxW p d a b l => Sys2Proof.Machine.execLdxW p d a b l s
  | .stxB p d a b => Sys2Proof.Machine.execStxB p d a b s
  | .stxH p d a b => Sys2Proof.Machine.execStxH p d a b s
  | .stxW p d a b => Sys2Proof.Machine.execStxW p d a b s
  | .stxD p d a b => Sys2Proof.Machine.execStxD p d a b s
  | .vld p d a imm l => Sys2Proof.Machine.execVld p d a imm l s
  | .vst p d a imm => Sys2Proof.Machine.execVst p d a imm s
  | .vgath p d a b m e l => Sys2Proof.Machine.execVgath p d a b m e l s
  | .vscat p d a b m e => Sys2Proof.Machine.execVscat p d a b m e s
  | .vldm p d a m e l => Sys2Proof.Machine.execVldm p d a m e l s
  | .vstm p d a m e => Sys2Proof.Machine.execVstm p d a m e s
  | .ldfe p d a l => Sys2Proof.Machine.execLdfe p d a l s
  | .ldff p d a l => Sys2Proof.Machine.execLdff p d a l s
  | .stfe p d a => Sys2Proof.Machine.execStfe p d a s
  | .stff p d a => Sys2Proof.Machine.execStff p d a s
  | .amoadd p d a sel z l => Sys2Proof.Machine.execAmoadd p d a sel z l s
  | .amoand p d a sel z l => Sys2Proof.Machine.execAmoand p d a sel z l s
  | .amoor p d a sel z l => Sys2Proof.Machine.execAmoor p d a sel z l s
  | .amoxor p d a sel z l => Sys2Proof.Machine.execAmoxor p d a sel z l s
  | .amosmax p d a sel z l => Sys2Proof.Machine.execAmosmax p d a sel z l s
  | .amosmin p d a sel z l => Sys2Proof.Machine.execAmosmin p d a sel z l s
  | .amoumax p d a sel z l => Sys2Proof.Machine.execAmoumax p d a sel z l s
  | .amoumin p d a sel z l => Sys2Proof.Machine.execAmoumin p d a sel z l s
  | .amoswap p d a sel z l => Sys2Proof.Machine.execAmoswap p d a sel z l s
  | .amocas p d a sel z l => Sys2Proof.Machine.execAmocas p d a sel z l s
  | .ldlkW p d a l => Sys2Proof.Machine.execLdlkW p d a l s
  | .ldlkD p d a l => Sys2Proof.Machine.execLdlkD p d a l s
  | .stckW p d a b l => Sys2Proof.Machine.execStckW p d a b l s
  | .stckD p d a b l => Sys2Proof.Machine.execStckD p d a b l s
  | .ldacq p d a k sel l => Sys2Proof.Machine.execLdacq p d a k sel l s
  | .strel p d a k sel => Sys2Proof.Machine.execStrel p d a k sel s
  | .fence p k sel => Sys2Proof.Machine.execFence p k sel s
  | .waita p d a b l => Sys2Proof.Machine.execWaita p d a b l s
  | .barinit p a b => Sys2Proof.Machine.execBarinit p a b s
  | .barexpect p a b => Sys2Proof.Machine.execBarexpect p a b s
  | .bararrive p a b => Sys2Proof.Machine.execBararrive p a b s
  | .waitbar p a b => Sys2Proof.Machine.execWaitbar p a b s
  | .barread p d a l => Sys2Proof.Machine.execBarread p d a l s
  | .cpyb p d a b => Sys2Proof.Machine.execCpyb p d a b s
  | .cpyt p a => Sys2Proof.Machine.execCpyt p a s
  | .cpyth p a b => Sys2Proof.Machine.execCpyth p a b s
  | .mlong p a => Sys2Proof.Machine.execMlong p a s
  | .mlongh p a b => Sys2Proof.Machine.execMlongh p a b s
  | .bmvj p a => Sys2Proof.Machine.execBmvj p a s
  | .bmvjh p a b => Sys2Proof.Machine.execBmvjh p a b s
  | .fbind p k a => Sys2Proof.Machine.execFbind p k a s
  | .funbind p k => Sys2Proof.Machine.execFunbind p k s
  | .sbpulse p a => Sys2Proof.Machine.execSbpulse p a s
  | .sbclr p a => Sys2Proof.Machine.execSbclr p a s
  | .capsend p a l => Sys2Proof.Machine.execCapsend p a l s
  | .capret p a => Sys2Proof.Machine.execCapret p a s
  | .capdrop p a => Sys2Proof.Machine.execCapdrop p a s
  | .capdead p a b => Sys2Proof.Machine.execCapdead p a b s
  | .cappop p d a => Sys2Proof.Machine.execCappop p d a s
  | .cappush p a b => Sys2Proof.Machine.execCappush p a b s
  | .capset p a b c => Sys2Proof.Machine.execCapset p a b c s
  | .capget p d a c => Sys2Proof.Machine.execCapget p d a c s
  | .capskip p a b => Sys2Proof.Machine.execCapskip p a b s
  | .mma p z a b e l => Sys2Proof.Machine.execMma p z a b e l s
  | .mmaz p z a b e l => Sys2Proof.Machine.execMmaz p z a b e l s
  | .zrd p v a z t l => Sys2Proof.Machine.execZrd p v a z t l s
  | .zwr p v a z t l => Sys2Proof.Machine.execZwr p v a z t l s
  | .mclr p z l => Sys2Proof.Machine.execMclr p z l s
  | .medge p d a b c => Sys2Proof.Machine.execMedge p d a b c s
  | .mlu p z v g l => Sys2Proof.Machine.execMlu p z v g l s
  | .mchol p z l => Sys2Proof.Machine.execMchol p z l s
  | .mqr p z v l => Sys2Proof.Machine.execMqr p z v l s
  | .mtrsm p z y sel u n l => Sys2Proof.Machine.execMtrsm p z y sel u n l s
  | .mfmt p a => Sys2Proof.Machine.execMfmt p a s
  | .mctld p a => Sys2Proof.Machine.execMctld p a s
  | .mctset p a b => Sys2Proof.Machine.execMctset p a b s
  | .add d a b => Sys2Proof.Machine.execAdd d a b s
  | .sub d a b => Sys2Proof.Machine.execSub d a b s
  | .and d a b => Sys2Proof.Machine.execAnd d a b s
  | .or d a b => Sys2Proof.Machine.execOr d a b s
  | .xor d a b => Sys2Proof.Machine.execXor d a b s
  | .andn d a b => Sys2Proof.Machine.execAndn d a b s
  | .sll d a b => Sys2Proof.Machine.execSll d a b s
  | .srl d a b => Sys2Proof.Machine.execSrl d a b s
  | .sra d a b => Sys2Proof.Machine.execSra d a b s
  | .rol d a b => Sys2Proof.Machine.execRol d a b s
  | .ror d a b => Sys2Proof.Machine.execRor d a b s
  | .slt d a b => Sys2Proof.Machine.execSlt d a b s
  | .sltu d a b => Sys2Proof.Machine.execSltu d a b s
  | .seq d a b => Sys2Proof.Machine.execSeq d a b s
  | .min d a b => Sys2Proof.Machine.execMin d a b s
  | .max d a b => Sys2Proof.Machine.execMax d a b s
  | .minu d a b => Sys2Proof.Machine.execMinu d a b s
  | .maxu d a b => Sys2Proof.Machine.execMaxu d a b s
  | .mul d a b => Sys2Proof.Machine.execMul d a b s
  | .mulh d a b => Sys2Proof.Machine.execMulh d a b s
  | .mulhu d a b => Sys2Proof.Machine.execMulhu d a b s
  | .div d a b => Sys2Proof.Machine.execDiv d a b s
  | .divu d a b => Sys2Proof.Machine.execDivu d a b s
  | .rem d a b => Sys2Proof.Machine.execRem d a b s
  | .remu d a b => Sys2Proof.Machine.execRemu d a b s
  | .add32 d a b => Sys2Proof.Machine.execAdd32 d a b s
  | .sub32 d a b => Sys2Proof.Machine.execSub32 d a b s
  | .mul32 d a b => Sys2Proof.Machine.execMul32 d a b s
  | .madd d a b c => Sys2Proof.Machine.execMadd d a b c s
  | .msub d a b c => Sys2Proof.Machine.execMsub d a b c s
  | .csel d a b c => Sys2Proof.Machine.execCsel d a b c s
  | .clz d a => Sys2Proof.Machine.execClz d a s
  | .ctz d a => Sys2Proof.Machine.execCtz d a s
  | .popc d a => Sys2Proof.Machine.execPopc d a s
  | .bswap d a => Sys2Proof.Machine.execBswap d a s
  | .sextB d a => Sys2Proof.Machine.execSextB d a s
  | .sextH d a => Sys2Proof.Machine.execSextH d a s
  | .sextW d a => Sys2Proof.Machine.execSextW d a s
  | .zextW d a => Sys2Proof.Machine.execZextW d a s
  | .addi d a imm => Sys2Proof.Machine.execAddi d a imm s
  | .andi d a imm => Sys2Proof.Machine.execAndi d a imm s
  | .ori d a imm => Sys2Proof.Machine.execOri d a imm s
  | .xori d a imm => Sys2Proof.Machine.execXori d a imm s
  | .slli d a n => Sys2Proof.Machine.execSlli d a n s
  | .srli d a n => Sys2Proof.Machine.execSrli d a n s
  | .srai d a n => Sys2Proof.Machine.execSrai d a n s
  | .rori d a n => Sys2Proof.Machine.execRori d a n s
  | .slti d a imm => Sys2Proof.Machine.execSlti d a imm s
  | .sltiu d a imm => Sys2Proof.Machine.execSltiu d a imm s
  | .movhi d imm => Sys2Proof.Machine.execMovhi d imm s
  | .insh d imm => Sys2Proof.Machine.execInsh d imm s
  | .fadd d a b => Sys2Proof.Machine.execFadd d a b s
  | .fsub d a b => Sys2Proof.Machine.execFsub d a b s
  | .fmul d a b => Sys2Proof.Machine.execFmul d a b s
  | .fdiv d a b => Sys2Proof.Machine.execFdiv d a b s
  | .fsqrt d a => Sys2Proof.Machine.execFsqrt d a s
  | .fmin d a b => Sys2Proof.Machine.execFmin d a b s
  | .fmax d a b => Sys2Proof.Machine.execFmax d a b s
  | .fneg d a => Sys2Proof.Machine.execFneg d a s
  | .fabs d a => Sys2Proof.Machine.execFabs d a s
  | .fcpsgn d a b => Sys2Proof.Machine.execFcpsgn d a b s
  | .fcmeq d a b => Sys2Proof.Machine.execFcmeq d a b s
  | .fcmlt d a b => Sys2Proof.Machine.execFcmlt d a b s
  | .fcmle d a b => Sys2Proof.Machine.execFcmle d a b s
  | .ffma d a b c => Sys2Proof.Machine.execFfma d a b c s
  | .ffms d a b c => Sys2Proof.Machine.execFfms d a b c s
  | .ffnma d a b c => Sys2Proof.Machine.execFfnma d a b c s
  | .ffnms d a b c => Sys2Proof.Machine.execFfnms d a b c s
  | .fconv d a t r sel u => Sys2Proof.Machine.execFconv d a t r sel u s
  | .frint d a r => Sys2Proof.Machine.execFrint d a r s
  | .vadd d a b m t => Sys2Proof.Machine.execVadd d a b m t s
  | .vadds d a b m t => Sys2Proof.Machine.execVadds d a b m t s
  | .vsub d a b m t => Sys2Proof.Machine.execVsub d a b m t s
  | .vsubs d a b m t => Sys2Proof.Machine.execVsubs d a b m t s
  | .vmul d a b m t => Sys2Proof.Machine.execVmul d a b m t s
  | .vmulh d a b m t => Sys2Proof.Machine.execVmulh d a b m t s
  | .vdiv d a b m t => Sys2Proof.Machine.execVdiv d a b m t s
  | .vmin d a b m t => Sys2Proof.Machine.execVmin d a b m t s
  | .vmax d a b m t => Sys2Proof.Machine.execVmax d a b m t s
  | .vfma d a b m t => Sys2Proof.Machine.execVfma d a b m t s
  | .vfms d a b m t => Sys2Proof.Machine.execVfms d a b m t s
  | .vfnma d a b m t => Sys2Proof.Machine.execVfnma d a b m t s
  | .vfnms d a b m t => Sys2Proof.Machine.execVfnms d a b m t s
  | .vand d a b m t => Sys2Proof.Machine.execVand d a b m t s
  | .vor d a b m t => Sys2Proof.Machine.execVor d a b m t s
  | .vxor d a b m t => Sys2Proof.Machine.execVxor d a b m t s
  | .vandn d a b m t => Sys2Proof.Machine.execVandn d a b m t s
  | .vshl d a b m t => Sys2Proof.Machine.execVshl d a b m t s
  | .vshr d a b m t => Sys2Proof.Machine.execVshr d a b m t s
  | .vsra d a b m t => Sys2Proof.Machine.execVsra d a b m t s
  | .vrol d a b m t => Sys2Proof.Machine.execVrol d a b m t s
  | .vcmpeq d a b m t => Sys2Proof.Machine.execVcmpeq d a b m t s
  | .vcmpne d a b m t => Sys2Proof.Machine.execVcmpne d a b m t s
  | .vcmplt d a b m t => Sys2Proof.Machine.execVcmplt d a b m t s
  | .vcmple d a b m t => Sys2Proof.Machine.execVcmple d a b m t s
  | .vsel d a b m t => Sys2Proof.Machine.execVsel d a b m t s
  | .vneg d a m t => Sys2Proof.Machine.execVneg d a m t s
  | .vabs d a m t => Sys2Proof.Machine.execVabs d a m t s
  | .vcpsgn d a b m t => Sys2Proof.Machine.execVcpsgn d a b m t s
  | .vmov d a m t => Sys2Proof.Machine.execVmov d a m t s
  | .vsqrt d a m t => Sys2Proof.Machine.execVsqrt d a m t s
  | .vexp2 d a m t => Sys2Proof.Machine.execVexp2 d a m t s
  | .vlog2 d a m t => Sys2Proof.Machine.execVlog2 d a m t s
  | .vrcp d a m t => Sys2Proof.Machine.execVrcp d a m t s
  | .vrsqrt d a m t => Sys2Proof.Machine.execVrsqrt d a m t s
  | .vmix32 d a b m => Sys2Proof.Machine.execVmix32 d a b m s
  | .vmix32u d a b m => Sys2Proof.Machine.execVmix32u d a b m s
  | .vmix32r d a b m => Sys2Proof.Machine.execVmix32r d a b m s
  | .vrsum d a m t => Sys2Proof.Machine.execVrsum d a m t s
  | .vrmax d a m t => Sys2Proof.Machine.execVrmax d a m t s
  | .vrmin d a m t => Sys2Proof.Machine.execVrmin d a m t s
  | .vscsum d a m t => Sys2Proof.Machine.execVscsum d a m t s
  | .vscmax d a m t => Sys2Proof.Machine.execVscmax d a m t s
  | .vscmin d a m t => Sys2Proof.Machine.execVscmin d a m t s
  | .vperm d a b m t => Sys2Proof.Machine.execVperm d a b m t s
  | .vcompr d a m t => Sys2Proof.Machine.execVcompr d a m t s
  | .vbcast d a m t => Sys2Proof.Machine.execVbcast d a m t s
  | .vsplat d a b m t => Sys2Proof.Machine.execVsplat d a b m t s
  | .vins d a b t => Sys2Proof.Machine.execVins d a b t s
  | .vext d a b t => Sys2Proof.Machine.execVext d a b t s
  | .vcvt d a t r sel h m u => Sys2Proof.Machine.execVcvt d a t r sel h m u s
  | .vqblkSb8 d a r sel => Sys2Proof.Machine.execVqblkSb8 d a r sel s
  | .vqblkSb4 d a r sel => Sys2Proof.Machine.execVqblkSb4 d a r sel s
  | .vdqblkSb8 d a => Sys2Proof.Machine.execVdqblkSb8 d a s
  | .vdqblkSb4 d a => Sys2Proof.Machine.execVdqblkSb4 d a s
  | .mand d a b => Sys2Proof.Machine.execMand d a b s
  | .mor d a b => Sys2Proof.Machine.execMor d a b s
  | .mxor d a b => Sys2Proof.Machine.execMxor d a b s
  | .mandn d a b => Sys2Proof.Machine.execMandn d a b s
  | .mtog d a => Sys2Proof.Machine.execMtog d a s
  | .gtom d a => Sys2Proof.Machine.execGtom d a s
  | .mpopc d a t => Sys2Proof.Machine.execMpopc d a t s
  | .mfirst d a t => Sys2Proof.Machine.execMfirst d a t s
  | .viota d m t => Sys2Proof.Machine.execViota d m t s
  | .vaddF64 d a b m => Sys2Proof.Machine.execVaddF64 d a b m s
  | .vsubF64 d a b m => Sys2Proof.Machine.execVsubF64 d a b m s
  | .vmulF64 d a b m => Sys2Proof.Machine.execVmulF64 d a b m s
  | .vdivF64 d a b m => Sys2Proof.Machine.execVdivF64 d a b m s
  | .vfmaF64 d a b m => Sys2Proof.Machine.execVfmaF64 d a b m s
  | .vfmsF64 d a b m => Sys2Proof.Machine.execVfmsF64 d a b m s
  | .vfnmaF64 d a b m => Sys2Proof.Machine.execVfnmaF64 d a b m s
  | .vfnmsF64 d a b m => Sys2Proof.Machine.execVfnmsF64 d a b m s
  | .vminF64 d a b m => Sys2Proof.Machine.execVminF64 d a b m s
  | .vmaxF64 d a b m => Sys2Proof.Machine.execVmaxF64 d a b m s
  | .vsqrtF64 d a m => Sys2Proof.Machine.execVsqrtF64 d a m s
  | .vrsumF64 d a m => Sys2Proof.Machine.execVrsumF64 d a m s
  | .vcvtF64 d a t r sel h m u => Sys2Proof.Machine.execVcvtF64 d a t r sel h m u s
  | .powerOnReset => Sys2Proof.Machine.execPowerOnReset s
  | .deviceReset => Sys2Proof.Machine.execDeviceReset s
  | .bootLayer layer => Sys2Proof.Machine.execBootLayer layer s
  | .clusterReset c => Sys2Proof.Machine.execClusterReset c s
  | .linkReset => Sys2Proof.Machine.execLinkReset s
  | .laneFault module covered => Sys2Proof.Machine.execLaneFault module covered s
  | .linkTrainTimeout => Sys2Proof.Machine.execLinkTrainTimeout s
  | .channelFailure ch atBoot => Sys2Proof.Machine.execChannelFailure ch atBoot s
  | .correctedError unit addr => Sys2Proof.Machine.execCorrectedError unit addr s
  | .droopTrip c => Sys2Proof.Machine.execDroopTrip c s
  | .droopStretchEnd c => Sys2Proof.Machine.execDroopStretchEnd c s
  | .clockFrequencySwitch c => Sys2Proof.Machine.execClockFrequencySwitch c s
  | .ls1Entry c => Sys2Proof.Machine.execLs1Entry c s
  | .ls2Entry c => Sys2Proof.Machine.execLs2Entry c s
  | .ls3Entry => Sys2Proof.Machine.execLs3Entry s
  | .ls4Entry => Sys2Proof.Machine.execLs4Entry s
  | .powerStateExit c => Sys2Proof.Machine.execPowerStateExit c s
  | .retentionSleep k => Sys2Proof.Machine.execRetentionSleep k s
  | .controlCoreWake k => Sys2Proof.Machine.execControlCoreWake k s
  | .lattolWrite v => Sys2Proof.Machine.execLattolWrite v s
  | .pwrlimitWrite v => Sys2Proof.Machine.execPwrlimitWrite v s
  | .readlog => Sys2Proof.Machine.execReadlog s
  | .report => Sys2Proof.Machine.execReport s
  | .readerr => Sys2Proof.Machine.execReaderr s
  | .stage => Sys2Proof.Machine.execStage s
  | .badop => Sys2Proof.Machine.execBadop s
  | .mailboxCompletion => Sys2Proof.Machine.execMailboxCompletion s
  | .evict q => Sys2Proof.Machine.execEvict q s
  | .resume q => Sys2Proof.Machine.execResume q s
  | .skip q => Sys2Proof.Machine.execSkip q s
  | .disable q => Sys2Proof.Machine.execDisable q s
  | .qctlBadOperation q => Sys2Proof.Machine.execQctlBadOperation q s
  | .doorbell q off len v => Sys2Proof.Machine.execDoorbell q off len v s
  | .svcimgWrite v => Sys2Proof.Machine.execSvcimgWrite v s
  | .registerWrite off v => Sys2Proof.Machine.execRegisterWrite off v s
  | .priEnable on => Sys2Proof.Machine.execPriEnable on s
  | .queueLoad q => Sys2Proof.Machine.execQueueLoad q s
  | .queueSelect pr => Sys2Proof.Machine.execQueueSelect pr s
  | .queueSliceExpiry pr => Sys2Proof.Machine.execQueueSliceExpiry pr s
  | .nopPacket q => Sys2Proof.Machine.execNopPacket q s
  | .launchPacket q => Sys2Proof.Machine.execLaunchPacket q s
  | .copyPacket q => Sys2Proof.Machine.execCopyPacket q s
  | .bmvPacket q => Sys2Proof.Machine.execBmvPacket q s
  | .signalPacket q => Sys2Proof.Machine.execSignalPacket q s
  | .waitPacket q => Sys2Proof.Machine.execWaitPacket q s
  | .waitPoll q => Sys2Proof.Machine.execWaitPoll q s
  | .waitTimeout q => Sys2Proof.Machine.execWaitTimeout q s
  | .writeSignalPacket q => Sys2Proof.Machine.execWriteSignalPacket q s
  | .bindPacket q => Sys2Proof.Machine.execBindPacket q s
  | .unbindPacket q => Sys2Proof.Machine.execUnbindPacket q s
  | .priStopMarker pasid => Sys2Proof.Machine.execPriStopMarker pasid s
  | .customPacket q => Sys2Proof.Machine.execCustomPacket q s
  | .packetComplete q idx => Sys2Proof.Machine.execPacketComplete q idx s
  | .coalescerHoldExpiry q => Sys2Proof.Machine.execCoalescerHoldExpiry q s
  | .atsTranslationCompletion c => Sys2Proof.Machine.execAtsTranslationCompletion c s
  | .pageRequestResponse prg code => Sys2Proof.Machine.execPageRequestResponse prg code s
  | .pageRequestTimeout prg => Sys2Proof.Machine.execPageRequestTimeout prg s
  | .atsInvalidateRequest r => Sys2Proof.Machine.execAtsInvalidateRequest r s
  | .invalidationCompletion itag => Sys2Proof.Machine.execInvalidationCompletion itag s
  | .rds x => Sys2Proof.Machine.execRds x s
  | .rdx x => Sys2Proof.Machine.execRdx x s
  | .upg x => Sys2Proof.Machine.execUpg x s
  | .rdnc x => Sys2Proof.Machine.execRdnc x s
  | .wrnc x => Sys2Proof.Machine.execWrnc x s
  | .wrf x => Sys2Proof.Machine.execWrf x s
  | .atom x => Sys2Proof.Machine.execAtom x s
  | .llk x => Sys2Proof.Machine.execLlk x s
  | .sck x => Sys2Proof.Machine.execSck x s
  | .watch x => Sys2Proof.Machine.execWatch x s
  | .eciMalformedRequest h => Sys2Proof.Machine.execEciMalformedRequest h s
  | .nodeMerge sl region level path => Sys2Proof.Machine.execNodeMerge sl region level path s
  | .replicaDrop sl line => Sys2Proof.Machine.execReplicaDrop sl line s
  | .dramFill sl line => Sys2Proof.Machine.execDramFill sl line s
  | .replayRetry sl => Sys2Proof.Machine.execReplayRetry sl s
  | .probeTimeout sl line agent => Sys2Proof.Machine.execProbeTimeout sl line agent s
  | .sinv x => Sys2Proof.Machine.execSinv x s
  | .sshr x => Sys2Proof.Machine.execSshr x s
  | .sbinv x => Sys2Proof.Machine.execSbinv x s
  | .ds x => Sys2Proof.Machine.execDs x s
  | .de x => Sys2Proof.Machine.execDe x s
  | .dm x => Sys2Proof.Machine.execDm x s
  | .gm x => Sys2Proof.Machine.execGm x s
  | .cmp x => Sys2Proof.Machine.execCmp x s
  | .atr x => Sys2Proof.Machine.execAtr x s
  | .lkd x => Sys2Proof.Machine.execLkd x s
  | .scf x => Sys2Proof.Machine.execScf x s
  | .woke x => Sys2Proof.Machine.execWoke x s
  | .rty x => Sys2Proof.Machine.execRty x s
  | .wba x => Sys2Proof.Machine.execWba x s
  | .wbx x => Sys2Proof.Machine.execWbx x s
  | .pack x => Sys2Proof.Machine.execPack x s
  | .pdat x => Sys2Proof.Machine.execPdat x s
  | .wbd x => Sys2Proof.Machine.execWbd x s
  | .evc x => Sys2Proof.Machine.execEvc x s
  | .crd x => Sys2Proof.Machine.execCrd x s
  | .l1BackgroundSweep core => Sys2Proof.Machine.execL1BackgroundSweep core s
  | .mcrd x => Sys2Proof.Machine.execMcrd x s
  | .mcrdWindowClose sl entry => Sys2Proof.Machine.execMcrdWindowClose sl entry s
  | .mcd x => Sys2Proof.Machine.execMcd x s
  | .spwr x => Sys2Proof.Machine.execSpwr x s
  | .sprd x => Sys2Proof.Machine.execSprd x s
  | .spsy x => Sys2Proof.Machine.execSpsy x s
  | .spsyResend core txid => Sys2Proof.Machine.execSpsyResend core txid s
  | .spdat x => Sys2Proof.Machine.execSpdat x s
  | .repl x => Sys2Proof.Machine.execRepl x s
  | .rrec x => Sys2Proof.Machine.execRrec x s
  | .rdin x => Sys2Proof.Machine.execRdin x s
  | .rdrm x => Sys2Proof.Machine.execRdrm x s
  | .grant x => Sys2Proof.Machine.execGrant x s
  | .alwRet x => Sys2Proof.Machine.execAlwRet x s
  | .cret x => Sys2Proof.Machine.execCret x s
  | .dsack x => Sys2Proof.Machine.execDsack x s
  | .userMessage x => Sys2Proof.Machine.execUserMessage x s
  | .dec x => Sys2Proof.Machine.execDec x s
  | .notice x => Sys2Proof.Machine.execNotice x s
  | .dirsvc x => Sys2Proof.Machine.execDirsvc x s
  | .lreq x => Sys2Proof.Machine.execLreq x s
  | .lreqResend ck ctag => Sys2Proof.Machine.execLreqResend ck ctag s
  | .chunk x => Sys2Proof.Machine.execChunk x s
  | .deferredMessageRetry x => Sys2Proof.Machine.execDeferredMessageRetry x s
  | .networkLinkRetry link cured => Sys2Proof.Machine.execNetworkLinkRetry link cured s
  | .regionRunnable r => Sys2Proof.Machine.execRegionRunnable r s
  | .regionSliceExpiry r => Sys2Proof.Machine.execRegionSliceExpiry r s
  | .regionEnd r => Sys2Proof.Machine.execRegionEnd r s
  | .partitionHalt r p => Sys2Proof.Machine.execPartitionHalt r p s
  | .contextSwap c => Sys2Proof.Machine.execContextSwap c s
  | .bayBackgroundWrite bay => Sys2Proof.Machine.execBayBackgroundWrite bay s
  | .rosterMultiplex ck => Sys2Proof.Machine.execRosterMultiplex ck s
  | .graceExpiry tk => Sys2Proof.Machine.execGraceExpiry tk s
  | .heartbeatMiss tk => Sys2Proof.Machine.execHeartbeatMiss tk s
  | .dispatch ck => Sys2Proof.Machine.execDispatch ck s
  | .waitLimitExpiry tk => Sys2Proof.Machine.execWaitLimitExpiry tk s
  | .timerExpiry tk => Sys2Proof.Machine.execTimerExpiry tk s
  | .interruptEntry tk => Sys2Proof.Machine.execInterruptEntry tk s
  | .deferredPoison tk => Sys2Proof.Machine.execDeferredPoison tk s
  | .flumeTransfer tk k => Sys2Proof.Machine.execFlumeTransfer tk k s
  | .jobCardStart ck id => Sys2Proof.Machine.execJobCardStart ck id s
  | .copyJobComplete ck id => Sys2Proof.Machine.execCopyJobComplete ck id s
  | .jobStatusFail ck id => Sys2Proof.Machine.execJobStatusFail ck id s
  | .sluiceOutletFire ck o => Sys2Proof.Machine.execSluiceOutletFire ck o s
  | .matrixRequestServe c => Sys2Proof.Machine.execMatrixRequestServe c s
  | .matrixResultBind c id => Sys2Proof.Machine.execMatrixResultBind c id s
  | .factorisationStepEnd c => Sys2Proof.Machine.execFactorisationStepEnd c s
  | .mlongComplete ck id => Sys2Proof.Machine.execMlongComplete ck id s
  | .bmvJobStart j => Sys2Proof.Machine.execBmvJobStart j s
  | .xld u off x => Sys2Proof.Machine.execXld u off x s
  | .brun u run => Sys2Proof.Machine.execBrun u run s
  | .bhalt u => Sys2Proof.Machine.execBhalt u s
  | .bres u => Sys2Proof.Machine.execBres u s
  | .prd u first count => Sys2Proof.Machine.execPrd u first count s
  | .bankPassBatchEnd j => Sys2Proof.Machine.execBankPassBatchEnd j s
  | .bmvJobCompletion j => Sys2Proof.Machine.execBmvJobCompletion j s
  | .deadLetter ck id => Sys2Proof.Machine.execDeadLetter ck id s
  | .dsdoneWaitLog sl line => Sys2Proof.Machine.execDsdoneWaitLog sl line s
  | .adapterRetry module => Sys2Proof.Machine.execAdapterRetry module s
  | .supplyRecovery c => Sys2Proof.Machine.execSupplyRecovery c s
  | .unrecoverableFailure unit => Sys2Proof.Machine.execUnrecoverableFailure unit s

end Sys2Proof.Machine
end

