-- ==== Sys2Proof/Machine/Issue.lean ====
section
/-!
DEFINITION. Fetching a unit and issuing it: the instruction cache (R207), the checks of R287 up to pairing, and the turn of a core
(R136).
-/

namespace Sys2Proof.Machine

/-! ## Fetch (R207, R287) -/

/-- What a fetch gives. -/
inductive Fetched where
  | line (s : State) (d : Vec)
  | trap (cause : Nat) (val : Word)
  | wait (s : State) (st : TState)

/-- The line of the instruction cache that holds a physical address, filled by RDNC; 1024 lines. -/
def State.icacheLine (s : State) (c pa : Nat) : Fetched :=
  match (s.core c).icache.find? fun e => e.1 == pa / 64 with
  | some e => .line (s.modCore c fun x => { x with icache := x.icache.filter (fun f => f.1 != pa / 64) ++ [e] }) e.2
  | none => match s.cohRead c (pa / 64) with
    | .error s => .wait s .ready
    | .ok (s, d, bad) =>
      if bad then .trap Cause.poison (word (64 * (pa / 64)))
      else .line (s.modCore c fun x => { x with icache := keepLast 1024 (x.icache ++ [(pa / 64, d)]) }) d

/-- Fetches the line of the thread's next unit. Code lies in memory: a fetch from a scratchpad address raises ACCESS. -/
def State.fetch (s : State) (tk : Nat) (t : Thread) : Fetched :=
  if isSp t.pc then .trap Cause.access t.pc
  else if field t.pc 0 2 ≠ 0 then .trap Cause.align t.pc
  else match s.xlatThread tk t t.pc.toNat false false true with
    | .fault c => .trap c t.pc
    | .wait s st => .wait s st
    | .pa s pa => s.icacheLine s.unit.core pa

/-! ## Words of a unit (R286, R294, R295) -/

/-- C-class instructions that stand alone. -/
def standsAlone : Instr → Bool
  | .waitw | .eret | .trap _ | .ppt _ => true
  | _ => false

/-- The v registers that a C-class instruction reads. -/
def vReads : Instr → List Nat
  | .vst _ d _ _ => [d.toNat]
  | .vgath _ _ _ b _ _ _ => [b.toNat]
  | .vscat _ d _ b _ _ => [b.toNat, d.toNat]
  | .vstm _ d _ _ _ => [d.toNat]
  | .sendv _ _ b => [b.toNat]
  | .zwr _ v _ _ _ _ => [v.toNat]
  | _ => []

/-- Majors 0x38 to 0x3B of the A class: F64V. -/
def isF64vWord (w : Nat) : Bool := bits w 30 1 == 1 && decide (0x38 ≤ bits w 24 6) && decide (bits w 24 6 ≤ 0x3B)

/-- How one word of a unit decodes on a core. -/
inductive Decoded where
  | instr (i : Instr)
  /-- An F64V word on a core without F64V (R145): its fields are checked where it executes. -/
  | absent
  | illegal
  deriving DecidableEq, Repr

noncomputable def decodeOn (f64v : Bool) (w : Nat) : Decoded :=
  if isF64vWord w ∧ !f64v then .absent
  else match decodeWord w with
    | some i => .instr i
    | none => .illegal

/-- The C-class instruction of the first word of a pair; one that stands alone has P = 0 in its own word. -/
noncomputable def decodeFirst (w : Nat) : Option Instr :=
  match decodeWord w with
  | some i => some i
  | none => (decodeWord (w - 2 ^ 31)).filter standsAlone

/-! ## Issue (R195, R287) -/

/-- Raises a trap at the unit. -/
def unitFails (tk cause : Nat) (val : Word) (wordBit : Bool) (s : State) : Host.Outcome State Fault Refusal :=
  .next (s.unitTrap tk cause val wordBit)

/-- A lone word. -/
noncomputable def State.issueLone (s : State) (tk : Nat) (t : Thread) (w : Nat) : Host.Outcome State Fault Refusal :=
  match decodeOn (s.hasF64v s.unit.core) w with
  | .illegal => unitFails tk Cause.illegalOp (word w) false s
  | .absent => .next (s.absentF64v tk t false)
  | .instr i => exec i s

/-- A pair whose framing is right: the A word is evaluated first, on the state before the unit, then the C word takes effect
with it. -/
noncomputable def State.issuePair (s : State) (tk : Nat) (t : Thread) (w0 w1 : Nat) : Host.Outcome State Fault Refusal :=
  match decodeFirst w0 with
  | none => unitFails tk Cause.illegalOp (word w0) false s
  | some c =>
    match decodeOn (s.hasF64v s.unit.core) w1 with
    | .illegal => unitFails tk Cause.illegalOp (word w1) true s
    | d =>
      if standsAlone c then unitFails tk Cause.bundle s.unit.bundleVal false s
      else match d with
        | .instr a =>
          match exec a { s with unit := { s.unit with phase := .aOfPair, cReads := vReads c } } with
          | .next s' => exec c { s' with unit := { s'.unit with phase := .cOfPair } }
          | r => r
        | _ => .next (s.absentF64v tk t true)

/-- Frames and decodes the unit in a fetched line, and issues it. -/
noncomputable def State.issueWords (s : State) (tk : Nat) (t : Thread) (d : Vec) : Host.Outcome State Fault Refusal :=
  let o := t.pc.toNat % 64
  let w0 := bytesAt d o 4
  if bits w0 31 1 = 0 then
    ({ s with unit := { s.unit with word0 := BitVec.ofNat 32 w0 } }).issueLone tk t w0
  else if bits w0 30 1 = 1 ∨ o % 8 = 4 then
    unitFails tk Cause.bundle (word w0) false { s with unit := { s.unit with word0 := BitVec.ofNat 32 w0 } }
  else
    let w1 := bytesAt d (o + 4) 4
    let s := { s with unit := { s.unit with word0 := BitVec.ofNat 32 w0, word1 := BitVec.ofNat 32 w1, phase := .cOfPair } }
    if bits w1 31 1 = 1 ∨ bits w1 30 1 = 0 then unitFails tk Cause.bundle s.unit.bundleVal false s
    else s.issuePair tk t w0 w1

/-- One thread's turn: an interrupt that can be taken, or its next unit. -/
noncomputable def State.issueThread (s : State) (c tk : Nat) : Host.Outcome State Fault Refusal :=
  match s.thr tk with
  | none => .fault .noThread
  | some t =>
    let s := { s with unit := { tk := tk, addr := t.pc, core := c } }
    if t.interrupt?.isSome then exec (.interruptEntry tk) s
    else match s.fetch tk t with
      | .trap cause val => unitFails tk cause val false s
      | .wait s st => .next (s.waitUnit tk st none)
      | .line s d => s.issueWords tk t d

/-! ## The turn of a core (R136) -/

/-- The threads of a core that are READY and rested, in slot order after the slot that issued last. In a partition that halts, only
a service thread between an INVAL notice and its DSDONE goes on (R132). -/
def State.candidates (s : State) (c : Nat) : List (Nat × Nat) :=
  let cycle := (s.clu (c / 4)).cycle.toNat
  let go := (s.rosterOf c).filterMap fun e => match e.2.place with
    | .inSlot k =>
      let rested : Bool := match e.2.lastIssue with | some n => decide (n + 4 ≤ cycle) | none => true
      if e.2.st = .ready ∧ e.2.preempt ≠ some 0 ∧ !e.2.missed ∧ (!s.halting e.2.roster || e.2.invalHeld) ∧ rested then some (k, e.1) else none
    | _ => none
  (List.range 16).flatMap fun i => go.filter fun e => e.1 == ((s.core c).lastSlot + 1 + i) % 16

/-- Issues one unit of the first candidate that is not refused. -/
noncomputable def State.issueFirst (s : State) (c : Nat) : List (Nat × Nat) → Host.Outcome State Fault Refusal
  | [] => .next s
  | (k, tk) :: rest =>
    match s.issueThread c tk with
    | .next s' =>
      if s'.unit.refused then State.issueFirst s' c rest
      else
        let old := (s.thr tk).bind Thread.lastIssue
        let now := (s.clu (c / 4)).cycle.toNat
        .next ((s'.modCore c fun x => { x with lastSlot := k }).modThr tk fun t =>
          if t.lastIssue = old then { t with lastIssue := some now } else t)
    | r => r

end Sys2Proof.Machine
end

