-- ==== Sys2Proof/Machine/Settle.lean ====
section
/-!
DEFINITION. What settles after each step: work that has become possible is made pending, and the front end's clock advances. A step
stands for one F-cycle and one S-cycle (R3, R20).
-/

namespace Sys2Proof.Machine

/-- Makes a step pending for each element that a test names. -/
def State.postAll {α : Type} (s : State) (l : List α) (p : α → Bool) (e : α → Ev) : State :=
  foldS (fun a (s : State) => if p a then s.laterOnce (e a) else s) l s

/-! ## Threads (R135, R137, R198, R411) -/

/-- A thread waits for room in its core's inbox, and there is room. -/
def State.inboxReady (s : State) (tk : Nat) (t : Thread) : Bool :=
  t.st == .sync && t.park == some 0x300 && decide ((s.cx (ckOfTk tk)).inbox.length < 64)

/-- A condition among the thread's results is due: the thread issues nothing more before it. -/
def State.poisonDue (s : State) (t : Thread) : Bool :=
  (t.st == .long || (t.st == .sync && t.park.isNone) || t.preempt == some 0 || s.halting t.roster) && t.pend.all Pending.complete &&
    t.pend.any Pending.bad

/-- What is due for a thread in a slot. A stopped thread of a FAULTED region is saved in full and its slot freed (R143, R144). -/
def State.settleThread (s : State) (tk : Nat) (t : Thread) : State :=
  match t.place with
  | .inSlot _ =>
    if t.st = .stopped ∧ !isService tk ∧ (s.region (regionOfCk (ckOfTk tk))).any (fun x => x.st == .faulted) then s.saveThread tk
    else
    let s := if s.inboxReady tk t then s.wake tk else s
    let s := if s.poisonDue t then s.laterOnce (.deferredPoison tk) else s
    match t.preempt with
    | some n =>
      let waits : Bool := t.st != .ready && t.st != .stopped
      let s := if waits ∧ n ≠ 0 then s.modThr tk fun t => { t with preempt := some 0 } else s
      if (waits ∨ n = 0) ∧ t.quiet ∧ t.st ≠ .long then s.laterOnce (.graceExpiry tk) else s
    | none => s
  | _ => s

def State.settleThreads (s : State) : State :=
  foldS (fun (e : Nat × Option Thread) (s : State) => match e.2 with
    | some t => s.settleThread e.1 t
    | none => s) s.threads s

/-- A slot of the core is free, and a SAVED thread of its roster is ready. -/
def State.muxReady (s : State) (ck : Nat) : Bool :=
  match s.coreOfCk ck with
  | some c => !s.halting ck && ((s.rosterUsers c).any fun e => e.2.savedReady) && (s.freeSlot c ck).isSome
  | none => false

/-! ## The scheduler (R124 to R142) -/

def State.settleRegions (s : State) : State :=
  let s := if s.sched.due then ({ s with sched := { s.sched with due := false } }).schedPoint else s
  let s := s.placeAll
  let s := s.postAll s.liveRegions (fun e => s.canRun e.2) fun e => .regionRunnable e.1
  let s := s.postAll s.liveRegions (fun e => s.quiescent e.1 e.2) fun e => .regionEnd e.1
  let s := s.postAll s.overRegions (fun r => !s.serviceBusy r) .regionEnd
  let s := s.postAll s.sched.contexts (fun e => s.haltReady e.1) fun e => .partitionHalt (e.1 / 16) (e.1 % 16)
  let s := s.postAll (List.range 16) s.swapReady .contextSwap
  let s := s.postAll s.sched.contexts (fun e => match e.2 with
    | some x => x.cluster.isSome && (cksOf e.1).any s.muxReady
    | none => false) fun e => .rosterMultiplex ((cksOf e.1).find? s.muxReady |>.getD 0)
  foldS (fun b (s : State) => match s.inBay b with
    | some k =>
      if s.isSelected k ∨ s.sched.bayWrite.contains b then s
      else ({ s with sched := { s.sched with bayWrite := s.sched.bayWrite ++ [b] } }).later (.bayBackgroundWrite b)
    | none => s) [0, 1] s

/-! ## The front end (R108 to R122) -/

/-- A parked queue whose condition is met. -/
def State.unparks (s : State) (e : Queue) : Bool :=
  e.st == .parked && match e.reason with
    | .page => !s.pageWaits e.q
    | .bind => s.svc.invals.all fun v => v.itag != bindTag e.q
    | .barrier => e.started.isEmpty && match e.cur with
      | some p => !p.sorted || p.open_ == 0
      | none => true
    | _ => false

/-- A queue leaves PARKED once its condition is met (R108); one that a processor might serve parks while something of it waits for a
page (R117). -/
def State.settleQueue (s : State) (e : Queue) : State :=
  if s.unparks e then
    let s := s.modFq e.q fun e => { e with st := e.rest, reason := .none }
    if e.rest = .idle then (s.writeHead e.q).coalCheck e.q else s
  else if (e.st == .ready || e.st == .active) && s.pageWaits e.q then s.parkQueue e.q .page
  else s

/-- A pending queue can be loaded. -/
def State.loadable (s : State) (q : Nat) : Bool :=
  s.fe.qtEn && !s.binding q && (decide (s.fe.queues.length < 256) || s.loadVictim.isSome)

/-- The lowest packet processor that is free. -/
def State.freePr (s : State) : Option Nat := (List.range s.fe.procs.length).find? fun k => match s.fe.procs[k]? with
  | some p => p.queue.isNone
  | none => false

/-- The front end, while it is on and no reset sweep is in progress (R24, R28). -/
def State.settleFront (s : State) : State :=
  if s.pow.dev = .ls4 ∨ s.pow.sweeping then s
  else
  let s := foldS (fun (w : FeWrite) (s : State) => s.tryFeWrite w) s.fe.writes s
  let s := s.runCopies
  let s := foldS (fun (e : Queue) (s : State) => s.settleQueue e) s.fe.queues s
  let s := foldS (fun (e : Queue) (s : State) => s.tryReadSorter e) s.fe.queues s
  let s := s.postAll s.fe.pending (fun e => s.loadable e.1) fun e => .queueLoad e.1
  match s.freePr, s.pickQueue with
  | some pr, some _ => if s.pow.fatal then s else s.laterOnce (.queueSelect pr)
  | _, _ => s

/-! ## Translation (R78, R81) -/

def State.settleService (s : State) : State :=
  let s := s.postAll s.svc.invals s.invalDone fun v => .invalidationCompletion v.itag
  s.postAll s.svc.stopPending (fun p => s.svc.pages.all fun y => y.pasid != p) .priStopMarker

/-! ## Clocks and power (R20, R24, R25, R32) -/

/-- ECI traffic is in flight. -/
def eciTraffic : Ev → Bool
  | .rds m | .rdx m | .upg m | .rdnc m | .wrnc m | .wrf m | .atom m | .llk m | .sck m | .watch m | .sinv m | .sshr m | .sbinv m | .ds m |
    .de m | .dm m | .gm m | .cmp m | .atr m | .lkd m | .scf m | .woke m | .rty m | .wba m | .wbx m | .pack m | .pdat m | .wbd m |
    .evc m | .crd m => isEci m.src || isEci m.dst
  | .eciMalformedRequest _ => true
  | _ => false

/-- A cluster in a low-power state has reason to leave it. -/
def State.clusterWakes (s : State) (c : Nat) : Bool :=
  match (s.clu c).power with
  | .ls0 => false
  | .ls1 => !s.noReady c || !s.admitted .ls1
  | .ls2 => !s.unassigned c || !s.tilesQuiet c || !s.admitted .ls2

/-- The deepest state that a cluster may enter. -/
def State.clusterRest (s : State) (c : Nat) : Option Ev :=
  let tol := s.pow.tol.toNat
  match (s.clu c).power with
  | .ls2 => none
  | p =>
    if 20 ≤ tol ∧ s.unassigned c ∧ s.tilesQuiet c ∧ s.standbyQuiet c then some (.ls2Entry c)
    else if tol ≠ 0 ∧ p = .ls0 ∧ s.noReady c then some (.ls1Entry c)
    else none

/-- Power: clusters and the device enter and leave their states (R24, R25). The spare cluster has none (notes/assumptions/147.md). -/
def State.settlePower (s : State) : State :=
  let s := s.postAll (List.range 16) (fun c => (s.clu c).newFreq.isSome) .clockFrequencySwitch
  let s := s.postAll (List.range 2) (fun k => s.ctl.wake.getD k false && s.ctl.sleep.getD k false) .controlCoreWake
  let s := s.postAll (List.range 2) (fun k => !(s.ctl.sleep.getD k false) && !s.controlBusy) .retentionSleep
  let s := s.postAll (List.range 16) s.clusterWakes .powerStateExit
  let s := foldS (fun c (s : State) => match s.clusterRest c with
    | some e => s.laterOnce e
    | none => s) (List.range 16) s.takeRate
  let d := s.deepest
  if d.depth < s.pow.dev.depth then s.laterOnce (.powerStateExit 0)
  else if s.pow.dev.depth < d.depth then s.laterOnce (if d = .ls4 then .ls4Entry else .ls3Entry)
  else s

/-! ## The front end's clock (R110, R111, R115, R121) -/

/-- One F-cycle of a packet processor: its slice runs down, or its queue's overrun grows. -/
def State.tickProc (s : State) (pr : Nat) : State :=
  match s.fe.procs[pr]? with
  | none => s
  | some p => match p.queue with
    | none => s
    | some q =>
      if p.expired then s.modFq q fun e => { e with deficit := e.deficit + 1 }
      else
        let s := s.modProc pr fun p => { p with left := p.left - 1 }
        if p.left ≤ 1 then s.laterOnce (.queueSliceExpiry pr) else s

/-- One F-cycle of a queue whose WAIT has begun. -/
def State.tickWait (s : State) (e : Queue) : State :=
  match e.cur with
  | none => s
  | some p =>
    if e.st = .parked ∧ e.stepNo = 2 ∧ pktType p.body = 5 then
      let n := e.waited + 1
      let s := s.modFq e.q fun e => { e with waited := n }
      let s := if n % 256 = 0 ∧ e.reason = .memory then s.laterOnce (.waitPoll e.q) else s
      if waitLimit p.body ≠ 0 ∧ waitLimit p.body ≤ n then s.laterOnce (.waitTimeout e.q) else s
    else s

/-- One F-cycle of a coalescer. -/
def State.tickCoal (s : State) (q : Nat) (c : Coal) : State :=
  if !c.run then s
  else if c.hold ≤ c.elapsed then s.laterOnce (.coalescerHoldExpiry q)
  else s.setCoal q { c with elapsed := c.elapsed + 1 }

/-- One F-cycle of the front end, which is off in LS4 (R20, R24). -/
def State.tickFront (s : State) : State :=
  let s := if s.pow.dev = .ls4 then s
    else
      let s := foldS (fun pr (s : State) => s.tickProc pr) (List.range s.fe.procs.length) s
      let s := foldS (fun (e : Queue) (s : State) => s.tickWait e) s.fe.queues s
      foldS (fun (e : Nat × Coal) (s : State) => s.tickCoal e.1 e.2) s.fe.coal s
  { s with pow := { s.pow with eciIdle := if s.agenda.any eciTraffic then 0 else min (2 ^ 14) (s.pow.eciIdle + 1) } }

/-- What settles after a step. -/
def State.settleStep (s : State) : State :=
  s.tickFront.settleThreads.settleFront.settleService.settleRegions.settlePower

end Sys2Proof.Machine
end

