-- ==== Sys2Proof/Machine/Steps.lean ====
section
/-!
DEFINITION. The device's own steps as instructions: each pending step of `Ev` is the constructor of `Instr` of the same row.
-/

namespace Sys2Proof.Machine

/-- The instruction that a pending step stands for. -/
noncomputable def evInstr : Ev → Instr
  | .powerOnReset => .powerOnReset
  | .deviceReset => .deviceReset
  | .bootLayer a0 => .bootLayer a0
  | .clusterReset a0 => .clusterReset a0
  | .linkReset => .linkReset
  | .laneFault a0 a1 => .laneFault a0 a1
  | .linkTrainTimeout => .linkTrainTimeout
  | .channelFailure a0 a1 => .channelFailure a0 a1
  | .correctedError a0 a1 => .correctedError a0 a1
  | .droopTrip a0 => .droopTrip a0
  | .droopStretchEnd a0 => .droopStretchEnd a0
  | .clockFrequencySwitch a0 => .clockFrequencySwitch a0
  | .ls1Entry a0 => .ls1Entry a0
  | .ls2Entry a0 => .ls2Entry a0
  | .ls3Entry => .ls3Entry
  | .ls4Entry => .ls4Entry
  | .powerStateExit a0 => .powerStateExit a0
  | .retentionSleep a0 => .retentionSleep a0
  | .controlCoreWake a0 => .controlCoreWake a0
  | .lattolWrite a0 => .lattolWrite a0
  | .pwrlimitWrite a0 => .pwrlimitWrite a0
  | .readlog => .readlog
  | .report => .report
  | .readerr => .readerr
  | .stage => .stage
  | .badop => .badop
  | .mailboxCompletion => .mailboxCompletion
  | .evict a0 => .evict a0
  | .resume a0 => .resume a0
  | .skip a0 => .skip a0
  | .disable a0 => .disable a0
  | .qctlBadOperation a0 => .qctlBadOperation a0
  | .doorbell a0 a1 a2 a3 => .doorbell a0 a1 a2 a3
  | .svcimgWrite a0 => .svcimgWrite a0
  | .registerWrite a0 a1 => .registerWrite a0 a1
  | .priEnable a0 => .priEnable a0
  | .queueLoad a0 => .queueLoad a0
  | .queueSelect a0 => .queueSelect a0
  | .queueSliceExpiry a0 => .queueSliceExpiry a0
  | .nopPacket a0 => .nopPacket a0
  | .launchPacket a0 => .launchPacket a0
  | .copyPacket a0 => .copyPacket a0
  | .bmvPacket a0 => .bmvPacket a0
  | .signalPacket a0 => .signalPacket a0
  | .waitPacket a0 => .waitPacket a0
  | .waitPoll a0 => .waitPoll a0
  | .waitTimeout a0 => .waitTimeout a0
  | .writeSignalPacket a0 => .writeSignalPacket a0
  | .bindPacket a0 => .bindPacket a0
  | .unbindPacket a0 => .unbindPacket a0
  | .priStopMarker a0 => .priStopMarker a0
  | .customPacket a0 => .customPacket a0
  | .packetComplete a0 a1 => .packetComplete a0 a1
  | .coalescerHoldExpiry a0 => .coalescerHoldExpiry a0
  | .atsTranslationCompletion a0 => .atsTranslationCompletion a0
  | .pageRequestResponse a0 a1 => .pageRequestResponse a0 a1
  | .pageRequestTimeout a0 => .pageRequestTimeout a0
  | .atsInvalidateRequest a0 => .atsInvalidateRequest a0
  | .invalidationCompletion a0 => .invalidationCompletion a0
  | .rds a0 => .rds a0
  | .rdx a0 => .rdx a0
  | .upg a0 => .upg a0
  | .rdnc a0 => .rdnc a0
  | .wrnc a0 => .wrnc a0
  | .wrf a0 => .wrf a0
  | .atom a0 => .atom a0
  | .llk a0 => .llk a0
  | .sck a0 => .sck a0
  | .watch a0 => .watch a0
  | .eciMalformedRequest a0 => .eciMalformedRequest a0
  | .nodeMerge a0 a1 a2 a3 => .nodeMerge a0 a1 a2 a3
  | .replicaDrop a0 a1 => .replicaDrop a0 a1
  | .dramFill a0 a1 => .dramFill a0 a1
  | .replayRetry a0 => .replayRetry a0
  | .probeTimeout a0 a1 a2 => .probeTimeout a0 a1 a2
  | .sinv a0 => .sinv a0
  | .sshr a0 => .sshr a0
  | .sbinv a0 => .sbinv a0
  | .ds a0 => .ds a0
  | .de a0 => .de a0
  | .dm a0 => .dm a0
  | .gm a0 => .gm a0
  | .cmp a0 => .cmp a0
  | .atr a0 => .atr a0
  | .lkd a0 => .lkd a0
  | .scf a0 => .scf a0
  | .woke a0 => .woke a0
  | .rty a0 => .rty a0
  | .wba a0 => .wba a0
  | .wbx a0 => .wbx a0
  | .pack a0 => .pack a0
  | .pdat a0 => .pdat a0
  | .wbd a0 => .wbd a0
  | .evc a0 => .evc a0
  | .crd a0 => .crd a0
  | .l1BackgroundSweep a0 => .l1BackgroundSweep a0
  | .mcrd a0 => .mcrd a0
  | .mcrdWindowClose a0 a1 => .mcrdWindowClose a0 a1
  | .mcd a0 => .mcd a0
  | .spwr a0 => .spwr a0
  | .sprd a0 => .sprd a0
  | .spsy a0 => .spsy a0
  | .spsyResend a0 a1 => .spsyResend a0 a1
  | .spdat a0 => .spdat a0
  | .repl a0 => .repl a0
  | .rrec a0 => .rrec a0
  | .rdin a0 => .rdin a0
  | .rdrm a0 => .rdrm a0
  | .grant a0 => .grant a0
  | .alwRet a0 => .alwRet a0
  | .cret a0 => .cret a0
  | .dsack a0 => .dsack a0
  | .userMessage a0 => .userMessage a0
  | .dec a0 => .dec a0
  | .notice a0 => .notice a0
  | .dirsvc a0 => .dirsvc a0
  | .lreq a0 => .lreq a0
  | .lreqResend a0 a1 => .lreqResend a0 a1
  | .chunk a0 => .chunk a0
  | .deferredMessageRetry a0 => .deferredMessageRetry a0
  | .networkLinkRetry a0 a1 => .networkLinkRetry a0 a1
  | .regionRunnable a0 => .regionRunnable a0
  | .regionSliceExpiry a0 => .regionSliceExpiry a0
  | .regionEnd a0 => .regionEnd a0
  | .partitionHalt a0 a1 => .partitionHalt a0 a1
  | .contextSwap a0 => .contextSwap a0
  | .bayBackgroundWrite a0 => .bayBackgroundWrite a0
  | .rosterMultiplex a0 => .rosterMultiplex a0
  | .graceExpiry a0 => .graceExpiry a0
  | .heartbeatMiss a0 => .heartbeatMiss a0
  | .dispatch a0 => .dispatch a0
  | .waitLimitExpiry a0 => .waitLimitExpiry a0
  | .timerExpiry a0 => .timerExpiry a0
  | .interruptEntry a0 => .interruptEntry a0
  | .deferredPoison a0 => .deferredPoison a0
  | .flumeTransfer a0 a1 => .flumeTransfer a0 a1
  | .jobCardStart a0 a1 => .jobCardStart a0 a1
  | .copyJobComplete a0 a1 => .copyJobComplete a0 a1
  | .jobStatusFail a0 a1 => .jobStatusFail a0 a1
  | .sluiceOutletFire a0 a1 => .sluiceOutletFire a0 a1
  | .matrixRequestServe a0 => .matrixRequestServe a0
  | .matrixResultBind a0 a1 => .matrixResultBind a0 a1
  | .factorisationStepEnd a0 => .factorisationStepEnd a0
  | .mlongComplete a0 a1 => .mlongComplete a0 a1
  | .bmvJobStart a0 => .bmvJobStart a0
  | .xld a0 a1 a2 => .xld a0 a1 a2
  | .brun a0 a1 => .brun a0 a1
  | .bhalt a0 => .bhalt a0
  | .bres a0 => .bres a0
  | .prd a0 a1 a2 => .prd a0 a1 a2
  | .bankPassBatchEnd a0 => .bankPassBatchEnd a0
  | .bmvJobCompletion a0 => .bmvJobCompletion a0
  | .deadLetter a0 a1 => .deadLetter a0 a1
  | .dsdoneWaitLog a0 a1 => .dsdoneWaitLog a0 a1
  | .adapterRetry a0 => .adapterRetry a0
  | .supplyRecovery a0 => .supplyRecovery a0
  | .unrecoverableFailure a0 => .unrecoverableFailure a0

end Sys2Proof.Machine
end

