-- ==== Sys2Proof/Machine/Schedule.lean ====
section
/-!
DEFINITION. What happens next: the clocks that a core's turn advances (R3, R20, R210, R231), the choice among pending steps and
cores' turns, accesses of the host's own agents (R41), the combining of ADD requests (R158), and what settles after a step.
-/

namespace Sys2Proof.Machine

/-! ## A-cycles (R3, R127, R135, R143, R210, R231) -/

/-- One A-cycle of a thread in a slot: its counts advance, and what comes due is made pending. -/
def State.tickThread (s : State) (cycle : Nat) (tk : Nat) (t : Thread) : State :=
  match t.place with
  | .inSlot _ =>
    let wc := if t.st = .sync then t.waitcount + 1 else t.waitcount
    let armed : Bool := (s.valsOf (ckOfTk tk)).hbarm && !isService tk && (t.st == .ready || t.st == .long) && t.hbeatwin != 0
    let hb := if armed then t.hbeatwin - 1 else t.hbeatwin
    let pre := t.preempt.map (· - 1)
    let waits : Bool := t.st == .waitw || t.st == .sync || t.st == .pageWait
    let s := s.setThr tk { t with waitcount := wc, hbeatwin := hb, preempt := pre, missed := t.missed || (armed && hb == 0)
                                  waited := if waits then t.waited + 1 else 0 }
    let s := if t.st = .sync ∧ t.waitlimit ≠ 0 ∧ t.waitlimit.toNat ≤ wc then s.laterOnce (.waitLimitExpiry tk) else s
    let s := if armed ∧ hb = 0 then s.laterOnce (.heartbeatMiss tk) else s
    let s := if t.cyclecmp ≠ 0 ∧ t.cyclecmp.toNat ≤ cycle ∧ !t.timer then s.laterOnce (.timerExpiry tk) else s
    if pre = some 0 then s.laterOnce (.graceExpiry tk) else s
  | _ => s

/-- The slice of a resident region counts in its lowest-numbered resident partition's cluster (R127). -/
def State.tickRegion (s : State) (k : Nat) : State :=
  match (s.clu k).resident with
  | none => s
  | some key =>
    let r := key / 16
    match s.region r with
    | some x =>
      let lower := (List.range (key % 16)).any fun p => match s.context (16 * r + p) with
        | some c => c.cluster.isSome
        | none => false
      if lower then s
      else
        let s := s.modRegion r fun y => { y with used := y.used + 1 }
        if x.vals.slice ≤ x.used + 1 ∧ !x.expired then s.laterOnce (.regionSliceExpiry r) else s
    | none => s

/-- A stretched A-cycle is counted once the supply has recovered; 64 of them end the stretching (R21). -/
def State.tickStretch (s : State) (k : Nat) : State :=
  match (s.clu k).stretch with
  | some n =>
    if (s.clu k).low then s
    else
      let s := s.modClu k fun x => { x with stretch := some (n + 1) }
      if 64 ≤ n + 1 then s.laterOnce (.droopStretchEnd k) else s
  | none => s

/-- Every 2^14 A-cycles the scheduler acts on the cores whose rosters exceed their slots (R137). -/
def State.tickRosters (s : State) (k : Nat) : State :=
  if (s.clu k).cycle.toNat % 2 ^ 14 ≠ 0 then s
  else foldS (fun j (s : State) => match s.ckOfCore (4 * k + j) with
    | some ck =>
      if s.userSlots ck < (s.rosterUsers (4 * k + j)).length then
        (s.modCore (4 * k + j) fun x => { x with muxDue := true }).laterOnce (.rosterMultiplex ck)
      else s
    | none => s) (List.range 4) s

/-- One A-cycle of a cluster. -/
def State.tickCluster (s : State) (k : Nat) : State :=
  let s := s.modClu k fun x => { x with cycle := x.cycle + 1, acycles := x.acycles + 1 }
  let s := (s.tickStretch k).tickRosters k
  let cycle := (s.clu k).cycle.toNat
  let mine := s.threads.filterMap fun e => match e.2 with
    | some t => if s.coreOfThread t / 4 = k then some (e.1, t) else none
    | none => none
  (foldS (fun (e : Nat × Thread) s => s.tickThread cycle e.1 e.2) mine s).tickRegion k

/-- The cluster's counts advance: it is not power-gated, in reset or stopped (R3). They stop too after a device-fatal error, during the
sweep of a device reset, and in LS3 and LS4 (notes/assumptions/142.md). -/
def State.clusterCounts (s : State) (k : Nat) : Bool :=
  let x := s.clu k
  x.power != .ls2 && !x.resetting && !s.pow.fatal && !s.pow.sweeping && s.pow.dev == .ls0

/-- The core's clock runs, and the core is in service. -/
def State.coreRuns (s : State) (c : Nat) : Bool :=
  s.clusterCounts (c / 4) && (s.clu (c / 4)).power == .ls0 && !(s.core c).out

/-- A core's turn begins: its cluster's next A-cycle has come once a core of it takes its second turn in the present one. -/
def State.beginTurn (s : State) (c : Nat) : State :=
  let k := c / 4
  let s := if (s.core c).lastTurn = some (s.clu k).cycle.toNat then s.tickCluster k else s
  s.modCore c fun x => { x with lastTurn := some (s.clu k).cycle.toNat }

/-- A core's turn. -/
noncomputable def State.coreTurn (s : State) (c : Nat) : Host.Outcome State Fault Refusal :=
  if s.coreRuns c then
    let s := s.beginTurn c
    s.issueFirst c (s.candidates c)
  else if s.clusterCounts (c / 4) then .next (s.beginTurn c)
  else .next s

/-! ## Accesses of the host's agents (R41) -/

/-- A store of a host agent: performed in a line that it may write, else it waits at the line while the agent asks for ownership. One
store waits at a line at a time. -/
def State.hostWrite (s : State) (a line : Nat) (mask : BitVec 64) (d : Vec) : State :=
  let l := s.al a line
  if l.store.isSome then s else (s.setAl a line { l with store := some (mask, d) }).hostStore a line

/-! ## What the outside world and the timers that no clock of the model counts may cause (R3) -/

/-- Such a step (notes/assumptions/9.md); the device's own steps and the messages of its units are made pending by the steps before them. -/
def outsideStep : Ev → Bool
  | .powerOnReset | .deviceReset | .bootLayer _ | .clusterReset _ | .linkReset | .laneFault _ _ | .linkTrainTimeout | .channelFailure _ _ |
    .correctedError _ _ | .droopTrip _ | .supplyRecovery _ | .adapterRetry _ | .networkLinkRetry _ _ | .unrecoverableFailure _ |
    .lattolWrite _ | .pwrlimitWrite _ | .registerWrite _ _ | .svcimgWrite _ | .doorbell _ _ _ _ | .priEnable _ |
    .atsTranslationCompletion _ | .pageRequestResponse _ _ | .pageRequestTimeout _ | .atsInvalidateRequest _ | .nodeMerge _ _ _ _ |
    .replicaDrop _ _ | .probeTimeout _ _ _ | .l1BackgroundSweep _ | .dsdoneWaitLog _ _ => true
  | _ => false

/-- A request that a host agent sends of its own accord: those of its cache come from its loads and stores. -/
def hostRequest : Ev → Option Msg
  | .rdnc m | .wrnc m | .wrf m | .atom m | .llk m | .sck m | .watch m => if isEci m.src && !m.mark then some m else none
  | _ => none

/-- A host agent sends a malformed header, where a credit of its class is left. -/
def State.sendMalformed (s : State) (h : BitVec 128) : State :=
  let a := bits h.toNat 8 8
  let k := hostKey a (bits h.toNat 0 3)
  let n := Tbl.get 0 s.port.hostUsed k
  if n < hostLimit (bits h.toNat 0 3) then
    { (s.later (.eciMalformedRequest h)) with port := { s.port with hostUsed := Tbl.put 0 s.port.hostUsed k (n + 1) } }
  else s

/-- Data become uncorrectable at a site: they are marked poisoned, and the error is logged (R29, R30) (notes/assumptions/159.md). -/
def State.spoil (s : State) : Site → State
  | .dram line => ({ s with dramPoison := Tbl.put false s.dramPoison line true }).poisoned (.channel (s.channelOf line)) (word (64 * line))
  | .slice line =>
    let h := homeOf line
    match (s.sl h).data line with
    | some d => (s.modSl h fun x => x.putData line { d with poison := true }).poisoned (.slice h) (word (64 * line))
    | none => s
  | .agent a line =>
    let l := s.al a line
    if a < 64 ∧ (l.st.readable ∨ l.st = .xiA) then (s.setAl a line { l with poison := true }).poisoned (.core a) (word (64 * line)) else s
  | .pool ck k => match s.coreOfCk ck with
    | some c => (s.poolMark ck (8 * k) 8).poisoned (.core c) 0
    | none => s

/-! ## Combining (R158) -/

/-- Two pending ADD requests, each the oldest of its channel, combine into one: the first's header with both operands. -/
def combined (a b : Msg) : Option Msg :=
  let x := bytesAt (a.data.getD 0) 0 a.len
  let y := bytesAt (b.data.getD 0) 0 b.len
  if a.atop = 0 ∧ b.atop = 0 ∧ a.cel ∧ b.cel ∧ !a.cmb ∧ !b.cmb ∧ a.line = b.line ∧ a.off = b.off ∧ a.len = b.len ∧ a.dst = b.dst then
    some { a with cmb := true, cel := false, txid2 := b.txid, src2 := b.src
                  data := some (putBytes (putBytes 0 0 8 ((x + y) % 2 ^ (8 * a.len))) 8 8 x) }
  else none

def State.combine (s : State) (i j : Nat) : State :=
  match s.agenda[i]?, s.agenda[j]? with
  | some (.atom a), some (.atom b) =>
    if i = j ∨ oldestOf s.agenda i ≠ i ∨ oldestOf s.agenda j ≠ j then s
    else match combined a b with
      | some m => { s with agenda := (s.agenda.set i (.atom m)).eraseIdx j }
      | none => s
  | _, _ => s

/-! ## The next step -/

/-- Runs a pending step. -/
noncomputable def State.runEvent (s : State) (i : Nat) : Host.Outcome State Fault Refusal :=
  match s.agenda[i]? with
  | some e => exec (evInstr e) { s with agenda := s.agenda.eraseIdx i }
  | none => .next s

/-- What comes next when nothing is chosen: pending steps, oldest first, and cores' turns by number take turns. -/
noncomputable def State.autoStep (s : State) : Host.Outcome State Fault Refusal :=
  if s.flip ∧ !s.agenda.isEmpty then { s with flip := false }.runEvent 0
  else { s with flip := true, turn := (s.turn + 1) % 64 }.coreTurn s.turn

/-- One chosen step. Of a channel's messages the oldest comes first, whichever of them is chosen (R43). -/
noncomputable def State.choose (s : State) : Choice → Host.Outcome State Fault Refusal
  | .auto => s.autoStep
  | .ev i => s.runEvent (oldestOf s.agenda i)
  | .core c => s.coreTurn (c % 64)
  | .occur e => match hostRequest e with
    | some m => .next (s.agentSend m.src 0 e)
    | none => match e with
      | .eciMalformedRequest h => .next (s.sendMalformed h)
      | _ => if outsideStep e then exec (evInstr e) s else .next s
  | .hostLoad a line => .next (if isEci a ∧ !(s.al a line).st.readable then s.agentMiss a line false else s)
  | .hostStore a line m d => .next (if isEci a then s.hostWrite a line m d else s)
  | .hostDrop a line => .next (if isEci a ∧ (s.al a line).st.stable then s.replaceLine a line else s)
  | .uncorrectable site => .next (s.spoil site)
  | .fuseFault => .next { s with ctl := { s.ctl with fuseBad := true } }
  | .combine i j => .next (s.combine i j)

/-- One step: a choice of the schedule, or the automatic one, and what settles after it. -/
noncomputable def State.advance (s : State) : Host.Outcome State Fault Refusal :=
  let s := s.tickClock.tickCycles
  let r := match s.choices with
    | [] => s.autoStep
    | c :: rest => { s with choices := rest }.choose c
  match r with
  | .next s' => .next s'.settleStep
  | r => r

end Sys2Proof.Machine
end

