-- ==== Sys2Proof/Machine/Step.lean ====
section
/-!
DEFINITION. One step of the machine, and the state in which a given word is the next instruction of the service thread of core 0.
-/

namespace Sys2Proof.Machine

/-- One step of the machine. -/
noncomputable def step (s : State) : Host.Outcome State Fault Refusal := s.advance

/-- The state with a word placed where the next step fetches (notes/assumptions/6.md): the standby
contexts exist, the service thread of core 0 runs at address 0 in system mode, and the word's bytes stand there, followed by
zeros, in DRAM and in the core's instruction cache. Nothing else is pending and core 0 is next. -/
def State.withFetchWord (s : State) (_nbits w : Nat) : State :=
  let ck := mkCk standbyRegion 0
  let tk := mkTk ck 15
  let t : Thread := { pc := 0, priv := 1, place := .inSlot 15, roster := ck, threadId := 15 }
  { s with
    threads := Tbl.put none s.threads tk (some t)
    sched := { s.sched with standby := true, svcEn := true, svcBase := 0 }
    clusters := Tbl.put {} s.clusters 0 { s.clu 0 with resident := none, power := .ls0, resetting := false }
    cores := Tbl.put {} s.cores 0 { s.core 0 with icache := [(0, BitVec.ofNat 512 w)], lastSlot := 14, out := false }
    slices := Tbl.put {} s.slices 0 {}
    dram := putList s.dram 0 (leBytes 8 w)
    dramPoison := Tbl.put false s.dramPoison 0 false
    pow := { s.pow with fatal := false, dev := .ls0, top := max s.pow.top 1 }
    agenda := [], choices := [], turn := 0, flip := false }

end Sys2Proof.Machine
end

