-- ==== Sys2Proof/Laws/PerInstr.lean ====
section
/-!
SUPPORT. The round trip of the encoder and the decoder, one lemma for each instruction: the word that `encode` gives a well-formed
instruction decodes to that instruction. The device's steps have no word.
-/

namespace Sys2Proof.Laws

/-- Decoding the word of a well-formed instruction gives it back. -/
def RoundTrip.Statement (i : Instr) : Prop := ∀ w : Nat, encode i = some w → i.wf = true → decodeWord w = some i

theorem Ty.ofCode_code (t : Ty) : Ty.ofCode t.code = some t := by cases t <;> rfl
theorem Ty.code_lt (t : Ty) : t.code < 2 ^ 4 := by cases t <;> decide
theorem Scope.ofCode_code (t : Scope) : Scope.ofCode t.code = some t := by cases t <;> rfl
theorem Scope.code_lt (t : Scope) : t.code < 2 ^ 3 := by cases t <;> decide
theorem FenceKind.ofCode_code (t : FenceKind) : FenceKind.ofCode t.code = some t := by cases t <;> rfl
theorem FenceKind.code_lt (t : FenceKind) : t.code < 2 ^ 2 := by cases t <;> decide
theorem bitOf_lt (b : Bool) : bitOf b < 2 ^ 1 := by cases b <;> decide
theorem flag_bitOf (w lo : Nat) (b : Bool) (h : bits w lo 1 = bitOf b) : flag w lo = b := by
  unfold flag; rw [h]; cases b <;> rfl
theorem flag_mod (w lo : Nat) (b : Bool) (h : bits w lo 1 = bitOf b) : flag w lo = b := by
  unfold flag; rw [h]; cases b <;> rfl

/-- The number whose fields, lowest first, are a list of values and widths. -/
def digits : List (Nat × Nat) → Nat
  | [] => 0
  | (v, n) :: r => v % 2 ^ n + 2 ^ n * digits r

/-- The width of a list of fields. -/
def width : List (Nat × Nat) → Nat
  | [] => 0
  | (_, n) :: r => n + width r

theorem digits_lt (l : List (Nat × Nat)) : digits l < 2 ^ width l := by
  induction l with
  | nil => simp [digits, width]
  | cons e l ih =>
    obtain ⟨v, n⟩ := e
    simp only [digits, width, Nat.pow_add]
    have h1 := Nat.mod_lt v (Nat.two_pow_pos n)
    have h2 : 2 ^ n * (digits l + 1) ≤ 2 ^ n * 2 ^ width l := Nat.mul_le_mul_left _ ih
    rw [Nat.mul_add] at h2
    omega

theorem digits_append (a b : List (Nat × Nat)) : digits (a ++ b) = digits a + 2 ^ width a * digits b := by
  induction a with
  | nil => simp [digits, width]
  | cons e a ih =>
    obtain ⟨v, n⟩ := e
    simp only [List.cons_append, digits, width, ih, Nat.pow_add, Nat.mul_add, Nat.mul_assoc, Nat.add_assoc]

/-- The bits of a number at the place of some of its fields are those fields. -/
theorem bits_at {l : List (Nat × Nat)} {w lo n : Nat} (hw : w = digits l) (i j : Nat) (h1 : width (l.take i) = lo)
    (h2 : width ((l.drop i).take j) = n) : bits w lo n = digits ((l.drop i).take j) := by
  subst hw h1 h2
  have h : digits l = digits (l.take i ++ ((l.drop i).take j ++ (l.drop i).drop j)) := by
    rw [List.take_append_drop, List.take_append_drop]
  rw [h]
  unfold bits
  rw [digits_append, digits_append, Nat.add_mul_div_left _ _ (Nat.two_pow_pos _), Nat.div_eq_of_lt (digits_lt _), Nat.zero_add,
    Nat.add_mul_mod_self_left, Nat.mod_eq_of_lt (digits_lt _)]

/-- A decoded instruction that is well-formed passes the filter. -/
theorem decodeWord_of (w : Nat) (i : Instr) (h : decodeRaw w = some i) (hwf : i.wf = true) : decodeWord w = some i := by
  simp [decodeWord, h, hwf]

theorem decodeRaw_C01 (w : Nat) (h : bits w 24 7 = 1) : decodeRaw w = decC01 w := by
  unfold decodeRaw; rw [h]; rfl
theorem decodeRaw_C02 (w : Nat) (h : bits w 24 7 = 2) : decodeRaw w = decC02 w := by
  unfold decodeRaw; rw [h]; rfl
theorem decodeRaw_C03 (w : Nat) (h : bits w 24 7 = 3) : decodeRaw w = decC03 w := by
  unfold decodeRaw; rw [h]; rfl
theorem decodeRaw_C04 (w : Nat) (h : bits w 24 7 = 4) : decodeRaw w = decC04 w := by
  unfold decodeRaw; rw [h]; rfl
theorem decodeRaw_C05 (w : Nat) (h : bits w 24 7 = 5) : decodeRaw w = decC05 w := by
  unfold decodeRaw; rw [h]; rfl
theorem decodeRaw_C06 (w : Nat) (h : bits w 24 7 = 6) : decodeRaw w = decC06 w := by
  unfold decodeRaw; rw [h]; rfl
theorem decodeRaw_C07 (w : Nat) (h : bits w 24 7 = 7) : decodeRaw w = decC07 w := by
  unfold decodeRaw; rw [h]; rfl
theorem decodeRaw_C08 (w : Nat) (h : bits w 24 7 = 8) : decodeRaw w = decC08 w := by
  unfold decodeRaw; rw [h]; rfl
theorem decodeRaw_C09 (w : Nat) (h : bits w 24 7 = 9) : decodeRaw w = decC09 w := by
  unfold decodeRaw; rw [h]; rfl
theorem decodeRaw_C0A (w : Nat) (h : bits w 24 7 = 10) : decodeRaw w = decC0A w := by
  unfold decodeRaw; rw [h]; rfl
theorem decodeRaw_C0B (w : Nat) (h : bits w 24 7 = 11) : decodeRaw w = decC0B w := by
  unfold decodeRaw; rw [h]; rfl
theorem decodeRaw_C0E (w : Nat) (h : bits w 24 7 = 14) : decodeRaw w = decC0E w := by
  unfold decodeRaw; rw [h]; rfl
theorem decodeRaw_C0C (w : Nat) (h : bits w 24 7 = 12) : decodeRaw w = decC0C w := by
  unfold decodeRaw; rw [h]; rfl
theorem decodeRaw_C0D (w : Nat) (h : bits w 24 7 = 13) : decodeRaw w = decC0D w := by
  unfold decodeRaw; rw [h]; rfl
theorem decodeRaw_C10 (w : Nat) (h : bits w 24 7 = 16) : decodeRaw w = decC10 w := by
  unfold decodeRaw; rw [h]; rfl
theorem decodeRaw_C11 (w : Nat) (h : bits w 24 7 = 17) : decodeRaw w = decC11 w := by
  unfold decodeRaw; rw [h]; rfl
theorem decodeRaw_C12 (w : Nat) (h : bits w 24 7 = 18) : decodeRaw w = decC12 w := by
  unfold decodeRaw; rw [h]; rfl
theorem decodeRaw_C13 (w : Nat) (h : bits w 24 7 = 19) : decodeRaw w = decC13 w := by
  unfold decodeRaw; rw [h]; rfl
theorem decodeRaw_C14 (w : Nat) (h : bits w 24 7 = 20) : decodeRaw w = decC14 w := by
  unfold decodeRaw; rw [h]; rfl
theorem decodeRaw_C15 (w : Nat) (h : bits w 24 7 = 21) : decodeRaw w = decC15 w := by
  unfold decodeRaw; rw [h]; rfl
theorem decodeRaw_C16 (w : Nat) (h : bits w 24 7 = 22) : decodeRaw w = decC16 w := by
  unfold decodeRaw; rw [h]; rfl
theorem decodeRaw_C17 (w : Nat) (h : bits w 24 7 = 23) : decodeRaw w = decC17 w := by
  unfold decodeRaw; rw [h]; rfl
theorem decodeRaw_C18 (w : Nat) (h : bits w 24 7 = 24) : decodeRaw w = decC18 w := by
  unfold decodeRaw; rw [h]; rfl
theorem decodeRaw_C19 (w : Nat) (h : bits w 24 7 = 25) : decodeRaw w = decC19 w := by
  unfold decodeRaw; rw [h]; rfl
theorem decodeRaw_C1A (w : Nat) (h : bits w 24 7 = 26) : decodeRaw w = decC1A w := by
  unfold decodeRaw; rw [h]; rfl
theorem decodeRaw_C1B (w : Nat) (h : bits w 24 7 = 27) : decodeRaw w = decC1B w := by
  unfold decodeRaw; rw [h]; rfl
theorem decodeRaw_C1C (w : Nat) (h : bits w 24 7 = 28) : decodeRaw w = decC1C w := by
  unfold decodeRaw; rw [h]; rfl
theorem decodeRaw_C1D (w : Nat) (h : bits w 24 7 = 29) : decodeRaw w = decC1D w := by
  unfold decodeRaw; rw [h]; rfl
theorem decodeRaw_C1E (w : Nat) (h : bits w 24 7 = 30) : decodeRaw w = decC1E w := by
  unfold decodeRaw; rw [h]; rfl
theorem decodeRaw_C1F (w : Nat) (h : bits w 24 7 = 31) : decodeRaw w = decC1F w := by
  unfold decodeRaw; rw [h]; rfl
theorem decodeRaw_C20 (w : Nat) (h : bits w 24 7 = 32) : decodeRaw w = decC20 w := by
  unfold decodeRaw; rw [h]; rfl
theorem decodeRaw_C21 (w : Nat) (h : bits w 24 7 = 33) : decodeRaw w = decC21 w := by
  unfold decodeRaw; rw [h]; rfl
theorem decodeRaw_C22 (w : Nat) (h : bits w 24 7 = 34) : decodeRaw w = decC22 w := by
  unfold decodeRaw; rw [h]; rfl
theorem decodeRaw_C23 (w : Nat) (h : bits w 24 7 = 35) : decodeRaw w = decC23 w := by
  unfold decodeRaw; rw [h]; rfl
theorem decodeRaw_C24 (w : Nat) (h : bits w 24 7 = 36) : decodeRaw w = decC24 w := by
  unfold decodeRaw; rw [h]; rfl
theorem decodeRaw_C25 (w : Nat) (h : bits w 24 7 = 37) : decodeRaw w = decC25 w := by
  unfold decodeRaw; rw [h]; rfl
theorem decodeRaw_C2C (w : Nat) (h : bits w 24 7 = 44) : decodeRaw w = decC2C w := by
  unfold decodeRaw; rw [h]; rfl
theorem decodeRaw_C2D (w : Nat) (h : bits w 24 7 = 45) : decodeRaw w = decC2D w := by
  unfold decodeRaw; rw [h]; rfl
theorem decodeRaw_C2E (w : Nat) (h : bits w 24 7 = 46) : decodeRaw w = decC2E w := by
  unfold decodeRaw; rw [h]; rfl
theorem decodeRaw_C2F (w : Nat) (h : bits w 24 7 = 47) : decodeRaw w = decC2F w := by
  unfold decodeRaw; rw [h]; rfl
theorem decodeRaw_C30 (w : Nat) (h : bits w 24 7 = 48) : decodeRaw w = decC30 w := by
  unfold decodeRaw; rw [h]; rfl
theorem decodeRaw_C31 (w : Nat) (h : bits w 24 7 = 49) : decodeRaw w = decC31 w := by
  unfold decodeRaw; rw [h]; rfl
theorem decodeRaw_C32 (w : Nat) (h : bits w 24 7 = 50) : decodeRaw w = decC32 w := by
  unfold decodeRaw; rw [h]; rfl
theorem decodeRaw_A00 (w : Nat) (h : bits w 24 7 = 64) : decodeRaw w = decA00 w := by
  unfold decodeRaw; rw [h]; rfl
theorem decodeRaw_A01 (w : Nat) (h : bits w 24 7 = 65) : decodeRaw w = decA01 w := by
  unfold decodeRaw; rw [h]; rfl
theorem decodeRaw_A02 (w : Nat) (h : bits w 24 7 = 66) : decodeRaw w = decA02 w := by
  unfold decodeRaw; rw [h]; rfl
theorem decodeRaw_A03 (w : Nat) (h : bits w 24 7 = 67) : decodeRaw w = decA03 w := by
  unfold decodeRaw; rw [h]; rfl
theorem decodeRaw_A04 (w : Nat) (h : bits w 24 7 = 68) : decodeRaw w = decA04 w := by
  unfold decodeRaw; rw [h]; rfl
theorem decodeRaw_A05 (w : Nat) (h : bits w 24 7 = 69) : decodeRaw w = decA05 w := by
  unfold decodeRaw; rw [h]; rfl
theorem decodeRaw_A06 (w : Nat) (h : bits w 24 7 = 70) : decodeRaw w = decA06 w := by
  unfold decodeRaw; rw [h]; rfl
theorem decodeRaw_A07 (w : Nat) (h : bits w 24 7 = 71) : decodeRaw w = decA07 w := by
  unfold decodeRaw; rw [h]; rfl
theorem decodeRaw_A08 (w : Nat) (h : bits w 24 7 = 72) : decodeRaw w = decA08 w := by
  unfold decodeRaw; rw [h]; rfl
theorem decodeRaw_A09 (w : Nat) (h : bits w 24 7 = 73) : decodeRaw w = decA09 w := by
  unfold decodeRaw; rw [h]; rfl
theorem decodeRaw_A0A (w : Nat) (h : bits w 24 7 = 74) : decodeRaw w = decA0A w := by
  unfold decodeRaw; rw [h]; rfl
theorem decodeRaw_A0B (w : Nat) (h : bits w 24 7 = 75) : decodeRaw w = decA0B w := by
  unfold decodeRaw; rw [h]; rfl
theorem decodeRaw_A10 (w : Nat) (h : bits w 24 7 = 80) : decodeRaw w = decA10 w := by
  unfold decodeRaw; rw [h]; rfl
theorem decodeRaw_A11 (w : Nat) (h : bits w 24 7 = 81) : decodeRaw w = decA11 w := by
  unfold decodeRaw; rw [h]; rfl
theorem decodeRaw_A12 (w : Nat) (h : bits w 24 7 = 82) : decodeRaw w = decA12 w := by
  unfold decodeRaw; rw [h]; rfl
theorem decodeRaw_A13 (w : Nat) (h : bits w 24 7 = 83) : decodeRaw w = decA13 w := by
  unfold decodeRaw; rw [h]; rfl
theorem decodeRaw_A14 (w : Nat) (h : bits w 24 7 = 84) : decodeRaw w = decA14 w := by
  unfold decodeRaw; rw [h]; rfl
theorem decodeRaw_A15 (w : Nat) (h : bits w 24 7 = 85) : decodeRaw w = decA15 w := by
  unfold decodeRaw; rw [h]; rfl
theorem decodeRaw_A16 (w : Nat) (h : bits w 24 7 = 86) : decodeRaw w = decA16 w := by
  unfold decodeRaw; rw [h]; rfl
theorem decodeRaw_A17 (w : Nat) (h : bits w 24 7 = 87) : decodeRaw w = decA17 w := by
  unfold decodeRaw; rw [h]; rfl
theorem decodeRaw_A18 (w : Nat) (h : bits w 24 7 = 88) : decodeRaw w = decA18 w := by
  unfold decodeRaw; rw [h]; rfl
theorem decodeRaw_A19 (w : Nat) (h : bits w 24 7 = 89) : decodeRaw w = decA19 w := by
  unfold decodeRaw; rw [h]; rfl
theorem decodeRaw_A1A (w : Nat) (h : bits w 24 7 = 90) : decodeRaw w = decA1A w := by
  unfold decodeRaw; rw [h]; rfl
theorem decodeRaw_A1B (w : Nat) (h : bits w 24 7 = 91) : decodeRaw w = decA1B w := by
  unfold decodeRaw; rw [h]; rfl
theorem decodeRaw_A1C (w : Nat) (h : bits w 24 7 = 92) : decodeRaw w = decA1C w := by
  unfold decodeRaw; rw [h]; rfl
theorem decodeRaw_A1D (w : Nat) (h : bits w 24 7 = 93) : decodeRaw w = decA1D w := by
  unfold decodeRaw; rw [h]; rfl
theorem decodeRaw_A1E (w : Nat) (h : bits w 24 7 = 94) : decodeRaw w = decA1E w := by
  unfold decodeRaw; rw [h]; rfl
theorem decodeRaw_A1F (w : Nat) (h : bits w 24 7 = 95) : decodeRaw w = decA1F w := by
  unfold decodeRaw; rw [h]; rfl
theorem decodeRaw_A20 (w : Nat) (h : bits w 24 7 = 96) : decodeRaw w = decA20 w := by
  unfold decodeRaw; rw [h]; rfl
theorem decodeRaw_A21 (w : Nat) (h : bits w 24 7 = 97) : decodeRaw w = decA21 w := by
  unfold decodeRaw; rw [h]; rfl
theorem decodeRaw_A22 (w : Nat) (h : bits w 24 7 = 98) : decodeRaw w = decA22 w := by
  unfold decodeRaw; rw [h]; rfl
theorem decodeRaw_A23 (w : Nat) (h : bits w 24 7 = 99) : decodeRaw w = decA23 w := by
  unfold decodeRaw; rw [h]; rfl
theorem decodeRaw_A24 (w : Nat) (h : bits w 24 7 = 100) : decodeRaw w = decA24 w := by
  unfold decodeRaw; rw [h]; rfl
theorem decodeRaw_A25 (w : Nat) (h : bits w 24 7 = 101) : decodeRaw w = decA25 w := by
  unfold decodeRaw; rw [h]; rfl
theorem decodeRaw_A26 (w : Nat) (h : bits w 24 7 = 102) : decodeRaw w = decA26 w := by
  unfold decodeRaw; rw [h]; rfl
theorem decodeRaw_A27 (w : Nat) (h : bits w 24 7 = 103) : decodeRaw w = decA27 w := by
  unfold decodeRaw; rw [h]; rfl
theorem decodeRaw_A28 (w : Nat) (h : bits w 24 7 = 104) : decodeRaw w = decA28 w := by
  unfold decodeRaw; rw [h]; rfl
theorem decodeRaw_A29 (w : Nat) (h : bits w 24 7 = 105) : decodeRaw w = decA29 w := by
  unfold decodeRaw; rw [h]; rfl
theorem decodeRaw_A2A (w : Nat) (h : bits w 24 7 = 106) : decodeRaw w = decA2A w := by
  unfold decodeRaw; rw [h]; rfl
theorem decodeRaw_A2B (w : Nat) (h : bits w 24 7 = 107) : decodeRaw w = decA2B w := by
  unfold decodeRaw; rw [h]; rfl
theorem decodeRaw_A2C (w : Nat) (h : bits w 24 7 = 108) : decodeRaw w = decA2C w := by
  unfold decodeRaw; rw [h]; rfl
theorem decodeRaw_A38 (w : Nat) (h : bits w 24 7 = 120) : decodeRaw w = decA38 w := by
  unfold decodeRaw; rw [h]; rfl
theorem decodeRaw_A39 (w : Nat) (h : bits w 24 7 = 121) : decodeRaw w = decA39 w := by
  unfold decodeRaw; rw [h]; rfl
theorem decodeRaw_A3A (w : Nat) (h : bits w 24 7 = 122) : decodeRaw w = decA3A w := by
  unfold decodeRaw; rw [h]; rfl
theorem decodeRaw_A3B (w : Nat) (h : bits w 24 7 = 123) : decodeRaw w = decA3B w := by
  unfold decodeRaw; rw [h]; rfl

theorem RoundTrip.beq (p : Bool) (a : BitVec 5) (b : BitVec 5) (o : BitVec 11) : RoundTrip.Statement (.beq p a b o) := by
  intro w hw hwf
  have enc : 16777216 + bitOf p * 2 ^ 31 + a.toNat * 2 ^ 19 + b.toNat * 2 ^ 14 + o.toNat * 2 ^ 0 = w := Option.some.inj hw
  have hw : w = digits [(o.toNat, 11), (0, 3), (b.toNat, 5), (a.toNat, 5), (1, 7), (bitOf p, 1)] := by
    simp only [digits, Nat.mod_eq_of_lt (bitOf_lt p), Nat.mod_eq_of_lt (a.isLt), Nat.mod_eq_of_lt (b.isLt), Nat.mod_eq_of_lt (o.isLt)]; omega
  have mj : bits w 24 7 = 1 := (bits_at hw 4 1 rfl rfl)
  have f0 : bits w 0 11 = o.toNat := (bits_at hw 0 1 rfl rfl).trans (Nat.mod_eq_of_lt (o.isLt))
  have f1 : bits w 11 3 = 0 := (bits_at hw 1 1 rfl rfl)
  have f2 : bits w 14 5 = b.toNat := (bits_at hw 2 1 rfl rfl).trans (Nat.mod_eq_of_lt (b.isLt))
  have f3 : bits w 19 5 = a.toNat := (bits_at hw 3 1 rfl rfl).trans (Nat.mod_eq_of_lt (a.isLt))
  have g4 : bits w 31 1 = bitOf p := (bits_at hw 5 1 rfl rfl).trans (Nat.mod_eq_of_lt (bitOf_lt p))
  have f4 : flag w 31 = p := flag_mod w 31 p g4
  apply decodeWord_of _ _ _ hwf
  rw [decodeRaw_C01 w mj]
  simp [decC01, f0, f1, f2, f3, f4]

theorem RoundTrip.bne (p : Bool) (a : BitVec 5) (b : BitVec 5) (o : BitVec 11) : RoundTrip.Statement (.bne p a b o) := by
  intro w hw hwf
  have enc : 16779264 + bitOf p * 2 ^ 31 + a.toNat * 2 ^ 19 + b.toNat * 2 ^ 14 + o.toNat * 2 ^ 0 = w := Option.some.inj hw
  have hw : w = digits [(o.toNat, 11), (1, 3), (b.toNat, 5), (a.toNat, 5), (1, 7), (bitOf p, 1)] := by
    simp only [digits, Nat.mod_eq_of_lt (bitOf_lt p), Nat.mod_eq_of_lt (a.isLt), Nat.mod_eq_of_lt (b.isLt), Nat.mod_eq_of_lt (o.isLt)]; omega
  have mj : bits w 24 7 = 1 := (bits_at hw 4 1 rfl rfl)
  have f0 : bits w 0 11 = o.toNat := (bits_at hw 0 1 rfl rfl).trans (Nat.mod_eq_of_lt (o.isLt))
  have f1 : bits w 11 3 = 1 := (bits_at hw 1 1 rfl rfl)
  have f2 : bits w 14 5 = b.toNat := (bits_at hw 2 1 rfl rfl).trans (Nat.mod_eq_of_lt (b.isLt))
  have f3 : bits w 19 5 = a.toNat := (bits_at hw 3 1 rfl rfl).trans (Nat.mod_eq_of_lt (a.isLt))
  have g4 : bits w 31 1 = bitOf p := (bits_at hw 5 1 rfl rfl).trans (Nat.mod_eq_of_lt (bitOf_lt p))
  have f4 : flag w 31 = p := flag_mod w 31 p g4
  apply decodeWord_of _ _ _ hwf
  rw [decodeRaw_C01 w mj]
  simp [decC01, f0, f1, f2, f3, f4]

theorem RoundTrip.blt (p : Bool) (a : BitVec 5) (b : BitVec 5) (o : BitVec 11) : RoundTrip.Statement (.blt p a b o) := by
  intro w hw hwf
  have enc : 16781312 + bitOf p * 2 ^ 31 + a.toNat * 2 ^ 19 + b.toNat * 2 ^ 14 + o.toNat * 2 ^ 0 = w := Option.some.inj hw
  have hw : w = digits [(o.toNat, 11), (2, 3), (b.toNat, 5), (a.toNat, 5), (1, 7), (bitOf p, 1)] := by
    simp only [digits, Nat.mod_eq_of_lt (bitOf_lt p), Nat.mod_eq_of_lt (a.isLt), Nat.mod_eq_of_lt (b.isLt), Nat.mod_eq_of_lt (o.isLt)]; omega
  have mj : bits w 24 7 = 1 := (bits_at hw 4 1 rfl rfl)
  have f0 : bits w 0 11 = o.toNat := (bits_at hw 0 1 rfl rfl).trans (Nat.mod_eq_of_lt (o.isLt))
  have f1 : bits w 11 3 = 2 := (bits_at hw 1 1 rfl rfl)
  have f2 : bits w 14 5 = b.toNat := (bits_at hw 2 1 rfl rfl).trans (Nat.mod_eq_of_lt (b.isLt))
  have f3 : bits w 19 5 = a.toNat := (bits_at hw 3 1 rfl rfl).trans (Nat.mod_eq_of_lt (a.isLt))
  have g4 : bits w 31 1 = bitOf p := (bits_at hw 5 1 rfl rfl).trans (Nat.mod_eq_of_lt (bitOf_lt p))
  have f4 : flag w 31 = p := flag_mod w 31 p g4
  apply decodeWord_of _ _ _ hwf
  rw [decodeRaw_C01 w mj]
  simp [decC01, f0, f1, f2, f3, f4]

theorem RoundTrip.bge (p : Bool) (a : BitVec 5) (b : BitVec 5) (o : BitVec 11) : RoundTrip.Statement (.bge p a b o) := by
  intro w hw hwf
  have enc : 16783360 + bitOf p * 2 ^ 31 + a.toNat * 2 ^ 19 + b.toNat * 2 ^ 14 + o.toNat * 2 ^ 0 = w := Option.some.inj hw
  have hw : w = digits [(o.toNat, 11), (3, 3), (b.toNat, 5), (a.toNat, 5), (1, 7), (bitOf p, 1)] := by
    simp only [digits, Nat.mod_eq_of_lt (bitOf_lt p), Nat.mod_eq_of_lt (a.isLt), Nat.mod_eq_of_lt (b.isLt), Nat.mod_eq_of_lt (o.isLt)]; omega
  have mj : bits w 24 7 = 1 := (bits_at hw 4 1 rfl rfl)
  have f0 : bits w 0 11 = o.toNat := (bits_at hw 0 1 rfl rfl).trans (Nat.mod_eq_of_lt (o.isLt))
  have f1 : bits w 11 3 = 3 := (bits_at hw 1 1 rfl rfl)
  have f2 : bits w 14 5 = b.toNat := (bits_at hw 2 1 rfl rfl).trans (Nat.mod_eq_of_lt (b.isLt))
  have f3 : bits w 19 5 = a.toNat := (bits_at hw 3 1 rfl rfl).trans (Nat.mod_eq_of_lt (a.isLt))
  have g4 : bits w 31 1 = bitOf p := (bits_at hw 5 1 rfl rfl).trans (Nat.mod_eq_of_lt (bitOf_lt p))
  have f4 : flag w 31 = p := flag_mod w 31 p g4
  apply decodeWord_of _ _ _ hwf
  rw [decodeRaw_C01 w mj]
  simp [decC01, f0, f1, f2, f3, f4]

theorem RoundTrip.bltu (p : Bool) (a : BitVec 5) (b : BitVec 5) (o : BitVec 11) : RoundTrip.Statement (.bltu p a b o) := by
  intro w hw hwf
  have enc : 16785408 + bitOf p * 2 ^ 31 + a.toNat * 2 ^ 19 + b.toNat * 2 ^ 14 + o.toNat * 2 ^ 0 = w := Option.some.inj hw
  have hw : w = digits [(o.toNat, 11), (4, 3), (b.toNat, 5), (a.toNat, 5), (1, 7), (bitOf p, 1)] := by
    simp only [digits, Nat.mod_eq_of_lt (bitOf_lt p), Nat.mod_eq_of_lt (a.isLt), Nat.mod_eq_of_lt (b.isLt), Nat.mod_eq_of_lt (o.isLt)]; omega
  have mj : bits w 24 7 = 1 := (bits_at hw 4 1 rfl rfl)
  have f0 : bits w 0 11 = o.toNat := (bits_at hw 0 1 rfl rfl).trans (Nat.mod_eq_of_lt (o.isLt))
  have f1 : bits w 11 3 = 4 := (bits_at hw 1 1 rfl rfl)
  have f2 : bits w 14 5 = b.toNat := (bits_at hw 2 1 rfl rfl).trans (Nat.mod_eq_of_lt (b.isLt))
  have f3 : bits w 19 5 = a.toNat := (bits_at hw 3 1 rfl rfl).trans (Nat.mod_eq_of_lt (a.isLt))
  have g4 : bits w 31 1 = bitOf p := (bits_at hw 5 1 rfl rfl).trans (Nat.mod_eq_of_lt (bitOf_lt p))
  have f4 : flag w 31 = p := flag_mod w 31 p g4
  apply decodeWord_of _ _ _ hwf
  rw [decodeRaw_C01 w mj]
  simp [decC01, f0, f1, f2, f3, f4]

theorem RoundTrip.bgeu (p : Bool) (a : BitVec 5) (b : BitVec 5) (o : BitVec 11) : RoundTrip.Statement (.bgeu p a b o) := by
  intro w hw hwf
  have enc : 16787456 + bitOf p * 2 ^ 31 + a.toNat * 2 ^ 19 + b.toNat * 2 ^ 14 + o.toNat * 2 ^ 0 = w := Option.some.inj hw
  have hw : w = digits [(o.toNat, 11), (5, 3), (b.toNat, 5), (a.toNat, 5), (1, 7), (bitOf p, 1)] := by
    simp only [digits, Nat.mod_eq_of_lt (bitOf_lt p), Nat.mod_eq_of_lt (a.isLt), Nat.mod_eq_of_lt (b.isLt), Nat.mod_eq_of_lt (o.isLt)]; omega
  have mj : bits w 24 7 = 1 := (bits_at hw 4 1 rfl rfl)
  have f0 : bits w 0 11 = o.toNat := (bits_at hw 0 1 rfl rfl).trans (Nat.mod_eq_of_lt (o.isLt))
  have f1 : bits w 11 3 = 5 := (bits_at hw 1 1 rfl rfl)
  have f2 : bits w 14 5 = b.toNat := (bits_at hw 2 1 rfl rfl).trans (Nat.mod_eq_of_lt (b.isLt))
  have f3 : bits w 19 5 = a.toNat := (bits_at hw 3 1 rfl rfl).trans (Nat.mod_eq_of_lt (a.isLt))
  have g4 : bits w 31 1 = bitOf p := (bits_at hw 5 1 rfl rfl).trans (Nat.mod_eq_of_lt (bitOf_lt p))
  have f4 : flag w 31 = p := flag_mod w 31 p g4
  apply decodeWord_of _ _ _ hwf
  rw [decodeRaw_C01 w mj]
  simp [decC01, f0, f1, f2, f3, f4]

theorem RoundTrip.bdec (p : Bool) (a : BitVec 5) (n : BitVec 8) (o : BitVec 11) : RoundTrip.Statement (.bdec p a n o) := by
  intro w hw hwf
  have enc : 33554432 + bitOf p * 2 ^ 31 + a.toNat * 2 ^ 19 + n.toNat * 2 ^ 11 + o.toNat * 2 ^ 0 = w := Option.some.inj hw
  have hw : w = digits [(o.toNat, 11), (n.toNat, 8), (a.toNat, 5), (2, 7), (bitOf p, 1)] := by
    simp only [digits, Nat.mod_eq_of_lt (bitOf_lt p), Nat.mod_eq_of_lt (a.isLt), Nat.mod_eq_of_lt (n.isLt), Nat.mod_eq_of_lt (o.isLt)]; omega
  have mj : bits w 24 7 = 2 := (bits_at hw 3 1 rfl rfl)
  have f0 : bits w 0 11 = o.toNat := (bits_at hw 0 1 rfl rfl).trans (Nat.mod_eq_of_lt (o.isLt))
  have f1 : bits w 11 8 = n.toNat := (bits_at hw 1 1 rfl rfl).trans (Nat.mod_eq_of_lt (n.isLt))
  have f2 : bits w 19 5 = a.toNat := (bits_at hw 2 1 rfl rfl).trans (Nat.mod_eq_of_lt (a.isLt))
  have g3 : bits w 31 1 = bitOf p := (bits_at hw 4 1 rfl rfl).trans (Nat.mod_eq_of_lt (bitOf_lt p))
  have f3 : flag w 31 = p := flag_mod w 31 p g3
  apply decodeWord_of _ _ _ hwf
  rw [decodeRaw_C02 w mj]
  simp [decC02, f0, f1, f2, f3]

theorem RoundTrip.btagf (p : Bool) (a : BitVec 5) (o : BitVec 11) : RoundTrip.Statement (.btagf p a o) := by
  intro w hw hwf
  have enc : 50331648 + bitOf p * 2 ^ 31 + a.toNat * 2 ^ 19 + o.toNat * 2 ^ 0 = w := Option.some.inj hw
  have hw : w = digits [(o.toNat, 11), (0, 8), (a.toNat, 5), (3, 7), (bitOf p, 1)] := by
    simp only [digits, Nat.mod_eq_of_lt (bitOf_lt p), Nat.mod_eq_of_lt (a.isLt), Nat.mod_eq_of_lt (o.isLt)]; omega
  have mj : bits w 24 7 = 3 := (bits_at hw 3 1 rfl rfl)
  have f0 : bits w 0 11 = o.toNat := (bits_at hw 0 1 rfl rfl).trans (Nat.mod_eq_of_lt (o.isLt))
  have f1 : bits w 11 8 = 0 := (bits_at hw 1 1 rfl rfl)
  have f2 : bits w 19 5 = a.toNat := (bits_at hw 2 1 rfl rfl).trans (Nat.mod_eq_of_lt (a.isLt))
  have g3 : bits w 31 1 = bitOf p := (bits_at hw 4 1 rfl rfl).trans (Nat.mod_eq_of_lt (bitOf_lt p))
  have f3 : flag w 31 = p := flag_mod w 31 p g3
  apply decodeWord_of _ _ _ hwf
  rw [decodeRaw_C03 w mj]
  simp [decC03, f0, f1, f2, f3]

theorem RoundTrip.btage (p : Bool) (a : BitVec 5) (o : BitVec 11) : RoundTrip.Statement (.btage p a o) := by
  intro w hw hwf
  have enc : 50333696 + bitOf p * 2 ^ 31 + a.toNat * 2 ^ 19 + o.toNat * 2 ^ 0 = w := Option.some.inj hw
  have hw : w = digits [(o.toNat, 11), (1, 8), (a.toNat, 5), (3, 7), (bitOf p, 1)] := by
    simp only [digits, Nat.mod_eq_of_lt (bitOf_lt p), Nat.mod_eq_of_lt (a.isLt), Nat.mod_eq_of_lt (o.isLt)]; omega
  have mj : bits w 24 7 = 3 := (bits_at hw 3 1 rfl rfl)
  have f0 : bits w 0 11 = o.toNat := (bits_at hw 0 1 rfl rfl).trans (Nat.mod_eq_of_lt (o.isLt))
  have f1 : bits w 11 8 = 1 := (bits_at hw 1 1 rfl rfl)
  have f2 : bits w 19 5 = a.toNat := (bits_at hw 2 1 rfl rfl).trans (Nat.mod_eq_of_lt (a.isLt))
  have g3 : bits w 31 1 = bitOf p := (bits_at hw 4 1 rfl rfl).trans (Nat.mod_eq_of_lt (bitOf_lt p))
  have f3 : flag w 31 = p := flag_mod w 31 p g3
  apply decodeWord_of _ _ _ hwf
  rw [decodeRaw_C03 w mj]
  simp [decC03, f0, f1, f2, f3]

theorem RoundTrip.bany (p : Bool) (a : BitVec 3) (o : BitVec 11) : RoundTrip.Statement (.bany p a o) := by
  intro w hw hwf
  have enc : 67108864 + bitOf p * 2 ^ 31 + a.toNat * 2 ^ 19 + o.toNat * 2 ^ 0 = w := Option.some.inj hw
  have hw : w = digits [(o.toNat, 11), (0, 8), (a.toNat, 3), (0, 2), (4, 7), (bitOf p, 1)] := by
    simp only [digits, Nat.mod_eq_of_lt (bitOf_lt p), Nat.mod_eq_of_lt (a.isLt), Nat.mod_eq_of_lt (o.isLt)]; omega
  have mj : bits w 24 7 = 4 := (bits_at hw 4 1 rfl rfl)
  have f0 : bits w 0 11 = o.toNat := (bits_at hw 0 1 rfl rfl).trans (Nat.mod_eq_of_lt (o.isLt))
  have f1 : bits w 11 8 = 0 := (bits_at hw 1 1 rfl rfl)
  have f2 : bits w 19 3 = a.toNat := (bits_at hw 2 1 rfl rfl).trans (Nat.mod_eq_of_lt (a.isLt))
  have f3 : bits w 22 2 = 0 := (bits_at hw 3 1 rfl rfl)
  have g4 : bits w 31 1 = bitOf p := (bits_at hw 5 1 rfl rfl).trans (Nat.mod_eq_of_lt (bitOf_lt p))
  have f4 : flag w 31 = p := flag_mod w 31 p g4
  apply decodeWord_of _ _ _ hwf
  rw [decodeRaw_C04 w mj]
  simp [decC04, f0, f1, f2, f3, f4]

theorem RoundTrip.bnone (p : Bool) (a : BitVec 3) (o : BitVec 11) : RoundTrip.Statement (.bnone p a o) := by
  intro w hw hwf
  have enc : 67110912 + bitOf p * 2 ^ 31 + a.toNat * 2 ^ 19 + o.toNat * 2 ^ 0 = w := Option.some.inj hw
  have hw : w = digits [(o.toNat, 11), (1, 8), (a.toNat, 3), (0, 2), (4, 7), (bitOf p, 1)] := by
    simp only [digits, Nat.mod_eq_of_lt (bitOf_lt p), Nat.mod_eq_of_lt (a.isLt), Nat.mod_eq_of_lt (o.isLt)]; omega
  have mj : bits w 24 7 = 4 := (bits_at hw 4 1 rfl rfl)
  have f0 : bits w 0 11 = o.toNat := (bits_at hw 0 1 rfl rfl).trans (Nat.mod_eq_of_lt (o.isLt))
  have f1 : bits w 11 8 = 1 := (bits_at hw 1 1 rfl rfl)
  have f2 : bits w 19 3 = a.toNat := (bits_at hw 2 1 rfl rfl).trans (Nat.mod_eq_of_lt (a.isLt))
  have f3 : bits w 22 2 = 0 := (bits_at hw 3 1 rfl rfl)
  have g4 : bits w 31 1 = bitOf p := (bits_at hw 5 1 rfl rfl).trans (Nat.mod_eq_of_lt (bitOf_lt p))
  have f4 : flag w 31 = p := flag_mod w 31 p g4
  apply decodeWord_of _ _ _ hwf
  rw [decodeRaw_C04 w mj]
  simp [decC04, f0, f1, f2, f3, f4]

theorem RoundTrip.ball (p : Bool) (a : BitVec 3) (o : BitVec 11) : RoundTrip.Statement (.ball p a o) := by
  intro w hw hwf
  have enc : 67112960 + bitOf p * 2 ^ 31 + a.toNat * 2 ^ 19 + o.toNat * 2 ^ 0 = w := Option.some.inj hw
  have hw : w = digits [(o.toNat, 11), (2, 8), (a.toNat, 3), (0, 2), (4, 7), (bitOf p, 1)] := by
    simp only [digits, Nat.mod_eq_of_lt (bitOf_lt p), Nat.mod_eq_of_lt (a.isLt), Nat.mod_eq_of_lt (o.isLt)]; omega
  have mj : bits w 24 7 = 4 := (bits_at hw 4 1 rfl rfl)
  have f0 : bits w 0 11 = o.toNat := (bits_at hw 0 1 rfl rfl).trans (Nat.mod_eq_of_lt (o.isLt))
  have f1 : bits w 11 8 = 2 := (bits_at hw 1 1 rfl rfl)
  have f2 : bits w 19 3 = a.toNat := (bits_at hw 2 1 rfl rfl).trans (Nat.mod_eq_of_lt (a.isLt))
  have f3 : bits w 22 2 = 0 := (bits_at hw 3 1 rfl rfl)
  have g4 : bits w 31 1 = bitOf p := (bits_at hw 5 1 rfl rfl).trans (Nat.mod_eq_of_lt (bitOf_lt p))
  have f4 : flag w 31 = p := flag_mod w 31 p g4
  apply decodeWord_of _ _ _ hwf
  rw [decodeRaw_C04 w mj]
  simp [decC04, f0, f1, f2, f3, f4]

theorem RoundTrip.bnall (p : Bool) (a : BitVec 3) (o : BitVec 11) : RoundTrip.Statement (.bnall p a o) := by
  intro w hw hwf
  have enc : 67115008 + bitOf p * 2 ^ 31 + a.toNat * 2 ^ 19 + o.toNat * 2 ^ 0 = w := Option.some.inj hw
  have hw : w = digits [(o.toNat, 11), (3, 8), (a.toNat, 3), (0, 2), (4, 7), (bitOf p, 1)] := by
    simp only [digits, Nat.mod_eq_of_lt (bitOf_lt p), Nat.mod_eq_of_lt (a.isLt), Nat.mod_eq_of_lt (o.isLt)]; omega
  have mj : bits w 24 7 = 4 := (bits_at hw 4 1 rfl rfl)
  have f0 : bits w 0 11 = o.toNat := (bits_at hw 0 1 rfl rfl).trans (Nat.mod_eq_of_lt (o.isLt))
  have f1 : bits w 11 8 = 3 := (bits_at hw 1 1 rfl rfl)
  have f2 : bits w 19 3 = a.toNat := (bits_at hw 2 1 rfl rfl).trans (Nat.mod_eq_of_lt (a.isLt))
  have f3 : bits w 22 2 = 0 := (bits_at hw 3 1 rfl rfl)
  have g4 : bits w 31 1 = bitOf p := (bits_at hw 5 1 rfl rfl).trans (Nat.mod_eq_of_lt (bitOf_lt p))
  have f4 : flag w 31 = p := flag_mod w 31 p g4
  apply decodeWord_of _ _ _ hwf
  rw [decodeRaw_C04 w mj]
  simp [decC04, f0, f1, f2, f3, f4]

theorem RoundTrip.jmp (p : Bool) (o : BitVec 24) : RoundTrip.Statement (.jmp p o) := by
  intro w hw hwf
  have enc : 83886080 + bitOf p * 2 ^ 31 + o.toNat * 2 ^ 0 = w := Option.some.inj hw
  have hw : w = digits [(o.toNat, 24), (5, 7), (bitOf p, 1)] := by
    simp only [digits, Nat.mod_eq_of_lt (bitOf_lt p), Nat.mod_eq_of_lt (o.isLt)]; omega
  have mj : bits w 24 7 = 5 := (bits_at hw 1 1 rfl rfl)
  have f0 : bits w 0 24 = o.toNat := (bits_at hw 0 1 rfl rfl).trans (Nat.mod_eq_of_lt (o.isLt))
  have g1 : bits w 31 1 = bitOf p := (bits_at hw 2 1 rfl rfl).trans (Nat.mod_eq_of_lt (bitOf_lt p))
  have f1 : flag w 31 = p := flag_mod w 31 p g1
  apply decodeWord_of _ _ _ hwf
  rw [decodeRaw_C05 w mj]
  simp [decC05, f0, f1]

theorem RoundTrip.call (p : Bool) (o : BitVec 24) : RoundTrip.Statement (.call p o) := by
  intro w hw hwf
  have enc : 100663296 + bitOf p * 2 ^ 31 + o.toNat * 2 ^ 0 = w := Option.some.inj hw
  have hw : w = digits [(o.toNat, 24), (6, 7), (bitOf p, 1)] := by
    simp only [digits, Nat.mod_eq_of_lt (bitOf_lt p), Nat.mod_eq_of_lt (o.isLt)]; omega
  have mj : bits w 24 7 = 6 := (bits_at hw 1 1 rfl rfl)
  have f0 : bits w 0 24 = o.toNat := (bits_at hw 0 1 rfl rfl).trans (Nat.mod_eq_of_lt (o.isLt))
  have g1 : bits w 31 1 = bitOf p := (bits_at hw 2 1 rfl rfl).trans (Nat.mod_eq_of_lt (bitOf_lt p))
  have f1 : flag w 31 = p := flag_mod w 31 p g1
  apply decodeWord_of _ _ _ hwf
  rw [decodeRaw_C06 w mj]
  simp [decC06, f0, f1]

theorem RoundTrip.jr (p : Bool) (a : BitVec 5) : RoundTrip.Statement (.jr p a) := by
  intro w hw hwf
  have enc : 117440512 + bitOf p * 2 ^ 31 + a.toNat * 2 ^ 14 = w := Option.some.inj hw
  have hw : w = digits [(0, 14), (a.toNat, 5), (0, 5), (7, 7), (bitOf p, 1)] := by
    simp only [digits, Nat.mod_eq_of_lt (bitOf_lt p), Nat.mod_eq_of_lt (a.isLt)]; omega
  have mj : bits w 24 7 = 7 := (bits_at hw 3 1 rfl rfl)
  have f0 : bits w 0 14 = 0 := (bits_at hw 0 1 rfl rfl)
  have f1 : bits w 14 5 = a.toNat := (bits_at hw 1 1 rfl rfl).trans (Nat.mod_eq_of_lt (a.isLt))
  have f2 : bits w 19 5 = 0 := (bits_at hw 2 1 rfl rfl)
  have g3 : bits w 31 1 = bitOf p := (bits_at hw 4 1 rfl rfl).trans (Nat.mod_eq_of_lt (bitOf_lt p))
  have f3 : flag w 31 = p := flag_mod w 31 p g3
  apply decodeWord_of _ _ _ hwf
  rw [decodeRaw_C07 w mj]
  simp [decC07, f0, f1, f2, f3]

theorem RoundTrip.callr (p : Bool) (a : BitVec 5) : RoundTrip.Statement (.callr p a) := by
  intro w hw hwf
  have enc : 117440513 + bitOf p * 2 ^ 31 + a.toNat * 2 ^ 14 = w := Option.some.inj hw
  have hw : w = digits [(1, 14), (a.toNat, 5), (0, 5), (7, 7), (bitOf p, 1)] := by
    simp only [digits, Nat.mod_eq_of_lt (bitOf_lt p), Nat.mod_eq_of_lt (a.isLt)]; omega
  have mj : bits w 24 7 = 7 := (bits_at hw 3 1 rfl rfl)
  have f0 : bits w 0 14 = 1 := (bits_at hw 0 1 rfl rfl)
  have f1 : bits w 14 5 = a.toNat := (bits_at hw 1 1 rfl rfl).trans (Nat.mod_eq_of_lt (a.isLt))
  have f2 : bits w 19 5 = 0 := (bits_at hw 2 1 rfl rfl)
  have g3 : bits w 31 1 = bitOf p := (bits_at hw 4 1 rfl rfl).trans (Nat.mod_eq_of_lt (bitOf_lt p))
  have f3 : flag w 31 = p := flag_mod w 31 p g3
  apply decodeWord_of _ _ _ hwf
  rw [decodeRaw_C07 w mj]
  simp [decC07, f0, f1, f2, f3]

theorem RoundTrip.ret (p : Bool) : RoundTrip.Statement (.ret p) := by
  intro w hw hwf
  have enc : 117440514 + bitOf p * 2 ^ 31 = w := Option.some.inj hw
  have hw : w = digits [(2, 14), (0, 5), (0, 5), (7, 7), (bitOf p, 1)] := by
    simp only [digits, Nat.mod_eq_of_lt (bitOf_lt p)]; omega
  have mj : bits w 24 7 = 7 := (bits_at hw 3 1 rfl rfl)
  have f0 : bits w 0 14 = 2 := (bits_at hw 0 1 rfl rfl)
  have f1 : bits w 0 24 = 2 := (bits_at hw 0 3 rfl rfl)
  have f2 : bits w 19 5 = 0 := (bits_at hw 2 1 rfl rfl)
  have g3 : bits w 31 1 = bitOf p := (bits_at hw 4 1 rfl rfl).trans (Nat.mod_eq_of_lt (bitOf_lt p))
  have f3 : flag w 31 = p := flag_mod w 31 p g3
  apply decodeWord_of _ _ _ hwf
  rw [decodeRaw_C07 w mj]
  simp [decC07, f0, f1, f2, f3]

theorem RoundTrip.yield (p : Bool) : RoundTrip.Statement (.yield p) := by
  intro w hw hwf
  have enc : 117440515 + bitOf p * 2 ^ 31 = w := Option.some.inj hw
  have hw : w = digits [(3, 14), (0, 5), (0, 5), (7, 7), (bitOf p, 1)] := by
    simp only [digits, Nat.mod_eq_of_lt (bitOf_lt p)]; omega
  have mj : bits w 24 7 = 7 := (bits_at hw 3 1 rfl rfl)
  have f0 : bits w 0 14 = 3 := (bits_at hw 0 1 rfl rfl)
  have f1 : bits w 0 24 = 3 := (bits_at hw 0 3 rfl rfl)
  have f2 : bits w 19 5 = 0 := (bits_at hw 2 1 rfl rfl)
  have g3 : bits w 31 1 = bitOf p := (bits_at hw 4 1 rfl rfl).trans (Nat.mod_eq_of_lt (bitOf_lt p))
  have f3 : flag w 31 = p := flag_mod w 31 p g3
  apply decodeWord_of _ _ _ hwf
  rw [decodeRaw_C07 w mj]
  simp [decC07, f0, f1, f2, f3]

theorem RoundTrip.hbeat (p : Bool) : RoundTrip.Statement (.hbeat p) := by
  intro w hw hwf
  have enc : 117440516 + bitOf p * 2 ^ 31 = w := Option.some.inj hw
  have hw : w = digits [(4, 14), (0, 5), (0, 5), (7, 7), (bitOf p, 1)] := by
    simp only [digits, Nat.mod_eq_of_lt (bitOf_lt p)]; omega
  have mj : bits w 24 7 = 7 := (bits_at hw 3 1 rfl rfl)
  have f0 : bits w 0 14 = 4 := (bits_at hw 0 1 rfl rfl)
  have f1 : bits w 0 24 = 4 := (bits_at hw 0 3 rfl rfl)
  have f2 : bits w 19 5 = 0 := (bits_at hw 2 1 rfl rfl)
  have g3 : bits w 31 1 = bitOf p := (bits_at hw 4 1 rfl rfl).trans (Nat.mod_eq_of_lt (bitOf_lt p))
  have f3 : flag w 31 = p := flag_mod w 31 p g3
  apply decodeWord_of _ _ _ hwf
  rw [decodeRaw_C07 w mj]
  simp [decC07, f0, f1, f2, f3]

theorem RoundTrip.cnop (p : Bool) : RoundTrip.Statement (.cnop p) := by
  intro w hw hwf
  have enc : 117440517 + bitOf p * 2 ^ 31 = w := Option.some.inj hw
  have hw : w = digits [(5, 14), (0, 5), (0, 5), (7, 7), (bitOf p, 1)] := by
    simp only [digits, Nat.mod_eq_of_lt (bitOf_lt p)]; omega
  have mj : bits w 24 7 = 7 := (bits_at hw 3 1 rfl rfl)
  have f0 : bits w 0 14 = 5 := (bits_at hw 0 1 rfl rfl)
  have f1 : bits w 0 24 = 5 := (bits_at hw 0 3 rfl rfl)
  have f2 : bits w 19 5 = 0 := (bits_at hw 2 1 rfl rfl)
  have g3 : bits w 31 1 = bitOf p := (bits_at hw 4 1 rfl rfl).trans (Nat.mod_eq_of_lt (bitOf_lt p))
  have f3 : flag w 31 = p := flag_mod w 31 p g3
  apply decodeWord_of _ _ _ hwf
  rw [decodeRaw_C07 w mj]
  simp [decC07, f0, f1, f2, f3]

theorem RoundTrip.sendw (p : Bool) (a : BitVec 5) (b : BitVec 5) : RoundTrip.Statement (.sendw p a b) := by
  intro w hw hwf
  have enc : 134217728 + bitOf p * 2 ^ 31 + a.toNat * 2 ^ 14 + b.toNat * 2 ^ 9 = w := Option.some.inj hw
  have hw : w = digits [(0, 9), (b.toNat, 5), (a.toNat, 5), (0, 5), (8, 7), (bitOf p, 1)] := by
    simp only [digits, Nat.mod_eq_of_lt (bitOf_lt p), Nat.mod_eq_of_lt (a.isLt), Nat.mod_eq_of_lt (b.isLt)]; omega
  have mj : bits w 24 7 = 8 := (bits_at hw 4 1 rfl rfl)
  have f0 : bits w 0 9 = 0 := (bits_at hw 0 1 rfl rfl)
  have f1 : bits w 9 5 = b.toNat := (bits_at hw 1 1 rfl rfl).trans (Nat.mod_eq_of_lt (b.isLt))
  have f2 : bits w 14 5 = a.toNat := (bits_at hw 2 1 rfl rfl).trans (Nat.mod_eq_of_lt (a.isLt))
  have f3 : bits w 19 5 = 0 := (bits_at hw 3 1 rfl rfl)
  have g4 : bits w 31 1 = bitOf p := (bits_at hw 5 1 rfl rfl).trans (Nat.mod_eq_of_lt (bitOf_lt p))
  have f4 : flag w 31 = p := flag_mod w 31 p g4
  apply decodeWord_of _ _ _ hwf
  rw [decodeRaw_C08 w mj]
  simp [decC08, f0, f1, f2, f3, f4]

theorem RoundTrip.sendv (p : Bool) (a : BitVec 5) (b : BitVec 5) : RoundTrip.Statement (.sendv p a b) := by
  intro w hw hwf
  have enc : 134217744 + bitOf p * 2 ^ 31 + a.toNat * 2 ^ 14 + b.toNat * 2 ^ 9 = w := Option.some.inj hw
  have hw : w = digits [(16, 9), (b.toNat, 5), (a.toNat, 5), (0, 5), (8, 7), (bitOf p, 1)] := by
    simp only [digits, Nat.mod_eq_of_lt (bitOf_lt p), Nat.mod_eq_of_lt (a.isLt), Nat.mod_eq_of_lt (b.isLt)]; omega
  have mj : bits w 24 7 = 8 := (bits_at hw 4 1 rfl rfl)
  have f0 : bits w 0 9 = 16 := (bits_at hw 0 1 rfl rfl)
  have f1 : bits w 9 5 = b.toNat := (bits_at hw 1 1 rfl rfl).trans (Nat.mod_eq_of_lt (b.isLt))
  have f2 : bits w 14 5 = a.toNat := (bits_at hw 2 1 rfl rfl).trans (Nat.mod_eq_of_lt (a.isLt))
  have f3 : bits w 19 5 = 0 := (bits_at hw 3 1 rfl rfl)
  have g4 : bits w 31 1 = bitOf p := (bits_at hw 5 1 rfl rfl).trans (Nat.mod_eq_of_lt (bitOf_lt p))
  have f4 : flag w 31 = p := flag_mod w 31 p g4
  apply decodeWord_of _ _ _ hwf
  rw [decodeRaw_C08 w mj]
  simp [decC08, f0, f1, f2, f3, f4]

theorem RoundTrip.sendc (p : Bool) (a : BitVec 5) (b : BitVec 5) : RoundTrip.Statement (.sendc p a b) := by
  intro w hw hwf
  have enc : 134217760 + bitOf p * 2 ^ 31 + a.toNat * 2 ^ 14 + b.toNat * 2 ^ 9 = w := Option.some.inj hw
  have hw : w = digits [(32, 9), (b.toNat, 5), (a.toNat, 5), (0, 5), (8, 7), (bitOf p, 1)] := by
    simp only [digits, Nat.mod_eq_of_lt (bitOf_lt p), Nat.mod_eq_of_lt (a.isLt), Nat.mod_eq_of_lt (b.isLt)]; omega
  have mj : bits w 24 7 = 8 := (bits_at hw 4 1 rfl rfl)
  have f0 : bits w 0 9 = 32 := (bits_at hw 0 1 rfl rfl)
  have f1 : bits w 9 5 = b.toNat := (bits_at hw 1 1 rfl rfl).trans (Nat.mod_eq_of_lt (b.isLt))
  have f2 : bits w 14 5 = a.toNat := (bits_at hw 2 1 rfl rfl).trans (Nat.mod_eq_of_lt (a.isLt))
  have f3 : bits w 19 5 = 0 := (bits_at hw 3 1 rfl rfl)
  have g4 : bits w 31 1 = bitOf p := (bits_at hw 5 1 rfl rfl).trans (Nat.mod_eq_of_lt (bitOf_lt p))
  have f4 : flag w 31 = p := flag_mod w 31 p g4
  apply decodeWord_of _ _ _ hwf
  rw [decodeRaw_C08 w mj]
  simp [decC08, f0, f1, f2, f3, f4]

theorem RoundTrip.recvw (p : Bool) (d : BitVec 5) (l : BitVec 4) : RoundTrip.Statement (.recvw p d l) := by
  intro w hw hwf
  have enc : 134217776 + bitOf p * 2 ^ 31 + d.toNat * 2 ^ 19 + l.toNat * 2 ^ 0 = w := Option.some.inj hw
  have hw : w = digits [(l.toNat, 4), (3, 5), (0, 10), (d.toNat, 5), (8, 7), (bitOf p, 1)] := by
    simp only [digits, Nat.mod_eq_of_lt (bitOf_lt p), Nat.mod_eq_of_lt (d.isLt), Nat.mod_eq_of_lt (l.isLt)]; omega
  have mj : bits w 24 7 = 8 := (bits_at hw 4 1 rfl rfl)
  have f0 : bits w 0 4 = l.toNat := (bits_at hw 0 1 rfl rfl).trans (Nat.mod_eq_of_lt (l.isLt))
  have f1 : ¬ bits w 0 9 = 0 := by
    have := bitOf_lt p
    have := d.isLt
    have := l.isLt
    unfold bits; omega
  have f2 : ¬ bits w 0 9 = 16 := by
    have := bitOf_lt p
    have := d.isLt
    have := l.isLt
    unfold bits; omega
  have f3 : ¬ bits w 0 9 = 32 := by
    have := bitOf_lt p
    have := d.isLt
    have := l.isLt
    unfold bits; omega
  have f4 : bits w 4 15 = 3 := (bits_at hw 1 2 rfl rfl)
  have f5 : bits w 19 5 = d.toNat := (bits_at hw 3 1 rfl rfl).trans (Nat.mod_eq_of_lt (d.isLt))
  have g6 : bits w 31 1 = bitOf p := (bits_at hw 5 1 rfl rfl).trans (Nat.mod_eq_of_lt (bitOf_lt p))
  have f6 : flag w 31 = p := flag_mod w 31 p g6
  apply decodeWord_of _ _ _ hwf
  rw [decodeRaw_C08 w mj]
  simp [decC08, f0, f1, f2, f3, f4, f5, f6]

theorem RoundTrip.recvv (p : Bool) (d : BitVec 5) (l : BitVec 4) : RoundTrip.Statement (.recvv p d l) := by
  intro w hw hwf
  have enc : 134217792 + bitOf p * 2 ^ 31 + d.toNat * 2 ^ 19 + l.toNat * 2 ^ 0 = w := Option.some.inj hw
  have hw : w = digits [(l.toNat, 4), (4, 5), (0, 10), (d.toNat, 5), (8, 7), (bitOf p, 1)] := by
    simp only [digits, Nat.mod_eq_of_lt (bitOf_lt p), Nat.mod_eq_of_lt (d.isLt), Nat.mod_eq_of_lt (l.isLt)]; omega
  have mj : bits w 24 7 = 8 := (bits_at hw 4 1 rfl rfl)
  have f0 : bits w 0 4 = l.toNat := (bits_at hw 0 1 rfl rfl).trans (Nat.mod_eq_of_lt (l.isLt))
  have f1 : ¬ bits w 0 9 = 0 := by
    have := bitOf_lt p
    have := d.isLt
    have := l.isLt
    unfold bits; omega
  have f2 : ¬ bits w 0 9 = 16 := by
    have := bitOf_lt p
    have := d.isLt
    have := l.isLt
    unfold bits; omega
  have f3 : ¬ bits w 0 9 = 32 := by
    have := bitOf_lt p
    have := d.isLt
    have := l.isLt
    unfold bits; omega
  have f4 : bits w 4 15 = 4 := (bits_at hw 1 2 rfl rfl)
  have f5 : bits w 19 5 = d.toNat := (bits_at hw 3 1 rfl rfl).trans (Nat.mod_eq_of_lt (d.isLt))
  have g6 : bits w 31 1 = bitOf p := (bits_at hw 5 1 rfl rfl).trans (Nat.mod_eq_of_lt (bitOf_lt p))
  have f6 : flag w 31 = p := flag_mod w 31 p g6
  apply decodeWord_of _ _ _ hwf
  rw [decodeRaw_C08 w mj]
  simp [decC08, f0, f1, f2, f3, f4, f5, f6]

theorem RoundTrip.ptest (p : Bool) (d : BitVec 5) (k : BitVec 2) : RoundTrip.Statement (.ptest p d k) := by
  intro w hw hwf
  have enc : 134217808 + bitOf p * 2 ^ 31 + d.toNat * 2 ^ 19 + k.toNat * 2 ^ 14 = w := Option.some.inj hw
  have hw : w = digits [(0, 4), (5, 5), (0, 5), (k.toNat, 2), (0, 3), (d.toNat, 5), (8, 7), (bitOf p, 1)] := by
    simp only [digits, Nat.mod_eq_of_lt (bitOf_lt p), Nat.mod_eq_of_lt (d.isLt), Nat.mod_eq_of_lt (k.isLt)]; omega
  have mj : bits w 24 7 = 8 := (bits_at hw 6 1 rfl rfl)
  have f0 : bits w 0 9 = 80 := (bits_at hw 0 2 rfl rfl)
  have f1 : bits w 0 14 = 80 := (bits_at hw 0 3 rfl rfl)
  have f2 : ¬ bits w 4 15 = 3 := by
    have := bitOf_lt p
    have := d.isLt
    have := k.isLt
    unfold bits; omega
  have f3 : ¬ bits w 4 15 = 4 := by
    have := bitOf_lt p
    have := d.isLt
    have := k.isLt
    unfold bits; omega
  have f4 : bits w 14 2 = k.toNat := (bits_at hw 3 1 rfl rfl).trans (Nat.mod_eq_of_lt (k.isLt))
  have f5 : bits w 16 3 = 0 := (bits_at hw 4 1 rfl rfl)
  have f6 : bits w 19 5 = d.toNat := (bits_at hw 5 1 rfl rfl).trans (Nat.mod_eq_of_lt (d.isLt))
  have g7 : bits w 31 1 = bitOf p := (bits_at hw 7 1 rfl rfl).trans (Nat.mod_eq_of_lt (bitOf_lt p))
  have f7 : flag w 31 = p := flag_mod w 31 p g7
  apply decodeWord_of _ _ _ hwf
  rw [decodeRaw_C08 w mj]
  simp [decC08, f0, f1, f2, f3, f4, f5, f6, f7]

theorem RoundTrip.waitw : RoundTrip.Statement (.waitw) := by
  intro w hw hwf
  have enc : 134217824 = w := Option.some.inj hw
  have hw : w = digits [(0, 4), (6, 5), (0, 5), (0, 2), (0, 3), (0, 5), (8, 7), (0, 1)] := by
    simp only [digits]; omega
  have mj : bits w 24 7 = 8 := (bits_at hw 6 1 rfl rfl)
  have f0 : bits w 0 9 = 96 := (bits_at hw 0 2 rfl rfl)
  have f1 : bits w 0 14 = 96 := (bits_at hw 0 3 rfl rfl)
  have f2 : bits w 0 24 = 96 := (bits_at hw 0 6 rfl rfl)
  have f3 : bits w 4 15 = 6 := (bits_at hw 1 4 rfl rfl)
  have f4 : bits w 16 3 = 0 := (bits_at hw 4 1 rfl rfl)
  have f5 : bits w 19 5 = 0 := (bits_at hw 5 1 rfl rfl)
  have f6 : bits w 31 1 = 0 := (bits_at hw 7 1 rfl rfl)
  apply decodeWord_of _ _ _ hwf
  rw [decodeRaw_C08 w mj]
  simp [decC08, f0, f1, f2, f3, f4, f5, f6]

theorem RoundTrip.srr (p : Bool) (d : BitVec 5) (s : BitVec 12) : RoundTrip.Statement (.srr p d s) := by
  intro w hw hwf
  have enc : 150994944 + bitOf p * 2 ^ 31 + d.toNat * 2 ^ 19 + s.toNat * 2 ^ 0 = w := Option.some.inj hw
  have hw : w = digits [(s.toNat, 12), (0, 7), (d.toNat, 5), (9, 7), (bitOf p, 1)] := by
    simp only [digits, Nat.mod_eq_of_lt (bitOf_lt p), Nat.mod_eq_of_lt (d.isLt), Nat.mod_eq_of_lt (s.isLt)]; omega
  have mj : bits w 24 7 = 9 := (bits_at hw 3 1 rfl rfl)
  have f0 : bits w 0 12 = s.toNat := (bits_at hw 0 1 rfl rfl).trans (Nat.mod_eq_of_lt (s.isLt))
  have f1 : bits w 12 7 = 0 := (bits_at hw 1 1 rfl rfl)
  have f2 : bits w 19 5 = d.toNat := (bits_at hw 2 1 rfl rfl).trans (Nat.mod_eq_of_lt (d.isLt))
  have g3 : bits w 31 1 = bitOf p := (bits_at hw 4 1 rfl rfl).trans (Nat.mod_eq_of_lt (bitOf_lt p))
  have f3 : flag w 31 = p := flag_mod w 31 p g3
  apply decodeWord_of _ _ _ hwf
  rw [decodeRaw_C09 w mj]
  simp [decC09, f0, f1, f2, f3]

theorem RoundTrip.srw (p : Bool) (a : BitVec 5) (s : BitVec 12) : RoundTrip.Statement (.srw p a s) := by
  intro w hw hwf
  have enc : 150999040 + bitOf p * 2 ^ 31 + a.toNat * 2 ^ 14 + s.toNat * 2 ^ 0 = w := Option.some.inj hw
  have hw : w = digits [(s.toNat, 12), (1, 2), (a.toNat, 5), (0, 5), (9, 7), (bitOf p, 1)] := by
    simp only [digits, Nat.mod_eq_of_lt (bitOf_lt p), Nat.mod_eq_of_lt (a.isLt), Nat.mod_eq_of_lt (s.isLt)]; omega
  have mj : bits w 24 7 = 9 := (bits_at hw 4 1 rfl rfl)
  have f0 : bits w 0 12 = s.toNat := (bits_at hw 0 1 rfl rfl).trans (Nat.mod_eq_of_lt (s.isLt))
  have f1 : bits w 12 2 = 1 := (bits_at hw 1 1 rfl rfl)
  have f2 : ¬ bits w 12 7 = 0 := by
    have := bitOf_lt p
    have := a.isLt
    have := s.isLt
    unfold bits; omega
  have f3 : bits w 14 5 = a.toNat := (bits_at hw 2 1 rfl rfl).trans (Nat.mod_eq_of_lt (a.isLt))
  have f4 : bits w 19 5 = 0 := (bits_at hw 3 1 rfl rfl)
  have g5 : bits w 31 1 = bitOf p := (bits_at hw 5 1 rfl rfl).trans (Nat.mod_eq_of_lt (bitOf_lt p))
  have f5 : flag w 31 = p := flag_mod w 31 p g5
  apply decodeWord_of _ _ _ hwf
  rw [decodeRaw_C09 w mj]
  simp [decC09, f0, f1, f2, f3, f4, f5]

theorem RoundTrip.srset (p : Bool) (d : BitVec 5) (a : BitVec 5) (s : BitVec 12) : RoundTrip.Statement (.srset p d a s) := by
  intro w hw hwf
  have enc : 151003136 + bitOf p * 2 ^ 31 + d.toNat * 2 ^ 19 + a.toNat * 2 ^ 14 + s.toNat * 2 ^ 0 = w := Option.some.inj hw
  have hw : w = digits [(s.toNat, 12), (2, 2), (a.toNat, 5), (d.toNat, 5), (9, 7), (bitOf p, 1)] := by
    simp only [digits, Nat.mod_eq_of_lt (bitOf_lt p), Nat.mod_eq_of_lt (d.isLt), Nat.mod_eq_of_lt (a.isLt), Nat.mod_eq_of_lt (s.isLt)]; omega
  have mj : bits w 24 7 = 9 := (bits_at hw 4 1 rfl rfl)
  have f0 : bits w 0 12 = s.toNat := (bits_at hw 0 1 rfl rfl).trans (Nat.mod_eq_of_lt (s.isLt))
  have f1 : bits w 12 2 = 2 := (bits_at hw 1 1 rfl rfl)
  have f2 : ¬ bits w 12 7 = 0 := by
    have := bitOf_lt p
    have := d.isLt
    have := a.isLt
    have := s.isLt
    unfold bits; omega
  have f3 : bits w 14 5 = a.toNat := (bits_at hw 2 1 rfl rfl).trans (Nat.mod_eq_of_lt (a.isLt))
  have f4 : bits w 19 5 = d.toNat := (bits_at hw 3 1 rfl rfl).trans (Nat.mod_eq_of_lt (d.isLt))
  have g5 : bits w 31 1 = bitOf p := (bits_at hw 5 1 rfl rfl).trans (Nat.mod_eq_of_lt (bitOf_lt p))
  have f5 : flag w 31 = p := flag_mod w 31 p g5
  apply decodeWord_of _ _ _ hwf
  rw [decodeRaw_C09 w mj]
  simp [decC09, f0, f1, f2, f3, f4, f5]

theorem RoundTrip.srclr (p : Bool) (d : BitVec 5) (a : BitVec 5) (s : BitVec 12) : RoundTrip.Statement (.srclr p d a s) := by
  intro w hw hwf
  have enc : 151007232 + bitOf p * 2 ^ 31 + d.toNat * 2 ^ 19 + a.toNat * 2 ^ 14 + s.toNat * 2 ^ 0 = w := Option.some.inj hw
  have hw : w = digits [(s.toNat, 12), (3, 2), (a.toNat, 5), (d.toNat, 5), (9, 7), (bitOf p, 1)] := by
    simp only [digits, Nat.mod_eq_of_lt (bitOf_lt p), Nat.mod_eq_of_lt (d.isLt), Nat.mod_eq_of_lt (a.isLt), Nat.mod_eq_of_lt (s.isLt)]; omega
  have mj : bits w 24 7 = 9 := (bits_at hw 4 1 rfl rfl)
  have f0 : bits w 0 12 = s.toNat := (bits_at hw 0 1 rfl rfl).trans (Nat.mod_eq_of_lt (s.isLt))
  have f1 : bits w 12 2 = 3 := (bits_at hw 1 1 rfl rfl)
  have f2 : ¬ bits w 12 7 = 0 := by
    have := bitOf_lt p
    have := d.isLt
    have := a.isLt
    have := s.isLt
    unfold bits; omega
  have f3 : bits w 14 5 = a.toNat := (bits_at hw 2 1 rfl rfl).trans (Nat.mod_eq_of_lt (a.isLt))
  have f4 : bits w 19 5 = d.toNat := (bits_at hw 3 1 rfl rfl).trans (Nat.mod_eq_of_lt (d.isLt))
  have g5 : bits w 31 1 = bitOf p := (bits_at hw 5 1 rfl rfl).trans (Nat.mod_eq_of_lt (bitOf_lt p))
  have f5 : flag w 31 = p := flag_mod w 31 p g5
  apply decodeWord_of _ _ _ hwf
  rw [decodeRaw_C09 w mj]
  simp [decC09, f0, f1, f2, f3, f4, f5]

theorem RoundTrip.eret : RoundTrip.Statement (.eret) := by
  intro w hw hwf
  have enc : 167772160 = w := Option.some.inj hw
  have hw : w = digits [(0, 24), (10, 7), (0, 1)] := by
    simp only [digits]; omega
  have mj : bits w 24 7 = 10 := (bits_at hw 1 1 rfl rfl)
  have f0 : bits w 0 24 = 0 := (bits_at hw 0 1 rfl rfl)
  have f1 : bits w 31 1 = 0 := (bits_at hw 2 1 rfl rfl)
  apply decodeWord_of _ _ _ hwf
  rw [decodeRaw_C0A w mj]
  simp [decC0A, f0, f1]

theorem RoundTrip.icinv (p : Bool) : RoundTrip.Statement (.icinv p) := by
  intro w hw hwf
  have enc : 167772161 + bitOf p * 2 ^ 31 = w := Option.some.inj hw
  have hw : w = digits [(1, 24), (10, 7), (bitOf p, 1)] := by
    simp only [digits, Nat.mod_eq_of_lt (bitOf_lt p)]; omega
  have mj : bits w 24 7 = 10 := (bits_at hw 1 1 rfl rfl)
  have f0 : bits w 0 24 = 1 := (bits_at hw 0 1 rfl rfl)
  have f1 : bits w 31 1 = bitOf p := (bits_at hw 2 1 rfl rfl).trans (Nat.mod_eq_of_lt (bitOf_lt p))
  have g2 : bits w 31 1 = bitOf p := (bits_at hw 2 1 rfl rfl).trans (Nat.mod_eq_of_lt (bitOf_lt p))
  have f2 : flag w 31 = p := flag_mod w 31 p g2
  apply decodeWord_of _ _ _ hwf
  rw [decodeRaw_C0A w mj]
  simp [decC0A, f0, f1, f2]

theorem RoundTrip.sighost (p : Bool) (a : BitVec 5) : RoundTrip.Statement (.sighost p a) := by
  intro w hw hwf
  have enc : 167772162 + bitOf p * 2 ^ 31 + a.toNat * 2 ^ 14 = w := Option.some.inj hw
  have hw : w = digits [(2, 14), (a.toNat, 5), (0, 5), (10, 7), (bitOf p, 1)] := by
    simp only [digits, Nat.mod_eq_of_lt (bitOf_lt p), Nat.mod_eq_of_lt (a.isLt)]; omega
  have mj : bits w 24 7 = 10 := (bits_at hw 3 1 rfl rfl)
  have f0 : bits w 0 14 = 2 := (bits_at hw 0 1 rfl rfl)
  have f1 : ¬ bits w 0 24 = 0 := by
    have := bitOf_lt p
    have := a.isLt
    unfold bits; omega
  have f2 : ¬ bits w 0 24 = 1 := by
    have := bitOf_lt p
    have := a.isLt
    unfold bits; omega
  have f3 : bits w 14 5 = a.toNat := (bits_at hw 1 1 rfl rfl).trans (Nat.mod_eq_of_lt (a.isLt))
  have f4 : bits w 19 5 = 0 := (bits_at hw 2 1 rfl rfl)
  have f5 : bits w 31 1 = bitOf p := (bits_at hw 4 1 rfl rfl).trans (Nat.mod_eq_of_lt (bitOf_lt p))
  have g6 : bits w 31 1 = bitOf p := (bits_at hw 4 1 rfl rfl).trans (Nat.mod_eq_of_lt (bitOf_lt p))
  have f6 : flag w 31 = p := flag_mod w 31 p g6
  apply decodeWord_of _ _ _ hwf
  rw [decodeRaw_C0A w mj]
  simp [decC0A, f0, f1, f2, f3, f4, f5, f6]

theorem RoundTrip.trap (i : BitVec 14) : RoundTrip.Statement (.trap i) := by
  intro w hw hwf
  have enc : 184549376 + i.toNat * 2 ^ 0 = w := Option.some.inj hw
  have hw : w = digits [(i.toNat, 14), (0, 10), (11, 7), (0, 1)] := by
    simp only [digits, Nat.mod_eq_of_lt (i.isLt)]; omega
  have mj : bits w 24 7 = 11 := (bits_at hw 2 1 rfl rfl)
  have f0 : bits w 0 14 = i.toNat := (bits_at hw 0 1 rfl rfl).trans (Nat.mod_eq_of_lt (i.isLt))
  have f1 : bits w 14 10 = 0 := (bits_at hw 1 1 rfl rfl)
  have f2 : bits w 31 1 = 0 := (bits_at hw 3 1 rfl rfl)
  apply decodeWord_of _ _ _ hwf
  rw [decodeRaw_C0B w mj]
  simp [decC0B, f0, f1, f2]

theorem RoundTrip.ppt (i : BitVec 14) : RoundTrip.Statement (.ppt i) := by
  intro w hw hwf
  have enc : 234881024 + i.toNat * 2 ^ 0 = w := Option.some.inj hw
  have hw : w = digits [(i.toNat, 14), (0, 10), (14, 7), (0, 1)] := by
    simp only [digits, Nat.mod_eq_of_lt (i.isLt)]; omega
  have mj : bits w 24 7 = 14 := (bits_at hw 2 1 rfl rfl)
  have f0 : bits w 0 14 = i.toNat := (bits_at hw 0 1 rfl rfl).trans (Nat.mod_eq_of_lt (i.isLt))
  have f1 : bits w 14 10 = 0 := (bits_at hw 1 1 rfl rfl)
  have f2 : bits w 31 1 = 0 := (bits_at hw 3 1 rfl rfl)
  apply decodeWord_of _ _ _ hwf
  rw [decodeRaw_C0E w mj]
  simp [decC0E, f0, f1, f2]

theorem RoundTrip.dsread (p : Bool) (d : BitVec 5) (a : BitVec 5) (l : BitVec 4) : RoundTrip.Statement (.dsread p d a l) := by
  intro w hw hwf
  have enc : 201326592 + bitOf p * 2 ^ 31 + d.toNat * 2 ^ 19 + a.toNat * 2 ^ 14 + l.toNat * 2 ^ 0 = w := Option.some.inj hw
  have hw : w = digits [(l.toNat, 4), (0, 10), (a.toNat, 5), (d.toNat, 5), (12, 7), (bitOf p, 1)] := by
    simp only [digits, Nat.mod_eq_of_lt (bitOf_lt p), Nat.mod_eq_of_lt (d.isLt), Nat.mod_eq_of_lt (a.isLt), Nat.mod_eq_of_lt (l.isLt)]; omega
  have mj : bits w 24 7 = 12 := (bits_at hw 4 1 rfl rfl)
  have f0 : bits w 0 4 = l.toNat := (bits_at hw 0 1 rfl rfl).trans (Nat.mod_eq_of_lt (l.isLt))
  have f1 : bits w 4 10 = 0 := (bits_at hw 1 1 rfl rfl)
  have f2 : bits w 14 5 = a.toNat := (bits_at hw 2 1 rfl rfl).trans (Nat.mod_eq_of_lt (a.isLt))
  have f3 : bits w 19 5 = d.toNat := (bits_at hw 3 1 rfl rfl).trans (Nat.mod_eq_of_lt (d.isLt))
  have g4 : bits w 31 1 = bitOf p := (bits_at hw 5 1 rfl rfl).trans (Nat.mod_eq_of_lt (bitOf_lt p))
  have f4 : flag w 31 = p := flag_mod w 31 p g4
  apply decodeWord_of _ _ _ hwf
  rw [decodeRaw_C0C w mj]
  simp [decC0C, f0, f1, f2, f3, f4]

theorem RoundTrip.dsprobe (p : Bool) (d : BitVec 5) (a : BitVec 5) (b : BitVec 5) (l : BitVec 4) : RoundTrip.Statement (.dsprobe p d a b l) := by
  intro w hw hwf
  have enc : 201326608 + bitOf p * 2 ^ 31 + d.toNat * 2 ^ 19 + a.toNat * 2 ^ 14 + b.toNat * 2 ^ 9 + l.toNat * 2 ^ 0 = w := Option.some.inj hw
  have hw : w = digits [(l.toNat, 4), (1, 5), (b.toNat, 5), (a.toNat, 5), (d.toNat, 5), (12, 7), (bitOf p, 1)] := by
    simp only [digits, Nat.mod_eq_of_lt (bitOf_lt p), Nat.mod_eq_of_lt (d.isLt), Nat.mod_eq_of_lt (a.isLt), Nat.mod_eq_of_lt (b.isLt), Nat.mod_eq_of_lt (l.isLt)]; omega
  have mj : bits w 24 7 = 12 := (bits_at hw 5 1 rfl rfl)
  have f0 : bits w 0 4 = l.toNat := (bits_at hw 0 1 rfl rfl).trans (Nat.mod_eq_of_lt (l.isLt))
  have f1 : bits w 4 5 = 1 := (bits_at hw 1 1 rfl rfl)
  have f2 : ¬ bits w 4 10 = 0 := by
    have := bitOf_lt p
    have := d.isLt
    have := a.isLt
    have := b.isLt
    have := l.isLt
    unfold bits; omega
  have f3 : bits w 9 5 = b.toNat := (bits_at hw 2 1 rfl rfl).trans (Nat.mod_eq_of_lt (b.isLt))
  have f4 : bits w 14 5 = a.toNat := (bits_at hw 3 1 rfl rfl).trans (Nat.mod_eq_of_lt (a.isLt))
  have f5 : bits w 19 5 = d.toNat := (bits_at hw 4 1 rfl rfl).trans (Nat.mod_eq_of_lt (d.isLt))
  have g6 : bits w 31 1 = bitOf p := (bits_at hw 6 1 rfl rfl).trans (Nat.mod_eq_of_lt (bitOf_lt p))
  have f6 : flag w 31 = p := flag_mod w 31 p g6
  apply decodeWord_of _ _ _ hwf
  rw [decodeRaw_C0C w mj]
  simp [decC0C, f0, f1, f2, f3, f4, f5, f6]

theorem RoundTrip.dsdone (p : Bool) (a : BitVec 5) : RoundTrip.Statement (.dsdone p a) := by
  intro w hw hwf
  have enc : 201326624 + bitOf p * 2 ^ 31 + a.toNat * 2 ^ 14 = w := Option.some.inj hw
  have hw : w = digits [(0, 4), (2, 5), (0, 5), (a.toNat, 5), (0, 5), (12, 7), (bitOf p, 1)] := by
    simp only [digits, Nat.mod_eq_of_lt (bitOf_lt p), Nat.mod_eq_of_lt (a.isLt)]; omega
  have mj : bits w 24 7 = 12 := (bits_at hw 5 1 rfl rfl)
  have f0 : bits w 0 14 = 32 := (bits_at hw 0 3 rfl rfl)
  have f1 : bits w 4 5 = 2 := (bits_at hw 1 1 rfl rfl)
  have f2 : bits w 4 10 = 2 := (bits_at hw 1 2 rfl rfl)
  have f3 : bits w 14 5 = a.toNat := (bits_at hw 3 1 rfl rfl).trans (Nat.mod_eq_of_lt (a.isLt))
  have f4 : bits w 19 5 = 0 := (bits_at hw 4 1 rfl rfl)
  have g5 : bits w 31 1 = bitOf p := (bits_at hw 6 1 rfl rfl).trans (Nat.mod_eq_of_lt (bitOf_lt p))
  have f5 : flag w 31 = p := flag_mod w 31 p g5
  apply decodeWord_of _ _ _ hwf
  rw [decodeRaw_C0C w mj]
  simp [decC0C, f0, f1, f2, f3, f4, f5]

theorem RoundTrip.dsclr (p : Bool) (a : BitVec 5) : RoundTrip.Statement (.dsclr p a) := by
  intro w hw hwf
  have enc : 201326640 + bitOf p * 2 ^ 31 + a.toNat * 2 ^ 14 = w := Option.some.inj hw
  have hw : w = digits [(0, 4), (3, 5), (0, 5), (a.toNat, 5), (0, 5), (12, 7), (bitOf p, 1)] := by
    simp only [digits, Nat.mod_eq_of_lt (bitOf_lt p), Nat.mod_eq_of_lt (a.isLt)]; omega
  have mj : bits w 24 7 = 12 := (bits_at hw 5 1 rfl rfl)
  have f0 : bits w 0 14 = 48 := (bits_at hw 0 3 rfl rfl)
  have f1 : bits w 4 5 = 3 := (bits_at hw 1 1 rfl rfl)
  have f2 : bits w 4 10 = 3 := (bits_at hw 1 2 rfl rfl)
  have f3 : bits w 14 5 = a.toNat := (bits_at hw 3 1 rfl rfl).trans (Nat.mod_eq_of_lt (a.isLt))
  have f4 : bits w 19 5 = 0 := (bits_at hw 4 1 rfl rfl)
  have g5 : bits w 31 1 = bitOf p := (bits_at hw 6 1 rfl rfl).trans (Nat.mod_eq_of_lt (bitOf_lt p))
  have f5 : flag w 31 = p := flag_mod w 31 p g5
  apply decodeWord_of _ _ _ hwf
  rw [decodeRaw_C0C w mj]
  simp [decC0C, f0, f1, f2, f3, f4, f5]

theorem RoundTrip.dsbcast (p : Bool) (a : BitVec 5) : RoundTrip.Statement (.dsbcast p a) := by
  intro w hw hwf
  have enc : 201326656 + bitOf p * 2 ^ 31 + a.toNat * 2 ^ 14 = w := Option.some.inj hw
  have hw : w = digits [(0, 4), (4, 5), (0, 5), (a.toNat, 5), (0, 5), (12, 7), (bitOf p, 1)] := by
    simp only [digits, Nat.mod_eq_of_lt (bitOf_lt p), Nat.mod_eq_of_lt (a.isLt)]; omega
  have mj : bits w 24 7 = 12 := (bits_at hw 5 1 rfl rfl)
  have f0 : bits w 0 14 = 64 := (bits_at hw 0 3 rfl rfl)
  have f1 : bits w 4 5 = 4 := (bits_at hw 1 1 rfl rfl)
  have f2 : bits w 4 10 = 4 := (bits_at hw 1 2 rfl rfl)
  have f3 : bits w 14 5 = a.toNat := (bits_at hw 3 1 rfl rfl).trans (Nat.mod_eq_of_lt (a.isLt))
  have f4 : bits w 19 5 = 0 := (bits_at hw 4 1 rfl rfl)
  have g5 : bits w 31 1 = bitOf p := (bits_at hw 6 1 rfl rfl).trans (Nat.mod_eq_of_lt (bitOf_lt p))
  have f5 : flag w 31 = p := flag_mod w 31 p g5
  apply decodeWord_of _ _ _ hwf
  rw [decodeRaw_C0C w mj]
  simp [decC0C, f0, f1, f2, f3, f4, f5]

theorem RoundTrip.dsstab (p : Bool) (a : BitVec 5) : RoundTrip.Statement (.dsstab p a) := by
  intro w hw hwf
  have enc : 201326672 + bitOf p * 2 ^ 31 + a.toNat * 2 ^ 14 = w := Option.some.inj hw
  have hw : w = digits [(0, 4), (5, 5), (0, 5), (a.toNat, 5), (0, 5), (12, 7), (bitOf p, 1)] := by
    simp only [digits, Nat.mod_eq_of_lt (bitOf_lt p), Nat.mod_eq_of_lt (a.isLt)]; omega
  have mj : bits w 24 7 = 12 := (bits_at hw 5 1 rfl rfl)
  have f0 : bits w 0 14 = 80 := (bits_at hw 0 3 rfl rfl)
  have f1 : bits w 4 5 = 5 := (bits_at hw 1 1 rfl rfl)
  have f2 : bits w 4 10 = 5 := (bits_at hw 1 2 rfl rfl)
  have f3 : bits w 14 5 = a.toNat := (bits_at hw 3 1 rfl rfl).trans (Nat.mod_eq_of_lt (a.isLt))
  have f4 : bits w 19 5 = 0 := (bits_at hw 4 1 rfl rfl)
  have g5 : bits w 31 1 = bitOf p := (bits_at hw 6 1 rfl rfl).trans (Nat.mod_eq_of_lt (bitOf_lt p))
  have f5 : flag w 31 = p := flag_mod w 31 p g5
  apply decodeWord_of _ _ _ hwf
  rw [decodeRaw_C0C w mj]
  simp [decC0C, f0, f1, f2, f3, f4, f5]

theorem RoundTrip.dsrel (p : Bool) (a : BitVec 5) : RoundTrip.Statement (.dsrel p a) := by
  intro w hw hwf
  have enc : 201326688 + bitOf p * 2 ^ 31 + a.toNat * 2 ^ 14 = w := Option.some.inj hw
  have hw : w = digits [(0, 4), (6, 5), (0, 5), (a.toNat, 5), (0, 5), (12, 7), (bitOf p, 1)] := by
    simp only [digits, Nat.mod_eq_of_lt (bitOf_lt p), Nat.mod_eq_of_lt (a.isLt)]; omega
  have mj : bits w 24 7 = 12 := (bits_at hw 5 1 rfl rfl)
  have f0 : bits w 0 14 = 96 := (bits_at hw 0 3 rfl rfl)
  have f1 : bits w 4 5 = 6 := (bits_at hw 1 1 rfl rfl)
  have f2 : bits w 4 10 = 6 := (bits_at hw 1 2 rfl rfl)
  have f3 : bits w 14 5 = a.toNat := (bits_at hw 3 1 rfl rfl).trans (Nat.mod_eq_of_lt (a.isLt))
  have f4 : bits w 19 5 = 0 := (bits_at hw 4 1 rfl rfl)
  have g5 : bits w 31 1 = bitOf p := (bits_at hw 6 1 rfl rfl).trans (Nat.mod_eq_of_lt (bitOf_lt p))
  have f5 : flag w 31 = p := flag_mod w 31 p g5
  apply decodeWord_of _ _ _ hwf
  rw [decodeRaw_C0C w mj]
  simp [decC0C, f0, f1, f2, f3, f4, f5]

theorem RoundTrip.dspoll (p : Bool) (d : BitVec 5) (l : BitVec 4) : RoundTrip.Statement (.dspoll p d l) := by
  intro w hw hwf
  have enc : 201326704 + bitOf p * 2 ^ 31 + d.toNat * 2 ^ 19 + l.toNat * 2 ^ 0 = w := Option.some.inj hw
  have hw : w = digits [(l.toNat, 4), (7, 5), (0, 5), (0, 5), (d.toNat, 5), (12, 7), (bitOf p, 1)] := by
    simp only [digits, Nat.mod_eq_of_lt (bitOf_lt p), Nat.mod_eq_of_lt (d.isLt), Nat.mod_eq_of_lt (l.isLt)]; omega
  have mj : bits w 24 7 = 12 := (bits_at hw 5 1 rfl rfl)
  have f0 : bits w 0 4 = l.toNat := (bits_at hw 0 1 rfl rfl).trans (Nat.mod_eq_of_lt (l.isLt))
  have f1 : ¬ bits w 0 14 = 32 := by
    have := bitOf_lt p
    have := d.isLt
    have := l.isLt
    unfold bits; omega
  have f2 : ¬ bits w 0 14 = 48 := by
    have := bitOf_lt p
    have := d.isLt
    have := l.isLt
    unfold bits; omega
  have f3 : ¬ bits w 0 14 = 64 := by
    have := bitOf_lt p
    have := d.isLt
    have := l.isLt
    unfold bits; omega
  have f4 : ¬ bits w 0 14 = 80 := by
    have := bitOf_lt p
    have := d.isLt
    have := l.isLt
    unfold bits; omega
  have f5 : ¬ bits w 0 14 = 96 := by
    have := bitOf_lt p
    have := d.isLt
    have := l.isLt
    unfold bits; omega
  have f6 : bits w 4 5 = 7 := (bits_at hw 1 1 rfl rfl)
  have f7 : bits w 4 10 = 7 := (bits_at hw 1 2 rfl rfl)
  have f8 : bits w 4 15 = 7 := (bits_at hw 1 3 rfl rfl)
  have f9 : bits w 19 5 = d.toNat := (bits_at hw 4 1 rfl rfl).trans (Nat.mod_eq_of_lt (d.isLt))
  have g10 : bits w 31 1 = bitOf p := (bits_at hw 6 1 rfl rfl).trans (Nat.mod_eq_of_lt (bitOf_lt p))
  have f10 : flag w 31 = p := flag_mod w 31 p g10
  apply decodeWord_of _ _ _ hwf
  rw [decodeRaw_C0C w mj]
  simp [decC0C, f0, f1, f2, f3, f4, f5, f6, f7, f8, f9, f10]

theorem RoundTrip.spltake (p : Bool) (d : BitVec 5) (a : BitVec 5) (l : BitVec 4) : RoundTrip.Statement (.spltake p d a l) := by
  intro w hw hwf
  have enc : 218103808 + bitOf p * 2 ^ 31 + d.toNat * 2 ^ 19 + a.toNat * 2 ^ 14 + l.toNat * 2 ^ 0 = w := Option.some.inj hw
  have hw : w = digits [(l.toNat, 4), (0, 10), (a.toNat, 5), (d.toNat, 5), (13, 7), (bitOf p, 1)] := by
    simp only [digits, Nat.mod_eq_of_lt (bitOf_lt p), Nat.mod_eq_of_lt (d.isLt), Nat.mod_eq_of_lt (a.isLt), Nat.mod_eq_of_lt (l.isLt)]; omega
  have mj : bits w 24 7 = 13 := (bits_at hw 4 1 rfl rfl)
  have f0 : bits w 0 4 = l.toNat := (bits_at hw 0 1 rfl rfl).trans (Nat.mod_eq_of_lt (l.isLt))
  have f1 : bits w 4 10 = 0 := (bits_at hw 1 1 rfl rfl)
  have f2 : bits w 14 5 = a.toNat := (bits_at hw 2 1 rfl rfl).trans (Nat.mod_eq_of_lt (a.isLt))
  have f3 : bits w 19 5 = d.toNat := (bits_at hw 3 1 rfl rfl).trans (Nat.mod_eq_of_lt (d.isLt))
  have g4 : bits w 31 1 = bitOf p := (bits_at hw 5 1 rfl rfl).trans (Nat.mod_eq_of_lt (bitOf_lt p))
  have f4 : flag w 31 = p := flag_mod w 31 p g4
  apply decodeWord_of _ _ _ hwf
  rw [decodeRaw_C0D w mj]
  simp [decC0D, f0, f1, f2, f3, f4]

theorem RoundTrip.lbsend (p : Bool) (a : BitVec 5) : RoundTrip.Statement (.lbsend p a) := by
  intro w hw hwf
  have enc : 218103824 + bitOf p * 2 ^ 31 + a.toNat * 2 ^ 14 = w := Option.some.inj hw
  have hw : w = digits [(0, 4), (1, 10), (a.toNat, 5), (0, 5), (13, 7), (bitOf p, 1)] := by
    simp only [digits, Nat.mod_eq_of_lt (bitOf_lt p), Nat.mod_eq_of_lt (a.isLt)]; omega
  have mj : bits w 24 7 = 13 := (bits_at hw 4 1 rfl rfl)
  have f0 : bits w 0 14 = 16 := (bits_at hw 0 2 rfl rfl)
  have f1 : bits w 4 10 = 1 := (bits_at hw 1 1 rfl rfl)
  have f2 : bits w 14 5 = a.toNat := (bits_at hw 2 1 rfl rfl).trans (Nat.mod_eq_of_lt (a.isLt))
  have f3 : bits w 19 5 = 0 := (bits_at hw 3 1 rfl rfl)
  have g4 : bits w 31 1 = bitOf p := (bits_at hw 5 1 rfl rfl).trans (Nat.mod_eq_of_lt (bitOf_lt p))
  have f4 : flag w 31 = p := flag_mod w 31 p g4
  apply decodeWord_of _ _ _ hwf
  rw [decodeRaw_C0D w mj]
  simp [decC0D, f0, f1, f2, f3, f4]

theorem RoundTrip.splend (p : Bool) : RoundTrip.Statement (.splend p) := by
  intro w hw hwf
  have enc : 218103840 + bitOf p * 2 ^ 31 = w := Option.some.inj hw
  have hw : w = digits [(0, 4), (2, 10), (0, 5), (0, 5), (13, 7), (bitOf p, 1)] := by
    simp only [digits, Nat.mod_eq_of_lt (bitOf_lt p)]; omega
  have mj : bits w 24 7 = 13 := (bits_at hw 4 1 rfl rfl)
  have f0 : bits w 0 14 = 32 := (bits_at hw 0 2 rfl rfl)
  have f1 : bits w 0 24 = 32 := (bits_at hw 0 4 rfl rfl)
  have f2 : bits w 4 10 = 2 := (bits_at hw 1 1 rfl rfl)
  have f3 : bits w 19 5 = 0 := (bits_at hw 3 1 rfl rfl)
  have g4 : bits w 31 1 = bitOf p := (bits_at hw 5 1 rfl rfl).trans (Nat.mod_eq_of_lt (bitOf_lt p))
  have f4 : flag w 31 = p := flag_mod w 31 p g4
  apply decodeWord_of _ _ _ hwf
  rw [decodeRaw_C0D w mj]
  simp [decC0D, f0, f1, f2, f3, f4]

theorem RoundTrip.ldBu (p : Bool) (d : BitVec 5) (a : BitVec 5) (i : BitVec 7) (l : BitVec 4) : RoundTrip.Statement (.ldBu p d a i l) := by
  intro w hw hwf
  have enc : 268435456 + bitOf p * 2 ^ 31 + d.toNat * 2 ^ 19 + a.toNat * 2 ^ 14 + i.toNat * 2 ^ 4 + l.toNat * 2 ^ 0 = w := Option.some.inj hw
  have hw : w = digits [(l.toNat, 4), (i.toNat, 7), (0, 3), (a.toNat, 5), (d.toNat, 5), (16, 7), (bitOf p, 1)] := by
    simp only [digits, Nat.mod_eq_of_lt (bitOf_lt p), Nat.mod_eq_of_lt (d.isLt), Nat.mod_eq_of_lt (a.isLt), Nat.mod_eq_of_lt (i.isLt), Nat.mod_eq_of_lt (l.isLt)]; omega
  have mj : bits w 24 7 = 16 := (bits_at hw 5 1 rfl rfl)
  have f0 : bits w 0 4 = l.toNat := (bits_at hw 0 1 rfl rfl).trans (Nat.mod_eq_of_lt (l.isLt))
  have f1 : bits w 4 7 = i.toNat := (bits_at hw 1 1 rfl rfl).trans (Nat.mod_eq_of_lt (i.isLt))
  have f2 : bits w 11 3 = 0 := (bits_at hw 2 1 rfl rfl)
  have f3 : bits w 14 5 = a.toNat := (bits_at hw 3 1 rfl rfl).trans (Nat.mod_eq_of_lt (a.isLt))
  have f4 : bits w 19 5 = d.toNat := (bits_at hw 4 1 rfl rfl).trans (Nat.mod_eq_of_lt (d.isLt))
  have g5 : bits w 31 1 = bitOf p := (bits_at hw 6 1 rfl rfl).trans (Nat.mod_eq_of_lt (bitOf_lt p))
  have f5 : flag w 31 = p := flag_mod w 31 p g5
  apply decodeWord_of _ _ _ hwf
  rw [decodeRaw_C10 w mj]
  simp [decC10, f0, f1, f2, f3, f4, f5]

theorem RoundTrip.ldHu (p : Bool) (d : BitVec 5) (a : BitVec 5) (i : BitVec 7) (l : BitVec 4) : RoundTrip.Statement (.ldHu p d a i l) := by
  intro w hw hwf
  have enc : 268437504 + bitOf p * 2 ^ 31 + d.toNat * 2 ^ 19 + a.toNat * 2 ^ 14 + i.toNat * 2 ^ 4 + l.toNat * 2 ^ 0 = w := Option.some.inj hw
  have hw : w = digits [(l.toNat, 4), (i.toNat, 7), (1, 3), (a.toNat, 5), (d.toNat, 5), (16, 7), (bitOf p, 1)] := by
    simp only [digits, Nat.mod_eq_of_lt (bitOf_lt p), Nat.mod_eq_of_lt (d.isLt), Nat.mod_eq_of_lt (a.isLt), Nat.mod_eq_of_lt (i.isLt), Nat.mod_eq_of_lt (l.isLt)]; omega
  have mj : bits w 24 7 = 16 := (bits_at hw 5 1 rfl rfl)
  have f0 : bits w 0 4 = l.toNat := (bits_at hw 0 1 rfl rfl).trans (Nat.mod_eq_of_lt (l.isLt))
  have f1 : bits w 4 7 = i.toNat := (bits_at hw 1 1 rfl rfl).trans (Nat.mod_eq_of_lt (i.isLt))
  have f2 : bits w 11 3 = 1 := (bits_at hw 2 1 rfl rfl)
  have f3 : bits w 14 5 = a.toNat := (bits_at hw 3 1 rfl rfl).trans (Nat.mod_eq_of_lt (a.isLt))
  have f4 : bits w 19 5 = d.toNat := (bits_at hw 4 1 rfl rfl).trans (Nat.mod_eq_of_lt (d.isLt))
  have g5 : bits w 31 1 = bitOf p := (bits_at hw 6 1 rfl rfl).trans (Nat.mod_eq_of_lt (bitOf_lt p))
  have f5 : flag w 31 = p := flag_mod w 31 p g5
  apply decodeWord_of _ _ _ hwf
  rw [decodeRaw_C10 w mj]
  simp [decC10, f0, f1, f2, f3, f4, f5]

theorem RoundTrip.ldWu (p : Bool) (d : BitVec 5) (a : BitVec 5) (i : BitVec 7) (l : BitVec 4) : RoundTrip.Statement (.ldWu p d a i l) := by
  intro w hw hwf
  have enc : 268439552 + bitOf p * 2 ^ 31 + d.toNat * 2 ^ 19 + a.toNat * 2 ^ 14 + i.toNat * 2 ^ 4 + l.toNat * 2 ^ 0 = w := Option.some.inj hw
  have hw : w = digits [(l.toNat, 4), (i.toNat, 7), (2, 3), (a.toNat, 5), (d.toNat, 5), (16, 7), (bitOf p, 1)] := by
    simp only [digits, Nat.mod_eq_of_lt (bitOf_lt p), Nat.mod_eq_of_lt (d.isLt), Nat.mod_eq_of_lt (a.isLt), Nat.mod_eq_of_lt (i.isLt), Nat.mod_eq_of_lt (l.isLt)]; omega
  have mj : bits w 24 7 = 16 := (bits_at hw 5 1 rfl rfl)
  have f0 : bits w 0 4 = l.toNat := (bits_at hw 0 1 rfl rfl).trans (Nat.mod_eq_of_lt (l.isLt))
  have f1 : bits w 4 7 = i.toNat := (bits_at hw 1 1 rfl rfl).trans (Nat.mod_eq_of_lt (i.isLt))
  have f2 : bits w 11 3 = 2 := (bits_at hw 2 1 rfl rfl)
  have f3 : bits w 14 5 = a.toNat := (bits_at hw 3 1 rfl rfl).trans (Nat.mod_eq_of_lt (a.isLt))
  have f4 : bits w 19 5 = d.toNat := (bits_at hw 4 1 rfl rfl).trans (Nat.mod_eq_of_lt (d.isLt))
  have g5 : bits w 31 1 = bitOf p := (bits_at hw 6 1 rfl rfl).trans (Nat.mod_eq_of_lt (bitOf_lt p))
  have f5 : flag w 31 = p := flag_mod w 31 p g5
  apply decodeWord_of _ _ _ hwf
  rw [decodeRaw_C10 w mj]
  simp [decC10, f0, f1, f2, f3, f4, f5]

theorem RoundTrip.ldD (p : Bool) (d : BitVec 5) (a : BitVec 5) (i : BitVec 7) (l : BitVec 4) : RoundTrip.Statement (.ldD p d a i l) := by
  intro w hw hwf
  have enc : 268441600 + bitOf p * 2 ^ 31 + d.toNat * 2 ^ 19 + a.toNat * 2 ^ 14 + i.toNat * 2 ^ 4 + l.toNat * 2 ^ 0 = w := Option.some.inj hw
  have hw : w = digits [(l.toNat, 4), (i.toNat, 7), (3, 3), (a.toNat, 5), (d.toNat, 5), (16, 7), (bitOf p, 1)] := by
    simp only [digits, Nat.mod_eq_of_lt (bitOf_lt p), Nat.mod_eq_of_lt (d.isLt), Nat.mod_eq_of_lt (a.isLt), Nat.mod_eq_of_lt (i.isLt), Nat.mod_eq_of_lt (l.isLt)]; omega
  have mj : bits w 24 7 = 16 := (bits_at hw 5 1 rfl rfl)
  have f0 : bits w 0 4 = l.toNat := (bits_at hw 0 1 rfl rfl).trans (Nat.mod_eq_of_lt (l.isLt))
  have f1 : bits w 4 7 = i.toNat := (bits_at hw 1 1 rfl rfl).trans (Nat.mod_eq_of_lt (i.isLt))
  have f2 : bits w 11 3 = 3 := (bits_at hw 2 1 rfl rfl)
  have f3 : bits w 14 5 = a.toNat := (bits_at hw 3 1 rfl rfl).trans (Nat.mod_eq_of_lt (a.isLt))
  have f4 : bits w 19 5 = d.toNat := (bits_at hw 4 1 rfl rfl).trans (Nat.mod_eq_of_lt (d.isLt))
  have g5 : bits w 31 1 = bitOf p := (bits_at hw 6 1 rfl rfl).trans (Nat.mod_eq_of_lt (bitOf_lt p))
  have f5 : flag w 31 = p := flag_mod w 31 p g5
  apply decodeWord_of _ _ _ hwf
  rw [decodeRaw_C10 w mj]
  simp [decC10, f0, f1, f2, f3, f4, f5]

theorem RoundTrip.ldB (p : Bool) (d : BitVec 5) (a : BitVec 5) (i : BitVec 7) (l : BitVec 4) : RoundTrip.Statement (.ldB p d a i l) := by
  intro w hw hwf
  have enc : 268443648 + bitOf p * 2 ^ 31 + d.toNat * 2 ^ 19 + a.toNat * 2 ^ 14 + i.toNat * 2 ^ 4 + l.toNat * 2 ^ 0 = w := Option.some.inj hw
  have hw : w = digits [(l.toNat, 4), (i.toNat, 7), (4, 3), (a.toNat, 5), (d.toNat, 5), (16, 7), (bitOf p, 1)] := by
    simp only [digits, Nat.mod_eq_of_lt (bitOf_lt p), Nat.mod_eq_of_lt (d.isLt), Nat.mod_eq_of_lt (a.isLt), Nat.mod_eq_of_lt (i.isLt), Nat.mod_eq_of_lt (l.isLt)]; omega
  have mj : bits w 24 7 = 16 := (bits_at hw 5 1 rfl rfl)
  have f0 : bits w 0 4 = l.toNat := (bits_at hw 0 1 rfl rfl).trans (Nat.mod_eq_of_lt (l.isLt))
  have f1 : bits w 4 7 = i.toNat := (bits_at hw 1 1 rfl rfl).trans (Nat.mod_eq_of_lt (i.isLt))
  have f2 : bits w 11 3 = 4 := (bits_at hw 2 1 rfl rfl)
  have f3 : bits w 14 5 = a.toNat := (bits_at hw 3 1 rfl rfl).trans (Nat.mod_eq_of_lt (a.isLt))
  have f4 : bits w 19 5 = d.toNat := (bits_at hw 4 1 rfl rfl).trans (Nat.mod_eq_of_lt (d.isLt))
  have g5 : bits w 31 1 = bitOf p := (bits_at hw 6 1 rfl rfl).trans (Nat.mod_eq_of_lt (bitOf_lt p))
  have f5 : flag w 31 = p := flag_mod w 31 p g5
  apply decodeWord_of _ _ _ hwf
  rw [decodeRaw_C10 w mj]
  simp [decC10, f0, f1, f2, f3, f4, f5]

theorem RoundTrip.ldH (p : Bool) (d : BitVec 5) (a : BitVec 5) (i : BitVec 7) (l : BitVec 4) : RoundTrip.Statement (.ldH p d a i l) := by
  intro w hw hwf
  have enc : 268445696 + bitOf p * 2 ^ 31 + d.toNat * 2 ^ 19 + a.toNat * 2 ^ 14 + i.toNat * 2 ^ 4 + l.toNat * 2 ^ 0 = w := Option.some.inj hw
  have hw : w = digits [(l.toNat, 4), (i.toNat, 7), (5, 3), (a.toNat, 5), (d.toNat, 5), (16, 7), (bitOf p, 1)] := by
    simp only [digits, Nat.mod_eq_of_lt (bitOf_lt p), Nat.mod_eq_of_lt (d.isLt), Nat.mod_eq_of_lt (a.isLt), Nat.mod_eq_of_lt (i.isLt), Nat.mod_eq_of_lt (l.isLt)]; omega
  have mj : bits w 24 7 = 16 := (bits_at hw 5 1 rfl rfl)
  have f0 : bits w 0 4 = l.toNat := (bits_at hw 0 1 rfl rfl).trans (Nat.mod_eq_of_lt (l.isLt))
  have f1 : bits w 4 7 = i.toNat := (bits_at hw 1 1 rfl rfl).trans (Nat.mod_eq_of_lt (i.isLt))
  have f2 : bits w 11 3 = 5 := (bits_at hw 2 1 rfl rfl)
  have f3 : bits w 14 5 = a.toNat := (bits_at hw 3 1 rfl rfl).trans (Nat.mod_eq_of_lt (a.isLt))
  have f4 : bits w 19 5 = d.toNat := (bits_at hw 4 1 rfl rfl).trans (Nat.mod_eq_of_lt (d.isLt))
  have g5 : bits w 31 1 = bitOf p := (bits_at hw 6 1 rfl rfl).trans (Nat.mod_eq_of_lt (bitOf_lt p))
  have f5 : flag w 31 = p := flag_mod w 31 p g5
  apply decodeWord_of _ _ _ hwf
  rw [decodeRaw_C10 w mj]
  simp [decC10, f0, f1, f2, f3, f4, f5]

theorem RoundTrip.ldW (p : Bool) (d : BitVec 5) (a : BitVec 5) (i : BitVec 7) (l : BitVec 4) : RoundTrip.Statement (.ldW p d a i l) := by
  intro w hw hwf
  have enc : 268447744 + bitOf p * 2 ^ 31 + d.toNat * 2 ^ 19 + a.toNat * 2 ^ 14 + i.toNat * 2 ^ 4 + l.toNat * 2 ^ 0 = w := Option.some.inj hw
  have hw : w = digits [(l.toNat, 4), (i.toNat, 7), (6, 3), (a.toNat, 5), (d.toNat, 5), (16, 7), (bitOf p, 1)] := by
    simp only [digits, Nat.mod_eq_of_lt (bitOf_lt p), Nat.mod_eq_of_lt (d.isLt), Nat.mod_eq_of_lt (a.isLt), Nat.mod_eq_of_lt (i.isLt), Nat.mod_eq_of_lt (l.isLt)]; omega
  have mj : bits w 24 7 = 16 := (bits_at hw 5 1 rfl rfl)
  have f0 : bits w 0 4 = l.toNat := (bits_at hw 0 1 rfl rfl).trans (Nat.mod_eq_of_lt (l.isLt))
  have f1 : bits w 4 7 = i.toNat := (bits_at hw 1 1 rfl rfl).trans (Nat.mod_eq_of_lt (i.isLt))
  have f2 : bits w 11 3 = 6 := (bits_at hw 2 1 rfl rfl)
  have f3 : bits w 14 5 = a.toNat := (bits_at hw 3 1 rfl rfl).trans (Nat.mod_eq_of_lt (a.isLt))
  have f4 : bits w 19 5 = d.toNat := (bits_at hw 4 1 rfl rfl).trans (Nat.mod_eq_of_lt (d.isLt))
  have g5 : bits w 31 1 = bitOf p := (bits_at hw 6 1 rfl rfl).trans (Nat.mod_eq_of_lt (bitOf_lt p))
  have f5 : flag w 31 = p := flag_mod w 31 p g5
  apply decodeWord_of _ _ _ hwf
  rw [decodeRaw_C10 w mj]
  simp [decC10, f0, f1, f2, f3, f4, f5]

theorem RoundTrip.stB (p : Bool) (d : BitVec 5) (a : BitVec 5) (i : BitVec 7) : RoundTrip.Statement (.stB p d a i) := by
  intro w hw hwf
  have enc : 285212672 + bitOf p * 2 ^ 31 + d.toNat * 2 ^ 19 + a.toNat * 2 ^ 14 + i.toNat * 2 ^ 4 = w := Option.some.inj hw
  have hw : w = digits [(0, 4), (i.toNat, 7), (0, 3), (a.toNat, 5), (d.toNat, 5), (17, 7), (bitOf p, 1)] := by
    simp only [digits, Nat.mod_eq_of_lt (bitOf_lt p), Nat.mod_eq_of_lt (d.isLt), Nat.mod_eq_of_lt (a.isLt), Nat.mod_eq_of_lt (i.isLt)]; omega
  have mj : bits w 24 7 = 17 := (bits_at hw 5 1 rfl rfl)
  have f0 : bits w 0 4 = 0 := (bits_at hw 0 1 rfl rfl)
  have f1 : bits w 4 7 = i.toNat := (bits_at hw 1 1 rfl rfl).trans (Nat.mod_eq_of_lt (i.isLt))
  have f2 : bits w 11 3 = 0 := (bits_at hw 2 1 rfl rfl)
  have f3 : bits w 14 5 = a.toNat := (bits_at hw 3 1 rfl rfl).trans (Nat.mod_eq_of_lt (a.isLt))
  have f4 : bits w 19 5 = d.toNat := (bits_at hw 4 1 rfl rfl).trans (Nat.mod_eq_of_lt (d.isLt))
  have g5 : bits w 31 1 = bitOf p := (bits_at hw 6 1 rfl rfl).trans (Nat.mod_eq_of_lt (bitOf_lt p))
  have f5 : flag w 31 = p := flag_mod w 31 p g5
  apply decodeWord_of _ _ _ hwf
  rw [decodeRaw_C11 w mj]
  simp [decC11, f0, f1, f2, f3, f4, f5]

theorem RoundTrip.stH (p : Bool) (d : BitVec 5) (a : BitVec 5) (i : BitVec 7) : RoundTrip.Statement (.stH p d a i) := by
  intro w hw hwf
  have enc : 285214720 + bitOf p * 2 ^ 31 + d.toNat * 2 ^ 19 + a.toNat * 2 ^ 14 + i.toNat * 2 ^ 4 = w := Option.some.inj hw
  have hw : w = digits [(0, 4), (i.toNat, 7), (1, 3), (a.toNat, 5), (d.toNat, 5), (17, 7), (bitOf p, 1)] := by
    simp only [digits, Nat.mod_eq_of_lt (bitOf_lt p), Nat.mod_eq_of_lt (d.isLt), Nat.mod_eq_of_lt (a.isLt), Nat.mod_eq_of_lt (i.isLt)]; omega
  have mj : bits w 24 7 = 17 := (bits_at hw 5 1 rfl rfl)
  have f0 : bits w 0 4 = 0 := (bits_at hw 0 1 rfl rfl)
  have f1 : bits w 4 7 = i.toNat := (bits_at hw 1 1 rfl rfl).trans (Nat.mod_eq_of_lt (i.isLt))
  have f2 : bits w 11 3 = 1 := (bits_at hw 2 1 rfl rfl)
  have f3 : bits w 14 5 = a.toNat := (bits_at hw 3 1 rfl rfl).trans (Nat.mod_eq_of_lt (a.isLt))
  have f4 : bits w 19 5 = d.toNat := (bits_at hw 4 1 rfl rfl).trans (Nat.mod_eq_of_lt (d.isLt))
  have g5 : bits w 31 1 = bitOf p := (bits_at hw 6 1 rfl rfl).trans (Nat.mod_eq_of_lt (bitOf_lt p))
  have f5 : flag w 31 = p := flag_mod w 31 p g5
  apply decodeWord_of _ _ _ hwf
  rw [decodeRaw_C11 w mj]
  simp [decC11, f0, f1, f2, f3, f4, f5]

theorem RoundTrip.stW (p : Bool) (d : BitVec 5) (a : BitVec 5) (i : BitVec 7) : RoundTrip.Statement (.stW p d a i) := by
  intro w hw hwf
  have enc : 285216768 + bitOf p * 2 ^ 31 + d.toNat * 2 ^ 19 + a.toNat * 2 ^ 14 + i.toNat * 2 ^ 4 = w := Option.some.inj hw
  have hw : w = digits [(0, 4), (i.toNat, 7), (2, 3), (a.toNat, 5), (d.toNat, 5), (17, 7), (bitOf p, 1)] := by
    simp only [digits, Nat.mod_eq_of_lt (bitOf_lt p), Nat.mod_eq_of_lt (d.isLt), Nat.mod_eq_of_lt (a.isLt), Nat.mod_eq_of_lt (i.isLt)]; omega
  have mj : bits w 24 7 = 17 := (bits_at hw 5 1 rfl rfl)
  have f0 : bits w 0 4 = 0 := (bits_at hw 0 1 rfl rfl)
  have f1 : bits w 4 7 = i.toNat := (bits_at hw 1 1 rfl rfl).trans (Nat.mod_eq_of_lt (i.isLt))
  have f2 : bits w 11 3 = 2 := (bits_at hw 2 1 rfl rfl)
  have f3 : bits w 14 5 = a.toNat := (bits_at hw 3 1 rfl rfl).trans (Nat.mod_eq_of_lt (a.isLt))
  have f4 : bits w 19 5 = d.toNat := (bits_at hw 4 1 rfl rfl).trans (Nat.mod_eq_of_lt (d.isLt))
  have g5 : bits w 31 1 = bitOf p := (bits_at hw 6 1 rfl rfl).trans (Nat.mod_eq_of_lt (bitOf_lt p))
  have f5 : flag w 31 = p := flag_mod w 31 p g5
  apply decodeWord_of _ _ _ hwf
  rw [decodeRaw_C11 w mj]
  simp [decC11, f0, f1, f2, f3, f4, f5]

theorem RoundTrip.stD (p : Bool) (d : BitVec 5) (a : BitVec 5) (i : BitVec 7) : RoundTrip.Statement (.stD p d a i) := by
  intro w hw hwf
  have enc : 285218816 + bitOf p * 2 ^ 31 + d.toNat * 2 ^ 19 + a.toNat * 2 ^ 14 + i.toNat * 2 ^ 4 = w := Option.some.inj hw
  have hw : w = digits [(0, 4), (i.toNat, 7), (3, 3), (a.toNat, 5), (d.toNat, 5), (17, 7), (bitOf p, 1)] := by
    simp only [digits, Nat.mod_eq_of_lt (bitOf_lt p), Nat.mod_eq_of_lt (d.isLt), Nat.mod_eq_of_lt (a.isLt), Nat.mod_eq_of_lt (i.isLt)]; omega
  have mj : bits w 24 7 = 17 := (bits_at hw 5 1 rfl rfl)
  have f0 : bits w 0 4 = 0 := (bits_at hw 0 1 rfl rfl)
  have f1 : bits w 4 7 = i.toNat := (bits_at hw 1 1 rfl rfl).trans (Nat.mod_eq_of_lt (i.isLt))
  have f2 : bits w 11 3 = 3 := (bits_at hw 2 1 rfl rfl)
  have f3 : bits w 14 5 = a.toNat := (bits_at hw 3 1 rfl rfl).trans (Nat.mod_eq_of_lt (a.isLt))
  have f4 : bits w 19 5 = d.toNat := (bits_at hw 4 1 rfl rfl).trans (Nat.mod_eq_of_lt (d.isLt))
  have g5 : bits w 31 1 = bitOf p := (bits_at hw 6 1 rfl rfl).trans (Nat.mod_eq_of_lt (bitOf_lt p))
  have f5 : flag w 31 = p := flag_mod w 31 p g5
  apply decodeWord_of _ _ _ hwf
  rw [decodeRaw_C11 w mj]
  simp [decC11, f0, f1, f2, f3, f4, f5]

theorem RoundTrip.ldxBu (p : Bool) (d : BitVec 5) (a : BitVec 5) (b : BitVec 5) (l : BitVec 4) : RoundTrip.Statement (.ldxBu p d a b l) := by
  intro w hw hwf
  have enc : 301989888 + bitOf p * 2 ^ 31 + d.toNat * 2 ^ 19 + a.toNat * 2 ^ 14 + b.toNat * 2 ^ 9 + l.toNat * 2 ^ 0 = w := Option.some.inj hw
  have hw : w = digits [(l.toNat, 4), (0, 5), (b.toNat, 5), (a.toNat, 5), (d.toNat, 5), (18, 7), (bitOf p, 1)] := by
    simp only [digits, Nat.mod_eq_of_lt (bitOf_lt p), Nat.mod_eq_of_lt (d.isLt), Nat.mod_eq_of_lt (a.isLt), Nat.mod_eq_of_lt (b.isLt), Nat.mod_eq_of_lt (l.isLt)]; omega
  have mj : bits w 24 7 = 18 := (bits_at hw 5 1 rfl rfl)
  have f0 : bits w 0 4 = l.toNat := (bits_at hw 0 1 rfl rfl).trans (Nat.mod_eq_of_lt (l.isLt))
  have f1 : bits w 4 5 = 0 := (bits_at hw 1 1 rfl rfl)
  have f2 : bits w 9 5 = b.toNat := (bits_at hw 2 1 rfl rfl).trans (Nat.mod_eq_of_lt (b.isLt))
  have f3 : bits w 14 5 = a.toNat := (bits_at hw 3 1 rfl rfl).trans (Nat.mod_eq_of_lt (a.isLt))
  have f4 : bits w 19 5 = d.toNat := (bits_at hw 4 1 rfl rfl).trans (Nat.mod_eq_of_lt (d.isLt))
  have g5 : bits w 31 1 = bitOf p := (bits_at hw 6 1 rfl rfl).trans (Nat.mod_eq_of_lt (bitOf_lt p))
  have f5 : flag w 31 = p := flag_mod w 31 p g5
  apply decodeWord_of _ _ _ hwf
  rw [decodeRaw_C12 w mj]
  simp [decC12, f0, f1, f2, f3, f4, f5]

theorem RoundTrip.ldxHu (p : Bool) (d : BitVec 5) (a : BitVec 5) (b : BitVec 5) (l : BitVec 4) : RoundTrip.Statement (.ldxHu p d a b l) := by
  intro w hw hwf
  have enc : 301989904 + bitOf p * 2 ^ 31 + d.toNat * 2 ^ 19 + a.toNat * 2 ^ 14 + b.toNat * 2 ^ 9 + l.toNat * 2 ^ 0 = w := Option.some.inj hw
  have hw : w = digits [(l.toNat, 4), (1, 5), (b.toNat, 5), (a.toNat, 5), (d.toNat, 5), (18, 7), (bitOf p, 1)] := by
    simp only [digits, Nat.mod_eq_of_lt (bitOf_lt p), Nat.mod_eq_of_lt (d.isLt), Nat.mod_eq_of_lt (a.isLt), Nat.mod_eq_of_lt (b.isLt), Nat.mod_eq_of_lt (l.isLt)]; omega
  have mj : bits w 24 7 = 18 := (bits_at hw 5 1 rfl rfl)
  have f0 : bits w 0 4 = l.toNat := (bits_at hw 0 1 rfl rfl).trans (Nat.mod_eq_of_lt (l.isLt))
  have f1 : bits w 4 5 = 1 := (bits_at hw 1 1 rfl rfl)
  have f2 : bits w 9 5 = b.toNat := (bits_at hw 2 1 rfl rfl).trans (Nat.mod_eq_of_lt (b.isLt))
  have f3 : bits w 14 5 = a.toNat := (bits_at hw 3 1 rfl rfl).trans (Nat.mod_eq_of_lt (a.isLt))
  have f4 : bits w 19 5 = d.toNat := (bits_at hw 4 1 rfl rfl).trans (Nat.mod_eq_of_lt (d.isLt))
  have g5 : bits w 31 1 = bitOf p := (bits_at hw 6 1 rfl rfl).trans (Nat.mod_eq_of_lt (bitOf_lt p))
  have f5 : flag w 31 = p := flag_mod w 31 p g5
  apply decodeWord_of _ _ _ hwf
  rw [decodeRaw_C12 w mj]
  simp [decC12, f0, f1, f2, f3, f4, f5]

theorem RoundTrip.ldxWu (p : Bool) (d : BitVec 5) (a : BitVec 5) (b : BitVec 5) (l : BitVec 4) : RoundTrip.Statement (.ldxWu p d a b l) := by
  intro w hw hwf
  have enc : 301989920 + bitOf p * 2 ^ 31 + d.toNat * 2 ^ 19 + a.toNat * 2 ^ 14 + b.toNat * 2 ^ 9 + l.toNat * 2 ^ 0 = w := Option.some.inj hw
  have hw : w = digits [(l.toNat, 4), (2, 5), (b.toNat, 5), (a.toNat, 5), (d.toNat, 5), (18, 7), (bitOf p, 1)] := by
    simp only [digits, Nat.mod_eq_of_lt (bitOf_lt p), Nat.mod_eq_of_lt (d.isLt), Nat.mod_eq_of_lt (a.isLt), Nat.mod_eq_of_lt (b.isLt), Nat.mod_eq_of_lt (l.isLt)]; omega
  have mj : bits w 24 7 = 18 := (bits_at hw 5 1 rfl rfl)
  have f0 : bits w 0 4 = l.toNat := (bits_at hw 0 1 rfl rfl).trans (Nat.mod_eq_of_lt (l.isLt))
  have f1 : bits w 4 5 = 2 := (bits_at hw 1 1 rfl rfl)
  have f2 : bits w 9 5 = b.toNat := (bits_at hw 2 1 rfl rfl).trans (Nat.mod_eq_of_lt (b.isLt))
  have f3 : bits w 14 5 = a.toNat := (bits_at hw 3 1 rfl rfl).trans (Nat.mod_eq_of_lt (a.isLt))
  have f4 : bits w 19 5 = d.toNat := (bits_at hw 4 1 rfl rfl).trans (Nat.mod_eq_of_lt (d.isLt))
  have g5 : bits w 31 1 = bitOf p := (bits_at hw 6 1 rfl rfl).trans (Nat.mod_eq_of_lt (bitOf_lt p))
  have f5 : flag w 31 = p := flag_mod w 31 p g5
  apply decodeWord_of _ _ _ hwf
  rw [decodeRaw_C12 w mj]
  simp [decC12, f0, f1, f2, f3, f4, f5]

theorem RoundTrip.ldxD (p : Bool) (d : BitVec 5) (a : BitVec 5) (b : BitVec 5) (l : BitVec 4) : RoundTrip.Statement (.ldxD p d a b l) := by
  intro w hw hwf
  have enc : 301989936 + bitOf p * 2 ^ 31 + d.toNat * 2 ^ 19 + a.toNat * 2 ^ 14 + b.toNat * 2 ^ 9 + l.toNat * 2 ^ 0 = w := Option.some.inj hw
  have hw : w = digits [(l.toNat, 4), (3, 5), (b.toNat, 5), (a.toNat, 5), (d.toNat, 5), (18, 7), (bitOf p, 1)] := by
    simp only [digits, Nat.mod_eq_of_lt (bitOf_lt p), Nat.mod_eq_of_lt (d.isLt), Nat.mod_eq_of_lt (a.isLt), Nat.mod_eq_of_lt (b.isLt), Nat.mod_eq_of_lt (l.isLt)]; omega
  have mj : bits w 24 7 = 18 := (bits_at hw 5 1 rfl rfl)
  have f0 : bits w 0 4 = l.toNat := (bits_at hw 0 1 rfl rfl).trans (Nat.mod_eq_of_lt (l.isLt))
  have f1 : bits w 4 5 = 3 := (bits_at hw 1 1 rfl rfl)
  have f2 : bits w 9 5 = b.toNat := (bits_at hw 2 1 rfl rfl).trans (Nat.mod_eq_of_lt (b.isLt))
  have f3 : bits w 14 5 = a.toNat := (bits_at hw 3 1 rfl rfl).trans (Nat.mod_eq_of_lt (a.isLt))
  have f4 : bits w 19 5 = d.toNat := (bits_at hw 4 1 rfl rfl).trans (Nat.mod_eq_of_lt (d.isLt))
  have g5 : bits w 31 1 = bitOf p := (bits_at hw 6 1 rfl rfl).trans (Nat.mod_eq_of_lt (bitOf_lt p))
  have f5 : flag w 31 = p := flag_mod w 31 p g5
  apply decodeWord_of _ _ _ hwf
  rw [decodeRaw_C12 w mj]
  simp [decC12, f0, f1, f2, f3, f4, f5]

theorem RoundTrip.ldxB (p : Bool) (d : BitVec 5) (a : BitVec 5) (b : BitVec 5) (l : BitVec 4) : RoundTrip.Statement (.ldxB p d a b l) := by
  intro w hw hwf
  have enc : 301989952 + bitOf p * 2 ^ 31 + d.toNat * 2 ^ 19 + a.toNat * 2 ^ 14 + b.toNat * 2 ^ 9 + l.toNat * 2 ^ 0 = w := Option.some.inj hw
  have hw : w = digits [(l.toNat, 4), (4, 5), (b.toNat, 5), (a.toNat, 5), (d.toNat, 5), (18, 7), (bitOf p, 1)] := by
    simp only [digits, Nat.mod_eq_of_lt (bitOf_lt p), Nat.mod_eq_of_lt (d.isLt), Nat.mod_eq_of_lt (a.isLt), Nat.mod_eq_of_lt (b.isLt), Nat.mod_eq_of_lt (l.isLt)]; omega
  have mj : bits w 24 7 = 18 := (bits_at hw 5 1 rfl rfl)
  have f0 : bits w 0 4 = l.toNat := (bits_at hw 0 1 rfl rfl).trans (Nat.mod_eq_of_lt (l.isLt))
  have f1 : bits w 4 5 = 4 := (bits_at hw 1 1 rfl rfl)
  have f2 : bits w 9 5 = b.toNat := (bits_at hw 2 1 rfl rfl).trans (Nat.mod_eq_of_lt (b.isLt))
  have f3 : bits w 14 5 = a.toNat := (bits_at hw 3 1 rfl rfl).trans (Nat.mod_eq_of_lt (a.isLt))
  have f4 : bits w 19 5 = d.toNat := (bits_at hw 4 1 rfl rfl).trans (Nat.mod_eq_of_lt (d.isLt))
  have g5 : bits w 31 1 = bitOf p := (bits_at hw 6 1 rfl rfl).trans (Nat.mod_eq_of_lt (bitOf_lt p))
  have f5 : flag w 31 = p := flag_mod w 31 p g5
  apply decodeWord_of _ _ _ hwf
  rw [decodeRaw_C12 w mj]
  simp [decC12, f0, f1, f2, f3, f4, f5]

theorem RoundTrip.ldxH (p : Bool) (d : BitVec 5) (a : BitVec 5) (b : BitVec 5) (l : BitVec 4) : RoundTrip.Statement (.ldxH p d a b l) := by
  intro w hw hwf
  have enc : 301989968 + bitOf p * 2 ^ 31 + d.toNat * 2 ^ 19 + a.toNat * 2 ^ 14 + b.toNat * 2 ^ 9 + l.toNat * 2 ^ 0 = w := Option.some.inj hw
  have hw : w = digits [(l.toNat, 4), (5, 5), (b.toNat, 5), (a.toNat, 5), (d.toNat, 5), (18, 7), (bitOf p, 1)] := by
    simp only [digits, Nat.mod_eq_of_lt (bitOf_lt p), Nat.mod_eq_of_lt (d.isLt), Nat.mod_eq_of_lt (a.isLt), Nat.mod_eq_of_lt (b.isLt), Nat.mod_eq_of_lt (l.isLt)]; omega
  have mj : bits w 24 7 = 18 := (bits_at hw 5 1 rfl rfl)
  have f0 : bits w 0 4 = l.toNat := (bits_at hw 0 1 rfl rfl).trans (Nat.mod_eq_of_lt (l.isLt))
  have f1 : bits w 4 5 = 5 := (bits_at hw 1 1 rfl rfl)
  have f2 : bits w 9 5 = b.toNat := (bits_at hw 2 1 rfl rfl).trans (Nat.mod_eq_of_lt (b.isLt))
  have f3 : bits w 14 5 = a.toNat := (bits_at hw 3 1 rfl rfl).trans (Nat.mod_eq_of_lt (a.isLt))
  have f4 : bits w 19 5 = d.toNat := (bits_at hw 4 1 rfl rfl).trans (Nat.mod_eq_of_lt (d.isLt))
  have g5 : bits w 31 1 = bitOf p := (bits_at hw 6 1 rfl rfl).trans (Nat.mod_eq_of_lt (bitOf_lt p))
  have f5 : flag w 31 = p := flag_mod w 31 p g5
  apply decodeWord_of _ _ _ hwf
  rw [decodeRaw_C12 w mj]
  simp [decC12, f0, f1, f2, f3, f4, f5]

theorem RoundTrip.ldxW (p : Bool) (d : BitVec 5) (a : BitVec 5) (b : BitVec 5) (l : BitVec 4) : RoundTrip.Statement (.ldxW p d a b l) := by
  intro w hw hwf
  have enc : 301989984 + bitOf p * 2 ^ 31 + d.toNat * 2 ^ 19 + a.toNat * 2 ^ 14 + b.toNat * 2 ^ 9 + l.toNat * 2 ^ 0 = w := Option.some.inj hw
  have hw : w = digits [(l.toNat, 4), (6, 5), (b.toNat, 5), (a.toNat, 5), (d.toNat, 5), (18, 7), (bitOf p, 1)] := by
    simp only [digits, Nat.mod_eq_of_lt (bitOf_lt p), Nat.mod_eq_of_lt (d.isLt), Nat.mod_eq_of_lt (a.isLt), Nat.mod_eq_of_lt (b.isLt), Nat.mod_eq_of_lt (l.isLt)]; omega
  have mj : bits w 24 7 = 18 := (bits_at hw 5 1 rfl rfl)
  have f0 : bits w 0 4 = l.toNat := (bits_at hw 0 1 rfl rfl).trans (Nat.mod_eq_of_lt (l.isLt))
  have f1 : bits w 4 5 = 6 := (bits_at hw 1 1 rfl rfl)
  have f2 : bits w 9 5 = b.toNat := (bits_at hw 2 1 rfl rfl).trans (Nat.mod_eq_of_lt (b.isLt))
  have f3 : bits w 14 5 = a.toNat := (bits_at hw 3 1 rfl rfl).trans (Nat.mod_eq_of_lt (a.isLt))
  have f4 : bits w 19 5 = d.toNat := (bits_at hw 4 1 rfl rfl).trans (Nat.mod_eq_of_lt (d.isLt))
  have g5 : bits w 31 1 = bitOf p := (bits_at hw 6 1 rfl rfl).trans (Nat.mod_eq_of_lt (bitOf_lt p))
  have f5 : flag w 31 = p := flag_mod w 31 p g5
  apply decodeWord_of _ _ _ hwf
  rw [decodeRaw_C12 w mj]
  simp [decC12, f0, f1, f2, f3, f4, f5]

theorem RoundTrip.stxB (p : Bool) (d : BitVec 5) (a : BitVec 5) (b : BitVec 5) : RoundTrip.Statement (.stxB p d a b) := by
  intro w hw hwf
  have enc : 301990016 + bitOf p * 2 ^ 31 + d.toNat * 2 ^ 19 + a.toNat * 2 ^ 14 + b.toNat * 2 ^ 9 = w := Option.some.inj hw
  have hw : w = digits [(0, 4), (8, 5), (b.toNat, 5), (a.toNat, 5), (d.toNat, 5), (18, 7), (bitOf p, 1)] := by
    simp only [digits, Nat.mod_eq_of_lt (bitOf_lt p), Nat.mod_eq_of_lt (d.isLt), Nat.mod_eq_of_lt (a.isLt), Nat.mod_eq_of_lt (b.isLt)]; omega
  have mj : bits w 24 7 = 18 := (bits_at hw 5 1 rfl rfl)
  have f0 : bits w 0 9 = 128 := (bits_at hw 0 2 rfl rfl)
  have f1 : bits w 4 5 = 8 := (bits_at hw 1 1 rfl rfl)
  have f2 : bits w 9 5 = b.toNat := (bits_at hw 2 1 rfl rfl).trans (Nat.mod_eq_of_lt (b.isLt))
  have f3 : bits w 14 5 = a.toNat := (bits_at hw 3 1 rfl rfl).trans (Nat.mod_eq_of_lt (a.isLt))
  have f4 : bits w 19 5 = d.toNat := (bits_at hw 4 1 rfl rfl).trans (Nat.mod_eq_of_lt (d.isLt))
  have g5 : bits w 31 1 = bitOf p := (bits_at hw 6 1 rfl rfl).trans (Nat.mod_eq_of_lt (bitOf_lt p))
  have f5 : flag w 31 = p := flag_mod w 31 p g5
  apply decodeWord_of _ _ _ hwf
  rw [decodeRaw_C12 w mj]
  simp [decC12, f0, f1, f2, f3, f4, f5]

theorem RoundTrip.stxH (p : Bool) (d : BitVec 5) (a : BitVec 5) (b : BitVec 5) : RoundTrip.Statement (.stxH p d a b) := by
  intro w hw hwf
  have enc : 301990032 + bitOf p * 2 ^ 31 + d.toNat * 2 ^ 19 + a.toNat * 2 ^ 14 + b.toNat * 2 ^ 9 = w := Option.some.inj hw
  have hw : w = digits [(0, 4), (9, 5), (b.toNat, 5), (a.toNat, 5), (d.toNat, 5), (18, 7), (bitOf p, 1)] := by
    simp only [digits, Nat.mod_eq_of_lt (bitOf_lt p), Nat.mod_eq_of_lt (d.isLt), Nat.mod_eq_of_lt (a.isLt), Nat.mod_eq_of_lt (b.isLt)]; omega
  have mj : bits w 24 7 = 18 := (bits_at hw 5 1 rfl rfl)
  have f0 : bits w 0 9 = 144 := (bits_at hw 0 2 rfl rfl)
  have f1 : bits w 4 5 = 9 := (bits_at hw 1 1 rfl rfl)
  have f2 : bits w 9 5 = b.toNat := (bits_at hw 2 1 rfl rfl).trans (Nat.mod_eq_of_lt (b.isLt))
  have f3 : bits w 14 5 = a.toNat := (bits_at hw 3 1 rfl rfl).trans (Nat.mod_eq_of_lt (a.isLt))
  have f4 : bits w 19 5 = d.toNat := (bits_at hw 4 1 rfl rfl).trans (Nat.mod_eq_of_lt (d.isLt))
  have g5 : bits w 31 1 = bitOf p := (bits_at hw 6 1 rfl rfl).trans (Nat.mod_eq_of_lt (bitOf_lt p))
  have f5 : flag w 31 = p := flag_mod w 31 p g5
  apply decodeWord_of _ _ _ hwf
  rw [decodeRaw_C12 w mj]
  simp [decC12, f0, f1, f2, f3, f4, f5]

theorem RoundTrip.stxW (p : Bool) (d : BitVec 5) (a : BitVec 5) (b : BitVec 5) : RoundTrip.Statement (.stxW p d a b) := by
  intro w hw hwf
  have enc : 301990048 + bitOf p * 2 ^ 31 + d.toNat * 2 ^ 19 + a.toNat * 2 ^ 14 + b.toNat * 2 ^ 9 = w := Option.some.inj hw
  have hw : w = digits [(0, 4), (10, 5), (b.toNat, 5), (a.toNat, 5), (d.toNat, 5), (18, 7), (bitOf p, 1)] := by
    simp only [digits, Nat.mod_eq_of_lt (bitOf_lt p), Nat.mod_eq_of_lt (d.isLt), Nat.mod_eq_of_lt (a.isLt), Nat.mod_eq_of_lt (b.isLt)]; omega
  have mj : bits w 24 7 = 18 := (bits_at hw 5 1 rfl rfl)
  have f0 : bits w 0 9 = 160 := (bits_at hw 0 2 rfl rfl)
  have f1 : bits w 4 5 = 10 := (bits_at hw 1 1 rfl rfl)
  have f2 : bits w 9 5 = b.toNat := (bits_at hw 2 1 rfl rfl).trans (Nat.mod_eq_of_lt (b.isLt))
  have f3 : bits w 14 5 = a.toNat := (bits_at hw 3 1 rfl rfl).trans (Nat.mod_eq_of_lt (a.isLt))
  have f4 : bits w 19 5 = d.toNat := (bits_at hw 4 1 rfl rfl).trans (Nat.mod_eq_of_lt (d.isLt))
  have g5 : bits w 31 1 = bitOf p := (bits_at hw 6 1 rfl rfl).trans (Nat.mod_eq_of_lt (bitOf_lt p))
  have f5 : flag w 31 = p := flag_mod w 31 p g5
  apply decodeWord_of _ _ _ hwf
  rw [decodeRaw_C12 w mj]
  simp [decC12, f0, f1, f2, f3, f4, f5]

theorem RoundTrip.stxD (p : Bool) (d : BitVec 5) (a : BitVec 5) (b : BitVec 5) : RoundTrip.Statement (.stxD p d a b) := by
  intro w hw hwf
  have enc : 301990064 + bitOf p * 2 ^ 31 + d.toNat * 2 ^ 19 + a.toNat * 2 ^ 14 + b.toNat * 2 ^ 9 = w := Option.some.inj hw
  have hw : w = digits [(0, 4), (11, 5), (b.toNat, 5), (a.toNat, 5), (d.toNat, 5), (18, 7), (bitOf p, 1)] := by
    simp only [digits, Nat.mod_eq_of_lt (bitOf_lt p), Nat.mod_eq_of_lt (d.isLt), Nat.mod_eq_of_lt (a.isLt), Nat.mod_eq_of_lt (b.isLt)]; omega
  have mj : bits w 24 7 = 18 := (bits_at hw 5 1 rfl rfl)
  have f0 : bits w 0 9 = 176 := (bits_at hw 0 2 rfl rfl)
  have f1 : bits w 4 5 = 11 := (bits_at hw 1 1 rfl rfl)
  have f2 : bits w 9 5 = b.toNat := (bits_at hw 2 1 rfl rfl).trans (Nat.mod_eq_of_lt (b.isLt))
  have f3 : bits w 14 5 = a.toNat := (bits_at hw 3 1 rfl rfl).trans (Nat.mod_eq_of_lt (a.isLt))
  have f4 : bits w 19 5 = d.toNat := (bits_at hw 4 1 rfl rfl).trans (Nat.mod_eq_of_lt (d.isLt))
  have g5 : bits w 31 1 = bitOf p := (bits_at hw 6 1 rfl rfl).trans (Nat.mod_eq_of_lt (bitOf_lt p))
  have f5 : flag w 31 = p := flag_mod w 31 p g5
  apply decodeWord_of _ _ _ hwf
  rw [decodeRaw_C12 w mj]
  simp [decC12, f0, f1, f2, f3, f4, f5]

theorem RoundTrip.vld (p : Bool) (d : BitVec 5) (a : BitVec 5) (i : BitVec 7) (l : BitVec 4) : RoundTrip.Statement (.vld p d a i l) := by
  intro w hw hwf
  have enc : 318767104 + bitOf p * 2 ^ 31 + d.toNat * 2 ^ 19 + a.toNat * 2 ^ 14 + i.toNat * 2 ^ 4 + l.toNat * 2 ^ 0 = w := Option.some.inj hw
  have hw : w = digits [(l.toNat, 4), (i.toNat, 7), (0, 3), (a.toNat, 5), (d.toNat, 5), (19, 7), (bitOf p, 1)] := by
    simp only [digits, Nat.mod_eq_of_lt (bitOf_lt p), Nat.mod_eq_of_lt (d.isLt), Nat.mod_eq_of_lt (a.isLt), Nat.mod_eq_of_lt (i.isLt), Nat.mod_eq_of_lt (l.isLt)]; omega
  have mj : bits w 24 7 = 19 := (bits_at hw 5 1 rfl rfl)
  have f0 : bits w 0 4 = l.toNat := (bits_at hw 0 1 rfl rfl).trans (Nat.mod_eq_of_lt (l.isLt))
  have f1 : bits w 4 7 = i.toNat := (bits_at hw 1 1 rfl rfl).trans (Nat.mod_eq_of_lt (i.isLt))
  have f2 : bits w 11 3 = 0 := (bits_at hw 2 1 rfl rfl)
  have f3 : bits w 14 5 = a.toNat := (bits_at hw 3 1 rfl rfl).trans (Nat.mod_eq_of_lt (a.isLt))
  have f4 : bits w 19 5 = d.toNat := (bits_at hw 4 1 rfl rfl).trans (Nat.mod_eq_of_lt (d.isLt))
  have g5 : bits w 31 1 = bitOf p := (bits_at hw 6 1 rfl rfl).trans (Nat.mod_eq_of_lt (bitOf_lt p))
  have f5 : flag w 31 = p := flag_mod w 31 p g5
  apply decodeWord_of _ _ _ hwf
  rw [decodeRaw_C13 w mj]
  simp [decC13, f0, f1, f2, f3, f4, f5]

theorem RoundTrip.vst (p : Bool) (d : BitVec 5) (a : BitVec 5) (i : BitVec 7) : RoundTrip.Statement (.vst p d a i) := by
  intro w hw hwf
  have enc : 318769152 + bitOf p * 2 ^ 31 + d.toNat * 2 ^ 19 + a.toNat * 2 ^ 14 + i.toNat * 2 ^ 4 = w := Option.some.inj hw
  have hw : w = digits [(0, 4), (i.toNat, 7), (1, 3), (a.toNat, 5), (d.toNat, 5), (19, 7), (bitOf p, 1)] := by
    simp only [digits, Nat.mod_eq_of_lt (bitOf_lt p), Nat.mod_eq_of_lt (d.isLt), Nat.mod_eq_of_lt (a.isLt), Nat.mod_eq_of_lt (i.isLt)]; omega
  have mj : bits w 24 7 = 19 := (bits_at hw 5 1 rfl rfl)
  have f0 : bits w 0 4 = 0 := (bits_at hw 0 1 rfl rfl)
  have f1 : bits w 4 7 = i.toNat := (bits_at hw 1 1 rfl rfl).trans (Nat.mod_eq_of_lt (i.isLt))
  have f2 : bits w 11 3 = 1 := (bits_at hw 2 1 rfl rfl)
  have f3 : bits w 14 5 = a.toNat := (bits_at hw 3 1 rfl rfl).trans (Nat.mod_eq_of_lt (a.isLt))
  have f4 : bits w 19 5 = d.toNat := (bits_at hw 4 1 rfl rfl).trans (Nat.mod_eq_of_lt (d.isLt))
  have g5 : bits w 31 1 = bitOf p := (bits_at hw 6 1 rfl rfl).trans (Nat.mod_eq_of_lt (bitOf_lt p))
  have f5 : flag w 31 = p := flag_mod w 31 p g5
  apply decodeWord_of _ _ _ hwf
  rw [decodeRaw_C13 w mj]
  simp [decC13, f0, f1, f2, f3, f4, f5]

theorem RoundTrip.vgath (p : Bool) (d : BitVec 5) (a : BitVec 5) (b : BitVec 5) (m : BitVec 3) (e : BitVec 2) (l : BitVec 4) : RoundTrip.Statement (.vgath p d a b m e l) := by
  intro w hw hwf
  have enc : 335544320 + bitOf p * 2 ^ 31 + d.toNat * 2 ^ 19 + a.toNat * 2 ^ 14 + b.toNat * 2 ^ 9 + m.toNat * 2 ^ 6 + e.toNat * 2 ^ 4 + l.toNat * 2 ^ 0 = w := Option.some.inj hw
  have hw : w = digits [(l.toNat, 4), (e.toNat, 2), (m.toNat, 3), (b.toNat, 5), (a.toNat, 5), (d.toNat, 5), (20, 7), (bitOf p, 1)] := by
    simp only [digits, Nat.mod_eq_of_lt (bitOf_lt p), Nat.mod_eq_of_lt (d.isLt), Nat.mod_eq_of_lt (a.isLt), Nat.mod_eq_of_lt (b.isLt), Nat.mod_eq_of_lt (m.isLt), Nat.mod_eq_of_lt (e.isLt), Nat.mod_eq_of_lt (l.isLt)]; omega
  have mj : bits w 24 7 = 20 := (bits_at hw 6 1 rfl rfl)
  have f0 : bits w 0 4 = l.toNat := (bits_at hw 0 1 rfl rfl).trans (Nat.mod_eq_of_lt (l.isLt))
  have f1 : bits w 4 2 = e.toNat := (bits_at hw 1 1 rfl rfl).trans (Nat.mod_eq_of_lt (e.isLt))
  have f2 : bits w 6 3 = m.toNat := (bits_at hw 2 1 rfl rfl).trans (Nat.mod_eq_of_lt (m.isLt))
  have f3 : bits w 9 5 = b.toNat := (bits_at hw 3 1 rfl rfl).trans (Nat.mod_eq_of_lt (b.isLt))
  have f4 : bits w 14 5 = a.toNat := (bits_at hw 4 1 rfl rfl).trans (Nat.mod_eq_of_lt (a.isLt))
  have f5 : bits w 19 5 = d.toNat := (bits_at hw 5 1 rfl rfl).trans (Nat.mod_eq_of_lt (d.isLt))
  have g6 : bits w 31 1 = bitOf p := (bits_at hw 7 1 rfl rfl).trans (Nat.mod_eq_of_lt (bitOf_lt p))
  have f6 : flag w 31 = p := flag_mod w 31 p g6
  apply decodeWord_of _ _ _ hwf
  rw [decodeRaw_C14 w mj]
  simp [decC14, f0, f1, f2, f3, f4, f5, f6]

theorem RoundTrip.vscat (p : Bool) (d : BitVec 5) (a : BitVec 5) (b : BitVec 5) (m : BitVec 3) (e : BitVec 2) : RoundTrip.Statement (.vscat p d a b m e) := by
  intro w hw hwf
  have enc : 352321536 + bitOf p * 2 ^ 31 + d.toNat * 2 ^ 19 + a.toNat * 2 ^ 14 + b.toNat * 2 ^ 9 + m.toNat * 2 ^ 6 + e.toNat * 2 ^ 4 = w := Option.some.inj hw
  have hw : w = digits [(0, 4), (e.toNat, 2), (m.toNat, 3), (b.toNat, 5), (a.toNat, 5), (d.toNat, 5), (21, 7), (bitOf p, 1)] := by
    simp only [digits, Nat.mod_eq_of_lt (bitOf_lt p), Nat.mod_eq_of_lt (d.isLt), Nat.mod_eq_of_lt (a.isLt), Nat.mod_eq_of_lt (b.isLt), Nat.mod_eq_of_lt (m.isLt), Nat.mod_eq_of_lt (e.isLt)]; omega
  have mj : bits w 24 7 = 21 := (bits_at hw 6 1 rfl rfl)
  have f0 : bits w 0 4 = 0 := (bits_at hw 0 1 rfl rfl)
  have f1 : bits w 4 2 = e.toNat := (bits_at hw 1 1 rfl rfl).trans (Nat.mod_eq_of_lt (e.isLt))
  have f2 : bits w 6 3 = m.toNat := (bits_at hw 2 1 rfl rfl).trans (Nat.mod_eq_of_lt (m.isLt))
  have f3 : bits w 9 5 = b.toNat := (bits_at hw 3 1 rfl rfl).trans (Nat.mod_eq_of_lt (b.isLt))
  have f4 : bits w 14 5 = a.toNat := (bits_at hw 4 1 rfl rfl).trans (Nat.mod_eq_of_lt (a.isLt))
  have f5 : bits w 19 5 = d.toNat := (bits_at hw 5 1 rfl rfl).trans (Nat.mod_eq_of_lt (d.isLt))
  have g6 : bits w 31 1 = bitOf p := (bits_at hw 7 1 rfl rfl).trans (Nat.mod_eq_of_lt (bitOf_lt p))
  have f6 : flag w 31 = p := flag_mod w 31 p g6
  apply decodeWord_of _ _ _ hwf
  rw [decodeRaw_C15 w mj]
  simp [decC15, f0, f1, f2, f3, f4, f5, f6]

theorem RoundTrip.vldm (p : Bool) (d : BitVec 5) (a : BitVec 5) (m : BitVec 3) (e : BitVec 2) (l : BitVec 4) : RoundTrip.Statement (.vldm p d a m e l) := by
  intro w hw hwf
  have enc : 369098752 + bitOf p * 2 ^ 31 + d.toNat * 2 ^ 19 + a.toNat * 2 ^ 14 + m.toNat * 2 ^ 6 + e.toNat * 2 ^ 4 + l.toNat * 2 ^ 0 = w := Option.some.inj hw
  have hw : w = digits [(l.toNat, 4), (e.toNat, 2), (m.toNat, 3), (0, 5), (a.toNat, 5), (d.toNat, 5), (22, 7), (bitOf p, 1)] := by
    simp only [digits, Nat.mod_eq_of_lt (bitOf_lt p), Nat.mod_eq_of_lt (d.isLt), Nat.mod_eq_of_lt (a.isLt), Nat.mod_eq_of_lt (m.isLt), Nat.mod_eq_of_lt (e.isLt), Nat.mod_eq_of_lt (l.isLt)]; omega
  have mj : bits w 24 7 = 22 := (bits_at hw 6 1 rfl rfl)
  have f0 : bits w 0 4 = l.toNat := (bits_at hw 0 1 rfl rfl).trans (Nat.mod_eq_of_lt (l.isLt))
  have f1 : bits w 4 2 = e.toNat := (bits_at hw 1 1 rfl rfl).trans (Nat.mod_eq_of_lt (e.isLt))
  have f2 : bits w 6 3 = m.toNat := (bits_at hw 2 1 rfl rfl).trans (Nat.mod_eq_of_lt (m.isLt))
  have f3 : bits w 9 5 = 0 := (bits_at hw 3 1 rfl rfl)
  have f4 : bits w 14 5 = a.toNat := (bits_at hw 4 1 rfl rfl).trans (Nat.mod_eq_of_lt (a.isLt))
  have f5 : bits w 19 5 = d.toNat := (bits_at hw 5 1 rfl rfl).trans (Nat.mod_eq_of_lt (d.isLt))
  have g6 : bits w 31 1 = bitOf p := (bits_at hw 7 1 rfl rfl).trans (Nat.mod_eq_of_lt (bitOf_lt p))
  have f6 : flag w 31 = p := flag_mod w 31 p g6
  apply decodeWord_of _ _ _ hwf
  rw [decodeRaw_C16 w mj]
  simp [decC16, f0, f1, f2, f3, f4, f5, f6]

theorem RoundTrip.vstm (p : Bool) (d : BitVec 5) (a : BitVec 5) (m : BitVec 3) (e : BitVec 2) : RoundTrip.Statement (.vstm p d a m e) := by
  intro w hw hwf
  have enc : 385875968 + bitOf p * 2 ^ 31 + d.toNat * 2 ^ 19 + a.toNat * 2 ^ 14 + m.toNat * 2 ^ 6 + e.toNat * 2 ^ 4 = w := Option.some.inj hw
  have hw : w = digits [(0, 4), (e.toNat, 2), (m.toNat, 3), (0, 5), (a.toNat, 5), (d.toNat, 5), (23, 7), (bitOf p, 1)] := by
    simp only [digits, Nat.mod_eq_of_lt (bitOf_lt p), Nat.mod_eq_of_lt (d.isLt), Nat.mod_eq_of_lt (a.isLt), Nat.mod_eq_of_lt (m.isLt), Nat.mod_eq_of_lt (e.isLt)]; omega
  have mj : bits w 24 7 = 23 := (bits_at hw 6 1 rfl rfl)
  have f0 : bits w 0 4 = 0 := (bits_at hw 0 1 rfl rfl)
  have f1 : bits w 4 2 = e.toNat := (bits_at hw 1 1 rfl rfl).trans (Nat.mod_eq_of_lt (e.isLt))
  have f2 : bits w 6 3 = m.toNat := (bits_at hw 2 1 rfl rfl).trans (Nat.mod_eq_of_lt (m.isLt))
  have f3 : bits w 9 5 = 0 := (bits_at hw 3 1 rfl rfl)
  have f4 : bits w 14 5 = a.toNat := (bits_at hw 4 1 rfl rfl).trans (Nat.mod_eq_of_lt (a.isLt))
  have f5 : bits w 19 5 = d.toNat := (bits_at hw 5 1 rfl rfl).trans (Nat.mod_eq_of_lt (d.isLt))
  have g6 : bits w 31 1 = bitOf p := (bits_at hw 7 1 rfl rfl).trans (Nat.mod_eq_of_lt (bitOf_lt p))
  have f6 : flag w 31 = p := flag_mod w 31 p g6
  apply decodeWord_of _ _ _ hwf
  rw [decodeRaw_C17 w mj]
  simp [decC17, f0, f1, f2, f3, f4, f5, f6]

theorem RoundTrip.ldfe (p : Bool) (d : BitVec 5) (a : BitVec 5) (l : BitVec 4) : RoundTrip.Statement (.ldfe p d a l) := by
  intro w hw hwf
  have enc : 402653184 + bitOf p * 2 ^ 31 + d.toNat * 2 ^ 19 + a.toNat * 2 ^ 14 + l.toNat * 2 ^ 0 = w := Option.some.inj hw
  have hw : w = digits [(l.toNat, 4), (0, 10), (a.toNat, 5), (d.toNat, 5), (24, 7), (bitOf p, 1)] := by
    simp only [digits, Nat.mod_eq_of_lt (bitOf_lt p), Nat.mod_eq_of_lt (d.isLt), Nat.mod_eq_of_lt (a.isLt), Nat.mod_eq_of_lt (l.isLt)]; omega
  have mj : bits w 24 7 = 24 := (bits_at hw 4 1 rfl rfl)
  have f0 : bits w 0 4 = l.toNat := (bits_at hw 0 1 rfl rfl).trans (Nat.mod_eq_of_lt (l.isLt))
  have f1 : bits w 4 10 = 0 := (bits_at hw 1 1 rfl rfl)
  have f2 : bits w 14 5 = a.toNat := (bits_at hw 2 1 rfl rfl).trans (Nat.mod_eq_of_lt (a.isLt))
  have f3 : bits w 19 5 = d.toNat := (bits_at hw 3 1 rfl rfl).trans (Nat.mod_eq_of_lt (d.isLt))
  have g4 : bits w 31 1 = bitOf p := (bits_at hw 5 1 rfl rfl).trans (Nat.mod_eq_of_lt (bitOf_lt p))
  have f4 : flag w 31 = p := flag_mod w 31 p g4
  apply decodeWord_of _ _ _ hwf
  rw [decodeRaw_C18 w mj]
  simp [decC18, f0, f1, f2, f3, f4]

theorem RoundTrip.ldff (p : Bool) (d : BitVec 5) (a : BitVec 5) (l : BitVec 4) : RoundTrip.Statement (.ldff p d a l) := by
  intro w hw hwf
  have enc : 402653200 + bitOf p * 2 ^ 31 + d.toNat * 2 ^ 19 + a.toNat * 2 ^ 14 + l.toNat * 2 ^ 0 = w := Option.some.inj hw
  have hw : w = digits [(l.toNat, 4), (1, 10), (a.toNat, 5), (d.toNat, 5), (24, 7), (bitOf p, 1)] := by
    simp only [digits, Nat.mod_eq_of_lt (bitOf_lt p), Nat.mod_eq_of_lt (d.isLt), Nat.mod_eq_of_lt (a.isLt), Nat.mod_eq_of_lt (l.isLt)]; omega
  have mj : bits w 24 7 = 24 := (bits_at hw 4 1 rfl rfl)
  have f0 : bits w 0 4 = l.toNat := (bits_at hw 0 1 rfl rfl).trans (Nat.mod_eq_of_lt (l.isLt))
  have f1 : bits w 4 10 = 1 := (bits_at hw 1 1 rfl rfl)
  have f2 : bits w 14 5 = a.toNat := (bits_at hw 2 1 rfl rfl).trans (Nat.mod_eq_of_lt (a.isLt))
  have f3 : bits w 19 5 = d.toNat := (bits_at hw 3 1 rfl rfl).trans (Nat.mod_eq_of_lt (d.isLt))
  have g4 : bits w 31 1 = bitOf p := (bits_at hw 5 1 rfl rfl).trans (Nat.mod_eq_of_lt (bitOf_lt p))
  have f4 : flag w 31 = p := flag_mod w 31 p g4
  apply decodeWord_of _ _ _ hwf
  rw [decodeRaw_C18 w mj]
  simp [decC18, f0, f1, f2, f3, f4]

theorem RoundTrip.stfe (p : Bool) (d : BitVec 5) (a : BitVec 5) : RoundTrip.Statement (.stfe p d a) := by
  intro w hw hwf
  have enc : 402653216 + bitOf p * 2 ^ 31 + d.toNat * 2 ^ 19 + a.toNat * 2 ^ 14 = w := Option.some.inj hw
  have hw : w = digits [(0, 4), (2, 10), (a.toNat, 5), (d.toNat, 5), (24, 7), (bitOf p, 1)] := by
    simp only [digits, Nat.mod_eq_of_lt (bitOf_lt p), Nat.mod_eq_of_lt (d.isLt), Nat.mod_eq_of_lt (a.isLt)]; omega
  have mj : bits w 24 7 = 24 := (bits_at hw 4 1 rfl rfl)
  have f0 : bits w 0 14 = 32 := (bits_at hw 0 2 rfl rfl)
  have f1 : bits w 4 10 = 2 := (bits_at hw 1 1 rfl rfl)
  have f2 : bits w 14 5 = a.toNat := (bits_at hw 2 1 rfl rfl).trans (Nat.mod_eq_of_lt (a.isLt))
  have f3 : bits w 19 5 = d.toNat := (bits_at hw 3 1 rfl rfl).trans (Nat.mod_eq_of_lt (d.isLt))
  have g4 : bits w 31 1 = bitOf p := (bits_at hw 5 1 rfl rfl).trans (Nat.mod_eq_of_lt (bitOf_lt p))
  have f4 : flag w 31 = p := flag_mod w 31 p g4
  apply decodeWord_of _ _ _ hwf
  rw [decodeRaw_C18 w mj]
  simp [decC18, f0, f1, f2, f3, f4]

theorem RoundTrip.stff (p : Bool) (d : BitVec 5) (a : BitVec 5) : RoundTrip.Statement (.stff p d a) := by
  intro w hw hwf
  have enc : 402653232 + bitOf p * 2 ^ 31 + d.toNat * 2 ^ 19 + a.toNat * 2 ^ 14 = w := Option.some.inj hw
  have hw : w = digits [(0, 4), (3, 10), (a.toNat, 5), (d.toNat, 5), (24, 7), (bitOf p, 1)] := by
    simp only [digits, Nat.mod_eq_of_lt (bitOf_lt p), Nat.mod_eq_of_lt (d.isLt), Nat.mod_eq_of_lt (a.isLt)]; omega
  have mj : bits w 24 7 = 24 := (bits_at hw 4 1 rfl rfl)
  have f0 : bits w 0 14 = 48 := (bits_at hw 0 2 rfl rfl)
  have f1 : bits w 4 10 = 3 := (bits_at hw 1 1 rfl rfl)
  have f2 : bits w 14 5 = a.toNat := (bits_at hw 2 1 rfl rfl).trans (Nat.mod_eq_of_lt (a.isLt))
  have f3 : bits w 19 5 = d.toNat := (bits_at hw 3 1 rfl rfl).trans (Nat.mod_eq_of_lt (d.isLt))
  have g4 : bits w 31 1 = bitOf p := (bits_at hw 5 1 rfl rfl).trans (Nat.mod_eq_of_lt (bitOf_lt p))
  have f4 : flag w 31 = p := flag_mod w 31 p g4
  apply decodeWord_of _ _ _ hwf
  rw [decodeRaw_C18 w mj]
  simp [decC18, f0, f1, f2, f3, f4]

theorem RoundTrip.amoadd (p : Bool) (d : BitVec 5) (a : BitVec 5) (s : Scope) (z : Bool) (l : BitVec 4) : RoundTrip.Statement (.amoadd p d a s z l) := by
  intro w hw hwf
  have enc : 419430400 + bitOf p * 2 ^ 31 + d.toNat * 2 ^ 19 + a.toNat * 2 ^ 14 + s.code * 2 ^ 11 + bitOf z * 2 ^ 6 + l.toNat * 2 ^ 0 = w := Option.some.inj hw
  have hw : w = digits [(l.toNat, 4), (0, 2), (bitOf z, 1), (0, 4), (s.code, 3), (a.toNat, 5), (d.toNat, 5), (25, 7), (bitOf p, 1)] := by
    simp only [digits, Nat.mod_eq_of_lt (bitOf_lt p), Nat.mod_eq_of_lt (d.isLt), Nat.mod_eq_of_lt (a.isLt), Nat.mod_eq_of_lt (Scope.code_lt s), Nat.mod_eq_of_lt (bitOf_lt z), Nat.mod_eq_of_lt (l.isLt)]; omega
  have mj : bits w 24 7 = 25 := (bits_at hw 7 1 rfl rfl)
  have f0 : bits w 0 4 = l.toNat := (bits_at hw 0 1 rfl rfl).trans (Nat.mod_eq_of_lt (l.isLt))
  have f1 : bits w 4 2 = 0 := (bits_at hw 1 1 rfl rfl)
  have f2 : bits w 7 4 = 0 := (bits_at hw 3 1 rfl rfl)
  have f3 : bits w 11 3 = s.code := (bits_at hw 4 1 rfl rfl).trans (Nat.mod_eq_of_lt (Scope.code_lt s))
  have f4 : bits w 14 5 = a.toNat := (bits_at hw 5 1 rfl rfl).trans (Nat.mod_eq_of_lt (a.isLt))
  have f5 : bits w 19 5 = d.toNat := (bits_at hw 6 1 rfl rfl).trans (Nat.mod_eq_of_lt (d.isLt))
  have g6 : bits w 6 1 = bitOf z := (bits_at hw 2 1 rfl rfl).trans (Nat.mod_eq_of_lt (bitOf_lt z))
  have f6 : flag w 6 = z := flag_mod w 6 z g6
  have g7 : bits w 31 1 = bitOf p := (bits_at hw 8 1 rfl rfl).trans (Nat.mod_eq_of_lt (bitOf_lt p))
  have f7 : flag w 31 = p := flag_mod w 31 p g7
  apply decodeWord_of _ _ _ hwf
  rw [decodeRaw_C19 w mj]
  simp [decC19, f0, f1, f2, f3, f4, f5, f6, f7, Scope.ofCode_code]

theorem RoundTrip.amoand (p : Bool) (d : BitVec 5) (a : BitVec 5) (s : Scope) (z : Bool) (l : BitVec 4) : RoundTrip.Statement (.amoand p d a s z l) := by
  intro w hw hwf
  have enc : 419430528 + bitOf p * 2 ^ 31 + d.toNat * 2 ^ 19 + a.toNat * 2 ^ 14 + s.code * 2 ^ 11 + bitOf z * 2 ^ 6 + l.toNat * 2 ^ 0 = w := Option.some.inj hw
  have hw : w = digits [(l.toNat, 4), (0, 2), (bitOf z, 1), (1, 4), (s.code, 3), (a.toNat, 5), (d.toNat, 5), (25, 7), (bitOf p, 1)] := by
    simp only [digits, Nat.mod_eq_of_lt (bitOf_lt p), Nat.mod_eq_of_lt (d.isLt), Nat.mod_eq_of_lt (a.isLt), Nat.mod_eq_of_lt (Scope.code_lt s), Nat.mod_eq_of_lt (bitOf_lt z), Nat.mod_eq_of_lt (l.isLt)]; omega
  have mj : bits w 24 7 = 25 := (bits_at hw 7 1 rfl rfl)
  have f0 : bits w 0 4 = l.toNat := (bits_at hw 0 1 rfl rfl).trans (Nat.mod_eq_of_lt (l.isLt))
  have f1 : bits w 4 2 = 0 := (bits_at hw 1 1 rfl rfl)
  have f2 : bits w 7 4 = 1 := (bits_at hw 3 1 rfl rfl)
  have f3 : bits w 11 3 = s.code := (bits_at hw 4 1 rfl rfl).trans (Nat.mod_eq_of_lt (Scope.code_lt s))
  have f4 : bits w 14 5 = a.toNat := (bits_at hw 5 1 rfl rfl).trans (Nat.mod_eq_of_lt (a.isLt))
  have f5 : bits w 19 5 = d.toNat := (bits_at hw 6 1 rfl rfl).trans (Nat.mod_eq_of_lt (d.isLt))
  have g6 : bits w 6 1 = bitOf z := (bits_at hw 2 1 rfl rfl).trans (Nat.mod_eq_of_lt (bitOf_lt z))
  have f6 : flag w 6 = z := flag_mod w 6 z g6
  have g7 : bits w 31 1 = bitOf p := (bits_at hw 8 1 rfl rfl).trans (Nat.mod_eq_of_lt (bitOf_lt p))
  have f7 : flag w 31 = p := flag_mod w 31 p g7
  apply decodeWord_of _ _ _ hwf
  rw [decodeRaw_C19 w mj]
  simp [decC19, f0, f1, f2, f3, f4, f5, f6, f7, Scope.ofCode_code]

theorem RoundTrip.amoor (p : Bool) (d : BitVec 5) (a : BitVec 5) (s : Scope) (z : Bool) (l : BitVec 4) : RoundTrip.Statement (.amoor p d a s z l) := by
  intro w hw hwf
  have enc : 419430656 + bitOf p * 2 ^ 31 + d.toNat * 2 ^ 19 + a.toNat * 2 ^ 14 + s.code * 2 ^ 11 + bitOf z * 2 ^ 6 + l.toNat * 2 ^ 0 = w := Option.some.inj hw
  have hw : w = digits [(l.toNat, 4), (0, 2), (bitOf z, 1), (2, 4), (s.code, 3), (a.toNat, 5), (d.toNat, 5), (25, 7), (bitOf p, 1)] := by
    simp only [digits, Nat.mod_eq_of_lt (bitOf_lt p), Nat.mod_eq_of_lt (d.isLt), Nat.mod_eq_of_lt (a.isLt), Nat.mod_eq_of_lt (Scope.code_lt s), Nat.mod_eq_of_lt (bitOf_lt z), Nat.mod_eq_of_lt (l.isLt)]; omega
  have mj : bits w 24 7 = 25 := (bits_at hw 7 1 rfl rfl)
  have f0 : bits w 0 4 = l.toNat := (bits_at hw 0 1 rfl rfl).trans (Nat.mod_eq_of_lt (l.isLt))
  have f1 : bits w 4 2 = 0 := (bits_at hw 1 1 rfl rfl)
  have f2 : bits w 7 4 = 2 := (bits_at hw 3 1 rfl rfl)
  have f3 : bits w 11 3 = s.code := (bits_at hw 4 1 rfl rfl).trans (Nat.mod_eq_of_lt (Scope.code_lt s))
  have f4 : bits w 14 5 = a.toNat := (bits_at hw 5 1 rfl rfl).trans (Nat.mod_eq_of_lt (a.isLt))
  have f5 : bits w 19 5 = d.toNat := (bits_at hw 6 1 rfl rfl).trans (Nat.mod_eq_of_lt (d.isLt))
  have g6 : bits w 6 1 = bitOf z := (bits_at hw 2 1 rfl rfl).trans (Nat.mod_eq_of_lt (bitOf_lt z))
  have f6 : flag w 6 = z := flag_mod w 6 z g6
  have g7 : bits w 31 1 = bitOf p := (bits_at hw 8 1 rfl rfl).trans (Nat.mod_eq_of_lt (bitOf_lt p))
  have f7 : flag w 31 = p := flag_mod w 31 p g7
  apply decodeWord_of _ _ _ hwf
  rw [decodeRaw_C19 w mj]
  simp [decC19, f0, f1, f2, f3, f4, f5, f6, f7, Scope.ofCode_code]

theorem RoundTrip.amoxor (p : Bool) (d : BitVec 5) (a : BitVec 5) (s : Scope) (z : Bool) (l : BitVec 4) : RoundTrip.Statement (.amoxor p d a s z l) := by
  intro w hw hwf
  have enc : 419430784 + bitOf p * 2 ^ 31 + d.toNat * 2 ^ 19 + a.toNat * 2 ^ 14 + s.code * 2 ^ 11 + bitOf z * 2 ^ 6 + l.toNat * 2 ^ 0 = w := Option.some.inj hw
  have hw : w = digits [(l.toNat, 4), (0, 2), (bitOf z, 1), (3, 4), (s.code, 3), (a.toNat, 5), (d.toNat, 5), (25, 7), (bitOf p, 1)] := by
    simp only [digits, Nat.mod_eq_of_lt (bitOf_lt p), Nat.mod_eq_of_lt (d.isLt), Nat.mod_eq_of_lt (a.isLt), Nat.mod_eq_of_lt (Scope.code_lt s), Nat.mod_eq_of_lt (bitOf_lt z), Nat.mod_eq_of_lt (l.isLt)]; omega
  have mj : bits w 24 7 = 25 := (bits_at hw 7 1 rfl rfl)
  have f0 : bits w 0 4 = l.toNat := (bits_at hw 0 1 rfl rfl).trans (Nat.mod_eq_of_lt (l.isLt))
  have f1 : bits w 4 2 = 0 := (bits_at hw 1 1 rfl rfl)
  have f2 : bits w 7 4 = 3 := (bits_at hw 3 1 rfl rfl)
  have f3 : bits w 11 3 = s.code := (bits_at hw 4 1 rfl rfl).trans (Nat.mod_eq_of_lt (Scope.code_lt s))
  have f4 : bits w 14 5 = a.toNat := (bits_at hw 5 1 rfl rfl).trans (Nat.mod_eq_of_lt (a.isLt))
  have f5 : bits w 19 5 = d.toNat := (bits_at hw 6 1 rfl rfl).trans (Nat.mod_eq_of_lt (d.isLt))
  have g6 : bits w 6 1 = bitOf z := (bits_at hw 2 1 rfl rfl).trans (Nat.mod_eq_of_lt (bitOf_lt z))
  have f6 : flag w 6 = z := flag_mod w 6 z g6
  have g7 : bits w 31 1 = bitOf p := (bits_at hw 8 1 rfl rfl).trans (Nat.mod_eq_of_lt (bitOf_lt p))
  have f7 : flag w 31 = p := flag_mod w 31 p g7
  apply decodeWord_of _ _ _ hwf
  rw [decodeRaw_C19 w mj]
  simp [decC19, f0, f1, f2, f3, f4, f5, f6, f7, Scope.ofCode_code]

theorem RoundTrip.amosmax (p : Bool) (d : BitVec 5) (a : BitVec 5) (s : Scope) (z : Bool) (l : BitVec 4) : RoundTrip.Statement (.amosmax p d a s z l) := by
  intro w hw hwf
  have enc : 419430912 + bitOf p * 2 ^ 31 + d.toNat * 2 ^ 19 + a.toNat * 2 ^ 14 + s.code * 2 ^ 11 + bitOf z * 2 ^ 6 + l.toNat * 2 ^ 0 = w := Option.some.inj hw
  have hw : w = digits [(l.toNat, 4), (0, 2), (bitOf z, 1), (4, 4), (s.code, 3), (a.toNat, 5), (d.toNat, 5), (25, 7), (bitOf p, 1)] := by
    simp only [digits, Nat.mod_eq_of_lt (bitOf_lt p), Nat.mod_eq_of_lt (d.isLt), Nat.mod_eq_of_lt (a.isLt), Nat.mod_eq_of_lt (Scope.code_lt s), Nat.mod_eq_of_lt (bitOf_lt z), Nat.mod_eq_of_lt (l.isLt)]; omega
  have mj : bits w 24 7 = 25 := (bits_at hw 7 1 rfl rfl)
  have f0 : bits w 0 4 = l.toNat := (bits_at hw 0 1 rfl rfl).trans (Nat.mod_eq_of_lt (l.isLt))
  have f1 : bits w 4 2 = 0 := (bits_at hw 1 1 rfl rfl)
  have f2 : bits w 7 4 = 4 := (bits_at hw 3 1 rfl rfl)
  have f3 : bits w 11 3 = s.code := (bits_at hw 4 1 rfl rfl).trans (Nat.mod_eq_of_lt (Scope.code_lt s))
  have f4 : bits w 14 5 = a.toNat := (bits_at hw 5 1 rfl rfl).trans (Nat.mod_eq_of_lt (a.isLt))
  have f5 : bits w 19 5 = d.toNat := (bits_at hw 6 1 rfl rfl).trans (Nat.mod_eq_of_lt (d.isLt))
  have g6 : bits w 6 1 = bitOf z := (bits_at hw 2 1 rfl rfl).trans (Nat.mod_eq_of_lt (bitOf_lt z))
  have f6 : flag w 6 = z := flag_mod w 6 z g6
  have g7 : bits w 31 1 = bitOf p := (bits_at hw 8 1 rfl rfl).trans (Nat.mod_eq_of_lt (bitOf_lt p))
  have f7 : flag w 31 = p := flag_mod w 31 p g7
  apply decodeWord_of _ _ _ hwf
  rw [decodeRaw_C19 w mj]
  simp [decC19, f0, f1, f2, f3, f4, f5, f6, f7, Scope.ofCode_code]

theorem RoundTrip.amosmin (p : Bool) (d : BitVec 5) (a : BitVec 5) (s : Scope) (z : Bool) (l : BitVec 4) : RoundTrip.Statement (.amosmin p d a s z l) := by
  intro w hw hwf
  have enc : 419431040 + bitOf p * 2 ^ 31 + d.toNat * 2 ^ 19 + a.toNat * 2 ^ 14 + s.code * 2 ^ 11 + bitOf z * 2 ^ 6 + l.toNat * 2 ^ 0 = w := Option.some.inj hw
  have hw : w = digits [(l.toNat, 4), (0, 2), (bitOf z, 1), (5, 4), (s.code, 3), (a.toNat, 5), (d.toNat, 5), (25, 7), (bitOf p, 1)] := by
    simp only [digits, Nat.mod_eq_of_lt (bitOf_lt p), Nat.mod_eq_of_lt (d.isLt), Nat.mod_eq_of_lt (a.isLt), Nat.mod_eq_of_lt (Scope.code_lt s), Nat.mod_eq_of_lt (bitOf_lt z), Nat.mod_eq_of_lt (l.isLt)]; omega
  have mj : bits w 24 7 = 25 := (bits_at hw 7 1 rfl rfl)
  have f0 : bits w 0 4 = l.toNat := (bits_at hw 0 1 rfl rfl).trans (Nat.mod_eq_of_lt (l.isLt))
  have f1 : bits w 4 2 = 0 := (bits_at hw 1 1 rfl rfl)
  have f2 : bits w 7 4 = 5 := (bits_at hw 3 1 rfl rfl)
  have f3 : bits w 11 3 = s.code := (bits_at hw 4 1 rfl rfl).trans (Nat.mod_eq_of_lt (Scope.code_lt s))
  have f4 : bits w 14 5 = a.toNat := (bits_at hw 5 1 rfl rfl).trans (Nat.mod_eq_of_lt (a.isLt))
  have f5 : bits w 19 5 = d.toNat := (bits_at hw 6 1 rfl rfl).trans (Nat.mod_eq_of_lt (d.isLt))
  have g6 : bits w 6 1 = bitOf z := (bits_at hw 2 1 rfl rfl).trans (Nat.mod_eq_of_lt (bitOf_lt z))
  have f6 : flag w 6 = z := flag_mod w 6 z g6
  have g7 : bits w 31 1 = bitOf p := (bits_at hw 8 1 rfl rfl).trans (Nat.mod_eq_of_lt (bitOf_lt p))
  have f7 : flag w 31 = p := flag_mod w 31 p g7
  apply decodeWord_of _ _ _ hwf
  rw [decodeRaw_C19 w mj]
  simp [decC19, f0, f1, f2, f3, f4, f5, f6, f7, Scope.ofCode_code]

theorem RoundTrip.amoumax (p : Bool) (d : BitVec 5) (a : BitVec 5) (s : Scope) (z : Bool) (l : BitVec 4) : RoundTrip.Statement (.amoumax p d a s z l) := by
  intro w hw hwf
  have enc : 419431168 + bitOf p * 2 ^ 31 + d.toNat * 2 ^ 19 + a.toNat * 2 ^ 14 + s.code * 2 ^ 11 + bitOf z * 2 ^ 6 + l.toNat * 2 ^ 0 = w := Option.some.inj hw
  have hw : w = digits [(l.toNat, 4), (0, 2), (bitOf z, 1), (6, 4), (s.code, 3), (a.toNat, 5), (d.toNat, 5), (25, 7), (bitOf p, 1)] := by
    simp only [digits, Nat.mod_eq_of_lt (bitOf_lt p), Nat.mod_eq_of_lt (d.isLt), Nat.mod_eq_of_lt (a.isLt), Nat.mod_eq_of_lt (Scope.code_lt s), Nat.mod_eq_of_lt (bitOf_lt z), Nat.mod_eq_of_lt (l.isLt)]; omega
  have mj : bits w 24 7 = 25 := (bits_at hw 7 1 rfl rfl)
  have f0 : bits w 0 4 = l.toNat := (bits_at hw 0 1 rfl rfl).trans (Nat.mod_eq_of_lt (l.isLt))
  have f1 : bits w 4 2 = 0 := (bits_at hw 1 1 rfl rfl)
  have f2 : bits w 7 4 = 6 := (bits_at hw 3 1 rfl rfl)
  have f3 : bits w 11 3 = s.code := (bits_at hw 4 1 rfl rfl).trans (Nat.mod_eq_of_lt (Scope.code_lt s))
  have f4 : bits w 14 5 = a.toNat := (bits_at hw 5 1 rfl rfl).trans (Nat.mod_eq_of_lt (a.isLt))
  have f5 : bits w 19 5 = d.toNat := (bits_at hw 6 1 rfl rfl).trans (Nat.mod_eq_of_lt (d.isLt))
  have g6 : bits w 6 1 = bitOf z := (bits_at hw 2 1 rfl rfl).trans (Nat.mod_eq_of_lt (bitOf_lt z))
  have f6 : flag w 6 = z := flag_mod w 6 z g6
  have g7 : bits w 31 1 = bitOf p := (bits_at hw 8 1 rfl rfl).trans (Nat.mod_eq_of_lt (bitOf_lt p))
  have f7 : flag w 31 = p := flag_mod w 31 p g7
  apply decodeWord_of _ _ _ hwf
  rw [decodeRaw_C19 w mj]
  simp [decC19, f0, f1, f2, f3, f4, f5, f6, f7, Scope.ofCode_code]

theorem RoundTrip.amoumin (p : Bool) (d : BitVec 5) (a : BitVec 5) (s : Scope) (z : Bool) (l : BitVec 4) : RoundTrip.Statement (.amoumin p d a s z l) := by
  intro w hw hwf
  have enc : 419431296 + bitOf p * 2 ^ 31 + d.toNat * 2 ^ 19 + a.toNat * 2 ^ 14 + s.code * 2 ^ 11 + bitOf z * 2 ^ 6 + l.toNat * 2 ^ 0 = w := Option.some.inj hw
  have hw : w = digits [(l.toNat, 4), (0, 2), (bitOf z, 1), (7, 4), (s.code, 3), (a.toNat, 5), (d.toNat, 5), (25, 7), (bitOf p, 1)] := by
    simp only [digits, Nat.mod_eq_of_lt (bitOf_lt p), Nat.mod_eq_of_lt (d.isLt), Nat.mod_eq_of_lt (a.isLt), Nat.mod_eq_of_lt (Scope.code_lt s), Nat.mod_eq_of_lt (bitOf_lt z), Nat.mod_eq_of_lt (l.isLt)]; omega
  have mj : bits w 24 7 = 25 := (bits_at hw 7 1 rfl rfl)
  have f0 : bits w 0 4 = l.toNat := (bits_at hw 0 1 rfl rfl).trans (Nat.mod_eq_of_lt (l.isLt))
  have f1 : bits w 4 2 = 0 := (bits_at hw 1 1 rfl rfl)
  have f2 : bits w 7 4 = 7 := (bits_at hw 3 1 rfl rfl)
  have f3 : bits w 11 3 = s.code := (bits_at hw 4 1 rfl rfl).trans (Nat.mod_eq_of_lt (Scope.code_lt s))
  have f4 : bits w 14 5 = a.toNat := (bits_at hw 5 1 rfl rfl).trans (Nat.mod_eq_of_lt (a.isLt))
  have f5 : bits w 19 5 = d.toNat := (bits_at hw 6 1 rfl rfl).trans (Nat.mod_eq_of_lt (d.isLt))
  have g6 : bits w 6 1 = bitOf z := (bits_at hw 2 1 rfl rfl).trans (Nat.mod_eq_of_lt (bitOf_lt z))
  have f6 : flag w 6 = z := flag_mod w 6 z g6
  have g7 : bits w 31 1 = bitOf p := (bits_at hw 8 1 rfl rfl).trans (Nat.mod_eq_of_lt (bitOf_lt p))
  have f7 : flag w 31 = p := flag_mod w 31 p g7
  apply decodeWord_of _ _ _ hwf
  rw [decodeRaw_C19 w mj]
  simp [decC19, f0, f1, f2, f3, f4, f5, f6, f7, Scope.ofCode_code]

theorem RoundTrip.amoswap (p : Bool) (d : BitVec 5) (a : BitVec 5) (s : Scope) (z : Bool) (l : BitVec 4) : RoundTrip.Statement (.amoswap p d a s z l) := by
  intro w hw hwf
  have enc : 419431424 + bitOf p * 2 ^ 31 + d.toNat * 2 ^ 19 + a.toNat * 2 ^ 14 + s.code * 2 ^ 11 + bitOf z * 2 ^ 6 + l.toNat * 2 ^ 0 = w := Option.some.inj hw
  have hw : w = digits [(l.toNat, 4), (0, 2), (bitOf z, 1), (8, 4), (s.code, 3), (a.toNat, 5), (d.toNat, 5), (25, 7), (bitOf p, 1)] := by
    simp only [digits, Nat.mod_eq_of_lt (bitOf_lt p), Nat.mod_eq_of_lt (d.isLt), Nat.mod_eq_of_lt (a.isLt), Nat.mod_eq_of_lt (Scope.code_lt s), Nat.mod_eq_of_lt (bitOf_lt z), Nat.mod_eq_of_lt (l.isLt)]; omega
  have mj : bits w 24 7 = 25 := (bits_at hw 7 1 rfl rfl)
  have f0 : bits w 0 4 = l.toNat := (bits_at hw 0 1 rfl rfl).trans (Nat.mod_eq_of_lt (l.isLt))
  have f1 : bits w 4 2 = 0 := (bits_at hw 1 1 rfl rfl)
  have f2 : bits w 7 4 = 8 := (bits_at hw 3 1 rfl rfl)
  have f3 : bits w 11 3 = s.code := (bits_at hw 4 1 rfl rfl).trans (Nat.mod_eq_of_lt (Scope.code_lt s))
  have f4 : bits w 14 5 = a.toNat := (bits_at hw 5 1 rfl rfl).trans (Nat.mod_eq_of_lt (a.isLt))
  have f5 : bits w 19 5 = d.toNat := (bits_at hw 6 1 rfl rfl).trans (Nat.mod_eq_of_lt (d.isLt))
  have g6 : bits w 6 1 = bitOf z := (bits_at hw 2 1 rfl rfl).trans (Nat.mod_eq_of_lt (bitOf_lt z))
  have f6 : flag w 6 = z := flag_mod w 6 z g6
  have g7 : bits w 31 1 = bitOf p := (bits_at hw 8 1 rfl rfl).trans (Nat.mod_eq_of_lt (bitOf_lt p))
  have f7 : flag w 31 = p := flag_mod w 31 p g7
  apply decodeWord_of _ _ _ hwf
  rw [decodeRaw_C19 w mj]
  simp [decC19, f0, f1, f2, f3, f4, f5, f6, f7, Scope.ofCode_code]

theorem RoundTrip.amocas (p : Bool) (d : BitVec 4) (a : BitVec 5) (s : Scope) (z : Bool) (l : BitVec 4) : RoundTrip.Statement (.amocas p d a s z l) := by
  intro w hw hwf
  have enc : 419431552 + bitOf p * 2 ^ 31 + d.toNat * 2 ^ 20 + a.toNat * 2 ^ 14 + s.code * 2 ^ 11 + bitOf z * 2 ^ 6 + l.toNat * 2 ^ 0 = w := Option.some.inj hw
  have hw : w = digits [(l.toNat, 4), (0, 2), (bitOf z, 1), (9, 4), (s.code, 3), (a.toNat, 5), (0, 1), (d.toNat, 4), (25, 7), (bitOf p, 1)] := by
    simp only [digits, Nat.mod_eq_of_lt (bitOf_lt p), Nat.mod_eq_of_lt (d.isLt), Nat.mod_eq_of_lt (a.isLt), Nat.mod_eq_of_lt (Scope.code_lt s), Nat.mod_eq_of_lt (bitOf_lt z), Nat.mod_eq_of_lt (l.isLt)]; omega
  have mj : bits w 24 7 = 25 := (bits_at hw 8 1 rfl rfl)
  have f0 : bits w 0 4 = l.toNat := (bits_at hw 0 1 rfl rfl).trans (Nat.mod_eq_of_lt (l.isLt))
  have f1 : bits w 4 2 = 0 := (bits_at hw 1 1 rfl rfl)
  have f2 : bits w 7 4 = 9 := (bits_at hw 3 1 rfl rfl)
  have f3 : bits w 11 3 = s.code := (bits_at hw 4 1 rfl rfl).trans (Nat.mod_eq_of_lt (Scope.code_lt s))
  have f4 : bits w 14 5 = a.toNat := (bits_at hw 5 1 rfl rfl).trans (Nat.mod_eq_of_lt (a.isLt))
  have f5 : bits w 19 1 = 0 := (bits_at hw 6 1 rfl rfl)
  have f6 : bits w 20 4 = d.toNat := (bits_at hw 7 1 rfl rfl).trans (Nat.mod_eq_of_lt (d.isLt))
  have g7 : bits w 6 1 = bitOf z := (bits_at hw 2 1 rfl rfl).trans (Nat.mod_eq_of_lt (bitOf_lt z))
  have f7 : flag w 6 = z := flag_mod w 6 z g7
  have g8 : bits w 31 1 = bitOf p := (bits_at hw 9 1 rfl rfl).trans (Nat.mod_eq_of_lt (bitOf_lt p))
  have f8 : flag w 31 = p := flag_mod w 31 p g8
  apply decodeWord_of _ _ _ hwf
  rw [decodeRaw_C19 w mj]
  simp [decC19, f0, f1, f2, f3, f4, f5, f6, f7, f8, Scope.ofCode_code]

theorem RoundTrip.ldlkW (p : Bool) (d : BitVec 5) (a : BitVec 5) (l : BitVec 4) : RoundTrip.Statement (.ldlkW p d a l) := by
  intro w hw hwf
  have enc : 436207616 + bitOf p * 2 ^ 31 + d.toNat * 2 ^ 19 + a.toNat * 2 ^ 14 + l.toNat * 2 ^ 0 = w := Option.some.inj hw
  have hw : w = digits [(l.toNat, 4), (0, 10), (a.toNat, 5), (d.toNat, 5), (26, 7), (bitOf p, 1)] := by
    simp only [digits, Nat.mod_eq_of_lt (bitOf_lt p), Nat.mod_eq_of_lt (d.isLt), Nat.mod_eq_of_lt (a.isLt), Nat.mod_eq_of_lt (l.isLt)]; omega
  have mj : bits w 24 7 = 26 := (bits_at hw 4 1 rfl rfl)
  have f0 : bits w 0 4 = l.toNat := (bits_at hw 0 1 rfl rfl).trans (Nat.mod_eq_of_lt (l.isLt))
  have f1 : bits w 4 10 = 0 := (bits_at hw 1 1 rfl rfl)
  have f2 : bits w 14 5 = a.toNat := (bits_at hw 2 1 rfl rfl).trans (Nat.mod_eq_of_lt (a.isLt))
  have f3 : bits w 19 5 = d.toNat := (bits_at hw 3 1 rfl rfl).trans (Nat.mod_eq_of_lt (d.isLt))
  have g4 : bits w 31 1 = bitOf p := (bits_at hw 5 1 rfl rfl).trans (Nat.mod_eq_of_lt (bitOf_lt p))
  have f4 : flag w 31 = p := flag_mod w 31 p g4
  apply decodeWord_of _ _ _ hwf
  rw [decodeRaw_C1A w mj]
  simp [decC1A, f0, f1, f2, f3, f4]

theorem RoundTrip.ldlkD (p : Bool) (d : BitVec 5) (a : BitVec 5) (l : BitVec 4) : RoundTrip.Statement (.ldlkD p d a l) := by
  intro w hw hwf
  have enc : 436207632 + bitOf p * 2 ^ 31 + d.toNat * 2 ^ 19 + a.toNat * 2 ^ 14 + l.toNat * 2 ^ 0 = w := Option.some.inj hw
  have hw : w = digits [(l.toNat, 4), (1, 10), (a.toNat, 5), (d.toNat, 5), (26, 7), (bitOf p, 1)] := by
    simp only [digits, Nat.mod_eq_of_lt (bitOf_lt p), Nat.mod_eq_of_lt (d.isLt), Nat.mod_eq_of_lt (a.isLt), Nat.mod_eq_of_lt (l.isLt)]; omega
  have mj : bits w 24 7 = 26 := (bits_at hw 4 1 rfl rfl)
  have f0 : bits w 0 4 = l.toNat := (bits_at hw 0 1 rfl rfl).trans (Nat.mod_eq_of_lt (l.isLt))
  have f1 : bits w 4 10 = 1 := (bits_at hw 1 1 rfl rfl)
  have f2 : bits w 14 5 = a.toNat := (bits_at hw 2 1 rfl rfl).trans (Nat.mod_eq_of_lt (a.isLt))
  have f3 : bits w 19 5 = d.toNat := (bits_at hw 3 1 rfl rfl).trans (Nat.mod_eq_of_lt (d.isLt))
  have g4 : bits w 31 1 = bitOf p := (bits_at hw 5 1 rfl rfl).trans (Nat.mod_eq_of_lt (bitOf_lt p))
  have f4 : flag w 31 = p := flag_mod w 31 p g4
  apply decodeWord_of _ _ _ hwf
  rw [decodeRaw_C1A w mj]
  simp [decC1A, f0, f1, f2, f3, f4]

theorem RoundTrip.stckW (p : Bool) (d : BitVec 5) (a : BitVec 5) (b : BitVec 5) (l : BitVec 4) : RoundTrip.Statement (.stckW p d a b l) := by
  intro w hw hwf
  have enc : 436207648 + bitOf p * 2 ^ 31 + d.toNat * 2 ^ 19 + a.toNat * 2 ^ 14 + b.toNat * 2 ^ 9 + l.toNat * 2 ^ 0 = w := Option.some.inj hw
  have hw : w = digits [(l.toNat, 4), (2, 5), (b.toNat, 5), (a.toNat, 5), (d.toNat, 5), (26, 7), (bitOf p, 1)] := by
    simp only [digits, Nat.mod_eq_of_lt (bitOf_lt p), Nat.mod_eq_of_lt (d.isLt), Nat.mod_eq_of_lt (a.isLt), Nat.mod_eq_of_lt (b.isLt), Nat.mod_eq_of_lt (l.isLt)]; omega
  have mj : bits w 24 7 = 26 := (bits_at hw 5 1 rfl rfl)
  have f0 : bits w 0 4 = l.toNat := (bits_at hw 0 1 rfl rfl).trans (Nat.mod_eq_of_lt (l.isLt))
  have f1 : bits w 4 5 = 2 := (bits_at hw 1 1 rfl rfl)
  have f2 : ¬ bits w 4 10 = 0 := by
    have := bitOf_lt p
    have := d.isLt
    have := a.isLt
    have := b.isLt
    have := l.isLt
    unfold bits; omega
  have f3 : ¬ bits w 4 10 = 1 := by
    have := bitOf_lt p
    have := d.isLt
    have := a.isLt
    have := b.isLt
    have := l.isLt
    unfold bits; omega
  have f4 : bits w 9 5 = b.toNat := (bits_at hw 2 1 rfl rfl).trans (Nat.mod_eq_of_lt (b.isLt))
  have f5 : bits w 14 5 = a.toNat := (bits_at hw 3 1 rfl rfl).trans (Nat.mod_eq_of_lt (a.isLt))
  have f6 : bits w 19 5 = d.toNat := (bits_at hw 4 1 rfl rfl).trans (Nat.mod_eq_of_lt (d.isLt))
  have g7 : bits w 31 1 = bitOf p := (bits_at hw 6 1 rfl rfl).trans (Nat.mod_eq_of_lt (bitOf_lt p))
  have f7 : flag w 31 = p := flag_mod w 31 p g7
  apply decodeWord_of _ _ _ hwf
  rw [decodeRaw_C1A w mj]
  simp [decC1A, f0, f1, f2, f3, f4, f5, f6, f7]

theorem RoundTrip.stckD (p : Bool) (d : BitVec 5) (a : BitVec 5) (b : BitVec 5) (l : BitVec 4) : RoundTrip.Statement (.stckD p d a b l) := by
  intro w hw hwf
  have enc : 436207664 + bitOf p * 2 ^ 31 + d.toNat * 2 ^ 19 + a.toNat * 2 ^ 14 + b.toNat * 2 ^ 9 + l.toNat * 2 ^ 0 = w := Option.some.inj hw
  have hw : w = digits [(l.toNat, 4), (3, 5), (b.toNat, 5), (a.toNat, 5), (d.toNat, 5), (26, 7), (bitOf p, 1)] := by
    simp only [digits, Nat.mod_eq_of_lt (bitOf_lt p), Nat.mod_eq_of_lt (d.isLt), Nat.mod_eq_of_lt (a.isLt), Nat.mod_eq_of_lt (b.isLt), Nat.mod_eq_of_lt (l.isLt)]; omega
  have mj : bits w 24 7 = 26 := (bits_at hw 5 1 rfl rfl)
  have f0 : bits w 0 4 = l.toNat := (bits_at hw 0 1 rfl rfl).trans (Nat.mod_eq_of_lt (l.isLt))
  have f1 : bits w 4 5 = 3 := (bits_at hw 1 1 rfl rfl)
  have f2 : ¬ bits w 4 10 = 0 := by
    have := bitOf_lt p
    have := d.isLt
    have := a.isLt
    have := b.isLt
    have := l.isLt
    unfold bits; omega
  have f3 : ¬ bits w 4 10 = 1 := by
    have := bitOf_lt p
    have := d.isLt
    have := a.isLt
    have := b.isLt
    have := l.isLt
    unfold bits; omega
  have f4 : bits w 9 5 = b.toNat := (bits_at hw 2 1 rfl rfl).trans (Nat.mod_eq_of_lt (b.isLt))
  have f5 : bits w 14 5 = a.toNat := (bits_at hw 3 1 rfl rfl).trans (Nat.mod_eq_of_lt (a.isLt))
  have f6 : bits w 19 5 = d.toNat := (bits_at hw 4 1 rfl rfl).trans (Nat.mod_eq_of_lt (d.isLt))
  have g7 : bits w 31 1 = bitOf p := (bits_at hw 6 1 rfl rfl).trans (Nat.mod_eq_of_lt (bitOf_lt p))
  have f7 : flag w 31 = p := flag_mod w 31 p g7
  apply decodeWord_of _ _ _ hwf
  rw [decodeRaw_C1A w mj]
  simp [decC1A, f0, f1, f2, f3, f4, f5, f6, f7]

theorem RoundTrip.ldacq (p : Bool) (d : BitVec 5) (a : BitVec 5) (k : BitVec 2) (s : Scope) (l : BitVec 4) : RoundTrip.Statement (.ldacq p d a k s l) := by
  intro w hw hwf
  have enc : 452984832 + bitOf p * 2 ^ 31 + d.toNat * 2 ^ 19 + a.toNat * 2 ^ 14 + k.toNat * 2 ^ 12 + s.code * 2 ^ 6 + l.toNat * 2 ^ 0 = w := Option.some.inj hw
  have hw : w = digits [(l.toNat, 4), (0, 2), (s.code, 3), (0, 3), (k.toNat, 2), (a.toNat, 5), (d.toNat, 5), (27, 7), (bitOf p, 1)] := by
    simp only [digits, Nat.mod_eq_of_lt (bitOf_lt p), Nat.mod_eq_of_lt (d.isLt), Nat.mod_eq_of_lt (a.isLt), Nat.mod_eq_of_lt (k.isLt), Nat.mod_eq_of_lt (Scope.code_lt s), Nat.mod_eq_of_lt (l.isLt)]; omega
  have mj : bits w 24 7 = 27 := (bits_at hw 7 1 rfl rfl)
  have f0 : bits w 0 4 = l.toNat := (bits_at hw 0 1 rfl rfl).trans (Nat.mod_eq_of_lt (l.isLt))
  have f1 : bits w 4 2 = 0 := (bits_at hw 1 1 rfl rfl)
  have f2 : bits w 6 3 = s.code := (bits_at hw 2 1 rfl rfl).trans (Nat.mod_eq_of_lt (Scope.code_lt s))
  have f3 : bits w 9 3 = 0 := (bits_at hw 3 1 rfl rfl)
  have f4 : bits w 12 2 = k.toNat := (bits_at hw 4 1 rfl rfl).trans (Nat.mod_eq_of_lt (k.isLt))
  have f5 : bits w 14 5 = a.toNat := (bits_at hw 5 1 rfl rfl).trans (Nat.mod_eq_of_lt (a.isLt))
  have f6 : bits w 19 5 = d.toNat := (bits_at hw 6 1 rfl rfl).trans (Nat.mod_eq_of_lt (d.isLt))
  have g7 : bits w 31 1 = bitOf p := (bits_at hw 8 1 rfl rfl).trans (Nat.mod_eq_of_lt (bitOf_lt p))
  have f7 : flag w 31 = p := flag_mod w 31 p g7
  apply decodeWord_of _ _ _ hwf
  rw [decodeRaw_C1B w mj]
  simp [decC1B, f0, f1, f2, f3, f4, f5, f6, f7, Scope.ofCode_code]

theorem RoundTrip.strel (p : Bool) (d : BitVec 5) (a : BitVec 5) (k : BitVec 2) (s : Scope) : RoundTrip.Statement (.strel p d a k s) := by
  intro w hw hwf
  have enc : 469762048 + bitOf p * 2 ^ 31 + d.toNat * 2 ^ 19 + a.toNat * 2 ^ 14 + k.toNat * 2 ^ 12 + s.code * 2 ^ 6 = w := Option.some.inj hw
  have hw : w = digits [(0, 6), (s.code, 3), (0, 3), (k.toNat, 2), (a.toNat, 5), (d.toNat, 5), (28, 7), (bitOf p, 1)] := by
    simp only [digits, Nat.mod_eq_of_lt (bitOf_lt p), Nat.mod_eq_of_lt (d.isLt), Nat.mod_eq_of_lt (a.isLt), Nat.mod_eq_of_lt (k.isLt), Nat.mod_eq_of_lt (Scope.code_lt s)]; omega
  have mj : bits w 24 7 = 28 := (bits_at hw 6 1 rfl rfl)
  have f0 : bits w 0 6 = 0 := (bits_at hw 0 1 rfl rfl)
  have f1 : bits w 6 3 = s.code := (bits_at hw 1 1 rfl rfl).trans (Nat.mod_eq_of_lt (Scope.code_lt s))
  have f2 : bits w 9 3 = 0 := (bits_at hw 2 1 rfl rfl)
  have f3 : bits w 12 2 = k.toNat := (bits_at hw 3 1 rfl rfl).trans (Nat.mod_eq_of_lt (k.isLt))
  have f4 : bits w 14 5 = a.toNat := (bits_at hw 4 1 rfl rfl).trans (Nat.mod_eq_of_lt (a.isLt))
  have f5 : bits w 19 5 = d.toNat := (bits_at hw 5 1 rfl rfl).trans (Nat.mod_eq_of_lt (d.isLt))
  have g6 : bits w 31 1 = bitOf p := (bits_at hw 7 1 rfl rfl).trans (Nat.mod_eq_of_lt (bitOf_lt p))
  have f6 : flag w 31 = p := flag_mod w 31 p g6
  apply decodeWord_of _ _ _ hwf
  rw [decodeRaw_C1C w mj]
  simp [decC1C, f0, f1, f2, f3, f4, f5, f6, Scope.ofCode_code]

theorem RoundTrip.fence (p : Bool) (k : FenceKind) (s : Scope) : RoundTrip.Statement (.fence p k s) := by
  intro w hw hwf
  have enc : 486539264 + bitOf p * 2 ^ 31 + k.code * 2 ^ 12 + s.code * 2 ^ 6 = w := Option.some.inj hw
  have hw : w = digits [(0, 6), (s.code, 3), (0, 3), (k.code, 2), (0, 10), (29, 7), (bitOf p, 1)] := by
    simp only [digits, Nat.mod_eq_of_lt (bitOf_lt p), Nat.mod_eq_of_lt (FenceKind.code_lt k), Nat.mod_eq_of_lt (Scope.code_lt s)]; omega
  have mj : bits w 24 7 = 29 := (bits_at hw 5 1 rfl rfl)
  have f0 : bits w 0 6 = 0 := (bits_at hw 0 1 rfl rfl)
  have f1 : bits w 6 3 = s.code := (bits_at hw 1 1 rfl rfl).trans (Nat.mod_eq_of_lt (Scope.code_lt s))
  have f2 : bits w 9 3 = 0 := (bits_at hw 2 1 rfl rfl)
  have f3 : bits w 12 2 = k.code := (bits_at hw 3 1 rfl rfl).trans (Nat.mod_eq_of_lt (FenceKind.code_lt k))
  have f4 : bits w 14 10 = 0 := (bits_at hw 4 1 rfl rfl)
  have g5 : bits w 31 1 = bitOf p := (bits_at hw 6 1 rfl rfl).trans (Nat.mod_eq_of_lt (bitOf_lt p))
  have f5 : flag w 31 = p := flag_mod w 31 p g5
  apply decodeWord_of _ _ _ hwf
  rw [decodeRaw_C1D w mj]
  simp [decC1D, f0, f1, f2, f3, f4, f5, FenceKind.ofCode_code, Scope.ofCode_code]

theorem RoundTrip.waita (p : Bool) (d : BitVec 5) (a : BitVec 5) (b : BitVec 5) (l : BitVec 4) : RoundTrip.Statement (.waita p d a b l) := by
  intro w hw hwf
  have enc : 503316480 + bitOf p * 2 ^ 31 + d.toNat * 2 ^ 19 + a.toNat * 2 ^ 14 + b.toNat * 2 ^ 9 + l.toNat * 2 ^ 0 = w := Option.some.inj hw
  have hw : w = digits [(l.toNat, 4), (0, 5), (b.toNat, 5), (a.toNat, 5), (d.toNat, 5), (30, 7), (bitOf p, 1)] := by
    simp only [digits, Nat.mod_eq_of_lt (bitOf_lt p), Nat.mod_eq_of_lt (d.isLt), Nat.mod_eq_of_lt (a.isLt), Nat.mod_eq_of_lt (b.isLt), Nat.mod_eq_of_lt (l.isLt)]; omega
  have mj : bits w 24 7 = 30 := (bits_at hw 5 1 rfl rfl)
  have f0 : bits w 0 4 = l.toNat := (bits_at hw 0 1 rfl rfl).trans (Nat.mod_eq_of_lt (l.isLt))
  have f1 : bits w 4 5 = 0 := (bits_at hw 1 1 rfl rfl)
  have f2 : bits w 9 5 = b.toNat := (bits_at hw 2 1 rfl rfl).trans (Nat.mod_eq_of_lt (b.isLt))
  have f3 : bits w 14 5 = a.toNat := (bits_at hw 3 1 rfl rfl).trans (Nat.mod_eq_of_lt (a.isLt))
  have f4 : bits w 19 5 = d.toNat := (bits_at hw 4 1 rfl rfl).trans (Nat.mod_eq_of_lt (d.isLt))
  have g5 : bits w 31 1 = bitOf p := (bits_at hw 6 1 rfl rfl).trans (Nat.mod_eq_of_lt (bitOf_lt p))
  have f5 : flag w 31 = p := flag_mod w 31 p g5
  apply decodeWord_of _ _ _ hwf
  rw [decodeRaw_C1E w mj]
  simp [decC1E, f0, f1, f2, f3, f4, f5]

theorem RoundTrip.barinit (p : Bool) (a : BitVec 5) (b : BitVec 5) : RoundTrip.Statement (.barinit p a b) := by
  intro w hw hwf
  have enc : 520093696 + bitOf p * 2 ^ 31 + a.toNat * 2 ^ 14 + b.toNat * 2 ^ 9 = w := Option.some.inj hw
  have hw : w = digits [(0, 9), (b.toNat, 5), (a.toNat, 5), (0, 5), (31, 7), (bitOf p, 1)] := by
    simp only [digits, Nat.mod_eq_of_lt (bitOf_lt p), Nat.mod_eq_of_lt (a.isLt), Nat.mod_eq_of_lt (b.isLt)]; omega
  have mj : bits w 24 7 = 31 := (bits_at hw 4 1 rfl rfl)
  have f0 : bits w 0 9 = 0 := (bits_at hw 0 1 rfl rfl)
  have f1 : bits w 9 5 = b.toNat := (bits_at hw 1 1 rfl rfl).trans (Nat.mod_eq_of_lt (b.isLt))
  have f2 : bits w 14 5 = a.toNat := (bits_at hw 2 1 rfl rfl).trans (Nat.mod_eq_of_lt (a.isLt))
  have f3 : bits w 19 5 = 0 := (bits_at hw 3 1 rfl rfl)
  have g4 : bits w 31 1 = bitOf p := (bits_at hw 5 1 rfl rfl).trans (Nat.mod_eq_of_lt (bitOf_lt p))
  have f4 : flag w 31 = p := flag_mod w 31 p g4
  apply decodeWord_of _ _ _ hwf
  rw [decodeRaw_C1F w mj]
  simp [decC1F, f0, f1, f2, f3, f4]

theorem RoundTrip.barexpect (p : Bool) (a : BitVec 5) (b : BitVec 5) : RoundTrip.Statement (.barexpect p a b) := by
  intro w hw hwf
  have enc : 520093712 + bitOf p * 2 ^ 31 + a.toNat * 2 ^ 14 + b.toNat * 2 ^ 9 = w := Option.some.inj hw
  have hw : w = digits [(16, 9), (b.toNat, 5), (a.toNat, 5), (0, 5), (31, 7), (bitOf p, 1)] := by
    simp only [digits, Nat.mod_eq_of_lt (bitOf_lt p), Nat.mod_eq_of_lt (a.isLt), Nat.mod_eq_of_lt (b.isLt)]; omega
  have mj : bits w 24 7 = 31 := (bits_at hw 4 1 rfl rfl)
  have f0 : bits w 0 9 = 16 := (bits_at hw 0 1 rfl rfl)
  have f1 : bits w 9 5 = b.toNat := (bits_at hw 1 1 rfl rfl).trans (Nat.mod_eq_of_lt (b.isLt))
  have f2 : bits w 14 5 = a.toNat := (bits_at hw 2 1 rfl rfl).trans (Nat.mod_eq_of_lt (a.isLt))
  have f3 : bits w 19 5 = 0 := (bits_at hw 3 1 rfl rfl)
  have g4 : bits w 31 1 = bitOf p := (bits_at hw 5 1 rfl rfl).trans (Nat.mod_eq_of_lt (bitOf_lt p))
  have f4 : flag w 31 = p := flag_mod w 31 p g4
  apply decodeWord_of _ _ _ hwf
  rw [decodeRaw_C1F w mj]
  simp [decC1F, f0, f1, f2, f3, f4]

theorem RoundTrip.bararrive (p : Bool) (a : BitVec 5) (b : BitVec 5) : RoundTrip.Statement (.bararrive p a b) := by
  intro w hw hwf
  have enc : 520093728 + bitOf p * 2 ^ 31 + a.toNat * 2 ^ 14 + b.toNat * 2 ^ 9 = w := Option.some.inj hw
  have hw : w = digits [(32, 9), (b.toNat, 5), (a.toNat, 5), (0, 5), (31, 7), (bitOf p, 1)] := by
    simp only [digits, Nat.mod_eq_of_lt (bitOf_lt p), Nat.mod_eq_of_lt (a.isLt), Nat.mod_eq_of_lt (b.isLt)]; omega
  have mj : bits w 24 7 = 31 := (bits_at hw 4 1 rfl rfl)
  have f0 : bits w 0 9 = 32 := (bits_at hw 0 1 rfl rfl)
  have f1 : bits w 9 5 = b.toNat := (bits_at hw 1 1 rfl rfl).trans (Nat.mod_eq_of_lt (b.isLt))
  have f2 : bits w 14 5 = a.toNat := (bits_at hw 2 1 rfl rfl).trans (Nat.mod_eq_of_lt (a.isLt))
  have f3 : bits w 19 5 = 0 := (bits_at hw 3 1 rfl rfl)
  have g4 : bits w 31 1 = bitOf p := (bits_at hw 5 1 rfl rfl).trans (Nat.mod_eq_of_lt (bitOf_lt p))
  have f4 : flag w 31 = p := flag_mod w 31 p g4
  apply decodeWord_of _ _ _ hwf
  rw [decodeRaw_C1F w mj]
  simp [decC1F, f0, f1, f2, f3, f4]

theorem RoundTrip.waitbar (p : Bool) (a : BitVec 5) (b : BitVec 5) : RoundTrip.Statement (.waitbar p a b) := by
  intro w hw hwf
  have enc : 520093744 + bitOf p * 2 ^ 31 + a.toNat * 2 ^ 14 + b.toNat * 2 ^ 9 = w := Option.some.inj hw
  have hw : w = digits [(48, 9), (b.toNat, 5), (a.toNat, 5), (0, 5), (31, 7), (bitOf p, 1)] := by
    simp only [digits, Nat.mod_eq_of_lt (bitOf_lt p), Nat.mod_eq_of_lt (a.isLt), Nat.mod_eq_of_lt (b.isLt)]; omega
  have mj : bits w 24 7 = 31 := (bits_at hw 4 1 rfl rfl)
  have f0 : bits w 0 9 = 48 := (bits_at hw 0 1 rfl rfl)
  have f1 : bits w 9 5 = b.toNat := (bits_at hw 1 1 rfl rfl).trans (Nat.mod_eq_of_lt (b.isLt))
  have f2 : bits w 14 5 = a.toNat := (bits_at hw 2 1 rfl rfl).trans (Nat.mod_eq_of_lt (a.isLt))
  have f3 : bits w 19 5 = 0 := (bits_at hw 3 1 rfl rfl)
  have g4 : bits w 31 1 = bitOf p := (bits_at hw 5 1 rfl rfl).trans (Nat.mod_eq_of_lt (bitOf_lt p))
  have f4 : flag w 31 = p := flag_mod w 31 p g4
  apply decodeWord_of _ _ _ hwf
  rw [decodeRaw_C1F w mj]
  simp [decC1F, f0, f1, f2, f3, f4]

theorem RoundTrip.barread (p : Bool) (d : BitVec 5) (a : BitVec 5) (l : BitVec 4) : RoundTrip.Statement (.barread p d a l) := by
  intro w hw hwf
  have enc : 520093760 + bitOf p * 2 ^ 31 + d.toNat * 2 ^ 19 + a.toNat * 2 ^ 14 + l.toNat * 2 ^ 0 = w := Option.some.inj hw
  have hw : w = digits [(l.toNat, 4), (4, 5), (0, 5), (a.toNat, 5), (d.toNat, 5), (31, 7), (bitOf p, 1)] := by
    simp only [digits, Nat.mod_eq_of_lt (bitOf_lt p), Nat.mod_eq_of_lt (d.isLt), Nat.mod_eq_of_lt (a.isLt), Nat.mod_eq_of_lt (l.isLt)]; omega
  have mj : bits w 24 7 = 31 := (bits_at hw 5 1 rfl rfl)
  have f0 : bits w 0 4 = l.toNat := (bits_at hw 0 1 rfl rfl).trans (Nat.mod_eq_of_lt (l.isLt))
  have f1 : ¬ bits w 0 9 = 0 := by
    have := bitOf_lt p
    have := d.isLt
    have := a.isLt
    have := l.isLt
    unfold bits; omega
  have f2 : ¬ bits w 0 9 = 16 := by
    have := bitOf_lt p
    have := d.isLt
    have := a.isLt
    have := l.isLt
    unfold bits; omega
  have f3 : ¬ bits w 0 9 = 32 := by
    have := bitOf_lt p
    have := d.isLt
    have := a.isLt
    have := l.isLt
    unfold bits; omega
  have f4 : ¬ bits w 0 9 = 48 := by
    have := bitOf_lt p
    have := d.isLt
    have := a.isLt
    have := l.isLt
    unfold bits; omega
  have f5 : bits w 4 10 = 4 := (bits_at hw 1 2 rfl rfl)
  have f6 : bits w 14 5 = a.toNat := (bits_at hw 3 1 rfl rfl).trans (Nat.mod_eq_of_lt (a.isLt))
  have f7 : bits w 19 5 = d.toNat := (bits_at hw 4 1 rfl rfl).trans (Nat.mod_eq_of_lt (d.isLt))
  have g8 : bits w 31 1 = bitOf p := (bits_at hw 6 1 rfl rfl).trans (Nat.mod_eq_of_lt (bitOf_lt p))
  have f8 : flag w 31 = p := flag_mod w 31 p g8
  apply decodeWord_of _ _ _ hwf
  rw [decodeRaw_C1F w mj]
  simp [decC1F, f0, f1, f2, f3, f4, f5, f6, f7, f8]

theorem RoundTrip.cpyb (p : Bool) (d : BitVec 5) (a : BitVec 5) (b : BitVec 5) : RoundTrip.Statement (.cpyb p d a b) := by
  intro w hw hwf
  have enc : 536870912 + bitOf p * 2 ^ 31 + d.toNat * 2 ^ 19 + a.toNat * 2 ^ 14 + b.toNat * 2 ^ 9 = w := Option.some.inj hw
  have hw : w = digits [(0, 9), (b.toNat, 5), (a.toNat, 5), (d.toNat, 5), (32, 7), (bitOf p, 1)] := by
    simp only [digits, Nat.mod_eq_of_lt (bitOf_lt p), Nat.mod_eq_of_lt (d.isLt), Nat.mod_eq_of_lt (a.isLt), Nat.mod_eq_of_lt (b.isLt)]; omega
  have mj : bits w 24 7 = 32 := (bits_at hw 4 1 rfl rfl)
  have f0 : bits w 0 9 = 0 := (bits_at hw 0 1 rfl rfl)
  have f1 : bits w 9 5 = b.toNat := (bits_at hw 1 1 rfl rfl).trans (Nat.mod_eq_of_lt (b.isLt))
  have f2 : bits w 14 5 = a.toNat := (bits_at hw 2 1 rfl rfl).trans (Nat.mod_eq_of_lt (a.isLt))
  have f3 : bits w 19 5 = d.toNat := (bits_at hw 3 1 rfl rfl).trans (Nat.mod_eq_of_lt (d.isLt))
  have g4 : bits w 31 1 = bitOf p := (bits_at hw 5 1 rfl rfl).trans (Nat.mod_eq_of_lt (bitOf_lt p))
  have f4 : flag w 31 = p := flag_mod w 31 p g4
  apply decodeWord_of _ _ _ hwf
  rw [decodeRaw_C20 w mj]
  simp [decC20, f0, f1, f2, f3, f4]

theorem RoundTrip.cpyt (p : Bool) (a : BitVec 5) : RoundTrip.Statement (.cpyt p a) := by
  intro w hw hwf
  have enc : 536870928 + bitOf p * 2 ^ 31 + a.toNat * 2 ^ 14 = w := Option.some.inj hw
  have hw : w = digits [(16, 9), (0, 5), (a.toNat, 5), (0, 5), (32, 7), (bitOf p, 1)] := by
    simp only [digits, Nat.mod_eq_of_lt (bitOf_lt p), Nat.mod_eq_of_lt (a.isLt)]; omega
  have mj : bits w 24 7 = 32 := (bits_at hw 4 1 rfl rfl)
  have f0 : bits w 0 9 = 16 := (bits_at hw 0 1 rfl rfl)
  have f1 : bits w 0 14 = 16 := (bits_at hw 0 2 rfl rfl)
  have f2 : bits w 14 5 = a.toNat := (bits_at hw 2 1 rfl rfl).trans (Nat.mod_eq_of_lt (a.isLt))
  have f3 : bits w 19 5 = 0 := (bits_at hw 3 1 rfl rfl)
  have g4 : bits w 31 1 = bitOf p := (bits_at hw 5 1 rfl rfl).trans (Nat.mod_eq_of_lt (bitOf_lt p))
  have f4 : flag w 31 = p := flag_mod w 31 p g4
  apply decodeWord_of _ _ _ hwf
  rw [decodeRaw_C20 w mj]
  simp [decC20, f0, f1, f2, f3, f4]

theorem RoundTrip.cpyth (p : Bool) (a : BitVec 5) (b : BitVec 5) : RoundTrip.Statement (.cpyth p a b) := by
  intro w hw hwf
  have enc : 536870944 + bitOf p * 2 ^ 31 + a.toNat * 2 ^ 14 + b.toNat * 2 ^ 9 = w := Option.some.inj hw
  have hw : w = digits [(32, 9), (b.toNat, 5), (a.toNat, 5), (0, 5), (32, 7), (bitOf p, 1)] := by
    simp only [digits, Nat.mod_eq_of_lt (bitOf_lt p), Nat.mod_eq_of_lt (a.isLt), Nat.mod_eq_of_lt (b.isLt)]; omega
  have mj : bits w 24 7 = 32 := (bits_at hw 4 1 rfl rfl)
  have f0 : bits w 0 9 = 32 := (bits_at hw 0 1 rfl rfl)
  have f1 : ¬ bits w 0 14 = 16 := by
    have := bitOf_lt p
    have := a.isLt
    have := b.isLt
    unfold bits; omega
  have f2 : bits w 9 5 = b.toNat := (bits_at hw 1 1 rfl rfl).trans (Nat.mod_eq_of_lt (b.isLt))
  have f3 : bits w 14 5 = a.toNat := (bits_at hw 2 1 rfl rfl).trans (Nat.mod_eq_of_lt (a.isLt))
  have f4 : bits w 19 5 = 0 := (bits_at hw 3 1 rfl rfl)
  have g5 : bits w 31 1 = bitOf p := (bits_at hw 5 1 rfl rfl).trans (Nat.mod_eq_of_lt (bitOf_lt p))
  have f5 : flag w 31 = p := flag_mod w 31 p g5
  apply decodeWord_of _ _ _ hwf
  rw [decodeRaw_C20 w mj]
  simp [decC20, f0, f1, f2, f3, f4, f5]

theorem RoundTrip.mlong (p : Bool) (a : BitVec 5) : RoundTrip.Statement (.mlong p a) := by
  intro w hw hwf
  have enc : 553648128 + bitOf p * 2 ^ 31 + a.toNat * 2 ^ 14 = w := Option.some.inj hw
  have hw : w = digits [(0, 14), (a.toNat, 5), (0, 5), (33, 7), (bitOf p, 1)] := by
    simp only [digits, Nat.mod_eq_of_lt (bitOf_lt p), Nat.mod_eq_of_lt (a.isLt)]; omega
  have mj : bits w 24 7 = 33 := (bits_at hw 3 1 rfl rfl)
  have f0 : bits w 0 14 = 0 := (bits_at hw 0 1 rfl rfl)
  have f1 : bits w 14 5 = a.toNat := (bits_at hw 1 1 rfl rfl).trans (Nat.mod_eq_of_lt (a.isLt))
  have f2 : bits w 19 5 = 0 := (bits_at hw 2 1 rfl rfl)
  have g3 : bits w 31 1 = bitOf p := (bits_at hw 4 1 rfl rfl).trans (Nat.mod_eq_of_lt (bitOf_lt p))
  have f3 : flag w 31 = p := flag_mod w 31 p g3
  apply decodeWord_of _ _ _ hwf
  rw [decodeRaw_C21 w mj]
  simp [decC21, f0, f1, f2, f3]

theorem RoundTrip.mlongh (p : Bool) (a : BitVec 5) (b : BitVec 5) : RoundTrip.Statement (.mlongh p a b) := by
  intro w hw hwf
  have enc : 553648144 + bitOf p * 2 ^ 31 + a.toNat * 2 ^ 14 + b.toNat * 2 ^ 9 = w := Option.some.inj hw
  have hw : w = digits [(16, 9), (b.toNat, 5), (a.toNat, 5), (0, 5), (33, 7), (bitOf p, 1)] := by
    simp only [digits, Nat.mod_eq_of_lt (bitOf_lt p), Nat.mod_eq_of_lt (a.isLt), Nat.mod_eq_of_lt (b.isLt)]; omega
  have mj : bits w 24 7 = 33 := (bits_at hw 4 1 rfl rfl)
  have f0 : bits w 0 9 = 16 := (bits_at hw 0 1 rfl rfl)
  have f1 : ¬ bits w 0 14 = 0 := by
    have := bitOf_lt p
    have := a.isLt
    have := b.isLt
    unfold bits; omega
  have f2 : bits w 9 5 = b.toNat := (bits_at hw 1 1 rfl rfl).trans (Nat.mod_eq_of_lt (b.isLt))
  have f3 : bits w 14 5 = a.toNat := (bits_at hw 2 1 rfl rfl).trans (Nat.mod_eq_of_lt (a.isLt))
  have f4 : bits w 19 5 = 0 := (bits_at hw 3 1 rfl rfl)
  have g5 : bits w 31 1 = bitOf p := (bits_at hw 5 1 rfl rfl).trans (Nat.mod_eq_of_lt (bitOf_lt p))
  have f5 : flag w 31 = p := flag_mod w 31 p g5
  apply decodeWord_of _ _ _ hwf
  rw [decodeRaw_C21 w mj]
  simp [decC21, f0, f1, f2, f3, f4, f5]

theorem RoundTrip.bmvj (p : Bool) (a : BitVec 5) : RoundTrip.Statement (.bmvj p a) := by
  intro w hw hwf
  have enc : 553648160 + bitOf p * 2 ^ 31 + a.toNat * 2 ^ 14 = w := Option.some.inj hw
  have hw : w = digits [(32, 9), (0, 5), (a.toNat, 5), (0, 5), (33, 7), (bitOf p, 1)] := by
    simp only [digits, Nat.mod_eq_of_lt (bitOf_lt p), Nat.mod_eq_of_lt (a.isLt)]; omega
  have mj : bits w 24 7 = 33 := (bits_at hw 4 1 rfl rfl)
  have f0 : bits w 0 9 = 32 := (bits_at hw 0 1 rfl rfl)
  have f1 : bits w 0 14 = 32 := (bits_at hw 0 2 rfl rfl)
  have f2 : bits w 14 5 = a.toNat := (bits_at hw 2 1 rfl rfl).trans (Nat.mod_eq_of_lt (a.isLt))
  have f3 : bits w 19 5 = 0 := (bits_at hw 3 1 rfl rfl)
  have g4 : bits w 31 1 = bitOf p := (bits_at hw 5 1 rfl rfl).trans (Nat.mod_eq_of_lt (bitOf_lt p))
  have f4 : flag w 31 = p := flag_mod w 31 p g4
  apply decodeWord_of _ _ _ hwf
  rw [decodeRaw_C21 w mj]
  simp [decC21, f0, f1, f2, f3, f4]

theorem RoundTrip.bmvjh (p : Bool) (a : BitVec 5) (b : BitVec 5) : RoundTrip.Statement (.bmvjh p a b) := by
  intro w hw hwf
  have enc : 553648176 + bitOf p * 2 ^ 31 + a.toNat * 2 ^ 14 + b.toNat * 2 ^ 9 = w := Option.some.inj hw
  have hw : w = digits [(48, 9), (b.toNat, 5), (a.toNat, 5), (0, 5), (33, 7), (bitOf p, 1)] := by
    simp only [digits, Nat.mod_eq_of_lt (bitOf_lt p), Nat.mod_eq_of_lt (a.isLt), Nat.mod_eq_of_lt (b.isLt)]; omega
  have mj : bits w 24 7 = 33 := (bits_at hw 4 1 rfl rfl)
  have f0 : bits w 0 9 = 48 := (bits_at hw 0 1 rfl rfl)
  have f1 : ¬ bits w 0 14 = 0 := by
    have := bitOf_lt p
    have := a.isLt
    have := b.isLt
    unfold bits; omega
  have f2 : ¬ bits w 0 14 = 32 := by
    have := bitOf_lt p
    have := a.isLt
    have := b.isLt
    unfold bits; omega
  have f3 : bits w 9 5 = b.toNat := (bits_at hw 1 1 rfl rfl).trans (Nat.mod_eq_of_lt (b.isLt))
  have f4 : bits w 14 5 = a.toNat := (bits_at hw 2 1 rfl rfl).trans (Nat.mod_eq_of_lt (a.isLt))
  have f5 : bits w 19 5 = 0 := (bits_at hw 3 1 rfl rfl)
  have g6 : bits w 31 1 = bitOf p := (bits_at hw 5 1 rfl rfl).trans (Nat.mod_eq_of_lt (bitOf_lt p))
  have f6 : flag w 31 = p := flag_mod w 31 p g6
  apply decodeWord_of _ _ _ hwf
  rw [decodeRaw_C21 w mj]
  simp [decC21, f0, f1, f2, f3, f4, f5, f6]

theorem RoundTrip.fbind (p : Bool) (k : BitVec 3) (a : BitVec 5) : RoundTrip.Statement (.fbind p k a) := by
  intro w hw hwf
  have enc : 583008256 + bitOf p * 2 ^ 31 + k.toNat * 2 ^ 19 + a.toNat * 2 ^ 14 = w := Option.some.inj hw
  have hw : w = digits [(0, 14), (a.toNat, 5), (k.toNat, 3), (3, 2), (34, 7), (bitOf p, 1)] := by
    simp only [digits, Nat.mod_eq_of_lt (bitOf_lt p), Nat.mod_eq_of_lt (k.isLt), Nat.mod_eq_of_lt (a.isLt)]; omega
  have mj : bits w 24 7 = 34 := (bits_at hw 4 1 rfl rfl)
  have f0 : bits w 0 14 = 0 := (bits_at hw 0 1 rfl rfl)
  have f1 : bits w 14 5 = a.toNat := (bits_at hw 1 1 rfl rfl).trans (Nat.mod_eq_of_lt (a.isLt))
  have f2 : bits w 19 3 = k.toNat := (bits_at hw 2 1 rfl rfl).trans (Nat.mod_eq_of_lt (k.isLt))
  have f3 : bits w 22 2 = 3 := (bits_at hw 3 1 rfl rfl)
  have g4 : bits w 31 1 = bitOf p := (bits_at hw 5 1 rfl rfl).trans (Nat.mod_eq_of_lt (bitOf_lt p))
  have f4 : flag w 31 = p := flag_mod w 31 p g4
  apply decodeWord_of _ _ _ hwf
  rw [decodeRaw_C22 w mj]
  simp [decC22, f0, f1, f2, f3, f4]

theorem RoundTrip.funbind (p : Bool) (k : BitVec 3) : RoundTrip.Statement (.funbind p k) := by
  intro w hw hwf
  have enc : 583008257 + bitOf p * 2 ^ 31 + k.toNat * 2 ^ 19 = w := Option.some.inj hw
  have hw : w = digits [(1, 14), (0, 5), (k.toNat, 3), (3, 2), (34, 7), (bitOf p, 1)] := by
    simp only [digits, Nat.mod_eq_of_lt (bitOf_lt p), Nat.mod_eq_of_lt (k.isLt)]; omega
  have mj : bits w 24 7 = 34 := (bits_at hw 4 1 rfl rfl)
  have f0 : bits w 0 14 = 1 := (bits_at hw 0 1 rfl rfl)
  have f1 : bits w 0 19 = 1 := (bits_at hw 0 2 rfl rfl)
  have f2 : bits w 19 3 = k.toNat := (bits_at hw 2 1 rfl rfl).trans (Nat.mod_eq_of_lt (k.isLt))
  have f3 : bits w 22 2 = 3 := (bits_at hw 3 1 rfl rfl)
  have g4 : bits w 31 1 = bitOf p := (bits_at hw 5 1 rfl rfl).trans (Nat.mod_eq_of_lt (bitOf_lt p))
  have f4 : flag w 31 = p := flag_mod w 31 p g4
  apply decodeWord_of _ _ _ hwf
  rw [decodeRaw_C22 w mj]
  simp [decC22, f0, f1, f2, f3, f4]

theorem RoundTrip.sbpulse (p : Bool) (a : BitVec 5) : RoundTrip.Statement (.sbpulse p a) := by
  intro w hw hwf
  have enc : 587202560 + bitOf p * 2 ^ 31 + a.toNat * 2 ^ 14 = w := Option.some.inj hw
  have hw : w = digits [(0, 14), (a.toNat, 5), (0, 5), (35, 7), (bitOf p, 1)] := by
    simp only [digits, Nat.mod_eq_of_lt (bitOf_lt p), Nat.mod_eq_of_lt (a.isLt)]; omega
  have mj : bits w 24 7 = 35 := (bits_at hw 3 1 rfl rfl)
  have f0 : bits w 0 14 = 0 := (bits_at hw 0 1 rfl rfl)
  have f1 : bits w 14 5 = a.toNat := (bits_at hw 1 1 rfl rfl).trans (Nat.mod_eq_of_lt (a.isLt))
  have f2 : bits w 19 5 = 0 := (bits_at hw 2 1 rfl rfl)
  have g3 : bits w 31 1 = bitOf p := (bits_at hw 4 1 rfl rfl).trans (Nat.mod_eq_of_lt (bitOf_lt p))
  have f3 : flag w 31 = p := flag_mod w 31 p g3
  apply decodeWord_of _ _ _ hwf
  rw [decodeRaw_C23 w mj]
  simp [decC23, f0, f1, f2, f3]

theorem RoundTrip.sbclr (p : Bool) (a : BitVec 5) : RoundTrip.Statement (.sbclr p a) := by
  intro w hw hwf
  have enc : 587202561 + bitOf p * 2 ^ 31 + a.toNat * 2 ^ 14 = w := Option.some.inj hw
  have hw : w = digits [(1, 14), (a.toNat, 5), (0, 5), (35, 7), (bitOf p, 1)] := by
    simp only [digits, Nat.mod_eq_of_lt (bitOf_lt p), Nat.mod_eq_of_lt (a.isLt)]; omega
  have mj : bits w 24 7 = 35 := (bits_at hw 3 1 rfl rfl)
  have f0 : bits w 0 14 = 1 := (bits_at hw 0 1 rfl rfl)
  have f1 : bits w 14 5 = a.toNat := (bits_at hw 1 1 rfl rfl).trans (Nat.mod_eq_of_lt (a.isLt))
  have f2 : bits w 19 5 = 0 := (bits_at hw 2 1 rfl rfl)
  have g3 : bits w 31 1 = bitOf p := (bits_at hw 4 1 rfl rfl).trans (Nat.mod_eq_of_lt (bitOf_lt p))
  have f3 : flag w 31 = p := flag_mod w 31 p g3
  apply decodeWord_of _ _ _ hwf
  rw [decodeRaw_C23 w mj]
  simp [decC23, f0, f1, f2, f3]

theorem RoundTrip.capsend (p : Bool) (a : BitVec 5) (l : BitVec 4) : RoundTrip.Statement (.capsend p a l) := by
  intro w hw hwf
  have enc : 603979776 + bitOf p * 2 ^ 31 + a.toNat * 2 ^ 14 + l.toNat * 2 ^ 0 = w := Option.some.inj hw
  have hw : w = digits [(l.toNat, 4), (0, 10), (a.toNat, 5), (0, 5), (36, 7), (bitOf p, 1)] := by
    simp only [digits, Nat.mod_eq_of_lt (bitOf_lt p), Nat.mod_eq_of_lt (a.isLt), Nat.mod_eq_of_lt (l.isLt)]; omega
  have mj : bits w 24 7 = 36 := (bits_at hw 4 1 rfl rfl)
  have f0 : bits w 0 4 = l.toNat := (bits_at hw 0 1 rfl rfl).trans (Nat.mod_eq_of_lt (l.isLt))
  have f1 : bits w 4 10 = 0 := (bits_at hw 1 1 rfl rfl)
  have f2 : bits w 14 5 = a.toNat := (bits_at hw 2 1 rfl rfl).trans (Nat.mod_eq_of_lt (a.isLt))
  have f3 : bits w 19 5 = 0 := (bits_at hw 3 1 rfl rfl)
  have g4 : bits w 31 1 = bitOf p := (bits_at hw 5 1 rfl rfl).trans (Nat.mod_eq_of_lt (bitOf_lt p))
  have f4 : flag w 31 = p := flag_mod w 31 p g4
  apply decodeWord_of _ _ _ hwf
  rw [decodeRaw_C24 w mj]
  simp [decC24, f0, f1, f2, f3, f4]

theorem RoundTrip.capret (p : Bool) (a : BitVec 5) : RoundTrip.Statement (.capret p a) := by
  intro w hw hwf
  have enc : 603979792 + bitOf p * 2 ^ 31 + a.toNat * 2 ^ 14 = w := Option.some.inj hw
  have hw : w = digits [(0, 4), (1, 10), (a.toNat, 5), (0, 5), (36, 7), (bitOf p, 1)] := by
    simp only [digits, Nat.mod_eq_of_lt (bitOf_lt p), Nat.mod_eq_of_lt (a.isLt)]; omega
  have mj : bits w 24 7 = 36 := (bits_at hw 4 1 rfl rfl)
  have f0 : bits w 0 14 = 16 := (bits_at hw 0 2 rfl rfl)
  have f1 : bits w 4 10 = 1 := (bits_at hw 1 1 rfl rfl)
  have f2 : bits w 14 5 = a.toNat := (bits_at hw 2 1 rfl rfl).trans (Nat.mod_eq_of_lt (a.isLt))
  have f3 : bits w 19 5 = 0 := (bits_at hw 3 1 rfl rfl)
  have g4 : bits w 31 1 = bitOf p := (bits_at hw 5 1 rfl rfl).trans (Nat.mod_eq_of_lt (bitOf_lt p))
  have f4 : flag w 31 = p := flag_mod w 31 p g4
  apply decodeWord_of _ _ _ hwf
  rw [decodeRaw_C24 w mj]
  simp [decC24, f0, f1, f2, f3, f4]

theorem RoundTrip.capdrop (p : Bool) (a : BitVec 5) : RoundTrip.Statement (.capdrop p a) := by
  intro w hw hwf
  have enc : 603979808 + bitOf p * 2 ^ 31 + a.toNat * 2 ^ 14 = w := Option.some.inj hw
  have hw : w = digits [(0, 4), (2, 10), (a.toNat, 5), (0, 5), (36, 7), (bitOf p, 1)] := by
    simp only [digits, Nat.mod_eq_of_lt (bitOf_lt p), Nat.mod_eq_of_lt (a.isLt)]; omega
  have mj : bits w 24 7 = 36 := (bits_at hw 4 1 rfl rfl)
  have f0 : bits w 0 14 = 32 := (bits_at hw 0 2 rfl rfl)
  have f1 : bits w 4 10 = 2 := (bits_at hw 1 1 rfl rfl)
  have f2 : bits w 14 5 = a.toNat := (bits_at hw 2 1 rfl rfl).trans (Nat.mod_eq_of_lt (a.isLt))
  have f3 : bits w 19 5 = 0 := (bits_at hw 3 1 rfl rfl)
  have g4 : bits w 31 1 = bitOf p := (bits_at hw 5 1 rfl rfl).trans (Nat.mod_eq_of_lt (bitOf_lt p))
  have f4 : flag w 31 = p := flag_mod w 31 p g4
  apply decodeWord_of _ _ _ hwf
  rw [decodeRaw_C24 w mj]
  simp [decC24, f0, f1, f2, f3, f4]

theorem RoundTrip.capdead (p : Bool) (a : BitVec 5) (b : BitVec 5) : RoundTrip.Statement (.capdead p a b) := by
  intro w hw hwf
  have enc : 603979824 + bitOf p * 2 ^ 31 + a.toNat * 2 ^ 14 + b.toNat * 2 ^ 9 = w := Option.some.inj hw
  have hw : w = digits [(0, 4), (3, 5), (b.toNat, 5), (a.toNat, 5), (0, 5), (36, 7), (bitOf p, 1)] := by
    simp only [digits, Nat.mod_eq_of_lt (bitOf_lt p), Nat.mod_eq_of_lt (a.isLt), Nat.mod_eq_of_lt (b.isLt)]; omega
  have mj : bits w 24 7 = 36 := (bits_at hw 5 1 rfl rfl)
  have f0 : bits w 0 9 = 48 := (bits_at hw 0 2 rfl rfl)
  have f1 : ¬ bits w 0 14 = 16 := by
    have := bitOf_lt p
    have := a.isLt
    have := b.isLt
    unfold bits; omega
  have f2 : ¬ bits w 0 14 = 32 := by
    have := bitOf_lt p
    have := a.isLt
    have := b.isLt
    unfold bits; omega
  have f3 : ¬ bits w 4 10 = 0 := by
    have := bitOf_lt p
    have := a.isLt
    have := b.isLt
    unfold bits; omega
  have f4 : bits w 9 5 = b.toNat := (bits_at hw 2 1 rfl rfl).trans (Nat.mod_eq_of_lt (b.isLt))
  have f5 : bits w 14 5 = a.toNat := (bits_at hw 3 1 rfl rfl).trans (Nat.mod_eq_of_lt (a.isLt))
  have f6 : bits w 19 5 = 0 := (bits_at hw 4 1 rfl rfl)
  have g7 : bits w 31 1 = bitOf p := (bits_at hw 6 1 rfl rfl).trans (Nat.mod_eq_of_lt (bitOf_lt p))
  have f7 : flag w 31 = p := flag_mod w 31 p g7
  apply decodeWord_of _ _ _ hwf
  rw [decodeRaw_C24 w mj]
  simp [decC24, f0, f1, f2, f3, f4, f5, f6, f7]

theorem RoundTrip.cappop (p : Bool) (d : BitVec 5) (a : BitVec 5) : RoundTrip.Statement (.cappop p d a) := by
  intro w hw hwf
  have enc : 620756992 + bitOf p * 2 ^ 31 + d.toNat * 2 ^ 19 + a.toNat * 2 ^ 14 = w := Option.some.inj hw
  have hw : w = digits [(0, 14), (a.toNat, 5), (d.toNat, 5), (37, 7), (bitOf p, 1)] := by
    simp only [digits, Nat.mod_eq_of_lt (bitOf_lt p), Nat.mod_eq_of_lt (d.isLt), Nat.mod_eq_of_lt (a.isLt)]; omega
  have mj : bits w 24 7 = 37 := (bits_at hw 3 1 rfl rfl)
  have f0 : bits w 0 14 = 0 := (bits_at hw 0 1 rfl rfl)
  have f1 : bits w 14 5 = a.toNat := (bits_at hw 1 1 rfl rfl).trans (Nat.mod_eq_of_lt (a.isLt))
  have f2 : bits w 19 5 = d.toNat := (bits_at hw 2 1 rfl rfl).trans (Nat.mod_eq_of_lt (d.isLt))
  have g3 : bits w 31 1 = bitOf p := (bits_at hw 4 1 rfl rfl).trans (Nat.mod_eq_of_lt (bitOf_lt p))
  have f3 : flag w 31 = p := flag_mod w 31 p g3
  apply decodeWord_of _ _ _ hwf
  rw [decodeRaw_C25 w mj]
  simp [decC25, f0, f1, f2, f3]

theorem RoundTrip.cappush (p : Bool) (a : BitVec 5) (b : BitVec 5) : RoundTrip.Statement (.cappush p a b) := by
  intro w hw hwf
  have enc : 620756993 + bitOf p * 2 ^ 31 + a.toNat * 2 ^ 14 + b.toNat * 2 ^ 9 = w := Option.some.inj hw
  have hw : w = digits [(1, 9), (b.toNat, 5), (a.toNat, 5), (0, 5), (37, 7), (bitOf p, 1)] := by
    simp only [digits, Nat.mod_eq_of_lt (bitOf_lt p), Nat.mod_eq_of_lt (a.isLt), Nat.mod_eq_of_lt (b.isLt)]; omega
  have mj : bits w 24 7 = 37 := (bits_at hw 4 1 rfl rfl)
  have f0 : bits w 0 9 = 1 := (bits_at hw 0 1 rfl rfl)
  have f1 : ¬ bits w 0 14 = 0 := by
    have := bitOf_lt p
    have := a.isLt
    have := b.isLt
    unfold bits; omega
  have f2 : bits w 9 5 = b.toNat := (bits_at hw 1 1 rfl rfl).trans (Nat.mod_eq_of_lt (b.isLt))
  have f3 : bits w 14 5 = a.toNat := (bits_at hw 2 1 rfl rfl).trans (Nat.mod_eq_of_lt (a.isLt))
  have f4 : bits w 19 5 = 0 := (bits_at hw 3 1 rfl rfl)
  have g5 : bits w 31 1 = bitOf p := (bits_at hw 5 1 rfl rfl).trans (Nat.mod_eq_of_lt (bitOf_lt p))
  have f5 : flag w 31 = p := flag_mod w 31 p g5
  apply decodeWord_of _ _ _ hwf
  rw [decodeRaw_C25 w mj]
  simp [decC25, f0, f1, f2, f3, f4, f5]

theorem RoundTrip.capset (p : Bool) (a : BitVec 5) (b : BitVec 5) (c : BitVec 5) : RoundTrip.Statement (.capset p a b c) := by
  intro w hw hwf
  have enc : 620756994 + bitOf p * 2 ^ 31 + a.toNat * 2 ^ 14 + b.toNat * 2 ^ 9 + c.toNat * 2 ^ 4 = w := Option.some.inj hw
  have hw : w = digits [(2, 4), (c.toNat, 5), (b.toNat, 5), (a.toNat, 5), (0, 5), (37, 7), (bitOf p, 1)] := by
    simp only [digits, Nat.mod_eq_of_lt (bitOf_lt p), Nat.mod_eq_of_lt (a.isLt), Nat.mod_eq_of_lt (b.isLt), Nat.mod_eq_of_lt (c.isLt)]; omega
  have mj : bits w 24 7 = 37 := (bits_at hw 5 1 rfl rfl)
  have f0 : bits w 0 4 = 2 := (bits_at hw 0 1 rfl rfl)
  have f1 : ¬ bits w 0 9 = 1 := by
    have := bitOf_lt p
    have := a.isLt
    have := b.isLt
    have := c.isLt
    unfold bits; omega
  have f2 : ¬ bits w 0 14 = 0 := by
    have := bitOf_lt p
    have := a.isLt
    have := b.isLt
    have := c.isLt
    unfold bits; omega
  have f3 : bits w 4 5 = c.toNat := (bits_at hw 1 1 rfl rfl).trans (Nat.mod_eq_of_lt (c.isLt))
  have f4 : bits w 9 5 = b.toNat := (bits_at hw 2 1 rfl rfl).trans (Nat.mod_eq_of_lt (b.isLt))
  have f5 : bits w 14 5 = a.toNat := (bits_at hw 3 1 rfl rfl).trans (Nat.mod_eq_of_lt (a.isLt))
  have f6 : bits w 19 5 = 0 := (bits_at hw 4 1 rfl rfl)
  have g7 : bits w 31 1 = bitOf p := (bits_at hw 6 1 rfl rfl).trans (Nat.mod_eq_of_lt (bitOf_lt p))
  have f7 : flag w 31 = p := flag_mod w 31 p g7
  apply decodeWord_of _ _ _ hwf
  rw [decodeRaw_C25 w mj]
  simp [decC25, f0, f1, f2, f3, f4, f5, f6, f7]

theorem RoundTrip.capget (p : Bool) (d : BitVec 5) (a : BitVec 5) (c : BitVec 5) : RoundTrip.Statement (.capget p d a c) := by
  intro w hw hwf
  have enc : 620756995 + bitOf p * 2 ^ 31 + d.toNat * 2 ^ 19 + a.toNat * 2 ^ 14 + c.toNat * 2 ^ 4 = w := Option.some.inj hw
  have hw : w = digits [(3, 4), (c.toNat, 5), (0, 5), (a.toNat, 5), (d.toNat, 5), (37, 7), (bitOf p, 1)] := by
    simp only [digits, Nat.mod_eq_of_lt (bitOf_lt p), Nat.mod_eq_of_lt (d.isLt), Nat.mod_eq_of_lt (a.isLt), Nat.mod_eq_of_lt (c.isLt)]; omega
  have mj : bits w 24 7 = 37 := (bits_at hw 5 1 rfl rfl)
  have f0 : bits w 0 4 = 3 := (bits_at hw 0 1 rfl rfl)
  have f1 : ¬ bits w 0 9 = 1 := by
    have := bitOf_lt p
    have := d.isLt
    have := a.isLt
    have := c.isLt
    unfold bits; omega
  have f2 : ¬ bits w 0 14 = 0 := by
    have := bitOf_lt p
    have := d.isLt
    have := a.isLt
    have := c.isLt
    unfold bits; omega
  have f3 : bits w 4 5 = c.toNat := (bits_at hw 1 1 rfl rfl).trans (Nat.mod_eq_of_lt (c.isLt))
  have f4 : bits w 9 5 = 0 := (bits_at hw 2 1 rfl rfl)
  have f5 : bits w 14 5 = a.toNat := (bits_at hw 3 1 rfl rfl).trans (Nat.mod_eq_of_lt (a.isLt))
  have f6 : bits w 19 5 = d.toNat := (bits_at hw 4 1 rfl rfl).trans (Nat.mod_eq_of_lt (d.isLt))
  have g7 : bits w 31 1 = bitOf p := (bits_at hw 6 1 rfl rfl).trans (Nat.mod_eq_of_lt (bitOf_lt p))
  have f7 : flag w 31 = p := flag_mod w 31 p g7
  apply decodeWord_of _ _ _ hwf
  rw [decodeRaw_C25 w mj]
  simp [decC25, f0, f1, f2, f3, f4, f5, f6, f7]

theorem RoundTrip.capskip (p : Bool) (a : BitVec 5) (b : BitVec 5) : RoundTrip.Statement (.capskip p a b) := by
  intro w hw hwf
  have enc : 620756996 + bitOf p * 2 ^ 31 + a.toNat * 2 ^ 14 + b.toNat * 2 ^ 9 = w := Option.some.inj hw
  have hw : w = digits [(4, 4), (0, 5), (b.toNat, 5), (a.toNat, 5), (0, 5), (37, 7), (bitOf p, 1)] := by
    simp only [digits, Nat.mod_eq_of_lt (bitOf_lt p), Nat.mod_eq_of_lt (a.isLt), Nat.mod_eq_of_lt (b.isLt)]; omega
  have mj : bits w 24 7 = 37 := (bits_at hw 5 1 rfl rfl)
  have f0 : bits w 0 4 = 4 := (bits_at hw 0 1 rfl rfl)
  have f1 : bits w 0 9 = 4 := (bits_at hw 0 2 rfl rfl)
  have f2 : ¬ bits w 0 14 = 0 := by
    have := bitOf_lt p
    have := a.isLt
    have := b.isLt
    unfold bits; omega
  have f3 : bits w 9 5 = b.toNat := (bits_at hw 2 1 rfl rfl).trans (Nat.mod_eq_of_lt (b.isLt))
  have f4 : bits w 14 5 = a.toNat := (bits_at hw 3 1 rfl rfl).trans (Nat.mod_eq_of_lt (a.isLt))
  have f5 : bits w 19 5 = 0 := (bits_at hw 4 1 rfl rfl)
  have g6 : bits w 31 1 = bitOf p := (bits_at hw 6 1 rfl rfl).trans (Nat.mod_eq_of_lt (bitOf_lt p))
  have f6 : flag w 31 = p := flag_mod w 31 p g6
  apply decodeWord_of _ _ _ hwf
  rw [decodeRaw_C25 w mj]
  simp [decC25, f0, f1, f2, f3, f4, f5, f6]

theorem RoundTrip.mma (p : Bool) (z : BitVec 4) (a : BitVec 5) (b : BitVec 5) (e : BitVec 5) (l : BitVec 4) : RoundTrip.Statement (.mma p z a b e l) := by
  intro w hw hwf
  have enc : 738197504 + bitOf p * 2 ^ 31 + z.toNat * 2 ^ 20 + a.toNat * 2 ^ 14 + b.toNat * 2 ^ 9 + e.toNat * 2 ^ 4 + l.toNat * 2 ^ 0 = w := Option.some.inj hw
  have hw : w = digits [(l.toNat, 4), (e.toNat, 5), (b.toNat, 5), (a.toNat, 5), (0, 1), (z.toNat, 4), (44, 7), (bitOf p, 1)] := by
    simp only [digits, Nat.mod_eq_of_lt (bitOf_lt p), Nat.mod_eq_of_lt (z.isLt), Nat.mod_eq_of_lt (a.isLt), Nat.mod_eq_of_lt (b.isLt), Nat.mod_eq_of_lt (e.isLt), Nat.mod_eq_of_lt (l.isLt)]; omega
  have mj : bits w 24 7 = 44 := (bits_at hw 6 1 rfl rfl)
  have f0 : bits w 0 4 = l.toNat := (bits_at hw 0 1 rfl rfl).trans (Nat.mod_eq_of_lt (l.isLt))
  have f1 : bits w 4 5 = e.toNat := (bits_at hw 1 1 rfl rfl).trans (Nat.mod_eq_of_lt (e.isLt))
  have f2 : bits w 9 5 = b.toNat := (bits_at hw 2 1 rfl rfl).trans (Nat.mod_eq_of_lt (b.isLt))
  have f3 : bits w 14 5 = a.toNat := (bits_at hw 3 1 rfl rfl).trans (Nat.mod_eq_of_lt (a.isLt))
  have f4 : bits w 19 1 = 0 := (bits_at hw 4 1 rfl rfl)
  have f5 : bits w 20 4 = z.toNat := (bits_at hw 5 1 rfl rfl).trans (Nat.mod_eq_of_lt (z.isLt))
  have g6 : bits w 31 1 = bitOf p := (bits_at hw 7 1 rfl rfl).trans (Nat.mod_eq_of_lt (bitOf_lt p))
  have f6 : flag w 31 = p := flag_mod w 31 p g6
  apply decodeWord_of _ _ _ hwf
  rw [decodeRaw_C2C w mj]
  simp [decC2C, f0, f1, f2, f3, f4, f5, f6]

theorem RoundTrip.mmaz (p : Bool) (z : BitVec 4) (a : BitVec 5) (b : BitVec 5) (e : BitVec 5) (l : BitVec 4) : RoundTrip.Statement (.mmaz p z a b e l) := by
  intro w hw hwf
  have enc : 754974720 + bitOf p * 2 ^ 31 + z.toNat * 2 ^ 20 + a.toNat * 2 ^ 14 + b.toNat * 2 ^ 9 + e.toNat * 2 ^ 4 + l.toNat * 2 ^ 0 = w := Option.some.inj hw
  have hw : w = digits [(l.toNat, 4), (e.toNat, 5), (b.toNat, 5), (a.toNat, 5), (0, 1), (z.toNat, 4), (45, 7), (bitOf p, 1)] := by
    simp only [digits, Nat.mod_eq_of_lt (bitOf_lt p), Nat.mod_eq_of_lt (z.isLt), Nat.mod_eq_of_lt (a.isLt), Nat.mod_eq_of_lt (b.isLt), Nat.mod_eq_of_lt (e.isLt), Nat.mod_eq_of_lt (l.isLt)]; omega
  have mj : bits w 24 7 = 45 := (bits_at hw 6 1 rfl rfl)
  have f0 : bits w 0 4 = l.toNat := (bits_at hw 0 1 rfl rfl).trans (Nat.mod_eq_of_lt (l.isLt))
  have f1 : bits w 4 5 = e.toNat := (bits_at hw 1 1 rfl rfl).trans (Nat.mod_eq_of_lt (e.isLt))
  have f2 : bits w 9 5 = b.toNat := (bits_at hw 2 1 rfl rfl).trans (Nat.mod_eq_of_lt (b.isLt))
  have f3 : bits w 14 5 = a.toNat := (bits_at hw 3 1 rfl rfl).trans (Nat.mod_eq_of_lt (a.isLt))
  have f4 : bits w 19 1 = 0 := (bits_at hw 4 1 rfl rfl)
  have f5 : bits w 20 4 = z.toNat := (bits_at hw 5 1 rfl rfl).trans (Nat.mod_eq_of_lt (z.isLt))
  have g6 : bits w 31 1 = bitOf p := (bits_at hw 7 1 rfl rfl).trans (Nat.mod_eq_of_lt (bitOf_lt p))
  have f6 : flag w 31 = p := flag_mod w 31 p g6
  apply decodeWord_of _ _ _ hwf
  rw [decodeRaw_C2D w mj]
  simp [decC2D, f0, f1, f2, f3, f4, f5, f6]

theorem RoundTrip.zrd (p : Bool) (v : BitVec 5) (a : BitVec 5) (z : BitVec 4) (t : Ty) (l : BitVec 4) : RoundTrip.Statement (.zrd p v a z t l) := by
  intro w hw hwf
  have enc : 771751936 + bitOf p * 2 ^ 31 + v.toNat * 2 ^ 19 + a.toNat * 2 ^ 14 + z.toNat * 2 ^ 10 + t.code * 2 ^ 4 + l.toNat * 2 ^ 0 = w := Option.some.inj hw
  have hw : w = digits [(l.toNat, 4), (t.code, 4), (0, 2), (z.toNat, 4), (a.toNat, 5), (v.toNat, 5), (46, 7), (bitOf p, 1)] := by
    simp only [digits, Nat.mod_eq_of_lt (bitOf_lt p), Nat.mod_eq_of_lt (v.isLt), Nat.mod_eq_of_lt (a.isLt), Nat.mod_eq_of_lt (z.isLt), Nat.mod_eq_of_lt (Ty.code_lt t), Nat.mod_eq_of_lt (l.isLt)]; omega
  have mj : bits w 24 7 = 46 := (bits_at hw 6 1 rfl rfl)
  have f0 : bits w 0 4 = l.toNat := (bits_at hw 0 1 rfl rfl).trans (Nat.mod_eq_of_lt (l.isLt))
  have f1 : bits w 4 4 = t.code := (bits_at hw 1 1 rfl rfl).trans (Nat.mod_eq_of_lt (Ty.code_lt t))
  have f2 : bits w 8 2 = 0 := (bits_at hw 2 1 rfl rfl)
  have f3 : bits w 10 4 = z.toNat := (bits_at hw 3 1 rfl rfl).trans (Nat.mod_eq_of_lt (z.isLt))
  have f4 : bits w 14 5 = a.toNat := (bits_at hw 4 1 rfl rfl).trans (Nat.mod_eq_of_lt (a.isLt))
  have f5 : bits w 19 5 = v.toNat := (bits_at hw 5 1 rfl rfl).trans (Nat.mod_eq_of_lt (v.isLt))
  have g6 : bits w 31 1 = bitOf p := (bits_at hw 7 1 rfl rfl).trans (Nat.mod_eq_of_lt (bitOf_lt p))
  have f6 : flag w 31 = p := flag_mod w 31 p g6
  apply decodeWord_of _ _ _ hwf
  rw [decodeRaw_C2E w mj]
  simp [decC2E, f0, f1, f2, f3, f4, f5, f6, Ty.ofCode_code]

theorem RoundTrip.zwr (p : Bool) (v : BitVec 5) (a : BitVec 5) (z : BitVec 4) (t : Ty) (l : BitVec 4) : RoundTrip.Statement (.zwr p v a z t l) := by
  intro w hw hwf
  have enc : 771752192 + bitOf p * 2 ^ 31 + v.toNat * 2 ^ 19 + a.toNat * 2 ^ 14 + z.toNat * 2 ^ 10 + t.code * 2 ^ 4 + l.toNat * 2 ^ 0 = w := Option.some.inj hw
  have hw : w = digits [(l.toNat, 4), (t.code, 4), (1, 2), (z.toNat, 4), (a.toNat, 5), (v.toNat, 5), (46, 7), (bitOf p, 1)] := by
    simp only [digits, Nat.mod_eq_of_lt (bitOf_lt p), Nat.mod_eq_of_lt (v.isLt), Nat.mod_eq_of_lt (a.isLt), Nat.mod_eq_of_lt (z.isLt), Nat.mod_eq_of_lt (Ty.code_lt t), Nat.mod_eq_of_lt (l.isLt)]; omega
  have mj : bits w 24 7 = 46 := (bits_at hw 6 1 rfl rfl)
  have f0 : bits w 0 4 = l.toNat := (bits_at hw 0 1 rfl rfl).trans (Nat.mod_eq_of_lt (l.isLt))
  have f1 : bits w 4 4 = t.code := (bits_at hw 1 1 rfl rfl).trans (Nat.mod_eq_of_lt (Ty.code_lt t))
  have f2 : bits w 8 2 = 1 := (bits_at hw 2 1 rfl rfl)
  have f3 : bits w 10 4 = z.toNat := (bits_at hw 3 1 rfl rfl).trans (Nat.mod_eq_of_lt (z.isLt))
  have f4 : bits w 14 5 = a.toNat := (bits_at hw 4 1 rfl rfl).trans (Nat.mod_eq_of_lt (a.isLt))
  have f5 : bits w 19 5 = v.toNat := (bits_at hw 5 1 rfl rfl).trans (Nat.mod_eq_of_lt (v.isLt))
  have g6 : bits w 31 1 = bitOf p := (bits_at hw 7 1 rfl rfl).trans (Nat.mod_eq_of_lt (bitOf_lt p))
  have f6 : flag w 31 = p := flag_mod w 31 p g6
  apply decodeWord_of _ _ _ hwf
  rw [decodeRaw_C2E w mj]
  simp [decC2E, f0, f1, f2, f3, f4, f5, f6, Ty.ofCode_code]

theorem RoundTrip.mclr (p : Bool) (z : BitVec 4) (l : BitVec 4) : RoundTrip.Statement (.mclr p z l) := by
  intro w hw hwf
  have enc : 771752448 + bitOf p * 2 ^ 31 + z.toNat * 2 ^ 10 + l.toNat * 2 ^ 0 = w := Option.some.inj hw
  have hw : w = digits [(l.toNat, 4), (0, 4), (2, 2), (z.toNat, 4), (0, 10), (46, 7), (bitOf p, 1)] := by
    simp only [digits, Nat.mod_eq_of_lt (bitOf_lt p), Nat.mod_eq_of_lt (z.isLt), Nat.mod_eq_of_lt (l.isLt)]; omega
  have mj : bits w 24 7 = 46 := (bits_at hw 5 1 rfl rfl)
  have f0 : bits w 0 4 = l.toNat := (bits_at hw 0 1 rfl rfl).trans (Nat.mod_eq_of_lt (l.isLt))
  have f1 : bits w 4 6 = 32 := (bits_at hw 1 2 rfl rfl)
  have f2 : bits w 8 2 = 2 := (bits_at hw 2 1 rfl rfl)
  have f3 : bits w 10 4 = z.toNat := (bits_at hw 3 1 rfl rfl).trans (Nat.mod_eq_of_lt (z.isLt))
  have f4 : bits w 14 10 = 0 := (bits_at hw 4 1 rfl rfl)
  have g5 : bits w 31 1 = bitOf p := (bits_at hw 6 1 rfl rfl).trans (Nat.mod_eq_of_lt (bitOf_lt p))
  have f5 : flag w 31 = p := flag_mod w 31 p g5
  apply decodeWord_of _ _ _ hwf
  rw [decodeRaw_C2E w mj]
  simp [decC2E, f0, f1, f2, f3, f4, f5]

theorem RoundTrip.medge (p : Bool) (d : BitVec 5) (a : BitVec 5) (b : BitVec 5) (c : BitVec 5) : RoundTrip.Statement (.medge p d a b c) := by
  intro w hw hwf
  have enc : 788529152 + bitOf p * 2 ^ 31 + d.toNat * 2 ^ 19 + a.toNat * 2 ^ 14 + b.toNat * 2 ^ 9 + c.toNat * 2 ^ 4 = w := Option.some.inj hw
  have hw : w = digits [(0, 4), (c.toNat, 5), (b.toNat, 5), (a.toNat, 5), (d.toNat, 5), (47, 7), (bitOf p, 1)] := by
    simp only [digits, Nat.mod_eq_of_lt (bitOf_lt p), Nat.mod_eq_of_lt (d.isLt), Nat.mod_eq_of_lt (a.isLt), Nat.mod_eq_of_lt (b.isLt), Nat.mod_eq_of_lt (c.isLt)]; omega
  have mj : bits w 24 7 = 47 := (bits_at hw 5 1 rfl rfl)
  have f0 : bits w 0 4 = 0 := (bits_at hw 0 1 rfl rfl)
  have f1 : bits w 4 5 = c.toNat := (bits_at hw 1 1 rfl rfl).trans (Nat.mod_eq_of_lt (c.isLt))
  have f2 : bits w 9 5 = b.toNat := (bits_at hw 2 1 rfl rfl).trans (Nat.mod_eq_of_lt (b.isLt))
  have f3 : bits w 14 5 = a.toNat := (bits_at hw 3 1 rfl rfl).trans (Nat.mod_eq_of_lt (a.isLt))
  have f4 : bits w 19 5 = d.toNat := (bits_at hw 4 1 rfl rfl).trans (Nat.mod_eq_of_lt (d.isLt))
  have g5 : bits w 31 1 = bitOf p := (bits_at hw 6 1 rfl rfl).trans (Nat.mod_eq_of_lt (bitOf_lt p))
  have f5 : flag w 31 = p := flag_mod w 31 p g5
  apply decodeWord_of _ _ _ hwf
  rw [decodeRaw_C2F w mj]
  simp [decC2F, f0, f1, f2, f3, f4, f5]

theorem RoundTrip.mlu (p : Bool) (z : BitVec 4) (v : BitVec 5) (g : BitVec 5) (l : BitVec 4) : RoundTrip.Statement (.mlu p z v g l) := by
  intro w hw hwf
  have enc : 805306368 + bitOf p * 2 ^ 31 + z.toNat * 2 ^ 20 + v.toNat * 2 ^ 15 + g.toNat * 2 ^ 10 + l.toNat * 2 ^ 0 = w := Option.some.inj hw
  have hw : w = digits [(l.toNat, 4), (0, 6), (g.toNat, 5), (v.toNat, 5), (z.toNat, 4), (48, 7), (bitOf p, 1)] := by
    simp only [digits, Nat.mod_eq_of_lt (bitOf_lt p), Nat.mod_eq_of_lt (z.isLt), Nat.mod_eq_of_lt (v.isLt), Nat.mod_eq_of_lt (g.isLt), Nat.mod_eq_of_lt (l.isLt)]; omega
  have mj : bits w 24 7 = 48 := (bits_at hw 5 1 rfl rfl)
  have f0 : bits w 0 4 = l.toNat := (bits_at hw 0 1 rfl rfl).trans (Nat.mod_eq_of_lt (l.isLt))
  have f1 : bits w 4 6 = 0 := (bits_at hw 1 1 rfl rfl)
  have f2 : bits w 10 5 = g.toNat := (bits_at hw 2 1 rfl rfl).trans (Nat.mod_eq_of_lt (g.isLt))
  have f3 : bits w 15 5 = v.toNat := (bits_at hw 3 1 rfl rfl).trans (Nat.mod_eq_of_lt (v.isLt))
  have f4 : bits w 20 4 = z.toNat := (bits_at hw 4 1 rfl rfl).trans (Nat.mod_eq_of_lt (z.isLt))
  have g5 : bits w 31 1 = bitOf p := (bits_at hw 6 1 rfl rfl).trans (Nat.mod_eq_of_lt (bitOf_lt p))
  have f5 : flag w 31 = p := flag_mod w 31 p g5
  apply decodeWord_of _ _ _ hwf
  rw [decodeRaw_C30 w mj]
  simp [decC30, f0, f1, f2, f3, f4, f5]

theorem RoundTrip.mchol (p : Bool) (z : BitVec 4) (l : BitVec 4) : RoundTrip.Statement (.mchol p z l) := by
  intro w hw hwf
  have enc : 805306384 + bitOf p * 2 ^ 31 + z.toNat * 2 ^ 20 + l.toNat * 2 ^ 0 = w := Option.some.inj hw
  have hw : w = digits [(l.toNat, 4), (1, 6), (0, 10), (z.toNat, 4), (48, 7), (bitOf p, 1)] := by
    simp only [digits, Nat.mod_eq_of_lt (bitOf_lt p), Nat.mod_eq_of_lt (z.isLt), Nat.mod_eq_of_lt (l.isLt)]; omega
  have mj : bits w 24 7 = 48 := (bits_at hw 4 1 rfl rfl)
  have f0 : bits w 0 4 = l.toNat := (bits_at hw 0 1 rfl rfl).trans (Nat.mod_eq_of_lt (l.isLt))
  have f1 : bits w 4 6 = 1 := (bits_at hw 1 1 rfl rfl)
  have f2 : bits w 4 16 = 1 := (bits_at hw 1 2 rfl rfl)
  have f3 : bits w 20 4 = z.toNat := (bits_at hw 3 1 rfl rfl).trans (Nat.mod_eq_of_lt (z.isLt))
  have g4 : bits w 31 1 = bitOf p := (bits_at hw 5 1 rfl rfl).trans (Nat.mod_eq_of_lt (bitOf_lt p))
  have f4 : flag w 31 = p := flag_mod w 31 p g4
  apply decodeWord_of _ _ _ hwf
  rw [decodeRaw_C30 w mj]
  simp [decC30, f0, f1, f2, f3, f4]

theorem RoundTrip.mqr (p : Bool) (z : BitVec 4) (v : BitVec 4) (l : BitVec 4) : RoundTrip.Statement (.mqr p z v l) := by
  intro w hw hwf
  have enc : 805306400 + bitOf p * 2 ^ 31 + z.toNat * 2 ^ 20 + v.toNat * 2 ^ 16 + l.toNat * 2 ^ 0 = w := Option.some.inj hw
  have hw : w = digits [(l.toNat, 4), (2, 6), (0, 6), (v.toNat, 4), (z.toNat, 4), (48, 7), (bitOf p, 1)] := by
    simp only [digits, Nat.mod_eq_of_lt (bitOf_lt p), Nat.mod_eq_of_lt (z.isLt), Nat.mod_eq_of_lt (v.isLt), Nat.mod_eq_of_lt (l.isLt)]; omega
  have mj : bits w 24 7 = 48 := (bits_at hw 5 1 rfl rfl)
  have f0 : bits w 0 4 = l.toNat := (bits_at hw 0 1 rfl rfl).trans (Nat.mod_eq_of_lt (l.isLt))
  have f1 : bits w 4 6 = 2 := (bits_at hw 1 1 rfl rfl)
  have f2 : bits w 4 12 = 2 := (bits_at hw 1 2 rfl rfl)
  have f3 : ¬ bits w 4 16 = 1 := by
    have := bitOf_lt p
    have := z.isLt
    have := v.isLt
    have := l.isLt
    unfold bits; omega
  have f4 : bits w 16 4 = v.toNat := (bits_at hw 3 1 rfl rfl).trans (Nat.mod_eq_of_lt (v.isLt))
  have f5 : bits w 20 4 = z.toNat := (bits_at hw 4 1 rfl rfl).trans (Nat.mod_eq_of_lt (z.isLt))
  have g6 : bits w 31 1 = bitOf p := (bits_at hw 6 1 rfl rfl).trans (Nat.mod_eq_of_lt (bitOf_lt p))
  have f6 : flag w 31 = p := flag_mod w 31 p g6
  apply decodeWord_of _ _ _ hwf
  rw [decodeRaw_C30 w mj]
  simp [decC30, f0, f1, f2, f3, f4, f5, f6]

theorem RoundTrip.mtrsm (p : Bool) (z : BitVec 4) (y : BitVec 4) (s : Bool) (u : Bool) (n : Bool) (l : BitVec 4) : RoundTrip.Statement (.mtrsm p z y s u n l) := by
  intro w hw hwf
  have enc : 822083584 + bitOf p * 2 ^ 31 + z.toNat * 2 ^ 20 + y.toNat * 2 ^ 16 + bitOf s * 2 ^ 15 + bitOf u * 2 ^ 14 + bitOf n * 2 ^ 13 + l.toNat * 2 ^ 0 = w := Option.some.inj hw
  have hw : w = digits [(l.toNat, 4), (0, 9), (bitOf n, 1), (bitOf u, 1), (bitOf s, 1), (y.toNat, 4), (z.toNat, 4), (49, 7), (bitOf p, 1)] := by
    simp only [digits, Nat.mod_eq_of_lt (bitOf_lt p), Nat.mod_eq_of_lt (z.isLt), Nat.mod_eq_of_lt (y.isLt), Nat.mod_eq_of_lt (bitOf_lt s), Nat.mod_eq_of_lt (bitOf_lt u), Nat.mod_eq_of_lt (bitOf_lt n), Nat.mod_eq_of_lt (l.isLt)]; omega
  have mj : bits w 24 7 = 49 := (bits_at hw 7 1 rfl rfl)
  have f0 : bits w 0 4 = l.toNat := (bits_at hw 0 1 rfl rfl).trans (Nat.mod_eq_of_lt (l.isLt))
  have f1 : bits w 4 9 = 0 := (bits_at hw 1 1 rfl rfl)
  have f2 : bits w 16 4 = y.toNat := (bits_at hw 5 1 rfl rfl).trans (Nat.mod_eq_of_lt (y.isLt))
  have f3 : bits w 20 4 = z.toNat := (bits_at hw 6 1 rfl rfl).trans (Nat.mod_eq_of_lt (z.isLt))
  have g4 : bits w 13 1 = bitOf n := (bits_at hw 2 1 rfl rfl).trans (Nat.mod_eq_of_lt (bitOf_lt n))
  have f4 : flag w 13 = n := flag_mod w 13 n g4
  have g5 : bits w 14 1 = bitOf u := (bits_at hw 3 1 rfl rfl).trans (Nat.mod_eq_of_lt (bitOf_lt u))
  have f5 : flag w 14 = u := flag_mod w 14 u g5
  have g6 : bits w 15 1 = bitOf s := (bits_at hw 4 1 rfl rfl).trans (Nat.mod_eq_of_lt (bitOf_lt s))
  have f6 : flag w 15 = s := flag_mod w 15 s g6
  have g7 : bits w 31 1 = bitOf p := (bits_at hw 8 1 rfl rfl).trans (Nat.mod_eq_of_lt (bitOf_lt p))
  have f7 : flag w 31 = p := flag_mod w 31 p g7
  apply decodeWord_of _ _ _ hwf
  rw [decodeRaw_C31 w mj]
  simp [decC31, f0, f1, f2, f3, f4, f5, f6, f7]

theorem RoundTrip.mfmt (p : Bool) (a : BitVec 5) : RoundTrip.Statement (.mfmt p a) := by
  intro w hw hwf
  have enc : 838860800 + bitOf p * 2 ^ 31 + a.toNat * 2 ^ 14 = w := Option.some.inj hw
  have hw : w = digits [(0, 14), (a.toNat, 5), (0, 5), (50, 7), (bitOf p, 1)] := by
    simp only [digits, Nat.mod_eq_of_lt (bitOf_lt p), Nat.mod_eq_of_lt (a.isLt)]; omega
  have mj : bits w 24 7 = 50 := (bits_at hw 3 1 rfl rfl)
  have f0 : bits w 0 14 = 0 := (bits_at hw 0 1 rfl rfl)
  have f1 : bits w 14 5 = a.toNat := (bits_at hw 1 1 rfl rfl).trans (Nat.mod_eq_of_lt (a.isLt))
  have f2 : bits w 19 5 = 0 := (bits_at hw 2 1 rfl rfl)
  have g3 : bits w 31 1 = bitOf p := (bits_at hw 4 1 rfl rfl).trans (Nat.mod_eq_of_lt (bitOf_lt p))
  have f3 : flag w 31 = p := flag_mod w 31 p g3
  apply decodeWord_of _ _ _ hwf
  rw [decodeRaw_C32 w mj]
  simp [decC32, f0, f1, f2, f3]

theorem RoundTrip.mctld (p : Bool) (a : BitVec 5) : RoundTrip.Statement (.mctld p a) := by
  intro w hw hwf
  have enc : 838860801 + bitOf p * 2 ^ 31 + a.toNat * 2 ^ 14 = w := Option.some.inj hw
  have hw : w = digits [(1, 14), (a.toNat, 5), (0, 5), (50, 7), (bitOf p, 1)] := by
    simp only [digits, Nat.mod_eq_of_lt (bitOf_lt p), Nat.mod_eq_of_lt (a.isLt)]; omega
  have mj : bits w 24 7 = 50 := (bits_at hw 3 1 rfl rfl)
  have f0 : bits w 0 14 = 1 := (bits_at hw 0 1 rfl rfl)
  have f1 : bits w 14 5 = a.toNat := (bits_at hw 1 1 rfl rfl).trans (Nat.mod_eq_of_lt (a.isLt))
  have f2 : bits w 19 5 = 0 := (bits_at hw 2 1 rfl rfl)
  have g3 : bits w 31 1 = bitOf p := (bits_at hw 4 1 rfl rfl).trans (Nat.mod_eq_of_lt (bitOf_lt p))
  have f3 : flag w 31 = p := flag_mod w 31 p g3
  apply decodeWord_of _ _ _ hwf
  rw [decodeRaw_C32 w mj]
  simp [decC32, f0, f1, f2, f3]

theorem RoundTrip.mctset (p : Bool) (a : BitVec 5) (b : BitVec 5) : RoundTrip.Statement (.mctset p a b) := by
  intro w hw hwf
  have enc : 838860802 + bitOf p * 2 ^ 31 + a.toNat * 2 ^ 14 + b.toNat * 2 ^ 9 = w := Option.some.inj hw
  have hw : w = digits [(2, 9), (b.toNat, 5), (a.toNat, 5), (0, 5), (50, 7), (bitOf p, 1)] := by
    simp only [digits, Nat.mod_eq_of_lt (bitOf_lt p), Nat.mod_eq_of_lt (a.isLt), Nat.mod_eq_of_lt (b.isLt)]; omega
  have mj : bits w 24 7 = 50 := (bits_at hw 4 1 rfl rfl)
  have f0 : bits w 0 9 = 2 := (bits_at hw 0 1 rfl rfl)
  have f1 : ¬ bits w 0 14 = 0 := by
    have := bitOf_lt p
    have := a.isLt
    have := b.isLt
    unfold bits; omega
  have f2 : ¬ bits w 0 14 = 1 := by
    have := bitOf_lt p
    have := a.isLt
    have := b.isLt
    unfold bits; omega
  have f3 : bits w 9 5 = b.toNat := (bits_at hw 1 1 rfl rfl).trans (Nat.mod_eq_of_lt (b.isLt))
  have f4 : bits w 14 5 = a.toNat := (bits_at hw 2 1 rfl rfl).trans (Nat.mod_eq_of_lt (a.isLt))
  have f5 : bits w 19 5 = 0 := (bits_at hw 3 1 rfl rfl)
  have g6 : bits w 31 1 = bitOf p := (bits_at hw 5 1 rfl rfl).trans (Nat.mod_eq_of_lt (bitOf_lt p))
  have f6 : flag w 31 = p := flag_mod w 31 p g6
  apply decodeWord_of _ _ _ hwf
  rw [decodeRaw_C32 w mj]
  simp [decC32, f0, f1, f2, f3, f4, f5, f6]

theorem RoundTrip.add (d : BitVec 5) (a : BitVec 5) (b : BitVec 5) : RoundTrip.Statement (.add d a b) := by
  intro w hw hwf
  have enc : 1073741824 + d.toNat * 2 ^ 19 + a.toNat * 2 ^ 14 + b.toNat * 2 ^ 9 = w := Option.some.inj hw
  have hw : w = digits [(0, 9), (b.toNat, 5), (a.toNat, 5), (d.toNat, 5), (64, 7), (0, 1)] := by
    simp only [digits, Nat.mod_eq_of_lt (d.isLt), Nat.mod_eq_of_lt (a.isLt), Nat.mod_eq_of_lt (b.isLt)]; omega
  have mj : bits w 24 7 = 64 := (bits_at hw 4 1 rfl rfl)
  have f0 : bits w 0 9 = 0 := (bits_at hw 0 1 rfl rfl)
  have f1 : bits w 9 5 = b.toNat := (bits_at hw 1 1 rfl rfl).trans (Nat.mod_eq_of_lt (b.isLt))
  have f2 : bits w 14 5 = a.toNat := (bits_at hw 2 1 rfl rfl).trans (Nat.mod_eq_of_lt (a.isLt))
  have f3 : bits w 19 5 = d.toNat := (bits_at hw 3 1 rfl rfl).trans (Nat.mod_eq_of_lt (d.isLt))
  have f4 : bits w 31 1 = 0 := (bits_at hw 5 1 rfl rfl)
  apply decodeWord_of _ _ _ hwf
  rw [decodeRaw_A00 w mj]
  simp [decA00, f0, f1, f2, f3, f4]

theorem RoundTrip.sub (d : BitVec 5) (a : BitVec 5) (b : BitVec 5) : RoundTrip.Statement (.sub d a b) := by
  intro w hw hwf
  have enc : 1073741825 + d.toNat * 2 ^ 19 + a.toNat * 2 ^ 14 + b.toNat * 2 ^ 9 = w := Option.some.inj hw
  have hw : w = digits [(1, 9), (b.toNat, 5), (a.toNat, 5), (d.toNat, 5), (64, 7), (0, 1)] := by
    simp only [digits, Nat.mod_eq_of_lt (d.isLt), Nat.mod_eq_of_lt (a.isLt), Nat.mod_eq_of_lt (b.isLt)]; omega
  have mj : bits w 24 7 = 64 := (bits_at hw 4 1 rfl rfl)
  have f0 : bits w 0 9 = 1 := (bits_at hw 0 1 rfl rfl)
  have f1 : bits w 9 5 = b.toNat := (bits_at hw 1 1 rfl rfl).trans (Nat.mod_eq_of_lt (b.isLt))
  have f2 : bits w 14 5 = a.toNat := (bits_at hw 2 1 rfl rfl).trans (Nat.mod_eq_of_lt (a.isLt))
  have f3 : bits w 19 5 = d.toNat := (bits_at hw 3 1 rfl rfl).trans (Nat.mod_eq_of_lt (d.isLt))
  have f4 : bits w 31 1 = 0 := (bits_at hw 5 1 rfl rfl)
  apply decodeWord_of _ _ _ hwf
  rw [decodeRaw_A00 w mj]
  simp [decA00, f0, f1, f2, f3, f4]

theorem RoundTrip.and (d : BitVec 5) (a : BitVec 5) (b : BitVec 5) : RoundTrip.Statement (.and d a b) := by
  intro w hw hwf
  have enc : 1073741826 + d.toNat * 2 ^ 19 + a.toNat * 2 ^ 14 + b.toNat * 2 ^ 9 = w := Option.some.inj hw
  have hw : w = digits [(2, 9), (b.toNat, 5), (a.toNat, 5), (d.toNat, 5), (64, 7), (0, 1)] := by
    simp only [digits, Nat.mod_eq_of_lt (d.isLt), Nat.mod_eq_of_lt (a.isLt), Nat.mod_eq_of_lt (b.isLt)]; omega
  have mj : bits w 24 7 = 64 := (bits_at hw 4 1 rfl rfl)
  have f0 : bits w 0 9 = 2 := (bits_at hw 0 1 rfl rfl)
  have f1 : bits w 9 5 = b.toNat := (bits_at hw 1 1 rfl rfl).trans (Nat.mod_eq_of_lt (b.isLt))
  have f2 : bits w 14 5 = a.toNat := (bits_at hw 2 1 rfl rfl).trans (Nat.mod_eq_of_lt (a.isLt))
  have f3 : bits w 19 5 = d.toNat := (bits_at hw 3 1 rfl rfl).trans (Nat.mod_eq_of_lt (d.isLt))
  have f4 : bits w 31 1 = 0 := (bits_at hw 5 1 rfl rfl)
  apply decodeWord_of _ _ _ hwf
  rw [decodeRaw_A00 w mj]
  simp [decA00, f0, f1, f2, f3, f4]

theorem RoundTrip.or (d : BitVec 5) (a : BitVec 5) (b : BitVec 5) : RoundTrip.Statement (.or d a b) := by
  intro w hw hwf
  have enc : 1073741827 + d.toNat * 2 ^ 19 + a.toNat * 2 ^ 14 + b.toNat * 2 ^ 9 = w := Option.some.inj hw
  have hw : w = digits [(3, 9), (b.toNat, 5), (a.toNat, 5), (d.toNat, 5), (64, 7), (0, 1)] := by
    simp only [digits, Nat.mod_eq_of_lt (d.isLt), Nat.mod_eq_of_lt (a.isLt), Nat.mod_eq_of_lt (b.isLt)]; omega
  have mj : bits w 24 7 = 64 := (bits_at hw 4 1 rfl rfl)
  have f0 : bits w 0 9 = 3 := (bits_at hw 0 1 rfl rfl)
  have f1 : bits w 9 5 = b.toNat := (bits_at hw 1 1 rfl rfl).trans (Nat.mod_eq_of_lt (b.isLt))
  have f2 : bits w 14 5 = a.toNat := (bits_at hw 2 1 rfl rfl).trans (Nat.mod_eq_of_lt (a.isLt))
  have f3 : bits w 19 5 = d.toNat := (bits_at hw 3 1 rfl rfl).trans (Nat.mod_eq_of_lt (d.isLt))
  have f4 : bits w 31 1 = 0 := (bits_at hw 5 1 rfl rfl)
  apply decodeWord_of _ _ _ hwf
  rw [decodeRaw_A00 w mj]
  simp [decA00, f0, f1, f2, f3, f4]

theorem RoundTrip.xor (d : BitVec 5) (a : BitVec 5) (b : BitVec 5) : RoundTrip.Statement (.xor d a b) := by
  intro w hw hwf
  have enc : 1073741828 + d.toNat * 2 ^ 19 + a.toNat * 2 ^ 14 + b.toNat * 2 ^ 9 = w := Option.some.inj hw
  have hw : w = digits [(4, 9), (b.toNat, 5), (a.toNat, 5), (d.toNat, 5), (64, 7), (0, 1)] := by
    simp only [digits, Nat.mod_eq_of_lt (d.isLt), Nat.mod_eq_of_lt (a.isLt), Nat.mod_eq_of_lt (b.isLt)]; omega
  have mj : bits w 24 7 = 64 := (bits_at hw 4 1 rfl rfl)
  have f0 : bits w 0 9 = 4 := (bits_at hw 0 1 rfl rfl)
  have f1 : bits w 9 5 = b.toNat := (bits_at hw 1 1 rfl rfl).trans (Nat.mod_eq_of_lt (b.isLt))
  have f2 : bits w 14 5 = a.toNat := (bits_at hw 2 1 rfl rfl).trans (Nat.mod_eq_of_lt (a.isLt))
  have f3 : bits w 19 5 = d.toNat := (bits_at hw 3 1 rfl rfl).trans (Nat.mod_eq_of_lt (d.isLt))
  have f4 : bits w 31 1 = 0 := (bits_at hw 5 1 rfl rfl)
  apply decodeWord_of _ _ _ hwf
  rw [decodeRaw_A00 w mj]
  simp [decA00, f0, f1, f2, f3, f4]

theorem RoundTrip.andn (d : BitVec 5) (a : BitVec 5) (b : BitVec 5) : RoundTrip.Statement (.andn d a b) := by
  intro w hw hwf
  have enc : 1073741829 + d.toNat * 2 ^ 19 + a.toNat * 2 ^ 14 + b.toNat * 2 ^ 9 = w := Option.some.inj hw
  have hw : w = digits [(5, 9), (b.toNat, 5), (a.toNat, 5), (d.toNat, 5), (64, 7), (0, 1)] := by
    simp only [digits, Nat.mod_eq_of_lt (d.isLt), Nat.mod_eq_of_lt (a.isLt), Nat.mod_eq_of_lt (b.isLt)]; omega
  have mj : bits w 24 7 = 64 := (bits_at hw 4 1 rfl rfl)
  have f0 : bits w 0 9 = 5 := (bits_at hw 0 1 rfl rfl)
  have f1 : bits w 9 5 = b.toNat := (bits_at hw 1 1 rfl rfl).trans (Nat.mod_eq_of_lt (b.isLt))
  have f2 : bits w 14 5 = a.toNat := (bits_at hw 2 1 rfl rfl).trans (Nat.mod_eq_of_lt (a.isLt))
  have f3 : bits w 19 5 = d.toNat := (bits_at hw 3 1 rfl rfl).trans (Nat.mod_eq_of_lt (d.isLt))
  have f4 : bits w 31 1 = 0 := (bits_at hw 5 1 rfl rfl)
  apply decodeWord_of _ _ _ hwf
  rw [decodeRaw_A00 w mj]
  simp [decA00, f0, f1, f2, f3, f4]

theorem RoundTrip.sll (d : BitVec 5) (a : BitVec 5) (b : BitVec 5) : RoundTrip.Statement (.sll d a b) := by
  intro w hw hwf
  have enc : 1073741830 + d.toNat * 2 ^ 19 + a.toNat * 2 ^ 14 + b.toNat * 2 ^ 9 = w := Option.some.inj hw
  have hw : w = digits [(6, 9), (b.toNat, 5), (a.toNat, 5), (d.toNat, 5), (64, 7), (0, 1)] := by
    simp only [digits, Nat.mod_eq_of_lt (d.isLt), Nat.mod_eq_of_lt (a.isLt), Nat.mod_eq_of_lt (b.isLt)]; omega
  have mj : bits w 24 7 = 64 := (bits_at hw 4 1 rfl rfl)
  have f0 : bits w 0 9 = 6 := (bits_at hw 0 1 rfl rfl)
  have f1 : bits w 9 5 = b.toNat := (bits_at hw 1 1 rfl rfl).trans (Nat.mod_eq_of_lt (b.isLt))
  have f2 : bits w 14 5 = a.toNat := (bits_at hw 2 1 rfl rfl).trans (Nat.mod_eq_of_lt (a.isLt))
  have f3 : bits w 19 5 = d.toNat := (bits_at hw 3 1 rfl rfl).trans (Nat.mod_eq_of_lt (d.isLt))
  have f4 : bits w 31 1 = 0 := (bits_at hw 5 1 rfl rfl)
  apply decodeWord_of _ _ _ hwf
  rw [decodeRaw_A00 w mj]
  simp [decA00, f0, f1, f2, f3, f4]

theorem RoundTrip.srl (d : BitVec 5) (a : BitVec 5) (b : BitVec 5) : RoundTrip.Statement (.srl d a b) := by
  intro w hw hwf
  have enc : 1073741831 + d.toNat * 2 ^ 19 + a.toNat * 2 ^ 14 + b.toNat * 2 ^ 9 = w := Option.some.inj hw
  have hw : w = digits [(7, 9), (b.toNat, 5), (a.toNat, 5), (d.toNat, 5), (64, 7), (0, 1)] := by
    simp only [digits, Nat.mod_eq_of_lt (d.isLt), Nat.mod_eq_of_lt (a.isLt), Nat.mod_eq_of_lt (b.isLt)]; omega
  have mj : bits w 24 7 = 64 := (bits_at hw 4 1 rfl rfl)
  have f0 : bits w 0 9 = 7 := (bits_at hw 0 1 rfl rfl)
  have f1 : bits w 9 5 = b.toNat := (bits_at hw 1 1 rfl rfl).trans (Nat.mod_eq_of_lt (b.isLt))
  have f2 : bits w 14 5 = a.toNat := (bits_at hw 2 1 rfl rfl).trans (Nat.mod_eq_of_lt (a.isLt))
  have f3 : bits w 19 5 = d.toNat := (bits_at hw 3 1 rfl rfl).trans (Nat.mod_eq_of_lt (d.isLt))
  have f4 : bits w 31 1 = 0 := (bits_at hw 5 1 rfl rfl)
  apply decodeWord_of _ _ _ hwf
  rw [decodeRaw_A00 w mj]
  simp [decA00, f0, f1, f2, f3, f4]

theorem RoundTrip.sra (d : BitVec 5) (a : BitVec 5) (b : BitVec 5) : RoundTrip.Statement (.sra d a b) := by
  intro w hw hwf
  have enc : 1073741832 + d.toNat * 2 ^ 19 + a.toNat * 2 ^ 14 + b.toNat * 2 ^ 9 = w := Option.some.inj hw
  have hw : w = digits [(8, 9), (b.toNat, 5), (a.toNat, 5), (d.toNat, 5), (64, 7), (0, 1)] := by
    simp only [digits, Nat.mod_eq_of_lt (d.isLt), Nat.mod_eq_of_lt (a.isLt), Nat.mod_eq_of_lt (b.isLt)]; omega
  have mj : bits w 24 7 = 64 := (bits_at hw 4 1 rfl rfl)
  have f0 : bits w 0 9 = 8 := (bits_at hw 0 1 rfl rfl)
  have f1 : bits w 9 5 = b.toNat := (bits_at hw 1 1 rfl rfl).trans (Nat.mod_eq_of_lt (b.isLt))
  have f2 : bits w 14 5 = a.toNat := (bits_at hw 2 1 rfl rfl).trans (Nat.mod_eq_of_lt (a.isLt))
  have f3 : bits w 19 5 = d.toNat := (bits_at hw 3 1 rfl rfl).trans (Nat.mod_eq_of_lt (d.isLt))
  have f4 : bits w 31 1 = 0 := (bits_at hw 5 1 rfl rfl)
  apply decodeWord_of _ _ _ hwf
  rw [decodeRaw_A00 w mj]
  simp [decA00, f0, f1, f2, f3, f4]

theorem RoundTrip.rol (d : BitVec 5) (a : BitVec 5) (b : BitVec 5) : RoundTrip.Statement (.rol d a b) := by
  intro w hw hwf
  have enc : 1073741833 + d.toNat * 2 ^ 19 + a.toNat * 2 ^ 14 + b.toNat * 2 ^ 9 = w := Option.some.inj hw
  have hw : w = digits [(9, 9), (b.toNat, 5), (a.toNat, 5), (d.toNat, 5), (64, 7), (0, 1)] := by
    simp only [digits, Nat.mod_eq_of_lt (d.isLt), Nat.mod_eq_of_lt (a.isLt), Nat.mod_eq_of_lt (b.isLt)]; omega
  have mj : bits w 24 7 = 64 := (bits_at hw 4 1 rfl rfl)
  have f0 : bits w 0 9 = 9 := (bits_at hw 0 1 rfl rfl)
  have f1 : bits w 9 5 = b.toNat := (bits_at hw 1 1 rfl rfl).trans (Nat.mod_eq_of_lt (b.isLt))
  have f2 : bits w 14 5 = a.toNat := (bits_at hw 2 1 rfl rfl).trans (Nat.mod_eq_of_lt (a.isLt))
  have f3 : bits w 19 5 = d.toNat := (bits_at hw 3 1 rfl rfl).trans (Nat.mod_eq_of_lt (d.isLt))
  have f4 : bits w 31 1 = 0 := (bits_at hw 5 1 rfl rfl)
  apply decodeWord_of _ _ _ hwf
  rw [decodeRaw_A00 w mj]
  simp [decA00, f0, f1, f2, f3, f4]

theorem RoundTrip.ror (d : BitVec 5) (a : BitVec 5) (b : BitVec 5) : RoundTrip.Statement (.ror d a b) := by
  intro w hw hwf
  have enc : 1073741834 + d.toNat * 2 ^ 19 + a.toNat * 2 ^ 14 + b.toNat * 2 ^ 9 = w := Option.some.inj hw
  have hw : w = digits [(10, 9), (b.toNat, 5), (a.toNat, 5), (d.toNat, 5), (64, 7), (0, 1)] := by
    simp only [digits, Nat.mod_eq_of_lt (d.isLt), Nat.mod_eq_of_lt (a.isLt), Nat.mod_eq_of_lt (b.isLt)]; omega
  have mj : bits w 24 7 = 64 := (bits_at hw 4 1 rfl rfl)
  have f0 : bits w 0 9 = 10 := (bits_at hw 0 1 rfl rfl)
  have f1 : bits w 9 5 = b.toNat := (bits_at hw 1 1 rfl rfl).trans (Nat.mod_eq_of_lt (b.isLt))
  have f2 : bits w 14 5 = a.toNat := (bits_at hw 2 1 rfl rfl).trans (Nat.mod_eq_of_lt (a.isLt))
  have f3 : bits w 19 5 = d.toNat := (bits_at hw 3 1 rfl rfl).trans (Nat.mod_eq_of_lt (d.isLt))
  have f4 : bits w 31 1 = 0 := (bits_at hw 5 1 rfl rfl)
  apply decodeWord_of _ _ _ hwf
  rw [decodeRaw_A00 w mj]
  simp [decA00, f0, f1, f2, f3, f4]

theorem RoundTrip.slt (d : BitVec 5) (a : BitVec 5) (b : BitVec 5) : RoundTrip.Statement (.slt d a b) := by
  intro w hw hwf
  have enc : 1073741835 + d.toNat * 2 ^ 19 + a.toNat * 2 ^ 14 + b.toNat * 2 ^ 9 = w := Option.some.inj hw
  have hw : w = digits [(11, 9), (b.toNat, 5), (a.toNat, 5), (d.toNat, 5), (64, 7), (0, 1)] := by
    simp only [digits, Nat.mod_eq_of_lt (d.isLt), Nat.mod_eq_of_lt (a.isLt), Nat.mod_eq_of_lt (b.isLt)]; omega
  have mj : bits w 24 7 = 64 := (bits_at hw 4 1 rfl rfl)
  have f0 : bits w 0 9 = 11 := (bits_at hw 0 1 rfl rfl)
  have f1 : bits w 9 5 = b.toNat := (bits_at hw 1 1 rfl rfl).trans (Nat.mod_eq_of_lt (b.isLt))
  have f2 : bits w 14 5 = a.toNat := (bits_at hw 2 1 rfl rfl).trans (Nat.mod_eq_of_lt (a.isLt))
  have f3 : bits w 19 5 = d.toNat := (bits_at hw 3 1 rfl rfl).trans (Nat.mod_eq_of_lt (d.isLt))
  have f4 : bits w 31 1 = 0 := (bits_at hw 5 1 rfl rfl)
  apply decodeWord_of _ _ _ hwf
  rw [decodeRaw_A00 w mj]
  simp [decA00, f0, f1, f2, f3, f4]

theorem RoundTrip.sltu (d : BitVec 5) (a : BitVec 5) (b : BitVec 5) : RoundTrip.Statement (.sltu d a b) := by
  intro w hw hwf
  have enc : 1073741836 + d.toNat * 2 ^ 19 + a.toNat * 2 ^ 14 + b.toNat * 2 ^ 9 = w := Option.some.inj hw
  have hw : w = digits [(12, 9), (b.toNat, 5), (a.toNat, 5), (d.toNat, 5), (64, 7), (0, 1)] := by
    simp only [digits, Nat.mod_eq_of_lt (d.isLt), Nat.mod_eq_of_lt (a.isLt), Nat.mod_eq_of_lt (b.isLt)]; omega
  have mj : bits w 24 7 = 64 := (bits_at hw 4 1 rfl rfl)
  have f0 : bits w 0 9 = 12 := (bits_at hw 0 1 rfl rfl)
  have f1 : bits w 9 5 = b.toNat := (bits_at hw 1 1 rfl rfl).trans (Nat.mod_eq_of_lt (b.isLt))
  have f2 : bits w 14 5 = a.toNat := (bits_at hw 2 1 rfl rfl).trans (Nat.mod_eq_of_lt (a.isLt))
  have f3 : bits w 19 5 = d.toNat := (bits_at hw 3 1 rfl rfl).trans (Nat.mod_eq_of_lt (d.isLt))
  have f4 : bits w 31 1 = 0 := (bits_at hw 5 1 rfl rfl)
  apply decodeWord_of _ _ _ hwf
  rw [decodeRaw_A00 w mj]
  simp [decA00, f0, f1, f2, f3, f4]

theorem RoundTrip.seq (d : BitVec 5) (a : BitVec 5) (b : BitVec 5) : RoundTrip.Statement (.seq d a b) := by
  intro w hw hwf
  have enc : 1073741837 + d.toNat * 2 ^ 19 + a.toNat * 2 ^ 14 + b.toNat * 2 ^ 9 = w := Option.some.inj hw
  have hw : w = digits [(13, 9), (b.toNat, 5), (a.toNat, 5), (d.toNat, 5), (64, 7), (0, 1)] := by
    simp only [digits, Nat.mod_eq_of_lt (d.isLt), Nat.mod_eq_of_lt (a.isLt), Nat.mod_eq_of_lt (b.isLt)]; omega
  have mj : bits w 24 7 = 64 := (bits_at hw 4 1 rfl rfl)
  have f0 : bits w 0 9 = 13 := (bits_at hw 0 1 rfl rfl)
  have f1 : bits w 9 5 = b.toNat := (bits_at hw 1 1 rfl rfl).trans (Nat.mod_eq_of_lt (b.isLt))
  have f2 : bits w 14 5 = a.toNat := (bits_at hw 2 1 rfl rfl).trans (Nat.mod_eq_of_lt (a.isLt))
  have f3 : bits w 19 5 = d.toNat := (bits_at hw 3 1 rfl rfl).trans (Nat.mod_eq_of_lt (d.isLt))
  have f4 : bits w 31 1 = 0 := (bits_at hw 5 1 rfl rfl)
  apply decodeWord_of _ _ _ hwf
  rw [decodeRaw_A00 w mj]
  simp [decA00, f0, f1, f2, f3, f4]

theorem RoundTrip.min (d : BitVec 5) (a : BitVec 5) (b : BitVec 5) : RoundTrip.Statement (.min d a b) := by
  intro w hw hwf
  have enc : 1090519040 + d.toNat * 2 ^ 19 + a.toNat * 2 ^ 14 + b.toNat * 2 ^ 9 = w := Option.some.inj hw
  have hw : w = digits [(0, 9), (b.toNat, 5), (a.toNat, 5), (d.toNat, 5), (65, 7), (0, 1)] := by
    simp only [digits, Nat.mod_eq_of_lt (d.isLt), Nat.mod_eq_of_lt (a.isLt), Nat.mod_eq_of_lt (b.isLt)]; omega
  have mj : bits w 24 7 = 65 := (bits_at hw 4 1 rfl rfl)
  have f0 : bits w 0 9 = 0 := (bits_at hw 0 1 rfl rfl)
  have f1 : bits w 9 5 = b.toNat := (bits_at hw 1 1 rfl rfl).trans (Nat.mod_eq_of_lt (b.isLt))
  have f2 : bits w 14 5 = a.toNat := (bits_at hw 2 1 rfl rfl).trans (Nat.mod_eq_of_lt (a.isLt))
  have f3 : bits w 19 5 = d.toNat := (bits_at hw 3 1 rfl rfl).trans (Nat.mod_eq_of_lt (d.isLt))
  have f4 : bits w 31 1 = 0 := (bits_at hw 5 1 rfl rfl)
  apply decodeWord_of _ _ _ hwf
  rw [decodeRaw_A01 w mj]
  simp [decA01, f0, f1, f2, f3, f4]

theorem RoundTrip.max (d : BitVec 5) (a : BitVec 5) (b : BitVec 5) : RoundTrip.Statement (.max d a b) := by
  intro w hw hwf
  have enc : 1090519041 + d.toNat * 2 ^ 19 + a.toNat * 2 ^ 14 + b.toNat * 2 ^ 9 = w := Option.some.inj hw
  have hw : w = digits [(1, 9), (b.toNat, 5), (a.toNat, 5), (d.toNat, 5), (65, 7), (0, 1)] := by
    simp only [digits, Nat.mod_eq_of_lt (d.isLt), Nat.mod_eq_of_lt (a.isLt), Nat.mod_eq_of_lt (b.isLt)]; omega
  have mj : bits w 24 7 = 65 := (bits_at hw 4 1 rfl rfl)
  have f0 : bits w 0 9 = 1 := (bits_at hw 0 1 rfl rfl)
  have f1 : bits w 9 5 = b.toNat := (bits_at hw 1 1 rfl rfl).trans (Nat.mod_eq_of_lt (b.isLt))
  have f2 : bits w 14 5 = a.toNat := (bits_at hw 2 1 rfl rfl).trans (Nat.mod_eq_of_lt (a.isLt))
  have f3 : bits w 19 5 = d.toNat := (bits_at hw 3 1 rfl rfl).trans (Nat.mod_eq_of_lt (d.isLt))
  have f4 : bits w 31 1 = 0 := (bits_at hw 5 1 rfl rfl)
  apply decodeWord_of _ _ _ hwf
  rw [decodeRaw_A01 w mj]
  simp [decA01, f0, f1, f2, f3, f4]

theorem RoundTrip.minu (d : BitVec 5) (a : BitVec 5) (b : BitVec 5) : RoundTrip.Statement (.minu d a b) := by
  intro w hw hwf
  have enc : 1090519042 + d.toNat * 2 ^ 19 + a.toNat * 2 ^ 14 + b.toNat * 2 ^ 9 = w := Option.some.inj hw
  have hw : w = digits [(2, 9), (b.toNat, 5), (a.toNat, 5), (d.toNat, 5), (65, 7), (0, 1)] := by
    simp only [digits, Nat.mod_eq_of_lt (d.isLt), Nat.mod_eq_of_lt (a.isLt), Nat.mod_eq_of_lt (b.isLt)]; omega
  have mj : bits w 24 7 = 65 := (bits_at hw 4 1 rfl rfl)
  have f0 : bits w 0 9 = 2 := (bits_at hw 0 1 rfl rfl)
  have f1 : bits w 9 5 = b.toNat := (bits_at hw 1 1 rfl rfl).trans (Nat.mod_eq_of_lt (b.isLt))
  have f2 : bits w 14 5 = a.toNat := (bits_at hw 2 1 rfl rfl).trans (Nat.mod_eq_of_lt (a.isLt))
  have f3 : bits w 19 5 = d.toNat := (bits_at hw 3 1 rfl rfl).trans (Nat.mod_eq_of_lt (d.isLt))
  have f4 : bits w 31 1 = 0 := (bits_at hw 5 1 rfl rfl)
  apply decodeWord_of _ _ _ hwf
  rw [decodeRaw_A01 w mj]
  simp [decA01, f0, f1, f2, f3, f4]

theorem RoundTrip.maxu (d : BitVec 5) (a : BitVec 5) (b : BitVec 5) : RoundTrip.Statement (.maxu d a b) := by
  intro w hw hwf
  have enc : 1090519043 + d.toNat * 2 ^ 19 + a.toNat * 2 ^ 14 + b.toNat * 2 ^ 9 = w := Option.some.inj hw
  have hw : w = digits [(3, 9), (b.toNat, 5), (a.toNat, 5), (d.toNat, 5), (65, 7), (0, 1)] := by
    simp only [digits, Nat.mod_eq_of_lt (d.isLt), Nat.mod_eq_of_lt (a.isLt), Nat.mod_eq_of_lt (b.isLt)]; omega
  have mj : bits w 24 7 = 65 := (bits_at hw 4 1 rfl rfl)
  have f0 : bits w 0 9 = 3 := (bits_at hw 0 1 rfl rfl)
  have f1 : bits w 9 5 = b.toNat := (bits_at hw 1 1 rfl rfl).trans (Nat.mod_eq_of_lt (b.isLt))
  have f2 : bits w 14 5 = a.toNat := (bits_at hw 2 1 rfl rfl).trans (Nat.mod_eq_of_lt (a.isLt))
  have f3 : bits w 19 5 = d.toNat := (bits_at hw 3 1 rfl rfl).trans (Nat.mod_eq_of_lt (d.isLt))
  have f4 : bits w 31 1 = 0 := (bits_at hw 5 1 rfl rfl)
  apply decodeWord_of _ _ _ hwf
  rw [decodeRaw_A01 w mj]
  simp [decA01, f0, f1, f2, f3, f4]

theorem RoundTrip.mul (d : BitVec 5) (a : BitVec 5) (b : BitVec 5) : RoundTrip.Statement (.mul d a b) := by
  intro w hw hwf
  have enc : 1090519044 + d.toNat * 2 ^ 19 + a.toNat * 2 ^ 14 + b.toNat * 2 ^ 9 = w := Option.some.inj hw
  have hw : w = digits [(4, 9), (b.toNat, 5), (a.toNat, 5), (d.toNat, 5), (65, 7), (0, 1)] := by
    simp only [digits, Nat.mod_eq_of_lt (d.isLt), Nat.mod_eq_of_lt (a.isLt), Nat.mod_eq_of_lt (b.isLt)]; omega
  have mj : bits w 24 7 = 65 := (bits_at hw 4 1 rfl rfl)
  have f0 : bits w 0 9 = 4 := (bits_at hw 0 1 rfl rfl)
  have f1 : bits w 9 5 = b.toNat := (bits_at hw 1 1 rfl rfl).trans (Nat.mod_eq_of_lt (b.isLt))
  have f2 : bits w 14 5 = a.toNat := (bits_at hw 2 1 rfl rfl).trans (Nat.mod_eq_of_lt (a.isLt))
  have f3 : bits w 19 5 = d.toNat := (bits_at hw 3 1 rfl rfl).trans (Nat.mod_eq_of_lt (d.isLt))
  have f4 : bits w 31 1 = 0 := (bits_at hw 5 1 rfl rfl)
  apply decodeWord_of _ _ _ hwf
  rw [decodeRaw_A01 w mj]
  simp [decA01, f0, f1, f2, f3, f4]

theorem RoundTrip.mulh (d : BitVec 5) (a : BitVec 5) (b : BitVec 5) : RoundTrip.Statement (.mulh d a b) := by
  intro w hw hwf
  have enc : 1090519045 + d.toNat * 2 ^ 19 + a.toNat * 2 ^ 14 + b.toNat * 2 ^ 9 = w := Option.some.inj hw
  have hw : w = digits [(5, 9), (b.toNat, 5), (a.toNat, 5), (d.toNat, 5), (65, 7), (0, 1)] := by
    simp only [digits, Nat.mod_eq_of_lt (d.isLt), Nat.mod_eq_of_lt (a.isLt), Nat.mod_eq_of_lt (b.isLt)]; omega
  have mj : bits w 24 7 = 65 := (bits_at hw 4 1 rfl rfl)
  have f0 : bits w 0 9 = 5 := (bits_at hw 0 1 rfl rfl)
  have f1 : bits w 9 5 = b.toNat := (bits_at hw 1 1 rfl rfl).trans (Nat.mod_eq_of_lt (b.isLt))
  have f2 : bits w 14 5 = a.toNat := (bits_at hw 2 1 rfl rfl).trans (Nat.mod_eq_of_lt (a.isLt))
  have f3 : bits w 19 5 = d.toNat := (bits_at hw 3 1 rfl rfl).trans (Nat.mod_eq_of_lt (d.isLt))
  have f4 : bits w 31 1 = 0 := (bits_at hw 5 1 rfl rfl)
  apply decodeWord_of _ _ _ hwf
  rw [decodeRaw_A01 w mj]
  simp [decA01, f0, f1, f2, f3, f4]

theorem RoundTrip.mulhu (d : BitVec 5) (a : BitVec 5) (b : BitVec 5) : RoundTrip.Statement (.mulhu d a b) := by
  intro w hw hwf
  have enc : 1090519046 + d.toNat * 2 ^ 19 + a.toNat * 2 ^ 14 + b.toNat * 2 ^ 9 = w := Option.some.inj hw
  have hw : w = digits [(6, 9), (b.toNat, 5), (a.toNat, 5), (d.toNat, 5), (65, 7), (0, 1)] := by
    simp only [digits, Nat.mod_eq_of_lt (d.isLt), Nat.mod_eq_of_lt (a.isLt), Nat.mod_eq_of_lt (b.isLt)]; omega
  have mj : bits w 24 7 = 65 := (bits_at hw 4 1 rfl rfl)
  have f0 : bits w 0 9 = 6 := (bits_at hw 0 1 rfl rfl)
  have f1 : bits w 9 5 = b.toNat := (bits_at hw 1 1 rfl rfl).trans (Nat.mod_eq_of_lt (b.isLt))
  have f2 : bits w 14 5 = a.toNat := (bits_at hw 2 1 rfl rfl).trans (Nat.mod_eq_of_lt (a.isLt))
  have f3 : bits w 19 5 = d.toNat := (bits_at hw 3 1 rfl rfl).trans (Nat.mod_eq_of_lt (d.isLt))
  have f4 : bits w 31 1 = 0 := (bits_at hw 5 1 rfl rfl)
  apply decodeWord_of _ _ _ hwf
  rw [decodeRaw_A01 w mj]
  simp [decA01, f0, f1, f2, f3, f4]

theorem RoundTrip.div (d : BitVec 5) (a : BitVec 5) (b : BitVec 5) : RoundTrip.Statement (.div d a b) := by
  intro w hw hwf
  have enc : 1090519047 + d.toNat * 2 ^ 19 + a.toNat * 2 ^ 14 + b.toNat * 2 ^ 9 = w := Option.some.inj hw
  have hw : w = digits [(7, 9), (b.toNat, 5), (a.toNat, 5), (d.toNat, 5), (65, 7), (0, 1)] := by
    simp only [digits, Nat.mod_eq_of_lt (d.isLt), Nat.mod_eq_of_lt (a.isLt), Nat.mod_eq_of_lt (b.isLt)]; omega
  have mj : bits w 24 7 = 65 := (bits_at hw 4 1 rfl rfl)
  have f0 : bits w 0 9 = 7 := (bits_at hw 0 1 rfl rfl)
  have f1 : bits w 9 5 = b.toNat := (bits_at hw 1 1 rfl rfl).trans (Nat.mod_eq_of_lt (b.isLt))
  have f2 : bits w 14 5 = a.toNat := (bits_at hw 2 1 rfl rfl).trans (Nat.mod_eq_of_lt (a.isLt))
  have f3 : bits w 19 5 = d.toNat := (bits_at hw 3 1 rfl rfl).trans (Nat.mod_eq_of_lt (d.isLt))
  have f4 : bits w 31 1 = 0 := (bits_at hw 5 1 rfl rfl)
  apply decodeWord_of _ _ _ hwf
  rw [decodeRaw_A01 w mj]
  simp [decA01, f0, f1, f2, f3, f4]

theorem RoundTrip.divu (d : BitVec 5) (a : BitVec 5) (b : BitVec 5) : RoundTrip.Statement (.divu d a b) := by
  intro w hw hwf
  have enc : 1090519048 + d.toNat * 2 ^ 19 + a.toNat * 2 ^ 14 + b.toNat * 2 ^ 9 = w := Option.some.inj hw
  have hw : w = digits [(8, 9), (b.toNat, 5), (a.toNat, 5), (d.toNat, 5), (65, 7), (0, 1)] := by
    simp only [digits, Nat.mod_eq_of_lt (d.isLt), Nat.mod_eq_of_lt (a.isLt), Nat.mod_eq_of_lt (b.isLt)]; omega
  have mj : bits w 24 7 = 65 := (bits_at hw 4 1 rfl rfl)
  have f0 : bits w 0 9 = 8 := (bits_at hw 0 1 rfl rfl)
  have f1 : bits w 9 5 = b.toNat := (bits_at hw 1 1 rfl rfl).trans (Nat.mod_eq_of_lt (b.isLt))
  have f2 : bits w 14 5 = a.toNat := (bits_at hw 2 1 rfl rfl).trans (Nat.mod_eq_of_lt (a.isLt))
  have f3 : bits w 19 5 = d.toNat := (bits_at hw 3 1 rfl rfl).trans (Nat.mod_eq_of_lt (d.isLt))
  have f4 : bits w 31 1 = 0 := (bits_at hw 5 1 rfl rfl)
  apply decodeWord_of _ _ _ hwf
  rw [decodeRaw_A01 w mj]
  simp [decA01, f0, f1, f2, f3, f4]

theorem RoundTrip.rem (d : BitVec 5) (a : BitVec 5) (b : BitVec 5) : RoundTrip.Statement (.rem d a b) := by
  intro w hw hwf
  have enc : 1090519049 + d.toNat * 2 ^ 19 + a.toNat * 2 ^ 14 + b.toNat * 2 ^ 9 = w := Option.some.inj hw
  have hw : w = digits [(9, 9), (b.toNat, 5), (a.toNat, 5), (d.toNat, 5), (65, 7), (0, 1)] := by
    simp only [digits, Nat.mod_eq_of_lt (d.isLt), Nat.mod_eq_of_lt (a.isLt), Nat.mod_eq_of_lt (b.isLt)]; omega
  have mj : bits w 24 7 = 65 := (bits_at hw 4 1 rfl rfl)
  have f0 : bits w 0 9 = 9 := (bits_at hw 0 1 rfl rfl)
  have f1 : bits w 9 5 = b.toNat := (bits_at hw 1 1 rfl rfl).trans (Nat.mod_eq_of_lt (b.isLt))
  have f2 : bits w 14 5 = a.toNat := (bits_at hw 2 1 rfl rfl).trans (Nat.mod_eq_of_lt (a.isLt))
  have f3 : bits w 19 5 = d.toNat := (bits_at hw 3 1 rfl rfl).trans (Nat.mod_eq_of_lt (d.isLt))
  have f4 : bits w 31 1 = 0 := (bits_at hw 5 1 rfl rfl)
  apply decodeWord_of _ _ _ hwf
  rw [decodeRaw_A01 w mj]
  simp [decA01, f0, f1, f2, f3, f4]

theorem RoundTrip.remu (d : BitVec 5) (a : BitVec 5) (b : BitVec 5) : RoundTrip.Statement (.remu d a b) := by
  intro w hw hwf
  have enc : 1090519050 + d.toNat * 2 ^ 19 + a.toNat * 2 ^ 14 + b.toNat * 2 ^ 9 = w := Option.some.inj hw
  have hw : w = digits [(10, 9), (b.toNat, 5), (a.toNat, 5), (d.toNat, 5), (65, 7), (0, 1)] := by
    simp only [digits, Nat.mod_eq_of_lt (d.isLt), Nat.mod_eq_of_lt (a.isLt), Nat.mod_eq_of_lt (b.isLt)]; omega
  have mj : bits w 24 7 = 65 := (bits_at hw 4 1 rfl rfl)
  have f0 : bits w 0 9 = 10 := (bits_at hw 0 1 rfl rfl)
  have f1 : bits w 9 5 = b.toNat := (bits_at hw 1 1 rfl rfl).trans (Nat.mod_eq_of_lt (b.isLt))
  have f2 : bits w 14 5 = a.toNat := (bits_at hw 2 1 rfl rfl).trans (Nat.mod_eq_of_lt (a.isLt))
  have f3 : bits w 19 5 = d.toNat := (bits_at hw 3 1 rfl rfl).trans (Nat.mod_eq_of_lt (d.isLt))
  have f4 : bits w 31 1 = 0 := (bits_at hw 5 1 rfl rfl)
  apply decodeWord_of _ _ _ hwf
  rw [decodeRaw_A01 w mj]
  simp [decA01, f0, f1, f2, f3, f4]

theorem RoundTrip.add32 (d : BitVec 5) (a : BitVec 5) (b : BitVec 5) : RoundTrip.Statement (.add32 d a b) := by
  intro w hw hwf
  have enc : 1090519051 + d.toNat * 2 ^ 19 + a.toNat * 2 ^ 14 + b.toNat * 2 ^ 9 = w := Option.some.inj hw
  have hw : w = digits [(11, 9), (b.toNat, 5), (a.toNat, 5), (d.toNat, 5), (65, 7), (0, 1)] := by
    simp only [digits, Nat.mod_eq_of_lt (d.isLt), Nat.mod_eq_of_lt (a.isLt), Nat.mod_eq_of_lt (b.isLt)]; omega
  have mj : bits w 24 7 = 65 := (bits_at hw 4 1 rfl rfl)
  have f0 : bits w 0 9 = 11 := (bits_at hw 0 1 rfl rfl)
  have f1 : bits w 9 5 = b.toNat := (bits_at hw 1 1 rfl rfl).trans (Nat.mod_eq_of_lt (b.isLt))
  have f2 : bits w 14 5 = a.toNat := (bits_at hw 2 1 rfl rfl).trans (Nat.mod_eq_of_lt (a.isLt))
  have f3 : bits w 19 5 = d.toNat := (bits_at hw 3 1 rfl rfl).trans (Nat.mod_eq_of_lt (d.isLt))
  have f4 : bits w 31 1 = 0 := (bits_at hw 5 1 rfl rfl)
  apply decodeWord_of _ _ _ hwf
  rw [decodeRaw_A01 w mj]
  simp [decA01, f0, f1, f2, f3, f4]

theorem RoundTrip.sub32 (d : BitVec 5) (a : BitVec 5) (b : BitVec 5) : RoundTrip.Statement (.sub32 d a b) := by
  intro w hw hwf
  have enc : 1090519052 + d.toNat * 2 ^ 19 + a.toNat * 2 ^ 14 + b.toNat * 2 ^ 9 = w := Option.some.inj hw
  have hw : w = digits [(12, 9), (b.toNat, 5), (a.toNat, 5), (d.toNat, 5), (65, 7), (0, 1)] := by
    simp only [digits, Nat.mod_eq_of_lt (d.isLt), Nat.mod_eq_of_lt (a.isLt), Nat.mod_eq_of_lt (b.isLt)]; omega
  have mj : bits w 24 7 = 65 := (bits_at hw 4 1 rfl rfl)
  have f0 : bits w 0 9 = 12 := (bits_at hw 0 1 rfl rfl)
  have f1 : bits w 9 5 = b.toNat := (bits_at hw 1 1 rfl rfl).trans (Nat.mod_eq_of_lt (b.isLt))
  have f2 : bits w 14 5 = a.toNat := (bits_at hw 2 1 rfl rfl).trans (Nat.mod_eq_of_lt (a.isLt))
  have f3 : bits w 19 5 = d.toNat := (bits_at hw 3 1 rfl rfl).trans (Nat.mod_eq_of_lt (d.isLt))
  have f4 : bits w 31 1 = 0 := (bits_at hw 5 1 rfl rfl)
  apply decodeWord_of _ _ _ hwf
  rw [decodeRaw_A01 w mj]
  simp [decA01, f0, f1, f2, f3, f4]

theorem RoundTrip.mul32 (d : BitVec 5) (a : BitVec 5) (b : BitVec 5) : RoundTrip.Statement (.mul32 d a b) := by
  intro w hw hwf
  have enc : 1090519053 + d.toNat * 2 ^ 19 + a.toNat * 2 ^ 14 + b.toNat * 2 ^ 9 = w := Option.some.inj hw
  have hw : w = digits [(13, 9), (b.toNat, 5), (a.toNat, 5), (d.toNat, 5), (65, 7), (0, 1)] := by
    simp only [digits, Nat.mod_eq_of_lt (d.isLt), Nat.mod_eq_of_lt (a.isLt), Nat.mod_eq_of_lt (b.isLt)]; omega
  have mj : bits w 24 7 = 65 := (bits_at hw 4 1 rfl rfl)
  have f0 : bits w 0 9 = 13 := (bits_at hw 0 1 rfl rfl)
  have f1 : bits w 9 5 = b.toNat := (bits_at hw 1 1 rfl rfl).trans (Nat.mod_eq_of_lt (b.isLt))
  have f2 : bits w 14 5 = a.toNat := (bits_at hw 2 1 rfl rfl).trans (Nat.mod_eq_of_lt (a.isLt))
  have f3 : bits w 19 5 = d.toNat := (bits_at hw 3 1 rfl rfl).trans (Nat.mod_eq_of_lt (d.isLt))
  have f4 : bits w 31 1 = 0 := (bits_at hw 5 1 rfl rfl)
  apply decodeWord_of _ _ _ hwf
  rw [decodeRaw_A01 w mj]
  simp [decA01, f0, f1, f2, f3, f4]

theorem RoundTrip.madd (d : BitVec 5) (a : BitVec 5) (b : BitVec 5) (c : BitVec 5) : RoundTrip.Statement (.madd d a b c) := by
  intro w hw hwf
  have enc : 1107296256 + d.toNat * 2 ^ 19 + a.toNat * 2 ^ 14 + b.toNat * 2 ^ 9 + c.toNat * 2 ^ 4 = w := Option.some.inj hw
  have hw : w = digits [(0, 4), (c.toNat, 5), (b.toNat, 5), (a.toNat, 5), (d.toNat, 5), (66, 7), (0, 1)] := by
    simp only [digits, Nat.mod_eq_of_lt (d.isLt), Nat.mod_eq_of_lt (a.isLt), Nat.mod_eq_of_lt (b.isLt), Nat.mod_eq_of_lt (c.isLt)]; omega
  have mj : bits w 24 7 = 66 := (bits_at hw 5 1 rfl rfl)
  have f0 : bits w 0 4 = 0 := (bits_at hw 0 1 rfl rfl)
  have f1 : bits w 4 5 = c.toNat := (bits_at hw 1 1 rfl rfl).trans (Nat.mod_eq_of_lt (c.isLt))
  have f2 : bits w 9 5 = b.toNat := (bits_at hw 2 1 rfl rfl).trans (Nat.mod_eq_of_lt (b.isLt))
  have f3 : bits w 14 5 = a.toNat := (bits_at hw 3 1 rfl rfl).trans (Nat.mod_eq_of_lt (a.isLt))
  have f4 : bits w 19 5 = d.toNat := (bits_at hw 4 1 rfl rfl).trans (Nat.mod_eq_of_lt (d.isLt))
  have f5 : bits w 31 1 = 0 := (bits_at hw 6 1 rfl rfl)
  apply decodeWord_of _ _ _ hwf
  rw [decodeRaw_A02 w mj]
  simp [decA02, f0, f1, f2, f3, f4, f5]

theorem RoundTrip.msub (d : BitVec 5) (a : BitVec 5) (b : BitVec 5) (c : BitVec 5) : RoundTrip.Statement (.msub d a b c) := by
  intro w hw hwf
  have enc : 1107296257 + d.toNat * 2 ^ 19 + a.toNat * 2 ^ 14 + b.toNat * 2 ^ 9 + c.toNat * 2 ^ 4 = w := Option.some.inj hw
  have hw : w = digits [(1, 4), (c.toNat, 5), (b.toNat, 5), (a.toNat, 5), (d.toNat, 5), (66, 7), (0, 1)] := by
    simp only [digits, Nat.mod_eq_of_lt (d.isLt), Nat.mod_eq_of_lt (a.isLt), Nat.mod_eq_of_lt (b.isLt), Nat.mod_eq_of_lt (c.isLt)]; omega
  have mj : bits w 24 7 = 66 := (bits_at hw 5 1 rfl rfl)
  have f0 : bits w 0 4 = 1 := (bits_at hw 0 1 rfl rfl)
  have f1 : bits w 4 5 = c.toNat := (bits_at hw 1 1 rfl rfl).trans (Nat.mod_eq_of_lt (c.isLt))
  have f2 : bits w 9 5 = b.toNat := (bits_at hw 2 1 rfl rfl).trans (Nat.mod_eq_of_lt (b.isLt))
  have f3 : bits w 14 5 = a.toNat := (bits_at hw 3 1 rfl rfl).trans (Nat.mod_eq_of_lt (a.isLt))
  have f4 : bits w 19 5 = d.toNat := (bits_at hw 4 1 rfl rfl).trans (Nat.mod_eq_of_lt (d.isLt))
  have f5 : bits w 31 1 = 0 := (bits_at hw 6 1 rfl rfl)
  apply decodeWord_of _ _ _ hwf
  rw [decodeRaw_A02 w mj]
  simp [decA02, f0, f1, f2, f3, f4, f5]

theorem RoundTrip.csel (d : BitVec 5) (a : BitVec 5) (b : BitVec 5) (c : BitVec 5) : RoundTrip.Statement (.csel d a b c) := by
  intro w hw hwf
  have enc : 1107296258 + d.toNat * 2 ^ 19 + a.toNat * 2 ^ 14 + b.toNat * 2 ^ 9 + c.toNat * 2 ^ 4 = w := Option.some.inj hw
  have hw : w = digits [(2, 4), (c.toNat, 5), (b.toNat, 5), (a.toNat, 5), (d.toNat, 5), (66, 7), (0, 1)] := by
    simp only [digits, Nat.mod_eq_of_lt (d.isLt), Nat.mod_eq_of_lt (a.isLt), Nat.mod_eq_of_lt (b.isLt), Nat.mod_eq_of_lt (c.isLt)]; omega
  have mj : bits w 24 7 = 66 := (bits_at hw 5 1 rfl rfl)
  have f0 : bits w 0 4 = 2 := (bits_at hw 0 1 rfl rfl)
  have f1 : bits w 4 5 = c.toNat := (bits_at hw 1 1 rfl rfl).trans (Nat.mod_eq_of_lt (c.isLt))
  have f2 : bits w 9 5 = b.toNat := (bits_at hw 2 1 rfl rfl).trans (Nat.mod_eq_of_lt (b.isLt))
  have f3 : bits w 14 5 = a.toNat := (bits_at hw 3 1 rfl rfl).trans (Nat.mod_eq_of_lt (a.isLt))
  have f4 : bits w 19 5 = d.toNat := (bits_at hw 4 1 rfl rfl).trans (Nat.mod_eq_of_lt (d.isLt))
  have f5 : bits w 31 1 = 0 := (bits_at hw 6 1 rfl rfl)
  apply decodeWord_of _ _ _ hwf
  rw [decodeRaw_A02 w mj]
  simp [decA02, f0, f1, f2, f3, f4, f5]

theorem RoundTrip.clz (d : BitVec 5) (a : BitVec 5) : RoundTrip.Statement (.clz d a) := by
  intro w hw hwf
  have enc : 1107296259 + d.toNat * 2 ^ 19 + a.toNat * 2 ^ 14 = w := Option.some.inj hw
  have hw : w = digits [(3, 4), (0, 10), (a.toNat, 5), (d.toNat, 5), (66, 7), (0, 1)] := by
    simp only [digits, Nat.mod_eq_of_lt (d.isLt), Nat.mod_eq_of_lt (a.isLt)]; omega
  have mj : bits w 24 7 = 66 := (bits_at hw 4 1 rfl rfl)
  have f0 : bits w 0 4 = 3 := (bits_at hw 0 1 rfl rfl)
  have f1 : bits w 0 14 = 3 := (bits_at hw 0 2 rfl rfl)
  have f2 : bits w 14 5 = a.toNat := (bits_at hw 2 1 rfl rfl).trans (Nat.mod_eq_of_lt (a.isLt))
  have f3 : bits w 19 5 = d.toNat := (bits_at hw 3 1 rfl rfl).trans (Nat.mod_eq_of_lt (d.isLt))
  have f4 : bits w 31 1 = 0 := (bits_at hw 5 1 rfl rfl)
  apply decodeWord_of _ _ _ hwf
  rw [decodeRaw_A02 w mj]
  simp [decA02, f0, f1, f2, f3, f4]

theorem RoundTrip.ctz (d : BitVec 5) (a : BitVec 5) : RoundTrip.Statement (.ctz d a) := by
  intro w hw hwf
  have enc : 1107296260 + d.toNat * 2 ^ 19 + a.toNat * 2 ^ 14 = w := Option.some.inj hw
  have hw : w = digits [(4, 4), (0, 10), (a.toNat, 5), (d.toNat, 5), (66, 7), (0, 1)] := by
    simp only [digits, Nat.mod_eq_of_lt (d.isLt), Nat.mod_eq_of_lt (a.isLt)]; omega
  have mj : bits w 24 7 = 66 := (bits_at hw 4 1 rfl rfl)
  have f0 : bits w 0 4 = 4 := (bits_at hw 0 1 rfl rfl)
  have f1 : bits w 0 14 = 4 := (bits_at hw 0 2 rfl rfl)
  have f2 : bits w 14 5 = a.toNat := (bits_at hw 2 1 rfl rfl).trans (Nat.mod_eq_of_lt (a.isLt))
  have f3 : bits w 19 5 = d.toNat := (bits_at hw 3 1 rfl rfl).trans (Nat.mod_eq_of_lt (d.isLt))
  have f4 : bits w 31 1 = 0 := (bits_at hw 5 1 rfl rfl)
  apply decodeWord_of _ _ _ hwf
  rw [decodeRaw_A02 w mj]
  simp [decA02, f0, f1, f2, f3, f4]

theorem RoundTrip.popc (d : BitVec 5) (a : BitVec 5) : RoundTrip.Statement (.popc d a) := by
  intro w hw hwf
  have enc : 1107296261 + d.toNat * 2 ^ 19 + a.toNat * 2 ^ 14 = w := Option.some.inj hw
  have hw : w = digits [(5, 4), (0, 10), (a.toNat, 5), (d.toNat, 5), (66, 7), (0, 1)] := by
    simp only [digits, Nat.mod_eq_of_lt (d.isLt), Nat.mod_eq_of_lt (a.isLt)]; omega
  have mj : bits w 24 7 = 66 := (bits_at hw 4 1 rfl rfl)
  have f0 : bits w 0 4 = 5 := (bits_at hw 0 1 rfl rfl)
  have f1 : bits w 0 14 = 5 := (bits_at hw 0 2 rfl rfl)
  have f2 : bits w 14 5 = a.toNat := (bits_at hw 2 1 rfl rfl).trans (Nat.mod_eq_of_lt (a.isLt))
  have f3 : bits w 19 5 = d.toNat := (bits_at hw 3 1 rfl rfl).trans (Nat.mod_eq_of_lt (d.isLt))
  have f4 : bits w 31 1 = 0 := (bits_at hw 5 1 rfl rfl)
  apply decodeWord_of _ _ _ hwf
  rw [decodeRaw_A02 w mj]
  simp [decA02, f0, f1, f2, f3, f4]

theorem RoundTrip.bswap (d : BitVec 5) (a : BitVec 5) : RoundTrip.Statement (.bswap d a) := by
  intro w hw hwf
  have enc : 1107296262 + d.toNat * 2 ^ 19 + a.toNat * 2 ^ 14 = w := Option.some.inj hw
  have hw : w = digits [(6, 4), (0, 10), (a.toNat, 5), (d.toNat, 5), (66, 7), (0, 1)] := by
    simp only [digits, Nat.mod_eq_of_lt (d.isLt), Nat.mod_eq_of_lt (a.isLt)]; omega
  have mj : bits w 24 7 = 66 := (bits_at hw 4 1 rfl rfl)
  have f0 : bits w 0 4 = 6 := (bits_at hw 0 1 rfl rfl)
  have f1 : bits w 0 14 = 6 := (bits_at hw 0 2 rfl rfl)
  have f2 : bits w 14 5 = a.toNat := (bits_at hw 2 1 rfl rfl).trans (Nat.mod_eq_of_lt (a.isLt))
  have f3 : bits w 19 5 = d.toNat := (bits_at hw 3 1 rfl rfl).trans (Nat.mod_eq_of_lt (d.isLt))
  have f4 : bits w 31 1 = 0 := (bits_at hw 5 1 rfl rfl)
  apply decodeWord_of _ _ _ hwf
  rw [decodeRaw_A02 w mj]
  simp [decA02, f0, f1, f2, f3, f4]

theorem RoundTrip.sextB (d : BitVec 5) (a : BitVec 5) : RoundTrip.Statement (.sextB d a) := by
  intro w hw hwf
  have enc : 1107296263 + d.toNat * 2 ^ 19 + a.toNat * 2 ^ 14 = w := Option.some.inj hw
  have hw : w = digits [(7, 4), (0, 10), (a.toNat, 5), (d.toNat, 5), (66, 7), (0, 1)] := by
    simp only [digits, Nat.mod_eq_of_lt (d.isLt), Nat.mod_eq_of_lt (a.isLt)]; omega
  have mj : bits w 24 7 = 66 := (bits_at hw 4 1 rfl rfl)
  have f0 : bits w 0 4 = 7 := (bits_at hw 0 1 rfl rfl)
  have f1 : bits w 0 14 = 7 := (bits_at hw 0 2 rfl rfl)
  have f2 : bits w 14 5 = a.toNat := (bits_at hw 2 1 rfl rfl).trans (Nat.mod_eq_of_lt (a.isLt))
  have f3 : bits w 19 5 = d.toNat := (bits_at hw 3 1 rfl rfl).trans (Nat.mod_eq_of_lt (d.isLt))
  have f4 : bits w 31 1 = 0 := (bits_at hw 5 1 rfl rfl)
  apply decodeWord_of _ _ _ hwf
  rw [decodeRaw_A02 w mj]
  simp [decA02, f0, f1, f2, f3, f4]

theorem RoundTrip.sextH (d : BitVec 5) (a : BitVec 5) : RoundTrip.Statement (.sextH d a) := by
  intro w hw hwf
  have enc : 1107296264 + d.toNat * 2 ^ 19 + a.toNat * 2 ^ 14 = w := Option.some.inj hw
  have hw : w = digits [(8, 4), (0, 10), (a.toNat, 5), (d.toNat, 5), (66, 7), (0, 1)] := by
    simp only [digits, Nat.mod_eq_of_lt (d.isLt), Nat.mod_eq_of_lt (a.isLt)]; omega
  have mj : bits w 24 7 = 66 := (bits_at hw 4 1 rfl rfl)
  have f0 : bits w 0 4 = 8 := (bits_at hw 0 1 rfl rfl)
  have f1 : bits w 0 14 = 8 := (bits_at hw 0 2 rfl rfl)
  have f2 : bits w 14 5 = a.toNat := (bits_at hw 2 1 rfl rfl).trans (Nat.mod_eq_of_lt (a.isLt))
  have f3 : bits w 19 5 = d.toNat := (bits_at hw 3 1 rfl rfl).trans (Nat.mod_eq_of_lt (d.isLt))
  have f4 : bits w 31 1 = 0 := (bits_at hw 5 1 rfl rfl)
  apply decodeWord_of _ _ _ hwf
  rw [decodeRaw_A02 w mj]
  simp [decA02, f0, f1, f2, f3, f4]

theorem RoundTrip.sextW (d : BitVec 5) (a : BitVec 5) : RoundTrip.Statement (.sextW d a) := by
  intro w hw hwf
  have enc : 1107296265 + d.toNat * 2 ^ 19 + a.toNat * 2 ^ 14 = w := Option.some.inj hw
  have hw : w = digits [(9, 4), (0, 10), (a.toNat, 5), (d.toNat, 5), (66, 7), (0, 1)] := by
    simp only [digits, Nat.mod_eq_of_lt (d.isLt), Nat.mod_eq_of_lt (a.isLt)]; omega
  have mj : bits w 24 7 = 66 := (bits_at hw 4 1 rfl rfl)
  have f0 : bits w 0 4 = 9 := (bits_at hw 0 1 rfl rfl)
  have f1 : bits w 0 14 = 9 := (bits_at hw 0 2 rfl rfl)
  have f2 : bits w 14 5 = a.toNat := (bits_at hw 2 1 rfl rfl).trans (Nat.mod_eq_of_lt (a.isLt))
  have f3 : bits w 19 5 = d.toNat := (bits_at hw 3 1 rfl rfl).trans (Nat.mod_eq_of_lt (d.isLt))
  have f4 : bits w 31 1 = 0 := (bits_at hw 5 1 rfl rfl)
  apply decodeWord_of _ _ _ hwf
  rw [decodeRaw_A02 w mj]
  simp [decA02, f0, f1, f2, f3, f4]

theorem RoundTrip.zextW (d : BitVec 5) (a : BitVec 5) : RoundTrip.Statement (.zextW d a) := by
  intro w hw hwf
  have enc : 1107296266 + d.toNat * 2 ^ 19 + a.toNat * 2 ^ 14 = w := Option.some.inj hw
  have hw : w = digits [(10, 4), (0, 10), (a.toNat, 5), (d.toNat, 5), (66, 7), (0, 1)] := by
    simp only [digits, Nat.mod_eq_of_lt (d.isLt), Nat.mod_eq_of_lt (a.isLt)]; omega
  have mj : bits w 24 7 = 66 := (bits_at hw 4 1 rfl rfl)
  have f0 : bits w 0 4 = 10 := (bits_at hw 0 1 rfl rfl)
  have f1 : bits w 0 14 = 10 := (bits_at hw 0 2 rfl rfl)
  have f2 : bits w 14 5 = a.toNat := (bits_at hw 2 1 rfl rfl).trans (Nat.mod_eq_of_lt (a.isLt))
  have f3 : bits w 19 5 = d.toNat := (bits_at hw 3 1 rfl rfl).trans (Nat.mod_eq_of_lt (d.isLt))
  have f4 : bits w 31 1 = 0 := (bits_at hw 5 1 rfl rfl)
  apply decodeWord_of _ _ _ hwf
  rw [decodeRaw_A02 w mj]
  simp [decA02, f0, f1, f2, f3, f4]

theorem RoundTrip.addi (d : BitVec 5) (a : BitVec 5) (i : BitVec 14) : RoundTrip.Statement (.addi d a i) := by
  intro w hw hwf
  have enc : 1124073472 + d.toNat * 2 ^ 19 + a.toNat * 2 ^ 14 + i.toNat * 2 ^ 0 = w := Option.some.inj hw
  have hw : w = digits [(i.toNat, 14), (a.toNat, 5), (d.toNat, 5), (67, 7), (0, 1)] := by
    simp only [digits, Nat.mod_eq_of_lt (d.isLt), Nat.mod_eq_of_lt (a.isLt), Nat.mod_eq_of_lt (i.isLt)]; omega
  have mj : bits w 24 7 = 67 := (bits_at hw 3 1 rfl rfl)
  have f0 : bits w 0 14 = i.toNat := (bits_at hw 0 1 rfl rfl).trans (Nat.mod_eq_of_lt (i.isLt))
  have f1 : bits w 14 5 = a.toNat := (bits_at hw 1 1 rfl rfl).trans (Nat.mod_eq_of_lt (a.isLt))
  have f2 : bits w 19 5 = d.toNat := (bits_at hw 2 1 rfl rfl).trans (Nat.mod_eq_of_lt (d.isLt))
  have f3 : bits w 31 1 = 0 := (bits_at hw 4 1 rfl rfl)
  apply decodeWord_of _ _ _ hwf
  rw [decodeRaw_A03 w mj]
  simp [decA03, f0, f1, f2, f3]

theorem RoundTrip.andi (d : BitVec 5) (a : BitVec 5) (i : BitVec 14) : RoundTrip.Statement (.andi d a i) := by
  intro w hw hwf
  have enc : 1140850688 + d.toNat * 2 ^ 19 + a.toNat * 2 ^ 14 + i.toNat * 2 ^ 0 = w := Option.some.inj hw
  have hw : w = digits [(i.toNat, 14), (a.toNat, 5), (d.toNat, 5), (68, 7), (0, 1)] := by
    simp only [digits, Nat.mod_eq_of_lt (d.isLt), Nat.mod_eq_of_lt (a.isLt), Nat.mod_eq_of_lt (i.isLt)]; omega
  have mj : bits w 24 7 = 68 := (bits_at hw 3 1 rfl rfl)
  have f0 : bits w 0 14 = i.toNat := (bits_at hw 0 1 rfl rfl).trans (Nat.mod_eq_of_lt (i.isLt))
  have f1 : bits w 14 5 = a.toNat := (bits_at hw 1 1 rfl rfl).trans (Nat.mod_eq_of_lt (a.isLt))
  have f2 : bits w 19 5 = d.toNat := (bits_at hw 2 1 rfl rfl).trans (Nat.mod_eq_of_lt (d.isLt))
  have f3 : bits w 31 1 = 0 := (bits_at hw 4 1 rfl rfl)
  apply decodeWord_of _ _ _ hwf
  rw [decodeRaw_A04 w mj]
  simp [decA04, f0, f1, f2, f3]

theorem RoundTrip.ori (d : BitVec 5) (a : BitVec 5) (i : BitVec 14) : RoundTrip.Statement (.ori d a i) := by
  intro w hw hwf
  have enc : 1157627904 + d.toNat * 2 ^ 19 + a.toNat * 2 ^ 14 + i.toNat * 2 ^ 0 = w := Option.some.inj hw
  have hw : w = digits [(i.toNat, 14), (a.toNat, 5), (d.toNat, 5), (69, 7), (0, 1)] := by
    simp only [digits, Nat.mod_eq_of_lt (d.isLt), Nat.mod_eq_of_lt (a.isLt), Nat.mod_eq_of_lt (i.isLt)]; omega
  have mj : bits w 24 7 = 69 := (bits_at hw 3 1 rfl rfl)
  have f0 : bits w 0 14 = i.toNat := (bits_at hw 0 1 rfl rfl).trans (Nat.mod_eq_of_lt (i.isLt))
  have f1 : bits w 14 5 = a.toNat := (bits_at hw 1 1 rfl rfl).trans (Nat.mod_eq_of_lt (a.isLt))
  have f2 : bits w 19 5 = d.toNat := (bits_at hw 2 1 rfl rfl).trans (Nat.mod_eq_of_lt (d.isLt))
  have f3 : bits w 31 1 = 0 := (bits_at hw 4 1 rfl rfl)
  apply decodeWord_of _ _ _ hwf
  rw [decodeRaw_A05 w mj]
  simp [decA05, f0, f1, f2, f3]

theorem RoundTrip.xori (d : BitVec 5) (a : BitVec 5) (i : BitVec 14) : RoundTrip.Statement (.xori d a i) := by
  intro w hw hwf
  have enc : 1174405120 + d.toNat * 2 ^ 19 + a.toNat * 2 ^ 14 + i.toNat * 2 ^ 0 = w := Option.some.inj hw
  have hw : w = digits [(i.toNat, 14), (a.toNat, 5), (d.toNat, 5), (70, 7), (0, 1)] := by
    simp only [digits, Nat.mod_eq_of_lt (d.isLt), Nat.mod_eq_of_lt (a.isLt), Nat.mod_eq_of_lt (i.isLt)]; omega
  have mj : bits w 24 7 = 70 := (bits_at hw 3 1 rfl rfl)
  have f0 : bits w 0 14 = i.toNat := (bits_at hw 0 1 rfl rfl).trans (Nat.mod_eq_of_lt (i.isLt))
  have f1 : bits w 14 5 = a.toNat := (bits_at hw 1 1 rfl rfl).trans (Nat.mod_eq_of_lt (a.isLt))
  have f2 : bits w 19 5 = d.toNat := (bits_at hw 2 1 rfl rfl).trans (Nat.mod_eq_of_lt (d.isLt))
  have f3 : bits w 31 1 = 0 := (bits_at hw 4 1 rfl rfl)
  apply decodeWord_of _ _ _ hwf
  rw [decodeRaw_A06 w mj]
  simp [decA06, f0, f1, f2, f3]

theorem RoundTrip.slli (d : BitVec 5) (a : BitVec 5) (n : BitVec 6) : RoundTrip.Statement (.slli d a n) := by
  intro w hw hwf
  have enc : 1191182336 + d.toNat * 2 ^ 19 + a.toNat * 2 ^ 14 + n.toNat * 2 ^ 0 = w := Option.some.inj hw
  have hw : w = digits [(n.toNat, 6), (0, 8), (a.toNat, 5), (d.toNat, 5), (71, 7), (0, 1)] := by
    simp only [digits, Nat.mod_eq_of_lt (d.isLt), Nat.mod_eq_of_lt (a.isLt), Nat.mod_eq_of_lt (n.isLt)]; omega
  have mj : bits w 24 7 = 71 := (bits_at hw 4 1 rfl rfl)
  have f0 : bits w 0 6 = n.toNat := (bits_at hw 0 1 rfl rfl).trans (Nat.mod_eq_of_lt (n.isLt))
  have f1 : bits w 6 8 = 0 := (bits_at hw 1 1 rfl rfl)
  have f2 : bits w 14 5 = a.toNat := (bits_at hw 2 1 rfl rfl).trans (Nat.mod_eq_of_lt (a.isLt))
  have f3 : bits w 19 5 = d.toNat := (bits_at hw 3 1 rfl rfl).trans (Nat.mod_eq_of_lt (d.isLt))
  have f4 : bits w 31 1 = 0 := (bits_at hw 5 1 rfl rfl)
  apply decodeWord_of _ _ _ hwf
  rw [decodeRaw_A07 w mj]
  simp [decA07, f0, f1, f2, f3, f4]

theorem RoundTrip.srli (d : BitVec 5) (a : BitVec 5) (n : BitVec 6) : RoundTrip.Statement (.srli d a n) := by
  intro w hw hwf
  have enc : 1191186432 + d.toNat * 2 ^ 19 + a.toNat * 2 ^ 14 + n.toNat * 2 ^ 0 = w := Option.some.inj hw
  have hw : w = digits [(n.toNat, 6), (64, 8), (a.toNat, 5), (d.toNat, 5), (71, 7), (0, 1)] := by
    simp only [digits, Nat.mod_eq_of_lt (d.isLt), Nat.mod_eq_of_lt (a.isLt), Nat.mod_eq_of_lt (n.isLt)]; omega
  have mj : bits w 24 7 = 71 := (bits_at hw 4 1 rfl rfl)
  have f0 : bits w 0 6 = n.toNat := (bits_at hw 0 1 rfl rfl).trans (Nat.mod_eq_of_lt (n.isLt))
  have f1 : bits w 6 8 = 64 := (bits_at hw 1 1 rfl rfl)
  have f2 : bits w 14 5 = a.toNat := (bits_at hw 2 1 rfl rfl).trans (Nat.mod_eq_of_lt (a.isLt))
  have f3 : bits w 19 5 = d.toNat := (bits_at hw 3 1 rfl rfl).trans (Nat.mod_eq_of_lt (d.isLt))
  have f4 : bits w 31 1 = 0 := (bits_at hw 5 1 rfl rfl)
  apply decodeWord_of _ _ _ hwf
  rw [decodeRaw_A07 w mj]
  simp [decA07, f0, f1, f2, f3, f4]

theorem RoundTrip.srai (d : BitVec 5) (a : BitVec 5) (n : BitVec 6) : RoundTrip.Statement (.srai d a n) := by
  intro w hw hwf
  have enc : 1191190528 + d.toNat * 2 ^ 19 + a.toNat * 2 ^ 14 + n.toNat * 2 ^ 0 = w := Option.some.inj hw
  have hw : w = digits [(n.toNat, 6), (128, 8), (a.toNat, 5), (d.toNat, 5), (71, 7), (0, 1)] := by
    simp only [digits, Nat.mod_eq_of_lt (d.isLt), Nat.mod_eq_of_lt (a.isLt), Nat.mod_eq_of_lt (n.isLt)]; omega
  have mj : bits w 24 7 = 71 := (bits_at hw 4 1 rfl rfl)
  have f0 : bits w 0 6 = n.toNat := (bits_at hw 0 1 rfl rfl).trans (Nat.mod_eq_of_lt (n.isLt))
  have f1 : bits w 6 8 = 128 := (bits_at hw 1 1 rfl rfl)
  have f2 : bits w 14 5 = a.toNat := (bits_at hw 2 1 rfl rfl).trans (Nat.mod_eq_of_lt (a.isLt))
  have f3 : bits w 19 5 = d.toNat := (bits_at hw 3 1 rfl rfl).trans (Nat.mod_eq_of_lt (d.isLt))
  have f4 : bits w 31 1 = 0 := (bits_at hw 5 1 rfl rfl)
  apply decodeWord_of _ _ _ hwf
  rw [decodeRaw_A07 w mj]
  simp [decA07, f0, f1, f2, f3, f4]

theorem RoundTrip.rori (d : BitVec 5) (a : BitVec 5) (n : BitVec 6) : RoundTrip.Statement (.rori d a n) := by
  intro w hw hwf
  have enc : 1191194624 + d.toNat * 2 ^ 19 + a.toNat * 2 ^ 14 + n.toNat * 2 ^ 0 = w := Option.some.inj hw
  have hw : w = digits [(n.toNat, 6), (192, 8), (a.toNat, 5), (d.toNat, 5), (71, 7), (0, 1)] := by
    simp only [digits, Nat.mod_eq_of_lt (d.isLt), Nat.mod_eq_of_lt (a.isLt), Nat.mod_eq_of_lt (n.isLt)]; omega
  have mj : bits w 24 7 = 71 := (bits_at hw 4 1 rfl rfl)
  have f0 : bits w 0 6 = n.toNat := (bits_at hw 0 1 rfl rfl).trans (Nat.mod_eq_of_lt (n.isLt))
  have f1 : bits w 6 8 = 192 := (bits_at hw 1 1 rfl rfl)
  have f2 : bits w 14 5 = a.toNat := (bits_at hw 2 1 rfl rfl).trans (Nat.mod_eq_of_lt (a.isLt))
  have f3 : bits w 19 5 = d.toNat := (bits_at hw 3 1 rfl rfl).trans (Nat.mod_eq_of_lt (d.isLt))
  have f4 : bits w 31 1 = 0 := (bits_at hw 5 1 rfl rfl)
  apply decodeWord_of _ _ _ hwf
  rw [decodeRaw_A07 w mj]
  simp [decA07, f0, f1, f2, f3, f4]

theorem RoundTrip.slti (d : BitVec 5) (a : BitVec 5) (i : BitVec 14) : RoundTrip.Statement (.slti d a i) := by
  intro w hw hwf
  have enc : 1207959552 + d.toNat * 2 ^ 19 + a.toNat * 2 ^ 14 + i.toNat * 2 ^ 0 = w := Option.some.inj hw
  have hw : w = digits [(i.toNat, 14), (a.toNat, 5), (d.toNat, 5), (72, 7), (0, 1)] := by
    simp only [digits, Nat.mod_eq_of_lt (d.isLt), Nat.mod_eq_of_lt (a.isLt), Nat.mod_eq_of_lt (i.isLt)]; omega
  have mj : bits w 24 7 = 72 := (bits_at hw 3 1 rfl rfl)
  have f0 : bits w 0 14 = i.toNat := (bits_at hw 0 1 rfl rfl).trans (Nat.mod_eq_of_lt (i.isLt))
  have f1 : bits w 14 5 = a.toNat := (bits_at hw 1 1 rfl rfl).trans (Nat.mod_eq_of_lt (a.isLt))
  have f2 : bits w 19 5 = d.toNat := (bits_at hw 2 1 rfl rfl).trans (Nat.mod_eq_of_lt (d.isLt))
  have f3 : bits w 31 1 = 0 := (bits_at hw 4 1 rfl rfl)
  apply decodeWord_of _ _ _ hwf
  rw [decodeRaw_A08 w mj]
  simp [decA08, f0, f1, f2, f3]

theorem RoundTrip.sltiu (d : BitVec 5) (a : BitVec 5) (i : BitVec 14) : RoundTrip.Statement (.sltiu d a i) := by
  intro w hw hwf
  have enc : 1224736768 + d.toNat * 2 ^ 19 + a.toNat * 2 ^ 14 + i.toNat * 2 ^ 0 = w := Option.some.inj hw
  have hw : w = digits [(i.toNat, 14), (a.toNat, 5), (d.toNat, 5), (73, 7), (0, 1)] := by
    simp only [digits, Nat.mod_eq_of_lt (d.isLt), Nat.mod_eq_of_lt (a.isLt), Nat.mod_eq_of_lt (i.isLt)]; omega
  have mj : bits w 24 7 = 73 := (bits_at hw 3 1 rfl rfl)
  have f0 : bits w 0 14 = i.toNat := (bits_at hw 0 1 rfl rfl).trans (Nat.mod_eq_of_lt (i.isLt))
  have f1 : bits w 14 5 = a.toNat := (bits_at hw 1 1 rfl rfl).trans (Nat.mod_eq_of_lt (a.isLt))
  have f2 : bits w 19 5 = d.toNat := (bits_at hw 2 1 rfl rfl).trans (Nat.mod_eq_of_lt (d.isLt))
  have f3 : bits w 31 1 = 0 := (bits_at hw 4 1 rfl rfl)
  apply decodeWord_of _ _ _ hwf
  rw [decodeRaw_A09 w mj]
  simp [decA09, f0, f1, f2, f3]

theorem RoundTrip.movhi (d : BitVec 5) (i : BitVec 19) : RoundTrip.Statement (.movhi d i) := by
  intro w hw hwf
  have enc : 1241513984 + d.toNat * 2 ^ 19 + i.toNat * 2 ^ 0 = w := Option.some.inj hw
  have hw : w = digits [(i.toNat, 19), (d.toNat, 5), (74, 7), (0, 1)] := by
    simp only [digits, Nat.mod_eq_of_lt (d.isLt), Nat.mod_eq_of_lt (i.isLt)]; omega
  have mj : bits w 24 7 = 74 := (bits_at hw 2 1 rfl rfl)
  have f0 : bits w 0 19 = i.toNat := (bits_at hw 0 1 rfl rfl).trans (Nat.mod_eq_of_lt (i.isLt))
  have f1 : bits w 19 5 = d.toNat := (bits_at hw 1 1 rfl rfl).trans (Nat.mod_eq_of_lt (d.isLt))
  have f2 : bits w 31 1 = 0 := (bits_at hw 3 1 rfl rfl)
  apply decodeWord_of _ _ _ hwf
  rw [decodeRaw_A0A w mj]
  simp [decA0A, f0, f1, f2]

theorem RoundTrip.insh (d : BitVec 5) (i : BitVec 16) : RoundTrip.Statement (.insh d i) := by
  intro w hw hwf
  have enc : 1258291200 + d.toNat * 2 ^ 19 + i.toNat * 2 ^ 0 = w := Option.some.inj hw
  have hw : w = digits [(i.toNat, 16), (0, 3), (d.toNat, 5), (75, 7), (0, 1)] := by
    simp only [digits, Nat.mod_eq_of_lt (d.isLt), Nat.mod_eq_of_lt (i.isLt)]; omega
  have mj : bits w 24 7 = 75 := (bits_at hw 3 1 rfl rfl)
  have f0 : bits w 0 16 = i.toNat := (bits_at hw 0 1 rfl rfl).trans (Nat.mod_eq_of_lt (i.isLt))
  have f1 : bits w 16 3 = 0 := (bits_at hw 1 1 rfl rfl)
  have f2 : bits w 19 5 = d.toNat := (bits_at hw 2 1 rfl rfl).trans (Nat.mod_eq_of_lt (d.isLt))
  have f3 : bits w 31 1 = 0 := (bits_at hw 4 1 rfl rfl)
  apply decodeWord_of _ _ _ hwf
  rw [decodeRaw_A0B w mj]
  simp [decA0B, f0, f1, f2, f3]

theorem RoundTrip.fadd (d : BitVec 5) (a : BitVec 5) (b : BitVec 5) : RoundTrip.Statement (.fadd d a b) := by
  intro w hw hwf
  have enc : 1342177280 + d.toNat * 2 ^ 19 + a.toNat * 2 ^ 14 + b.toNat * 2 ^ 9 = w := Option.some.inj hw
  have hw : w = digits [(0, 9), (b.toNat, 5), (a.toNat, 5), (d.toNat, 5), (80, 7), (0, 1)] := by
    simp only [digits, Nat.mod_eq_of_lt (d.isLt), Nat.mod_eq_of_lt (a.isLt), Nat.mod_eq_of_lt (b.isLt)]; omega
  have mj : bits w 24 7 = 80 := (bits_at hw 4 1 rfl rfl)
  have f0 : bits w 0 9 = 0 := (bits_at hw 0 1 rfl rfl)
  have f1 : bits w 9 5 = b.toNat := (bits_at hw 1 1 rfl rfl).trans (Nat.mod_eq_of_lt (b.isLt))
  have f2 : bits w 14 5 = a.toNat := (bits_at hw 2 1 rfl rfl).trans (Nat.mod_eq_of_lt (a.isLt))
  have f3 : bits w 19 5 = d.toNat := (bits_at hw 3 1 rfl rfl).trans (Nat.mod_eq_of_lt (d.isLt))
  have f4 : bits w 31 1 = 0 := (bits_at hw 5 1 rfl rfl)
  apply decodeWord_of _ _ _ hwf
  rw [decodeRaw_A10 w mj]
  simp [decA10, f0, f1, f2, f3, f4]

theorem RoundTrip.fsub (d : BitVec 5) (a : BitVec 5) (b : BitVec 5) : RoundTrip.Statement (.fsub d a b) := by
  intro w hw hwf
  have enc : 1342177281 + d.toNat * 2 ^ 19 + a.toNat * 2 ^ 14 + b.toNat * 2 ^ 9 = w := Option.some.inj hw
  have hw : w = digits [(1, 9), (b.toNat, 5), (a.toNat, 5), (d.toNat, 5), (80, 7), (0, 1)] := by
    simp only [digits, Nat.mod_eq_of_lt (d.isLt), Nat.mod_eq_of_lt (a.isLt), Nat.mod_eq_of_lt (b.isLt)]; omega
  have mj : bits w 24 7 = 80 := (bits_at hw 4 1 rfl rfl)
  have f0 : bits w 0 9 = 1 := (bits_at hw 0 1 rfl rfl)
  have f1 : bits w 9 5 = b.toNat := (bits_at hw 1 1 rfl rfl).trans (Nat.mod_eq_of_lt (b.isLt))
  have f2 : bits w 14 5 = a.toNat := (bits_at hw 2 1 rfl rfl).trans (Nat.mod_eq_of_lt (a.isLt))
  have f3 : bits w 19 5 = d.toNat := (bits_at hw 3 1 rfl rfl).trans (Nat.mod_eq_of_lt (d.isLt))
  have f4 : bits w 31 1 = 0 := (bits_at hw 5 1 rfl rfl)
  apply decodeWord_of _ _ _ hwf
  rw [decodeRaw_A10 w mj]
  simp [decA10, f0, f1, f2, f3, f4]

theorem RoundTrip.fmul (d : BitVec 5) (a : BitVec 5) (b : BitVec 5) : RoundTrip.Statement (.fmul d a b) := by
  intro w hw hwf
  have enc : 1342177282 + d.toNat * 2 ^ 19 + a.toNat * 2 ^ 14 + b.toNat * 2 ^ 9 = w := Option.some.inj hw
  have hw : w = digits [(2, 9), (b.toNat, 5), (a.toNat, 5), (d.toNat, 5), (80, 7), (0, 1)] := by
    simp only [digits, Nat.mod_eq_of_lt (d.isLt), Nat.mod_eq_of_lt (a.isLt), Nat.mod_eq_of_lt (b.isLt)]; omega
  have mj : bits w 24 7 = 80 := (bits_at hw 4 1 rfl rfl)
  have f0 : bits w 0 9 = 2 := (bits_at hw 0 1 rfl rfl)
  have f1 : bits w 9 5 = b.toNat := (bits_at hw 1 1 rfl rfl).trans (Nat.mod_eq_of_lt (b.isLt))
  have f2 : bits w 14 5 = a.toNat := (bits_at hw 2 1 rfl rfl).trans (Nat.mod_eq_of_lt (a.isLt))
  have f3 : bits w 19 5 = d.toNat := (bits_at hw 3 1 rfl rfl).trans (Nat.mod_eq_of_lt (d.isLt))
  have f4 : bits w 31 1 = 0 := (bits_at hw 5 1 rfl rfl)
  apply decodeWord_of _ _ _ hwf
  rw [decodeRaw_A10 w mj]
  simp [decA10, f0, f1, f2, f3, f4]

theorem RoundTrip.fdiv (d : BitVec 5) (a : BitVec 5) (b : BitVec 5) : RoundTrip.Statement (.fdiv d a b) := by
  intro w hw hwf
  have enc : 1342177283 + d.toNat * 2 ^ 19 + a.toNat * 2 ^ 14 + b.toNat * 2 ^ 9 = w := Option.some.inj hw
  have hw : w = digits [(3, 9), (b.toNat, 5), (a.toNat, 5), (d.toNat, 5), (80, 7), (0, 1)] := by
    simp only [digits, Nat.mod_eq_of_lt (d.isLt), Nat.mod_eq_of_lt (a.isLt), Nat.mod_eq_of_lt (b.isLt)]; omega
  have mj : bits w 24 7 = 80 := (bits_at hw 4 1 rfl rfl)
  have f0 : bits w 0 9 = 3 := (bits_at hw 0 1 rfl rfl)
  have f1 : bits w 9 5 = b.toNat := (bits_at hw 1 1 rfl rfl).trans (Nat.mod_eq_of_lt (b.isLt))
  have f2 : bits w 14 5 = a.toNat := (bits_at hw 2 1 rfl rfl).trans (Nat.mod_eq_of_lt (a.isLt))
  have f3 : bits w 19 5 = d.toNat := (bits_at hw 3 1 rfl rfl).trans (Nat.mod_eq_of_lt (d.isLt))
  have f4 : bits w 31 1 = 0 := (bits_at hw 5 1 rfl rfl)
  apply decodeWord_of _ _ _ hwf
  rw [decodeRaw_A10 w mj]
  simp [decA10, f0, f1, f2, f3, f4]

theorem RoundTrip.fsqrt (d : BitVec 5) (a : BitVec 5) : RoundTrip.Statement (.fsqrt d a) := by
  intro w hw hwf
  have enc : 1342177284 + d.toNat * 2 ^ 19 + a.toNat * 2 ^ 14 = w := Option.some.inj hw
  have hw : w = digits [(4, 9), (0, 5), (a.toNat, 5), (d.toNat, 5), (80, 7), (0, 1)] := by
    simp only [digits, Nat.mod_eq_of_lt (d.isLt), Nat.mod_eq_of_lt (a.isLt)]; omega
  have mj : bits w 24 7 = 80 := (bits_at hw 4 1 rfl rfl)
  have f0 : bits w 0 9 = 4 := (bits_at hw 0 1 rfl rfl)
  have f1 : bits w 0 14 = 4 := (bits_at hw 0 2 rfl rfl)
  have f2 : bits w 14 5 = a.toNat := (bits_at hw 2 1 rfl rfl).trans (Nat.mod_eq_of_lt (a.isLt))
  have f3 : bits w 19 5 = d.toNat := (bits_at hw 3 1 rfl rfl).trans (Nat.mod_eq_of_lt (d.isLt))
  have f4 : bits w 31 1 = 0 := (bits_at hw 5 1 rfl rfl)
  apply decodeWord_of _ _ _ hwf
  rw [decodeRaw_A10 w mj]
  simp [decA10, f0, f1, f2, f3, f4]

theorem RoundTrip.fmin (d : BitVec 5) (a : BitVec 5) (b : BitVec 5) : RoundTrip.Statement (.fmin d a b) := by
  intro w hw hwf
  have enc : 1342177285 + d.toNat * 2 ^ 19 + a.toNat * 2 ^ 14 + b.toNat * 2 ^ 9 = w := Option.some.inj hw
  have hw : w = digits [(5, 9), (b.toNat, 5), (a.toNat, 5), (d.toNat, 5), (80, 7), (0, 1)] := by
    simp only [digits, Nat.mod_eq_of_lt (d.isLt), Nat.mod_eq_of_lt (a.isLt), Nat.mod_eq_of_lt (b.isLt)]; omega
  have mj : bits w 24 7 = 80 := (bits_at hw 4 1 rfl rfl)
  have f0 : bits w 0 9 = 5 := (bits_at hw 0 1 rfl rfl)
  have f1 : ¬ bits w 0 14 = 4 := by
    have := d.isLt
    have := a.isLt
    have := b.isLt
    unfold bits; omega
  have f2 : bits w 9 5 = b.toNat := (bits_at hw 1 1 rfl rfl).trans (Nat.mod_eq_of_lt (b.isLt))
  have f3 : bits w 14 5 = a.toNat := (bits_at hw 2 1 rfl rfl).trans (Nat.mod_eq_of_lt (a.isLt))
  have f4 : bits w 19 5 = d.toNat := (bits_at hw 3 1 rfl rfl).trans (Nat.mod_eq_of_lt (d.isLt))
  have f5 : bits w 31 1 = 0 := (bits_at hw 5 1 rfl rfl)
  apply decodeWord_of _ _ _ hwf
  rw [decodeRaw_A10 w mj]
  simp [decA10, f0, f1, f2, f3, f4, f5]

theorem RoundTrip.fmax (d : BitVec 5) (a : BitVec 5) (b : BitVec 5) : RoundTrip.Statement (.fmax d a b) := by
  intro w hw hwf
  have enc : 1342177286 + d.toNat * 2 ^ 19 + a.toNat * 2 ^ 14 + b.toNat * 2 ^ 9 = w := Option.some.inj hw
  have hw : w = digits [(6, 9), (b.toNat, 5), (a.toNat, 5), (d.toNat, 5), (80, 7), (0, 1)] := by
    simp only [digits, Nat.mod_eq_of_lt (d.isLt), Nat.mod_eq_of_lt (a.isLt), Nat.mod_eq_of_lt (b.isLt)]; omega
  have mj : bits w 24 7 = 80 := (bits_at hw 4 1 rfl rfl)
  have f0 : bits w 0 9 = 6 := (bits_at hw 0 1 rfl rfl)
  have f1 : ¬ bits w 0 14 = 4 := by
    have := d.isLt
    have := a.isLt
    have := b.isLt
    unfold bits; omega
  have f2 : bits w 9 5 = b.toNat := (bits_at hw 1 1 rfl rfl).trans (Nat.mod_eq_of_lt (b.isLt))
  have f3 : bits w 14 5 = a.toNat := (bits_at hw 2 1 rfl rfl).trans (Nat.mod_eq_of_lt (a.isLt))
  have f4 : bits w 19 5 = d.toNat := (bits_at hw 3 1 rfl rfl).trans (Nat.mod_eq_of_lt (d.isLt))
  have f5 : bits w 31 1 = 0 := (bits_at hw 5 1 rfl rfl)
  apply decodeWord_of _ _ _ hwf
  rw [decodeRaw_A10 w mj]
  simp [decA10, f0, f1, f2, f3, f4, f5]

theorem RoundTrip.fneg (d : BitVec 5) (a : BitVec 5) : RoundTrip.Statement (.fneg d a) := by
  intro w hw hwf
  have enc : 1342177287 + d.toNat * 2 ^ 19 + a.toNat * 2 ^ 14 = w := Option.some.inj hw
  have hw : w = digits [(7, 9), (0, 5), (a.toNat, 5), (d.toNat, 5), (80, 7), (0, 1)] := by
    simp only [digits, Nat.mod_eq_of_lt (d.isLt), Nat.mod_eq_of_lt (a.isLt)]; omega
  have mj : bits w 24 7 = 80 := (bits_at hw 4 1 rfl rfl)
  have f0 : bits w 0 9 = 7 := (bits_at hw 0 1 rfl rfl)
  have f1 : bits w 0 14 = 7 := (bits_at hw 0 2 rfl rfl)
  have f2 : bits w 14 5 = a.toNat := (bits_at hw 2 1 rfl rfl).trans (Nat.mod_eq_of_lt (a.isLt))
  have f3 : bits w 19 5 = d.toNat := (bits_at hw 3 1 rfl rfl).trans (Nat.mod_eq_of_lt (d.isLt))
  have f4 : bits w 31 1 = 0 := (bits_at hw 5 1 rfl rfl)
  apply decodeWord_of _ _ _ hwf
  rw [decodeRaw_A10 w mj]
  simp [decA10, f0, f1, f2, f3, f4]

theorem RoundTrip.fabs (d : BitVec 5) (a : BitVec 5) : RoundTrip.Statement (.fabs d a) := by
  intro w hw hwf
  have enc : 1342177288 + d.toNat * 2 ^ 19 + a.toNat * 2 ^ 14 = w := Option.some.inj hw
  have hw : w = digits [(8, 9), (0, 5), (a.toNat, 5), (d.toNat, 5), (80, 7), (0, 1)] := by
    simp only [digits, Nat.mod_eq_of_lt (d.isLt), Nat.mod_eq_of_lt (a.isLt)]; omega
  have mj : bits w 24 7 = 80 := (bits_at hw 4 1 rfl rfl)
  have f0 : bits w 0 9 = 8 := (bits_at hw 0 1 rfl rfl)
  have f1 : bits w 0 14 = 8 := (bits_at hw 0 2 rfl rfl)
  have f2 : bits w 14 5 = a.toNat := (bits_at hw 2 1 rfl rfl).trans (Nat.mod_eq_of_lt (a.isLt))
  have f3 : bits w 19 5 = d.toNat := (bits_at hw 3 1 rfl rfl).trans (Nat.mod_eq_of_lt (d.isLt))
  have f4 : bits w 31 1 = 0 := (bits_at hw 5 1 rfl rfl)
  apply decodeWord_of _ _ _ hwf
  rw [decodeRaw_A10 w mj]
  simp [decA10, f0, f1, f2, f3, f4]

theorem RoundTrip.fcpsgn (d : BitVec 5) (a : BitVec 5) (b : BitVec 5) : RoundTrip.Statement (.fcpsgn d a b) := by
  intro w hw hwf
  have enc : 1342177289 + d.toNat * 2 ^ 19 + a.toNat * 2 ^ 14 + b.toNat * 2 ^ 9 = w := Option.some.inj hw
  have hw : w = digits [(9, 9), (b.toNat, 5), (a.toNat, 5), (d.toNat, 5), (80, 7), (0, 1)] := by
    simp only [digits, Nat.mod_eq_of_lt (d.isLt), Nat.mod_eq_of_lt (a.isLt), Nat.mod_eq_of_lt (b.isLt)]; omega
  have mj : bits w 24 7 = 80 := (bits_at hw 4 1 rfl rfl)
  have f0 : bits w 0 9 = 9 := (bits_at hw 0 1 rfl rfl)
  have f1 : ¬ bits w 0 14 = 4 := by
    have := d.isLt
    have := a.isLt
    have := b.isLt
    unfold bits; omega
  have f2 : ¬ bits w 0 14 = 7 := by
    have := d.isLt
    have := a.isLt
    have := b.isLt
    unfold bits; omega
  have f3 : ¬ bits w 0 14 = 8 := by
    have := d.isLt
    have := a.isLt
    have := b.isLt
    unfold bits; omega
  have f4 : bits w 9 5 = b.toNat := (bits_at hw 1 1 rfl rfl).trans (Nat.mod_eq_of_lt (b.isLt))
  have f5 : bits w 14 5 = a.toNat := (bits_at hw 2 1 rfl rfl).trans (Nat.mod_eq_of_lt (a.isLt))
  have f6 : bits w 19 5 = d.toNat := (bits_at hw 3 1 rfl rfl).trans (Nat.mod_eq_of_lt (d.isLt))
  have f7 : bits w 31 1 = 0 := (bits_at hw 5 1 rfl rfl)
  apply decodeWord_of _ _ _ hwf
  rw [decodeRaw_A10 w mj]
  simp [decA10, f0, f1, f2, f3, f4, f5, f6, f7]

theorem RoundTrip.fcmeq (d : BitVec 5) (a : BitVec 5) (b : BitVec 5) : RoundTrip.Statement (.fcmeq d a b) := by
  intro w hw hwf
  have enc : 1342177290 + d.toNat * 2 ^ 19 + a.toNat * 2 ^ 14 + b.toNat * 2 ^ 9 = w := Option.some.inj hw
  have hw : w = digits [(10, 9), (b.toNat, 5), (a.toNat, 5), (d.toNat, 5), (80, 7), (0, 1)] := by
    simp only [digits, Nat.mod_eq_of_lt (d.isLt), Nat.mod_eq_of_lt (a.isLt), Nat.mod_eq_of_lt (b.isLt)]; omega
  have mj : bits w 24 7 = 80 := (bits_at hw 4 1 rfl rfl)
  have f0 : bits w 0 9 = 10 := (bits_at hw 0 1 rfl rfl)
  have f1 : ¬ bits w 0 14 = 4 := by
    have := d.isLt
    have := a.isLt
    have := b.isLt
    unfold bits; omega
  have f2 : ¬ bits w 0 14 = 7 := by
    have := d.isLt
    have := a.isLt
    have := b.isLt
    unfold bits; omega
  have f3 : ¬ bits w 0 14 = 8 := by
    have := d.isLt
    have := a.isLt
    have := b.isLt
    unfold bits; omega
  have f4 : bits w 9 5 = b.toNat := (bits_at hw 1 1 rfl rfl).trans (Nat.mod_eq_of_lt (b.isLt))
  have f5 : bits w 14 5 = a.toNat := (bits_at hw 2 1 rfl rfl).trans (Nat.mod_eq_of_lt (a.isLt))
  have f6 : bits w 19 5 = d.toNat := (bits_at hw 3 1 rfl rfl).trans (Nat.mod_eq_of_lt (d.isLt))
  have f7 : bits w 31 1 = 0 := (bits_at hw 5 1 rfl rfl)
  apply decodeWord_of _ _ _ hwf
  rw [decodeRaw_A10 w mj]
  simp [decA10, f0, f1, f2, f3, f4, f5, f6, f7]

theorem RoundTrip.fcmlt (d : BitVec 5) (a : BitVec 5) (b : BitVec 5) : RoundTrip.Statement (.fcmlt d a b) := by
  intro w hw hwf
  have enc : 1342177291 + d.toNat * 2 ^ 19 + a.toNat * 2 ^ 14 + b.toNat * 2 ^ 9 = w := Option.some.inj hw
  have hw : w = digits [(11, 9), (b.toNat, 5), (a.toNat, 5), (d.toNat, 5), (80, 7), (0, 1)] := by
    simp only [digits, Nat.mod_eq_of_lt (d.isLt), Nat.mod_eq_of_lt (a.isLt), Nat.mod_eq_of_lt (b.isLt)]; omega
  have mj : bits w 24 7 = 80 := (bits_at hw 4 1 rfl rfl)
  have f0 : bits w 0 9 = 11 := (bits_at hw 0 1 rfl rfl)
  have f1 : ¬ bits w 0 14 = 4 := by
    have := d.isLt
    have := a.isLt
    have := b.isLt
    unfold bits; omega
  have f2 : ¬ bits w 0 14 = 7 := by
    have := d.isLt
    have := a.isLt
    have := b.isLt
    unfold bits; omega
  have f3 : ¬ bits w 0 14 = 8 := by
    have := d.isLt
    have := a.isLt
    have := b.isLt
    unfold bits; omega
  have f4 : bits w 9 5 = b.toNat := (bits_at hw 1 1 rfl rfl).trans (Nat.mod_eq_of_lt (b.isLt))
  have f5 : bits w 14 5 = a.toNat := (bits_at hw 2 1 rfl rfl).trans (Nat.mod_eq_of_lt (a.isLt))
  have f6 : bits w 19 5 = d.toNat := (bits_at hw 3 1 rfl rfl).trans (Nat.mod_eq_of_lt (d.isLt))
  have f7 : bits w 31 1 = 0 := (bits_at hw 5 1 rfl rfl)
  apply decodeWord_of _ _ _ hwf
  rw [decodeRaw_A10 w mj]
  simp [decA10, f0, f1, f2, f3, f4, f5, f6, f7]

theorem RoundTrip.fcmle (d : BitVec 5) (a : BitVec 5) (b : BitVec 5) : RoundTrip.Statement (.fcmle d a b) := by
  intro w hw hwf
  have enc : 1342177292 + d.toNat * 2 ^ 19 + a.toNat * 2 ^ 14 + b.toNat * 2 ^ 9 = w := Option.some.inj hw
  have hw : w = digits [(12, 9), (b.toNat, 5), (a.toNat, 5), (d.toNat, 5), (80, 7), (0, 1)] := by
    simp only [digits, Nat.mod_eq_of_lt (d.isLt), Nat.mod_eq_of_lt (a.isLt), Nat.mod_eq_of_lt (b.isLt)]; omega
  have mj : bits w 24 7 = 80 := (bits_at hw 4 1 rfl rfl)
  have f0 : bits w 0 9 = 12 := (bits_at hw 0 1 rfl rfl)
  have f1 : ¬ bits w 0 14 = 4 := by
    have := d.isLt
    have := a.isLt
    have := b.isLt
    unfold bits; omega
  have f2 : ¬ bits w 0 14 = 7 := by
    have := d.isLt
    have := a.isLt
    have := b.isLt
    unfold bits; omega
  have f3 : ¬ bits w 0 14 = 8 := by
    have := d.isLt
    have := a.isLt
    have := b.isLt
    unfold bits; omega
  have f4 : bits w 9 5 = b.toNat := (bits_at hw 1 1 rfl rfl).trans (Nat.mod_eq_of_lt (b.isLt))
  have f5 : bits w 14 5 = a.toNat := (bits_at hw 2 1 rfl rfl).trans (Nat.mod_eq_of_lt (a.isLt))
  have f6 : bits w 19 5 = d.toNat := (bits_at hw 3 1 rfl rfl).trans (Nat.mod_eq_of_lt (d.isLt))
  have f7 : bits w 31 1 = 0 := (bits_at hw 5 1 rfl rfl)
  apply decodeWord_of _ _ _ hwf
  rw [decodeRaw_A10 w mj]
  simp [decA10, f0, f1, f2, f3, f4, f5, f6, f7]

theorem RoundTrip.ffma (d : BitVec 5) (a : BitVec 5) (b : BitVec 5) (c : BitVec 5) : RoundTrip.Statement (.ffma d a b c) := by
  intro w hw hwf
  have enc : 1358954496 + d.toNat * 2 ^ 19 + a.toNat * 2 ^ 14 + b.toNat * 2 ^ 9 + c.toNat * 2 ^ 4 = w := Option.some.inj hw
  have hw : w = digits [(0, 4), (c.toNat, 5), (b.toNat, 5), (a.toNat, 5), (d.toNat, 5), (81, 7), (0, 1)] := by
    simp only [digits, Nat.mod_eq_of_lt (d.isLt), Nat.mod_eq_of_lt (a.isLt), Nat.mod_eq_of_lt (b.isLt), Nat.mod_eq_of_lt (c.isLt)]; omega
  have mj : bits w 24 7 = 81 := (bits_at hw 5 1 rfl rfl)
  have f0 : bits w 0 4 = 0 := (bits_at hw 0 1 rfl rfl)
  have f1 : bits w 4 5 = c.toNat := (bits_at hw 1 1 rfl rfl).trans (Nat.mod_eq_of_lt (c.isLt))
  have f2 : bits w 9 5 = b.toNat := (bits_at hw 2 1 rfl rfl).trans (Nat.mod_eq_of_lt (b.isLt))
  have f3 : bits w 14 5 = a.toNat := (bits_at hw 3 1 rfl rfl).trans (Nat.mod_eq_of_lt (a.isLt))
  have f4 : bits w 19 5 = d.toNat := (bits_at hw 4 1 rfl rfl).trans (Nat.mod_eq_of_lt (d.isLt))
  have f5 : bits w 31 1 = 0 := (bits_at hw 6 1 rfl rfl)
  apply decodeWord_of _ _ _ hwf
  rw [decodeRaw_A11 w mj]
  simp [decA11, f0, f1, f2, f3, f4, f5]

theorem RoundTrip.ffms (d : BitVec 5) (a : BitVec 5) (b : BitVec 5) (c : BitVec 5) : RoundTrip.Statement (.ffms d a b c) := by
  intro w hw hwf
  have enc : 1358954497 + d.toNat * 2 ^ 19 + a.toNat * 2 ^ 14 + b.toNat * 2 ^ 9 + c.toNat * 2 ^ 4 = w := Option.some.inj hw
  have hw : w = digits [(1, 4), (c.toNat, 5), (b.toNat, 5), (a.toNat, 5), (d.toNat, 5), (81, 7), (0, 1)] := by
    simp only [digits, Nat.mod_eq_of_lt (d.isLt), Nat.mod_eq_of_lt (a.isLt), Nat.mod_eq_of_lt (b.isLt), Nat.mod_eq_of_lt (c.isLt)]; omega
  have mj : bits w 24 7 = 81 := (bits_at hw 5 1 rfl rfl)
  have f0 : bits w 0 4 = 1 := (bits_at hw 0 1 rfl rfl)
  have f1 : bits w 4 5 = c.toNat := (bits_at hw 1 1 rfl rfl).trans (Nat.mod_eq_of_lt (c.isLt))
  have f2 : bits w 9 5 = b.toNat := (bits_at hw 2 1 rfl rfl).trans (Nat.mod_eq_of_lt (b.isLt))
  have f3 : bits w 14 5 = a.toNat := (bits_at hw 3 1 rfl rfl).trans (Nat.mod_eq_of_lt (a.isLt))
  have f4 : bits w 19 5 = d.toNat := (bits_at hw 4 1 rfl rfl).trans (Nat.mod_eq_of_lt (d.isLt))
  have f5 : bits w 31 1 = 0 := (bits_at hw 6 1 rfl rfl)
  apply decodeWord_of _ _ _ hwf
  rw [decodeRaw_A11 w mj]
  simp [decA11, f0, f1, f2, f3, f4, f5]

theorem RoundTrip.ffnma (d : BitVec 5) (a : BitVec 5) (b : BitVec 5) (c : BitVec 5) : RoundTrip.Statement (.ffnma d a b c) := by
  intro w hw hwf
  have enc : 1358954498 + d.toNat * 2 ^ 19 + a.toNat * 2 ^ 14 + b.toNat * 2 ^ 9 + c.toNat * 2 ^ 4 = w := Option.some.inj hw
  have hw : w = digits [(2, 4), (c.toNat, 5), (b.toNat, 5), (a.toNat, 5), (d.toNat, 5), (81, 7), (0, 1)] := by
    simp only [digits, Nat.mod_eq_of_lt (d.isLt), Nat.mod_eq_of_lt (a.isLt), Nat.mod_eq_of_lt (b.isLt), Nat.mod_eq_of_lt (c.isLt)]; omega
  have mj : bits w 24 7 = 81 := (bits_at hw 5 1 rfl rfl)
  have f0 : bits w 0 4 = 2 := (bits_at hw 0 1 rfl rfl)
  have f1 : bits w 4 5 = c.toNat := (bits_at hw 1 1 rfl rfl).trans (Nat.mod_eq_of_lt (c.isLt))
  have f2 : bits w 9 5 = b.toNat := (bits_at hw 2 1 rfl rfl).trans (Nat.mod_eq_of_lt (b.isLt))
  have f3 : bits w 14 5 = a.toNat := (bits_at hw 3 1 rfl rfl).trans (Nat.mod_eq_of_lt (a.isLt))
  have f4 : bits w 19 5 = d.toNat := (bits_at hw 4 1 rfl rfl).trans (Nat.mod_eq_of_lt (d.isLt))
  have f5 : bits w 31 1 = 0 := (bits_at hw 6 1 rfl rfl)
  apply decodeWord_of _ _ _ hwf
  rw [decodeRaw_A11 w mj]
  simp [decA11, f0, f1, f2, f3, f4, f5]

theorem RoundTrip.ffnms (d : BitVec 5) (a : BitVec 5) (b : BitVec 5) (c : BitVec 5) : RoundTrip.Statement (.ffnms d a b c) := by
  intro w hw hwf
  have enc : 1358954499 + d.toNat * 2 ^ 19 + a.toNat * 2 ^ 14 + b.toNat * 2 ^ 9 + c.toNat * 2 ^ 4 = w := Option.some.inj hw
  have hw : w = digits [(3, 4), (c.toNat, 5), (b.toNat, 5), (a.toNat, 5), (d.toNat, 5), (81, 7), (0, 1)] := by
    simp only [digits, Nat.mod_eq_of_lt (d.isLt), Nat.mod_eq_of_lt (a.isLt), Nat.mod_eq_of_lt (b.isLt), Nat.mod_eq_of_lt (c.isLt)]; omega
  have mj : bits w 24 7 = 81 := (bits_at hw 5 1 rfl rfl)
  have f0 : bits w 0 4 = 3 := (bits_at hw 0 1 rfl rfl)
  have f1 : bits w 4 5 = c.toNat := (bits_at hw 1 1 rfl rfl).trans (Nat.mod_eq_of_lt (c.isLt))
  have f2 : bits w 9 5 = b.toNat := (bits_at hw 2 1 rfl rfl).trans (Nat.mod_eq_of_lt (b.isLt))
  have f3 : bits w 14 5 = a.toNat := (bits_at hw 3 1 rfl rfl).trans (Nat.mod_eq_of_lt (a.isLt))
  have f4 : bits w 19 5 = d.toNat := (bits_at hw 4 1 rfl rfl).trans (Nat.mod_eq_of_lt (d.isLt))
  have f5 : bits w 31 1 = 0 := (bits_at hw 6 1 rfl rfl)
  apply decodeWord_of _ _ _ hwf
  rw [decodeRaw_A11 w mj]
  simp [decA11, f0, f1, f2, f3, f4, f5]

theorem RoundTrip.fconv (d : BitVec 5) (a : BitVec 5) (t : Ty) (r : BitVec 2) (s : Bool) (u : Ty) : RoundTrip.Statement (.fconv d a t r s u) := by
  intro w hw hwf
  have enc : 1375731712 + d.toNat * 2 ^ 19 + a.toNat * 2 ^ 14 + t.code * 2 ^ 10 + r.toNat * 2 ^ 8 + bitOf s * 2 ^ 7 + u.code * 2 ^ 0 = w := Option.some.inj hw
  have hw : w = digits [(u.code, 4), (0, 3), (bitOf s, 1), (r.toNat, 2), (t.code, 4), (a.toNat, 5), (d.toNat, 5), (82, 7), (0, 1)] := by
    simp only [digits, Nat.mod_eq_of_lt (d.isLt), Nat.mod_eq_of_lt (a.isLt), Nat.mod_eq_of_lt (Ty.code_lt t), Nat.mod_eq_of_lt (r.isLt), Nat.mod_eq_of_lt (bitOf_lt s), Nat.mod_eq_of_lt (Ty.code_lt u)]; omega
  have mj : bits w 24 7 = 82 := (bits_at hw 7 1 rfl rfl)
  have f0 : bits w 0 4 = u.code := (bits_at hw 0 1 rfl rfl).trans (Nat.mod_eq_of_lt (Ty.code_lt u))
  have f1 : bits w 4 3 = 0 := (bits_at hw 1 1 rfl rfl)
  have f2 : bits w 8 2 = r.toNat := (bits_at hw 3 1 rfl rfl).trans (Nat.mod_eq_of_lt (r.isLt))
  have f3 : bits w 10 4 = t.code := (bits_at hw 4 1 rfl rfl).trans (Nat.mod_eq_of_lt (Ty.code_lt t))
  have f4 : bits w 14 5 = a.toNat := (bits_at hw 5 1 rfl rfl).trans (Nat.mod_eq_of_lt (a.isLt))
  have f5 : bits w 19 5 = d.toNat := (bits_at hw 6 1 rfl rfl).trans (Nat.mod_eq_of_lt (d.isLt))
  have f6 : bits w 31 1 = 0 := (bits_at hw 8 1 rfl rfl)
  have g7 : bits w 7 1 = bitOf s := (bits_at hw 2 1 rfl rfl).trans (Nat.mod_eq_of_lt (bitOf_lt s))
  have f7 : flag w 7 = s := flag_mod w 7 s g7
  apply decodeWord_of _ _ _ hwf
  rw [decodeRaw_A12 w mj]
  simp [decA12, f0, f1, f2, f3, f4, f5, f6, f7, Ty.ofCode_code]

theorem RoundTrip.frint (d : BitVec 5) (a : BitVec 5) (r : BitVec 2) : RoundTrip.Statement (.frint d a r) := by
  intro w hw hwf
  have enc : 1392519178 + d.toNat * 2 ^ 19 + a.toNat * 2 ^ 14 + r.toNat * 2 ^ 8 = w := Option.some.inj hw
  have hw : w = digits [(10, 8), (r.toNat, 2), (10, 4), (a.toNat, 5), (d.toNat, 5), (83, 7), (0, 1)] := by
    simp only [digits, Nat.mod_eq_of_lt (d.isLt), Nat.mod_eq_of_lt (a.isLt), Nat.mod_eq_of_lt (r.isLt)]; omega
  have mj : bits w 24 7 = 83 := (bits_at hw 5 1 rfl rfl)
  have f0 : bits w 0 8 = 10 := (bits_at hw 0 1 rfl rfl)
  have f1 : bits w 8 2 = r.toNat := (bits_at hw 1 1 rfl rfl).trans (Nat.mod_eq_of_lt (r.isLt))
  have f2 : bits w 10 4 = 10 := (bits_at hw 2 1 rfl rfl)
  have f3 : bits w 14 5 = a.toNat := (bits_at hw 3 1 rfl rfl).trans (Nat.mod_eq_of_lt (a.isLt))
  have f4 : bits w 19 5 = d.toNat := (bits_at hw 4 1 rfl rfl).trans (Nat.mod_eq_of_lt (d.isLt))
  have f5 : bits w 31 1 = 0 := (bits_at hw 6 1 rfl rfl)
  apply decodeWord_of _ _ _ hwf
  rw [decodeRaw_A13 w mj]
  simp [decA13, f0, f1, f2, f3, f4, f5]

theorem RoundTrip.vadd (d : BitVec 5) (a : BitVec 5) (b : BitVec 5) (m : BitVec 3) (t : Ty) : RoundTrip.Statement (.vadd d a b m t) := by
  intro w hw hwf
  have enc : 1409286144 + d.toNat * 2 ^ 19 + a.toNat * 2 ^ 14 + b.toNat * 2 ^ 9 + m.toNat * 2 ^ 6 + t.code * 2 ^ 0 = w := Option.some.inj hw
  have hw : w = digits [(t.code, 4), (0, 2), (m.toNat, 3), (b.toNat, 5), (a.toNat, 5), (d.toNat, 5), (84, 7), (0, 1)] := by
    simp only [digits, Nat.mod_eq_of_lt (d.isLt), Nat.mod_eq_of_lt (a.isLt), Nat.mod_eq_of_lt (b.isLt), Nat.mod_eq_of_lt (m.isLt), Nat.mod_eq_of_lt (Ty.code_lt t)]; omega
  have mj : bits w 24 7 = 84 := (bits_at hw 6 1 rfl rfl)
  have f0 : bits w 0 4 = t.code := (bits_at hw 0 1 rfl rfl).trans (Nat.mod_eq_of_lt (Ty.code_lt t))
  have f1 : bits w 4 2 = 0 := (bits_at hw 1 1 rfl rfl)
  have f2 : bits w 6 3 = m.toNat := (bits_at hw 2 1 rfl rfl).trans (Nat.mod_eq_of_lt (m.isLt))
  have f3 : bits w 9 5 = b.toNat := (bits_at hw 3 1 rfl rfl).trans (Nat.mod_eq_of_lt (b.isLt))
  have f4 : bits w 14 5 = a.toNat := (bits_at hw 4 1 rfl rfl).trans (Nat.mod_eq_of_lt (a.isLt))
  have f5 : bits w 19 5 = d.toNat := (bits_at hw 5 1 rfl rfl).trans (Nat.mod_eq_of_lt (d.isLt))
  have f6 : bits w 31 1 = 0 := (bits_at hw 7 1 rfl rfl)
  apply decodeWord_of _ _ _ hwf
  rw [decodeRaw_A14 w mj]
  simp [decA14, f0, f1, f2, f3, f4, f5, f6, Ty.ofCode_code]

theorem RoundTrip.vadds (d : BitVec 5) (a : BitVec 5) (b : BitVec 5) (m : BitVec 3) (t : Ty) : RoundTrip.Statement (.vadds d a b m t) := by
  intro w hw hwf
  have enc : 1409286160 + d.toNat * 2 ^ 19 + a.toNat * 2 ^ 14 + b.toNat * 2 ^ 9 + m.toNat * 2 ^ 6 + t.code * 2 ^ 0 = w := Option.some.inj hw
  have hw : w = digits [(t.code, 4), (1, 2), (m.toNat, 3), (b.toNat, 5), (a.toNat, 5), (d.toNat, 5), (84, 7), (0, 1)] := by
    simp only [digits, Nat.mod_eq_of_lt (d.isLt), Nat.mod_eq_of_lt (a.isLt), Nat.mod_eq_of_lt (b.isLt), Nat.mod_eq_of_lt (m.isLt), Nat.mod_eq_of_lt (Ty.code_lt t)]; omega
  have mj : bits w 24 7 = 84 := (bits_at hw 6 1 rfl rfl)
  have f0 : bits w 0 4 = t.code := (bits_at hw 0 1 rfl rfl).trans (Nat.mod_eq_of_lt (Ty.code_lt t))
  have f1 : bits w 4 2 = 1 := (bits_at hw 1 1 rfl rfl)
  have f2 : bits w 6 3 = m.toNat := (bits_at hw 2 1 rfl rfl).trans (Nat.mod_eq_of_lt (m.isLt))
  have f3 : bits w 9 5 = b.toNat := (bits_at hw 3 1 rfl rfl).trans (Nat.mod_eq_of_lt (b.isLt))
  have f4 : bits w 14 5 = a.toNat := (bits_at hw 4 1 rfl rfl).trans (Nat.mod_eq_of_lt (a.isLt))
  have f5 : bits w 19 5 = d.toNat := (bits_at hw 5 1 rfl rfl).trans (Nat.mod_eq_of_lt (d.isLt))
  have f6 : bits w 31 1 = 0 := (bits_at hw 7 1 rfl rfl)
  apply decodeWord_of _ _ _ hwf
  rw [decodeRaw_A14 w mj]
  simp [decA14, f0, f1, f2, f3, f4, f5, f6, Ty.ofCode_code]

theorem RoundTrip.vsub (d : BitVec 5) (a : BitVec 5) (b : BitVec 5) (m : BitVec 3) (t : Ty) : RoundTrip.Statement (.vsub d a b m t) := by
  intro w hw hwf
  have enc : 1426063360 + d.toNat * 2 ^ 19 + a.toNat * 2 ^ 14 + b.toNat * 2 ^ 9 + m.toNat * 2 ^ 6 + t.code * 2 ^ 0 = w := Option.some.inj hw
  have hw : w = digits [(t.code, 4), (0, 2), (m.toNat, 3), (b.toNat, 5), (a.toNat, 5), (d.toNat, 5), (85, 7), (0, 1)] := by
    simp only [digits, Nat.mod_eq_of_lt (d.isLt), Nat.mod_eq_of_lt (a.isLt), Nat.mod_eq_of_lt (b.isLt), Nat.mod_eq_of_lt (m.isLt), Nat.mod_eq_of_lt (Ty.code_lt t)]; omega
  have mj : bits w 24 7 = 85 := (bits_at hw 6 1 rfl rfl)
  have f0 : bits w 0 4 = t.code := (bits_at hw 0 1 rfl rfl).trans (Nat.mod_eq_of_lt (Ty.code_lt t))
  have f1 : bits w 4 2 = 0 := (bits_at hw 1 1 rfl rfl)
  have f2 : bits w 6 3 = m.toNat := (bits_at hw 2 1 rfl rfl).trans (Nat.mod_eq_of_lt (m.isLt))
  have f3 : bits w 9 5 = b.toNat := (bits_at hw 3 1 rfl rfl).trans (Nat.mod_eq_of_lt (b.isLt))
  have f4 : bits w 14 5 = a.toNat := (bits_at hw 4 1 rfl rfl).trans (Nat.mod_eq_of_lt (a.isLt))
  have f5 : bits w 19 5 = d.toNat := (bits_at hw 5 1 rfl rfl).trans (Nat.mod_eq_of_lt (d.isLt))
  have f6 : bits w 31 1 = 0 := (bits_at hw 7 1 rfl rfl)
  apply decodeWord_of _ _ _ hwf
  rw [decodeRaw_A15 w mj]
  simp [decA15, f0, f1, f2, f3, f4, f5, f6, Ty.ofCode_code]

theorem RoundTrip.vsubs (d : BitVec 5) (a : BitVec 5) (b : BitVec 5) (m : BitVec 3) (t : Ty) : RoundTrip.Statement (.vsubs d a b m t) := by
  intro w hw hwf
  have enc : 1426063376 + d.toNat * 2 ^ 19 + a.toNat * 2 ^ 14 + b.toNat * 2 ^ 9 + m.toNat * 2 ^ 6 + t.code * 2 ^ 0 = w := Option.some.inj hw
  have hw : w = digits [(t.code, 4), (1, 2), (m.toNat, 3), (b.toNat, 5), (a.toNat, 5), (d.toNat, 5), (85, 7), (0, 1)] := by
    simp only [digits, Nat.mod_eq_of_lt (d.isLt), Nat.mod_eq_of_lt (a.isLt), Nat.mod_eq_of_lt (b.isLt), Nat.mod_eq_of_lt (m.isLt), Nat.mod_eq_of_lt (Ty.code_lt t)]; omega
  have mj : bits w 24 7 = 85 := (bits_at hw 6 1 rfl rfl)
  have f0 : bits w 0 4 = t.code := (bits_at hw 0 1 rfl rfl).trans (Nat.mod_eq_of_lt (Ty.code_lt t))
  have f1 : bits w 4 2 = 1 := (bits_at hw 1 1 rfl rfl)
  have f2 : bits w 6 3 = m.toNat := (bits_at hw 2 1 rfl rfl).trans (Nat.mod_eq_of_lt (m.isLt))
  have f3 : bits w 9 5 = b.toNat := (bits_at hw 3 1 rfl rfl).trans (Nat.mod_eq_of_lt (b.isLt))
  have f4 : bits w 14 5 = a.toNat := (bits_at hw 4 1 rfl rfl).trans (Nat.mod_eq_of_lt (a.isLt))
  have f5 : bits w 19 5 = d.toNat := (bits_at hw 5 1 rfl rfl).trans (Nat.mod_eq_of_lt (d.isLt))
  have f6 : bits w 31 1 = 0 := (bits_at hw 7 1 rfl rfl)
  apply decodeWord_of _ _ _ hwf
  rw [decodeRaw_A15 w mj]
  simp [decA15, f0, f1, f2, f3, f4, f5, f6, Ty.ofCode_code]

theorem RoundTrip.vmul (d : BitVec 5) (a : BitVec 5) (b : BitVec 5) (m : BitVec 3) (t : Ty) : RoundTrip.Statement (.vmul d a b m t) := by
  intro w hw hwf
  have enc : 1442840576 + d.toNat * 2 ^ 19 + a.toNat * 2 ^ 14 + b.toNat * 2 ^ 9 + m.toNat * 2 ^ 6 + t.code * 2 ^ 0 = w := Option.some.inj hw
  have hw : w = digits [(t.code, 4), (0, 2), (m.toNat, 3), (b.toNat, 5), (a.toNat, 5), (d.toNat, 5), (86, 7), (0, 1)] := by
    simp only [digits, Nat.mod_eq_of_lt (d.isLt), Nat.mod_eq_of_lt (a.isLt), Nat.mod_eq_of_lt (b.isLt), Nat.mod_eq_of_lt (m.isLt), Nat.mod_eq_of_lt (Ty.code_lt t)]; omega
  have mj : bits w 24 7 = 86 := (bits_at hw 6 1 rfl rfl)
  have f0 : bits w 0 4 = t.code := (bits_at hw 0 1 rfl rfl).trans (Nat.mod_eq_of_lt (Ty.code_lt t))
  have f1 : bits w 4 2 = 0 := (bits_at hw 1 1 rfl rfl)
  have f2 : bits w 6 3 = m.toNat := (bits_at hw 2 1 rfl rfl).trans (Nat.mod_eq_of_lt (m.isLt))
  have f3 : bits w 9 5 = b.toNat := (bits_at hw 3 1 rfl rfl).trans (Nat.mod_eq_of_lt (b.isLt))
  have f4 : bits w 14 5 = a.toNat := (bits_at hw 4 1 rfl rfl).trans (Nat.mod_eq_of_lt (a.isLt))
  have f5 : bits w 19 5 = d.toNat := (bits_at hw 5 1 rfl rfl).trans (Nat.mod_eq_of_lt (d.isLt))
  have f6 : bits w 31 1 = 0 := (bits_at hw 7 1 rfl rfl)
  apply decodeWord_of _ _ _ hwf
  rw [decodeRaw_A16 w mj]
  simp [decA16, f0, f1, f2, f3, f4, f5, f6, Ty.ofCode_code]

theorem RoundTrip.vmulh (d : BitVec 5) (a : BitVec 5) (b : BitVec 5) (m : BitVec 3) (t : Ty) : RoundTrip.Statement (.vmulh d a b m t) := by
  intro w hw hwf
  have enc : 1442840592 + d.toNat * 2 ^ 19 + a.toNat * 2 ^ 14 + b.toNat * 2 ^ 9 + m.toNat * 2 ^ 6 + t.code * 2 ^ 0 = w := Option.some.inj hw
  have hw : w = digits [(t.code, 4), (1, 2), (m.toNat, 3), (b.toNat, 5), (a.toNat, 5), (d.toNat, 5), (86, 7), (0, 1)] := by
    simp only [digits, Nat.mod_eq_of_lt (d.isLt), Nat.mod_eq_of_lt (a.isLt), Nat.mod_eq_of_lt (b.isLt), Nat.mod_eq_of_lt (m.isLt), Nat.mod_eq_of_lt (Ty.code_lt t)]; omega
  have mj : bits w 24 7 = 86 := (bits_at hw 6 1 rfl rfl)
  have f0 : bits w 0 4 = t.code := (bits_at hw 0 1 rfl rfl).trans (Nat.mod_eq_of_lt (Ty.code_lt t))
  have f1 : bits w 4 2 = 1 := (bits_at hw 1 1 rfl rfl)
  have f2 : bits w 6 3 = m.toNat := (bits_at hw 2 1 rfl rfl).trans (Nat.mod_eq_of_lt (m.isLt))
  have f3 : bits w 9 5 = b.toNat := (bits_at hw 3 1 rfl rfl).trans (Nat.mod_eq_of_lt (b.isLt))
  have f4 : bits w 14 5 = a.toNat := (bits_at hw 4 1 rfl rfl).trans (Nat.mod_eq_of_lt (a.isLt))
  have f5 : bits w 19 5 = d.toNat := (bits_at hw 5 1 rfl rfl).trans (Nat.mod_eq_of_lt (d.isLt))
  have f6 : bits w 31 1 = 0 := (bits_at hw 7 1 rfl rfl)
  apply decodeWord_of _ _ _ hwf
  rw [decodeRaw_A16 w mj]
  simp [decA16, f0, f1, f2, f3, f4, f5, f6, Ty.ofCode_code]

theorem RoundTrip.vdiv (d : BitVec 5) (a : BitVec 5) (b : BitVec 5) (m : BitVec 3) (t : Ty) : RoundTrip.Statement (.vdiv d a b m t) := by
  intro w hw hwf
  have enc : 1459617792 + d.toNat * 2 ^ 19 + a.toNat * 2 ^ 14 + b.toNat * 2 ^ 9 + m.toNat * 2 ^ 6 + t.code * 2 ^ 0 = w := Option.some.inj hw
  have hw : w = digits [(t.code, 4), (0, 2), (m.toNat, 3), (b.toNat, 5), (a.toNat, 5), (d.toNat, 5), (87, 7), (0, 1)] := by
    simp only [digits, Nat.mod_eq_of_lt (d.isLt), Nat.mod_eq_of_lt (a.isLt), Nat.mod_eq_of_lt (b.isLt), Nat.mod_eq_of_lt (m.isLt), Nat.mod_eq_of_lt (Ty.code_lt t)]; omega
  have mj : bits w 24 7 = 87 := (bits_at hw 6 1 rfl rfl)
  have f0 : bits w 0 4 = t.code := (bits_at hw 0 1 rfl rfl).trans (Nat.mod_eq_of_lt (Ty.code_lt t))
  have f1 : bits w 4 2 = 0 := (bits_at hw 1 1 rfl rfl)
  have f2 : bits w 6 3 = m.toNat := (bits_at hw 2 1 rfl rfl).trans (Nat.mod_eq_of_lt (m.isLt))
  have f3 : bits w 9 5 = b.toNat := (bits_at hw 3 1 rfl rfl).trans (Nat.mod_eq_of_lt (b.isLt))
  have f4 : bits w 14 5 = a.toNat := (bits_at hw 4 1 rfl rfl).trans (Nat.mod_eq_of_lt (a.isLt))
  have f5 : bits w 19 5 = d.toNat := (bits_at hw 5 1 rfl rfl).trans (Nat.mod_eq_of_lt (d.isLt))
  have f6 : bits w 31 1 = 0 := (bits_at hw 7 1 rfl rfl)
  apply decodeWord_of _ _ _ hwf
  rw [decodeRaw_A17 w mj]
  simp [decA17, f0, f1, f2, f3, f4, f5, f6, Ty.ofCode_code]

theorem RoundTrip.vmin (d : BitVec 5) (a : BitVec 5) (b : BitVec 5) (m : BitVec 3) (t : Ty) : RoundTrip.Statement (.vmin d a b m t) := by
  intro w hw hwf
  have enc : 1476395008 + d.toNat * 2 ^ 19 + a.toNat * 2 ^ 14 + b.toNat * 2 ^ 9 + m.toNat * 2 ^ 6 + t.code * 2 ^ 0 = w := Option.some.inj hw
  have hw : w = digits [(t.code, 4), (0, 2), (m.toNat, 3), (b.toNat, 5), (a.toNat, 5), (d.toNat, 5), (88, 7), (0, 1)] := by
    simp only [digits, Nat.mod_eq_of_lt (d.isLt), Nat.mod_eq_of_lt (a.isLt), Nat.mod_eq_of_lt (b.isLt), Nat.mod_eq_of_lt (m.isLt), Nat.mod_eq_of_lt (Ty.code_lt t)]; omega
  have mj : bits w 24 7 = 88 := (bits_at hw 6 1 rfl rfl)
  have f0 : bits w 0 4 = t.code := (bits_at hw 0 1 rfl rfl).trans (Nat.mod_eq_of_lt (Ty.code_lt t))
  have f1 : bits w 4 2 = 0 := (bits_at hw 1 1 rfl rfl)
  have f2 : bits w 6 3 = m.toNat := (bits_at hw 2 1 rfl rfl).trans (Nat.mod_eq_of_lt (m.isLt))
  have f3 : bits w 9 5 = b.toNat := (bits_at hw 3 1 rfl rfl).trans (Nat.mod_eq_of_lt (b.isLt))
  have f4 : bits w 14 5 = a.toNat := (bits_at hw 4 1 rfl rfl).trans (Nat.mod_eq_of_lt (a.isLt))
  have f5 : bits w 19 5 = d.toNat := (bits_at hw 5 1 rfl rfl).trans (Nat.mod_eq_of_lt (d.isLt))
  have f6 : bits w 31 1 = 0 := (bits_at hw 7 1 rfl rfl)
  apply decodeWord_of _ _ _ hwf
  rw [decodeRaw_A18 w mj]
  simp [decA18, f0, f1, f2, f3, f4, f5, f6, Ty.ofCode_code]

theorem RoundTrip.vmax (d : BitVec 5) (a : BitVec 5) (b : BitVec 5) (m : BitVec 3) (t : Ty) : RoundTrip.Statement (.vmax d a b m t) := by
  intro w hw hwf
  have enc : 1476395024 + d.toNat * 2 ^ 19 + a.toNat * 2 ^ 14 + b.toNat * 2 ^ 9 + m.toNat * 2 ^ 6 + t.code * 2 ^ 0 = w := Option.some.inj hw
  have hw : w = digits [(t.code, 4), (1, 2), (m.toNat, 3), (b.toNat, 5), (a.toNat, 5), (d.toNat, 5), (88, 7), (0, 1)] := by
    simp only [digits, Nat.mod_eq_of_lt (d.isLt), Nat.mod_eq_of_lt (a.isLt), Nat.mod_eq_of_lt (b.isLt), Nat.mod_eq_of_lt (m.isLt), Nat.mod_eq_of_lt (Ty.code_lt t)]; omega
  have mj : bits w 24 7 = 88 := (bits_at hw 6 1 rfl rfl)
  have f0 : bits w 0 4 = t.code := (bits_at hw 0 1 rfl rfl).trans (Nat.mod_eq_of_lt (Ty.code_lt t))
  have f1 : bits w 4 2 = 1 := (bits_at hw 1 1 rfl rfl)
  have f2 : bits w 6 3 = m.toNat := (bits_at hw 2 1 rfl rfl).trans (Nat.mod_eq_of_lt (m.isLt))
  have f3 : bits w 9 5 = b.toNat := (bits_at hw 3 1 rfl rfl).trans (Nat.mod_eq_of_lt (b.isLt))
  have f4 : bits w 14 5 = a.toNat := (bits_at hw 4 1 rfl rfl).trans (Nat.mod_eq_of_lt (a.isLt))
  have f5 : bits w 19 5 = d.toNat := (bits_at hw 5 1 rfl rfl).trans (Nat.mod_eq_of_lt (d.isLt))
  have f6 : bits w 31 1 = 0 := (bits_at hw 7 1 rfl rfl)
  apply decodeWord_of _ _ _ hwf
  rw [decodeRaw_A18 w mj]
  simp [decA18, f0, f1, f2, f3, f4, f5, f6, Ty.ofCode_code]

theorem RoundTrip.vfma (d : BitVec 5) (a : BitVec 5) (b : BitVec 5) (m : BitVec 3) (t : Ty) : RoundTrip.Statement (.vfma d a b m t) := by
  intro w hw hwf
  have enc : 1493172224 + d.toNat * 2 ^ 19 + a.toNat * 2 ^ 14 + b.toNat * 2 ^ 9 + m.toNat * 2 ^ 6 + t.code * 2 ^ 0 = w := Option.some.inj hw
  have hw : w = digits [(t.code, 4), (0, 2), (m.toNat, 3), (b.toNat, 5), (a.toNat, 5), (d.toNat, 5), (89, 7), (0, 1)] := by
    simp only [digits, Nat.mod_eq_of_lt (d.isLt), Nat.mod_eq_of_lt (a.isLt), Nat.mod_eq_of_lt (b.isLt), Nat.mod_eq_of_lt (m.isLt), Nat.mod_eq_of_lt (Ty.code_lt t)]; omega
  have mj : bits w 24 7 = 89 := (bits_at hw 6 1 rfl rfl)
  have f0 : bits w 0 4 = t.code := (bits_at hw 0 1 rfl rfl).trans (Nat.mod_eq_of_lt (Ty.code_lt t))
  have f1 : bits w 4 2 = 0 := (bits_at hw 1 1 rfl rfl)
  have f2 : bits w 6 3 = m.toNat := (bits_at hw 2 1 rfl rfl).trans (Nat.mod_eq_of_lt (m.isLt))
  have f3 : bits w 9 5 = b.toNat := (bits_at hw 3 1 rfl rfl).trans (Nat.mod_eq_of_lt (b.isLt))
  have f4 : bits w 14 5 = a.toNat := (bits_at hw 4 1 rfl rfl).trans (Nat.mod_eq_of_lt (a.isLt))
  have f5 : bits w 19 5 = d.toNat := (bits_at hw 5 1 rfl rfl).trans (Nat.mod_eq_of_lt (d.isLt))
  have f6 : bits w 31 1 = 0 := (bits_at hw 7 1 rfl rfl)
  apply decodeWord_of _ _ _ hwf
  rw [decodeRaw_A19 w mj]
  simp [decA19, f0, f1, f2, f3, f4, f5, f6, Ty.ofCode_code]

theorem RoundTrip.vfms (d : BitVec 5) (a : BitVec 5) (b : BitVec 5) (m : BitVec 3) (t : Ty) : RoundTrip.Statement (.vfms d a b m t) := by
  intro w hw hwf
  have enc : 1493172240 + d.toNat * 2 ^ 19 + a.toNat * 2 ^ 14 + b.toNat * 2 ^ 9 + m.toNat * 2 ^ 6 + t.code * 2 ^ 0 = w := Option.some.inj hw
  have hw : w = digits [(t.code, 4), (1, 2), (m.toNat, 3), (b.toNat, 5), (a.toNat, 5), (d.toNat, 5), (89, 7), (0, 1)] := by
    simp only [digits, Nat.mod_eq_of_lt (d.isLt), Nat.mod_eq_of_lt (a.isLt), Nat.mod_eq_of_lt (b.isLt), Nat.mod_eq_of_lt (m.isLt), Nat.mod_eq_of_lt (Ty.code_lt t)]; omega
  have mj : bits w 24 7 = 89 := (bits_at hw 6 1 rfl rfl)
  have f0 : bits w 0 4 = t.code := (bits_at hw 0 1 rfl rfl).trans (Nat.mod_eq_of_lt (Ty.code_lt t))
  have f1 : bits w 4 2 = 1 := (bits_at hw 1 1 rfl rfl)
  have f2 : bits w 6 3 = m.toNat := (bits_at hw 2 1 rfl rfl).trans (Nat.mod_eq_of_lt (m.isLt))
  have f3 : bits w 9 5 = b.toNat := (bits_at hw 3 1 rfl rfl).trans (Nat.mod_eq_of_lt (b.isLt))
  have f4 : bits w 14 5 = a.toNat := (bits_at hw 4 1 rfl rfl).trans (Nat.mod_eq_of_lt (a.isLt))
  have f5 : bits w 19 5 = d.toNat := (bits_at hw 5 1 rfl rfl).trans (Nat.mod_eq_of_lt (d.isLt))
  have f6 : bits w 31 1 = 0 := (bits_at hw 7 1 rfl rfl)
  apply decodeWord_of _ _ _ hwf
  rw [decodeRaw_A19 w mj]
  simp [decA19, f0, f1, f2, f3, f4, f5, f6, Ty.ofCode_code]

theorem RoundTrip.vfnma (d : BitVec 5) (a : BitVec 5) (b : BitVec 5) (m : BitVec 3) (t : Ty) : RoundTrip.Statement (.vfnma d a b m t) := by
  intro w hw hwf
  have enc : 1493172256 + d.toNat * 2 ^ 19 + a.toNat * 2 ^ 14 + b.toNat * 2 ^ 9 + m.toNat * 2 ^ 6 + t.code * 2 ^ 0 = w := Option.some.inj hw
  have hw : w = digits [(t.code, 4), (2, 2), (m.toNat, 3), (b.toNat, 5), (a.toNat, 5), (d.toNat, 5), (89, 7), (0, 1)] := by
    simp only [digits, Nat.mod_eq_of_lt (d.isLt), Nat.mod_eq_of_lt (a.isLt), Nat.mod_eq_of_lt (b.isLt), Nat.mod_eq_of_lt (m.isLt), Nat.mod_eq_of_lt (Ty.code_lt t)]; omega
  have mj : bits w 24 7 = 89 := (bits_at hw 6 1 rfl rfl)
  have f0 : bits w 0 4 = t.code := (bits_at hw 0 1 rfl rfl).trans (Nat.mod_eq_of_lt (Ty.code_lt t))
  have f1 : bits w 4 2 = 2 := (bits_at hw 1 1 rfl rfl)
  have f2 : bits w 6 3 = m.toNat := (bits_at hw 2 1 rfl rfl).trans (Nat.mod_eq_of_lt (m.isLt))
  have f3 : bits w 9 5 = b.toNat := (bits_at hw 3 1 rfl rfl).trans (Nat.mod_eq_of_lt (b.isLt))
  have f4 : bits w 14 5 = a.toNat := (bits_at hw 4 1 rfl rfl).trans (Nat.mod_eq_of_lt (a.isLt))
  have f5 : bits w 19 5 = d.toNat := (bits_at hw 5 1 rfl rfl).trans (Nat.mod_eq_of_lt (d.isLt))
  have f6 : bits w 31 1 = 0 := (bits_at hw 7 1 rfl rfl)
  apply decodeWord_of _ _ _ hwf
  rw [decodeRaw_A19 w mj]
  simp [decA19, f0, f1, f2, f3, f4, f5, f6, Ty.ofCode_code]

theorem RoundTrip.vfnms (d : BitVec 5) (a : BitVec 5) (b : BitVec 5) (m : BitVec 3) (t : Ty) : RoundTrip.Statement (.vfnms d a b m t) := by
  intro w hw hwf
  have enc : 1493172272 + d.toNat * 2 ^ 19 + a.toNat * 2 ^ 14 + b.toNat * 2 ^ 9 + m.toNat * 2 ^ 6 + t.code * 2 ^ 0 = w := Option.some.inj hw
  have hw : w = digits [(t.code, 4), (3, 2), (m.toNat, 3), (b.toNat, 5), (a.toNat, 5), (d.toNat, 5), (89, 7), (0, 1)] := by
    simp only [digits, Nat.mod_eq_of_lt (d.isLt), Nat.mod_eq_of_lt (a.isLt), Nat.mod_eq_of_lt (b.isLt), Nat.mod_eq_of_lt (m.isLt), Nat.mod_eq_of_lt (Ty.code_lt t)]; omega
  have mj : bits w 24 7 = 89 := (bits_at hw 6 1 rfl rfl)
  have f0 : bits w 0 4 = t.code := (bits_at hw 0 1 rfl rfl).trans (Nat.mod_eq_of_lt (Ty.code_lt t))
  have f1 : bits w 4 2 = 3 := (bits_at hw 1 1 rfl rfl)
  have f2 : bits w 6 3 = m.toNat := (bits_at hw 2 1 rfl rfl).trans (Nat.mod_eq_of_lt (m.isLt))
  have f3 : bits w 9 5 = b.toNat := (bits_at hw 3 1 rfl rfl).trans (Nat.mod_eq_of_lt (b.isLt))
  have f4 : bits w 14 5 = a.toNat := (bits_at hw 4 1 rfl rfl).trans (Nat.mod_eq_of_lt (a.isLt))
  have f5 : bits w 19 5 = d.toNat := (bits_at hw 5 1 rfl rfl).trans (Nat.mod_eq_of_lt (d.isLt))
  have f6 : bits w 31 1 = 0 := (bits_at hw 7 1 rfl rfl)
  apply decodeWord_of _ _ _ hwf
  rw [decodeRaw_A19 w mj]
  simp [decA19, f0, f1, f2, f3, f4, f5, f6, Ty.ofCode_code]

theorem RoundTrip.vand (d : BitVec 5) (a : BitVec 5) (b : BitVec 5) (m : BitVec 3) (t : Ty) : RoundTrip.Statement (.vand d a b m t) := by
  intro w hw hwf
  have enc : 1509949440 + d.toNat * 2 ^ 19 + a.toNat * 2 ^ 14 + b.toNat * 2 ^ 9 + m.toNat * 2 ^ 6 + t.code * 2 ^ 0 = w := Option.some.inj hw
  have hw : w = digits [(t.code, 4), (0, 2), (m.toNat, 3), (b.toNat, 5), (a.toNat, 5), (d.toNat, 5), (90, 7), (0, 1)] := by
    simp only [digits, Nat.mod_eq_of_lt (d.isLt), Nat.mod_eq_of_lt (a.isLt), Nat.mod_eq_of_lt (b.isLt), Nat.mod_eq_of_lt (m.isLt), Nat.mod_eq_of_lt (Ty.code_lt t)]; omega
  have mj : bits w 24 7 = 90 := (bits_at hw 6 1 rfl rfl)
  have f0 : bits w 0 4 = t.code := (bits_at hw 0 1 rfl rfl).trans (Nat.mod_eq_of_lt (Ty.code_lt t))
  have f1 : bits w 4 2 = 0 := (bits_at hw 1 1 rfl rfl)
  have f2 : bits w 6 3 = m.toNat := (bits_at hw 2 1 rfl rfl).trans (Nat.mod_eq_of_lt (m.isLt))
  have f3 : bits w 9 5 = b.toNat := (bits_at hw 3 1 rfl rfl).trans (Nat.mod_eq_of_lt (b.isLt))
  have f4 : bits w 14 5 = a.toNat := (bits_at hw 4 1 rfl rfl).trans (Nat.mod_eq_of_lt (a.isLt))
  have f5 : bits w 19 5 = d.toNat := (bits_at hw 5 1 rfl rfl).trans (Nat.mod_eq_of_lt (d.isLt))
  have f6 : bits w 31 1 = 0 := (bits_at hw 7 1 rfl rfl)
  apply decodeWord_of _ _ _ hwf
  rw [decodeRaw_A1A w mj]
  simp [decA1A, f0, f1, f2, f3, f4, f5, f6, Ty.ofCode_code]

theorem RoundTrip.vor (d : BitVec 5) (a : BitVec 5) (b : BitVec 5) (m : BitVec 3) (t : Ty) : RoundTrip.Statement (.vor d a b m t) := by
  intro w hw hwf
  have enc : 1509949456 + d.toNat * 2 ^ 19 + a.toNat * 2 ^ 14 + b.toNat * 2 ^ 9 + m.toNat * 2 ^ 6 + t.code * 2 ^ 0 = w := Option.some.inj hw
  have hw : w = digits [(t.code, 4), (1, 2), (m.toNat, 3), (b.toNat, 5), (a.toNat, 5), (d.toNat, 5), (90, 7), (0, 1)] := by
    simp only [digits, Nat.mod_eq_of_lt (d.isLt), Nat.mod_eq_of_lt (a.isLt), Nat.mod_eq_of_lt (b.isLt), Nat.mod_eq_of_lt (m.isLt), Nat.mod_eq_of_lt (Ty.code_lt t)]; omega
  have mj : bits w 24 7 = 90 := (bits_at hw 6 1 rfl rfl)
  have f0 : bits w 0 4 = t.code := (bits_at hw 0 1 rfl rfl).trans (Nat.mod_eq_of_lt (Ty.code_lt t))
  have f1 : bits w 4 2 = 1 := (bits_at hw 1 1 rfl rfl)
  have f2 : bits w 6 3 = m.toNat := (bits_at hw 2 1 rfl rfl).trans (Nat.mod_eq_of_lt (m.isLt))
  have f3 : bits w 9 5 = b.toNat := (bits_at hw 3 1 rfl rfl).trans (Nat.mod_eq_of_lt (b.isLt))
  have f4 : bits w 14 5 = a.toNat := (bits_at hw 4 1 rfl rfl).trans (Nat.mod_eq_of_lt (a.isLt))
  have f5 : bits w 19 5 = d.toNat := (bits_at hw 5 1 rfl rfl).trans (Nat.mod_eq_of_lt (d.isLt))
  have f6 : bits w 31 1 = 0 := (bits_at hw 7 1 rfl rfl)
  apply decodeWord_of _ _ _ hwf
  rw [decodeRaw_A1A w mj]
  simp [decA1A, f0, f1, f2, f3, f4, f5, f6, Ty.ofCode_code]

theorem RoundTrip.vxor (d : BitVec 5) (a : BitVec 5) (b : BitVec 5) (m : BitVec 3) (t : Ty) : RoundTrip.Statement (.vxor d a b m t) := by
  intro w hw hwf
  have enc : 1509949472 + d.toNat * 2 ^ 19 + a.toNat * 2 ^ 14 + b.toNat * 2 ^ 9 + m.toNat * 2 ^ 6 + t.code * 2 ^ 0 = w := Option.some.inj hw
  have hw : w = digits [(t.code, 4), (2, 2), (m.toNat, 3), (b.toNat, 5), (a.toNat, 5), (d.toNat, 5), (90, 7), (0, 1)] := by
    simp only [digits, Nat.mod_eq_of_lt (d.isLt), Nat.mod_eq_of_lt (a.isLt), Nat.mod_eq_of_lt (b.isLt), Nat.mod_eq_of_lt (m.isLt), Nat.mod_eq_of_lt (Ty.code_lt t)]; omega
  have mj : bits w 24 7 = 90 := (bits_at hw 6 1 rfl rfl)
  have f0 : bits w 0 4 = t.code := (bits_at hw 0 1 rfl rfl).trans (Nat.mod_eq_of_lt (Ty.code_lt t))
  have f1 : bits w 4 2 = 2 := (bits_at hw 1 1 rfl rfl)
  have f2 : bits w 6 3 = m.toNat := (bits_at hw 2 1 rfl rfl).trans (Nat.mod_eq_of_lt (m.isLt))
  have f3 : bits w 9 5 = b.toNat := (bits_at hw 3 1 rfl rfl).trans (Nat.mod_eq_of_lt (b.isLt))
  have f4 : bits w 14 5 = a.toNat := (bits_at hw 4 1 rfl rfl).trans (Nat.mod_eq_of_lt (a.isLt))
  have f5 : bits w 19 5 = d.toNat := (bits_at hw 5 1 rfl rfl).trans (Nat.mod_eq_of_lt (d.isLt))
  have f6 : bits w 31 1 = 0 := (bits_at hw 7 1 rfl rfl)
  apply decodeWord_of _ _ _ hwf
  rw [decodeRaw_A1A w mj]
  simp [decA1A, f0, f1, f2, f3, f4, f5, f6, Ty.ofCode_code]

theorem RoundTrip.vandn (d : BitVec 5) (a : BitVec 5) (b : BitVec 5) (m : BitVec 3) (t : Ty) : RoundTrip.Statement (.vandn d a b m t) := by
  intro w hw hwf
  have enc : 1509949488 + d.toNat * 2 ^ 19 + a.toNat * 2 ^ 14 + b.toNat * 2 ^ 9 + m.toNat * 2 ^ 6 + t.code * 2 ^ 0 = w := Option.some.inj hw
  have hw : w = digits [(t.code, 4), (3, 2), (m.toNat, 3), (b.toNat, 5), (a.toNat, 5), (d.toNat, 5), (90, 7), (0, 1)] := by
    simp only [digits, Nat.mod_eq_of_lt (d.isLt), Nat.mod_eq_of_lt (a.isLt), Nat.mod_eq_of_lt (b.isLt), Nat.mod_eq_of_lt (m.isLt), Nat.mod_eq_of_lt (Ty.code_lt t)]; omega
  have mj : bits w 24 7 = 90 := (bits_at hw 6 1 rfl rfl)
  have f0 : bits w 0 4 = t.code := (bits_at hw 0 1 rfl rfl).trans (Nat.mod_eq_of_lt (Ty.code_lt t))
  have f1 : bits w 4 2 = 3 := (bits_at hw 1 1 rfl rfl)
  have f2 : bits w 6 3 = m.toNat := (bits_at hw 2 1 rfl rfl).trans (Nat.mod_eq_of_lt (m.isLt))
  have f3 : bits w 9 5 = b.toNat := (bits_at hw 3 1 rfl rfl).trans (Nat.mod_eq_of_lt (b.isLt))
  have f4 : bits w 14 5 = a.toNat := (bits_at hw 4 1 rfl rfl).trans (Nat.mod_eq_of_lt (a.isLt))
  have f5 : bits w 19 5 = d.toNat := (bits_at hw 5 1 rfl rfl).trans (Nat.mod_eq_of_lt (d.isLt))
  have f6 : bits w 31 1 = 0 := (bits_at hw 7 1 rfl rfl)
  apply decodeWord_of _ _ _ hwf
  rw [decodeRaw_A1A w mj]
  simp [decA1A, f0, f1, f2, f3, f4, f5, f6, Ty.ofCode_code]

theorem RoundTrip.vshl (d : BitVec 5) (a : BitVec 5) (b : BitVec 5) (m : BitVec 3) (t : Ty) : RoundTrip.Statement (.vshl d a b m t) := by
  intro w hw hwf
  have enc : 1526726656 + d.toNat * 2 ^ 19 + a.toNat * 2 ^ 14 + b.toNat * 2 ^ 9 + m.toNat * 2 ^ 6 + t.code * 2 ^ 0 = w := Option.some.inj hw
  have hw : w = digits [(t.code, 4), (0, 2), (m.toNat, 3), (b.toNat, 5), (a.toNat, 5), (d.toNat, 5), (91, 7), (0, 1)] := by
    simp only [digits, Nat.mod_eq_of_lt (d.isLt), Nat.mod_eq_of_lt (a.isLt), Nat.mod_eq_of_lt (b.isLt), Nat.mod_eq_of_lt (m.isLt), Nat.mod_eq_of_lt (Ty.code_lt t)]; omega
  have mj : bits w 24 7 = 91 := (bits_at hw 6 1 rfl rfl)
  have f0 : bits w 0 4 = t.code := (bits_at hw 0 1 rfl rfl).trans (Nat.mod_eq_of_lt (Ty.code_lt t))
  have f1 : bits w 4 2 = 0 := (bits_at hw 1 1 rfl rfl)
  have f2 : bits w 6 3 = m.toNat := (bits_at hw 2 1 rfl rfl).trans (Nat.mod_eq_of_lt (m.isLt))
  have f3 : bits w 9 5 = b.toNat := (bits_at hw 3 1 rfl rfl).trans (Nat.mod_eq_of_lt (b.isLt))
  have f4 : bits w 14 5 = a.toNat := (bits_at hw 4 1 rfl rfl).trans (Nat.mod_eq_of_lt (a.isLt))
  have f5 : bits w 19 5 = d.toNat := (bits_at hw 5 1 rfl rfl).trans (Nat.mod_eq_of_lt (d.isLt))
  have f6 : bits w 31 1 = 0 := (bits_at hw 7 1 rfl rfl)
  apply decodeWord_of _ _ _ hwf
  rw [decodeRaw_A1B w mj]
  simp [decA1B, f0, f1, f2, f3, f4, f5, f6, Ty.ofCode_code]

theorem RoundTrip.vshr (d : BitVec 5) (a : BitVec 5) (b : BitVec 5) (m : BitVec 3) (t : Ty) : RoundTrip.Statement (.vshr d a b m t) := by
  intro w hw hwf
  have enc : 1526726672 + d.toNat * 2 ^ 19 + a.toNat * 2 ^ 14 + b.toNat * 2 ^ 9 + m.toNat * 2 ^ 6 + t.code * 2 ^ 0 = w := Option.some.inj hw
  have hw : w = digits [(t.code, 4), (1, 2), (m.toNat, 3), (b.toNat, 5), (a.toNat, 5), (d.toNat, 5), (91, 7), (0, 1)] := by
    simp only [digits, Nat.mod_eq_of_lt (d.isLt), Nat.mod_eq_of_lt (a.isLt), Nat.mod_eq_of_lt (b.isLt), Nat.mod_eq_of_lt (m.isLt), Nat.mod_eq_of_lt (Ty.code_lt t)]; omega
  have mj : bits w 24 7 = 91 := (bits_at hw 6 1 rfl rfl)
  have f0 : bits w 0 4 = t.code := (bits_at hw 0 1 rfl rfl).trans (Nat.mod_eq_of_lt (Ty.code_lt t))
  have f1 : bits w 4 2 = 1 := (bits_at hw 1 1 rfl rfl)
  have f2 : bits w 6 3 = m.toNat := (bits_at hw 2 1 rfl rfl).trans (Nat.mod_eq_of_lt (m.isLt))
  have f3 : bits w 9 5 = b.toNat := (bits_at hw 3 1 rfl rfl).trans (Nat.mod_eq_of_lt (b.isLt))
  have f4 : bits w 14 5 = a.toNat := (bits_at hw 4 1 rfl rfl).trans (Nat.mod_eq_of_lt (a.isLt))
  have f5 : bits w 19 5 = d.toNat := (bits_at hw 5 1 rfl rfl).trans (Nat.mod_eq_of_lt (d.isLt))
  have f6 : bits w 31 1 = 0 := (bits_at hw 7 1 rfl rfl)
  apply decodeWord_of _ _ _ hwf
  rw [decodeRaw_A1B w mj]
  simp [decA1B, f0, f1, f2, f3, f4, f5, f6, Ty.ofCode_code]

theorem RoundTrip.vsra (d : BitVec 5) (a : BitVec 5) (b : BitVec 5) (m : BitVec 3) (t : Ty) : RoundTrip.Statement (.vsra d a b m t) := by
  intro w hw hwf
  have enc : 1526726688 + d.toNat * 2 ^ 19 + a.toNat * 2 ^ 14 + b.toNat * 2 ^ 9 + m.toNat * 2 ^ 6 + t.code * 2 ^ 0 = w := Option.some.inj hw
  have hw : w = digits [(t.code, 4), (2, 2), (m.toNat, 3), (b.toNat, 5), (a.toNat, 5), (d.toNat, 5), (91, 7), (0, 1)] := by
    simp only [digits, Nat.mod_eq_of_lt (d.isLt), Nat.mod_eq_of_lt (a.isLt), Nat.mod_eq_of_lt (b.isLt), Nat.mod_eq_of_lt (m.isLt), Nat.mod_eq_of_lt (Ty.code_lt t)]; omega
  have mj : bits w 24 7 = 91 := (bits_at hw 6 1 rfl rfl)
  have f0 : bits w 0 4 = t.code := (bits_at hw 0 1 rfl rfl).trans (Nat.mod_eq_of_lt (Ty.code_lt t))
  have f1 : bits w 4 2 = 2 := (bits_at hw 1 1 rfl rfl)
  have f2 : bits w 6 3 = m.toNat := (bits_at hw 2 1 rfl rfl).trans (Nat.mod_eq_of_lt (m.isLt))
  have f3 : bits w 9 5 = b.toNat := (bits_at hw 3 1 rfl rfl).trans (Nat.mod_eq_of_lt (b.isLt))
  have f4 : bits w 14 5 = a.toNat := (bits_at hw 4 1 rfl rfl).trans (Nat.mod_eq_of_lt (a.isLt))
  have f5 : bits w 19 5 = d.toNat := (bits_at hw 5 1 rfl rfl).trans (Nat.mod_eq_of_lt (d.isLt))
  have f6 : bits w 31 1 = 0 := (bits_at hw 7 1 rfl rfl)
  apply decodeWord_of _ _ _ hwf
  rw [decodeRaw_A1B w mj]
  simp [decA1B, f0, f1, f2, f3, f4, f5, f6, Ty.ofCode_code]

theorem RoundTrip.vrol (d : BitVec 5) (a : BitVec 5) (b : BitVec 5) (m : BitVec 3) (t : Ty) : RoundTrip.Statement (.vrol d a b m t) := by
  intro w hw hwf
  have enc : 1526726704 + d.toNat * 2 ^ 19 + a.toNat * 2 ^ 14 + b.toNat * 2 ^ 9 + m.toNat * 2 ^ 6 + t.code * 2 ^ 0 = w := Option.some.inj hw
  have hw : w = digits [(t.code, 4), (3, 2), (m.toNat, 3), (b.toNat, 5), (a.toNat, 5), (d.toNat, 5), (91, 7), (0, 1)] := by
    simp only [digits, Nat.mod_eq_of_lt (d.isLt), Nat.mod_eq_of_lt (a.isLt), Nat.mod_eq_of_lt (b.isLt), Nat.mod_eq_of_lt (m.isLt), Nat.mod_eq_of_lt (Ty.code_lt t)]; omega
  have mj : bits w 24 7 = 91 := (bits_at hw 6 1 rfl rfl)
  have f0 : bits w 0 4 = t.code := (bits_at hw 0 1 rfl rfl).trans (Nat.mod_eq_of_lt (Ty.code_lt t))
  have f1 : bits w 4 2 = 3 := (bits_at hw 1 1 rfl rfl)
  have f2 : bits w 6 3 = m.toNat := (bits_at hw 2 1 rfl rfl).trans (Nat.mod_eq_of_lt (m.isLt))
  have f3 : bits w 9 5 = b.toNat := (bits_at hw 3 1 rfl rfl).trans (Nat.mod_eq_of_lt (b.isLt))
  have f4 : bits w 14 5 = a.toNat := (bits_at hw 4 1 rfl rfl).trans (Nat.mod_eq_of_lt (a.isLt))
  have f5 : bits w 19 5 = d.toNat := (bits_at hw 5 1 rfl rfl).trans (Nat.mod_eq_of_lt (d.isLt))
  have f6 : bits w 31 1 = 0 := (bits_at hw 7 1 rfl rfl)
  apply decodeWord_of _ _ _ hwf
  rw [decodeRaw_A1B w mj]
  simp [decA1B, f0, f1, f2, f3, f4, f5, f6, Ty.ofCode_code]

theorem RoundTrip.vcmpeq (d : BitVec 3) (a : BitVec 5) (b : BitVec 5) (m : BitVec 3) (t : Ty) : RoundTrip.Statement (.vcmpeq d a b m t) := by
  intro w hw hwf
  have enc : 1543503872 + d.toNat * 2 ^ 19 + a.toNat * 2 ^ 14 + b.toNat * 2 ^ 9 + m.toNat * 2 ^ 6 + t.code * 2 ^ 0 = w := Option.some.inj hw
  have hw : w = digits [(t.code, 4), (0, 2), (m.toNat, 3), (b.toNat, 5), (a.toNat, 5), (d.toNat, 3), (0, 2), (92, 7), (0, 1)] := by
    simp only [digits, Nat.mod_eq_of_lt (d.isLt), Nat.mod_eq_of_lt (a.isLt), Nat.mod_eq_of_lt (b.isLt), Nat.mod_eq_of_lt (m.isLt), Nat.mod_eq_of_lt (Ty.code_lt t)]; omega
  have mj : bits w 24 7 = 92 := (bits_at hw 7 1 rfl rfl)
  have f0 : bits w 0 4 = t.code := (bits_at hw 0 1 rfl rfl).trans (Nat.mod_eq_of_lt (Ty.code_lt t))
  have f1 : bits w 4 2 = 0 := (bits_at hw 1 1 rfl rfl)
  have f2 : bits w 6 3 = m.toNat := (bits_at hw 2 1 rfl rfl).trans (Nat.mod_eq_of_lt (m.isLt))
  have f3 : bits w 9 5 = b.toNat := (bits_at hw 3 1 rfl rfl).trans (Nat.mod_eq_of_lt (b.isLt))
  have f4 : bits w 14 5 = a.toNat := (bits_at hw 4 1 rfl rfl).trans (Nat.mod_eq_of_lt (a.isLt))
  have f5 : bits w 19 3 = d.toNat := (bits_at hw 5 1 rfl rfl).trans (Nat.mod_eq_of_lt (d.isLt))
  have f6 : bits w 22 2 = 0 := (bits_at hw 6 1 rfl rfl)
  have f7 : bits w 31 1 = 0 := (bits_at hw 8 1 rfl rfl)
  apply decodeWord_of _ _ _ hwf
  rw [decodeRaw_A1C w mj]
  simp [decA1C, f0, f1, f2, f3, f4, f5, f6, f7, Ty.ofCode_code]

theorem RoundTrip.vcmpne (d : BitVec 3) (a : BitVec 5) (b : BitVec 5) (m : BitVec 3) (t : Ty) : RoundTrip.Statement (.vcmpne d a b m t) := by
  intro w hw hwf
  have enc : 1543503888 + d.toNat * 2 ^ 19 + a.toNat * 2 ^ 14 + b.toNat * 2 ^ 9 + m.toNat * 2 ^ 6 + t.code * 2 ^ 0 = w := Option.some.inj hw
  have hw : w = digits [(t.code, 4), (1, 2), (m.toNat, 3), (b.toNat, 5), (a.toNat, 5), (d.toNat, 3), (0, 2), (92, 7), (0, 1)] := by
    simp only [digits, Nat.mod_eq_of_lt (d.isLt), Nat.mod_eq_of_lt (a.isLt), Nat.mod_eq_of_lt (b.isLt), Nat.mod_eq_of_lt (m.isLt), Nat.mod_eq_of_lt (Ty.code_lt t)]; omega
  have mj : bits w 24 7 = 92 := (bits_at hw 7 1 rfl rfl)
  have f0 : bits w 0 4 = t.code := (bits_at hw 0 1 rfl rfl).trans (Nat.mod_eq_of_lt (Ty.code_lt t))
  have f1 : bits w 4 2 = 1 := (bits_at hw 1 1 rfl rfl)
  have f2 : bits w 6 3 = m.toNat := (bits_at hw 2 1 rfl rfl).trans (Nat.mod_eq_of_lt (m.isLt))
  have f3 : bits w 9 5 = b.toNat := (bits_at hw 3 1 rfl rfl).trans (Nat.mod_eq_of_lt (b.isLt))
  have f4 : bits w 14 5 = a.toNat := (bits_at hw 4 1 rfl rfl).trans (Nat.mod_eq_of_lt (a.isLt))
  have f5 : bits w 19 3 = d.toNat := (bits_at hw 5 1 rfl rfl).trans (Nat.mod_eq_of_lt (d.isLt))
  have f6 : bits w 22 2 = 0 := (bits_at hw 6 1 rfl rfl)
  have f7 : bits w 31 1 = 0 := (bits_at hw 8 1 rfl rfl)
  apply decodeWord_of _ _ _ hwf
  rw [decodeRaw_A1C w mj]
  simp [decA1C, f0, f1, f2, f3, f4, f5, f6, f7, Ty.ofCode_code]

theorem RoundTrip.vcmplt (d : BitVec 3) (a : BitVec 5) (b : BitVec 5) (m : BitVec 3) (t : Ty) : RoundTrip.Statement (.vcmplt d a b m t) := by
  intro w hw hwf
  have enc : 1543503904 + d.toNat * 2 ^ 19 + a.toNat * 2 ^ 14 + b.toNat * 2 ^ 9 + m.toNat * 2 ^ 6 + t.code * 2 ^ 0 = w := Option.some.inj hw
  have hw : w = digits [(t.code, 4), (2, 2), (m.toNat, 3), (b.toNat, 5), (a.toNat, 5), (d.toNat, 3), (0, 2), (92, 7), (0, 1)] := by
    simp only [digits, Nat.mod_eq_of_lt (d.isLt), Nat.mod_eq_of_lt (a.isLt), Nat.mod_eq_of_lt (b.isLt), Nat.mod_eq_of_lt (m.isLt), Nat.mod_eq_of_lt (Ty.code_lt t)]; omega
  have mj : bits w 24 7 = 92 := (bits_at hw 7 1 rfl rfl)
  have f0 : bits w 0 4 = t.code := (bits_at hw 0 1 rfl rfl).trans (Nat.mod_eq_of_lt (Ty.code_lt t))
  have f1 : bits w 4 2 = 2 := (bits_at hw 1 1 rfl rfl)
  have f2 : bits w 6 3 = m.toNat := (bits_at hw 2 1 rfl rfl).trans (Nat.mod_eq_of_lt (m.isLt))
  have f3 : bits w 9 5 = b.toNat := (bits_at hw 3 1 rfl rfl).trans (Nat.mod_eq_of_lt (b.isLt))
  have f4 : bits w 14 5 = a.toNat := (bits_at hw 4 1 rfl rfl).trans (Nat.mod_eq_of_lt (a.isLt))
  have f5 : bits w 19 3 = d.toNat := (bits_at hw 5 1 rfl rfl).trans (Nat.mod_eq_of_lt (d.isLt))
  have f6 : bits w 22 2 = 0 := (bits_at hw 6 1 rfl rfl)
  have f7 : bits w 31 1 = 0 := (bits_at hw 8 1 rfl rfl)
  apply decodeWord_of _ _ _ hwf
  rw [decodeRaw_A1C w mj]
  simp [decA1C, f0, f1, f2, f3, f4, f5, f6, f7, Ty.ofCode_code]

theorem RoundTrip.vcmple (d : BitVec 3) (a : BitVec 5) (b : BitVec 5) (m : BitVec 3) (t : Ty) : RoundTrip.Statement (.vcmple d a b m t) := by
  intro w hw hwf
  have enc : 1543503920 + d.toNat * 2 ^ 19 + a.toNat * 2 ^ 14 + b.toNat * 2 ^ 9 + m.toNat * 2 ^ 6 + t.code * 2 ^ 0 = w := Option.some.inj hw
  have hw : w = digits [(t.code, 4), (3, 2), (m.toNat, 3), (b.toNat, 5), (a.toNat, 5), (d.toNat, 3), (0, 2), (92, 7), (0, 1)] := by
    simp only [digits, Nat.mod_eq_of_lt (d.isLt), Nat.mod_eq_of_lt (a.isLt), Nat.mod_eq_of_lt (b.isLt), Nat.mod_eq_of_lt (m.isLt), Nat.mod_eq_of_lt (Ty.code_lt t)]; omega
  have mj : bits w 24 7 = 92 := (bits_at hw 7 1 rfl rfl)
  have f0 : bits w 0 4 = t.code := (bits_at hw 0 1 rfl rfl).trans (Nat.mod_eq_of_lt (Ty.code_lt t))
  have f1 : bits w 4 2 = 3 := (bits_at hw 1 1 rfl rfl)
  have f2 : bits w 6 3 = m.toNat := (bits_at hw 2 1 rfl rfl).trans (Nat.mod_eq_of_lt (m.isLt))
  have f3 : bits w 9 5 = b.toNat := (bits_at hw 3 1 rfl rfl).trans (Nat.mod_eq_of_lt (b.isLt))
  have f4 : bits w 14 5 = a.toNat := (bits_at hw 4 1 rfl rfl).trans (Nat.mod_eq_of_lt (a.isLt))
  have f5 : bits w 19 3 = d.toNat := (bits_at hw 5 1 rfl rfl).trans (Nat.mod_eq_of_lt (d.isLt))
  have f6 : bits w 22 2 = 0 := (bits_at hw 6 1 rfl rfl)
  have f7 : bits w 31 1 = 0 := (bits_at hw 8 1 rfl rfl)
  apply decodeWord_of _ _ _ hwf
  rw [decodeRaw_A1C w mj]
  simp [decA1C, f0, f1, f2, f3, f4, f5, f6, f7, Ty.ofCode_code]

theorem RoundTrip.vsel (d : BitVec 5) (a : BitVec 5) (b : BitVec 5) (m : BitVec 3) (t : Ty) : RoundTrip.Statement (.vsel d a b m t) := by
  intro w hw hwf
  have enc : 1560281088 + d.toNat * 2 ^ 19 + a.toNat * 2 ^ 14 + b.toNat * 2 ^ 9 + m.toNat * 2 ^ 6 + t.code * 2 ^ 0 = w := Option.some.inj hw
  have hw : w = digits [(t.code, 4), (0, 2), (m.toNat, 3), (b.toNat, 5), (a.toNat, 5), (d.toNat, 5), (93, 7), (0, 1)] := by
    simp only [digits, Nat.mod_eq_of_lt (d.isLt), Nat.mod_eq_of_lt (a.isLt), Nat.mod_eq_of_lt (b.isLt), Nat.mod_eq_of_lt (m.isLt), Nat.mod_eq_of_lt (Ty.code_lt t)]; omega
  have mj : bits w 24 7 = 93 := (bits_at hw 6 1 rfl rfl)
  have f0 : bits w 0 4 = t.code := (bits_at hw 0 1 rfl rfl).trans (Nat.mod_eq_of_lt (Ty.code_lt t))
  have f1 : bits w 4 2 = 0 := (bits_at hw 1 1 rfl rfl)
  have f2 : bits w 6 3 = m.toNat := (bits_at hw 2 1 rfl rfl).trans (Nat.mod_eq_of_lt (m.isLt))
  have f3 : bits w 9 5 = b.toNat := (bits_at hw 3 1 rfl rfl).trans (Nat.mod_eq_of_lt (b.isLt))
  have f4 : bits w 14 5 = a.toNat := (bits_at hw 4 1 rfl rfl).trans (Nat.mod_eq_of_lt (a.isLt))
  have f5 : bits w 19 5 = d.toNat := (bits_at hw 5 1 rfl rfl).trans (Nat.mod_eq_of_lt (d.isLt))
  have f6 : bits w 31 1 = 0 := (bits_at hw 7 1 rfl rfl)
  apply decodeWord_of _ _ _ hwf
  rw [decodeRaw_A1D w mj]
  simp [decA1D, f0, f1, f2, f3, f4, f5, f6, Ty.ofCode_code]

theorem RoundTrip.vneg (d : BitVec 5) (a : BitVec 5) (m : BitVec 3) (t : Ty) : RoundTrip.Statement (.vneg d a m t) := by
  intro w hw hwf
  have enc : 1577058304 + d.toNat * 2 ^ 19 + a.toNat * 2 ^ 14 + m.toNat * 2 ^ 6 + t.code * 2 ^ 0 = w := Option.some.inj hw
  have hw : w = digits [(t.code, 4), (0, 2), (m.toNat, 3), (0, 5), (a.toNat, 5), (d.toNat, 5), (94, 7), (0, 1)] := by
    simp only [digits, Nat.mod_eq_of_lt (d.isLt), Nat.mod_eq_of_lt (a.isLt), Nat.mod_eq_of_lt (m.isLt), Nat.mod_eq_of_lt (Ty.code_lt t)]; omega
  have mj : bits w 24 7 = 94 := (bits_at hw 6 1 rfl rfl)
  have f0 : bits w 0 4 = t.code := (bits_at hw 0 1 rfl rfl).trans (Nat.mod_eq_of_lt (Ty.code_lt t))
  have f1 : bits w 4 2 = 0 := (bits_at hw 1 1 rfl rfl)
  have f2 : bits w 6 3 = m.toNat := (bits_at hw 2 1 rfl rfl).trans (Nat.mod_eq_of_lt (m.isLt))
  have f3 : bits w 9 5 = 0 := (bits_at hw 3 1 rfl rfl)
  have f4 : bits w 14 5 = a.toNat := (bits_at hw 4 1 rfl rfl).trans (Nat.mod_eq_of_lt (a.isLt))
  have f5 : bits w 19 5 = d.toNat := (bits_at hw 5 1 rfl rfl).trans (Nat.mod_eq_of_lt (d.isLt))
  have f6 : bits w 31 1 = 0 := (bits_at hw 7 1 rfl rfl)
  apply decodeWord_of _ _ _ hwf
  rw [decodeRaw_A1E w mj]
  simp [decA1E, f0, f1, f2, f3, f4, f5, f6, Ty.ofCode_code]

theorem RoundTrip.vabs (d : BitVec 5) (a : BitVec 5) (m : BitVec 3) (t : Ty) : RoundTrip.Statement (.vabs d a m t) := by
  intro w hw hwf
  have enc : 1577058320 + d.toNat * 2 ^ 19 + a.toNat * 2 ^ 14 + m.toNat * 2 ^ 6 + t.code * 2 ^ 0 = w := Option.some.inj hw
  have hw : w = digits [(t.code, 4), (1, 2), (m.toNat, 3), (0, 5), (a.toNat, 5), (d.toNat, 5), (94, 7), (0, 1)] := by
    simp only [digits, Nat.mod_eq_of_lt (d.isLt), Nat.mod_eq_of_lt (a.isLt), Nat.mod_eq_of_lt (m.isLt), Nat.mod_eq_of_lt (Ty.code_lt t)]; omega
  have mj : bits w 24 7 = 94 := (bits_at hw 6 1 rfl rfl)
  have f0 : bits w 0 4 = t.code := (bits_at hw 0 1 rfl rfl).trans (Nat.mod_eq_of_lt (Ty.code_lt t))
  have f1 : bits w 4 2 = 1 := (bits_at hw 1 1 rfl rfl)
  have f2 : bits w 6 3 = m.toNat := (bits_at hw 2 1 rfl rfl).trans (Nat.mod_eq_of_lt (m.isLt))
  have f3 : bits w 9 5 = 0 := (bits_at hw 3 1 rfl rfl)
  have f4 : bits w 14 5 = a.toNat := (bits_at hw 4 1 rfl rfl).trans (Nat.mod_eq_of_lt (a.isLt))
  have f5 : bits w 19 5 = d.toNat := (bits_at hw 5 1 rfl rfl).trans (Nat.mod_eq_of_lt (d.isLt))
  have f6 : bits w 31 1 = 0 := (bits_at hw 7 1 rfl rfl)
  apply decodeWord_of _ _ _ hwf
  rw [decodeRaw_A1E w mj]
  simp [decA1E, f0, f1, f2, f3, f4, f5, f6, Ty.ofCode_code]

theorem RoundTrip.vcpsgn (d : BitVec 5) (a : BitVec 5) (b : BitVec 5) (m : BitVec 3) (t : Ty) : RoundTrip.Statement (.vcpsgn d a b m t) := by
  intro w hw hwf
  have enc : 1577058336 + d.toNat * 2 ^ 19 + a.toNat * 2 ^ 14 + b.toNat * 2 ^ 9 + m.toNat * 2 ^ 6 + t.code * 2 ^ 0 = w := Option.some.inj hw
  have hw : w = digits [(t.code, 4), (2, 2), (m.toNat, 3), (b.toNat, 5), (a.toNat, 5), (d.toNat, 5), (94, 7), (0, 1)] := by
    simp only [digits, Nat.mod_eq_of_lt (d.isLt), Nat.mod_eq_of_lt (a.isLt), Nat.mod_eq_of_lt (b.isLt), Nat.mod_eq_of_lt (m.isLt), Nat.mod_eq_of_lt (Ty.code_lt t)]; omega
  have mj : bits w 24 7 = 94 := (bits_at hw 6 1 rfl rfl)
  have f0 : bits w 0 4 = t.code := (bits_at hw 0 1 rfl rfl).trans (Nat.mod_eq_of_lt (Ty.code_lt t))
  have f1 : bits w 4 2 = 2 := (bits_at hw 1 1 rfl rfl)
  have f2 : bits w 6 3 = m.toNat := (bits_at hw 2 1 rfl rfl).trans (Nat.mod_eq_of_lt (m.isLt))
  have f3 : bits w 9 5 = b.toNat := (bits_at hw 3 1 rfl rfl).trans (Nat.mod_eq_of_lt (b.isLt))
  have f4 : bits w 14 5 = a.toNat := (bits_at hw 4 1 rfl rfl).trans (Nat.mod_eq_of_lt (a.isLt))
  have f5 : bits w 19 5 = d.toNat := (bits_at hw 5 1 rfl rfl).trans (Nat.mod_eq_of_lt (d.isLt))
  have f6 : bits w 31 1 = 0 := (bits_at hw 7 1 rfl rfl)
  apply decodeWord_of _ _ _ hwf
  rw [decodeRaw_A1E w mj]
  simp [decA1E, f0, f1, f2, f3, f4, f5, f6, Ty.ofCode_code]

theorem RoundTrip.vmov (d : BitVec 5) (a : BitVec 5) (m : BitVec 3) (t : Ty) : RoundTrip.Statement (.vmov d a m t) := by
  intro w hw hwf
  have enc : 1577058352 + d.toNat * 2 ^ 19 + a.toNat * 2 ^ 14 + m.toNat * 2 ^ 6 + t.code * 2 ^ 0 = w := Option.some.inj hw
  have hw : w = digits [(t.code, 4), (3, 2), (m.toNat, 3), (0, 5), (a.toNat, 5), (d.toNat, 5), (94, 7), (0, 1)] := by
    simp only [digits, Nat.mod_eq_of_lt (d.isLt), Nat.mod_eq_of_lt (a.isLt), Nat.mod_eq_of_lt (m.isLt), Nat.mod_eq_of_lt (Ty.code_lt t)]; omega
  have mj : bits w 24 7 = 94 := (bits_at hw 6 1 rfl rfl)
  have f0 : bits w 0 4 = t.code := (bits_at hw 0 1 rfl rfl).trans (Nat.mod_eq_of_lt (Ty.code_lt t))
  have f1 : bits w 4 2 = 3 := (bits_at hw 1 1 rfl rfl)
  have f2 : bits w 6 3 = m.toNat := (bits_at hw 2 1 rfl rfl).trans (Nat.mod_eq_of_lt (m.isLt))
  have f3 : bits w 9 5 = 0 := (bits_at hw 3 1 rfl rfl)
  have f4 : bits w 14 5 = a.toNat := (bits_at hw 4 1 rfl rfl).trans (Nat.mod_eq_of_lt (a.isLt))
  have f5 : bits w 19 5 = d.toNat := (bits_at hw 5 1 rfl rfl).trans (Nat.mod_eq_of_lt (d.isLt))
  have f6 : bits w 31 1 = 0 := (bits_at hw 7 1 rfl rfl)
  apply decodeWord_of _ _ _ hwf
  rw [decodeRaw_A1E w mj]
  simp [decA1E, f0, f1, f2, f3, f4, f5, f6, Ty.ofCode_code]

theorem RoundTrip.vsqrt (d : BitVec 5) (a : BitVec 5) (m : BitVec 3) (t : Ty) : RoundTrip.Statement (.vsqrt d a m t) := by
  intro w hw hwf
  have enc : 1593835520 + d.toNat * 2 ^ 19 + a.toNat * 2 ^ 14 + m.toNat * 2 ^ 6 + t.code * 2 ^ 0 = w := Option.some.inj hw
  have hw : w = digits [(t.code, 4), (0, 2), (m.toNat, 3), (0, 5), (a.toNat, 5), (d.toNat, 5), (95, 7), (0, 1)] := by
    simp only [digits, Nat.mod_eq_of_lt (d.isLt), Nat.mod_eq_of_lt (a.isLt), Nat.mod_eq_of_lt (m.isLt), Nat.mod_eq_of_lt (Ty.code_lt t)]; omega
  have mj : bits w 24 7 = 95 := (bits_at hw 6 1 rfl rfl)
  have f0 : bits w 0 4 = t.code := (bits_at hw 0 1 rfl rfl).trans (Nat.mod_eq_of_lt (Ty.code_lt t))
  have f1 : bits w 4 2 = 0 := (bits_at hw 1 1 rfl rfl)
  have f2 : bits w 6 3 = m.toNat := (bits_at hw 2 1 rfl rfl).trans (Nat.mod_eq_of_lt (m.isLt))
  have f3 : bits w 9 5 = 0 := (bits_at hw 3 1 rfl rfl)
  have f4 : bits w 14 5 = a.toNat := (bits_at hw 4 1 rfl rfl).trans (Nat.mod_eq_of_lt (a.isLt))
  have f5 : bits w 19 5 = d.toNat := (bits_at hw 5 1 rfl rfl).trans (Nat.mod_eq_of_lt (d.isLt))
  have f6 : bits w 31 1 = 0 := (bits_at hw 7 1 rfl rfl)
  apply decodeWord_of _ _ _ hwf
  rw [decodeRaw_A1F w mj]
  simp [decA1F, f0, f1, f2, f3, f4, f5, f6, Ty.ofCode_code]

theorem RoundTrip.vexp2 (d : BitVec 5) (a : BitVec 5) (m : BitVec 3) (t : Ty) : RoundTrip.Statement (.vexp2 d a m t) := by
  intro w hw hwf
  have enc : 1610612736 + d.toNat * 2 ^ 19 + a.toNat * 2 ^ 14 + m.toNat * 2 ^ 6 + t.code * 2 ^ 0 = w := Option.some.inj hw
  have hw : w = digits [(t.code, 4), (0, 2), (m.toNat, 3), (0, 5), (a.toNat, 5), (d.toNat, 5), (96, 7), (0, 1)] := by
    simp only [digits, Nat.mod_eq_of_lt (d.isLt), Nat.mod_eq_of_lt (a.isLt), Nat.mod_eq_of_lt (m.isLt), Nat.mod_eq_of_lt (Ty.code_lt t)]; omega
  have mj : bits w 24 7 = 96 := (bits_at hw 6 1 rfl rfl)
  have f0 : bits w 0 4 = t.code := (bits_at hw 0 1 rfl rfl).trans (Nat.mod_eq_of_lt (Ty.code_lt t))
  have f1 : bits w 4 2 = 0 := (bits_at hw 1 1 rfl rfl)
  have f2 : bits w 6 3 = m.toNat := (bits_at hw 2 1 rfl rfl).trans (Nat.mod_eq_of_lt (m.isLt))
  have f3 : bits w 9 5 = 0 := (bits_at hw 3 1 rfl rfl)
  have f4 : bits w 14 5 = a.toNat := (bits_at hw 4 1 rfl rfl).trans (Nat.mod_eq_of_lt (a.isLt))
  have f5 : bits w 19 5 = d.toNat := (bits_at hw 5 1 rfl rfl).trans (Nat.mod_eq_of_lt (d.isLt))
  have f6 : bits w 31 1 = 0 := (bits_at hw 7 1 rfl rfl)
  apply decodeWord_of _ _ _ hwf
  rw [decodeRaw_A20 w mj]
  simp [decA20, f0, f1, f2, f3, f4, f5, f6, Ty.ofCode_code]

theorem RoundTrip.vlog2 (d : BitVec 5) (a : BitVec 5) (m : BitVec 3) (t : Ty) : RoundTrip.Statement (.vlog2 d a m t) := by
  intro w hw hwf
  have enc : 1610612752 + d.toNat * 2 ^ 19 + a.toNat * 2 ^ 14 + m.toNat * 2 ^ 6 + t.code * 2 ^ 0 = w := Option.some.inj hw
  have hw : w = digits [(t.code, 4), (1, 2), (m.toNat, 3), (0, 5), (a.toNat, 5), (d.toNat, 5), (96, 7), (0, 1)] := by
    simp only [digits, Nat.mod_eq_of_lt (d.isLt), Nat.mod_eq_of_lt (a.isLt), Nat.mod_eq_of_lt (m.isLt), Nat.mod_eq_of_lt (Ty.code_lt t)]; omega
  have mj : bits w 24 7 = 96 := (bits_at hw 6 1 rfl rfl)
  have f0 : bits w 0 4 = t.code := (bits_at hw 0 1 rfl rfl).trans (Nat.mod_eq_of_lt (Ty.code_lt t))
  have f1 : bits w 4 2 = 1 := (bits_at hw 1 1 rfl rfl)
  have f2 : bits w 6 3 = m.toNat := (bits_at hw 2 1 rfl rfl).trans (Nat.mod_eq_of_lt (m.isLt))
  have f3 : bits w 9 5 = 0 := (bits_at hw 3 1 rfl rfl)
  have f4 : bits w 14 5 = a.toNat := (bits_at hw 4 1 rfl rfl).trans (Nat.mod_eq_of_lt (a.isLt))
  have f5 : bits w 19 5 = d.toNat := (bits_at hw 5 1 rfl rfl).trans (Nat.mod_eq_of_lt (d.isLt))
  have f6 : bits w 31 1 = 0 := (bits_at hw 7 1 rfl rfl)
  apply decodeWord_of _ _ _ hwf
  rw [decodeRaw_A20 w mj]
  simp [decA20, f0, f1, f2, f3, f4, f5, f6, Ty.ofCode_code]

theorem RoundTrip.vrcp (d : BitVec 5) (a : BitVec 5) (m : BitVec 3) (t : Ty) : RoundTrip.Statement (.vrcp d a m t) := by
  intro w hw hwf
  have enc : 1610612768 + d.toNat * 2 ^ 19 + a.toNat * 2 ^ 14 + m.toNat * 2 ^ 6 + t.code * 2 ^ 0 = w := Option.some.inj hw
  have hw : w = digits [(t.code, 4), (2, 2), (m.toNat, 3), (0, 5), (a.toNat, 5), (d.toNat, 5), (96, 7), (0, 1)] := by
    simp only [digits, Nat.mod_eq_of_lt (d.isLt), Nat.mod_eq_of_lt (a.isLt), Nat.mod_eq_of_lt (m.isLt), Nat.mod_eq_of_lt (Ty.code_lt t)]; omega
  have mj : bits w 24 7 = 96 := (bits_at hw 6 1 rfl rfl)
  have f0 : bits w 0 4 = t.code := (bits_at hw 0 1 rfl rfl).trans (Nat.mod_eq_of_lt (Ty.code_lt t))
  have f1 : bits w 4 2 = 2 := (bits_at hw 1 1 rfl rfl)
  have f2 : bits w 6 3 = m.toNat := (bits_at hw 2 1 rfl rfl).trans (Nat.mod_eq_of_lt (m.isLt))
  have f3 : bits w 9 5 = 0 := (bits_at hw 3 1 rfl rfl)
  have f4 : bits w 14 5 = a.toNat := (bits_at hw 4 1 rfl rfl).trans (Nat.mod_eq_of_lt (a.isLt))
  have f5 : bits w 19 5 = d.toNat := (bits_at hw 5 1 rfl rfl).trans (Nat.mod_eq_of_lt (d.isLt))
  have f6 : bits w 31 1 = 0 := (bits_at hw 7 1 rfl rfl)
  apply decodeWord_of _ _ _ hwf
  rw [decodeRaw_A20 w mj]
  simp [decA20, f0, f1, f2, f3, f4, f5, f6, Ty.ofCode_code]

theorem RoundTrip.vrsqrt (d : BitVec 5) (a : BitVec 5) (m : BitVec 3) (t : Ty) : RoundTrip.Statement (.vrsqrt d a m t) := by
  intro w hw hwf
  have enc : 1610612784 + d.toNat * 2 ^ 19 + a.toNat * 2 ^ 14 + m.toNat * 2 ^ 6 + t.code * 2 ^ 0 = w := Option.some.inj hw
  have hw : w = digits [(t.code, 4), (3, 2), (m.toNat, 3), (0, 5), (a.toNat, 5), (d.toNat, 5), (96, 7), (0, 1)] := by
    simp only [digits, Nat.mod_eq_of_lt (d.isLt), Nat.mod_eq_of_lt (a.isLt), Nat.mod_eq_of_lt (m.isLt), Nat.mod_eq_of_lt (Ty.code_lt t)]; omega
  have mj : bits w 24 7 = 96 := (bits_at hw 6 1 rfl rfl)
  have f0 : bits w 0 4 = t.code := (bits_at hw 0 1 rfl rfl).trans (Nat.mod_eq_of_lt (Ty.code_lt t))
  have f1 : bits w 4 2 = 3 := (bits_at hw 1 1 rfl rfl)
  have f2 : bits w 6 3 = m.toNat := (bits_at hw 2 1 rfl rfl).trans (Nat.mod_eq_of_lt (m.isLt))
  have f3 : bits w 9 5 = 0 := (bits_at hw 3 1 rfl rfl)
  have f4 : bits w 14 5 = a.toNat := (bits_at hw 4 1 rfl rfl).trans (Nat.mod_eq_of_lt (a.isLt))
  have f5 : bits w 19 5 = d.toNat := (bits_at hw 5 1 rfl rfl).trans (Nat.mod_eq_of_lt (d.isLt))
  have f6 : bits w 31 1 = 0 := (bits_at hw 7 1 rfl rfl)
  apply decodeWord_of _ _ _ hwf
  rw [decodeRaw_A20 w mj]
  simp [decA20, f0, f1, f2, f3, f4, f5, f6, Ty.ofCode_code]

theorem RoundTrip.vmix32 (d : BitVec 5) (a : BitVec 5) (b : BitVec 5) (m : BitVec 3) : RoundTrip.Statement (.vmix32 d a b m) := by
  intro w hw hwf
  have enc : 1627389958 + d.toNat * 2 ^ 19 + a.toNat * 2 ^ 14 + b.toNat * 2 ^ 9 + m.toNat * 2 ^ 6 = w := Option.some.inj hw
  have hw : w = digits [(6, 6), (m.toNat, 3), (b.toNat, 5), (a.toNat, 5), (d.toNat, 5), (97, 7), (0, 1)] := by
    simp only [digits, Nat.mod_eq_of_lt (d.isLt), Nat.mod_eq_of_lt (a.isLt), Nat.mod_eq_of_lt (b.isLt), Nat.mod_eq_of_lt (m.isLt)]; omega
  have mj : bits w 24 7 = 97 := (bits_at hw 5 1 rfl rfl)
  have f0 : bits w 0 6 = 6 := (bits_at hw 0 1 rfl rfl)
  have f1 : bits w 6 3 = m.toNat := (bits_at hw 1 1 rfl rfl).trans (Nat.mod_eq_of_lt (m.isLt))
  have f2 : bits w 9 5 = b.toNat := (bits_at hw 2 1 rfl rfl).trans (Nat.mod_eq_of_lt (b.isLt))
  have f3 : bits w 14 5 = a.toNat := (bits_at hw 3 1 rfl rfl).trans (Nat.mod_eq_of_lt (a.isLt))
  have f4 : bits w 19 5 = d.toNat := (bits_at hw 4 1 rfl rfl).trans (Nat.mod_eq_of_lt (d.isLt))
  have f5 : bits w 31 1 = 0 := (bits_at hw 6 1 rfl rfl)
  apply decodeWord_of _ _ _ hwf
  rw [decodeRaw_A21 w mj]
  simp [decA21, f0, f1, f2, f3, f4, f5]

theorem RoundTrip.vmix32u (d : BitVec 5) (a : BitVec 5) (b : BitVec 5) (m : BitVec 3) : RoundTrip.Statement (.vmix32u d a b m) := by
  intro w hw hwf
  have enc : 1627389978 + d.toNat * 2 ^ 19 + a.toNat * 2 ^ 14 + b.toNat * 2 ^ 9 + m.toNat * 2 ^ 6 = w := Option.some.inj hw
  have hw : w = digits [(26, 6), (m.toNat, 3), (b.toNat, 5), (a.toNat, 5), (d.toNat, 5), (97, 7), (0, 1)] := by
    simp only [digits, Nat.mod_eq_of_lt (d.isLt), Nat.mod_eq_of_lt (a.isLt), Nat.mod_eq_of_lt (b.isLt), Nat.mod_eq_of_lt (m.isLt)]; omega
  have mj : bits w 24 7 = 97 := (bits_at hw 5 1 rfl rfl)
  have f0 : bits w 0 6 = 26 := (bits_at hw 0 1 rfl rfl)
  have f1 : bits w 6 3 = m.toNat := (bits_at hw 1 1 rfl rfl).trans (Nat.mod_eq_of_lt (m.isLt))
  have f2 : bits w 9 5 = b.toNat := (bits_at hw 2 1 rfl rfl).trans (Nat.mod_eq_of_lt (b.isLt))
  have f3 : bits w 14 5 = a.toNat := (bits_at hw 3 1 rfl rfl).trans (Nat.mod_eq_of_lt (a.isLt))
  have f4 : bits w 19 5 = d.toNat := (bits_at hw 4 1 rfl rfl).trans (Nat.mod_eq_of_lt (d.isLt))
  have f5 : bits w 31 1 = 0 := (bits_at hw 6 1 rfl rfl)
  apply decodeWord_of _ _ _ hwf
  rw [decodeRaw_A21 w mj]
  simp [decA21, f0, f1, f2, f3, f4, f5]

theorem RoundTrip.vmix32r (d : BitVec 4) (a : BitVec 5) (b : BitVec 5) (m : BitVec 3) : RoundTrip.Statement (.vmix32r d a b m) := by
  intro w hw hwf
  have enc : 1627389994 + d.toNat * 2 ^ 20 + a.toNat * 2 ^ 14 + b.toNat * 2 ^ 9 + m.toNat * 2 ^ 6 = w := Option.some.inj hw
  have hw : w = digits [(42, 6), (m.toNat, 3), (b.toNat, 5), (a.toNat, 5), (0, 1), (d.toNat, 4), (97, 7), (0, 1)] := by
    simp only [digits, Nat.mod_eq_of_lt (d.isLt), Nat.mod_eq_of_lt (a.isLt), Nat.mod_eq_of_lt (b.isLt), Nat.mod_eq_of_lt (m.isLt)]; omega
  have mj : bits w 24 7 = 97 := (bits_at hw 6 1 rfl rfl)
  have f0 : bits w 0 6 = 42 := (bits_at hw 0 1 rfl rfl)
  have f1 : bits w 6 3 = m.toNat := (bits_at hw 1 1 rfl rfl).trans (Nat.mod_eq_of_lt (m.isLt))
  have f2 : bits w 9 5 = b.toNat := (bits_at hw 2 1 rfl rfl).trans (Nat.mod_eq_of_lt (b.isLt))
  have f3 : bits w 14 5 = a.toNat := (bits_at hw 3 1 rfl rfl).trans (Nat.mod_eq_of_lt (a.isLt))
  have f4 : bits w 19 1 = 0 := (bits_at hw 4 1 rfl rfl)
  have f5 : bits w 20 4 = d.toNat := (bits_at hw 5 1 rfl rfl).trans (Nat.mod_eq_of_lt (d.isLt))
  have f6 : bits w 31 1 = 0 := (bits_at hw 7 1 rfl rfl)
  apply decodeWord_of _ _ _ hwf
  rw [decodeRaw_A21 w mj]
  simp [decA21, f0, f1, f2, f3, f4, f5, f6]

theorem RoundTrip.vrsum (d : BitVec 5) (a : BitVec 5) (m : BitVec 3) (t : Ty) : RoundTrip.Statement (.vrsum d a m t) := by
  intro w hw hwf
  have enc : 1644167168 + d.toNat * 2 ^ 19 + a.toNat * 2 ^ 14 + m.toNat * 2 ^ 6 + t.code * 2 ^ 0 = w := Option.some.inj hw
  have hw : w = digits [(t.code, 4), (0, 2), (m.toNat, 3), (0, 5), (a.toNat, 5), (d.toNat, 5), (98, 7), (0, 1)] := by
    simp only [digits, Nat.mod_eq_of_lt (d.isLt), Nat.mod_eq_of_lt (a.isLt), Nat.mod_eq_of_lt (m.isLt), Nat.mod_eq_of_lt (Ty.code_lt t)]; omega
  have mj : bits w 24 7 = 98 := (bits_at hw 6 1 rfl rfl)
  have f0 : bits w 0 4 = t.code := (bits_at hw 0 1 rfl rfl).trans (Nat.mod_eq_of_lt (Ty.code_lt t))
  have f1 : bits w 4 2 = 0 := (bits_at hw 1 1 rfl rfl)
  have f2 : bits w 6 3 = m.toNat := (bits_at hw 2 1 rfl rfl).trans (Nat.mod_eq_of_lt (m.isLt))
  have f3 : bits w 9 5 = 0 := (bits_at hw 3 1 rfl rfl)
  have f4 : bits w 14 5 = a.toNat := (bits_at hw 4 1 rfl rfl).trans (Nat.mod_eq_of_lt (a.isLt))
  have f5 : bits w 19 5 = d.toNat := (bits_at hw 5 1 rfl rfl).trans (Nat.mod_eq_of_lt (d.isLt))
  have f6 : bits w 31 1 = 0 := (bits_at hw 7 1 rfl rfl)
  apply decodeWord_of _ _ _ hwf
  rw [decodeRaw_A22 w mj]
  simp [decA22, f0, f1, f2, f3, f4, f5, f6, Ty.ofCode_code]

theorem RoundTrip.vrmax (d : BitVec 5) (a : BitVec 5) (m : BitVec 3) (t : Ty) : RoundTrip.Statement (.vrmax d a m t) := by
  intro w hw hwf
  have enc : 1644167184 + d.toNat * 2 ^ 19 + a.toNat * 2 ^ 14 + m.toNat * 2 ^ 6 + t.code * 2 ^ 0 = w := Option.some.inj hw
  have hw : w = digits [(t.code, 4), (1, 2), (m.toNat, 3), (0, 5), (a.toNat, 5), (d.toNat, 5), (98, 7), (0, 1)] := by
    simp only [digits, Nat.mod_eq_of_lt (d.isLt), Nat.mod_eq_of_lt (a.isLt), Nat.mod_eq_of_lt (m.isLt), Nat.mod_eq_of_lt (Ty.code_lt t)]; omega
  have mj : bits w 24 7 = 98 := (bits_at hw 6 1 rfl rfl)
  have f0 : bits w 0 4 = t.code := (bits_at hw 0 1 rfl rfl).trans (Nat.mod_eq_of_lt (Ty.code_lt t))
  have f1 : bits w 4 2 = 1 := (bits_at hw 1 1 rfl rfl)
  have f2 : bits w 6 3 = m.toNat := (bits_at hw 2 1 rfl rfl).trans (Nat.mod_eq_of_lt (m.isLt))
  have f3 : bits w 9 5 = 0 := (bits_at hw 3 1 rfl rfl)
  have f4 : bits w 14 5 = a.toNat := (bits_at hw 4 1 rfl rfl).trans (Nat.mod_eq_of_lt (a.isLt))
  have f5 : bits w 19 5 = d.toNat := (bits_at hw 5 1 rfl rfl).trans (Nat.mod_eq_of_lt (d.isLt))
  have f6 : bits w 31 1 = 0 := (bits_at hw 7 1 rfl rfl)
  apply decodeWord_of _ _ _ hwf
  rw [decodeRaw_A22 w mj]
  simp [decA22, f0, f1, f2, f3, f4, f5, f6, Ty.ofCode_code]

theorem RoundTrip.vrmin (d : BitVec 5) (a : BitVec 5) (m : BitVec 3) (t : Ty) : RoundTrip.Statement (.vrmin d a m t) := by
  intro w hw hwf
  have enc : 1644167200 + d.toNat * 2 ^ 19 + a.toNat * 2 ^ 14 + m.toNat * 2 ^ 6 + t.code * 2 ^ 0 = w := Option.some.inj hw
  have hw : w = digits [(t.code, 4), (2, 2), (m.toNat, 3), (0, 5), (a.toNat, 5), (d.toNat, 5), (98, 7), (0, 1)] := by
    simp only [digits, Nat.mod_eq_of_lt (d.isLt), Nat.mod_eq_of_lt (a.isLt), Nat.mod_eq_of_lt (m.isLt), Nat.mod_eq_of_lt (Ty.code_lt t)]; omega
  have mj : bits w 24 7 = 98 := (bits_at hw 6 1 rfl rfl)
  have f0 : bits w 0 4 = t.code := (bits_at hw 0 1 rfl rfl).trans (Nat.mod_eq_of_lt (Ty.code_lt t))
  have f1 : bits w 4 2 = 2 := (bits_at hw 1 1 rfl rfl)
  have f2 : bits w 6 3 = m.toNat := (bits_at hw 2 1 rfl rfl).trans (Nat.mod_eq_of_lt (m.isLt))
  have f3 : bits w 9 5 = 0 := (bits_at hw 3 1 rfl rfl)
  have f4 : bits w 14 5 = a.toNat := (bits_at hw 4 1 rfl rfl).trans (Nat.mod_eq_of_lt (a.isLt))
  have f5 : bits w 19 5 = d.toNat := (bits_at hw 5 1 rfl rfl).trans (Nat.mod_eq_of_lt (d.isLt))
  have f6 : bits w 31 1 = 0 := (bits_at hw 7 1 rfl rfl)
  apply decodeWord_of _ _ _ hwf
  rw [decodeRaw_A22 w mj]
  simp [decA22, f0, f1, f2, f3, f4, f5, f6, Ty.ofCode_code]

theorem RoundTrip.vscsum (d : BitVec 5) (a : BitVec 5) (m : BitVec 3) (t : Ty) : RoundTrip.Statement (.vscsum d a m t) := by
  intro w hw hwf
  have enc : 1660944384 + d.toNat * 2 ^ 19 + a.toNat * 2 ^ 14 + m.toNat * 2 ^ 6 + t.code * 2 ^ 0 = w := Option.some.inj hw
  have hw : w = digits [(t.code, 4), (0, 2), (m.toNat, 3), (0, 5), (a.toNat, 5), (d.toNat, 5), (99, 7), (0, 1)] := by
    simp only [digits, Nat.mod_eq_of_lt (d.isLt), Nat.mod_eq_of_lt (a.isLt), Nat.mod_eq_of_lt (m.isLt), Nat.mod_eq_of_lt (Ty.code_lt t)]; omega
  have mj : bits w 24 7 = 99 := (bits_at hw 6 1 rfl rfl)
  have f0 : bits w 0 4 = t.code := (bits_at hw 0 1 rfl rfl).trans (Nat.mod_eq_of_lt (Ty.code_lt t))
  have f1 : bits w 4 2 = 0 := (bits_at hw 1 1 rfl rfl)
  have f2 : bits w 6 3 = m.toNat := (bits_at hw 2 1 rfl rfl).trans (Nat.mod_eq_of_lt (m.isLt))
  have f3 : bits w 9 5 = 0 := (bits_at hw 3 1 rfl rfl)
  have f4 : bits w 14 5 = a.toNat := (bits_at hw 4 1 rfl rfl).trans (Nat.mod_eq_of_lt (a.isLt))
  have f5 : bits w 19 5 = d.toNat := (bits_at hw 5 1 rfl rfl).trans (Nat.mod_eq_of_lt (d.isLt))
  have f6 : bits w 31 1 = 0 := (bits_at hw 7 1 rfl rfl)
  apply decodeWord_of _ _ _ hwf
  rw [decodeRaw_A23 w mj]
  simp [decA23, f0, f1, f2, f3, f4, f5, f6, Ty.ofCode_code]

theorem RoundTrip.vscmax (d : BitVec 5) (a : BitVec 5) (m : BitVec 3) (t : Ty) : RoundTrip.Statement (.vscmax d a m t) := by
  intro w hw hwf
  have enc : 1660944400 + d.toNat * 2 ^ 19 + a.toNat * 2 ^ 14 + m.toNat * 2 ^ 6 + t.code * 2 ^ 0 = w := Option.some.inj hw
  have hw : w = digits [(t.code, 4), (1, 2), (m.toNat, 3), (0, 5), (a.toNat, 5), (d.toNat, 5), (99, 7), (0, 1)] := by
    simp only [digits, Nat.mod_eq_of_lt (d.isLt), Nat.mod_eq_of_lt (a.isLt), Nat.mod_eq_of_lt (m.isLt), Nat.mod_eq_of_lt (Ty.code_lt t)]; omega
  have mj : bits w 24 7 = 99 := (bits_at hw 6 1 rfl rfl)
  have f0 : bits w 0 4 = t.code := (bits_at hw 0 1 rfl rfl).trans (Nat.mod_eq_of_lt (Ty.code_lt t))
  have f1 : bits w 4 2 = 1 := (bits_at hw 1 1 rfl rfl)
  have f2 : bits w 6 3 = m.toNat := (bits_at hw 2 1 rfl rfl).trans (Nat.mod_eq_of_lt (m.isLt))
  have f3 : bits w 9 5 = 0 := (bits_at hw 3 1 rfl rfl)
  have f4 : bits w 14 5 = a.toNat := (bits_at hw 4 1 rfl rfl).trans (Nat.mod_eq_of_lt (a.isLt))
  have f5 : bits w 19 5 = d.toNat := (bits_at hw 5 1 rfl rfl).trans (Nat.mod_eq_of_lt (d.isLt))
  have f6 : bits w 31 1 = 0 := (bits_at hw 7 1 rfl rfl)
  apply decodeWord_of _ _ _ hwf
  rw [decodeRaw_A23 w mj]
  simp [decA23, f0, f1, f2, f3, f4, f5, f6, Ty.ofCode_code]

theorem RoundTrip.vscmin (d : BitVec 5) (a : BitVec 5) (m : BitVec 3) (t : Ty) : RoundTrip.Statement (.vscmin d a m t) := by
  intro w hw hwf
  have enc : 1660944416 + d.toNat * 2 ^ 19 + a.toNat * 2 ^ 14 + m.toNat * 2 ^ 6 + t.code * 2 ^ 0 = w := Option.some.inj hw
  have hw : w = digits [(t.code, 4), (2, 2), (m.toNat, 3), (0, 5), (a.toNat, 5), (d.toNat, 5), (99, 7), (0, 1)] := by
    simp only [digits, Nat.mod_eq_of_lt (d.isLt), Nat.mod_eq_of_lt (a.isLt), Nat.mod_eq_of_lt (m.isLt), Nat.mod_eq_of_lt (Ty.code_lt t)]; omega
  have mj : bits w 24 7 = 99 := (bits_at hw 6 1 rfl rfl)
  have f0 : bits w 0 4 = t.code := (bits_at hw 0 1 rfl rfl).trans (Nat.mod_eq_of_lt (Ty.code_lt t))
  have f1 : bits w 4 2 = 2 := (bits_at hw 1 1 rfl rfl)
  have f2 : bits w 6 3 = m.toNat := (bits_at hw 2 1 rfl rfl).trans (Nat.mod_eq_of_lt (m.isLt))
  have f3 : bits w 9 5 = 0 := (bits_at hw 3 1 rfl rfl)
  have f4 : bits w 14 5 = a.toNat := (bits_at hw 4 1 rfl rfl).trans (Nat.mod_eq_of_lt (a.isLt))
  have f5 : bits w 19 5 = d.toNat := (bits_at hw 5 1 rfl rfl).trans (Nat.mod_eq_of_lt (d.isLt))
  have f6 : bits w 31 1 = 0 := (bits_at hw 7 1 rfl rfl)
  apply decodeWord_of _ _ _ hwf
  rw [decodeRaw_A23 w mj]
  simp [decA23, f0, f1, f2, f3, f4, f5, f6, Ty.ofCode_code]

theorem RoundTrip.vperm (d : BitVec 5) (a : BitVec 5) (b : BitVec 5) (m : BitVec 3) (t : Ty) : RoundTrip.Statement (.vperm d a b m t) := by
  intro w hw hwf
  have enc : 1677721600 + d.toNat * 2 ^ 19 + a.toNat * 2 ^ 14 + b.toNat * 2 ^ 9 + m.toNat * 2 ^ 6 + t.code * 2 ^ 0 = w := Option.some.inj hw
  have hw : w = digits [(t.code, 4), (0, 2), (m.toNat, 3), (b.toNat, 5), (a.toNat, 5), (d.toNat, 5), (100, 7), (0, 1)] := by
    simp only [digits, Nat.mod_eq_of_lt (d.isLt), Nat.mod_eq_of_lt (a.isLt), Nat.mod_eq_of_lt (b.isLt), Nat.mod_eq_of_lt (m.isLt), Nat.mod_eq_of_lt (Ty.code_lt t)]; omega
  have mj : bits w 24 7 = 100 := (bits_at hw 6 1 rfl rfl)
  have f0 : bits w 0 4 = t.code := (bits_at hw 0 1 rfl rfl).trans (Nat.mod_eq_of_lt (Ty.code_lt t))
  have f1 : bits w 4 2 = 0 := (bits_at hw 1 1 rfl rfl)
  have f2 : bits w 6 3 = m.toNat := (bits_at hw 2 1 rfl rfl).trans (Nat.mod_eq_of_lt (m.isLt))
  have f3 : bits w 9 5 = b.toNat := (bits_at hw 3 1 rfl rfl).trans (Nat.mod_eq_of_lt (b.isLt))
  have f4 : bits w 14 5 = a.toNat := (bits_at hw 4 1 rfl rfl).trans (Nat.mod_eq_of_lt (a.isLt))
  have f5 : bits w 19 5 = d.toNat := (bits_at hw 5 1 rfl rfl).trans (Nat.mod_eq_of_lt (d.isLt))
  have f6 : bits w 31 1 = 0 := (bits_at hw 7 1 rfl rfl)
  apply decodeWord_of _ _ _ hwf
  rw [decodeRaw_A24 w mj]
  simp [decA24, f0, f1, f2, f3, f4, f5, f6, Ty.ofCode_code]

theorem RoundTrip.vcompr (d : BitVec 5) (a : BitVec 5) (m : BitVec 3) (t : Ty) : RoundTrip.Statement (.vcompr d a m t) := by
  intro w hw hwf
  have enc : 1677721616 + d.toNat * 2 ^ 19 + a.toNat * 2 ^ 14 + m.toNat * 2 ^ 6 + t.code * 2 ^ 0 = w := Option.some.inj hw
  have hw : w = digits [(t.code, 4), (1, 2), (m.toNat, 3), (0, 5), (a.toNat, 5), (d.toNat, 5), (100, 7), (0, 1)] := by
    simp only [digits, Nat.mod_eq_of_lt (d.isLt), Nat.mod_eq_of_lt (a.isLt), Nat.mod_eq_of_lt (m.isLt), Nat.mod_eq_of_lt (Ty.code_lt t)]; omega
  have mj : bits w 24 7 = 100 := (bits_at hw 6 1 rfl rfl)
  have f0 : bits w 0 4 = t.code := (bits_at hw 0 1 rfl rfl).trans (Nat.mod_eq_of_lt (Ty.code_lt t))
  have f1 : bits w 4 2 = 1 := (bits_at hw 1 1 rfl rfl)
  have f2 : bits w 6 3 = m.toNat := (bits_at hw 2 1 rfl rfl).trans (Nat.mod_eq_of_lt (m.isLt))
  have f3 : bits w 9 5 = 0 := (bits_at hw 3 1 rfl rfl)
  have f4 : bits w 14 5 = a.toNat := (bits_at hw 4 1 rfl rfl).trans (Nat.mod_eq_of_lt (a.isLt))
  have f5 : bits w 19 5 = d.toNat := (bits_at hw 5 1 rfl rfl).trans (Nat.mod_eq_of_lt (d.isLt))
  have f6 : bits w 31 1 = 0 := (bits_at hw 7 1 rfl rfl)
  apply decodeWord_of _ _ _ hwf
  rw [decodeRaw_A24 w mj]
  simp [decA24, f0, f1, f2, f3, f4, f5, f6, Ty.ofCode_code]

theorem RoundTrip.vbcast (d : BitVec 5) (a : BitVec 5) (m : BitVec 3) (t : Ty) : RoundTrip.Statement (.vbcast d a m t) := by
  intro w hw hwf
  have enc : 1694498816 + d.toNat * 2 ^ 19 + a.toNat * 2 ^ 14 + m.toNat * 2 ^ 6 + t.code * 2 ^ 0 = w := Option.some.inj hw
  have hw : w = digits [(t.code, 4), (0, 2), (m.toNat, 3), (0, 5), (a.toNat, 5), (d.toNat, 5), (101, 7), (0, 1)] := by
    simp only [digits, Nat.mod_eq_of_lt (d.isLt), Nat.mod_eq_of_lt (a.isLt), Nat.mod_eq_of_lt (m.isLt), Nat.mod_eq_of_lt (Ty.code_lt t)]; omega
  have mj : bits w 24 7 = 101 := (bits_at hw 6 1 rfl rfl)
  have f0 : bits w 0 4 = t.code := (bits_at hw 0 1 rfl rfl).trans (Nat.mod_eq_of_lt (Ty.code_lt t))
  have f1 : bits w 4 2 = 0 := (bits_at hw 1 1 rfl rfl)
  have f2 : bits w 6 3 = m.toNat := (bits_at hw 2 1 rfl rfl).trans (Nat.mod_eq_of_lt (m.isLt))
  have f3 : bits w 9 5 = 0 := (bits_at hw 3 1 rfl rfl)
  have f4 : bits w 14 5 = a.toNat := (bits_at hw 4 1 rfl rfl).trans (Nat.mod_eq_of_lt (a.isLt))
  have f5 : bits w 19 5 = d.toNat := (bits_at hw 5 1 rfl rfl).trans (Nat.mod_eq_of_lt (d.isLt))
  have f6 : bits w 31 1 = 0 := (bits_at hw 7 1 rfl rfl)
  apply decodeWord_of _ _ _ hwf
  rw [decodeRaw_A25 w mj]
  simp [decA25, f0, f1, f2, f3, f4, f5, f6, Ty.ofCode_code]

theorem RoundTrip.vsplat (d : BitVec 5) (a : BitVec 5) (b : BitVec 5) (m : BitVec 3) (t : Ty) : RoundTrip.Statement (.vsplat d a b m t) := by
  intro w hw hwf
  have enc : 1694498832 + d.toNat * 2 ^ 19 + a.toNat * 2 ^ 14 + b.toNat * 2 ^ 9 + m.toNat * 2 ^ 6 + t.code * 2 ^ 0 = w := Option.some.inj hw
  have hw : w = digits [(t.code, 4), (1, 2), (m.toNat, 3), (b.toNat, 5), (a.toNat, 5), (d.toNat, 5), (101, 7), (0, 1)] := by
    simp only [digits, Nat.mod_eq_of_lt (d.isLt), Nat.mod_eq_of_lt (a.isLt), Nat.mod_eq_of_lt (b.isLt), Nat.mod_eq_of_lt (m.isLt), Nat.mod_eq_of_lt (Ty.code_lt t)]; omega
  have mj : bits w 24 7 = 101 := (bits_at hw 6 1 rfl rfl)
  have f0 : bits w 0 4 = t.code := (bits_at hw 0 1 rfl rfl).trans (Nat.mod_eq_of_lt (Ty.code_lt t))
  have f1 : bits w 4 2 = 1 := (bits_at hw 1 1 rfl rfl)
  have f2 : bits w 6 3 = m.toNat := (bits_at hw 2 1 rfl rfl).trans (Nat.mod_eq_of_lt (m.isLt))
  have f3 : bits w 9 5 = b.toNat := (bits_at hw 3 1 rfl rfl).trans (Nat.mod_eq_of_lt (b.isLt))
  have f4 : bits w 14 5 = a.toNat := (bits_at hw 4 1 rfl rfl).trans (Nat.mod_eq_of_lt (a.isLt))
  have f5 : bits w 19 5 = d.toNat := (bits_at hw 5 1 rfl rfl).trans (Nat.mod_eq_of_lt (d.isLt))
  have f6 : bits w 31 1 = 0 := (bits_at hw 7 1 rfl rfl)
  apply decodeWord_of _ _ _ hwf
  rw [decodeRaw_A25 w mj]
  simp [decA25, f0, f1, f2, f3, f4, f5, f6, Ty.ofCode_code]

theorem RoundTrip.vins (d : BitVec 5) (a : BitVec 5) (b : BitVec 5) (t : Ty) : RoundTrip.Statement (.vins d a b t) := by
  intro w hw hwf
  have enc : 1711276032 + d.toNat * 2 ^ 19 + a.toNat * 2 ^ 14 + b.toNat * 2 ^ 9 + t.code * 2 ^ 0 = w := Option.some.inj hw
  have hw : w = digits [(t.code, 4), (0, 5), (b.toNat, 5), (a.toNat, 5), (d.toNat, 5), (102, 7), (0, 1)] := by
    simp only [digits, Nat.mod_eq_of_lt (d.isLt), Nat.mod_eq_of_lt (a.isLt), Nat.mod_eq_of_lt (b.isLt), Nat.mod_eq_of_lt (Ty.code_lt t)]; omega
  have mj : bits w 24 7 = 102 := (bits_at hw 5 1 rfl rfl)
  have f0 : bits w 0 4 = t.code := (bits_at hw 0 1 rfl rfl).trans (Nat.mod_eq_of_lt (Ty.code_lt t))
  have f1 : bits w 4 5 = 0 := (bits_at hw 1 1 rfl rfl)
  have f2 : bits w 9 5 = b.toNat := (bits_at hw 2 1 rfl rfl).trans (Nat.mod_eq_of_lt (b.isLt))
  have f3 : bits w 14 5 = a.toNat := (bits_at hw 3 1 rfl rfl).trans (Nat.mod_eq_of_lt (a.isLt))
  have f4 : bits w 19 5 = d.toNat := (bits_at hw 4 1 rfl rfl).trans (Nat.mod_eq_of_lt (d.isLt))
  have f5 : bits w 31 1 = 0 := (bits_at hw 6 1 rfl rfl)
  apply decodeWord_of _ _ _ hwf
  rw [decodeRaw_A26 w mj]
  simp [decA26, f0, f1, f2, f3, f4, f5, Ty.ofCode_code]

theorem RoundTrip.vext (d : BitVec 5) (a : BitVec 5) (b : BitVec 5) (t : Ty) : RoundTrip.Statement (.vext d a b t) := by
  intro w hw hwf
  have enc : 1711276048 + d.toNat * 2 ^ 19 + a.toNat * 2 ^ 14 + b.toNat * 2 ^ 9 + t.code * 2 ^ 0 = w := Option.some.inj hw
  have hw : w = digits [(t.code, 4), (1, 5), (b.toNat, 5), (a.toNat, 5), (d.toNat, 5), (102, 7), (0, 1)] := by
    simp only [digits, Nat.mod_eq_of_lt (d.isLt), Nat.mod_eq_of_lt (a.isLt), Nat.mod_eq_of_lt (b.isLt), Nat.mod_eq_of_lt (Ty.code_lt t)]; omega
  have mj : bits w 24 7 = 102 := (bits_at hw 5 1 rfl rfl)
  have f0 : bits w 0 4 = t.code := (bits_at hw 0 1 rfl rfl).trans (Nat.mod_eq_of_lt (Ty.code_lt t))
  have f1 : bits w 4 5 = 1 := (bits_at hw 1 1 rfl rfl)
  have f2 : bits w 9 5 = b.toNat := (bits_at hw 2 1 rfl rfl).trans (Nat.mod_eq_of_lt (b.isLt))
  have f3 : bits w 14 5 = a.toNat := (bits_at hw 3 1 rfl rfl).trans (Nat.mod_eq_of_lt (a.isLt))
  have f4 : bits w 19 5 = d.toNat := (bits_at hw 4 1 rfl rfl).trans (Nat.mod_eq_of_lt (d.isLt))
  have f5 : bits w 31 1 = 0 := (bits_at hw 6 1 rfl rfl)
  apply decodeWord_of _ _ _ hwf
  rw [decodeRaw_A26 w mj]
  simp [decA26, f0, f1, f2, f3, f4, f5, Ty.ofCode_code]

theorem RoundTrip.vcvt (d : BitVec 5) (a : BitVec 5) (t : Ty) (r : BitVec 2) (s : Bool) (h : Bool) (m : BitVec 2) (u : Ty) : RoundTrip.Statement (.vcvt d a t r s h m u) := by
  intro w hw hwf
  have enc : 1728053248 + d.toNat * 2 ^ 19 + a.toNat * 2 ^ 14 + t.code * 2 ^ 10 + r.toNat * 2 ^ 8 + bitOf s * 2 ^ 7 + bitOf h * 2 ^ 6 + m.toNat * 2 ^ 4 + u.code * 2 ^ 0 = w := Option.some.inj hw
  have hw : w = digits [(u.code, 4), (m.toNat, 2), (bitOf h, 1), (bitOf s, 1), (r.toNat, 2), (t.code, 4), (a.toNat, 5), (d.toNat, 5), (103, 7), (0, 1)] := by
    simp only [digits, Nat.mod_eq_of_lt (d.isLt), Nat.mod_eq_of_lt (a.isLt), Nat.mod_eq_of_lt (Ty.code_lt t), Nat.mod_eq_of_lt (r.isLt), Nat.mod_eq_of_lt (bitOf_lt s), Nat.mod_eq_of_lt (bitOf_lt h), Nat.mod_eq_of_lt (m.isLt), Nat.mod_eq_of_lt (Ty.code_lt u)]; omega
  have mj : bits w 24 7 = 103 := (bits_at hw 8 1 rfl rfl)
  have f0 : bits w 0 4 = u.code := (bits_at hw 0 1 rfl rfl).trans (Nat.mod_eq_of_lt (Ty.code_lt u))
  have f1 : bits w 4 2 = m.toNat := (bits_at hw 1 1 rfl rfl).trans (Nat.mod_eq_of_lt (m.isLt))
  have f2 : bits w 8 2 = r.toNat := (bits_at hw 4 1 rfl rfl).trans (Nat.mod_eq_of_lt (r.isLt))
  have f3 : bits w 10 4 = t.code := (bits_at hw 5 1 rfl rfl).trans (Nat.mod_eq_of_lt (Ty.code_lt t))
  have f4 : bits w 14 5 = a.toNat := (bits_at hw 6 1 rfl rfl).trans (Nat.mod_eq_of_lt (a.isLt))
  have f5 : bits w 19 5 = d.toNat := (bits_at hw 7 1 rfl rfl).trans (Nat.mod_eq_of_lt (d.isLt))
  have f6 : bits w 31 1 = 0 := (bits_at hw 9 1 rfl rfl)
  have g7 : bits w 6 1 = bitOf h := (bits_at hw 2 1 rfl rfl).trans (Nat.mod_eq_of_lt (bitOf_lt h))
  have f7 : flag w 6 = h := flag_mod w 6 h g7
  have g8 : bits w 7 1 = bitOf s := (bits_at hw 3 1 rfl rfl).trans (Nat.mod_eq_of_lt (bitOf_lt s))
  have f8 : flag w 7 = s := flag_mod w 7 s g8
  apply decodeWord_of _ _ _ hwf
  rw [decodeRaw_A27 w mj]
  simp [decA27, f0, f1, f2, f3, f4, f5, f6, f7, f8, Ty.ofCode_code]

theorem RoundTrip.vqblkSb8 (d : BitVec 5) (a : BitVec 5) (r : BitVec 2) (s : Bool) : RoundTrip.Statement (.vqblkSb8 d a r s) := by
  intro w hw hwf
  have enc : 1744835594 + d.toNat * 2 ^ 19 + a.toNat * 2 ^ 14 + r.toNat * 2 ^ 8 + bitOf s * 2 ^ 7 = w := Option.some.inj hw
  have hw : w = digits [(10, 7), (bitOf s, 1), (r.toNat, 2), (5, 4), (a.toNat, 5), (d.toNat, 5), (104, 7), (0, 1)] := by
    simp only [digits, Nat.mod_eq_of_lt (d.isLt), Nat.mod_eq_of_lt (a.isLt), Nat.mod_eq_of_lt (r.isLt), Nat.mod_eq_of_lt (bitOf_lt s)]; omega
  have mj : bits w 24 7 = 104 := (bits_at hw 6 1 rfl rfl)
  have f0 : bits w 0 7 = 10 := (bits_at hw 0 1 rfl rfl)
  have f1 : bits w 8 2 = r.toNat := (bits_at hw 2 1 rfl rfl).trans (Nat.mod_eq_of_lt (r.isLt))
  have f2 : bits w 10 4 = 5 := (bits_at hw 3 1 rfl rfl)
  have f3 : bits w 14 5 = a.toNat := (bits_at hw 4 1 rfl rfl).trans (Nat.mod_eq_of_lt (a.isLt))
  have f4 : bits w 19 5 = d.toNat := (bits_at hw 5 1 rfl rfl).trans (Nat.mod_eq_of_lt (d.isLt))
  have f5 : bits w 31 1 = 0 := (bits_at hw 7 1 rfl rfl)
  have g6 : bits w 7 1 = bitOf s := (bits_at hw 1 1 rfl rfl).trans (Nat.mod_eq_of_lt (bitOf_lt s))
  have f6 : flag w 7 = s := flag_mod w 7 s g6
  apply decodeWord_of _ _ _ hwf
  rw [decodeRaw_A28 w mj]
  simp [decA28, f0, f1, f2, f3, f4, f5, f6]

theorem RoundTrip.vqblkSb4 (d : BitVec 5) (a : BitVec 5) (r : BitVec 2) (s : Bool) : RoundTrip.Statement (.vqblkSb4 d a r s) := by
  intro w hw hwf
  have enc : 1744836618 + d.toNat * 2 ^ 19 + a.toNat * 2 ^ 14 + r.toNat * 2 ^ 8 + bitOf s * 2 ^ 7 = w := Option.some.inj hw
  have hw : w = digits [(10, 7), (bitOf s, 1), (r.toNat, 2), (6, 4), (a.toNat, 5), (d.toNat, 5), (104, 7), (0, 1)] := by
    simp only [digits, Nat.mod_eq_of_lt (d.isLt), Nat.mod_eq_of_lt (a.isLt), Nat.mod_eq_of_lt (r.isLt), Nat.mod_eq_of_lt (bitOf_lt s)]; omega
  have mj : bits w 24 7 = 104 := (bits_at hw 6 1 rfl rfl)
  have f0 : bits w 0 7 = 10 := (bits_at hw 0 1 rfl rfl)
  have f1 : bits w 8 2 = r.toNat := (bits_at hw 2 1 rfl rfl).trans (Nat.mod_eq_of_lt (r.isLt))
  have f2 : bits w 10 4 = 6 := (bits_at hw 3 1 rfl rfl)
  have f3 : bits w 14 5 = a.toNat := (bits_at hw 4 1 rfl rfl).trans (Nat.mod_eq_of_lt (a.isLt))
  have f4 : bits w 19 5 = d.toNat := (bits_at hw 5 1 rfl rfl).trans (Nat.mod_eq_of_lt (d.isLt))
  have f5 : bits w 31 1 = 0 := (bits_at hw 7 1 rfl rfl)
  have g6 : bits w 7 1 = bitOf s := (bits_at hw 1 1 rfl rfl).trans (Nat.mod_eq_of_lt (bitOf_lt s))
  have f6 : flag w 7 = s := flag_mod w 7 s g6
  apply decodeWord_of _ _ _ hwf
  rw [decodeRaw_A28 w mj]
  simp [decA28, f0, f1, f2, f3, f4, f5, f6]

theorem RoundTrip.vdqblkSb8 (d : BitVec 5) (a : BitVec 5) : RoundTrip.Statement (.vdqblkSb8 d a) := by
  intro w hw hwf
  have enc : 1761617925 + d.toNat * 2 ^ 19 + a.toNat * 2 ^ 14 = w := Option.some.inj hw
  have hw : w = digits [(10245, 14), (a.toNat, 5), (d.toNat, 5), (105, 7), (0, 1)] := by
    simp only [digits, Nat.mod_eq_of_lt (d.isLt), Nat.mod_eq_of_lt (a.isLt)]; omega
  have mj : bits w 24 7 = 105 := (bits_at hw 3 1 rfl rfl)
  have f0 : bits w 0 14 = 10245 := (bits_at hw 0 1 rfl rfl)
  have f1 : bits w 14 5 = a.toNat := (bits_at hw 1 1 rfl rfl).trans (Nat.mod_eq_of_lt (a.isLt))
  have f2 : bits w 19 5 = d.toNat := (bits_at hw 2 1 rfl rfl).trans (Nat.mod_eq_of_lt (d.isLt))
  have f3 : bits w 31 1 = 0 := (bits_at hw 4 1 rfl rfl)
  apply decodeWord_of _ _ _ hwf
  rw [decodeRaw_A29 w mj]
  simp [decA29, f0, f1, f2, f3]

theorem RoundTrip.vdqblkSb4 (d : BitVec 5) (a : BitVec 5) : RoundTrip.Statement (.vdqblkSb4 d a) := by
  intro w hw hwf
  have enc : 1761617926 + d.toNat * 2 ^ 19 + a.toNat * 2 ^ 14 = w := Option.some.inj hw
  have hw : w = digits [(10246, 14), (a.toNat, 5), (d.toNat, 5), (105, 7), (0, 1)] := by
    simp only [digits, Nat.mod_eq_of_lt (d.isLt), Nat.mod_eq_of_lt (a.isLt)]; omega
  have mj : bits w 24 7 = 105 := (bits_at hw 3 1 rfl rfl)
  have f0 : bits w 0 14 = 10246 := (bits_at hw 0 1 rfl rfl)
  have f1 : bits w 14 5 = a.toNat := (bits_at hw 1 1 rfl rfl).trans (Nat.mod_eq_of_lt (a.isLt))
  have f2 : bits w 19 5 = d.toNat := (bits_at hw 2 1 rfl rfl).trans (Nat.mod_eq_of_lt (d.isLt))
  have f3 : bits w 31 1 = 0 := (bits_at hw 4 1 rfl rfl)
  apply decodeWord_of _ _ _ hwf
  rw [decodeRaw_A29 w mj]
  simp [decA29, f0, f1, f2, f3]

theorem RoundTrip.mand (d : BitVec 3) (a : BitVec 3) (b : BitVec 3) : RoundTrip.Statement (.mand d a b) := by
  intro w hw hwf
  have enc : 1778384896 + d.toNat * 2 ^ 19 + a.toNat * 2 ^ 14 + b.toNat * 2 ^ 9 = w := Option.some.inj hw
  have hw : w = digits [(0, 9), (b.toNat, 3), (0, 2), (a.toNat, 3), (0, 2), (d.toNat, 3), (0, 2), (106, 7), (0, 1)] := by
    simp only [digits, Nat.mod_eq_of_lt (d.isLt), Nat.mod_eq_of_lt (a.isLt), Nat.mod_eq_of_lt (b.isLt)]; omega
  have mj : bits w 24 7 = 106 := (bits_at hw 7 1 rfl rfl)
  have f0 : bits w 0 9 = 0 := (bits_at hw 0 1 rfl rfl)
  have f1 : bits w 9 3 = b.toNat := (bits_at hw 1 1 rfl rfl).trans (Nat.mod_eq_of_lt (b.isLt))
  have f2 : bits w 12 2 = 0 := (bits_at hw 2 1 rfl rfl)
  have f3 : bits w 14 3 = a.toNat := (bits_at hw 3 1 rfl rfl).trans (Nat.mod_eq_of_lt (a.isLt))
  have f4 : bits w 17 2 = 0 := (bits_at hw 4 1 rfl rfl)
  have f5 : bits w 19 3 = d.toNat := (bits_at hw 5 1 rfl rfl).trans (Nat.mod_eq_of_lt (d.isLt))
  have f6 : bits w 22 2 = 0 := (bits_at hw 6 1 rfl rfl)
  have f7 : bits w 31 1 = 0 := (bits_at hw 8 1 rfl rfl)
  apply decodeWord_of _ _ _ hwf
  rw [decodeRaw_A2A w mj]
  simp [decA2A, f0, f1, f2, f3, f4, f5, f6, f7]

theorem RoundTrip.mor (d : BitVec 3) (a : BitVec 3) (b : BitVec 3) : RoundTrip.Statement (.mor d a b) := by
  intro w hw hwf
  have enc : 1778384912 + d.toNat * 2 ^ 19 + a.toNat * 2 ^ 14 + b.toNat * 2 ^ 9 = w := Option.some.inj hw
  have hw : w = digits [(16, 9), (b.toNat, 3), (0, 2), (a.toNat, 3), (0, 2), (d.toNat, 3), (0, 2), (106, 7), (0, 1)] := by
    simp only [digits, Nat.mod_eq_of_lt (d.isLt), Nat.mod_eq_of_lt (a.isLt), Nat.mod_eq_of_lt (b.isLt)]; omega
  have mj : bits w 24 7 = 106 := (bits_at hw 7 1 rfl rfl)
  have f0 : bits w 0 9 = 16 := (bits_at hw 0 1 rfl rfl)
  have f1 : bits w 9 3 = b.toNat := (bits_at hw 1 1 rfl rfl).trans (Nat.mod_eq_of_lt (b.isLt))
  have f2 : bits w 12 2 = 0 := (bits_at hw 2 1 rfl rfl)
  have f3 : bits w 14 3 = a.toNat := (bits_at hw 3 1 rfl rfl).trans (Nat.mod_eq_of_lt (a.isLt))
  have f4 : bits w 17 2 = 0 := (bits_at hw 4 1 rfl rfl)
  have f5 : bits w 19 3 = d.toNat := (bits_at hw 5 1 rfl rfl).trans (Nat.mod_eq_of_lt (d.isLt))
  have f6 : bits w 22 2 = 0 := (bits_at hw 6 1 rfl rfl)
  have f7 : bits w 31 1 = 0 := (bits_at hw 8 1 rfl rfl)
  apply decodeWord_of _ _ _ hwf
  rw [decodeRaw_A2A w mj]
  simp [decA2A, f0, f1, f2, f3, f4, f5, f6, f7]

theorem RoundTrip.mxor (d : BitVec 3) (a : BitVec 3) (b : BitVec 3) : RoundTrip.Statement (.mxor d a b) := by
  intro w hw hwf
  have enc : 1778384928 + d.toNat * 2 ^ 19 + a.toNat * 2 ^ 14 + b.toNat * 2 ^ 9 = w := Option.some.inj hw
  have hw : w = digits [(32, 9), (b.toNat, 3), (0, 2), (a.toNat, 3), (0, 2), (d.toNat, 3), (0, 2), (106, 7), (0, 1)] := by
    simp only [digits, Nat.mod_eq_of_lt (d.isLt), Nat.mod_eq_of_lt (a.isLt), Nat.mod_eq_of_lt (b.isLt)]; omega
  have mj : bits w 24 7 = 106 := (bits_at hw 7 1 rfl rfl)
  have f0 : bits w 0 9 = 32 := (bits_at hw 0 1 rfl rfl)
  have f1 : bits w 9 3 = b.toNat := (bits_at hw 1 1 rfl rfl).trans (Nat.mod_eq_of_lt (b.isLt))
  have f2 : bits w 12 2 = 0 := (bits_at hw 2 1 rfl rfl)
  have f3 : bits w 14 3 = a.toNat := (bits_at hw 3 1 rfl rfl).trans (Nat.mod_eq_of_lt (a.isLt))
  have f4 : bits w 17 2 = 0 := (bits_at hw 4 1 rfl rfl)
  have f5 : bits w 19 3 = d.toNat := (bits_at hw 5 1 rfl rfl).trans (Nat.mod_eq_of_lt (d.isLt))
  have f6 : bits w 22 2 = 0 := (bits_at hw 6 1 rfl rfl)
  have f7 : bits w 31 1 = 0 := (bits_at hw 8 1 rfl rfl)
  apply decodeWord_of _ _ _ hwf
  rw [decodeRaw_A2A w mj]
  simp [decA2A, f0, f1, f2, f3, f4, f5, f6, f7]

theorem RoundTrip.mandn (d : BitVec 3) (a : BitVec 3) (b : BitVec 3) : RoundTrip.Statement (.mandn d a b) := by
  intro w hw hwf
  have enc : 1778384944 + d.toNat * 2 ^ 19 + a.toNat * 2 ^ 14 + b.toNat * 2 ^ 9 = w := Option.some.inj hw
  have hw : w = digits [(48, 9), (b.toNat, 3), (0, 2), (a.toNat, 3), (0, 2), (d.toNat, 3), (0, 2), (106, 7), (0, 1)] := by
    simp only [digits, Nat.mod_eq_of_lt (d.isLt), Nat.mod_eq_of_lt (a.isLt), Nat.mod_eq_of_lt (b.isLt)]; omega
  have mj : bits w 24 7 = 106 := (bits_at hw 7 1 rfl rfl)
  have f0 : bits w 0 9 = 48 := (bits_at hw 0 1 rfl rfl)
  have f1 : bits w 9 3 = b.toNat := (bits_at hw 1 1 rfl rfl).trans (Nat.mod_eq_of_lt (b.isLt))
  have f2 : bits w 12 2 = 0 := (bits_at hw 2 1 rfl rfl)
  have f3 : bits w 14 3 = a.toNat := (bits_at hw 3 1 rfl rfl).trans (Nat.mod_eq_of_lt (a.isLt))
  have f4 : bits w 17 2 = 0 := (bits_at hw 4 1 rfl rfl)
  have f5 : bits w 19 3 = d.toNat := (bits_at hw 5 1 rfl rfl).trans (Nat.mod_eq_of_lt (d.isLt))
  have f6 : bits w 22 2 = 0 := (bits_at hw 6 1 rfl rfl)
  have f7 : bits w 31 1 = 0 := (bits_at hw 8 1 rfl rfl)
  apply decodeWord_of _ _ _ hwf
  rw [decodeRaw_A2A w mj]
  simp [decA2A, f0, f1, f2, f3, f4, f5, f6, f7]

theorem RoundTrip.mtog (d : BitVec 5) (a : BitVec 3) : RoundTrip.Statement (.mtog d a) := by
  intro w hw hwf
  have enc : 1795162112 + d.toNat * 2 ^ 19 + a.toNat * 2 ^ 14 = w := Option.some.inj hw
  have hw : w = digits [(0, 14), (a.toNat, 3), (0, 2), (d.toNat, 5), (107, 7), (0, 1)] := by
    simp only [digits, Nat.mod_eq_of_lt (d.isLt), Nat.mod_eq_of_lt (a.isLt)]; omega
  have mj : bits w 24 7 = 107 := (bits_at hw 4 1 rfl rfl)
  have f0 : bits w 0 14 = 0 := (bits_at hw 0 1 rfl rfl)
  have f1 : bits w 14 3 = a.toNat := (bits_at hw 1 1 rfl rfl).trans (Nat.mod_eq_of_lt (a.isLt))
  have f2 : bits w 17 2 = 0 := (bits_at hw 2 1 rfl rfl)
  have f3 : bits w 19 5 = d.toNat := (bits_at hw 3 1 rfl rfl).trans (Nat.mod_eq_of_lt (d.isLt))
  have f4 : bits w 31 1 = 0 := (bits_at hw 5 1 rfl rfl)
  apply decodeWord_of _ _ _ hwf
  rw [decodeRaw_A2B w mj]
  simp [decA2B, f0, f1, f2, f3, f4]

theorem RoundTrip.gtom (d : BitVec 3) (a : BitVec 5) : RoundTrip.Statement (.gtom d a) := by
  intro w hw hwf
  have enc : 1795162128 + d.toNat * 2 ^ 19 + a.toNat * 2 ^ 14 = w := Option.some.inj hw
  have hw : w = digits [(16, 14), (a.toNat, 5), (d.toNat, 3), (0, 2), (107, 7), (0, 1)] := by
    simp only [digits, Nat.mod_eq_of_lt (d.isLt), Nat.mod_eq_of_lt (a.isLt)]; omega
  have mj : bits w 24 7 = 107 := (bits_at hw 4 1 rfl rfl)
  have f0 : bits w 0 14 = 16 := (bits_at hw 0 1 rfl rfl)
  have f1 : bits w 14 5 = a.toNat := (bits_at hw 1 1 rfl rfl).trans (Nat.mod_eq_of_lt (a.isLt))
  have f2 : bits w 19 3 = d.toNat := (bits_at hw 2 1 rfl rfl).trans (Nat.mod_eq_of_lt (d.isLt))
  have f3 : bits w 22 2 = 0 := (bits_at hw 3 1 rfl rfl)
  have f4 : bits w 31 1 = 0 := (bits_at hw 5 1 rfl rfl)
  apply decodeWord_of _ _ _ hwf
  rw [decodeRaw_A2B w mj]
  simp [decA2B, f0, f1, f2, f3, f4]

theorem RoundTrip.mpopc (d : BitVec 5) (a : BitVec 3) (t : Ty) : RoundTrip.Statement (.mpopc d a t) := by
  intro w hw hwf
  have enc : 1795162144 + d.toNat * 2 ^ 19 + a.toNat * 2 ^ 14 + t.code * 2 ^ 0 = w := Option.some.inj hw
  have hw : w = digits [(t.code, 4), (2, 10), (a.toNat, 3), (0, 2), (d.toNat, 5), (107, 7), (0, 1)] := by
    simp only [digits, Nat.mod_eq_of_lt (d.isLt), Nat.mod_eq_of_lt (a.isLt), Nat.mod_eq_of_lt (Ty.code_lt t)]; omega
  have mj : bits w 24 7 = 107 := (bits_at hw 5 1 rfl rfl)
  have f0 : bits w 0 4 = t.code := (bits_at hw 0 1 rfl rfl).trans (Nat.mod_eq_of_lt (Ty.code_lt t))
  have f1 : ¬ bits w 0 14 = 0 := by
    have := d.isLt
    have := a.isLt
    have := Ty.code_lt t
    unfold bits; omega
  have f2 : ¬ bits w 0 14 = 16 := by
    have := d.isLt
    have := a.isLt
    have := Ty.code_lt t
    unfold bits; omega
  have f3 : bits w 4 10 = 2 := (bits_at hw 1 1 rfl rfl)
  have f4 : bits w 14 3 = a.toNat := (bits_at hw 2 1 rfl rfl).trans (Nat.mod_eq_of_lt (a.isLt))
  have f5 : bits w 17 2 = 0 := (bits_at hw 3 1 rfl rfl)
  have f6 : bits w 19 5 = d.toNat := (bits_at hw 4 1 rfl rfl).trans (Nat.mod_eq_of_lt (d.isLt))
  have f7 : bits w 31 1 = 0 := (bits_at hw 6 1 rfl rfl)
  apply decodeWord_of _ _ _ hwf
  rw [decodeRaw_A2B w mj]
  simp [decA2B, f0, f1, f2, f3, f4, f5, f6, f7, Ty.ofCode_code]

theorem RoundTrip.mfirst (d : BitVec 5) (a : BitVec 3) (t : Ty) : RoundTrip.Statement (.mfirst d a t) := by
  intro w hw hwf
  have enc : 1795162160 + d.toNat * 2 ^ 19 + a.toNat * 2 ^ 14 + t.code * 2 ^ 0 = w := Option.some.inj hw
  have hw : w = digits [(t.code, 4), (3, 10), (a.toNat, 3), (0, 2), (d.toNat, 5), (107, 7), (0, 1)] := by
    simp only [digits, Nat.mod_eq_of_lt (d.isLt), Nat.mod_eq_of_lt (a.isLt), Nat.mod_eq_of_lt (Ty.code_lt t)]; omega
  have mj : bits w 24 7 = 107 := (bits_at hw 5 1 rfl rfl)
  have f0 : bits w 0 4 = t.code := (bits_at hw 0 1 rfl rfl).trans (Nat.mod_eq_of_lt (Ty.code_lt t))
  have f1 : ¬ bits w 0 14 = 0 := by
    have := d.isLt
    have := a.isLt
    have := Ty.code_lt t
    unfold bits; omega
  have f2 : ¬ bits w 0 14 = 16 := by
    have := d.isLt
    have := a.isLt
    have := Ty.code_lt t
    unfold bits; omega
  have f3 : bits w 4 10 = 3 := (bits_at hw 1 1 rfl rfl)
  have f4 : bits w 14 3 = a.toNat := (bits_at hw 2 1 rfl rfl).trans (Nat.mod_eq_of_lt (a.isLt))
  have f5 : bits w 17 2 = 0 := (bits_at hw 3 1 rfl rfl)
  have f6 : bits w 19 5 = d.toNat := (bits_at hw 4 1 rfl rfl).trans (Nat.mod_eq_of_lt (d.isLt))
  have f7 : bits w 31 1 = 0 := (bits_at hw 6 1 rfl rfl)
  apply decodeWord_of _ _ _ hwf
  rw [decodeRaw_A2B w mj]
  simp [decA2B, f0, f1, f2, f3, f4, f5, f6, f7, Ty.ofCode_code]

theorem RoundTrip.viota (d : BitVec 5) (m : BitVec 3) (t : Ty) : RoundTrip.Statement (.viota d m t) := by
  intro w hw hwf
  have enc : 1811939328 + d.toNat * 2 ^ 19 + m.toNat * 2 ^ 6 + t.code * 2 ^ 0 = w := Option.some.inj hw
  have hw : w = digits [(t.code, 4), (0, 2), (m.toNat, 3), (0, 10), (d.toNat, 5), (108, 7), (0, 1)] := by
    simp only [digits, Nat.mod_eq_of_lt (d.isLt), Nat.mod_eq_of_lt (m.isLt), Nat.mod_eq_of_lt (Ty.code_lt t)]; omega
  have mj : bits w 24 7 = 108 := (bits_at hw 5 1 rfl rfl)
  have f0 : bits w 0 4 = t.code := (bits_at hw 0 1 rfl rfl).trans (Nat.mod_eq_of_lt (Ty.code_lt t))
  have f1 : bits w 4 2 = 0 := (bits_at hw 1 1 rfl rfl)
  have f2 : bits w 6 3 = m.toNat := (bits_at hw 2 1 rfl rfl).trans (Nat.mod_eq_of_lt (m.isLt))
  have f3 : bits w 9 10 = 0 := (bits_at hw 3 1 rfl rfl)
  have f4 : bits w 19 5 = d.toNat := (bits_at hw 4 1 rfl rfl).trans (Nat.mod_eq_of_lt (d.isLt))
  have f5 : bits w 31 1 = 0 := (bits_at hw 6 1 rfl rfl)
  apply decodeWord_of _ _ _ hwf
  rw [decodeRaw_A2C w mj]
  simp [decA2C, f0, f1, f2, f3, f4, f5, Ty.ofCode_code]

theorem RoundTrip.vaddF64 (d : BitVec 5) (a : BitVec 5) (b : BitVec 5) (m : BitVec 3) : RoundTrip.Statement (.vaddF64 d a b m) := by
  intro w hw hwf
  have enc : 2013265931 + d.toNat * 2 ^ 19 + a.toNat * 2 ^ 14 + b.toNat * 2 ^ 9 + m.toNat * 2 ^ 6 = w := Option.some.inj hw
  have hw : w = digits [(11, 6), (m.toNat, 3), (b.toNat, 5), (a.toNat, 5), (d.toNat, 5), (120, 7), (0, 1)] := by
    simp only [digits, Nat.mod_eq_of_lt (d.isLt), Nat.mod_eq_of_lt (a.isLt), Nat.mod_eq_of_lt (b.isLt), Nat.mod_eq_of_lt (m.isLt)]; omega
  have mj : bits w 24 7 = 120 := (bits_at hw 5 1 rfl rfl)
  have f0 : bits w 0 6 = 11 := (bits_at hw 0 1 rfl rfl)
  have f1 : bits w 6 3 = m.toNat := (bits_at hw 1 1 rfl rfl).trans (Nat.mod_eq_of_lt (m.isLt))
  have f2 : bits w 9 5 = b.toNat := (bits_at hw 2 1 rfl rfl).trans (Nat.mod_eq_of_lt (b.isLt))
  have f3 : bits w 14 5 = a.toNat := (bits_at hw 3 1 rfl rfl).trans (Nat.mod_eq_of_lt (a.isLt))
  have f4 : bits w 19 5 = d.toNat := (bits_at hw 4 1 rfl rfl).trans (Nat.mod_eq_of_lt (d.isLt))
  have f5 : bits w 31 1 = 0 := (bits_at hw 6 1 rfl rfl)
  apply decodeWord_of _ _ _ hwf
  rw [decodeRaw_A38 w mj]
  simp [decA38, f0, f1, f2, f3, f4, f5]

theorem RoundTrip.vsubF64 (d : BitVec 5) (a : BitVec 5) (b : BitVec 5) (m : BitVec 3) : RoundTrip.Statement (.vsubF64 d a b m) := by
  intro w hw hwf
  have enc : 2013265947 + d.toNat * 2 ^ 19 + a.toNat * 2 ^ 14 + b.toNat * 2 ^ 9 + m.toNat * 2 ^ 6 = w := Option.some.inj hw
  have hw : w = digits [(27, 6), (m.toNat, 3), (b.toNat, 5), (a.toNat, 5), (d.toNat, 5), (120, 7), (0, 1)] := by
    simp only [digits, Nat.mod_eq_of_lt (d.isLt), Nat.mod_eq_of_lt (a.isLt), Nat.mod_eq_of_lt (b.isLt), Nat.mod_eq_of_lt (m.isLt)]; omega
  have mj : bits w 24 7 = 120 := (bits_at hw 5 1 rfl rfl)
  have f0 : bits w 0 6 = 27 := (bits_at hw 0 1 rfl rfl)
  have f1 : bits w 6 3 = m.toNat := (bits_at hw 1 1 rfl rfl).trans (Nat.mod_eq_of_lt (m.isLt))
  have f2 : bits w 9 5 = b.toNat := (bits_at hw 2 1 rfl rfl).trans (Nat.mod_eq_of_lt (b.isLt))
  have f3 : bits w 14 5 = a.toNat := (bits_at hw 3 1 rfl rfl).trans (Nat.mod_eq_of_lt (a.isLt))
  have f4 : bits w 19 5 = d.toNat := (bits_at hw 4 1 rfl rfl).trans (Nat.mod_eq_of_lt (d.isLt))
  have f5 : bits w 31 1 = 0 := (bits_at hw 6 1 rfl rfl)
  apply decodeWord_of _ _ _ hwf
  rw [decodeRaw_A38 w mj]
  simp [decA38, f0, f1, f2, f3, f4, f5]

theorem RoundTrip.vmulF64 (d : BitVec 5) (a : BitVec 5) (b : BitVec 5) (m : BitVec 3) : RoundTrip.Statement (.vmulF64 d a b m) := by
  intro w hw hwf
  have enc : 2013265963 + d.toNat * 2 ^ 19 + a.toNat * 2 ^ 14 + b.toNat * 2 ^ 9 + m.toNat * 2 ^ 6 = w := Option.some.inj hw
  have hw : w = digits [(43, 6), (m.toNat, 3), (b.toNat, 5), (a.toNat, 5), (d.toNat, 5), (120, 7), (0, 1)] := by
    simp only [digits, Nat.mod_eq_of_lt (d.isLt), Nat.mod_eq_of_lt (a.isLt), Nat.mod_eq_of_lt (b.isLt), Nat.mod_eq_of_lt (m.isLt)]; omega
  have mj : bits w 24 7 = 120 := (bits_at hw 5 1 rfl rfl)
  have f0 : bits w 0 6 = 43 := (bits_at hw 0 1 rfl rfl)
  have f1 : bits w 6 3 = m.toNat := (bits_at hw 1 1 rfl rfl).trans (Nat.mod_eq_of_lt (m.isLt))
  have f2 : bits w 9 5 = b.toNat := (bits_at hw 2 1 rfl rfl).trans (Nat.mod_eq_of_lt (b.isLt))
  have f3 : bits w 14 5 = a.toNat := (bits_at hw 3 1 rfl rfl).trans (Nat.mod_eq_of_lt (a.isLt))
  have f4 : bits w 19 5 = d.toNat := (bits_at hw 4 1 rfl rfl).trans (Nat.mod_eq_of_lt (d.isLt))
  have f5 : bits w 31 1 = 0 := (bits_at hw 6 1 rfl rfl)
  apply decodeWord_of _ _ _ hwf
  rw [decodeRaw_A38 w mj]
  simp [decA38, f0, f1, f2, f3, f4, f5]

theorem RoundTrip.vdivF64 (d : BitVec 5) (a : BitVec 5) (b : BitVec 5) (m : BitVec 3) : RoundTrip.Statement (.vdivF64 d a b m) := by
  intro w hw hwf
  have enc : 2013265979 + d.toNat * 2 ^ 19 + a.toNat * 2 ^ 14 + b.toNat * 2 ^ 9 + m.toNat * 2 ^ 6 = w := Option.some.inj hw
  have hw : w = digits [(59, 6), (m.toNat, 3), (b.toNat, 5), (a.toNat, 5), (d.toNat, 5), (120, 7), (0, 1)] := by
    simp only [digits, Nat.mod_eq_of_lt (d.isLt), Nat.mod_eq_of_lt (a.isLt), Nat.mod_eq_of_lt (b.isLt), Nat.mod_eq_of_lt (m.isLt)]; omega
  have mj : bits w 24 7 = 120 := (bits_at hw 5 1 rfl rfl)
  have f0 : bits w 0 6 = 59 := (bits_at hw 0 1 rfl rfl)
  have f1 : bits w 6 3 = m.toNat := (bits_at hw 1 1 rfl rfl).trans (Nat.mod_eq_of_lt (m.isLt))
  have f2 : bits w 9 5 = b.toNat := (bits_at hw 2 1 rfl rfl).trans (Nat.mod_eq_of_lt (b.isLt))
  have f3 : bits w 14 5 = a.toNat := (bits_at hw 3 1 rfl rfl).trans (Nat.mod_eq_of_lt (a.isLt))
  have f4 : bits w 19 5 = d.toNat := (bits_at hw 4 1 rfl rfl).trans (Nat.mod_eq_of_lt (d.isLt))
  have f5 : bits w 31 1 = 0 := (bits_at hw 6 1 rfl rfl)
  apply decodeWord_of _ _ _ hwf
  rw [decodeRaw_A38 w mj]
  simp [decA38, f0, f1, f2, f3, f4, f5]

theorem RoundTrip.vfmaF64 (d : BitVec 5) (a : BitVec 5) (b : BitVec 5) (m : BitVec 3) : RoundTrip.Statement (.vfmaF64 d a b m) := by
  intro w hw hwf
  have enc : 2030043147 + d.toNat * 2 ^ 19 + a.toNat * 2 ^ 14 + b.toNat * 2 ^ 9 + m.toNat * 2 ^ 6 = w := Option.some.inj hw
  have hw : w = digits [(11, 6), (m.toNat, 3), (b.toNat, 5), (a.toNat, 5), (d.toNat, 5), (121, 7), (0, 1)] := by
    simp only [digits, Nat.mod_eq_of_lt (d.isLt), Nat.mod_eq_of_lt (a.isLt), Nat.mod_eq_of_lt (b.isLt), Nat.mod_eq_of_lt (m.isLt)]; omega
  have mj : bits w 24 7 = 121 := (bits_at hw 5 1 rfl rfl)
  have f0 : bits w 0 6 = 11 := (bits_at hw 0 1 rfl rfl)
  have f1 : bits w 6 3 = m.toNat := (bits_at hw 1 1 rfl rfl).trans (Nat.mod_eq_of_lt (m.isLt))
  have f2 : bits w 9 5 = b.toNat := (bits_at hw 2 1 rfl rfl).trans (Nat.mod_eq_of_lt (b.isLt))
  have f3 : bits w 14 5 = a.toNat := (bits_at hw 3 1 rfl rfl).trans (Nat.mod_eq_of_lt (a.isLt))
  have f4 : bits w 19 5 = d.toNat := (bits_at hw 4 1 rfl rfl).trans (Nat.mod_eq_of_lt (d.isLt))
  have f5 : bits w 31 1 = 0 := (bits_at hw 6 1 rfl rfl)
  apply decodeWord_of _ _ _ hwf
  rw [decodeRaw_A39 w mj]
  simp [decA39, f0, f1, f2, f3, f4, f5]

theorem RoundTrip.vfmsF64 (d : BitVec 5) (a : BitVec 5) (b : BitVec 5) (m : BitVec 3) : RoundTrip.Statement (.vfmsF64 d a b m) := by
  intro w hw hwf
  have enc : 2030043163 + d.toNat * 2 ^ 19 + a.toNat * 2 ^ 14 + b.toNat * 2 ^ 9 + m.toNat * 2 ^ 6 = w := Option.some.inj hw
  have hw : w = digits [(27, 6), (m.toNat, 3), (b.toNat, 5), (a.toNat, 5), (d.toNat, 5), (121, 7), (0, 1)] := by
    simp only [digits, Nat.mod_eq_of_lt (d.isLt), Nat.mod_eq_of_lt (a.isLt), Nat.mod_eq_of_lt (b.isLt), Nat.mod_eq_of_lt (m.isLt)]; omega
  have mj : bits w 24 7 = 121 := (bits_at hw 5 1 rfl rfl)
  have f0 : bits w 0 6 = 27 := (bits_at hw 0 1 rfl rfl)
  have f1 : bits w 6 3 = m.toNat := (bits_at hw 1 1 rfl rfl).trans (Nat.mod_eq_of_lt (m.isLt))
  have f2 : bits w 9 5 = b.toNat := (bits_at hw 2 1 rfl rfl).trans (Nat.mod_eq_of_lt (b.isLt))
  have f3 : bits w 14 5 = a.toNat := (bits_at hw 3 1 rfl rfl).trans (Nat.mod_eq_of_lt (a.isLt))
  have f4 : bits w 19 5 = d.toNat := (bits_at hw 4 1 rfl rfl).trans (Nat.mod_eq_of_lt (d.isLt))
  have f5 : bits w 31 1 = 0 := (bits_at hw 6 1 rfl rfl)
  apply decodeWord_of _ _ _ hwf
  rw [decodeRaw_A39 w mj]
  simp [decA39, f0, f1, f2, f3, f4, f5]

theorem RoundTrip.vfnmaF64 (d : BitVec 5) (a : BitVec 5) (b : BitVec 5) (m : BitVec 3) : RoundTrip.Statement (.vfnmaF64 d a b m) := by
  intro w hw hwf
  have enc : 2030043179 + d.toNat * 2 ^ 19 + a.toNat * 2 ^ 14 + b.toNat * 2 ^ 9 + m.toNat * 2 ^ 6 = w := Option.some.inj hw
  have hw : w = digits [(43, 6), (m.toNat, 3), (b.toNat, 5), (a.toNat, 5), (d.toNat, 5), (121, 7), (0, 1)] := by
    simp only [digits, Nat.mod_eq_of_lt (d.isLt), Nat.mod_eq_of_lt (a.isLt), Nat.mod_eq_of_lt (b.isLt), Nat.mod_eq_of_lt (m.isLt)]; omega
  have mj : bits w 24 7 = 121 := (bits_at hw 5 1 rfl rfl)
  have f0 : bits w 0 6 = 43 := (bits_at hw 0 1 rfl rfl)
  have f1 : bits w 6 3 = m.toNat := (bits_at hw 1 1 rfl rfl).trans (Nat.mod_eq_of_lt (m.isLt))
  have f2 : bits w 9 5 = b.toNat := (bits_at hw 2 1 rfl rfl).trans (Nat.mod_eq_of_lt (b.isLt))
  have f3 : bits w 14 5 = a.toNat := (bits_at hw 3 1 rfl rfl).trans (Nat.mod_eq_of_lt (a.isLt))
  have f4 : bits w 19 5 = d.toNat := (bits_at hw 4 1 rfl rfl).trans (Nat.mod_eq_of_lt (d.isLt))
  have f5 : bits w 31 1 = 0 := (bits_at hw 6 1 rfl rfl)
  apply decodeWord_of _ _ _ hwf
  rw [decodeRaw_A39 w mj]
  simp [decA39, f0, f1, f2, f3, f4, f5]

theorem RoundTrip.vfnmsF64 (d : BitVec 5) (a : BitVec 5) (b : BitVec 5) (m : BitVec 3) : RoundTrip.Statement (.vfnmsF64 d a b m) := by
  intro w hw hwf
  have enc : 2030043195 + d.toNat * 2 ^ 19 + a.toNat * 2 ^ 14 + b.toNat * 2 ^ 9 + m.toNat * 2 ^ 6 = w := Option.some.inj hw
  have hw : w = digits [(59, 6), (m.toNat, 3), (b.toNat, 5), (a.toNat, 5), (d.toNat, 5), (121, 7), (0, 1)] := by
    simp only [digits, Nat.mod_eq_of_lt (d.isLt), Nat.mod_eq_of_lt (a.isLt), Nat.mod_eq_of_lt (b.isLt), Nat.mod_eq_of_lt (m.isLt)]; omega
  have mj : bits w 24 7 = 121 := (bits_at hw 5 1 rfl rfl)
  have f0 : bits w 0 6 = 59 := (bits_at hw 0 1 rfl rfl)
  have f1 : bits w 6 3 = m.toNat := (bits_at hw 1 1 rfl rfl).trans (Nat.mod_eq_of_lt (m.isLt))
  have f2 : bits w 9 5 = b.toNat := (bits_at hw 2 1 rfl rfl).trans (Nat.mod_eq_of_lt (b.isLt))
  have f3 : bits w 14 5 = a.toNat := (bits_at hw 3 1 rfl rfl).trans (Nat.mod_eq_of_lt (a.isLt))
  have f4 : bits w 19 5 = d.toNat := (bits_at hw 4 1 rfl rfl).trans (Nat.mod_eq_of_lt (d.isLt))
  have f5 : bits w 31 1 = 0 := (bits_at hw 6 1 rfl rfl)
  apply decodeWord_of _ _ _ hwf
  rw [decodeRaw_A39 w mj]
  simp [decA39, f0, f1, f2, f3, f4, f5]

theorem RoundTrip.vminF64 (d : BitVec 5) (a : BitVec 5) (b : BitVec 5) (m : BitVec 3) : RoundTrip.Statement (.vminF64 d a b m) := by
  intro w hw hwf
  have enc : 2046820363 + d.toNat * 2 ^ 19 + a.toNat * 2 ^ 14 + b.toNat * 2 ^ 9 + m.toNat * 2 ^ 6 = w := Option.some.inj hw
  have hw : w = digits [(11, 6), (m.toNat, 3), (b.toNat, 5), (a.toNat, 5), (d.toNat, 5), (122, 7), (0, 1)] := by
    simp only [digits, Nat.mod_eq_of_lt (d.isLt), Nat.mod_eq_of_lt (a.isLt), Nat.mod_eq_of_lt (b.isLt), Nat.mod_eq_of_lt (m.isLt)]; omega
  have mj : bits w 24 7 = 122 := (bits_at hw 5 1 rfl rfl)
  have f0 : bits w 0 6 = 11 := (bits_at hw 0 1 rfl rfl)
  have f1 : bits w 6 3 = m.toNat := (bits_at hw 1 1 rfl rfl).trans (Nat.mod_eq_of_lt (m.isLt))
  have f2 : bits w 9 5 = b.toNat := (bits_at hw 2 1 rfl rfl).trans (Nat.mod_eq_of_lt (b.isLt))
  have f3 : bits w 14 5 = a.toNat := (bits_at hw 3 1 rfl rfl).trans (Nat.mod_eq_of_lt (a.isLt))
  have f4 : bits w 19 5 = d.toNat := (bits_at hw 4 1 rfl rfl).trans (Nat.mod_eq_of_lt (d.isLt))
  have f5 : bits w 31 1 = 0 := (bits_at hw 6 1 rfl rfl)
  apply decodeWord_of _ _ _ hwf
  rw [decodeRaw_A3A w mj]
  simp [decA3A, f0, f1, f2, f3, f4, f5]

theorem RoundTrip.vmaxF64 (d : BitVec 5) (a : BitVec 5) (b : BitVec 5) (m : BitVec 3) : RoundTrip.Statement (.vmaxF64 d a b m) := by
  intro w hw hwf
  have enc : 2046820379 + d.toNat * 2 ^ 19 + a.toNat * 2 ^ 14 + b.toNat * 2 ^ 9 + m.toNat * 2 ^ 6 = w := Option.some.inj hw
  have hw : w = digits [(27, 6), (m.toNat, 3), (b.toNat, 5), (a.toNat, 5), (d.toNat, 5), (122, 7), (0, 1)] := by
    simp only [digits, Nat.mod_eq_of_lt (d.isLt), Nat.mod_eq_of_lt (a.isLt), Nat.mod_eq_of_lt (b.isLt), Nat.mod_eq_of_lt (m.isLt)]; omega
  have mj : bits w 24 7 = 122 := (bits_at hw 5 1 rfl rfl)
  have f0 : bits w 0 6 = 27 := (bits_at hw 0 1 rfl rfl)
  have f1 : bits w 6 3 = m.toNat := (bits_at hw 1 1 rfl rfl).trans (Nat.mod_eq_of_lt (m.isLt))
  have f2 : bits w 9 5 = b.toNat := (bits_at hw 2 1 rfl rfl).trans (Nat.mod_eq_of_lt (b.isLt))
  have f3 : bits w 14 5 = a.toNat := (bits_at hw 3 1 rfl rfl).trans (Nat.mod_eq_of_lt (a.isLt))
  have f4 : bits w 19 5 = d.toNat := (bits_at hw 4 1 rfl rfl).trans (Nat.mod_eq_of_lt (d.isLt))
  have f5 : bits w 31 1 = 0 := (bits_at hw 6 1 rfl rfl)
  apply decodeWord_of _ _ _ hwf
  rw [decodeRaw_A3A w mj]
  simp [decA3A, f0, f1, f2, f3, f4, f5]

theorem RoundTrip.vsqrtF64 (d : BitVec 5) (a : BitVec 5) (m : BitVec 3) : RoundTrip.Statement (.vsqrtF64 d a m) := by
  intro w hw hwf
  have enc : 2046820395 + d.toNat * 2 ^ 19 + a.toNat * 2 ^ 14 + m.toNat * 2 ^ 6 = w := Option.some.inj hw
  have hw : w = digits [(43, 6), (m.toNat, 3), (0, 5), (a.toNat, 5), (d.toNat, 5), (122, 7), (0, 1)] := by
    simp only [digits, Nat.mod_eq_of_lt (d.isLt), Nat.mod_eq_of_lt (a.isLt), Nat.mod_eq_of_lt (m.isLt)]; omega
  have mj : bits w 24 7 = 122 := (bits_at hw 5 1 rfl rfl)
  have f0 : bits w 0 6 = 43 := (bits_at hw 0 1 rfl rfl)
  have f1 : bits w 6 3 = m.toNat := (bits_at hw 1 1 rfl rfl).trans (Nat.mod_eq_of_lt (m.isLt))
  have f2 : bits w 9 5 = 0 := (bits_at hw 2 1 rfl rfl)
  have f3 : bits w 14 5 = a.toNat := (bits_at hw 3 1 rfl rfl).trans (Nat.mod_eq_of_lt (a.isLt))
  have f4 : bits w 19 5 = d.toNat := (bits_at hw 4 1 rfl rfl).trans (Nat.mod_eq_of_lt (d.isLt))
  have f5 : bits w 31 1 = 0 := (bits_at hw 6 1 rfl rfl)
  apply decodeWord_of _ _ _ hwf
  rw [decodeRaw_A3A w mj]
  simp [decA3A, f0, f1, f2, f3, f4, f5]

theorem RoundTrip.vrsumF64 (d : BitVec 5) (a : BitVec 5) (m : BitVec 3) : RoundTrip.Statement (.vrsumF64 d a m) := by
  intro w hw hwf
  have enc : 2046820411 + d.toNat * 2 ^ 19 + a.toNat * 2 ^ 14 + m.toNat * 2 ^ 6 = w := Option.some.inj hw
  have hw : w = digits [(59, 6), (m.toNat, 3), (0, 5), (a.toNat, 5), (d.toNat, 5), (122, 7), (0, 1)] := by
    simp only [digits, Nat.mod_eq_of_lt (d.isLt), Nat.mod_eq_of_lt (a.isLt), Nat.mod_eq_of_lt (m.isLt)]; omega
  have mj : bits w 24 7 = 122 := (bits_at hw 5 1 rfl rfl)
  have f0 : bits w 0 6 = 59 := (bits_at hw 0 1 rfl rfl)
  have f1 : bits w 6 3 = m.toNat := (bits_at hw 1 1 rfl rfl).trans (Nat.mod_eq_of_lt (m.isLt))
  have f2 : bits w 9 5 = 0 := (bits_at hw 2 1 rfl rfl)
  have f3 : bits w 14 5 = a.toNat := (bits_at hw 3 1 rfl rfl).trans (Nat.mod_eq_of_lt (a.isLt))
  have f4 : bits w 19 5 = d.toNat := (bits_at hw 4 1 rfl rfl).trans (Nat.mod_eq_of_lt (d.isLt))
  have f5 : bits w 31 1 = 0 := (bits_at hw 6 1 rfl rfl)
  apply decodeWord_of _ _ _ hwf
  rw [decodeRaw_A3A w mj]
  simp [decA3A, f0, f1, f2, f3, f4, f5]

theorem RoundTrip.vcvtF64 (d : BitVec 5) (a : BitVec 5) (t : Ty) (r : BitVec 2) (s : Bool) (h : Bool) (m : BitVec 2) (u : Ty) : RoundTrip.Statement (.vcvtF64 d a t r s h m u) := by
  intro w hw hwf
  have enc : 2063597568 + d.toNat * 2 ^ 19 + a.toNat * 2 ^ 14 + t.code * 2 ^ 10 + r.toNat * 2 ^ 8 + bitOf s * 2 ^ 7 + bitOf h * 2 ^ 6 + m.toNat * 2 ^ 4 + u.code * 2 ^ 0 = w := Option.some.inj hw
  have hw : w = digits [(u.code, 4), (m.toNat, 2), (bitOf h, 1), (bitOf s, 1), (r.toNat, 2), (t.code, 4), (a.toNat, 5), (d.toNat, 5), (123, 7), (0, 1)] := by
    simp only [digits, Nat.mod_eq_of_lt (d.isLt), Nat.mod_eq_of_lt (a.isLt), Nat.mod_eq_of_lt (Ty.code_lt t), Nat.mod_eq_of_lt (r.isLt), Nat.mod_eq_of_lt (bitOf_lt s), Nat.mod_eq_of_lt (bitOf_lt h), Nat.mod_eq_of_lt (m.isLt), Nat.mod_eq_of_lt (Ty.code_lt u)]; omega
  have mj : bits w 24 7 = 123 := (bits_at hw 8 1 rfl rfl)
  have f0 : bits w 0 4 = u.code := (bits_at hw 0 1 rfl rfl).trans (Nat.mod_eq_of_lt (Ty.code_lt u))
  have f1 : bits w 4 2 = m.toNat := (bits_at hw 1 1 rfl rfl).trans (Nat.mod_eq_of_lt (m.isLt))
  have f2 : bits w 8 2 = r.toNat := (bits_at hw 4 1 rfl rfl).trans (Nat.mod_eq_of_lt (r.isLt))
  have f3 : bits w 10 4 = t.code := (bits_at hw 5 1 rfl rfl).trans (Nat.mod_eq_of_lt (Ty.code_lt t))
  have f4 : bits w 14 5 = a.toNat := (bits_at hw 6 1 rfl rfl).trans (Nat.mod_eq_of_lt (a.isLt))
  have f5 : bits w 19 5 = d.toNat := (bits_at hw 7 1 rfl rfl).trans (Nat.mod_eq_of_lt (d.isLt))
  have f6 : bits w 31 1 = 0 := (bits_at hw 9 1 rfl rfl)
  have g7 : bits w 6 1 = bitOf h := (bits_at hw 2 1 rfl rfl).trans (Nat.mod_eq_of_lt (bitOf_lt h))
  have f7 : flag w 6 = h := flag_mod w 6 h g7
  have g8 : bits w 7 1 = bitOf s := (bits_at hw 3 1 rfl rfl).trans (Nat.mod_eq_of_lt (bitOf_lt s))
  have f8 : flag w 7 = s := flag_mod w 7 s g8
  apply decodeWord_of _ _ _ hwf
  rw [decodeRaw_A3B w mj]
  simp [decA3B, f0, f1, f2, f3, f4, f5, f6, f7, f8, Ty.ofCode_code]

theorem RoundTrip.powerOnReset : RoundTrip.Statement (.powerOnReset) := fun _ h => nomatch (show none = some _ from h)
theorem RoundTrip.deviceReset : RoundTrip.Statement (.deviceReset) := fun _ h => nomatch (show none = some _ from h)
theorem RoundTrip.bootLayer (layer : Nat) : RoundTrip.Statement (.bootLayer layer) := fun _ h => nomatch (show none = some _ from h)
theorem RoundTrip.clusterReset (c : Nat) : RoundTrip.Statement (.clusterReset c) := fun _ h => nomatch (show none = some _ from h)
theorem RoundTrip.linkReset : RoundTrip.Statement (.linkReset) := fun _ h => nomatch (show none = some _ from h)
theorem RoundTrip.laneFault (module : Nat) (covered : Bool) : RoundTrip.Statement (.laneFault module covered) := fun _ h => nomatch (show none = some _ from h)
theorem RoundTrip.linkTrainTimeout : RoundTrip.Statement (.linkTrainTimeout) := fun _ h => nomatch (show none = some _ from h)
theorem RoundTrip.channelFailure (ch : Nat) (atBoot : Bool) : RoundTrip.Statement (.channelFailure ch atBoot) := fun _ h => nomatch (show none = some _ from h)
theorem RoundTrip.correctedError (unit : HwUnit) (addr : Word) : RoundTrip.Statement (.correctedError unit addr) := fun _ h => nomatch (show none = some _ from h)
theorem RoundTrip.droopTrip (c : Nat) : RoundTrip.Statement (.droopTrip c) := fun _ h => nomatch (show none = some _ from h)
theorem RoundTrip.droopStretchEnd (c : Nat) : RoundTrip.Statement (.droopStretchEnd c) := fun _ h => nomatch (show none = some _ from h)
theorem RoundTrip.clockFrequencySwitch (c : Nat) : RoundTrip.Statement (.clockFrequencySwitch c) := fun _ h => nomatch (show none = some _ from h)
theorem RoundTrip.ls1Entry (c : Nat) : RoundTrip.Statement (.ls1Entry c) := fun _ h => nomatch (show none = some _ from h)
theorem RoundTrip.ls2Entry (c : Nat) : RoundTrip.Statement (.ls2Entry c) := fun _ h => nomatch (show none = some _ from h)
theorem RoundTrip.ls3Entry : RoundTrip.Statement (.ls3Entry) := fun _ h => nomatch (show none = some _ from h)
theorem RoundTrip.ls4Entry : RoundTrip.Statement (.ls4Entry) := fun _ h => nomatch (show none = some _ from h)
theorem RoundTrip.powerStateExit (c : Nat) : RoundTrip.Statement (.powerStateExit c) := fun _ h => nomatch (show none = some _ from h)
theorem RoundTrip.retentionSleep (k : Nat) : RoundTrip.Statement (.retentionSleep k) := fun _ h => nomatch (show none = some _ from h)
theorem RoundTrip.controlCoreWake (k : Nat) : RoundTrip.Statement (.controlCoreWake k) := fun _ h => nomatch (show none = some _ from h)
theorem RoundTrip.lattolWrite (v : Word) : RoundTrip.Statement (.lattolWrite v) := fun _ h => nomatch (show none = some _ from h)
theorem RoundTrip.pwrlimitWrite (v : Word) : RoundTrip.Statement (.pwrlimitWrite v) := fun _ h => nomatch (show none = some _ from h)
theorem RoundTrip.readlog : RoundTrip.Statement (.readlog) := fun _ h => nomatch (show none = some _ from h)
theorem RoundTrip.report : RoundTrip.Statement (.report) := fun _ h => nomatch (show none = some _ from h)
theorem RoundTrip.readerr : RoundTrip.Statement (.readerr) := fun _ h => nomatch (show none = some _ from h)
theorem RoundTrip.stage : RoundTrip.Statement (.stage) := fun _ h => nomatch (show none = some _ from h)
theorem RoundTrip.badop : RoundTrip.Statement (.badop) := fun _ h => nomatch (show none = some _ from h)
theorem RoundTrip.mailboxCompletion : RoundTrip.Statement (.mailboxCompletion) := fun _ h => nomatch (show none = some _ from h)
theorem RoundTrip.evict (q : Nat) : RoundTrip.Statement (.evict q) := fun _ h => nomatch (show none = some _ from h)
theorem RoundTrip.resume (q : Nat) : RoundTrip.Statement (.resume q) := fun _ h => nomatch (show none = some _ from h)
theorem RoundTrip.skip (q : Nat) : RoundTrip.Statement (.skip q) := fun _ h => nomatch (show none = some _ from h)
theorem RoundTrip.disable (q : Nat) : RoundTrip.Statement (.disable q) := fun _ h => nomatch (show none = some _ from h)
theorem RoundTrip.qctlBadOperation (q : Nat) : RoundTrip.Statement (.qctlBadOperation q) := fun _ h => nomatch (show none = some _ from h)
theorem RoundTrip.doorbell (q : Nat) (off : Nat) (len : Nat) (v : Word) : RoundTrip.Statement (.doorbell q off len v) := fun _ h => nomatch (show none = some _ from h)
theorem RoundTrip.svcimgWrite (v : Word) : RoundTrip.Statement (.svcimgWrite v) := fun _ h => nomatch (show none = some _ from h)
theorem RoundTrip.registerWrite (off : Nat) (v : Word) : RoundTrip.Statement (.registerWrite off v) := fun _ h => nomatch (show none = some _ from h)
theorem RoundTrip.priEnable (on : Bool) : RoundTrip.Statement (.priEnable on) := fun _ h => nomatch (show none = some _ from h)
theorem RoundTrip.queueLoad (q : Nat) : RoundTrip.Statement (.queueLoad q) := fun _ h => nomatch (show none = some _ from h)
theorem RoundTrip.queueSelect (pr : Nat) : RoundTrip.Statement (.queueSelect pr) := fun _ h => nomatch (show none = some _ from h)
theorem RoundTrip.queueSliceExpiry (pr : Nat) : RoundTrip.Statement (.queueSliceExpiry pr) := fun _ h => nomatch (show none = some _ from h)
theorem RoundTrip.nopPacket (q : Nat) : RoundTrip.Statement (.nopPacket q) := fun _ h => nomatch (show none = some _ from h)
theorem RoundTrip.launchPacket (q : Nat) : RoundTrip.Statement (.launchPacket q) := fun _ h => nomatch (show none = some _ from h)
theorem RoundTrip.copyPacket (q : Nat) : RoundTrip.Statement (.copyPacket q) := fun _ h => nomatch (show none = some _ from h)
theorem RoundTrip.bmvPacket (q : Nat) : RoundTrip.Statement (.bmvPacket q) := fun _ h => nomatch (show none = some _ from h)
theorem RoundTrip.signalPacket (q : Nat) : RoundTrip.Statement (.signalPacket q) := fun _ h => nomatch (show none = some _ from h)
theorem RoundTrip.waitPacket (q : Nat) : RoundTrip.Statement (.waitPacket q) := fun _ h => nomatch (show none = some _ from h)
theorem RoundTrip.waitPoll (q : Nat) : RoundTrip.Statement (.waitPoll q) := fun _ h => nomatch (show none = some _ from h)
theorem RoundTrip.waitTimeout (q : Nat) : RoundTrip.Statement (.waitTimeout q) := fun _ h => nomatch (show none = some _ from h)
theorem RoundTrip.writeSignalPacket (q : Nat) : RoundTrip.Statement (.writeSignalPacket q) := fun _ h => nomatch (show none = some _ from h)
theorem RoundTrip.bindPacket (q : Nat) : RoundTrip.Statement (.bindPacket q) := fun _ h => nomatch (show none = some _ from h)
theorem RoundTrip.unbindPacket (q : Nat) : RoundTrip.Statement (.unbindPacket q) := fun _ h => nomatch (show none = some _ from h)
theorem RoundTrip.priStopMarker (pasid : Nat) : RoundTrip.Statement (.priStopMarker pasid) := fun _ h => nomatch (show none = some _ from h)
theorem RoundTrip.customPacket (q : Nat) : RoundTrip.Statement (.customPacket q) := fun _ h => nomatch (show none = some _ from h)
theorem RoundTrip.packetComplete (q : Nat) (idx : Nat) : RoundTrip.Statement (.packetComplete q idx) := fun _ h => nomatch (show none = some _ from h)
theorem RoundTrip.coalescerHoldExpiry (q : Nat) : RoundTrip.Statement (.coalescerHoldExpiry q) := fun _ h => nomatch (show none = some _ from h)
theorem RoundTrip.atsTranslationCompletion (c : AtsCompletion) : RoundTrip.Statement (.atsTranslationCompletion c) := fun _ h => nomatch (show none = some _ from h)
theorem RoundTrip.pageRequestResponse (prg : Nat) (code : PriCode) : RoundTrip.Statement (.pageRequestResponse prg code) := fun _ h => nomatch (show none = some _ from h)
theorem RoundTrip.pageRequestTimeout (prg : Nat) : RoundTrip.Statement (.pageRequestTimeout prg) := fun _ h => nomatch (show none = some _ from h)
theorem RoundTrip.atsInvalidateRequest (r : AtsInvalidate) : RoundTrip.Statement (.atsInvalidateRequest r) := fun _ h => nomatch (show none = some _ from h)
theorem RoundTrip.invalidationCompletion (itag : Nat) : RoundTrip.Statement (.invalidationCompletion itag) := fun _ h => nomatch (show none = some _ from h)
theorem RoundTrip.rds (x : Msg) : RoundTrip.Statement (.rds x) := fun _ h => nomatch (show none = some _ from h)
theorem RoundTrip.rdx (x : Msg) : RoundTrip.Statement (.rdx x) := fun _ h => nomatch (show none = some _ from h)
theorem RoundTrip.upg (x : Msg) : RoundTrip.Statement (.upg x) := fun _ h => nomatch (show none = some _ from h)
theorem RoundTrip.rdnc (x : Msg) : RoundTrip.Statement (.rdnc x) := fun _ h => nomatch (show none = some _ from h)
theorem RoundTrip.wrnc (x : Msg) : RoundTrip.Statement (.wrnc x) := fun _ h => nomatch (show none = some _ from h)
theorem RoundTrip.wrf (x : Msg) : RoundTrip.Statement (.wrf x) := fun _ h => nomatch (show none = some _ from h)
theorem RoundTrip.atom (x : Msg) : RoundTrip.Statement (.atom x) := fun _ h => nomatch (show none = some _ from h)
theorem RoundTrip.llk (x : Msg) : RoundTrip.Statement (.llk x) := fun _ h => nomatch (show none = some _ from h)
theorem RoundTrip.sck (x : Msg) : RoundTrip.Statement (.sck x) := fun _ h => nomatch (show none = some _ from h)
theorem RoundTrip.watch (x : Msg) : RoundTrip.Statement (.watch x) := fun _ h => nomatch (show none = some _ from h)
theorem RoundTrip.eciMalformedRequest (h : BitVec 128) : RoundTrip.Statement (.eciMalformedRequest h) := fun _ h => nomatch (show none = some _ from h)
theorem RoundTrip.nodeMerge (sl : Nat) (region : Nat) (level : Nat) (path : Nat) : RoundTrip.Statement (.nodeMerge sl region level path) := fun _ h => nomatch (show none = some _ from h)
theorem RoundTrip.replicaDrop (sl : Nat) (line : Nat) : RoundTrip.Statement (.replicaDrop sl line) := fun _ h => nomatch (show none = some _ from h)
theorem RoundTrip.dramFill (sl : Nat) (line : Nat) : RoundTrip.Statement (.dramFill sl line) := fun _ h => nomatch (show none = some _ from h)
theorem RoundTrip.replayRetry (sl : Nat) : RoundTrip.Statement (.replayRetry sl) := fun _ h => nomatch (show none = some _ from h)
theorem RoundTrip.probeTimeout (sl : Nat) (line : Nat) (agent : Nat) : RoundTrip.Statement (.probeTimeout sl line agent) := fun _ h => nomatch (show none = some _ from h)
theorem RoundTrip.sinv (x : Msg) : RoundTrip.Statement (.sinv x) := fun _ h => nomatch (show none = some _ from h)
theorem RoundTrip.sshr (x : Msg) : RoundTrip.Statement (.sshr x) := fun _ h => nomatch (show none = some _ from h)
theorem RoundTrip.sbinv (x : Msg) : RoundTrip.Statement (.sbinv x) := fun _ h => nomatch (show none = some _ from h)
theorem RoundTrip.ds (x : Msg) : RoundTrip.Statement (.ds x) := fun _ h => nomatch (show none = some _ from h)
theorem RoundTrip.de (x : Msg) : RoundTrip.Statement (.de x) := fun _ h => nomatch (show none = some _ from h)
theorem RoundTrip.dm (x : Msg) : RoundTrip.Statement (.dm x) := fun _ h => nomatch (show none = some _ from h)
theorem RoundTrip.gm (x : Msg) : RoundTrip.Statement (.gm x) := fun _ h => nomatch (show none = some _ from h)
theorem RoundTrip.cmp (x : Msg) : RoundTrip.Statement (.cmp x) := fun _ h => nomatch (show none = some _ from h)
theorem RoundTrip.atr (x : Msg) : RoundTrip.Statement (.atr x) := fun _ h => nomatch (show none = some _ from h)
theorem RoundTrip.lkd (x : Msg) : RoundTrip.Statement (.lkd x) := fun _ h => nomatch (show none = some _ from h)
theorem RoundTrip.scf (x : Msg) : RoundTrip.Statement (.scf x) := fun _ h => nomatch (show none = some _ from h)
theorem RoundTrip.woke (x : Msg) : RoundTrip.Statement (.woke x) := fun _ h => nomatch (show none = some _ from h)
theorem RoundTrip.rty (x : Msg) : RoundTrip.Statement (.rty x) := fun _ h => nomatch (show none = some _ from h)
theorem RoundTrip.wba (x : Msg) : RoundTrip.Statement (.wba x) := fun _ h => nomatch (show none = some _ from h)
theorem RoundTrip.wbx (x : Msg) : RoundTrip.Statement (.wbx x) := fun _ h => nomatch (show none = some _ from h)
theorem RoundTrip.pack (x : Msg) : RoundTrip.Statement (.pack x) := fun _ h => nomatch (show none = some _ from h)
theorem RoundTrip.pdat (x : Msg) : RoundTrip.Statement (.pdat x) := fun _ h => nomatch (show none = some _ from h)
theorem RoundTrip.wbd (x : Msg) : RoundTrip.Statement (.wbd x) := fun _ h => nomatch (show none = some _ from h)
theorem RoundTrip.evc (x : Msg) : RoundTrip.Statement (.evc x) := fun _ h => nomatch (show none = some _ from h)
theorem RoundTrip.crd (x : Msg) : RoundTrip.Statement (.crd x) := fun _ h => nomatch (show none = some _ from h)
theorem RoundTrip.l1BackgroundSweep (core : Nat) : RoundTrip.Statement (.l1BackgroundSweep core) := fun _ h => nomatch (show none = some _ from h)
theorem RoundTrip.mcrd (x : Msg) : RoundTrip.Statement (.mcrd x) := fun _ h => nomatch (show none = some _ from h)
theorem RoundTrip.mcrdWindowClose (sl : Nat) (entry : Nat) : RoundTrip.Statement (.mcrdWindowClose sl entry) := fun _ h => nomatch (show none = some _ from h)
theorem RoundTrip.mcd (x : Msg) : RoundTrip.Statement (.mcd x) := fun _ h => nomatch (show none = some _ from h)
theorem RoundTrip.spwr (x : Msg) : RoundTrip.Statement (.spwr x) := fun _ h => nomatch (show none = some _ from h)
theorem RoundTrip.sprd (x : Msg) : RoundTrip.Statement (.sprd x) := fun _ h => nomatch (show none = some _ from h)
theorem RoundTrip.spsy (x : Msg) : RoundTrip.Statement (.spsy x) := fun _ h => nomatch (show none = some _ from h)
theorem RoundTrip.spsyResend (core : Nat) (txid : Nat) : RoundTrip.Statement (.spsyResend core txid) := fun _ h => nomatch (show none = some _ from h)
theorem RoundTrip.spdat (x : Msg) : RoundTrip.Statement (.spdat x) := fun _ h => nomatch (show none = some _ from h)
theorem RoundTrip.repl (x : Msg) : RoundTrip.Statement (.repl x) := fun _ h => nomatch (show none = some _ from h)
theorem RoundTrip.rrec (x : Msg) : RoundTrip.Statement (.rrec x) := fun _ h => nomatch (show none = some _ from h)
theorem RoundTrip.rdin (x : Msg) : RoundTrip.Statement (.rdin x) := fun _ h => nomatch (show none = some _ from h)
theorem RoundTrip.rdrm (x : Msg) : RoundTrip.Statement (.rdrm x) := fun _ h => nomatch (show none = some _ from h)
theorem RoundTrip.grant (x : Msg) : RoundTrip.Statement (.grant x) := fun _ h => nomatch (show none = some _ from h)
theorem RoundTrip.alwRet (x : Msg) : RoundTrip.Statement (.alwRet x) := fun _ h => nomatch (show none = some _ from h)
theorem RoundTrip.cret (x : Msg) : RoundTrip.Statement (.cret x) := fun _ h => nomatch (show none = some _ from h)
theorem RoundTrip.dsack (x : Msg) : RoundTrip.Statement (.dsack x) := fun _ h => nomatch (show none = some _ from h)
theorem RoundTrip.userMessage (x : Msg) : RoundTrip.Statement (.userMessage x) := fun _ h => nomatch (show none = some _ from h)
theorem RoundTrip.dec (x : Msg) : RoundTrip.Statement (.dec x) := fun _ h => nomatch (show none = some _ from h)
theorem RoundTrip.notice (x : Msg) : RoundTrip.Statement (.notice x) := fun _ h => nomatch (show none = some _ from h)
theorem RoundTrip.dirsvc (x : Msg) : RoundTrip.Statement (.dirsvc x) := fun _ h => nomatch (show none = some _ from h)
theorem RoundTrip.lreq (x : Msg) : RoundTrip.Statement (.lreq x) := fun _ h => nomatch (show none = some _ from h)
theorem RoundTrip.lreqResend (ck : Nat) (ctag : Nat) : RoundTrip.Statement (.lreqResend ck ctag) := fun _ h => nomatch (show none = some _ from h)
theorem RoundTrip.chunk (x : Msg) : RoundTrip.Statement (.chunk x) := fun _ h => nomatch (show none = some _ from h)
theorem RoundTrip.deferredMessageRetry (x : Msg) : RoundTrip.Statement (.deferredMessageRetry x) := fun _ h => nomatch (show none = some _ from h)
theorem RoundTrip.networkLinkRetry (link : Nat) (cured : Bool) : RoundTrip.Statement (.networkLinkRetry link cured) := fun _ h => nomatch (show none = some _ from h)
theorem RoundTrip.regionRunnable (r : Nat) : RoundTrip.Statement (.regionRunnable r) := fun _ h => nomatch (show none = some _ from h)
theorem RoundTrip.regionSliceExpiry (r : Nat) : RoundTrip.Statement (.regionSliceExpiry r) := fun _ h => nomatch (show none = some _ from h)
theorem RoundTrip.regionEnd (r : Nat) : RoundTrip.Statement (.regionEnd r) := fun _ h => nomatch (show none = some _ from h)
theorem RoundTrip.partitionHalt (r : Nat) (p : Nat) : RoundTrip.Statement (.partitionHalt r p) := fun _ h => nomatch (show none = some _ from h)
theorem RoundTrip.contextSwap (c : Nat) : RoundTrip.Statement (.contextSwap c) := fun _ h => nomatch (show none = some _ from h)
theorem RoundTrip.bayBackgroundWrite (bay : Nat) : RoundTrip.Statement (.bayBackgroundWrite bay) := fun _ h => nomatch (show none = some _ from h)
theorem RoundTrip.rosterMultiplex (ck : Nat) : RoundTrip.Statement (.rosterMultiplex ck) := fun _ h => nomatch (show none = some _ from h)
theorem RoundTrip.graceExpiry (tk : Nat) : RoundTrip.Statement (.graceExpiry tk) := fun _ h => nomatch (show none = some _ from h)
theorem RoundTrip.heartbeatMiss (tk : Nat) : RoundTrip.Statement (.heartbeatMiss tk) := fun _ h => nomatch (show none = some _ from h)
theorem RoundTrip.dispatch (ck : Nat) : RoundTrip.Statement (.dispatch ck) := fun _ h => nomatch (show none = some _ from h)
theorem RoundTrip.waitLimitExpiry (tk : Nat) : RoundTrip.Statement (.waitLimitExpiry tk) := fun _ h => nomatch (show none = some _ from h)
theorem RoundTrip.timerExpiry (tk : Nat) : RoundTrip.Statement (.timerExpiry tk) := fun _ h => nomatch (show none = some _ from h)
theorem RoundTrip.interruptEntry (tk : Nat) : RoundTrip.Statement (.interruptEntry tk) := fun _ h => nomatch (show none = some _ from h)
theorem RoundTrip.deferredPoison (tk : Nat) : RoundTrip.Statement (.deferredPoison tk) := fun _ h => nomatch (show none = some _ from h)
theorem RoundTrip.flumeTransfer (tk : Nat) (k : Nat) : RoundTrip.Statement (.flumeTransfer tk k) := fun _ h => nomatch (show none = some _ from h)
theorem RoundTrip.jobCardStart (ck : Nat) (id : Nat) : RoundTrip.Statement (.jobCardStart ck id) := fun _ h => nomatch (show none = some _ from h)
theorem RoundTrip.copyJobComplete (ck : Nat) (id : Nat) : RoundTrip.Statement (.copyJobComplete ck id) := fun _ h => nomatch (show none = some _ from h)
theorem RoundTrip.jobStatusFail (ck : Nat) (id : Nat) : RoundTrip.Statement (.jobStatusFail ck id) := fun _ h => nomatch (show none = some _ from h)
theorem RoundTrip.sluiceOutletFire (ck : Nat) (o : Nat) : RoundTrip.Statement (.sluiceOutletFire ck o) := fun _ h => nomatch (show none = some _ from h)
theorem RoundTrip.matrixRequestServe (c : Nat) : RoundTrip.Statement (.matrixRequestServe c) := fun _ h => nomatch (show none = some _ from h)
theorem RoundTrip.matrixResultBind (c : Nat) (id : Nat) : RoundTrip.Statement (.matrixResultBind c id) := fun _ h => nomatch (show none = some _ from h)
theorem RoundTrip.factorisationStepEnd (c : Nat) : RoundTrip.Statement (.factorisationStepEnd c) := fun _ h => nomatch (show none = some _ from h)
theorem RoundTrip.mlongComplete (ck : Nat) (id : Nat) : RoundTrip.Statement (.mlongComplete ck id) := fun _ h => nomatch (show none = some _ from h)
theorem RoundTrip.bmvJobStart (j : Nat) : RoundTrip.Statement (.bmvJobStart j) := fun _ h => nomatch (show none = some _ from h)
theorem RoundTrip.xld (u : Nat) (off : Nat) (x : List (BitVec 256)) : RoundTrip.Statement (.xld u off x) := fun _ h => nomatch (show none = some _ from h)
theorem RoundTrip.brun (u : Nat) (run : BankRun) : RoundTrip.Statement (.brun u run) := fun _ h => nomatch (show none = some _ from h)
theorem RoundTrip.bhalt (u : Nat) : RoundTrip.Statement (.bhalt u) := fun _ h => nomatch (show none = some _ from h)
theorem RoundTrip.bres (u : Nat) : RoundTrip.Statement (.bres u) := fun _ h => nomatch (show none = some _ from h)
theorem RoundTrip.prd (u : Nat) (first : Nat) (count : Nat) : RoundTrip.Statement (.prd u first count) := fun _ h => nomatch (show none = some _ from h)
theorem RoundTrip.bankPassBatchEnd (j : Nat) : RoundTrip.Statement (.bankPassBatchEnd j) := fun _ h => nomatch (show none = some _ from h)
theorem RoundTrip.bmvJobCompletion (j : Nat) : RoundTrip.Statement (.bmvJobCompletion j) := fun _ h => nomatch (show none = some _ from h)
theorem RoundTrip.deadLetter (ck : Nat) (id : Nat) : RoundTrip.Statement (.deadLetter ck id) := fun _ h => nomatch (show none = some _ from h)
theorem RoundTrip.dsdoneWaitLog (sl : Nat) (line : Nat) : RoundTrip.Statement (.dsdoneWaitLog sl line) := fun _ h => nomatch (show none = some _ from h)
theorem RoundTrip.adapterRetry (module : Nat) : RoundTrip.Statement (.adapterRetry module) := fun _ h => nomatch (show none = some _ from h)
theorem RoundTrip.supplyRecovery (c : Nat) : RoundTrip.Statement (.supplyRecovery c) := fun _ h => nomatch (show none = some _ from h)
theorem RoundTrip.unrecoverableFailure (unit : HwUnit) : RoundTrip.Statement (.unrecoverableFailure unit) := fun _ h => nomatch (show none = some _ from h)

end Sys2Proof.Laws
end

