-- ==== Sys2Proof/Safety.lean ====
section
/-!
DEFINITION. What counts as a safe run, and the terms in which claims are stated: a machine that keeps stepping, the canonical
form of its memories, a unit that issues alone, and how a unit leaves its thread.
-/

namespace Sys2Proof

open Machine

/-- The memory's canonical form: addresses rising, no byte equal to what an unlisted address reads as. -/
def Memory.wf (m : List Host.Cell) : Bool := Tbl.wf 0 m

/-- The sparse arrays of memory are canonical: DRAM, the context cores, and the bytes of every pool. -/
structure Canonical (s : State) : Prop where
  dram : Memory.wf s.dram = true
  ctx : Tbl.wf {} s.ctx = true
  pools : ∀ e ∈ s.ctx, Tbl.wf 0 e.2.pool = true

/-- A machine that runs `k` steps without a fault or a refusal. -/
def Safe (s : State) (k : Nat) : Prop :=
  ∃ t, Host.Core.run core k s = .next t

/-- The unit in issue is one word of thread `t`, which exists and has no result pending, no port enabled and no flume bound. -/
structure Alone (s : State) (t : Thread) : Prop where
  thread : s.thr s.unit.tk = some t
  lone : s.unit.phase = .lone
  pend : t.pend = []
  ports : t.portcfg = 0
  flumes : t.flumes = []

/-- The thread after its unit completed (R195, R210): it is at `pc`, and what belongs to a unit in issue is cleared. -/
def finished (s : State) (pc : Word) (u : Thread) : Thread :=
  { u with
    pc := pc, lastIssue := some (s.clu (s.unit.core / 4)).cycle.toNat, waitcount := 0, park := none, x := {}, btag := none }

/-- The instruction completes as a unit of one word; its whole effect is that its thread becomes `u` and goes on at `pc`. -/
def Goes (i : Instr) (s : State) (pc : Word) (u : Thread) : Prop :=
  exec i s = .next (s.setThr s.unit.tk (finished s pc u))

/-- The instruction completes as a unit of one word; its whole effect is that its thread becomes `u`, at the next word. -/
def Leaves (i : Instr) (s : State) (u : Thread) : Prop := Goes i s (s.unit.addr + 4) u

/-- The instruction completes as a unit of one word; besides its thread, which becomes `u` and goes on at the next word, it leaves
the machine as `s'`. -/
def Leaves2 (i : Instr) (s s' : State) (u : Thread) : Prop :=
  exec i s = .next (s'.setThr s.unit.tk (finished s (s.unit.addr + 4) u))

/-- The instruction issues as a unit of one word and goes on with a pending result `p`: without lookahead the thread waits for it
(R196). Besides the thread, it leaves the machine as `s'`. -/
def Awaits (i : Instr) (s s' : State) (u : Thread) (p : Pending) : Prop :=
  exec i s = .next (s'.setThr s.unit.tk
    { finished s (s.unit.addr + 4) u with pend := [p], st := if p.window = 0 then p.waitState else .ready })

/-- The instruction raises a trap at its unit, with nothing of its own effect (R228, R287). -/
def Traps (i : Instr) (s : State) (cause : Nat) (val : Word) : Prop :=
  exec i s = .next (s.takeTrap s.unit.tk cause val s.unit.addr false false)

/-- The instruction waits without effect in a thread state, and its unit issues again (R135, R197). -/
def Parks (i : Instr) (s : State) (t : Thread) (st : TState) (park : Option Word) : Prop :=
  exec i s = .next (s.setThr s.unit.tk { t with st := st, park := park })

/-- The instruction completes as a unit of one word; in each active lane of `w` bits, v d takes the low bits of what `f` gives the
lane, the other lanes keep their contents, and FPCSR.FLAGS takes the OR of the flags that the active lanes raise. -/
def Lanewise (i : Instr) (s : State) (t : Thread) (d m w : Nat) (f : Nat → Nat × Flags) : Prop :=
  ∃ (v : Vec) (fl : Flags),
    Leaves i s { t.wv d v with fpcsr := t.fpcsr ||| fl.setWidth 64 } ∧
    (∀ k < 512 / w, lane w v k = if t.active m k then (f k).1 % 2 ^ w else lane w (t.rv d) k) ∧
    ∀ b, fl.getLsbD b = true ↔ ∃ k < 512 / w, t.active m k = true ∧ (f k).2.getLsbD b = true

end Sys2Proof
end

