-- ==== Sys2Proof/Certificates/Slice0/Obligations.lean ====
section
/-!
DEFINITION. The statements for the provers. A statement about an instruction word says what `exec` answers, under conditions on
the state and the operands alone: `Alone s t` (the unit is one word, its thread `t` has no result pending, no enabled port and no
bound flume) and the conditions that the rules name. `Leaves i s u` says that `exec i s` is the next state in which only the
issuing thread changed, to `u`, and goes on at the next word; `Goes i s pc u` the same with the PC given. Both are equations, so
they are the instruction's completion, its result and its frame at once: every register, flag, special register and byte that
the equation does not name is as before.
-/

open Sys2Proof Sys2Proof.Machine

/-! ## Scalar instructions (chapter 15, R304 to R311) -/

/-- R305 to R308: each scalar integer instruction writes its result to g d (nothing, where d is g0) and changes nothing else. -/
def Obligations.ScalarIntegerResults : Prop :=
  ∀ (s : State) (t : Thread), Alone s t →
    (∀ d a b : BitVec 5,
      let x := t.rg a.toNat
      let y := t.rg b.toNat
      let sh := y.toNat % 64
      let puts (i : Instr) (r : Word) : Prop := Leaves i s (t.wg d.toNat r)
      puts (.add d a b) (x + y) ∧ puts (.sub d a b) (x - y) ∧ puts (.and d a b) (x &&& y) ∧ puts (.or d a b) (x ||| y) ∧
      puts (.xor d a b) (x ^^^ y) ∧ puts (.andn d a b) (x &&& ~~~y) ∧ puts (.sll d a b) (x <<< sh) ∧
      puts (.srl d a b) (x >>> sh) ∧ puts (.sra d a b) (x.sshiftRight sh) ∧ puts (.rol d a b) (x.rotateLeft sh) ∧
      puts (.ror d a b) (x.rotateRight sh) ∧ puts (.slt d a b) (if x.toInt < y.toInt then 1 else 0) ∧
      puts (.sltu d a b) (if x.toNat < y.toNat then 1 else 0) ∧ puts (.seq d a b) (if x = y then 1 else 0) ∧
      puts (.min d a b) (if x.toInt < y.toInt then x else y) ∧ puts (.max d a b) (if x.toInt < y.toInt then y else x) ∧
      puts (.minu d a b) (if x.toNat < y.toNat then x else y) ∧ puts (.maxu d a b) (if x.toNat < y.toNat then y else x) ∧
      puts (.mul d a b) (x * y) ∧ puts (.mulh d a b) (BitVec.ofInt 64 (x.toInt * y.toInt / 2 ^ 64)) ∧
      puts (.mulhu d a b) (BitVec.ofNat 64 (x.toNat * y.toNat / 2 ^ 64)) ∧
      puts (.div d a b) (if y = 0 then BitVec.allOnes 64 else BitVec.ofInt 64 (x.toInt.tdiv y.toInt)) ∧
      puts (.divu d a b) (if y = 0 then BitVec.allOnes 64 else BitVec.ofNat 64 (x.toNat / y.toNat)) ∧
      puts (.rem d a b) (if y = 0 then x else BitVec.ofInt 64 (x.toInt.tmod y.toInt)) ∧
      puts (.remu d a b) (if y = 0 then x else BitVec.ofNat 64 (x.toNat % y.toNat)) ∧
      puts (.add32 d a b) (((x + y).setWidth 32).signExtend 64) ∧ puts (.sub32 d a b) (((x - y).setWidth 32).signExtend 64) ∧
      puts (.mul32 d a b) (((x * y).setWidth 32).signExtend 64)) ∧
    (∀ d a b c : BitVec 5,
      let x := t.rg a.toNat
      let y := t.rg b.toNat
      let z := t.rg c.toNat
      Leaves (.madd d a b c) s (t.wg d.toNat (x * y + z)) ∧ Leaves (.msub d a b c) s (t.wg d.toNat (z - x * y)) ∧
      Leaves (.csel d a b c) s (t.wg d.toNat (if z ≠ 0 then x else y))) ∧
    (∀ d a : BitVec 5,
      let x := t.rg a.toNat
      let puts (i : Instr) (r : Word) : Prop := Leaves i s (t.wg d.toNat r)
      (∃ n : Nat, puts (.clz d a) (BitVec.ofNat 64 n) ∧ n ≤ 64 ∧ x.toNat < 2 ^ (64 - n) ∧ (n < 64 → 2 ^ (63 - n) ≤ x.toNat)) ∧
      (∃ n : Nat, puts (.ctz d a) (BitVec.ofNat 64 n) ∧ n ≤ 64 ∧ x.toNat % 2 ^ n = 0 ∧ (n < 64 → x.getLsbD n = true)) ∧
      puts (.popc d a) (BitVec.ofNat 64 ((List.range 64).countP fun i => x.getLsbD i)) ∧
      (∃ r : Word, puts (.bswap d a) r ∧ ∀ i < 8, r.extractLsb' (8 * i) 8 = x.extractLsb' (56 - 8 * i) 8) ∧
      puts (.sextB d a) ((x.setWidth 8).signExtend 64) ∧ puts (.sextH d a) ((x.setWidth 16).signExtend 64) ∧
      puts (.sextW d a) ((x.setWidth 32).signExtend 64) ∧ puts (.zextW d a) ((x.setWidth 32).setWidth 64)) ∧
    (∀ (d a : BitVec 5) (i : BitVec 14),
      let x := t.rg a.toNat
      let k : Word := i.signExtend 64
      let z : Word := i.setWidth 64
      let puts (i : Instr) (r : Word) : Prop := Leaves i s (t.wg d.toNat r)
      puts (.addi d a i) (x + k) ∧ puts (.andi d a i) (x &&& k) ∧ puts (.ori d a i) (x ||| z) ∧ puts (.xori d a i) (x ^^^ z) ∧
      puts (.slti d a i) (if x.toInt < k.toInt then 1 else 0) ∧ puts (.sltiu d a i) (if x.toNat < k.toNat then 1 else 0)) ∧
    (∀ (d a : BitVec 5) (n : BitVec 6),
      let x := t.rg a.toNat
      let puts (i : Instr) (r : Word) : Prop := Leaves i s (t.wg d.toNat r)
      puts (.slli d a n) (x <<< n.toNat) ∧ puts (.srli d a n) (x >>> n.toNat) ∧ puts (.srai d a n) (x.sshiftRight n.toNat) ∧
      puts (.rori d a n) (x.rotateRight n.toNat)) ∧
    (∀ (d : BitVec 5) (i : BitVec 19), Leaves (.movhi d i) s (t.wg d.toNat ((i.setWidth 32 <<< 13).signExtend 64))) ∧
    (∀ (d : BitVec 5) (i : BitVec 16), Leaves (.insh d i) s (t.wg d.toNat ((t.rg d.toNat <<< 16) ||| i.setWidth 64)))

/-- R309 to R311, R235: each scalar f32 instruction, with no FP trap enabled, writes the code of its result to the low bits of
g d, clears the others (an i32 result is sign-extended), and ORs the exceptions it raised into FPCSR.FLAGS; nothing else
changes. -/
def Obligations.ScalarFloatResults : Prop :=
  ∀ (s : State) (t : Thread), Alone s t → fpTen t.fpcsr = 0 →
    (∀ d a b c : BitVec 5,
      let x := (t.rg a.toNat).toNat % 2 ^ 32
      let y := (t.rg b.toNat).toNat % 2 ^ 32
      let z := (t.rg c.toNat).toNat % 2 ^ 32
      let puts (i : Instr) (r : Nat × Flags) : Prop :=
        Leaves i s { t.wg d.toNat (BitVec.ofNat 64 (r.1 % 2 ^ 32)) with fpcsr := t.fpcsr ||| r.2.setWidth 64 }
      let test (r : Bool × Flags) : Nat × Flags := (if r.1 then 1 else 0, r.2)
      puts (.fadd d a b) (fmtF32.add x y) ∧ puts (.fsub d a b) (fmtF32.sub x y) ∧ puts (.fmul d a b) (fmtF32.mul x y) ∧
      puts (.fdiv d a b) (fmtF32.div x y) ∧ puts (.fsqrt d a) (fmtF32.sqrt x) ∧ puts (.fmin d a b) (fmtF32.minmax false x y) ∧
      puts (.fmax d a b) (fmtF32.minmax true x y) ∧ puts (.fneg d a) (x ^^^ 0x80000000, 0) ∧ puts (.fabs d a) (x % 2 ^ 31, 0) ∧
      puts (.fcpsgn d a b) (x % 2 ^ 31 + y / 2 ^ 31 * 2 ^ 31, 0) ∧ puts (.fcmeq d a b) (test (fmtF32.cmpEq x y)) ∧
      puts (.fcmlt d a b) (test (fmtF32.cmpLt x y)) ∧ puts (.fcmle d a b) (test (fmtF32.cmpLe x y)) ∧
      puts (.ffma d a b c) (fmtF32.fma x y z) ∧ puts (.ffms d a b c) (fmtF32.fms x y z) ∧
      puts (.ffnma d a b c) (fmtF32.fnma x y z) ∧ puts (.ffnms d a b c) (fmtF32.fnms x y z) ∧
      ∀ r : BitVec 2, puts (.frint d a r) (frintF32 (Rm.ofCode r) x)) ∧
    (∀ (d a : BitVec 5) (td : Ty) (r : BitVec 2) (sat : Bool) (ts : Ty),
      let c := convert td ts (Rm.ofCode r) sat ((t.rg a.toNat).toNat % 2 ^ ts.width)
      Leaves (.fconv d a td r sat ts) s
        { t.wg d.toNat (if td = .i32 then (BitVec.ofNat 32 c.1).signExtend 64 else BitVec.ofNat 64 (c.1 % 2 ^ td.width)) with
          fpcsr := t.fpcsr ||| c.2.setWidth 64 })

/-! ## Vector instructions (chapter 18, R361 to R386) -/

/-- R362, R367, R369, R375: on an integer type each element-wise vector instruction computes on the w bits of every active lane,
wrapping, shifting and comparing as the rules say, raises no flag and changes nothing but vd. -/
def Claims.VectorIntegerResults : Prop :=
  ∀ (s : State) (t : Thread), Alone s t → fpTen t.fpcsr = 0 → ∀ (d a b : BitVec 5) (m : BitVec 3) (ty : Ty), ty.isI = true →
    let w := ty.width
    let x (k : Nat) : BitVec w := BitVec.ofNat w (lane w (t.rv a.toNat) k)
    let y (k : Nat) : BitVec w := BitVec.ofNat w (lane w (t.rv b.toNat) k)
    let lo : Int := if ty.isSigned then -2 ^ (w - 1) else 0
    let hi : Int := if ty.isSigned then 2 ^ (w - 1) - 1 else 2 ^ w - 1
    let value (z : BitVec w) : Int := if ty.isSigned then z.toInt else z.toNat
    let puts (i : Instr) (f : Nat → BitVec w) : Prop := Lanewise i s t d.toNat m.toNat w fun k => ((f k).toNat, 0)
    puts (.vadd d a b m ty) (fun k => x k + y k) ∧ puts (.vsub d a b m ty) (fun k => x k - y k) ∧
    puts (.vadds d a b m ty) (fun k => BitVec.ofInt w (max lo (min hi (value (x k) + value (y k))))) ∧
    puts (.vsubs d a b m ty) (fun k => BitVec.ofInt w (max lo (min hi (value (x k) - value (y k))))) ∧
    puts (.vmul d a b m ty) (fun k => x k * y k) ∧
    puts (.vmulh d a b m ty) (fun k => BitVec.ofInt w (value (x k) * value (y k) / 2 ^ w)) ∧
    puts (.vdiv d a b m ty) (fun k => if y k = 0 then BitVec.allOnes w else BitVec.ofInt w ((value (x k)).tdiv (value (y k)))) ∧
    puts (.vmin d a b m ty) (fun k => if value (y k) < value (x k) then y k else x k) ∧
    puts (.vmax d a b m ty) (fun k => if value (x k) < value (y k) then y k else x k) ∧
    puts (.vand d a b m ty) (fun k => x k &&& y k) ∧ puts (.vor d a b m ty) (fun k => x k ||| y k) ∧
    puts (.vxor d a b m ty) (fun k => x k ^^^ y k) ∧ puts (.vandn d a b m ty) (fun k => x k &&& ~~~y k) ∧
    puts (.vshl d a b m ty) (fun k => x k <<< (y k).toNat) ∧ puts (.vshr d a b m ty) (fun k => x k >>> (y k).toNat) ∧
    puts (.vsra d a b m ty) (fun k => (x k).sshiftRight (y k).toNat) ∧
    puts (.vrol d a b m ty) (fun k => (x k).rotateLeft (y k).toNat) ∧
    puts (.vneg d a m ty) (fun k => -x k) ∧
    puts (.vabs d a m ty) (fun k => if ty.isSigned ∧ (x k).msb then -x k else x k)

/-- R362, R367, R368, R375, R384, R386: each element-wise floating vector instruction computes on every active lane in its format,
ORs the flags of the active lanes into FPCSR (no FP trap being enabled), and changes nothing else. The F64V forms do so in
binary64 on a core that has F64V. -/
def Claims.VectorFloatResults : Prop :=
  ∀ (s : State) (t : Thread), Alone s t → fpTen t.fpcsr = 0 → ∀ (d a b : BitVec 5) (m : BitVec 3),
    let lanes (i : Instr) (ty : Ty) (f : Nat → Nat → Nat → Nat × Flags) : Prop :=
      Lanewise i s t d.toNat m.toNat ty.width fun k =>
        f (lane ty.width (t.rv a.toNat) k) (lane ty.width (t.rv b.toNat) k) (lane ty.width (t.rv d.toNat) k)
    let sign (ty : Ty) : Nat := 2 ^ (ty.width - 1)
    (∀ ty : Ty, ty.isI = false → ty ≠ .f64 →
      lanes (.vadd d a b m ty) ty (fun x y _ => (fmtOf ty).add x y) ∧ lanes (.vsub d a b m ty) ty (fun x y _ => (fmtOf ty).sub x y) ∧
      lanes (.vmul d a b m ty) ty (fun x y _ => (fmtOf ty).mul x y) ∧ lanes (.vdiv d a b m ty) ty (fun x y _ => (fmtOf ty).div x y) ∧
      lanes (.vmin d a b m ty) ty (fun x y _ => (fmtOf ty).minmax false x y) ∧
      lanes (.vmax d a b m ty) ty (fun x y _ => (fmtOf ty).minmax true x y) ∧
      lanes (.vsqrt d a m ty) ty (fun x _ _ => (fmtOf ty).sqrt x) ∧
      lanes (.vfma d a b m ty) ty (fmtOf ty).fma ∧ lanes (.vfms d a b m ty) ty (fmtOf ty).fms ∧
      lanes (.vfnma d a b m ty) ty (fmtOf ty).fnma ∧ lanes (.vfnms d a b m ty) ty (fmtOf ty).fnms ∧
      lanes (.vneg d a m ty) ty (fun x _ _ => (x ^^^ sign ty, 0)) ∧ lanes (.vabs d a m ty) ty (fun x _ _ => (x % sign ty, 0)) ∧
      lanes (.vcpsgn d a b m ty) ty (fun x y _ => (x % sign ty + y / sign ty * sign ty, 0)) ∧
      lanes (.vexp2 d a m ty) ty (fun x _ _ => viaF32 vexp2F32 ty x) ∧ lanes (.vlog2 d a m ty) ty (fun x _ _ => viaF32 vlog2F32 ty x) ∧
      lanes (.vrcp d a m ty) ty (fun x _ _ => viaF32 vrcpF32 ty x) ∧ lanes (.vrsqrt d a m ty) ty (fun x _ _ => viaF32 vrsqrtF32 ty x)) ∧
    (∀ ty : Ty, ty ≠ .f64 → lanes (.vmov d a m ty) ty (fun x _ _ => (x, 0))) ∧
    (s.hasF64v s.unit.core = true →
      lanes (.vaddF64 d a b m) .f64 (fun x y _ => fmtF64.add x y) ∧ lanes (.vsubF64 d a b m) .f64 (fun x y _ => fmtF64.sub x y) ∧
      lanes (.vmulF64 d a b m) .f64 (fun x y _ => fmtF64.mul x y) ∧ lanes (.vdivF64 d a b m) .f64 (fun x y _ => fmtF64.div x y) ∧
      lanes (.vfmaF64 d a b m) .f64 fmtF64.fma ∧ lanes (.vfmsF64 d a b m) .f64 fmtF64.fms ∧
      lanes (.vfnmaF64 d a b m) .f64 fmtF64.fnma ∧ lanes (.vfnmsF64 d a b m) .f64 fmtF64.fnms ∧
      lanes (.vminF64 d a b m) .f64 (fun x y _ => fmtF64.minmax false x y) ∧
      lanes (.vmaxF64 d a b m) .f64 (fun x y _ => fmtF64.minmax true x y) ∧
      lanes (.vsqrtF64 d a m) .f64 (fun x _ _ => fmtF64.sqrt x))

/-- R370: a vector compare writes, for each lane below L, one bit to md (0 for an inactive lane), clears the bits at L and above,
discards a write to m0, and raises IV only for the NaNs the rule names; nothing else changes. -/
def Claims.VectorCompareResults : Prop :=
  ∀ (s : State) (t : Thread), Alone s t → fpTen t.fpcsr = 0 → ∀ (d : BitVec 3) (a b : BitVec 5) (m : BitVec 3) (ty : Ty),
    let w := ty.width
    let x (k : Nat) : Nat := lane w (t.rv a.toNat) k
    let y (k : Nat) : Nat := lane w (t.rv b.toNat) k
    let compares (i : Instr) (p : Nat → Bool) (iv : Nat → Bool) : Prop :=
      ∃ (r : Word) (fl : Flags),
        Leaves i s { t.wm d.toNat r with fpcsr := t.fpcsr ||| fl.setWidth 64 } ∧
        (∀ k < 64, r.getLsbD k = (decide (k < 512 / w) && t.active m.toNat k && p k)) ∧
        ∀ n, fl.getLsbD n = true ↔ n = 0 ∧ ∃ k < 512 / w, t.active m.toNat k = true ∧ iv k = true
    let nan (z : Nat) : Bool := ((fmtOf ty).decode z).isNan
    let signalling (z : Nat) : Bool := (fmtOf ty).decode z == .nan true
    let value (z : Nat) : Int := if ty.isSigned then (BitVec.ofNat w z).toInt else z
    (ty.isI = true →
      compares (.vcmpeq d a b m ty) (fun k => decide (value (x k) = value (y k))) (fun _ => false) ∧
      compares (.vcmpne d a b m ty) (fun k => decide (value (x k) ≠ value (y k))) (fun _ => false) ∧
      compares (.vcmplt d a b m ty) (fun k => decide (value (x k) < value (y k))) (fun _ => false) ∧
      compares (.vcmple d a b m ty) (fun k => decide (value (x k) ≤ value (y k))) (fun _ => false)) ∧
    (ty.isI = false →
      let anyNan (k : Nat) : Bool := nan (x k) || nan (y k)
      let anySignalling (k : Nat) : Bool := signalling (x k) || signalling (y k)
      compares (.vcmpeq d a b m ty) (fun k => ((fmtOf ty).cmpEq (x k) (y k)).1) anySignalling ∧
      compares (.vcmpne d a b m ty) (fun k => !((fmtOf ty).cmpEq (x k) (y k)).1) anySignalling ∧
      compares (.vcmplt d a b m ty) (fun k => ((fmtOf ty).cmpLt (x k) (y k)).1) anyNan ∧
      compares (.vcmple d a b m ty) (fun k => ((fmtOf ty).cmpLe (x k) (y k)).1) anyNan)
/-- R371 to R374, R376, R377, R385: selection, permutation, packing, broadcast, insertion and extraction of lanes, the mask
instructions, VIOTA and the mixer: each result lane by lane or bit by bit, with nothing else changed. -/
def Obligations.VectorMoveResults : Prop :=
  ∀ (s : State) (t : Thread), Alone s t → fpTen t.fpcsr = 0 →
    (∀ (d a b : BitVec 5) (m : BitVec 3) (ty : Ty),
      let w := ty.width
      let L := 512 / w
      let x (k : Nat) : Nat := lane w (t.rv a.toNat) k
      let y (k : Nat) : Nat := lane w (t.rv b.toNat) k
      let index := (t.rg b.toNat).toNat % L
      let whole (i : Instr) (f : Nat → Nat) : Prop := ∃ v : Vec, Leaves i s (t.wv d.toNat v) ∧ ∀ k < L, lane w v k = f k
      let packed := ((List.range L).filter fun k => t.active m.toNat k).map x
      let masked (i : Instr) (f : Nat → Nat) : Prop := Lanewise i s t d.toNat m.toNat w fun k => (f k, 0)
      whole (.vsel d a b m ty) (fun k => if t.active m.toNat k then x k else y k) ∧
      masked (.vperm d a b m ty) (fun k => x (y k % L)) ∧
      whole (.vcompr d a m ty) (fun k => packed.getD k 0) ∧
      masked (.vbcast d a m ty) (fun _ => (t.rg a.toNat).toNat) ∧
      masked (.vsplat d a b m ty) (fun _ => x index) ∧
      whole (.vins d a b ty) (fun k => if k = index then (t.rg a.toNat).toNat % 2 ^ w else lane w (t.rv d.toNat) k) ∧
      Leaves (.vext d a b ty) s (t.wg d.toNat (if ty.isSigned then ((BitVec.ofNat w (x index)).signExtend 64) else BitVec.ofNat 64 (x index))) ∧
      masked (.viota d m ty) (fun k => ((List.range k).filter fun j => t.active m.toNat j).length)) ∧
    (∀ (d a b : BitVec 5) (m : BitVec 3),
      let key := (t.rg b.toNat).toNat % 2 ^ 32
      let x (k : Nat) : Nat := lane 32 (t.rv a.toNat) k
      Lanewise (.vmix32 d a b m) s t d.toNat m.toNat 32 (fun k => (mix32 (x k) key, 0)) ∧
      Lanewise (.vmix32u d a b m) s t d.toNat m.toNat 32 (fun k => (mixUniform (x k) key, 0)) ∧
      ∀ e : BitVec 4, let r := 2 * e.toNat
        Lanewise (.vmix32r e a b m) s t r m.toNat 32
          (fun k => mixRange (x k) key (lane 32 (t.rv r) k) (lane 32 (t.rv (r + 1)) k))) ∧
    (∀ d a b : BitVec 3,
      let p := t.rm a.toNat
      let q := t.rm b.toNat
      Leaves (.mand d a b) s (t.wm d.toNat (p &&& q)) ∧ Leaves (.mor d a b) s (t.wm d.toNat (p ||| q)) ∧
      Leaves (.mxor d a b) s (t.wm d.toNat (p ^^^ q)) ∧ Leaves (.mandn d a b) s (t.wm d.toNat (p &&& ~~~q))) ∧
    (∀ (g : BitVec 5) (m : BitVec 3) (ty : Ty),
      let L := 512 / ty.width
      let p := t.rm m.toNat
      Leaves (.mtog g m) s (t.wg g.toNat p) ∧ Leaves (.gtom m g) s (t.wm m.toNat (t.rg g.toNat)) ∧
      Leaves (.mpopc g m ty) s (t.wg g.toNat (BitVec.ofNat 64 ((List.range L).countP fun k => p.getLsbD k))) ∧
      Leaves (.mfirst g m ty) s (t.wg g.toNat (match (List.range L).find? fun k => p.getLsbD k with
        | some k => BitVec.ofNat 64 k
        | none => BitVec.allOnes 64)))

/-- R245, R382, R386: an integer VRSUM is the sum of the active lanes modulo 2^64 and leaves bits 511 to 64 zero; VRMAX and VRMIN
with no lane active leave the identity of R245 and an index of all ones; each reduction writes the whole of vd with the top of
the tree of R245 and ORs the flags of its nodes into FPCSR. -/
def Claims.VectorReductionResults : Prop :=
  ∀ (s : State) (t : Thread), Alone s t → fpTen t.fpcsr = 0 → ∀ (d a : BitVec 5) (m : BitVec 3),
    let act (k : Nat) : Bool := t.active m.toNat k
    let lanes (ty : Ty) : List Nat := (List.range (512 / ty.width)).filter act
    let value (ty : Ty) (k : Nat) : Int :=
      if ty.isSigned then (BitVec.ofNat ty.width (lane ty.width (t.rv a.toNat) k)).toInt else lane ty.width (t.rv a.toNat) k
    let leaves (op : RedOp) (ty : Ty) : List Leaf := (List.range (512 / ty.width)).map fun k =>
      if act k then
        let x := lane ty.width (t.rv a.toNat) k
        { val := if ty.isI then extend64 ty x else widen ty x, idx := some k, low := k }
      else { val := op.ident ty, idx := none, low := 255 }
    let reduces (i : Instr) (op : RedOp) (ty : Ty) : Prop :=
      ∃ (top : Leaf) (fl : List (Nat × Flags)), op.tree ty 6 (leaves op ty) [] = ([top], fl) ∧
        Leaves i s { t.wv d.toNat (BitVec.ofNat 512 (top.val + 2 ^ 64 * (if op = .sum then 0 else top.idx.getD (2 ^ 64 - 1)))) with
          fpcsr := t.fpcsr ||| (laneOr fl).setWidth 64 }
    (∀ ty : Ty, ty ≠ .f64 →
      reduces (.vrsum d a m ty) .sum ty ∧ reduces (.vrmax d a m ty) .max ty ∧ reduces (.vrmin d a m ty) .min ty ∧
      (ty.isI = true → Leaves (.vrsum d a m ty) s
        (t.wv d.toNat ((BitVec.ofInt 64 ((lanes ty).map (value ty)).sum).setWidth 512))) ∧
      (lanes ty = [] →
        Leaves (.vrmax d a m ty) s (t.wv d.toNat (BitVec.ofNat 512 (RedOp.max.ident ty + 2 ^ 64 * (2 ^ 64 - 1)))) ∧
        Leaves (.vrmin d a m ty) s (t.wv d.toNat (BitVec.ofNat 512 (RedOp.min.ident ty + 2 ^ 64 * (2 ^ 64 - 1)))))) ∧
    (s.hasF64v s.unit.core = true → reduces (.vrsumF64 d a m) .sum .f64)

/-- R245, R382: on an integer type with some lane active, VRMAX and VRMIN leave in bits 63:0 the extreme value of the active
lanes, extended to 64 bits, and in bits 127:64 the lowest active lane that holds it. -/
def Claims.VectorReductionFindsTheWinner : Prop :=
  ∀ (s : State) (t : Thread), Alone s t → fpTen t.fpcsr = 0 → ∀ (d a : BitVec 5) (m : BitVec 3) (ty : Ty), ty.isI = true →
    let L := 512 / ty.width
    let act (k : Nat) : Bool := t.active m.toNat k
    let value (k : Nat) : Int :=
      if ty.isSigned then (BitVec.ofNat ty.width (lane ty.width (t.rv a.toNat) k)).toInt else lane ty.width (t.rv a.toNat) k
    let finds (i : Instr) (better : Int → Int → Prop) : Prop :=
      ∃ j < L, act j = true ∧ (∀ k < L, act k = true → ¬ better (value k) (value j)) ∧
        (∀ k < j, act k = true → better (value j) (value k)) ∧
        Leaves i s (t.wv d.toNat (BitVec.ofNat 512 ((BitVec.ofInt 64 (value j)).toNat + 2 ^ 64 * j)))
    (∃ k < L, act k = true) →
      finds (.vrmax d a m ty) (fun p q => q < p) ∧ finds (.vrmin d a m ty) (fun p q => p < q)

/-- R246, R383: a scan writes every lane of vd from a running value that starts at the identity of R245 and takes one node step in
each active lane; an integer VSCSUM gives each lane the sum of the active lanes up to it, modulo 2^w; FPCSR takes the flags of
each node step and of each rounding to the element. -/
def Claims.VectorScanResults : Prop :=
  ∀ (s : State) (t : Thread), Alone s t → fpTen t.fpcsr = 0 → ∀ (d a : BitVec 5) (m : BitVec 3) (ty : Ty),
    let w := ty.width
    let L := 512 / w
    let act (k : Nat) : Bool := t.active m.toNat k
    let x (k : Nat) : Nat := lane w (t.rv a.toNat) k
    let value (k : Nat) : Int := if ty.isSigned then (BitVec.ofNat w (x k)).toInt else x k
    let scans (i : Instr) (op : RedOp) : Prop :=
      let next (r : Nat) (k : Nat) : Nat × Flags :=
        if act k then op.node ty r (if ty.isI then extend64 ty (x k) else widen ty (x k)) else (r, 0)
      ∃ (v : Vec) (fl : Flags) (r : Nat → Nat), Leaves i s { t.wv d.toNat v with fpcsr := t.fpcsr ||| fl.setWidth 64 } ∧
        r 0 = op.ident ty ∧ (∀ k < L, r (k + 1) = (next (r k) k).1) ∧
        (∀ k < L, lane w v k = (toElement ty (r (k + 1))).1 % 2 ^ w) ∧
        ∀ b, fl.getLsbD b = true ↔ ∃ k < L, ((next (r k) k).2 ||| (toElement ty (r (k + 1))).2).getLsbD b = true
    scans (.vscsum d a m ty) .sum ∧ scans (.vscmax d a m ty) .max ∧ scans (.vscmin d a m ty) .min ∧
    (ty.isI = true → ∃ v : Vec, Leaves (.vscsum d a m ty) s (t.wv d.toNat v) ∧
      ∀ k < L, lane w v k = (BitVec.ofInt w (((List.range (k + 1)).filter act).map value).sum).toNat)

/-- R379, R240, R386: VCVT converts N results under the low mask bits: in place between types of one width, into one half of vd
from a register group when narrowing, from one half of va into a register group when widening; every other lane keeps its
contents. -/
def Claims.VectorConversionResults : Prop :=
  ∀ (s : State) (t : Thread), Alone s t → fpTen t.fpcsr = 0 →
    ∀ (d a : BitVec 5) (td ts : Ty) (rm : BitVec 2) (sat hi : Bool) (m : BitVec 2),
      let wS := ts.width
      let wD := td.width
      let LS := 512 / wS
      let LD := 512 / wD
      let N := if wS = wD then LS else if wD < wS then LD / 2 else LS / 2
      let half := if hi ∧ wS ≠ wD then N else 0
      let src (k : Nat) : Nat :=
        if wS = wD then lane wS (t.rv a.toNat) k
        else if wD < wS then lane wS (t.rv (a.toNat + k / LS)) (k % LS)
        else lane wS (t.rv a.toNat) (half + k)
      let regs : List Nat := if wS < wD then (List.range (max 1 (wD / wS / 2))).map (d.toNat + ·) else [d.toNat]
      let reg (k : Nat) : Nat := if wS < wD then d.toNat + k / LD else d.toNat
      let at_ (k : Nat) : Nat := if wS < wD then k % LD else half + k
      let converts (i : Instr) : Prop := ∃ (v : Nat → Vec) (fl : Flags),
        Leaves i s { regs.foldl (fun u r => u.wv r (v r)) t with fpcsr := t.fpcsr ||| fl.setWidth 64 } ∧
        (∀ k < N, lane wD (v (reg k)) (at_ k) =
          if t.active m.toNat k then (convert td ts (Rm.ofCode rm) sat (src k)).1 % 2 ^ wD else lane wD (t.rv (reg k)) (at_ k)) ∧
        (wD < wS → ∀ l < LD, l < half ∨ half + N ≤ l → lane wD (v d.toNat) l = lane wD (t.rv d.toNat) l) ∧
        ∀ b, fl.getLsbD b = true ↔
          ∃ k < N, t.active m.toNat k = true ∧ (convert td ts (Rm.ofCode rm) sat (src k)).2.getLsbD b = true
      converts (.vcvt d a td rm sat hi m ts) ∧ (s.hasF64v s.unit.core = true → converts (.vcvtF64 d a td rm sat hi m ts))

/-- R380, R381, R238: VQBLK packs 48 f32 values of three registers into one block with its two exponents in bytes 48 and 49 and
the rest of vd zero; VDQBLK spreads a block's 48 values over three registers. -/
def Claims.VectorBlockResults : Prop :=
  ∀ (s : State) (t : Thread), Alone s t → fpTen t.fpcsr = 0 → ∀ (d a : BitVec 5),
    (∀ (rm : BitVec 2) (sat : Bool) (i : Instr) (f : SbFmt),
      (i, f) ∈ [(.vqblkSb8 d a rm sat, sb8), (.vqblkSb4 d a rm sat, sb4)] →
      let xs := (List.range 48).map fun k => fmtF32.decode (lane 32 (t.rv (a.toNat + k / 16)) (k % 16))
      let q := f.quantise (Rm.ofCode rm) sat xs
      ∃ v : Vec, Leaves i s { t.wv d.toNat v with fpcsr := t.fpcsr ||| q.2.2.2.setWidth 64 } ∧
        (∀ k < 48, lane f.ewidth v k = q.1.getD k 0) ∧ (∀ n < 64, 6 * f.ewidth ≤ n → n ≠ 48 → n ≠ 49 → byteAt v n = 0) ∧
        byteAt v 48 = BitVec.ofNat 8 q.2.1 ∧ byteAt v 49 = BitVec.ofNat 8 q.2.2.1) ∧
    (∀ (i : Instr) (f : SbFmt), (i, f) ∈ [(.vdqblkSb8 d a, sb8), (.vdqblkSb4 d a, sb4)] →
      let x := t.rv a.toNat
      ∃ v : Nat → Vec, Leaves i s (((t.wv d.toNat (v 0)).wv (d.toNat + 1) (v 1)).wv (d.toNat + 2) (v 2)) ∧
        ∀ j < 3, ∀ k < 16, lane 32 (v j) k =
          f32OfVal (f.value (bytesAt x 48 1) (bytesAt x 49 1) (lane f.ewidth x (16 * j + k))) % 2 ^ 32)
/-! ## Control flow and thread control (R312 to R323, R226, R228, R230) -/

/-- R312, R313, R315, R316: branches and jumps. A taken branch goes to the branch word plus four times its displacement; BDEC
writes g a; nothing else changes. -/
def Obligations.BranchResults : Prop :=
  ∀ (s : State) (t : Thread), Alone s t → ∀ (p : Bool) (o : BitVec 11),
    let there := s.unit.addr + 4 * o.signExtend 64
    let next := s.unit.addr + 4
    let branches (i : Instr) (c : Prop) : Prop := (c → Goes i s there t) ∧ (¬c → Goes i s next t)
    (∀ a b : BitVec 5,
      let x := t.rg a.toNat
      let y := t.rg b.toNat
      branches (.beq p a b o) (x = y) ∧ branches (.bne p a b o) (x ≠ y) ∧
      branches (.blt p a b o) (x.toInt < y.toInt) ∧ branches (.bge p a b o) (y.toInt ≤ x.toInt) ∧
      branches (.bltu p a b o) (x.toNat < y.toNat) ∧ branches (.bgeu p a b o) (y.toNat ≤ x.toNat)) ∧
    (∀ (a : BitVec 5) (n : BitVec 8),
      let x := t.rg a.toNat - 1
      Goes (.bdec p a n o) s (if x ≠ 0 ∧ x.toNat < n.toNat + 1 then there else next) (t.wg a.toNat x)) ∧
    (∀ a : BitVec 3,
      let x := t.rm a.toNat
      branches (.bany p a o) (x ≠ 0) ∧ branches (.bnone p a o) (x = 0) ∧
      branches (.ball p a o) (x = BitVec.allOnes 64) ∧ branches (.bnall p a o) (x ≠ BitVec.allOnes 64)) ∧
    (∀ d : BitVec 24, Goes (.jmp p d) s (s.unit.addr + 4 * d.signExtend 64) t) ∧
    (∀ a : BitVec 5,
      let x := t.rg a.toNat
      (x.extractLsb' 0 2 = 0 → Goes (.jr p a) s x t) ∧ (x.extractLsb' 0 2 ≠ 0 → Traps (.jr p a) s Cause.align x)) ∧
    (∀ a : BitVec 5,
      let x := t.rg a.toNat
      (isSp x = false → Traps (.btagf p a o) s Cause.access x ∧ Traps (.btage p a o) s Cause.access x) ∧
      ∀ ck off, s.target s.unit.tk x 8 8 false true = .ok (.pool ck off) → s.isLocal ck = true →
        branches (.btagf p a o) (s.fullBit ck off = true) ∧ branches (.btage p a o) (s.fullBit ck off = false))

/-- R226, R317, R318: a call with fewer than 8 entries pushes the address of the following unit; a full store first spills its
oldest entry as 8 bytes at RETSP (here to the thread's own pool) and moves RETSP up by 8, or raises STACK_LIMIT past RETLIMIT;
a return pops the newest entry, and raises RET_EMPTY where store and spill area are empty. Every such trap leaves the store,
RETSP and the PC as they were. -/
def Obligations.CallAndReturnResults : Prop :=
  ∀ (s : State) (t : Thread), Alone s t → ∀ (p : Bool) (d : BitVec 24) (a : BitVec 5),
    let x := t.rg a.toNat
    let back := s.unit.addr + 4
    let there := s.unit.addr + 4 * d.signExtend 64
    let aligned := t.retbase.extractLsb' 0 3 = 0 ∧ t.retlimit.extractLsb' 0 3 = 0 ∧ t.retsp.extractLsb' 0 3 = 0
    (t.retStore.length < 8 →
      Goes (.call p d) s there { t with retStore := t.retStore ++ [back] } ∧
      (x.extractLsb' 0 2 = 0 → Goes (.callr p a) s x { t with retStore := t.retStore ++ [back] })) ∧
    (x.extractLsb' 0 2 ≠ 0 → Traps (.callr p a) s Cause.align x) ∧
    (∀ first rest, t.retStore = first :: rest → rest.length = 7 → aligned →
      (t.retlimit.toNat < t.retsp.toNat + 8 →
        Traps (.call p d) s Cause.stackLimit 0 ∧ (x.extractLsb' 0 2 = 0 → Traps (.callr p a) s Cause.stackLimit 0)) ∧
      (t.retsp.toNat + 8 ≤ t.retlimit.toNat →
        ∀ ck off, s.target s.unit.tk t.retsp 8 8 true true = .ok (.pool ck off) → s.isLocal ck = true →
          s.jobHolds s.unit.tk (.pool ck off) 8 true = false →
          exec (.call p d) s = .next ((s.poolWrite ck off (leBytes 8 first.toNat)).setThr s.unit.tk
            (finished s there { t with retStore := rest ++ [back], retsp := t.retsp + 8 })))) ∧
    (∀ front last, t.retStore = front ++ [last] → Goes (.ret p) s last { t with retStore := front }) ∧
    (t.retStore = [] → aligned →
      (t.retsp.toNat ≤ t.retbase.toNat → Traps (.ret p) s Cause.retEmpty 0) ∧
      (t.retbase.toNat < t.retsp.toNat →
        ∀ ck off, s.target s.unit.tk (t.retsp - 8) 8 8 true true = .ok (.pool ck off) → s.isLocal ck = true →
          s.jobHolds s.unit.tk (.pool ck off) 8 false = false → t.remoteHolds (.pool ck off) = false →
          s.poolPoison ck off 8 = none →
          Goes (.ret p) s (BitVec.ofNat 64 (s.poolRead ck off 8)) { t with retsp := t.retsp - 8 }))

/-- R139, R143, R320 to R323: CNOP does nothing; YIELD keeps its thread from issuing for 16 A-cycles; HBEAT sets HBEATWIN to HBWIN
in a region with HBARM = 1 and has no other effect; PPT without a pre-emption request has no effect; TRAP raises SOFTWARE with its
immediate. A thread issues only when 4 A-cycles have passed since its last unit (R136). -/
def Obligations.ThreadControlResults : Prop :=
  ∀ (s : State) (t : Thread), Alone s t →
    let cycle := (s.clu (s.unit.core / 4)).cycle.toNat
    let next := s.unit.addr + 4
    let vals := s.valsOf (ckOfTk s.unit.tk)
    (∀ p : Bool, Leaves (.cnop p) s t ∧
      ((∀ n, t.lastIssue = some n → n + 4 ≤ cycle) →
        exec (.yield p) s = .next (s.setThr s.unit.tk { finished s next t with lastIssue := some (cycle + 13) })) ∧
      Leaves (.hbeat p) s (if vals.hbarm then { t with hbeatwin := BitVec.ofNat 64 vals.hbwin } else t)) ∧
    ∀ i : BitVec 14, Traps (.trap i) s Cause.software (i.setWidth 64) ∧ (t.preempt = none → Leaves (.ppt i) s t)

/-- R228: trap entry. With TRAPVEC set and INH clear, the thread goes to TRAPVEC with its mode kept; TRAPPC, TRAPCAUSE, TRAPVAL and
TRAPSTATUS take the unit, the code, the value and the mode with INH set; the reservation epoch advances; nothing else of the
thread and nothing of the rest of the machine changes. Otherwise the thread enters STOPPED with its registers kept. -/
def Obligations.TrapEntry : Prop :=
  ∀ (s : State) (tk : Nat) (t : Thread) (cause : Nat) (val pc : Word) (word1 defer : Bool), s.thr tk = some t → cause < 256 →
    (t.trapstatus.getLsbD 2 = false → t.trapvec ≠ 0 →
      s.takeTrap tk cause val pc word1 defer = s.setThr tk
        { t with
          pc := t.trapvec, trappc := pc, trapcause := BitVec.ofNat 64 cause, trapval := val,
          trapstatus := t.priv.setWidth 64 ||| 4 ||| (if word1 then 8 else 0) ||| (if defer then 16 else 0),
          epoch := t.epoch + 1, link := none,
          st := .ready, waitcount := 0, park := none, x := {}, btag := none }) ∧
    ((t.trapstatus.getLsbD 2 = true ∨ t.trapvec = 0) → t.holds = none → s.region (regionOfCk (ckOfTk tk)) = none →
      s.takeTrap tk cause val pc word1 defer = s.setThr tk { t with st := .stopped })

/-- R230, R400: ERET in a handler sets the PC to TRAPPC and the mode to PMODE, clears INH, and changes nothing else; outside a
handler it raises ILLEGAL_OP with its word. -/
def Obligations.TrapReturn : Prop :=
  ∀ (s : State) (t : Thread), Alone s t →
    (t.trapstatus.getLsbD 2 = true →
      Goes .eret s t.trappc { t with priv := t.trapstatus.extractLsb' 0 2, trapstatus := t.trapstatus &&& ~~~4 }) ∧
    (t.trapstatus.getLsbD 2 = false → Traps .eret s Cause.illegalOp (s.unit.word0.setWidth 64))

/-! ## State registers, code and the host (R200, R398 to R402) -/

/-- R200, R398, R399: SRR reads, and SRW, SRSET and SRCLR write, the registers that every mode may write, each with its own
reserved bits; g d takes the old value; nothing else changes but RETSP, which a write of RETBASE sets too. -/
def Claims.StateRegisterAccess : Prop :=
  ∀ (s : State) (t : Thread), Alone s t → ∀ (p : Bool) (d a : BitVec 5),
    let y := t.rg a.toNat
    let keep (mask old x : Word) : Word := (old &&& ~~~mask) ||| (x &&& mask)
    let regs : List (Nat × Word × (Word → Thread)) := [
      (0x011, t.cyclecmp, fun x => { t with cyclecmp := x }), (0x020, t.trapcause, fun x => { t with trapcause := x }),
      (0x021, t.trapval, fun x => { t with trapval := x }), (0x022, t.trappc, fun x => { t with trappc := x &&& ~~~3 }),
      (0x024, t.trapvec, fun x => { t with trapvec := x &&& ~~~3 }), (0x028, t.inten, fun x => { t with inten := keep 7 t.inten x }),
      (0x030, t.waitlimit, fun x => { t with waitlimit := x }), (0x038, t.retbase, fun x => { t with retbase := x, retsp := x }),
      (0x039, t.retlimit, fun x => { t with retlimit := x }), (0x03A, t.retsp, fun x => { t with retsp := x }),
      (0x040, t.portcfg, fun x => { t with portcfg := keep 0x003FF3FF3FF3FFFF t.portcfg x }),
      (0x044, t.livetab, fun x => { t with livetab := x }),
      (0x045, t.livecnt, fun x => { t with livecnt := if 16384 < x.toNat then 16384 else x }),
      (0x048, t.fpcsr, fun x => { t with fpcsr := keep 0x1F1F t.fpcsr x }),
      (0x050, t.fmtctx, fun x => { t with fmtctx := keep 0xFFFFFFFFFFFF03FF t.fmtctx x }),
      (0x051, t.codetab0, fun x => { t with codetab0 := x }), (0x052, t.codetab1, fun x => { t with codetab1 := x }),
      (0x053, t.factstep, fun x => { t with factstep := keep 0xFFFFFFFF000003FF t.factstep x }),
      (0x054, t.zbase, fun x => { t with zbase := keep 0xFF t.zbase x })]
    let accesses (k : BitVec 12) (old : Word) (put : Word → Thread) : Prop :=
      Leaves (.srr p d k) s (t.wg d.toNat old) ∧ Leaves (.srw p a k) s (put y) ∧
      Leaves (.srset p d a k) s ((put (old ||| y)).wg d.toNat old) ∧ Leaves (.srclr p d a k) s ((put (old &&& ~~~y)).wg d.toNat old)
    (∀ e ∈ regs, accesses (BitVec.ofNat 12 e.1) e.2.1 e.2.2) ∧
    (t.priv ≠ 0 → accesses 0x031 t.hbeatwin fun x => { t with hbeatwin := x }) ∧
    (Leaves (.srr p d 0x023) s (t.wg d.toNat t.trapstatus) ∧
      (y.toNat % 4 ≤ t.priv.toNat → Leaves (.srw p a 0x023) s { t with trapstatus := keep 0x1F t.trapstatus y }) ∧
      (t.priv.toNat < y.toNat % 4 → Traps (.srw p a 0x023) s Cause.priv 0)) ∧
    (let pending : Word := (if t.wakes = 0 then 0 else 2) ||| (if t.timer then 4 else 0)
     let cleared : Thread := { t with wakes := (if y.getLsbD 1 then 0 else t.wakes), timer := t.timer && !y.getLsbD 2 }
     Leaves (.srr p d 0x029) s (t.wg d.toNat pending) ∧ Leaves (.srw p a 0x029) s cleared ∧
     Leaves (.srset p d a 0x029) s (cleared.wg d.toNat pending) ∧ Leaves (.srclr p d a 0x029) s (t.wg d.toNat pending))

/-- R200, R296: the registers that a mode may only read are read by SRR; a write raises PRIV in user mode and ILLEGAL_OP in the
other modes (HBEATWIN only PRIV, in user mode). COREID and CLUSTERID name the thread's home core. -/
def Claims.ReadOnlyStateRegisters : Prop :=
  ∀ (s : State) (t : Thread), Alone s t → ∀ (p : Bool) (d a : BitVec 5),
    let home := ckOfTk s.unit.tk
    let regs : List (Nat × Word) := [
      (0x000, t.threadId.setWidth 64), (0x001, BitVec.ofNat 64 (home % 4)), (0x002, BitVec.ofNat 64 ((s.clusterOfCk home).getD 0)),
      (0x003, t.priv.setWidth 64), (0x004, t.poolword), (0x008, t.geom0), (0x009, t.geom1), (0x00A, t.geom2), (0x00B, t.geom3),
      (0x010, (s.clu (s.unit.core / 4)).cycle)]
    (∀ e ∈ regs,
      let k := BitVec.ofNat 12 e.1
      Leaves (.srr p d k) s (t.wg d.toNat e.2) ∧
      ∀ i ∈ [Instr.srw p a k, .srset p d a k, .srclr p d a k],
        (t.priv = 0 → Traps i s Cause.priv 0) ∧ (t.priv ≠ 0 → Traps i s Cause.illegalOp (s.unit.word0.setWidth 64))) ∧
    Leaves (.srr p d 0x031) s (t.wg d.toNat t.hbeatwin) ∧
    (t.priv = 0 → ∀ i ∈ [Instr.srw p a 0x031, .srset p d a 0x031, .srclr p d a 0x031], Traps i s Cause.priv 0)

/-- R220 to R223, R398: the sluice-board registers are read and written at the thread's home core: SRW of SBCNTn, SBTERMn or
SBOUTn replaces its writable bits (SAT only cleared by a one), and the outlets are looked at again. -/
def Claims.SluiceRegisterResults : Prop :=
  ∀ (s : State) (t : Thread), Alone s t → ∀ (p : Bool) (d a : BitVec 5),
    let y := t.rg a.toNat
    let ck := ckOfTk s.unit.tk
    let x := s.cx ck
    let writes (k : Nat) (c : CtxCore) : Prop := Leaves2 (.srw p a (BitVec.ofNat 12 k)) s ((s.setCx ck c).sluiceCheck ck) t
    (∀ n < 32,
      let old := Tbl.get 0 x.sbcnt n
      let new := (old &&& 0xFFFFFFFE00000000) ||| (if y.getLsbD 32 then 0 else old &&& 0x100000000) ||| (y &&& 0xFFFFFFFF)
      Leaves (.srr p d (BitVec.ofNat 12 (0x100 + n))) s (t.wg d.toNat old) ∧
      writes (0x100 + n) { x with sbcnt := Tbl.put 0 x.sbcnt n new }) ∧
    (∀ n < 32,
      Leaves (.srr p d (BitVec.ofNat 12 (0x120 + n))) s (t.wg d.toNat (Tbl.get 0 x.sbterm n)) ∧
      writes (0x120 + n) { x with sbterm := Tbl.put 0 x.sbterm n y }) ∧
    (∀ n < 16,
      let old := Tbl.get 0 x.sbout n
      let new := (old &&& ~~~0x000003FF07FFFFFF) ||| (y &&& 0x000003FF07FFFFFF)
      Leaves (.srr p d (BitVec.ofNat 12 (0x140 + n))) s (t.wg d.toNat old) ∧
      writes (0x140 + n) { x with sbout := Tbl.put 0 x.sbout n new })

/-- R324 to R328, R331, R402: sends leave one message and count it; a receive takes the oldest matching message with CH = 0 and writes
its bytes, or parks its thread; WAITW puts the thread among the waiters of its home core; ICINV empties the core's instruction
cache and rests 64 A-cycles; SIGHOST sends its vector to the host, which aborts an entry to LS2 in progress (R25). -/
def Obligations.MessageAndSystemResults : Prop :=
  ∀ (s : State) (t : Thread), Alone s t → ∀ (p : Bool) (d a b : BitVec 5) (l : BitVec 4),
    let tk := s.unit.tk
    let ck := ckOfTk tk
    let x := t.rg a.toNat
    let y := t.rg b.toNat
    let cycle := (s.clu (s.unit.core / 4)).cycle.toNat
    let injected (e : Ev) (region : Nat) : State := (s.countInj ((s.coreOfCk ck).getD 0) region).later e
    (t.send = none → t.sbuf = [] → t.remote = [] → t.fenced = false →
      (s.destBad ck t x = false →
        let m (payload : Vec) (n : Nat) : Msg := s.userMsg tk (x.toNat % 64) (x.toNat / 64 % 16) (x.getLsbD 10) 0 payload n
        Leaves2 (.sendw p a b) s (injected (.userMessage (m (y.setWidth 512) 8)) (regionOfCk ck)) t ∧
        Leaves2 (.sendv p a b) s (injected (.userMessage (m (t.rv b.toNat) 64)) (regionOfCk ck)) t) ∧
      (∀ ck' off, x.toNat % 128 = 0 → isSp x = true → s.spDecode ck x = some (ck', off) → y ≠ 0 → y.toNat ≤ 65535 →
        Leaves2 (.sendc p a b) s
          (injected (.dec {
            src := (s.coreOfCk ck).getD 0, dst := (s.coreOfCk ck').getD 0, thread := slotOfTk tk, region := regionOfCk ck'
            ck := ck', srcCk := ck, poff := off, amount := y.toNat }) (regionOfCk ck')) t)) ∧
    (s.destBad ck t x = true → Traps (.sendw p a b) s Cause.access x ∧ Traps (.sendv p a b) s Cause.access x) ∧
    (∀ m, s.firstMsg tk t 0 = some m →
      let payload : Vec := BitVec.ofNat 512 (bytesAt (m.data.getD 0) 0 m.len)
      Leaves2 (.recvw p d l) s (s.takeMsg tk t 0) (t.wg d.toNat (payload.setWidth 64)) ∧
      Leaves2 (.recvv p d l) s (s.takeMsg tk t 0) (t.wv d.toNat payload)) ∧
    (s.firstMsg tk t 0 = none → Parks (.recvw p d l) s t .sync (some 0x200) ∧ Parks (.recvv p d l) s t .sync (some 0x200)) ∧
    (∀ k : BitVec 2, Leaves (.ptest p d k) s (t.wg d.toNat 0)) ∧
    (t.trapstatus.getLsbD 2 = false → t.holds = none → t.roster = ck →
      Leaves2 .waitw s ((s.modCx ck fun c => { c with waiters := c.waiters ++ [tk] }).laterOnce (.dispatch ck)) { t with st := .waitw, noticeHeld := false }) ∧
    (t.sbuf = [] → t.remote = [] → (∀ n, t.lastIssue = some n → n + 4 ≤ cycle) →
      exec (.icinv p) s = .next ((s.modCore s.unit.core fun c => { c with icache := [] }).setThr tk
        { finished s (s.unit.addr + 4) t with lastIssue := some (cycle + 61) })) ∧
    (t.priv = 0 → Traps (.sighost p a) s Cause.priv 0) ∧
    (t.priv ≠ 0 → (x.toNat < 2 ∨ 2048 ≤ x.toNat) → Traps (.sighost p a) s Cause.access x) ∧
    (t.priv ≠ 0 → 2 ≤ x.toNat → x.toNat < 2048 → t.sbuf = [] → t.remote = [] →
      Leaves2 (.sighost p a) s
        { s.abortEntries with port := (
          if x.toNat ∈ s.port.masked then
            { s.port with msixPend := (if x.toNat ∈ s.port.msixPend then s.port.msixPend else s.port.msixPend ++ [x.toNat]) }
          else { s.port with msix := s.port.msix ++ [x.toNat] }) } t)
/-! ## Loads and stores (chapter 17, R333 to R342, R350) -/

/-- The scalar loads with the address, size and result rule that R337, R338 and R350 give each. -/
def scalarLoads (t : Thread) (p : Bool) (d a b : BitVec 5) (o : BitVec 7) (l : BitVec 4) (sc : Scope) : List (Instr × Word × Nat × Fin_) :=
  let imm (n : Nat) : Word := t.rg a.toNat + o.signExtend 64 * BitVec.ofNat 64 n
  let idx (n : Nat) : Word := t.rg a.toNat + t.rg b.toNat * BitVec.ofNat 64 n
  let z := Fin_.gz d.toNat
  let g := Fin_.gs d.toNat
  [(.ldBu p d a o l, imm 1, 1, z 1), (.ldHu p d a o l, imm 2, 2, z 2), (.ldWu p d a o l, imm 4, 4, z 4), (.ldD p d a o l, imm 8, 8, z 8),
   (.ldB p d a o l, imm 1, 1, g 1), (.ldH p d a o l, imm 2, 2, g 2), (.ldW p d a o l, imm 4, 4, g 4),
   (.ldxBu p d a b l, idx 1, 1, z 1), (.ldxHu p d a b l, idx 2, 2, z 2), (.ldxWu p d a b l, idx 4, 4, z 4), (.ldxD p d a b l, idx 8, 8, z 8),
   (.ldxB p d a b l, idx 1, 1, g 1), (.ldxH p d a b l, idx 2, 2, g 2), (.ldxW p d a b l, idx 4, 4, g 4),
   (.ldacq p d a 0 .thr l, imm 0, 1, g 1), (.ldacq p d a 1 .thr l, imm 0, 2, g 2), (.ldacq p d a 2 .thr l, imm 0, 4, g 4),
   (.ldacq p d a 3 .thr l, imm 0, 8, g 8), (.ldacq p d a 0 sc l, imm 0, 1, g 1), (.ldacq p d a 1 sc l, imm 0, 2, g 2),
   (.ldacq p d a 2 sc l, imm 0, 4, g 4), (.ldacq p d a 3 sc l, imm 0, 8, g 8)]

/-- The value that a load of `n` bytes gives: zero-extended or sign-extended. -/
def extended (f : Fin_) (n x : Nat) : Word :=
  match f with
  | .gs _ _ => (BitVec.ofNat (8 * n) x).signExtend 64
  | _ => BitVec.ofNat 64 x

/-- The scalar stores with the address and size that R337, R338 and R350 give each; the data is g d. -/
def scalarStores (t : Thread) (p : Bool) (d a b : BitVec 5) (o : BitVec 7) (sc : Scope) : List (Instr × Word × Nat) :=
  let imm (n : Nat) : Word := t.rg a.toNat + o.signExtend 64 * BitVec.ofNat 64 n
  let idx (n : Nat) : Word := t.rg a.toNat + t.rg b.toNat * BitVec.ofNat 64 n
  [(.stB p d a o, imm 1, 1), (.stH p d a o, imm 2, 2), (.stW p d a o, imm 4, 4), (.stD p d a o, imm 8, 8),
   (.stxB p d a b, idx 1, 1), (.stxH p d a b, idx 2, 2), (.stxW p d a b, idx 4, 4), (.stxD p d a b, idx 8, 8),
   (.strel p d a 0 sc, imm 0, 1), (.strel p d a 1 sc, imm 0, 2), (.strel p d a 2 sc, imm 0, 4), (.strel p d a 3 sc, imm 0, 8)]

/-- R333, R337, R338, R340, R350: a scalar or vector load of bytes in the pool that its core serves, unpoisoned and not held back by
a job or a remote store of the thread, binds the bytes at its address, extended as the instruction says, to its register, and
changes nothing else. An address that fails a check of R333 traps with TRAPVAL = ea. -/
def Claims.PoolLoadResults : Prop :=
  ∀ (s : State) (t : Thread), Alone s t → ∀ (p : Bool) (d a b : BitVec 5) (o : BitVec 7) (l : BitVec 4) (sc : Scope),
    let tk := s.unit.tk
    let vea := t.rg a.toNat + o.signExtend 64 * 64
    (∀ e ∈ scalarLoads t p d a b o l sc,
      (∀ ck off, s.target tk e.2.1 e.2.2.1 e.2.2.1 true true = .ok (.pool ck off) → s.isLocal ck = true →
        s.jobHolds tk (.pool ck off) e.2.2.1 false = false → t.remoteHolds (.pool ck off) = false → s.poolPoison ck off e.2.2.1 = none →
        Leaves e.1 s (t.wg d.toNat (extended e.2.2.2 e.2.2.1 (s.poolRead ck off e.2.2.1)))) ∧
      (∀ c, s.target tk e.2.1 e.2.2.1 e.2.2.1 true true = .error c → Traps e.1 s c e.2.1)) ∧
    (∀ ck off, s.target tk vea 64 8 true true = .ok (.pool ck off) → s.isLocal ck = true →
      s.jobHolds tk (.pool ck off) 64 false = false → t.remoteHolds (.pool ck off) = false → s.poolPoison ck off 64 = none →
      Leaves (.vld p d a o l) s (t.wv d.toNat (BitVec.ofNat 512 (s.poolRead ck off 64)))) ∧
    (∀ c, s.target tk vea 64 8 true true = .error c → Traps (.vld p d a o l) s c vea)

/-- R333, R337, R338, R340, R350: a scalar or vector store to the pool that its core serves writes the low bytes of its register at
its address and changes nothing else of the machine. An address that fails a check of R333 traps with TRAPVAL = ea. -/
def Claims.PoolStoreResults : Prop :=
  ∀ (s : State) (t : Thread), Alone s t → t.sbuf = [] → t.remote = [] → ∀ (p : Bool) (d a b : BitVec 5) (o : BitVec 7) (sc : Scope),
    let tk := s.unit.tk
    let vea := t.rg a.toNat + o.signExtend 64 * 64
    (∀ e ∈ scalarStores t p d a b o sc,
      (∀ ck off, s.target tk e.2.1 e.2.2 e.2.2 true true = .ok (.pool ck off) → s.isLocal ck = true →
        s.jobHolds tk (.pool ck off) e.2.2 true = false →
        Leaves2 e.1 s (s.poolWrite ck off (leBytes e.2.2 (t.rg d.toNat).toNat)) t) ∧
      (∀ c, s.target tk e.2.1 e.2.2 e.2.2 true true = .error c → Traps e.1 s c e.2.1)) ∧
    (∀ ck off, s.target tk vea 64 8 true true = .ok (.pool ck off) → s.isLocal ck = true →
      s.jobHolds tk (.pool ck off) 64 true = false →
      Leaves2 (.vst p d a o) s (s.poolWrite ck off (leBytes 64 (t.rv d.toNat).toNat)) t) ∧
    (∀ c, s.target tk vea 64 8 true true = .error c → Traps (.vst p d a o) s c vea)

/-- The frame of a store to a pool: after bytes are written at an offset, every byte of every pool outside them reads as before,
the written bytes read as written, and every register, flag and board of every context core is as before. -/
def Claims.PoolWriteFrame : Prop :=
  ∀ (s : State) (ck off : Nat) (l : List Byte), Canonical s →
    let u := s.poolWrite ck off l
    (∀ i < l.length, u.poolRead ck (off + i) 1 = (l.getD i 0).toNat) ∧
    (∀ ck' a, ¬ (ck' = ck ∧ off ≤ a ∧ a < off + l.length) → u.poolRead ck' a 1 = s.poolRead ck' a 1) ∧
    u.threads = s.threads ∧ u.dram = s.dram ∧ u.agents = s.agents ∧ u.slices = s.slices ∧
    ∀ ck', (u.cx ck').full = (s.cx ck').full ∧ (u.cx ck').parked = (s.cx ck').parked ∧ (u.cx ck').cards = (s.cx ck').cards ∧
      (u.cx ck').inbox = (s.cx ck').inbox ∧ (u.cx ck').slots = (s.cx ck').slots

/-- R176, R206, R333, R338: a scalar load from memory whose line the L1 holds readable binds the bytes at once and changes nothing else
but the line's order of use; a load that misses asks for the line and leaves a pending result, for which the thread waits
when it has no lookahead. LDACQ at .thr is a plain load, but an acquire for a thread away from its home core. -/
def Claims.MemoryLoadResults : Prop :=
  ∀ (s s1 : State) (t : Thread) (pa : Nat), Alone s t → t.st = .ready → t.sbuf = [] →
    ∀ (p : Bool) (d a b : BitVec 5) (o : BitVec 7) (l : BitVec 4), ∀ e ∈ scalarLoads t p d a b o l .thr,
      let n := e.2.2.1
      let core := s.unit.core
      let line := s1.al core (pa / 64)
      s.target s.unit.tk e.2.1 n n true true = .ok (.mem e.2.1.toNat) → s.xlatThread s.unit.tk t e.2.1.toNat true false false = .pa s1 pa →
      s.jobHolds s.unit.tk (.mem e.2.1.toNat) n false = false →
      (line.st.readable = true → line.poison = false →
        Leaves2 e.1 s (s1.setAl core (pa / 64) { line with used := s1.clock })
          (t.wg d.toNat (extended e.2.2.2 n (bytesAt line.data (pa % 64) n)))) ∧
      (line.st = .i →
        let s2 := s1.agentMiss core (pa / 64) false
        Awaits e.1 s s2.tickClock t
          { id := s1.clock, dsts := [.g d.toNat], fin := e.2.2.2, window := l.toNat, upc := s.unit.addr,
            acq := (match e.1 with | .ldacq .. => s.away s.unit.tk t | _ => false),
            lanes := [{ src := .mem pa, len := n }] })

/-- R206, R333, R334, R338: a scalar store to memory whose line the L1 holds in M or E is performed in the line, which becomes M; to a
line it does not hold, the bytes go to the thread's store buffer and the line is asked for with ownership. Nothing else changes. -/
def Claims.MemoryStoreResults : Prop :=
  ∀ (s s1 : State) (t : Thread) (pa : Nat), Alone s t → t.sbuf = [] → t.remote = [] →
    ∀ (p : Bool) (d a b : BitVec 5) (o : BitVec 7) (sc : Scope), ∀ e ∈ scalarStores t p d a b o sc,
      let n := e.2.2
      let core := s.unit.core
      let line := s1.al core (pa / 64)
      let mask := byteMask (pa % 64) n
      let data : Vec := BitVec.ofNat 512 ((t.rg d.toNat).toNat % 2 ^ (8 * n) * 2 ^ (8 * (pa % 64)))
      s.target s.unit.tk e.2.1 n n true true = .ok (.mem e.2.1.toNat) → s.xlatThread s.unit.tk t e.2.1.toNat false true false = .pa s1 pa →
      s.jobHolds s.unit.tk (.mem e.2.1.toNat) n true = false →
      (line.st.writable = true →
        Leaves2 e.1 s (s1.setAl core (pa / 64)
          { line with st := .m, data := mergeBytes line.data data mask, used := s1.clock, poison := line.poison }) t) ∧
      (line.st = .i →
        Leaves2 e.1 s (s1.agentMiss core (pa / 64) true) { t with sbuf := [{ line := pa / 64, mask := mask, data := mergeBytes 0 data mask }] })

/-- R341, R342: where every active lane lies in a pool that the core serves, a gather or masked load writes the lanes read, and zero
to the inactive lanes; a scatter or masked store writes each active lane that no higher active lane overwrites; nothing else
changes. The lowest active lane that fails a check of R333 traps with its address. -/
def Obligations.VectorLaneAccessResults : Prop :=
  ∀ (s : State) (t : Thread), Alone s t → Canonical s → ∀ (p : Bool) (d a b : BitVec 5) (m : BitVec 3) (es : BitVec 2) (l : BitVec 4),
    let tk := s.unit.tk
    let e := 2 ^ es.toNat
    let L := 64 / e
    let act (i : Nat) : Bool := (t.rm m.toNat).getLsbD i
    let strided (i : Nat) : Word := t.rg a.toNat + BitVec.ofNat 64 (i * e)
    let indexed (i : Nat) : Word :=
      t.rg a.toNat + (BitVec.ofNat (8 * e) (lane (8 * e) (t.rv b.toNat) i)).signExtend 64 * BitVec.ofNat 64 e
    (∀ (ea : Nat → Word) (ck off : Nat → Nat),
      (∀ i < L, act i = true → s.target tk (ea i) e e true true = .ok (.pool (ck i) (off i)) ∧ s.isLocal (ck i) = true ∧
        s.jobHolds tk (.pool (ck i) (off i)) e true = false ∧ s.jobHolds tk (.pool (ck i) (off i)) e false = false ∧
        t.remoteHolds (.pool (ck i) (off i)) = false ∧ s.poolPoison (ck i) (off i) e = none) →
      let loads (i : Instr) : Prop := ∃ v : Vec, Leaves i s (t.wv d.toNat v) ∧
        ∀ i < L, lane (8 * e) v i = if act i then s.poolRead (ck i) (off i) e else 0
      let last := (List.range L).filter fun i => act i &&
        !(List.range L).any fun j => decide (i < j) && act j && ck j == ck i && off j == off i
      let stores (i : Instr) : Prop := Leaves2 i s
        (last.foldl (fun s i => s.poolWrite (ck i) (off i) (leBytes e (lane (8 * e) (t.rv d.toNat) i))) s) t
      (ea = strided → loads (.vldm p d a m es l) ∧ stores (.vstm p d a m es)) ∧
      (ea = indexed → loads (.vgath p d a b m es l) ∧ stores (.vscat p d a b m es))) ∧
    (∀ i < L, ∀ c, act i = true → (∀ j < i, act j = true → ∃ g, s.target tk (strided j) e e true true = .ok g) →
      s.target tk (strided i) e e true true = .error c →
      Traps (.vldm p d a m es l) s c (strided i) ∧ Traps (.vstm p d a m es) s c (strided i)) ∧
    (∀ i < L, ∀ c, act i = true → (∀ j < i, act j = true → ∃ g, s.target tk (indexed j) e e true true = .ok g) →
      s.target tk (indexed i) e e true true = .error c →
      Traps (.vgath p d a b m es l) s c (indexed i) ∧ Traps (.vscat p d a b m es) s c (indexed i))
/-! ## Synchronisation (R208, R218, R343 to R360) -/

/-- R208, R343, R344: full/empty accesses to a word of a pool that the core serves, on which no request is parked. LDFE on a full word
takes the data and empties it, LDFF takes the data, STFE on an empty word writes and fills it, STFF writes and fills it always;
an access that cannot proceed is parked and its thread waits for it in SYNC. -/
def Obligations.FullEmptyResults : Prop :=
  ∀ (s : State) (t : Thread), Alone s t → Canonical s → t.st = .ready → t.sbuf = [] → t.remote = [] →
    ∀ (p : Bool) (d a : BitVec 5) (l : BitVec 4) (ck off : Nat),
      let tk := s.unit.tk
      let ea := t.rg a.toNat
      let x := t.rg d.toNat
      let w := 8 * (off / 8)
      let r := s.newTx s.unit.core
      let s1 := r.1.tickClock
      let wait (kind : ParkKind) (value : Word) : State :=
        s1.modCx ck fun c => { c with parked := [{ off := off, kind := kind, value := value, tk := tk, txid := r.2 }] }
      let result (la : Nat) (f : Fin_) (ds : List Dst) (acq : Bool) : Pending :=
        { id := s.clock, kind := .fullEmpty ea, dsts := ds, fin := f, acq := acq, window := la, upc := s.unit.addr,
          lanes := [{ src := .reply, txid := r.2, len := 8 }] }
      s.target tk ea 8 8 false true = .ok (.pool ck off) → s.isLocal ck = true → (s.cx ck).parked = [] →
      s.jobHolds tk (.pool ck off) 8 true = false → s.poolPoison ck w 8 = none →
      (s.fullBit ck w = true →
        Leaves2 (.ldfe p d a l) s (s1.setFull ck w false) (t.wg d.toNat (BitVec.ofNat 64 (s.poolRead ck w 8))) ∧
        Leaves2 (.ldff p d a l) s s1 (t.wg d.toNat (BitVec.ofNat 64 (s.poolRead ck w 8))) ∧
        Awaits (.stfe p d a) s (wait .stfe x) t (result 0 .none [] false)) ∧
      (s.fullBit ck w = false →
        Awaits (.ldfe p d a l) s (wait .ldfe 0) t (result l.toNat (.gz d.toNat 8) [.g d.toNat] true) ∧
        Awaits (.ldff p d a l) s (wait .ldff 0) t (result l.toNat (.gz d.toNat 8) [.g d.toNat] true) ∧
        Leaves2 (.stfe p d a) s ((s1.poolWrite ck w (leBytes 8 x.toNat)).setFull ck w true) t) ∧
      Leaves2 (.stff p d a) s ((s.poolWrite ck off (leBytes 8 x.toNat)).setFull ck off true) t

/-- The far atomics with their ATOP codes (R345). -/
def farAtomics (p : Bool) (d a : BitVec 5) (sc : Scope) (z : Bool) (l : BitVec 4) : List (Instr × Nat) :=
  [(.amoadd p d a sc z l, 0), (.amoand p d a sc z l, 1), (.amoor p d a sc z l, 2), (.amoxor p d a sc z l, 3), (.amosmax p d a sc z l, 4),
   (.amosmin p d a sc z l, 5), (.amoumax p d a sc z l, 6), (.amoumin p d a sc z l, 7), (.amoswap p d a sc z l, 8)]

/-- R345: the new field value of each atomic, on fields of `n` bits. -/
def Claims.AtomicOperations : Prop :=
  ∀ (w : Nat), w = 4 ∨ w = 8 → ∀ x y new : BitVec (8 * w),
    let r (op : Nat) : Nat := atomicNew op w x.toNat y.toNat new.toNat
    r 0 = (x + y).toNat ∧ r 1 = (x &&& y).toNat ∧ r 2 = (x ||| y).toNat ∧ r 3 = (x ^^^ y).toNat ∧
    r 4 = (if x.toInt < y.toInt then y else x).toNat ∧ r 5 = (if y.toInt < x.toInt then y else x).toNat ∧
    r 6 = (if x.toNat < y.toNat then y else x).toNat ∧ r 7 = (if y.toNat < x.toNat then y else x).toNat ∧
    r 8 = y.toNat ∧ r 9 = (if x = y then new else x).toNat

/-- R345, R346: a far atomic on a field of a pool that the core serves writes the new value, binds the sign-extended old value to
g d, and changes nothing else; a failed AMOCAS writes nothing. A far atomic on memory sends ATOM to the line's home and leaves a
pending result. -/
def Claims.FarAtomicResults : Prop :=
  ∀ (s : State) (t : Thread), Alone s t → t.st = .ready → t.sbuf = [] → t.remote = [] →
    ∀ (p : Bool) (d a : BitVec 5) (e : BitVec 4) (sc : Scope) (z : Bool) (l : BitVec 4),
      let tk := s.unit.tk
      let w := if z then 8 else 4
      let ea := t.rg a.toNat
      let old (ck off : Nat) : Nat := s.poolRead ck off w
      let bound (ck off : Nat) : Word := (BitVec.ofNat (8 * w) (old ck off)).signExtend 64
      (∀ ck off, s.target tk ea w w true true = .ok (.pool ck off) → s.isLocal ck = true →
        s.jobHolds tk (.pool ck off) w true = false → s.poolPoison ck off w = none →
        (∀ i ∈ farAtomics p d a sc z l,
          Leaves2 i.1 s (s.poolWrite ck off (leBytes w (atomicNew i.2 w (old ck off) ((t.rg d.toNat).toNat % 2 ^ (8 * w)) 0)))
            (t.wg d.toNat (bound ck off))) ∧
        (let r := 2 * e.toNat
         let expected := (t.rg r).toNat % 2 ^ (8 * w)
         (old ck off = expected → Leaves2 (.amocas p e a sc z l) s
           (s.poolWrite ck off (leBytes w (t.rg (r + 1)).toNat)) (t.wg r (bound ck off))) ∧
         (old ck off ≠ expected → Leaves (.amocas p e a sc z l) s (t.wg r (bound ck off))))) ∧
      (∀ s1 pa, s.target tk ea w w true true = .ok (.mem ea.toNat) → s.xlatThread tk t ea.toNat false true false = .pa s1 pa →
        s.jobHolds tk (.mem ea.toNat) w true = false →
        let r := s1.newTx s.unit.core
        let home := homeId (homeOf (pa / 64))
        let request (op : Nat) (x y : Nat) : Msg :=
          { src := s.unit.core, dst := home, txid := r.2, line := pa / 64, off := pa % 64, len := w, atop := op, thread := slotOfTk tk,
            data := some (putBytes (BitVec.ofNat 512 (x % 2 ^ (8 * w))) 8 8 y), cel := decide (op = 0 ∧ (sc = .dev ∨ sc = .sys)) }
        let result (g : Nat) : Pending :=
          { id := s1.clock, kind := .atomic, dsts := [.g g], fin := .gs g w, acq := s.scopeOf tk t sc != .thr, line := some (pa / 64),
            window := l.toNat, upc := s.unit.addr, lanes := [{ src := .reply, txid := r.2, len := 8 }] }
        (∀ i ∈ farAtomics p d a sc z l,
          Awaits i.1 s (r.1.tickClock.later (.atom (request i.2 (t.rg d.toNat).toNat 0))) t (result d.toNat)) ∧
        Awaits (.amocas p e a sc z l) s
          (r.1.tickClock.later (.atom (request 9 (t.rg (2 * e.toNat)).toNat (t.rg (2 * e.toNat + 1)).toNat))) t (result (2 * e.toNat)))

/-- R62, R349: LDLK advances the epoch, links the line, gives up the L1's own copy and sends LLK to the home; STCK through a valid
link sends SCK, and without one writes status 1 at once; either way STCK ends the link. -/
def Claims.LoadLockedResults : Prop :=
  ∀ (s s1 : State) (t : Thread) (pa : Nat), Alone s t → t.st = .ready → t.sbuf = [] →
    ∀ (p : Bool) (d a b : BitVec 5) (l : BitVec 4) (w : Nat) (ld st : Instr),
      (w, ld, st) ∈ [(4, .ldlkW p d a l, .stckW p d a b l), (8, .ldlkD p d a l, .stckD p d a b l)] →
      let tk := s.unit.tk
      let core := s.unit.core
      let ea := t.rg a.toNat
      let line := pa / 64
      let home := homeId (homeOf line)
      s.target tk ea w w true false = .ok (.mem ea.toNat) → s.xlatThread tk t ea.toNat false true false = .pa s1 pa →
      s.jobHolds tk (.mem ea.toNat) w true = false →
      (∀ s2, s1.flushLine core line = some s2 →
        let r := s2.newTx core
        Awaits ld s (r.1.tickClock.later (.llk { src := core, dst := home, txid := r.2, line := line, off := pa % 64, len := w,
                                                 thread := slotOfTk tk, epoch := t.epoch + 1 }))
          { t with epoch := t.epoch + 1, link := some line }
          { id := s1.clock, kind := .locked, dsts := [.g d.toNat], fin := .gs d.toNat w, line := some line, window := l.toNat,
            upc := s.unit.addr, lanes := [{ src := .reply, txid := r.2, len := 8 }] }) ∧
      (t.link = some line →
        let r := s1.newTx core
        Awaits st s (r.1.tickClock.later (.sck { src := core, dst := home, txid := r.2, line := line, off := pa % 64, len := w,
                                                 thread := slotOfTk tk, epoch := t.epoch, data := some ((t.rg b.toNat).setWidth 512) }))
          { t with link := none }
          { id := s1.clock, kind := .locked, dsts := [.g d.toNat], fin := .gz d.toNat 8, line := some line, window := l.toNat,
            upc := s.unit.addr, lanes := [{ src := .reply, txid := r.2, len := 8 }] }) ∧
      (t.link ≠ some line → Leaves2 st s s1 ({ t with link := none }.wg d.toNat 1))

/-- R176, R353 to R355: a fence completes once the thread's accesses are performed (an acquire fence once its reads are bound; at scope
.thr at once, unless the thread is away from its home core), and until then its unit is refused with nothing changed; WAITA gives up the L1's copy, sends WATCH with the
comparand to the home, and leaves a pending result. -/
def Claims.FenceAndWaitResults : Prop :=
  ∀ (s : State) (t : Thread), Alone s t → t.st = .ready → ∀ (p : Bool) (d a b : BitVec 5) (l : BitVec 4),
    let tk := s.unit.tk
    let atThr (sc : Scope) : Prop := sc = .thr ∧ s.away tk t = false
    (∀ k sc, (atThr sc ∨ k = .acq ∨ (t.sbuf = [] ∧ t.remote = [])) → Leaves (.fence p k sc) s t) ∧
    (∀ k sc, ¬ atThr sc → k ≠ .acq → (t.sbuf ≠ [] ∨ t.remote ≠ []) →
      exec (.fence p k sc) s = .next { s.setThr tk { t with park := none } with unit := { s.unit with refused := true } }) ∧
    (∀ s1 s2 pa, t.sbuf = [] → s.target tk (t.rg a.toNat) 8 8 true false = .ok (.mem (t.rg a.toNat).toNat) →
      s.xlatThread tk t (t.rg a.toNat).toNat true false false = .pa s1 pa → s.jobHolds tk (.mem (t.rg a.toNat).toNat) 8 false = false →
      s1.flushLine s.unit.core (pa / 64) = some s2 →
      let r := s2.newTx s.unit.core
      Awaits (.waita p d a b l) s
        (r.1.tickClock.later (.watch { src := s.unit.core, dst := homeId (homeOf (pa / 64)), txid := r.2, line := pa / 64, off := pa % 64,
                                       len := 8, thread := slotOfTk tk, data := some ((t.rg b.toNat).setWidth 512) })) t
        { id := s1.clock, kind := .waita, dsts := [.g d.toNat], fin := .gz d.toNat 8, window := l.toNat, upc := s.unit.addr,
          lanes := [{ src := .reply, txid := r.2, len := 8 }] })

/-- R218: Count adds the bytes, saturating at 2^48 − 1 with SAT; Check completes a generation of an armed barrier whose count has
reached its target: GEN advances modulo 2^16, ARRIVED is cleared, the barrier is unarmed, and OVR records an excess. -/
def Claims.BarrierCountAndCheck : Prop :=
  ∀ (b : Bar) (n : Nat),
    (b.arrived + n < 2 ^ 48 → b.count n = { b with arrived := b.arrived + n }) ∧
    (2 ^ 48 ≤ b.arrived + n → (b.count n).arrived = 2 ^ 48 - 1 ∧ (b.count n).flags.testBit 1 = true ∧
      (b.count n).target = b.target ∧ (b.count n).gen = b.gen ∧ (b.count n).armed = b.armed) ∧
    (b.armed = true → b.target ≤ b.arrived →
      b.check.2 = true ∧ b.check.1.gen = (b.gen + 1) % 2 ^ 16 ∧ b.check.1.arrived = 0 ∧ b.check.1.armed = false ∧
      b.check.1.target = b.target ∧ (b.check.1.flags.testBit 0 = (b.flags.testBit 0 || decide (b.target < b.arrived)))) ∧
    ((b.armed = false ∨ b.arrived < b.target) → b.check = (b, false))

/-- R184, R218, R356 to R360: the barrier instructions on a barrier of a pool that the core serves. BARINIT arms it with a new target
and changes the full/empty bits of its two words, to values that the spec does not state, BAREXPECT adds to the target, BARARRIVE counts bytes, WAITBAR goes on or parks by the generation it names, BARREAD reads the
word; a target or count of 0 or of 2^48 or more raises BARRIER. -/
def Claims.BarrierInstructions : Prop :=
  ∀ (s : State) (t : Thread), Alone s t → t.st = .ready → ∀ (p : Bool) (d a b : BitVec 5) (l : BitVec 4) (ck n : Nat),
    let tk := s.unit.tk
    let x := t.rg a.toNat
    let y := t.rg b.toNat
    let bar := s.bar ck n
    s.barTarget tk x = .ok (ck, n) → s.isLocal ck = true →
    ((y = 0 ∨ 2 ^ 48 ≤ y.toNat) → Traps (.barinit p a b) s Cause.barrier x ∧ Traps (.barexpect p a b) s Cause.barrier x ∧
      Traps (.bararrive p a b) s Cause.barrier 0) ∧
    (y ≠ 0 → y.toNat < 2 ^ 48 →
      (let bit (k : Nat) : Bool := Config.freeNat (s.free + k) % 2 == 1
       Leaves2 (.barinit p a b) s
        { ((s.setBar ck n { target := y.toNat, arrived := 0, gen := bar.gen, armed := true, flags := 0 }).setFull ck (16 * n) (bit 0)).setFull ck
            (16 * n + 8) (bit 1) with free := s.free + 2 } t) ∧
      (2 ^ 48 ≤ bar.target + y.toNat → Traps (.barexpect p a b) s Cause.barrier x) ∧
      (bar.target + y.toNat < 2 ^ 48 → bar.arrived < bar.target + y.toNat →
        Leaves2 (.barexpect p a b) s (s.setBar ck n { bar with target := bar.target + y.toNat, armed := true }) t) ∧
      (t.sbuf = [] → t.remote = [] → (bar.armed = false ∨ bar.arrived + y.toNat < bar.target) →
        Leaves2 (.bararrive p a b) s (s.setBar ck n (bar.count y.toNat)) t)) ∧
    (bar.gen ≠ y.toNat % 2 ^ 16 → Leaves (.waitbar p a b) s t) ∧
    (bar.gen = y.toNat % 2 ^ 16 →
      let r := s.newTx s.unit.core
      Awaits (.waitbar p a b) s
        (r.1.tickClock.modCx ck fun c => { c with barWait := c.barWait ++ [{ index := n, gen := bar.gen, tk := tk, txid := r.2 }] }) t
        { id := s.clock, kind := .waitbar n bar.gen, acq := true, window := 0, upc := s.unit.addr,
          lanes := [{ src := .reply, txid := r.2, len := 8 }] }) ∧
    Leaves (.barread p d a l) s (t.wg d.toNat (BitVec.ofNat 64
      (bar.gen + 2 ^ 16 * (if bar.armed then 1 else 0) + 2 ^ 24 * bar.flags + 2 ^ 32 * min bar.arrived (2 ^ 32 - 1))))
/-! ## Job cards, flumes and the sluice board (R211 to R223, R388 to R394) -/

/-- The machine after a card enters the queue of its context core (R388, R390): a free card may start at once, a held one is
looked at by the sluice board. -/
def cardQueued (s : State) (t : Thread) (held : Option Nat) (c : Card) (p : List Range × List Range) : State :=
  let tk := s.unit.tk
  let ck := ckOfTk tk
  let c' : Card := { c with id := s.clock, tk := tk, priv := t.priv != 0, untranslated := untranslated tk t, lin := t.lin,
                            held := held, reads := p.1, writes := p.2, seq := s.clock }
  let s' := s.tickClock.modCx ck fun x => { x with cards := x.cards ++ [c'] }
  if held.isNone then s'.later (.jobCardStart ck s.clock) else s'.sluiceCheck ck

/-- R213, R388, R390: CPYT and CPYTH with a card that reads without poison. A card that passes R214 and R215 enters the queue with
its footprint, and the thread goes on; a card that does not raises ENGINE, as does a held queue above 7; a footprint that wraps
raises FOOTPRINT; a card at a wrong address raises what steps 1 and 2 name; a full queue refuses the unit. -/
def Claims.CopyIssueResults : Prop :=
  ∀ (s : State) (t : Thread), Alone s t → ∀ (p : Bool) (a b : BitVec 5),
    let tk := s.unit.tk
    let ck := ckOfTk tk
    let x := t.rg a.toNat
    let q := (t.rg b.toNat).toNat
    (∀ e, s.recordAt ck x 256 64 = .error e → Traps (.cpyt p a) s e x ∧ Traps (.cpyth p a b) s e x) ∧
    (∀ off, s.recordAt ck x 256 64 = .ok off → s.jobHolds tk (.pool ck off) 256 false = false → s.poolPoison ck off 256 = none →
      let img := s.poolRead ck off 256
      let c := copyOf img
      let good : Prop := copyBad img = false ∧ c.copyRules = true
      (¬ good → Traps (.cpyt p a) s Cause.engine x ∧ Traps (.cpyth p a b) s Cause.engine x) ∧
      (8 ≤ q → Traps (.cpyth p a b) s Cause.engine x) ∧
      (good → s.copyPrint ck c = none → Traps (.cpyt p a) s Cause.footprint x ∧ (q < 8 → Traps (.cpyth p a b) s Cause.footprint x)) ∧
      (∀ pr, good → s.copyPrint ck c = some pr →
        ((s.cx ck).cards.length < 256 → t.sbuf = [] → t.remote = [] →
          Leaves2 (.cpyt p a) s (cardQueued s t none c pr) t ∧
          (q < 8 → Leaves2 (.cpyth p a b) s (cardQueued s t (some q) c pr) t)) ∧
        (256 ≤ (s.cx ck).cards.length →
          exec (.cpyt p a) s = .next { s.setThr tk { t with park := none } with unit := { s.unit with refused := true } })))

/-- R389: CPYB queues a copy of LEN bytes from g b to g a with the barrier, the tag and NOALLOC of g d; a length of 0 or
a set bit 63 raises ENGINE with g d. -/
def Claims.BulkCopyIssue : Prop :=
  ∀ (s : State) (t : Thread), Alone s t → t.sbuf = [] → t.remote = [] → ∀ (p : Bool) (d a b : BitVec 5) (len bar tag : Nat) (barEn noalloc top : Bool),
    len < 2 ^ 40 → bar < 2 ^ 9 → tag < 2 ^ 12 →
      let ck := ckOfTk s.unit.tk
      (t.rg d.toNat).toNat = len + 2 ^ 40 * bar + 2 ^ 49 * bitOf barEn + 2 ^ 50 * tag + 2 ^ 62 * bitOf noalloc + 2 ^ 63 * bitOf top →
      let c : Card := { kind := .copy, dims := [{ cnt := len, sstr := 1, dstr := 1 }], src := t.rg b.toNat, dst := t.rg a.toNat,
                        bar := if barEn then bar else 0xFFFF, tag := tag, noalloc := noalloc }
      (top = true ∨ len = 0 → Traps (.cpyb p d a b) s Cause.engine (t.rg d.toNat)) ∧
      (∀ pr, top = false → len ≠ 0 → s.copyPrint ck c = some pr → (s.cx ck).cards.length < 256 →
        Leaves2 (.cpyb p d a b) s (cardQueued s t none c pr) t)

/-- R266, R390: MLONG and MLONGH queue the card read at g a, with the code tables of the thread, where every step of it passes R258
and R260; reserved bits, a count of 0 or above 256, a step that is no multiple of 64 or a bad status address raise ENGINE. -/
def Claims.MatrixLongIssue : Prop :=
  ∀ (s : State) (t : Thread), Alone s t → t.sbuf = [] → t.remote = [] → ∀ (p : Bool) (a b : BitVec 5) (off : Nat),
    let tk := s.unit.tk
    let ck := ckOfTk tk
    let x := t.rg a.toNat
    let q := (t.rg b.toNat).toNat
    s.recordAt ck x 64 64 = .ok off → s.jobHolds tk (.pool ck off) 64 false = false → s.poolPoison ck off 64 = none →
      let img := s.poolRead ck off 64
      let c := mlongOf img t
      (bits img 0 8 ≠ 4 ∨ bits img 9 7 ≠ 0 ∨ bits img 40 24 ≠ 0 ∨ bits img 16 16 = 0 ∨ 256 < bits img 16 16 ∨
          c.aStep % 64 ≠ 0 ∨ c.bStep % 64 ≠ 0 ∨ c.stAddr.toNat % 8 ≠ 0 ∨ s.mlongOk ck c = false →
        Traps (.mlong p a) s Cause.engine x ∧ Traps (.mlongh p a b) s Cause.engine x) ∧
      (∀ pr, bits img 0 8 = 4 → bits img 9 7 = 0 → bits img 40 24 = 0 → 1 ≤ bits img 16 16 → bits img 16 16 ≤ 256 →
        c.aStep % 64 = 0 → c.bStep % 64 = 0 → c.stAddr.toNat % 8 = 0 → s.mlongOk ck c = true → s.mlongPrint ck c = some pr →
        (s.cx ck).cards.length < 256 →
          Leaves2 (.mlong p a) s (cardQueued s t none c pr) t ∧ (q < 8 → Leaves2 (.mlongh p a b) s (cardQueued s t (some q) c pr) t))

/-- R88, R390: BMVJ and BMVJH make the job of the card at g a known to the memory controllers and queue the card; a card that R89
turns away raises ENGINE. -/
def Claims.BankJobIssue : Prop :=
  ∀ (s : State) (t : Thread), Alone s t → t.sbuf = [] → t.remote = [] → ∀ (p : Bool) (a b : BitVec 5) (off : Nat),
    let tk := s.unit.tk
    let ck := ckOfTk tk
    let x := t.rg a.toNat
    let q := (t.rg b.toNat).toNat
    s.recordAt ck x 128 64 = .ok off → s.jobHolds tk (.pool ck off) 128 false = false → s.poolPoison ck off 128 = none →
      let img := s.poolRead ck off 128
      let n := s.bmv.nextJob
      let j := { bmvOf img with
        id := n, ck := ck, card := s.clock, pasid := (s.pasidOf ck).getD 0, priv := t.priv != 0, untranslated := untranslated tk t }
      let known (s' : State) : State := { s' with bmv := { s'.bmv with jobs := s'.bmv.jobs ++ [j], nextJob := n + 1 } }
      let c : Card := { kind := .bmv, job := n, stAddr := word j.staddr }
      (s.bmvBad ck img = true → Traps (.bmvj p a) s Cause.engine x ∧ (q < 8 → Traps (.bmvjh p a b) s Cause.engine x)) ∧
      (∀ pr, s.bmvBad ck img = false → s.bmvPrint ck j = some pr → (s.cx ck).cards.length < 256 →
        Leaves2 (.bmvj p a) s (known (cardQueued s t none c pr)) t ∧
        (q < 8 → Leaves2 (.bmvjh p a b) s (known (cardQueued s t (some q) c pr)) t))

/-- R392, R393: FBIND binds fk with the pattern at g a, v(24 + k) becomes unpredictable, and an in-flume starts to prefetch; a
record that R211 turns away raises the trap it names, a flume that is bound already raises PORT. FUNBIND discards an in-flume's
entries and writes an out-flume's in push order, and v(24 + k) becomes an ordinary register with an unpredictable value; of an
unbound flume it has no effect. -/
def Obligations.FlumeBindResults : Prop :=
  ∀ (s : State) (t : Thread) (p : Bool) (k : BitVec 3) (a : BitVec 5), s.thr s.unit.tk = some t → s.unit.phase = .lone → t.pend = [] →
    t.portcfg = 0 →
    let tk := s.unit.tk
    let ck := ckOfTk tk
    let x := t.rg a.toNat
    (∀ e, s.recordAt ck x 32 32 = .error e → Traps (.fbind p k a) s e x) ∧
    (∀ off, s.recordAt ck x 32 32 = .ok off →
      ((∃ f, (k.toNat, f) ∈ t.flumes) → Traps (.fbind p k a) s Cause.port (word (16 + k.toNat))) ∧
      (t.flumes = [] → s.jobHolds tk (.pool ck off) 32 false = false → s.poolPoison ck off 32 = none →
        let img := s.poolRead ck off 32
        (∀ e, s.flumeTrap ck img = some e → Traps (.fbind p k a) s e x) ∧
        (s.flumeTrap ck img = none →
          let f := flumeOf img
          let s' : State := { s with free := s.free + 1 }
          Leaves2 (.fbind p k a) s (if f.out then s' else s'.laterOnce (.flumeTransfer tk k.toNat))
            { t.wv (24 + k.toNat) (Config.freeVec s.free) with flumes := [(k.toNat, f)] }))) ∧
    (t.flumes = [] → Leaves (.funbind p k) s t) ∧
    (∀ f, t.flumes = [(k.toNat, f)] →
      let written := if f.out then f.queue.zipIdx else []
      let s' := written.foldl (fun (s : State) e => s.poolWrite ck (f.addr (f.pos + e.2)) (bytesOfVec e.1)) s
      Leaves2 (.funbind p k) s { s' with free := s.free + 1 } { t.wv (24 + k.toNat) (Config.freeVec s.free) with flumes := [] })

/-- R219, R394: SBPULSE adds its count to one counter, which saturates at 0xFFFF and then sets SAT, and the outlets are looked at;
SBCLR clears COUNT and SAT of every counter whose bit is set and leaves the others. -/
def Claims.SluiceBoardResults : Prop :=
  (∀ (s : State) (t : Thread), Alone s t → ∀ (p : Bool) (a : BitVec 5),
    let ck := ckOfTk s.unit.tk
    let x := t.rg a.toNat
    (t.sbuf = [] → t.remote = [] →
      Leaves2 (.sbpulse p a) s ((s.modCx ck fun c => { c with
        sbcnt := Tbl.upd 0 c.sbcnt (x.toNat % 32) fun w => countPulse w (x.toNat / 256 % 256) }).sluiceCheck ck) t) ∧
    (Tbl.wf 0 (s.cx ck).sbcnt = true →
      ∃ tbl, Leaves2 (.sbclr p a) s (s.modCx ck fun c => { c with sbcnt := tbl }) t ∧
        ∀ i, Tbl.get 0 tbl i =
          if i < 32 ∧ x.getLsbD i = true then Tbl.get 0 (s.cx ck).sbcnt i &&& ~~~0x10000FFFF#64 else Tbl.get 0 (s.cx ck).sbcnt i)) ∧
  ∀ (w : Word) (n : Nat),
    let c := w.toNat % 2 ^ 16
    (c + n ≤ 0xFFFF → countPulse w n = w + BitVec.ofNat 64 n) ∧
    (0xFFFF < c + n → countPulse w n = w ||| 0x10000FFFF#64)

/-! ## Capsules (R271 to R281, R396, R397) -/

/-- The machine after a capsule image at pool offset `off` is handed to the interface (R274): the outgoing capsule is recorded, from
its landing slot, which becomes SENDING, or with the pending result it will bind, and LREQ goes to the destination `k`. -/
def capsuleHanded (s : State) (off : Nat) (slot pend : Option Nat) (k entry : Nat) (ret : Bool) : State :=
  let tk := s.unit.tk
  let ck := ckOfTk tk
  let n := 256 + s.poolRead ck (off + 12) 2
  let s' := match slot with
    | some j => s.modCx ck fun x => { x with slots := Tbl.upd {} x.slots j fun y => { y with st := .sending, holder := none } }
    | none => s.tickClock
  let me := (s'.coreOfCk ck).getD 0
  let tag := freshCtag (s'.cx ck).outcaps
  let o : OutCap := { ctag := tag, off := off, slot := slot, tk := tk, pend := pend, length := n, dstCk := k, entry := word entry,
                      header := leBytes 256 (s'.poolRead ck off 256) }
  let m : Msg := { src := me, dst := (s'.coreOfCk k).getD 0, ctag := tag, length := n, region := regionOfCk ck, ck := k, srcCk := ck,
                   sub := bitOf ret }
  ((s'.modCx ck fun x => { x with outcaps := x.outcaps ++ [o] }).countInj me (regionOfCk ck)).later (.lreq m)

/-- R274 to R276, R281: an image at a wrong place, or with a header that R275 turns away, raises CAPSULE. Otherwise, with the
interface free, CAPSEND at the end of the slip and both at the hop limit dead-letter the capsule; else the region number, and for
CAPSEND the advanced POS, are written, and the capsule goes to the entry's destination, or is dead-lettered where that is
unreachable. A capsule from a landing slot leaves the thread's hold at once; one from general scratchpad leaves a pending result. -/
def Obligations.CapsuleSendResults : Prop :=
  ∀ (s : State) (t : Thread), Alone s t → t.st = .ready → t.sbuf = [] → t.remote = [] →
    ∀ (p : Bool) (a : BitVec 5) (l : BitVec 4) (i : Instr) (ret : Bool) (la : Nat),
      (i, ret, la) ∈ [(Instr.capsend p a l, false, l.toNat), (.capret p a, true, 0)] →
      let tk := s.unit.tk
      let ck := ckOfTk tk
      let x := t.rg a.toNat
      (s.imageAt tk t x 256 = none → Traps i s Cause.capsule x) ∧
      (∀ off w, s.imageAt tk t x 256 = some (off, w) →
        let h := s.poolRead ck off 256
        let pos := capPos h
        let e := if ret then capretEntry else capSlip h pos
        (s.imageAt tk t x (256 + capTlen h) = none → Traps i s Cause.capsule x) ∧
        (∀ slot, s.imageAt tk t x (256 + capTlen h) = some (off, slot) →
          let bad : Prop := capTlen h % 64 ≠ 0 ∨ 16384 < capTlen h ∨ 24 < capNslip h ∨ capNslip h < pos ∨ capReserved h = true ∨
            (ret = false ∧ pos < capNslip h ∧ entryBad e = true)
          let left : Thread := { t with holds := if slot.isSome then none else t.holds }
          (bad → Traps i s Cause.capsule x) ∧
          (¬ bad → s.poolPoison ck off 256 = none → (s.cx ck).outcaps.length < 8 →
            s.jobHolds tk (.pool ck off) (256 + capTlen h) true = false →
            (ret = false → pos = capNslip h → Leaves2 i s (s.deadSend tk off slot 3 0) left) ∧
            ((ret = true ∨ pos ≠ capNslip h) → capHops h = 255 → Leaves2 i s (s.deadSend tk off slot 5 0) left) ∧
            ((ret = true ∨ pos ≠ capNslip h) → capHops h ≠ 255 →
              let s0 := s.poolWrite ck (off + 4) (leBytes 1 (regionOfCk ck))
              let s1 := if ret then s0 else s0.poolWrite ck (off + 6) (leBytes 1 (pos + 1))
              (s1.capDest ck h e = none → Leaves2 i s (s1.deadSend tk off slot 4 (word e)) left) ∧
              (∀ k ctr, s1.capDest ck h e = some (k, ctr) →
                (s1.unreachable k = true → Leaves2 i s (s1.deadSend tk off slot 4 (word e)) left) ∧
                (s1.unreachable k = false →
                  let s2 := match ctr with
                    | some c => s1.modCx ck fun x => { x with capCtr := Tbl.upd 0 x.capCtr c fun n => (n + 1) % 4 }
                    | none => s1
                  (∀ j, slot = some j → Leaves2 i s (capsuleHanded s2 off slot none k e ret) { t with holds := none }) ∧
                  (slot = none → Awaits i s (capsuleHanded s2 off none (some s2.clock) k e ret) t
                    { id := s2.clock, kind := .capsule, window := la, upc := s.unit.addr, lanes := [{}] })))))))

/-- R276, R279, R396: CAPDROP frees the landing slot that the thread holds, for the oldest queued LREQ if there is one; CAPDEAD
enters it as a dead letter with reason SOFTWARE and the code of g b. Both end the hold, and raise CAPSULE where g a is not the
start of a held slot. -/
def Claims.CapsuleEndResults : Prop :=
  ∀ (s : State) (t : Thread), Alone s t → ∀ (p : Bool) (a b : BitVec 5),
    let tk := s.unit.tk
    let ck := ckOfTk tk
    let x := t.rg a.toNat
    (s.heldStart tk t x = none → Traps (.capdrop p a) s Cause.capsule x ∧ Traps (.capdead p a b) s Cause.capsule x) ∧
    (∀ k, s.heldStart tk t x = some k →
      (x.toNat % 64 = 0 ∧ t.holds = some k) ∧
      Leaves2 (.capdrop p a) s (s.releaseSlot ck k) { t with holds := none } ∧
      Leaves2 (.capdead p a b) s
        ((s.tickClock.modCx ck fun c => { c with
          slots := Tbl.upd {} c.slots k fun y => { y with st := .deadwrite, holder := none }
          dead := c.dead ++ [{ id := s.clock, slot := some k, reason := 2, cause := Cause.capsule, holder := slotOfTk tk,
                               code := (t.rg b.toNat).toNat % 256, pc := s.unit.addr, lin := t.lin }] }).later (.deadLetter ck s.clock))
        { t with holds := none })

/-- R397: the slip edits, on an image whose first 256 bytes lie in general scratchpad or in a slot that the thread holds. CAPPOP and
CAPGET write an entry to g d, CAPPOP and CAPSKIP advance POS, CAPPUSH shifts the entries from POS up by one and inserts, CAPSET
replaces one; each raises CAPSULE exactly where its condition or the header's fails, and changes nothing else. -/
def Claims.SlipEditResults : Prop :=
  ∀ (s : State) (t : Thread), Alone s t → ∀ (p : Bool) (d a b c : BitVec 5) (off : Nat) (w : Option Nat),
    let tk := s.unit.tk
    let ck := ckOfTk tk
    let x := t.rg a.toNat
    s.imageAt tk t x 256 = some (off, w) → s.jobHolds tk (.pool ck off) 256 true = false → s.poolPoison ck off 256 = none →
      let h := s.poolRead ck off 256
      let pos := capPos h
      let nslip := capNslip h
      let entry (i : Nat) : Word := word (capSlip h i)
      let nb := (t.rg b.toNat).toNat
      let nc := (t.rg c.toNat).toNat
      let pos1 (n : Nat) : State := s.poolWrite ck (off + 6) (leBytes 1 n)
      let put (s : State) (i v : Nat) : State := s.poolWrite ck (off + (0x40 + 8 * i)) (leBytes 8 v)
      (24 < nslip ∨ nslip < pos → ∀ i ∈ [Instr.cappop p d a, .cappush p a b, .capset p a b c, .capget p d a c, .capskip p a b],
        Traps i s Cause.capsule x) ∧
      (nslip ≤ 24 → pos ≤ nslip →
        (pos < nslip → Leaves2 (.cappop p d a) s (pos1 (pos + 1)) (t.wg d.toNat (entry pos))) ∧
        (pos = nslip → Traps (.cappop p d a) s Cause.capsule x) ∧
        (nslip < 24 → Leaves2 (.cappush p a b) s
          ((put ((List.range (nslip - pos)).foldl (fun s i => put s (pos + i + 1) (capSlip h (pos + i))) s) pos nb).poolWrite ck (off + 7)
            (leBytes 1 (nslip + 1))) t) ∧
        (nslip = 24 → Traps (.cappush p a b) s Cause.capsule x) ∧
        (nc < nslip - pos → Leaves2 (.capset p a b c) s (put s (pos + nc) nb) t ∧
          Leaves (.capget p d a c) s (t.wg d.toNat (entry (pos + nc)))) ∧
        (nslip - pos ≤ nc → Traps (.capset p a b c) s Cause.capsule x ∧ Traps (.capget p d a c) s Cause.capsule x) ∧
        (nb ≤ nslip - pos → Leaves2 (.capskip p a b) s (pos1 (pos + nb)) t) ∧
        (nslip - pos < nb → Traps (.capskip p a b) s Cause.capsule x))

/-! ## Directory service and inbox spill (R403 to R411) -/

/-- R228, R287, R403, R411: below system mode every privileged instruction raises PRIV and has no effect of its own; the
instructions of the service thread raise ILLEGAL_OP, with the word, in any other thread slot. -/
def Claims.PrivilegedTraps : Prop :=
  ∀ (s : State) (t : Thread), Alone s t → ∀ (p : Bool) (d a b : BitVec 5) (l : BitVec 4),
    (t.priv = 0 → ∀ i ∈ [Instr.dsread p d a l, .dsprobe p d a b l, .dsdone p a, .dsclr p a, .dsbcast p a, .dsstab p a, .dsrel p a,
        .dspoll p d l, .spltake p d a l, .lbsend p a, .splend p, .sighost p a], Traps i s Cause.priv 0) ∧
    (t.priv ≠ 0 → isService s.unit.tk = false → ∀ i ∈ [Instr.dspoll p d l, .spltake p d a l, .lbsend p a, .splend p],
      Traps i s Cause.illegalOp (s.unit.word0.setWidth 64))

/-- R406, R409: DSREAD writes the record of the node that holds the line to v d, or zero where no node does. DSPROBE opens a
transaction at the line's home that probes the agent with SINV, and leaves a pending result. An operand out of its layout raises
ACCESS with that operand. -/
def Claims.DirectoryReadResults : Prop :=
  ∀ (s : State) (t : Thread), Alone s t → t.priv ≠ 0 → t.st = .ready → ∀ (p : Bool) (d a b : BitVec 5) (l : BitVec 4),
    let x := t.rg a.toNat
    let y := t.rg b.toNat
    let agent := x.toNat % 256
    (2 ^ 48 ≤ x.toNat → Traps (.dsread p d a l) s Cause.access x) ∧
    (x.toNat < 2 ^ 48 →
      let h := s.sl (homeOf (x.toNat / 64))
      (h.node (x.toNat / 64) = none → Leaves (.dsread p d a l) s (t.wv d.toNat 0)) ∧
      ∀ n, h.node (x.toNat / 64) = some n → Leaves (.dsread p d a l) s (t.wv d.toNat (nodeRecord h n))) ∧
    (2 ^ 16 ≤ x.toNat ∨ 0x50 ≤ agent → Traps (.dsprobe p d a b l) s Cause.access x) ∧
    (x.toNat < 2 ^ 16 → agent < 0x50 → 2 ^ 48 ≤ y.toNat → Traps (.dsprobe p d a b l) s Cause.access y) ∧
    (x.toNat < 2 ^ 16 → agent < 0x50 → y.toNat < 2 ^ 48 →
      let line := y.toNat / 64
      Awaits (.dsprobe p d a b l) s
        (s.tickClock.openTxn (homeOf line) { kind := .dsprobe, line := line, tk := s.unit.tk, pend := s.clock } .sinv [(agent, line)]
          (BitVec.ofNat 8 (x.toNat / 256))) t
        { id := s.clock, kind := .dirsvc, dsts := [.g d.toNat], fin := .gz d.toNat 8, lanes := [{}], window := l.toNat, upc := s.unit.addr })

/-- R407, R408: DSDONE ends the software step of the transaction with its token: one that still waits for answers goes on waiting
for them, an eviction that has them all frees its node; a token that no open transaction has raises ACCESS. DSCLR clears OVF of
a node that is not BUSY at a slice without unacknowledged SHARER notices, and otherwise has no effect. -/
def Claims.DirectoryCompletionResults : Prop :=
  ∀ (s : State) (t : Thread), Alone s t → t.priv ≠ 0 → ∀ (p : Bool) (a : BitVec 5),
    let x := t.rg a.toNat
    let token := x.toNat % 2 ^ 16
    let sl := x.toNat / 2 ^ 16
    let mine (q : Txn) : Bool := q.awaitDs && q.token == token
    (2 ^ 22 ≤ x.toNat → Traps (.dsdone p a) s Cause.access x) ∧
    (sl < 64 → (s.sl sl).txns.find? mine = none → Traps (.dsdone p a) s Cause.access x) ∧
    (∀ q, sl < 64 → (s.sl sl).txns.find? mine = some q →
      let q' : Txn := { q with awaitDs := false }
      let s' := s.modSl sl fun y => { y with txns := mapIf (fun (u : Txn) => u.id == q.id) (fun _ => q') y.txns }
      ((q.probes ≠ [] ∨ q.awaitWb ≠ []) → Leaves2 (.dsdone p a) s s' { t with invalHeld := false }) ∧
      (q.probes = [] → q.awaitWb = [] → q.kind = .evict → Leaves2 (.dsdone p a) s
        ((s'.setThr s.unit.tk { t with invalHeld := false }).finishTxn sl q') { t with invalHeld := false })) ∧
    (2 ^ 48 ≤ x.toNat → Traps (.dsclr p a) s Cause.access x) ∧
    (x.toNat < 2 ^ 48 →
      let line := x.toNat / 64
      let h := s.sl (homeOf line)
      (h.node line = none → Leaves (.dsclr p a) s t) ∧
      ∀ n, h.node line = some n →
        (n.ovf = true → h.nodeBusy n = false → h.unacked = 0 →
          Leaves2 (.dsclr p a) s (s.setSl (homeOf line) (h.setNode { n with ovf := false })) t) ∧
        ((n.ovf = false ∨ h.nodeBusy n = true ∨ h.unacked ≠ 0) → Leaves (.dsclr p a) s t))

/-- R55, R97, R410: DSBCAST gives a region without nodes one BCAST node at every home; DSSTAB declares a range of which no home has an
owner's node or an open transaction: every home holds writes to it and writes its dirty lines of it to DRAM; DSREL ends a declared range, and the homes look again at what they held. Operands
out of their layout, a 65th or an overlapping range, one beyond DRAM, and a range that is not declared raise ACCESS. -/
def Obligations.DirectoryRangeResults : Prop :=
  ∀ (s : State) (t : Thread), Alone s t → t.priv ≠ 0 → ∀ (p : Bool) (a : BitVec 5),
    let x := t.rg a.toNat
    let region := x.toNat / 2 ^ 16
    let r : Nat × Nat := (x.toNat / 2 ^ 21, x.toNat % 2 ^ 21 + 1)
    let units := (List.range r.2).map (· + r.1)
    let others := s.bmv.stable ++ s.bmv.declaring.filter (· != r)
    let inRange (n : Nat) : Bool := decide (r.1 ≤ n) && decide (n < r.1 + r.2)
    (x.toNat % 2 ^ 16 ≠ 0 ∨ 2 ^ 48 ≤ x.toNat → Traps (.dsbcast p a) s Cause.access x) ∧
    (x.toNat % 2 ^ 16 = 0 → x.toNat < 2 ^ 48 →
      (∀ sl < 64, (∀ n ∈ (s.sl sl).nodes, n.region ≠ region) ∧ (s.sl sl).setUsed region < 16) →
      Leaves2 (.dsbcast p a) s ((List.range 64).foldl (fun (u : State) sl => u.modSl sl fun y => { y with
        nodes := y.nodes ++ [{ region := region, level := 0, path := 0, st := .bcast, ver := Tbl.get 0 y.setVer (setOf region), used := s.sclk }] }) s) t) ∧
    (2 ^ 48 ≤ x.toNat ∨ 64 ≤ others.length ∨ (∃ q ∈ others, overlap q.1 q.2 r.1 r.2 = true) ∨ s.memTop < (r.1 + r.2) * 2 ^ 21 →
      Traps (.dsstab p a) s Cause.access x) ∧
    (x.toNat < 2 ^ 48 → others.length < 64 → (∀ q ∈ others, overlap q.1 q.2 r.1 r.2 = false) → (r.1 + r.2) * 2 ^ 21 ≤ s.memTop →
      r ∉ s.bmv.declaring →
      (∀ sl < 64, (∀ n ∈ (s.sl sl).nodes, inRange (n.region / 32) = true → n.st ≠ .own) ∧ ∀ q ∈ (s.sl sl).txns, inRange (q.line / 32768) = false) →
      let held := (List.range 64).foldl (fun (u : State) sl => u.modSl sl fun y => { y with stable := y.stable ++ units })
        { s with bmv := { s.bmv with declaring := s.bmv.declaring ++ [r] } }
      let clean := (List.range 64).foldl (fun (u : State) sl =>
        (u.sl sl).lines.foldl (fun (u : State) e => if inRange (e.1 / 32768) then u.cleanLine sl e.1 else u) u) held
      Leaves2 (.dsstab p a) s
        { clean with bmv := { clean.bmv with declaring := clean.bmv.declaring.filter (· != r), stable := clean.bmv.stable ++ [r] } } t) ∧
    (2 ^ 48 ≤ x.toNat ∨ r ∉ s.bmv.stable → Traps (.dsrel p a) s Cause.access x) ∧
    (x.toNat < 2 ^ 48 → r ∈ s.bmv.stable → t.sbuf = [] → t.remote = [] →
      Leaves2 (.dsrel p a) s ((List.range 64).foldl (fun (u : State) sl => (u.modSl sl fun y => { y with
        stable := y.stable.filter fun n => !(r.1 ≤ n && n < r.1 + r.2) }).retrySoon sl)
        { s with bmv := { s.bmv with stable := s.bmv.stable.filter (· != r) } }) t)

/-- R405: DSPOLL takes the oldest notice of the core to v d, or writes zero; a SHARER notice is acknowledged to its slice, an INVAL
notice is held until its DSDONE. The field noticeHeld is the model's own (log entry 120). -/
def Claims.NoticeResults : Prop :=
  ∀ (s : State) (t : Thread), Alone s t → t.priv ≠ 0 → isService s.unit.tk = true → ∀ (p : Bool) (d : BitVec 5) (l : BitVec 4),
    let c := s.unit.core
    ((s.core c).notices = [] → Leaves (.dspoll p d l) s ({ t with noticeHeld := false }.wv d.toNat 0)) ∧
    ∀ n rest, (s.core c).notices = n :: rest →
      let s' := s.modCore c fun x => { x with notices := rest }
      (n.kind = 1 → Leaves2 (.dspoll p d l) s (s'.later (.dsack { src := c, dst := homeId n.sl })) ({ t with noticeHeld := true }.wv d.toNat n.bytes)) ∧
      (n.kind ≠ 1 → Leaves2 (.dspoll p d l) s s' ({ t with noticeHeld := true, invalHeld := true }.wv d.toNat n.bytes))

/-- R168, R411: SPLTAKE writes the oldest spilled message as a record of 80 bytes at g a, here in a pool that the core serves, and
the number left to g d; all ones and no store where none is left. LBSEND reads such a record and puts the message in the core's
inbox; a record that is no user message to this core raises ACCESS, a full inbox parks the thread in SYNC. SPLEND clears spill
mode where the spill inbox is empty and else has no effect. -/
def Claims.SpillResults : Prop :=
  ∀ (s : State) (t : Thread), Alone s t → Canonical s → t.priv ≠ 0 → isService s.unit.tk = true → t.st = .ready → t.sbuf = [] → t.remote = [] →
    ∀ (p : Bool) (d a : BitVec 5) (l : BitVec 4),
      let tk := s.unit.tk
      let c := s.unit.core
      let ea := t.rg a.toNat
      (∀ e, s.target tk ea 80 16 true true = .error e → Traps (.spltake p d a l) s e ea ∧ Traps (.lbsend p a) s e ea) ∧
      (∀ tgt, s.target tk ea 80 16 true true = .ok tgt → (s.core c).spillInbox = [] →
        Leaves (.spltake p d a l) s (t.wg d.toNat (BitVec.allOnes 64))) ∧
      (∀ ck off m rest, s.target tk ea 80 16 true true = .ok (.pool ck off) → s.isLocal ck = true →
        s.jobHolds tk (.pool ck off) 80 true = false → (s.core c).spillInbox = m :: rest →
        Leaves2 (.spltake p d a l) s
          (((s.poolWrite ck off (leBytes 16 (userHeader m))).poolWrite ck (off + 16) (leBytes 64 (userPayload m).toNat)).modCore c fun x =>
            { x with spillInbox := rest })
          (t.wg d.toNat (word rest.length))) ∧
      (∀ tgt s1 r, s.target tk ea 80 16 true true = .ok tgt → s.readRecord tk ea = .ok (s1, r) → Tbl.wf none s.threads = true →
        ((bits r 0 8 ≠ 4 ∨ bits r 16 8 ≠ c) → Traps (.lbsend p a) s Cause.access ea) ∧
        (bits r 0 8 = 4 → bits r 16 8 = c → (s1.cx (ckOfTk tk)).inbox.length < 64 →
          Leaves2 (.lbsend p a) s (s1.inboxPut (ckOfTk tk)
            { src := bits r 8 8, dst := c, region := bits r 24 8, thread := bits r 32 4, delivery := word (bits r 48 8), len := bits r 96 6 + 1,
              data := some (BitVec.ofNat 512 (bits r 128 512)), ck := ckOfTk tk, srcCk := ckOfTk tk }) t) ∧
        (bits r 0 8 = 4 → bits r 16 8 = c → 64 ≤ (s1.cx (ckOfTk tk)).inbox.length →
          exec (.lbsend p a) s = .next (s1.setThr tk { t with st := .sync, park := some 0x300 }))) ∧
      ((s.core c).spillInbox = [] → Leaves2 (.splend p) s (s.modCore c fun x => { x with spill := false }) t) ∧
      ((s.core c).spillInbox ≠ [] → Leaves (.splend p) s t)

/-! ## The matrix unit's instructions (R256 to R270, R412 to R431) -/

/-- The machine after a thread's request joins the queue of its core at the matrix unit of cluster `c` (R264). -/
def requestQueued (s : State) (t : Thread) (c : Nat) (r : MxReq) : State :=
  let ck := ckOfTk s.unit.tk
  let r' : MxReq := { r with id := s.clock, ck := ck, tk := s.unit.tk, pend := s.clock, fmt := t.fmtctx, ct0 := t.codetab0, ct1 := t.codetab1 }
  (s.tickClock.modClu c fun x => { x with mxQueue := Tbl.upd [] x.mxQueue (ck % 4) (· ++ [r']) }).laterOnce (.matrixRequestServe c)

/-- R258, R262, R412, R418: MMA and MMAZ with operands that pass the checks join the queue of the matrix unit with the operand
bytes as they are read, and leave their tile pending; MMAZ's request clears the tile first. A check that fails raises its trap. -/
def Claims.MatrixAccumulateIssue : Prop :=
  ∀ (s : State) (t : Thread), Alone s t → t.st = .ready → t.remote = [] →
    ∀ (p : Bool) (z : BitVec 4) (a b e : BitVec 5) (l : BitVec 4) (i : Instr) (clear : Bool),
      (i, clear) ∈ [(Instr.mma p z a b e l, false), (.mmaz p z a b e l, true)] →
      let tk := s.unit.tk
      let ck := ckOfTk tk
      let ab := t.rg a.toNat
      let bb := t.rg b.toNat
      let edge := t.rg e.toNat
      let n := (t.zbase.toNat % 256) + z.toNat
      (edgeBad edge = true → Traps i s Cause.matrixFmt edge) ∧
      (edgeBad edge = false → edge.getLsbD 63 = false → shapeK t.fmtctx = none → Traps i s Cause.matrixFmt t.fmtctx) ∧
      (∀ c v, mmaTrap t.fmtctx edge ab bb n (s.tileCount ck) = some (c, v) → Traps i s c v) ∧
      (mmaTrap t.fmtctx edge ab bb n (s.tileCount ck) = none →
        (∀ x, s.operands ck t.fmtctx edge ab bb = .error x → Traps i s Cause.access x) ∧
        (∀ oa ob c, s.operands ck t.fmtctx edge ab bb = .ok (oa, ob) → s.clusterOfCk ck = some c →
          s.mxHeld tk t (oa.ranges ++ ob.ranges) [n] = false →
          Awaits i s (requestQueued s t c { op := .mma clear, tile := n, a := ab, b := bb, edge := edge, aRuns := oa.runs, bRuns := ob.runs,
                                            bad := match oa.bad with | some x => some x | none => ob.bad }) t
            { id := s.clock, kind := .matrix, dsts := [.z n], lanes := [{}], window := l.toNat, upc := s.unit.addr }))

/-- R412, R424, R425: MLU, MCHOL, MQR and MTRSM join the queue of the matrix unit and leave their tiles and registers pending. With
FACTSTEP.VALID the request resumes at the recorded step, with MLU's permutation and pivot maximum in its registers; VALID of another
operation, a tile beyond the store, and MTRSM on one tile raise their traps. -/
def Claims.FactorisationIssue : Prop :=
  ∀ (s : State) (t : Thread), Alone s t → t.st = .ready → t.remote = [] →
    ∀ (p : Bool) (z y : BitVec 4) (v g : BitVec 5) (q : BitVec 4) (sd up un : Bool) (l : BitVec 4)
      (i : Instr) (op : MxOp) (code : Nat) (tiles vds : List Nat) (gd : Nat),
      let n := (t.zbase.toNat % 256) + z.toNat
      let n2 := (t.zbase.toNat % 256) + y.toNat
      (i, op, code, tiles, vds, gd) ∈
        [(Instr.mlu p z v g l, MxOp.mlu, 1, [n], [v.toNat], g.toNat), (.mchol p z l, .mchol, 2, [n], [], 0),
         (.mqr p z q l, .mqr, 3, [n], [2 * q.toNat, 2 * q.toNat + 1], 0), (.mtrsm p z y sd up un l, .mtrsm sd up un, 4, [n, n2], [], 0)] →
      let tk := s.unit.tk
      let ck := ckOfTk tk
      let valid : Bool := t.factstep.getLsbD 9
      let other : Prop := valid = true ∧ t.factstep.toNat / 64 % 8 ≠ code
      (s.tileCount ck ≤ n → Traps i s Cause.access (word n)) ∧
      ((∀ x ∈ tiles, x < s.tileCount ck) →
        (tiles = [n, n] → Traps i s Cause.matrixFmt (word n)) ∧
        (tiles ≠ [n, n] → other → Traps i s Cause.matrixFmt t.factstep) ∧
        (∀ c, tiles ≠ [n, n] → ¬ other → s.clusterOfCk ck = some c → s.mxHeld tk t [] tiles = false →
          let s0 := if valid then t.factstep.toNat % 64 else 0
          Awaits i s (requestQueued s t c
            { op := op, tile := n, tile2 := tiles.getD 1 0, vd := vds.headD 0, gd := gd, step := s0, s0 := s0, resume := valid
              perm := if valid ∧ op = .mlu then t.rv (vds.headD 0) else 0
              amax := if valid then t.factstep.extractLsb' 32 32 else 0
              umax := if valid ∧ op = .mlu then (t.rg gd).setWidth 32 else 0 }) t
            { id := s.clock, kind := .matrix, dsts := tiles.map Dst.z ++ vds.map Dst.v ++ if gd = 0 then [] else [.g gd],
              lanes := [{}], window := l.toNat, upc := s.unit.addr }))

/-- R421, R422: ZRD converts the tile elements that the control word selects to the lanes of v d, ZWR the lanes to those elements
and leaves the rest of the tile, MCLR clears the tile's 4 KiB; a tile beyond the store raises ACCESS, a control word that R422
turns away MATRIX_FMT. -/
def Claims.TileMoveResults : Prop :=
  ∀ (s : State) (t : Thread), Alone s t → ∀ (p : Bool) (v a : BitVec 5) (z : BitVec 4) (ty : Ty) (l : BitVec 4),
    let tk := s.unit.tk
    let ck := ckOfTk tk
    let x := t.rg a.toNat
    let n := (t.zbase.toNat % 256) + z.toNat
    let acc : Ty := if x.getLsbD 6 then .i32 else .f32
    let row := x.toNat % 32
    let el (k : Nat) : Nat × Nat :=
      if ty.width = 32 then (row, 16 * (x.toNat / 32 % 2) + k) else if ty.width = 16 then (row, k) else (row + k / 32, k % 32)
    let at_ (e : Nat × Nat) : Nat := s.tileBase ck n + 128 * e.1 + 4 * e.2
    (s.tileCount ck ≤ n → Traps (.zrd p v a z ty l) s Cause.access (word n) ∧ Traps (.zwr p v a z ty l) s Cause.access (word n) ∧
      Traps (.mclr p z l) s Cause.access (word n)) ∧
    (n < s.tileCount ck → s.factOn ck n = false → s.jobHolds tk (.pool ck (s.tileBase ck n)) 4096 true = false →
      (moveBad x ty acc ty = true → Traps (.zrd p v a z ty l) s Cause.matrixFmt x) ∧
      (moveBad x ty ty acc = true → Traps (.zwr p v a z ty l) s Cause.matrixFmt x) ∧
      (moveBad x ty acc ty = false → ty.width = 8 ∨ ty.width = 16 ∨ ty.width = 32 →
        (∀ k < 512 / ty.width, s.poolPoison ck (at_ (el k)) 4 = none) →
        ∃ r, Leaves (.zrd p v a z ty l) s (t.wv v.toNat r) ∧
          ∀ k < 512 / ty.width, lane ty.width r k = moveConv x acc ty (s.poolRead ck (at_ (el k)) 4) % 2 ^ ty.width) ∧
      (moveBad x ty ty acc = false → ty.width = 8 ∨ ty.width = 16 ∨ ty.width = 32 →
        Leaves2 (.zwr p v a z ty l) s ((List.range (512 / ty.width)).foldl (fun (u : State) k =>
          u.poolWrite ck (at_ (el k)) (leBytes 4 (moveConv x ty acc (lane ty.width (t.rv v.toNat) k)))) s) t) ∧
      Leaves2 (.mclr p z l) s ((List.range 32).foldl (fun (u : State) i => u.poolWrite ck (at_ (i, 0)) (List.replicate 128 0)) s) t)

/-- R263, R416, R420: MEDGE computes the edge word of the thread's tile, MFMT sets FMTCTX where R256 accepts it, MCTLD loads both
code tables from 16 bytes, here of a pool that the core serves, MCTSET sets them; a FMTCTX that is not accepted raises MATRIX_FMT. -/
def Claims.MatrixContextResults : Prop :=
  ∀ (s : State) (t : Thread), Alone s t → ∀ (p : Bool) (d a b c : BitVec 5),
    let tk := s.unit.tk
    let x := t.rg a.toNat
    (shapeK t.fmtctx = none → Traps (.medge p d a b c) s Cause.matrixFmt t.fmtctx) ∧
    (∀ k int, shapeK t.fmtctx = some (k, int) →
      let tc : Nat := t.geom1.toNat % 2 ^ 16
      let tr : Nat := t.geom1.toNat / 2 ^ 16 % 2 ^ 16
      let rows : Int := min 32 (max 0 (x.toInt - 32 * (tr : Int)))
      let cols : Int := min 32 (max 0 ((t.rg b.toNat).toInt - 32 * (tc : Int)))
      let kv : Int := min (k : Int) (max 0 (t.rg c.toNat).toInt)
      let low : Nat := if rows = 0 ∨ cols = 0 ∨ kv = 0 then 2 ^ 63 else rows.toNat % 32 + cols.toNat % 32 * 2 ^ 6 + kv.toNat % k * 2 ^ 12
      Leaves (.medge p d a b c) s (t.wg d.toNat (BitVec.ofNat 64 (low + tr * 2 ^ 24 + tc * 2 ^ 42)))) ∧
    ((x.toNat / 2 ^ 10 % 64 ≠ 0 ∨ shapeOf x = none) → Traps (.mfmt p a) s Cause.matrixFmt x) ∧
    (x.toNat / 2 ^ 10 % 64 = 0 → shapeOf x ≠ none → Leaves (.mfmt p a) s { t with fmtctx := x }) ∧
    Leaves (.mctset p a b) s { t with codetab0 := x, codetab1 := t.rg b.toNat } ∧
    (∀ e, s.target tk x 16 16 true true = .error e → Traps (.mctld p a) s e x) ∧
    (∀ ck off, s.target tk x 16 16 true true = .ok (.pool ck off) → s.isLocal ck = true → t.remote = [] →
      s.jobHolds tk (.pool ck off) 16 false = false → s.poolPoison ck off 16 = none →
      Leaves (.mctld p a) s { t with codetab0 := word (s.poolRead ck off 8), codetab1 := word (s.poolRead ck (off + 8) 8) })

/-! ## How units issue: ports, flumes, pairs, windows and FP traps (R145, R195 to R199, R212, R235, R286, R287) -/

/-- R199, R325, R327, R329: an enabled port as an operand of ADD. An in port reads bytes 0 to 7 of the oldest message that matches
its channel and takes it, or parks the thread in SYNC where there is none; an out port sends the value with ANY = 0 and CH = k + 1;
a broken direction raises PORT with k, a destination core outside the partition or THREAD 15 in user mode ACCESS. -/
def Claims.PortOperandResults : Prop :=
  ∀ (s : State) (t : Thread), s.thr s.unit.tk = some t → s.unit.phase = .lone → t.pend = [] → t.flumes = [] →
    Tbl.wf 0 t.g = true → ∀ (k : Nat) (q d a b : BitVec 5), k < 4 → q.toNat = 28 + k → t.portcfg.getLsbD k = true → d.toNat < 28 → a.toNat < 28 → b.toNat < 28 →
      let tk := s.unit.tk
      let ck := ckOfTk tk
      let out := t.portcfg.getLsbD (4 + k)
      let dc := t.portcfg.toNat / 2 ^ (8 + 12 * k) % 64
      let dt := t.portcfg.toNat / 2 ^ (14 + 12 * k) % 16
      let sum := t.rg a.toNat + t.rg b.toNat
      (out = true → Traps (.add d q b) s Cause.port (word k)) ∧
      (out = false → Traps (.add q a b) s Cause.port (word k)) ∧
      (out = false → s.firstMsg tk t (k + 1) = none → Parks (.add d q b) s t .sync (some (word (0x100 + k)))) ∧
      (∀ m, out = false → s.firstMsg tk t (k + 1) = some m →
        Leaves2 (.add d q b) s (s.takeMsg tk t (k + 1)) (t.wg d.toNat (word (bytesAt (m.data.getD 0) 0 8) + t.rg b.toNat))) ∧
      (out = true → (s.ncores ck ≤ dc ∨ (dt = 15 ∧ t.priv = 0)) → Traps (.add q a b) s Cause.access (word (dc + 64 * dt))) ∧
      (out = true → dc < s.ncores ck → (dt ≠ 15 ∨ t.priv ≠ 0) → t.send = none → t.sbuf = [] → t.remote = [] → t.fenced = false →
        let me := (s.coreOfCk ck).getD 0
        let r := regionOfCk ck
        Leaves2 (.add q a b) s ((s.countInj me r).later (.userMessage
          { src := me, dst := (s.coreOfCk (mkCk r dc)).getD 0, len := 8, data := some (sum.setWidth 512), thread := slotOfTk tk, region := r,
            ck := mkCk r dc, srcCk := ck, delivery := word (dt + 32 * (k + 1)) })) t)

/-- R212: a bound flume as an operand of VMOV. An in-flume's read takes the first queued entry, an out-flume's write appends one, and
the transfer unit looks again; an empty or a full queue parks the thread in SYNC; a direction broken or a pattern exhausted raises
PORT with 8 + k. -/
def Claims.FlumeOperandResults : Prop :=
  ∀ (s : State) (t : Thread) (k : Nat) (f : Flume), s.thr s.unit.tk = some t → s.unit.phase = .lone → t.pend = [] → t.portcfg = 0 →
    t.flumes = [(k, f)] → Tbl.wf 0 t.v = true → k < 8 → ∀ (q d : BitVec 5), q.toNat = 24 + k → d.toNat < 24 →
      let tk := s.unit.tk
      let next := s.laterOnce (.flumeTransfer tk k)
      let reads := Instr.vmov d q 0 .i8
      let writes := Instr.vmov q d 0 .i8
      let left (queue : List Vec) : Thread := { t with flumes := [(k, { f with queue := queue, used := f.used + 1 })] }
      ((f.out = true ∨ f.total ≤ f.used) → Traps reads s Cause.port (word (8 + k))) ∧
      ((f.out = false ∨ f.total ≤ f.used) → Traps writes s Cause.port (word (8 + k))) ∧
      (f.out = false → f.used < f.total →
        (f.queue = [] → Parks reads s t .sync none) ∧
        ∀ x rest, f.queue = x :: rest → Leaves2 reads s next ((left rest).wv d.toNat x)) ∧
      (f.out = true → f.used < f.total →
        (4 ≤ f.queue.length → Parks writes s t .sync none) ∧
        (f.queue.length < 4 → Leaves2 writes s next (left (f.queue ++ [t.rv d.toNat]))))

/-- R235: an instruction that raises an exception whose trap is enabled traps with FP, precisely; TRAPVAL holds the raised flags
that are enabled, and for a vector instruction the lowest active lane that raised one of them. -/
def Claims.FpTraps : Prop :=
  ∀ (s : State) (t : Thread), Alone s t → ∀ (d a b : BitVec 5) (m : BitVec 3),
    let ten := t.fpcsr.extractLsb' 8 5
    (∀ e ∈ [(Instr.fadd d a b, fmtF32.add), (.fsub d a b, fmtF32.sub), (.fmul d a b, fmtF32.mul), (.fdiv d a b, fmtF32.div)],
      let f := (e.2 ((t.rg a.toNat).toNat % 2 ^ 32) ((t.rg b.toNat).toNat % 2 ^ 32)).2 &&& ten
      f ≠ 0 → Traps e.1 s Cause.fp (f.setWidth 64)) ∧
    (∀ e ∈ [(Instr.vadd d a b m .f32, fmtF32.add), (.vsub d a b m .f32, fmtF32.sub), (.vmul d a b m .f32, fmtF32.mul), (.vdiv d a b m .f32, fmtF32.div)],
      let raised (k : Nat) : Flags := (e.2 (lane 32 (t.rv a.toNat) k) (lane 32 (t.rv b.toNat) k)).2 &&& ten
      ∀ (f : Flags) (k : Nat), (∀ i, f.getLsbD i = true ↔ ∃ j < 16, t.active m.toNat j = true ∧ (raised j).getLsbD i = true) →
        k < 16 → t.active m.toNat k = true → raised k ≠ 0 → (∀ j < k, t.active m.toNat j = true → raised j = 0) →
        Traps e.1 s Cause.fp (f.setWidth 64 + word (256 * k)))

/-- R195, R286, R287: a pair of JMP and an A-class word. Both take effect, with the next unit at the target; an A word that traps
leaves the pair without effect and sets TRAPSTATUS.WORD; a pair that names one destination register twice raises BUNDLE with both
words. -/
def Obligations.PairResults : Prop :=
  ∀ (s : State) (t : Thread), s.thr s.unit.tk = some t → s.unit.phase = .cOfPair → t.pend = [] → t.portcfg = 0 → t.flumes = [] →
    ∀ (d a b : BitVec 5) (o : BitVec 24) (w0 w1 : Nat),
      let tk := s.unit.tk
      let x := (t.rg a.toNat).toNat % 2 ^ 32
      let y := (t.rg b.toNat).toNat % 2 ^ 32
      let trap (cause : Nat) (val : Word) (word1 : Bool) (u : UnitCtx) : State :=
        ({ s with unit := u } : State).takeTrap tk cause val s.unit.addr word1 false
      (encode (.jmp true o) = some w0 → encode (.add d a b) = some w1 →
        ∃ u, s.issuePair tk t w0 w1 = .next (({ s with unit := u } : State).setThr tk
          (finished s (s.unit.addr + 4 * o.signExtend 64) (t.wg d.toNat (t.rg a.toNat + t.rg b.toNat))))) ∧
      (encode (.jmp true o) = some w0 → encode (.fadd d a b) = some w1 →
        let f := (fmtF32.add x y).2 &&& t.fpcsr.extractLsb' 8 5
        f ≠ 0 → ∃ u, s.issuePair tk t w0 w1 = .next (trap Cause.fp (f.setWidth 64) true u)) ∧
      (encode (.srr true d 0x003) = some w0 → encode (.add d a b) = some w1 → d ≠ 0 →
        ∃ u, s.issuePair tk t w0 w1 = .next (trap Cause.bundle (s.unit.word0.setWidth 64 ||| (s.unit.word1.setWidth 64 <<< 32)) false u))

/-- R196, R198: with a pending result, ADD issues while the window allows and names no destination of it, and the window shrinks;
otherwise the thread waits for the result in the state that R135 names, and a poisoned result that has arrived is taken as a
deferred POISON trap with an unpredictable value in its register. Here the result holds nothing of its unit back (R195), which only a
pair's does. -/
def Obligations.WindowResults : Prop :=
  ∀ (s : State) (t : Thread) (q : Pending), s.thr s.unit.tk = some t → s.unit.phase = .lone → t.pend = [q] → q.undo = none → t.portcfg = 0 → t.flumes = [] →
    t.st = .ready → ∀ (d a b : BitVec 5),
      let tk := s.unit.tk
      let names : Bool := q.dsts.any fun
        | .g r => r != 0 && [d.toNat, a.toNat, b.toNat].contains r
        | _ => false
      (1 ≤ q.window → names = false →
        exec (.add d a b) s = .next (s.setThr tk { finished s (s.unit.addr + 4) (t.wg d.toNat (t.rg a.toNat + t.rg b.toNat)) with
          pend := [{ q with window := q.window - 1, later := true }]
          st := if q.window = 1 then q.waitState else .ready })) ∧
      ((q.window = 0 ∨ names = true) → q.complete = false → exec (.add d a b) s = .next (s.setThr tk { t with st := q.waitState, park := none })) ∧
      (∀ g n v, (q.window = 0 ∨ names = true) → q.complete = true → q.poison = some v → q.fault = none → q.fin = .gz g n →
        exec (.add d a b) s = .next (({ s with free := s.free + 1 } : State).setThr tk { t.wg g (Config.freeWord s.free) with pend := [] }
          |>.takeTrap tk Cause.poison v t.pc false true))

/-- R11, R145: an F64V instruction on a core without F64V raises EXTENSION_ABSENT in a service thread, and in any thread of a
cluster whose core 0 is out of service; a user thread elsewhere moves to core 0 of its cluster with its PC at the instruction. -/
def Claims.ExtensionAbsent : Prop :=
  ∀ (s : State) (t : Thread), Alone s t → s.hasF64v s.unit.core = false → ∀ (d a b : BitVec 5) (m : BitVec 3),
    let tk := s.unit.tk
    ∀ i ∈ [Instr.vaddF64 d a b m, .vsubF64 d a b m, .vmulF64 d a b m, .vdivF64 d a b m, .vfmaF64 d a b m, .vsqrtF64 d a m],
      ((isService tk = true ∨ s.f64vCore (ckOfTk tk) = none) → Traps i s Cause.extensionAbsent 0) ∧
      (∀ z, isService tk = false → s.f64vCore (ckOfTk tk) = some z → t.sbuf = [] → t.remote = [] → exec i s = .next (s.moveThread tk z))

/-! ## The device's own steps: power, resets, errors and firmware (R9 to R39) -/

/-- The device's step completes, and the machine is then `s'`. -/
def Steps (i : Instr) (s s' : State) : Prop := exec i s = .next s'

/-- R20 to R26: clocks, operating points and power states. A trip, a recovery, the end of the stretching and a locked frequency
change one cluster's clock; LATTOL and PWRLIMIT take their fields, and states too deep for a new tolerance are left; a cluster or
the device enters a power state exactly where the tolerance and its idleness admit it, and leaves it at POWER_STATE_EXIT. An entry to LS2
goes on while a core of the cluster may be probed, and an event that came meanwhile aborts it. -/
def Claims.PowerStateSteps : Prop :=
  ∀ (s : State) (c : Nat) (v : Word),
    let x := s.clu c
    let cluster (i : Instr) (y : Cluster) : Prop := Steps i s (s.modClu c fun _ => y)
    let tol := s.pow.tol.toNat
    let cores := (List.range 4).map (4 * c + ·)
    let taken := cores.foldl (fun (u : State) n => u.extractCore n false) s
    let device (p : DevPower) : State := { s with pow := { s.pow with dev := p } }
    cluster (.droopTrip c) { x with low := true, stretch := some 0 } ∧
    (x.low = true → cluster (.supplyRecovery c) { x with low := false, stretch := some 0 }) ∧
    (∀ n, x.stretch = some n → 64 ≤ n → x.low = false → cluster (.droopStretchEnd c) { x with stretch := none }) ∧
    (∀ f, x.newFreq = some f → cluster (.clockFrequencySwitch c) { x with freq := f, newFreq := none }) ∧
    (tol ≠ 0 → x.power = .ls0 → s.noReady c = true → cluster (.ls1Entry c) { x with power := .ls1 }) ∧
    ((tol = 0 ∨ x.power ≠ .ls0 ∨ s.noReady c = false) → Steps (.ls1Entry c) s s) ∧
    (x.entry ≠ .aborted → 20 ≤ tol → s.unassigned c = true → s.tilesQuiet c = true → s.standbyQuiet c = true → x.power ≠ .ls2 →
      ((∀ n ∈ cores, taken.holdsLines n = false) →
        Steps (.ls2Entry c) s ((taken.standDown c).modClu c fun y => { y with power := .ls2, entry := .none })) ∧
      ((∃ n ∈ cores, taken.holdsLines n = true) →
        Steps (.ls2Entry c) s ((taken.modClu c fun y => { y with entry := .begun }).later (.ls2Entry c)))) ∧
    ((x.entry = .aborted ∨ tol < 20 ∨ s.unassigned c = false ∨ s.tilesQuiet c = false) → cluster (.ls2Entry c) { x with entry := .none }) ∧
    (s.pow.dev = .ls0 → 150 ≤ tol → s.ls3Ready = true → (tol < 1500 ∨ s.ls4Ready = false) → Steps .ls3Entry s (device .ls3)) ∧
    ((s.pow.dev ≠ .ls0 ∨ tol < 150 ∨ s.ls3Ready = false) → Steps .ls3Entry s s) ∧
    (1500 ≤ tol → s.ls3Ready = true → s.port.held = [] → s.port.hostHeld = [] → (∀ b ∈ s.ctl.sleep, b = true) → (∀ b ∈ s.ctl.wake, b = false) →
      Steps .ls4Entry s (device .ls4)) ∧
    ((tol < 1500 ∨ s.ls3Ready = false ∨ s.port.held ≠ []) → Steps .ls4Entry s s) ∧
    (s.pow.dev ≠ .ls0 → (tol < 150 ∨ s.ls3Ready = false) → Steps (.powerStateExit c) s (device .ls0)) ∧
    (s.pow.dev = .ls4 → 150 ≤ tol → tol < 1500 → s.ls3Ready = true → Steps (.powerStateExit c) s (device .ls3)) ∧
    (s.pow.dev = .ls0 → x.power = .ls1 → cluster (.powerStateExit c) { x with power := .ls0 }) ∧
    (s.pow.dev = .ls0 → x.power = .ls2 → x.resident.isSome = true →
      cluster (.powerStateExit c) { x with power := .ls0 }) ∧
    (∃ s', Steps (.lattolWrite v) s s' ∧ s'.pow = { s.pow with tol := v.setWidth 32 } ∧ s'.clusters = s.clusters ∧
      (c < 16 → x.power = .ls2 → v.toNat % 2 ^ 32 < 20 → .powerStateExit c ∈ s'.agenda)) ∧
    (∃ s', Steps (.pwrlimitWrite v) s s' ∧ s'.pow.limit = v.setWidth 8 ∧
      s'.pow.watts = BitVec.ofNat 8 (max 15 (min 90 (v.toNat % 256))) ∧
      ∀ e ∈ opRows, max 15 (min 90 (v.toNat % 256)) = e.1 → s'.pow.clusters = e.2.1 ∧
        (s.jobsIdle = true → s'.pow.rate = e.2.2.2) ∧ (s.jobsIdle = false → s'.pow.rate = s.pow.rate))

/-- R9, R10, R16, R19, R29, R31: errors are logged with their class; the sixteenth corrected error of a unit within 2^32 cycles, and an
unrecoverable failure, map the physical unit out at the next reset; a core leaves its cluster at the next swap; a module with a lane
fault falls back to x32 or goes out, which of the two, and which modules train at a link reset, being left open; a link that does not
train stops the device; a channel that fails at boot takes its group of four out. -/
def Claims.ErrorSteps : Prop :=
  ∀ (s : State) (u : HwUnit) (addr : Word) (n m ch : Nat),
    let logged (cls : Nat) (u : HwUnit) (addr : Word) (s : State) : State := { s with
      ctl := { s.ctl with errors := keepLast 256 (s.ctl.errors ++ [⟨cls, u, addr, s.ctl.errSeq⟩]), errSeq := s.ctl.errSeq + 1, wake := [true, true] } }
    let counted (u : HwUnit) (addr : Word) (s : State) : State := { logged 0 u addr s with
      ctl := { (logged 0 u addr s).ctl with errCount := s.ctl.errCount ++ [(u, [s.unitClock u])] } }
    let stopped : State := logged 3 .hostPort 0 { s with pow := { s.pow with fatal := true } }
    ((∀ e ∈ s.ctl.errCount, e.1 ≠ u) → Steps (.correctedError u addr) s (counted u addr s)) ∧
    ((∀ e ∈ s.ctl.errCount, e.1 ≠ .hostPort) → Steps (.adapterRetry m) s (counted .hostPort 0 s)) ∧
    (∀ l, s.ctl.errCount = [(u, l)] → l.length = 15 → (∀ k ∈ l, s.unitClock u < k + 2 ^ 32) →
      Steps (.correctedError u addr) s ({ logged 0 u addr s with ctl := { (logged 0 u addr s).ctl with errCount := [] } }.unitFatal u addr)) ∧
    (s.ctl.failures = [] → (s.clu (n / 4)).resident = none → Tbl.wf {} s.clusters = true →
      ∃ s', Steps (.unrecoverableFailure (.core n)) s s' ∧ s'.ctl = { (logged 2 (.core n) 0 s).ctl with failures := [s.physicalUnit (.core n)] } ∧
        n ∈ (s'.clu (n / 4)).failed ∧ s'.threads = s.threads ∧ s'.pow = s.pow) ∧
    Steps (.laneFault m true) s s ∧
    (∀ w, s.port.width[m]? = some w → w ≠ 0 → (∀ e ∈ s.ctl.errCount, e.1 ≠ .hostPort) →
      let l := s.port.width.set m (if w = 64 ∧ Config.freeNat s.free % 2 = 0 then 32 else 0)
      Steps (.laneFault m false) s (counted .hostPort 0
        { s with free := s.free + 1, port := { s.port with width := l, up := s.port.up && l.any fun x => x != 0 } })) ∧
    (let trains (k : Nat) : Bool := s.port.width.getD k 0 != 0 && Config.freeNat (s.free + k) % 2 == 0
     let link (up : Bool) (w : List Nat) : State := { s with free := s.free + 2, port := { s.port with up := up, training := !up, width := w } }
     (trains 0 = false → trains 1 = false → Steps .linkReset s (link false s.port.width)) ∧
     ((∀ k < 2, trains k = true ∨ s.port.width.getD k 0 = 0) → (trains 0 = true ∨ trains 1 = true) → Steps .linkReset s (link true s.port.width)) ∧
     (m < 2 → trains (1 - m) = true → trains m = false → s.port.width.getD m 0 ≠ 0 → (∀ e ∈ s.ctl.errCount, e.1 ≠ .hostPort) →
       Steps .linkReset s (counted .hostPort 0 (link true (s.port.width.set m 0))))) ∧
    (s.port.training = true → Steps .linkTrainTimeout s (if s.port.up then stopped.sendMsix 0 else stopped)) ∧
    (ch < 16 → s.ctl.ready = false → ch / 4 ∉ s.pow.groupsOut → 4 < s.pow.channels →
      let k := s.pow.channels / 4
      Steps (.channelFailure ch true) s { s with
        pow := { s.pow with groupsOut := s.pow.groupsOut ++ [ch / 4], channels := s.pow.channels - 4, top := s.pow.top / k * (k - 1) } }) ∧
    (ch < 16 → s.ctl.failures = [] → s.pow.failedCh = [] → (∀ k < 16, (s.clu k).resident = none) →
      Steps (.channelFailure ch false) s { logged 2 (.channel ch) 0 s with
        ctl := { (logged 2 (.channel ch) 0 s).ctl with failures := [.channel ch] }, pow := { s.pow with failedCh := [ch] } })

/-- R9, R27 to R29, R172: a power-on reset keeps the fuses and the non-volatile store alone; a device reset waits for its sweep and then
keeps DRAM, the error ring and the link besides; either loads the maps from the fuses, and an unreadable fuse map stops the device. A
cluster reset ends the cluster's bank-compute jobs, has the homes take the lines of its L1s, and then clears the cluster. -/
def Claims.ResetSteps : Prop :=
  ∀ (s : State) (c : Nat),
    let kept := s.ctl.kept
    let old (r : State) : State := { r with choices := s.choices, turn := s.turn, flip := s.flip, clock := s.clock, free := s.free }
    let cores := (List.range 4).map (4 * c + ·)
    let taken := cores.foldl (fun (u : State) n => u.extractCore n true) s
    Steps .powerOnReset s (old { State.reset with ctl := kept }).loadMaps ∧
    (∀ u : State, (u.ctl.fuseBad = true → u.loadMaps = u.deviceFatal (.controlCore 0) 0) ∧
      (u.ctl.fuseBad = false → u.ctl.fuseWays = [] → u.ctl.failures = [] →
        u.loadMaps = ({ u with pow := { u.pow with clusterMap := u.ctl.fuseClusters, sliceMap := u.ctl.fuseSlices } } : State).loadPorts)) ∧
    (s.pow.sweeping = false → Steps .deviceReset s ({ s with pow := { s.pow with sweeping := true } }.later .deviceReset)) ∧
    (s.pow.sweeping = true → s.sweepQuiet = false → Steps .deviceReset s (s.later .deviceReset)) ∧
    (s.pow.sweeping = true → s.sweepQuiet = true →
      let d := s.sweepAll.applyWindow
      Steps .deviceReset s (State.loadMaps <| old { State.reset with
        dram := d.dram, dramPoison := d.dramPoison, bmv := d.bmv
        ctl := { kept with resets := s.ctl.resets + 1, errors := s.ctl.errors, errSeq := s.ctl.errSeq }
        port := { State.reset.port with width := s.port.width, up := s.port.up, training := s.port.training, sent := s.port.sent, msix := s.port.msix } })) ∧
    ((s.clu c).resetting = false → Steps (.clusterReset c) s
      (((s.modClu c fun x => { x with resetting := true, entry := .none }).abortJobs c).later (.clusterReset c))) ∧
    ((s.clu c).resetting = true → (∃ n ∈ cores, taken.linesOf n ≠ []) → Steps (.clusterReset c) s (taken.later (.clusterReset c))) ∧
    ((s.clu c).resetting = true → (∀ n ∈ cores, taken.linesOf n = []) → taken.sched.standby = false → (taken.clu c).resident = none →
      Tbl.wf {} taken.clusters = true →
      ∃ s', Steps (.clusterReset c) s s' ∧ s'.threads = taken.threads ∧ s'.dram = taken.dram ∧ s'.agents = taken.agents ∧
        s'.clu c = { taken.clu c with ctu := [], mxQueue := [], mxDone := [], mxStep := none, cycle := 0, resetting := false } ∧
        (∀ k, k ≠ c → s'.clu k = taken.clu k))

/-- R32 to R39: the control tile. A core without work sleeps and wakes; a layer of the boot is checked, measured and started, with its
secret, keys and log entry; mailbox commands write their output to the host's buffer, which is that of their own MBADDR, and end with a
status, DMAERR where the buffer is no memory; while the homes have not answered for the buffer a command waits; the completion clears BUSY and fires vector 1. -/
def Obligations.FirmwareSteps : Prop :=
  ∀ (s : State) (k : Nat),
    let c := s.ctl
    let base := c.mbox.base.toNat * 4096
    let running (op : Nat) : Prop := c.mbox.busy = true ∧ c.mbox.op.toNat = op
    let ends (s : State) (status len : Nat) : State := ({ s with
      ctl := { s.ctl with mbox := { s.ctl.mbox with status := BitVec.ofNat 8 status, length := BitVec.ofNat 32 len } } }).laterOnce .mailboxCompletion
    let writes (i : Instr) (e : Ev) (s1 : State) (l : List Byte) : Prop :=
      let base := s1.ctl.mbox.base.toNat * 4096
      (s1.memTop < base + l.length → Steps i s (ends s1 3 0)) ∧
      (base + l.length ≤ s1.memTop →
        (∀ s2, s1.cohPut controlId base l false = .ok s2 → Steps i s (ends s2 0 l.length)) ∧
        (∀ s2, s1.cohPut controlId base l false = .error s2 → Steps i s (s2.laterOnce e)))
    (c.wake.getD k false = false → s.controlBusy = false → Steps (.retentionSleep k) s { s with ctl := { c with sleep := c.sleep.set k true } }) ∧
    Steps (.controlCoreWake k) s { s with ctl := { c with sleep := c.sleep.set k false, wake := c.wake.set k false } } ∧
    (∀ layer slot, (layer = 1 ∨ layer = 2) → c.layer + 1 = layer → c.fail = false → c.bootSlot layer = some slot →
      let img := c.images.getD slot []
      let m := sha512 (img.take (imgSize img))
      let s0 := if layer = 1 then leBytes 32 Config.deviceSecret.toNat else c.secret
      let s1 := hmacSha512 s0 (m ++ layerText)
      let pub := edPublic (layerSeed s1)
      ∃ s', Steps (.bootLayer layer) s s' ∧ s'.ctl.layer = layer ∧ s'.ctl.secret = s1 ∧ s'.ctl.seed = layerSeed s1 ∧
        s'.ctl.pubKeys = (if layer = 1 then [edPublic (layerSeed s0), pub] else c.pubKeys ++ [pub]) ∧
        s'.ctl.log = c.log ++ [logEntry layer (slot % 2) img m pub (layerSeed s0)] ∧ (layer = 2 → s'.ctl.ready = true) ∧
        s'.dram = s.dram ∧ s'.threads = s.threads) ∧
    (∀ layer, (layer = 1 ∨ layer = 2) → c.layer + 1 = layer → c.fail = false → c.bootSlot layer = none →
      ∃ s', Steps (.bootLayer layer) s s' ∧ s'.ctl.fail = true ∧ s'.pow.fatal = true ∧ s'.ctl.ready = c.ready) ∧
    (running 1 → writes .readlog .readlog s c.log.flatten) ∧
    (∀ s1 nonce, running 2 → base + 256 ≤ s.memTop → s.cohBytes controlId base 32 = .ok (s1, nonce, none) →
      writes .report .report s1 (s1.ctl.report nonce)) ∧
    (running 3 → writes .readerr .readerr s (c.errors.flatMap s.errBytes)) ∧
    (∀ s1 s2 h img, running 4 → base + 256 ≤ s.memTop → s.cohBytes controlId base 256 = .ok (s1, h, none) → imgSize h ≤ 256 + 448 * 1024 →
      base + imgSize h ≤ s1.memTop → s1.cohBytes controlId base (imgSize h) = .ok (s2, img, none) →
      let layer := imgField img 8 1
      ((layer ≠ 1 ∧ layer ≠ 2) ∨ s2.ctl.accepts layer img = false → Steps .stage s (ends s2 2 0)) ∧
      ((layer = 1 ∨ layer = 2) → s2.ctl.accepts layer img = true →
        let j := 2 * (layer - 1) + if s2.ctl.slots.getLsbD (layer - 1) then 0 else 1
        Steps .stage s (ends { s2 with ctl := { s2.ctl with
          images := s2.ctl.images.set j img, staged := s2.ctl.staged.set (layer - 1) (some j), booted := s2.ctl.booted.set j false, raise := s2.ctl.raise.set j (s2.ctl.mbox.arg.getLsbD 0) } } 0 0))) ∧
    (c.mbox.busy = true → (c.mbox.op.toNat = 0 ∨ 4 < c.mbox.op.toNat) → Steps .badop s (ends s 1 0)) ∧
    (c.mbox.busy = true → Steps .mailboxCompletion s ({ s with ctl := { c with mbox := { c.mbox with busy := false } } }.sendMsix 1))

/-! ## The front end's steps (R26, R102 to R124, R132, R454) -/

/-- R106, R109 to R111, R116, R121: doorbells, the loading of queues, the processors' choice and slices, and a coalescer's hold timer.
A doorbell that acts aborts an entry to LS2; one of an absent queue is kept pending and wakes a control core; a tail that runs ahead of
the ring is an error; a tail lowered to the head keeps the packet there that is in hand (notes/assumptions/143.md). -/
def Obligations.QueueSteps : Prop :=
  ∀ (s : State) (q off len pr : Nat) (v : Word),
    let fe := s.fe
    let t := v.setWidth 32
    let rung : State := { s.abortEntries with fe := { fe with tails := Tbl.put 0 fe.tails q t } }
    let good : Prop := off = 0 ∧ (len = 4 ∨ len = 8) ∧ q < 4096
    let live : Prop := good ∧ fe.qtEn = true ∧ q ∉ fe.disabled
    let dropped (u : State) : State := { u with fe := { u.fe with pending := u.fe.pending.filter fun (e : Nat × BitVec 32) => e.1 != q } }
    (¬ good → Steps (.doorbell q off len v) s s) ∧
    (good → (fe.qtEn = false ∨ q ∈ fe.disabled) → Steps (.doorbell q off len v) s rung) ∧
    (live → s.fq q = none → Steps (.doorbell q off len v) s
      (({ rung with fe := { rung.fe with pending := (fe.pending.filter fun (e : Nat × BitVec 32) => e.1 != q) ++ [(q, t)] } } : State).wakeControl.laterOnce
        (.queueLoad q))) ∧
    (∀ e, live → s.fq q = some e → e.st = .disabled → Steps (.doorbell q off len v) s rung) ∧
    (∀ e, live → s.fq q = some e → e.st ≠ .disabled → (t - e.head).toNat ≤ 2 ^ e.entry.logsize →
      (t ≠ e.head → e.st ≠ .idle → Steps (.doorbell q off len v) s (rung.modFq q fun y => { y with tail := t })) ∧
      (t ≠ e.head → e.st = .idle → Steps (.doorbell q off len v) s
        ((rung.modFq q fun y => { y with tail := t }).modFq q fun y => { y with st := .ready })) ∧
      (t = e.head → Steps (.doorbell q off len v) s (rung.modFq q fun y =>
        { y with tail := if e.cur.isSome ∨ e.st = .error ∧ e.failedAfter = false then t + 1 else t }))) ∧
    (∀ e, live → s.fq q = some e → e.st ≠ .disabled → 2 ^ e.entry.logsize < (t - e.head).toNat →
      Steps (.doorbell q off len v) s ((rung.queueError q 9 0 0 e.head.toNat 0 0).modFq q fun y =>
        { y with failedAfter := if e.st = .error then e.failedAfter else true })) ∧
    ((∀ e ∈ fe.pending, e.1 ≠ q) → Steps (.queueLoad q) s s) ∧
    (∀ n, fe.pending.find? (fun (e : Nat × BitVec 32) => e.1 == q) = some (q, n) →
      ((s.fq q).isSome = true → Steps (.queueLoad q) s ((dropped s).ringTail q n)) ∧
      (s.fq q = none → (fe.qtEn = false ∨ q ∈ fe.disabled) → Steps (.queueLoad q) s (dropped s)) ∧
      (s.fq q = none → q ∉ fe.disabled → fe.qtEn = true → s.binding q = true → Steps (.queueLoad q) s s) ∧
      (s.fq q = none → q ∉ fe.disabled → fe.qtEn = true → s.binding q = false →
        (∀ s1, s.readEntryOf q = .error s1 → Steps (.queueLoad q) s (s1.later (.queueLoad q))) ∧
        (∀ s1, s.readEntryOf q = .ok (s1, none) →
          Steps (.queueLoad q) s ((dropped s1).corrected .frontEnd (word (s1.fe.qtBase.toNat * 4096 + 64 * q)))) ∧
        ∀ s1 y, s.readEntryOf q = .ok (s1, some y) →
          (y.en = false → Steps (.queueLoad q) s (dropped s1)) ∧
          (y.en = true → s1.fe.queues.length < 256 → Steps (.queueLoad q) s ((dropped s1).loadQueue q n y)) ∧
          (y.en = true → 256 ≤ s1.fe.queues.length →
            (∀ w, s1.loadVictim = some w → Steps (.queueLoad q) s (((dropped s1).dropQueue w).loadQueue q n y)) ∧
            (s1.loadVictim = none → Steps (.queueLoad q) s s1)))) ∧
    (fe.procs[pr]? = none → Steps (.queueSelect pr) s s ∧ Steps (.queueSliceExpiry pr) s s) ∧
    (∀ p, fe.procs[pr]? = some p →
      (p.queue = none → Steps (.queueSliceExpiry pr) s s ∧
        (s.pickQueue = none → Steps (.queueSelect pr) s s) ∧
        ∀ e, s.pickQueue = some e →
          let turn : State := { s with fe := { fe with rr := Tbl.put 0 fe.rr e.entry.prio e.q } }
          (64 * max e.entry.qslice 1 < e.deficit → Steps (.queueSelect pr) s
            (turn.modFq e.q fun y => { y with deficit := y.deficit - 64 * max e.entry.qslice 1 })) ∧
          (e.deficit ≤ 64 * max e.entry.qslice 1 →
            let active := turn.modFq e.q fun y => { y with st := .active, reason := .none, deficit := 0 }
            let last : State := { active with fe := { active.fe with
              queues := (active.fe.queues.filter fun y => y.q != e.q) ++ active.fe.queues.filter fun y => y.q == e.q } }
            Steps (.queueSelect pr) s ((last.modProc pr fun _ => { queue := some e.q, left := 64 * max e.entry.qslice 1 - e.deficit }).serveQueue
              pr e.q))) ∧
      (p.queue = some q → Steps (.queueSelect pr) s (s.serveQueue pr q)) ∧
      (p.queue = some q → (p.left ≠ 0 ∨ s.fq q = none) → Steps (.queueSliceExpiry pr) s s) ∧
      (∀ e, p.queue = some q → p.left = 0 → s.fq q = some e →
        (e.cur.isSome = true → Steps (.queueSliceExpiry pr) s (s.modProc pr fun p => { p with expired := true })) ∧
        (e.cur = none → Steps (.queueSliceExpiry pr) s (s.releaseQueue q)))) ∧
    (let c := s.coal q
     (c.run = true → c.hold ≤ c.elapsed →
        let u := s.setCoal q { c with pend := 0, run := false, elapsed := 0 }
        Steps (.coalescerHoldExpiry q) s (if c.en then u.sendMsix c.vec else u)) ∧
     (c.run = false ∨ c.elapsed < c.hold → Steps (.coalescerHoldExpiry q) s s))

/-- R104: QCTL's operations. EVICT waits for the queue's started packets and then takes the queue out; RESUME and SKIP act on a queue in
ERROR alone, and SKIP passes the packet that failed in processing; DISABLE holds at once, a packet in hand running on
(notes/assumptions/144.md); any other operation is refused. -/
def Obligations.QueueControlSteps : Prop :=
  ∀ (s : State) (q : Nat),
    let result (r : BitVec 8) (u : State) : State := { u with fe := { u.fe with qctlBusy := none, qctlResult := r } }
    let enabled (u : State) : State := { u with fe := { u.fe with disabled := u.fe.disabled.filter (· != q) } }
    let held (u : State) : State := { u with fe := { u.fe with
      disabled := if u.fe.disabled.contains q then u.fe.disabled else u.fe.disabled ++ [q]
      pending := u.fe.pending.filter fun (e : Nat × BitVec 32) => e.1 != q } }
    (s.fq q = none → Steps (.evict q) s (result 0 (enabled s)) ∧ Steps (.resume q) s (result 2 s) ∧ Steps (.skip q) s (result 2 s) ∧
      Steps (.disable q) s (result 0 (held s))) ∧
    (∀ e, s.fq q = some e →
      let running : Prop := e.started ≠ [] ∨ ∃ p, e.cur = some p ∧ p.begun = true
      (e.st = .binding → Steps (.evict q) s (result 2 s)) ∧
      (e.st ≠ .binding → running → Steps (.evict q) s (({ s with fe := { s.fe with qctlBusy := some (q, 1) } } : State).later (.evict q))) ∧
      (e.st ≠ .binding → ¬ running → Steps (.evict q) s (result 0 (enabled ((s.freeProc q).dropQueue q)))) ∧
      (((e.st ≠ .error ∧ e.inError = false) ∨ q ∈ s.fe.disabled) → Steps (.resume q) s (result 2 s) ∧ Steps (.skip q) s (result 2 s)) ∧
      (e.st ≠ .error → e.inError = true → q ∉ s.fe.disabled →
        let u := s.modFq q fun e => { e with inError := false, failedAfter := false }
        Steps (.resume q) s (result 0 u) ∧ Steps (.skip q) s (result 0 u)) ∧
      (e.st = .error → q ∉ s.fe.disabled →
        Steps (.resume q) s (result 0 ((s.modFq q fun e => { e with st := .ready, failedAfter := false }).afterComplete q)) ∧
        Steps (.skip q) s (result 0 ((s.modFq q fun e =>
          { (if e.failedAfter then e else { e with head := e.head + 1, cur := none }) with st := .ready, failedAfter := false }).afterComplete q))) ∧
      ((∃ p, e.cur = some p ∧ p.begun = true) → Steps (.disable q) s (result 0 (held s))) ∧
      ((∀ p, e.cur = some p → p.begun = false) → Steps (.disable q) s (result 0 (held ((s.freeProc q).modFq q fun e =>
        { e with st := .disabled, reason := .none, cur := none, inError := false }))))) ∧
    Steps (.qctlBadOperation q) s (result 1 s)

/-- The packet in hand of an active queue is of a type and passes the checks of R113. -/
def InHand (s : State) (q typ : Nat) (e : Queue) (p : Packet) : Prop :=
  s.fq q = some e ∧ e.cur = some p ∧ e.st = .active ∧ pktType p.body = typ ∧ pktCheck e.entry.priv p.body = none

/-- R110, R112 to R115, R119, R120: packets that touch memory and the block copier. Each checked packet in hand has its effect and is then
processed: NOP none; COPY translates its addresses and hands its bytes to the block copier; SIGNAL and WRITE_SIGNAL make their atomic, after the data, and
parked WAITs poll; WAIT parks until its condition holds, or fails at its limit; a sorter's packets take CUSTOM's place. A packet
that fails a check stops its queue with that status; a packet whose parts are done completes. -/
def Claims.MemoryPacketSteps : Prop :=
  ∀ (s : State) (q : Nat) (e : Queue) (p : Packet),
    let b := p.body
    let f (off n : Nat) : Nat := pktField b off n
    let xlat (s : State) (va : Nat) (w : Bool) : FeRes Nat := s.pktXlat e.q e.space va w
    let signalled (s1 s2 : State) (va op x : Nat) : Prop :=
      ∃ s' pa r, xlat s1 va true = .ok s' pa ∧ s'.cohRmw feId pa 8 (fun l => leBytes 8 (atomicNew op 8 (leNat l) x 0)) = .ok r ∧ r.1 = s2
    let copying (s : State) : State := ((({ s.tickClock with fe := { s.fe with copies := s.fe.copies ++
        [{ id := s.clock, q := e.q, ser := p.ser, space := e.space, src := f 8 8, dst := f 0x10 8, len := f 0x18 8,
           pattern := if pktSubop b = 1 then some (word (f 0x20 8)) else none }] } } : State).addPart e.q p.ser).processed q)
    (∀ typ st, s.fq q = some e → e.cur = some p → e.st = .active → pktType b = typ → pktCheck e.entry.priv b = some st →
      ∀ i ∈ [(0, Instr.nopPacket q), (1, .launchPacket q), (2, .copyPacket q), (3, .bmvPacket q), (4, .signalPacket q), (5, .waitPacket q),
          (6, .writeSignalPacket q), (7, .unbindPacket q)], i.1 = typ → Steps i.2 s (s.failNow q st 0 0)) ∧
    (InHand s q 0 e p → Steps (.nopPacket q) s (s.processed q)) ∧
    (∀ s1 x, InHand s q 2 e p → pktSubop b = 1 → xlat s (f 0x10 8) true = .ok s1 x → Steps (.copyPacket q) s (copying s1)) ∧
    (∀ s1 s2 x y, InHand s q 2 e p → pktSubop b ≠ 1 → xlat s (f 8 8) false = .ok s1 x → xlat s1 (f 0x10 8) true = .ok s2 y →
      Steps (.copyPacket q) s (copying s2)) ∧
    (∀ s2, InHand s q 4 e p → signalled s s2 (f 8 8) (pktSubop b) (f 0x10 8) → Steps (.signalPacket q) s (s2.pollWaits.processed q)) ∧
    (∀ s1 s2 s3 s4 x pa, InHand s q 6 e p → e.stepNo = 0 → xlat s (f 0x30 8) true = .ok s1 x → xlat s1 (f 8 8) true = .ok s2 pa →
      s2.cohPut feId pa ((b.drop 0x10).take (pktSubop b + 1)) false = .ok s3 →
      signalled (s3.setStep e.q 1) s4 (f 0x30 8) 0 (f 0x38 8) → Steps (.writeSignalPacket q) s (s4.pollWaits.processed q)) ∧
    (∀ s1 l, InHand s q 5 e p → e.stepNo = 0 → s.pktRead e.q e.space (f 8 8) 8 = .ok s1 l →
      (waitHolds b (leNat l) = true → Steps (.waitPacket q) s (s1.processed q)) ∧
      (waitHolds b (leNat l) = false → Steps (.waitPacket q) s ((s1.setStep e.q 2).parkQueue q .memory))) ∧
    (∀ s1 l, s.fq q = some e → e.cur = some p → e.st = .parked → pktType b = 5 → e.stepNo = 2 →
      (e.reason = .memory → s.pktRead e.q e.space (f 8 8) 8 = .ok s1 l →
        (waitHolds b (leNat l) = true → Steps (.waitPoll q) s (s1.modFq q fun y => { y with st := .ready, reason := .none, stepNo := 1 })) ∧
        (waitHolds b (leNat l) = false → Steps (.waitPoll q) s (s1.setStep e.q 2))) ∧
      (f 0x20 4 ≠ 0 → 1024 * f 0x20 4 ≤ e.waited → Steps (.waitTimeout q) s (s.failNow q 6 0 (f 8 8)))) ∧
    (∀ s1 l, s.fq q = some e → e.cur = some p → e.st = .active → p.sorted = false → pktType p.bytes = 8 → pktCheck e.entry.priv p.bytes = none →
      s.sortRun e p = .ok s1 l →
      Steps (.customPacket q) s ((s1.modFq q fun y => { y with cur := some { p with sorted := true, emitted := l } }).goOn q)) ∧
    (∀ ser d, s.fq q = some e → (∀ j ∈ s.bmv.jobs, j.queue ≠ some (q, ser)) → e.started.find? (fun (p : Packet) => p.ser == ser) = some d →
      d.processed = true → d.open_ = 0 → (pktCmpl d.bytes = false ∨ e.entry.cntva = 0 ∨ d.counted = true) →
      let u := s.modFq q fun y => { y with started := y.started.filter fun (p : Packet) => p.ser != ser }
      Steps (.packetComplete q ser) s ((if pktCmpl d.bytes then u.coalCount q else u).afterComplete q))

/-- R80, R81, R118, R122 to R124, R203: LAUNCH makes the region that its RCB and its own fields describe, PENDING under the lowest
free number; BMV starts its job; BIND and UNBIND reserve, check, hold the target in BINDING while the translations of the PASID are
removed, and then give the target its new binding. -/
def Claims.LaunchAndBindSteps : Prop :=
  ∀ (s : State) (q : Nat) (e : Queue) (p : Packet),
    let b := p.body
    let f (off n : Nat) : Nat := pktField b off n
    let va := f 8 8
    let target := f 8 4
    let idle (t : Nat) (u : State) : State := ((u.freeProc t).modFq t fun e => { e with st := .binding, reason := .none, inError := false }).setStep e.q 3
    let inval (pasid : Nat) (u : State) : State := u.startInval { itag := 0x100 + e.q, pasid := some pasid, va := 0, sizeLog := 64 } (some pasid)
    (∀ r s1 l parent inh depth, InHand s q 1 e p → s.liveRegions.length < 256 → s.freeRegionNumber = some r → s.pktLines e.q e.space va 2 = .ok s1 l →
      let rcb := leNat l
      let pw := word (f 0x28 8)
      let v := rcbValues rcb inh
      let tpc := f 0x26 1
      rcbReserved rcb = false → partWordReserved pw = false → s1.parentOf e (bits rcb 0 64) = some (parent, inh, depth) →
      depth < 8 → rcbRange v = false → v.parts ≤ inh.parts → v.tpc ≤ inh.tpc → v.gran ≤ inh.gran → tpc ≤ v.tpc →
      partWordAccess pw tpc v.gran = false →
      let x : Region :=
        { vals := { v with prio := min v.prio inh.prio }, rcb := va, parent := parent, rootVa := e.rootVa, pasid := e.pasid.getD 0,
          q := e.q, pkt := p.ser, depth := depth + 1, entry := word (f 0x10 8), argva := word (f 0x18 8), gx := f 0x20 2, gy := f 0x22 2,
          gz := f 0x24 2, tpc := tpc, poolword := pw }
      Steps (.launchPacket q) s (((((s1.setRegion r (some x)).setRegionState r .pending 0).wakeShort x).addPart e.q p.ser).processed q)) ∧
    (InHand s q 1 e p → 256 ≤ s.liveRegions.length → Steps (.launchPacket q) s (s.parkQueue q .regions)) ∧
    (InHand s q 1 e p → s.liveRegions.length < 256 → s.freeRegionNumber = none → Steps (.launchPacket q) s (s.laterOnce (.launchPacket q))) ∧
    (∀ s1 l, InHand s q 3 e p → s.pktLines e.q e.space va 2 = .ok s1 l →
      let j := bmvOf (leNat l)
      let n := s1.bmv.nextJob
      ((s1.bmvBad 0 (leNat l) = true ∨ j.xsp = true ∨ j.ysp = true ∨ j.bar ≠ 0xFFFF) → Steps (.bmvPacket q) s (s.failNow q 12 0 va)) ∧
      (s1.bmvBad 0 (leNat l) = false → j.xsp = false → j.ysp = false → j.bar = 0xFFFF →
        Steps (.bmvPacket q) s ((((({ s1 with bmv := { s1.bmv with
          jobs := s1.bmv.jobs ++ [{ j with id := n, queue := some (e.q, p.ser), pasid := e.pasid.getD 0 }], nextJob := n + 1 } } : State).addPart
            e.q p.ser).later (.bmvJobStart n))).processed q))) ∧
    (∀ s1 s2 l, InHand s q 7 e p → e.stepNo = 0 → s.bindTargetOk target = .ok (s1, true) →
      let pasid := f 0x0C 4
      let kept : State := if s1.svc.bound.contains pasid then s1 else { s1 with svc := { s1.svc with bound := s1.svc.bound ++ [pasid] } }
      (s1.svc.bound.contains pasid = true ∨ s1.svc.bound.length < 1024) →
      (kept.setStep e.q 1).pktLines e.q (.pasid pasid) (f 0x10 8) 2 = .ok s2 l → rcbReserved (leNat l) = false →
      rcbRange (rcbValues (leNat l) {}) = false →
      let s3 := s2.modFq e.q fun y => { y with root := rcbValues (leNat l) {} }
      s3.binding target = false →
      Steps (.bindPacket q) s ((inval pasid (idle target s3)).parkQueue q .bind)) ∧
    (∀ s1, InHand s q 7 e p → e.stepNo = 3 → (∀ v ∈ s.svc.invals, v.itag ≠ 0x100 + e.q) →
      (s.rebind e.q target (some (f 0x0C 4, f 0x10 8, e.root)) = .ok s1 () → Steps (.bindPacket q) s (s1.processed q)) ∧
      (s.rebind e.q target none = .ok s1 () → Steps (.unbindPacket q) s (s1.processed q))) ∧
    (∀ s1, InHand s q 7 e p → e.stepNo = 0 → s.bindTargetOk target = .ok (s1, true) →
      (s1.bindingOf target = none → Steps (.unbindPacket q) s (s1.processed q)) ∧
      ∀ y, s1.bindingOf target = some y → s1.binding target = false →
        Steps (.unbindPacket q) s ((inval y.1 (idle target s1)).parkQueue q .bind))

/-- R6, R26, R39, R83, R104, R121, R132: writes of the host's registers. The window, queue-table, mailbox-address and save-area fields take
the value; MBCMD starts its command on the address that MBADDR holds then, and QCTL its operation, unless one is in progress; the save and service registers keep their value while a
partition context exists; a reserved offset has no effect. -/
def Obligations.RegisterWriteSteps : Prop :=
  ∀ (s : State) (v : Word),
    let writes (off : Nat) (s' : State) : Prop := Steps (.registerWrite off v) s s'
    let op := v.toNat % 256
    let free : Prop := s.sched.contexts = []
    writes 0x2808 { s with bmv := { s.bmv with winEn := v.getLsbD 0, winBase := v.extractLsb' 30 18, winSize := v.extractLsb' 48 8 } } ∧
    writes 0x3010 { s with ctl := { s.ctl with mbox := { s.ctl.mbox with addr := v.extractLsb' 12 52 } } } ∧
    writes 0x4000 { s with fe := { s.fe with qtEn := v.getLsbD 0, qtBase := v.extractLsb' 12 36 } } ∧
    (s.ctl.mbox.busy = true ∨ s.ctl.ready = false → writes 0x3008 s) ∧
    (s.ctl.mbox.busy = false → s.ctl.ready = true → writes 0x3008 (({ s with ctl := { s.ctl with
      mbox := { s.ctl.mbox with busy := true, op := v.setWidth 8, arg := v.extractLsb' 8 8, base := s.ctl.mbox.addr, status := 0, length := 0 } } } : State).wakeControl.later
        (if op = 1 then .readlog else if op = 2 then .report else if op = 3 then .readerr else if op = 4 then .stage else .badop))) ∧
    (s.fe.qctlBusy.isSome = true → writes 0x4008 s) ∧
    (s.fe.qctlBusy = none →
      let q := v.toNat % 2 ^ 12
      let k := v.toNat / 2 ^ 12 % 8
      writes 0x4008 (({ s with fe := { s.fe with qctlBusy := some (q, k) } } : State).later
        (if k = 1 then .evict q else if k = 2 then .resume q else if k = 3 then .skip q else if k = 4 then .disable q else .qctlBadOperation q))) ∧
    (free → writes 0x5000 { s with sched := { s.sched with saveEn := v.getLsbD 0, saveBase := v.extractLsb' 23 25 } } ∧
      writes 0x5008 { s with sched := { s.sched with saveCount := v.setWidth 13 } } ∧
      writes 0x5018 { s with sched := { s.sched with svcDataBase := v.extractLsb' 24 24 } } ∧
      ((v.getLsbD 0 = false ∨ s.sched.standby = true) →
        Steps (.svcimgWrite v) s { s with sched := { s.sched with svcEn := v.getLsbD 0, svcBase := v.extractLsb' 12 36 } }) ∧
      (v.getLsbD 0 = true → s.sched.standby = false →
        Steps (.svcimgWrite v) s ({ s with sched := { s.sched with svcEn := true, svcBase := v.extractLsb' 12 36 } } : State).createStandby)) ∧
    (¬ free → writes 0x5000 s ∧ writes 0x5008 s ∧ writes 0x5018 s ∧ Steps (.svcimgWrite v) s s) ∧
    (∀ off < 0x2000, writes off s)


/-! ## Steps of the translation service (R69 to R81) -/

/-- R69, R71, R73, R74, R78 to R81: a completion ends its request: its entry is installed and the waiter wakes, or the waiter meets the
cause of R71; one of a binding PASID or after an invalidation is used once; one for no outstanding request, or of an old generation,
gives no translation. A page response ends its page request: Success drops the page's entries, Invalid Request and a timeout fail its
waiters, Response Failure stops PRI; a page request whose index timed out keeps the index until its late response. An invalidation
removes what it covers at once, thirty-two at a time, and completes when the accesses in flight are done; a stop marker is sent when the
PASID's page requests are gone; disabling PRI clears the stopped state. -/
def Obligations.TranslationSteps : Prop :=
  ∀ (s : State) (on : Bool) (c : AtsCompletion) (q : AtsReq) (wt : XlatWait) (prg pasid itag : Nat) (r : AtsInvalidate),
    let v := s.svc
    let answered : State := { s with svc := { v with ats := [] }, port := { s.port with atsSent := s.port.atsSent.filter fun e => e.1 != c.tag } }
    let k := max c.sizeLog 12
    let x : Xlat := { pasid := q.pasid, gen := q.gen, sizeLog := k, vpn := q.vpn * 4096 / 2 ^ k, ppn := c.pa / 2 ^ k, r := c.r, w := c.w, x := c.x, priv := c.priv }
    let live : Prop := v.ats = [q] ∧ q.tag = c.tag ∧ q.gen = s.genOf q.pasid ∧ q.pasid ∈ v.bound ∧ q.waits = [wt]
    let fits : Prop := x.pa (q.vpn * 4096) + 4096 ≤ s.memTop
    let allowed : Prop := (wt.needR = true → c.r = true) ∧ (wt.needW = true → c.w = true) ∧ (wt.needX = true → c.x = true) ∧ (wt.priv = true → c.priv = true)
    let once : Prop := q.stale = true ∨ ∃ i ∈ v.invals, i.bindPasid = some q.pasid
    let ended (rest : List PageReq) : State := { s with
      svc := { v with pages := rest }, port := { s.port with priSent := s.port.priSent.filter fun e => e.1 != prg } }
    let late (rest : List PageReq) : State := { s with
      svc := { v with pages := rest, latePrgs := v.latePrgs ++ [prg] }, port := { s.port with priSent := s.port.priSent.filter fun e => e.1 != prg } }
    Steps (.priEnable on) s { s with svc := { v with priEn := on, priStopped := if on then v.priStopped else false } } ∧
    ((∀ e ∈ v.ats, e.tag ≠ c.tag) → Steps (.atsTranslationCompletion c) s s) ∧
    (v.ats = [q] → q.tag = c.tag → q.waits = [wt] → (q.gen ≠ s.genOf q.pasid ∨ q.pasid ∉ v.bound) →
      Steps (.atsTranslationCompletion c) s (answered.wakeWaiter wt.w)) ∧
    (live → c.abort = true → Steps (.atsTranslationCompletion c) s (answered.failWaiter wt.w Cause.pageFail q.vpn)) ∧
    (live → c.abort = false → (c.r = true ∨ c.w = true) → (c.u = true ∨ ¬ fits) →
      Steps (.atsTranslationCompletion c) s (answered.failWaiter wt.w Cause.access q.vpn)) ∧
    (live → c.abort = false → (c.r = true ∨ c.w = true) → c.u = false → fits → allowed → ¬ once →
      Steps (.atsTranslationCompletion c) s (((answered.installAtc x).installCtu wt.cluster (x.forCtu (q.vpn * 4096))).wakeWaiter wt.w)) ∧
    (live → c.abort = false → (c.r = true ∨ c.w = true) → c.u = false → fits → allowed → once →
      Steps (.atsTranslationCompletion c) s ((answered.modX wt.w fun y => { y with once := y.once ++
        [{ vpn := q.vpn, ppn := x.pa (q.vpn * 4096) / 4096, r := c.r, w := c.w, x := c.x, priv := c.priv }] }).wakeWaiter wt.w)) ∧
    ((∀ p ∈ v.pages, p.sent = false ∨ p.prg ≠ prg) →
      (∀ code, Steps (.pageRequestResponse prg code) s (State.sendPages { s with svc := { v with latePrgs := v.latePrgs.filter (· != prg) } })) ∧
      Steps (.pageRequestTimeout prg) s s) ∧
    (∀ p rest, v.pages = p :: rest → p.sent = true → p.prg = prg →
      Steps (.pageRequestResponse prg .success) s (State.sendPages (((ended rest).dropPage p.pasid p.vpn).endPage p none)) ∧
      Steps (.pageRequestResponse prg .invalid) s (State.sendPages ((ended rest).endPage p (some Cause.pageFail))) ∧
      ((∀ e ∈ rest, e.sent = true) → Steps (.pageRequestResponse prg .failure) s
        (({ ended rest with svc := { (ended rest).svc with priStopped := true } } : State).endPage p (some Cause.pageFail))) ∧
      Steps (.pageRequestTimeout prg) s (State.sendPages (((late rest).endPage p (some Cause.pageFail)).corrected .hostPort 0))) ∧
    (32 ≤ (v.invals.filter fun i => i.bindPasid.isNone).length →
      Steps (.atsInvalidateRequest r) s { s with svc := { v with invalWait := v.invalWait ++ [r] } }) ∧
    ((v.invals.filter fun i => i.bindPasid.isNone).length < 32 → s.bmv.jobs = [] →
      let covers (e : Xlat) : Bool := invalCovers r e.pasid (e.vpn * 2 ^ e.sizeLog) e.sizeLog
      ∃ s', Steps (.atsInvalidateRequest r) s s' ∧ s'.svc.atc = v.atc.filter (fun e => !covers e) ∧
        s'.clusters = (s.clusters.map fun n => (n.1, { n.2 with ctu := n.2.ctu.filter fun e => !covers e })) ∧
        s'.svc.ats = mapIf (fun q => invalCovers r q.pasid (q.vpn * 4096) 12) (fun q => { q with stale := true }) v.ats ∧
        (∃ i, s'.svc.invals = v.invals ++ [i] ∧ i.itag = r.itag ∧ i.req = r ∧ i.bindPasid = none ∧ i.pends = s.inFlight.1 ∧
          i.stores = s.inFlight.2 ∧ i.elems = s.elemsInFlight) ∧
        s'.dram = s.dram ∧ s'.threads = s.threads) ∧
    (∀ i rest, v.invals = i :: rest → i.itag = itag → s.invalDone i = true →
      let done : State := { s with svc := { v with invals := rest }, port := { s.port with invDone := s.port.invDone ++ [itag] } }
      (i.bindPasid = none → v.invalWait = [] → Steps (.invalidationCompletion itag) s done) ∧
      (∀ w ws, i.bindPasid = none → v.invalWait = w :: ws →
        Steps (.invalidationCompletion itag) s (({ done with svc := { done.svc with invalWait := ws } } : State).startInval w none)) ∧
      ∀ p, i.bindPasid = some p →
        let next := s.genOf p + 1
        ((∀ e ∈ v.ats, e.pasid ≠ p ∨ e.gen ≠ next) → (∀ e ∈ v.pages, e.pasid ≠ p ∨ e.gen ≠ next) →
          Steps (.invalidationCompletion itag) s { s with svc := { v with invals := rest, gens := Tbl.put 0 v.gens p next } })) ∧
    ((∀ i ∈ v.invals, i.itag = itag → s.invalDone i = false) → Steps (.invalidationCompletion itag) s s) ∧
    (pasid ∈ v.stopPending → (∀ p ∈ v.pages, p.pasid ≠ pasid) →
      Steps (.priStopMarker pasid) s { s with svc := { v with stopPending := v.stopPending.filter (· != pasid) }
                                              port := { s.port with stopMarkers := s.port.stopMarkers ++ [pasid] } }) ∧
    ((pasid ∉ v.stopPending ∨ ∃ p ∈ v.pages, p.pasid = pasid) → Steps (.priStopMarker pasid) s s)

/-! ## Steps at the homes (R46, R52 to R65, R163 to R166) -/

/-- A core's request at its home: the home has the line's data, a place for its node, and nothing of the slice is in progress. -/
def AtHome (s : State) (m : Msg) (d : SLine) : Prop :=
  let x := s.sl (homeOf m.line)
  m.src < 64 ∧ m.dst = homeId (homeOf m.line) ∧ m.rsv = false ∧ m.mark = false ∧ s.pow.sweeping = false ∧ x.data m.line = some d ∧ x.txns = [] ∧
    x.filling = [] ∧ x.stable = [] ∧ x.hot = [] ∧ x.replay.length < 256 ∧ (x.node m.line = none → x.setUsed (m.line / 1024) < 16) ∧
    (s.core m.src).redirects = []

/-- The home's node of the line, if it has one, names no possible holder. -/
def NoHolder (s : State) (m : Msg) : Prop :=
  ∀ n, (s.sl (homeOf m.line)).node m.line = some n → n.st = .unc ∧ n.sh = [] ∧ n.ovf = false

/-- The home has taken up a request: its node and its line are used now, and an uncached line has a node (R50). -/
def TakenUp (s : State) (h line : Nat) : State :=
  let u := s.touch h line
  if ((u.sl h).node line).isSome then u
  else u.setSl h { u.sl h with nodes := (u.sl h).nodes ++ [(u.sl h).freshNode line u.sclk] }

/-- R50, R52, R54, R57, R58, R61 to R63: a request that the home can complete at once. It uses its node, and one on an uncached line
makes it. RDS is granted E alone and S beside other holders, RDX and UPG M with the node's next version; RDNC, WRNC and WRF read or write
the line's bytes; an atomic replies the old value and writes the new one, COMPARE only on a match; LLK records a reservation and SCK
succeeds with it alone; WATCH answers at once when the value differs. A malformed atomic changes nothing (notes/assumptions/135.md). -/
def Obligations.HomeRequestResults : Prop :=
  ∀ (s : State) (m : Msg) (d : SLine) (n : Node),
    let h := homeOf m.line
    let x := s.sl h
    let r := replyTo h m
    let counted := s.setSl h { x with hot := [{ line := m.line, count := 1, start := s.sclk, last := s.sclk }] }
    let up (u : State) : State := TakenUp u h m.line
    let record (u : State) (n : Node) : State := u.modSl h fun y => y.setNode n
    let now : Node := { n with used := s.sclk }
    let own := now.granted m.src
    let bytes (v : Vec) (off k : Nat) : Vec := BitVec.ofNat 512 (bytesAt v off k)
    let arg := m.data.getD 0
    let put (off k v : Nat) : State := (up s).homeWrite h m.line m.src off k v
    let at_ : Prop := AtHome s m d
    let node (p : Prop) : Prop := AtHome s m d ∧ (s.sl h).node m.line = some n ∧ p
    let free : Prop := AtHome s m d ∧ NoHolder s m
    (node ((n.st = .unc ∨ (n.st = .own ∧ n.owner = m.src)) ∧ n.sh = [] ∧ n.ovf = false) →
      Steps (.rds m) s ((record (up counted) own).grant h m .e own.ver true)) ∧
    (node (n.st = .shr) → Steps (.rds m) s (((up counted).addSharer h now m.src m.line).grant h m .s n.ver true)) ∧
    (node (n.st = .bcast) → Steps (.rds m) s ((up counted).grant h m .s n.ver true)) ∧
    (node (n.st = .unc ∧ n.sh = [] ∧ n.ovf = false) → Steps (.rdx m) s ((record (up s) own).grant h m .m own.ver true)) ∧
    (node (n.st = .shr ∧ n.sh = [m.src] ∧ n.ovf = false) →
      Steps (.rdx m) s ((record (up s) own).grant h m .m own.ver true) ∧
      (s.stillHolds m = true → Steps (.upg m) s ((record (up s) own).grant h m .m own.ver false)) ∧
      (s.stillHolds m = false → Steps (.upg m) s ((record (up s) own).grant h m .m own.ver true))) ∧
    (free → Steps (.rdnc m) s ((up counted).later (.cmp { r with data := some (bytes d.data m.off m.len), poison := d.poison }))) ∧
    (free → Steps (.wrnc m) s ((put m.off m.len (bytesAt arg 0 m.len)).later (.cmp r))) ∧
    (free → m.poison = false → Steps (.wrf m) s ((put 0 64 arg.toNat).later (.cmp r))) ∧
    (at_ → badAtom m = true → Steps (.atom m) s (s.later (.atr { r with stat := 1 }))) ∧
    (free → badAtom m = false → m.cmb = false → d.poison = false →
      let old := bytesAt d.data m.off m.len
      let new := atomicNew m.atop m.len old (bytesAt arg 0 m.len) (bytesAt arg 8 m.len)
      let answer : Ev := .atr { r with txid2 := m.txid2, src2 := m.src2, data := some (putBytes (BitVec.ofNat 512 old) 8 8 (bytesAt arg 8 8)) }
      (m.atop ≠ 9 ∨ old = bytesAt arg 0 m.len → Steps (.atom m) s ((put m.off m.len new).later answer)) ∧
      (m.atop = 9 → old ≠ bytesAt arg 0 m.len → Steps (.atom m) s (((up s).settleWrite h m.line m.src).later answer))) ∧
    (free → Steps (.llk m) s
      (((up s).modSl h fun y => { y with reservations := keepLast 64 ((y.reservations.filter fun e =>
          !(e.agent == m.src && e.thread == m.thread && e.line == m.line)) ++ [⟨m.src, m.thread, m.epoch, m.line⟩]) }).later
        (.lkd { r with data := some d.data, poison := d.poison }))) ∧
    (free → (⟨m.src, m.thread, m.epoch, m.line⟩ : Reservation) ∈ x.reservations → d.poison = false →
      Steps (.sck m) s ((put m.off m.len (bytesAt arg 0 m.len)).later (.cmp r))) ∧
    (free → (∀ e ∈ x.reservations, e ≠ ⟨m.src, m.thread, m.epoch, m.line⟩) → Steps (.sck m) s ((up s).later (.scf r))) ∧
    (free → x.watches.length < 128 → d.poison = false →
      let w := (m.src, m.thread, m.txid * 2 ^ 42 + m.line)
      let watching := up (s.setSl h { x with watches := x.watches ++ [w] })
      (bytesAt d.data m.off 8 = bytesAt arg 0 8 → Steps (.watch m) s watching) ∧
      (bytesAt d.data m.off 8 ≠ bytesAt arg 0 8 →
        Steps (.watch m) s ((watching.modSl h fun y => { y with watches := y.watches.filter (· != w) }).sendWoke h (m.src, m.thread, m.line) m.txid 0 0)))

/-- R46, R60, R64, R164 to R166: what a slice and an L1 do of themselves. A malformed header is answered ERR or discarded, its credit
goes back, and it is a corrected error of the port; replication ends after 2^18 S-cycles without a request; a fill puts the line's DRAM
bytes and poison in the slice, and what waited for it is served before the replay queue; a probe that an ECI agent does not answer
poisons the line and counts as answered; a sweep writes back a dirty line of an absent context (notes/assumptions/145.md). -/
def Obligations.SliceSteps : Prop :=
  ∀ (s : State) (hd : BitVec 128) (sl line agent c : Nat) (t : Txn) (hot : Hot) (d : SLine),
    let x := s.sl sl
    let n := hd.toNat
    let cls := bits n 0 3
    let op := bits n 3 5
    let fromHost : Prop := isEci (bits n 8 8) = true
    let m : Msg := { src := bits n 16 8, dst := bits n 8 8, txid := bits n 24 12, line := bits n 48 42, stat := 1 }
    (fromHost → cls = 0 → (bits n 112 16 ≠ 0 ∨ 7 ≤ op ∨ bits n 44 4 ≠ 0) →
      Steps (.eciMalformedRequest hd) s (((s.returnCredit m.dst cls).sendRsp m.dst (.cmp m)).corrected .hostPort (word (64 * m.line)))) ∧
    (fromHost → cls ≠ 0 → (bits n 112 16 ≠ 0 ∨ 5 ≤ bits n 44 4 ∨ 3 ≤ bits n 109 3 ∨ ∀ y, eciEv cls op y = none) →
      Steps (.eciMalformedRequest hd) s
        ((if cls = 2 ∨ cls = 3 then s.returnCredit m.dst cls else s).corrected .hostPort (word (64 * m.line)))) ∧
    (x.hot.find? (fun e => e.line == line && e.active) = some hot →
      (hot.last + 2 ^ 18 ≤ s.sclk → x.busy line = false → Steps (.replicaDrop sl line) s (s.unreplicate sl line hot)) ∧
      (s.sclk < hot.last + 2 ^ 18 → Steps (.replicaDrop sl line) s s)) ∧
    (s.bmv.units = [] → ∀ l, x.filling.find? (fun f => f.1 == line) = some (line, l) →
      let emptied := s.setSl sl { x with filling := x.filling.filter (fun f => f.1 != line), replay := [] }
      let served := l.foldl (fun (u : State) e => u.serve sl e)
        (emptied.putLine sl line { data := emptied.dramLine line, poison := emptied.dramBad line })
      Steps (.dramFill sl line) s ((served.modSl sl fun y => { y with replay := y.replay ++ x.replay }).retrySoon sl)) ∧
    Steps (.replayRetry sl) s (x.replay.foldl (fun (u : State) e => u.serve sl e) (s.modSl sl fun y => { y with replay := [] })) ∧
    (isEci agent = true → x.txns = [t] → t.probes = [⟨agent, line, 0⟩] → x.data line = some d →
      let bad := (s.modSl sl fun y => y.putData line { d with poison := true, dirty := true, used := s.sclk }).logError 2 .hostPort (word (64 * line))
      Steps (.probeTimeout sl line agent) s
        ((bad.modSl sl fun y => { y with txns := [{ t with probes := [] }] }).finishTxn sl { t with probes := [] })) ∧
    (isEci agent = false → Steps (.probeTimeout sl line agent) s s) ∧
    ((∀ e ∈ s.linesOf c, e.2.st ≠ .xiA) →
      ∀ e, (s.linesOf c).find? (fun e => (e.2.st == .m || e.2.st == .o) && e.2.tag != s.tagOfCore c) = some e →
        Steps (.l1BackgroundSweep c) s (s.replaceLine c e.1))

/-! ## Probes, replies and write-backs (R44, R47 to R49, R59, R61, R62, R155, R162, R198, R354) -/

/-- R47 to R49: a probe at a core's line. S and E answer PACK, M and O answer PDAT with the data; SINV leaves no copy, SSHR leaves S or O; a
line that waits for its fill keeps the probe; a probe of another version changes nothing and is answered with no copy; an absent line is
answered so too. SBINV invalidates the copies of the region of that version that its sender homes, is kept by a line that waits for its
fill, and is answered once. -/
def Claims.ProbeResults : Prop :=
  ∀ (s : State) (m : Msg),
    let l := s.al m.dst m.line
    let h := homeOf m.line
    let core : Prop := m.dst < 64 ∧ m.rsv = false ∧ s.requestWaits h m.dst m.line = false ∧ m.src = homeId h ∧
      s.probeWaits m.dst m.line = false
    let a : Msg := { src := m.dst, dst := m.src, txid := m.txid, line := m.line, ver := m.ver }
    let plain (g : Moesi) : Ev := .pack { a with gnt := g }
    let full (g : Moesi) : Ev := .pdat { a with gnt := g, data := some l.data, poison := l.poison }
    (core → (l.st = .s ∨ l.st = .e) → m.ver = l.ver →
      Steps (.sinv m) s ((s.setAl m.dst m.line {}).later (plain .i)) ∧
      Steps (.sshr m) s ((s.setAl m.dst m.line { l with st := .s }).later (plain .s))) ∧
    (core → (l.st = .o ∨ l.st = .m) → m.ver = l.ver →
      Steps (.sinv m) s ((s.setAl m.dst m.line {}).later (full .i)) ∧
      Steps (.sshr m) s ((s.setAl m.dst m.line { l with st := .o }).later (full .o))) ∧
    (core → l.st = .smA → m.ver = l.ver →
      Steps (.sinv m) s ((s.setAl m.dst m.line { l with st := .imD }).later (plain .i)) ∧ Steps (.sshr m) s (s.later (plain .s))) ∧
    (core → l.st = .xiA → m.ver = l.ver → l.dirty = true →
      Steps (.sinv m) s (s.later (.pdat { a with wb := true, data := some l.data, poison := l.poison }))) ∧
    (core → (l.st = .isD ∨ l.st = .imD) → l.deferred.length < 2 →
      Steps (.sinv m) s (s.setAl m.dst m.line { l with deferred := l.deferred ++ [{ m with sub := 0 }] }) ∧
      Steps (.sshr m) s (s.setAl m.dst m.line { l with deferred := l.deferred ++ [{ m with sub := 1 }] })) ∧
    (core → (l.st = .i ∨ (l.st ≠ .isD ∧ l.st ≠ .imD ∧ m.ver ≠ l.ver)) →
      Steps (.sinv m) s (s.later (plain .i)) ∧ Steps (.sshr m) s (s.later (plain .i))) ∧
    (core → l.st ≠ .xiA → (∀ e ∈ s.linesOf m.dst, e.1 / 1024 ≠ m.line / 1024 ∨ homeId (homeOf e.1) ≠ m.src) →
      (∀ e ∈ s.linesOf m.dst, e.2.deferred = []) → Steps (.sbinv m) s (s.later (plain .i))) ∧
    (core → s.linesOf m.dst = [(m.line, l)] → l.deferred = [] →
      ((l.st = .s ∨ l.st = .e) → m.ver = l.ver → Steps (.sbinv m) s ((s.setAl m.dst m.line {}).later (plain .i))) ∧
      ((l.st = .isD ∨ l.st = .imD) →
        Steps (.sbinv m) s (s.setAl m.dst m.line { l with deferred := [{ m with sub := 2, amount := m.line }] })))

/-- R47, R48, R59, R60, R155: what a home makes of an answer or a write-back. An answer takes its probe off the transaction that awaits it,
and its data become the slice's; with the last answer the transaction goes on. WBD and EVC of the node's version are taken and
acknowledged WBA, and one of another version, or crossed by an answer with WB, is refused WBX and changes nothing of the line. -/
def Claims.HomeAnswerResults : Prop :=
  ∀ (s : State) (m : Msg) (t : Txn) (n : Node),
    let sl := m.dst - 0x80
    let x := s.sl sl
    let t' : Txn := { t with probes := [], result := probeResult m }
    let last (ver : BitVec 8) : Prop := m.src < 64 ∧ m.rsv = false ∧ x.txns = [t] ∧ t.probes = [⟨m.src, m.line, ver⟩] ∧ t.awaitWb = [] ∧ t.came = []
    let went (u : State) (t' : Txn) : State := u.putTxn sl t'
    let stored (d : Vec) : State := s.putLine sl m.line { data := d, dirty := true, poison := m.poison }
    let r := replyTo sl m
    let alone : Prop := m.src < 64 ∧ m.rsv = false ∧ x.txns = []
    (last m.ver → m.sub ≠ 1 → m.wb = false → m.data = none → Steps (.pack m) s (went s t')) ∧
    (∀ d, last m.ver → m.wb = false → m.data = some d → Steps (.pdat m) s (went (stored d) t')) ∧
    (last 0 → m.sub = 1 → m.stat ≠ 2 → Steps (.pack m) s (went s { t with probes := [] })) ∧
    (alone → m.sub ≠ 1 → m.data = none → Steps (.pack m) s s) ∧
    (alone → (m.src, m.line) ∈ x.filter → ∀ i ∈ [Instr.wbd m, .evc m],
      Steps i s ((s.setSl sl { x with filter := x.filter.filter (· != (m.src, m.line)) }).later (.wbx r))) ∧
    -- a write-back of a line that no node covers: notes/assumptions/133.md
    (alone → (m.src, m.line) ∉ x.filter → (x.node m.line = none ∨ (x.node m.line = some n ∧ n.ver ≠ m.ver)) →
      ∀ i ∈ [Instr.wbd m, .evc m], Steps i s (s.later (.wbx r))) ∧
    (alone → (m.src, m.line) ∉ x.filter → x.node m.line = some n → n.ver = m.ver → n.level < 10 →
      (m.data = none → Steps (.evc m) s ((s.setSl sl (x.setNode n)).later (.wba r))) ∧
      ∀ d, m.data = some d → Steps (.wbd m) s
        (((s.setSl sl (x.setNode n)).takeData sl m.line d m.poison).later (.wba r))) ∧
    (alone → (m.src, m.line) ∉ x.filter → x.node m.line = some n → n.ver = m.ver → n.level = 10 → n.st = .own → n.owner = m.src → n.sh = [] →
      n.ovf = false → m.data = none →
      Steps (.evc m) s ((s.setSl sl (x.setNode { n with st := .unc })).later (.wba r)))

/-- R44, R46, R47, R61, R62, R159, R162, R198, R274, R354: what a core makes of a reply. A data reply that the line's state admits installs the line,
serves what waited and applies deferred probes; one that cannot occur is a corrected error. WBA and WBX free the line's buffer; RTY sends the request
again; CMP, ATR, LKD, SCF and WOKE give the waiting thread its piece; a combined ATR splits in two; credits are added and release what was
held. A message with a reserved bit set is discarded and counted (R154). -/
def Obligations.ReplyResults : Prop :=
  ∀ (s : State) (m : Msg) (tk : Nat),
    let l := s.al m.dst m.line
    let plain : Prop := m.rsv = false
    let core : Prop := m.dst < 64 ∧ plain
    let installed (st : AState) (data : Vec) (bad : Bool) : State :=
      (((s.setAl m.dst m.line { l with st := st, ver := m.ver, data := data, poison := bad, used := s.clock }).kick m.dst m.line).kickAll m.dst).applyDeferred m.dst
        m.line
    let odd : State := s.corrected (.netInterface m.dst) (word (64 * m.line))
    let mine : Prop := core ∧ s.txOwner m.txid (s.cksOfCore m.dst) = some tk
    let bad : Option Word := if m.poison then some (word (64 * m.line)) else none
    let part (off : Nat) : Vec := BitVec.ofNat 512 (bytesAt (m.data.getD 0) off m.len)
    (∀ d, core → m.data = some d →
      (l.st = .isD → Steps (.ds m) s (installed .s d m.poison) ∧ Steps (.de m) s (installed .e d m.poison)) ∧
      ((l.st = .isD ∨ l.st = .imD ∨ l.st = .smA ∨ l.st = .omA) → Steps (.dm m) s (installed .m d m.poison))) ∧
    (core → m.data = none → (l.st = .smA ∨ l.st = .omA) → Steps (.gm m) s (installed .m l.data l.poison)) ∧
    (core → l.st.transient = false → ∀ i ∈ [Instr.ds m, .de m, .dm m, .gm m], Steps i s odd) ∧
    (core → l.st = .xiA → ∀ i ∈ [Instr.wba m, .wbx m], Steps i s (((s.setAl m.dst m.line { store := l.store }).kick m.dst m.line).kickAll m.dst)) ∧
    (core → l.st ≠ .xiA → ∀ i ∈ [Instr.wba m, .wbx m], Steps i s odd) ∧
    (core → (l.st = .isD ∨ l.st = .imD ∨ l.st = .smA ∨ l.st = .omA) → Steps (.rty m) s (s.sendCaching m.dst m.line l.st)) ∧
    (mine → m.slot ≠ 4 → s.cardDone m.dst m.txid m.poison = none → Steps (.cmp m) s (s.replyLane tk m.txid 0 bad)) ∧
    (∀ u, core → m.slot ≠ 4 → s.cardDone m.dst m.txid m.poison = some u → Steps (.cmp m) s u) ∧
    (mine → m.cmb = false → Steps (.atr m) s (s.replyLane tk m.txid (part 0) bad)) ∧
    (plain → m.cmb = true →
      let v := bytesAt (m.data.getD 0) 0 m.len
      let first : Msg := { m with cmb := false, data := some (BitVec.ofNat 512 v) }
      Steps (.atr m) s ((s.later (.atr first)).later (.atr { first with
        dst := m.src2, txid := m.txid2, data := some (BitVec.ofNat 512 ((v + bytesAt (m.data.getD 0) 8 m.len) % 2 ^ (8 * m.len))) }))) ∧
    (mine → Steps (.lkd m) s (s.replyLane tk m.txid (part m.off) bad) ∧ Steps (.scf m) s (s.replyLane tk m.txid 1 bad)) ∧
    (∀ t p k, plain → s.threads = [(tk, some t)] → t.findTx m.txid = some (p, k) → p.kind = .waita → slotOfTk tk = m.thread →
      Steps (.woke m) s (s.fillLane tk p.id k (m.data.getD 0) none)) ∧
    (plain → s.threads = [] → Steps (.woke m) s s) ∧
    (plain → isEci m.dst = false → s.port.held = [] → Steps (.crd m) s { s with port := { s.port with
      credits := Tbl.upd 0 s.port.credits (m.atop % 8) (· + m.len) } }) ∧
    (plain → isEci m.dst = true → s.port.hostHeld = [] → m.len ≠ 0 → Steps (.crd m) s { s with port := { s.port with
      hostUsed := Tbl.upd 0 s.port.hostUsed (8 * m.dst + m.atop % 8) (· - m.len) } }) ∧
    (m.rsv = true → isEci m.src = false → isEci m.dst = false → ∀ i ∈ [Instr.ds m, .cmp m, .atr m, .crd m],
      Steps i s (s.corrected (.netInterface (m.dst % 64)) 0))

/-! ## Masked multicast reads and replicas (R160 to R164, R456) -/

/-- R160 to R164, R456: an MCRD opens an entry of the merge table or joins an open one that agrees with it; when its window closes the line is
sent once to every receiver of the mask, and with none its issuers are answered. At a receiver the line lands in the pool and counts at its barrier, except in a context of
another region, and CMP goes back. A helper takes a replica while it holds fewer than 32, an interface a redirect while it holds
fewer than 8; RREC and RDRM remove them; all four are acknowledged. -/
def Obligations.MulticastAndReplicaResults : Prop :=
  ∀ (s : State) (m : Msg) (d : SLine) (g : Merge),
    let h := homeOf m.line
    let x := s.sl h
    let sl := m.dst - 0x80
    let y := s.sl sl
    let fresh (id : Nat) : Merge := { id := id, line := m.line, poff := m.poff, bar := m.bar, nobar := m.nobar, region := m.region, mask := m.mask,
                                      issuers := [(m.src, m.txid)], isOpen := true }
    let plain : Prop := m.src < 64 ∧ m.rsv = false ∧ s.pow.sweeping = false ∧ (s.core m.src).redirects = [] ∧ x.replay.length < 256 ∧ x.hot = []
    let counted := s.setSl h { x with hot := [{ line := m.line, count := 1, start := s.sclk, last := s.sclk }] }
    let clear : Prop := m.rsv = false
    let done : Ev := .cmp { src := m.dst, dst := m.src, txid := m.txid, line := m.line }
    let others := y.replicas.filter fun r => r.1 != m.line
    let ways := (s.core m.dst).redirects.filter fun r => r.line != m.line
    (plain → x.merges = [] → Steps (.mcrd m) s ((counted.modSl h fun z => { z with merges := [fresh 0] }).later (.mcrdWindowClose h 0))) ∧
    (plain → x.merges = [g] → g.isOpen = true → g.line = m.line → g.poff = m.poff → g.bar = m.bar → g.nobar = m.nobar → g.region = m.region →
      g.issuers.length < 8 →
      Steps (.mcrd m) s (counted.modSl h fun z => { z with merges := [{ g with mask := g.mask ||| m.mask, issuers := g.issuers ++ [(m.src, m.txid)] }] })) ∧
    (isEci m.src = true → Steps (.mcrd m) s
      (((s.returnCredit m.src 0).sendRsp m.src (.cmp { replyTo h m with stat := 1 })).corrected .hostPort (word (64 * m.line)))) ∧
    (g.line = m.line → x.merges = [g] → g.isOpen = true → g.sent = false → x.data m.line = some d → x.txns = [] → x.filling = [] → x.stable = [] →
      x.hot = [] → x.replay.length < 256 → x.node m.line = none →
      let to_ := (List.range 64).filter fun p => g.mask.getLsbD p
      (to_ ≠ [] → ∃ s', Steps (.mcrdWindowClose h g.id) s s' ∧
        (s'.sl h).merges = [{ g with isOpen := false, sent := true, awaiting := to_, poison := d.poison }] ∧
        s'.agenda = s.agenda ++ to_.map fun p => Ev.mcd
          { src := homeId h, dst := p, txid := g.id, line := g.line, poff := g.poff, bar := g.bar, nobar := g.nobar, region := g.region,
            mask := g.mask, data := some d.data, poison := d.poison }) ∧
      (to_ = [] → ∃ s', Steps (.mcrdWindowClose h g.id) s s' ∧ (s'.sl h).merges = [] ∧
        s'.agenda = s.agenda ++ g.issuers.map fun i => Ev.cmp { src := homeId h, dst := i.1, txid := i.2, line := g.line, poison := d.poison })) ∧
    (∀ ck, clear → s.ckOfCore m.dst = some ck → regionOfCk ck = m.region →
      let written := s.poolWrite ck (64 * m.poff) (bytesOfVec (m.data.getD 0))
      let landed := if m.poison then written.poolMark ck (64 * m.poff) 64 else written
      Steps (.mcd m) s ((if m.nobar then landed else landed.barCount ck m.bar 64).later done)) ∧
    (clear → (∀ ck, s.ckOfCore m.dst = some ck → regionOfCk ck ≠ m.region) → Steps (.mcd m) s (s.later done)) ∧
    (clear → others.length < 32 → m.poison = false →
      Steps (.repl m) s ((s.setSl sl { y with replicas := others ++ [(m.line, m.data.getD 0)] }).later (replicaAck m true))) ∧
    (clear → (32 ≤ others.length ∨ m.poison = true) → Steps (.repl m) s (s.later (replicaAck m false))) ∧
    (clear → Steps (.rrec m) s ((s.setSl sl { y with replicas := others }).later (replicaAck m true))) ∧
    (clear → ways.length < 8 →
      Steps (.rdin m) s ((s.modCore m.dst fun c => { c with redirects := ways ++ [⟨m.line, m.slot⟩] }).later (replicaAck m true))) ∧
    (clear → 8 ≤ ways.length → Steps (.rdin m) s (s.later (replicaAck m false))) ∧
    (clear → Steps (.rdrm m) s ((s.modCore m.dst fun c => { c with redirects := ways }).later (replicaAck m true)))

/-! ## The networks' other messages (R133, R141, R144, R153, R156, R168 to R171, R205, R209, R277 to R284, R404 to R407) -/

/-- R156, R171, R205, R209: a remote access to a pool. At the owner SPWR stores its bytes, counts them at a copy's barrier and returns
completion and allowance, SPRD answers the bytes and the full/empty bit, SPSY performs its operation, parks, or answers ERR where a
count would overflow and CAPACITY where 64 requests are parked; one for a context that is away waits in order, and for one that is
gone is dropped. At the requester SPDAT
ends a remote store, gives a piece of a result, or sends the request again; CRET returns allowances. -/
def Obligations.RemotePoolResults : Prop :=
  ∀ (s : State) (m : Msg) (c tk n k : Nat) (t : Thread) (p : Pending),
    let here : Prop := m.rsv = false ∧ s.coreOfCk m.ck = some c
    let x := word (bytesAt (m.data.getD 0) 0 8)
    let i := m.poff / 16
    let done (u : State) (stat : Nat) : State := u.later (.spdat (spDone u m stat))
    let lost : Prop := m.rsv = false ∧ s.coreOfCk m.ck = none
    let spsy (op sub : Nat) (s' : State) : Prop := here → m.atop = op → m.sub = sub → Steps (.spsy m) s s'
    let parked (kind : ParkKind) : State :=
      s.park m.ck { off := m.poff, kind := kind, value := x, remote := true, src := m.src, srcCk := m.srcCk, txid := m.txid }
    let full : Prop := 64 ≤ (s.cx m.ck).remoteParked
    let mine : Prop := m.rsv = false ∧ s.threads = [(tk, some t)] ∧ ckOfTk tk = m.ck
    let kept := (s.core m.dst).spsyOut
    let dropped := s.modCore m.dst fun y => { y with spsyOut := y.spsyOut.filter fun q => !(q.txid == m.txid && q.srcCk == m.ck) }
    (here →
      let written := s.poolWrite m.ck m.poff (leBytes m.len (m.data.getD 0).toNat)
      let landed := if m.poison then written.poolMark m.ck m.poff m.len else written
      let counted := if m.nobar then landed else landed.barCount m.ck m.bar m.len
      Steps (.spwr m) s ((done counted 0).later (.cret { src := m.dst, dst := m.src, len := 1 }))) ∧
    (here → s.poolPoison m.ck m.poff m.len = none → Steps (.sprd m) s (s.later (.spdat { spDone s m 0 with
      data := some (BitVec.ofNat 512 (s.poolRead m.ck m.poff m.len)), full := m.len == 8 && m.poff % 8 == 0 && s.fullBit m.ck m.poff }))) ∧
    (lost → (∀ i ∈ [(Instr.spwr m, Ev.spwr m), (.sprd m, .sprd m), (.spsy m, .spsy m)],
      ((s.context (ctxKeyOfCk m.ck)).isSome = true → Steps i.1 s { s with
        agenda := s.agenda.filter (fun e => !ofAccess m e) ++ [i.2] ++ s.agenda.filter (ofAccess m) }) ∧
      (s.context (ctxKeyOfCk m.ck) = none → Steps i.1 s s))) ∧
    (here → m.atop < 10 → s.poolPoison m.ck m.poff m.len = none →
      let r := s.poolAtomic m.ck m.poff m.len m.atop (bytesAt (m.data.getD 0) 0 m.len) (bytesAt (m.data.getD 0) 8 m.len)
      Steps (.spsy m) s (r.1.later (.spdat { spDone s m 0 with data := some (BitVec.ofNat 512 r.2), len := 8 }))) ∧
    (here → ¬ full → m.atop = 0xA → Steps (.spsy m) s (parked .ldfe)) ∧
    (here → ¬ full → m.atop = 0xB → Steps (.spsy m) s (parked .ldff)) ∧
    (here → ¬ full → m.atop = 0xC → Steps (.spsy m) s (parked .stfe)) ∧
    (here → full → s.fullBit m.ck m.poff = false → (m.atop = 0xA ∨ m.atop = 0xB) → Steps (.spsy m) s (done s 2)) ∧
    (here → full → s.fullBit m.ck m.poff = true → m.atop = 0xC → Steps (.spsy m) s (done s 2)) ∧
    (here → m.atop = 0xD → Steps (.spsy m) s (done (s.stff m.ck m.poff x) 0)) ∧
    spsy 0xE 0 (done (s.barInit m.ck i x.toNat) 0) ∧
    (∀ u, s.barExpect m.ck i x.toNat = some u → spsy 0xE 1 (done u 0)) ∧
    (s.barExpect m.ck i x.toNat = none → spsy 0xE 1 (done s 1)) ∧
    spsy 0xE 2 (done (s.barCount m.ck i x.toNat) 0) ∧
    ((s.bar m.ck i).gen ≠ field x 0 16 → spsy 0xE 3 (done s 0)) ∧
    ((s.bar m.ck i).gen = field x 0 16 → full → spsy 0xE 3 (done s 2)) ∧
    spsy 0xE 4 (s.later (.spdat { spDone s m 0 with data := some ((s.bar m.ck i).readout.setWidth 512), len := 8 })) ∧
    ((s.cx m.ck).parked = [] → (s.cx m.ck).barWait = [] → here → m.atop = 0xF → Steps (.spsy m) s (done s 0)) ∧
    (m.rsv = false → s.threads = [] → (s.cx m.ck).cards = [] → Steps (.spdat m) s s) ∧
    (mine → t.remote.any (fun r => r.txid == m.txid) = true →
      Steps (.spdat m) s (dropped.setThr tk { t with remote := t.remote.filter fun r => r.txid != m.txid })) ∧
    (mine → t.remote = [] → t.btag = none → t.findTx m.txid = some (p, k) →
      (m.stat = 0 → m.poison = false → Steps (.spdat m) s (dropped.fillLane tk p.id k (m.data.getD 0) none)) ∧
      (m.stat = 0 → m.poison = true →
        Steps (.spdat m) s (dropped.fillLane tk p.id k (m.data.getD 0) (some (deviceForm m.srcCk (m.poff / 8 * 8))))) ∧
      (∀ va, m.stat = 1 → p.kind = .fullEmpty va → Steps (.spdat m) s (dropped.failPend tk p.id Cause.syncTimeout va)) ∧
      (∀ ea, m.stat = 1 → p.kind = .barPost ea → Steps (.spdat m) s (dropped.failPend tk p.id Cause.barrier ea)) ∧
      (∀ q, m.stat = 2 → kept.find? (fun q => q.txid == m.txid && q.srcCk == m.ck) = some q →
        Steps (.spdat m) s ((dropped.modCore m.dst fun y => { y with spsyHeld := y.spsyHeld ++ [q] }).later (.spsyResend m.dst m.txid)))) ∧
    (∀ q, (s.core n).spsyHeld = [q] → q.txid = k →
      let again : Msg := { q with dst := (s.coreOfCk q.ck).getD 0 }
      Steps (.spsyResend n k) s (((s.modCore n fun y => { y with spsyHeld := [] }).modCore n fun y => { y with spsyOut := y.spsyOut ++ [again] }).later
        (.spsy again))) ∧
    (m.rsv = false → (s.core m.dst).spwrHeld = [] → Tbl.wf {} s.cores = true → (∀ ck ∈ s.cksOfCore m.dst, (s.cx ck).cards = []) →
      Steps (.cret m) s (s.modCore m.dst fun c => { c with allowUsed := Tbl.upd 0 c.allowUsed m.src (· - m.len) }))

/-- R133, R141, R144, R153, R168, R404, R405, R407: messages to a context. One for a resident context arrives at its core; for a context that
is away it joins the deferred ring while that has room, is offered again after, and for a context that is gone it is dropped. A notice
queue takes 32 directory-service notices; DSACK takes one off the unacknowledged; a wait for DSDONE is logged; a link that a replay
cures is a corrected error, and one that fails 16 times in a row puts both its tiles out. DIRSVC and NOTICE are counted as delivered
(notes/assumptions/146.md). -/
def Claims.ContextMessageResults : Prop :=
  ∀ (s : State) (m : Msg) (c sl line n : Nat) (x : Context),
    let clear : Prop := m.rsv = false
    let here : Prop := clear ∧ s.coreOfCk m.ck = some c
    let away : Prop := clear ∧ s.coreOfCk m.ck = none ∧ s.context (ctxKeyOfCk m.ck) = some x ∧ x.deferred.length < 4096
    let gone : Prop := clear ∧ s.coreOfCk m.ck = none ∧ s.context (ctxKeyOfCk m.ck) = none ∧ s.region (regionOfCk m.ck) = none
    let ring (e : Ev) : State := s.setContext (ctxKeyOfCk m.ck) (some { x with deferred := x.deferred ++ [e] })
    let noticed : State := State.countDel (s.modCore m.dst fun y => { y with notices := y.notices ++
      [{ kind := m.sub, agent := m.ctag, sl := m.src - 0x80, line := m.line, level := m.chunk, ver := m.ver, token := m.txid, span := m.slot }] }) m.dst standbyRegion
    let link (k : Nat) : State := { s with port := { s.port with linkFails := Tbl.put 0 s.port.linkFails n k } }
    let fails := Tbl.get 0 s.port.linkFails n
    (here → (s.core c).spill = false → (s.cx m.ck).inbox.length < 64 →
      Steps (.userMessage m) s ((s.inboxPut m.ck m).countDel c m.region)) ∧
    (here → (s.core c).spill = true → 16 ≤ (s.core c).spillInbox.length → Steps (.userMessage m) s (s.holdBack (.userMessage m))) ∧
    (here → Steps (.dec m) s ((s.decrement m.ck m.poff m.amount).countDel c m.region) ∧
      Steps (.notice m) s (((s.modCx m.ck fun x => { x with notices := x.notices ++ [faultOf (m.data.getD 0)] }).laterOnce (.dispatch m.ck)).countDel
        c m.region) ∧
      Steps (.lreq m) s ((s.onLreq m.ck m).countDel c m.region) ∧ Steps (.chunk m) s ((s.onChunk m.ck m).countDel c m.region)) ∧
    (∀ i ∈ [(Instr.userMessage m, Ev.userMessage m), (.dec m, .dec m), (.notice m, .notice m), (.lreq m, .lreq m), (.chunk m, .chunk m)],
      (away → Steps i.1 s (ring i.2)) ∧ (gone → Steps i.1 s s)) ∧
    (here → m.ctag = 1 →
      (m.sub = 1 → Steps (.deferredMessageRetry m) s
        (((s.decrement m.ck m.poff m.amount).countDel c m.region))) ∧
      (m.sub = 0 → (s.core c).spill = false → (s.cx m.ck).inbox.length < 64 →
        Steps (.deferredMessageRetry m) s ((s.inboxPut m.ck { m with sub := 0 }).countDel c m.region))) ∧
    (m.ctag ≠ 1 → s.threads = [] → Steps (.deferredMessageRetry m) s s) ∧
    (clear → (s.core m.dst).notices.length < 32 → s.ckOfCore m.dst = none → Steps (.dirsvc m) s noticed) ∧
    (∀ k, clear → (s.core m.dst).notices.length < 32 → s.ckOfCore m.dst = some k → Steps (.dirsvc m) s (noticed.laterOnce (.dispatch k))) ∧
    (clear → 32 ≤ (s.core m.dst).notices.length → Steps (.dirsvc m) s (s.holdBack (.dirsvc m))) ∧
    (clear → isEci m.src = false → Steps (.dsack m) s (s.modSl (m.dst - 0x80) fun y => { y with unacked := y.unacked - 1 })) ∧
    (clear → isEci m.src = true → Steps (.dsack m) s (s.corrected .hostPort 0)) ∧
    ((∃ t ∈ (s.sl sl).txns, t.awaitDs = true ∧ t.line = line) → Steps (.dsdoneWaitLog sl line) s (s.corrected (.slice sl) (word (64 * line)))) ∧
    ((∀ t ∈ (s.sl sl).txns, t.awaitDs = false ∨ t.line ≠ line) → Steps (.dsdoneWaitLog sl line) s s) ∧
    Steps (.networkLinkRetry n true) s ((link 0).corrected (.link n) 0) ∧
    (fails + 1 < 16 → Steps (.networkLinkRetry n false) s ((link (fails + 1)).corrected (.link n) 0)) ∧
    (16 ≤ fails + 1 → Tbl.wf {} s.clusters = true → ∃ s', Steps (.networkLinkRetry n false) s s' ∧
      (linkTiles n).1 ∈ (s'.clu ((linkTiles n).1 / 4)).failed ∧ (linkTiles n).2 ∈ (s'.clu ((linkTiles n).2 / 4)).failed ∧ s'.threads = s.threads)

/-- R169, R172, R277, R279, R282 to R284: capsules on the network. GRANT sends every chunk of the capsule that waits for it and is returned
where none does, or while the cluster is being reset; RET frees the granted slot, or has a refused request sent again; a chunk lands in its slot, and the last makes the slot LANDED,
advances HOPS and answers CMP; one for a slot that is not its own is discarded; the CMP frees the sender's slot. A dead
letter's record is written first; one without a box only ends. -/
def Claims.CapsuleMessageResults : Prop :=
  ∀ (s : State) (m : Msg) (c tag id : Nat) (o : OutCap) (d : DeadLetter),
    let ck := m.ck
    let clear : Prop := m.rsv = false
    let here : Prop := clear ∧ s.coreOfCk ck = some c
    let steady : Prop := ∀ k, s.clusterOfCk ck = some k → (s.clu k).resetting = false
    let back : Ev := .alwRet { src := m.dst, dst := m.src, ctag := m.ctag, slot := m.slot, ck := m.srcCk, srcCk := ck, region := m.region }
    let sl := Tbl.get {} (s.cx ck).slots m.slot
    let reserved : Prop := sl.st = .reserved ∧ sl.srcCk = m.srcCk ∧ sl.ctag = m.ctag
    let off := s.slotBase ck + granule * m.slot
    let n := (sl.length + 63) / 64
    let landing : State := s.poolWrite ck (off + 64 * m.chunk) (bytesOfVec (m.data.getD 0))
    let cmp (stat : Nat) : Ev := .cmp { src := c, dst := m.src, ctag := m.ctag, ck := m.srcCk, srcCk := ck, region := m.region, stat := stat,
                                        len := 1, slot := 4 }
    let ended (u : State) : State := u.modCx ck fun x => { x with outcaps := x.outcaps.filter fun (y : OutCap) => y.ctag != m.ctag }
    (∀ k, here → s.clusterOfCk ck = some k → (s.clu k).resetting = true → Steps (.grant m) s (s.later back)) ∧
    (here → steady → (s.outCap ck m.ctag = none ∨ (s.outCap ck m.ctag = some o ∧ o.sent = true)) → Steps (.grant m) s (s.later back)) ∧
    (here → steady → s.outCap ck m.ctag = some o → o.sent = false → ∃ s', Steps (.grant m) s s' ∧ s'.threads = s.threads ∧ s'.dram = s.dram ∧
      ∀ i < (o.length + 63) / 64, ∃ y, .chunk y ∈ s'.agenda ∧ y.dst = m.src ∧ y.ctag = m.ctag ∧ y.slot = m.slot ∧ y.chunk = i ∧ y.ck = o.dstCk ∧
        (y.last = true ↔ i + 1 = (o.length + 63) / 64)) ∧
    (clear → m.sub = 1 → Steps (.alwRet m) s ((s.modOut ck m.ctag fun o => { o with refused := true }).later (.lreqResend ck m.ctag))) ∧
    (clear → m.sub ≠ 1 → reserved → sl.chunks = [] → Steps (.alwRet m) s (s.releaseSlot ck m.slot)) ∧
    (clear → m.sub ≠ 1 → sl.st ≠ .reserved → Steps (.alwRet m) s s) ∧
    (∀ o, s.outCap ck tag = some o → here → o.refused = true → Steps (.lreqResend ck tag) s
      (((s.modOut ck tag fun o => { o with refused := false }).countInj c (regionOfCk ck)).later
        (.lreq { src := c, dst := (s.coreOfCk o.dstCk).getD 0, ctag := tag, length := o.length, region := regionOfCk ck, ck := o.dstCk, srcCk := ck,
                 sub := bitOf (o.entry == word capretEntry) }))) ∧
    (here → ¬ reserved → Steps (.chunk m) s ((if m.last then s.later (cmp 1) else s).countDel c m.region)) ∧
    (here → reserved → m.poison = false → m.chunk ∉ sl.chunks → sl.chunks.length + 1 < n → Steps (.chunk m) s
      ((landing.modCx ck fun x => { x with slots := Tbl.put {} x.slots m.slot { sl with chunks := sl.chunks ++ [m.chunk] } }).countDel c m.region)) ∧
    (∀ k, clear → m.slot = 4 → m.dst < 0x40 → s.outCap ck m.ctag = some o → o.cut = false → o.slot = some k → m.stat = 0 →
      Steps (.cmp m) s ((ended s).releaseSlot ck k)) ∧
    (∀ k, clear → m.slot = 4 → m.dst < 0x40 → s.outCap ck m.ctag = some o → o.cut = false → o.slot = none → o.pend = some k → m.stat = 0 →
      Steps (.cmp m) s ((ended s).fillLane o.tk k 0 0 none)) ∧
    ((s.cx ck).dead = [d] → d.id = id → d.marked = false → d.image = none →
      let l := d.mark (rcOfCk ck) (s.deadImage ck d)
      Steps (.deadLetter ck id) s (((s.poolWrite ck (s.deadOff ck d) (l.take 64)).modCx ck fun x => { x with
        dead := mapIf (fun (y : DeadLetter) => y.id == id) (fun (y : DeadLetter) => { y with marked := true, image := none }) x.dead }).later
          (.deadLetter ck id))) ∧
    ((s.cx ck).dead = [d] → d.id = id → d.marked = true → (s.valsOf ck).dlbva = 0 → Steps (.deadLetter ck id) s (s.deadEnd ck d 0))

/-! ## The scheduler and what befalls a thread (R124 to R146, R198, R210, R228, R231) -/

/-- R124 to R128, R131, R137, R140, R141: the scheduler. A PENDING region that can run takes its save slots and becomes RUNNABLE; a slice that
has been used up advances the pass and is a scheduling point; a quiescent region ends, its packet completes, and its partitions are
given up; a partition whose threads are at rest has halted, its threads saved in full; a cluster that is ready swaps; a bay whose
context is not selected is freed; a free slot takes the ready SAVED thread. Nothing happens before a step's condition holds. -/
def Claims.SchedulerSteps : Prop :=
  ∀ (s : State) (r p c bay ck k tk : Nat) (x : Region) (y : Context) (t : Thread),
    let key := ctxKey r p
    let halted (u : State) : State := u.modContext key fun z => { z with halted := true }
    let freed : State := { s with sched := { s.sched with bayWrite := s.sched.bayWrite.filter (· != bay) } }
    let found : Prop := s.region r = some x
    (found → s.canRun x = false → Steps (.regionRunnable r) s s) ∧
    (found → s.canRun x = true → x.vals.parts = 1 → s.leastPass x.vals.prio = none →
      let slots := s.freeSlots.take 1
      ∀ n, slots = [n] → Steps (.regionRunnable r) s
        ((((s.setRegion r (some { x with saveSlots := slots })).setContext (ctxKey r 0) (some { region := r, part := 0, saveSlot := n })).setRegionState
          r .runnable 0).schedPoint)) ∧
    (found → x.resident = true → x.expired = false → x.vals.slice ≤ x.used →
      Steps (.regionSliceExpiry r) s ((((s.leaveRegion r).advancePass r).modRegion r fun z => { z with expired := true }).schedPoint)) ∧
    (found → (x.resident = false ∨ x.expired = true ∨ x.used < x.vals.slice) → Steps (.regionSliceExpiry r) s s) ∧
    (found → x.ended = false → s.quiescent r x = false → Steps (.regionEnd r) s s) ∧
    (found → x.ended = true → s.serviceBusy r = true → Steps (.regionEnd r) s s) ∧
    (found → x.ended = true → s.serviceBusy r = false → Steps (.regionEnd r) s (s.freeRegion r x).wakeLaunches.schedPoint) ∧
    (found → s.quiescent r x = true → x.st = .runnable →
      let u := (((s.setRegionState r .ended 0).leaveClusters r x).partDone x.q x.pkt).laterOnce (.packetComplete x.q x.pkt)
      let qs := mapIf (fun (e : Queue) => e.st == .parked && e.reason == .regions) (fun (e : Queue) => { e with st := .ready, reason := .none }) u.fe.queues
      Steps (.regionEnd r) s ({ u with fe := { u.fe with queues := qs } } : State).schedPoint) ∧
    (s.haltReady key = false → Steps (.partitionHalt r p) s s) ∧
    (s.haltReady key = true → s.threadsOf key = [] → Steps (.partitionHalt r p) s (halted s)) ∧
    (s.haltReady key = true → s.threadsOf key = [(tk, t)] → (∃ n, t.place = .inSlot n) → Steps (.partitionHalt r p) s (halted (s.saveThread tk))) ∧
    (s.swapReady c = false → Steps (.contextSwap c) s s) ∧
    (s.swapReady c = true → (s.clu c).failed = [] → (s.clu c).resident = none → (s.clu c).incoming = some k → s.fits c k = true →
      (∀ j < 4, s.thr (mkTk (mkCk standbyRegion (4 * c + j)) 15) = none) → Steps (.contextSwap c) s (s.swapIn c k)) ∧
    (freed.inBay bay = none → Steps (.bayBackgroundWrite bay) s freed) ∧
    (freed.inBay bay = some k → s.isSelected k = true → Steps (.bayBackgroundWrite bay) s freed) ∧
    (freed.inBay bay = some k → s.isSelected k = false → Steps (.bayBackgroundWrite bay) s (freed.modContext k fun z => { z with bay := none })) ∧
    (∀ n, s.coreOfCk ck = some c → s.halting ck = false → s.rosterUsers c = [(tk, t)] → t.savedReady = true → s.freeSlot c ck = some n →
      Steps (.rosterMultiplex ck) s (s.restoreThread tk n)) ∧
    (s.coreOfCk ck = some c → (s.halting ck = true ∨ ∀ e ∈ s.rosterUsers c, e.2.savedReady = false) → Steps (.rosterMultiplex ck) s s) ∧
    (s.context key = some y → y.halted = true → Steps (.partitionHalt r p) s s)

/-- R3, R134, R135, R143, R198, R210, R228, R231: steps that befall one thread. At the end of its grace it is saved; a thread that has not
renewed its heartbeat is stopped, saved and reported, whatever it has come to wait for since; a delivery is made to a waiting thread; a wait that reaches its limit traps SYNCTIMEOUT, or a
WAITA ends with status 3; a timer that CYCLE has reached is noted; an interrupt enters its handler at a unit boundary; a condition
among complete results traps. -/
def Claims.ThreadSteps : Prop :=
  ∀ (s : State) (tk ck n : Nat) (t : Thread) (p : Pending),
    let mine : Prop := s.thr tk = some t
    let slotted : Prop := t.place = .inSlot n
    let up := s.leaveLs1Of t
    let watched : Prop := isService tk = false ∧ t.st ≠ .stopped ∧ (s.valsOf (ckOfTk tk)).hbarm = true
    let stopped := up.stopThread tk Cause.heartbeat
    let missed (u : State) : State := (u.faultEvent (regionOfCk (ckOfTk tk)) ⟨Cause.heartbeat, 1, t.lin, t.pc, 0⟩).laterOnce (.rosterMultiplex t.roster)
    (mine → slotted → t.preempt = some 0 → t.quiet = true → t.st ≠ .long →
      (∀ c, s.coreOfCk t.roster = some c → Steps (.graceExpiry tk) s ((s.saveThread tk).laterOnce (.rosterMultiplex t.roster))) ∧
      (s.coreOfCk t.roster = none → Steps (.graceExpiry tk) s (s.saveThread tk))) ∧
    (mine → t.preempt ≠ some 0 → Steps (.graceExpiry tk) s s) ∧
    (mine → slotted → watched → (t.missed = true ∨ (t.hbeatwin = 0 ∧ (t.st = .ready ∨ t.st = .long))) →
      Steps (.heartbeatMiss tk) s (missed (stopped.saveThread tk))) ∧
    (mine → t.place = .saved → watched → t.missed = true → Steps (.heartbeatMiss tk) s (missed stopped)) ∧
    (mine → ((t.missed = false ∧ t.hbeatwin ≠ 0) ∨ t.st = .stopped ∨ isService tk = true ∨ (s.valsOf (ckOfTk tk)).hbarm = false) →
      Steps (.heartbeatMiss tk) s s) ∧
    (∀ u, s.serveOne ck = some u → Steps (.dispatch ck) s (u.laterOnce (.dispatch ck))) ∧
    (s.serveOne ck = none → Steps (.dispatch ck) s s) ∧
    (mine → slotted → t.st = .sync → t.waitlimit ≠ 0 → t.waitlimit.toNat ≤ t.waitcount → t.pend = [p] → p.complete = false → p.waitState = .sync →
      p.kind = .waita → t.park = none → Steps (.waitLimitExpiry tk) s (up.fillLane tk p.id 0 3 none)) ∧
    (∀ v, mine → slotted → t.st = .sync → t.waitlimit ≠ 0 → t.waitlimit.toNat ≤ t.waitcount → t.pend = [] → t.park = some v →
      Steps (.waitLimitExpiry tk) s (({ up with unit := { tk := tk, addr := t.pc, core := up.coreOfThread t } } : State).takeTrap tk
        Cause.syncTimeout v t.pc false false)) ∧
    (mine → (t.st ≠ .sync ∨ t.waitlimit = 0 ∨ t.waitcount < t.waitlimit.toNat) → Steps (.waitLimitExpiry tk) s s) ∧
    (mine → t.cyclecmp ≠ 0 → t.cyclecmp.toNat ≤ s.cycleOf t → Steps (.timerExpiry tk) s (up.setThr tk { t with timer := true })) ∧
    (mine → (t.cyclecmp = 0 ∨ s.cycleOf t < t.cyclecmp.toNat) → Steps (.timerExpiry tk) s s) ∧
    (mine → slotted → t.st = .ready → t.inten.getLsbD 0 = true → t.canTrap = true → t.pend = [] →
      (t.wakes ≠ 0 → t.inten.getLsbD 1 = true → Steps (.interruptEntry tk) s
        (s.setThr tk (t.enterTrap (word (2 ^ 63 + 1)) (t.wakes.setWidth 64) t.pc false false))) ∧
      ((t.wakes = 0 ∨ t.inten.getLsbD 1 = false) → t.timer = true → t.inten.getLsbD 2 = true →
        Steps (.interruptEntry tk) s (s.setThr tk (t.enterTrap (word (2 ^ 63 + 2)) 0 t.pc false false)))) ∧
    (mine → (t.st ≠ .ready ∨ t.inten.getLsbD 0 = false) → Steps (.interruptEntry tk) s s) ∧
    (mine → (∀ q ∈ t.pend, q.complete = true) → t.pend.find? Pending.bad = some p → Steps (.deferredPoison tk) s (s.deferTrap tk p)) ∧
    (mine → ((∃ q ∈ t.pend, q.complete = false) ∨ ∀ q ∈ t.pend, q.bad = false) → Steps (.deferredPoison tk) s s)

/-! ## Engines, the matrix unit and the bank units as they go (R91 to R101, R212 to R223, R264 to R268, R426, R455) -/

/-- R212, R214, R216, R217, R222, R223, R455: a flume moves one entry between its queue and the pool; a card starts when no earlier card of an
overlapping footprint is left, and goes on while it is not over, with at most 1024 transfers outstanding; a copy that is over ends with
its pulse, or writes its status word first, in the pool or in memory, where a home may make it wait; one whose status word cannot be written ends in a fault event alone; an outlet that fires subtracts its term, acts, and is counted. -/
def Obligations.EngineSteps : Prop :=
  ∀ (s : State) (tk k ck id o term n : Nat) (t : Thread) (f : Flume) (c : Card),
    let pool := ckOfTk tk
    let flume : Prop := s.thr tk = some t ∧ t.flumes = [(k, f)] ∧ t.place = .inSlot n ∧ t.st = .ready
    let card : Prop := s.cardOf ck id = some c ∧ c.id = id
    let awake : Prop := s.halting ck = false ∧ ∃ x, s.coreOfCk ck = some x
    let ended (u : State) : State := u.endCard ck id
    let landed := s.landHeld ck id c.toLand
    (flume → f.out = false → f.queue.length < 4 → f.pos < f.total →
      let x : Vec := BitVec.ofNat 512 (s.poolRead pool (f.addr f.pos) 64)
      let u := s.setThr tk { t with flumes := [(k, { f with queue := f.queue ++ [x], pos := f.pos + 1 })] }
      Steps (.flumeTransfer tk k) s (if f.queue.length + 1 < 4 ∧ f.pos + 1 < f.total then u.laterOnce (.flumeTransfer tk k) else u)) ∧
    (flume → f.out = false → (4 ≤ f.queue.length ∨ f.total ≤ f.pos) → Steps (.flumeTransfer tk k) s s) ∧
    (∀ x rest, flume → f.out = true → f.queue = x :: rest →
      ∃ s', Steps (.flumeTransfer tk k) s s' ∧
        s'.thr tk = some { t with flumes := [(k, { f with queue := rest, pos := f.pos + 1 })] } ∧ s'.dram = s.dram ∧ s'.agents = s.agents) ∧
    (card → (c.held ≠ none ∨ s.coreOfCk ck = none ∨ s.halting ck = true) → Steps (.jobCardStart ck id) s s) ∧
    (card → awake → c.held = none → c.started = false → (∃ a ∈ (s.cx ck).cards, a.before c = true) → Steps (.jobCardStart ck id) s s) ∧
    (card → awake → c.held = none → c.started = false → (∀ a ∈ (s.cx ck).cards, a.before c = false) → c.kind = .bmv →
      Steps (.jobCardStart ck id) s ((s.modCard ck id fun y => { y with started := true }).laterOnce (.bmvJobStart c.job))) ∧
    (card → awake → c.held = none → c.started = true → c.kind = .copy →
      (c.copyOver = true → Steps (.jobCardStart ck id) s (landed.laterOnce (.copyJobComplete ck id))) ∧
      ((dimTotal c.dims ≤ c.pos ∨ 1024 ≤ c.outstanding.length) → c.copyOver = false → Steps (.jobCardStart ck id) s landed) ∧
      (c.pos < dimTotal c.dims → c.status < 2 → c.outstanding.length < 1024 →
        Steps (.jobCardStart ck id) s (landed.copyStep ck { c with paused := false }))) ∧
    (card → c.kind = .copy → c.started = true → c.copyOver = true → s.halting ck = false →
      (c.stAddr = 0 → c.status = 0 → Steps (.copyJobComplete ck id) s (ended (s.pulse ck 1 c.tag))) ∧
      (c.stAddr = 0 → c.status ≠ 0 → Steps (.copyJobComplete ck id) s (ended (s.jobFault ck c (word c.failAddr)))) ∧
      (∀ q off, c.stAddr ≠ 0 → c.status = 0 → s.jobPlace ck c c.stAddr 8 false true = .pool q off →
        Steps (.copyJobComplete ck id) s (ended ((s.poolWrite q off (leBytes 8 0)).pulse ck 1 c.tag))) ∧
      (∀ v pa, c.stAddr ≠ 0 → c.status = 0 → s.jobPlace ck c c.stAddr 8 false true = .mem v pa →
        (∀ w, v.cohPut ((s.coreOfCk ck).getD 0) pa (leBytes 8 0) false = .ok w → Steps (.copyJobComplete ck id) s (ended (w.pulse ck 1 c.tag))) ∧
        (∀ w, v.cohPut ((s.coreOfCk ck).getD 0) pa (leBytes 8 0) false = .error w →
          Steps (.copyJobComplete ck id) s (w.later (.copyJobComplete ck id)))) ∧
      (∀ st, c.stAddr ≠ 0 → s.jobPlace ck c c.stAddr 8 false true = .fail st →
        Steps (.copyJobComplete ck id) s (s.later (.jobStatusFail ck id)))) ∧
    (card → c.kind = .mlong → c.started = true → c.count ≤ c.pos → c.stAddr = 0 → c.status = 0 →
      Steps (.mlongComplete ck id) s (ended (s.pulse ck 2 0xFFF))) ∧
    (card → c.kind = .mlong → c.pos < c.count → c.status = 0 → Steps (.mlongComplete ck id) s s) ∧
    (∀ st, card → c.started = true → c.stAddr ≠ 0 → s.jobPlace ck c c.stAddr 8 false true = .fail st →
      Steps (.jobStatusFail ck id) s (ended (s.jobFault ck c c.stAddr))) ∧
    (card → (c.started = false ∨ c.stAddr = 0) → Steps (.jobStatusFail ck id) s s) ∧
    (outletFires (s.cx ck) o = some term →
      Steps (.sluiceOutletFire ck o) s ((((s.modCx ck fun x => subtractTerm x term).outletAct ck o).pulse ck 7 o).sluiceCheck ck)) ∧
    (outletFires (s.cx ck) o = none → Steps (.sluiceOutletFire ck o) s s)

/-- R264, R265, R267, R268, R426: the matrix unit, when idle, serves the oldest request of the next core in turn: an accumulation has its
effect at once, a factorisation begins its step. At the end of a step the tile has the step's values, and the last step, or a numeric
fault, finishes the request. A finished request's result is bound and its pending result ends. -/
def Claims.MatrixUnitSteps : Prop :=
  ∀ (s : State) (c k j id : Nat) (r : MxReq) (rest : List MxReq) (x : Context) (f : FactStep) (e : FactFault),
    let unit := s.clu c
    let idle : Prop := unit.mxStep = none ∧ unit.resident = some k ∧ s.context k = some x ∧ unit.mxNext x.mxLast = some j ∧
      Tbl.get [] unit.mxQueue j = r :: rest
    let taken : State := ((s.modClu c fun y => { y with mxQueue := Tbl.put [] y.mxQueue j rest }).modContext k fun y => { y with mxLast := j }).modCx
      r.ck fun y => { y with fmtctx := r.fmt, codetab0 := r.ct0, codetab1 := r.ct1 }
    let goesOn (u : State) : State := if (u.clu c).mxStep.isNone ∧ ((u.clu c).mxNext 3).isSome then u.laterOnce (.matrixRequestServe c) else u
    let stepped : State := s.modClu c fun y => { y with mxStep := none }
    let step : Prop := unit.mxStep = some r
    let after := stepped.factApply r f
    let bound : State := s.modClu c fun y => { y with mxDone := [] }
    (unit.mxStep ≠ none → Steps (.matrixRequestServe c) s s) ∧
    (unit.mxStep = none → unit.resident = none → Steps (.matrixRequestServe c) s s) ∧
    (∀ clear, idle → r.op = .mma clear →
      Steps (.matrixRequestServe c) s (goesOn ((taken.mmaEffect r clear).1.mxFinish c { r with bad := (taken.mmaEffect r clear).2 }))) ∧
    (∀ n, idle → r.op = .long n → Steps (.matrixRequestServe c) s (goesOn (taken.mxLong c r n))) ∧
    (idle → r.op.isFact = true → Steps (.matrixRequestServe c) s (goesOn (taken.factBegin c r))) ∧
    (unit.mxStep = none → Steps (.factorisationStepEnd c) s s) ∧
    (step → stepped.factEval r = .error e → Steps (.factorisationStepEnd c) s (goesOn (stepped.factFault c r e))) ∧
    (step → stepped.factEval r = .ok f → r.step = 31 → Steps (.factorisationStepEnd c) s (goesOn (after.1.mxFinish c after.2))) ∧
    ((∀ q ∈ unit.mxDone, q.id ≠ id) → Steps (.matrixResultBind c id) s s) ∧
    (unit.mxDone = [r] → r.id = id → r.fault = none → (r.bad ≠ none ∨ r.op.isFact = false) →
      Steps (.matrixResultBind c id) s ((bound.modThr r.tk fun t => t).fillLane r.tk r.pend 0 0 r.bad)) ∧
    (unit.mxDone = [r] → r.id = id → r.fault = none → r.bad = none → r.op.isFact = true →
      Steps (.matrixResultBind c id) s (((bound.factWrite r).modThr r.tk fun t => t).fillLane r.tk r.pend 0 0 none))

/-- R91 to R93, R98 to R100: bank compute. A job waits while its context is away; running and ended ones stay. XLD loads the latch, BRUN
starts a pass at block 0, BHALT stops it at a block boundary and BRES lets it go on; PRD hands its partial sums to the job's reducer;
a running bank takes no command but BHALT, and devices without the extension, or with it disabled, take none. A batch of a job that is not
running, or has a halted unit, does not end, and one with a command on its way is looked at again; a job whose results are written
ends, and a line of y is written before that. -/
def Claims.BankSteps : Prop :=
  ∀ (s : State) (u off n first count : Nat) (l : List (BitVec 256)) (r : BankRun) (j : BmvJob),
    let x := s.bank u
    let job : Prop := s.bmvJob n = some j ∧ j.id = n
    let left := (Config.freeNat s.free) % (x.left + 1)
    (s.bankExt = true → x.running = false → l ≠ [] → off + l.length ≤ 96 →
      Steps (.xld u off l) s (s.modBank u fun x => { x with latch := ((List.range l.length).zip l).foldl (fun t e => Tbl.put 0 t (off + e.1) e.2) x.latch })) ∧
    (s.bankExt = true → x.running = false → 1 ≤ r.rows → r.rows ≤ 256 → 1 ≤ r.ks → r.ks ≤ 32 → (bmvSizes r.fmt r.scl).isSome = true →
      Steps (.brun u r) s (s.modBank u fun x => { x with run := some r, row := 0, blk := 0, acc := 0, accPoison := false, halted := false })) ∧
    (x.running = true → Steps (.xld u off l) s s ∧ Steps (.brun u r) s s ∧ Steps (.prd u first count) s s) ∧
    (s.bankExt = true → x.run = some r → x.halted = false →
      Steps (.bhalt u) s (s.draw.modBank u fun x => { s.bankBlocks u r left x with halted := true })) ∧
    ((x.run = none ∨ x.halted = true) → Steps (.bhalt u) s s) ∧
    (s.bankExt = true → Steps (.bres u) s (s.modBank u fun x => { x with halted := false })) ∧
    (s.bankExt = false → ∀ i ∈ [Instr.xld u off l, .brun u r, .bhalt u, .bres u, .prd u first count], Steps i s s) ∧
    (s.bankExt = true → x.running = false → 1 ≤ count → first + count ≤ 256 → x.job = some n →
      Steps (.prd u first count) s (s.modJob n fun b => { b with
        red := (List.range count).foldl (fun t i => Tbl.put 0 t (256 * u + first + i) (Tbl.get 0 x.part (first + i))) b.red
        redBad := (List.range count).foldl (fun t i => Tbl.put false t (256 * u + first + i) (Tbl.get false x.partPoison (first + i))) b.redBad })) ∧
    (job → (j.phase ≠ .running ∨ j.swept = false) → Steps (.bankPassBatchEnd n) s s) ∧
    (job → (∃ v ∈ s.jobUnits n, (s.bank v).run ≠ none ∧ (s.bank v).halted = true) → Steps (.bankPassBatchEnd n) s s) ∧
    (job → j.phase = .running → j.swept = true → (∀ v ∈ s.jobUnits n, (s.bank v).halted = false) → s.cmdPending (s.jobUnits n) = true →
      Steps (.bankPassBatchEnd n) s (s.later (.bankPassBatchEnd n))) ∧
    (job → j.phase = .running → j.swept = true → s.jobUnits n = [] →
      let j' := { j with ys := j.ys ++ s.batchYs j, rowsDone := j.rowsDone + 256, red := [], redBad := [] }
      let s1 := s.modJob n fun _ => j'
      (s1.rpg j' ≤ j'.rowsDone → Steps (.bankPassBatchEnd n) s ((s1.modJob n fun b => { b with phase := .writing }).later (.bmvJobCompletion n))) ∧
      (j'.rowsDone < s1.rpg j' → Steps (.bankPassBatchEnd n) s (s1.startBatch j'))) ∧
    (job → j.phase ≠ .writing → Steps (.bmvJobCompletion n) s s) ∧
    (∀ v, job → j.phase = .writing → j.written < j.ys.length → j.status ≠ 5 → (s.writeY j = .ok v ∨ s.writeY j = .error v) →
      Steps (.bmvJobCompletion n) s (v.later (.bmvJobCompletion n))) ∧
    (job → j.phase = .writing → j.ys.length ≤ j.written → j.staddr = 0 → Steps (.bmvJobCompletion n) s (s.endJob j)) ∧
    (s.bmvJob n = none → Steps (.bmvJobStart n) s s) ∧
    (job → j.phase = .writing → s.svc.invals = [] → Steps (.bmvJobStart n) s (s.laterOnce (.bmvJobCompletion n))) ∧
    (job → (j.phase = .running ∨ j.phase = .done) → s.svc.invals = [] → Steps (.bmvJobStart n) s s) ∧
    (job → j.phase = .sweeping → j.queue = none → j.swept = false → s.coreOfCk j.ck = none → Steps (.bmvJobStart n) s s) ∧
    (job → j.phase = .sweeping → j.queue.isSome = true → j.swept = false → j.status < 2 → s.bmvWaits n = false → (∀ p ∈ s.bmvPages j, Tbl.get 0 j.pages (pageKey p.1 p.2) ≠ 0) →
      ∀ a, (s.modJob n fun b => { b with phase := .translating }).badLayout { j with phase := .translating } = some a →
        Steps (.bmvJobStart n) s ((s.modJob n fun b => { b with phase := .translating }).failJob n 4 a))

/-! ## Statements of several parts -/

/-- Loads and stores of a pool: R333, R337, R338, R340, R350, with the frame of a store. -/
def Obligations.PoolAccessResults : Prop :=
  Claims.PoolLoadResults ∧ Claims.PoolStoreResults ∧ Claims.PoolWriteFrame

/-- Loads and stores of memory: R206, R333, R334, R338. -/
def Obligations.MemoryAccessResults : Prop :=
  Claims.MemoryLoadResults ∧ Claims.MemoryStoreResults

/-- The far atomics: the new field values of R345 and what the instructions do with them (R345, R346). -/
def Obligations.AtomicResults : Prop :=
  Claims.AtomicOperations ∧ Claims.FarAtomicResults

/-- The barrier: its update procedures (R218) and its instructions (R356 to R360). -/
def Obligations.BarrierResults : Prop :=
  Claims.BarrierCountAndCheck ∧ Claims.BarrierInstructions

/-- Reductions and scans: R245, R246, R382, R383, R386. -/
def Obligations.VectorReductionAndScanResults : Prop :=
  Claims.VectorReductionResults ∧ Claims.VectorReductionFindsTheWinner ∧ Claims.VectorScanResults

/-- Conversions and scaled blocks: R238, R240, R379 to R381, R386. -/
def Obligations.VectorConversionAndBlockResults : Prop :=
  Claims.VectorConversionResults ∧ Claims.VectorBlockResults

/-- The state registers: R200, R296, R398, R399. -/
def Obligations.StateRegisterResults : Prop :=
  Claims.StateRegisterAccess ∧ Claims.ReadOnlyStateRegisters

/-- The sluice board: R219 to R223, R394, R398. -/
def Obligations.SluiceResults : Prop :=
  Claims.SluiceRegisterResults ∧ Claims.SluiceBoardResults

/-- The copy engine: R213, R388 to R390. -/
def Obligations.CopyIssue : Prop :=
  Claims.CopyIssueResults ∧ Claims.BulkCopyIssue

/-- Matrix long operations and bank compute as they issue: R88, R266, R390. -/
def Obligations.LongJobIssue : Prop :=
  Claims.MatrixLongIssue ∧ Claims.BankJobIssue

/-- The matrix unit's instructions as they issue: R258, R262, R412, R418, R424, R425. -/
def Obligations.MatrixIssue : Prop :=
  Claims.MatrixAccumulateIssue ∧ Claims.FactorisationIssue

/-- Tile moves and the matrix context: R263, R416, R420 to R422. -/
def Obligations.TileAndContextResults : Prop :=
  Claims.TileMoveResults ∧ Claims.MatrixContextResults

/-- The service thread's notices and spilled messages: R168, R405, R411. -/
def Obligations.ServiceNoticeResults : Prop :=
  Claims.NoticeResults ∧ Claims.SpillResults

/-- Directory service: R406 to R409. -/
def Obligations.DirectoryResults : Prop :=
  Claims.DirectoryReadResults ∧ Claims.DirectoryCompletionResults

/-- Traps that an instruction raises before its effect: R11, R145, R228, R235, R287, R403, R411. -/
def Obligations.ExecutionTraps : Prop :=
  Claims.FpTraps ∧ Claims.ExtensionAbsent ∧ Claims.PrivilegedTraps

/-- Ports and flumes as operands: R199, R212, R325, R327, R329. -/
def Obligations.OperandPortResults : Prop :=
  Claims.PortOperandResults ∧ Claims.FlumeOperandResults

/-- The end of a held capsule, and slip edits: R276, R279, R396, R397. -/
def Obligations.CapsuleEndAndSlipResults : Prop :=
  Claims.CapsuleEndResults ∧ Claims.SlipEditResults

/-- Load-locked and store-conditional, fences and waits: R62, R349, R353 to R355. -/
def Obligations.LockedAndFenceResults : Prop :=
  Claims.LoadLockedResults ∧ Claims.FenceAndWaitResults

/-- The packets of a queue: R80, R81, R112 to R124, R203. -/
def Obligations.PacketSteps : Prop :=
  Claims.MemoryPacketSteps ∧ Claims.LaunchAndBindSteps

/-- Power, errors and resets: R9 to R31, R172. -/
def Obligations.PowerErrorAndResetSteps : Prop :=
  Claims.PowerStateSteps ∧ Claims.ErrorSteps ∧ Claims.ResetSteps

/-- Probes, answers and write-backs: R47 to R49, R59, R60, R155. -/
def Obligations.ProbeAndAnswerResults : Prop :=
  Claims.ProbeResults ∧ Claims.HomeAnswerResults

/-- Messages to contexts and capsules on the network: R133, R141, R144, R153, R168, R169, R277 to R284, R404 to R407. -/
def Obligations.MessageResults : Prop :=
  Claims.ContextMessageResults ∧ Claims.CapsuleMessageResults

/-- The matrix unit and the bank units as they go: R91 to R101, R264 to R268, R426. -/
def Obligations.MatrixUnitAndBankSteps : Prop :=
  Claims.MatrixUnitSteps ∧ Claims.BankSteps

/-- The element-wise vector instructions: R362, R367 to R370, R375, R384, R386. -/
def Obligations.VectorLaneResults : Prop :=
  Claims.VectorIntegerResults ∧ Claims.VectorFloatResults ∧ Claims.VectorCompareResults

/-- The scheduler and what befalls a thread: R124 to R146, R198, R210, R228, R231. -/
def Obligations.SchedulerAndThreadSteps : Prop :=
  Claims.SchedulerSteps ∧ Claims.ThreadSteps

/-! ## Placement and merges, stated as their rules stand (R54, R201) -/

/-- R201: GEOM0 to GEOM3 are set at placement as the table gives them, bits not listed read zero, and they travel with the thread
when it is saved or migrated. -/
def Obligations.GeometryRegisters : Prop :=
  ∀ (x : Region) (ck slot : Nat) (s : State) (tk to_ : Nat) (t : Thread),
    let i := rcOfCk ck * x.tpc + slot
    let n := x.gx * x.gy * x.gz
    let u := x.firstThread ck slot
    let same (a b : Thread) : Prop := a.geom0 = b.geom0 ∧ a.geom1 = b.geom1 ∧ a.geom2 = b.geom2 ∧ a.geom3 = b.geom3
    (1 ≤ x.gx → x.gx < 2 ^ 16 → 1 ≤ x.gy → x.gy < 2 ^ 16 → 1 ≤ x.gz → x.gz < 2 ^ 16 → x.tpc < 2 ^ 4 → x.vals.parts ≤ 16 → slot < x.tpc →
      (field u.geom0 0 16 = x.gx ∧ field u.geom0 16 16 = x.gy ∧ field u.geom0 32 16 = x.gz ∧ field u.geom0 48 4 = x.tpc ∧ field u.geom0 52 12 = 0) ∧
      (field u.geom1 0 16 = i % x.gx ∧ field u.geom1 16 16 = i / x.gx % x.gy ∧
        field u.geom1 32 16 = i / (x.gx * x.gy) % x.gz ∧ (field u.geom1 48 1 = 1 ↔ n ≤ i) ∧ field u.geom1 49 15 = 0) ∧
      (field u.geom2 0 32 = i ∧ field u.geom2 32 16 = 4 * x.vals.parts * x.tpc ∧ field u.geom2 48 16 = 0) ∧
      (field u.geom3 0 48 = n ∧ field u.geom3 48 5 = rcOfCk ck / 4 ∧ field u.geom3 53 11 = 0)) ∧
    (s.thr tk = some t →
      (∃ v, (s.saveThread tk).thr tk = some v ∧ same v t) ∧ (∀ l, ∃ v, (s.saveMasked tk l).thr tk = some v ∧ same v t) ∧
      (∃ v, (s.restoreThread tk slot).thr tk = some v ∧ same v t) ∧
      ∃ v, (s.moveThread tk to_).thr tk = some v ∧ same v t)

/-- R54: two sibling nodes, and only two that meet every condition of the rule, merge into their parent, which takes the common record; no
line's version changes. -/
def Obligations.NodeMerge : Prop :=
  ∀ (s : State) (sl : Nat) (a b : Node),
    let x := s.sl sl
    let size := 2 ^ (10 - a.level)
    let quiet (n : Node) : Prop := n.used + 2 ^ 18 ≤ s.sclk ∧ x.nodeBusy n = false ∧ x.nodePinned n = false
    let alike : Prop := a.st = b.st ∧ a.owner = b.owner ∧ (∀ k, k ∈ a.sh ↔ k ∈ b.sh) ∧ a.ver = b.ver ∧ a.ovf = false ∧ b.ovf = false
    let parent : Node := { a with level := a.level - 1, used := max a.used b.used }
    let merge (s' : State) : Prop := Steps (.nodeMerge sl a.region a.level a.path) s s'
    (∀ region level path, (level = 0 ∨ 10 < level ∨ x.nodes = []) → Steps (.nodeMerge sl region level path) s s) ∧
    (1 ≤ a.level → a.level ≤ 10 → x.nodes = [a, b] → b.region = a.region → b.level = a.level → a.path % (2 * size) = 0 → b.path = a.path + size →
      ((quiet a ∧ quiet b ∧ alike) → merge (s.setSl sl { x with nodes := [parent] })) ∧
      (¬ (quiet a ∧ quiet b ∧ alike) → merge s) ∧
      ∀ line, quiet a ∧ quiet b ∧ alike → (a.covers line = true ∨ b.covers line = true) →
        parent.covers line = true ∧ parent.ver = a.ver ∧ parent.ver = b.ver)

/-! ## The machine's step, its decoder and its reset -/

/-- A step runs the decoded instruction. On a core's turn, with a thread first in turn and no interrupt to enter, the unit in the fetched
line at the PC is decoded, and the step is that instruction's `exec`, on the state with the unit recorded, followed by what the turn
keeps (the slot and the cycle of the issue) and what settles after every step. For a pair the A word is evaluated first and then the
C word. An automatic step that takes a pending step of the device is that step's `exec`; a chosen one is too, but that of
a channel's messages the oldest comes first (R43). A fault or refusal of `exec` is the step's. -/
def Obligations.StepRunsTheDecodedInstruction : Prop :=
  ∀ (s : State) (c k tk : Nat) (rest : List Choice) (more : List (Nat × Nat)) (t : Thread) (s3 : State) (d : Vec) (i j : Instr),
    let s1 : State := { s.tickClock.tickCycles with choices := rest }
    let s2 := s1.beginTurn c
    let w := bytesAt d (t.pc.toNat % 64) 4
    let w1 := bytesAt d (t.pc.toNat % 64 + 4) 4
    let turn : Prop := s.choices = .core c :: rest ∧ c < 64 ∧ s1.coreRuns c = true ∧ s2.candidates c = (k, tk) :: more ∧ s2.thr tk = some t ∧
      t.interrupt? = none ∧ ({ s2 with unit := { tk := tk, addr := t.pc, core := c } } : State).fetch tk t = .line s3 d
    let ends (s4 : State) : State := ((s4.modCore c fun x => { x with lastSlot := k }).modThr tk fun u =>
      if u.lastIssue = t.lastIssue then { u with lastIssue := some (s2.clu (c / 4)).cycle.toNat } else u).settleStep
    let decodes (w : Nat) (i : Instr) : Prop := decodeWord w = some i ∧ (isF64vWord w = false ∨ s3.hasF64v s3.unit.core = true)
    let lone : State := { s3 with unit := { s3.unit with word0 := BitVec.ofNat 32 w } }
    let pair : State := { s3 with unit := { s3.unit with word0 := BitVec.ofNat 32 w, word1 := BitVec.ofNat 32 w1, phase := .aOfPair, cReads := vReads i } }
    (turn → bits w 31 1 = 0 → decodes w i →
      (∀ s4, exec i lone = .next s4 → s4.unit.refused = false → step s = .next (ends s4)) ∧
      (∀ f, exec i lone = .fault f → step s = .fault f) ∧ (∀ r, exec i lone = .refused r → step s = .refused r)) ∧
    (turn → bits w 31 1 = 1 → bits w 30 1 = 0 → t.pc.toNat % 8 = 0 → bits w1 31 1 = 0 → bits w1 30 1 = 1 → decodeWord w = some i → standsAlone i = false →
      decodes w1 j →
      ∀ s4 s5, exec j pair = .next s4 → exec i { s4 with unit := { s4.unit with phase := .cOfPair } } = .next s5 → s5.unit.refused = false →
        step s = .next (ends s5)) ∧
    (∀ e l s', s.choices = [] → s.flip = true → s.agenda = e :: l →
      exec (evInstr e) { s.tickClock.tickCycles with flip := false, agenda := l } = .next s' → step s = .next s'.settleStep) ∧
    (∀ n m e a s', s.choices = .ev n :: rest → s.agenda[n]? = some a → s.agenda[m]? = some e →
      ((channelKey a = none ∧ m = n) ∨ (sameChannel e a = true ∧ ∀ b ∈ s.agenda.take m, sameChannel b a = false)) →
      exec (evInstr e) { s1 with agenda := s.agenda.eraseIdx m } = .next s' → step s = .next s'.settleStep)

/-- Words written out from the spec's encodings decode to their instructions, one from each family, and words outside the encodings are refused:
scalar arithmetic, branches, a return, a load, a store, an atomic, a message, a state register, vector arithmetic and conversion, a copy, the matrix
unit's MEDGE and ERET (the words are those that spec/14 to spec/19 print in their listings; R288 gives word 0). -/
def Obligations.SampleWordsDecode : Prop :=
  decodeWord 0x40A52A00 = some (.add 20 20 21) ∧ decodeWord 0x43213FFF = some (.addi 4 4 0x3FFF) ∧ decodeWord 0x4AA70002 = some (.movhi 20 0x70002) ∧
  decodeWord 0x01200FFC = some (.bne false 4 0 0x7FC) ∧ decodeWord 0x02A817FD = some (.bdec false 21 2 0x7FD) ∧
  decodeWord 0x07000002 = some (.ret false) ∧ decodeWord 0x90A8D801 = some (.ldD true 21 3 0 1) ∧ decodeWord 0x11291800 = some (.stD false 5 4 0) ∧
  decodeWord 0x19299841 = some (.amoadd false 5 6 .dev true 1) ∧ decodeWord 0x08052C20 = some (.sendc false 20 22) ∧
  decodeWord 0x09051040 = some (.srw false 20 0x040) ∧ decodeWord 0x5908864A = some (.vfma 1 2 3 1 .f32) ∧
  decodeWord 0x6728E04A = some (.vcvt 5 3 .bf16 0 false true 0 .f32) ∧ decodeWord 0x20030010 = some (.cpyt false 12) ∧
  decodeWord 0x2F52D8D0 = some (.medge false 10 11 12 13) ∧ decodeWord 0x0A000000 = some .eret ∧ decodeWord 0 = none

/-- After reset, the values the spec gives: no thread, partition or queue exists (R28, R125); the firmware has loaded no layer (R34); the host's
registers that have a reset value hold it (R26, R39, R83, R104, R121, R132); DRAM lists nothing, no line is cached, no transaction is open; and
its memories are canonical. Values of the model's own choosing are not stated. -/
def Obligations.ResetState : Prop :=
  let s := State.reset
  s.threads = [] ∧ s.ctx = [] ∧ s.sched.regions = [] ∧ s.sched.contexts = [] ∧ s.sched.standby = false ∧ s.agents = [] ∧ s.slices = [] ∧
    s.agenda = [] ∧ s.fe.queues = [] ∧ s.fe.qtEn = false ∧ s.ctl.layer = 0 ∧ s.ctl.ready = false ∧ s.ctl.mbox.busy = false ∧ s.ctl.errors = [] ∧
    s.bmv.winEn = false ∧ s.sched.saveEn = false ∧ s.sched.svcEn = false ∧ s.pow.tol = 0 ∧ s.pow.dev = .ls0 ∧ s.pow.fatal = false ∧
    s.dram = [] ∧ Canonical s ∧ Memory.wf s.dram = true

/-! ## Headline results -/

/-- The decoder inverts the encoder: the word that the encoding tables give a well-formed instruction, of any family and with every
operand at every value that the encoding admits, decodes to that instruction, so no two instructions share a word; and in memory, little-endian,
followed by any bytes, it decodes to it and leaves those bytes (R5, R286 to R294). -/
def Obligations.DecodeInvertsEncode : Prop :=
  ∀ (i j : Instr) (w : Nat), encode i = some w → i.wf = true →
    decodeWord w = some i ∧ (encode j = some w → j.wf = true → j = i) ∧
    (w < 2 ^ 32 → ∀ rest, decodeBytes (leBytes 4 w ++ rest) = some (i, rest))

/-- Every step keeps memory in its canonical form, from every state and whatever comes next: an instruction, a device step or an access of the
host. Two states reached so whose memories read alike at every address hold equal memories, whatever was written to them. -/
def Obligations.StepKeepsMemoryCanonical : Prop :=
  ∀ (s s' : State), Memory.wf s.dram = true → step s = .next s' → Memory.wf s'.dram = true ∧
    ∀ u u' : State, Memory.wf u.dram = true → step u = .next u' → (∀ n, Tbl.get 0 s'.dram n = Tbl.get 0 u'.dram n) → s'.dram = u'.dram
end

