-- ==== Sys2Proof/Laws/Table.lean ====
section
/-!
SUPPORT. Sparse arrays: a read after a write, and that writes keep the canonical form.
-/

namespace Sys2Proof.Machine

variable {α : Type} [DecidableEq α]

@[simp] theorem Tbl.get_nil (z : α) (n : Nat) : Tbl.get z [] n = z := rfl

/-- A read at the key written gives the value written, if that is not the default. -/
theorem Tbl.get_put_ne_default (z : α) (t : Tbl α) (n : Nat) (x : α) (hx : x ≠ z) : Tbl.get z (Tbl.put z t n x) n = x := by
  induction t with
  | nil => simp [Tbl.put, Tbl.get, hx]
  | cons e t ih =>
    obtain ⟨k, v⟩ := e
    simp only [Tbl.put, hx, if_false]
    split
    · simp [Tbl.get]
    · split
      · simp [Tbl.get]
      · rename_i h1 h2
        simp [Tbl.get, h1, h2, ih]

/-- Writing twice at one key is writing the second value, if the first is not the default. -/
theorem Tbl.put_put (z : α) (t : Tbl α) (n : Nat) (x y : α) (hx : x ≠ z) :
    Tbl.put z (Tbl.put z t n x) n y = Tbl.put z t n y := by
  induction t with
  | nil => by_cases hy : y = z <;> simp [Tbl.put, hx, hy]
  | cons e t ih =>
    obtain ⟨k, v⟩ := e
    simp only [Tbl.put, hx, if_false]
    by_cases h1 : n < k
    · by_cases hy : y = z <;> simp [Tbl.put, h1, hy]
    · by_cases h2 : k = n
      · by_cases hy : y = z <;> simp [Tbl.put, h2, hy]
      · simp [Tbl.put, h1, h2, ih]

/-- Writing what a key holds changes nothing, if that is not the default. -/
theorem Tbl.put_get (z : α) (t : Tbl α) (n : Nat) (x : α) (h : Tbl.get z t n = x) (hx : x ≠ z) : Tbl.put z t n x = t := by
  induction t with
  | nil => exact absurd h.symm hx
  | cons e t ih =>
    obtain ⟨k, v⟩ := e
    simp only [Tbl.get] at h
    simp only [Tbl.put, hx, if_false]
    by_cases h2 : k = n
    · have h1 : ¬ n < k := by omega
      rw [if_pos h2] at h
      simp [h1, h2, h]
    · rw [if_neg h2] at h
      by_cases h1 : n < k
      · rw [if_pos h1] at h; exact absurd h.symm hx
      · rw [if_neg h1] at h
        simp [h1, h2, ih h]

/-- No entry of an array above `lo` has a lower key, so a lower key reads the default. -/
theorem Tbl.get_of_lt (z : α) (t : Tbl α) (lo n : Nat) (h : Tbl.above z lo t = true) (hn : n < lo) : Tbl.get z t n = z := by
  cases t with
  | nil => rfl
  | cons e t =>
    obtain ⟨k, v⟩ := e
    simp only [Tbl.above, Bool.and_eq_true, decide_eq_true_eq] at h
    have h1 : ¬ k = n := by omega
    have h2 : n < k := by omega
    simp [Tbl.get, h1, h2]

/-- An array above `hi` is above every lower bound. -/
theorem Tbl.above_mono (z : α) (t : Tbl α) (lo hi : Nat) (h : Tbl.above z hi t = true) (hl : lo ≤ hi) : Tbl.above z lo t = true := by
  cases t with
  | nil => rfl
  | cons e t =>
    obtain ⟨k, v⟩ := e
    simp only [Tbl.above, Bool.and_eq_true, decide_eq_true_eq] at h ⊢
    exact ⟨⟨by omega, h.1.2⟩, h.2⟩

/-- A write keeps an array above its bound. -/
theorem Tbl.above_put (z : α) (t : Tbl α) (lo n : Nat) (x : α) (h : Tbl.above z lo t = true) (hn : lo ≤ n) :
    Tbl.above z lo (Tbl.put z t n x) = true := by
  induction t generalizing lo with
  | nil => by_cases hx : x = z <;> simp [Tbl.put, Tbl.above, hx, hn]
  | cons e t ih =>
    obtain ⟨k, v⟩ := e
    have h' := h
    simp only [Tbl.above, Bool.and_eq_true, decide_eq_true_eq] at h
    obtain ⟨⟨hk, hv⟩, ht⟩ := h
    simp only [Tbl.put]
    by_cases h1 : n < k
    · by_cases hx : x = z
      · simpa [h1, hx] using h'
      · simp only [h1, hx, if_true, if_false, Tbl.above, Bool.and_eq_true, decide_eq_true_eq]
        exact ⟨⟨hn, hx⟩, ⟨by omega, hv⟩, ht⟩
    · by_cases h2 : k = n
      · by_cases hx : x = z
        · simpa [h1, h2, hx] using Tbl.above_mono z t lo (k + 1) ht (by omega)
        · subst h2
          simpa [hx, Tbl.above, hn] using ht
      · simp only [h1, h2, if_false, Tbl.above, Bool.and_eq_true, decide_eq_true_eq]
        exact ⟨⟨hk, hv⟩, ih (k + 1) ht (by omega)⟩

/-- A write keeps the canonical form. -/
theorem Tbl.wf_put (z : α) (t : Tbl α) (n : Nat) (x : α) (h : Tbl.wf z t = true) : Tbl.wf z (Tbl.put z t n x) = true :=
  Tbl.above_put z t 0 n x h (Nat.zero_le n)

/-- A read at another key is unchanged by a write. -/
theorem Tbl.get_put_other (z : α) (t : Tbl α) (lo n m : Nat) (x : α) (h : Tbl.above z lo t = true) (hm : m ≠ n) :
    Tbl.get z (Tbl.put z t n x) m = Tbl.get z t m := by
  induction t generalizing lo with
  | nil =>
    by_cases hx : x = z
    · simp [Tbl.put, Tbl.get, hx]
    · have : ¬ n = m := fun e => hm e.symm
      simp [Tbl.put, Tbl.get, hx, this]
  | cons e t ih =>
    obtain ⟨k, v⟩ := e
    simp only [Tbl.above, Bool.and_eq_true, decide_eq_true_eq] at h
    obtain ⟨⟨hk, hv⟩, ht⟩ := h
    have hnm : ¬ n = m := fun e => hm e.symm
    simp only [Tbl.put]
    by_cases h1 : n < k
    · by_cases hx : x = z
      · simp [h1, hx]
      · simp only [h1, hx, if_true, if_false, Tbl.get, hnm]
        by_cases h3 : m < n
        · have h4 : ¬ k = m := by omega
          have h5 : m < k := by omega
          simp [h3, h4, h5]
        · simp [h3]
    · by_cases h2 : k = n
      · subst h2
        by_cases hx : x = z
        · by_cases h3 : m < k
          · simp [hx, Tbl.get, hnm, h3, Tbl.get_of_lt z t (k + 1) m ht (by omega)]
          · simp [hx, Tbl.get, hnm, h3]
        · simp [hx, Tbl.get, hnm]
      · simp only [h1, h2, if_false, Tbl.get]
        by_cases h3 : k = m
        · simp [h3]
        · simp [h3, ih (k + 1) ht]

/-- A read at the key written gives the value written. -/
theorem Tbl.get_put_same (z : α) (t : Tbl α) (n : Nat) (x : α) (h : Tbl.wf z t = true) : Tbl.get z (Tbl.put z t n x) n = x := by
  by_cases hx : x = z
  · subst hx
    suffices ∀ lo, Tbl.above x lo t = true → Tbl.get x (Tbl.put x t n x) n = x from this 0 h
    clear h
    induction t with
    | nil => intro _ _; simp [Tbl.put]
    | cons e t ih =>
      obtain ⟨k, v⟩ := e
      intro lo h
      simp only [Tbl.above, Bool.and_eq_true, decide_eq_true_eq] at h
      simp only [Tbl.put]
      by_cases h1 : n < k
      · have h2 : ¬ k = n := by omega
        simp [h1, h2, Tbl.get]
      · by_cases h2 : k = n
        · simpa [h1, h2] using Tbl.get_of_lt x t (k + 1) n h.2 (by omega)
        · simpa [h1, h2, Tbl.get] using ih (k + 1) h.2
  · exact Tbl.get_put_ne_default z t n x hx

/-- Removing entries keeps the canonical form. -/
theorem Tbl.above_filter (z : α) (t : Tbl α) (lo : Nat) (p : Nat × α → Bool) (h : Tbl.above z lo t = true) :
    Tbl.above z lo (t.filter p) = true := by
  induction t generalizing lo with
  | nil => rfl
  | cons e t ih =>
    obtain ⟨k, v⟩ := e
    simp only [Tbl.above, Bool.and_eq_true, decide_eq_true_eq] at h
    obtain ⟨⟨hk, hv⟩, ht⟩ := h
    by_cases hp : p (k, v)
    · simp only [List.filter_cons, hp, if_true, Tbl.above, Bool.and_eq_true, decide_eq_true_eq]
      exact ⟨⟨hk, hv⟩, ih (k + 1) ht⟩
    · simp only [List.filter_cons, hp]
      exact Tbl.above_mono z _ lo (k + 1) (ih (k + 1) ht) (by omega)

end Sys2Proof.Machine
end

