-- ==== Sys2Proof/Laws/State.lean ====
section
/-!
SUPPORT. What each named update of the state changes: one lemma for each field and update, so that no proof unfolds a record.
-/

namespace Sys2Proof.Machine

variable (s : State)

/-! ## setThr -/

@[simp] theorem State.setThr_threads (tk : Nat) (t : Thread) : (s.setThr tk t).threads = Tbl.put none s.threads tk (some t) := rfl
@[simp] theorem State.setThr_ctx (tk : Nat) (t : Thread) : (s.setThr tk t).ctx = s.ctx := rfl
@[simp] theorem State.setThr_cores (tk : Nat) (t : Thread) : (s.setThr tk t).cores = s.cores := rfl
@[simp] theorem State.setThr_clusters (tk : Nat) (t : Thread) : (s.setThr tk t).clusters = s.clusters := rfl
@[simp] theorem State.setThr_agents (tk : Nat) (t : Thread) : (s.setThr tk t).agents = s.agents := rfl
@[simp] theorem State.setThr_slices (tk : Nat) (t : Thread) : (s.setThr tk t).slices = s.slices := rfl
@[simp] theorem State.setThr_dram (tk : Nat) (t : Thread) : (s.setThr tk t).dram = s.dram := rfl
@[simp] theorem State.setThr_dramPoison (tk : Nat) (t : Thread) : (s.setThr tk t).dramPoison = s.dramPoison := rfl
@[simp] theorem State.setThr_svc (tk : Nat) (t : Thread) : (s.setThr tk t).svc = s.svc := rfl
@[simp] theorem State.setThr_bmv (tk : Nat) (t : Thread) : (s.setThr tk t).bmv = s.bmv := rfl
@[simp] theorem State.setThr_fe (tk : Nat) (t : Thread) : (s.setThr tk t).fe = s.fe := rfl
@[simp] theorem State.setThr_sched (tk : Nat) (t : Thread) : (s.setThr tk t).sched = s.sched := rfl
@[simp] theorem State.setThr_ctl (tk : Nat) (t : Thread) : (s.setThr tk t).ctl = s.ctl := rfl
@[simp] theorem State.setThr_pow (tk : Nat) (t : Thread) : (s.setThr tk t).pow = s.pow := rfl
@[simp] theorem State.setThr_port (tk : Nat) (t : Thread) : (s.setThr tk t).port = s.port := rfl
@[simp] theorem State.setThr_unit (tk : Nat) (t : Thread) : (s.setThr tk t).unit = s.unit := rfl
@[simp] theorem State.setThr_agenda (tk : Nat) (t : Thread) : (s.setThr tk t).agenda = s.agenda := rfl
@[simp] theorem State.setThr_choices (tk : Nat) (t : Thread) : (s.setThr tk t).choices = s.choices := rfl
@[simp] theorem State.setThr_turn (tk : Nat) (t : Thread) : (s.setThr tk t).turn = s.turn := rfl
@[simp] theorem State.setThr_flip (tk : Nat) (t : Thread) : (s.setThr tk t).flip = s.flip := rfl
@[simp] theorem State.setThr_clock (tk : Nat) (t : Thread) : (s.setThr tk t).clock = s.clock := rfl
@[simp] theorem State.setThr_sclk (tk : Nat) (t : Thread) : (s.setThr tk t).sclk = s.sclk := rfl
@[simp] theorem State.setThr_fclk (tk : Nat) (t : Thread) : (s.setThr tk t).fclk = s.fclk := rfl
@[simp] theorem State.setThr_free (tk : Nat) (t : Thread) : (s.setThr tk t).free = s.free := rfl

/-! ## setCx -/

@[simp] theorem State.setCx_threads (ck : Nat) (x : CtxCore) : (s.setCx ck x).threads = s.threads := rfl
@[simp] theorem State.setCx_ctx (ck : Nat) (x : CtxCore) : (s.setCx ck x).ctx = Tbl.put {} s.ctx ck x := rfl
@[simp] theorem State.setCx_cores (ck : Nat) (x : CtxCore) : (s.setCx ck x).cores = s.cores := rfl
@[simp] theorem State.setCx_clusters (ck : Nat) (x : CtxCore) : (s.setCx ck x).clusters = s.clusters := rfl
@[simp] theorem State.setCx_agents (ck : Nat) (x : CtxCore) : (s.setCx ck x).agents = s.agents := rfl
@[simp] theorem State.setCx_slices (ck : Nat) (x : CtxCore) : (s.setCx ck x).slices = s.slices := rfl
@[simp] theorem State.setCx_dram (ck : Nat) (x : CtxCore) : (s.setCx ck x).dram = s.dram := rfl
@[simp] theorem State.setCx_dramPoison (ck : Nat) (x : CtxCore) : (s.setCx ck x).dramPoison = s.dramPoison := rfl
@[simp] theorem State.setCx_svc (ck : Nat) (x : CtxCore) : (s.setCx ck x).svc = s.svc := rfl
@[simp] theorem State.setCx_bmv (ck : Nat) (x : CtxCore) : (s.setCx ck x).bmv = s.bmv := rfl
@[simp] theorem State.setCx_fe (ck : Nat) (x : CtxCore) : (s.setCx ck x).fe = s.fe := rfl
@[simp] theorem State.setCx_sched (ck : Nat) (x : CtxCore) : (s.setCx ck x).sched = s.sched := rfl
@[simp] theorem State.setCx_ctl (ck : Nat) (x : CtxCore) : (s.setCx ck x).ctl = s.ctl := rfl
@[simp] theorem State.setCx_pow (ck : Nat) (x : CtxCore) : (s.setCx ck x).pow = s.pow := rfl
@[simp] theorem State.setCx_port (ck : Nat) (x : CtxCore) : (s.setCx ck x).port = s.port := rfl
@[simp] theorem State.setCx_unit (ck : Nat) (x : CtxCore) : (s.setCx ck x).unit = s.unit := rfl
@[simp] theorem State.setCx_agenda (ck : Nat) (x : CtxCore) : (s.setCx ck x).agenda = s.agenda := rfl
@[simp] theorem State.setCx_choices (ck : Nat) (x : CtxCore) : (s.setCx ck x).choices = s.choices := rfl
@[simp] theorem State.setCx_turn (ck : Nat) (x : CtxCore) : (s.setCx ck x).turn = s.turn := rfl
@[simp] theorem State.setCx_flip (ck : Nat) (x : CtxCore) : (s.setCx ck x).flip = s.flip := rfl
@[simp] theorem State.setCx_clock (ck : Nat) (x : CtxCore) : (s.setCx ck x).clock = s.clock := rfl
@[simp] theorem State.setCx_sclk (ck : Nat) (x : CtxCore) : (s.setCx ck x).sclk = s.sclk := rfl
@[simp] theorem State.setCx_fclk (ck : Nat) (x : CtxCore) : (s.setCx ck x).fclk = s.fclk := rfl
@[simp] theorem State.setCx_free (ck : Nat) (x : CtxCore) : (s.setCx ck x).free = s.free := rfl

/-! ## modCx -/

@[simp] theorem State.modCx_threads (ck : Nat) (f : CtxCore → CtxCore) : (s.modCx ck f).threads = s.threads := rfl
@[simp] theorem State.modCx_ctx (ck : Nat) (f : CtxCore → CtxCore) : (s.modCx ck f).ctx = Tbl.put {} s.ctx ck (f (s.cx ck)) := rfl
@[simp] theorem State.modCx_cores (ck : Nat) (f : CtxCore → CtxCore) : (s.modCx ck f).cores = s.cores := rfl
@[simp] theorem State.modCx_clusters (ck : Nat) (f : CtxCore → CtxCore) : (s.modCx ck f).clusters = s.clusters := rfl
@[simp] theorem State.modCx_agents (ck : Nat) (f : CtxCore → CtxCore) : (s.modCx ck f).agents = s.agents := rfl
@[simp] theorem State.modCx_slices (ck : Nat) (f : CtxCore → CtxCore) : (s.modCx ck f).slices = s.slices := rfl
@[simp] theorem State.modCx_dram (ck : Nat) (f : CtxCore → CtxCore) : (s.modCx ck f).dram = s.dram := rfl
@[simp] theorem State.modCx_dramPoison (ck : Nat) (f : CtxCore → CtxCore) : (s.modCx ck f).dramPoison = s.dramPoison := rfl
@[simp] theorem State.modCx_svc (ck : Nat) (f : CtxCore → CtxCore) : (s.modCx ck f).svc = s.svc := rfl
@[simp] theorem State.modCx_bmv (ck : Nat) (f : CtxCore → CtxCore) : (s.modCx ck f).bmv = s.bmv := rfl
@[simp] theorem State.modCx_fe (ck : Nat) (f : CtxCore → CtxCore) : (s.modCx ck f).fe = s.fe := rfl
@[simp] theorem State.modCx_sched (ck : Nat) (f : CtxCore → CtxCore) : (s.modCx ck f).sched = s.sched := rfl
@[simp] theorem State.modCx_ctl (ck : Nat) (f : CtxCore → CtxCore) : (s.modCx ck f).ctl = s.ctl := rfl
@[simp] theorem State.modCx_pow (ck : Nat) (f : CtxCore → CtxCore) : (s.modCx ck f).pow = s.pow := rfl
@[simp] theorem State.modCx_port (ck : Nat) (f : CtxCore → CtxCore) : (s.modCx ck f).port = s.port := rfl
@[simp] theorem State.modCx_unit (ck : Nat) (f : CtxCore → CtxCore) : (s.modCx ck f).unit = s.unit := rfl
@[simp] theorem State.modCx_agenda (ck : Nat) (f : CtxCore → CtxCore) : (s.modCx ck f).agenda = s.agenda := rfl
@[simp] theorem State.modCx_choices (ck : Nat) (f : CtxCore → CtxCore) : (s.modCx ck f).choices = s.choices := rfl
@[simp] theorem State.modCx_turn (ck : Nat) (f : CtxCore → CtxCore) : (s.modCx ck f).turn = s.turn := rfl
@[simp] theorem State.modCx_flip (ck : Nat) (f : CtxCore → CtxCore) : (s.modCx ck f).flip = s.flip := rfl
@[simp] theorem State.modCx_clock (ck : Nat) (f : CtxCore → CtxCore) : (s.modCx ck f).clock = s.clock := rfl
@[simp] theorem State.modCx_sclk (ck : Nat) (f : CtxCore → CtxCore) : (s.modCx ck f).sclk = s.sclk := rfl
@[simp] theorem State.modCx_fclk (ck : Nat) (f : CtxCore → CtxCore) : (s.modCx ck f).fclk = s.fclk := rfl
@[simp] theorem State.modCx_free (ck : Nat) (f : CtxCore → CtxCore) : (s.modCx ck f).free = s.free := rfl

/-! ## modCore -/

@[simp] theorem State.modCore_threads (c : Nat) (f : Core → Core) : (s.modCore c f).threads = s.threads := rfl
@[simp] theorem State.modCore_ctx (c : Nat) (f : Core → Core) : (s.modCore c f).ctx = s.ctx := rfl
@[simp] theorem State.modCore_cores (c : Nat) (f : Core → Core) : (s.modCore c f).cores = Tbl.put {} s.cores c (f (s.core c)) := rfl
@[simp] theorem State.modCore_clusters (c : Nat) (f : Core → Core) : (s.modCore c f).clusters = s.clusters := rfl
@[simp] theorem State.modCore_agents (c : Nat) (f : Core → Core) : (s.modCore c f).agents = s.agents := rfl
@[simp] theorem State.modCore_slices (c : Nat) (f : Core → Core) : (s.modCore c f).slices = s.slices := rfl
@[simp] theorem State.modCore_dram (c : Nat) (f : Core → Core) : (s.modCore c f).dram = s.dram := rfl
@[simp] theorem State.modCore_dramPoison (c : Nat) (f : Core → Core) : (s.modCore c f).dramPoison = s.dramPoison := rfl
@[simp] theorem State.modCore_svc (c : Nat) (f : Core → Core) : (s.modCore c f).svc = s.svc := rfl
@[simp] theorem State.modCore_bmv (c : Nat) (f : Core → Core) : (s.modCore c f).bmv = s.bmv := rfl
@[simp] theorem State.modCore_fe (c : Nat) (f : Core → Core) : (s.modCore c f).fe = s.fe := rfl
@[simp] theorem State.modCore_sched (c : Nat) (f : Core → Core) : (s.modCore c f).sched = s.sched := rfl
@[simp] theorem State.modCore_ctl (c : Nat) (f : Core → Core) : (s.modCore c f).ctl = s.ctl := rfl
@[simp] theorem State.modCore_pow (c : Nat) (f : Core → Core) : (s.modCore c f).pow = s.pow := rfl
@[simp] theorem State.modCore_port (c : Nat) (f : Core → Core) : (s.modCore c f).port = s.port := rfl
@[simp] theorem State.modCore_unit (c : Nat) (f : Core → Core) : (s.modCore c f).unit = s.unit := rfl
@[simp] theorem State.modCore_agenda (c : Nat) (f : Core → Core) : (s.modCore c f).agenda = s.agenda := rfl
@[simp] theorem State.modCore_choices (c : Nat) (f : Core → Core) : (s.modCore c f).choices = s.choices := rfl
@[simp] theorem State.modCore_turn (c : Nat) (f : Core → Core) : (s.modCore c f).turn = s.turn := rfl
@[simp] theorem State.modCore_flip (c : Nat) (f : Core → Core) : (s.modCore c f).flip = s.flip := rfl
@[simp] theorem State.modCore_clock (c : Nat) (f : Core → Core) : (s.modCore c f).clock = s.clock := rfl
@[simp] theorem State.modCore_sclk (c : Nat) (f : Core → Core) : (s.modCore c f).sclk = s.sclk := rfl
@[simp] theorem State.modCore_fclk (c : Nat) (f : Core → Core) : (s.modCore c f).fclk = s.fclk := rfl
@[simp] theorem State.modCore_free (c : Nat) (f : Core → Core) : (s.modCore c f).free = s.free := rfl

/-! ## modClu -/

@[simp] theorem State.modClu_threads (c : Nat) (f : Cluster → Cluster) : (s.modClu c f).threads = s.threads := rfl
@[simp] theorem State.modClu_ctx (c : Nat) (f : Cluster → Cluster) : (s.modClu c f).ctx = s.ctx := rfl
@[simp] theorem State.modClu_cores (c : Nat) (f : Cluster → Cluster) : (s.modClu c f).cores = s.cores := rfl
@[simp] theorem State.modClu_clusters (c : Nat) (f : Cluster → Cluster) : (s.modClu c f).clusters = Tbl.put {} s.clusters c (f (s.clu c)) := rfl
@[simp] theorem State.modClu_agents (c : Nat) (f : Cluster → Cluster) : (s.modClu c f).agents = s.agents := rfl
@[simp] theorem State.modClu_slices (c : Nat) (f : Cluster → Cluster) : (s.modClu c f).slices = s.slices := rfl
@[simp] theorem State.modClu_dram (c : Nat) (f : Cluster → Cluster) : (s.modClu c f).dram = s.dram := rfl
@[simp] theorem State.modClu_dramPoison (c : Nat) (f : Cluster → Cluster) : (s.modClu c f).dramPoison = s.dramPoison := rfl
@[simp] theorem State.modClu_svc (c : Nat) (f : Cluster → Cluster) : (s.modClu c f).svc = s.svc := rfl
@[simp] theorem State.modClu_bmv (c : Nat) (f : Cluster → Cluster) : (s.modClu c f).bmv = s.bmv := rfl
@[simp] theorem State.modClu_fe (c : Nat) (f : Cluster → Cluster) : (s.modClu c f).fe = s.fe := rfl
@[simp] theorem State.modClu_sched (c : Nat) (f : Cluster → Cluster) : (s.modClu c f).sched = s.sched := rfl
@[simp] theorem State.modClu_ctl (c : Nat) (f : Cluster → Cluster) : (s.modClu c f).ctl = s.ctl := rfl
@[simp] theorem State.modClu_pow (c : Nat) (f : Cluster → Cluster) : (s.modClu c f).pow = s.pow := rfl
@[simp] theorem State.modClu_port (c : Nat) (f : Cluster → Cluster) : (s.modClu c f).port = s.port := rfl
@[simp] theorem State.modClu_unit (c : Nat) (f : Cluster → Cluster) : (s.modClu c f).unit = s.unit := rfl
@[simp] theorem State.modClu_agenda (c : Nat) (f : Cluster → Cluster) : (s.modClu c f).agenda = s.agenda := rfl
@[simp] theorem State.modClu_choices (c : Nat) (f : Cluster → Cluster) : (s.modClu c f).choices = s.choices := rfl
@[simp] theorem State.modClu_turn (c : Nat) (f : Cluster → Cluster) : (s.modClu c f).turn = s.turn := rfl
@[simp] theorem State.modClu_flip (c : Nat) (f : Cluster → Cluster) : (s.modClu c f).flip = s.flip := rfl
@[simp] theorem State.modClu_clock (c : Nat) (f : Cluster → Cluster) : (s.modClu c f).clock = s.clock := rfl
@[simp] theorem State.modClu_sclk (c : Nat) (f : Cluster → Cluster) : (s.modClu c f).sclk = s.sclk := rfl
@[simp] theorem State.modClu_fclk (c : Nat) (f : Cluster → Cluster) : (s.modClu c f).fclk = s.fclk := rfl
@[simp] theorem State.modClu_free (c : Nat) (f : Cluster → Cluster) : (s.modClu c f).free = s.free := rfl

/-! ## setSl -/

@[simp] theorem State.setSl_threads (n : Nat) (x : Slice) : (s.setSl n x).threads = s.threads := rfl
@[simp] theorem State.setSl_ctx (n : Nat) (x : Slice) : (s.setSl n x).ctx = s.ctx := rfl
@[simp] theorem State.setSl_cores (n : Nat) (x : Slice) : (s.setSl n x).cores = s.cores := rfl
@[simp] theorem State.setSl_clusters (n : Nat) (x : Slice) : (s.setSl n x).clusters = s.clusters := rfl
@[simp] theorem State.setSl_agents (n : Nat) (x : Slice) : (s.setSl n x).agents = s.agents := rfl
@[simp] theorem State.setSl_slices (n : Nat) (x : Slice) : (s.setSl n x).slices = Tbl.put {} s.slices n x := rfl
@[simp] theorem State.setSl_dram (n : Nat) (x : Slice) : (s.setSl n x).dram = s.dram := rfl
@[simp] theorem State.setSl_dramPoison (n : Nat) (x : Slice) : (s.setSl n x).dramPoison = s.dramPoison := rfl
@[simp] theorem State.setSl_svc (n : Nat) (x : Slice) : (s.setSl n x).svc = s.svc := rfl
@[simp] theorem State.setSl_bmv (n : Nat) (x : Slice) : (s.setSl n x).bmv = s.bmv := rfl
@[simp] theorem State.setSl_fe (n : Nat) (x : Slice) : (s.setSl n x).fe = s.fe := rfl
@[simp] theorem State.setSl_sched (n : Nat) (x : Slice) : (s.setSl n x).sched = s.sched := rfl
@[simp] theorem State.setSl_ctl (n : Nat) (x : Slice) : (s.setSl n x).ctl = s.ctl := rfl
@[simp] theorem State.setSl_pow (n : Nat) (x : Slice) : (s.setSl n x).pow = s.pow := rfl
@[simp] theorem State.setSl_port (n : Nat) (x : Slice) : (s.setSl n x).port = s.port := rfl
@[simp] theorem State.setSl_unit (n : Nat) (x : Slice) : (s.setSl n x).unit = s.unit := rfl
@[simp] theorem State.setSl_agenda (n : Nat) (x : Slice) : (s.setSl n x).agenda = s.agenda := rfl
@[simp] theorem State.setSl_choices (n : Nat) (x : Slice) : (s.setSl n x).choices = s.choices := rfl
@[simp] theorem State.setSl_turn (n : Nat) (x : Slice) : (s.setSl n x).turn = s.turn := rfl
@[simp] theorem State.setSl_flip (n : Nat) (x : Slice) : (s.setSl n x).flip = s.flip := rfl
@[simp] theorem State.setSl_clock (n : Nat) (x : Slice) : (s.setSl n x).clock = s.clock := rfl
@[simp] theorem State.setSl_sclk (n : Nat) (x : Slice) : (s.setSl n x).sclk = s.sclk := rfl
@[simp] theorem State.setSl_fclk (n : Nat) (x : Slice) : (s.setSl n x).fclk = s.fclk := rfl
@[simp] theorem State.setSl_free (n : Nat) (x : Slice) : (s.setSl n x).free = s.free := rfl

/-! ## modSl -/

@[simp] theorem State.modSl_threads (n : Nat) (f : Slice → Slice) : (s.modSl n f).threads = s.threads := rfl
@[simp] theorem State.modSl_ctx (n : Nat) (f : Slice → Slice) : (s.modSl n f).ctx = s.ctx := rfl
@[simp] theorem State.modSl_cores (n : Nat) (f : Slice → Slice) : (s.modSl n f).cores = s.cores := rfl
@[simp] theorem State.modSl_clusters (n : Nat) (f : Slice → Slice) : (s.modSl n f).clusters = s.clusters := rfl
@[simp] theorem State.modSl_agents (n : Nat) (f : Slice → Slice) : (s.modSl n f).agents = s.agents := rfl
@[simp] theorem State.modSl_slices (n : Nat) (f : Slice → Slice) : (s.modSl n f).slices = Tbl.put {} s.slices n (f (s.sl n)) := rfl
@[simp] theorem State.modSl_dram (n : Nat) (f : Slice → Slice) : (s.modSl n f).dram = s.dram := rfl
@[simp] theorem State.modSl_dramPoison (n : Nat) (f : Slice → Slice) : (s.modSl n f).dramPoison = s.dramPoison := rfl
@[simp] theorem State.modSl_svc (n : Nat) (f : Slice → Slice) : (s.modSl n f).svc = s.svc := rfl
@[simp] theorem State.modSl_bmv (n : Nat) (f : Slice → Slice) : (s.modSl n f).bmv = s.bmv := rfl
@[simp] theorem State.modSl_fe (n : Nat) (f : Slice → Slice) : (s.modSl n f).fe = s.fe := rfl
@[simp] theorem State.modSl_sched (n : Nat) (f : Slice → Slice) : (s.modSl n f).sched = s.sched := rfl
@[simp] theorem State.modSl_ctl (n : Nat) (f : Slice → Slice) : (s.modSl n f).ctl = s.ctl := rfl
@[simp] theorem State.modSl_pow (n : Nat) (f : Slice → Slice) : (s.modSl n f).pow = s.pow := rfl
@[simp] theorem State.modSl_port (n : Nat) (f : Slice → Slice) : (s.modSl n f).port = s.port := rfl
@[simp] theorem State.modSl_unit (n : Nat) (f : Slice → Slice) : (s.modSl n f).unit = s.unit := rfl
@[simp] theorem State.modSl_agenda (n : Nat) (f : Slice → Slice) : (s.modSl n f).agenda = s.agenda := rfl
@[simp] theorem State.modSl_choices (n : Nat) (f : Slice → Slice) : (s.modSl n f).choices = s.choices := rfl
@[simp] theorem State.modSl_turn (n : Nat) (f : Slice → Slice) : (s.modSl n f).turn = s.turn := rfl
@[simp] theorem State.modSl_flip (n : Nat) (f : Slice → Slice) : (s.modSl n f).flip = s.flip := rfl
@[simp] theorem State.modSl_clock (n : Nat) (f : Slice → Slice) : (s.modSl n f).clock = s.clock := rfl
@[simp] theorem State.modSl_sclk (n : Nat) (f : Slice → Slice) : (s.modSl n f).sclk = s.sclk := rfl
@[simp] theorem State.modSl_fclk (n : Nat) (f : Slice → Slice) : (s.modSl n f).fclk = s.fclk := rfl
@[simp] theorem State.modSl_free (n : Nat) (f : Slice → Slice) : (s.modSl n f).free = s.free := rfl

/-! ## setRegion -/

@[simp] theorem State.setRegion_threads (r : Nat) (x : Option Region) : (s.setRegion r x).threads = s.threads := rfl
@[simp] theorem State.setRegion_ctx (r : Nat) (x : Option Region) : (s.setRegion r x).ctx = s.ctx := rfl
@[simp] theorem State.setRegion_cores (r : Nat) (x : Option Region) : (s.setRegion r x).cores = s.cores := rfl
@[simp] theorem State.setRegion_clusters (r : Nat) (x : Option Region) : (s.setRegion r x).clusters = s.clusters := rfl
@[simp] theorem State.setRegion_agents (r : Nat) (x : Option Region) : (s.setRegion r x).agents = s.agents := rfl
@[simp] theorem State.setRegion_slices (r : Nat) (x : Option Region) : (s.setRegion r x).slices = s.slices := rfl
@[simp] theorem State.setRegion_dram (r : Nat) (x : Option Region) : (s.setRegion r x).dram = s.dram := rfl
@[simp] theorem State.setRegion_dramPoison (r : Nat) (x : Option Region) : (s.setRegion r x).dramPoison = s.dramPoison := rfl
@[simp] theorem State.setRegion_svc (r : Nat) (x : Option Region) : (s.setRegion r x).svc = s.svc := rfl
@[simp] theorem State.setRegion_bmv (r : Nat) (x : Option Region) : (s.setRegion r x).bmv = s.bmv := rfl
@[simp] theorem State.setRegion_fe (r : Nat) (x : Option Region) : (s.setRegion r x).fe = s.fe := rfl
@[simp] theorem State.setRegion_sched (r : Nat) (x : Option Region) : (s.setRegion r x).sched = { s.sched with regions := Tbl.put none s.sched.regions r x } := rfl
@[simp] theorem State.setRegion_ctl (r : Nat) (x : Option Region) : (s.setRegion r x).ctl = s.ctl := rfl
@[simp] theorem State.setRegion_pow (r : Nat) (x : Option Region) : (s.setRegion r x).pow = s.pow := rfl
@[simp] theorem State.setRegion_port (r : Nat) (x : Option Region) : (s.setRegion r x).port = s.port := rfl
@[simp] theorem State.setRegion_unit (r : Nat) (x : Option Region) : (s.setRegion r x).unit = s.unit := rfl
@[simp] theorem State.setRegion_agenda (r : Nat) (x : Option Region) : (s.setRegion r x).agenda = s.agenda := rfl
@[simp] theorem State.setRegion_choices (r : Nat) (x : Option Region) : (s.setRegion r x).choices = s.choices := rfl
@[simp] theorem State.setRegion_turn (r : Nat) (x : Option Region) : (s.setRegion r x).turn = s.turn := rfl
@[simp] theorem State.setRegion_flip (r : Nat) (x : Option Region) : (s.setRegion r x).flip = s.flip := rfl
@[simp] theorem State.setRegion_clock (r : Nat) (x : Option Region) : (s.setRegion r x).clock = s.clock := rfl
@[simp] theorem State.setRegion_sclk (r : Nat) (x : Option Region) : (s.setRegion r x).sclk = s.sclk := rfl
@[simp] theorem State.setRegion_fclk (r : Nat) (x : Option Region) : (s.setRegion r x).fclk = s.fclk := rfl
@[simp] theorem State.setRegion_free (r : Nat) (x : Option Region) : (s.setRegion r x).free = s.free := rfl

/-! ## setContext -/

@[simp] theorem State.setContext_threads (k : Nat) (x : Option Context) : (s.setContext k x).threads = s.threads := rfl
@[simp] theorem State.setContext_ctx (k : Nat) (x : Option Context) : (s.setContext k x).ctx = s.ctx := rfl
@[simp] theorem State.setContext_cores (k : Nat) (x : Option Context) : (s.setContext k x).cores = s.cores := rfl
@[simp] theorem State.setContext_clusters (k : Nat) (x : Option Context) : (s.setContext k x).clusters = s.clusters := rfl
@[simp] theorem State.setContext_agents (k : Nat) (x : Option Context) : (s.setContext k x).agents = s.agents := rfl
@[simp] theorem State.setContext_slices (k : Nat) (x : Option Context) : (s.setContext k x).slices = s.slices := rfl
@[simp] theorem State.setContext_dram (k : Nat) (x : Option Context) : (s.setContext k x).dram = s.dram := rfl
@[simp] theorem State.setContext_dramPoison (k : Nat) (x : Option Context) : (s.setContext k x).dramPoison = s.dramPoison := rfl
@[simp] theorem State.setContext_svc (k : Nat) (x : Option Context) : (s.setContext k x).svc = s.svc := rfl
@[simp] theorem State.setContext_bmv (k : Nat) (x : Option Context) : (s.setContext k x).bmv = s.bmv := rfl
@[simp] theorem State.setContext_fe (k : Nat) (x : Option Context) : (s.setContext k x).fe = s.fe := rfl
@[simp] theorem State.setContext_sched (k : Nat) (x : Option Context) : (s.setContext k x).sched = { s.sched with contexts := Tbl.put none s.sched.contexts k x } := rfl
@[simp] theorem State.setContext_ctl (k : Nat) (x : Option Context) : (s.setContext k x).ctl = s.ctl := rfl
@[simp] theorem State.setContext_pow (k : Nat) (x : Option Context) : (s.setContext k x).pow = s.pow := rfl
@[simp] theorem State.setContext_port (k : Nat) (x : Option Context) : (s.setContext k x).port = s.port := rfl
@[simp] theorem State.setContext_unit (k : Nat) (x : Option Context) : (s.setContext k x).unit = s.unit := rfl
@[simp] theorem State.setContext_agenda (k : Nat) (x : Option Context) : (s.setContext k x).agenda = s.agenda := rfl
@[simp] theorem State.setContext_choices (k : Nat) (x : Option Context) : (s.setContext k x).choices = s.choices := rfl
@[simp] theorem State.setContext_turn (k : Nat) (x : Option Context) : (s.setContext k x).turn = s.turn := rfl
@[simp] theorem State.setContext_flip (k : Nat) (x : Option Context) : (s.setContext k x).flip = s.flip := rfl
@[simp] theorem State.setContext_clock (k : Nat) (x : Option Context) : (s.setContext k x).clock = s.clock := rfl
@[simp] theorem State.setContext_sclk (k : Nat) (x : Option Context) : (s.setContext k x).sclk = s.sclk := rfl
@[simp] theorem State.setContext_fclk (k : Nat) (x : Option Context) : (s.setContext k x).fclk = s.fclk := rfl
@[simp] theorem State.setContext_free (k : Nat) (x : Option Context) : (s.setContext k x).free = s.free := rfl

/-! ## later -/

@[simp] theorem State.later_threads (e : Ev) : (s.later e).threads = s.threads := rfl
@[simp] theorem State.later_ctx (e : Ev) : (s.later e).ctx = s.ctx := rfl
@[simp] theorem State.later_cores (e : Ev) : (s.later e).cores = s.cores := rfl
@[simp] theorem State.later_clusters (e : Ev) : (s.later e).clusters = s.clusters := rfl
@[simp] theorem State.later_agents (e : Ev) : (s.later e).agents = s.agents := rfl
@[simp] theorem State.later_slices (e : Ev) : (s.later e).slices = s.slices := rfl
@[simp] theorem State.later_dram (e : Ev) : (s.later e).dram = s.dram := rfl
@[simp] theorem State.later_dramPoison (e : Ev) : (s.later e).dramPoison = s.dramPoison := rfl
@[simp] theorem State.later_svc (e : Ev) : (s.later e).svc = s.svc := rfl
@[simp] theorem State.later_bmv (e : Ev) : (s.later e).bmv = s.bmv := rfl
@[simp] theorem State.later_fe (e : Ev) : (s.later e).fe = s.fe := rfl
@[simp] theorem State.later_sched (e : Ev) : (s.later e).sched = s.sched := rfl
@[simp] theorem State.later_ctl (e : Ev) : (s.later e).ctl = s.ctl := rfl
@[simp] theorem State.later_pow (e : Ev) : (s.later e).pow = s.pow := rfl
@[simp] theorem State.later_port (e : Ev) : (s.later e).port = s.port := rfl
@[simp] theorem State.later_unit (e : Ev) : (s.later e).unit = s.unit := rfl
@[simp] theorem State.later_agenda (e : Ev) : (s.later e).agenda = s.agenda ++ [e] := rfl
@[simp] theorem State.later_choices (e : Ev) : (s.later e).choices = s.choices := rfl
@[simp] theorem State.later_turn (e : Ev) : (s.later e).turn = s.turn := rfl
@[simp] theorem State.later_flip (e : Ev) : (s.later e).flip = s.flip := rfl
@[simp] theorem State.later_clock (e : Ev) : (s.later e).clock = s.clock := rfl
@[simp] theorem State.later_sclk (e : Ev) : (s.later e).sclk = s.sclk := rfl
@[simp] theorem State.later_fclk (e : Ev) : (s.later e).fclk = s.fclk := rfl
@[simp] theorem State.later_free (e : Ev) : (s.later e).free = s.free := rfl

/-! ## tickClock -/

@[simp] theorem State.tickClock_threads : (s.tickClock).threads = s.threads := rfl
@[simp] theorem State.tickClock_ctx : (s.tickClock).ctx = s.ctx := rfl
@[simp] theorem State.tickClock_cores : (s.tickClock).cores = s.cores := rfl
@[simp] theorem State.tickClock_clusters : (s.tickClock).clusters = s.clusters := rfl
@[simp] theorem State.tickClock_agents : (s.tickClock).agents = s.agents := rfl
@[simp] theorem State.tickClock_slices : (s.tickClock).slices = s.slices := rfl
@[simp] theorem State.tickClock_dram : (s.tickClock).dram = s.dram := rfl
@[simp] theorem State.tickClock_dramPoison : (s.tickClock).dramPoison = s.dramPoison := rfl
@[simp] theorem State.tickClock_svc : (s.tickClock).svc = s.svc := rfl
@[simp] theorem State.tickClock_bmv : (s.tickClock).bmv = s.bmv := rfl
@[simp] theorem State.tickClock_fe : (s.tickClock).fe = s.fe := rfl
@[simp] theorem State.tickClock_sched : (s.tickClock).sched = s.sched := rfl
@[simp] theorem State.tickClock_ctl : (s.tickClock).ctl = s.ctl := rfl
@[simp] theorem State.tickClock_pow : (s.tickClock).pow = s.pow := rfl
@[simp] theorem State.tickClock_port : (s.tickClock).port = s.port := rfl
@[simp] theorem State.tickClock_unit : (s.tickClock).unit = s.unit := rfl
@[simp] theorem State.tickClock_agenda : (s.tickClock).agenda = s.agenda := rfl
@[simp] theorem State.tickClock_choices : (s.tickClock).choices = s.choices := rfl
@[simp] theorem State.tickClock_turn : (s.tickClock).turn = s.turn := rfl
@[simp] theorem State.tickClock_flip : (s.tickClock).flip = s.flip := rfl
@[simp] theorem State.tickClock_clock : (s.tickClock).clock = s.clock + 1 := rfl
@[simp] theorem State.tickClock_sclk : (s.tickClock).sclk = s.sclk := rfl
@[simp] theorem State.tickClock_fclk : (s.tickClock).fclk = s.fclk := rfl
@[simp] theorem State.tickClock_free : (s.tickClock).free = s.free := rfl

/-! ## tickCycles -/

@[simp] theorem State.tickCycles_threads : s.tickCycles.threads = s.threads := rfl
@[simp] theorem State.tickCycles_ctx : s.tickCycles.ctx = s.ctx := rfl
@[simp] theorem State.tickCycles_cores : s.tickCycles.cores = s.cores := rfl
@[simp] theorem State.tickCycles_clusters : s.tickCycles.clusters = s.clusters := rfl
@[simp] theorem State.tickCycles_agents : s.tickCycles.agents = s.agents := rfl
@[simp] theorem State.tickCycles_slices : s.tickCycles.slices = s.slices := rfl
@[simp] theorem State.tickCycles_dram : s.tickCycles.dram = s.dram := rfl
@[simp] theorem State.tickCycles_dramPoison : s.tickCycles.dramPoison = s.dramPoison := rfl
@[simp] theorem State.tickCycles_svc : s.tickCycles.svc = s.svc := rfl
@[simp] theorem State.tickCycles_bmv : s.tickCycles.bmv = s.bmv := rfl
@[simp] theorem State.tickCycles_fe : s.tickCycles.fe = s.fe := rfl
@[simp] theorem State.tickCycles_sched : s.tickCycles.sched = s.sched := rfl
@[simp] theorem State.tickCycles_ctl : s.tickCycles.ctl = s.ctl := rfl
@[simp] theorem State.tickCycles_pow : s.tickCycles.pow = s.pow := rfl
@[simp] theorem State.tickCycles_port : s.tickCycles.port = s.port := rfl
@[simp] theorem State.tickCycles_unit : s.tickCycles.unit = s.unit := rfl
@[simp] theorem State.tickCycles_agenda : s.tickCycles.agenda = s.agenda := rfl
@[simp] theorem State.tickCycles_choices : s.tickCycles.choices = s.choices := rfl
@[simp] theorem State.tickCycles_turn : s.tickCycles.turn = s.turn := rfl
@[simp] theorem State.tickCycles_flip : s.tickCycles.flip = s.flip := rfl
@[simp] theorem State.tickCycles_clock : s.tickCycles.clock = s.clock := rfl
@[simp] theorem State.tickCycles_free : s.tickCycles.free = s.free := rfl
@[simp] theorem State.tickCycles_sclk : s.tickCycles.sclk = if s.pow.dev = .ls0 then s.sclk + 1 else s.sclk := rfl
@[simp] theorem State.tickCycles_fclk : s.tickCycles.fclk = if s.pow.dev = .ls4 then s.fclk else s.fclk + 1 := rfl

/-! ## draw -/

@[simp] theorem State.draw_threads : (s.draw).threads = s.threads := rfl
@[simp] theorem State.draw_ctx : (s.draw).ctx = s.ctx := rfl
@[simp] theorem State.draw_cores : (s.draw).cores = s.cores := rfl
@[simp] theorem State.draw_clusters : (s.draw).clusters = s.clusters := rfl
@[simp] theorem State.draw_agents : (s.draw).agents = s.agents := rfl
@[simp] theorem State.draw_slices : (s.draw).slices = s.slices := rfl
@[simp] theorem State.draw_dram : (s.draw).dram = s.dram := rfl
@[simp] theorem State.draw_dramPoison : (s.draw).dramPoison = s.dramPoison := rfl
@[simp] theorem State.draw_svc : (s.draw).svc = s.svc := rfl
@[simp] theorem State.draw_bmv : (s.draw).bmv = s.bmv := rfl
@[simp] theorem State.draw_fe : (s.draw).fe = s.fe := rfl
@[simp] theorem State.draw_sched : (s.draw).sched = s.sched := rfl
@[simp] theorem State.draw_ctl : (s.draw).ctl = s.ctl := rfl
@[simp] theorem State.draw_pow : (s.draw).pow = s.pow := rfl
@[simp] theorem State.draw_port : (s.draw).port = s.port := rfl
@[simp] theorem State.draw_unit : (s.draw).unit = s.unit := rfl
@[simp] theorem State.draw_agenda : (s.draw).agenda = s.agenda := rfl
@[simp] theorem State.draw_choices : (s.draw).choices = s.choices := rfl
@[simp] theorem State.draw_turn : (s.draw).turn = s.turn := rfl
@[simp] theorem State.draw_flip : (s.draw).flip = s.flip := rfl
@[simp] theorem State.draw_clock : (s.draw).clock = s.clock := rfl
@[simp] theorem State.draw_sclk : (s.draw).sclk = s.sclk := rfl
@[simp] theorem State.draw_fclk : (s.draw).fclk = s.fclk := rfl
@[simp] theorem State.draw_free : (s.draw).free = s.free + 1 := rfl

/-! ## modThr -/

@[simp] theorem State.modThr_ctx (tk : Nat) (f : Thread → Thread) : (s.modThr tk f).ctx = s.ctx := by
  unfold State.modThr; split <;> rfl
@[simp] theorem State.modThr_cores (tk : Nat) (f : Thread → Thread) : (s.modThr tk f).cores = s.cores := by
  unfold State.modThr; split <;> rfl
@[simp] theorem State.modThr_clusters (tk : Nat) (f : Thread → Thread) : (s.modThr tk f).clusters = s.clusters := by
  unfold State.modThr; split <;> rfl
@[simp] theorem State.modThr_agents (tk : Nat) (f : Thread → Thread) : (s.modThr tk f).agents = s.agents := by
  unfold State.modThr; split <;> rfl
@[simp] theorem State.modThr_slices (tk : Nat) (f : Thread → Thread) : (s.modThr tk f).slices = s.slices := by
  unfold State.modThr; split <;> rfl
@[simp] theorem State.modThr_dram (tk : Nat) (f : Thread → Thread) : (s.modThr tk f).dram = s.dram := by
  unfold State.modThr; split <;> rfl
@[simp] theorem State.modThr_dramPoison (tk : Nat) (f : Thread → Thread) : (s.modThr tk f).dramPoison = s.dramPoison := by
  unfold State.modThr; split <;> rfl
@[simp] theorem State.modThr_svc (tk : Nat) (f : Thread → Thread) : (s.modThr tk f).svc = s.svc := by
  unfold State.modThr; split <;> rfl
@[simp] theorem State.modThr_bmv (tk : Nat) (f : Thread → Thread) : (s.modThr tk f).bmv = s.bmv := by
  unfold State.modThr; split <;> rfl
@[simp] theorem State.modThr_fe (tk : Nat) (f : Thread → Thread) : (s.modThr tk f).fe = s.fe := by
  unfold State.modThr; split <;> rfl
@[simp] theorem State.modThr_sched (tk : Nat) (f : Thread → Thread) : (s.modThr tk f).sched = s.sched := by
  unfold State.modThr; split <;> rfl
@[simp] theorem State.modThr_ctl (tk : Nat) (f : Thread → Thread) : (s.modThr tk f).ctl = s.ctl := by
  unfold State.modThr; split <;> rfl
@[simp] theorem State.modThr_pow (tk : Nat) (f : Thread → Thread) : (s.modThr tk f).pow = s.pow := by
  unfold State.modThr; split <;> rfl
@[simp] theorem State.modThr_port (tk : Nat) (f : Thread → Thread) : (s.modThr tk f).port = s.port := by
  unfold State.modThr; split <;> rfl
@[simp] theorem State.modThr_unit (tk : Nat) (f : Thread → Thread) : (s.modThr tk f).unit = s.unit := by
  unfold State.modThr; split <;> rfl
@[simp] theorem State.modThr_agenda (tk : Nat) (f : Thread → Thread) : (s.modThr tk f).agenda = s.agenda := by
  unfold State.modThr; split <;> rfl
@[simp] theorem State.modThr_choices (tk : Nat) (f : Thread → Thread) : (s.modThr tk f).choices = s.choices := by
  unfold State.modThr; split <;> rfl
@[simp] theorem State.modThr_turn (tk : Nat) (f : Thread → Thread) : (s.modThr tk f).turn = s.turn := by
  unfold State.modThr; split <;> rfl
@[simp] theorem State.modThr_flip (tk : Nat) (f : Thread → Thread) : (s.modThr tk f).flip = s.flip := by
  unfold State.modThr; split <;> rfl
@[simp] theorem State.modThr_clock (tk : Nat) (f : Thread → Thread) : (s.modThr tk f).clock = s.clock := by
  unfold State.modThr; split <;> rfl
@[simp] theorem State.modThr_sclk (tk : Nat) (f : Thread → Thread) : (s.modThr tk f).sclk = s.sclk := by
  unfold State.modThr; split <;> rfl
@[simp] theorem State.modThr_fclk (tk : Nat) (f : Thread → Thread) : (s.modThr tk f).fclk = s.fclk := by
  unfold State.modThr; split <;> rfl
@[simp] theorem State.modThr_free (tk : Nat) (f : Thread → Thread) : (s.modThr tk f).free = s.free := by
  unfold State.modThr; split <;> rfl

/-! ## laterOnce -/

@[simp] theorem State.laterOnce_threads (e : Ev) : (s.laterOnce e).threads = s.threads := by
  unfold State.laterOnce; split <;> rfl
@[simp] theorem State.laterOnce_ctx (e : Ev) : (s.laterOnce e).ctx = s.ctx := by
  unfold State.laterOnce; split <;> rfl
@[simp] theorem State.laterOnce_cores (e : Ev) : (s.laterOnce e).cores = s.cores := by
  unfold State.laterOnce; split <;> rfl
@[simp] theorem State.laterOnce_clusters (e : Ev) : (s.laterOnce e).clusters = s.clusters := by
  unfold State.laterOnce; split <;> rfl
@[simp] theorem State.laterOnce_agents (e : Ev) : (s.laterOnce e).agents = s.agents := by
  unfold State.laterOnce; split <;> rfl
@[simp] theorem State.laterOnce_slices (e : Ev) : (s.laterOnce e).slices = s.slices := by
  unfold State.laterOnce; split <;> rfl
@[simp] theorem State.laterOnce_dram (e : Ev) : (s.laterOnce e).dram = s.dram := by
  unfold State.laterOnce; split <;> rfl
@[simp] theorem State.laterOnce_dramPoison (e : Ev) : (s.laterOnce e).dramPoison = s.dramPoison := by
  unfold State.laterOnce; split <;> rfl
@[simp] theorem State.laterOnce_svc (e : Ev) : (s.laterOnce e).svc = s.svc := by
  unfold State.laterOnce; split <;> rfl
@[simp] theorem State.laterOnce_bmv (e : Ev) : (s.laterOnce e).bmv = s.bmv := by
  unfold State.laterOnce; split <;> rfl
@[simp] theorem State.laterOnce_fe (e : Ev) : (s.laterOnce e).fe = s.fe := by
  unfold State.laterOnce; split <;> rfl
@[simp] theorem State.laterOnce_sched (e : Ev) : (s.laterOnce e).sched = s.sched := by
  unfold State.laterOnce; split <;> rfl
@[simp] theorem State.laterOnce_ctl (e : Ev) : (s.laterOnce e).ctl = s.ctl := by
  unfold State.laterOnce; split <;> rfl
@[simp] theorem State.laterOnce_pow (e : Ev) : (s.laterOnce e).pow = s.pow := by
  unfold State.laterOnce; split <;> rfl
@[simp] theorem State.laterOnce_port (e : Ev) : (s.laterOnce e).port = s.port := by
  unfold State.laterOnce; split <;> rfl
@[simp] theorem State.laterOnce_unit (e : Ev) : (s.laterOnce e).unit = s.unit := by
  unfold State.laterOnce; split <;> rfl
@[simp] theorem State.laterOnce_choices (e : Ev) : (s.laterOnce e).choices = s.choices := by
  unfold State.laterOnce; split <;> rfl
@[simp] theorem State.laterOnce_turn (e : Ev) : (s.laterOnce e).turn = s.turn := by
  unfold State.laterOnce; split <;> rfl
@[simp] theorem State.laterOnce_flip (e : Ev) : (s.laterOnce e).flip = s.flip := by
  unfold State.laterOnce; split <;> rfl
@[simp] theorem State.laterOnce_clock (e : Ev) : (s.laterOnce e).clock = s.clock := by
  unfold State.laterOnce; split <;> rfl
@[simp] theorem State.laterOnce_sclk (e : Ev) : (s.laterOnce e).sclk = s.sclk := by
  unfold State.laterOnce; split <;> rfl
@[simp] theorem State.laterOnce_fclk (e : Ev) : (s.laterOnce e).fclk = s.fclk := by
  unfold State.laterOnce; split <;> rfl
@[simp] theorem State.laterOnce_free (e : Ev) : (s.laterOnce e).free = s.free := by
  unfold State.laterOnce; split <;> rfl

/-! ## modRegion -/

@[simp] theorem State.modRegion_threads (r : Nat) (f : Region → Region) : (s.modRegion r f).threads = s.threads := by
  unfold State.modRegion; split <;> rfl
@[simp] theorem State.modRegion_ctx (r : Nat) (f : Region → Region) : (s.modRegion r f).ctx = s.ctx := by
  unfold State.modRegion; split <;> rfl
@[simp] theorem State.modRegion_cores (r : Nat) (f : Region → Region) : (s.modRegion r f).cores = s.cores := by
  unfold State.modRegion; split <;> rfl
@[simp] theorem State.modRegion_clusters (r : Nat) (f : Region → Region) : (s.modRegion r f).clusters = s.clusters := by
  unfold State.modRegion; split <;> rfl
@[simp] theorem State.modRegion_agents (r : Nat) (f : Region → Region) : (s.modRegion r f).agents = s.agents := by
  unfold State.modRegion; split <;> rfl
@[simp] theorem State.modRegion_slices (r : Nat) (f : Region → Region) : (s.modRegion r f).slices = s.slices := by
  unfold State.modRegion; split <;> rfl
@[simp] theorem State.modRegion_dram (r : Nat) (f : Region → Region) : (s.modRegion r f).dram = s.dram := by
  unfold State.modRegion; split <;> rfl
@[simp] theorem State.modRegion_dramPoison (r : Nat) (f : Region → Region) : (s.modRegion r f).dramPoison = s.dramPoison := by
  unfold State.modRegion; split <;> rfl
@[simp] theorem State.modRegion_svc (r : Nat) (f : Region → Region) : (s.modRegion r f).svc = s.svc := by
  unfold State.modRegion; split <;> rfl
@[simp] theorem State.modRegion_bmv (r : Nat) (f : Region → Region) : (s.modRegion r f).bmv = s.bmv := by
  unfold State.modRegion; split <;> rfl
@[simp] theorem State.modRegion_fe (r : Nat) (f : Region → Region) : (s.modRegion r f).fe = s.fe := by
  unfold State.modRegion; split <;> rfl
@[simp] theorem State.modRegion_ctl (r : Nat) (f : Region → Region) : (s.modRegion r f).ctl = s.ctl := by
  unfold State.modRegion; split <;> rfl
@[simp] theorem State.modRegion_pow (r : Nat) (f : Region → Region) : (s.modRegion r f).pow = s.pow := by
  unfold State.modRegion; split <;> rfl
@[simp] theorem State.modRegion_port (r : Nat) (f : Region → Region) : (s.modRegion r f).port = s.port := by
  unfold State.modRegion; split <;> rfl
@[simp] theorem State.modRegion_unit (r : Nat) (f : Region → Region) : (s.modRegion r f).unit = s.unit := by
  unfold State.modRegion; split <;> rfl
@[simp] theorem State.modRegion_agenda (r : Nat) (f : Region → Region) : (s.modRegion r f).agenda = s.agenda := by
  unfold State.modRegion; split <;> rfl
@[simp] theorem State.modRegion_choices (r : Nat) (f : Region → Region) : (s.modRegion r f).choices = s.choices := by
  unfold State.modRegion; split <;> rfl
@[simp] theorem State.modRegion_turn (r : Nat) (f : Region → Region) : (s.modRegion r f).turn = s.turn := by
  unfold State.modRegion; split <;> rfl
@[simp] theorem State.modRegion_flip (r : Nat) (f : Region → Region) : (s.modRegion r f).flip = s.flip := by
  unfold State.modRegion; split <;> rfl
@[simp] theorem State.modRegion_clock (r : Nat) (f : Region → Region) : (s.modRegion r f).clock = s.clock := by
  unfold State.modRegion; split <;> rfl
@[simp] theorem State.modRegion_sclk (r : Nat) (f : Region → Region) : (s.modRegion r f).sclk = s.sclk := by
  unfold State.modRegion; split <;> rfl
@[simp] theorem State.modRegion_fclk (r : Nat) (f : Region → Region) : (s.modRegion r f).fclk = s.fclk := by
  unfold State.modRegion; split <;> rfl
@[simp] theorem State.modRegion_free (r : Nat) (f : Region → Region) : (s.modRegion r f).free = s.free := by
  unfold State.modRegion; split <;> rfl

/-! ## modContext -/

@[simp] theorem State.modContext_threads (k : Nat) (f : Context → Context) : (s.modContext k f).threads = s.threads := by
  unfold State.modContext; split <;> rfl
@[simp] theorem State.modContext_ctx (k : Nat) (f : Context → Context) : (s.modContext k f).ctx = s.ctx := by
  unfold State.modContext; split <;> rfl
@[simp] theorem State.modContext_cores (k : Nat) (f : Context → Context) : (s.modContext k f).cores = s.cores := by
  unfold State.modContext; split <;> rfl
@[simp] theorem State.modContext_clusters (k : Nat) (f : Context → Context) : (s.modContext k f).clusters = s.clusters := by
  unfold State.modContext; split <;> rfl
@[simp] theorem State.modContext_agents (k : Nat) (f : Context → Context) : (s.modContext k f).agents = s.agents := by
  unfold State.modContext; split <;> rfl
@[simp] theorem State.modContext_slices (k : Nat) (f : Context → Context) : (s.modContext k f).slices = s.slices := by
  unfold State.modContext; split <;> rfl
@[simp] theorem State.modContext_dram (k : Nat) (f : Context → Context) : (s.modContext k f).dram = s.dram := by
  unfold State.modContext; split <;> rfl
@[simp] theorem State.modContext_dramPoison (k : Nat) (f : Context → Context) : (s.modContext k f).dramPoison = s.dramPoison := by
  unfold State.modContext; split <;> rfl
@[simp] theorem State.modContext_svc (k : Nat) (f : Context → Context) : (s.modContext k f).svc = s.svc := by
  unfold State.modContext; split <;> rfl
@[simp] theorem State.modContext_bmv (k : Nat) (f : Context → Context) : (s.modContext k f).bmv = s.bmv := by
  unfold State.modContext; split <;> rfl
@[simp] theorem State.modContext_fe (k : Nat) (f : Context → Context) : (s.modContext k f).fe = s.fe := by
  unfold State.modContext; split <;> rfl
@[simp] theorem State.modContext_ctl (k : Nat) (f : Context → Context) : (s.modContext k f).ctl = s.ctl := by
  unfold State.modContext; split <;> rfl
@[simp] theorem State.modContext_pow (k : Nat) (f : Context → Context) : (s.modContext k f).pow = s.pow := by
  unfold State.modContext; split <;> rfl
@[simp] theorem State.modContext_port (k : Nat) (f : Context → Context) : (s.modContext k f).port = s.port := by
  unfold State.modContext; split <;> rfl
@[simp] theorem State.modContext_unit (k : Nat) (f : Context → Context) : (s.modContext k f).unit = s.unit := by
  unfold State.modContext; split <;> rfl
@[simp] theorem State.modContext_agenda (k : Nat) (f : Context → Context) : (s.modContext k f).agenda = s.agenda := by
  unfold State.modContext; split <;> rfl
@[simp] theorem State.modContext_choices (k : Nat) (f : Context → Context) : (s.modContext k f).choices = s.choices := by
  unfold State.modContext; split <;> rfl
@[simp] theorem State.modContext_turn (k : Nat) (f : Context → Context) : (s.modContext k f).turn = s.turn := by
  unfold State.modContext; split <;> rfl
@[simp] theorem State.modContext_flip (k : Nat) (f : Context → Context) : (s.modContext k f).flip = s.flip := by
  unfold State.modContext; split <;> rfl
@[simp] theorem State.modContext_clock (k : Nat) (f : Context → Context) : (s.modContext k f).clock = s.clock := by
  unfold State.modContext; split <;> rfl
@[simp] theorem State.modContext_sclk (k : Nat) (f : Context → Context) : (s.modContext k f).sclk = s.sclk := by
  unfold State.modContext; split <;> rfl
@[simp] theorem State.modContext_fclk (k : Nat) (f : Context → Context) : (s.modContext k f).fclk = s.fclk := by
  unfold State.modContext; split <;> rfl
@[simp] theorem State.modContext_free (k : Nat) (f : Context → Context) : (s.modContext k f).free = s.free := by
  unfold State.modContext; split <;> rfl

/-! ## Reading what was written -/

@[simp] theorem State.thr_setThr (tk : Nat) (t : Thread) : (s.setThr tk t).thr tk = some t :=
  Tbl.get_put_ne_default none s.threads tk (some t) (by simp)

@[simp] theorem State.setThr_setThr (tk : Nat) (t u : Thread) : (s.setThr tk t).setThr tk u = s.setThr tk u := by
  simp only [State.setThr, Tbl.put_put none s.threads tk (some t) (some u) (by simp)]

/-- Writing a thread as it is changes nothing. -/
theorem State.setThr_self (tk : Nat) (t : Thread) (h : s.thr tk = some t) : s.setThr tk t = s := by
  simp only [State.setThr, Tbl.put_get none s.threads tk (some t) h (by simp)]

/-- Changing a thread that exists writes it. -/
theorem State.modThr_some (tk : Nat) (t : Thread) (f : Thread → Thread) (h : s.thr tk = some t) :
    s.modThr tk f = s.setThr tk (f t) := by
  simp [State.modThr, h]

/-- Changing a thread that does not exist changes nothing. -/
theorem State.modThr_none (tk : Nat) (f : Thread → Thread) (h : s.thr tk = none) : s.modThr tk f = s := by
  simp [State.modThr, h]

@[simp] theorem State.thr_modThr (tk : Nat) (f : Thread → Thread) : (s.modThr tk f).thr tk = (s.thr tk).map f := by
  cases h : s.thr tk with
  | none => rw [State.modThr_none s tk f h, h]; rfl
  | some t => rw [State.modThr_some s tk t f h]; simp

/-- Two changes of one thread are one. -/
theorem State.modThr_modThr (tk : Nat) (f g : Thread → Thread) :
    (s.modThr tk f).modThr tk g = s.modThr tk (fun u => g (f u)) := by
  cases h : s.thr tk with
  | none => simp [State.modThr_none s tk _ h]
  | some t =>
    rw [State.modThr_some s tk t f h, State.modThr_some _ tk (f t) g (by simp), State.modThr_some s tk t _ h]
    simp

/-- A change that leaves the thread as it is changes nothing. -/
theorem State.modThr_id (tk : Nat) (f : Thread → Thread) (h : ∀ t, s.thr tk = some t → f t = t) : s.modThr tk f = s := by
  cases ht : s.thr tk with
  | none => exact State.modThr_none s tk f ht
  | some t => rw [State.modThr_some s tk t f ht, h t ht, State.setThr_self s tk t ht]

@[simp] theorem State.setCx_thr (ck : Nat) (x : CtxCore) (j : Nat) : (s.setCx ck x).thr j = s.thr j := rfl
@[simp] theorem State.modCx_thr (ck : Nat) (f : CtxCore → CtxCore) (j : Nat) : (s.modCx ck f).thr j = s.thr j := rfl
@[simp] theorem State.modCore_thr (c : Nat) (f : Core → Core) (j : Nat) : (s.modCore c f).thr j = s.thr j := rfl
@[simp] theorem State.modClu_thr (c : Nat) (f : Cluster → Cluster) (j : Nat) : (s.modClu c f).thr j = s.thr j := rfl
@[simp] theorem State.setSl_thr (n : Nat) (x : Slice) (j : Nat) : (s.setSl n x).thr j = s.thr j := rfl
@[simp] theorem State.modSl_thr (n : Nat) (f : Slice → Slice) (j : Nat) : (s.modSl n f).thr j = s.thr j := rfl
@[simp] theorem State.setRegion_thr (r : Nat) (x : Option Region) (j : Nat) : (s.setRegion r x).thr j = s.thr j := rfl
@[simp] theorem State.setContext_thr (k : Nat) (x : Option Context) (j : Nat) : (s.setContext k x).thr j = s.thr j := rfl
@[simp] theorem State.later_thr (e : Ev) (j : Nat) : (s.later e).thr j = s.thr j := rfl
@[simp] theorem State.tickClock_thr (j : Nat) : (s.tickClock).thr j = s.thr j := rfl
@[simp] theorem State.tickCycles_thr (j : Nat) : (s.tickCycles).thr j = s.thr j := rfl
@[simp] theorem State.draw_thr (j : Nat) : (s.draw).thr j = s.thr j := rfl
@[simp] theorem State.laterOnce_thr (e : Ev) (j : Nat) : (s.laterOnce e).thr j = s.thr j := by
  unfold State.laterOnce; split <;> rfl
@[simp] theorem State.modRegion_thr (r : Nat) (f : Region → Region) (j : Nat) : (s.modRegion r f).thr j = s.thr j := by
  unfold State.modRegion; split <;> rfl
@[simp] theorem State.modContext_thr (k : Nat) (f : Context → Context) (j : Nat) : (s.modContext k f).thr j = s.thr j := by
  unfold State.modContext; split <;> rfl

@[simp] theorem State.setThr_cx (tk : Nat) (t : Thread) (j : Nat) : (s.setThr tk t).cx j = s.cx j := rfl
@[simp] theorem State.modCore_cx (c : Nat) (f : Core → Core) (j : Nat) : (s.modCore c f).cx j = s.cx j := rfl
@[simp] theorem State.modClu_cx (c : Nat) (f : Cluster → Cluster) (j : Nat) : (s.modClu c f).cx j = s.cx j := rfl
@[simp] theorem State.setSl_cx (n : Nat) (x : Slice) (j : Nat) : (s.setSl n x).cx j = s.cx j := rfl
@[simp] theorem State.modSl_cx (n : Nat) (f : Slice → Slice) (j : Nat) : (s.modSl n f).cx j = s.cx j := rfl
@[simp] theorem State.setRegion_cx (r : Nat) (x : Option Region) (j : Nat) : (s.setRegion r x).cx j = s.cx j := rfl
@[simp] theorem State.setContext_cx (k : Nat) (x : Option Context) (j : Nat) : (s.setContext k x).cx j = s.cx j := rfl
@[simp] theorem State.later_cx (e : Ev) (j : Nat) : (s.later e).cx j = s.cx j := rfl
@[simp] theorem State.tickClock_cx (j : Nat) : (s.tickClock).cx j = s.cx j := rfl
@[simp] theorem State.tickCycles_cx (j : Nat) : (s.tickCycles).cx j = s.cx j := rfl
@[simp] theorem State.draw_cx (j : Nat) : (s.draw).cx j = s.cx j := rfl
@[simp] theorem State.modThr_cx (tk : Nat) (f : Thread → Thread) (j : Nat) : (s.modThr tk f).cx j = s.cx j := by
  unfold State.modThr; split <;> rfl
@[simp] theorem State.laterOnce_cx (e : Ev) (j : Nat) : (s.laterOnce e).cx j = s.cx j := by
  unfold State.laterOnce; split <;> rfl
@[simp] theorem State.modRegion_cx (r : Nat) (f : Region → Region) (j : Nat) : (s.modRegion r f).cx j = s.cx j := by
  unfold State.modRegion; split <;> rfl
@[simp] theorem State.modContext_cx (k : Nat) (f : Context → Context) (j : Nat) : (s.modContext k f).cx j = s.cx j := by
  unfold State.modContext; split <;> rfl

@[simp] theorem State.setThr_core (tk : Nat) (t : Thread) (j : Nat) : (s.setThr tk t).core j = s.core j := rfl
@[simp] theorem State.setCx_core (ck : Nat) (x : CtxCore) (j : Nat) : (s.setCx ck x).core j = s.core j := rfl
@[simp] theorem State.modCx_core (ck : Nat) (f : CtxCore → CtxCore) (j : Nat) : (s.modCx ck f).core j = s.core j := rfl
@[simp] theorem State.modClu_core (c : Nat) (f : Cluster → Cluster) (j : Nat) : (s.modClu c f).core j = s.core j := rfl
@[simp] theorem State.setSl_core (n : Nat) (x : Slice) (j : Nat) : (s.setSl n x).core j = s.core j := rfl
@[simp] theorem State.modSl_core (n : Nat) (f : Slice → Slice) (j : Nat) : (s.modSl n f).core j = s.core j := rfl
@[simp] theorem State.setRegion_core (r : Nat) (x : Option Region) (j : Nat) : (s.setRegion r x).core j = s.core j := rfl
@[simp] theorem State.setContext_core (k : Nat) (x : Option Context) (j : Nat) : (s.setContext k x).core j = s.core j := rfl
@[simp] theorem State.later_core (e : Ev) (j : Nat) : (s.later e).core j = s.core j := rfl
@[simp] theorem State.tickClock_core (j : Nat) : (s.tickClock).core j = s.core j := rfl
@[simp] theorem State.tickCycles_core (j : Nat) : (s.tickCycles).core j = s.core j := rfl
@[simp] theorem State.draw_core (j : Nat) : (s.draw).core j = s.core j := rfl
@[simp] theorem State.modThr_core (tk : Nat) (f : Thread → Thread) (j : Nat) : (s.modThr tk f).core j = s.core j := by
  unfold State.modThr; split <;> rfl
@[simp] theorem State.laterOnce_core (e : Ev) (j : Nat) : (s.laterOnce e).core j = s.core j := by
  unfold State.laterOnce; split <;> rfl
@[simp] theorem State.modRegion_core (r : Nat) (f : Region → Region) (j : Nat) : (s.modRegion r f).core j = s.core j := by
  unfold State.modRegion; split <;> rfl
@[simp] theorem State.modContext_core (k : Nat) (f : Context → Context) (j : Nat) : (s.modContext k f).core j = s.core j := by
  unfold State.modContext; split <;> rfl

@[simp] theorem State.setThr_clu (tk : Nat) (t : Thread) (j : Nat) : (s.setThr tk t).clu j = s.clu j := rfl
@[simp] theorem State.setCx_clu (ck : Nat) (x : CtxCore) (j : Nat) : (s.setCx ck x).clu j = s.clu j := rfl
@[simp] theorem State.modCx_clu (ck : Nat) (f : CtxCore → CtxCore) (j : Nat) : (s.modCx ck f).clu j = s.clu j := rfl
@[simp] theorem State.modCore_clu (c : Nat) (f : Core → Core) (j : Nat) : (s.modCore c f).clu j = s.clu j := rfl
@[simp] theorem State.setSl_clu (n : Nat) (x : Slice) (j : Nat) : (s.setSl n x).clu j = s.clu j := rfl
@[simp] theorem State.modSl_clu (n : Nat) (f : Slice → Slice) (j : Nat) : (s.modSl n f).clu j = s.clu j := rfl
@[simp] theorem State.setRegion_clu (r : Nat) (x : Option Region) (j : Nat) : (s.setRegion r x).clu j = s.clu j := rfl
@[simp] theorem State.setContext_clu (k : Nat) (x : Option Context) (j : Nat) : (s.setContext k x).clu j = s.clu j := rfl
@[simp] theorem State.later_clu (e : Ev) (j : Nat) : (s.later e).clu j = s.clu j := rfl
@[simp] theorem State.tickClock_clu (j : Nat) : (s.tickClock).clu j = s.clu j := rfl
@[simp] theorem State.tickCycles_clu (j : Nat) : (s.tickCycles).clu j = s.clu j := rfl
@[simp] theorem State.draw_clu (j : Nat) : (s.draw).clu j = s.clu j := rfl
@[simp] theorem State.modThr_clu (tk : Nat) (f : Thread → Thread) (j : Nat) : (s.modThr tk f).clu j = s.clu j := by
  unfold State.modThr; split <;> rfl
@[simp] theorem State.laterOnce_clu (e : Ev) (j : Nat) : (s.laterOnce e).clu j = s.clu j := by
  unfold State.laterOnce; split <;> rfl
@[simp] theorem State.modRegion_clu (r : Nat) (f : Region → Region) (j : Nat) : (s.modRegion r f).clu j = s.clu j := by
  unfold State.modRegion; split <;> rfl
@[simp] theorem State.modContext_clu (k : Nat) (f : Context → Context) (j : Nat) : (s.modContext k f).clu j = s.clu j := by
  unfold State.modContext; split <;> rfl

@[simp] theorem State.setThr_sl (tk : Nat) (t : Thread) (j : Nat) : (s.setThr tk t).sl j = s.sl j := rfl
@[simp] theorem State.setCx_sl (ck : Nat) (x : CtxCore) (j : Nat) : (s.setCx ck x).sl j = s.sl j := rfl
@[simp] theorem State.modCx_sl (ck : Nat) (f : CtxCore → CtxCore) (j : Nat) : (s.modCx ck f).sl j = s.sl j := rfl
@[simp] theorem State.modCore_sl (c : Nat) (f : Core → Core) (j : Nat) : (s.modCore c f).sl j = s.sl j := rfl
@[simp] theorem State.modClu_sl (c : Nat) (f : Cluster → Cluster) (j : Nat) : (s.modClu c f).sl j = s.sl j := rfl
@[simp] theorem State.setRegion_sl (r : Nat) (x : Option Region) (j : Nat) : (s.setRegion r x).sl j = s.sl j := rfl
@[simp] theorem State.setContext_sl (k : Nat) (x : Option Context) (j : Nat) : (s.setContext k x).sl j = s.sl j := rfl
@[simp] theorem State.later_sl (e : Ev) (j : Nat) : (s.later e).sl j = s.sl j := rfl
@[simp] theorem State.tickClock_sl (j : Nat) : (s.tickClock).sl j = s.sl j := rfl
@[simp] theorem State.tickCycles_sl (j : Nat) : (s.tickCycles).sl j = s.sl j := rfl
@[simp] theorem State.draw_sl (j : Nat) : (s.draw).sl j = s.sl j := rfl
@[simp] theorem State.modThr_sl (tk : Nat) (f : Thread → Thread) (j : Nat) : (s.modThr tk f).sl j = s.sl j := by
  unfold State.modThr; split <;> rfl
@[simp] theorem State.laterOnce_sl (e : Ev) (j : Nat) : (s.laterOnce e).sl j = s.sl j := by
  unfold State.laterOnce; split <;> rfl
@[simp] theorem State.modRegion_sl (r : Nat) (f : Region → Region) (j : Nat) : (s.modRegion r f).sl j = s.sl j := by
  unfold State.modRegion; split <;> rfl
@[simp] theorem State.modContext_sl (k : Nat) (f : Context → Context) (j : Nat) : (s.modContext k f).sl j = s.sl j := by
  unfold State.modContext; split <;> rfl

end Sys2Proof.Machine
end

