-- ==== Sys2Proof/Laws/Issue.lean ====
section
/-!
SUPPORT. How a unit of one word issues when nothing holds it back: the laws that every instruction's result goes through.
-/

namespace Sys2Proof.Machine

variable {s : State} {t : Thread}

theorem Thread.portOf_off (h : t.portcfg = 0) (r : Nat) : t.portOf r = none := by
  simp [Thread.portOf, Thread.portEn, h]

theorem Thread.flumeOf_none (h : t.flumes = []) (r : Nat) : t.flumeOf r = none := by
  simp [Thread.flumeOf, h]

theorem Thread.portsOf_off (h : t.portcfg = 0) (l : List Nat) : t.portsOf l = [] := by
  have : l.filterMap t.portOf = [] := by
    rw [List.filterMap_eq_nil_iff]; intro a _; exact Thread.portOf_off h a
  simp [Thread.portsOf, this]

theorem Thread.flumesOf_none (h : t.flumes = []) (l : List Nat) : t.flumesOf l = [] := by
  have : l.filterMap t.flumeOf = [] := by
    rw [List.filterMap_eq_nil_iff]; intro a _; exact Thread.flumeOf_none h a
  simp [Thread.flumesOf, this]

/-- Without ports and flumes a word reads the thread as it is. -/
theorem State.view_plain (tk : Nat) (n : Names) (sh : List Nat) (hp : t.portcfg = 0) (hf : t.flumes = []) :
    s.view tk t n sh = t := by
  simp [State.view, Thread.portsOf_off hp, Thread.flumesOf_none hf]

theorem Thread.portTrap_plain (n : Names) (sh : List Nat) (hp : t.portcfg = 0) (hf : t.flumes = []) :
    t.portTrap n sh = none := by
  simp [Thread.portTrap, Thread.portsOf_off hp, Thread.flumesOf_none hf]

theorem State.portDestTrap_plain (tk : Nat) (l : List Nat) (hp : t.portcfg = 0) : s.portDestTrap tk t l = none := by
  simp [State.portDestTrap, Thread.portsOf_off hp]

theorem State.portWait_plain (tk : Nat) (n : Names) (sh : List Nat) (hp : t.portcfg = 0) (hf : t.flumes = []) :
    s.portWait tk t n sh = none := by
  simp [State.portWait, Thread.portsOf_off hp, Thread.flumesOf_none hf]

theorem Thread.flumePoison_plain (n : Names) (sh : List Nat) (hf : t.flumes = []) : t.flumePoison n sh = none := by
  simp [Thread.flumePoison, Thread.flumesOf_none hf]

/-- What an A-class word's effect is where its body raises no trap. -/
theorem State.evalA_plain (tk : Nat) (n : Names) (sh : List Nat) (f64v : Bool) (body : Thread → AOut)
    (hp : t.portcfg = 0) (hf : t.flumes = []) (ht : (body t).trap = none) (hx : fpTrap t.fpcsr (body t).lanes = none) :
    s.evalA tk t n sh f64v body =
      { n := n, f64v := f64v, gw := (body t).gw, vw := (body t).vw, mw := (body t).mw, flags := laneOr (body t).lanes } := by
  have h1 (l : List (Nat × Word)) : (l.filterMap fun e => (t.portOf e.1).map fun k =>
      s.userMsg tk (t.portDc k) (t.portDt k) false (k + 1) (e.2.setWidth 512) 8) = [] := by
    rw [List.filterMap_eq_nil_iff]; intro a _; simp [Thread.portOf_off hp]
  simp [State.evalA, Thread.portTrap_plain n sh hp hf, State.portDestTrap_plain tk n.gd hp, State.portWait_plain tk n sh hp hf,
    Thread.flumePoison_plain n sh hf, State.view_plain tk n sh hp hf, ht, hx, h1, Thread.portOf_off hp]

theorem Thread.holdBack_none (c : CSpec) (b : Names) (k : Nat) (h : t.pend = []) : t.holdBack c b k = none := by
  simp [Thread.holdBack, h]

/-- The thread's registers after an A-class word. -/
def Thread.takeOut (t : Thread) (o : AOut) : Thread :=
  { o.mw.foldl (fun u e => u.wm e.1 e.2) (o.vw.foldl (fun u e => u.wv e.1 e.2) (o.gw.foldl (fun u e => u.wg e.1 e.2) t)) with
    fpcsr := fpRaise t.fpcsr (laneOr o.lanes) }

theorem ageResults_nil (old : List Pending) (k : Nat) : ageResults old k [] = [] := rfl

section fields
variable (r : Nat) (x : Word) (y : Vec)
@[simp] theorem Thread.wg_pend : (t.wg r x).pend = t.pend := by unfold Thread.wg; split <;> rfl
@[simp] theorem Thread.wg_portcfg : (t.wg r x).portcfg = t.portcfg := by unfold Thread.wg; split <;> rfl
@[simp] theorem Thread.wg_flumes : (t.wg r x).flumes = t.flumes := by unfold Thread.wg; split <;> rfl
@[simp] theorem Thread.wg_fpcsr : (t.wg r x).fpcsr = t.fpcsr := by unfold Thread.wg; split <;> rfl
@[simp] theorem Thread.wg_st : (t.wg r x).st = t.st := by unfold Thread.wg; split <;> rfl
@[simp] theorem Thread.wg_lastIssue : (t.wg r x).lastIssue = t.lastIssue := by unfold Thread.wg; split <;> rfl
@[simp] theorem Thread.wg_v : (t.wg r x).v = t.v := by unfold Thread.wg; split <;> rfl
@[simp] theorem Thread.wg_m : (t.wg r x).m = t.m := by unfold Thread.wg; split <;> rfl
@[simp] theorem Thread.wg_zero : t.wg 0 x = t := rfl
@[simp] theorem Thread.wm_pend : (t.wm r x).pend = t.pend := by unfold Thread.wm; split <;> rfl
@[simp] theorem Thread.wm_portcfg : (t.wm r x).portcfg = t.portcfg := by unfold Thread.wm; split <;> rfl
@[simp] theorem Thread.wm_flumes : (t.wm r x).flumes = t.flumes := by unfold Thread.wm; split <;> rfl
@[simp] theorem Thread.wm_fpcsr : (t.wm r x).fpcsr = t.fpcsr := by unfold Thread.wm; split <;> rfl
@[simp] theorem Thread.wm_st : (t.wm r x).st = t.st := by unfold Thread.wm; split <;> rfl
@[simp] theorem Thread.wm_lastIssue : (t.wm r x).lastIssue = t.lastIssue := by unfold Thread.wm; split <;> rfl
@[simp] theorem Thread.wm_g : (t.wm r x).g = t.g := by unfold Thread.wm; split <;> rfl
@[simp] theorem Thread.wm_v : (t.wm r x).v = t.v := by unfold Thread.wm; split <;> rfl
@[simp] theorem Thread.wm_zero : t.wm 0 x = t := rfl
@[simp] theorem Thread.wv_pend : (t.wv r y).pend = t.pend := rfl
@[simp] theorem Thread.wv_portcfg : (t.wv r y).portcfg = t.portcfg := rfl
@[simp] theorem Thread.wv_flumes : (t.wv r y).flumes = t.flumes := rfl
@[simp] theorem Thread.wv_fpcsr : (t.wv r y).fpcsr = t.fpcsr := rfl
@[simp] theorem Thread.wv_st : (t.wv r y).st = t.st := rfl
@[simp] theorem Thread.wv_lastIssue : (t.wv r y).lastIssue = t.lastIssue := rfl
@[simp] theorem Thread.wv_g : (t.wv r y).g = t.g := rfl
@[simp] theorem Thread.wv_m : (t.wv r y).m = t.m := rfl
end fields

/-- A field that single writes keep is kept by a sequence of them. -/
theorem foldl_keeps {α β γ : Type} (f : α → β → α) (p : α → γ) (h : ∀ a b, p (f a b) = p a) (l : List β) (a : α) :
    p (l.foldl f a) = p a := by
  induction l generalizing a with
  | nil => rfl
  | cons b l ih => simp [ih, h]

/-- Vector writes without flumes are writes of the thread. -/
theorem foldS_writeV (tk : Nat) (l : List (Nat × Vec)) (s : State) (t : Thread) (ht : s.thr tk = some t) (hf : t.flumes = []) :
    foldS (fun e s => s.writeV tk e.1 e.2) l s = s.setThr tk (l.foldl (fun u e => u.wv e.1 e.2) t) := by
  induction l generalizing s t with
  | nil => exact (State.setThr_self s tk t ht).symm
  | cons e l ih =>
    have h1 : s.writeV tk e.1 e.2 = s.setThr tk (t.wv e.1 e.2) := by simp [State.writeV, ht, Thread.flumeOf_none hf]
    simp only [foldS, List.foldl_cons] at ih ⊢
    rw [h1, ih (s.setThr tk (t.wv e.1 e.2)) (t.wv e.1 e.2) (by simp) (by simpa using hf)]
    simp

theorem Thread.popFlumes_none (l : List Nat) (h : t.flumes = []) : t.popFlumes l = t := by
  cases t; simp only at h; subst h; rfl

theorem State.openedPrecise_none (s : State) (tk : Nat) (t u : Thread) (hu : s.thr tk = some u) (hpu : u.pend = []) :
    s.openedPrecise tk t = none := by
  simp [State.openedPrecise, hu, hpu]

/-- A C word alone, without ports and flumes, leaves a precise trap nothing to take back. -/
theorem State.undoOf_alone (s : State) (tk : Nat) (t : Thread) (c : CSpec) (hp : t.portcfg = 0) (hf : t.flumes = []) :
    s.undoOf tk t c {} = { fpcsr := t.fpcsr } := by
  simp [State.undoOf, Thread.portsOf_off hp, Thread.flumesOf_none hf]

/-- A unit without ports and flumes retires: its thread takes the A word's results and moves on. `u` is the thread after the C
word. Either no result of the unit could trap precisely, or there is nothing to take back. -/
theorem State.retire_plain (s : State) (tk : Nat) (t u : Thread) (c : CSpec) (a : AEffect) (k : Nat) (pc : Option Word)
    (hu : s.thr tk = some u) (hp : t.portcfg = 0) (hf : t.flumes = []) (hfu : u.flumes = []) (hs : a.sends = []) (hpd : t.pend = [])
    (hk : s.openedPrecise tk t = none ∨ a = {}) :
    s.retire tk t c a k pc = s.setThr tk
      (let u := a.mw.foldl (fun u e => u.wm e.1 e.2) (a.vw.foldl (fun u e => u.wv e.1 e.2) (a.gw.foldl (fun u e => u.wg e.1 e.2) u))
       let pend := ageResults t.pend k u.pend
       { u with
         fpcsr := fpRaise u.fpcsr a.flags
         pc := pc.getD (s.unit.addr + word (4 * k))
         pend := pend
         lastIssue := if u.lastIssue = t.lastIssue then some (s.clu (s.unit.core / 4)).cycle.toNat else u.lastIssue
         waitcount := 0, park := none, x := {}, btag := none
         st := if u.st = .ready then (match pend.find? fun p => p.window == 0 with
           | some p => p.waitState
           | none => .ready) else u.st }) := by
  have h1 : s.modThr tk (fun u => (u.popFlumes c.n.vs).popFlumes a.n.vs) = s := by
    apply State.modThr_id
    intro t' ht'
    rw [hu] at ht'; cases ht'
    rw [Thread.popFlumes_none c.n.vs hfu, Thread.popFlumes_none a.n.vs hfu]
  have h2 : (a.gw.foldl (fun u e => u.wg e.1 e.2) u).flumes = [] :=
    (foldl_keeps _ Thread.flumes (by simp) a.gw u).trans hfu
  have hn : a.sendsNow (s.heldUnit tk t c a) = [] := by
    unfold AEffect.sendsNow; split
    · rfl
    · exact hs
  obtain ⟨hv, hq⟩ : a.vwNow (s.heldUnit tk t c a) = a.vw ∧ ∀ l : List Pending, l.map (a.keepUndo t.fpcsr (s.heldUnit tk t c a)) = l := by
    have hq : a.vwNow (s.heldUnit tk t c a) = a.vw ∧ ∀ p, a.keepUndo t.fpcsr (s.heldUnit tk t c a) p = p := by
      rcases hk with h | h
      · simp [State.heldUnit, h, AEffect.vwNow, AEffect.keepUndo]
      · subst h
        unfold State.heldUnit
        rw [State.undoOf_alone s tk t c hp hf]
        cases s.openedPrecise tk t <;> simp [AEffect.vwNow, AEffect.keepUndo]
    exact ⟨hq.1, fun l => by simp [funext hq.2]⟩
  unfold State.retire
  rw [Thread.portsOf_off hp, Thread.flumesOf_none hf, hpd]
  simp only [foldS, List.foldl_nil]
  rw [hv, hn]
  simp only [List.foldl_nil]
  simp only [hq]
  rw [h1, State.modThr_some s tk u _ hu]
  have h3 := foldS_writeV tk a.vw (s.setThr tk (a.gw.foldl (fun u e => u.wg e.1 e.2) u)) _ (by simp) h2
  simp only [foldS] at h3
  rw [h3]
  rw [State.modThr_some _ tk _ _ (State.thr_setThr _ _ _), State.modThr_some _ tk _ _ (State.thr_setThr _ _ _)]
  simp only [State.setThr_setThr, State.setThr_unit, State.setThr_clu]
  all_goals rfl

/-- A unit request or not, a C-class word that issues alone does what its body says. -/
theorem issueC_alone (c : CSpec) (body : Thread → State → CRes) (h : Alone s t) (hpriv : c.priv = true → t.priv ≠ 0) :
    issueC c body s = .next (match body t s with
      | .trap cause val => s.takeTrap s.unit.tk cause val s.unit.addr false false
      | .wait s' st park => s'.waitUnit s.unit.tk st park
      | .done s' pc => s'.retire s.unit.tk t c {} 1 pc) := by
  obtain ⟨ht, hl, hpd, hp, hf⟩ := h
  have hm : ¬ 1 < t.messages c {} := by
    simp [Thread.messages, Thread.portsOf_off hp, bitOf]; cases c.sends <;> simp
  have hq : ¬ (c.priv = true ∧ t.priv = 0) := fun e => hpriv e.1 e.2
  simp only [issueC, ht, hl, State.finishUnit, UnitCtx.words, reduceCtorEq, if_false, if_true, Thread.holdBack_none c _ _ hpd,
    OfNat.one_ne_ofNat, false_and, Bool.false_eq_true, hq, hm, Thread.portTrap_plain c.n [] hp hf,
    State.portDestTrap_plain s.unit.tk c.n.gd hp, State.portWait_plain s.unit.tk c.n [] hp hf, Thread.flumePoison_plain c.n [] hf,
    State.view_plain s.unit.tk c.n [] hp hf]
  cases body t s with
  | trap cause val => simp [State.unitTrap, ht, hpd]
  | wait s' st park => rfl
  | done s' pc => simp [State.finishA, UnitCtx.words, hl]

/-- An A-class word that issues alone and raises no trap leaves its results. -/
theorem issueA_alone (n : Names) (f64v : Bool) (body : Thread → AOut) (h : Alone s t)
    (hv : f64v = true → s.hasF64v s.unit.core = true) (ht : (body t).trap = none) (hx : fpTrap t.fpcsr (body t).lanes = none) :
    issueA n f64v body s = .next (s.setThr s.unit.tk (finished s (s.unit.addr + 4) (t.takeOut (body t)))) := by
  obtain ⟨hth, hl, hpd, hp, hf⟩ := h
  have hv' : ¬ (f64v = true ∧ (!s.hasF64v s.unit.core) = true) := by
    rintro ⟨h1, h2⟩; simp [hv h1] at h2
  have hm : ¬ 1 < t.messages {} { n := n, f64v := f64v, gw := (body t).gw, vw := (body t).vw, mw := (body t).mw, flags := laneOr (body t).lanes } := by
    simp [Thread.messages, Thread.portsOf_off hp, bitOf]
  have he := State.evalA_plain (s := s) s.unit.tk n [] f64v body hp hf ht hx
  simp only [issueA, hth, hl]
  rw [he]
  simp only [State.finishUnit, UnitCtx.words, hl, if_true, Thread.holdBack_none _ _ _ hpd, OfNat.one_ne_ofNat, false_and, if_false,
    hv', Bool.false_eq_true, hm, Thread.portTrap_plain _ [] hp hf, State.portDestTrap_plain s.unit.tk _ hp,
    State.portWait_plain s.unit.tk _ [] hp hf, Thread.flumePoison_plain _ [] hf, State.finishA]
  rw [State.retire_plain s s.unit.tk t t _ _ _ _ hth hp hf hf rfl hpd (.inl (State.openedPrecise_none s _ t t hth hpd))]
  have e1 (γ : Type) (p : Thread → γ) (hg : ∀ u r x, p (Thread.wg u r x) = p u) (hw : ∀ u r x, p (Thread.wv u r x) = p u)
      (hmm : ∀ u r x, p (Thread.wm u r x) = p u) :
      p ((body t).mw.foldl (fun u e => u.wm e.1 e.2) ((body t).vw.foldl (fun u e => u.wv e.1 e.2)
        ((body t).gw.foldl (fun u e => u.wg e.1 e.2) t))) = p t := by
    rw [foldl_keeps _ p (by intro a b; exact hmm _ _ _), foldl_keeps _ p (by intro a b; exact hw _ _ _),
      foldl_keeps _ p (by intro a b; exact hg _ _ _)]
  have e2 := e1 _ Thread.fpcsr (by simp) (by simp) (by simp)
  have e3 := e1 _ Thread.pend (by simp) (by simp) (by simp)
  have e4 := e1 _ Thread.lastIssue (by simp) (by simp) (by simp)
  have e5 := e1 _ Thread.st (by simp) (by simp) (by simp)
  unfold Thread.takeOut
  generalize (body t).mw.foldl (fun u e => u.wm e.1 e.2) ((body t).vw.foldl (fun u e => u.wv e.1 e.2)
    ((body t).gw.foldl (fun u e => u.wg e.1 e.2) t)) = w at *
  cases w
  simp only at e2 e3 e4 e5
  subst e2 e3 e4 e5
  simp only [hpd, ageResults_nil, List.find?_nil, if_true, Option.getD_none, finished]
  congr 3
  split <;> simp_all

theorem ite_ready (x : TState) : (if x = .ready then .ready else x) = x := by
  by_cases h : x = .ready <;> simp [h]

/-- A field that register writes keep is kept by an A-class word's results. -/
theorem Thread.takeOut_keeps {γ : Type} (p : Thread → γ) (o : AOut) (hg : ∀ u r x, p (Thread.wg u r x) = p u)
    (hw : ∀ u r x, p (Thread.wv u r x) = p u) (hm : ∀ u r x, p (Thread.wm u r x) = p u) :
    p (o.mw.foldl (fun u e => u.wm e.1 e.2) (o.vw.foldl (fun u e => u.wv e.1 e.2) (o.gw.foldl (fun u e => u.wg e.1 e.2) t))) = p t := by
  rw [foldl_keeps _ p (by intro a b; exact hm _ _ _), foldl_keeps _ p (by intro a b; exact hw _ _ _),
    foldl_keeps _ p (by intro a b; exact hg _ _ _)]

/-- A word that raises no flag only writes its registers. -/
theorem Thread.takeOut_noflags (o : AOut) (h : laneOr o.lanes = 0) :
    t.takeOut o = o.mw.foldl (fun u e => u.wm e.1 e.2) (o.vw.foldl (fun u e => u.wv e.1 e.2) (o.gw.foldl (fun u e => u.wg e.1 e.2) t)) := by
  have e := Thread.takeOut_keeps (t := t) Thread.fpcsr o (by simp) (by simp) (by simp)
  unfold Thread.takeOut
  rw [h]
  generalize o.mw.foldl (fun u e => u.wm e.1 e.2) (o.vw.foldl (fun u e => u.wv e.1 e.2) (o.gw.foldl (fun u e => u.wg e.1 e.2) t)) = w at *
  cases w
  simp only at e
  subst e
  simp [fpRaise]

/-- A unit of one word whose C word leaves its thread as `u`, with no result pending, retires it so. -/
theorem State.retire_quiet (s : State) (tk : Nat) (t u : Thread) (c : CSpec) (pc : Option Word) (hu : s.thr tk = some u)
    (hp : t.portcfg = 0) (hf : t.flumes = []) (hpd : t.pend = []) (hfu : u.flumes = []) (hpu : u.pend = [])
    (hl : u.lastIssue = t.lastIssue) :
    s.retire tk t c {} 1 pc = s.setThr tk (finished s (pc.getD (s.unit.addr + 4)) u) := by
  rw [State.retire_plain s tk t u c {} 1 pc hu hp hf hfu rfl hpd (.inr rfl)]
  cases u
  simp only at hfu hpu hl
  subst hfu hpu hl
  simp only [List.foldl_nil, ageResults_nil, List.find?_nil, if_true, finished, fpRaise]
  congr 2
  · exact ite_ready _
  · simp

/-- A C-class word that issues alone and changes only its thread, which becomes `u`. -/
theorem issueC_goes (c : CSpec) (body : Thread → State → CRes) (u : Thread) (pc : Option Word) (h : Alone s t)
    (hpriv : c.priv = true → t.priv ≠ 0) (hb : body t s = .done (s.setThr s.unit.tk u) pc)
    (hfu : u.flumes = []) (hpu : u.pend = []) (hl : u.lastIssue = t.lastIssue) :
    issueC c body s = .next (s.setThr s.unit.tk (finished s (pc.getD (s.unit.addr + 4)) u)) := by
  rw [issueC_alone c body h hpriv, hb]
  simp only
  rw [State.retire_quiet _ _ t u c pc (by simp) h.ports h.flumes h.pend hfu hpu hl]
  simp [finished]

/-- A C-class word that issues alone and changes nothing of its own goes on. -/
theorem issueC_stays (c : CSpec) (body : Thread → State → CRes) (pc : Option Word) (h : Alone s t)
    (hpriv : c.priv = true → t.priv ≠ 0) (hb : body t s = .done s pc) :
    issueC c body s = .next (s.setThr s.unit.tk (finished s (pc.getD (s.unit.addr + 4)) t)) := by
  apply issueC_goes c body t pc h hpriv _ h.flumes h.pend rfl
  rw [hb, State.setThr_self s s.unit.tk t h.thread]

/-- A C-class word that issues alone and raises a trap. -/
theorem issueC_traps (c : CSpec) (body : Thread → State → CRes) (cause : Nat) (val : Word) (h : Alone s t)
    (hpriv : c.priv = true → t.priv ≠ 0) (hb : body t s = .trap cause val) :
    issueC c body s = .next (s.takeTrap s.unit.tk cause val s.unit.addr false false) := by
  rw [issueC_alone c body h hpriv, hb]

/-- Without ports a register write is a write of the thread. -/
theorem State.writeG_plain (tk r : Nat) (x : Word) (u : Thread) (hu : s.thr tk = some u) (hp : u.portcfg = 0) :
    s.writeG tk r x = s.setThr tk (u.wg r x) := by
  simp [State.writeG, hu, Thread.portOf_off hp]

/-- A word of the shape d := f(a, b). -/
theorem Leaves.alu2 {i : Instr} {d a b : BitVec 5} {f : Word → Word → Word} {r : Word} (h : Alone s t)
    (hi : exec i s = alu2 d a b f s) (hr : f (t.rg a.toNat) (t.rg b.toNat) = r) : Leaves i s (t.wg d.toNat r) := by
  refine hi.trans ?_
  rw [Machine.alu2, issueA_alone _ _ _ h (by simp) rfl (by simp [fpTrap, laneOr]), Thread.takeOut_noflags _ rfl]
  simp [hr]

/-- A word of the shape d := f(a). -/
theorem Leaves.alu1 {i : Instr} {d a : BitVec 5} {f : Word → Word} {r : Word} (h : Alone s t)
    (hi : exec i s = alu1 d a f s) (hr : f (t.rg a.toNat) = r) : Leaves i s (t.wg d.toNat r) := by
  refine hi.trans ?_
  rw [Machine.alu1, issueA_alone _ _ _ h (by simp) rfl (by simp [fpTrap, laneOr]), Thread.takeOut_noflags _ rfl]
  simp [hr]

/-- A word of the shape d := f(a, b, c). -/
theorem Leaves.alu3 {i : Instr} {d a b c : BitVec 5} {f : Word → Word → Word → Word} {r : Word} (h : Alone s t)
    (hi : exec i s = alu3 d a b c f s) (hr : f (t.rg a.toNat) (t.rg b.toNat) (t.rg c.toNat) = r) :
    Leaves i s (t.wg d.toNat r) := by
  refine hi.trans ?_
  rw [Machine.alu3, issueA_alone _ _ _ h (by simp) rfl (by simp [fpTrap, laneOr]), Thread.takeOut_noflags _ rfl]
  simp [hr]

/-- An A-class word whose body raises no trap and, with no FP trap enabled, whatever flags. -/
theorem Leaves.issueA {i : Instr} {n : Names} {f64v : Bool} {body : Thread → AOut} {u : Thread} (h : Alone s t)
    (hi : exec i s = issueA n f64v body s) (hv : f64v = true → s.hasF64v s.unit.core = true) (hx : fpTen t.fpcsr = 0)
    (ht : (body t).trap = none) (hu : t.takeOut (body t) = u) : Leaves i s u := by
  refine hi.trans ?_
  rw [issueA_alone _ _ _ h hv ht (by simp [fpTrap, hx]), hu]

/-- A C-class word that issues alone, does `s'` to the machine and leaves its thread as `u`, with nothing pending. -/
theorem issueC_leaves {i : Instr} {c : CSpec} {body : Thread → State → CRes} {s' : State} {u : Thread} {pc : Option Word}
    (h : Alone s t) (hi : exec i s = issueC c body s) (hpriv : c.priv = true → t.priv ≠ 0) (hb : body t s = .done s' pc)
    (hu : s'.thr s.unit.tk = some u) (hfu : u.flumes = []) (hpu : u.pend = []) (hl : u.lastIssue = t.lastIssue)
    (hun : s'.unit = s.unit) (hcl : s'.clusters = s.clusters) :
    exec i s = .next (s'.setThr s.unit.tk (finished s (pc.getD (s.unit.addr + 4)) u)) := by
  rw [hi, issueC_alone c body h hpriv, hb]
  simp only
  rw [State.retire_quiet s' _ t u c pc hu h.ports h.flumes h.pend hfu hpu hl]
  simp only [finished, State.clu, hun, hcl]

/-- The same where nothing but the thread changes. -/
theorem Goes.word {i : Instr} {c : CSpec} {body : Thread → State → CRes} {u : Thread} {pc : Option Word}
    (h : Alone s t) (hi : exec i s = issueC c body s) (hpriv : c.priv = true → t.priv ≠ 0)
    (hb : body t s = .done (s.setThr s.unit.tk u) pc) (hfu : u.flumes = []) (hpu : u.pend = []) (hl : u.lastIssue = t.lastIssue) :
    Goes i s (pc.getD (s.unit.addr + 4)) u :=
  hi.trans (issueC_goes c body u pc h hpriv hb hfu hpu hl)

/-- The same where nothing changes but the PC. -/
theorem Goes.stays {i : Instr} {c : CSpec} {body : Thread → State → CRes} {pc : Option Word}
    (h : Alone s t) (hi : exec i s = issueC c body s) (hpriv : c.priv = true → t.priv ≠ 0) (hb : body t s = .done s pc) :
    Goes i s (pc.getD (s.unit.addr + 4)) t :=
  hi.trans (issueC_stays c body pc h hpriv hb)

/-- A C-class word that issues alone and whose body raises a trap. -/
theorem Traps.word {i : Instr} {c : CSpec} {body : Thread → State → CRes} {cause : Nat} {val : Word}
    (h : Alone s t) (hi : exec i s = issueC c body s) (hpriv : c.priv = true → t.priv ≠ 0) (hb : body t s = .trap cause val) :
    Traps i s cause val :=
  hi.trans (issueC_traps c body cause val h hpriv hb)

/-- A C-class word that issues alone and waits with its thread in a state other than READY. -/
theorem Parks.word {i : Instr} {c : CSpec} {body : Thread → State → CRes} {st : TState} {park : Option Word}
    (h : Alone s t) (hi : exec i s = issueC c body s) (hpriv : c.priv = true → t.priv ≠ 0) (hb : body t s = .wait s st park)
    (hst : st ≠ .ready) : Parks i s t st park := by
  rw [Parks, hi, issueC_alone c body h hpriv, hb]
  simp [State.waitUnit, hst, State.modThr_some s _ t _ h.thread]

theorem waitOf_single (p : Pending) : (match [p].find? fun p => p.window == 0 with
    | some p => p.waitState
    | none => TState.ready) = if p.window = 0 then p.waitState else .ready := by
  by_cases h : p.window = 0 <;> simp [h]

/-- A unit of one word whose C word leaves its thread with one pending result: the thread waits for it, or goes on where its
window allows (R196). -/
theorem State.retire_awaits (s' : State) (tk : Nat) (t u : Thread) (c : CSpec) (q : Pending) (hu : s'.thr tk = some { u with pend := [q] })
    (hp : t.portcfg = 0) (hf : t.flumes = []) (hpd : t.pend = []) (hfu : u.flumes = []) (hl : u.lastIssue = t.lastIssue)
    (hst : u.st = .ready) :
    s'.retire tk t c {} 1 none = s'.setThr tk
      (let p := { q with window := q.window - 1, later := q.later || false }
       { finished s' (s'.unit.addr + 4) u with pend := [p], st := if p.window = 0 then p.waitState else .ready }) := by
  rw [State.retire_plain s' tk t _ c {} 1 none hu hp hf hfu rfl hpd (.inr rfl)]
  cases u
  simp only at hfu hl hst
  subst hfu hl hst
  simp only [List.foldl_nil, ageResults, hpd, List.map_cons, List.map_nil, List.any_nil, if_true, finished, fpRaise, Option.getD_none]
  congr 2
  · exact waitOf_single _
  · simp

/-- A C-class word that issues alone and leaves a pending result. -/
theorem Awaits.word {i : Instr} {c : CSpec} {body : Thread → State → CRes} {s' : State} {u : Thread} {q p : Pending}
    (h : Alone s t) (hi : exec i s = issueC c body s) (hpriv : c.priv = true → t.priv ≠ 0) (hb : body t s = .done s' none)
    (hu : s'.thr s.unit.tk = some { u with pend := [q] }) (hfu : u.flumes = []) (hl : u.lastIssue = t.lastIssue) (hst : u.st = .ready)
    (hun : s'.unit = s.unit) (hcl : s'.clusters = s.clusters)
    (hq : { q with window := q.window - 1, later := q.later || false } = p) : Awaits i s s' u p := by
  rw [Awaits, hi, issueC_alone c body h hpriv, hb]
  simp only
  rw [State.retire_awaits s' _ t u c q hu h.ports h.flumes h.pend hfu hl hst]
  subst hq
  simp only [finished, State.clu, hun, hcl]

end Sys2Proof.Machine
end

