-- ==== Sys2Proof/Laws/Memory.lean ====
section
/-!
SUPPORT. What the operations of memory do: each keeps the canonical form of DRAM and of a pool, a write reads back, and a write
leaves every byte outside it alone.
-/

namespace Sys2Proof.Laws

open Machine

/-- Writing a run of bytes keeps an array of bytes canonical. -/
theorem putList_wf (t : Tbl Byte) (off : Nat) (l : List Byte) (h : Tbl.wf 0 t = true) : Tbl.wf 0 (putList t off l) = true := by
  induction l generalizing t off with
  | nil => exact h
  | cons b l ih => exact ih _ _ (Tbl.wf_put 0 t off b h)

/-- A byte outside a written run reads as before. -/
theorem putList_get_outside (t : Tbl Byte) (off n : Nat) (l : List Byte) (h : Tbl.wf 0 t = true) (hn : n < off ∨ off + l.length ≤ n) :
    Tbl.get 0 (putList t off l) n = Tbl.get 0 t n := by
  induction l generalizing t off with
  | nil => rfl
  | cons b l ih =>
    simp only [List.length_cons] at hn
    have e := ih (Tbl.put 0 t off b) (off + 1) (Tbl.wf_put 0 t off b h) (by omega)
    exact e.trans (Tbl.get_put_other 0 t 0 off n b h (by omega))

/-- A byte of a written run reads as the byte written. -/
theorem putList_get_inside (t : Tbl Byte) (off n : Nat) (l : List Byte) (h : Tbl.wf 0 t = true) (hn : n < l.length) :
    Tbl.get 0 (putList t off l) (off + n) = l[n] := by
  induction l generalizing t off n with
  | nil => simp at hn
  | cons b l ih =>
    have hp := Tbl.wf_put 0 t off b h
    cases n with
    | zero =>
      refine (putList_get_outside _ (off + 1) (off + 0) l hp (by omega)).trans ?_
      exact Tbl.get_put_same 0 t off b h
    | succ n =>
      have e := ih (Tbl.put 0 t off b) (off + 1) n hp (by simpa using hn)
      rw [Nat.add_assoc, Nat.add_comm 1 n] at e
      simpa [putList] using e

/-- Two canonical arrays of bytes that read alike at every key are the same list. -/
theorem above_ext (a b : Tbl Byte) (lo : Nat) (ha : Tbl.above 0 lo a = true) (hb : Tbl.above 0 lo b = true)
    (h : ∀ n, Tbl.get 0 a n = Tbl.get 0 b n) : a = b := by
  induction a generalizing b lo with
  | nil =>
    cases b with
    | nil => rfl
    | cons e b =>
      obtain ⟨k, v⟩ := e
      simp only [Tbl.above, Bool.and_eq_true, decide_eq_true_eq] at hb
      have := h k
      simp only [Tbl.get, if_pos] at this
      exact absurd this.symm hb.1.2
  | cons e a ih =>
    obtain ⟨k, v⟩ := e
    simp only [Tbl.above, Bool.and_eq_true, decide_eq_true_eq] at ha
    cases b with
    | nil =>
      have := h k
      simp only [Tbl.get, if_pos] at this
      exact absurd this ha.1.2
    | cons e' b =>
      obtain ⟨k', v'⟩ := e'
      simp only [Tbl.above, Bool.and_eq_true, decide_eq_true_eq] at hb
      have hk : k = k' := by
        rcases Nat.lt_trichotomy k k' with hlt | heq | hgt
        · have := h k
          simp only [Tbl.get, if_pos, if_neg (Nat.ne_of_gt hlt), if_pos hlt] at this
          exact absurd this ha.1.2
        · exact heq
        · have := h k'
          simp only [Tbl.get, if_pos, if_neg (Nat.ne_of_gt hgt), if_pos hgt] at this
          exact absurd this.symm hb.1.2
      subst hk
      have hv : v = v' := by simpa [Tbl.get] using h k
      subst hv
      congr 1
      refine ih b (k + 1) ha.2 hb.2 fun n => ?_
      by_cases hn : k < n
      · have hlt : ¬ n < k := by omega
        have := h n
        simpa only [Tbl.get, if_neg (Nat.ne_of_lt hn), if_neg hlt] using this
      · rw [Tbl.get_of_lt 0 a (k + 1) n ha.2 (by omega), Tbl.get_of_lt 0 b (k + 1) n hb.2 (by omega)]

/-- DRAM after a write of bytes is canonical (R17). -/
theorem dramWrite_wf (s : State) (a : Nat) (l : List Byte) (h : Memory.wf s.dram = true) : Memory.wf (s.dramWrite a l).dram = true := by
  have e : (s.dramWrite a l).dram = putList s.dram a l := rfl
  rw [e]
  exact putList_wf s.dram a l h

/-- A halt of a pass changes no byte of DRAM (R92). -/
@[simp] theorem onBhalt_dram (s : State) (u : Nat) : (s.onBhalt u).dram = s.dram := by
  unfold State.onBhalt
  dsimp only
  split
  · split <;> rfl
  · rfl

/-- The resumption of a pass changes no byte of DRAM (R92). -/
@[simp] theorem onBres_dram (s : State) (u : Nat) : (s.onBres u).dram = s.dram := by
  unfold State.onBres
  split <;> rfl

/-- An access that halts a pass keeps what the access keeps of DRAM (R98). -/
theorem pauseBanks_wf (s : State) (pa : Nat) (f : State → State) (hf : ∀ t : State, Memory.wf t.dram = true → Memory.wf (f t).dram = true)
    (h : Memory.wf s.dram = true) : Memory.wf (s.pauseBanks pa f).dram = true := by
  unfold State.pauseBanks
  generalize s.winLo = lo, s.winHi = hi, s.bankUnits = n
  extract_lets u
  split
  · rw [onBres_dram]
    exact hf _ (by rw [onBhalt_dram]; exact h)
  · exact hf s h

/-- The memory of a line store is that of its bytes. -/
theorem dramStore_dram (s : State) (line : Nat) (d : Vec) (p : Bool) :
    (s.dramStore line d p).dram = (s.dramWrite (64 * line) (bytesOfVec d)).dram := by
  unfold State.dramStore
  generalize bytesOfVec d = l
  rfl

/-- DRAM after a line is written, with or without poison, is canonical (R17, R30). -/
theorem dramPutLine_wf (s : State) (line : Nat) (d : Vec) (p : Bool) (h : Memory.wf s.dram = true) :
    Memory.wf (s.dramPutLine line d p).dram = true := by
  unfold State.dramPutLine
  refine pauseBanks_wf s (64 * line) _ (fun t ht => ?_) h
  rw [dramStore_dram]
  generalize bytesOfVec d = l
  exact dramWrite_wf t (64 * line) l ht

/-- DRAM after the range of a bank-compute window is cleared is canonical (R83). -/
theorem applyWindow_wf (s : State) (h : Memory.wf s.dram = true) : Memory.wf s.applyWindow.dram = true := by
  unfold State.applyWindow
  dsimp only
  split
  · exact h
  · exact Tbl.above_filter 0 s.dram 0 _ h

/-- DRAM in which the host places a word is canonical. -/
theorem withFetchWord_wf (s : State) (nbits w : Nat) (h : Memory.wf s.dram = true) : Memory.wf (s.withFetchWord nbits w).dram = true := by
  have e : (s.withFetchWord nbits w).dram = putList s.dram 0 (leBytes 8 w) := rfl
  rw [e]
  generalize leBytes 8 w = l
  exact putList_wf s.dram 0 l h

/-- DRAM after reset is canonical. -/
theorem reset_wf : Memory.wf State.reset.dram = true := rfl

/-- A pool after a write of bytes is canonical (R52). -/
theorem poolWrite_wf (x : CtxCore) (off : Nat) (l : List Byte) (h : Tbl.wf 0 x.pool = true) : Tbl.wf 0 (x.poolWrite off l).pool = true :=
  putList_wf x.pool off l h

/-- A byte of DRAM outside a write reads as before. -/
theorem dramWrite_outside (s : State) (a n : Nat) (l : List Byte) (h : Memory.wf s.dram = true) (hn : n < a ∨ a + l.length ≤ n) :
    Tbl.get 0 (s.dramWrite a l).dram n = Tbl.get 0 s.dram n := putList_get_outside s.dram a n l h hn

/-- A byte written to DRAM reads back. -/
theorem dramWrite_inside (s : State) (a n : Nat) (l : List Byte) (h : Memory.wf s.dram = true) (hn : n < l.length) :
    Tbl.get 0 (s.dramWrite a l).dram (a + n) = l[n] := putList_get_inside s.dram a n l h hn

/-- A write to DRAM changes DRAM alone. -/
@[simp] theorem dramWrite_threads (s : State) (a : Nat) (l : List Byte) : (s.dramWrite a l).threads = s.threads := rfl
@[simp] theorem dramWrite_ctx (s : State) (a : Nat) (l : List Byte) : (s.dramWrite a l).ctx = s.ctx := rfl

end Sys2Proof.Laws
end

