-- ==== Sys2Proof/Laws/Vector.lean ====
section
/-!
SUPPORT. Lanes: what the lanes of an assembled vector are, and what the shared lane-by-lane operations leave.
-/

namespace Sys2Proof.Machine

variable {s : State} {t : Thread}

/-- The sum that assembles the low `n` lanes stays below 2^(w n). -/
theorem laneSum_lt (w n : Nat) (f : Nat → Nat) :
    (List.range n).foldl (fun acc i => acc + f i % 2 ^ w * 2 ^ (w * i)) 0 < 2 ^ (w * n) := by
  induction n with
  | zero => simp
  | succ n ih =>
    rw [List.range_succ, List.foldl_append]
    simp only [List.foldl_cons, List.foldl_nil]
    have h1 : f n % 2 ^ w < 2 ^ w := Nat.mod_lt _ (by positivity)
    have h2 : f n % 2 ^ w * 2 ^ (w * n) + 2 ^ (w * n) ≤ 2 ^ w * 2 ^ (w * n) := by
      rw [← Nat.succ_mul]; exact Nat.mul_le_mul_right _ h1
    rw [show w * (n + 1) = w + w * n by rw [Nat.mul_succ, Nat.add_comm], Nat.pow_add]
    omega

/-- A lane of the sum. -/
theorem laneSum_lane (w n k : Nat) (f : Nat → Nat) (hk : k < n) :
    (List.range n).foldl (fun acc i => acc + f i % 2 ^ w * 2 ^ (w * i)) 0 / 2 ^ (w * k) % 2 ^ w = f k % 2 ^ w := by
  induction n with
  | zero => omega
  | succ n ih =>
    rw [List.range_succ, List.foldl_append]
    simp only [List.foldl_cons, List.foldl_nil]
    rcases Nat.lt_succ_iff_lt_or_eq.mp hk with h | h
    · have e : f n % 2 ^ w * 2 ^ (w * n) = 2 ^ (w * k) * (2 ^ w * (f n % 2 ^ w * 2 ^ (w * (n - k - 1)))) := by
        have hn : w * n = w * k + (w + w * (n - k - 1)) := by
          obtain ⟨j, rfl⟩ : ∃ j, n = k + 1 + j := ⟨n - k - 1, by omega⟩
          rw [show k + 1 + j - k - 1 = j by omega]; ring
        rw [hn, Nat.pow_add, Nat.pow_add]; ring
      rw [e, Nat.add_mul_div_left _ _ (by positivity), Nat.add_mul_mod_self_left, ih h]
    · subst h
      rw [Nat.mul_comm (f k % 2 ^ w), Nat.add_mul_div_left _ _ (by positivity), Nat.div_eq_of_lt (laneSum_lt w k f)]
      simp

/-- A lane of an assembled vector is the low bits of what the function gives it. -/
theorem lane_ofLanes (w k : Nat) (f : Nat → Nat) (hk : k < 512 / w) : lane w (ofLanes w f) k = f k % 2 ^ w := by
  have h512 : w * (512 / w) ≤ 512 := Nat.mul_div_le 512 w
  have hlt := laneSum_lt w (512 / w) f
  have h2 (e : Nat) (he : w * (512 / w) ≤ e) : 2 ^ (w * (512 / w)) ≤ 2 ^ e := Nat.pow_le_pow_right (by omega) he
  unfold lane ofLanes
  rw [BitVec.toNat_ofNat, Nat.mod_eq_of_lt (Nat.lt_of_lt_of_le hlt (h2 512 h512))]
  exact laneSum_lane w (512 / w) k f hk

/-- A lane is below 2^w. -/
theorem lane_lt (w : Nat) (v : Vec) (k : Nat) : lane w v k < 2 ^ w := Nat.mod_lt _ (by positivity)

/-- The flags of a list of lanes, bit by bit. -/
theorem laneOr_bit (l : List (Nat × Flags)) (b : Nat) : (laneOr l).getLsbD b = true ↔ ∃ e ∈ l, e.2.getLsbD b = true := by
  have h (l : List (Nat × Flags)) (a : Flags) :
      (l.foldl (fun a e => a ||| e.2) a).getLsbD b = true ↔ a.getLsbD b = true ∨ ∃ e ∈ l, e.2.getLsbD b = true := by
    induction l generalizing a with
    | nil => simp
    | cons e l ih => simp [List.foldl_cons, ih, or_assoc]
  simpa [laneOr] using h l 0

/-- What a masked operation gives a lane of its register. -/
theorem maskedLanes_lane (d m w : Nat) (f : Nat → Nat × Flags) :
    ∃ v, (maskedLanes t d m w f).vw = [(d, v)] ∧ (∀ k < 512 / w, lane w v k = if t.active m k then (f k).1 % 2 ^ w else lane w (t.rv d) k) := by
  refine ⟨_, rfl, ?_⟩
  intro k hk
  rw [lane_ofLanes w k _ hk]
  simp only [List.getD_eq_getElem?_getD, List.getElem?_map, List.getElem?_range hk, Option.map_some, Option.getD_some]
  by_cases h : t.active m k = true
  · simp [h]
  · simp [h, Nat.mod_eq_of_lt (lane_lt w (t.rv d) k)]

/-- The flags that a masked operation raises. -/
theorem maskedLanes_flags (d m w : Nat) (f : Nat → Nat × Flags) (b : Nat) :
    (laneOr (maskedLanes t d m w f).lanes).getLsbD b = true ↔ ∃ k < 512 / w, t.active m k = true ∧ (f k).2.getLsbD b = true := by
  rw [laneOr_bit]
  simp only [maskedLanes, List.mem_filterMap, List.mem_range]
  constructor
  · rintro ⟨e, ⟨k, hk, he⟩, hb⟩
    simp only [List.getD_eq_getElem?_getD, List.getElem?_map, List.getElem?_range hk, Option.map_some, Option.getD_some] at he
    by_cases h : t.active m k = true
    · simp only [h, if_true, Option.map_some, Option.some.injEq] at he
      exact ⟨k, hk, h, by rw [← he] at hb; exact hb⟩
    · simp [h] at he
  · rintro ⟨k, hk, h, hb⟩
    refine ⟨(k, (f k).2), ⟨k, hk, ?_⟩, hb⟩
    simp [List.getD_eq_getElem?_getD, List.getElem?_map, List.getElem?_range hk, h]

/-- An instruction that issues a masked operation acts lane by lane. -/
theorem Lanewise.masked {i : Instr} {n : Names} {f64v : Bool} {d m w : Nat} {f : Nat → Nat × Flags} {body : Thread → AOut}
    (h : Alone s t) (hi : exec i s = issueA n f64v body s) (hb : body t = maskedLanes t d m w f)
    (hv : f64v = true → s.hasF64v s.unit.core = true) (hx : fpTen t.fpcsr = 0) : Lanewise i s t d m w f := by
  obtain ⟨v, hv1, hv2⟩ := maskedLanes_lane (t := t) d m w f
  refine ⟨v, laneOr (maskedLanes t d m w f).lanes, ?_, hv2, maskedLanes_flags d m w f⟩
  refine Leaves.issueA h hi hv hx (by rw [hb]; rfl) ?_
  rw [hb]
  unfold Thread.takeOut
  rw [hv1]
  rfl

/-- vd := f(va, vb), lane by lane. -/
theorem Lanewise.vop2 {i : Instr} {d a b : BitVec 5} {m : BitVec 3} {ty : Ty} {f : Nat → Nat → Nat × Flags} (h : Alone s t)
    (hi : exec i s = vop2 d a b m ty f s) (hv : ty = .f64 → s.hasF64v s.unit.core = true) (hx : fpTen t.fpcsr = 0) :
    Lanewise i s t d.toNat m.toNat ty.width fun k => f (lane ty.width (t.rv a.toNat) k) (lane ty.width (t.rv b.toNat) k) :=
  Lanewise.masked h hi rfl (fun e => hv (by simpa using e)) hx

/-- vd := f(va), lane by lane. -/
theorem Lanewise.vop1 {i : Instr} {d a : BitVec 5} {m : BitVec 3} {ty : Ty} {f : Nat → Nat × Flags} (h : Alone s t)
    (hi : exec i s = vop1 d a m ty f s) (hv : ty = .f64 → s.hasF64v s.unit.core = true) (hx : fpTen t.fpcsr = 0) :
    Lanewise i s t d.toNat m.toNat ty.width fun k => f (lane ty.width (t.rv a.toNat) k) :=
  Lanewise.masked h hi rfl (fun e => hv (by simpa using e)) hx

/-- vd := f(va, vb, vd), lane by lane. -/
theorem Lanewise.vop3 {i : Instr} {d a b : BitVec 5} {m : BitVec 3} {ty : Ty} {f : Nat → Nat → Nat → Nat × Flags} (h : Alone s t)
    (hi : exec i s = vop3 d a b m ty f s) (hv : ty = .f64 → s.hasF64v s.unit.core = true) (hx : fpTen t.fpcsr = 0) :
    Lanewise i s t d.toNat m.toNat ty.width fun k =>
      f (lane ty.width (t.rv a.toNat) k) (lane ty.width (t.rv b.toNat) k) (lane ty.width (t.rv d.toNat) k) :=
  Lanewise.masked h hi rfl (fun e => hv (by simpa using e)) hx

end Sys2Proof.Machine
end

