-- ==== Sys2Proof/Tests/Slice0.lean ====
section
/-!
SUPPORT. Tests: the words of the opcode map decode to their instructions, ill-formed terms are refused, single instructions and steps
give results that the spec prints, and for each statement about states a named witness meets its hypotheses, clause by clause.
-/

set_option maxRecDepth 100000
set_option exponentiation.threshold 2000

namespace Sys2Proof.Tests

open Sys2Proof Sys2Proof.Machine

/-! ## Small machines -/

/-- A partition word: 12 granules, of which 2 hold registers, 4 accumulators and 2 landing slots; a slot-local area of 128 bytes. -/
def pw : Word := 0x12048C

/-- A thread of slot 0 with some registers. -/
def thread (g : Tbl Word) : Thread := { g := g, pc := 0x1000, place := .inSlot 0, roster := 64, poolword := pw }

/-- A machine on which thread 0 of core 0 of region 1, of one partition on cluster 0, issues the word at 0x1000. -/
def user (t : Thread) : State :=
  { threads := [(1024, some t)], clusters := [(0, { resident := some 16, cycle := 100 })]
    sched := { regions := [(1, some { st := .runnable, vals := { parts := 1 }, pasid := 5, poolword := pw, resident := true, clusters := [0] })]
               contexts := [(16, some { region := 1, cluster := some 0, placed := true })] }
    unit := { tk := 1024, addr := 0x1000, core := 0 } }

/-- The same machine with bytes in the pool of core 0. -/
def userPool (t : Thread) (off : Nat) (l : List Byte) : State := { user t with ctx := [(64, { pool := putList [] off l })] }

/-- The key of the service thread of core 0 in the standby context. -/
def svcKey : Nat := mkTk (mkCk standbyRegion 0) 15

/-- A machine on which the service thread of core 0 issues; its addresses are physical. -/
def service (t : Thread) : State :=
  { threads := [(svcKey, some t)], sched := { standby := true }, unit := { tk := svcKey, addr := 0x1000, core := 0 } }

/-- A scratchpad address of the local form. -/
def sp (off : Nat) : Word := BitVec.ofNat 64 (0xFFFFFFFFC0000000 + off)

/-- A little-endian image of fields: each a bit position and a value. -/
def image (l : List (Nat × Nat)) : Nat := (l.map fun e => e.2 * 2 ^ e.1).sum

theorem alone_user (t : Thread) (h1 : t.pend = []) (h2 : t.portcfg = 0) (h3 : t.flumes = []) : Alone (user t) t :=
  ⟨rfl, rfl, h1, h2, h3⟩

theorem alone_userPool (t : Thread) (off : Nat) (l : List Byte) (h1 : t.pend = []) (h2 : t.portcfg = 0) (h3 : t.flumes = []) :
    Alone (userPool t off l) t := ⟨rfl, rfl, h1, h2, h3⟩

theorem alone_service (t : Thread) (h1 : t.pend = []) (h2 : t.portcfg = 0) (h3 : t.flumes = []) : Alone (service t) t :=
  ⟨rfl, rfl, h1, h2, h3⟩

/-- The addresses of a service thread are physical. -/
theorem xlat_service (s : State) (t : Thread) (va : Nat) (r w x : Bool) (h : va < s.memTop) : s.xlatThread svcKey t va r w x = .pa s va := by
  have h1 : untranslated svcKey t = true := by simp [untranslated, show isService svcKey = true by decide]
  simp [State.xlatThread, h1, State.physical, h]

/-! ## Well-formedness: a term that each check refuses -/

theorem test_wf_type_class : (Instr.vdiv 1 2 3 0 .f64).wfError = some .typeClass := by decide
theorem test_wf_conversion : (Instr.vcvt 1 2 .f32 0 false false 0 .f32).wfError = some .conversion := by decide
theorem test_wf_register_group : (Instr.vqblkSb8 1 30 0 false).wfError = some .registerGroup := by decide
theorem test_wf_unit : (Instr.contextSwap 16).wfError = some .noSuchUnit := by decide
theorem test_wf_good : (Instr.vadd 1 2 3 0 .bf16).wf = true := by decide

/-! ## The decoder: a word of every row of the opcode table (the fields' values by the layouts of R289 to R294) -/

/-- R312, R313, R314, R315, R316: the words of the opcode map. -/
theorem test_decode_00 :
    decodeWord 0x8132C3A5 = some (.beq true 6 11 933) ∧
    decodeWord 0x8132CBA5 = some (.bne true 6 11 933) ∧
    decodeWord 0x8132D3A5 = some (.blt true 6 11 933) ∧
    decodeWord 0x8132DBA5 = some (.bge true 6 11 933) ∧
    decodeWord 0x8132E3A5 = some (.bltu true 6 11 933) ∧
    decodeWord 0x8132EBA5 = some (.bgeu true 6 11 933) ∧
    decodeWord 0x82312BA5 = some (.bdec true 6 37 933) ∧
    decodeWord 0x833003A5 = some (.btagf true 6 933) ∧
    decodeWord 0x83300BA5 = some (.btage true 6 933) ∧
    decodeWord 0x843003A5 = some (.bany true 6 933) ∧
    decodeWord 0x84300BA5 = some (.bnone true 6 933) ∧
    decodeWord 0x843013A5 = some (.ball true 6 933) ∧
    decodeWord 0x84301BA5 = some (.bnall true 6 933) ∧
    decodeWord 0x850003A5 = some (.jmp true 933) ∧
    decodeWord 0x87018000 = some (.jr true 6) := by
  decide

/-- R317, R318, R320, R321, R325, R326, R328, R330, R331: the words of the opcode map. -/
theorem test_decode_01 :
    decodeWord 0x860003A5 = some (.call true 933) ∧
    decodeWord 0x87018001 = some (.callr true 6) ∧
    decodeWord 0x87000002 = some (.ret true) ∧
    decodeWord 0x87000003 = some (.yield true) ∧
    decodeWord 0x87000005 = some (.cnop true) ∧
    decodeWord 0x87000004 = some (.hbeat true) ∧
    decodeWord 0x88019600 = some (.sendw true 6 11) ∧
    decodeWord 0x88019610 = some (.sendv true 6 11) ∧
    decodeWord 0x88019620 = some (.sendc true 6 11) ∧
    decodeWord 0x88A80035 = some (.recvw true 21 5) ∧
    decodeWord 0x88A80045 = some (.recvv true 21 5) ∧
    decodeWord 0x88A84050 = some (.ptest true 21 1) ∧
    decodeWord 0x08000060 = some (.waitw) := by
  decide

/-- R398, R230, R401, R402, R322, R323, R409, R406, R407, R408, R410: the words of the opcode map. -/
theorem test_decode_02 :
    decodeWord 0x89A80000 = some (.srr true 21 0) ∧
    decodeWord 0x89019000 = some (.srw true 6 0) ∧
    decodeWord 0x89A9A000 = some (.srset true 21 6 0) ∧
    decodeWord 0x89A9B000 = some (.srclr true 21 6 0) ∧
    decodeWord 0x0A000000 = some (.eret) ∧
    decodeWord 0x8A000001 = some (.icinv true) ∧
    decodeWord 0x8A018002 = some (.sighost true 6) ∧
    decodeWord 0x0B00004D = some (.trap 77) ∧
    decodeWord 0x0E00004D = some (.ppt 77) ∧
    decodeWord 0x8CA98005 = some (.dsread true 21 6 5) ∧
    decodeWord 0x8CA99615 = some (.dsprobe true 21 6 11 5) ∧
    decodeWord 0x8C018020 = some (.dsdone true 6) ∧
    decodeWord 0x8C018030 = some (.dsclr true 6) ∧
    decodeWord 0x8C018040 = some (.dsbcast true 6) ∧
    decodeWord 0x8C018050 = some (.dsstab true 6) ∧
    decodeWord 0x8C018060 = some (.dsrel true 6) := by
  decide

/-- R405, R411: the words of the opcode map. -/
theorem test_decode_03 :
    decodeWord 0x8CA80075 = some (.dspoll true 21 5) ∧
    decodeWord 0x8DA98005 = some (.spltake true 21 6 5) ∧
    decodeWord 0x8D018010 = some (.lbsend true 6) ∧
    decodeWord 0x8D000020 = some (.splend true) := by
  decide

/-- R338: the words of the opcode map. -/
theorem test_decode_04 :
    decodeWord 0x90A984D5 = some (.ldBu true 21 6 77 5) ∧
    decodeWord 0x90A98CD5 = some (.ldHu true 21 6 77 5) ∧
    decodeWord 0x90A994D5 = some (.ldWu true 21 6 77 5) ∧
    decodeWord 0x90A99CD5 = some (.ldD true 21 6 77 5) ∧
    decodeWord 0x90A9A4D5 = some (.ldB true 21 6 77 5) ∧
    decodeWord 0x90A9ACD5 = some (.ldH true 21 6 77 5) ∧
    decodeWord 0x90A9B4D5 = some (.ldW true 21 6 77 5) ∧
    decodeWord 0x91A984D0 = some (.stB true 21 6 77) ∧
    decodeWord 0x91A98CD0 = some (.stH true 21 6 77) ∧
    decodeWord 0x91A994D0 = some (.stW true 21 6 77) ∧
    decodeWord 0x91A99CD0 = some (.stD true 21 6 77) ∧
    decodeWord 0x92A99605 = some (.ldxBu true 21 6 11 5) ∧
    decodeWord 0x92A99615 = some (.ldxHu true 21 6 11 5) ∧
    decodeWord 0x92A99625 = some (.ldxWu true 21 6 11 5) ∧
    decodeWord 0x92A99635 = some (.ldxD true 21 6 11 5) ∧
    decodeWord 0x92A99645 = some (.ldxB true 21 6 11 5) := by
  decide

/-- R338, R340, R342, R343: the words of the opcode map. -/
theorem test_decode_05 :
    decodeWord 0x92A99655 = some (.ldxH true 21 6 11 5) ∧
    decodeWord 0x92A99665 = some (.ldxW true 21 6 11 5) ∧
    decodeWord 0x92A99680 = some (.stxB true 21 6 11) ∧
    decodeWord 0x92A99690 = some (.stxH true 21 6 11) ∧
    decodeWord 0x92A996A0 = some (.stxW true 21 6 11) ∧
    decodeWord 0x92A996B0 = some (.stxD true 21 6 11) ∧
    decodeWord 0x93A984D5 = some (.vld true 21 6 77 5) ∧
    decodeWord 0x93A98CD0 = some (.vst true 21 6 77) ∧
    decodeWord 0x94A996E5 = some (.vgath true 21 6 11 3 2 5) ∧
    decodeWord 0x95A996E0 = some (.vscat true 21 6 11 3 2) ∧
    decodeWord 0x96A980E5 = some (.vldm true 21 6 3 2 5) ∧
    decodeWord 0x97A980E0 = some (.vstm true 21 6 3 2) ∧
    decodeWord 0x98A98005 = some (.ldfe true 21 6 5) ∧
    decodeWord 0x98A98015 = some (.ldff true 21 6 5) ∧
    decodeWord 0x98A98020 = some (.stfe true 21 6) ∧
    decodeWord 0x98A98030 = some (.stff true 21 6) := by
  decide

/-- R346, R349, R350: the words of the opcode map. -/
theorem test_decode_06 :
    decodeWord 0x99A99845 = some (.amoadd true 21 6 .dev true 5) ∧
    decodeWord 0x99A998C5 = some (.amoand true 21 6 .dev true 5) ∧
    decodeWord 0x99A99945 = some (.amoor true 21 6 .dev true 5) ∧
    decodeWord 0x99A999C5 = some (.amoxor true 21 6 .dev true 5) ∧
    decodeWord 0x99A99A45 = some (.amosmax true 21 6 .dev true 5) ∧
    decodeWord 0x99A99AC5 = some (.amosmin true 21 6 .dev true 5) ∧
    decodeWord 0x99A99B45 = some (.amoumax true 21 6 .dev true 5) ∧
    decodeWord 0x99A99BC5 = some (.amoumin true 21 6 .dev true 5) ∧
    decodeWord 0x99A99C45 = some (.amoswap true 21 6 .dev true 5) ∧
    decodeWord 0x99519CC5 = some (.amocas true 5 6 .dev true 5) ∧
    decodeWord 0x9AA98005 = some (.ldlkW true 21 6 5) ∧
    decodeWord 0x9AA98015 = some (.ldlkD true 21 6 5) ∧
    decodeWord 0x9AA99625 = some (.stckW true 21 6 11 5) ∧
    decodeWord 0x9AA99635 = some (.stckD true 21 6 11 5) ∧
    decodeWord 0x9BA990C5 = some (.ldacq true 21 6 1 .dev 5) ∧
    decodeWord 0x9CA990C0 = some (.strel true 21 6 1 .dev) := by
  decide

/-- R353, R354, R357, R358, R359, R360, R389, R388, R390, R89, R392, R393: the words of the opcode map. -/
theorem test_decode_07 :
    decodeWord 0x9D0010C0 = some (.fence true .rel .dev) ∧
    decodeWord 0x9EA99605 = some (.waita true 21 6 11 5) ∧
    decodeWord 0x9F019600 = some (.barinit true 6 11) ∧
    decodeWord 0x9F019610 = some (.barexpect true 6 11) ∧
    decodeWord 0x9F019620 = some (.bararrive true 6 11) ∧
    decodeWord 0x9F019630 = some (.waitbar true 6 11) ∧
    decodeWord 0x9FA98045 = some (.barread true 21 6 5) ∧
    decodeWord 0xA0A99600 = some (.cpyb true 21 6 11) ∧
    decodeWord 0xA0018010 = some (.cpyt true 6) ∧
    decodeWord 0xA1018000 = some (.mlong true 6) ∧
    decodeWord 0xA0019620 = some (.cpyth true 6 11) ∧
    decodeWord 0xA1019610 = some (.mlongh true 6 11) ∧
    decodeWord 0xA1019630 = some (.bmvjh true 6 11) ∧
    decodeWord 0xA1018020 = some (.bmvj true 6) ∧
    decodeWord 0xA2C98000 = some (.fbind true 1 6) ∧
    decodeWord 0xA2C80001 = some (.funbind true 1) := by
  decide

/-- R394, R274, R276, R396, R397, R419, R422, R421: the words of the opcode map. -/
theorem test_decode_08 :
    decodeWord 0xA3018000 = some (.sbpulse true 6) ∧
    decodeWord 0xA3018001 = some (.sbclr true 6) ∧
    decodeWord 0xA4018005 = some (.capsend true 6 5) ∧
    decodeWord 0xA4018010 = some (.capret true 6) ∧
    decodeWord 0xA4018020 = some (.capdrop true 6) ∧
    decodeWord 0xA4019630 = some (.capdead true 6 11) ∧
    decodeWord 0xA5A98000 = some (.cappop true 21 6) ∧
    decodeWord 0xA5019601 = some (.cappush true 6 11) ∧
    decodeWord 0xA5019732 = some (.capset true 6 11 19) ∧
    decodeWord 0xA5A98133 = some (.capget true 21 6 19) ∧
    decodeWord 0xA5019604 = some (.capskip true 6 11) ∧
    decodeWord 0xACD19625 = some (.mma true 13 6 11 2 5) ∧
    decodeWord 0xADD19625 = some (.mmaz true 13 6 11 2 5) ∧
    decodeWord 0xAE61B425 = some (.zrd true 12 6 13 .i32 5) ∧
    decodeWord 0xAE61B525 = some (.zwr true 12 6 13 .i32 5) ∧
    decodeWord 0xAE003605 = some (.mclr true 13 5) := by
  decide

/-- R420, R428, R429, R430, R431, R416: the words of the opcode map. -/
theorem test_decode_09 :
    decodeWord 0xAFA99730 = some (.medge true 21 6 11 19) ∧
    decodeWord 0xB0D64405 = some (.mlu true 13 12 17 5) ∧
    decodeWord 0xB0D00015 = some (.mchol true 13 5) ∧
    decodeWord 0xB0DC0025 = some (.mqr true 13 12 5) ∧
    decodeWord 0xB1D94005 = some (.mtrsm true 13 9 false true false 5) ∧
    decodeWord 0xB2018000 = some (.mfmt true 6) ∧
    decodeWord 0xB2018001 = some (.mctld true 6) ∧
    decodeWord 0xB2019602 = some (.mctset true 6 11) := by
  decide

/-- R305: the words of the opcode map. -/
theorem test_decode_10 :
    decodeWord 0x40A99600 = some (.add 21 6 11) ∧
    decodeWord 0x40A99601 = some (.sub 21 6 11) ∧
    decodeWord 0x40A99602 = some (.and 21 6 11) ∧
    decodeWord 0x40A99603 = some (.or 21 6 11) ∧
    decodeWord 0x40A99604 = some (.xor 21 6 11) ∧
    decodeWord 0x40A99605 = some (.andn 21 6 11) ∧
    decodeWord 0x40A99606 = some (.sll 21 6 11) ∧
    decodeWord 0x40A99607 = some (.srl 21 6 11) ∧
    decodeWord 0x40A99608 = some (.sra 21 6 11) ∧
    decodeWord 0x40A99609 = some (.rol 21 6 11) ∧
    decodeWord 0x40A9960A = some (.ror 21 6 11) ∧
    decodeWord 0x40A9960B = some (.slt 21 6 11) ∧
    decodeWord 0x40A9960C = some (.sltu 21 6 11) ∧
    decodeWord 0x40A9960D = some (.seq 21 6 11) := by
  decide

/-- R306: the words of the opcode map. -/
theorem test_decode_11 :
    decodeWord 0x41A99600 = some (.min 21 6 11) ∧
    decodeWord 0x41A99601 = some (.max 21 6 11) ∧
    decodeWord 0x41A99602 = some (.minu 21 6 11) ∧
    decodeWord 0x41A99603 = some (.maxu 21 6 11) ∧
    decodeWord 0x41A99604 = some (.mul 21 6 11) ∧
    decodeWord 0x41A99605 = some (.mulh 21 6 11) ∧
    decodeWord 0x41A99606 = some (.mulhu 21 6 11) ∧
    decodeWord 0x41A99607 = some (.div 21 6 11) ∧
    decodeWord 0x41A99608 = some (.divu 21 6 11) ∧
    decodeWord 0x41A99609 = some (.rem 21 6 11) ∧
    decodeWord 0x41A9960A = some (.remu 21 6 11) ∧
    decodeWord 0x41A9960B = some (.add32 21 6 11) ∧
    decodeWord 0x41A9960C = some (.sub32 21 6 11) ∧
    decodeWord 0x41A9960D = some (.mul32 21 6 11) := by
  decide

/-- R307: the words of the opcode map. -/
theorem test_decode_12 :
    decodeWord 0x42A99730 = some (.madd 21 6 11 19) ∧
    decodeWord 0x42A99731 = some (.msub 21 6 11 19) ∧
    decodeWord 0x42A99732 = some (.csel 21 6 11 19) ∧
    decodeWord 0x42A98003 = some (.clz 21 6) ∧
    decodeWord 0x42A98004 = some (.ctz 21 6) ∧
    decodeWord 0x42A98005 = some (.popc 21 6) ∧
    decodeWord 0x42A98006 = some (.bswap 21 6) ∧
    decodeWord 0x42A98007 = some (.sextB 21 6) ∧
    decodeWord 0x42A98008 = some (.sextH 21 6) ∧
    decodeWord 0x42A98009 = some (.sextW 21 6) ∧
    decodeWord 0x42A9800A = some (.zextW 21 6) := by
  decide

/-- R308, R291: the words of the opcode map. -/
theorem test_decode_13 :
    decodeWord 0x43A9804D = some (.addi 21 6 77) ∧
    decodeWord 0x44A9804D = some (.andi 21 6 77) ∧
    decodeWord 0x45A9804D = some (.ori 21 6 77) ∧
    decodeWord 0x46A9804D = some (.xori 21 6 77) ∧
    decodeWord 0x47A98025 = some (.slli 21 6 37) ∧
    decodeWord 0x47A99025 = some (.srli 21 6 37) ∧
    decodeWord 0x47A9A025 = some (.srai 21 6 37) ∧
    decodeWord 0x47A9B025 = some (.rori 21 6 37) ∧
    decodeWord 0x48A9804D = some (.slti 21 6 77) ∧
    decodeWord 0x49A9804D = some (.sltiu 21 6 77) ∧
    decodeWord 0x4AA8004D = some (.movhi 21 77) ∧
    decodeWord 0x4BA8004D = some (.insh 21 77) := by
  decide

/-- R310: the words of the opcode map. -/
theorem test_decode_14 :
    decodeWord 0x50A99600 = some (.fadd 21 6 11) ∧
    decodeWord 0x50A99601 = some (.fsub 21 6 11) ∧
    decodeWord 0x50A99602 = some (.fmul 21 6 11) ∧
    decodeWord 0x50A99603 = some (.fdiv 21 6 11) ∧
    decodeWord 0x50A98004 = some (.fsqrt 21 6) ∧
    decodeWord 0x50A99605 = some (.fmin 21 6 11) ∧
    decodeWord 0x50A99606 = some (.fmax 21 6 11) ∧
    decodeWord 0x50A98007 = some (.fneg 21 6) ∧
    decodeWord 0x50A98008 = some (.fabs 21 6) ∧
    decodeWord 0x50A99609 = some (.fcpsgn 21 6 11) ∧
    decodeWord 0x50A9960A = some (.fcmeq 21 6 11) ∧
    decodeWord 0x50A9960B = some (.fcmlt 21 6 11) ∧
    decodeWord 0x50A9960C = some (.fcmle 21 6 11) ∧
    decodeWord 0x51A99730 = some (.ffma 21 6 11 19) ∧
    decodeWord 0x51A99731 = some (.ffms 21 6 11 19) ∧
    decodeWord 0x51A99732 = some (.ffnma 21 6 11 19) := by
  decide

/-- R310, R311, R367: the words of the opcode map. -/
theorem test_decode_15 :
    decodeWord 0x51A99733 = some (.ffnms 21 6 11 19) ∧
    decodeWord 0x52A9A602 = some (.fconv 21 6 .f16 2 false .i32) ∧
    decodeWord 0x53A9AA0A = some (.frint 21 6 2) ∧
    decodeWord 0x54A996C2 = some (.vadd 21 6 11 3 .i32) ∧
    decodeWord 0x54A996D2 = some (.vadds 21 6 11 3 .i32) ∧
    decodeWord 0x55A996C2 = some (.vsub 21 6 11 3 .i32) ∧
    decodeWord 0x55A996D2 = some (.vsubs 21 6 11 3 .i32) ∧
    decodeWord 0x56A996C2 = some (.vmul 21 6 11 3 .i32) ∧
    decodeWord 0x56A996D2 = some (.vmulh 21 6 11 3 .i32) ∧
    decodeWord 0x57A996C2 = some (.vdiv 21 6 11 3 .i32) ∧
    decodeWord 0x58A996C2 = some (.vmin 21 6 11 3 .i32) ∧
    decodeWord 0x58A996D2 = some (.vmax 21 6 11 3 .i32) ∧
    decodeWord 0x5FA980CA = some (.vsqrt 21 6 3 .f32) := by
  decide

/-- R368, R369, R370: the words of the opcode map. -/
theorem test_decode_16 :
    decodeWord 0x59A996CA = some (.vfma 21 6 11 3 .f32) ∧
    decodeWord 0x59A996DA = some (.vfms 21 6 11 3 .f32) ∧
    decodeWord 0x59A996EA = some (.vfnma 21 6 11 3 .f32) ∧
    decodeWord 0x59A996FA = some (.vfnms 21 6 11 3 .f32) ∧
    decodeWord 0x5AA996C2 = some (.vand 21 6 11 3 .i32) ∧
    decodeWord 0x5AA996D2 = some (.vor 21 6 11 3 .i32) ∧
    decodeWord 0x5AA996E2 = some (.vxor 21 6 11 3 .i32) ∧
    decodeWord 0x5AA996F2 = some (.vandn 21 6 11 3 .i32) ∧
    decodeWord 0x5BA996C2 = some (.vshl 21 6 11 3 .i32) ∧
    decodeWord 0x5BA996D2 = some (.vshr 21 6 11 3 .i32) ∧
    decodeWord 0x5BA996E2 = some (.vsra 21 6 11 3 .i32) ∧
    decodeWord 0x5BA996F2 = some (.vrol 21 6 11 3 .i32) ∧
    decodeWord 0x5C2996C2 = some (.vcmpeq 5 6 11 3 .i32) ∧
    decodeWord 0x5C2996D2 = some (.vcmpne 5 6 11 3 .i32) ∧
    decodeWord 0x5C2996E2 = some (.vcmplt 5 6 11 3 .i32) ∧
    decodeWord 0x5C2996F2 = some (.vcmple 5 6 11 3 .i32) := by
  decide

/-- R371, R375, R248, R249, R250, R251, R385, R382: the words of the opcode map. -/
theorem test_decode_17 :
    decodeWord 0x5DA996C2 = some (.vsel 21 6 11 3 .i32) ∧
    decodeWord 0x5EA980C2 = some (.vneg 21 6 3 .i32) ∧
    decodeWord 0x5EA980D2 = some (.vabs 21 6 3 .i32) ∧
    decodeWord 0x5EA996EA = some (.vcpsgn 21 6 11 3 .f32) ∧
    decodeWord 0x5EA980F2 = some (.vmov 21 6 3 .i32) ∧
    decodeWord 0x60A980CA = some (.vexp2 21 6 3 .f32) ∧
    decodeWord 0x60A980DA = some (.vlog2 21 6 3 .f32) ∧
    decodeWord 0x60A980EA = some (.vrcp 21 6 3 .f32) ∧
    decodeWord 0x60A980FA = some (.vrsqrt 21 6 3 .f32) ∧
    decodeWord 0x61A996C6 = some (.vmix32 21 6 11 3) ∧
    decodeWord 0x61A996DA = some (.vmix32u 21 6 11 3) ∧
    decodeWord 0x615196EA = some (.vmix32r 5 6 11 3) ∧
    decodeWord 0x62A980C2 = some (.vrsum 21 6 3 .i32) ∧
    decodeWord 0x62A980D2 = some (.vrmax 21 6 3 .i32) ∧
    decodeWord 0x62A980E2 = some (.vrmin 21 6 3 .i32) := by
  decide

/-- R383, R376, R377, R379, R380, R381: the words of the opcode map. -/
theorem test_decode_18 :
    decodeWord 0x63A980C2 = some (.vscsum 21 6 3 .i32) ∧
    decodeWord 0x63A980D2 = some (.vscmax 21 6 3 .i32) ∧
    decodeWord 0x63A980E2 = some (.vscmin 21 6 3 .i32) ∧
    decodeWord 0x64A996C2 = some (.vperm 21 6 11 3 .i32) ∧
    decodeWord 0x64A980D2 = some (.vcompr 21 6 3 .i32) ∧
    decodeWord 0x65A980C2 = some (.vbcast 21 6 3 .i32) ∧
    decodeWord 0x65A996D2 = some (.vsplat 21 6 11 3 .i32) ∧
    decodeWord 0x66A99602 = some (.vins 21 6 11 .i32) ∧
    decodeWord 0x66A99612 = some (.vext 21 6 11 .i32) ∧
    decodeWord 0x67A9A02A = some (.vcvt 21 6 .bf16 0 false false 2 .f32) ∧
    decodeWord 0x68A9960A = some (.vqblkSb8 21 6 2 false) ∧
    decodeWord 0x68A99A0A = some (.vqblkSb4 21 6 2 false) ∧
    decodeWord 0x69A9A805 = some (.vdqblkSb8 21 6) ∧
    decodeWord 0x69A9A806 = some (.vdqblkSb4 21 6) := by
  decide

/-- R372, R373, R374: the words of the opcode map. -/
theorem test_decode_19 :
    decodeWord 0x6A298600 = some (.mand 5 6 3) ∧
    decodeWord 0x6A298610 = some (.mor 5 6 3) ∧
    decodeWord 0x6A298620 = some (.mxor 5 6 3) ∧
    decodeWord 0x6A298630 = some (.mandn 5 6 3) ∧
    decodeWord 0x6BA98000 = some (.mtog 21 6) ∧
    decodeWord 0x6B298010 = some (.gtom 5 6) ∧
    decodeWord 0x6BA98022 = some (.mpopc 21 6 .i32) ∧
    decodeWord 0x6BA98032 = some (.mfirst 21 6 .i32) ∧
    decodeWord 0x6CA800C2 = some (.viota 21 3 .i32) := by
  decide

/-- R386: the words of the opcode map. -/
theorem test_decode_20 :
    decodeWord 0x78A996CB = some (.vaddF64 21 6 11 3) ∧
    decodeWord 0x78A996DB = some (.vsubF64 21 6 11 3) ∧
    decodeWord 0x78A996EB = some (.vmulF64 21 6 11 3) ∧
    decodeWord 0x78A996FB = some (.vdivF64 21 6 11 3) ∧
    decodeWord 0x79A996CB = some (.vfmaF64 21 6 11 3) ∧
    decodeWord 0x79A996DB = some (.vfmsF64 21 6 11 3) ∧
    decodeWord 0x79A996EB = some (.vfnmaF64 21 6 11 3) ∧
    decodeWord 0x79A996FB = some (.vfnmsF64 21 6 11 3) ∧
    decodeWord 0x7AA996CB = some (.vminF64 21 6 11 3) ∧
    decodeWord 0x7AA996DB = some (.vmaxF64 21 6 11 3) ∧
    decodeWord 0x7AA980EB = some (.vsqrtF64 21 6 3) ∧
    decodeWord 0x7AA980FB = some (.vrsumF64 21 6 3) ∧
    decodeWord 0x7BA9AC22 = some (.vcvtF64 21 6 .f64 0 false false 2 .i32) := by
  decide
/-! ## Words that the spec's listings print (chapters 14 to 22) -/

theorem test_listing_scalar :
    decodeWord 0x40A00003 = some (.or 20 0 0) ∧ decodeWord 0x4318C008 = some (.addi 3 3 8) ∧ decodeWord 0x4173A008 = some (.divu 14 14 16) ∧
    decodeWord 0x40B82E0C = some (.sltu 23 0 23) ∧ decodeWord 0x41CDF402 = some (.minu 25 23 26) ∧ decodeWord 0x02DFFFF3 = some (.bdec false 27 255 0x7F3) ∧
    decodeWord 0x0B000001 = some (.trap 1) ∧ decodeWord 0x08000060 = some .waitw ∧ decodeWord 0x0E000000 = some (.ppt 0) ∧
    decodeWord 0x09051100 = some (.srw false 20 0x100) := by decide
theorem test_listing_memory :
    decodeWord 0x10B34000 = some (.ldBu false 22 13 0 0) ∧ decodeWord 0x12C32C60 = some (.ldxW false 24 12 22 0) ∧
    decodeWord 0x12C32CA0 = some (.stxW false 24 12 22) ∧ decodeWord 0x1BAAF100 = some (.ldacq false 21 11 3 .sys 0) ∧
    decodeWord 0x1C72F100 = some (.strel false 14 11 3 .sys) ∧ decodeWord 0x1EA2EA00 = some (.waita false 20 11 21 0) ∧
    decodeWord 0x18CC8000 = some (.ldfe false 25 18 0) ∧ decodeWord 0x18CC4020 = some (.stfe false 25 17) ∧
    decodeWord 0x1F056C00 = some (.barinit false 21 22) ∧ decodeWord 0x1F067420 = some (.bararrive false 25 26) ∧
    decodeWord 0x1FBD4040 = some (.barread false 23 21 0) ∧ decodeWord 0x140D0620 = some (.vgath false 1 20 3 0 2 0) := by decide
theorem test_listing_engines :
    decodeWord 0x2102C010 = some (.mlongh false 11 0) ∧ decodeWord 0x21058020 = some (.bmvj false 22) ∧ decodeWord 0x2505A804 = some (.capskip false 22 20) ∧
    decodeWord 0x24058000 = some (.capsend false 22 0) ∧ decodeWord 0x2405B830 = some (.capdead false 22 28) ∧
    decodeWord 0x2D110A62 = some (.mmaz false 1 4 5 6 2) ∧ decodeWord 0x2E4244A1 = some (.zrd false 8 9 1 .f32 1) ∧
    decodeWord 0x2E0D41A0 = some (.zwr false 1 21 0 .f32 0) ∧ decodeWord 0x30300010 = some (.mchol false 3 0) ∧
    decodeWord 0x3154E000 = some (.mtrsm false 5 4 true true true 0) ∧ decodeWord 0x32050000 = some (.mfmt false 20) := by decide
theorem test_listing_vector :
    decodeWord 0x6515000A = some (.vbcast 2 20 0 .f32) ∧ decodeWord 0x5C08823A = some (.vcmple 1 2 1 0 .f32) ∧
    decodeWord 0x6418405A = some (.vcompr 3 1 1 .f32) ∧ decodeWord 0x6220401A = some (.vrmax 4 1 0 .f32) ∧ 
    decodeWord 0x6B20402A = some (.mpopc 4 1 .f32) ∧ decodeWord 0x7B106C03 = some (.vcvtF64 2 1 .f64 0 false false 0 .i64) ∧
    decodeWord 0x7918840B = some (.vfmaF64 3 2 2 0) ∧ decodeWord 0x6331408A = some (.vscsum 6 5 2 .f32) := by decide

/-! ## Single instructions (expected values by hand from the rules) -/

/-- What a unit leaves of its thread. -/
def after (i : Instr) (s : State) : Thread :=
  match exec i s with
  | .next s' => (s'.thr s.unit.tk).getD {}
  | _ => { pc := 0xBAD }

theorem test_add_wraps : (after (.add 3 1 2) (user (thread [(1, 0xFFFFFFFFFFFFFFFF), (2, 2)]))).rg 3 = 1 := by decide
theorem test_add_g0 : (after (.add 0 1 2) (user (thread [(1, 1), (2, 2)]))).rg 0 = 0 := by decide
theorem test_div_overflow : (after (.div 3 1 2) (user (thread [(1, 0x8000000000000000), (2, 0xFFFFFFFFFFFFFFFF)]))).rg 3 = 0x8000000000000000 := by decide
theorem test_rem_sign : (after (.rem 3 1 2) (user (thread [(1, 0xFFFFFFFFFFFFFFF9), (2, 3)]))).rg 3 = 0xFFFFFFFFFFFFFFFF := by decide
theorem test_mulh_signs : (after (.mulh 3 1 2) (user (thread [(1, 0xFFFFFFFFFFFFFFFF), (2, 5)]))).rg 3 = 0xFFFFFFFFFFFFFFFF := by decide
theorem test_sra_by_64 : (after (.sra 3 1 2) (user (thread [(1, 0x8000000000000000), (2, 64)]))).rg 3 = 0x8000000000000000 := by decide
theorem test_movhi_sign : (after (.movhi 3 0x40000) (user (thread []))).rg 3 = 0xFFFFFFFF80000000 := by decide
theorem test_msub_order : (after (.msub 3 1 2 4) (user (thread [(1, 5), (2, 6), (4, 31)]))).rg 3 = 1 := by decide
/-- The loop's BNE of chapter 14: from 0x18 back to 0x08. -/
theorem test_bne_back :
    (after (.bne false 4 0 0x7FC) { user (thread [(4, 1)]) with unit := { tk := 1024, addr := 0x18, core := 0 } }).pc = 8 := by decide
theorem test_call_pushes : (after (.call false 4) (user (thread []))).retStore = [0x1004] := by decide
theorem test_trap_entry :
    let t := after (.trap 77) (user { thread [] with trapvec := 0x4000, priv := 1 })
    t.pc = 0x4000 ∧ t.trappc = 0x1000 ∧ t.trapval = 77 ∧ t.trapstatus = 5 ∧ t.priv = 1 := by decide
theorem test_eret :
    let t := after .eret (user { thread [] with trapstatus := 4, trappc := 0x2000, priv := 1 })
    t.pc = 0x2000 ∧ t.priv = 0 ∧ t.trapstatus = 0 := by decide
/-- The example of R420. -/
theorem test_medge_example :
    (after (.medge false 3 10 11 12) (user { thread [(10, 70), (11, 40), (12, 100)] with fmtctx := 0x60060000, geom1 := 0x20001 })).rg 3 =
      0x0000040002064206 := by decide
theorem test_ld_sign :
    (after (.ldB false 3 1 0 0) (userPool (thread [(1, sp 0x3000)]) 0x3000 [0x80])).rg 3 = 0xFFFFFFFFFFFFFF80 := by decide
theorem test_ld_order :
    (after (.ldHu false 3 1 1 0) (userPool (thread [(1, sp 0x3000)]) 0x3000 [1, 2, 3, 4])).rg 3 = 0x0403 := by decide
theorem test_amoadd_old :
    let s := userPool (thread [(1, sp 0x3000), (3, 5)]) 0x3000 [0xFF, 0xFF, 0xFF, 0xFF]
    (after (.amoadd false 3 1 .thr false 0) s).rg 3 = 0xFFFFFFFFFFFFFFFF ∧
      (match exec (.amoadd false 3 1 .thr false 0) s with | .next u => u.poolRead 64 0x3000 8 | _ => 0) = 4 := by decide

/-- The lanes of the worked case of chapter 17: 3.0, −1.0, 7.5, 7.5, 0.0, 2.0, 7.5, −0.0, 1.0, 4.0, 5.0, 6.0, 0.5, 0.25, 7.0, 3.5. -/
def lanes17 : Vec := BitVec.ofNat 512 (image ((List.range 16).zip [0x40400000, 0xBF800000, 0x40F00000, 0x40F00000, 0, 0x40000000, 0x40F00000, 0x80000000,
  0x3F800000, 0x40800000, 0x40A00000, 0x40C00000, 0x3F000000, 0x3E800000, 0x40E00000, 0x40600000] |>.map fun e => (32 * e.1, e.2)))
/-- v1 holds them, v2 is 5.0 in every lane, v3 is what VCOMPR leaves, and m1 is what VCMPLE leaves. -/
def thread17 : Thread := { thread [(20, 0x40A00000)] with
  v := [(1, lanes17), (2, BitVec.ofNat 512 (image ((List.range 16).map fun k => (32 * k, 0x40A00000))))], m := [(1, 0x4C4C)] }

theorem test_vcmple_example : (after (.vcmple 1 2 1 0 .f32) (user thread17)).rm 1 = 0x4C4C := by decide
theorem test_vcompr_example :
    let v := (after (.vcompr 3 1 1 .f32) (user thread17)).rv 3
    (List.range 16).map (lane 32 v) = [0x40F00000, 0x40F00000, 0x40F00000, 0x40A00000, 0x40C00000, 0x40E00000] ++ List.replicate 10 0 := by decide
theorem test_vrmax_example : (after (.vrmax 4 1 0 .f32) (user thread17)).rv 4 = BitVec.ofNat 512 (0x40F00000 + 2 * 2 ^ 64) := by decide
theorem test_mpopc_example : (after (.mpopc 4 1 .f32) (user thread17)).rg 4 = 6 := by decide
theorem test_vbcast_example : lane 32 ((after (.vbcast 2 20 0 .f32) (user thread17)).rv 2) 15 = 0x40A00000 := by decide
/-- R379: the conversion of the same case goes to the upper half, and the lower half keeps its contents. -/
theorem test_vcvt_hi_example :
    let v := (after (.vcvt 5 1 .bf16 0 false true 0 .f32) (user thread17)).rv 5
    lane 16 v 0 = 0 ∧ lane 16 v 16 = 0x4040 ∧ lane 16 v 31 = 0x4060 := by decide
/-- The example of R245: the tree gives 16 777 218. -/
theorem test_vrsum_example :
    let x : Vec := BitVec.ofNat 512 (image [(0, 0x4B800000), (32, 0x3F800000), (32 * 9, 0x3F800000)])
    (after (.vrsum 4 1 0 .f32) (user { thread [] with v := [(1, x)] })).rv 4 = BitVec.ofNat 512 0x4B800001 := by decide
/-- The table of chapter 11: f32 to f8e4 under RNE. -/
theorem test_f8e4_examples :
    convert .f8e4 .f32 (Rm.ofCode 0) false 0x43E80000 = (0x7E, 16) ∧ (convert .f8e4 .f32 (Rm.ofCode 0) false 0x43EC0000).1 = 0x7F ∧
      (convert .f8e4 .f32 (Rm.ofCode 0) true 0x43EC0000).1 = 0x7E ∧ (convert .f8e4 .f32 (Rm.ofCode 0) true 0xFF800000) = (0xFE, 0) ∧
      (convert .f8e4 .f32 (Rm.ofCode 0) false 0xFF800000) = (0x7F, 1) := by decide
/-- The sb4 block of chapter 11: 3.0, 0.25, −0.2. -/
theorem test_vqblk_example :
    let x : Vec := BitVec.ofNat 512 (image [(0, 0x40400000), (32, 0x3E800000), (64, 0xBE4CCCCD)])
    let v := (after (.vqblkSb4 5 1 0 false) (user { thread [] with v := [(1, x)] })).rv 5
    byteAt v 0 = 0x1B ∧ byteAt v 1 = 0x05 ∧ byteAt v 2 = 0 ∧ byteAt v 48 = 0x7E ∧ byteAt v 49 = 0x80 := by decide

/-- R342: POISON of a gather names the lowest poisoned lane, whichever lane's data come first. -/
theorem test_gather_poison_lowest :
    ((({ lanes := [{}, { at_ := 8 }] } : Pending).fill 1 0 (some 0x80)).fill 0 0 (some 0x40)).poison = some 0x40 := by decide

/-! ## One step from reset -/

/-- ADDI g5, g0, 7 as the first instruction after reset, by `step`: the word is fetched, decoded and run. -/
theorem test_step_runs_addi :
    (match step (State.reset.withFetchWord 32 (0x40000000 + 3 * 2 ^ 24 + 5 * 2 ^ 19 + 7)) with
      | .next s => (s.thr svcKey).map fun t => (t.rg 5, t.pc)
      | _ => none) = some (7, 4) := by decide

/-! ## Witnesses: scalar and vector instructions, control flow -/

theorem meets_ScalarIntegerResults : Alone (user (thread [])) (thread []) := alone_user _ rfl rfl rfl
theorem meets_ScalarFloatResults : Alone (user (thread [])) (thread []) ∧ fpTen (thread []).fpcsr = 0 :=
  ⟨alone_user _ rfl rfl rfl, by decide⟩
/-- The hypotheses of the statements about vector instructions, the F64V forms among them; a mask with no active lane, and the highest
lane of i8 active alone. -/
theorem meets_VectorLaneResults :
    Alone (user (thread [])) (thread []) ∧ fpTen (thread []).fpcsr = 0 ∧ Ty.isI .n64 = true ∧ Ty.isI .f8e4 = false ∧ Ty.f8e4 ≠ .f64 ∧
      (user (thread [])).hasF64v 0 = true ∧ Ty.isI .f32 = false := ⟨alone_user _ rfl rfl rfl, by decide⟩
theorem meets_VectorMoveResults : Alone (user (thread [])) (thread []) ∧ fpTen (thread []).fpcsr = 0 :=
  ⟨alone_user _ rfl rfl rfl, by decide⟩
theorem meets_VectorReductionAndScanResults :
    let t : Thread := { thread [] with m := [(1, 0x8000000000000000)] }
    Alone (user t) t ∧ fpTen t.fpcsr = 0 ∧ (List.range (512 / Ty.width .i8)).filter (t.active 1) = [63] ∧
      (List.range (512 / Ty.width .i8)).filter (t.active 2) = [] ∧ (∃ k < 64, t.active 1 k = true) ∧ Ty.isI .i8 = true :=
  ⟨alone_user _ rfl rfl rfl, by decide, by decide, by decide, ⟨63, by decide, by decide⟩, rfl⟩
theorem meets_VectorConversionAndBlockResults :
    Alone (user (thread [])) (thread []) ∧ fpTen (thread []).fpcsr = 0 ∧ (user (thread [])).hasF64v 0 = true :=
  ⟨alone_user _ rfl rfl rfl, by decide⟩
theorem meets_BranchResults :
    let t := thread [(1, 0x1003), (2, 0x1004), (3, sp 0x2000), (4, sp 0x1FFF8)]
    Alone (user t) t ∧ t.rg 1 ≠ t.rg 2 ∧ t.rg 1 = t.rg 1 ∧ (t.rg 1).extractLsb' 0 2 ≠ 0 ∧ (t.rg 2).extractLsb' 0 2 = 0 ∧ isSp (t.rg 1) = false ∧
      (user t).target 1024 (t.rg 3) 8 8 false true = .ok (.pool 64 0x2000) ∧
      (user t).target 1024 (t.rg 4) 8 8 false true = .ok (.pool 64 0x1FFF8) ∧ (user t).isLocal 64 = true :=
  ⟨alone_user _ rfl rfl rfl, by decide, rfl, by decide, by decide, by decide, by rfl, by rfl, by decide⟩
/-- A store with 7 entries, a full one with room for one more spilled entry and with none, an empty one with a spilled entry and with none. -/
theorem meets_CallAndReturnResults :
    let full (limit : Word) : Thread := { thread [(1, 0x2000), (2, 0x2002)] with
      retStore := [4, 8, 12, 16, 20, 24, 28, 32], retbase := sp 0x3000, retsp := sp 0x3008, retlimit := limit }
    let empty (base : Word) : Thread := { thread [] with retbase := base, retsp := sp 0x3008, retlimit := sp 0x3010 }
    Alone (user (full (sp 0x3010))) (full (sp 0x3010)) ∧ (thread []).retStore.length < 8 ∧
      ((full 0).rg 1).extractLsb' 0 2 = 0 ∧ ((full 0).rg 2).extractLsb' 0 2 ≠ 0 ∧ (full 0).retStore = 4 :: [8, 12, 16, 20, 24, 28, 32] ∧
      ((full (sp 0x3010)).retsp.toNat + 8 ≤ (full (sp 0x3010)).retlimit.toNat ∧
        (user (full (sp 0x3010))).target 1024 (sp 0x3008) 8 8 true true = .ok (.pool 64 0x3008) ∧ (user (full (sp 0x3010))).isLocal 64 = true ∧
        (user (full (sp 0x3010))).jobHolds 1024 (.pool 64 0x3008) 8 true = false) ∧
      (full (sp 0x3008)).retlimit.toNat < (full (sp 0x3008)).retsp.toNat + 8 ∧
      ((empty (sp 0x3000)).retStore = [] ∧ (empty (sp 0x3000)).retbase.toNat < (empty (sp 0x3000)).retsp.toNat ∧
        (user (empty (sp 0x3000))).target 1024 ((empty (sp 0x3000)).retsp - 8) 8 8 true true = .ok (.pool 64 0x3000) ∧
        (user (empty (sp 0x3000))).poolPoison 64 0x3000 8 = none) ∧
      (empty (sp 0x3008)).retsp.toNat ≤ (empty (sp 0x3008)).retbase.toNat :=
  ⟨alone_user _ rfl rfl rfl, by decide, by decide, by decide, rfl, ⟨by decide, by rfl, by decide, by decide⟩, by decide,
    ⟨rfl, by decide, by rfl, by decide⟩, by decide⟩
theorem meets_ThreadControlResults :
    let t : Thread := { thread [] with lastIssue := some 96 }
    Alone (user t) t ∧ (∀ n, t.lastIssue = some n → n + 4 ≤ ((user t).clu 0).cycle.toNat) ∧ t.preempt = none :=
  ⟨alone_user _ rfl rfl rfl, by intro n h; cases h; decide, rfl⟩
theorem meets_TrapEntry :
    let t : Thread := { thread [] with trapvec := 0x4000 }
    let z : State := { threads := [(1024, some (thread []))] }
    (user t).thr 1024 = some t ∧ t.trapstatus.getLsbD 2 = false ∧ t.trapvec ≠ 0 ∧ Cause.fp < 256 ∧
      z.thr 1024 = some (thread []) ∧ (thread []).trapvec = 0 ∧ (thread []).holds = none ∧ z.region (regionOfCk (ckOfTk 1024)) = none :=
  ⟨rfl, by decide, by decide, by decide, rfl, rfl, rfl, rfl⟩
theorem meets_TrapReturn :
    let t : Thread := { thread [] with trapstatus := 5 }
    Alone (user t) t ∧ t.trapstatus.getLsbD 2 = true ∧ Alone (user (thread [])) (thread []) ∧ (thread []).trapstatus.getLsbD 2 = false :=
  ⟨alone_user _ rfl rfl rfl, by decide, alone_user _ rfl rfl rfl, by decide⟩
theorem meets_StateRegisterResults :
    let t : Thread := { thread [(1, 2), (2, 1)] with priv := 1 }
    Alone (user t) t ∧ t.priv ≠ 0 ∧ (t.rg 2).toNat % 4 ≤ t.priv.toNat ∧ t.priv.toNat < (t.rg 1).toNat % 4 ∧ (thread []).priv = 0 :=
  ⟨alone_user _ rfl rfl rfl, by decide, by decide, by decide, rfl⟩
theorem meets_SluiceResults :
    let t := thread [(1, 0xFF1F)]
    Alone (user t) t ∧ t.sbuf = [] ∧ t.remote = [] ∧ Tbl.wf 0 ((user t).cx 64).sbcnt = true ∧
      (0xFFFF : Word).toNat % 2 ^ 16 + 0 ≤ 0xFFFF ∧ 0xFFFF < (0xFFFF : Word).toNat % 2 ^ 16 + 1 :=
  ⟨alone_user _ rfl rfl rfl, rfl, rfl, by decide, by decide, by decide⟩

/-- A user message to thread 0 of the context core 64, on channel 0 or another. -/
def mail (ch : Nat) : Msg := { dst := 0, len := 8, data := some 7, ck := 64, region := 1, delivery := BitVec.ofNat 64 (32 * ch) }

theorem meets_MessageAndSystemResults :
    let t := thread [(1, 3), (2, 4), (3, sp 0x3000), (4, 65535)]
    let r := { user t with ctx := [(64, { inbox := [mail 0] })] }
    let k : Thread := { thread [(1, 1), (2, 2), (3, 2047)] with priv := 1 }
    Alone (user t) t ∧ t.send = none ∧ t.fenced = false ∧ (user t).destBad 64 t (t.rg 1) = false ∧ (user t).destBad 64 t (t.rg 2) = true ∧
      (user t).spDecode 64 (t.rg 3) = some (64, 0x3000) ∧ (t.rg 3).toNat % 128 = 0 ∧ isSp (t.rg 3) = true ∧ (t.rg 4).toNat ≤ 65535 ∧
      (r.firstMsg 1024 t 0 = some (mail 0) ∧ Alone r t) ∧ (user t).firstMsg 1024 t 0 = none ∧
      (t.trapstatus.getLsbD 2 = false ∧ t.holds = none ∧ t.roster = ckOfTk 1024) ∧
      t.priv = 0 ∧ k.priv ≠ 0 ∧ (k.rg 1).toNat < 2 ∧ 2 ≤ (k.rg 2).toNat ∧ (k.rg 3).toNat < 2048 :=
  ⟨alone_user _ rfl rfl rfl, rfl, rfl, by decide, by decide, by decide, by decide, by decide, by decide,
    ⟨by decide, rfl, rfl, rfl, rfl, rfl⟩, by decide, ⟨by decide, rfl, by decide⟩, rfl, by decide, by decide, by decide, by decide⟩

/-! ## Witnesses: accesses, synchronisation, engines -/

theorem meets_PoolAccessResults :
    let t := thread [(1, sp 0x2000), (2, 8), (3, sp 0x2001), (4, 0xFFFFFFFFF0000000), (5, sp 0x2FFC0)]
    let s := user t
    Alone s t ∧ s.target 1024 (sp 0x2000) 8 8 true true = .ok (.pool 64 0x2000) ∧ s.isLocal 64 = true ∧
      s.jobHolds 1024 (.pool 64 0x2000) 8 false = false ∧ s.jobHolds 1024 (.pool 64 0x2000) 8 true = false ∧
      t.remoteHolds (.pool 64 0x2000) = false ∧ s.poolPoison 64 0x2000 8 = none ∧
      s.target 1024 (sp 0x2001) 8 8 true true = .error Cause.align ∧ s.target 1024 (sp 0x1FFF) 1 1 true true = .error Cause.access ∧
      s.target 1024 (t.rg 4) 1 1 true true = .error Cause.access ∧ s.target 1024 (t.rg 5) 64 8 true true = .ok (.pool 64 0x2FFC0) ∧
      s.target 1024 (t.rg 5 + 8) 64 8 true true = .error Cause.access ∧ Canonical s ∧ t.sbuf = [] ∧ t.remote = [] :=
  ⟨alone_user _ rfl rfl rfl, by rfl, by decide, by decide, by decide, by decide, by decide, by rfl, by rfl, by rfl, by rfl, by rfl,
    ⟨by decide, by decide, by decide⟩, rfl, rfl⟩

/-- A service machine whose L1 holds line 0x40 in a state. -/
def withLine (t : Thread) (st : AState) : State := { service t with agents := [(0x40, { st := st, data := 5 })] }

theorem meets_MemoryAccessResults :
    let t := thread [(1, 0x1000)]
    Alone (withLine t .s) t ∧ t.st = .ready ∧ t.sbuf = [] ∧ t.remote = [] ∧
      (withLine t .s).target svcKey 0x1000 8 8 true true = .ok (.mem 0x1000) ∧
      (withLine t .s).xlatThread svcKey t 0x1000 true false false = .pa (withLine t .s) 0x1000 ∧
      (withLine t .m).xlatThread svcKey t 0x1000 false true false = .pa (withLine t .m) 0x1000 ∧
      (withLine t .s).jobHolds svcKey (.mem 0x1000) 8 true = false ∧
      ((withLine t .s).al 0 0x40).st.readable = true ∧ ((withLine t .s).al 0 0x40).poison = false ∧
      ((withLine t .e).al 0 0x40).st.writable = true ∧ ((service t).al 0 0x40).st = .i ∧
      (service t).xlatThread svcKey t 0x1000 true false false = .pa (service t) 0x1000 :=
  ⟨⟨rfl, rfl, rfl, rfl, rfl⟩, rfl, rfl, rfl, by rfl, xlat_service _ _ _ _ _ _ (by decide), xlat_service _ _ _ _ _ _ (by decide), by decide, by decide, by decide, by decide, by decide, xlat_service _ _ _ _ _ _ (by decide)⟩

theorem meets_VectorLaneAccessResults :
    let t : Thread := { thread [(1, sp 0x3000), (2, sp 0x3001)] with m := [(1, 0x8000000000000003), (2, 1)] }
    let s := user t
    Alone s t ∧ Canonical s ∧
      (∀ i < 64, (t.rm 1).getLsbD i = true → s.target 1024 (t.rg 1 + BitVec.ofNat 64 i) 1 1 true true = .ok (.pool 64 (0x3000 + i)) ∧
        s.isLocal 64 = true ∧ s.jobHolds 1024 (.pool 64 (0x3000 + i)) 1 true = false ∧ s.jobHolds 1024 (.pool 64 (0x3000 + i)) 1 false = false ∧
        t.remoteHolds (.pool 64 (0x3000 + i)) = false ∧ s.poolPoison 64 (0x3000 + i) 1 = none) ∧
      ((t.rm 2).getLsbD 0 = true ∧ s.target 1024 (t.rg 2 + BitVec.ofNat 64 (0 * 2)) 2 2 true true = .error Cause.align) := by
  refine ⟨alone_user _ rfl rfl rfl, ⟨by decide, by decide, by decide⟩, ?_, by decide, by rfl⟩
  intro i hi ha
  have h : i = 0 ∨ i = 1 ∨ i = 63 := by
    revert ha; revert i; decide
  rcases h with rfl | rfl | rfl <;> exact ⟨by rfl, by decide, by decide, by decide, by decide, by decide⟩

theorem meets_FullEmptyResults :
    let t := thread [(1, sp 0x3000)]
    let s := user t
    let f : State := { s with ctx := [(64, { full := [(0x3000 / 8, true)] })] }
    Alone s t ∧ Canonical s ∧ t.st = .ready ∧ t.sbuf = [] ∧ t.remote = [] ∧ s.target 1024 (sp 0x3000) 8 8 false true = .ok (.pool 64 0x3000) ∧
      s.isLocal 64 = true ∧ (s.cx 64).parked = [] ∧ s.jobHolds 1024 (.pool 64 0x3000) 8 true = false ∧ s.poolPoison 64 0x3000 8 = none ∧
      s.fullBit 64 0x3000 = false ∧ (Alone f t ∧ f.fullBit 64 0x3000 = true) :=
  ⟨alone_user _ rfl rfl rfl, ⟨by decide, by decide, by decide⟩, rfl, rfl, rfl, by rfl, by decide, by decide, by decide, by decide, by decide,
    ⟨rfl, rfl, rfl, rfl, rfl⟩, by decide⟩

theorem meets_AtomicResults :
    let t := thread [(1, sp 0x3000), (2, 0x1000), (4, 7), (5, 9)]
    let s := userPool t 0x3000 [7]
    Alone s t ∧ s.target 1024 (sp 0x3000) 8 8 true true = .ok (.pool 64 0x3000) ∧ s.isLocal 64 = true ∧
      s.jobHolds 1024 (.pool 64 0x3000) 8 true = false ∧ s.poolPoison 64 0x3000 8 = none ∧
      s.poolRead 64 0x3000 8 = (t.rg 4).toNat % 2 ^ 64 ∧ s.poolRead 64 0x3008 8 ≠ (t.rg 4).toNat % 2 ^ 64 ∧
      (Alone (service t) t ∧ (service t).target svcKey 0x1000 4 4 true true = .ok (.mem 0x1000) ∧
        (service t).xlatThread svcKey t 0x1000 false true false = .pa (service t) 0x1000 ∧
        (service t).jobHolds svcKey (.mem 0x1000) 4 true = false) ∧ (4 = 4 ∨ 4 = 8) ∧ (8 = 4 ∨ 8 = 8) :=
  ⟨alone_userPool _ _ _ rfl rfl rfl, by rfl, by decide, by decide, by decide, by decide, by decide,
    ⟨alone_service _ rfl rfl rfl, by rfl, xlat_service _ _ _ _ _ _ (by decide), by decide⟩, .inl rfl, .inr rfl⟩

theorem meets_LockedAndFenceResults :
    let t := thread [(1, 0x1000)]
    let l : Thread := { t with link := some 0x40 }
    let b : Thread := { t with sbuf := [{ line := 3, mask := 1, data := 0 }] }
    let w : Thread := { thread [] with roster := 65 }
    Alone (service t) t ∧ t.st = .ready ∧ t.sbuf = [] ∧ (service t).target svcKey 0x1000 8 8 true false = .ok (.mem 0x1000) ∧
      (Alone (user t) t ∧ (user t).away 1024 t = false) ∧ (Alone (user w) w ∧ (user w).away 1024 w = true) ∧
      (service t).xlatThread svcKey t 0x1000 false true false = .pa (service t) 0x1000 ∧
      (service t).xlatThread svcKey t 0x1000 true false false = .pa (service t) 0x1000 ∧
      (service t).jobHolds svcKey (.mem 0x1000) 8 true = false ∧ (service t).jobHolds svcKey (.mem 0x1000) 8 false = false ∧
      (service t).flushLine 0 0x40 = some (service t) ∧ (∃ s2, (withLine t .m).flushLine 0 0x40 = some s2) ∧
      (Alone (service l) l ∧ l.link = some 0x40) ∧ t.link ≠ some 0x40 ∧ Alone (service b) b ∧ b.sbuf ≠ [] :=
  ⟨alone_service _ rfl rfl rfl, rfl, rfl, by rfl, ⟨alone_user _ rfl rfl rfl, by decide⟩,
    ⟨alone_user _ rfl rfl rfl, by decide⟩, xlat_service _ _ _ _ _ _ (by decide),
    xlat_service _ _ _ _ _ _ (by decide), by decide, by decide, by rfl, ⟨_, rfl⟩, ⟨alone_service _ rfl rfl rfl, rfl⟩,
    by decide, alone_service _ rfl rfl rfl, by decide⟩

/-- A barrier with ARRIVED 3 of TARGET 4 in generation 5, armed or not, at barrier 1. -/
def barrier (t : Thread) (armed : Nat) : State := userPool t 16 (leBytes 16 (4 + 3 * 2 ^ 48 + 5 * 2 ^ 96 + armed * 2 ^ 112))

theorem meets_BarrierResults :
    let t := thread [(1, sp 16), (2, 1), (3, 2 ^ 48 - 4), (4, 5), (5, 2 ^ 48 - 1)]
    Alone (barrier t 1) t ∧ (barrier t 1).barTarget 1024 (sp 16) = .ok (64, 1) ∧ (barrier t 1).isLocal 64 = true ∧ t.rg 0 = 0 ∧
      (barrier t 1).bar 64 1 = { target := 4, arrived := 3, gen := 5, armed := true, flags := 0 } ∧
      2 ^ 48 ≤ 4 + (t.rg 3).toNat ∧ (t.rg 3).toNat < 2 ^ 48 ∧ (5 : Nat) ≠ (t.rg 2).toNat % 2 ^ 16 ∧ 5 = (t.rg 4).toNat % 2 ^ 16 ∧
      ((barrier t 0).bar 64 1).armed = false ∧
      (let b : Bar := { target := 4, arrived := 3, gen := 0xFFFF, armed := true, flags := 0 }
       b.arrived + 1 < 2 ^ 48 ∧ 2 ^ 48 ≤ b.arrived + (2 ^ 48 - 3) ∧ b.arrived < b.target ∧ (b.count 1).target ≤ (b.count 1).arrived) :=
  ⟨alone_userPool _ _ _ rfl rfl rfl, by rfl, by decide, by decide, by decide, by decide, by decide, by decide, by decide, by decide, by decide⟩

/-- A copy card: type 2, one dimension of 8 elements of one byte, from 0x3000 to 0x3100 of the pool. -/
def copyCard (ndim : Nat) : Nat :=
  image [(0, 2), (16, ndim), (32, 0xFFFF), (64, (sp 0x3000).toNat), (128, (sp 0x3100).toNat), (256, 8), (288, 1), (336, 1)]

theorem meets_CopyIssue :
    let t := thread [(1, sp 0x3400), (2, 7), (3, 8), (4, sp 0x3440), (5, sp 0x2000), (6, 8)]
    let s := userPool t 0x3400 (leBytes 256 (copyCard 1))
    let z := userPool t 0x3400 (leBytes 256 (copyCard 0))
    let f := userPool t 0x3400 (leBytes 256 (copyCard 1 + 1 * 2 ^ (288 + 47)))
    let full : State := { s with ctx := [(64, { s.cx 64 with cards := List.replicate 256 {} })] }
    Alone s t ∧ s.recordAt 64 (t.rg 1) 256 64 = .ok 0x3400 ∧ s.recordAt 64 (t.rg 5) 256 64 = .error Cause.access ∧
      s.jobHolds 1024 (.pool 64 0x3400) 256 false = false ∧ s.poolPoison 64 0x3400 256 = none ∧
      copyBad (s.poolRead 64 0x3400 256) = false ∧ (copyOf (s.poolRead 64 0x3400 256)).copyRules = true ∧
      (s.copyPrint 64 (copyOf (s.poolRead 64 0x3400 256))).isSome = true ∧ (s.cx 64).cards.length < 256 ∧ (t.rg 2).toNat < 8 ∧ 8 ≤ (t.rg 3).toNat ∧
      copyBad (z.poolRead 64 0x3400 256) = true ∧ (copyOf (f.poolRead 64 0x3400 256)).copyRules = true ∧
      f.copyPrint 64 (copyOf (f.poolRead 64 0x3400 256)) ≠ some ([], []) ∧ 256 ≤ (full.cx 64).cards.length ∧
      (t.rg 6).toNat = 8 + 2 ^ 40 * 0 + 2 ^ 49 * bitOf false + 2 ^ 50 * 0 + 2 ^ 62 * bitOf false + 2 ^ 63 * bitOf false :=
  ⟨alone_userPool _ _ _ rfl rfl rfl, by rfl, by rfl, by decide, by decide, by decide, by decide, by decide, by decide, by decide, by decide,
    by decide, by decide, by decide, by decide, by decide⟩

/-- A matrix long card of `count` steps with an empty edge. -/
def longCard (typ count : Nat) : Nat := image [(0, typ), (16, count), (64, 2 ^ 63), (384, (0x0000_0400_0206_4206 : Nat)), (448, 0)]

theorem meets_LongJobIssue :
    let t := thread [(1, sp 0x3400), (2, 7)]
    let s := userPool t 0x3400 (leBytes 64 (longCard 4 256))
    let img := s.poolRead 64 0x3400 64
    let w := userPool t 0x3400 (leBytes 64 (longCard 4 257))
    let bj (m : Nat) : State := { userPool t 0x3400 (leBytes 128 (image [(0, 3), (8, 5), (24, 1), (32, m), (64, 2 ^ 21), (128, 2 ^ 24), (192, 2 ^ 22), (256, 2 ^ 23), (512, 0xFFFF)])) with
      bmv := { curEn := true, curBase := 1, curSize := 1 } }
    Alone s t ∧ s.recordAt 64 (t.rg 1) 64 64 = .ok 0x3400 ∧ s.recordAt 64 (t.rg 1) 128 64 = .ok 0x3400 ∧ s.poolPoison 64 0x3400 64 = none ∧
      bits img 0 8 = 4 ∧ bits img 9 7 = 0 ∧ bits img 40 24 = 0 ∧ bits img 16 16 = 256 ∧ (mlongOf img t).aStep % 64 = 0 ∧
      (mlongOf img t).stAddr.toNat % 8 = 0 ∧ s.mlongOk 64 (mlongOf img t) = true ∧ (s.mlongPrint 64 (mlongOf img t)).isSome = true ∧
      256 < bits (w.poolRead 64 0x3400 64) 16 16 ∧
      (bj 1).bmvBad 64 ((bj 1).poolRead 64 0x3400 128) = false ∧
      ((bj 1).bmvPrint 64 (bmvOf ((bj 1).poolRead 64 0x3400 128))).isSome = true ∧ (bj 0).bmvBad 64 ((bj 0).poolRead 64 0x3400 128) = true := by
  refine ⟨alone_userPool _ _ _ rfl rfl rfl, by rfl, by rfl, by decide, by decide, by decide, by decide, by decide, by decide, by decide, by decide,
    by decide, by decide, ?_, ?_, ?_⟩
  all_goals decide

/-- A flume record: base 0x3000, direction, four dimensions of which the first has `n` entries of stride 64. -/
def flumeRec (out n : Nat) : Nat := image [(0, 0x3000), (21, out), (64, n), (80, 64), (112, 1), (160, 1), (208, 1)]

theorem meets_FlumeBindResults :
    let t := thread [(1, sp 0x3400)]
    let s (n : Nat) := userPool t 0x3400 (leBytes 32 (flumeRec 0 n))
    let f : Flume := { base := 0x3000, cnt := [2, 1, 1, 1], str := [64, 0, 0, 0], out := true, queue := [5] }
    (s 2).thr 1024 = some t ∧ (s 2).recordAt 64 (t.rg 1) 32 32 = .ok 0x3400 ∧ (s 2).recordAt 64 (t.rg 0) 32 32 = .error Cause.access ∧
      t.flumes = [] ∧ (s 2).jobHolds 1024 (.pool 64 0x3400) 32 false = false ∧ (s 2).poolPoison 64 0x3400 32 = none ∧
      (s 2).flumeTrap 64 ((s 2).poolRead 64 0x3400 32) = none ∧ (s 0).flumeTrap 64 ((s 0).poolRead 64 0x3400 32) = some Cause.access ∧
      (∃ g, (7, g) ∈ ({ t with flumes := [(7, f)] } : Thread).flumes) ∧ t.portcfg = 0 ∧ t.pend = [] ∧ (user t).unit.phase = .lone :=
  ⟨rfl, by rfl, by rfl, rfl, by decide, by decide, by decide, by decide, ⟨_, List.mem_singleton.mpr rfl⟩, rfl, rfl, rfl⟩

/-! ## Witnesses: capsules, directory service, the matrix unit, issue -/

/-- The first 256 bytes of a capsule: payload of `tlen` bytes, `nslip` entries, POS, HOPS, and entry 0. -/
def capsule (tlen nslip pos hops entry : Nat) : List Byte :=
  leBytes 256 (image [(48, pos), (56, nslip), (96, tlen), (112, hops), (512, entry)])

theorem meets_CapsuleSendResults :
    let t := thread [(1, sp 0x3400), (2, sp 0x3401)]
    let s (tlen nslip pos hops e : Nat) := userPool t 0x3400 (capsule tlen nslip pos hops e)
    let good := s 64 1 0 0 0
    let h := good.poolRead 64 0x3400 256
    let held : Thread := { thread [(1, sp 0x20000)] with holds := some 0 }
    Alone good t ∧ t.st = .ready ∧ t.sbuf = [] ∧ t.remote = [] ∧ good.imageAt 1024 t (t.rg 1) 256 = some (0x3400, none) ∧
      good.imageAt 1024 t (t.rg 2) 256 = none ∧ good.imageAt 1024 t (t.rg 1) (256 + capTlen h) = some (0x3400, none) ∧
      (capTlen h = 64 ∧ capNslip h = 1 ∧ capPos h = 0 ∧ capHops h = 0 ∧ capReserved h = false ∧ entryBad (capSlip h 0) = false ∧
        good.capDest 64 h (capSlip h 0) = some (64, none) ∧ good.unreachable 64 = false) ∧
      good.poolPoison 64 0x3400 256 = none ∧ (good.cx 64).outcaps.length < 8 ∧ good.jobHolds 1024 (.pool 64 0x3400) 320 true = false ∧
      capTlen ((s 65 1 0 0 0).poolRead 64 0x3400 256) % 64 ≠ 0 ∧ capNslip ((s 64 25 0 0 0).poolRead 64 0x3400 256) = 25 ∧
      capPos ((s 64 1 1 0 0).poolRead 64 0x3400 256) = capNslip ((s 64 1 1 0 0).poolRead 64 0x3400 256) ∧
      capHops ((s 64 1 0 255 0).poolRead 64 0x3400 256) = 255 ∧ (s 64 1 0 0 (4 * 2 ^ 16)).capDest 64 h (4 * 2 ^ 16) = none ∧
      (Alone (user held) held ∧ (user held).imageAt 1024 held (held.rg 1) 256 = some (0x20000, some 0)) := by
  refine ⟨alone_userPool _ _ _ rfl rfl rfl, rfl, rfl, rfl, ?_, ?_, ?_, ?_, ?_, ?_, ?_, ?_, ?_, ?_, ?_, ?_, alone_user _ rfl rfl rfl, ?_⟩
  all_goals decide

theorem meets_CapsuleEndAndSlipResults :
    let held : Thread := { thread [(1, sp 0x20000), (2, sp 0x20040)] with holds := some 0 }
    let t := thread [(1, sp 0x3400), (2, 0), (3, 1)]
    let s (nslip pos : Nat) := userPool t 0x3400 (capsule 64 nslip pos 0 0)
    let pos (nslip pos_ : Nat) := capPos ((s nslip pos_).poolRead 64 0x3400 256)
    Alone (user held) held ∧ (user held).heldStart 1024 held (held.rg 1) = some 0 ∧ (user held).heldStart 1024 held (held.rg 2) = none ∧
      Alone (s 24 23) t ∧ (s 24 23).imageAt 1024 t (t.rg 1) 256 = some (0x3400, none) ∧ (s 24 23).jobHolds 1024 (.pool 64 0x3400) 256 true = false ∧
      (s 24 23).poolPoison 64 0x3400 256 = none ∧ pos 24 23 = 23 ∧ pos 24 24 = 24 ∧ pos 24 25 = 25 ∧
      (t.rg 2).toNat < 24 - 23 ∧ 24 - 23 ≤ (t.rg 3).toNat ∧ (t.rg 3).toNat ≤ 24 - 23 ∧ 24 - 24 < (t.rg 3).toNat := by
  refine ⟨alone_user _ rfl rfl rfl, ?_, ?_, alone_userPool _ _ _ rfl rfl rfl, ?_⟩
  all_goals decide

/-- A service thread in system mode, with registers. -/
def sysThread (g : Tbl Word) : Thread := { thread g with priv := 1 }

theorem meets_DirectoryResults :
    let t := sysThread [(1, 2 ^ 48), (2, 2 ^ 48 - 1), (3, 0x4F), (4, 0x50), (5, 2 ^ 22), (6, 7)]
    let n : Node := { region := 0, level := 0, path := 0, st := .shr, ovf := true, sh := [3] }
    let u : Txn := { id := 1, kind := .evict, awaitDs := true, token := 7 }
    let s : State := { service t with slices := [(0, { nodes := [n] })] }
    let d (u : Txn) : State := { service t with slices := [(0, { txns := [u] })] }
    Alone (service t) t ∧ t.priv ≠ 0 ∧ t.st = .ready ∧ 2 ^ 48 ≤ (t.rg 1).toNat ∧ (t.rg 2).toNat < 2 ^ 48 ∧ (t.rg 3).toNat % 256 < 0x50 ∧
      0x50 ≤ (t.rg 4).toNat % 256 ∧ 2 ^ 22 ≤ (t.rg 5).toNat ∧ ((service t).sl 0).node 0 = none ∧
      (s.sl (homeOf 0)).node 0 = some n ∧ n.ovf = true ∧ (s.sl 0).nodeBusy n = false ∧ (s.sl 0).unacked = 0 ∧
      ((service t).sl 0).txns.find? (fun q => q.awaitDs && q.token == (t.rg 6).toNat % 2 ^ 16) = none ∧
      ((d u).sl 0).txns.find? (fun q => q.awaitDs && q.token == (t.rg 6).toNat % 2 ^ 16) = some u ∧ u.probes = [] ∧ u.awaitWb = [] ∧ u.kind = .evict ∧
      ((d { u with awaitWb := [3] }).sl 0).txns.find? (fun q => q.awaitDs && q.token == (t.rg 6).toNat % 2 ^ 16) = some { u with awaitWb := [3] } :=
  ⟨alone_service _ rfl rfl rfl, by decide, rfl, by decide, by decide, by decide, by decide, by decide, by decide, by decide, rfl, by decide, rfl,
    by decide, by decide, rfl, rfl, rfl, by decide⟩

theorem meets_DirectoryRangeResults :
    let t := sysThread [(1, 0x10000), (2, 0x10001), (3, 5 * 2 ^ 21), (4, 5 * 2 ^ 21 + 1), (5, 2 ^ 48 - 2 ^ 21)]
    let s : State := { service t with bmv := { stable := [(5, 1)], declaring := [(6, 1)] } }
    let others (s : State) (r : Nat × Nat) := s.bmv.stable ++ s.bmv.declaring.filter (· != r)
    let full : State := { service t with bmv := { stable := List.replicate 63 (9, 1), declaring := [(8, 1)] } }
    let n : Node := { region := 6 * 32 + 31, level := 0, path := 0, st := .shr }
    let shared : State := { service t with slices := [(0, { nodes := [n], txns := [{ line := 5 * 32768 }] })] }
    Alone (service t) t ∧ t.priv ≠ 0 ∧ (t.rg 1).toNat % 2 ^ 16 = 0 ∧ (t.rg 1).toNat < 2 ^ 48 ∧ (t.rg 2).toNat % 2 ^ 16 ≠ 0 ∧
      (∀ sl < 64, (∀ n ∈ ((service t).sl sl).nodes, n.region ≠ 1) ∧ ((service t).sl sl).setUsed 1 < 16) ∧
      (others full (5, 1)).length = 64 ∧ (others full (8, 1)).length = 63 ∧ (5 + 1) * 2 ^ 21 ≤ (service t).memTop ∧
      (∃ q ∈ others s (5, 2), overlap q.1 q.2 5 2 = true) ∧ (∀ q ∈ others s (7, 1), overlap q.1 q.2 7 1 = false) ∧ (7, 1) ∉ s.bmv.declaring ∧
      (∀ sl < 64, (∀ n ∈ (shared.sl sl).nodes, (decide (6 ≤ n.region / 32) && decide (n.region / 32 < 6 + 1)) = true → n.st ≠ .own) ∧
        ∀ q ∈ (shared.sl sl).txns, (decide (6 ≤ q.line / 32768) && decide (q.line / 32768 < 6 + 1)) = false) ∧
      (service t).memTop < ((t.rg 5).toNat / 2 ^ 21 + 1) * 2 ^ 21 ∧ (5, 1) ∈ s.bmv.stable ∧ (5, 2) ∉ s.bmv.stable ∧ (Alone s t ∧ t.sbuf = [] ∧ t.remote = []) :=
  ⟨alone_service _ rfl rfl rfl, by decide, by decide, by decide, by decide, by decide, by decide, by decide, by decide,
    ⟨_, List.mem_cons_self, by decide⟩, by decide, by decide, by decide, by decide, by decide, by decide, ⟨rfl, rfl, rfl, rfl, rfl⟩, rfl, rfl⟩

theorem meets_ServiceNoticeResults :
    let t := sysThread [(1, sp 0x3400), (2, sp 0x3408)]
    let n (kind : Nat) : Notice := { kind := kind }
    let m : Msg := { data := some 5, len := 8 }
    let core (s : State) (c : Core) : State := { s with cores := [(0, c)] }
    let mem (typ dst : Nat) : State := { service t with agents := [(0x40, { st := .s, data := BitVec.ofNat 512 (image [(0, typ), (16, dst), (96, 7), (128, 5)]) }), (0x41, { st := .s })] }
    let pool : State := { user t with unit := { tk := 1039, addr := 0x1000, core := 0 }, threads := [(1039, some t)] }
    Alone (service t) t ∧ t.priv ≠ 0 ∧ isService svcKey = true ∧ ((service t).core 0).notices = [] ∧
      ((core (service t) { notices := [n 1] }).core 0).notices = n 1 :: [] ∧ ((core (service t) { notices := [n 2] }).core 0).notices = n 2 :: [] ∧
      (Alone pool t ∧ Canonical pool ∧ isService 1039 = true ∧ pool.target 1039 (t.rg 1) 80 16 true true = .ok (.pool 64 0x3400) ∧
        pool.target 1039 (t.rg 2) 80 16 true true = .error Cause.align ∧ pool.isLocal 64 = true ∧ pool.jobHolds 1039 (.pool 64 0x3400) 80 true = false ∧
        ((core pool { spillInbox := [m] }).core 0).spillInbox = m :: []) ∧
      (∃ s1 r, (mem 4 0).readRecord svcKey 0x1000 = .ok (s1, r) ∧ bits r 0 8 = 4 ∧ bits r 16 8 = 0 ∧ (s1.cx (ckOfTk svcKey)).inbox.length < 64) ∧
      (∃ s1 r, (mem 4 1).readRecord svcKey 0x1000 = .ok (s1, r) ∧ bits r 16 8 ≠ 0) ∧ Tbl.wf none (mem 4 0).threads = true ∧
      (mem 4 0).target svcKey 0x1000 80 16 true true = .ok (.mem 0x1000) := by
  refine ⟨alone_service _ rfl rfl rfl, by decide, by decide, by decide, by decide, by decide,
    ⟨⟨rfl, rfl, rfl, rfl, rfl⟩, ⟨by decide, by decide, by decide⟩, by decide, by rfl, by rfl, by decide, by decide, by decide⟩,
    ⟨_, _, rfl, ?_, ?_, ?_⟩, ⟨_, _, rfl, ?_⟩, by decide, by rfl⟩
  all_goals decide

/-- FMTCTX with both operands bf16 and the smallest strides that R257 accepts. -/
def bf16Fmt : Word := 0x60060000

theorem meets_MatrixIssue :
    let t : Thread := { thread [(1, sp 0x3400), (2, sp 0x3800), (3, 2 ^ 63), (4, 63), (5, sp 0x3420)] with fmtctx := bf16Fmt }
    let z : Thread := { t with fmtctx := 0xA0 }
    let far : Thread := { t with zbase := 32 }
    let resumed : Thread := { t with factstep := BitVec.ofNat 64 (2 ^ 9 + 64 * 2 + 5) }
    let s := user t
    Alone s t ∧ t.st = .ready ∧ t.remote = [] ∧ edgeBad 63 = true ∧ edgeBad 0 = false ∧ (0 : Word).getLsbD 63 = false ∧
      shapeK z.fmtctx = none ∧ mmaTrap t.fmtctx 0 (sp 0x3420) (sp 0x3800) 0 (s.tileCount 64) = some (Cause.align, sp 0x3420) ∧
      mmaTrap t.fmtctx 0 (sp 0x3400) (sp 0x3800) 32 (s.tileCount 64) = some (Cause.access, 32) ∧
      mmaTrap t.fmtctx (2 ^ 63) (sp 0x3400) (sp 0x3800) 0 (s.tileCount 64) = none ∧
      (∃ r, s.operands 64 t.fmtctx (2 ^ 63) (sp 0x3400) (sp 0x3800) = .ok r ∧ s.mxHeld 1024 t (r.1.ranges ++ r.2.ranges) [0] = false) ∧
      (∃ x, s.operands 64 t.fmtctx 0x1041 (sp 0x2FFC0) 0x1000 = .error x) ∧
      s.clusterOfCk 64 = some 0 ∧ s.tileCount 64 = 32 ∧ (far.zbase.toNat % 256) + 0 = 32 ∧ s.mxHeld 1024 t [] [31] = false ∧
      (resumed.factstep.getLsbD 9 = true ∧ resumed.factstep.toNat / 64 % 8 = 2) := by
  refine ⟨alone_user _ rfl rfl rfl, rfl, rfl, by decide, by decide, by decide, by decide, by decide, by decide, by decide, ⟨_, rfl, by decide⟩,
    ⟨_, rfl⟩, ?_⟩
  decide

theorem meets_TileAndContextResults :
    let t : Thread := { thread [(1, 31), (2, 2 ^ 7), (3, bf16Fmt), (4, 2 ^ 10), (5, sp 0x3400), (6, sp 0x3408)] with zbase := 31, fmtctx := bf16Fmt }
    let z : Thread := { t with fmtctx := 0xA0 }
    let s := user t
    Alone s t ∧ (t.zbase.toNat % 256) + 0 < s.tileCount 64 ∧ s.tileCount 64 ≤ (t.zbase.toNat % 256) + 1 ∧ s.factOn 64 31 = false ∧
      s.jobHolds 1024 (.pool 64 (s.tileBase 64 31)) 4096 true = false ∧ moveBad (t.rg 1) .f32 .f32 .f32 = false ∧
      moveBad (t.rg 2) .f32 .f32 .f32 = true ∧ (∀ k < 16, s.poolPoison 64 (s.tileBase 64 31 + 128 * 31 + 4 * k) 4 = none) ∧
      shapeK t.fmtctx = some (192, false) ∧ shapeK z.fmtctx = none ∧ (t.rg 3).toNat / 2 ^ 10 % 64 = 0 ∧ shapeOf (t.rg 3) ≠ none ∧
      (t.rg 4).toNat / 2 ^ 10 % 64 ≠ 0 ∧ s.target 1024 (t.rg 5) 16 16 true true = .ok (.pool 64 0x3400) ∧
      s.target 1024 (t.rg 6) 16 16 true true = .error Cause.align ∧ s.isLocal 64 = true ∧ t.remote = [] ∧
      s.jobHolds 1024 (.pool 64 0x3400) 16 false = false ∧ s.poolPoison 64 0x3400 16 = none := by
  refine ⟨alone_user _ rfl rfl rfl, ?_, ?_, ?_, ?_, ?_, ?_, ?_, ?_, ?_, ?_, ?_, ?_, by rfl, by rfl, ?_, rfl, ?_, ?_⟩
  all_goals decide

theorem meets_OperandPortResults :
    let t (cfg : Word) : Thread := { thread [(1, 4), (2, 5)] with portcfg := cfg }
    let s (cfg : Word) (l : List Msg) : State := { user (t cfg) with ctx := [(64, { inbox := l })] }
    let f (out : Bool) (q : List Vec) (used : Nat) : Thread := { thread [] with flumes := [(7, { base := 0x3000, out := out, cnt := [2], str := [64], queue := q, used := used })] }
    (s 1 [mail 1]).thr 1024 = some (t 1) ∧ (t 1).pend = [] ∧ (t 1).flumes = [] ∧ Tbl.wf 0 (t 1).g = true ∧ (t 1).portcfg.getLsbD 0 = true ∧
      (t 1).portcfg.getLsbD 4 = false ∧ (t 0x11).portcfg.getLsbD 4 = true ∧ (s 1 []).firstMsg 1024 (t 1) 1 = none ∧
      (s 1 [mail 0, mail 1]).firstMsg 1024 (t 1) 1 = some (mail 1) ∧ (t 0x111).portcfg.toNat / 2 ^ 8 % 64 = 1 ∧
      (user (t 0x411)).ncores 64 ≤ (t 0x411).portcfg.toNat / 2 ^ 8 % 64 ∧ (t 0x311).portcfg.toNat / 2 ^ 8 % 64 < (user (t 0x311)).ncores 64 ∧
      (t 0x3C011).portcfg.toNat / 2 ^ 14 % 16 = 15 ∧ (t 1).priv = 0 ∧
      ((user (f false [5] 0)).thr 1024 = some (f false [5] 0) ∧ Tbl.wf 0 (f false [5] 0).v = true ∧
        (∀ g, (f false [5] 0).flumes = [(7, g)] → g.used < g.total ∧ g.queue = 5 :: [] ∧ g.out = false)) ∧
      (∀ g, (f true [] 2).flumes = [(7, g)] → g.total ≤ g.used ∧ g.out = true ∧ g.queue.length < 4) := by
  refine ⟨rfl, rfl, rfl, ?_, ?_, ?_, ?_, ?_, ?_, ?_, ?_, ?_, ?_, rfl, ⟨rfl, rfl, fun g h => ?_⟩, fun g h => ?_⟩
  any_goals decide
  all_goals cases h; decide

/-- 1/0 raises DZ in f32; a service thread below system mode; a core without F64V. -/
theorem meets_ExecutionTraps :
    let t : Thread := { thread [(1, 0x3F800000)] with fpcsr := 0x1F00, v := [(1, 0x3F800000)], m := [(1, 1)] }
    let one (t : Thread) : State := { user t with unit := { tk := 1024, addr := 0x1000, core := 1 } }
    Alone (user t) t ∧ (fmtF32.div 0x3F800000 0).2 &&& t.fpcsr.extractLsb' 8 5 ≠ 0 ∧ t.active 1 0 = true ∧ t.priv = 0 ∧
      (Alone (service (sysThread [])) (sysThread []) ∧ (sysThread []).priv ≠ 0) ∧ isService 1024 = false ∧
      Alone (one t) t ∧ (one t).hasF64v (one t).unit.core = false ∧ (one t).f64vCore 64 = some 64 ∧ isService svcKey = true := by
  refine ⟨alone_user _ rfl rfl rfl, ?_, ?_, rfl, ⟨alone_service _ rfl rfl rfl, ?_⟩, ?_, ⟨rfl, rfl, rfl, rfl, rfl⟩, ?_, ?_, ?_⟩
  all_goals decide

theorem meets_PairResults :
    let t : Thread := { thread [(1, 0x3F800000)] with fpcsr := 0x1F00 }
    let s : State := { user t with unit := { tk := 1024, addr := 0x1000, core := 0, phase := .cOfPair } }
    s.thr s.unit.tk = some t ∧ s.unit.phase = .cOfPair ∧ t.pend = [] ∧ t.portcfg = 0 ∧ t.flumes = [] ∧
      (encode (.jmp true 0xFFFFFF)).isSome = true ∧ (encode (.add 31 30 29)).isSome = true ∧ (encode (.fadd 31 1 1)).isSome = true ∧
      (encode (.srr true 31 0x003)).isSome = true := by
  refine ⟨rfl, rfl, rfl, rfl, rfl, ?_⟩
  decide

theorem meets_WindowResults :
    let p (w : Nat) (done : Bool) : Pending :=
      { dsts := [.g 3], fin := .gz 3 8, window := w, lanes := [{ src := .reply, txid := 5, len := 8, done := done }], poison := if done then some 64 else none }
    let t (w : Nat) (done : Bool) : Thread := { thread [] with pend := [p w done] }
    (user (t 1 false)).thr 1024 = some (t 1 false) ∧ (t 1 false).pend = [p 1 false] ∧ (p 1 false).undo = none ∧ (t 1 false).portcfg = 0 ∧ (t 1 false).flumes = [] ∧
      (t 1 false).st = .ready ∧ 1 ≤ (p 1 false).window ∧ (p 0 false).window = 0 ∧ (p 0 false).complete = false ∧ (p 0 true).complete = true ∧
      (p 0 true).poison = some 64 ∧ (p 0 true).fault = none ∧ (p 0 true).fin = .gz 3 8 :=
  ⟨rfl, rfl, rfl, rfl, rfl, rfl, by decide, rfl, by decide, by decide, rfl, rfl, rfl⟩

/-! ## Witnesses: the device's own steps -/

/-- A pool with bytes is not needed where a device step names none: the reset state with a few fields. -/
theorem meets_PowerErrorAndResetSteps :
    let up (c : Cluster) (p : Power) : State := { clusters := [(3, c)], pow := p }
    let quiet (p : Power) : State := { clusters := (List.range 16).map fun c => (c, { power := .ls2 }), pow := { p with eciIdle := 2 ^ 14 } }
    let asleep (p : Power) : State := { quiet p with ctl := { sleep := [true, true] } }
    let taken (s : State) := [12, 13, 14, 15].foldl (fun (u : State) n => u.extractCore n false) s
    let torn (s : State) := [12, 13, 14, 15].foldl (fun (u : State) n => u.extractCore n true) s
    let dirty : State := { clusters := [(3, { resetting := true })], agents := [(12 * 2 ^ 42 + 7, { st := .isD })] }
    ((up { low := true } {}).clu 3).low = true ∧ ((up { stretch := some 64 } {}).clu 3).stretch = some 64 ∧ ((up { newFreq := some 12 } {}).clu 3).newFreq = some 12 ∧
      ((up {} { tol := 1 }).pow.tol.toNat ≠ 0 ∧ ((up {} { tol := 1 }).clu 3).power = .ls0 ∧ (up {} { tol := 1 }).noReady 3 = true) ∧
      (up {} {}).pow.tol.toNat = 0 ∧
      (((up {} { tol := 20 }).clu 3).entry ≠ .aborted ∧ 20 ≤ (up {} { tol := 20 }).pow.tol.toNat ∧ (up {} { tol := 20 }).unassigned 3 = true ∧
        (up {} { tol := 20 }).tilesQuiet 3 = true ∧ (up {} { tol := 20 }).standbyQuiet 3 = true ∧
        ∀ n ∈ (List.range 4).map (4 * 3 + ·), (taken (up {} { tol := 20 })).holdsLines n = false) ∧
      (∃ n ∈ (List.range 4).map (4 * 3 + ·), (taken dirty).holdsLines n = true) ∧ ((up { entry := .aborted } {}).clu 3).entry = .aborted ∧
      (20 : Nat) ≤ 20 ∧ (up {} { tol := 19 }).pow.tol.toNat < 20 ∧
      ((quiet { tol := 150 }).pow.dev = .ls0 ∧ 150 ≤ (quiet { tol := 150 }).pow.tol.toNat ∧ (quiet { tol := 150 }).ls3Ready = true ∧
        (quiet { tol := 150 }).pow.tol.toNat < 1500 ∧ (quiet { tol := 1500 }).ls4Ready = false) ∧
      ((asleep { tol := 1500 }).ls3Ready = true ∧ (asleep { tol := 1500 }).port.held = [] ∧ (asleep { tol := 1500 }).port.hostHeld = [] ∧
        (∀ b ∈ (asleep { tol := 1500 }).ctl.sleep, b = true) ∧ (∀ b ∈ (asleep { tol := 1500 }).ctl.wake, b = false)) ∧
      ((up {} { dev := .ls3 }).pow.dev ≠ .ls0 ∧ (up {} { dev := .ls3 }).ls3Ready = false) ∧
      ((quiet { dev := .ls4, tol := 1499 }).pow.dev = .ls4 ∧ (quiet { dev := .ls4, tol := 1499 }).pow.tol.toNat < 1500 ∧
        (quiet { dev := .ls4, tol := 1499 }).ls3Ready = true) ∧
      ((up { power := .ls1 } {}).clu 3).power = .ls1 ∧
      (((up { power := .ls2, resident := some 16 } {}).clu 3).power = .ls2 ∧ ((up { power := .ls2, resident := some 16 } {}).clu 3).resident.isSome = true) ∧
      (State.reset.jobsIdle = true ∧ ({ bmv := { jobs := [{ id := 1, ck := 64 }] } } : State).jobsIdle = false) ∧
      State.reset.ctl.errCount = [] ∧ (List.replicate 15 (2 ^ 32)).length = 15 ∧
      ((∀ k ∈ List.replicate 15 1, ({ sclk := 2 ^ 32 } : State).unitClock .hostPort < k + 2 ^ 32) ∧
        (∀ k ∈ List.replicate 15 1, ({ fclk := 2 ^ 32 } : State).unitClock .frontEnd < k + 2 ^ 32) ∧
        ∀ k ∈ List.replicate 15 1, ({ clusters := [(3, { acycles := 2 ^ 32, cycle := 0 })] } : State).unitClock (.core 15) < k + 2 ^ 32) ∧
      (State.reset.ctl.failures = [] ∧ (State.reset.clu 3).resident = none ∧ Tbl.wf {} State.reset.clusters = true) ∧
      (State.reset.port.width[1]? = some 64 ∧ ({ port := { width := [32, 0] } } : State).port.width[0]? = some 32 ∧ State.reset.ctl.errCount = []) ∧
      ({ port := { training := true } } : State).port.training = true ∧
      (State.reset.ctl.ready = false ∧ 15 / 4 ∉ State.reset.pow.groupsOut ∧ 4 < State.reset.pow.channels ∧ State.reset.pow.failedCh = [] ∧
        ∀ k < 16, (State.reset.clu k).resident = none) ∧
      ((({ ctl := { fuseBad := true } } : State).ctl.fuseBad = true) ∧ State.reset.ctl.fuseBad = false ∧ State.reset.ctl.fuseWays = []) ∧
      State.reset.pow.sweeping = false ∧ ({ pow := { sweeping := true } } : State).sweepQuiet = true ∧
      ({ pow := { sweeping := true }, slices := [(0, { replay := [.deviceReset] })] } : State).sweepQuiet = false ∧
      ((State.reset.clu 3).resetting = false ∧ (dirty.clu 3).resetting = true ∧ ∃ n ∈ (List.range 4).map (4 * 3 + ·), (torn dirty).linesOf n ≠ []) ∧
      (let s := up { resetting := true } {}
       (∀ n ∈ (List.range 4).map (4 * 3 + ·), (torn s).linesOf n = []) ∧ (torn s).sched.standby = false ∧ ((torn s).clu 3).resident = none ∧
        Tbl.wf {} (torn s).clusters = true) := by
  repeat' apply And.intro
  all_goals decide

/-- Link training leaves open which modules train (R16): of any two values one of the three outcomes below holds, each on some machine. -/
theorem meets_LinkTraining :
    let trains (s : State) (k : Nat) : Bool := s.port.width.getD k 0 != 0 && Config.freeNat (s.free + k) % 2 == 0
    ∀ s : State, (trains s 0 = false ∧ trains s 1 = false) ∨
      ((∀ k < 2, trains s k = true ∨ s.port.width.getD k 0 = 0) ∧ (trains s 0 = true ∨ trains s 1 = true)) ∨
      ∃ m < 2, trains s (1 - m) = true ∧ trains s m = false ∧ s.port.width.getD m 0 ≠ 0 := by
  intro trains s
  have two (p : Nat → Prop) (h0 : p 0) (h1 : p 1) : ∀ k < 2, p k := by
    intro k h; obtain rfl | rfl : k = 0 ∨ k = 1 := by omega
    exacts [h0, h1]
  cases c : trains s 0 <;> cases d : trains s 1
  · exact .inl ⟨rfl, rfl⟩
  · by_cases a : s.port.width.getD 0 0 = 0
    · exact .inr (.inl ⟨two _ (.inr a) (.inl d), .inr rfl⟩)
    · exact .inr (.inr ⟨0, by decide, d, c, a⟩)
  · by_cases b : s.port.width.getD 1 0 = 0
    · exact .inr (.inl ⟨two _ (.inl c) (.inr b), .inl rfl⟩)
    · exact .inr (.inr ⟨1, by decide, c, d, b⟩)
  · exact .inr (.inl ⟨two _ (.inl c) (.inl d), .inl rfl⟩)

/-- A machine in which the homes have answered a unit for some lines. -/
def answered (s : State) (id : Nat) (lines : List Nat) (write : Bool) : State :=
  lines.foldl (fun (u : State) line => u.modSl (homeOf line) fun x => { x with ready := x.ready ++ [(id, line, write)] }) s

/-- The clauses about an image that the fused keys accept have no witness here: the keys are the device's own (`Config.hazonKey`). -/
theorem meets_FirmwareSteps :
    let s (op : BitVec 8) : State := { ctl := { ready := true, mbox := { busy := true, op := op } } }
    let ready (s : State) (write : Bool) : State := answered s controlId [0, 1, 2, 3] write
    ({ ctl := { ready := true } } : State).controlBusy = false ∧ (s 1).ctl.wake.getD 0 false = false ∧
      (State.reset.ctl.layer + 1 = 1 ∧ State.reset.ctl.fail = false ∧ State.reset.ctl.bootSlot 1 = none) ∧
      ((s 1).ctl.mbox.busy = true ∧ (s 1).ctl.mbox.op.toNat = 1) ∧ 0 + (s 1).ctl.log.flatten.length ≤ (s 1).memTop ∧
      (s 1).cohPut controlId 0 [] false = .ok (s 1) ∧ (∃ s2, (ready (s 3) true).cohPut controlId 0 [1] false = .ok s2) ∧
      (∃ s2, (s 3).cohPut controlId 0 [1] false = .error s2) ∧ 256 ≤ (s 2).memTop ∧
      (∃ s1 nonce, (ready (s 2) false).cohBytes controlId 0 32 = .ok (s1, nonce, none)) ∧
      (∃ s1 h s2 img, (ready (ready (s 4) false) false).cohBytes controlId 0 256 = .ok (s1, h, none) ∧ imgSize h = 256 ∧
        (ready s1 false).cohBytes controlId 0 256 = .ok (s2, img, none) ∧ imgField img 8 1 = 0) ∧
      (s 0).ctl.mbox.op.toNat = 0 ∧ 4 < (s 5).ctl.mbox.op.toNat ∧
      ({ ctl := { mbox := { base := 2 ^ 40 } } } : State).memTop < 2 ^ 40 * 4096 + 0 := by
  refine ⟨by decide, by decide, by decide, by decide, by decide, by rfl, ⟨_, by rfl⟩, ⟨_, by rfl⟩, by decide, ⟨_, _, by rfl⟩,
    ⟨_, _, _, _, by rfl, ?_, by rfl, ?_⟩, ?_⟩
  all_goals decide

/-- A queue of 16 packets, in a state, with a packet in hand. -/
def queue (st : QState) (cur : Option Packet) : Queue := { q := 4095, entry := { en := true, priv := true }, st := st, cur := cur }

/-- The machine with queues, and the queue table at address 0. -/
def front (l : List Queue) : State := { fe := { qtEn := true, queues := l } }

/-- A machine in which the homes have answered the front end for the line of queue 4095's entry: 16 slots, vector 2, enabled or not. -/
def withEntry (s : State) (en : Nat) : State :=
  answered { s with slices := [(homeOf 4095, { lines := [(4095, { data := BitVec.ofNat 512 (image [(64, 4), (69, en), (96, 2)]) })] })] } feId [4095] false

/-- A machine with the most resident queues there may be, and a doorbell pending of one more. -/
def full (st : QState) : State :=
  { fe := { qtEn := true, pending := [(4095, 1)], queues := (List.range 256).map fun k => { q := k, st := st } } }

/-- What the front end reads of queue 4095's entry: its EN where R103 accepts it, the resident queues, and the one that may go; none
where it waits for the home. -/
def entryRead (s : State) : Option (Option Bool × Nat × Option Nat) :=
  match s.readEntryOf 4095 with
  | .ok (s1, y) => some (y.map QEntry.en, s1.fe.queues.length, s1.loadVictim)
  | .error _ => none

theorem meets_QueueSteps :
    let e (st : QState) := queue st none
    let p : Packet := {}
    let c : Coal := { run := true, hold := 5, elapsed := 5, en := true }
    let ready : Queue := { e .ready with tail := 1, sorterRead := true }
    (4095 < 4096 ∧ (front []).fe.qtEn = true ∧ 4095 ∉ (front []).fe.disabled ∧ (front []).fq 4095 = none) ∧
      ((front [e .idle]).fq 4095 = some (e .idle) ∧ ((16 : BitVec 32) - (e .idle).head).toNat ≤ 2 ^ (e .idle).entry.logsize ∧
        2 ^ (e .idle).entry.logsize < ((17 : BitVec 32) - (e .idle).head).toNat ∧ (0 : BitVec 32) = (e .idle).head ∧
        (queue .active (some p)).cur.isSome = true ∧ (e .error).failedAfter = false) ∧ State.reset.fe.qtEn = false ∧
      (let s : State := { fe := { qtEn := true, pending := [(4095, 1)] } }
       (s.fe.pending.find? (fun e => e.1 == 4095) = some (4095, 1) ∧ s.fq 4095 = none ∧ s.binding 4095 = false) ∧
        entryRead s = none ∧ entryRead { s with fe := { s.fe with qtBase := BitVec.allOnes 36 } } = some (none, 0, none) ∧
        entryRead (withEntry s 1) = some (some true, 0, none)) ∧
      (entryRead (withEntry (full .ready) 1) = some (some true, 256, none) ∧ entryRead (withEntry (full .idle) 1) = some (some true, 256, some 0) ∧
        entryRead (withEntry (front []) 0) = some (some false, 0, none)) ∧
      ((front []).fe.procs[3]? = some ({ left := 0 } : Processor) ∧ (front [ready]).pickQueue = some ready ∧
        ready.deficit ≤ 64 * max ready.entry.qslice 1 ∧ 64 * max ready.entry.qslice 1 < ({ ready with deficit := 65 } : Queue).deficit ∧
        (front []).pickQueue = none) ∧
      (let s : State := { fe := { queues := [queue .active (some p)], procs := [{ queue := some 4095 }] } }
       s.fe.procs[0]? = some { queue := some 4095 } ∧ s.fq 4095 = some (queue .active (some p))) ∧
      (front [e .error]).fq 4095 = some (e .error) ∧ (e .error).st = .error ∧ (e .error).started = [] ∧ (e .binding).st = .binding ∧
      (({ fe := { coal := [(4095, c)] } } : State).coal 4095).run = true ∧ c.hold ≤ c.elapsed := by
  repeat' apply And.intro
  all_goals decide

theorem meets_QueueControlSteps :
    let b : Packet := { begun := true }
    (front []).fq 4095 = none ∧
      (∀ e ∈ [queue .idle none, queue .ready (some b), { queue .ready none with started := [{}] }, queue .binding none, queue .error (some {}),
          { queue .active (some b) with inError := true }], (front [e]).fq 4095 = some e) ∧
      ((queue .idle none).st ≠ .binding ∧ (queue .idle none).started = [] ∧ (queue .idle none).cur = none) ∧
      (∃ p, (queue .ready (some b)).cur = some p ∧ p.begun = true) ∧ (queue .binding none).st = .binding ∧
      ((queue .error (some {})).st = .error ∧ (queue .error (some {})).failedAfter = false ∧ 4095 ∉ (front []).fe.disabled) ∧
      (∀ p, (queue .error (some {})).cur = some p → p.begun = false) := by
  refine ⟨by decide, by decide, by decide, ⟨_, rfl, rfl⟩, by decide, by decide, ?_⟩
  intro p h; cases h; rfl

theorem meets_RegisterWriteSteps :
    let busy : State := { ctl := { ready := true, mbox := { busy := true } }, fe := { qctlBusy := some (1, 1) } }
    let go : State := { ctl := { ready := true } }
    busy.ctl.mbox.busy = true ∧ go.ctl.mbox.busy = false ∧ go.ctl.ready = true ∧ State.reset.ctl.ready = false ∧ busy.fe.qctlBusy.isSome = true ∧
      go.fe.qctlBusy = none ∧ go.sched.contexts = [] ∧ (user (thread [])).sched.contexts ≠ [] ∧ (1 : Word).getLsbD 0 = true ∧
      (service (thread [])).sched.standby = true ∧ go.sched.standby = false ∧ (0x1FFF : Nat) < 0x2000 := by
  decide

/-- The first 16 bytes of a packet: type, SUBOP, and the field at 8. -/
def packet (typ subop x : Nat) : Packet :=
  { bytes := leBytes 64 (image [(0, typ), (16, subop), (64, x)]) }

/-- A machine with a privileged queue that has a packet in hand. -/
def inHand (p : Packet) : State := front [queue .active (some p)]

/-- A machine whose address translation cache maps page 0 of PASID 5. -/
def userQueue : State :=
  { front [] with svc := { atsEn := true, pasidEn := true, bound := [5], atc := [{ pasid := 5, gen := 0, sizeLog := 12, vpn := 0, ppn := 0, r := true, w := true, x := true, priv := false }] } }

/-- An access of the front end succeeds, with an outcome of which something holds. -/
def got {α : Type} (r : FeRes α) (f : State → α → Bool) : Bool :=
  match r with
  | .ok s x => f s x
  | _ => false

/-- The homes have answered a unit for all that an access needs. -/
def okay {α : Type} (r : Except State α) : Bool :=
  match r with
  | .ok _ => true
  | .error _ => false

/-- A machine with 256 live regions. -/
def manyRegions : State := { sched := { regions := (List.range 256).map fun r => (r, some {}) } }

theorem meets_PacketSteps :
    let q := queue .active
    let copy (subop : Nat) : Packet := { bytes := leBytes 64 (image [(0, 2), (16, subop), (192, 2 ^ 40 - 1)]) }
    let w (x : Nat) : Packet := { bytes := leBytes 64 (image [(0, 5), (128, x), (192, 2 ^ 64 - 1), (256, 1)]) }
    let writeSignal : Packet := { bytes := leBytes 64 (image [(0, 6), (64, 0), (384, 0)]) }
    let parked (x waited : Nat) : Queue := { queue .parked (some (w x)) with stepNo := 2, reason := .memory, waited := waited }
    let rcb (u : State) (l : List Byte) (e : Queue) : Bool :=
      let v := rcbValues (leNat l) e.root
      !rcbReserved (leNat l) && (u.parentOf e (bits (leNat l) 0 64)).isSome && !rcbRange v && decide (v.parts ≤ e.root.parts) &&
        decide (v.tpc ≤ e.root.tpc) && decide (v.gran ≤ e.root.gran) && !partWordReserved pw && !partWordAccess pw 1 v.gran && u.bmvBad 0 (leNat l)
    let bound : Queue := { q none with entry := { en := true }, pasid := some 5 }
    let launch : Packet := { bytes := leBytes 64 (image [(0, 1), (256, 1 + 2 ^ 16 + 2 ^ 32 + 2 ^ 48), (320, pw.toNat)]) }
    let user (p : Packet) : Queue := { bound with cur := some p }
    (InHand (front [user launch]) 4095 1 (user launch) launch ∧ InHand (front [user (packet 3 0 0)]) 4095 3 (user (packet 3 0 0)) (packet 3 0 0) ∧
      InHand (inHand (packet 7 0 4094)) 4095 7 (q (some (packet 7 0 4094))) (packet 7 0 4094) ∧ InHand (inHand (w 0)) 4095 5 (q (some (w 0))) (w 0)) ∧
    InHand (inHand (packet 0 0 0)) 4095 0 (q (some (packet 0 0 0))) (packet 0 0 0) ∧ InHand (inHand (copy 0)) 4095 2 (q (some (copy 0))) (copy 0) ∧
      InHand (inHand (packet 4 0 8)) 4095 4 (q (some (packet 4 0 8))) (packet 4 0 8) ∧
      InHand (inHand writeSignal) 4095 6 (q (some writeSignal)) writeSignal ∧
      (pktSubop (copy 1).body = 1 ∧ pktSubop (copy 0).body ≠ 1) ∧
      (pktCheck true (packet 9 0 0).body = some 1 ∧ pktCheck true (packet 1 0 0).body = some 11 ∧ pktCheck true (packet 4 9 0).body = some 2 ∧
        pktCheck true (packet 7 0 0).body = none) ∧
      (got ((inHand (copy 0)).pktXlat 4095 .bus 0 false) fun u x => x == 0 && got (u.pktXlat 4095 .bus 8 true) fun _ y => y == 8) = true ∧
      (got ((answered (inHand (w 0)) feId [0] false).pktRead 4095 .bus 0 8) fun _ l => waitHolds (w 0).body (leNat l) && !waitHolds (w 1).body (leNat l)) = true ∧
      (got ((inHand (packet 4 0 8)).pktXlat 4095 .bus 8 true) fun u pa => okay ((answered u feId [0] true).cohRmw feId pa 8 fun l => leBytes 8 (leNat l + 1))) = true ∧
      (got ((inHand writeSignal).pktXlat 4095 .bus 0 true) fun u pa => okay ((answered u feId [0] true).cohPut feId pa [7] false)) = true ∧
      ((front [parked 0 1024]).fq 4095 = some (parked 0 1024) ∧ (parked 0 1024).st = .parked ∧ pktType (w 0).body = 5 ∧ pktField (w 0).body 0x20 4 = 1 ∧
        1024 * pktField (w 0).body 0x20 4 ≤ (parked 0 1024).waited) ∧
      (got ((answered userQueue feId [0, 1] false).pktLines 4095 bound.space 0 2) fun u l => rcb u l bound) = true ∧ bound.space = .pasid 5 ∧
      userQueue.freeRegionNumber = some 0 ∧ 256 ≤ manyRegions.liveRegions.length ∧
      (match (front [q (some (packet 7 0 4094)), { q := 4094 }]).bindTargetOk 4094 with
        | .ok (s1, b) => b && (s1.bindingOf 4094).isNone && decide (s1.svc.bound.length < 1024)
        | .error _ => false) = true ∧
      (∀ v ∈ (front []).svc.invals, v.itag ≠ 0x100 + 4095) ∧
      (got ((front [q (some (packet 7 0 4094))]).rebind 4095 4094 none) fun _ _ => true) = true ∧
      (front [{ q none with started := [{ ser := 3, processed := true }] }]).fe.queues.all (fun e => e.started.any fun p => p.ser == 3 && p.processed && p.open_ == 0) = true := by
  simp only [InHand]
  repeat' apply And.intro
  all_goals decide

theorem meets_TranslationSteps :
    let w : XlatWait := { w := .thread 1024, cluster := some 0, va := 0x5000, needR := true, needW := true, needX := false }
    let q : AtsReq := { tag := 1, pasid := 5, gen := 0, vpn := 5, priv := false, waits := [w] }
    let c : AtsCompletion := { tag := 1, pa := 0x7000, sizeLog := 12, r := true, w := true, x := false, priv := false, u := false, abort := false }
    let p : PageReq := { prg := 3, pasid := 5, gen := 0, vpn := 5, needR := true, needW := false, needX := false, priv := false, sent := true }
    let i : Inval := { itag := 9, req := { itag := 9, va := 0, sizeLog := 64, pasid := some 5 }, pends := [], stores := [] }
    let s (v : Service) : State := { svc := v }
    ((s { ats := [q], bound := [5] }).genOf 5 = 0 ∧ 5 ∈ [5] ∧ (s { ats := [q] }).svc.bound = [] ∧ 0x7000 + 4096 ≤ (s {}).memTop ∧
        Xlat.pa { pasid := 5, gen := 0, sizeLog := 12, vpn := 5 * 4096 / 2 ^ 12, ppn := c.pa / 2 ^ 12, r := c.r, w := c.w, x := c.x, priv := c.priv } (5 * 4096) = 0x7000 ∧
        (s {}).memTop < 2 ^ 48 + 4096) ∧
      (w.needR = true → c.r = true) ∧ (w.needX = true → c.x = true) ∧ (w.priv = true → c.priv = true) ∧
      (q.stale = false ∧ (∀ j ∈ [i], j.bindPasid ≠ some q.pasid)) ∧ (∃ j ∈ [{ i with bindPasid := some 5 }], j.bindPasid = some q.pasid) ∧
      (p.sent = true ∧ p.prg = 3) ∧ (∀ p' ∈ (s { latePrgs := [3] }).svc.pages, p'.sent = false ∨ p'.prg ≠ 3) ∧
      (32 = ((List.replicate 32 i).filter fun j => j.bindPasid.isNone).length ∧
        ((({ i with bindPasid := some 4 } : Inval) :: List.replicate 31 i).filter fun j => j.bindPasid.isNone).length < 32 ∧ (s {}).bmv.jobs = []) ∧
      ((s { invals := [i] }).invalDone i = true ∧ i.bindPasid = none) ∧
      (s { invals := [i], bound := [5] }).invalDone { i with pends := [(1024, 7)] } = true ∧
      ({ user { thread [] with pend := [{ id := 7, lanes := [{ src := .mem 0x7000 }] }] } with svc := { invals := [i] } } : State).invalDone { i with pends := [(1024, 7)] } = false ∧
      5 ∈ (s { stopPending := [5] }).svc.stopPending := by
  repeat' apply And.intro
  all_goals decide
/-- A slice that holds the data of line 0, its home's first line, with nodes. -/
def home (l : List Node) : State := { slices := [(0, { lines := [(0, { data := 5 })], nodes := l })] }

/-- A request from core 3 to the home of line 0. -/
def ask (off len : Nat) : Msg := { src := 3, dst := 0x80, txid := 9, line := 0, off := off, len := len, data := some 5 }

theorem meets_HomeRequestResults :
    let n (st : NState) (sh : List Nat) : Node := { region := 0, level := 0, path := 0, st := st, sh := sh, owner := 3 }
    let s (l : List Node) := home l
    (AtHome (s []) (ask 56 8) { data := 5 } ∧ AtHome (s [n .unc []]) (ask 0 8) { data := 5 } ∧ AtHome (s [n .shr [3]]) (ask 0 8) { data := 5 } ∧
        AtHome (s [n .own []]) (ask 0 8) { data := 5 } ∧ AtHome (s [n .bcast []]) (ask 0 8) { data := 5 }) ∧
      (NoHolder (s []) (ask 56 8) ∧ NoHolder (s [n .unc []]) (ask 0 8)) ∧
      ((s [n .unc []]).sl (homeOf 0)).node 0 = some (n .unc []) ∧ ((s [n .shr [3]]).sl (homeOf 0)).node 0 = some (n .shr [3]) ∧
      ((s [n .own []]).sl (homeOf 0)).node 0 = some (n .own []) ∧ ((s [n .bcast []]).sl (homeOf 0)).node 0 = some (n .bcast []) ∧
      (s [n .shr [3]]).stillHolds (ask 0 8) = false ∧
      ({ s [n .shr [3]] with agents := [(3 * 2 ^ 42, { st := .smA })] } : State).stillHolds (ask 0 8) = true ∧
      badAtom { ask 0 8 with atop := 9 } = false ∧ badAtom { ask 0 8 with atop := 10 } = true ∧ bytesAt (5 : Vec) 0 8 = bytesAt ((ask 0 8).data.getD 0) 0 8 ∧
      bytesAt (5 : Vec) 56 8 ≠ bytesAt ((ask 0 8).data.getD 0) 0 8 ∧ ((s []).sl (homeOf 0)).reservations = [] ∧ ((s []).sl (homeOf 0)).watches = [] ∧
      (⟨3, 2, 1, 0⟩ : Reservation) ∈ [(⟨3, 2, 1, 0⟩ : Reservation)] := by
  simp only [AtHome, NoHolder]
  refine ⟨?_, ⟨fun n h => ?_, fun n h => ?_⟩, ?_⟩
  · repeat' apply And.intro
    all_goals decide
  · exact nomatch ((by decide : ((home []).sl 0).node 0 = none).symm.trans h)
  · have e : ((home [{ region := 0, level := 0, path := 0, st := .unc, sh := [], owner := 3 }]).sl 0).node 0 =
      some { region := 0, level := 0, path := 0, st := .unc, sh := [], owner := 3 } := by decide
    cases e.symm.trans h; decide
  · decide

theorem meets_SliceSteps :
    let hd (cls op rsv line : Nat) : BitVec 128 := BitVec.ofNat 128 (image [(0, cls), (3, op), (8, 0x40), (16, 0x80), (48, line), (112, rsv)])
    let hot (last : Nat) : State := { sclk := 2 ^ 18, slices := [(5, { hot := [{ line := 7, count := 1, start := 0, active := true, last := last }] })] }
    let t : Txn := { probes := [⟨0x40, 7, 0⟩] }
    let old : State := { agents := [(2 ^ 42 + 7, { st := .m, tag := 3 })] }
    isEci (bits (hd 0 0 0 0).toNat 8 8) = true ∧ bits (hd 0 0 1 0).toNat 0 3 = 0 ∧ bits (hd 0 0 1 0).toNat 112 16 ≠ 0 ∧ 7 ≤ bits (hd 0 7 0 0).toNat 3 5 ∧
      (bits (hd 2 31 0 0).toNat 0 3 ≠ 0 ∧ eciEv 2 31 {} = none) ∧
      (((hot 0).sl 5).hot.find? (fun e => e.line == 7 && e.active) = some { line := 7, count := 1, start := 0, active := true, last := 0 } ∧
        0 + 2 ^ 18 ≤ (hot 0).sclk ∧ ((hot 0).sl 5).busy 7 = false ∧ (hot 1).sclk < 1 + 2 ^ 18) ∧
      (let s : State := { slices := [(5, { filling := [(7, [])] })] }
       s.bmv.units = [] ∧ (s.sl 5).filling.find? (fun f => f.1 == 7) = some (7, [])) ∧
      isEci 0x40 = true ∧ isEci 3 = false ∧
      (({ slices := [(5, { txns := [t], lines := [(7, {})] })] } : State).sl 5).txns = [t] ∧ t.probes = [⟨0x40, 7, 0⟩] ∧
      (({ slices := [(5, { txns := [t], lines := [(7, {})] })] } : State).sl 5).data 7 = some {} ∧
      (old.linesOf 1).find? (fun e => (e.2.st == .m || e.2.st == .o) && e.2.tag != old.tagOfCore 1) = some (7, { st := .m, tag := 3 }) ∧
      (∀ e ∈ old.linesOf 1, e.2.st ≠ .xiA) := by
  repeat' apply And.intro
  all_goals decide

theorem meets_ProbeAndAnswerResults :
    let l (st : AState) : State := { agents := [(3 * 2 ^ 42, { st := st, dirty := true })] }
    let m : Msg := { src := 0x80, dst := 3, line := 0 }
    let t : Txn := { probes := [⟨3, 0, 0⟩] }
    let n : Node := { region := 0, level := 10, path := 0, st := .own, owner := 3 }
    let h (x : Slice) : State := { slices := [(0, x)] }
    (m.dst < 64 ∧ m.rsv = false ∧ m.src = homeId (homeOf m.line) ∧ (∀ st ∈ [AState.s, .e, .m, .o, .smA, .xiA, .isD, .imD, .i],
        (l st).requestWaits (homeOf 0) 3 0 = false ∧ (l st).probeWaits 3 0 = false) ∧
        ((l .s).al 3 0).st = .s ∧ ((l .m).al 3 0).st = .m ∧ ((l .smA).al 3 0).st = .smA ∧
        ((l .xiA).al 3 0).st = .xiA ∧ ((l .xiA).al 3 0).dirty = true ∧ ((l .isD).al 3 0).deferred.length < 2 ∧ ((l .i).al 3 0).ver = m.ver ∧
        ({ m with ver := 1 } : Msg).ver ≠ ((l .s).al 3 0).ver) ∧
      ((l .s).linesOf 3 = [(0, { st := .s, dirty := true })] ∧ (l .isD).linesOf 3 = [(0, (l .isD).al 3 0)] ∧ ((l .isD).al 3 0).deferred = [] ∧
        (l .s).linesOf 4 = []) ∧
      (((h { txns := [t] }).sl (0x80 - 0x80)).txns = [t] ∧ t.probes = [⟨3, 0, 0⟩] ∧ t.awaitWb = [] ∧ t.came = []) ∧
      (3, 0) ∈ ((h { filter := [(3, 0)] }).sl 0).filter ∧ (h {}).slices = [(0, {})] ∧
      ((h {}).sl 0).node 0 = none ∧ ((h { nodes := [n] }).sl 0).node 0 = some n ∧ n.level = 10 ∧
      ((h { nodes := [{ n with level := 0 }] }).sl 0).node 0 = some { n with level := 0 } := by
  repeat' apply And.intro
  all_goals decide

theorem meets_ReplyResults :
    let l (st : AState) : State := { agents := [(3 * 2 ^ 42, { st := st })] }
    let m : Msg := { src := 0x80, dst := 3, line := 0, txid := 9, data := some 5 }
    let p : Pending := { kind := .waita, lanes := [{ src := .reply, txid := 9, len := 8 }] }
    let t : Thread := { thread [] with pend := [p] }
    let c : Card := { id := 4, tk := 1024, outstanding := [9] }
    m.dst < 64 ∧ m.rsv = false ∧ ((l .isD).al 3 0).st = .isD ∧ ((l .imD).al 3 0).st = .imD ∧ ((l .omA).al 3 0).st = .omA ∧ ((l .m).al 3 0).st.transient = false ∧
      ((l .xiA).al 3 0).st = .xiA ∧ (user t).txOwner 9 ((user t).cksOfCore 0) = some 1024 ∧ (user t).cardDone 0 9 false = none ∧
      (({ user (thread []) with ctx := [(64, { cards := [c] })] } : State).cardDone 0 9 true).isSome = true ∧
      ((user t).threads = [(1024, some t)] ∧ t.findTx 9 = some (p, 0) ∧ p.kind = .waita ∧ slotOfTk 1024 = 0) ∧ State.reset.threads = [] ∧
      isEci 3 = false ∧ isEci 0x40 = true ∧ State.reset.port.held = [] ∧ State.reset.port.hostHeld = [] ∧ ({ m with len := 1 } : Msg).len ≠ 0 ∧
      ({ m with rsv := true } : Msg).rsv = true ∧ isEci m.src = false ∧ isEci m.dst = false := by
  decide

theorem meets_MulticastAndReplicaResults :
    let m : Msg := { src := 3, dst := 0x80, line := 0, txid := 9, mask := 0x8000000000000001, region := 1 }
    let g : Merge := { id := 2, line := 0, region := 1, mask := 1, issuers := List.replicate 7 (3, 9), isOpen := true }
    let s (x : Slice) : State := { slices := [(0, x)] }
    let full : List (Nat × Vec) := (List.range 32).map fun k => (k + 1, 0)
    let ways : List Redirect := (List.range 8).map fun k => ⟨k + 1, 0x81⟩
    (m.src < 64 ∧ m.rsv = false ∧ State.reset.pow.sweeping = false ∧ (State.reset.core 3).redirects = [] ∧ (State.reset.sl (homeOf 0)).merges = [] ∧
        (State.reset.sl (homeOf 0)).replay.length < 256 ∧ (State.reset.sl (homeOf 0)).hot = []) ∧
      (((s { merges := [g] }).sl (homeOf 0)).merges = [g] ∧ ((s { merges := [g] }).sl (homeOf 0)).replay.length < 256 ∧ ((s { merges := [g] }).sl (homeOf 0)).hot = []) ∧
      (g.isOpen = true ∧ g.line = m.line ∧ g.poff = m.poff ∧ g.bar = m.bar ∧ g.nobar = m.nobar ∧ g.region = m.region ∧ g.issuers.length < 8) ∧
      isEci 0x40 = true ∧ g.sent = false ∧
      (let x := (s { merges := [g], lines := [(0, {})] }).sl (homeOf 0)
       x.data 0 = some {} ∧ x.txns = [] ∧ x.filling = [] ∧ x.stable = [] ∧ x.hot = [] ∧ x.replay = [] ∧ x.node 0 = none) ∧
      (((List.range 64).filter fun p => (g.mask : Word).getLsbD p) ≠ [] ∧ ((List.range 64).filter fun p => (0 : Word).getLsbD p) = []) ∧
      ((user (thread [])).ckOfCore 0 = some 64 ∧ regionOfCk 64 = m.region ∧ regionOfCk 64 ≠ 2) ∧
      ((full.filter fun r => r.1 != 0).length = 32 ∧ (full.filter fun r => r.1 != 1).length < 32) ∧
      ((ways.filter fun r => r.line != 0).length = 8 ∧ (ways.filter fun r => r.line != 1).length < 8) := by
  repeat' apply And.intro
  all_goals decide

theorem meets_RemotePoolResults :
    let m (op sub : Nat) : Msg := { src := 7, dst := 0, ck := 64, srcCk := 65, poff := 16, len := 8, data := some 5, atop := op, sub := sub, txid := 9, thread := 0 }
    let b (target : Nat) : State := barrier (thread []) target
    let p : Pending := { kind := .fullEmpty 0x5000, lanes := [{ src := .reply, txid := 9, len := 8 }] }
    let t : Thread := { thread [] with pend := [p] }
    let r : Thread := { thread [] with remote := [⟨9, 65, 16⟩] }
    let full (bit : Bool) : State :=
      { user (thread []) with ctx := [(64, { parked := List.replicate 64 { off := 0, kind := .ldfe, remote := true }, full := if bit then [(2, true)] else [] })] }
    let sent : Msg := { m 0xE 3 with ck := 65, srcCk := 64 }
    (user t).coreOfCk 64 = some 0 ∧ (m 0 0).rsv = false ∧ (user t).coreOfCk 128 = none ∧ (user t).poolPoison 64 16 8 = none ∧
      ((user t).context (ctxKeyOfCk 64)).isSome = true ∧ (user t).context (ctxKeyOfCk 128) = none ∧
      (64 ≤ ((full false).cx 64).remoteParked ∧ (full false).fullBit 64 16 = false ∧ 64 ≤ ((full true).cx 64).remoteParked ∧ (full true).fullBit 64 16 = true) ∧
      ¬ 64 ≤ ((user t).cx 64).remoteParked ∧
      ((b 1).barExpect 64 1 5).isSome = true ∧ (b 1).barExpect 64 1 (2 ^ 48 - 4) = none ∧ ((b 1).bar 64 1).gen ≠ field (word 4) 0 16 ∧
      ((b 1).bar 64 1).gen = field (word 5) 0 16 ∧ (m 0xE 1).atop = 0xE ∧ (user t).threads = [(1024, some t)] ∧ ckOfTk 1024 = (m 0 0).ck ∧
      t.remote = [] ∧ t.btag = none ∧ t.findTx 9 = some (p, 0) ∧
      ((user t).cx 64).parked = [] ∧ ((user t).cx 64).barWait = [] ∧ ((user t).cx 64).cards = [] ∧ State.reset.threads = [] ∧
      (r.remote.any fun q => q.txid == 9) = true ∧
      ((({ cores := [(0, { spsyOut := [sent] })] } : State).core 0).spsyOut.find? fun q => q.txid == 9 && q.srcCk == 64) = some sent ∧
      (({ cores := [(3, { spsyHeld := [m 0xA 0] })] } : State).core 3).spsyHeld = [m 0xA 0] ∧ (State.reset.core 0).spwrHeld = [] ∧ Tbl.wf {} State.reset.cores = true ∧
      (∀ ck ∈ State.reset.cksOfCore 0, (State.reset.cx ck).cards = []) := by
  repeat' apply And.intro
  all_goals decide

theorem meets_MessageResults :
    let m : Msg := { src := 7, dst := 0, ck := 64, srcCk := 65, ctag := 1, region := 1, len := 8, slot := 0 }
    let s : State := user (thread [])
    let away : Context := { region := 1 }
    let gone : State := { s with sched := { s.sched with contexts := [(16, some away)] }, clusters := [] }
    let cx (x : CtxCore) : State := { s with ctx := [(64, x)] }
    let res (chunks : List Nat) : Slot := { st := .reserved, srcCk := 65, ctag := 1, length := 128, chunks := chunks }
    let o : OutCap := { ctag := 1, off := 0x3400, length := 320, dstCk := 64 }
    let d : DeadLetter := { id := 4, slot := some 0 }
    (m.rsv = false ∧ s.coreOfCk 64 = some 0 ∧ (s.core 0).spill = false ∧ (s.cx 64).inbox.length < 64) ∧
      ((∀ k, s.clusterOfCk 64 = some k → (s.clu k).resetting = false) ∧
        (let u : State := { s with clusters := [(0, { resident := some 16, resetting := true })] }
         u.coreOfCk 64 = some 0 ∧ u.clusterOfCk 64 = some 0 ∧ (u.clu 0).resetting = true)) ∧
      (let spilt : State := { s with cores := [(0, { spill := true, spillInbox := List.replicate 16 {} })] }
       (spilt.core 0).spill = true ∧ 16 ≤ (spilt.core 0).spillInbox.length) ∧
      (gone.coreOfCk 64 = none ∧ gone.context (ctxKeyOfCk 64) = some away ∧ away.deferred.length < 4096) ∧
      (State.reset.coreOfCk 64 = none ∧ State.reset.context (ctxKeyOfCk 64) = none ∧ State.reset.region (regionOfCk 64) = none) ∧
      (m.ctag = 1 ∧ State.reset.threads = []) ∧ ((State.reset.core 0).notices.length < 32 ∧ State.reset.ckOfCore 0 = none ∧ s.ckOfCore 0 = some 64) ∧
      32 ≤ (({ cores := [(0, { notices := List.replicate 32 {} })] } : State).core 0).notices.length ∧ isEci 7 = false ∧ isEci 0x40 = true ∧
      (∃ t ∈ (({ slices := [(5, { txns := [{ awaitDs := true, line := 7 }] })] } : State).sl 5).txns, t.awaitDs = true ∧ t.line = 7) ∧
      (Tbl.get 0 ({ port := { linkFails := [(3, 15)] } } : State).port.linkFails 3 + 1 = 16 ∧ Tbl.wf {} State.reset.clusters = true) ∧
      (s.outCap 64 1 = none ∧ (cx { outcaps := [o] }).outCap 64 1 = some o ∧ o.sent = false ∧ o.slot = none ∧ o.cut = false ∧
        ({ o with pend := some 7 } : OutCap).pend = some 7 ∧ ({ o with sent := true } : OutCap).sent = true ∧ ({ o with refused := true } : OutCap).refused = true) ∧
      (Tbl.get {} ((cx { slots := [(0, res [])] }).cx 64).slots 0 = res [] ∧ (res [0]).chunks.length + 1 = (128 + 63) / 64 ∧
        ([] : List Nat).length + 1 < (128 + 63) / 64) ∧
      ((cx { dead := [d] }).cx 64).dead = [d] ∧ d.marked = false ∧ d.image = none ∧ (s.valsOf 64).dlbva = 0 := by
  refine ⟨?_, ⟨fun k h => ?_, ?_⟩, ?_⟩
  · decide
  · have e : (user (thread [])).clusterOfCk 64 = some 0 := by decide
    cases e.symm.trans h; decide
  all_goals repeat' apply And.intro
  all_goals decide

theorem meets_SchedulerAndThreadSteps :
    let x : Region := { vals := { parts := 1 }, poolword := pw }
    let pending : State := { sched := { regions := [(1, some x)], svcEn := true, saveEn := true, saveCount := 1 } }
    let s (t : Thread) : State := user t
    let run (u : Nat) : Region := { st := .runnable, vals := { parts := 1, slice := 4096 }, resident := true, used := u }
    let t : Thread := thread []
    let saved : Thread := { t with place := .saved }
    let held : Thread := { t with place := .inSlot 0, st := .sync }
    let halting (l : Tbl (Option Thread)) : State :=
      { user t with threads := l, sched := { (user t).sched with contexts := [(16, some { region := 1, cluster := some 0, halting := true })] } }
    (pending.region 1 = some x ∧ pending.canRun x = true ∧ x.vals.parts = 1 ∧ pending.leastPass x.vals.prio = none ∧ pending.freeSlots.take 1 = [0]) ∧
      State.reset.canRun x = false ∧ ((run 4096).vals.slice ≤ (run 4096).used ∧ (run 4095).used < (run 4095).vals.slice) ∧
      (let e : State := { sched := { regions := [(1, some { x with st := .runnable })], contexts := [(16, some { region := 1, placed := true })] } }
       e.region 1 = some { x with st := .runnable } ∧ e.quiescent 1 { x with st := .runnable } = true) ∧
      (let g : Sched := { regions := [(1, some { x with ended := true })], contexts := [(16, some { region := 1, cluster := some 0 })] }
       let e (b : Bool) : State := { threads := [(1039, some { noticeHeld := b })], sched := g }
       (e true).serviceBusy 1 = true ∧ (e false).serviceBusy 1 = false) ∧ (s t).quiescent 1 x = false ∧
      ((s t).haltReady 16 = false ∧ (halting []).haltReady 16 = true ∧ (halting []).threadsOf 16 = [] ∧ (halting [(1024, some t)]).haltReady 16 = true ∧
        (halting [(1024, some t)]).threadsOf 16 = [(1024, t)]) ∧
      (State.reset.swapReady 0 = false ∧
        (let u : State := { clusters := [(0, { incoming := some 16 })], sched := { regions := [(1, some x)], contexts := [(16, some { region := 1, placed := true })] } }
         u.swapReady 0 = true ∧ u.fits 0 16 = true ∧ (u.clu 0).failed = [] ∧ (u.clu 0).resident = none ∧ (u.clu 0).incoming = some 16 ∧
           ∀ j < 4, u.thr (mkTk (mkCk standbyRegion (4 * 0 + j)) 15) = none)) ∧
      (State.reset.inBay 0 = none ∧
        (let u (b : Bool) : State := { sched := { regions := [(1, some { x with selected := b })], contexts := [(16, some { bay := some 2 })] } }
         (u false).inBay 2 = some 16 ∧ (u false).isSelected 16 = false ∧ (u true).isSelected 16 = true)) ∧
      ((s saved).coreOfCk 64 = some 0 ∧ (s saved).halting 64 = false ∧ (s saved).rosterUsers 0 = [(1024, saved)] ∧ saved.savedReady = true ∧
        (s saved).freeSlot 0 64 = some 0) ∧
      (({ t with preempt := some 0 } : Thread).quiet = true ∧ t.preempt ≠ some 0 ∧ (s t).coreOfCk t.roster = some 0) ∧
      (({ t with missed := true } : Thread).missed = true ∧ saved.place = .saved ∧ t.missed = false ∧ ({ t with hbeatwin := 1 } : Thread).hbeatwin ≠ 0 ∧
        t.st ≠ .stopped ∧ (thread []).place = .inSlot 0) ∧
      (isService 1024 = false ∧ t.hbeatwin = 0 ∧ t.st = .ready ∧
        (({ user t with sched := { regions := [(1, some { x with vals := { parts := 1, hbarm := true, hbwin := 5 } })] } } : State).valsOf 64).hbarm = true) ∧
      (State.reset.serveOne 64 = none) ∧
      (let p : Pending := { kind := .waita, lanes := [{}] }
       let w : Thread := { held with pend := [p], waitlimit := 7, waitcount := 7 }
       w.waitlimit ≠ 0 ∧ w.waitlimit.toNat ≤ w.waitcount ∧ p.complete = false ∧ p.waitState = .sync ∧ ({ w with waitcount := 6 } : Thread).waitcount < w.waitlimit.toNat) ∧
      (({ t with cyclecmp := 100 } : Thread).cyclecmp.toNat ≤ (s t).cycleOf t ∧ (s t).cycleOf t < ({ t with cyclecmp := 101 } : Thread).cyclecmp.toNat) ∧
      (({ t with inten := 3, trapvec := 0x4000 } : Thread).canTrap = true ∧ (3 : Word).getLsbD 0 = true ∧ (3 : Word).getLsbD 1 = true) ∧
      (let p : Pending := { lanes := [{ done := true }], poison := some 64 }
       p.complete = true ∧ [p].find? Pending.bad = some p) := by
  repeat' apply And.intro
  all_goals decide

/-- The machine of a user thread, with page 0 of its region's PASID translated. -/
def engineMem (pasid : Nat) : State :=
  { user (thread []) with svc := { atsEn := true, pasidEn := true, bound := [pasid], atc := [{ pasid := pasid, gen := 0, sizeLog := 12, vpn := 0, ppn := 0, r := true, w := true, x := true, priv := false }] } }

theorem meets_EngineSteps :
    let f (out : Bool) (q : List Vec) : Flume := { base := 0x3000, out := out, cnt := [2], str := [64], queue := q }
    let t (out : Bool) (q : List Vec) : Thread := { thread [] with flumes := [(7, f out q)] }
    let c (k : JobKind) : Card := { id := 4, kind := k, tk := 1024, dims := [{ cnt := 8, sstr := 1, dstr := 1 }], src := sp 0x3000, dst := sp 0x3100 }
    let s (x : CtxCore) : State := { user (thread []) with ctx := [(64, x)] }
    let done8 : Card := { c .copy with started := true, pos := 8 }
    let most : Card := { c .copy with started := true, outstanding := List.replicate 1024 0 }
    let fires : CtxCore := { sbterm := [(0, 0x60)], sbcnt := [(0, 1)], sbout := [(0, 0x2000020)] }
    ((user (t false [])).thr 1024 = some (t false []) ∧ (t false []).place = .inSlot 0 ∧ (t false []).st = .ready ∧ (f false []).pos < (f false []).total ∧
        (f true [5]).queue = 5 :: [] ∧ 4 ≤ (f false [1, 2, 3, 4]).queue.length) ∧
      ((s { cards := [c .bmv] }).cardOf 64 4 = some (c .bmv) ∧ (s {}).halting 64 = false ∧ (s {}).coreOfCk 64 = some 0 ∧ (c .bmv).held = none ∧
        (∀ a ∈ ((s { cards := [c .bmv] }).cx 64).cards, a.before (c .bmv) = false)) ∧
      (∃ a ∈ ((s { cards := [{ c .copy with id := 3, writes := [{ ck := some 64, base := 0x3000, len := 8 }] }] }).cx 64).cards,
        a.before { c .copy with seq := 1, reads := [{ ck := some 64, base := 0x3000, len := 8 }] } = true) ∧
      (done8.copyOver = true ∧ (c .copy).copyOver = false ∧ (c .copy).pos < dimTotal (c .copy).dims ∧ (c .copy).status < 2 ∧
        dimTotal done8.dims ≤ done8.pos ∧ ({ done8 with outstanding := [1] } : Card).copyOver = false) ∧
      (1024 ≤ most.outstanding.length ∧ most.copyOver = false) ∧
      ((match (s {}).jobPlace 64 done8 (sp 0x3400) 8 false true with | .pool 64 0x3400 => true | _ => false) = true) ∧
      (match (s {}).jobPlace 64 done8 (sp 0x30000) 8 false true with | .fail _ => true | _ => false) = true ∧
      (match (engineMem 5).jobPlace 64 done8 8 8 false true with
        | .mem v pa => okay ((answered v 0 [0] true).cohPut 0 pa (leBytes 8 0) false) && !okay (v.cohPut 0 pa (leBytes 8 0) false)
        | _ => false) = true ∧
      (({ c .mlong with count := 1 } : Card).pos < ({ c .mlong with count := 1 } : Card).count) ∧
      (outletFires fires 0 = some 0 ∧ outletFires {} 0 = none) := by
  repeat' apply And.intro
  all_goals decide

theorem meets_MatrixUnitAndBankSteps :
    let r (op : MxOp) : MxReq := { id := 4, op := op, ck := 64, tk := 1024, step := 31, fmt := bf16Fmt }
    let s (x : Cluster) : State := { user (thread []) with clusters := [(0, { x with resident := some 16 })] }
    let run : BankRun := { rows := 256, ks := 32, fmt := 5 }
    let b (x : BankUnit) : State := { bmv := { units := [(7, x)], extEn := true } }
    let j : BmvJob := { id := 2, ck := 64, phase := .writing }
    let job (j : BmvJob) : State := { bmv := { jobs := [j] } }
    let going : BmvJob := { j with phase := .running, swept := true }
    let units (x : BankUnit) : State := { bmv := { jobs := [going], units := [(7, { x with job := some 2 })], extEn := true }, agenda := [.bres 7] }
    (((s { mxQueue := [(2, [r (.mma true)])] }).clu 0).mxStep = none ∧ ((s { mxQueue := [(2, [r (.mma true)])] }).clu 0).resident = some 16 ∧
        ((s { mxQueue := [(2, [r (.mma true)])] }).clu 0).mxNext 3 = some 2 ∧ Tbl.get [] ((s { mxQueue := [(2, [r (.mma true)])] }).clu 0).mxQueue 2 = [r (.mma true)] ∧
        (s {}).context 16 = some { region := 1, cluster := some 0, placed := true } ∧ (r .mchol).op.isFact = true) ∧
      (State.reset.clu 0).resident = none ∧ ((s { mxStep := some (r .mchol) }).clu 0).mxStep = some (r .mchol) ∧
      (match (s {}).factEval (r .mchol) with | .error _ => true | .ok _ => false) = true ∧
      (match (s {}).factEval (r (.mtrsm false true true)) with | .ok _ => true | .error _ => false) = true ∧
      (((s { mxDone := [r .mchol] }).clu 0).mxDone = [r .mchol] ∧ (r .mchol).fault = none ∧ (r .mchol).bad = none) ∧
      ((b {}).bankExt = true ∧ ({ bmv := { extEn := false } } : State).bankExt = false ∧ ((b {}).bank 7).running = false ∧ ((b { run := some run }).bank 7).running = true ∧
        ((b { run := some run }).bank 7).run = some run ∧ ((b { run := some run }).bank 7).halted = false ∧ ((b { run := some run, halted := true }).bank 7).halted = true ∧
        (bmvSizes run.fmt run.scl).isSome = true ∧ 95 + 1 ≤ 96 ∧ 255 + 1 ≤ 256) ∧
      ((∃ v ∈ (units { run := some run, halted := true }).jobUnits 2,
          ((units { run := some run, halted := true }).bank v).run ≠ none ∧ ((units { run := some run, halted := true }).bank v).halted = true) ∧
        (∀ v ∈ (units {}).jobUnits 2, ((units {}).bank v).halted = false) ∧ (units {}).cmdPending ((units {}).jobUnits 2) = true ∧ going.phase = .running) ∧
      ((job j).bmvJob 2 = some j ∧ j.phase = .writing ∧ j.ys.length ≤ j.written ∧ j.staddr = 0 ∧ (job j).bmvJob 3 = none ∧ (job j).svc.invals = [] ∧
        (job going).jobUnits 2 = [] ∧ (job { j with phase := .sweeping }).coreOfCk 64 = none) ∧
      (let w : BmvJob := { j with ys := [(5, false)], yaddr := sp 0x3000, ysp := true, status := 1 }
       (match (s {}).writeY w with | .ok _ => true | .error _ => false) = true ∧ w.written < w.ys.length ∧ w.status ≠ 5 ∧ w.status < 2) := by
  repeat' apply And.intro
  all_goals decide

theorem meets_GeometryRegisters :
    let x : Region := { gx := 0xFFFF, gy := 1, gz := 1, tpc := 15, vals := { parts := 16 } }
    (1 ≤ x.gx ∧ x.gx < 2 ^ 16 ∧ 1 ≤ x.gy ∧ x.gy < 2 ^ 16 ∧ 1 ≤ x.gz ∧ x.gz < 2 ^ 16 ∧ x.tpc < 2 ^ 4 ∧ x.vals.parts ≤ 16 ∧ 14 < x.tpc) ∧
      (user (thread [])).thr 1024 = some (thread []) := by
  decide

theorem meets_NodeMerge :
    let n (path : Nat) : Node := { region := 4, level := 10, path := path }
    let s : State := { sclk := 2 ^ 18, slices := [(0, { nodes := [n 2, n 3] })] }
    (s.sl 0).nodes = [n 2, n 3] ∧ (s.sl 1).nodes = [] ∧ 1 ≤ (n 2).level ∧ (n 2).level ≤ 10 ∧ (n 2).path % (2 * 2 ^ (10 - 10)) = 0 ∧
      (n 3).path = (n 2).path + 2 ^ (10 - 10) ∧
      ((n 2).used + 2 ^ 18 ≤ s.sclk ∧ (s.sl 0).nodeBusy (n 2) = false ∧ (s.sl 0).nodePinned (n 3) = false) ∧
      ¬ ((n 2).used + 2 ^ 18 ≤ ({ s with sclk := 2 ^ 18 - 1 } : State).sclk) := by
  decide

/-- The service thread of core 0 that fetches the word of ADDI g5, g0, 7, on core 0's turn. -/
theorem meets_StepRunsTheDecodedInstruction :
    let w := 0x40000000 + 3 * 2 ^ 24 + 5 * 2 ^ 19 + 7
    let s : State := { State.reset.withFetchWord 32 w with choices := [.core 0] }
    let s1 : State := { s.tickClock.tickCycles with choices := [] }
    let s2 := s1.beginTurn 0
    let t : Thread := { pc := 0, priv := 1, place := .inSlot 15, roster := mkCk standbyRegion 0, threadId := 15 }
    let m (txid : Nat) : Ev := .rds { src := 3, dst := 0x80, txid := txid }
    s1.coreRuns 0 = true ∧ s2.candidates 0 = [(15, svcKey)] ∧ s2.thr svcKey = some t ∧ t.interrupt? = none ∧
      (match ({ s2 with unit := { tk := svcKey, addr := t.pc, core := 0 } } : State).fetch svcKey t with
        | .line _ d => bytesAt d 0 4 == w
        | _ => false) = true ∧ bits w 31 1 = 0 ∧ decodeWord w = some (.addi 5 0 7) ∧ isF64vWord w = false ∧
      (bits 0x8501FFFF 31 1 = 1 ∧ bits 0x8501FFFF 30 1 = 0 ∧ bits 0x40A52A00 30 1 = 1 ∧ standsAlone (.jmp true 0x1FFFF) = false) ∧
      ({ agenda := [.dispatch 0], flip := true } : State).agenda = .dispatch 0 :: [] ∧ channelKey (.dispatch 0) = none ∧
      (let l := [Ev.dispatch 0, m 1, m 2]
       l[2]? = some (m 2) ∧ l[1]? = some (m 1) ∧ sameChannel (m 1) (m 2) = true ∧ ∀ b ∈ l.take 1, sameChannel b (m 2) = false) := by
  repeat' apply And.intro
  all_goals decide

theorem meets_DecodeInvertsEncode :
    encode (.addi 31 31 0x3FFF) = some 0x43FFFFFF ∧ Instr.wf (.addi 31 31 0x3FFF) = true ∧ (0x43FFFFFF : Nat) < 2 ^ 32 := by decide
theorem meets_StepKeepsMemoryCanonical : Memory.wf (State.reset.withFetchWord 32 0x43FFFFFF).dram = true := by decide

end Sys2Proof.Tests
end

section
/-!
SUPPORT. The round trip of every instruction, from the lemma of each one, and of a number through its little-endian bytes (R5).
-/

namespace Sys2Proof.Laws

namespace RoundTrip

/-- The round trip of every instruction: the case split on `Instr`, whose cases are the lemmas above, in the order of its constructors. -/
theorem forall_instr (i : Instr) : Statement i :=
  i.casesOn
    beq bne blt bge bltu bgeu bdec btagf btage bany bnone ball bnall jmp call jr callr ret yield hbeat cnop sendw sendv sendc recvw recvv
    ptest waitw srr srw srset srclr eret icinv sighost trap ppt dsread dsprobe dsdone dsclr dsbcast dsstab dsrel dspoll spltake lbsend
    splend ldBu ldHu ldWu ldD ldB ldH ldW stB stH stW stD ldxBu ldxHu ldxWu ldxD ldxB ldxH ldxW stxB stxH stxW stxD vld vst vgath vscat
    vldm vstm ldfe ldff stfe stff amoadd amoand amoor amoxor amosmax amosmin amoumax amoumin amoswap amocas ldlkW ldlkD stckW stckD ldacq
    strel fence waita barinit barexpect bararrive waitbar barread cpyb cpyt cpyth mlong mlongh bmvj bmvjh fbind funbind sbpulse sbclr
    capsend capret capdrop capdead cappop cappush capset capget capskip mma mmaz zrd zwr mclr medge mlu mchol mqr mtrsm mfmt mctld mctset
    add sub and or xor andn sll srl sra rol ror slt sltu seq min max minu maxu mul mulh mulhu div divu rem remu add32 sub32 mul32 madd
    msub csel clz ctz popc bswap sextB sextH sextW zextW addi andi ori xori slli srli srai rori slti sltiu movhi insh fadd fsub fmul fdiv
    fsqrt fmin fmax fneg fabs fcpsgn fcmeq fcmlt fcmle ffma ffms ffnma ffnms fconv frint vadd vadds vsub vsubs vmul vmulh vdiv vmin vmax
    vfma vfms vfnma vfnms vand vor vxor vandn vshl vshr vsra vrol vcmpeq vcmpne vcmplt vcmple vsel vneg vabs vcpsgn vmov vsqrt vexp2 vlog2
    vrcp vrsqrt vmix32 vmix32u vmix32r vrsum vrmax vrmin vscsum vscmax vscmin vperm vcompr vbcast vsplat vins vext vcvt vqblkSb8 vqblkSb4
    vdqblkSb8 vdqblkSb4 mand mor mxor mandn mtog gtom mpopc mfirst viota vaddF64 vsubF64 vmulF64 vdivF64 vfmaF64 vfmsF64 vfnmaF64 vfnmsF64
    vminF64 vmaxF64 vsqrtF64 vrsumF64 vcvtF64 powerOnReset deviceReset bootLayer clusterReset linkReset laneFault linkTrainTimeout
    channelFailure correctedError droopTrip droopStretchEnd clockFrequencySwitch ls1Entry ls2Entry ls3Entry ls4Entry powerStateExit
    retentionSleep controlCoreWake lattolWrite pwrlimitWrite readlog report readerr stage badop mailboxCompletion evict resume skip
    disable qctlBadOperation doorbell svcimgWrite registerWrite priEnable queueLoad queueSelect queueSliceExpiry nopPacket launchPacket
    copyPacket bmvPacket signalPacket waitPacket waitPoll waitTimeout writeSignalPacket bindPacket unbindPacket priStopMarker customPacket
    packetComplete coalescerHoldExpiry atsTranslationCompletion pageRequestResponse pageRequestTimeout atsInvalidateRequest
    invalidationCompletion rds rdx upg rdnc wrnc wrf atom llk sck watch eciMalformedRequest nodeMerge replicaDrop dramFill replayRetry
    probeTimeout sinv sshr sbinv ds de dm gm cmp atr lkd scf woke rty wba wbx pack pdat wbd evc crd l1BackgroundSweep mcrd mcrdWindowClose
    mcd spwr sprd spsy spsyResend spdat repl rrec rdin rdrm grant alwRet cret dsack userMessage dec notice dirsvc lreq lreqResend chunk
    deferredMessageRetry networkLinkRetry regionRunnable regionSliceExpiry regionEnd partitionHalt contextSwap bayBackgroundWrite
    rosterMultiplex graceExpiry heartbeatMiss dispatch waitLimitExpiry timerExpiry interruptEntry deferredPoison flumeTransfer
    jobCardStart copyJobComplete jobStatusFail sluiceOutletFire matrixRequestServe matrixResultBind factorisationStepEnd mlongComplete
    bmvJobStart xld brun bhalt bres prd bankPassBatchEnd bmvJobCompletion deadLetter dsdoneWaitLog adapterRetry supplyRecovery
    unrecoverableFailure

end RoundTrip

/-- The word that the encoding tables give a well-formed instruction decodes to it (R285 to R295). -/
theorem decodeWord_encode {i : Instr} {w : Nat} (hi : encode i = some w) (hwf : i.wf = true) : decodeWord w = some i :=
  RoundTrip.forall_instr i w hi hwf

/-- No two well-formed instructions share a word (R288). -/
theorem encode_injective {i j : Instr} {w : Nat} (hi : encode i = some w) (hj : encode j = some w) (hiwf : i.wf = true)
    (hjwf : j.wf = true) : i = j :=
  Option.some.inj ((decodeWord_encode hi hiwf).symm.trans (decodeWord_encode hj hjwf))

/-- Reading back the `n` little-endian bytes of a number gives the number, modulo what `n` bytes hold (R5). -/
theorem leNat_leBytes (n w : Nat) : leNat (leBytes n w) = w % 256 ^ n := by
  induction n generalizing w with
  | zero => simp [leBytes, leNat, Nat.mod_one]
  | succ n ih =>
    rw [leBytes, leNat, ih, BitVec.toNat_ofNat, Nat.pow_succ' (m := 256), Nat.mod_mul]

/-- The decoder takes the four bytes of a word from memory and leaves the bytes that follow. -/
theorem decodeBytes_leBytes_append {w : Nat} {i : Instr} (hdec : decodeWord w = some i) (hw : w < 2 ^ 32) (rest : List Byte) :
    decodeBytes (leBytes 4 w ++ rest) = some (i, rest) := by
  have hval : leNat (leBytes 4 w) = w := (leNat_leBytes 4 w).trans (Nat.mod_eq_of_lt hw)
  simp only [leBytes] at hval
  simp only [leBytes, List.cons_append, List.nil_append, decodeBytes, hval, hdec, Option.map_some]

end Sys2Proof.Laws
end

section
/-!
CERTIFICATE. The decoder inverts the encoder.
-/

open Sys2Proof Sys2Proof.Laws

/-- Settles O57: the case split on the instruction gives the round trip; that no word is shared, and that decoding from memory agrees,
follow from it. -/
theorem decodeInvertsEncode : Obligations.DecodeInvertsEncode := by
  unfold Obligations.DecodeInvertsEncode
  intro i j w hi hiwf
  have hdec : decodeWord w = some i := decodeWord_encode hi hiwf
  exact ⟨hdec, fun hj hjwf => encode_injective hj hi hjwf hiwf, fun hw rest => decodeBytes_leBytes_append hdec hw rest⟩
end

section
/-!
SUPPORT. What a write of a host register does, register by register (R6, R39, R104, R132).
-/

namespace Sys2Proof.Laws

open Machine

/-- REGISTER_WRITE is the register's own effect. -/
theorem steps_registerWrite {off : Nat} {v : Word} {s s' : State} : Steps (.registerWrite off v) s s' ↔ s.onRegister off v = s' :=
  ⟨Host.Outcome.next.inj, congrArg _⟩

/-- SVCIMG_WRITE is the register's own effect. -/
theorem steps_svcimgWrite {v : Word} {s s' : State} : Steps (.svcimgWrite v) s s' ↔ s.onSvcimg v = s' :=
  ⟨Host.Outcome.next.inj, congrArg _⟩

/-- A field of a register, read as a number and stored in its width, is the slice of the word. -/
theorem ofNat_field (v : Word) (lo n : Nat) : BitVec.ofNat n (field v lo n) = v.extractLsb' lo n := by
  apply BitVec.eq_of_toNat_eq
  simp [field, bits, Nat.shiftRight_eq_div_pow]

/-- The low field of a register is the word cut to its width. -/
theorem ofNat_field_low (v : Word) (n : Nat) : BitVec.ofNat n (field v 0 n) = v.setWidth n := by
  apply BitVec.eq_of_toNat_eq
  simp [field, bits]

theorem field_low (v : Word) (n : Nat) : field v 0 n = v.toNat % 2 ^ n := by
  simp [field, bits]

variable {s : State}

/-! ## The window, the queue table and the mailbox address -/

theorem onRegister_window (v : Word) : s.onRegister 0x2808 v =
    { s with bmv := { s.bmv with winEn := v.getLsbD 0, winBase := v.extractLsb' 30 18, winSize := v.extractLsb' 48 8 } } := by
  simp [State.onRegister, ofNat_field]

theorem onRegister_mailboxAddress (v : Word) : s.onRegister 0x3010 v =
    { s with ctl := { s.ctl with mbox := { s.ctl.mbox with addr := v.extractLsb' 12 52 } } } := by
  simp [State.onRegister, ofNat_field]

theorem onRegister_queueTable (v : Word) : s.onRegister 0x4000 v =
    { s with fe := { s.fe with qtEn := v.getLsbD 0, qtBase := v.extractLsb' 12 36 } } := by
  simp [State.onRegister, ofNat_field]

/-! ## MBCMD (R39) -/

/-- The step of a mailbox command. -/
def mailboxStep (op : Nat) : Ev :=
  if op = 1 then .readlog else if op = 2 then .report else if op = 3 then .readerr else if op = 4 then .stage else .badop

/-- MBCMD is ignored while a command is in progress or layer 2 does not run. -/
theorem onMbcmd_ignored (v : Word) (h : s.ctl.mbox.busy = true ∨ s.ctl.ready = false) : s.onMbcmd v = s := by
  simp [State.onMbcmd, h]

theorem onMbcmd_start (v : Word) (hidle : s.ctl.mbox.busy = false) (hready : s.ctl.ready = true) : s.onMbcmd v =
    (({ s with ctl := { s.ctl with mbox := { s.ctl.mbox with
        busy := true, op := v.setWidth 8, arg := v.extractLsb' 8 8, base := s.ctl.mbox.addr, status := 0, length := 0 } } } : State).wakeControl.later
      (mailboxStep (v.toNat % 256))) := by
  have hop : v.toNat % 256 = field v 0 8 := (field_low v 8).symm
  simp only [hop, State.onMbcmd, ofNat_field, ← ofNat_field_low, hidle, hready, Bool.false_eq_true, Bool.not_true, or_self, if_false,
    mailboxStep]
  congr 1
  split <;> simp_all

/-! ## QCTL (R104) -/

/-- The step of a queue-control operation. -/
def queueControlStep (k q : Nat) : Ev :=
  if k = 1 then .evict q else if k = 2 then .resume q else if k = 3 then .skip q else if k = 4 then .disable q else .qctlBadOperation q

theorem onQctl_busy (v : Word) (h : s.fe.qctlBusy.isSome = true) : s.onQctl v = s := by
  simp [State.onQctl, h]

theorem onQctl_start (v : Word) (h : s.fe.qctlBusy = none) : s.onQctl v =
    (({ s with fe := { s.fe with qctlBusy := some (v.toNat % 2 ^ 12, v.toNat / 2 ^ 12 % 8) } } : State).later
      (queueControlStep (v.toNat / 2 ^ 12 % 8) (v.toNat % 2 ^ 12))) := by
  have hq : v.toNat % 2 ^ 12 = field v 0 12 := (field_low v 12).symm
  have hk : v.toNat / 2 ^ 12 % 8 = field v 12 3 := rfl
  simp only [hq, hk, State.onQctl, h, Option.isSome_none, Bool.false_eq_true, if_false, queueControlStep]
  congr 1
  split <;> simp_all

/-! ## The save area and the service image (R132) -/

theorem onRegister_saveArea (v : Word) (h : s.sched.contexts = []) : s.onRegister 0x5000 v =
    { s with sched := { s.sched with saveEn := v.getLsbD 0, saveBase := v.extractLsb' 23 25 } } := by
  simp [State.onRegister, ofNat_field, State.noContexts, h]

theorem onRegister_saveCount (v : Word) (h : s.sched.contexts = []) : s.onRegister 0x5008 v =
    { s with sched := { s.sched with saveCount := v.setWidth 13 } } := by
  simp [State.onRegister, ofNat_field_low, State.noContexts, h]

theorem onRegister_serviceData (v : Word) (h : s.sched.contexts = []) : s.onRegister 0x5018 v =
    { s with sched := { s.sched with svcDataBase := v.extractLsb' 24 24 } } := by
  simp [State.onRegister, ofNat_field, State.noContexts, h]

/-- The save-area and service registers keep their value while a partition context exists. -/
theorem onRegister_of_contexts {off : Nat} (v : Word) (h : s.sched.contexts ≠ []) (hoff : off ∈ [0x5000, 0x5008, 0x5018]) :
    s.onRegister off v = s := by
  simp only [List.mem_cons, List.not_mem_nil, or_false] at hoff
  obtain rfl | rfl | rfl := hoff <;> simp [State.onRegister, State.noContexts, h]

theorem onSvcimg_of_contexts (v : Word) (h : s.sched.contexts ≠ []) : s.onSvcimg v = s := by
  simp [State.onSvcimg, State.noContexts, h]

theorem onSvcimg_base (v : Word) (h : s.sched.contexts = []) (hstay : v.getLsbD 0 = false ∨ s.sched.standby = true) : s.onSvcimg v =
    { s with sched := { s.sched with svcEn := v.getLsbD 0, svcBase := v.extractLsb' 12 36 } } := by
  obtain hen | hby := hstay
  · simp [State.onSvcimg, ofNat_field, State.noContexts, h, hen, -BitVec.getLsbD_eq_getElem]
  · simp [State.onSvcimg, ofNat_field, State.noContexts, h, hby]

/-- The first EN = 1 creates the standby contexts. -/
theorem onSvcimg_first (v : Word) (h : s.sched.contexts = []) (hen : v.getLsbD 0 = true) (hfirst : s.sched.standby = false) : s.onSvcimg v =
    ({ s with sched := { s.sched with svcEn := true, svcBase := v.extractLsb' 12 36 } } : State).createStandby := by
  simp [State.onSvcimg, ofNat_field, State.noContexts, h, hen, hfirst, -BitVec.getLsbD_eq_getElem]

/-! ## Reserved offsets -/

/-- A reserved offset below the power registers has no effect (R6). -/
theorem onRegister_of_lt_power {off : Nat} (v : Word) (hoff : off < 0x2000) : s.onRegister off v = s := by
  have hcoal : ¬ 0x10000 ≤ off := by omega
  have hcap : off ≠ atsControl ∧ off ≠ pasidControl ∧ off ≠ priAllocation ∧ ¬ msixControl 0 ≤ off := by
    simp only [atsControl, pasidControl, priAllocation, msixControl]; omega
  obtain ⟨hats, hpasid, hpri, hmsix⟩ := hcap
  unfold State.onRegister
  split
  case h_12 => simp [hcoal, hats, hpasid, hpri, hmsix]
  all_goals omega

end Sys2Proof.Laws
end

section
/-!
CERTIFICATE. Writes of the host's registers.
-/

open Sys2Proof Sys2Proof.Machine Sys2Proof.Laws

/-- Settles O19: each clause is the lemma of its register. -/
theorem registerWriteSteps : Obligations.RegisterWriteSteps := by
  unfold Obligations.RegisterWriteSteps
  intro s v
  simp only [steps_registerWrite, steps_svcimgWrite]
  refine ⟨onRegister_window v, onRegister_mailboxAddress v, onRegister_queueTable v, onMbcmd_ignored v, onMbcmd_start v, onQctl_busy v,
    onQctl_start v, fun hfree => ?_, fun hheld => ?_, fun off hoff => onRegister_of_lt_power v hoff⟩
  · exact ⟨onRegister_saveArea v hfree, onRegister_saveCount v hfree, onRegister_serviceData v hfree, onSvcimg_base v hfree,
      onSvcimg_first v hfree⟩
  · exact ⟨onRegister_of_contexts v hheld (by simp), onRegister_of_contexts v hheld (by simp),
      onRegister_of_contexts v hheld (by simp), onSvcimg_of_contexts v hheld⟩
end

section
/-!
CERTIFICATE. The state after reset.
-/

open Sys2Proof Sys2Proof.Machine Sys2Proof.Laws

/-- After reset every memory is canonical: DRAM lists nothing and there is no context core, so no pool. -/
theorem reset_canonical : Canonical State.reset where
  dram := reset_wf
  ctx := rfl
  pools := fun _ he => absurd he List.not_mem_nil

/-- Settles O56: every value is the field of the reset state itself. -/
theorem resetState : Obligations.ResetState := by
  unfold Obligations.ResetState
  exact ⟨rfl, rfl, rfl, rfl, rfl, rfl, rfl, rfl, rfl, rfl, rfl, rfl, rfl, rfl, rfl, rfl, rfl, rfl, rfl, rfl, rfl, reset_canonical, reset_wf⟩
end

section
/-!
SUPPORT. What leaves DRAM alone: for each operation of the machine that writes no byte of it, its memory is the memory before.
-/

namespace Sys2Proof.Machine

variable (s : State)

/-- A choice between two states changes no byte of DRAM if neither does. -/
@[simp] theorem State.ite_dram (c : Prop) [Decidable c] (a b : State) : (if c then a else b).dram = if c then a.dram else b.dram :=
  apply_ite State.dram c a b

/-- A fold of steps that leave DRAM alone leaves DRAM alone. -/
@[simp] theorem foldS_dram {α : Type} {f : α → State → State} (hf : ∀ a s, (f a s).dram = s.dram) (l : List α) (s : State) :
    (foldS f l s).dram = s.dram := by
  induction l generalizing s with
  | nil => rfl
  | cons a l ih => exact (ih (f a s)).trans (hf a s)

/-- Posting one step for each element of a list changes no byte of DRAM. -/
theorem foldS_later_dram {α : Type} (e : α → Ev) (l : List α) : (foldS (fun a (s : State) => s.later (e a)) l s).dram = s.dram :=
  foldS_dram (f := fun a s => s.later (e a)) (fun _ _ => rfl) l s

/-- The states that a translation answers with have the DRAM given. -/
@[simp] def XRes.DramIs (d : List Host.Cell) : XRes → Prop
  | .pa s _ | .wait s _ => s.dram = d
  | .fault _ => True

/-! ### Ops -/

@[simp] theorem State.logError_dram (cls : Nat) (u : HwUnit) (addr : Word) : (s.logError cls u addr).dram = s.dram := by rfl
@[simp] theorem State.wakeControl_dram : s.wakeControl.dram = s.dram := by rfl
@[simp] theorem State.startDead_dram (ck : Nat) (d : DeadLetter) : (s.startDead ck d).dram = s.dram := by rfl
@[simp] theorem State.deadSlot_dram (ck k : Nat) (d : DeadLetter) : (s.deadSlot ck k d).dram = s.dram := by rfl

@[simp] theorem State.deadLetterHeld_dram (tk reason cause : Nat) (pc val : Word) (code : Nat) :
    (s.deadLetterHeld tk reason cause pc val code).dram = s.dram := by
  unfold State.deadLetterHeld
  (repeat' split) <;> simp

@[simp] theorem State.stopThread_dram (tk cause : Nat) : (s.stopThread tk cause).dram = s.dram := by
  unfold State.stopThread
  split <;> simp

@[simp] theorem State.deadLetterLanded_dram (ck : Nat) : (s.deadLetterLanded ck).dram = s.dram := by simp [State.deadLetterLanded]

@[simp] theorem State.feWrite_dram (q : Option Nat) (space : Space) (va : Nat) (data : List Byte) :
    (s.feWrite q space va data).dram = s.dram := by
  rfl

@[simp] theorem State.rcbWrite_dram (r off : Nat) (data : List Byte) : (s.rcbWrite r off data).dram = s.dram := by
  unfold State.rcbWrite
  split <;> simp

@[simp] theorem State.sendNotice_dram (r rc : Nat) (rec_ : List Byte) : (s.sendNotice r rc rec_).dram = s.dram := by rfl

@[simp] theorem State.setRegionState_dram (r : Nat) (st : RState) (cause : Nat) : (s.setRegionState r st cause).dram = s.dram := by
  simp [State.setRegionState]

@[simp] theorem State.faultRegion_dram (r cause : Nat) : (s.faultRegion r cause).dram = s.dram := by
  unfold State.faultRegion
  rw [State.later_dram, State.ite_dram, State.setRegionState_dram, ite_self, foldS_dram (fun _ _ => by simp),
    foldS_dram (fun _ _ => by simp)]

@[simp] theorem State.faultEventAux_dram (n r : Nat) (f : FaultRec) (rcb : Nat) : (State.faultEventAux n s r f rcb).dram = s.dram := by
  induction n generalizing s r f with
  | zero => rfl
  | succ n ih =>
    unfold State.faultEventAux
    split
    · rfl
    · dsimp only
      split
      · simp
      · split <;> simp [ih]

@[simp] theorem State.faultEvent_dram (r : Nat) (f : FaultRec) : (s.faultEvent r f).dram = s.dram := by
  unfold State.faultEvent
  split <;> simp

@[simp] theorem State.takeTrap_dram (tk cause : Nat) (val pc : Word) (wordBit defer : Bool) :
    (s.takeTrap tk cause val pc wordBit defer).dram = s.dram := by
  unfold State.takeTrap
  split <;> simp

/-! ### Results -/

@[simp] theorem State.wake_dram (tk : Nat) : (s.wake tk).dram = s.dram := by simp [State.wake]
@[simp] theorem State.countInj_dram (core region : Nat) : (s.countInj core region).dram = s.dram := by rfl
@[simp] theorem State.countDel_dram (core region : Nat) : (s.countDel core region).dram = s.dram := by rfl

@[simp] theorem State.commit_dram (tk : Nat) (e : Ev) (region : Nat) : (s.commit tk e region).dram = s.dram := by
  unfold State.commit
  split <;> simp

@[simp] theorem State.sendPort_dram (tk k : Nat) (x : Word) : (s.sendPort tk k x).dram = s.dram := by
  unfold State.sendPort
  split <;> simp

@[simp] theorem State.writeG_dram (tk r : Nat) (x : Word) : (s.writeG tk r x).dram = s.dram := by
  unfold State.writeG
  (repeat' split) <;> simp

@[simp] theorem State.writeV_dram (tk r : Nat) (x : Vec) : (s.writeV tk r x).dram = s.dram := by
  unfold State.writeV
  (repeat' split) <;> simp

@[simp] theorem State.bindFin_dram (tk : Nat) (f : Fin_) (buf : Vec) : (s.bindFin tk f buf).dram = s.dram := by
  unfold State.bindFin
  split <;> simp

@[simp] theorem State.releaseHeld_dram (tk : Nat) (p : Pending) : (s.releaseHeld tk p).dram = s.dram := by
  unfold State.releaseHeld
  split <;> simp

@[simp] theorem State.bindPend_dram (tk id : Nat) : (s.bindPend tk id).dram = s.dram := by
  unfold State.bindPend
  (repeat' split) <;> simp

@[simp] theorem State.fillLane_dram (tk id i : Nat) (data : Vec) (poison : Option Word) :
    (s.fillLane tk id i data poison).dram = s.dram := by
  simp [State.fillLane]

@[simp] theorem State.replyLane_dram (tk txid : Nat) (data : Vec) (poison : Option Word) :
    (s.replyLane tk txid data poison).dram = s.dram := by
  unfold State.replyLane
  (repeat' split) <;> simp

@[simp] theorem State.newTx_dram (core : Nat) : (s.newTx core).1.dram = s.dram := rfl
@[simp] theorem State.addPend_dram (tk la : Nat) (p : Pending) : (s.addPend tk la p).1.dram = s.dram := by simp [State.addPend]

/-! ### Pool -/

@[simp] theorem State.poolWrite_dram (ck off : Nat) (l : List Byte) : (s.poolWrite ck off l).dram = s.dram := by rfl
@[simp] theorem State.poolMark_dram (ck off n : Nat) : (s.poolMark ck off n).dram = s.dram := by simp [State.poolMark]

@[simp] theorem State.spReply_dram (ck off tk : Nat) (remote : Bool) (src srcCk txid : Nat) (x : Option Word) (stat : Nat)
    (full poison : Bool) : (s.spReply ck off tk remote src srcCk txid x stat full poison).dram = s.dram := by
  simp [State.spReply]

@[simp] theorem State.setFull_dram (ck off : Nat) (b : Bool) : (s.setFull ck off b).dram = s.dram := by rfl

@[simp] theorem State.completeParked_dram (ck : Nat) (q : Parked) (x : Option Word) (poison : Bool) :
    (s.completeParked ck q x poison).dram = s.dram := by
  simp [State.completeParked]

@[simp] theorem State.settlePass_dram (ck w : Nat) (l kept : List Parked) : (s.settlePass ck w l kept).1.dram = s.dram := by
  induction l generalizing s kept with
  | nil => rfl
  | cons q l ih =>
    unfold State.settlePass
    split
    · exact ih s _
    · dsimp only
      split <;> simp [ih]

@[simp] theorem State.settleN_dram (ck w n : Nat) : (s.settleN ck w n).dram = s.dram := by
  induction n generalizing s with
  | zero => rfl
  | succ n ih => simp [State.settleN, ih]

@[simp] theorem State.settle_dram (ck off : Nat) : (s.settle ck off).dram = s.dram := by simp [State.settle]
@[simp] theorem State.park_dram (ck : Nat) (q : Parked) : (s.park ck q).dram = s.dram := by simp [State.park]
@[simp] theorem State.stff_dram (ck off : Nat) (x : Word) : (s.stff ck off x).dram = s.dram := by simp [State.stff]
@[simp] theorem State.sluiceCheck_dram (ck : Nat) : (s.sluiceCheck ck).dram = s.dram := by simp [State.sluiceCheck]
@[simp] theorem State.pulse_dram (ck src sel : Nat) : (s.pulse ck src sel).dram = s.dram := by simp [State.pulse]
@[simp] theorem State.setBar_dram (ck n : Nat) (b : Bar) : (s.setBar ck n b).dram = s.dram := by rfl
@[simp] theorem State.wakeBar_dram (ck n : Nat) : (s.wakeBar ck n).dram = s.dram := by simp [State.wakeBar]
@[simp] theorem State.barCheck_dram (ck n : Nat) (b : Bar) : (s.barCheck ck n b).dram = s.dram := by simp [State.barCheck]
@[simp] theorem State.barCount_dram (ck i n : Nat) : (s.barCount ck i n).dram = s.dram := by simp [State.barCount]
@[simp] theorem State.barInit_dram (ck i t : Nat) : (s.barInit ck i t).dram = s.dram := by rfl

theorem State.barExpect_dram {s s' : State} {ck i t : Nat} (h : s.barExpect ck i t = some s') : s'.dram = s.dram := by
  simp only [State.barExpect, Option.ite_none_left_eq_some, Option.some.injEq] at h
  simp [← h.2]

/-! ### Translate -/

@[simp] theorem State.modX_dram (w : Waiter) (f : XState → XState) : (s.modX w f).dram = s.dram := by
  unfold State.modX
  split <;> simp

@[simp] theorem State.wakeCopy_dram (id : Nat) : (s.wakeCopy id).dram = s.dram := by rfl

@[simp] theorem State.wakeWaiter_dram (w : Waiter) : (s.wakeWaiter w).dram = s.dram := by
  unfold State.wakeWaiter
  split <;> simp

@[simp] theorem State.installCtu_dram (c : Option Nat) (e : Xlat) : (s.installCtu c e).dram = s.dram := by
  unfold State.installCtu
  split <;> rfl

@[simp] theorem State.installAtc_dram (e : Xlat) : (s.installAtc e).dram = s.dram := rfl
@[simp] theorem State.dropPage_dram (pasid vpn : Nat) : (s.dropPage pasid vpn).dram = s.dram := by rfl

@[simp] theorem State.sendPagesN_dram (n : Nat) : (s.sendPagesN n).dram = s.dram := by
  induction n generalizing s with
  | zero => rfl
  | succ n ih =>
    unfold State.sendPagesN
    split
    · split
      · exact ih _
      · rfl
    · rfl

@[simp] theorem State.sendPages_dram : s.sendPages.dram = s.dram := by simp [State.sendPages]

theorem State.pageRequest_dram {s : State} {d : List Host.Cell} (hs : s.dram = d) (a : Access) (va : Nat) :
    (s.pageRequest a va).DramIs d := by
  unfold State.pageRequest
  dsimp only
  (repeat' split) <;> simp [hs]

theorem State.lacking_dram {s : State} {d : List Host.Cell} (hs : s.dram = d) (a : Access) (va : Nat) : (s.lacking a va).DramIs d := by
  unfold State.lacking
  split
  · trivial
  · exact State.pageRequest_dram hs a va

theorem State.atsRequest_dram {s : State} {d : List Host.Cell} (hs : s.dram = d) (a : Access) (va : Nat) :
    (s.atsRequest a va).DramIs d := by
  unfold State.atsRequest
  dsimp only
  (repeat' split) <;> exact hs

theorem State.hit_dram {s : State} {d : List Host.Cell} (hs : s.dram = d) (a : Access) (e : Xlat) (va : Nat) : (s.hit a e va).DramIs d := by
  unfold State.hit
  split
  · trivial
  · split
    · exact hs
    · exact State.lacking_dram hs a va

theorem State.translateGo_dram {s : State} {d : List Host.Cell} (hs : s.dram = d) (a : Access) (va vpn : Nat) (x : XState) :
    (s.translateGo a va vpn x).DramIs d := by
  unfold State.translateGo
  split
  · exact hs
  · dsimp only
    split
    · exact State.hit_dram (by simpa using hs) ..
    · split
      · exact State.hit_dram (by simpa using hs) ..
      · exact State.atsRequest_dram hs a va

theorem State.translate_dram {s : State} {d : List Host.Cell} (hs : s.dram = d) (a : Access) (va : Nat) : (s.translate a va).DramIs d := by
  unfold State.translate
  dsimp only
  split
  · trivial
  · split
    · split
      · trivial
      · exact State.translateGo_dram hs ..
    · exact State.translateGo_dram hs ..

theorem State.physical_dram {s : State} {d : List Host.Cell} (hs : s.dram = d) (va : Nat) : (s.physical va).DramIs d := by
  unfold State.physical
  split
  · exact hs
  · trivial

@[simp] theorem State.failWaiter_dram (w : Waiter) (cause vpn : Nat) : (s.failWaiter w cause vpn).dram = s.dram := by
  simp [State.failWaiter]

@[simp] theorem State.answerAts_dram (q : AtsReq) (c : AtsCompletion) (e : Xlat) (wt : XlatWait) :
    (s.answerAts q c e wt).dram = s.dram := by
  unfold State.answerAts
  extract_lets a page
  have hpage (r : XRes) (h : r.DramIs s.dram) : (page r).dram = s.dram := by
    cases r with
    | pa s' pa => simpa [page] using h
    | fault cause => simp [page]
    | wait s' st =>
      simp only [page]
      split <;> simpa using h
  (repeat' split) <;> simp [hpage _ (State.pageRequest_dram rfl ..), hpage _ (State.lacking_dram rfl ..)]

@[simp] theorem State.onAtsCompletion_dram (c : AtsCompletion) : (s.onAtsCompletion c).dram = s.dram := by
  unfold State.onAtsCompletion
  split <;> simp

@[simp] theorem State.endPage_dram (p : PageReq) (cause : Option Nat) : (s.endPage p cause).dram = s.dram := by
  unfold State.endPage
  split <;> simp

@[simp] theorem State.onPageResponse_dram (prg : Nat) (code : PriCode) : (s.onPageResponse prg code).dram = s.dram := by
  unfold State.onPageResponse
  (repeat' split) <;> simp

@[simp] theorem State.onPriEnable_dram (on : Bool) : (s.onPriEnable on).dram = s.dram := by rfl

@[simp] theorem State.startInval_dram (r : AtsInvalidate) (bind : Option Nat) : (s.startInval r bind).dram = s.dram := by
  simp [State.startInval]

@[simp] theorem State.onInvalidate_dram (r : AtsInvalidate) : (s.onInvalidate r).dram = s.dram := by simp [State.onInvalidate]

@[simp] theorem State.nextInval_dram : s.nextInval.dram = s.dram := by
  unfold State.nextInval
  split <;> simp

@[simp] theorem State.onInvalDone_dram (itag : Nat) : (s.onInvalDone itag).dram = s.dram := by
  unfold State.onInvalDone
  (repeat' split) <;> simp

@[simp] theorem State.onStopMarker_dram (pasid : Nat) : (s.onStopMarker pasid).dram = s.dram := by simp [State.onStopMarker]

/-! ### Bank -/

@[simp] theorem State.modBank_dram (u : Nat) (f : BankUnit → BankUnit) : (s.modBank u f).dram = s.dram := by rfl
@[simp] theorem State.modJob_dram (j : Nat) (f : BmvJob → BmvJob) : (s.modJob j f).dram = s.dram := by rfl
@[simp] theorem State.onXld_dram (u off : Nat) (l : List (BitVec 256)) : (s.onXld u off l).dram = s.dram := by simp [State.onXld]
@[simp] theorem State.onBrun_dram (u : Nat) (r : BankRun) : (s.onBrun u r).dram = s.dram := by simp [State.onBrun]

@[simp] theorem State.onPrd_dram (u first count : Nat) : (s.onPrd u first count).dram = s.dram := by
  unfold State.onPrd
  dsimp only
  (repeat' split) <;> simp

/-! ### Errors -/

@[simp] theorem State.abortEntries_dram : s.abortEntries.dram = s.dram := by rfl
@[simp] theorem State.sendMsix_dram (v : Nat) : (s.sendMsix v).dram = s.dram := by simp [State.sendMsix]
@[simp] theorem State.loadPorts_dram : s.loadPorts.dram = s.dram := foldS_dram (fun _ _ => State.modCore_dram ..) _ _
@[simp] theorem State.recordFailure_dram (u : HwUnit) : (s.recordFailure u).dram = s.dram := by rfl
@[simp] theorem State.failCore_dram (n : Nat) : (s.failCore n).dram = s.dram := by rfl
@[simp] theorem State.notifyRegion_dram (r : Nat) : (s.notifyRegion r).dram = s.dram := by simp [State.notifyRegion]

@[simp] theorem State.notifyCluster_dram (c : Nat) : (s.notifyCluster c).dram = s.dram := by
  unfold State.notifyCluster
  split <;> simp

@[simp] theorem State.notifyAll_dram : s.notifyAll.dram = s.dram := by simp [State.notifyAll]
@[simp] theorem State.deviceFatal_dram (u : HwUnit) (addr : Word) : (s.deviceFatal u addr).dram = s.dram := by simp [State.deviceFatal]
@[simp] theorem State.poisoned_dram (u : HwUnit) (addr : Word) : (s.poisoned u addr).dram = s.dram := by rfl

/-! ### Channel -/

@[simp] theorem State.holdBack_dram (e : Ev) : (s.holdBack e).dram = s.dram := by rfl
@[simp] theorem State.sendCredit_dram (cls dst : Nat) (e : Ev) : (s.sendCredit cls dst e).dram = s.dram := by simp [State.sendCredit]
@[simp] theorem State.sendSnp_dram (dst : Nat) (e : Ev) : (s.sendSnp dst e).dram = s.dram := by simp [State.sendSnp]
@[simp] theorem State.sendRsp_dram (dst : Nat) (e : Ev) : (s.sendRsp dst e).dram = s.dram := by simp [State.sendRsp]
@[simp] theorem State.agentSend_dram (a cls : Nat) (e : Ev) : (s.agentSend a cls e).dram = s.dram := by simp [State.agentSend]

@[simp] theorem State.hostRefill_dram (a cls n : Nat) : (s.hostRefill a cls n).dram = s.dram := by
  induction n generalizing s with
  | zero => rfl
  | succ n ih =>
    unfold State.hostRefill
    split
    · simp [ih]
    · rfl

@[simp] theorem State.returnCredit_dram (src cls : Nat) : (s.returnCredit src cls).dram = s.dram := by simp [State.returnCredit]
@[simp] theorem State.hostCredit_dram (a cls : Nat) : (s.hostCredit a cls).dram = s.dram := by simp [State.hostCredit]

@[simp] theorem State.sendHeldN_dram (cls n : Nat) : (s.sendHeldN cls n).dram = s.dram := by
  induction n generalizing s with
  | zero => rfl
  | succ n ih =>
    unfold State.sendHeldN
    dsimp only
    split
    · split
      · rfl
      · simp [ih]
    · rfl

@[simp] theorem State.onCrd_dram (m : Msg) : (s.onCrd m).dram = s.dram := by simp [State.onCrd]

/-! ### Cache -/

@[simp] theorem State.setAl_dram (a line : Nat) (x : ALine) : (s.setAl a line x).dram = s.dram := by rfl
@[simp] theorem State.replaceLine_dram (a line : Nat) : (s.replaceLine a line).dram = s.dram := by simp [State.replaceLine]

theorem State.makeRoom_dram {s s' : State} {c line : Nat} (h : s.makeRoom c line = some s') : s'.dram = s.dram := by
  unfold State.makeRoom at h
  dsimp only at h
  split at h
  · exact nomatch h
  · split at h
    · rw [← Option.some.inj h]
    · split at h
      · exact nomatch h
      · obtain ⟨v, -, rfl⟩ := Option.map_eq_some_iff.mp h
        simp

@[simp] theorem State.sendCaching_dram (a line : Nat) (k : AState) : (s.sendCaching a line k).dram = s.dram := by simp [State.sendCaching]

@[simp] theorem State.agentMiss_dram (a line : Nat) (store : Bool) : (s.agentMiss a line store).dram = s.dram := by
  unfold State.agentMiss
  dsimp only
  split
  · split
    · rename_i hroom
      split at hroom
      · simpa using State.makeRoom_dram hroom
      · simp [← Option.some.inj hroom]
    · rfl
  · simp
  · simp
  · rfl

@[simp] theorem State.fillFromLine_dram (tk : Nat) (t : Thread) (line : Nat) (l : ALine) : (s.fillFromLine tk t line l).dram = s.dram := by
  refine foldS_dram (fun p s => foldS_dram (fun i s => ?_) _ s) _ s
  dsimp only
  (repeat' split) <;> simp

@[simp] theorem State.drainThread_dram (tk c line : Nat) : (s.drainThread tk c line).dram = s.dram := by
  unfold State.drainThread
  split <;> simp

@[simp] theorem State.kick_dram (c line : Nat) : (s.kick c line).dram = s.dram := by simp [State.kick]
@[simp] theorem State.kickAll_dram (c : Nat) : (s.kickAll c).dram = s.dram := by simp [State.kickAll]

@[simp] theorem State.probeAnswer_dram (p : Msg) (l : ALine) (gnt : Moesi) (wb withData : Bool) :
    (s.probeAnswer p l gnt wb withData).dram = s.dram := by
  simp [State.probeAnswer]

@[simp] theorem State.probeStable_dram (k : ProbeKind) (p : Msg) : (s.probeStable k p).dram = s.dram := by
  unfold State.probeStable
  dsimp only
  (repeat' split) <;> simp

@[simp] theorem State.probe_dram (k : ProbeKind) (p : Msg) : (s.probe k p).dram = s.dram := by
  unfold State.probe
  dsimp only
  (repeat' split) <;> simp

@[simp] theorem State.probeRegionLine_dram (p : Msg) (line : Nat) : (s.probeRegionLine p line).dram = s.dram := by
  unfold State.probeRegionLine
  dsimp only
  (repeat' split) <;> simp

@[simp] theorem State.answerRegion_dram (p : Msg) : (s.answerRegion p).dram = s.dram := by simp [State.answerRegion]
@[simp] theorem State.probeRegion_dram (p : Msg) : (s.probeRegion p).dram = s.dram := by simp [State.probeRegion]
@[simp] theorem State.applyDeferred_dram (a line : Nat) : (s.applyDeferred a line).dram = s.dram := by simp [State.applyDeferred]

@[simp] theorem State.hostStore_dram (a line : Nat) : (s.hostStore a line).dram = s.dram := by
  unfold State.hostStore
  dsimp only
  (repeat' split) <;> simp

@[simp] theorem State.serveWaiting_dram (a line : Nat) : (s.serveWaiting a line).dram = s.dram := by simp [State.serveWaiting]
@[simp] theorem State.resend_dram (m : Msg) : (s.resend m).dram = s.dram := by simp [State.resend]

theorem State.flushLine_dram {s s' : State} {c line : Nat} (h : s.flushLine c line = some s') : s'.dram = s.dram := by
  unfold State.flushLine at h
  dsimp only at h
  split at h <;> simp only [Option.some.injEq, reduceCtorEq] at h <;> simp [← h]

theorem State.storeLine_dram {s s' : State} {tk c line : Nat} {mask : BitVec 64} {d : Vec} (h : s.storeLine tk c line mask d = some s') :
    s'.dram = s.dram := by
  unfold State.storeLine at h
  split at h
  · exact nomatch h
  · dsimp only at h
    split at h
    · exact nomatch h
    · split at h
      · simp [← Option.some.inj h]
      · split at h <;> simp [← Option.some.inj h]

/-! ### Home -/

@[simp] theorem State.touch_dram (sl line : Nat) : (s.touch sl line).dram = s.dram := by rfl
@[simp] theorem State.cancelReservations_dram (sl line : Nat) : (s.cancelReservations sl line).dram = s.dram := by rfl

@[simp] theorem State.sendWoke_dram (sl : Nat) (w : Nat × Nat × Nat) (txid status stat : Nat) :
    (s.sendWoke sl w txid status stat).dram = s.dram := by
  rfl

@[simp] theorem State.fireWatches_dram (sl line : Nat) : (s.fireWatches sl line).dram = s.dram := by simp [State.fireWatches]

@[simp] theorem State.grant_dram (sl : Nat) (m : Msg) (g : Moesi) (ver : BitVec 8) (withData : Bool) :
    (s.grant sl m g ver withData).dram = s.dram := by
  simp [State.grant]

@[simp] theorem State.withdrawDeferred_dram (sl agent line : Nat) : (s.withdrawDeferred sl agent line).dram = s.dram := by
  simp [State.withdrawDeferred]

@[simp] theorem State.replayPut_dram (sl : Nat) (e : Ev) (m : Msg) : (s.replayPut sl e m).dram = s.dram := by
  unfold State.replayPut
  split <;> simp

@[simp] theorem State.retrySoon_dram (sl : Nat) : (s.retrySoon sl).dram = s.dram := by simp [State.retrySoon]

@[simp] theorem State.postSharer_dram (sl agent line level : Nat) (ver : BitVec 8) :
    (s.postSharer sl agent line level ver).dram = s.dram := by
  rfl

@[simp] theorem State.postInval_dram (sl line level : Nat) (ver : BitVec 8) (token span : Nat) :
    (s.postInval sl line level ver token span).dram = s.dram := by
  rfl

@[simp] theorem State.addSharer_dram (sl : Nat) (n : Node) (a line : Nat) : (s.addSharer sl n a line).dram = s.dram := by
  simp [State.addSharer]

@[simp] theorem State.sendProbe_dram (sl : Nat) (k : ProbeKind) (a line : Nat) (ver : BitVec 8) :
    (s.sendProbe sl k a line ver).dram = s.dram := by
  simp [State.sendProbe]

@[simp] theorem State.openTxn_dram (sl : Nat) (t : Txn) (k : ProbeKind) (to_ : List (Nat × Nat)) (ver : BitVec 8) :
    (s.openTxn sl t k to_ ver).dram = s.dram := by
  simp [State.openTxn]

@[simp] theorem State.freeNode_dram (sl : Nat) (n : Node) : (s.freeNode sl n).dram = s.dram := by simp [State.freeNode]
@[simp] theorem State.startEvict_dram (sl : Nat) (n : Node) : (s.startEvict sl n).dram = s.dram := by simp [State.startEvict]

@[simp] theorem State.evictFor_dram (sl line : Nat) : (s.evictFor sl line).dram = s.dram := by
  unfold State.evictFor
  (repeat' split) <;> simp

@[simp] theorem State.waitForWay_dram (sl : Nat) (e : Ev) (m : Msg) : (s.waitForWay sl e m).dram = s.dram := by simp [State.waitForWay]

@[simp] theorem State.unreplicate_dram (sl line : Nat) (h : Hot) : (s.unreplicate sl line h).dram = s.dram := by
  simp only [State.unreplicate, foldS_later_dram, State.modSl_dram]

@[simp] theorem State.replicate_dram (sl : Nat) (h : Hot) : (s.replicate sl h).dram = s.dram := by
  simp only [State.replicate, foldS_later_dram, State.modSl_dram]

@[simp] theorem State.countHot_dram (sl line : Nat) : (s.countHot sl line).dram = s.dram := by
  unfold State.countHot
  dsimp only
  (repeat' split) <;> simp

@[simp] theorem State.useReplica_dram (sl line : Nat) : (s.useReplica sl line).dram = s.dram := by rfl

@[simp] theorem State.endOwnCopy_dram (sl a line : Nat) : (s.endOwnCopy sl a line).dram = s.dram := by
  unfold State.endOwnCopy
  dsimp only
  (repeat' split) <;> simp

@[simp] theorem State.settleWrite_dram (sl line src : Nat) : (s.settleWrite sl line src).dram = s.dram := by simp [State.settleWrite]

@[simp] theorem State.mergeDone_dram (sl : Nat) (g : Merge) : (s.mergeDone sl g).dram = s.dram := by
  simp only [State.mergeDone, foldS_later_dram, State.modSl_dram]

@[simp] theorem State.mcdOut_dram (sl : Nat) (g : Merge) (d : Vec) (poison : Bool) : (s.mcdOut sl g d poison).dram = s.dram := by
  simp only [State.mcdOut, State.ite_dram, State.mergeDone_dram, foldS_later_dram, State.modSl_dram, ite_self]

@[simp] theorem State.sendMcd_dram (sl : Nat) (g : Merge) : (s.sendMcd sl g).dram = s.dram := by simp [State.sendMcd]
@[simp] theorem State.markReady_dram (sl : Nat) (m : Msg) (write : Bool) : (s.markReady sl m write).dram = s.dram := by rfl

@[simp] theorem State.awaitsWbk_dram (sl : Nat) (t : Txn) (m : Msg) : (s.awaitsWbk sl t m).1.dram = s.dram := by
  unfold State.awaitsWbk
  dsimp only
  (repeat' split) <;> simp

@[simp] theorem State.onProbe_dram (k : ProbeKind) (m : Msg) : (s.onProbe k m).dram = s.dram := by
  unfold State.onProbe
  split <;> simp

@[simp] theorem State.wbAck_dram (sl : Nat) (m : Msg) (a : Bool) : (s.wbAck sl m a).dram = s.dram := by simp [State.wbAck]

/-! ### Coherent -/

@[simp] theorem State.useMarks_dram (id pa n : Nat) (write : Bool) : (s.useMarks id pa n write).dram = s.dram :=
  foldS_dram (fun _ _ => State.modSl_dram ..) _ s

/-! ### Place -/

/-- Draining a flume writes to the pool alone. -/
theorem foldS_poolWrite_dram {α : Type} (ck : Nat) (off : Nat → Nat) (bytes : α → List Byte) (l : List α) (acc : State × Nat) :
    (foldS (fun x (a : State × Nat) => (a.1.poolWrite ck (off a.2) (bytes x), a.2 + 1)) l acc).1.dram = acc.1.dram := by
  induction l generalizing acc with
  | nil => rfl
  | cons x l ih => exact (ih _).trans (by simp)

@[simp] theorem State.drainQuiet_dram (tk k : Nat) : (s.drainQuiet tk k).dram = s.dram := by
  unfold State.drainQuiet
  split
  · rfl
  · split
    · rfl
    · split
      · rfl
      · simp [foldS_poolWrite_dram]

@[simp] theorem State.drainFlume_dram (tk k : Nat) : (s.drainFlume tk k).dram = s.dram := by simp [State.drainFlume]
@[simp] theorem State.leaveLs1_dram (c : Nat) : (s.leaveLs1 c).dram = s.dram := by simp [State.leaveLs1]
@[simp] theorem State.leaveLs1Of_dram (t : Thread) : (s.leaveLs1Of t).dram = s.dram := by simp [State.leaveLs1Of]

@[simp] theorem State.saveEffects_dram (tk : Nat) : (s.saveEffects tk).dram = s.dram := by
  unfold State.saveEffects
  rw [State.modThr_dram, foldS_dram (fun _ _ => State.drainFlume_dram ..)]

@[simp] theorem State.cacheThread_dram (c tk : Nat) : (s.cacheThread c tk).dram = s.dram := by rfl

@[simp] theorem State.saveThread_dram (tk : Nat) : (s.saveThread tk).dram = s.dram := by
  unfold State.saveThread
  split <;> simp

@[simp] theorem State.saveMasked_dram (tk : Nat) (l : LiveMask) : (s.saveMasked tk l).dram = s.dram := by
  unfold State.saveMasked
  split <;> simp

@[simp] theorem State.restoreThread_dram (tk slot : Nat) : (s.restoreThread tk slot).dram = s.dram := by
  unfold State.restoreThread
  (repeat' split) <;> simp

@[simp] theorem State.moveThread_dram (tk ck : Nat) : (s.moveThread tk ck).dram = s.dram := by
  unfold State.moveThread
  dsimp only
  (repeat' split) <;> simp

/-! ### Operands -/

@[simp] theorem State.takeMsg_dram (tk : Nat) (t : Thread) (ch : Nat) : (s.takeMsg tk t ch).dram = s.dram := by rfl
@[simp] theorem State.freeDst_dram (tk : Nat) (p : Pending) : (s.freeDst tk p).dram = s.dram := by simp [State.freeDst]

@[simp] theorem State.undoUnit_dram (tk : Nat) (p : Pending) : (s.undoUnit tk p).dram = s.dram := by
  unfold State.undoUnit
  split <;> simp

@[simp] theorem State.deferTrap_dram (tk : Nat) (p : Pending) : (s.deferTrap tk p).dram = s.dram := by
  unfold State.deferTrap
  (repeat' split) <;> simp

@[simp] theorem State.waitUnit_dram (tk : Nat) (st : TState) (park : Option Word) : (s.waitUnit tk st park).dram = s.dram := by
  simp [State.waitUnit]

@[simp] theorem State.awaitResults_dram (tk : Nat) (t : Thread) (p : Pending) : (s.awaitResults tk t p).dram = s.dram := by
  unfold State.awaitResults
  (repeat' split) <;> simp

@[simp] theorem State.unitTrap_dram (tk cause : Nat) (val : Word) (wordBit : Bool) : (s.unitTrap tk cause val wordBit).dram = s.dram := by
  unfold State.unitTrap
  (repeat' split) <;> simp

@[simp] theorem State.retire_dram (tk : Nat) (t : Thread) (c : CSpec) (a : AEffect) (k : Nat) (pc : Option Word) :
    (s.retire tk t c a k pc).dram = s.dram := by
  simp [State.retire]

@[simp] theorem State.absentF64v_dram (tk : Nat) (t : Thread) (wordBit : Bool) : (s.absentF64v tk t wordBit).dram = s.dram := by
  unfold State.absentF64v
  split <;> simp

/-! ### Access -/

@[simp] theorem State.sendSpwr_dram (core : Nat) (m : Msg) : (s.sendSpwr core m).dram = s.dram := by
  unfold State.sendSpwr
  split <;> simp

/-! ### Memory -/

@[simp] theorem State.sendSpsy_dram (core : Nat) (m : Msg) : (s.sendSpsy core m).dram = s.dram := by rfl

@[simp] theorem State.spsyPend_dram (tk la ck off len atop sub : Nat) (x : Vec) (p : Pending) :
    (s.spsyPend tk la ck off len atop sub x p).dram = s.dram := by
  simp [State.spsyPend]

@[simp] theorem State.spsyPost_dram (tk ck off len atop sub : Nat) (x : Vec) : (s.spsyPost tk ck off len atop sub x).dram = s.dram := by
  simp [State.spsyPost]

@[simp] theorem State.parkLocal_dram (tk la ck off : Nat) (k : ParkKind) (x : Word) (p : Pending) :
    (s.parkLocal tk la ck off k x p).dram = s.dram := by
  simp [State.parkLocal]

@[simp] theorem State.poolAtomic_dram (ck off w op x y : Nat) : (s.poolAtomic ck off w op x y).1.dram = s.dram := by
  unfold State.poolAtomic
  dsimp only
  split <;> simp

@[simp] theorem State.homePend_dram (tk la : Nat) (p : Pending) (e : Nat → Ev) : (s.homePend tk la p e).dram = s.dram := by
  simp [State.homePend]

@[simp] theorem State.barPost_dram (tk ck i sub : Nat) (ea x : Word) : (s.barPost tk ck i sub ea x).dram = s.dram := by
  simp [State.barPost]

/-! ### Control -/

@[simp] theorem State.rest_dram (n : Nat) : (s.rest n).dram = s.dram := by simp [State.rest]

/-! ### Deliver -/

@[simp] theorem State.give_dram (tk : Nat) (g20 g21 g22 : Word) (args : List Word) : (s.give tk g20 g21 g22 args).dram = s.dram := by
  simp [State.give]

@[simp] theorem State.giveWake_dram (tk : Nat) (w : BitVec 16) : (s.giveWake tk w).dram = s.dram := by simp [State.giveWake]
@[simp] theorem State.giveNotice_dram (tk : Nat) (f : FaultRec) : (s.giveNotice tk f).dram = s.dram := by simp [State.giveNotice]

@[simp] theorem State.giveFaultTask_dram (tk ck : Nat) (f : FaultRec) : (s.giveFaultTask tk ck f).dram = s.dram := by
  unfold State.giveFaultTask
  dsimp only
  (repeat' split) <;> simp

@[simp] theorem State.giveTask_dram (tk ck off : Nat) : (s.giveTask tk ck off).dram = s.dram := by simp [State.giveTask]

@[simp] theorem State.giveCapsule_dram (tk ck k : Nat) (sl : Slot) : (s.giveCapsule tk ck k sl).dram = s.dram := by
  simp [State.giveCapsule]

@[simp] theorem State.giveMessage_dram (tk : Nat) (t : Thread) (m : Msg) : (s.giveMessage tk t m).dram = s.dram := by
  simp [State.giveMessage]

theorem State.takeNotice_dram {s s' : State} {c tk : Nat} {n : Notice} (h : s.takeNotice c tk = some (s', n)) : s'.dram = s.dram := by
  unfold State.takeNotice at h
  split at h
  · exact nomatch h
  · simp only [Option.some.injEq, Prod.mk.injEq] at h
    simp [← h.1]

theorem State.serveService_dram {s s' : State} {c tk : Nat} {t : Thread} (h : s.serveService c tk t = some s') : s'.dram = s.dram := by
  unfold State.serveService at h
  split at h
  · rename_i hn
    simp [← Option.some.inj h, State.takeNotice_dram hn]
  · dsimp only at h
    (repeat' split at h) <;> simp only [Option.some.injEq, reduceCtorEq] at h <;> simp [← h]

theorem State.serveUser_dram {s s' : State} {ck : Nat} (h : s.serveUser ck = some s') : s'.dram = s.dram := by
  unfold State.serveUser at h
  dsimp only at h
  split at h
  · simp [← Option.some.inj h]
  · split at h
    · exact nomatch h
    · split at h
      · simp [← Option.some.inj h]
      · split at h
        · simp [← Option.some.inj h]
        · split at h
          · simp [← Option.some.inj h]
          · split at h
            · simp [← Option.some.inj h]
            · obtain ⟨e, -, he⟩ := List.exists_of_findSome?_eq_some h
              obtain ⟨m, -, rfl⟩ := Option.map_eq_some_iff.mp he
              simp

theorem State.serveOne_dram {s s' : State} {ck : Nat} (h : s.serveOne ck = some s') : s'.dram = s.dram := by
  unfold State.serveOne at h
  split at h
  · exact nomatch h
  · dsimp only at h
    split at h
    · split at h
      · split at h
        · rename_i hs
          rw [← Option.some.inj h]
          exact State.serveService_dram hs
        · exact State.serveUser_dram h
      · exact State.serveUser_dram h
    · exact State.serveUser_dram h

@[simp] theorem State.onDispatch_dram (ck : Nat) : (s.onDispatch ck).dram = s.dram := by
  unfold State.onDispatch
  split
  · rename_i hs
    simp [State.serveOne_dram hs]
  · rfl

@[simp] theorem State.appendTask_dram (ck off : Nat) : (s.appendTask ck off).dram = s.dram := by
  unfold State.appendTask
  split <;> simp

@[simp] theorem State.decrement_dram (ck off amount : Nat) : (s.decrement ck off amount).dram = s.dram := by simp [State.decrement]
@[simp] theorem State.wakeReceivers_dram (ck : Nat) : (s.wakeReceivers ck).dram = s.dram := by simp [State.wakeReceivers]
@[simp] theorem State.inboxPut_dram (ck : Nat) (m : Msg) : (s.inboxPut ck m).dram = s.dram := by simp [State.inboxPut]

@[simp] theorem State.userArrives_dram (c ck : Nat) (m : Msg) : (s.userArrives c ck m).dram = s.dram := by
  unfold State.userArrives
  dsimp only
  (repeat' split) <;> simp

/-! ### Special -/

@[simp] theorem State.writeSr_dram (tk n : Nat) (x w1c : Word) : (s.writeSr tk n x w1c).dram = s.dram := by simp [State.writeSr]

/-! ### Matrix -/

@[simp] theorem State.tileWrite_dram (ck n rv cv : Nat) (z : Tile) : (s.tileWrite ck n rv cv z).dram = s.dram := by simp [State.tileWrite]

@[simp] theorem State.mmaEffect_dram (r : MxReq) (clear : Bool) : (s.mmaEffect r clear).1.dram = s.dram := by
  unfold State.mmaEffect
  split
  · rfl
  · dsimp only
    split
    · rfl
    · split <;> simp

@[simp] theorem State.mxQueuePut_dram (ck : Nat) (r : MxReq) : (s.mxQueuePut ck r).dram = s.dram := by
  unfold State.mxQueuePut
  split <;> simp

@[simp] theorem State.mxSubmit_dram (tk la : Nat) (t : Thread) (dsts : List Dst) (r : MxReq) :
    (s.mxSubmit tk la t dsts r).dram = s.dram := by
  simp [State.mxSubmit]

@[simp] theorem State.factPartial_dram (r : MxReq) : (s.factPartial r).dram = s.dram := by
  unfold State.factPartial
  (repeat' split) <;> simp

@[simp] theorem State.mxFinish_dram (c : Nat) (r : MxReq) : (s.mxFinish c r).dram = s.dram := by rfl

@[simp] theorem State.factFault_dram (c : Nat) (r : MxReq) (e : FactFault) : (s.factFault c r e).dram = s.dram := by
  simp [State.factFault]

@[simp] theorem State.factBegin_dram (c : Nat) (r : MxReq) : (s.factBegin c r).dram = s.dram := by
  unfold State.factBegin
  dsimp only
  (repeat' split) <;> simp

@[simp] theorem State.factApply_dram (r : MxReq) (f : FactStep) : (s.factApply r f).1.dram = s.dram := by simp [State.factApply]

@[simp] theorem State.mxWithdraw_dram (r : MxReq) : (s.mxWithdraw r).dram = s.dram := by
  unfold State.mxWithdraw
  dsimp only
  (repeat' split) <;> simp

@[simp] theorem State.mxHalt_dram (c : Nat) : (s.mxHalt c).dram = s.dram := by simp [State.mxHalt]

@[simp] theorem State.mxLong_dram (c : Nat) (r : MxReq) (id : Nat) : (s.mxLong c r id).dram = s.dram := by
  unfold State.mxLong
  split
  · rfl
  · split
    · rfl
    · dsimp only
      split
      · simp
      · split <;> simp

@[simp] theorem State.serveMatrix_dram (c : Nat) : (s.serveMatrix c).dram = s.dram := by
  unfold State.serveMatrix
  dsimp only
  split
  · rfl
  · split
    · rfl
    · split
      · rfl
      · split
        · rfl
        · split
          · rfl
          · generalize hbase : State.modCx _ _ _ = base
            have hd : base.dram = s.dram := by simp [← hbase]
            split <;> simp [hd]

@[simp] theorem State.endStep_dram (c : Nat) : (s.endStep c).dram = s.dram := by
  unfold State.endStep
  split
  · rfl
  · dsimp only
    split <;> simp

@[simp] theorem State.factWrite_dram (r : MxReq) : (s.factWrite r).dram = s.dram := by
  unfold State.factWrite
  split <;> simp

@[simp] theorem State.bindMatrix_dram (c id : Nat) : (s.bindMatrix c id).dram = s.dram := by
  unfold State.bindMatrix
  split <;> simp

/-! ### Engines -/

@[simp] theorem State.modCard_dram (ck id : Nat) (f : Card → Card) : (s.modCard ck id f).dram = s.dram := by rfl
@[simp] theorem State.endCard_dram (ck id : Nat) : (s.endCard ck id).dram = s.dram := by simp [State.endCard]
@[simp] theorem State.jobFault_dram (ck : Nat) (c : Card) (val : Word) : (s.jobFault ck c val).dram = s.dram := by simp [State.jobFault]
@[simp] theorem State.jobEnd_dram (ck : Nat) (c : Card) (src sel : Nat) : (s.jobEnd ck c src sel).dram = s.dram := by simp [State.jobEnd]

@[simp] theorem State.onStatusFail_dram (ck id : Nat) : (s.onStatusFail ck id).dram = s.dram := by
  unfold State.onStatusFail
  split <;> simp

@[simp] theorem State.landSend_dram (ck id : Nat) (m : Msg) : (s.landSend ck id m).dram = s.dram := by
  unfold State.landSend
  split <;> simp

@[simp] theorem State.landHeld_dram (ck id : Nat) (l : List Msg) : (s.landHeld ck id l).dram = s.dram := by simp [State.landHeld]

@[simp] theorem State.landBytes_dram (ck id : Nat) (c : Card) (k off : Nat) (l : List Byte) (bad : Bool) :
    (s.landBytes ck id c k off l bad).dram = s.dram := by
  simp [State.landBytes]

@[simp] theorem State.onFlume_dram (tk k : Nat) : (s.onFlume tk k).dram = s.dram := by
  unfold State.onFlume
  (repeat' split) <;> simp

@[simp] theorem State.outletAct_dram (ck o : Nat) : (s.outletAct ck o).dram = s.dram := by
  unfold State.outletAct
  dsimp only
  (repeat' split) <;> simp

@[simp] theorem State.onOutlet_dram (ck o : Nat) : (s.onOutlet ck o).dram = s.dram := by
  unfold State.onOutlet
  split <;> simp

/-! ### Capsules -/

@[simp] theorem State.grantSlot_dram (ck k : Nat) (l : LreqWait) : (s.grantSlot ck k l).dram = s.dram := by rfl

@[simp] theorem State.grantOldest_dram (ck : Nat) : (s.grantOldest ck).dram = s.dram := by
  unfold State.grantOldest
  split <;> simp

@[simp] theorem State.grantQueued_dram (ck : Nat) : (s.grantQueued ck).dram = s.dram := by simp [State.grantQueued]
@[simp] theorem State.releaseSlot_dram (ck k : Nat) : (s.releaseSlot ck k).dram = s.dram := by simp [State.releaseSlot]

@[simp] theorem State.deadEnd_dram (ck : Nat) (d : DeadLetter) (val : Word) : (s.deadEnd ck d val).dram = s.dram := by
  unfold State.deadEnd
  split <;> simp

@[simp] theorem State.deadSend_dram (tk off : Nat) (slot : Option Nat) (reason : Nat) (val : Word) :
    (s.deadSend tk off slot reason val).dram = s.dram := by
  unfold State.deadSend
  (repeat' split) <;> simp

@[simp] theorem State.handOver_dram (tk la off : Nat) (slot : Option Nat) (dst entry : Nat) (ret : Bool) :
    (s.handOver tk la off slot dst entry ret).dram = s.dram := by
  unfold State.handOver
  cases slot <;> simp

@[simp] theorem State.sendEntry_dram (tk la off : Nat) (slot : Option Nat) (h : CapHead) (e : Nat) (ret : Bool) :
    (s.sendEntry tk la off slot h e ret).dram = s.dram := by
  unfold State.sendEntry
  dsimp only
  (repeat' split) <;> simp

@[simp] theorem State.onLreq_dram (ck : Nat) (m : Msg) : (s.onLreq ck m).dram = s.dram := by simp [State.onLreq]
@[simp] theorem State.modOut_dram (ck tag : Nat) (f : OutCap → OutCap) : (s.modOut ck tag f).dram = s.dram := by rfl

@[simp] theorem State.onGrant_dram (ck : Nat) (m : Msg) : (s.onGrant ck m).dram = s.dram := by
  unfold State.onGrant
  (repeat' split) <;> simp

@[simp] theorem State.onRet_dram (ck : Nat) (m : Msg) : (s.onRet ck m).dram = s.dram := by simp [State.onRet]

@[simp] theorem State.onLreqResend_dram (ck tag : Nat) : (s.onLreqResend ck tag).dram = s.dram := by
  unfold State.onLreqResend
  split <;> simp

@[simp] theorem State.onChunk_dram (ck : Nat) (m : Msg) : (s.onChunk ck m).dram = s.dram := by
  unfold State.onChunk
  dsimp only
  (repeat' split) <;> simp

@[simp] theorem State.onCapCmp_dram (ck : Nat) (m : Msg) : (s.onCapCmp ck m).dram = s.dram := by
  unfold State.onCapCmp
  (repeat' split) <;> simp

/-! ### Directory -/

@[simp] theorem State.bcastHome_dram (region sl : Nat) : (s.bcastHome region sl).1.dram = s.dram := by
  unfold State.bcastHome
  dsimp only
  (repeat' split) <;> simp

@[simp] theorem State.startStab_dram (r : Nat × Nat) : (s.startStab r).dram = s.dram := by
  unfold State.startStab
  split
  · rfl
  · exact foldS_dram (fun _ _ => State.modSl_dram ..) _ _

/-! ### Bank compute -/

theorem State.xlatBmv_dram {s : State} {d : List Host.Cell} (hs : s.dram = d) (j : BmvJob) (va : Nat) (w : Bool) :
    (s.xlatBmv j va w).DramIs d := by
  unfold State.xlatBmv
  split
  · exact State.physical_dram hs va
  · exact State.translate_dram hs ..

@[simp] theorem State.bmvXlat_dram (n : Nat) (l : List (Nat × Bool)) : (s.bmvXlat n l).1.dram = s.dram := by
  induction l generalizing s with
  | nil => rfl
  | cons e l ih =>
    unfold State.bmvXlat
    split
    · rfl
    · rename_i j hj
      split
      · exact ih s
      · have hx := State.xlatBmv_dram (s := s.modJob n fun j => { j with x := { j.x with once := [] } }) (d := s.dram) (by simp) j
          (e.1 * 4096) e.2
        split <;> rename_i he <;> rw [he] at hx
        · simpa [ih] using hx
        · simp
        · exact hx

@[simp] theorem State.ownSweep_dram (j : BmvJob) : (s.ownSweep j).1.dram = s.dram := by
  unfold State.ownSweep
  split
  · rfl
  · exact foldS_dram (fun _ _ => by simp) _ s

@[simp] theorem State.startBatch_dram (j : BmvJob) : (s.startBatch j).dram = s.dram := by simp [State.startBatch]

@[simp] theorem State.onBatchEnd_dram (n : Nat) : (s.onBatchEnd n).dram = s.dram := by
  unfold State.onBatchEnd
  split
  · rfl
  · dsimp only
    split
    · rfl
    · split
      · simp
      · generalize hbase : foldS _ _ (foldS _ _ s) = base
        have hd : base.dram = s.dram := by
          rw [← hbase, foldS_dram (fun _ _ => State.modBank_dram ..), foldS_dram]
          intro u s'
          split <;> simp
        split
        · exact hd
        · split <;> simp [hd]

@[simp] theorem State.freeUnits_dram (n : Nat) : (s.freeUnits n).dram = s.dram := by simp [State.freeUnits]

@[simp] theorem State.endJob_dram (j : BmvJob) : (s.endJob j).dram = s.dram := by
  unfold State.endJob
  dsimp only
  (repeat' split) <;> simp

@[simp] theorem State.failJob_dram (n status addr : Nat) : (s.failJob n status addr).dram = s.dram := by rfl
@[simp] theorem State.abortJobs_dram (c : Nat) : (s.abortJobs c).dram = s.dram := by simp [State.abortJobs]
@[simp] theorem State.stopForInval_dram (j : BmvJob) : (s.stopForInval j).dram = s.dram := by simp [State.stopForInval]

/-! ### Protocol -/

@[simp] theorem State.onMerge_dram (sl region level path : Nat) : (s.onMerge sl region level path).dram = s.dram := by
  unfold State.onMerge
  dsimp only
  (repeat' split) <;> simp

@[simp] theorem State.probeAt_dram (k : ProbeKind) (e : Ev) (m : Msg) : (s.probeAt k e m).dram = s.dram := by simp [State.probeAt]
@[simp] theorem State.toHost_dram (e : Ev) : (s.toHost e).dram = s.dram := by rfl

@[simp] theorem State.homeReply_dram (m : Msg) (data : Vec) : (s.homeReply m data).dram = s.dram := by
  unfold State.homeReply
  split <;> simp

theorem State.cardDone_dram {s s' : State} {c txid : Nat} {bad : Bool} (h : s.cardDone c txid bad = some s') : s'.dram = s.dram := by
  obtain ⟨e, -, rfl⟩ := Option.map_eq_some_iff.mp h
  simp

@[simp] theorem State.mcdAnswer_dram (m : Msg) : (s.mcdAnswer m).dram = s.dram := by
  unfold State.mcdAnswer
  dsimp only
  (repeat' split) <;> simp

@[simp] theorem State.onCmp_dram (m : Msg) : (s.onCmp m).dram = s.dram := by
  unfold State.onCmp
  split
  · simp
  · split
    · simp
    · split
      · simp
      · split
        · rename_i hc
          exact State.cardDone_dram hc
        · simp

@[simp] theorem State.onAtr_dram (m : Msg) : (s.onAtr m).dram = s.dram := by simp [State.onAtr]

@[simp] theorem State.onWoke_dram (m : Msg) : (s.onWoke m).dram = s.dram := by
  unfold State.onWoke
  dsimp only
  (repeat' split) <;> simp

@[simp] theorem State.onSweep_dram (c : Nat) : (s.onSweep c).dram = s.dram := by
  unfold State.onSweep
  dsimp only
  (repeat' split) <;> simp

@[simp] theorem State.onMcd_dram (m : Msg) : (s.onMcd m).dram = s.dram := by
  unfold State.onMcd
  split <;> simp

@[simp] theorem State.onRepl_dram (m : Msg) : (s.onRepl m).dram = s.dram := by simp [State.onRepl]
@[simp] theorem State.onRdin_dram (m : Msg) : (s.onRdin m).dram = s.dram := by simp [State.onRdin]

@[simp] theorem State.onReplicaDrop_dram (sl line : Nat) : (s.onReplicaDrop sl line).dram = s.dram := by
  unfold State.onReplicaDrop
  split <;> simp

/-! ### Network -/

/-- A message that a context's ring takes leaves DRAM alone. -/
theorem State.addressed_ring_dram {s s' : State} {e : Ev} {m : Msg} (h : s.addressed e m = .ring s') : s'.dram = s.dram := by
  unfold State.addressed at h
  split at h
  · exact nomatch h
  · split at h
    · split at h
      · cases h
        simp
      · exact nomatch h
    · split at h <;> exact nomatch h

@[simp] theorem State.spWaits_dram (e : Ev) (m : Msg) : (s.spWaits e m).dram = s.dram := by simp [State.spWaits]
@[simp] theorem State.setSend_dram (m : Msg) (e : Option Ev) : (s.setSend m e).dram = s.dram := by simp [State.setSend]
@[simp] theorem State.holdMsg_dram (m : Msg) (dec : Bool) : (s.holdMsg m dec).dram = s.dram := by simp [State.holdMsg]
@[simp] theorem State.userAt_dram (c : Nat) (m : Msg) : (s.userAt c m).dram = s.dram := by simp [State.userAt]

@[simp] theorem State.onUser_dram (m : Msg) : (s.onUser m).dram = s.dram := by
  unfold State.onUser
  split
  case h_2 h => exact State.addressed_ring_dram h
  all_goals simp

@[simp] theorem State.decAt_dram (c : Nat) (m : Msg) : (s.decAt c m).dram = s.dram := by simp [State.decAt]

@[simp] theorem State.onDec_dram (m : Msg) : (s.onDec m).dram = s.dram := by
  unfold State.onDec
  split
  case h_2 h => exact State.addressed_ring_dram h
  all_goals simp

@[simp] theorem State.noticeAt_dram (m : Msg) : (s.noticeAt m).dram = s.dram := by simp [State.noticeAt]

@[simp] theorem State.onNotice_dram (m : Msg) : (s.onNotice m).dram = s.dram := by
  unfold State.onNotice
  split
  case h_2 h => exact State.addressed_ring_dram h
  all_goals simp

@[simp] theorem State.onDeferredRetry_dram (m : Msg) : (s.onDeferredRetry m).dram = s.dram := by
  unfold State.onDeferredRetry
  extract_lets +onlyGivenNames e held m' d
  split
  · rfl
  · split
    case h_2 h => simp [State.addressed_ring_dram h]
    all_goals simp

@[simp] theorem State.onDirsvc_dram (m : Msg) : (s.onDirsvc m).dram = s.dram := by
  unfold State.onDirsvc
  dsimp only
  (repeat' split) <;> simp

@[simp] theorem State.onSpwr_dram (m : Msg) : (s.onSpwr m).dram = s.dram := by simp [State.onSpwr]
@[simp] theorem State.onSprd_dram (m : Msg) : (s.onSprd m).dram = s.dram := by simp [State.onSprd]
@[simp] theorem State.spCancel_dram (m : Msg) : (s.spCancel m).dram = s.dram := by simp [State.spCancel]

@[simp] theorem State.onSpsy_dram (m : Msg) : (s.onSpsy m).dram = s.dram := by
  unfold State.onSpsy
  split
  · simp
  · extract_lets +onlyGivenNames ck x i done capacity full parks
    have hdone (s : State) (stat : Nat) : (done s stat).dram = s.dram := by simp [done]
    have hcap (s : State) : (capacity s).dram = s.dram := hdone s 2
    have hparks (k : ParkKind) : (parks k).dram = s.dram := by simp [parks, hcap]
    split
    case h_5 =>
      split
      case h_2 =>
        split
        · rename_i hb
          rw [hdone, State.barExpect_dram hb]
        · exact hdone ..
      all_goals simp [hdone, hcap]
    all_goals simp [hdone, hparks]

@[simp] theorem State.onSpsyResend_dram (c txid : Nat) : (s.onSpsyResend c txid).dram = s.dram := by
  unfold State.onSpsyResend
  split <;> simp

@[simp] theorem State.failPend_dram (tk id cause : Nat) (val : Word) : (s.failPend tk id cause val).dram = s.dram := by
  simp [State.failPend]

@[simp] theorem State.dropOut_dram (m : Msg) : (s.dropOut m).dram = s.dram := by rfl

@[simp] theorem State.waitGone_dram (tk : Nat) (p : Pending) (i : Nat) (m : Msg) : (s.waitGone tk p i m).dram = s.dram := by
  unfold State.waitGone
  split <;> simp

@[simp] theorem State.spdatLane_dram (tk : Nat) (p : Pending) (i : Nat) (m : Msg) : (s.spdatLane tk p i m).dram = s.dram := by
  unfold State.spdatLane
  dsimp only
  (repeat' split) <;> simp

@[simp] theorem State.onSpdat_dram (m : Msg) : (s.onSpdat m).dram = s.dram := by
  unfold State.onSpdat
  dsimp only
  (repeat' split) <;> simp

@[simp] theorem State.sendSpwrHeld_dram (c : Nat) : (s.sendSpwrHeld c).dram = s.dram := by simp [State.sendSpwrHeld]
@[simp] theorem State.goLand_dram (c : Nat) : (s.goLand c).dram = s.dram := by simp [State.goLand]
@[simp] theorem State.retryHeld_dram (c : Nat) : (s.retryHeld c).dram = s.dram := by simp [State.retryHeld]
@[simp] theorem State.onCret_dram (m : Msg) : (s.onCret m).dram = s.dram := by simp [State.onCret]
@[simp] theorem State.lreqAt_dram (c : Nat) (m : Msg) : (s.lreqAt c m).dram = s.dram := by simp [State.lreqAt]

@[simp] theorem State.onLreqMsg_dram (m : Msg) : (s.onLreqMsg m).dram = s.dram := by
  unfold State.onLreqMsg
  split
  case h_2 h => exact State.addressed_ring_dram h
  all_goals simp

@[simp] theorem State.chunkAt_dram (c : Nat) (m : Msg) : (s.chunkAt c m).dram = s.dram := by simp [State.chunkAt]

@[simp] theorem State.onChunkMsg_dram (m : Msg) : (s.onChunkMsg m).dram = s.dram := by
  unfold State.onChunkMsg
  split
  case h_2 h => exact State.addressed_ring_dram h
  all_goals simp

@[simp] theorem State.loopBack_dram (e : Ev) : (s.loopBack e).dram = s.dram := by
  unfold State.loopBack
  split <;> simp

/-! ### Occur -/

theorem State.dropLocalWait_dram {s s' : State} {tk txid : Nat} (h : s.dropLocalWait tk txid = some s') : s'.dram = s.dram := by
  unfold State.dropLocalWait at h
  dsimp only at h
  split at h
  · simp [← Option.some.inj h]
  · split at h
    · simp [← Option.some.inj h]
    · exact nomatch h

@[simp] theorem State.cancelWait_dram (tk : Nat) (p : Pending) (val : Word) : (s.cancelWait tk p val).dram = s.dram := by
  unfold State.cancelWait
  split
  · rfl
  · split
    · rename_i hd
      simp [State.dropLocalWait_dram hd]
    · split
      · dsimp only
        split <;> simp
      · rfl

@[simp] theorem State.onWaitLimit_dram (tk : Nat) : (s.onWaitLimit tk).dram = s.dram := by
  unfold State.onWaitLimit
  (repeat' split) <;> simp

@[simp] theorem State.onTimer_dram (tk : Nat) : (s.onTimer tk).dram = s.dram := by
  unfold State.onTimer
  split <;> simp

@[simp] theorem State.onInterrupt_dram (tk : Nat) : (s.onInterrupt tk).dram = s.dram := by
  unfold State.onInterrupt
  (repeat' split) <;> simp

@[simp] theorem State.onDeferred_dram (tk : Nat) : (s.onDeferred tk).dram = s.dram := by
  unfold State.onDeferred
  (repeat' split) <;> simp

@[simp] theorem State.onGrace_dram (tk : Nat) : (s.onGrace tk).dram = s.dram := by
  unfold State.onGrace
  (repeat' split) <;> simp

@[simp] theorem State.onHeartbeat_dram (tk : Nat) : (s.onHeartbeat tk).dram = s.dram := by
  unfold State.onHeartbeat
  split <;> simp

/-! ### Regions -/

@[simp] theorem State.normPass_dram (prio : Nat) : (s.normPass prio).dram = s.dram := by
  unfold State.normPass
  split <;> simp

@[simp] theorem State.advancePass_dram (r : Nat) : (s.advancePass r).dram = s.dram := by
  unfold State.advancePass
  split <;> simp

@[simp] theorem State.haltContext_dram (k : Nat) : (s.haltContext k).dram = s.dram := by
  unfold State.haltContext
  (repeat' split) <;> simp

@[simp] theorem State.preemptRegion_dram (r : Nat) (on : Bool) : (s.preemptRegion r on).dram = s.dram := by
  unfold State.preemptRegion
  split <;> simp

@[simp] theorem State.atPoint_dram (srv sel : List Nat) (r : Nat) (x : Region) : (s.atPoint srv sel r x).dram = s.dram := by
  simp [State.atPoint]

@[simp] theorem State.schedPoint_dram : s.schedPoint.dram = s.dram := by simp [State.schedPoint]

@[simp] theorem State.placeRegion_dram (r : Nat) (x : Region) : (s.placeRegion r x).dram = s.dram := by
  unfold State.placeRegion
  split
  · rfl
  · split
    · rfl
    · split
      · rfl
      · rw [foldS_dram (fun _ _ => State.modClu_dram ..), State.modRegion_dram]

@[simp] theorem State.placeAll_dram : s.placeAll.dram = s.dram := by
  refine foldS_dram (fun e s => ?_) _ s
  split <;> simp

@[simp] theorem State.onRunnable_dram (r : Nat) : (s.onRunnable r).dram = s.dram := by
  unfold State.onRunnable
  split
  · split
    · rfl
    · dsimp only
      rw [State.schedPoint_dram, State.setRegionState_dram, foldS_dram (fun _ _ => State.setContext_dram ..), State.setRegion_dram]
  · rfl

@[simp] theorem State.leaveRegion_dram (r : Nat) : (s.leaveRegion r).dram = s.dram := by
  refine foldS_dram (fun c s => ?_) _ s
  split <;> simp

@[simp] theorem State.onSliceExpiry_dram (r : Nat) : (s.onSliceExpiry r).dram = s.dram := by
  unfold State.onSliceExpiry
  split <;> simp

@[simp] theorem State.onHalt_dram (k : Nat) : (s.onHalt k).dram = s.dram := by
  unfold State.onHalt
  split
  · rfl
  · refine (State.modContext_dram ..).trans (foldS_dram (fun e s => ?_) _ s)
    split <;> simp

@[simp] theorem State.standDown_dram (c : Nat) : (s.standDown c).dram = s.dram := by
  refine foldS_dram (fun j s => ?_) _ s
  dsimp only
  split
  · split <;> simp
  · rfl

@[simp] theorem State.swapOut_dram (c : Nat) : (s.swapOut c).dram = s.dram := by
  unfold State.swapOut
  split
  · simp
  · dsimp only
    rw [State.modClu_dram, foldS_dram (fun _ _ => State.modCx_dram ..), State.modContext_dram]

@[simp] theorem State.forgetCore_dram (a : Nat) : (s.forgetCore a).dram = s.dram := by rfl

@[simp] theorem State.mapOut_dram (c : Nat) : (s.mapOut c).dram = s.dram := by
  unfold State.mapOut
  dsimp only
  split
  · rfl
  · split
    · rw [State.wakeControl_dram, State.modClu_dram, State.loadPorts_dram, foldS_dram (fun _ _ => State.modCore_dram ..)]
    · rw [State.wakeControl_dram, State.modClu_dram, foldS_dram (fun _ _ => State.modCore_dram ..)]

@[simp] theorem State.firstPlacement_dram (c k : Nat) : (s.firstPlacement c k).dram = s.dram := by
  unfold State.firstPlacement
  split
  · rfl
  · refine foldS_dram (fun e s => ?_) _ s
    dsimp only
    rw [foldS_dram (fun _ _ => State.setThr_dram ..), State.setThr_dram, State.setCx_dram]

@[simp] theorem State.restoreCore_dram (ck : Nat) : (s.restoreCore ck).dram = s.dram := by
  unfold State.restoreCore
  split
  · rfl
  · refine foldS_dram (fun tk s => ?_) _ s
    split
    · simp
    · split <;> simp

@[simp] theorem State.resumeCore_dram (ck : Nat) : (s.resumeCore ck).dram = s.dram := by
  unfold State.resumeCore
  dsimp only
  rw [State.sluiceCheck_dram, State.laterOnce_dram, foldS_dram, foldS_dram (fun _ _ => State.laterOnce_dram ..),
    foldS_dram (fun _ _ => by simp), foldS_dram (fun _ _ => State.laterOnce_dram ..)]
  intro e s'
  split
  · simp
  · rfl

@[simp] theorem State.swapIn_dram (c k : Nat) : (s.swapIn c k).dram = s.dram := by
  unfold State.swapIn
  split
  · dsimp only
    rw [foldS_dram (fun _ _ => State.resumeCore_dram ..), foldS_dram (fun _ _ => State.retryHeld_dram ..),
      foldS_dram (fun _ _ => State.loopBack_dram ..), foldS_dram (fun _ _ => State.restoreCore_dram ..),
      foldS_dram (fun _ _ => State.modCx_dram ..), State.setContext_dram, State.ite_dram, State.firstPlacement_dram, ite_self,
      State.modClu_dram]
  · simp

@[simp] theorem State.standIn_dram (c : Nat) : (s.standIn c).dram = s.dram := by simp [State.standIn]
@[simp] theorem State.leaveService_dram (c : Nat) : (s.leaveService c).dram = s.dram := by simp [State.leaveService]

@[simp] theorem State.onBayWrite_dram (b : Nat) : (s.onBayWrite b).dram = s.dram := by
  unfold State.onBayWrite
  dsimp only
  (repeat' split) <;> simp

@[simp] theorem State.partDone_dram (q ser : Nat) : (s.partDone q ser).dram = s.dram := by rfl

@[simp] theorem State.freeRegion_dram (r : Nat) (x : Region) : (s.freeRegion r x).dram = s.dram := by
  unfold State.freeRegion
  dsimp only
  rw [foldS_dram (fun _ _ => by simp), State.setRegion_dram, foldS_dram (fun _ _ => State.setContext_dram ..)]

@[simp] theorem State.leaveClusters_dram (r : Nat) (x : Region) : (s.leaveClusters r x).dram = s.dram := by simp [State.leaveClusters]
@[simp] theorem State.wakeLaunches_dram : s.wakeLaunches.dram = s.dram := by rfl

/-- A region's end leaves DRAM alone if the failure of its packet does. -/
theorem State.onRegionEnd_dram {fail : State → Nat → Nat → Nat → Nat → State}
    (hf : ∀ s a b c d, (fail s a b c d).dram = s.dram) (r : Nat) : (State.onRegionEnd fail s r).dram = s.dram := by
  unfold State.onRegionEnd
  split
  · rfl
  · split
    · simp
    · split
      · rfl
      · simp [hf]

@[simp] theorem State.onMultiplex_dram (ck : Nat) : (s.onMultiplex ck).dram = s.dram := by
  unfold State.onMultiplex
  dsimp only
  (repeat' split) <;> simp

/-! ### Front end -/

@[simp] theorem State.modFq_dram (q : Nat) (f : Queue → Queue) : (s.modFq q f).dram = s.dram := by rfl
@[simp] theorem State.setCoal_dram (q : Nat) (c : Coal) : (s.setCoal q c).dram = s.dram := by rfl

@[simp] theorem State.feDone_dram (w : FeWrite) : (s.feDone w).dram = s.dram := by
  unfold State.feDone
  split <;> simp

@[simp] theorem State.freeProc_dram (q : Nat) : (s.freeProc q).dram = s.dram := by rfl

@[simp] theorem State.writeHead_dram (q : Nat) : (s.writeHead q).dram = s.dram := by
  unfold State.writeHead
  split <;> simp

@[simp] theorem State.queueError_dram (q status typ cause idx tag addr : Nat) :
    (s.queueError q status typ cause idx tag addr).dram = s.dram := by
  unfold State.queueError
  split <;> simp

@[simp] theorem State.failNow_dram (q status cause addr : Nat) : (s.failNow q status cause addr).dram = s.dram := by
  unfold State.failNow
  split <;> simp

@[simp] theorem State.coalFire_dram (q : Nat) : (s.coalFire q).dram = s.dram := by simp [State.coalFire]
@[simp] theorem State.coalCheck_dram (q : Nat) : (s.coalCheck q).dram = s.dram := by simp [State.coalCheck]

@[simp] theorem State.partFail_dram (q ser status addr : Nat) : (s.partFail q ser status addr).dram = s.dram := by
  unfold State.partFail
  (repeat' split) <;> simp

@[simp] theorem State.coalCount_dram (q : Nat) : (s.coalCount q).dram = s.dram := by rfl
@[simp] theorem State.onHold_dram (q : Nat) : (s.onHold q).dram = s.dram := by simp [State.onHold]

@[simp] theorem State.reapJob_dram (q ser : Nat) : (s.reapJob q ser).dram = s.dram := by
  unfold State.reapJob
  split <;> simp

@[simp] theorem State.afterComplete_dram (q : Nat) : (s.afterComplete q).dram = s.dram := by
  unfold State.afterComplete
  split <;> simp

@[simp] theorem State.ringTail_dram (q : Nat) (t : BitVec 32) : (s.ringTail q t).dram = s.dram := by
  unfold State.ringTail
  split <;> simp

@[simp] theorem State.onDoorbell_dram (q off len : Nat) (v : Word) : (s.onDoorbell q off len v).dram = s.dram := by
  simp [State.onDoorbell]

@[simp] theorem State.dropQueue_dram (q : Nat) : (s.dropQueue q).dram = s.dram := by
  unfold State.dropQueue
  split <;> simp

@[simp] theorem State.loadQueue_dram (q : Nat) (t : BitVec 32) (e : QEntry) : (s.loadQueue q t e).dram = s.dram := by
  simp [State.loadQueue]

@[simp] theorem State.qctlDone_dram (r : BitVec 8) : (s.qctlDone r).dram = s.dram := by rfl

@[simp] theorem State.onEvict_dram (q : Nat) : (s.onEvict q).dram = s.dram := by
  unfold State.onEvict
  split <;> simp

@[simp] theorem State.onResume_dram (q : Nat) (skip : Bool) : (s.onResume q skip).dram = s.dram := by
  unfold State.onResume
  split <;> simp

@[simp] theorem State.onDisable_dram (q : Nat) : (s.onDisable q).dram = s.dram := by
  unfold State.onDisable
  split <;> simp

@[simp] theorem State.parkQueue_dram (q : Nat) (r : ParkReason) : (s.parkQueue q r).dram = s.dram := by simp [State.parkQueue]

@[simp] theorem State.restQueue_dram (q : Nat) : (s.restQueue q).dram = s.dram := by
  unfold State.restQueue
  split <;> simp

@[simp] theorem State.releaseQueue_dram (q : Nat) : (s.releaseQueue q).dram = s.dram := by simp [State.releaseQueue]

@[simp] theorem State.goOn_dram (q : Nat) : (s.goOn q).dram = s.dram := by
  unfold State.goOn
  split <;> simp

@[simp] theorem State.nextOfQueue_dram (q : Nat) : (s.nextOfQueue q).dram = s.dram := by
  unfold State.nextOfQueue
  split <;> simp

@[simp] theorem State.processed_dram (q : Nat) : (s.processed q).dram = s.dram := by
  unfold State.processed
  (repeat' split) <;> simp

@[simp] theorem State.startBody_dram (q : Nat) (e : Queue) (p : Packet) : (s.startBody q e p).dram = s.dram := by
  unfold State.startBody
  dsimp only
  (repeat' split) <;> simp

/-! ### Packets -/

@[simp] theorem State.setStep_dram (q n : Nat) : (s.setStep q n).dram = s.dram := by rfl
@[simp] theorem State.pollWaits_dram : s.pollWaits.dram = s.dram := by simp [State.pollWaits]

@[simp] theorem State.onWaitTimeout_dram (q : Nat) : (s.onWaitTimeout q).dram = s.dram := by
  unfold State.onWaitTimeout
  (repeat' split) <;> simp

@[simp] theorem State.addPart_dram (q ser : Nat) : (s.addPart q ser).dram = s.dram := by rfl
@[simp] theorem State.startCopy_dram (e : Queue) (p : Packet) (b : List Byte) : (s.startCopy e p b).dram = s.dram := by rfl
@[simp] theorem State.modCopy_dram (id : Nat) (f : BlockCopy → BlockCopy) : (s.modCopy id f).dram = s.dram := by rfl

@[simp] theorem State.endCopy_dram (c : BlockCopy) (status addr : Nat) : (s.endCopy c status addr).dram = s.dram := by
  simp [State.endCopy]

@[simp] theorem State.copyWaits_dram (c : BlockCopy) (st : TState) : (s.copyWaits c st).dram = s.dram := by simp [State.copyWaits]
@[simp] theorem State.wakeShort_dram (x : Region) : (s.wakeShort x).dram = s.dram := by simp [State.wakeShort]
@[simp] theorem State.releasePasid_dram (q p : Nat) : (s.releasePasid q p).dram = s.dram := by simp [State.releasePasid]
@[simp] theorem State.modProc_dram (pr : Nat) (f : Processor → Processor) : (s.modProc pr f).dram = s.dram := by rfl

@[simp] theorem State.onQueueSlice_dram (pr : Nat) : (s.onQueueSlice pr).dram = s.dram := by
  unfold State.onQueueSlice
  (repeat' split) <;> simp

/-! ### Firmware -/

@[simp] theorem State.onRetention_dram (k : Nat) : (s.onRetention k).dram = s.dram := by simp [State.onRetention]

@[simp] theorem State.onBoot_dram (layer : Nat) : (s.onBoot layer).dram = s.dram := by
  unfold State.onBoot
  dsimp only
  (repeat' split) <;> simp

@[simp] theorem State.mboxEnd_dram (status len : Nat) : (s.mboxEnd status len).dram = s.dram := by simp [State.mboxEnd]

/-! ### Power -/

@[simp] theorem State.dropChannels_dram (ch : Nat) : (s.dropChannels ch).dram = s.dram := by simp [State.dropChannels]

@[simp] theorem State.replaceCluster_dram (p : Nat) (cores : List Nat) : (s.replaceCluster p cores).dram = s.dram := by
  unfold State.replaceCluster
  split
  · rfl
  · split
    · rfl
    · exact foldS_dram (fun _ _ => State.modCore_dram ..) _ s

@[simp] theorem State.applyFailure_dram (u : HwUnit) : (s.applyFailure u).dram = s.dram := by
  unfold State.applyFailure
  (repeat' split) <;> simp

@[simp] theorem State.loadMaps_dram : s.loadMaps.dram = s.dram := by simp [State.loadMaps]

@[simp] theorem State.takeRate_dram : s.takeRate.dram = s.dram := by
  unfold State.takeRate
  split <;> simp

@[simp] theorem State.setPoint_dram (w : Nat) : (s.setPoint w).dram = s.dram := by
  unfold State.setPoint
  rw [State.schedPoint_dram, foldS_dram (fun _ _ => State.modClu_dram ..), State.takeRate_dram]

@[simp] theorem State.onPwrlimit_dram (v : Word) : (s.onPwrlimit v).dram = s.dram := by simp [State.onPwrlimit]

@[simp] theorem State.onPowerExit_dram (c : Nat) : (s.onPowerExit c).dram = s.dram := by
  unfold State.onPowerExit
  (repeat' split) <;> simp

@[simp] theorem State.onLattol_dram (v : Word) : (s.onLattol v).dram = s.dram := by
  unfold State.onLattol
  rw [foldS_dram (fun _ _ => by simp)]
  simp

@[simp] theorem State.resetCapsules_dram (ck : Nat) : (s.resetCapsules ck).dram = s.dram := by simp [State.resetCapsules]
@[simp] theorem State.abortLongs_dram (c : Nat) : (s.abortLongs c).dram = s.dram := by simp [State.abortLongs]

@[simp] theorem State.resetCtx_dram (core ck : Nat) : (s.resetCtx core ck).dram = s.dram := by
  unfold State.resetCtx
  simp only [State.ite_dram, State.restoreThread_dram, State.setThr_dram, State.grantQueued_dram, ite_self]
  rw [foldS_dram]
  · simp
  · intro e s'
    split
    · simp
    · rfl

/-! ### Regs -/

@[simp] theorem State.createStandby_dram : s.createStandby.dram = s.dram := by
  unfold State.createStandby
  rw [foldS_dram (fun _ _ => by simp), foldS_dram (fun _ _ => State.setThr_dram ..)]

@[simp] theorem State.onSvcimg_dram (v : Word) : (s.onSvcimg v).dram = s.dram := by simp [State.onSvcimg]
@[simp] theorem State.onQctl_dram (v : Word) : (s.onQctl v).dram = s.dram := by simp [State.onQctl]
@[simp] theorem State.onMbcmd_dram (v : Word) : (s.onMbcmd v).dram = s.dram := by simp [State.onMbcmd]
@[simp] theorem State.onCoalcfg_dram (q : Nat) (v : Word) : (s.onCoalcfg q v).dram = s.dram := by simp [State.onCoalcfg]
@[simp] theorem State.maskVector_dram (v : Nat) (on : Bool) : (s.maskVector v on).dram = s.dram := by simp [State.maskVector]

@[simp] theorem State.onRegister_dram (off : Nat) (v : Word) : (s.onRegister off v).dram = s.dram := by
  unfold State.onRegister
  split <;> simp

/-! ### Settle -/

@[simp] theorem State.postAll_dram {α : Type} (l : List α) (p : α → Bool) (e : α → Ev) : (s.postAll l p e).dram = s.dram :=
  foldS_dram (fun _ _ => by simp) l s

@[simp] theorem State.settleThread_dram (tk : Nat) (t : Thread) : (s.settleThread tk t).dram = s.dram := by
  unfold State.settleThread
  (repeat' split) <;> simp

@[simp] theorem State.settleThreads_dram : s.settleThreads.dram = s.dram := by
  refine foldS_dram (fun e s => ?_) _ s
  split <;> simp

@[simp] theorem State.settleRegions_dram : s.settleRegions.dram = s.dram := by
  unfold State.settleRegions
  dsimp only
  rw [foldS_dram]
  · simp only [State.postAll_dram, State.placeAll_dram, State.ite_dram, State.schedPoint_dram, ite_self]
  · intro b s'
    split
    · split <;> simp
    · rfl

@[simp] theorem State.settleQueue_dram (e : Queue) : (s.settleQueue e).dram = s.dram := by simp [State.settleQueue]

@[simp] theorem State.settleService_dram : s.settleService.dram = s.dram := by
  simp only [State.settleService, State.postAll_dram]

@[simp] theorem State.settlePower_dram : s.settlePower.dram = s.dram := by
  unfold State.settlePower
  simp only [State.ite_dram, State.laterOnce_dram, ite_self]
  rw [foldS_dram]
  · simp only [State.takeRate_dram, State.postAll_dram]
  · intro c s'
    split <;> simp

@[simp] theorem State.tickProc_dram (pr : Nat) : (s.tickProc pr).dram = s.dram := by
  unfold State.tickProc
  (repeat' split) <;> simp

@[simp] theorem State.tickWait_dram (e : Queue) : (s.tickWait e).dram = s.dram := by
  unfold State.tickWait
  split <;> simp

@[simp] theorem State.tickCoal_dram (q : Nat) (c : Coal) : (s.tickCoal q c).dram = s.dram := by simp [State.tickCoal]
@[simp] theorem State.tickFront_dram : s.tickFront.dram = s.dram := by simp [State.tickFront]

/-! ### Schedule -/

@[simp] theorem State.tickThread_dram (cycle tk : Nat) (t : Thread) : (s.tickThread cycle tk t).dram = s.dram := by
  unfold State.tickThread
  split <;> simp

@[simp] theorem State.tickRegion_dram (k : Nat) : (s.tickRegion k).dram = s.dram := by
  unfold State.tickRegion
  dsimp only
  (repeat' split) <;> simp

@[simp] theorem State.tickStretch_dram (k : Nat) : (s.tickStretch k).dram = s.dram := by
  unfold State.tickStretch
  split <;> simp

@[simp] theorem State.tickRosters_dram (k : Nat) : (s.tickRosters k).dram = s.dram := by
  unfold State.tickRosters
  split
  · rfl
  · refine foldS_dram (fun j s => ?_) _ s
    split
    · split <;> simp
    · rfl

@[simp] theorem State.tickCluster_dram (k : Nat) : (s.tickCluster k).dram = s.dram := by simp [State.tickCluster]
@[simp] theorem State.beginTurn_dram (c : Nat) : (s.beginTurn c).dram = s.dram := by simp [State.beginTurn]

@[simp] theorem State.hostWrite_dram (a line : Nat) (mask : BitVec 64) (d : Vec) : (s.hostWrite a line mask d).dram = s.dram := by
  simp [State.hostWrite]

@[simp] theorem State.sendMalformed_dram (h : BitVec 128) : (s.sendMalformed h).dram = s.dram := by simp [State.sendMalformed]

@[simp] theorem State.spoil_dram (x1 : Site) : (s.spoil x1).dram = s.dram := by
  unfold State.spoil
  dsimp only
  (repeat' split) <;> simp

@[simp] theorem State.combine_dram (i j : Nat) : (s.combine i j).dram = s.dram := by
  unfold State.combine
  (repeat' split) <;> simp

end Sys2Proof.Machine
end

section
/-!
SUPPORT. What keeps DRAM canonical: each operation of the machine that may write memory, whatever its outcome.
-/

namespace Sys2Proof.Machine

variable {s : State}

/-- A fold of steps that keep DRAM canonical keeps it canonical. -/
theorem foldS_wf {α : Type} {f : α → State → State} (hf : ∀ a s, Memory.wf s.dram = true → Memory.wf (f a s).dram = true)
    (l : List α) {s : State} (h : Memory.wf s.dram = true) : Memory.wf (foldS f l s).dram = true := by
  induction l generalizing s with
  | nil => exact h
  | cons a l ih => exact ih (hf a s h)

@[simp] theorem State.ite_wf {c : Prop} [Decidable c] {a b : State} (ha : Memory.wf a.dram = true) (hb : Memory.wf b.dram = true) :
    Memory.wf (if c then a.dram else b.dram) = true := by
  split
  · exact ha
  · exact hb

/-- DRAM is canonical in a state. -/
@[simp] def Kept (s : State) : Prop := Memory.wf s.dram = true

/-- Both outcomes of a computation satisfy their predicates. -/
@[simp] def Both {ε α : Type} (p : ε → Prop) (q : α → Prop) : Except ε α → Prop
  | .error e => p e
  | .ok a => q a

/-- The state of an answer, where there is one, has canonical DRAM. -/
@[simp] def IfSome {α : Type} (q : α → Prop) : Option α → Prop
  | some a => q a
  | none => True

/-- The states that a translation answers with have canonical DRAM. -/
@[simp] def XRes.Kept : XRes → Prop
  | .pa s _ | .wait s _ => Memory.wf s.dram = true
  | .fault _ => True

/-- The states that a C-class instruction's body answers with have canonical DRAM. -/
@[simp] def CRes.Kept : CRes → Prop
  | .done s _ | .wait s _ _ => Memory.wf s.dram = true
  | .trap _ _ => True

/-- The states that the place of a job's address carries have canonical DRAM. -/
@[simp] def JobPlace.Kept : JobPlace → Prop
  | .mem s _ | .wait s => Memory.wf s.dram = true
  | .pool _ _ | .fail _ => True

/-- The states that a packet's access answers with have canonical DRAM, and its value satisfies `q`. -/
@[simp] def FeRes.Kept {α : Type} (q : α → Prop) : FeRes α → Prop
  | .ok s a => Memory.wf s.dram = true ∧ q a
  | .park s | .busy s | .hold s _ => Memory.wf s.dram = true
  | .fail _ _ _ => True

/-- The states that a fetch answers with have canonical DRAM. -/
@[simp] def Fetched.Kept : Fetched → Prop
  | .line s _ | .wait s _ => Memory.wf s.dram = true
  | .trap _ _ => True

theorem XRes.DramIs.kept {d : List Host.Cell} {r : XRes} (hr : r.DramIs d) (h : Memory.wf d = true) : r.Kept := by
  cases r <;> simp_all

theorem FeRes.bind_kept {α β : Type} {p : α → Prop} {q : β → Prop} {x : FeRes α} {f : State → α → FeRes β} (hx : x.Kept p)
    (hf : ∀ s a, Memory.wf s.dram = true → p a → (f s a).Kept q) : (x.bind f).Kept q := by
  cases x with
  | ok s a => exact hf s a hx.1 hx.2
  | park s | busy s | hold s _ => exact hx
  | fail _ _ _ => trivial

theorem foldE_kept {α σ ε : Type} {p : ε → Prop} {q : σ → Prop} {f : α → σ → Except ε σ}
    (hf : ∀ a x, q x → Both p q (f a x)) (l : List α) {x : σ} (hx : q x) : Both p q (foldE f l x) := by
  induction l generalizing x with
  | nil => exact hx
  | cons a l ih =>
    have ha := hf a x hx
    unfold foldE
    split <;> rename_i he <;> rw [he] at ha
    · exact ih ha
    · exact ha

/-! ### Bank -/

@[simp] theorem State.dramPutLine_wf (h : Memory.wf s.dram = true) (line : Nat) (d : Vec) (p : Bool) :
    Memory.wf (s.dramPutLine line d p).dram = true :=
  Laws.dramPutLine_wf s line d p h

/-! ### Errors -/

@[simp] theorem State.dropLine_wf (h : Memory.wf s.dram = true) (sl line : Nat) : Memory.wf (s.dropLine sl line).dram = true := by
  unfold State.dropLine
  split <;> simp [h]

@[simp] theorem State.putLine_wf (h : Memory.wf s.dram = true) (sl line : Nat) (d : SLine) :
    Memory.wf (s.putLine sl line d).dram = true := by
  unfold State.putLine
  (repeat' split) <;> simp [h]

@[simp] theorem State.retireWay_wf (h : Memory.wf s.dram = true) (n w : Nat) :
    Memory.wf (s.retireWay n w).dram = true := foldS_wf (fun _ _ h => by simp [h]) _ h

@[simp] theorem State.unitFatal_wf (h : Memory.wf s.dram = true) (u : HwUnit) (addr : Word) :
    Memory.wf (s.unitFatal u addr).dram = true := by
  unfold State.unitFatal
  split <;> simp [h]

@[simp] theorem State.corrected_wf (h : Memory.wf s.dram = true) (u : HwUnit) (addr : Word) :
    Memory.wf (s.corrected u addr).dram = true := by
  simp [State.corrected, h]

/-! ### Channel -/

@[simp] theorem State.onPageTimeout_wf (h : Memory.wf s.dram = true) (prg : Nat) : Memory.wf (s.onPageTimeout prg).dram = true := by
  unfold State.onPageTimeout
  split <;> simp [h]

/-! ### Cache -/

@[simp] theorem State.dataReply_wf (h : Memory.wf s.dram = true) (st : AState) (m : Msg) : Memory.wf (s.dataReply st m).dram = true := by
  simp [State.dataReply, h]

@[simp] theorem State.wbReply_wf (h : Memory.wf s.dram = true) (m : Msg) : Memory.wf (s.wbReply m).dram = true := by
  simp [State.wbReply, h]

/-! ### Home -/

@[simp] theorem State.takeData_wf (h : Memory.wf s.dram = true) (sl line : Nat) (d : Vec) (poison : Bool) :
    Memory.wf (s.takeData sl line d poison).dram = true := by
  simp [State.takeData, h]

@[simp] theorem State.cleanLine_wf (h : Memory.wf s.dram = true) (sl line : Nat) : Memory.wf (s.cleanLine sl line).dram = true := by
  unfold State.cleanLine
  split
  · rw [State.ite_dram, State.modSl_dram]
    split
    · exact State.dramPutLine_wf h ..
    · exact h
  · exact h

@[simp] theorem State.homeWrite_wf (h : Memory.wf s.dram = true) (sl line src off n x : Nat) :
    Memory.wf (s.homeWrite sl line src off n x).dram = true := by
  simp [State.homeWrite, h]

@[simp] theorem State.finishRequest_wf (h : Memory.wf s.dram = true) (sl : Nat) (e : Ev) (conflict : Bool) :
    Memory.wf (s.finishRequest sl e conflict).dram = true := by
  unfold State.finishRequest
  dsimp only
  (repeat' split) <;> simp [h]

@[simp] theorem State.serveNode_wf (h : Memory.wf s.dram = true) (sl : Nat) (e : Ev) (m : Msg) (n : Node) :
    Memory.wf (s.serveNode sl e m n).dram = true := by
  unfold State.serveNode
  dsimp only
  (repeat' split) <;> simp [h]

@[simp] theorem State.serveReady_wf (h : Memory.wf s.dram = true) (sl : Nat) (e : Ev) (m : Msg) :
    Memory.wf (s.serveReady sl e m).dram = true := by
  unfold State.serveReady
  dsimp only
  (repeat' split) <;> simp [h]

@[simp] theorem State.serve_wf (h : Memory.wf s.dram = true) (sl : Nat) (e : Ev) : Memory.wf (s.serve sl e).dram = true := by
  unfold State.serve
  dsimp only
  (repeat' split) <;> simp [h]

@[simp] theorem State.serveAll_wf (h : Memory.wf s.dram = true) (sl : Nat) (l : List Ev) :
    Memory.wf (s.serveAll sl l).dram = true := foldS_wf (fun _ _ h => by simp [h]) _ h

@[simp] theorem State.onDramFill_wf (h : Memory.wf s.dram = true) (sl line : Nat) : Memory.wf (s.onDramFill sl line).dram = true := by
  unfold State.onDramFill
  dsimp only
  (repeat' split) <;> simp [h]

@[simp] theorem State.onReplayRetry_wf (h : Memory.wf s.dram = true) (sl : Nat) : Memory.wf (s.onReplayRetry sl).dram = true := by
  simp [State.onReplayRetry, h]

@[simp] theorem State.finishServed_wf (h : Memory.wf s.dram = true) (sl : Nat) (e : Ev) (t : Txn) :
    Memory.wf (s.finishServed sl e t).dram = true := by
  simp [State.finishServed, h]

@[simp] theorem State.finishClean_wf (h : Memory.wf s.dram = true) (sl : Nat) (t : Txn) : Memory.wf (s.finishClean sl t).dram = true := by
  unfold State.finishClean
  dsimp only
  split
  · split
    · exact foldS_wf (fun _ _ h => by simp [h]) _ (by simp [h])
    · exact h
  · simp [h]

@[simp] theorem State.finishTxn_wf (h : Memory.wf s.dram = true) (sl : Nat) (t : Txn) : Memory.wf (s.finishTxn sl t).dram = true := by
  unfold State.finishTxn
  dsimp only
  (repeat' split) <;> simp [h]

@[simp] theorem State.putTxn_wf (h : Memory.wf s.dram = true) (sl : Nat) (t : Txn) : Memory.wf (s.putTxn sl t).dram = true := by
  simp [State.putTxn, h]

@[simp] theorem State.answerProbe_wf (h : Memory.wf s.dram = true) (sl agent line : Nat) (ver : BitVec 8) (f : Txn → Txn) :
    Memory.wf (s.answerProbe sl agent line ver f).dram = true := by
  unfold State.answerProbe
  dsimp only
  (repeat' split) <;> simp [h]

@[simp] theorem State.onProbeAnswer_wf (h : Memory.wf s.dram = true) (m : Msg) : Memory.wf (s.onProbeAnswer m).dram = true := by
  unfold State.onProbeAnswer
  dsimp only
  (repeat' split) <;> simp [h]

@[simp] theorem State.onReplicaAck_wf (h : Memory.wf s.dram = true) (m : Msg) : Memory.wf (s.onReplicaAck m).dram = true := by
  simp [State.onReplicaAck, h]

@[simp] theorem State.wbTake_wf (h : Memory.wf s.dram = true) (sl : Nat) (m : Msg) : Memory.wf (s.wbTake sl m).dram = true := by
  unfold State.wbTake
  split <;> simp [h]

@[simp] theorem State.onWriteBack_wf (h : Memory.wf s.dram = true) (m : Msg) : Memory.wf (s.onWriteBack m).dram = true := by
  unfold State.onWriteBack
  dsimp only
  (repeat' split) <;> simp [h]

@[simp] theorem State.takeReq_wf (h : Memory.wf s.dram = true) (sl : Nat) (e : Ev) : Memory.wf (s.takeReq sl e).dram = true := by
  cases e with
  | atom m | watch m => simp only [State.takeReq]; split <;> simp [h]
  | _ => simp [State.takeReq, h]

@[simp] theorem State.onRequest_wf (h : Memory.wf s.dram = true) (e : Ev) (m : Msg) : Memory.wf (s.onRequest e m).dram = true := by
  unfold State.onRequest
  dsimp only
  (repeat' split) <;> simp [h]

/-! ### Coherent -/

@[simp] theorem State.ask_wf (h : Memory.wf s.dram = true) (id line : Nat) (write whole : Bool) :
    Memory.wf (s.ask id line write whole).dram = true := by
  unfold State.ask
  dsimp only
  (repeat' split) <;> simp [h]

@[simp] theorem State.askAll_wf (h : Memory.wf s.dram = true) (id pa n : Nat) (write : Bool) :
    Memory.wf (s.askAll id pa n write).dram = true := foldS_wf (fun _ _ h => by simp [h]) _ h

theorem State.cohBytes_wf (h : Memory.wf s.dram = true) (id pa n : Nat) : Both Kept (Kept ·.1) (s.cohBytes id pa n) := by
  unfold State.cohBytes
  dsimp only
  split
  · have hr := foldS_dram (f := fun line (s : State) =>
      if id < 64 ∧ (s.redirected id line).isSome then s.useReplica (homeOf line) line else s) (fun _ s => by simp)
    simp [hr, h]
  · simp [h]

theorem State.cohLines_wf (h : Memory.wf s.dram = true) (id : Nat) (lines : List Nat) : Both Kept (Kept ·.1) (s.cohLines id lines) := by
  have hask := foldS_wf (f := fun line (s : State) => s.ask id line false false) (fun _ _ h => by simp [h]) lines h
  unfold State.cohLines
  dsimp only
  split
  · exact foldS_wf (fun _ _ h => by simp [h]) _ hask
  · exact hask

theorem State.cohRead_wf (h : Memory.wf s.dram = true) (id line : Nat) : Both Kept (Kept ·.1) (s.cohRead id line) := by
  have hr := State.cohBytes_wf h id (64 * line) 64
  unfold State.cohRead
  split <;> rename_i he <;> rw [he] at hr <;> exact hr

@[simp] theorem State.unitWrite_wf (h : Memory.wf s.dram = true) (id pa : Nat) (l : List Byte) (poison : Bool) :
    Memory.wf (s.unitWrite id pa l poison).dram = true :=
  foldS_wf (fun _ _ h => by
    dsimp only
    split <;> simp [h]) _ h

theorem State.cohPuts_wf (h : Memory.wf s.dram = true) (id : Nat) (l : List (Nat × List Byte)) (poison : Bool) :
    Both Kept Kept (s.cohPuts id l poison) := by
  have hask := foldS_wf (f := fun (e : Nat × List Byte) (s : State) => s.askAll id e.1 e.2.length true) (fun _ _ h => by simp [h]) l h
  unfold State.cohPuts
  dsimp only
  split
  · exact foldS_wf (fun _ _ h => by simp [h]) _ hask
  · exact hask

theorem State.cohPut_wf (h : Memory.wf s.dram = true) (id pa : Nat) (l : List Byte) (poison : Bool) :
    Both Kept Kept (s.cohPut id pa l poison) :=
  State.cohPuts_wf h id [(pa, l)] poison

theorem State.cohRmw_wf (h : Memory.wf s.dram = true) (id pa n : Nat) (f : List Byte → List Byte) :
    Both Kept (Kept ·.1) (s.cohRmw id pa n f) := by
  unfold State.cohRmw
  dsimp only
  split <;> simp [h]

/-! ### Access -/

theorem State.xlatThread_wf (h : Memory.wf s.dram = true) (tk : Nat) (t : Thread) (va : Nat) (r w x : Bool) :
    (s.xlatThread tk t va r w x).Kept := by
  unfold State.xlatThread
  split
  · exact (State.physical_dram rfl va).kept h
  · split
    · exact (State.translate_dram rfl _ va).kept h
    · trivial

theorem State.planAll_wf (h : Memory.wf s.dram = true) (tk : Nat) (t : Thread) (r w : Bool) (val : Option Word) (l : List Piece) :
    Both CRes.Kept (Kept ·.1) (s.planAll tk t r w val l) := by
  induction l generalizing s with
  | nil => exact h
  | cons p l ih =>
    unfold State.planAll
    split
    · have hl := ih h
      split <;> rename_i he <;> rw [he] at hl <;> exact hl
    next va _ =>
      have hx := State.xlatThread_wf h tk t va r w false
      split <;> rename_i hv <;> rw [hv] at hx
      · trivial
      · exact hx
      · have hl := ih hx
        split <;> rename_i he <;> rw [he] at hl <;> exact hl

theorem State.laneFor_wf (h : Memory.wf s.dram = true) (tk : Nat) (p : Plan) (acc : List Lane × Vec × Option Word) :
    IfSome (Kept ·.1) (s.laneFor tk p acc) := by
  unfold State.laneFor
  dsimp only
  (repeat' split) <;> simp [h]

theorem State.lanesFor_wf (h : Memory.wf s.dram = true) (tk : Nat) (l : List Plan) (acc : List Lane × Vec × Option Word) :
    IfSome (Kept ·.1) (s.lanesFor tk l acc) := by
  induction l generalizing s acc with
  | nil => exact h
  | cons p l ih =>
    have hp := State.laneFor_wf h tk p acc
    unfold State.lanesFor
    split <;> rename_i he <;> rw [he] at hp
    · exact ih hp _
    · trivial

theorem State.startLoad_wf (h : Memory.wf s.dram = true) (tk la : Nat) (plans : List Plan) (dsts : List Dst) (fin : Fin_) (acq : Bool) :
    (s.startLoad tk la plans dsts fin acq).Kept := by
  have hl := State.lanesFor_wf h tk plans ([], 0, none)
  unfold State.startLoad
  split <;> rename_i he <;> rw [he] at hl
  · exact h
  · simp only [IfSome, Kept] at hl
    split <;> simp [hl]

theorem State.load_wf (h : Memory.wf s.dram = true) (tk : Nat) (ea : Word) (n align la : Nat) (dsts : List Dst) (fin : Fin_) (acq : Bool) :
    (s.load tk ea n align la dsts fin acq).Kept := by
  unfold State.load
  split
  · exact h
  · split
    · trivial
    next t _ _ tgt _ =>
      have hp := State.planAll_wf h tk t true false (some ea) (tgt.pieces n 0)
      split <;> rename_i he <;> rw [he] at hp
      · exact hp
      · split
        · exact hp
        · split
          · exact hp
          · exact State.startLoad_wf hp ..

theorem State.storePiece_wf (h : Memory.wf s.dram = true) (tk : Nat) (p : Plan) (x : Nat) : IfSome Kept (s.storePiece tk p x) := by
  unfold State.storePiece
  split
  next pa _ =>
    generalize hr : s.storeLine tk _ (pa / 64) _ _ = r
    cases r with
    | none => trivial
    | some s' => simpa [State.storeLine_dram hr] using h
  · dsimp only
    split <;> simp [h]
  · trivial

theorem State.storePieces_wf (h : Memory.wf s.dram = true) (tk : Nat) (v : Vec) (l : List Plan) : IfSome Kept (s.storePieces tk v l) := by
  induction l generalizing s with
  | nil => exact h
  | cons p l ih =>
    have hp := State.storePiece_wf h tk p (bytesAt v p.at_ p.len)
    unfold State.storePieces
    split <;> rename_i he <;> rw [he] at hp
    · exact ih hp
    · trivial

theorem State.storeAll_wf (h : Memory.wf s.dram = true) (tk : Nat) (v : Vec) (l : List Plan) :
    (match s.storePieces tk v l with
      | some s => CRes.done s none
      | none => .wait s .ready none).Kept := by
  have hp := State.storePieces_wf h tk v l
  split <;> rename_i he <;> rw [he] at hp
  · exact hp
  · exact h

theorem State.store_wf (h : Memory.wf s.dram = true) (tk : Nat) (ea : Word) (n align : Nat) (v : Vec) (rel : Bool) :
    (s.store tk ea n align v rel).Kept := by
  unfold State.store
  split
  · exact h
  · split
    · trivial
    next t _ _ tgt _ =>
      have hp := State.planAll_wf h tk t false true (some ea) (tgt.pieces n 0)
      split <;> rename_i he <;> rw [he] at hp
      · exact hp
      · split
        · exact hp
        · exact State.storeAll_wf hp ..

theorem State.gather_wf (h : Memory.wf s.dram = true) (tk e la : Nat) (lanes : List (Nat × Word)) (d : Nat) :
    (s.gather tk e la lanes d).Kept := by
  unfold State.gather
  split
  · exact h
  · split
    · trivial
    next t _ _ ts _ =>
      have hp := State.planAll_wf h tk t true false none (ts.flatMap fun x => x.2.pieces e (x.1 * e))
      split <;> rename_i he <;> rw [he] at hp
      · exact hp
      · split
        · exact hp
        · exact State.startLoad_wf hp ..

theorem State.scatter_wf (h : Memory.wf s.dram = true) (tk e : Nat) (lanes : List (Nat × Word)) (v : Vec) :
    (s.scatter tk e lanes v).Kept := by
  unfold State.scatter
  split
  · exact h
  · split
    · trivial
    next t _ _ ts _ =>
      have hp := State.planAll_wf h tk t false true none (ts.flatMap fun x => x.2.pieces e (x.1 * e))
      split <;> rename_i he <;> rw [he] at hp
      · exact hp
      · dsimp only
        split
        · exact hp
        · exact State.storeAll_wf hp ..

/-! ### Memory -/

theorem State.syncLoad_wf (h : Memory.wf s.dram = true) (tk la : Nat) (ea : Word) (k : ParkKind) (d : Nat) :
    (s.syncLoad tk la ea k d).Kept := by
  unfold State.syncLoad
  dsimp only
  (repeat' split) <;> simp [h]

theorem State.syncStore_wf (h : Memory.wf s.dram = true) (tk : Nat) (ea x : Word) (waits : Bool) : (s.syncStore tk ea x waits).Kept := by
  unfold State.syncStore
  dsimp only
  (repeat' split) <;> simp [h]

theorem State.atomic_wf (h : Memory.wf s.dram = true) (tk la op w : Nat) (ea : Word) (x y : Nat) (sc : Scope) (d : Nat) :
    (s.atomic tk la op w ea x y sc d).Kept := by
  unfold State.atomic
  split
  · exact h
  · split
    · trivial
    next t _ _ tgt _ =>
      have hp := State.planAll_wf h tk t false true (some ea) [⟨tgt, w, 0⟩]
      split <;> rename_i he <;> rw [he] at hp
      · exact hp
      · simp only [Both, Kept] at hp
        dsimp only
        (repeat' split) <;> simp [hp]

theorem State.memOnly_wf (h : Memory.wf s.dram = true) (tk : Nat) (t : Thread) (ea : Word) (w : Nat) (write : Bool) :
    Both CRes.Kept (Kept ·.1) (s.memOnly tk t ea w write) := by
  unfold State.memOnly
  split
  · trivial
  next tgt _ =>
    have hp := State.planAll_wf h tk t (!write) write (some ea) [⟨tgt, w, 0⟩]
    split <;> rename_i he <;> rw [he] at hp
    · exact hp
    · split <;> exact hp
    · exact hp

theorem State.ldlk_wf (h : Memory.wf s.dram = true) (tk la : Nat) (ea : Word) (w d : Nat) : (s.ldlk tk la ea w d).Kept := by
  unfold State.ldlk
  split
  · exact h
  next t _ =>
    have hm := State.memOnly_wf h tk t ea w true
    split <;> rename_i he <;> rw [he] at hm
    · exact hm
    · simp only [Both, Kept] at hm
      dsimp only
      split
      · exact hm
      · split
        · exact hm
        next hf => simp [State.flushLine_dram hf, hm]

theorem State.stck_wf (h : Memory.wf s.dram = true) (tk la : Nat) (ea x : Word) (w d : Nat) : (s.stck tk la ea x w d).Kept := by
  unfold State.stck
  split
  · exact h
  next t _ =>
    have hm := State.memOnly_wf h tk t ea w true
    split <;> rename_i he <;> rw [he] at hm
    · exact hm
    · simp only [Both, Kept] at hm
      dsimp only
      (repeat' split) <;> simp [hm]

theorem State.barArm_wf (h : Memory.wf s.dram = true) (tk : Nat) (ea t : Word) (expect : Bool) : (s.barArm tk ea t expect).Kept := by
  unfold State.barArm
  split
  · trivial
  · split
    · trivial
    · split
      · split
        · split
          next hb => simp [State.barExpect_dram hb, h]
          · trivial
        · simp [h]
      · simp [h]

/-! ### Control -/

theorem State.btagOp_wf (h : Memory.wf s.dram = true) (t : Thread) (ea : Word) (o : BitVec 11) (full : Bool) :
    (s.btagOp t ea o full).Kept := by
  unfold State.btagOp
  dsimp only
  (repeat' split) <;> simp [h]

theorem State.pushReturn_wf (h : Memory.wf s.dram = true) (ra target : Word) : (s.pushReturn ra target).Kept := by
  unfold State.pushReturn
  dsimp only
  split
  · exact h
  next t _ =>
    split
    next x rest _ =>
      have hs := State.store_wf h s.unit.tk t.retsp 8 8 (x.setWidth 512) false
      split
      · simp [h]
      · split
        · trivial
        · split
          · trivial
          · split
            · exact h
            · split
              next he =>
                rw [he] at hs
                simpa using hs
              · exact hs
    · simp [h]

theorem State.readNow_wf (h : Memory.wf s.dram = true) (tk : Nat) (ea : Word) : Both CRes.Kept (Kept ·.1) (s.readNow tk ea) := by
  unfold State.readNow
  split
  · exact h
  · split
    · trivial
    next t _ _ tgt _ =>
      have hp := State.planAll_wf h tk t true false (some ea) [⟨tgt, 8, 0⟩]
      split <;> rename_i he <;> rw [he] at hp
      · exact hp
      next s' plans =>
        simp only [Both, Kept] at hp
        split
        · exact hp
        · split
          next pa _ _ _ =>
            split
            · split
              · trivial
              · exact hp
            · have hc := State.cohRead_wf hp s.unit.core (pa / 64)
              split <;> rename_i hr <;> rw [hr] at hc
              · split
                · trivial
                · exact hc
              · exact hc
          · split
            · trivial
            · exact hp
          · exact hp

theorem State.popReturn_wf (h : Memory.wf s.dram = true) : s.popReturn.Kept := by
  unfold State.popReturn
  dsimp only
  split
  · exact h
  next t _ =>
    split
    · simp [h]
    · split
      · trivial
      · split
        · trivial
        · split
          · exact h
          · have hr := State.readNow_wf h s.unit.tk (t.retsp - 8)
            split <;> rename_i he <;> rw [he] at hr
            · exact hr
            · simpa using hr

/-- Words read one after the other keep DRAM canonical. -/
theorem State.readWords_wf (h : Memory.wf s.dram = true) (tk n : Nat) (ea : Word) :
    Both CRes.Kept (Kept ·.1) (foldE (fun i (acc : State × Nat) => match acc.1.readNow tk (ea + word (8 * i)) with
      | .ok r => .ok (r.1, acc.2 + r.2.toNat * 2 ^ (64 * i))
      | .error e => .error e) (List.range n) (s, 0)) :=
  foldE_kept (fun i acc hacc => by
    have hr := State.readNow_wf hacc tk (ea + word (8 * i))
    split <;> rename_i he <;> rw [he] at hr <;> exact hr) _ h

theorem State.readEntry_wf (h : Memory.wf s.dram = true) (tk : Nat) (ea : Word) : Both CRes.Kept (Kept ·.1) (s.readEntry tk ea) :=
  State.readWords_wf h tk 4 ea

theorem State.pptSave_wf (h : Memory.wf s.dram = true) (t : Thread) (idx : Nat) : (s.pptSave t idx).Kept := by
  have hr := State.readEntry_wf h s.unit.tk (t.livetab + word (32 * idx))
  unfold State.pptSave
  dsimp only
  split
  · exact h
  · split
    · simp [h]
    · split <;> rename_i he <;> rw [he] at hr
      · simp only [Both, Kept] at hr
        split <;> simp [hr]
      · split
        · simp [h]
        · exact hr
      · simp [h]

/-! ### Messaging -/

theorem State.send_wf (h : Memory.wf s.dram = true) (d : Word) (x : Vec) (n : Nat) : (s.send d x n).Kept := by
  unfold State.send
  dsimp only
  (repeat' split) <;> simp [h]

theorem State.recv_wf (h : Memory.wf s.dram = true) (fin : Fin_) : (s.recv fin).Kept := by
  unfold State.recv
  dsimp only
  (repeat' split) <;> simp [h]

/-! ### Matrix -/

theorem State.mma_wf (h : Memory.wf s.dram = true) (clear : Bool) (z : BitVec 4) (ab bb edge : Word) (la : Nat) :
    (s.mma clear z ab bb edge la).Kept := by
  unfold State.mma
  dsimp only
  (repeat' split) <;> simp [h]

theorem State.fact_wf (h : Memory.wf s.dram = true) (op : MxOp) (z : BitVec 4) (z2 : Option (BitVec 4)) (vds : List Nat) (gd la : Nat) :
    (s.fact op z z2 vds gd la).Kept := by
  unfold State.fact
  dsimp only
  split
  · exact h
  · split
    · trivial
    · split
      · trivial
      · split
        · trivial
        · split
          · trivial
          · split
            · exact h
            · simp [h]

/-! ### Engines -/

theorem State.queueCard_wf (h : Memory.wf s.dram = true) (val : Word) (held : Option Nat) (c : Card)
    (print : Option (List Range × List Range)) : (s.queueCard val held c print).Kept := by
  unfold State.queueCard
  dsimp only
  split
  · split
    · exact h
    · simp [h]
  · trivial
  · exact h

theorem State.readCard_wf (h : Memory.wf s.dram = true) (a : Word) (n : Nat) (k : Nat → CRes) (hk : ∀ img, (k img).Kept) :
    (s.readCard a n k).Kept := by
  unfold State.readCard
  dsimp only
  split
  · trivial
  · split
    · exact h
    · split
      · trivial
      · exact hk _

theorem State.issueCopy_wf (h : Memory.wf s.dram = true) (a : Word) (b : Option Word) : (s.issueCopy a b).Kept := by
  refine State.readCard_wf h a 256 _ fun img => ?_
  dsimp only
  split
  · trivial
  · split
    · trivial
    · exact State.queueCard_wf h ..

theorem State.issueMlong_wf (h : Memory.wf s.dram = true) (a : Word) (b : Option Word) : (s.issueMlong a b).Kept := by
  refine State.readCard_wf h a 64 _ fun img => ?_
  split
  · dsimp only
    split
    · trivial
    · exact State.queueCard_wf h ..
  · trivial

theorem State.xlatCard_wf (h : Memory.wf s.dram = true) (ck : Nat) (c : Card) (va : Nat) (r w : Bool) : (s.xlatCard ck c va r w).Kept := by
  unfold State.xlatCard
  split
  · exact (State.physical_dram rfl va).kept h
  · split
    · exact (State.translate_dram rfl _ va).kept h
    · trivial

theorem State.jobPlace_wf (h : Memory.wf s.dram = true) (ck : Nat) (c : Card) (a : Word) (n : Nat) (r w : Bool) :
    (s.jobPlace ck c a n r w).Kept := by
  have hx := State.xlatCard_wf h ck c a.toNat r w
  unfold State.jobPlace
  split
  · split
    · trivial
    · split <;> trivial
  · split <;> rename_i he <;> rw [he] at hx <;> exact hx

@[simp] theorem State.jobComplete_wf (h : Memory.wf s.dram = true) (ck : Nat) (c : Card) (src sel : Nat) (again : Ev) :
    Memory.wf (s.jobComplete ck c src sel again).dram = true := by
  have hp := State.jobPlace_wf h ck c c.stAddr 8 false true
  unfold State.jobComplete
  dsimp only
  split
  · simp [h]
  · split <;> rename_i he <;> rw [he] at hp
    · simp [h]
    · simp [h]
    · simpa using hp
    next s' pa =>
      have hc := State.cohPut_wf hp ((s.coreOfCk ck).getD 0) pa (leBytes 8 c.statusWord.toNat) false
      split <;> rename_i he <;> rw [he] at hc <;> simpa using hc

@[simp] theorem State.onCopyComplete_wf (h : Memory.wf s.dram = true) (ck id : Nat) : Memory.wf (s.onCopyComplete ck id).dram = true := by
  unfold State.onCopyComplete
  split <;> simp [h]

@[simp] theorem State.onMlongComplete_wf (h : Memory.wf s.dram = true) (ck id : Nat) : Memory.wf (s.onMlongComplete ck id).dram = true := by
  unfold State.onMlongComplete
  split <;> simp [h]

@[simp] theorem State.bypass_wf (h : Memory.wf s.dram = true) (pa n : Nat) :
    Memory.wf (s.bypass pa n).dram = true := foldS_wf (fun _ _ h => by simp [h]) _ h

@[simp] theorem State.copyStep_wf (h : Memory.wf s.dram = true) (ck : Nat) (c : Card) : Memory.wf (s.copyStep ck c).dram = true := by
  unfold State.copyStep
  extract_lets id again free me src dst k n stop moved poisoned pause deliver
  have hagain (u : State) : (again u).dram = u.dram := by simp [again]
  have hstop (u : State) (st : Nat) (a : Word) : (stop u st a).dram = u.dram := by simp [stop, hagain]
  have hmoved (u : State) : (moved u).dram = u.dram := by simp [moved, hagain]
  have hpause (u : State) : (pause u).dram = u.dram := by simp [pause]
  have hpois (u : State) (bad : Bool) : (poisoned u bad).dram = u.dram := by simp [poisoned]
  have hdeliver (u : State) (hu : Memory.wf u.dram = true) (l : List Byte) (bad : Bool) : Memory.wf (deliver u l bad).dram = true := by
    simp only [deliver]
    generalize hw : (if c.wild dst n then { u with free := u.free + n } else u) = w
    have hww : Memory.wf w.dram = true := by rw [← hw]; split <;> exact hu
    generalize (if c.wild dst n then _ else l) = l'
    have hvw : Memory.wf (poisoned w bad).dram = true := by rw [hpois]; exact hww
    split
    · split
      · rw [hstop]; exact hww
      · split
        · rw [hstop]; exact hww
        · rw [hmoved]
          exact foldS_wf (fun _ _ h => by simp [h]) _ hvw
    · have hp := State.jobPlace_wf hvw ck c dst n false true
      split <;> rename_i he <;> rw [he] at hp
      · rw [hstop]; exact hww
      · rw [hpause]; exact hp
      · simp [hmoved, hvw]
      next v' pa =>
        have hc := State.cohPut_wf hp me pa l' bad
        split <;> rename_i he <;> rw [he] at hc
        · rw [hmoved]
          simp only [Both, Kept] at hc
          split <;> simp [hc]
        · rw [hagain]; exact hc
  have hp := State.jobPlace_wf h ck c src n true false
  split <;> rename_i he <;> rw [he] at hp
  · simp [hstop, h]
  · simpa [hpause] using hp
  · exact hdeliver s h _ _
  next s' pa =>
    simp only [JobPlace.Kept] at hp
    split
    · split
      · simp [hstop, hp]
      · split
        · simp [hstop, hp]
        · simp [hmoved, hp]
    · have hc := State.cohBytes_wf hp me pa n
      split <;> rename_i he <;> rw [he] at hc
      · exact hdeliver _ hc _ _
      · simpa [hagain] using hc

@[simp] theorem State.runCard_wf (h : Memory.wf s.dram = true) (ck : Nat) (c : Card) : Memory.wf (s.runCard ck c).dram = true := by
  unfold State.runCard
  (repeat' split) <;> simp [h]

@[simp] theorem State.onCardStart_wf (h : Memory.wf s.dram = true) (ck id : Nat) : Memory.wf (s.onCardStart ck id).dram = true := by
  unfold State.onCardStart
  (repeat' split) <;> simp [h]

/-! ### Capsules -/

theorem State.xlatDead_wf (h : Memory.wf s.dram = true) (ck : Nat) (d : DeadLetter) (va : Nat) : (s.xlatDead ck d va).Kept := by
  unfold State.xlatDead
  split
  · exact (State.translate_dram rfl _ va).kept h
  · trivial

theorem State.pagesFor_wf {f : State → Nat → XRes} (hf : ∀ s va, Memory.wf s.dram = true → (f s va).Kept) (l : List Nat) {s : State}
    (h : Memory.wf s.dram = true) : Both XRes.Kept (Kept ·.1) (State.pagesFor f s l) := by
  induction l generalizing s with
  | nil => exact h
  | cons va l ih =>
    have hx := hf s va h
    unfold State.pagesFor
    split
    next he =>
      rw [he] at hx
      have hl := ih hx
      split <;> rename_i he <;> rw [he] at hl <;> exact hl
    · exact hx

@[simp] theorem State.onDeadLetter_wf (h : Memory.wf s.dram = true) (ck id : Nat) : Memory.wf (s.onDeadLetter ck id).dram = true := by
  unfold State.onDeadLetter
  split
  · exact h
  next d _ =>
    extract_lets again me l u done img v log
    have hagain (u : State) : (again u).dram = u.dram := by simp [again]
    split
    · have hu : u.dram = s.dram := by
        simp only [u]
        split <;> simp
      simp [hagain, hu, h]
    · split
      · simp [h]
      · have hx := State.xlatDead_wf h ck d v.dlbva
        split <;> rename_i he <;> rw [he] at hx
        · simp [h]
        · exact hx
        next s1 ctl =>
          have hc := State.cohBytes_wf hx me ctl 24
          split <;> rename_i he <;> rw [he] at hc
          · rw [hagain]; exact hc
          next s2 bytes _ =>
            extract_lets written read dropped rec_ starts
            split
            · have hput := State.cohPut_wf hc me (ctl + 16) (leBytes 8 (dropped + 1)) false
              split <;> rename_i he <;> rw [he] at hput
              · rw [State.deadEnd_dram]; exact hput
              · rw [hagain]; exact hput
            · have hp := State.pagesFor_wf (f := fun s va => s.xlatDead ck d va) (fun s va h => State.xlatDead_wf h ck d va) starts hx
              split <;> rename_i he <;> rw [he] at hp
              · rw [State.deadEnd_dram]; exact hx
              · exact hp
              · exact hp
              next s3 pas =>
                have hput := State.cohPuts_wf hp me (cutPages (starts.zip pas) img ++ [(ctl, leBytes 8 (written + 1))]) false
                split <;> rename_i he <;> rw [he] at hput
                · rw [State.deadEnd_dram]; exact hput
                · rw [hagain]; exact hput

/-! ### Directory -/

theorem State.stabHome_wf (h : Memory.wf s.dram = true) (r : Nat × Nat) (sl : Nat) : Memory.wf (s.stabHome r sl).1.dram = true := by
  unfold State.stabHome
  extract_lets owned u
  have hu : Memory.wf u.dram = true := foldS_wf (fun _ _ h => by simp [h]) _ h
  split
  · exact hu
  · exact foldS_wf (fun _ _ h => by simp [h]) _ hu

theorem State.readRecord_wf (h : Memory.wf s.dram = true) (tk : Nat) (ea : Word) : Both CRes.Kept (Kept ·.1) (s.readRecord tk ea) :=
  State.readWords_wf h tk 10 ea

/-! ### Bank compute -/

theorem State.issueBmv_wf (h : Memory.wf s.dram = true) (a : Word) (b : Option Word) : (s.issueBmv a b).Kept := by
  refine State.readCard_wf h a 128 _ fun img => ?_
  dsimp only
  split
  · split
    · trivial
    · generalize hq : s.queueCard a _ _ _ = r
      have hr : r.Kept := hq ▸ State.queueCard_wf h ..
      cases r <;> exact hr
  · trivial

@[simp] theorem State.sweepLine_wf (h : Memory.wf s.dram = true) (n line : Nat) : Memory.wf (s.sweepLine n line).dram = true := by
  unfold State.sweepLine
  dsimp only
  (repeat' split) <;> simp [h]

theorem State.sweepSlabs_wf (h : Memory.wf s.dram = true) (j : BmvJob) : Memory.wf (s.sweepSlabs j).1.dram = true := by
  unfold State.sweepSlabs
  dsimp only
  split
  · split <;> simp [h]
  · exact foldS_wf (fun _ _ h => by simp [h]) _ h

theorem State.readX_wf (h : Memory.wf s.dram = true) (j : BmvJob) : Both Kept (Kept ·.1) (s.readX j) := by
  unfold State.readX
  dsimp only
  split
  · split <;> exact h
  · generalize (List.range _).map _ = lines
    have hc := State.cohLines_wf h (s.jobId j) lines
    split <;> rename_i he <;> rw [he] at hc <;> exact hc

theorem State.writeY_wf (h : Memory.wf s.dram = true) (j : BmvJob) : Both Kept Kept (s.writeY j) := by
  unfold State.writeY
  extract_lets ys bad l moved va
  have hmoved (u : State) : (moved u).dram = u.dram := by simp [moved]
  split
  · split
    · simp [hmoved, h]
    · simp [hmoved, h]
  · split
    · simp [hmoved, h]
    · have hc := State.cohPut_wf h (s.jobId j) (j.pa va true) l bad
      split <;> rename_i he <;> rw [he] at hc
      · simpa [hmoved] using hc
      · exact hc

@[simp] theorem State.onBmvCompletion_wf (h : Memory.wf s.dram = true) (n : Nat) : Memory.wf (s.onBmvCompletion n).dram = true := by
  unfold State.onBmvCompletion
  split
  · exact h
  next j _ =>
    extract_lets again l put
    have hagain (u : State) : (again u).dram = u.dram := by simp [again]
    have hput (u : State) (hu : Memory.wf u.dram = true) (pa : Nat) : Memory.wf (put u pa).dram = true := by
      have hc := State.cohPut_wf hu (u.jobId j) pa l false
      simp only [put]
      split <;> rename_i he <;> rw [he] at hc <;> simpa [hagain] using hc
    split
    · exact h
    · split
      · have hw := State.writeY_wf h j
        split <;> rename_i he <;> rw [he] at hw <;> simpa [hagain] using hw
      · split
        · simp [h]
        · split
          · split
            · simp [h]
            · (repeat' split) <;> simp [h]
          · split
            · exact hput s h _
            · have hx := (State.xlatBmv_dram rfl j j.staddr true).kept h
              split <;> rename_i he <;> rw [he] at hx
              · exact hput _ hx _
              · simp [h]
              · exact hx

@[simp] theorem State.bmvGo_wf (h : Memory.wf s.dram = true) (j : BmvJob) : Memory.wf (s.bmvGo j).dram = true := by
  unfold State.bmvGo
  dsimp only
  split
  · simp [h]
  · split
    · split
      · simp [h]
      · split
        · simp [h]
        · simp [h]
    · split
      · simp [h]
      · split
        · simp [h]
        · generalize hr : (if s.slabsStable j then (s, true) else s.sweepSlabs j) = r
          have hrw : Memory.wf r.1.dram = true := by
            rw [← hr]
            split
            · exact h
            · exact State.sweepSlabs_wf h j
          split
          · simp [hrw]
          · have hx := State.readX_wf hrw j
            split <;> rename_i he <;> rw [he] at hx
            · simpa using hx
            · simpa using hx

@[simp] theorem State.onBmvStart_wf (h : Memory.wf s.dram = true) (n : Nat) : Memory.wf (s.onBmvStart n).dram = true := by
  unfold State.onBmvStart
  dsimp only
  (repeat' split) <;> simp [h]

/-! ### Protocol -/

@[simp] theorem State.intake_wf (h : Memory.wf s.dram = true) (m : Msg) (cls : Nat) {f : State → State}
    (hf : Memory.wf s.dram = true → Memory.wf (f s).dram = true) : Memory.wf (s.intake m cls f).dram = true := by
  have hfs := hf h
  unfold State.intake
  (repeat' split) <;> simp [h, hfs]

theorem State.helperGrant_dram {s s' : State} {m : Msg} (h : s.helperGrant m = some s') : s'.dram = s.dram := by
  unfold State.helperGrant at h
  dsimp only at h
  split at h
  · split at h
    · split at h
      · rw [← Option.some.inj h]
        simp
      · exact nomatch h
    · exact nomatch h
  · exact nomatch h

@[simp] theorem State.onMalformed_wf (hs : Memory.wf s.dram = true) (h : BitVec 128) : Memory.wf (s.onMalformed h).dram = true := by
  unfold State.onMalformed
  extract_lets n src cls m
  (repeat' split) <;> simp [hs]

@[simp] theorem State.onProbeTimeout_wf (h : Memory.wf s.dram = true) (sl line agent : Nat) :
    Memory.wf (s.onProbeTimeout sl line agent).dram = true := by
  unfold State.onProbeTimeout
  (repeat' split) <;> simp [h]

@[simp] theorem State.helperServe_wf (h : Memory.wf s.dram = true) (sl : Nat) (g : Merge) : Memory.wf (s.helperServe sl g).dram = true := by
  unfold State.helperServe
  split <;> simp [h]

@[simp] theorem State.onWindowClose_wf (h : Memory.wf s.dram = true) (sl id : Nat) : Memory.wf (s.onWindowClose sl id).dram = true := by
  unfold State.onWindowClose
  (repeat' split) <;> simp [h]

@[simp] theorem State.mcrdAt_wf (h : Memory.wf s.dram = true) (sl : Nat) (m : Msg) : Memory.wf (s.mcrdAt sl m).dram = true := by
  unfold State.mcrdAt
  dsimp only
  (repeat' split) <;> simp [h]

@[simp] theorem State.onMcrd_wf (h : Memory.wf s.dram = true) (m : Msg) : Memory.wf (s.onMcrd m).dram = true := by
  unfold State.onMcrd
  (repeat' split) <;> simp [h]

/-! ### Network -/

@[simp] theorem State.onLinkRetry_wf (h : Memory.wf s.dram = true) (n : Nat) (cured : Bool) :
    Memory.wf (s.onLinkRetry n cured).dram = true := by
  simp [State.onLinkRetry, h]

/-! ### Regions -/

@[simp] theorem State.extractLine_wf (h : Memory.wf s.dram = true) (a line : Nat) (l : ALine) (lost : Bool) :
    Memory.wf (s.extractLine a line l lost).dram = true := by
  simp [State.extractLine, h]

@[simp] theorem State.extractCore_wf (h : Memory.wf s.dram = true) (a : Nat) (torn : Bool) :
    Memory.wf (s.extractCore a torn).dram = true := by
  rw [State.extractCore, State.forgetCore_dram]
  refine foldS_wf (fun e u hu => ?_) _ h
  split
  · exact hu
  · split <;> simp [hu]

@[simp] theorem State.onSwap_wf (h : Memory.wf s.dram = true) (c : Nat) : Memory.wf (s.onSwap c).dram = true := by
  unfold State.onSwap
  split
  · exact h
  · split
    · split
      · exact foldS_wf (fun _ _ h => by simp [h]) _ h
      · simp [h]
    · dsimp only
      split
      · split <;> simp [h]
      · simp [h]

/-! ### Front end -/

theorem State.spaceXlat_wf (h : Memory.wf s.dram = true) (w : Waiter) (space : Space) (va : Nat) (write : Bool) :
    (s.spaceXlat w space va write).Kept := by
  cases space with
  | bus => exact (State.physical_dram rfl va).kept h
  | pasid p => exact (State.translate_dram rfl _ va).kept h
  | unbound => trivial

theorem State.fePut_wf (h : Memory.wf s.dram = true) (w : FeWrite) (pa : Nat) : Both Kept Kept (s.fePut w pa) := by
  unfold State.fePut
  split
  · exact State.cohPut_wf h ..
  · have hc := State.cohRmw_wf h feId pa 8 fun l => leBytes 8 (leNat l + 1)
    split <;> rename_i he <;> rw [he] at hc <;> exact hc

@[simp] theorem State.feTry_wf (h : Memory.wf s.dram = true) (w : FeWrite) : Memory.wf (s.feTry w).dram = true := by
  unfold State.feTry
  generalize hr : s.spaceXlat _ w.space w.va true = r
  have hx : r.Kept := hr ▸ State.spaceXlat_wf h ..
  cases r with
  | pa s' pa =>
    have hp := State.fePut_wf hx w pa
    dsimp only
    split <;> rename_i he <;> rw [he] at hp
    · simpa using hp
    · exact hp
  | wait s' _ => exact hx
  | fault c =>
    dsimp only
    split <;> simp [h]

@[simp] theorem State.tryFeWrite_wf (h : Memory.wf s.dram = true) (w : FeWrite) : Memory.wf (s.tryFeWrite w).dram = true := by
  unfold State.tryFeWrite
  split <;> simp [h]

@[simp] theorem State.onComplete_wf (h : Memory.wf s.dram = true) (q ser : Nat) : Memory.wf (s.onComplete q ser).dram = true := by
  unfold State.onComplete
  dsimp only
  (repeat' split) <;> simp [h]

theorem State.readEntryOf_wf (h : Memory.wf s.dram = true) (q : Nat) : Both Kept (Kept ·.1) (s.readEntryOf q) := by
  unfold State.readEntryOf
  dsimp only
  split
  · exact h
  · generalize s.fe.qtBase.toNat * 4096 + 64 * q = pa
    have hc := State.cohBytes_wf h feId pa 64
    split <;> rename_i he <;> rw [he] at hc <;> exact hc

@[simp] theorem State.onLoad_wf (h : Memory.wf s.dram = true) (q : Nat) : Memory.wf (s.onLoad q).dram = true := by
  unfold State.onLoad
  split
  · exact h
  · extract_lets drop
    have hdrop (u : State) : (drop u).dram = u.dram := rfl
    split
    · simp [hdrop, h]
    · split
      · simp [hdrop, h]
      · split
        · exact h
        · have hr := State.readEntryOf_wf h q
          split <;> rename_i he <;> rw [he] at hr <;> simp only [Both, Kept] at hr
          · simp [hr]
          · simp [hdrop, hr]
          · (repeat' split) <;> simp [hdrop, hr]

theorem State.pktXlat_wf (h : Memory.wf s.dram = true) (q : Nat) (space : Space) (va : Nat) (w : Bool) :
    (s.pktXlat q space va w).Kept fun _ => True := by
  have hx := State.spaceXlat_wf h (.queue q) space va w
  unfold State.pktXlat
  split <;> rename_i he <;> rw [he] at hx
  · simpa using hx
  · exact hx
  · exact hx
  · trivial

theorem State.pktRead_wf (h : Memory.wf s.dram = true) (q : Nat) (space : Space) (va n : Nat) :
    (s.pktRead q space va n).Kept fun _ => True :=
  FeRes.bind_kept (State.pktXlat_wf h ..) fun s pa h _ => by
    have hc := State.cohBytes_wf h feId pa n
    split <;> rename_i he <;> rw [he] at hc
    · exact ⟨hc, trivial⟩
    · trivial
    · exact hc

theorem State.pktLines_wf (h : Memory.wf s.dram = true) (q : Nat) (space : Space) (va n : Nat) :
    (s.pktLines q space va n).Kept fun _ => True := by
  induction n generalizing s va with
  | zero => exact ⟨h, trivial⟩
  | succ n ih =>
    exact FeRes.bind_kept (State.pktRead_wf h ..) fun s l h _ => FeRes.bind_kept (ih h _) fun s r h _ => ⟨h, trivial⟩

@[simp] theorem State.readPacket_wf (h : Memory.wf s.dram = true) (q pr : Nat) (e : Queue) :
    Memory.wf (s.readPacket q pr e).dram = true := by
  unfold State.readPacket
  dsimp only
  generalize hr : s.pktRead q e.space _ 64 = r
  have hk : r.Kept fun _ => True := hr ▸ State.pktRead_wf h ..
  cases r with
  | ok u l =>
    dsimp only
    split <;> simp [hk.1]
  | park u | busy u | hold u _ => simpa using hk
  | fail a b c => simp [h]

/-! ### Sorter -/

/-- The state of a sorter's run has canonical DRAM. -/
@[simp] def SortRun.Kept (r : SortRun) : Prop := Memory.wf r.s.dram = true

theorem SortRun.readMem_wf {r : SortRun} (h : r.Kept) (e : Queue) (va n : Nat) : (r.readMem e va n).Kept (SortRun.Kept ·.1) :=
  FeRes.bind_kept (State.pktXlat_wf h ..) fun s pa h _ => by
    have hc := State.cohBytes_wf h feId pa n
    split <;> rename_i he <;> rw [he] at hc
    · exact ⟨hc, hc⟩
    · trivial
    · exact hc

theorem SortRun.readVa_wf {r : SortRun} (h : r.Kept) (e : Queue) (va n : Nat) : (r.readVa e va n).Kept (SortRun.Kept ·.1) := by
  unfold SortRun.readVa
  dsimp only
  split
  · exact SortRun.readMem_wf h ..
  · exact FeRes.bind_kept (SortRun.readMem_wf h ..) fun _ x _ hx =>
      FeRes.bind_kept (SortRun.readMem_wf hx ..) fun s y hs hy => ⟨hs, hy⟩

theorem SortRun.writeMem_wf {r : SortRun} (h : r.Kept) (e : Queue) (va : Nat) (l : List Byte) : (r.writeMem e va l).Kept SortRun.Kept :=
  FeRes.bind_kept (State.pktXlat_wf h ..) fun _ _ h _ => ⟨h, h⟩

theorem SortRun.writeVa_wf {r : SortRun} (h : r.Kept) (e : Queue) (va : Nat) (l : List Byte) : (r.writeVa e va l).Kept SortRun.Kept := by
  unfold SortRun.writeVa
  dsimp only
  split
  · exact SortRun.writeMem_wf h ..
  · exact FeRes.bind_kept (SortRun.writeMem_wf h ..) fun _ x _ hx => SortRun.writeMem_wf hx ..

theorem SortRun.window_wf {r : SortRun} (h : r.Kept) (e : Queue) (k : Nat) : (r.window e k).Kept (SortRun.Kept ·.1) := by
  unfold SortRun.window
  split
  · exact ⟨h, h⟩
  · exact FeRes.bind_kept (SortRun.readMem_wf h ..) fun s x hs hx => ⟨hs, hx⟩

theorem SortRun.load_wf {r : SortRun} (h : r.Kept) (e : Queue) (p : Packet) (ea n : Nat) : (r.load e p ea n).Kept (SortRun.Kept ·.1) := by
  unfold SortRun.load
  extract_lets off tbl
  split
  · trivial
  · split
    · trivial
    · split
      · split
        · exact ⟨h, h⟩
        · trivial
      · split
        · exact SortRun.readVa_wf h ..
        · trivial
      · split
        · exact ⟨h, h⟩
        · trivial
      · split
        · exact ⟨h, h⟩
        · trivial
      · refine FeRes.bind_kept (SortRun.window_wf h ..) fun _ w _ hw => ?_
        split
        · exact SortRun.readVa_wf hw ..
        · trivial

theorem SortRun.store_wf {r : SortRun} (h : r.Kept) (e : Queue) (ea : Nat) (l : List Byte) : (r.store e ea l).Kept SortRun.Kept := by
  unfold SortRun.store
  extract_lets off n
  split
  · trivial
  · split
    · trivial
    · split
      · trivial
      · trivial
      · split
        · exact ⟨h, h⟩
        · trivial
      · split
        · exact ⟨h, h⟩
        · trivial
      · refine FeRes.bind_kept (SortRun.window_wf h ..) fun _ w _ hw => ?_
        split
        · exact SortRun.writeVa_wf hw ..
        · trivial

theorem SortRun.go_wf (e : Queue) (p : Packet) (fuel : Nat) {r : SortRun} (h : r.Kept) : (SortRun.go e p fuel r).Kept SortRun.Kept := by
  induction fuel generalizing r with
  | zero => trivial
  | succ fuel ih =>
    unfold SortRun.go
    dsimp only
    split
    · trivial
    · split
      · trivial
      · exact ⟨h, h⟩
      · split
        · exact ih h
        · trivial
      · exact FeRes.bind_kept (SortRun.load_wf h ..) fun _ x _ hx => ih hx
      · exact FeRes.bind_kept (SortRun.store_wf h ..) fun _ x _ hx => ih hx

theorem State.sortRun_wf (h : Memory.wf s.dram = true) (e : Queue) (p : Packet) : (s.sortRun e p).Kept fun _ => True := by
  unfold State.sortRun
  split
  · trivial
  · refine FeRes.bind_kept (SortRun.go_wf e p 256 h) fun _ r _ hr => ?_
    dsimp only
    split
    · trivial
    · have hc : Both Machine.Kept Machine.Kept r.commit := State.cohPuts_wf hr ..
      split <;> rename_i he <;> rw [he] at hc
      · exact hc
      · simpa using hc

theorem State.readSorter_wf (h : Memory.wf s.dram = true) (e : Queue) : (s.readSorter e).Kept fun _ => True := by
  unfold State.readSorter
  extract_lets n take set
  have hset (u : State) (prog : List (BitVec 32)) (ok : Bool) (hu : Memory.wf u.dram = true) : (set u prog ok).Kept fun _ => True := by
    simp [set, hu]
  have hl := State.pktLines_wf h e.q e.space e.entry.sortva ((n + 15) / 16)
  split <;> rename_i he <;> rw [he] at hl
  · exact hset _ _ _ hl.1
  · exact hset _ _ _ h
  · exact hl
  · exact hl
  · exact hl

@[simp] theorem State.tryReadSorter_wf (h : Memory.wf s.dram = true) (e : Queue) : Memory.wf (s.tryReadSorter e).dram = true := by
  have hr := State.readSorter_wf h e
  unfold State.tryReadSorter
  split
  · exact h
  · split <;> rename_i he <;> rw [he] at hr
    · exact hr.1
    · exact hr
    · simpa using hr
    · simpa using hr
    · exact h

/-! ### Packets -/

@[simp] theorem State.onBody_wf (h : Memory.wf s.dram = true) (q typ : Nat) (ev : Ev) {f : Queue → Packet → List Byte → FeRes Unit}
    (hf : ∀ e p b, (f e p b).Kept fun _ => True) : Memory.wf (s.onBody q typ ev f).dram = true := by
  unfold State.onBody
  split
  · exact h
  · split
    · exact h
    next e _ _ p _ =>
      split
      · exact h
      · split
        · simp [h]
        · have hr := hf e p p.body
          split <;> rename_i he <;> rw [he] at hr
          · simpa using hr
          · simpa using hr
          · simpa using hr
          · simpa using hr
          · simp [h]

theorem State.feAtomic_wf (h : Memory.wf s.dram = true) (op pa x : Nat) : Both Kept (Kept ·.1) (s.feAtomic op pa x) :=
  State.cohRmw_wf h ..

theorem State.pktSignal_wf (h : Memory.wf s.dram = true) (e : Queue) (op va x : Nat) : (s.pktSignal e op va x).Kept fun _ => True :=
  FeRes.bind_kept (State.pktXlat_wf h ..) fun s pa h _ => by
    have hc := State.feAtomic_wf h op pa x
    split <;> rename_i he <;> rw [he] at hc
    · simpa using hc
    · exact hc

theorem State.writeSignal_wf (h : Memory.wf s.dram = true) (e : Queue) (b : List Byte) : (s.writeSignal e b).Kept fun _ => True := by
  unfold State.writeSignal
  dsimp only
  split
  · exact State.pktSignal_wf h ..
  · refine FeRes.bind_kept (State.pktXlat_wf h ..) fun s _ h _ => FeRes.bind_kept (State.pktXlat_wf h ..) fun s pa h _ => ?_
    have hc := State.cohPut_wf h feId pa ((b.drop 0x10).take (pktSubop b + 1)) false
    split <;> rename_i he <;> rw [he] at hc
    · exact State.pktSignal_wf (by simpa using hc) ..
    · exact hc

theorem State.waitRead_wf (h : Memory.wf s.dram = true) (e : Queue) (b : List Byte) : (s.waitRead e b).Kept fun _ => True := by
  unfold State.waitRead
  split
  · exact ⟨h, trivial⟩
  · refine FeRes.bind_kept (State.pktRead_wf h ..) fun s l h _ => ?_
    split
    · exact ⟨h, trivial⟩
    · simpa using h

@[simp] theorem State.onWaitPoll_wf (h : Memory.wf s.dram = true) (q : Nat) : Memory.wf (s.onWaitPoll q).dram = true := by
  unfold State.onWaitPoll
  split
  · exact h
  · split
    · exact h
    next e _ _ p _ =>
      split
      · exact h
      · have hr := State.waitRead_wf h e p.body
        split <;> rename_i he <;> rw [he] at hr
        · simpa using hr
        · simpa using hr
        · simpa using hr
        · exact hr
        · simp [h]

theorem State.copyBody_wf (h : Memory.wf s.dram = true) (e : Queue) (p : Packet) (b : List Byte) :
    (s.copyBody e p b).Kept fun _ => True := by
  unfold State.copyBody
  dsimp only
  refine FeRes.bind_kept (p := fun _ => True) ?_ fun s _ h _ => FeRes.bind_kept (State.pktXlat_wf h ..) fun s _ h _ => ?_
  · split
    · exact ⟨h, trivial⟩
    · exact State.pktXlat_wf h ..
  · simpa using h

@[simp] theorem State.copyWrite_wf (h : Memory.wf s.dram = true) (c : BlockCopy) (l : List Byte) (bad : Bool) :
    Memory.wf (s.copyWrite c l bad).dram = true := by
  have hx : (s.copyXlat c (c.dst + c.pos) true).Kept := State.spaceXlat_wf h ..
  unfold State.copyWrite
  split <;> rename_i he <;> rw [he] at hx
  · simp [h]
  · simpa using hx
  next s' pa =>
    have hc := State.cohPut_wf hx feId pa l bad
    split <;> rename_i he <;> rw [he] at hc
    · exact hc
    · simpa using hc

@[simp] theorem State.blockCopyStep_wf (h : Memory.wf s.dram = true) (c : BlockCopy) : Memory.wf (s.blockCopyStep c).dram = true := by
  unfold State.blockCopyStep
  split
  · exact h
  · split
    · split <;> simp [h]
    · dsimp only
      split
      · exact State.copyWrite_wf h ..
      · have hx : (s.copyXlat c (c.src + c.pos) false).Kept := State.spaceXlat_wf h ..
        split <;> rename_i he <;> rw [he] at hx
        · simp [h]
        · simpa using hx
        next s' pa =>
          have hc := State.cohBytes_wf hx feId pa c.piece
          split <;> rename_i he <;> rw [he] at hc
          · exact hc
          · simp only [Both, Kept] at hc
            split <;> simp [hc]

@[simp] theorem State.runCopies_wf (h : Memory.wf s.dram = true) :
    Memory.wf s.runCopies.dram = true := foldS_wf (fun _ _ h => by simp [h]) _ h

theorem State.startBmv_wf (h : Memory.wf s.dram = true) (e : Queue) (p : Packet) (b : List Byte) : (s.startBmv e p b).Kept fun _ => True :=
  FeRes.bind_kept (State.pktLines_wf h ..) fun s l h _ => by
    dsimp only
    split
    · trivial
    · simpa using h

theorem State.launch_wf (h : Memory.wf s.dram = true) (e : Queue) (p : Packet) (b : List Byte) : (s.launch e p b).Kept fun _ => True := by
  unfold State.launch
  split
  · exact h
  · split
    · exact h
    · refine FeRes.bind_kept (State.pktLines_wf h ..) fun s l h _ => ?_
      dsimp only
      split
      · trivial
      · split
        · trivial
        · split
          · trivial
          · simpa using h

theorem State.bindTargetOk_wf (h : Memory.wf s.dram = true) (t : Nat) : Both Kept (Kept ·.1) (s.bindTargetOk t) := by
  have hr := State.readEntryOf_wf h t
  rw [State.bindTargetOk]
  generalize s.readEntryOf t = r at hr ⊢
  cases s.fq t with
  | some e => exact h
  | none => rcases r with u | ⟨u, _ | y⟩ <;> exact hr

theorem State.startBind_wf (h : Memory.wf s.dram = true) (q t pasid : Nat) : (s.startBind q t pasid).Kept fun _ => True := by
  unfold State.startBind
  split
  · trivial
  · simpa using h

theorem State.rebind_wf (h : Memory.wf s.dram = true) (q t : Nat) (bd : Option (Nat × Nat × RcbVals)) :
    (s.rebind q t bd).Kept fun _ => True := by
  unfold State.rebind
  extract_lets old rest all finish
  have hfinish (u : State) : (finish u).dram = u.dram := by
    dsimp only [finish]
    cases old <;> simp
  split
  · simp [hfinish, h]
  · have hr := State.readEntryOf_wf h t
    split <;> rename_i he <;> rw [he] at hr <;> simp only [Both, Kept] at hr
    · exact hr
    · simp [hfinish, hr]
    · dsimp only
      split <;> simp [hfinish, hr]

theorem State.bind_wf (h : Memory.wf s.dram = true) (e : Queue) (b : List Byte) : (s.bind e b).Kept fun _ => True := by
  unfold State.bind
  extract_lets t pasid va reserved
  split
  · split
    · exact h
    · exact State.rebind_wf h ..
  · have hreserved : reserved.Kept fun _ => True := by
      simp only [reserved]
      split
      · exact ⟨h, trivial⟩
      · have hb := State.bindTargetOk_wf h t
        split <;> rename_i he <;> rw [he] at hb
        · exact hb
        · trivial
        · split
          · simpa using hb
          · split
            · trivial
            · simpa using hb
    refine FeRes.bind_kept hreserved fun s _ h _ => FeRes.bind_kept (State.pktLines_wf h ..) fun s l h _ => ?_
    dsimp only
    split
    · trivial
    · split
      · trivial
      · exact State.startBind_wf (by simpa using h) ..

@[simp] theorem State.onBind_wf (h : Memory.wf s.dram = true) (q : Nat) : Memory.wf (s.onBind q).dram = true := by
  unfold State.onBind
  split
  · exact h
  · split
    · exact h
    · have hb := State.onBody_wf h q 7 (.bindPacket q) (f := fun e _ b => s.bind e b) fun e _ b => State.bind_wf h e b
      dsimp only
      split
      · simpa using hb
      · exact hb

theorem State.unbind_wf (h : Memory.wf s.dram = true) (e : Queue) (b : List Byte) : (s.unbind e b).Kept fun _ => True := by
  unfold State.unbind
  dsimp only
  split
  · split
    · exact h
    · exact State.rebind_wf h ..
  · have hb := State.bindTargetOk_wf h (pktField b 8 4)
    split <;> rename_i he <;> rw [he] at hb
    · exact hb
    · trivial
    · split
      · exact ⟨hb, trivial⟩
      · exact State.startBind_wf hb ..

@[simp] theorem State.onCustom_wf (h : Memory.wf s.dram = true) (q : Nat) : Memory.wf (s.onCustom q).dram = true := by
  unfold State.onCustom
  split
  · exact h
  · split
    · exact h
    next e _ _ p _ =>
      split
      · exact h
      · split
        · simp [h]
        · have hr := State.sortRun_wf h e p
          split <;> rename_i he <;> rw [he] at hr
          · simpa using hr
          · simpa using hr
          · simpa using hr
          · simpa using hr
          · simp [h]

@[simp] theorem State.serveQueue_wf (h : Memory.wf s.dram = true) (pr q : Nat) : Memory.wf (s.serveQueue pr q).dram = true := by
  unfold State.serveQueue
  (repeat' split) <;> simp [h]

@[simp] theorem State.takeQueue_wf (h : Memory.wf s.dram = true) (pr : Nat) (e : Queue) : Memory.wf (s.takeQueue pr e).dram = true := by
  simp [State.takeQueue, h]

@[simp] theorem State.onQueueSelect_wf (h : Memory.wf s.dram = true) (pr : Nat) : Memory.wf (s.onQueueSelect pr).dram = true := by
  unfold State.onQueueSelect
  (repeat' split) <;> simp [h]

/-! ### Firmware -/

@[simp] theorem State.mboxWrite_wf (h : Memory.wf s.dram = true) (e : Ev) (l : List Byte) : Memory.wf (s.mboxWrite e l).dram = true := by
  have hc := State.cohPut_wf h controlId s.mboxBase l false
  simp only [State.mboxWrite]
  split
  · simp [h]
  · split <;> rename_i he <;> rw [he] at hc <;> simp only [Both, Kept] at hc <;> simp [hc]

@[simp] theorem State.onReport_wf (h : Memory.wf s.dram = true) : Memory.wf s.onReport.dram = true := by
  have hc := State.cohBytes_wf h controlId s.mboxBase 32
  unfold State.onReport
  split
  · exact h
  · split
    · simp [h]
    · split <;> rename_i he <;> rw [he] at hc <;> simp only [Both, Kept] at hc
      · simp [hc]
      · split <;> simp [hc]

@[simp] theorem State.onStage_wf (h : Memory.wf s.dram = true) : Memory.wf s.onStage.dram = true := by
  have hc := State.cohBytes_wf h controlId s.mboxBase 256
  unfold State.onStage
  dsimp only
  split
  · exact h
  · split
    · simp [h]
    · split <;> rename_i he <;> rw [he] at hc <;> simp only [Both, Kept] at hc
      · simp [hc]
      next s1 head _ =>
        have hi := State.cohBytes_wf hc controlId s.mboxBase (imgSize head)
        split
        · simp [hc]
        · split
          · simp [hc]
          · split
            · simp [hc]
            · split <;> rename_i he <;> rw [he] at hi <;> simp only [Both, Kept] at hi
              · simp [hi]
              · split
                · simp [hi]
                · split <;> simp [hi]

/-! ### Power -/

@[simp] theorem State.setWidth_wf (h : Memory.wf s.dram = true) (m w : Nat) : Memory.wf (s.setWidth m w).dram = true := by
  simp [State.setWidth, h]

@[simp] theorem State.onLaneFault_wf (h : Memory.wf s.dram = true) (m : Nat) (covered : Bool) :
    Memory.wf (s.onLaneFault m covered).dram = true := by
  unfold State.onLaneFault
  (repeat' split) <;> simp [h]

@[simp] theorem State.onLinkReset_wf (h : Memory.wf s.dram = true) : Memory.wf s.onLinkReset.dram = true := by
  unfold State.onLinkReset
  dsimp only
  split
  · refine foldS_wf (fun m u hu => ?_) _ h
    split
    · exact hu
    · exact State.setWidth_wf hu ..
  · exact h

@[simp] theorem State.onChannelFailure_wf (h : Memory.wf s.dram = true) (ch : Nat) (atBoot : Bool) :
    Memory.wf (s.onChannelFailure ch atBoot).dram = true := by
  unfold State.onChannelFailure
  split <;> simp [h]

@[simp] theorem State.onLs2_wf (h : Memory.wf s.dram = true) (c : Nat) : Memory.wf (s.onLs2 c).dram = true := by
  have hx := foldS_wf (f := fun n (s : State) => s.extractCore n false) (fun _ _ h => by simp [h]) ((List.range 4).map (4 * c + ·)) h
  unfold State.onLs2
  split
  · simp [h]
  · dsimp only
    split
    · simpa using hx
    · simpa using hx

@[simp] theorem State.onPowerOn_wf : Memory.wf s.onPowerOn.dram = true := by
  rw [State.onPowerOn, State.loadMaps_dram]
  exact Laws.reset_wf

@[simp] theorem State.sweepAll_wf (h : Memory.wf s.dram = true) : Memory.wf s.sweepAll.dram = true := by
  unfold State.sweepAll
  refine foldS_wf (fun e u hu => ?_) _ (foldS_wf (fun e u hu => foldS_wf (fun l v hv => ?_) _ hu) _ h)
  · split <;> simp [hu]
  · split <;> simp [hv]

@[simp] theorem State.applyWindow_wf (h : Memory.wf s.dram = true) : Memory.wf s.applyWindow.dram = true :=
  Laws.applyWindow_wf s h

@[simp] theorem State.onDeviceReset_wf (h : Memory.wf s.dram = true) : Memory.wf s.onDeviceReset.dram = true := by
  unfold State.onDeviceReset
  (repeat' split) <;> simp [h]

@[simp] theorem State.onClusterReset_wf (h : Memory.wf s.dram = true) (c : Nat) : Memory.wf (s.onClusterReset c).dram = true := by
  have hx := foldS_wf (f := fun n (s : State) => s.extractCore n true) (fun _ _ h => by simp [h]) ((List.range 4).map (4 * c + ·)) h
  unfold State.onClusterReset
  dsimp only
  split
  · simp [h]
  · split
    · simpa using hx
    · refine foldS_wf (fun n u hu => ?_) _ ?_
      · split <;> simp [hu]
      · rw [State.modClu_dram]
        exact foldS_wf (fun n u hu => by simpa using hu) _ hx

/-! ### Issue -/

theorem State.icacheLine_wf (h : Memory.wf s.dram = true) (c pa : Nat) : (s.icacheLine c pa).Kept := by
  have hc := State.cohRead_wf h c (pa / 64)
  unfold State.icacheLine
  split
  · simpa using h
  · split <;> rename_i he <;> rw [he] at hc <;> simp only [Both, Kept] at hc
    · exact hc
    · split
      · trivial
      · simpa using hc

theorem State.fetch_wf (h : Memory.wf s.dram = true) (tk : Nat) (t : Thread) : (s.fetch tk t).Kept := by
  have hx := State.xlatThread_wf h tk t t.pc.toNat false false true
  unfold State.fetch
  split
  · trivial
  · split
    · trivial
    · split <;> rename_i he <;> rw [he] at hx
      · trivial
      · exact hx
      · exact State.icacheLine_wf hx ..

/-! ### Settle -/

@[simp] theorem State.settleFront_wf (h : Memory.wf s.dram = true) : Memory.wf s.settleFront.dram = true := by
  unfold State.settleFront
  split
  · exact h
  · extract_lets s1 s2 s3 s4 s5
    have h1 : Memory.wf s1.dram = true := foldS_wf (fun _ _ h => by simp [h]) _ h
    have h3 : Memory.wf s3.dram = true := foldS_wf (fun _ _ h => by simp [h]) _ (State.runCopies_wf h1)
    have h4 : Memory.wf s4.dram = true := foldS_wf (fun _ _ h => by simp [h]) _ h3
    have h5 : Memory.wf s5.dram = true := by simpa [s5] using h4
    split
    · split <;> simp [h5]
    · exact h5

@[simp] theorem State.settleStep_wf (h : Memory.wf s.dram = true) : Memory.wf s.settleStep.dram = true := by simp [State.settleStep, h]

end Sys2Proof.Machine
end

section
/-!
SUPPORT. Every instruction, every event and every choice of the environment keeps DRAM canonical.
-/

namespace Sys2Proof.Machine

variable {s : State}

/-- The state that a step goes on in has canonical DRAM. -/
@[simp] def NextKept : Host.Outcome State Fault Refusal → Prop
  | .next s => Memory.wf s.dram = true
  | _ => True

/-- A body of a C-class instruction keeps DRAM canonical. -/
def KeepsBody (body : Thread → State → CRes) : Prop := ∀ t s, Memory.wf s.dram = true → (body t s).Kept

theorem event_wf (h : Memory.wf s.dram = true) {f : State → State} (hf : Memory.wf s.dram = true → Memory.wf (f s).dram = true) :
    NextKept (event f s) := hf h

theorem msgEvent_wf (h : Memory.wf s.dram = true) (m : Msg) (cls : Nat) {f : State → State}
    (hf : Memory.wf s.dram = true → Memory.wf (f s).dram = true) : NextKept (msgEvent m cls f s) :=
  State.intake_wf h m cls hf

theorem State.finishA_wf {s' : State} (h : Memory.wf s.dram = true) (h' : Memory.wf s'.dram = true) (tk : Nat) (t : Thread) (c : CSpec)
    (a : AEffect) (pc : Option Word) : Memory.wf (s.finishA s' tk t c a pc).dram = true := by
  unfold State.finishA
  dsimp only
  split
  · simp [h]
  · split
    · simp [h]
    · simp [h']

theorem State.finishUnit_wf (h : Memory.wf s.dram = true) (tk : Nat) (t : Thread) (c : CSpec) (a : AEffect)
    {body : Thread → State → CRes} (hb : KeepsBody body) : Memory.wf (s.finishUnit tk t c a body).dram = true := by
  have hr := hb (s.view tk t c.n []) s h
  unfold State.finishUnit
  dsimp only
  split
  · simp [h]
  · split
    · simp [h]
    · split
      · simp [h]
      · split
        · simp [h]
        · split
          · simp [h]
          · split
            · simp [h]
            · split
              · simp [h]
              · split
                · simp [h]
                · split
                  · simp [h]
                  · split <;> rename_i he <;> rw [he] at hr
                    · simp [h]
                    · simpa using hr
                    · exact State.finishA_wf h hr ..

theorem issueA_wf (h : Memory.wf s.dram = true) (n : Names) (f64v : Bool) (body : Thread → AOut) : NextKept (issueA n f64v body s) := by
  unfold issueA
  dsimp only
  split
  · trivial
  · split
    · exact h
    · exact State.finishUnit_wf h _ _ _ _ fun _ _ h => h

theorem issueC_wf (h : Memory.wf s.dram = true) (c : CSpec) {body : Thread → State → CRes} (hb : KeepsBody body) :
    NextKept (issueC c body s) := by
  unfold issueC
  dsimp only
  split
  · trivial
  · exact State.finishUnit_wf h _ _ _ _ hb

theorem foldS_pair_wf {f : Nat → State → State × Bool}
    (hf : ∀ a s, Memory.wf s.dram = true → Memory.wf (f a s).1.dram = true) (l : List Nat) (b : Bool) (h : Memory.wf s.dram = true) :
    Memory.wf (foldS (fun a (acc : State × Bool) => ((f a acc.1).1, acc.2 && (f a acc.1).2)) l (s, b)).1.dram = true := by
  induction l generalizing s b with
  | nil => exact h
  | cons a l ih => exact ih _ (hf a s h)

theorem execCallr_wf (h : Memory.wf s.dram = true) (p : Bool) (a : BitVec 5) : NextKept (execCallr p a s) := by
  refine issueC_wf h _ fun t s h => ?_
  dsimp only
  split
  · trivial
  · exact State.pushReturn_wf h ..

theorem execPpt_wf (h : Memory.wf s.dram = true) (i : BitVec 14) : NextKept (execPpt i s) := by
  refine issueC_wf h _ fun t s h => ?_
  split
  · split
    · exact State.pptSave_wf h ..
    · exact h
  · exact h

theorem execDsbcast_wf (h : Memory.wf s.dram = true) (p : Bool) (a : BitVec 5) : NextKept (execDsbcast p a s) := by
  refine issueC_wf h _ fun t s h => ?_
  dsimp only
  have hr := foldS_pair_wf (f := fun sl s => s.bcastHome (field (t.rg a.toNat) 16 32) sl) (fun _ s h => by simp [h]) (List.range 64) true h
  split
  · trivial
  · split <;> exact hr

theorem execDsstab_wf (h : Memory.wf s.dram = true) (p : Bool) (a : BitVec 5) : NextKept (execDsstab p a s) := by
  refine issueC_wf h _ fun t s h => ?_
  dsimp only
  generalize hg : foldS _ _ _ = e
  have he : Memory.wf e.1.dram = true := by
    rw [← hg]
    exact foldS_pair_wf (f := fun sl s => s.stabHome (stabRange (t.rg a.toNat)) sl) (fun _ s h => State.stabHome_wf h ..) _ true
      (by rw [State.startStab_dram]; exact h)
  split
  · trivial
  · split <;> exact he

theorem execDspoll_wf (h : Memory.wf s.dram = true) (p : Bool) (d : BitVec 5) (l : BitVec 4) : NextKept (execDspoll p d l s) := by
  refine issueC_wf h _ fun t s h => ?_
  dsimp only
  split
  · trivial
  · split
    next hn => simp [State.takeNotice_dram hn, h]
    · simp [h]

theorem execSpltake_wf (h : Memory.wf s.dram = true) (p : Bool) (d a : BitVec 5) (l : BitVec 4) : NextKept (execSpltake p d a l s) := by
  refine issueC_wf h _ fun v s h => ?_
  dsimp only
  split
  · trivial
  · split
    · exact h
    next t _ =>
      split
      · trivial
      next tgt _ =>
        split
        · simp [h]
        · have hp := State.planAll_wf h s.unit.tk t false true (some (v.rg a.toNat)) (tgt.pieces 16 0)
          split <;> rename_i he <;> rw [he] at hp
          · exact hp
          next s1 hdr =>
            generalize hq : s1.planAll _ _ _ _ _ _ = r
            have hr : Both CRes.Kept (Kept ·.1) r := hq ▸ State.planAll_wf hp ..
            split
            · exact hr
            next s2 pay =>
              split
              · exact hr
              · have h3 := State.storePieces_wf hr s.unit.tk (BitVec.ofNat 512 (userHeader ‹_›)) hdr
                split <;> rename_i he <;> rw [he] at h3
                · exact hr
                next s3 =>
                  have h4 := State.storePieces_wf h3 s.unit.tk (userPayload ‹_›) pay
                  split <;> rename_i he <;> rw [he] at h4
                  · exact hr
                  · simpa using h4

theorem execLbsend_wf (h : Memory.wf s.dram = true) (p : Bool) (a : BitVec 5) : NextKept (execLbsend p a s) := by
  refine issueC_wf h _ fun v s h => ?_
  dsimp only
  split
  · trivial
  · split
    · exact h
    · split
      · trivial
      · have hr := State.readRecord_wf h s.unit.tk (v.rg a.toNat)
        split <;> rename_i he <;> rw [he] at hr
        · exact hr
        · simp only [Both, Kept] at hr
          split
          · trivial
          · split
            · exact hr
            · split
              · exact hr
              · simpa using hr

theorem execWaita_wf (h : Memory.wf s.dram = true) (p : Bool) (d a b : BitVec 5) (l : BitVec 4) : NextKept (execWaita p d a b l s) := by
  refine issueC_wf h _ fun v s h => ?_
  dsimp only
  split
  · exact h
  next t _ =>
    have hm := State.memOnly_wf h s.unit.tk t (v.rg a.toNat) 8 false
    split <;> rename_i he <;> rw [he] at hm
    · exact hm
    · simp only [Both, Kept] at hm
      split
      · exact hm
      · split
        · exact hm
        next hf => simp [State.flushLine_dram hf, hm]

theorem execCpyb_wf (h : Memory.wf s.dram = true) (p : Bool) (d a b : BitVec 5) : NextKept (execCpyb p d a b s) := by
  refine issueC_wf h _ fun v s h => ?_
  extract_lets w c
  split
  · trivial
  · exact State.queueCard_wf h ..

theorem State.capsend_wf (h : Memory.wf s.dram = true) (a : Word) (la : Nat) (ret : Bool) : (s.capsend a la ret).Kept := by
  unfold State.capsend
  dsimp only
  (repeat' split) <;> simp [h]

theorem execRds_wf (h : Memory.wf s.dram = true) (m : Msg) : NextKept (execRds m s) := by
  refine msgEvent_wf h m 0 fun h => ?_
  split
  next hg => simp [State.helperGrant_dram hg, h]
  · simp [h]

@[simp] theorem State.pauseBanks_wf (h : Memory.wf s.dram = true) (pa : Nat) {f : State → State}
    (hf : ∀ {t : State}, Memory.wf t.dram = true → Memory.wf (f t).dram = true) : Memory.wf (s.pauseBanks pa f).dram = true :=
  Laws.pauseBanks_wf s pa f (fun _ => hf) h

theorem execDramFill_wf (h : Memory.wf s.dram = true) (sl line : Nat) : NextKept (execDramFill sl line s) := by
  rw [execDramFill, event, NextKept]
  exact State.pauseBanks_wf h _ fun h => State.onDramFill_wf h ..

theorem execRegionEnd_wf (h : Memory.wf s.dram = true) (r : Nat) : NextKept (execRegionEnd r s) :=
  event_wf h fun h => by
    rw [State.onRegionEnd_dram s fun s => s.partFail_dram]
    exact h

/-- Every instruction and every event keeps DRAM canonical. -/
theorem exec_wf (h : Memory.wf s.dram = true) (i : Instr) : NextKept (exec i s) := by
  unfold exec
  cases i with
  | add | sub | and | or | xor | andn | sll | srl | sra | rol | ror | slt | sltu | seq | min | max | minu | maxu | mul | mulh | mulhu
   | div | divu | rem | remu | add32 | sub32 | mul32 | madd | msub | csel | clz | ctz | popc | bswap | sextB | sextH | sextW | zextW
   | addi | andi | ori | xori | slli | srli | srai | rori | slti | sltiu | movhi | insh | fadd | fsub | fmul | fdiv | fsqrt | fmin | fmax
   | fneg | fabs | fcpsgn | fcmeq | fcmlt | fcmle | ffma | ffms | ffnma | ffnms | fconv | frint | vadd | vadds | vsub | vsubs | vmul
   | vmulh | vdiv | vmin | vmax | vfma | vfms | vfnma | vfnms | vand | vor | vxor | vandn | vshl | vshr | vsra | vrol | vcmpeq | vcmpne
   | vcmplt | vcmple | vsel | vneg | vabs | vcpsgn | vmov | vsqrt | vexp2 | vlog2 | vrcp | vrsqrt | vmix32 | vmix32u | vmix32r | vrsum
   | vrmax | vrmin | vscsum | vscmax | vscmin | vperm | vcompr | vbcast | vsplat | vins | vext | vcvt | vqblkSb8 | vqblkSb4 | vdqblkSb8
   | vdqblkSb4 | mand | mor | mxor | mandn | mtog | gtom | mpopc | mfirst | viota | vaddF64 | vsubF64 | vmulF64 | vdivF64 | vfmaF64
   | vfmsF64 | vfnmaF64 | vfnmsF64 | vminF64 | vmaxF64 | vsqrtF64 | vrsumF64 | vcvtF64 =>
    exact issueA_wf h ..
  | ldBu | ldHu | ldWu | ldD | ldB | ldH | ldW | ldxBu | ldxHu | ldxWu | ldxD | ldxB | ldxH | ldxW | vld | ldacq | mctld =>
    exact issueC_wf h _ fun _ _ h => State.load_wf h ..
  | stB | stH | stW | stD | stxB | stxH | stxW | stxD | vst | strel =>
    exact issueC_wf h _ fun _ _ h => State.store_wf h ..
  | amoadd | amoand | amoor | amoxor | amosmax | amosmin | amoumax | amoumin | amoswap | amocas =>
    exact issueC_wf h _ fun _ _ h => State.atomic_wf h ..
  | vgath | vldm =>
    exact issueC_wf h _ fun _ _ h => State.gather_wf h ..
  | vscat | vstm =>
    exact issueC_wf h _ fun _ _ h => State.scatter_wf h ..
  | ldfe | ldff =>
    exact issueC_wf h _ fun _ _ h => State.syncLoad_wf h ..
  | stfe | stff =>
    exact issueC_wf h _ fun _ _ h => State.syncStore_wf h ..
  | ldlkW | ldlkD =>
    exact issueC_wf h _ fun _ _ h => State.ldlk_wf h ..
  | stckW | stckD =>
    exact issueC_wf h _ fun _ _ h => State.stck_wf h ..
  | barinit | barexpect =>
    exact issueC_wf h _ fun _ _ h => State.barArm_wf h ..
  | btagf | btage =>
    exact issueC_wf h _ fun _ _ h => State.btagOp_wf h ..
  | call =>
    exact issueC_wf h _ fun _ _ h => State.pushReturn_wf h ..
  | ret =>
    exact issueC_wf h _ fun _ _ h => State.popReturn_wf h
  | sendw | sendv =>
    exact issueC_wf h _ fun _ _ h => State.send_wf h ..
  | recvw | recvv =>
    exact issueC_wf h _ fun _ _ h => State.recv_wf h ..
  | mma | mmaz =>
    exact issueC_wf h _ fun _ _ h => State.mma_wf h ..
  | mlu | mchol | mqr | mtrsm =>
    exact issueC_wf h _ fun _ _ h => State.fact_wf h ..
  | cpyt | cpyth =>
    exact issueC_wf h _ fun _ _ h => State.issueCopy_wf h ..
  | mlong | mlongh =>
    exact issueC_wf h _ fun _ _ h => State.issueMlong_wf h ..
  | bmvj | bmvjh =>
    exact issueC_wf h _ fun _ _ h => State.issueBmv_wf h ..
  | beq | bne | blt | bge | bltu | bgeu | bdec | bany | bnone | ball | bnall | jmp | yield | hbeat | cnop | eret | icinv | trap | splend
   | fence | sbclr | medge | mctset =>
    exact issueC_wf h _ fun _ _ h => by (repeat' split) <;> simp [h]
  | jr | sendc | ptest | waitw | srr | srw | srset | srclr | sighost | dsread | dsprobe | dsdone | dsclr | dsrel | bararrive | waitbar
   | barread | fbind | funbind | sbpulse | capdrop | capdead | cappop | cappush | capset | capget | capskip | zrd | zwr | mclr | mfmt =>
    exact issueC_wf h _ fun _ _ h => by dsimp only; (repeat' split) <;> simp [h]
  | powerOnReset | deviceReset | bootLayer | clusterReset | linkReset | laneFault | linkTrainTimeout | channelFailure | correctedError
   | droopTrip | droopStretchEnd | clockFrequencySwitch | ls1Entry | ls2Entry | ls3Entry | ls4Entry | powerStateExit | retentionSleep
   | controlCoreWake | lattolWrite | pwrlimitWrite | readlog | report | readerr | stage | badop | mailboxCompletion | evict | resume
   | skip | disable | qctlBadOperation | doorbell | svcimgWrite | registerWrite | priEnable | queueLoad | queueSelect | queueSliceExpiry
   | waitPoll | waitTimeout | bindPacket | priStopMarker | customPacket | packetComplete | coalescerHoldExpiry | atsTranslationCompletion
   | pageRequestResponse | pageRequestTimeout | atsInvalidateRequest | invalidationCompletion | eciMalformedRequest | nodeMerge
   | replicaDrop | replayRetry | probeTimeout | l1BackgroundSweep | mcrdWindowClose | spsyResend | lreqResend | deferredMessageRetry
   | networkLinkRetry | regionRunnable | regionSliceExpiry | partitionHalt | contextSwap | bayBackgroundWrite | rosterMultiplex
   | graceExpiry | heartbeatMiss | dispatch | waitLimitExpiry | timerExpiry | interruptEntry | deferredPoison | flumeTransfer
   | jobCardStart | copyJobComplete | jobStatusFail | sluiceOutletFire | matrixRequestServe | matrixResultBind | factorisationStepEnd
   | mlongComplete | bmvJobStart | xld | brun | bhalt | bres | prd | bankPassBatchEnd | bmvJobCompletion | deadLetter | dsdoneWaitLog
   | adapterRetry | supplyRecovery | unrecoverableFailure =>
    dsimp only
    refine event_wf h fun h => ?_
    simp [h]
  | rdx | upg | rdnc | wrnc | wrf | atom | llk | sck | watch | sinv | sshr | sbinv | ds | de | dm | gm | cmp | atr | lkd | scf | woke
   | rty | wba | wbx | pack | pdat | wbd | evc | crd | mcrd | mcd | spwr | sprd | spsy | spdat | repl | rrec | rdin | rdrm | grant
   | alwRet | cret | dsack | userMessage | dec | notice | dirsvc | lreq | chunk =>
    dsimp only
    refine msgEvent_wf h _ _ fun h => ?_
    simp [h]
  | capsend | capret => exact issueC_wf h _ fun _ _ h => State.capsend_wf h ..
  | callr => exact execCallr_wf h ..
  | ppt => exact execPpt_wf h ..
  | dsbcast => exact execDsbcast_wf h ..
  | dsstab => exact execDsstab_wf h ..
  | dspoll => exact execDspoll_wf h ..
  | spltake => exact execSpltake_wf h ..
  | lbsend => exact execLbsend_wf h ..
  | waita => exact execWaita_wf h ..
  | cpyb => exact execCpyb_wf h ..
  | rds => exact execRds_wf h ..
  | dramFill => exact execDramFill_wf h ..
  | regionEnd => exact execRegionEnd_wf h ..
  | nopPacket => exact event_wf h fun h => State.onBody_wf h _ _ _ fun _ _ _ => ⟨h, trivial⟩
  | launchPacket => exact event_wf h fun h => State.onBody_wf h _ _ _ fun _ _ _ => State.launch_wf h ..
  | copyPacket => exact event_wf h fun h => State.onBody_wf h _ _ _ fun _ _ _ => State.copyBody_wf h ..
  | bmvPacket => exact event_wf h fun h => State.onBody_wf h _ _ _ fun _ _ _ => State.startBmv_wf h ..
  | signalPacket => exact event_wf h fun h => State.onBody_wf h _ _ _ fun _ _ _ => State.pktSignal_wf h ..
  | waitPacket => exact event_wf h fun h => State.onBody_wf h _ _ _ fun _ _ _ => State.waitRead_wf h ..
  | writeSignalPacket => exact event_wf h fun h => State.onBody_wf h _ _ _ fun _ _ _ => State.writeSignal_wf h ..
  | unbindPacket => exact event_wf h fun h => State.onBody_wf h _ _ _ fun _ _ _ => State.unbind_wf h ..

theorem unitFails_wf (h : Memory.wf s.dram = true) (tk cause : Nat) (val : Word) (wordBit : Bool) :
    NextKept (unitFails tk cause val wordBit s) := by
  simp [unitFails, h]

theorem State.issueLone_wf (h : Memory.wf s.dram = true) (tk : Nat) (t : Thread) (w : Nat) : NextKept (s.issueLone tk t w) := by
  unfold State.issueLone
  split
  · exact unitFails_wf h ..
  · simp [h]
  · exact exec_wf h _

/-- The two instructions of a bundle keep DRAM canonical, the one after the other. -/
theorem exec_pair_wf (h : Memory.wf s.dram = true) (a c : Instr) (u : UnitCtx → UnitCtx) :
    NextKept (match exec a s with
      | .next s' => exec c { s' with unit := u s'.unit }
      | r => r) := by
  have ha := exec_wf h a
  split
  next s' he =>
    rw [he] at ha
    exact exec_wf (s := { s' with unit := u s'.unit }) ha c
  · exact ha

theorem State.issuePair_wf (h : Memory.wf s.dram = true) (tk : Nat) (t : Thread) (w0 w1 : Nat) : NextKept (s.issuePair tk t w0 w1) := by
  unfold State.issuePair
  split
  · exact unitFails_wf h ..
  next c _ =>
    split
    · exact unitFails_wf h ..
    · split
      · exact unitFails_wf h ..
      · split
        next a _ =>
          exact exec_pair_wf (s := { s with unit := { s.unit with phase := .aOfPair, cReads := vReads c } }) h a c
            fun u => { u with phase := .cOfPair }
        · simp [h]

theorem State.issueWords_wf (h : Memory.wf s.dram = true) (tk : Nat) (t : Thread) (d : Vec) : NextKept (s.issueWords tk t d) := by
  unfold State.issueWords
  extract_lets o w0 w1 u
  split
  · exact State.issueLone_wf (by exact h) ..
  · split
    · exact unitFails_wf (by exact h) ..
    · split
      · exact unitFails_wf (by exact h) ..
      · exact State.issuePair_wf (by exact h) ..

theorem State.issueThread_wf (h : Memory.wf s.dram = true) (c tk : Nat) : NextKept (s.issueThread c tk) := by
  unfold State.issueThread
  split
  · trivial
  next t _ =>
    extract_lets u
    have hu : Memory.wf u.dram = true := h
    split
    · exact exec_wf hu _
    · have hf := State.fetch_wf hu tk t
      split <;> rename_i he <;> rw [he] at hf
      · exact unitFails_wf hu ..
      · simpa using hf
      · exact State.issueWords_wf hf ..

theorem State.issueFirst_wf (c : Nat) (l : List (Nat × Nat)) (h : Memory.wf s.dram = true) : NextKept (s.issueFirst c l) := by
  induction l generalizing s with
  | nil => exact h
  | cons e l ih =>
    have ht := State.issueThread_wf h c e.2
    unfold State.issueFirst
    split
    next he =>
      rw [he] at ht
      split
      · exact ih ht
      · simpa using ht
    · exact ht

theorem State.coreTurn_wf (h : Memory.wf s.dram = true) (c : Nat) : NextKept (s.coreTurn c) := by
  unfold State.coreTurn
  split
  · exact State.issueFirst_wf c _ (by simp [h])
  · split <;> simp [h]

theorem State.runEvent_wf (h : Memory.wf s.dram = true) (i : Nat) : NextKept (s.runEvent i) := by
  unfold State.runEvent
  split
  next e _ => exact exec_wf (s := { s with agenda := s.agenda.eraseIdx i }) h (evInstr e)
  · exact h

theorem State.autoStep_wf (h : Memory.wf s.dram = true) : NextKept s.autoStep := by
  unfold State.autoStep
  split
  · exact State.runEvent_wf (by exact h) 0
  · exact State.coreTurn_wf (by exact h) _

theorem State.choose_wf (h : Memory.wf s.dram = true) (c : Choice) : NextKept (s.choose c) := by
  cases c with
  | auto => exact State.autoStep_wf h
  | ev i => exact State.runEvent_wf h _
  | core c => exact State.coreTurn_wf h _
  | occur e =>
    simp only [State.choose]
    split
    · simp [h]
    · split
      · simp [h]
      · split
        · exact exec_wf h _
        · exact h
  | hostLoad | hostStore | hostDrop | uncorrectable | combine => simp [State.choose, h]
  | fuseFault => exact h

theorem State.advance_wf (h : Memory.wf s.dram = true) : NextKept s.advance := by
  unfold State.advance
  extract_lets u r
  have hu : Memory.wf u.dram = true := by simp [u, h]
  have hr : NextKept r := by
    simp only [r]
    split
    · exact State.autoStep_wf hu
    · exact State.choose_wf (by exact hu) _
  clear_value r
  cases r with
  | next s' => exact State.settleStep_wf hr
  | fault | refused => trivial

end Sys2Proof.Machine
end

section
/-!
CERTIFICATE. Memory stays in its canonical form.
-/

open Sys2Proof Sys2Proof.Machine Sys2Proof.Laws

/-- A step keeps memory in its canonical form, from every state. -/
theorem step_wf {s s' : State} (h : Memory.wf s.dram = true) (hs : step s = .next s') : Memory.wf s'.dram = true := by
  have ha := State.advance_wf h
  rw [show s.advance = .next s' from hs] at ha
  exact ha

/-- Settles O58: every step keeps DRAM canonical, and a canonical array is determined by what it reads as. -/
theorem stepKeepsMemoryCanonical : Obligations.StepKeepsMemoryCanonical := by
  unfold Obligations.StepKeepsMemoryCanonical
  intro s s' h hs
  have hs' := step_wf h hs
  refine ⟨hs', fun u u' hu hstep hread => ?_⟩
  exact above_ext s'.dram u'.dram 0 hs' (step_wf hu hstep) hread
end

section
/-!
SUPPORT. Traps that a unit of one word raises before its effect: privilege (R228), F64V on a core without it (R11, R145), FP (R235).
-/

namespace Sys2Proof.Machine

variable {s : State} {t : Thread}

/-- Below system mode a privileged word raises PRIV, whatever its body would do. -/
theorem Traps.priv {i : Instr} {c : CSpec} {body : Thread → State → CRes} (h : Alone s t) (hi : exec i s = issueC c body s)
    (hc : c.priv = true) (ht : t.priv = 0) : Traps i s Cause.priv 0 := by
  obtain ⟨hth, hl, hpd, -, -⟩ := h
  refine hi.trans ?_
  simp [issueC, hth, hl, State.finishUnit, UnitCtx.words, Thread.holdBack_none c _ _ hpd, hc, ht, State.unitTrap, hpd]

/-- What an A-class word's effect says of F64V is what its major says. -/
@[simp] theorem State.evalA_f64v (tk : Nat) (n : Names) (sh : List Nat) (f64v : Bool) (body : Thread → AOut) :
    (s.evalA tk t n sh f64v body).f64v = f64v := by
  unfold State.evalA
  dsimp only
  (repeat' split) <;> rfl

/-- An F64V word that issues alone on a core without F64V does not take effect. -/
theorem issueA_absent (n : Names) (body : Thread → AOut) (h : Alone s t) (hv : s.hasF64v s.unit.core = false) :
    issueA n true body s = .next (s.absentF64v s.unit.tk t false) := by
  obtain ⟨hth, hl, hpd, -, -⟩ := h
  simp [issueA, hth, hl, State.finishUnit, UnitCtx.words, Thread.holdBack_none _ _ _ hpd, hv]

/-- A service thread, and any thread of a cluster whose F64V core is out of service, raises EXTENSION_ABSENT. -/
theorem State.absentF64v_traps (h : Alone s t) (hs : isService s.unit.tk = true ∨ s.f64vCore (ckOfTk s.unit.tk) = none) :
    s.absentF64v s.unit.tk t false = s.takeTrap s.unit.tk Cause.extensionAbsent 0 s.unit.addr false false := by
  have hz : (if isService s.unit.tk then none else s.f64vCore (ckOfTk s.unit.tk)) = none := by
    split
    · rfl
    next hn => exact hs.resolve_left hn
  simp [State.absentF64v, hz, State.unitTrap, h.thread, h.pend]

/-- A user thread with its stores performed moves to the F64V core of its cluster. -/
theorem State.absentF64v_moves {z : Nat} (h : Alone s t) (hs : isService s.unit.tk = false) (hz : s.f64vCore (ckOfTk s.unit.tk) = some z)
    (hb : t.sbuf = []) (hr : t.remote = []) : s.absentF64v s.unit.tk t false = s.moveThread s.unit.tk z := by
  have hq : t.quiet = true := by rw [Thread.quiet, hb, hr, h.pend]; rfl
  simp [State.absentF64v, hs, hz, hq]

/-- An A-class word that issues alone and raises an exception whose trap is enabled traps with FP. -/
theorem issueA_fpTraps {n : Names} {f64v : Bool} {body : Thread → AOut} {v : Word} (h : Alone s t)
    (hv : f64v = true → s.hasF64v s.unit.core = true) (ht : (body t).trap = none) (hx : fpTrap t.fpcsr (body t).lanes = some v) :
    issueA n f64v body s = .next (s.takeTrap s.unit.tk Cause.fp v s.unit.addr false false) := by
  obtain ⟨hth, hl, hpd, hp, hf⟩ := h
  have ha : s.evalA s.unit.tk t n [] f64v body = { n := n, f64v := f64v, trap := some (Cause.fp, v) } := by
    simp [State.evalA, Thread.portTrap_plain n [] hp hf, State.portDestTrap_plain s.unit.tk n.gd hp,
      State.portWait_plain s.unit.tk n [] hp hf, Thread.flumePoison_plain n [] hf, State.view_plain s.unit.tk n [] hp hf, ht, hx]
  have hv' : ¬ (f64v = true ∧ s.hasF64v s.unit.core = false) := by
    rintro ⟨h1, h2⟩
    simp [hv h1] at h2
  simp [issueA, hth, hl, ha, State.finishUnit, State.finishA, UnitCtx.words, Thread.holdBack_none _ _ _ hpd, hv', Thread.messages,
    Thread.portsOf_off hp, bitOf, Thread.portTrap_plain _ [] hp hf, State.portDestTrap_plain s.unit.tk _ hp,
    State.portWait_plain s.unit.tk _ [] hp hf, Thread.flumePoison_plain _ [] hf, State.unitTrap, hpd]

/-! ## The lowest lane that raised an enabled exception -/

/-- The least of a bound and the lanes of a list, where some lane reaches it. -/
theorem foldl_min_lane (l : List (Nat × Flags)) (b k : Nat) (hb : k ≤ b) (hl : ∀ e ∈ l, k ≤ e.1) (hk : b = k ∨ ∃ e ∈ l, e.1 = k) :
    l.foldl (fun a e => min a e.1) b = k := by
  induction l generalizing b with
  | nil => simpa using hk
  | cons e l ih =>
    have he := hl e List.mem_cons_self
    refine ih (min b e.1) (le_min hb he) (fun e' h' => hl e' (List.mem_cons_of_mem _ h')) ?_
    obtain rfl | ⟨e', h', rfl⟩ := hk
    · exact .inl (min_eq_left he)
    · obtain rfl | h' := List.mem_cons.mp h'
      · exact .inl (min_eq_right hb)
      · exact .inr ⟨e', h', rfl⟩

/-- The lowest lane that raised a flag of a set. -/
theorem lowestLane_eq {l : List (Nat × Flags)} {m : Flags} {k : Nat} (hk : k ≤ 255) (hmem : ∃ e ∈ l, e.1 = k ∧ e.2 &&& m ≠ 0)
    (hlow : ∀ e ∈ l, e.2 &&& m ≠ 0 → k ≤ e.1) : lowestLane l m = k := by
  obtain ⟨e, he, hek, hem⟩ := hmem
  refine foldl_min_lane _ 255 k hk (fun e he => ?_) (.inr ⟨e, List.mem_filter.mpr ⟨he, bne_iff_ne.mpr hem⟩, hek⟩)
  simp only [List.mem_filter, bne_iff_ne, ne_eq] at he
  exact hlow e he.1 he.2

/-- A lane's raised flags that are enabled are those among all lanes' that are enabled. -/
theorem and_laneOr {l : List (Nat × Flags)} {e : Nat × Flags} (he : e ∈ l) (ten : Flags) : e.2 &&& (laneOr l &&& ten) = e.2 &&& ten := by
  refine BitVec.eq_of_getLsbD_eq fun i _ => ?_
  have hor := (laneOr_bit l i).mpr
  simp only [BitVec.getLsbD_and]
  cases hb : e.2.getLsbD i with
  | false => rfl
  | true => rw [hor ⟨e, he, hb⟩]; rfl

/-- TRAPVAL of the FP trap: the raised flags that are enabled, and the lowest lane that raised one of them. -/
theorem fpTrap_eq {fpcsr : Word} {l : List (Nat × Flags)} {k : Nat} (hk : k ≤ 255) (hmem : ∃ e ∈ l, e.1 = k ∧ e.2 &&& fpTen fpcsr ≠ 0)
    (hlow : ∀ e ∈ l, e.2 &&& fpTen fpcsr ≠ 0 → k ≤ e.1) :
    fpTrap fpcsr l = some ((laneOr l &&& fpTen fpcsr).setWidth 64 + word (256 * k)) := by
  have hl : lowestLane l (laneOr l &&& fpTen fpcsr) = k := by
    obtain ⟨e, he, hek, hem⟩ := hmem
    exact lowestLane_eq hk ⟨e, he, hek, by rwa [and_laneOr he]⟩ fun e he hem => hlow e he (by rwa [and_laneOr he] at hem)
  have hf : laneOr l &&& fpTen fpcsr ≠ 0 := by
    obtain ⟨e, he, -, hem⟩ := hmem
    intro h0
    rw [← and_laneOr he, h0] at hem
    exact hem (by simp)
  simp only [fpTrap, hf, if_false, hl, word, BitVec.ofNat_add, BitVec.ofNat_toNat]

/-- The lanes whose flags a masked operation counts are the active ones. -/
theorem mem_maskedLanes_lanes (d m w : Nat) (f : Nat → Nat × Flags) (e : Nat × Flags) :
    e ∈ (maskedLanes t d m w f).lanes ↔ ∃ k < 512 / w, t.active m k = true ∧ e = (k, (f k).2) := by
  simp only [maskedLanes, List.mem_filterMap, List.mem_range]
  refine exists_congr fun k => and_congr_right fun hk => ?_
  rw [List.getD_eq_getElem?_getD, List.getElem?_map, List.getElem?_range hk, Option.map_some, Option.getD_some]
  split
  next ha => simp only [ha, true_and, Option.map_some, Option.some.injEq, eq_comm]
  next ha => simp [ha]

/-- A masked operation that issues alone, where the active lane `k` is the lowest that raises an enabled exception. -/
theorem masked_fpTraps {i : Instr} {n : Names} {f64v : Bool} {d m w k : Nat} {f : Nat → Nat × Flags} {body : Thread → AOut} {g : Flags}
    (h : Alone s t) (hi : exec i s = issueA n f64v body s) (hb : body t = maskedLanes t d m w f)
    (hv : f64v = true → s.hasF64v s.unit.core = true)
    (hg : ∀ b, g.getLsbD b = true ↔ ∃ j < 512 / w, t.active m j = true ∧ ((f j).2 &&& fpTen t.fpcsr).getLsbD b = true)
    (hk : k < 512 / w) (h255 : k ≤ 255) (ha : t.active m k = true) (hr : (f k).2 &&& fpTen t.fpcsr ≠ 0)
    (hlow : ∀ j < k, t.active m j = true → (f j).2 &&& fpTen t.fpcsr = 0) :
    Traps i s Cause.fp (g.setWidth 64 + word (256 * k)) := by
  have hmem := mem_maskedLanes_lanes (t := t) d m w f
  have hor : laneOr (body t).lanes &&& fpTen t.fpcsr = g := by
    refine BitVec.eq_of_getLsbD_eq fun b _ => Bool.eq_iff_iff.mpr ?_
    rw [hb, BitVec.getLsbD_and, Bool.and_eq_true, maskedLanes_flags, hg]
    simp only [BitVec.getLsbD_and, Bool.and_eq_true]
    constructor
    · rintro ⟨⟨j, hj, haj, hbj⟩, ht⟩
      exact ⟨j, hj, haj, hbj, ht⟩
    · rintro ⟨j, hj, haj, hbj, ht⟩
      exact ⟨⟨j, hj, haj, hbj⟩, ht⟩
  have hx : fpTrap t.fpcsr (body t).lanes = some (g.setWidth 64 + word (256 * k)) := by
    rw [← hor]
    refine fpTrap_eq h255 ?_ ?_ <;> rw [hb]
    · exact ⟨(k, (f k).2), (hmem _).mpr ⟨k, hk, ha, rfl⟩, rfl, hr⟩
    · rintro e he hne
      obtain ⟨j, -, haj, rfl⟩ := (hmem e).mp he
      by_contra hjk
      exact hne (hlow j (Nat.lt_of_not_le hjk) haj)
  exact hi.trans (issueA_fpTraps h hv (by rw [hb]; rfl) hx)

/-- rd := f(ra, rb) on f32 values, where the operation raises an enabled exception. -/
theorem fop2_fpTraps {i : Instr} {d a b : BitVec 5} {f : Nat → Nat → Nat × Flags} {g : Flags} (h : Alone s t)
    (hi : exec i s = fop2 d a b f s) (hg : (f (f32Of (t.rg a.toNat)) (f32Of (t.rg b.toNat))).2 &&& fpTen t.fpcsr = g) (h0 : g ≠ 0) :
    Traps i s Cause.fp (g.setWidth 64) := by
  subst hg
  have hx := fpTrap_eq (fpcsr := t.fpcsr) (l := [(0, (f (f32Of (t.rg a.toNat)) (f32Of (t.rg b.toNat))).2)]) (k := 0) (by decide)
    ⟨_, List.mem_singleton_self _, rfl, h0⟩ fun _ _ _ => Nat.zero_le _
  refine hi.trans (issueA_fpTraps h nofun rfl (hx.trans ?_))
  simp [laneOr, word]

end Sys2Proof.Machine
end

section
/-!
CERTIFICATE. Traps raised before an effect.
-/

open Sys2Proof Sys2Proof.Machine Sys2Proof.Laws

/-- R235: the scalar operations of f32, and the vector ones at their lowest raising lane. -/
theorem fpTraps : Claims.FpTraps := by
  intro s t h d a b m
  constructor
  · intro e he f hf
    simp only [List.mem_cons, List.not_mem_nil, or_false] at he
    obtain rfl | rfl | rfl | rfl := he <;> exact fop2_fpTraps h rfl rfl hf
  · intro e he raised f k hf hk ha hr hlow
    simp only [List.mem_cons, List.not_mem_nil, or_false] at he
    have h255 : k ≤ 255 := by omega
    obtain rfl | rfl | rfl | rfl := he <;> exact masked_fpTraps h rfl rfl nofun hf hk h255 ha hr hlow

/-- R11, R145: the F64V forms on a core without F64V. -/
theorem extensionAbsent : Claims.ExtensionAbsent := by
  intro s t h hv d a b m tk i hi
  have hx : exec i s = .next (s.absentF64v tk t false) := by
    simp only [List.mem_cons, List.not_mem_nil, or_false] at hi
    obtain rfl | rfl | rfl | rfl | rfl | rfl := hi <;> exact issueA_absent _ _ h hv
  exact ⟨fun hs => hx.trans (congrArg _ (State.absentF64v_traps h hs)),
    fun z hs hz hb hr => hx.trans (congrArg _ (State.absentF64v_moves h hs hz hb hr))⟩

/-- R228, R287, R403, R411: the privileged forms below system mode, and those of the service thread in another slot. -/
theorem privilegedTraps : Claims.PrivilegedTraps := by
  intro s t h p d a b l
  refine ⟨fun ht i hi => ?_, fun ht hs i hi => ?_⟩
  · simp only [List.mem_cons, List.not_mem_nil, or_false] at hi
    obtain rfl | rfl | rfl | rfl | rfl | rfl | rfl | rfl | rfl | rfl | rfl | rfl := hi <;> exact Traps.priv h rfl rfl ht
  · simp only [List.mem_cons, List.not_mem_nil, or_false] at hi
    obtain rfl | rfl | rfl | rfl := hi <;> exact Traps.word h rfl (fun _ => ht) (by simp [hs, UnitCtx.opVal])

/-- Settles O41: each part is the lemma of its kind of trap. -/
theorem executionTraps : Obligations.ExecutionTraps :=
  ⟨fpTraps, extensionAbsent, privilegedTraps⟩
end

section
/-!
CERTIFICATE. Power, errors and resets: what a cluster reset does to a matrix long operation.
-/

open Sys2Proof Sys2Proof.Machine Sys2Proof.Laws

/-- A machine whose cluster 0 runs a partition of region 1 with a matrix long operation queued on its core 0. -/
def longQueued : State :=
  { clusters := [(0, { resident := some 16 })], ctx := [(64, { cards := [{ id := 1, kind := .mlong }] })] }

/-- A cluster reset also ends the cluster's matrix long operations (R267): the completion of each one is posted. -/
theorem clusterReset_ends_long : longQueued.onClusterReset 0 =
    (((longQueued.modClu 0 fun x => { x with resetting := true, entry := .none }).abortJobs 0).abortLongs 0).later (.clusterReset 0) := rfl

/-- Refutes O46: the clause of a cluster reset that begins leaves out the end of the cluster's matrix long operations (R28, R267). On
`longQueued` the reset posts two events, the operation's completion and its own next step; the clause has only the latter. -/
theorem not_powerErrorAndResetSteps : ¬ Obligations.PowerErrorAndResetSteps := by
  unfold Obligations.PowerErrorAndResetSteps
  rintro ⟨-, -, hreset⟩
  obtain ⟨-, -, -, -, -, hbegin, -, -⟩ := hreset longQueued 0
  have hstate := Host.Outcome.next.inj (hbegin rfl)
  have hagenda : (longQueued.onClusterReset 0).agenda.length = 1 := (congrArg (·.agenda.length) hstate).trans rfl
  rw [clusterReset_ends_long] at hagenda
  exact absurd hagenda (by decide)
end

section
/-!
SUPPORT. The control tile's steps, case by case: the errors that a boot leaves, the boot of a layer, and the mailbox's commands (R29, R32
to R39).
-/

namespace Sys2Proof.Machine

variable {s : State}

/-! ## Device-fatal errors (R29) -/

@[simp] theorem State.sendMsix_ctl (v : Nat) : (s.sendMsix v).ctl = s.ctl := by
  unfold State.sendMsix
  dsimp only
  split <;> rfl

@[simp] theorem State.sendMsix_pow (v : Nat) : (s.sendMsix v).pow = s.pow := by
  unfold State.sendMsix
  dsimp only
  split <;> rfl

theorem State.deviceFatal_ctl (u : HwUnit) (addr : Word) : (s.deviceFatal u addr).ctl = (s.logError 3 u addr).ctl := by
  unfold State.deviceFatal
  dsimp only
  split
  · exact State.sendMsix_ctl 0
  · rfl

theorem State.deviceFatal_pow (u : HwUnit) (addr : Word) : (s.deviceFatal u addr).pow = { s.pow with fatal := true } := by
  unfold State.deviceFatal
  dsimp only
  split
  · exact State.sendMsix_pow 0
  · rfl

/-! ## The minimum SVNs (R36) -/

/-- Raising the minimums changes them and the pending requests alone. -/
theorem Control.raiseMin_eq (c : Control) : ∃ r m1 m2, c.raiseMin = { c with raise := r, minSvn := m1, minSvn2 := m2 } := by
  unfold Control.raiseMin
  refine List.foldlRecOn (motive := fun (c' : Control) => ∃ r m1 m2, c' = { c with raise := r, minSvn := m1, minSvn2 := m2 }) _ _
    ⟨c.raise, c.minSvn, c.minSvn2, rfl⟩ ?_
  rintro _ ⟨r, m1, m2, rfl⟩ k -
  dsimp only
  split
  · split
    · exact ⟨_, _, _, rfl⟩
    · exact ⟨_, _, _, rfl⟩
  · exact ⟨_, _, _, rfl⟩

@[simp] theorem Control.raiseMin_layer (c : Control) : c.raiseMin.layer = c.layer := by
  obtain ⟨_, _, _, h⟩ := Control.raiseMin_eq c
  rw [h]

@[simp] theorem Control.raiseMin_secret (c : Control) : c.raiseMin.secret = c.secret := by
  obtain ⟨_, _, _, h⟩ := Control.raiseMin_eq c
  rw [h]

@[simp] theorem Control.raiseMin_seed (c : Control) : c.raiseMin.seed = c.seed := by
  obtain ⟨_, _, _, h⟩ := Control.raiseMin_eq c
  rw [h]

@[simp] theorem Control.raiseMin_pubKeys (c : Control) : c.raiseMin.pubKeys = c.pubKeys := by
  obtain ⟨_, _, _, h⟩ := Control.raiseMin_eq c
  rw [h]

@[simp] theorem Control.raiseMin_log (c : Control) : c.raiseMin.log = c.log := by
  obtain ⟨_, _, _, h⟩ := Control.raiseMin_eq c
  rw [h]

@[simp] theorem Control.raiseMin_ready (c : Control) : c.raiseMin.ready = c.ready := by
  obtain ⟨_, _, _, h⟩ := Control.raiseMin_eq c
  rw [h]

end Sys2Proof.Machine

namespace Sys2Proof.Laws

open Machine

/-- A device's step ends in the state that its own effect leaves. -/
theorem steps_of_next {i : Instr} {s u s' : State} (hi : exec i s = .next u) (h : u = s') : Steps i s s' :=
  hi.trans (congrArg _ h)

variable {s s1 s2 : State}

/-! ## Retention sleep (R32) -/

theorem onRetention_sleeps {k : Nat} (hwake : s.ctl.wake.getD k false = false) (hidle : s.controlBusy = false) :
    s.onRetention k = { s with ctl := { s.ctl with sleep := s.ctl.sleep.set k true } } := by
  simp only [State.onRetention, hwake, hidle, Bool.false_eq_true, if_false, setAt]

/-! ## Boot (R33 to R37) -/

/-- The next layer is one to boot while the boot has not stopped. -/
theorem boot_goes_on {layer : Nat} (hlayer : layer = 1 ∨ layer = 2) (hnext : s.ctl.layer + 1 = layer) (hfail : s.ctl.fail = false) :
    ¬ (layer = 0 ∨ 2 < layer ∨ s.ctl.layer + 1 ≠ layer ∨ s.ctl.fail = true) := by
  simp only [hfail, Bool.false_eq_true, or_false]
  omega

/-- A layer with no acceptable slot stops the boot by a device-fatal error (R35). -/
theorem onBoot_stops {layer : Nat} (hlayer : layer = 1 ∨ layer = 2) (hnext : s.ctl.layer + 1 = layer) (hfail : s.ctl.fail = false)
    (hslot : s.ctl.bootSlot layer = none) :
    s.onBoot layer = ({ s with ctl := { s.ctl with fail := true } }).deviceFatal (.controlCore 0) 0 := by
  simp only [State.onBoot, boot_goes_on hlayer hnext hfail, if_false, hslot]

/-- What the boot of a layer from a slot leaves, and that it is the control tile's alone. -/
theorem onBoot_starts {layer slot : Nat} (hlayer : layer = 1 ∨ layer = 2) (hnext : s.ctl.layer + 1 = layer) (hfail : s.ctl.fail = false)
    (hslot : s.ctl.bootSlot layer = some slot) :
    let img := s.ctl.images.getD slot []
    let m := sha512 (img.take (imgSize img))
    let secret := if layer = 1 then leBytes 32 Config.deviceSecret.toNat else s.ctl.secret
    let next := nextSecret secret m
    let pub := edPublic (layerSeed next)
    ∃ c, s.onBoot layer = { s with ctl := c } ∧ c.layer = layer ∧ c.secret = next ∧ c.seed = layerSeed next ∧
      c.pubKeys = (if layer = 1 then [edPublic (layerSeed secret), pub] else s.ctl.pubKeys ++ [pub]) ∧
      c.log = s.ctl.log ++ [logEntry layer (slot % 2) img m pub (layerSeed secret)] ∧ (layer = 2 → c.ready = true) := by
  simp only [State.onBoot, boot_goes_on hlayer hnext hfail, if_false, hslot]
  obtain rfl | rfl := hlayer
  · exact ⟨_, rfl, rfl, rfl, rfl, rfl, rfl, nofun⟩
  · exact ⟨_, rfl, by simp⟩

/-! ## The mailbox (R39) -/

theorem mboxDoes_iff {op : Nat} (hop : op < 256) : s.mboxDoes op = true ↔ s.ctl.mbox.busy = true ∧ s.ctl.mbox.op.toNat = op := by
  simp [State.mboxDoes, ← BitVec.toNat_inj, Nat.mod_eq_of_lt hop]

/-- A command's step that writes its output does so, ends with DMAERR beyond the top, or waits for the homes. -/
theorem steps_mboxWrite {i : Instr} {e : Ev} {l : List Byte} (hi : Steps i s (s1.mboxWrite e l)) :
    (s1.memTop < s1.mboxBase + l.length → Steps i s (s1.mboxEnd 3 0)) ∧
    (s1.mboxBase + l.length ≤ s1.memTop →
      (∀ s2, s1.cohPut controlId s1.mboxBase l false = .ok s2 → Steps i s (s2.mboxEnd 0 l.length)) ∧
      (∀ s2, s1.cohPut controlId s1.mboxBase l false = .error s2 → Steps i s (s2.laterOnce e))) := by
  unfold State.mboxWrite at hi
  refine ⟨fun hbeyond => ?_, fun hfits => ⟨fun s2 hput => ?_, fun s2 hput => ?_⟩⟩
  · simpa only [hbeyond, if_true] using hi
  · simpa only [hfits.not_gt, if_false, hput] using hi
  · simpa only [hfits.not_gt, if_false, hput] using hi

theorem steps_readlog (hdoes : s.mboxDoes 1 = true) : Steps .readlog s (s.mboxWrite .readlog s.ctl.log.flatten) :=
  steps_of_next rfl (if_pos hdoes)

theorem steps_readerr (hdoes : s.mboxDoes 3 = true) : Steps .readerr s (s.mboxWrite .readerr (s.ctl.errors.flatMap s.errBytes)) :=
  steps_of_next rfl (if_pos hdoes)

theorem steps_report {nonce : List Byte} (hdoes : s.mboxDoes 2 = true) (hfits : s.mboxBase + 256 ≤ s.memTop)
    (hread : s.cohBytes controlId s.mboxBase 32 = .ok (s1, nonce, none)) :
    Steps .report s (s1.mboxWrite .report (s1.ctl.report nonce)) := by
  refine steps_of_next rfl ?_
  simp [State.onReport, hdoes, hfits.not_gt, hread]

/-- A command whose code is none of the four ends with BADOP. -/
theorem steps_badop (hbusy : s.ctl.mbox.busy = true) (hop : s.ctl.mbox.op.toNat = 0 ∨ 4 < s.ctl.mbox.op.toNat) :
    Steps .badop s (s.mboxEnd 1 0) := by
  have hnone {op : Nat} (hlow : 1 ≤ op ∧ op ≤ 4) : s.mboxDoes op = false := by
    rw [← Bool.not_eq_true, mboxDoes_iff (by omega)]
    omega
  refine steps_of_next rfl (if_pos ⟨hbusy, ?_⟩)
  simp [hnone]

theorem steps_mailboxCompletion (hbusy : s.ctl.mbox.busy = true) :
    Steps .mailboxCompletion s (({ s with ctl := { s.ctl with mbox := { s.ctl.mbox with busy := false } } } : State).sendMsix 1) :=
  steps_of_next rfl (if_pos hbusy)

/-! ### STAGE (R36) -/

section Stage

variable {head img : List Byte}

/-- A command STAGE has read the image of its buffer: the header, and then the bytes that it names. -/
structure StageReads (s s1 s2 : State) (head img : List Byte) : Prop where
  does : s.mboxDoes 4 = true
  headFits : s.mboxBase + 256 ≤ s.memTop
  readsHead : s.cohBytes controlId s.mboxBase 256 = .ok (s1, head, none)
  sizeFits : imgSize head ≤ 256 + 448 * 1024
  imageFits : s.mboxBase + imgSize head ≤ s1.memTop
  readsImage : s1.cohBytes controlId s.mboxBase (imgSize head) = .ok (s2, img, none)

/-- An image that R35 does not accept ends the command with BADIMAGE. -/
theorem steps_stage_refused (h : StageReads s s1 s2 head img)
    (hbad : (imgField img 8 1 ≠ 1 ∧ imgField img 8 1 ≠ 2) ∨ s2.ctl.accepts (imgField img 8 1) img = false) :
    Steps .stage s (s2.mboxEnd 2 0) := by
  obtain ⟨hdoes, hfits, hhead, hsize, hfits1, himg⟩ := h
  refine steps_of_next rfl ?_
  simp [State.onStage, hdoes, hfits.not_gt, hhead, hsize.not_gt, hfits1.not_gt, himg, hbad]

/-- An accepted image goes to the slot of its layer that did not boot. -/
theorem steps_stage_accepted (h : StageReads s s1 s2 head img) (hlayer : imgField img 8 1 = 1 ∨ imgField img 8 1 = 2)
    (haccepts : s2.ctl.accepts (imgField img 8 1) img = true) :
    let layer := imgField img 8 1
    let j := 2 * (layer - 1) + if s2.ctl.slots.getLsbD (layer - 1) then 0 else 1
    Steps .stage s (({ s2 with ctl := { s2.ctl with
        images := s2.ctl.images.set j img
        staged := s2.ctl.staged.set (layer - 1) (some j)
        booted := s2.ctl.booted.set j false
        raise := s2.ctl.raise.set j (s2.ctl.mbox.arg.getLsbD 0) } } : State).mboxEnd 0 0) := by
  obtain ⟨hdoes, hfits, hhead, hsize, hfits1, himg⟩ := h
  have hgood : (imgField img 8 1 == 1 || imgField img 8 1 == 2) = true := by simpa using hlayer
  refine steps_of_next rfl ?_
  simp only [State.onStage, hdoes, hfits.not_gt, hhead, hsize.not_gt, hfits1.not_gt, himg, hgood, haccepts, Option.isSome_none, Bool.not_true,
    Bool.false_eq_true, or_self, if_false, slotA, setAt]

end Stage

end Sys2Proof.Laws
end

section
/-!
CERTIFICATE. The control tile: sleep and wake, the measured boot, and the mailbox commands.
-/

open Sys2Proof Sys2Proof.Machine Sys2Proof.Laws

/-- Settles O17: each clause is the lemma of its step. -/
theorem firmwareSteps : Obligations.FirmwareSteps := by
  unfold Obligations.FirmwareSteps
  intro s k c base running ends writes
  have hwrites (i : Instr) (e : Ev) (s1 : State) (l : List Byte) (hi : Steps i s (s1.mboxWrite e l)) : writes i e s1 l := steps_mboxWrite hi
  have hruns {op : Nat} (hop : op < 256) (h : running op) : s.mboxDoes op = true := (mboxDoes_iff hop).2 h
  refine ⟨fun hwake hidle => steps_of_next rfl (onRetention_sleeps hwake hidle), rfl,
    fun layer slot hlayer hnext hfail hslot => ?_, fun layer hlayer hnext hfail hslot => ?_,
    fun h => hwrites _ _ _ _ (steps_readlog (hruns (by decide) h)),
    fun s1 nonce h hfits hread => hwrites _ _ _ _ (steps_report (hruns (by decide) h) hfits hread),
    fun h => hwrites _ _ _ _ (steps_readerr (hruns (by decide) h)),
    fun s1 s2 head img h hfits hhead hsize hfits1 himg => ?_, steps_badop, steps_mailboxCompletion⟩
  · obtain ⟨c', hboot, hstarted⟩ := onBoot_starts hlayer hnext hfail hslot
    obtain ⟨hl, hsecret, hseed, hkeys, hlog, hready⟩ := hstarted
    exact ⟨{ s with ctl := c' }, steps_of_next rfl hboot, hl, hsecret, hseed, hkeys, hlog, hready, rfl, rfl⟩
  · refine ⟨_, steps_of_next rfl (onBoot_stops hlayer hnext hfail hslot), ?_, ?_, ?_⟩
    · rw [State.deviceFatal_ctl]; rfl
    · rw [State.deviceFatal_pow]
    · rw [State.deviceFatal_ctl]; rfl
  · have hreads : StageReads s s1 s2 head img := ⟨hruns (by decide) h, hfits, hhead, hsize, hfits1, himg⟩
    exact ⟨steps_stage_refused hreads, steps_stage_accepted hreads⟩
end

section
/-!
SUPPORT. Sibling nodes (R54): the pair of a slice with two nodes, the conditions under which it merges, and what its parent covers.
-/

namespace Sys2Proof.Machine

variable {s : State} {sl : Nat} {a b : Node}

/-- A node that R54 lets merge as far as it alone goes: idle for 2^18 S-cycles, and no request or atomic holds it. -/
def Slice.quiet (x : Slice) (clock : Nat) (n : Node) : Prop :=
  n.used + 2 ^ 18 ≤ clock ∧ x.nodeBusy n = false ∧ x.nodePinned n = false

/-- The records of two nodes agree and neither overflows (R54). -/
def Node.alike (a b : Node) : Prop :=
  a.st = b.st ∧ a.owner = b.owner ∧ (∀ k, k ∈ a.sh ↔ k ∈ b.sh) ∧ a.ver = b.ver ∧ a.ovf = false ∧ b.ovf = false

theorem Slice.mergeable_iff (x : Slice) (clock : Nat) :
    x.mergeable clock a b = true ↔ x.quiet clock a ∧ x.quiet clock b ∧ a.alike b := by
  have hsh : (∀ k, k ∈ a.sh ↔ k ∈ b.sh) ↔ (∀ k ∈ a.sh, k ∈ b.sh) ∧ ∀ k ∈ b.sh, k ∈ a.sh :=
    ⟨fun h => ⟨fun k => (h k).1, fun k => (h k).2⟩, fun h k => ⟨h.1 k, h.2 k⟩⟩
  simp only [Slice.mergeable, Slice.quiet, Node.alike, hsh, Bool.and_eq_true, decide_eq_true_eq, Bool.not_eq_true', beq_iff_eq,
    List.all_eq_true, List.contains_iff_mem]
  tauto

/-- `b` is the upper sibling of `a`: the two halves of one range. -/
structure Node.Siblings (a b : Node) : Prop where
  region : b.region = a.region
  level : b.level = a.level
  pos : 1 ≤ a.level
  le : a.level ≤ 10
  base : a.path % (2 * 2 ^ (10 - a.level)) = 0
  path : b.path = a.path + 2 ^ (10 - a.level)

/-- The node that siblings merge into (R54). -/
def Node.parent (a b : Node) : Node := { a with level := a.level - 1, used := max a.used b.used }

theorem Node.Siblings.path_ne (h : a.Siblings b) : b.path ≠ a.path := by
  have := Nat.two_pow_pos (10 - a.level)
  rw [h.path]
  omega

/-- A merge of the two siblings that a slice holds: their parent where R54 admits it, else nothing. -/
theorem onMerge_siblings (h : a.Siblings b) (hnodes : (s.sl sl).nodes = [a, b]) :
    s.onMerge sl a.region a.level a.path =
      if (s.sl sl).mergeable s.sclk a b then s.setSl sl { s.sl sl with nodes := [a.parent b] } else s := by
  have hlevel : ¬ (a.level = 0 ∨ 10 < a.level) := by have := h.pos; have := h.le; omega
  have hbase : a.path / (2 * 2 ^ (10 - a.level)) * (2 * 2 ^ (10 - a.level)) = a.path := Nat.div_mul_cancel (Nat.dvd_of_mod_eq_zero h.base)
  have hne : (a.path == b.path) = false := by simpa using h.path_ne.symm
  simp only [State.onMerge, if_neg hlevel, hbase, hnodes, ← h.path, List.find?_cons, h.region, h.level, hne, beq_self_eq_true, Bool.and_self,
    Bool.and_false, List.filter_cons, Node.sameKey, Bool.true_or, Bool.or_true, Bool.not_true, Bool.false_eq_true, if_false,
    List.filter_nil, List.nil_append]
  rfl

/-- A merge names no node where the level is not that of a sibling, or the slice holds none. -/
theorem onMerge_none {region level path : Nat} (h : level = 0 ∨ 10 < level ∨ (s.sl sl).nodes = []) : s.onMerge sl region level path = s := by
  rw [State.onMerge]
  rcases h with h | h | h <;> simp [h]

/-- What either sibling covers, the parent covers. -/
theorem Node.Siblings.parent_covers (h : a.Siblings b) {line : Nat} (hc : a.covers line = true ∨ b.covers line = true) :
    (a.parent b).covers line = true := by
  have hsize : 10 - (a.level - 1) = (10 - a.level) + 1 := by have := h.pos; have := h.le; omega
  have hhalf (n : Nat) : n / 2 ^ (10 - a.level + 1) = n / 2 ^ (10 - a.level) / 2 := by rw [Nat.pow_succ, Nat.div_div_eq_div_mul]
  have hpos := Nat.two_pow_pos (10 - a.level)
  have heven : a.path / 2 ^ (10 - a.level) % 2 = 0 := by
    obtain ⟨k, hk⟩ := Nat.dvd_of_mod_eq_zero h.base
    rw [hk, Nat.mul_comm 2, Nat.mul_assoc, Nat.mul_div_cancel_left _ hpos]
    omega
  have hupper : b.path / 2 ^ (10 - a.level) = a.path / 2 ^ (10 - a.level) + 1 := by rw [h.path, Nat.add_div_right _ hpos]
  simp only [Node.covers, Node.parent, h.region, h.level, hsize, hhalf, hupper, Bool.and_eq_true, beq_iff_eq] at hc ⊢
  omega

end Sys2Proof.Machine
end

section
/-!
CERTIFICATE. Merges of sibling nodes.
-/

open Sys2Proof Sys2Proof.Machine Sys2Proof.Laws

/-- Settles O53: the merge's test is R54's conditions, and the parent has the version and covers the lines of both. -/
theorem nodeMerge : Obligations.NodeMerge := by
  unfold Obligations.NodeMerge
  intro s sl a b x size quiet alike parent merge
  refine ⟨fun region level path h => steps_of_next rfl (onMerge_none h), fun hpos hle hnodes hregion hlevel hbase hpath => ?_⟩
  have hsib : a.Siblings b := ⟨hregion, hlevel, hpos, hle, hbase, hpath⟩
  have hmerge := onMerge_siblings hsib hnodes
  have htest := Slice.mergeable_iff (a := a) (b := b) (s.sl sl) s.sclk
  refine ⟨fun h => steps_of_next rfl (hmerge.trans (if_pos (htest.2 h))),
    fun h => steps_of_next rfl (hmerge.trans (if_neg fun hm => h (htest.1 hm))), fun line h hc => ?_⟩
  obtain ⟨-, -, -, -, -, hver, -⟩ := h
  exact ⟨hsib.parent_covers hc, rfl, hver⟩
end

section
/-!
SUPPORT. Sparse arrays and slices: a read after a write of anything but the default, from any list, canonical or not.
-/

namespace Sys2Proof.Machine

/-- A read at another key is unchanged by a write of anything but the default. -/
theorem Tbl.get_put_of_ne {α : Type} [DecidableEq α] {z x : α} {n m : Nat} (t : Tbl α) (hx : x ≠ z) (hm : m ≠ n) :
    Tbl.get z (Tbl.put z t n x) m = Tbl.get z t m := by
  induction t with
  | nil => simp [Tbl.put, Tbl.get, hx, hm.symm]
  | cons e t ih =>
    obtain ⟨k, v⟩ := e
    simp only [Tbl.put, hx, if_false]
    by_cases hlt : n < k
    · by_cases hkm : k = m
      · subst hkm; simp [hlt, Tbl.get, hm.symm, Nat.lt_asymm hlt]
      · by_cases hmn : m < n
        · simp [hlt, Tbl.get, hm.symm, hkm, hmn, Nat.lt_trans hmn hlt]
        · simp [hlt, Tbl.get, hm.symm, hmn]
    · by_cases hkn : k = n
      · subst hkn; simp [Tbl.get, hm.symm]
      · simp [hlt, hkn, Tbl.get, ih]

variable {s : State} {n m : Nat} {x y : Slice}

theorem State.sl_setSl (hx : x ≠ {}) : (s.setSl n x).sl n = x := Tbl.get_put_ne_default ({} : Slice) s.slices n x hx

theorem State.sl_setSl_of_ne (hx : x ≠ {}) (hm : m ≠ n) : (s.setSl n x).sl m = s.sl m := Tbl.get_put_of_ne s.slices hx hm

theorem State.setSl_setSl (hx : x ≠ {}) : (s.setSl n x).setSl n y = s.setSl n y := by
  simp only [State.setSl, Tbl.put_put ({} : Slice) s.slices n x y hx]

theorem Slice.ne_default_of_nodes (h : x.nodes ≠ []) : x ≠ {} := fun e => h (e ▸ rfl)
theorem Slice.ne_default_of_lines (h : x.lines ≠ []) : x ≠ {} := fun e => h (e ▸ rfl)
theorem Slice.ne_default_of_stable (h : x.stable ≠ []) : x ≠ {} := fun e => h (e ▸ rfl)

end Sys2Proof.Machine
end

section
/-!
SUPPORT. Units of one word that translate an address or send a request to a home: what they leave alone besides their effect, and the
pending result that they open (R62, R66, R67, R196, R349, R353 to R355).
-/

namespace Sys2Proof.Machine

/-! ## What a unit's completion reads -/

/-- The threads, the unit in issue and the clusters' counters of `s'` are those of `s`. -/
structure KeepsUnit (s s' : State) : Prop where
  threads : s'.threads = s.threads
  unit : s'.unit = s.unit
  cycle : ∀ c, (s'.clu c).cycle = (s.clu c).cycle

variable {s s1 s2 s' : State} {t u : Thread}

theorem KeepsUnit.rfl : KeepsUnit s s := ⟨.refl _, .refl _, fun _ => .refl _⟩

theorem KeepsUnit.trans (h : KeepsUnit s s1) (h' : KeepsUnit s1 s2) : KeepsUnit s s2 :=
  ⟨h'.threads.trans h.threads, h'.unit.trans h.unit, fun c => (h'.cycle c).trans (h.cycle c)⟩

theorem KeepsUnit.thr (h : KeepsUnit s s') (tk : Nat) : s'.thr tk = s.thr tk := congrArg (Tbl.get none · tk) h.threads

theorem finished_congr (hunit : s'.unit = s.unit) (hcycle : ∀ c, (s'.clu c).cycle = (s.clu c).cycle) (pc : Word) :
    finished s' pc u = finished s pc u := by
  simp [finished, hunit, hcycle]

/-- A C-class word that issues alone, does `s'` to the machine and leaves its thread as `u`, with nothing pending. -/
theorem Leaves2.word {i : Instr} {c : CSpec} {body : Thread → State → CRes} (h : Alone s t) (hi : exec i s = issueC c body s)
    (hpriv : c.priv = true → t.priv ≠ 0) (hk : KeepsUnit s s') (hb : body t s = .done (s'.setThr s.unit.tk u) none)
    (hfu : u.flumes = []) (hpu : u.pend = []) (hl : u.lastIssue = t.lastIssue) : Leaves2 i s s' u := by
  rw [Leaves2, hi, issueC_alone c body h hpriv, hb]
  simp only
  rw [State.retire_quiet _ _ t u c none (by simp) h.ports h.flumes h.pend hfu hpu hl, State.setThr_setThr]
  simp only [finished, State.setThr_unit, State.setThr_clu, hk.unit, hk.cycle, Option.getD_none]

/-- The same where the word's body leaves its thread as it is. -/
theorem Leaves2.stays {i : Instr} {c : CSpec} {body : Thread → State → CRes} (h : Alone s t) (hi : exec i s = issueC c body s)
    (hpriv : c.priv = true → t.priv ≠ 0) (hk : KeepsUnit s s') (hb : body t s = .done s' none) : Leaves2 i s s' t := by
  refine Leaves2.word h hi hpriv hk ?_ h.flumes h.pend rfl
  rw [hb, State.setThr_self s' _ t ((hk.thr _).trans h.thread)]

/-- A C-class word that issues alone, sends a request to a home and leaves the result pending. -/
theorem Awaits.homePend {i : Instr} {c : CSpec} {body : Thread → State → CRes} {la : Nat} {p : Pending} {e : Nat → Ev} (h : Alone s t)
    (hi : exec i s = issueC c body s) (hpriv : c.priv = true → t.priv ≠ 0) (hk : KeepsUnit s s')
    (hb : body t s = .done ((s'.setThr s.unit.tk u).homePend s.unit.tk la p e) none) (hfu : u.flumes = []) (hpu : u.pend = [])
    (hl : u.lastIssue = t.lastIssue) (hst : u.st = .ready) :
    Awaits i s ((s'.newTx s.unit.core).1.tickClock.later (e (s'.newTx s.unit.core).2)) u
      { p with id := s'.clock, window := la, upc := s.unit.addr, lanes := [{ src := .reply, txid := (s'.newTx s.unit.core).2, len := 8 }] } := by
  let q : Pending :=
    { p with id := s'.clock, window := la + 1, upc := s.unit.addr, lanes := [{ src := .reply, txid := (s'.newTx s.unit.core).2, len := 8 }] }
  have hsent : (s'.setThr s.unit.tk u).homePend s.unit.tk la p e =
      ((s'.newTx s.unit.core).1.tickClock.later (e (s'.newTx s.unit.core).2)).setThr s.unit.tk { u with pend := [q] } := by
    simp only [State.homePend, State.addPend, State.newTx, State.setThr_unit, State.modCore_unit, hk.unit, h.lone, if_true]
    rw [State.modThr_some _ _ u _ (by simp)]
    simp only [hpu, List.nil_append]
    exact congrArg (State.later · _) (State.setThr_setThr (s'.newTx s.unit.core).1.tickClock s.unit.tk u { u with pend := [q] })
  rw [Awaits, hi, issueC_alone c body h hpriv, hb, hsent]
  simp only
  rw [State.retire_awaits _ _ t u c q (by simp) h.ports h.flumes h.pend hfu hl hst, State.setThr_setThr]
  simp [finished, hk.unit, State.newTx, hk.cycle, q]

/-! ## Translation (R66, R67) -/

theorem installWay_ne_nil (n w : Nat) (l : List Xlat) (e : Xlat) : installWay n w l e ≠ [] := by simp [installWay]

theorem State.installCtu_keepsUnit (c : Option Nat) (e : Xlat) : KeepsUnit s (s.installCtu c e) := by
  cases c with
  | none => exact .rfl
  | some c =>
    refine ⟨rfl, rfl, fun j => ?_⟩
    let x : Cluster := { s.clu c with ctu := installWay 256 8 (s.clu c).ctu e }
    have hx : x ≠ {} := fun h => installWay_ne_nil 256 8 (s.clu c).ctu e (congrArg Cluster.ctu h)
    show (Tbl.get ({} : Cluster) (Tbl.put {} s.clusters c x) j).cycle = (s.clu j).cycle
    by_cases hj : j = c
    · rw [hj, Tbl.get_put_ne_default _ _ _ _ hx]
    · rw [Tbl.get_put_of_ne _ hx hj]; rfl

theorem State.installAtc_keepsUnit (e : Xlat) : KeepsUnit s (s.installAtc e) := ⟨rfl, rfl, fun _ => rfl⟩

/-- An outcome of a translation gives an address only in a state with the threads, unit and counters of `s`. -/
def XRes.Keeps (s : State) (r : XRes) : Prop := ∀ s1 pa, r = .pa s1 pa → KeepsUnit s s1

theorem XRes.Keeps.of_ne {r : XRes} (h : ∀ s1 pa, r ≠ .pa s1 pa) : r.Keeps s := fun s1 pa e => absurd e (h s1 pa)

theorem State.pageRequest_ne_pa (a : Access) (va : Nat) (s1 : State) (pa : Nat) : s.pageRequest a va ≠ .pa s1 pa := by
  unfold State.pageRequest
  dsimp only
  (repeat' split) <;> simp

theorem State.atsRequest_ne_pa (a : Access) (va : Nat) (s1 : State) (pa : Nat) : s.atsRequest a va ≠ .pa s1 pa := by
  unfold State.atsRequest
  dsimp only
  (repeat' split) <;> simp

theorem State.hit_keeps (hk : KeepsUnit s s1) (a : Access) (e : Xlat) (va : Nat) : (s1.hit a e va).Keeps s := by
  intro s2 pa h
  unfold State.hit State.lacking at h
  split at h
  · cases h
  · split at h
    · cases h; exact hk
    · split at h
      · cases h
      · exact absurd h (State.pageRequest_ne_pa a va s2 pa)

theorem State.translateGo_keeps (a : Access) (va vpn : Nat) (x : XState) : (s.translateGo a va vpn x).Keeps s := by
  unfold State.translateGo
  dsimp only
  split
  · rintro s1 pa ⟨⟩; exact .rfl
  · split
    · exact State.hit_keeps (State.installCtu_keepsUnit ..) _ _ _
    · split
      · exact State.hit_keeps ((State.installAtc_keepsUnit _).trans (State.installCtu_keepsUnit ..)) _ _ _
      · exact .of_ne (State.atsRequest_ne_pa a va)

/-- A thread's address that translates leaves the threads, the unit and the counters as they are. -/
theorem State.xlatThread_keepsUnit {tk va pa : Nat} {r w x : Bool} (h : s.xlatThread tk t va r w x = .pa s1 pa) : KeepsUnit s s1 := by
  revert s1 pa
  show (s.xlatThread tk t va r w x).Keeps s
  unfold State.xlatThread State.physical State.translate
  dsimp only
  split
  · split
    · rintro s1 pa ⟨⟩; exact .rfl
    · exact .of_ne (by simp)
  · split
    · split
      · exact .of_ne (by simp)
      · split
        · split
          · exact .of_ne (by simp)
          · exact State.translateGo_keeps _ _ _ _
        · exact State.translateGo_keeps _ _ _ _
    · exact .of_ne (by simp)

/-- An access of one piece to memory alone that translates and that no job holds back. -/
theorem State.memOnly_eq {tk va w pa : Nat} {ea : Word} {write : Bool} (htarget : s.target tk ea w w true false = .ok (.mem va))
    (hxlat : s.xlatThread tk t va (!write) write false = .pa s1 pa) (hfree : s.jobHolds tk (.mem va) w write = false) :
    s.memOnly tk t ea w write = .ok (s1, pa) := by
  simp [State.memOnly, htarget, State.planAll, hxlat, hfree]

/-! ## The L1's own copy (R62, R354) -/

/-- A message of an agent, other than a request, changes only what is under way. -/
theorem State.agentSend_keepsUnit {cls : Nat} (hcls : cls ≠ 0) (a : Nat) (e : Ev) :
    KeepsUnit s (s.agentSend a cls e) ∧ (s.agentSend a cls e).clock = s.clock := by
  unfold State.agentSend
  simp only [hcls, if_false]
  (repeat' split) <;> exact ⟨⟨rfl, rfl, fun _ => rfl⟩, rfl⟩

theorem State.replaceLine_keepsUnit (a line : Nat) : KeepsUnit s (s.replaceLine a line) ∧ (s.replaceLine a line).clock = s.clock := by
  have hset (x : ALine) : KeepsUnit s (s.setAl a line x) := ⟨rfl, rfl, fun _ => rfl⟩
  have hsent (x : ALine) (e : Ev) := State.agentSend_keepsUnit (s := s.setAl a line x) (cls := 3) (by decide) a e
  unfold State.replaceLine
  dsimp only
  split <;> exact ⟨(hset _).trans (hsent _ _).1, (hsent _ _).2⟩

/-- An L1 that gives up its copy either has none or replaces it. -/
theorem State.flushLine_cases {c line : Nat} (h : s.flushLine c line = some s2) : s2 = s ∨ s2 = s.replaceLine c line := by
  unfold State.flushLine at h
  dsimp only at h
  split at h
  case h_1 => exact .inl (Option.some.inj h).symm
  case h_6 => cases h
  all_goals exact .inr (Option.some.inj h).symm

theorem State.flushLine_keepsUnit {c line : Nat} (h : s.flushLine c line = some s2) : KeepsUnit s s2 ∧ s2.clock = s.clock := by
  rcases State.flushLine_cases h with rfl | rfl
  · exact ⟨.rfl, rfl⟩
  · exact State.replaceLine_keepsUnit c line

/-- With no result pending and no store buffered, no access of the thread holds a line. -/
theorem Thread.lineClear_of_idle (hpend : t.pend = []) (hsbuf : t.sbuf = []) (line : Nat) : t.lineClear line = true := by
  simp [Thread.lineClear, Thread.lineHeld, hpend, hsbuf]

/-! ## Load-locked and store-conditional (R62, R349) -/

section locked
variable {tk la w d pa : Nat} {ea x : Word} (hthr : s.thr tk = some t) (hmem : s.memOnly tk t ea w true = .ok (s1, pa))
include hthr hmem

/-- LDLK links the line and sends LLK with the epoch advanced. -/
theorem State.ldlk_eq (hclear : t.lineClear (pa / 64) = true) (hthr2 : s2.thr tk = some t)
    (hflush : s1.flushLine s.unit.core (pa / 64) = some s2) :
    s.ldlk tk la ea w d = .done ((s2.setThr tk { t with epoch := t.epoch + 1, link := some (pa / 64) }).homePend tk la
      { kind := .locked, dsts := [.g d], fin := .gs d w, line := some (pa / 64) } fun tx =>
        .llk { src := s.unit.core, dst := homeId (homeOf (pa / 64)), txid := tx, line := pa / 64, off := pa % 64, len := w,
               thread := slotOfTk tk, epoch := t.epoch + 1 }) none := by
  simp [State.ldlk, hthr, hmem, hclear, hflush, State.modThr_some s2 tk t _ hthr2]

/-- STCK whose link names the line sends SCK. -/
theorem State.stck_linked (hclear : t.lineClear (pa / 64) = true) (hthr1 : s1.thr tk = some t) (hlink : t.link = some (pa / 64)) :
    s.stck tk la ea x w d = .done ((s1.setThr tk { t with link := none }).homePend tk la
      { kind := .locked, dsts := [.g d], fin := .gz d 8, line := some (pa / 64) } fun tx =>
        .sck { src := s.unit.core, dst := homeId (homeOf (pa / 64)), txid := tx, line := pa / 64, off := pa % 64, len := w,
               thread := slotOfTk tk, epoch := t.epoch, data := some (x.setWidth 512) }) none := by
  simp [State.stck, hthr, hmem, hclear, hlink, State.modThr_some s1 tk t _ hthr1]

/-- STCK without the link writes status 1. -/
theorem State.stck_unlinked (hthr1 : s1.thr tk = some t) (hports : t.portcfg = 0) (hlink : t.link ≠ some (pa / 64)) :
    s.stck tk la ea x w d = .done (s1.setThr tk ({ t with link := none }.wg d 1)) none := by
  have hone : word (bytesAt 1 0 8) = 1 := by simp [bytesAt, word]
  have hbind : (s1.setThr tk { t with link := none }).bindFin tk (.gz d 8) 1 = s1.setThr tk ({ t with link := none }.wg d 1) := by
    rw [State.bindFin, hone, State.writeG_plain tk d 1 { t with link := none } (State.thr_setThr s1 tk _) hports, State.setThr_setThr]
  simp only [State.stck, hthr, hmem, hlink, if_false, State.modThr_some s1 tk t _ hthr1, hbind]

end locked

/-! ## Fences (R176, R353) -/

/-- A fence at scope .thr of a thread at home orders nothing. -/
theorem State.scopeOf_eq_thr_iff (tk : Nat) (sc : Scope) : s.scopeOf tk t sc = .thr ↔ sc = .thr ∧ s.away tk t = false := by
  cases h : s.away tk t <;> cases sc <;> simp [State.scopeOf, h]

/-- With no result pending, a thread's accesses are performed once it has no store buffered and no remote store under way. -/
theorem Thread.performed_iff (hpend : t.pend = []) : t.performed = true ↔ t.sbuf = [] ∧ t.remote = [] := by
  rw [Thread.performed, hpend, List.all_nil, Bool.and_true, Bool.and_eq_true, List.isEmpty_iff, List.isEmpty_iff]

/-- With no result pending, an acquire fence waits for nothing, another for the buffered and the remote stores. -/
theorem Thread.fenceDone_iff (hpend : t.pend = []) (k : FenceKind) : t.fenceDone k = true ↔ k = .acq ∨ (t.sbuf = [] ∧ t.remote = []) := by
  have hreads : t.readsBound = true := by rw [Thread.readsBound, hpend, List.all_nil]
  cases k <;> simp [Thread.fenceDone, hreads, Thread.performed_iff hpend]

/-- A unit refused while its thread is READY changes nothing of the thread but the park value (R197). -/
theorem State.waitUnit_ready {tk : Nat} (hthr : s.thr tk = some t) (hst : t.st = .ready) :
    s.waitUnit tk .ready none = { s.setThr tk { t with park := none } with unit := { s.unit with refused := true } } := by
  have hkeeps : ({ t with st := .ready, park := none } : Thread) = { t with park := none } := by rw [← hst]
  rw [State.waitUnit, State.modThr_some s tk t _ hthr, hkeeps]
  rfl

end Sys2Proof.Machine
end

section
/-!
CERTIFICATE. Load-locked and store-conditional, fences, and the wait on an address.
-/

open Sys2Proof Sys2Proof.Machine

theorem loadLockedResults : Claims.LoadLockedResults := by
  intro s s1 t pa h hst hsbuf p d a b l w ld st hforms tk core ea line home htarget hxlat hfree
  have hk := State.xlatThread_keepsUnit hxlat
  have hmem : s.memOnly tk t ea w true = .ok (s1, pa) := State.memOnly_eq htarget hxlat hfree
  have hclear := Thread.lineClear_of_idle h.pend hsbuf line
  have hthr1 : s1.thr tk = some t := (hk.thr tk).trans h.thread
  obtain ⟨c, c', hp, hp', hld, hst'⟩ : ∃ c c' : CSpec, c.priv = false ∧ c'.priv = false ∧
      exec ld s = issueC c (fun u s => s.ldlk s.unit.tk l.toNat (u.rg a.toNat) w d.toNat) s ∧
      exec st s = issueC c' (fun u s => s.stck s.unit.tk l.toNat (u.rg a.toNat) (u.rg b.toNat) w d.toNat) s := by
    simp only [List.mem_cons, Prod.mk.injEq, List.not_mem_nil, or_false] at hforms
    rcases hforms with ⟨rfl, rfl, rfl⟩ | ⟨rfl, rfl, rfl⟩ <;> exact ⟨_, _, rfl, rfl, rfl, rfl⟩
  refine ⟨fun s2 hflush => ?_, fun hlink => ?_, fun hlink => ?_⟩
  · have hk2 := hk.trans (State.flushLine_keepsUnit hflush).1
    have hsent := Awaits.homePend h hld (by simp [hp]) hk2
      (State.ldlk_eq h.thread hmem hclear ((hk2.thr tk).trans h.thread) hflush) h.flumes h.pend rfl hst
    rwa [(State.flushLine_keepsUnit hflush).2] at hsent
  · exact Awaits.homePend h hst' (by simp [hp']) hk (State.stck_linked h.thread hmem hclear hthr1 hlink) h.flumes h.pend rfl hst
  · exact Leaves2.word h hst' (by simp [hp']) hk (State.stck_unlinked h.thread hmem hthr1 h.ports hlink) (by simp [h.flumes])
      (by simp [h.pend]) (by simp)

theorem fenceAndWaitResults : Claims.FenceAndWaitResults := by
  intro s t h hst p d a b l tk atThr
  have hthr : s.thr s.unit.tk = some t := h.thread
  have hfence (k : FenceKind) (sc : Scope) : ∃ body, exec (.fence p k sc) s = issueC {} body s ∧
      body t s = if atThr sc ∨ k = .acq ∨ (t.sbuf = [] ∧ t.remote = []) then .done s none else .wait s .ready none := by
    refine ⟨_, rfl, ?_⟩
    simp only [hthr, State.scopeOf_eq_thr_iff, Thread.fenceDone_iff h.pend]
    rfl
  refine ⟨fun k sc hdone => ?_, fun k sc hscope hacq hwaits => ?_, fun s1 s2 pa hsbuf htarget hxlat hfree hflush => ?_⟩
  · obtain ⟨body, hexec, hbody⟩ := hfence k sc
    exact Goes.stays h hexec (by simp) (hbody.trans (if_pos hdone))
  · obtain ⟨body, hexec, hbody⟩ := hfence k sc
    have hnot : ¬ (atThr sc ∨ k = .acq ∨ (t.sbuf = [] ∧ t.remote = [])) := by tauto
    rw [hexec, issueC_alone _ _ h (by simp), hbody.trans (if_neg hnot)]
    exact congrArg _ (State.waitUnit_ready hthr hst)
  · have hk := State.xlatThread_keepsUnit hxlat
    have hk2 := hk.trans (State.flushLine_keepsUnit hflush).1
    have hmem : s.memOnly s.unit.tk t (t.rg a.toNat) 8 false = .ok (s1, pa) := State.memOnly_eq htarget hxlat hfree
    have hself : s2.setThr s.unit.tk t = s2 := State.setThr_self s2 _ t ((hk2.thr _).trans hthr)
    obtain ⟨c, body, hpriv, hexec, hbody⟩ : ∃ (c : CSpec) (body : Thread → State → CRes), c.priv = false ∧
        exec (.waita p d a b l) s = issueC c body s ∧ body t s = .done ((s2.setThr s.unit.tk t).homePend s.unit.tk l.toNat
          { kind := .waita, dsts := [.g d.toNat], fin := .gz d.toNat 8 } fun tx =>
            .watch { src := s.unit.core, dst := homeId (homeOf (pa / 64)), txid := tx, line := pa / 64, off := pa % 64,
                     len := 8, thread := slotOfTk s.unit.tk, data := some ((t.rg b.toNat).setWidth 512) }) none := by
      refine ⟨_, _, ?_, rfl, ?_⟩
      · rfl
      · simp [hthr, hmem, Thread.lineClear_of_idle h.pend hsbuf, hflush, hself]
    have hsent := Awaits.homePend h hexec (by simp [hpriv]) hk2 hbody h.flumes h.pend rfl hst
    rwa [(State.flushLine_keepsUnit hflush).2] at hsent

/-- Settles O44: load-locked and store-conditional, and the fences with the wait on an address. -/
theorem lockedAndFenceResults : Obligations.LockedAndFenceResults := ⟨loadLockedResults, fenceAndWaitResults⟩
end

section
/-!
SUPPORT. Broadcast regions and stable ranges: one home's part, and all homes in turn (R55, R95, R97, R410).
-/

namespace Sys2Proof.Machine

variable {s s' : State}

/-! ## Operands -/

theorem field_48_16_eq_zero (x : Word) : field x 48 16 = 0 ↔ x.toNat < 2 ^ 48 := by
  have := x.isLt
  simp only [field, bits]
  omega

theorem field_16_32 {x : Word} (h : x.toNat < 2 ^ 48) : field x 16 32 = x.toNat / 2 ^ 16 := by
  simp only [field, bits]
  omega

/-- The range that an operand of bits [47:0] names: its first unit in bits [47:21], the number of the others in [20:0]. -/
theorem stabRange_eq {x : Word} (h : x.toNat < 2 ^ 48) : stabRange x = (x.toNat / 2 ^ 21, x.toNat % 2 ^ 21 + 1) := by
  simp only [stabRange, field, bits, Prod.mk.injEq]
  omega

/-! ## All homes in turn -/

/-- Each home in turn does its part `f`, and the results are joined; where every home is done, the parts are those of `g`. -/
theorem foldS_done {f : Nat → State → State × Bool} {g : State → Nat → State} {inv : List Nat → State → Prop}
    (hstep : ∀ sl l u, inv (sl :: l) u → f sl u = (g u sl, true) ∧ inv l (g u sl)) (l : List Nat) (u : State) (h : inv l u) :
    foldS (fun sl (acc : State × Bool) => ((f sl acc.1).1, acc.2 && (f sl acc.1).2)) l (u, true) = (l.foldl g u, true) := by
  induction l generalizing u with
  | nil => rfl
  | cons sl l ih =>
    obtain ⟨hf, hinv⟩ := hstep sl l u h
    simpa [foldS, hf] using ih (g u sl) hinv

theorem foldl_keepsUnit {α : Type} {g : State → α → State} (hg : ∀ u a, KeepsUnit u (g u a)) (l : List α) (s : State) :
    KeepsUnit s (l.foldl g s) := by
  induction l generalizing s with
  | nil => exact .rfl
  | cons a l ih => exact (hg s a).trans (ih _)

theorem State.modSl_keepsUnit (n : Nat) (f : Slice → Slice) : KeepsUnit s (s.modSl n f) := ⟨rfl, rfl, fun _ => rfl⟩

theorem State.bmv_keepsUnit (b : Bmv) : KeepsUnit s { s with bmv := b } := ⟨rfl, rfl, fun _ => rfl⟩

theorem State.retrySoon_keepsUnit (sl : Nat) : KeepsUnit s (s.retrySoon sl) := by
  unfold State.retrySoon
  split
  · exact .rfl
  · exact ⟨by simp, by simp, by simp⟩

/-! ## DSBCAST (R55) -/

/-- A home takes a BCAST node of a region, used now. -/
def State.addBcast (s : State) (region now sl : Nat) : State :=
  s.modSl sl fun y => { y with
    nodes := y.nodes ++ [{ region := region, level := 0, path := 0, st := .bcast, ver := Tbl.get 0 y.setVer (setOf region), used := now }] }

/-- A home that has no node of a region and a free way in the region's set. -/
def Slice.hasRoom (x : Slice) (region : Nat) : Prop := (∀ n ∈ x.nodes, n.region ≠ region) ∧ x.setUsed region < 16

theorem State.bcastHome_done {region sl : Nat} (h : (s.sl sl).hasRoom region) :
    s.bcastHome region sl = (s.addBcast region s.sclk sl, true) := by
  obtain ⟨hnodes, hset⟩ := h
  have hnone : (s.sl sl).nodes.filter (fun n => n.region == region) = [] := by simpa using hnodes
  have hany : ((s.sl sl).nodes.any fun n => n.region == region) = false := by simpa using hnodes
  simp [State.bcastHome, hnone, foldS, hany, hset, State.addBcast, State.modSl]

/-- Every home in turn takes the BCAST node. -/
theorem bcast_homes {region : Nat} {l : List Nat} (hl : l.Nodup) (h : ∀ sl ∈ l, (s.sl sl).hasRoom region) :
    foldS (fun sl (acc : State × Bool) => ((acc.1.bcastHome region sl).1, acc.2 && (acc.1.bcastHome region sl).2)) l (s, true) =
      (l.foldl (fun u sl => u.addBcast region s.sclk sl) s, true) := by
  refine foldS_done (f := fun sl u => u.bcastHome region sl)
    (inv := fun l u => l.Nodup ∧ u.sclk = s.sclk ∧ ∀ sl ∈ l, (u.sl sl).hasRoom region) (fun sl l u hinv => ?_) l s ⟨hl, rfl, h⟩
  obtain ⟨hnodup, hclock, hroom⟩ := hinv
  obtain ⟨hnotin, hnodup⟩ := List.nodup_cons.1 hnodup
  refine ⟨hclock ▸ State.bcastHome_done (hroom sl List.mem_cons_self), hnodup, hclock, fun m hm => ?_⟩
  have hne : m ≠ sl := fun e => hnotin (e ▸ hm)
  rw [State.addBcast, State.modSl, State.sl_setSl_of_ne (Slice.ne_default_of_nodes (by simp)) hne]
  exact hroom m (List.mem_cons_of_mem _ hm)

/-! ## DSSTAB (R95, R97) -/

/-- What `KeepsUnit` says, and the slices of `s'` are those of `s`. -/
def KeepsSlices (s s' : State) : Prop := KeepsUnit s s' ∧ s'.slices = s.slices

theorem KeepsSlices.trans {s1 s2 : State} (h : KeepsSlices s s1) (h' : KeepsSlices s1 s2) : KeepsSlices s s2 :=
  ⟨h.1.trans h'.1, h'.2.trans h.2⟩

theorem State.onBhalt_keeps (u : Nat) : KeepsSlices s (s.onBhalt u) := by
  unfold State.onBhalt
  dsimp only
  (repeat' split) <;> exact ⟨⟨rfl, rfl, fun _ => rfl⟩, rfl⟩

theorem State.onBres_keeps (u : Nat) : KeepsSlices s (s.onBres u) := by
  unfold State.onBres
  split <;> exact ⟨⟨rfl, rfl, fun _ => rfl⟩, rfl⟩

theorem State.dramStore_keeps (line : Nat) (d : Vec) (poison : Bool) : KeepsSlices s (s.dramStore line d poison) := by
  unfold State.dramStore
  generalize bytesOfVec d = l
  exact ⟨⟨rfl, rfl, fun _ => rfl⟩, rfl⟩

theorem State.pauseBanks_keeps (pa : Nat) {f : State → State} (hf : ∀ u : State, KeepsSlices u (f u)) : KeepsSlices s (s.pauseBanks pa f) := by
  unfold State.pauseBanks
  generalize s.winLo = lo, s.winHi = hi, s.bankUnits = n
  extract_lets u
  split
  · exact ((State.onBhalt_keeps u).trans (hf _)).trans (State.onBres_keeps u)
  · exact hf s

/-- A write of a line to DRAM changes no slice, and nothing that a unit's completion reads. -/
theorem State.dramPutLine_keeps (line : Nat) (d : Vec) (poison : Bool) : KeepsSlices s (s.dramPutLine line d poison) :=
  State.pauseBanks_keeps _ fun _ => State.dramStore_keeps line d poison

theorem State.sl_cleanLine (sl line m : Nat) :
    ((s.cleanLine sl line).sl m).nodes = (s.sl m).nodes ∧ ((s.cleanLine sl line).sl m).txns = (s.sl m).txns := by
  unfold State.cleanLine
  split
  next d _ =>
    split
    · have hsl (k : Nat) : (s.dramPutLine line d.data d.poison).sl k = s.sl k :=
        congrArg (Tbl.get ({} : Slice) · k) (State.dramPutLine_keeps line d.data d.poison).2
      have hx : ((s.sl sl).putData line { d with dirty := false }) ≠ {} := Slice.ne_default_of_lines (by simp [Slice.putData])
      by_cases hm : m = sl
      · simp only [hm, State.modSl, hsl, State.sl_setSl hx]
        exact ⟨rfl, rfl⟩
      · simp only [State.modSl, hsl, State.sl_setSl_of_ne hx hm]
        exact ⟨trivial, trivial⟩
    · exact ⟨rfl, rfl⟩
  · exact ⟨rfl, rfl⟩

theorem State.cleanLine_keepsUnit (sl line : Nat) : KeepsUnit s (s.cleanLine sl line) := by
  unfold State.cleanLine
  split
  · split
    · exact (State.dramPutLine_keeps _ _ _).1.trans (State.modSl_keepsUnit _ _)
    · exact .rfl
  · exact .rfl

/-- The dirty lines of a range that a home holds go to DRAM. -/
def State.cleanRange (s : State) (r : Nat × Nat) (sl : Nat) : State :=
  (s.sl sl).lines.foldl (fun u e => if inStab r (e.1 / 32768) then u.cleanLine sl e.1 else u) s

/-- No node of a range in the slice has an owner, and no transaction is open on a line of it. -/
def Slice.released (x : Slice) (r : Nat × Nat) : Prop :=
  (∀ n ∈ x.nodes, inStab r (n.region / 32) = true → n.st ≠ .own) ∧ ∀ q ∈ x.txns, inStab r (q.line / 32768) = false

theorem State.stabHome_done {r : Nat × Nat} {sl : Nat} (h : (s.sl sl).released r) : s.stabHome r sl = (s.cleanRange r sl, true) := by
  obtain ⟨hnodes, htxns⟩ := h
  have hnone : (s.sl sl).nodes.filter (fun n => inStab r (n.region / 32) && n.st == .own) = [] := by simpa using hnodes
  have hany : ((s.sl sl).txns.any fun t => inStab r (t.line / 32768)) = false := by simpa using htxns
  simp [State.stabHome, hnone, foldS, hany, State.cleanRange]

/-- Cleaning lines keeps every slice's nodes and transactions, so it releases no range and takes none back. -/
theorem State.sl_cleanRange (r : Nat × Nat) (sl m : Nat) :
    ((s.cleanRange r sl).sl m).nodes = (s.sl m).nodes ∧ ((s.cleanRange r sl).sl m).txns = (s.sl m).txns := by
  unfold State.cleanRange
  generalize (s.sl sl).lines = l
  induction l generalizing s with
  | nil => exact ⟨rfl, rfl⟩
  | cons e l ih =>
    simp only [List.foldl_cons]
    split
    · exact ⟨ih.1.trans (State.sl_cleanLine sl e.1 m).1, ih.2.trans (State.sl_cleanLine sl e.1 m).2⟩
    · exact ih

theorem State.cleanRange_keepsUnit (r : Nat × Nat) (sl : Nat) : KeepsUnit s (s.cleanRange r sl) :=
  foldl_keepsUnit (fun u e => by
    split
    · exact State.cleanLine_keepsUnit sl e.1
    · exact .rfl) _ s

/-- Every home in turn cleans its lines of a range that all have released. -/
theorem stab_homes {r : Nat × Nat} {l : List Nat} (h : ∀ sl ∈ l, (s.sl sl).released r) :
    foldS (fun sl (acc : State × Bool) => ((acc.1.stabHome r sl).1, acc.2 && (acc.1.stabHome r sl).2)) l (s, true) =
      (l.foldl (fun u sl => u.cleanRange r sl) s, true) := by
  refine foldS_done (f := fun sl u => u.stabHome r sl) (inv := fun l u => ∀ sl ∈ l, (u.sl sl).released r) (fun sl l u hinv => ?_) l s h
  refine ⟨State.stabHome_done (hinv sl List.mem_cons_self), fun m hm => ?_⟩
  have hm := hinv m (List.mem_cons_of_mem _ hm)
  simpa only [Slice.released, State.sl_cleanRange] using hm

/-- A home holds the writes to some units of 2 MiB. -/
def State.holdUnits (s : State) (units : List Nat) (sl : Nat) : State := s.modSl sl fun y => { y with stable := y.stable ++ units }

theorem State.sl_holdUnits {units : List Nat} (hu : units ≠ []) (sl m : Nat) :
    ((s.holdUnits units sl).sl m).nodes = (s.sl m).nodes ∧ ((s.holdUnits units sl).sl m).txns = (s.sl m).txns := by
  have hx : ({ s.sl sl with stable := (s.sl sl).stable ++ units } : Slice) ≠ {} := Slice.ne_default_of_stable (by simp [hu])
  unfold State.holdUnits State.modSl
  by_cases hm : m = sl
  · rw [hm, State.sl_setSl hx]
    exact ⟨rfl, rfl⟩
  · rw [State.sl_setSl_of_ne hx hm]
    exact ⟨rfl, rfl⟩

/-- A range that all homes have released stays so while they begin to hold its writes. -/
theorem released_holdUnits {r : Nat × Nat} {units : List Nat} (hu : units ≠ []) (l : List Nat) {m : Nat} (h : (s.sl m).released r) :
    ((l.foldl (fun u sl => u.holdUnits units sl) s).sl m).released r := by
  induction l generalizing s with
  | nil => exact h
  | cons sl l ih => exact ih (by simpa only [Slice.released, State.sl_holdUnits hu] using h)

end Sys2Proof.Machine
end

section
/-!
CERTIFICATE. Broadcast regions and stable ranges.
-/

open Sys2Proof Sys2Proof.Machine Sys2Proof.Laws

section
variable {s : State} {t : Thread} {p : Bool} {a : BitVec 5} {x : Word} {r : Nat × Nat} (h : Alone s t) (hpriv : t.priv ≠ 0)
  (hx : t.rg a.toNat = x) (hhigh : x.toNat < 2 ^ 48)
include h hpriv hx hhigh

/-- DSBCAST where every home has room and no node of the region. -/
theorem dsbcast_leaves (hlow : x.toNat % 2 ^ 16 = 0) (hroom : ∀ sl < 64, (s.sl sl).hasRoom (x.toNat / 2 ^ 16)) :
    Leaves2 (.dsbcast p a) s ((List.range 64).foldl (fun u sl => u.addBcast (x.toNat / 2 ^ 16) s.sclk sl) s) t := by
  have hhomes := bcast_homes List.nodup_range fun sl hsl => hroom sl (List.mem_range.1 hsl)
  have hk : KeepsUnit s ((List.range 64).foldl (fun u sl => u.addBcast (x.toNat / 2 ^ 16) s.sclk sl) s) :=
    foldl_keepsUnit (fun u sl => State.modSl_keepsUnit sl _) _ s
  refine Leaves2.stays h rfl (fun _ => hpriv) hk ?_
  simp only [hx, field_low, hlow, (field_48_16_eq_zero x).2 hhigh, field_16_32 hhigh, hhomes, ne_eq, not_true_eq_false, or_self, if_true, if_false]

/-- DSSTAB of a new range that fits and that every home has released. -/
theorem dsstab_leaves (hr : stabRange x = r) (hfew : (s.bmv.stable ++ s.bmv.declaring.filter (· != r)).length < 64)
    (hapart : ∀ q ∈ s.bmv.stable ++ s.bmv.declaring.filter (· != r), overlap q.1 q.2 r.1 r.2 = false)
    (htop : (r.1 + r.2) * 2 ^ 21 ≤ s.memTop) (hnew : r ∉ s.bmv.declaring) (hreleased : ∀ sl < 64, (s.sl sl).released r)
    {held clean : State} (hbegin : (List.range 64).foldl (fun u sl => u.holdUnits ((List.range r.2).map (· + r.1)) sl)
      { s with bmv := { s.bmv with declaring := s.bmv.declaring ++ [r] } } = held)
    (hclean : (List.range 64).foldl (fun u sl => u.cleanRange r sl) held = clean) :
    Leaves2 (.dsstab p a) s
      { clean with bmv := { clean.bmv with declaring := clean.bmv.declaring.filter (· != r), stable := clean.bmv.stable ++ [r] } } t := by
  have hunits : (List.range r.2).map (· + r.1) ≠ [] := by simp [← hr, stabRange]
  have hheld : s.startStab r = held := by simpa [State.startStab, hnew, foldS, State.holdUnits] using hbegin
  have hk : KeepsUnit s clean := hclean ▸ hbegin ▸
    ((State.bmv_keepsUnit _).trans (foldl_keepsUnit (fun u sl => State.modSl_keepsUnit sl _) _ _)).trans
      (foldl_keepsUnit (fun u sl => State.cleanRange_keepsUnit r sl) _ _)
  have hhomes : foldS (fun sl (acc : State × Bool) => ((acc.1.stabHome r sl).1, acc.2 && (acc.1.stabHome r sl).2)) (List.range 64)
      (held, true) = (clean, true) := by
    rw [← hclean]
    refine stab_homes fun sl hsl => ?_
    rw [← hbegin]
    exact released_holdUnits hunits _ (s := { s with bmv := _ }) (hreleased sl (List.mem_range.1 hsl))
  refine Leaves2.stays h rfl (fun _ => hpriv) (hk.trans (State.bmv_keepsUnit _)) ?_
  have hgood : ¬ (field x 48 16 ≠ 0 ∨ 64 ≤ (s.bmv.stable ++ s.bmv.declaring.filter (· != r)).length ∨
      ((s.bmv.stable ++ s.bmv.declaring.filter (· != r)).any fun q => overlap q.1 q.2 r.1 r.2) = true ∨ s.memTop < (r.1 + r.2) * 2 ^ 21) := by
    simp only [(field_48_16_eq_zero x).2 hhigh, List.any_eq_true]
    push Not
    exact ⟨rfl, hfew, by simpa using hapart, htop⟩
  simp only [hx, hr, hgood, hheld, hhomes, if_true, if_false]

/-- DSREL of a declared range by a thread whose accesses are performed. -/
theorem dsrel_leaves (hr : stabRange x = r) (hmem : r ∈ s.bmv.stable) (hdone : t.performed = true) :
    Leaves2 (.dsrel p a) s ((List.range 64).foldl (fun u sl => (u.modSl sl fun y => { y with
      stable := y.stable.filter fun n => !inStab r n }).retrySoon sl) { s with bmv := { s.bmv with stable := s.bmv.stable.filter (· != r) } }) t := by
  refine Leaves2.stays h rfl (fun _ => hpriv) ((State.bmv_keepsUnit _).trans
    (foldl_keepsUnit (fun u sl => (State.modSl_keepsUnit sl _).trans (State.retrySoon_keepsUnit sl)) _ _)) ?_
  have hthr : s.thr s.unit.tk = some t := h.thread
  simp only [hx, hr, (field_48_16_eq_zero x).2 hhigh, hthr, hdone]
  simp [hmem]
  rfl

end

/-- Settles O14: each form's traps are its operand checks; each home in turn does its part, and none holds the thread back. -/
theorem directoryRangeResults : Obligations.DirectoryRangeResults := by
  intro s t h hpriv p a x region r units others inRange
  have hfield : field x 48 16 ≠ 0 ↔ 2 ^ 48 ≤ x.toNat := by rw [Ne, field_48_16_eq_zero, not_lt]
  have hlow : field x 0 16 = x.toNat % 2 ^ 16 := field_low x 16
  refine ⟨fun hbad => ?_, fun hlow0 hhigh hroom => dsbcast_leaves h hpriv rfl hhigh hlow0 hroom, fun hbad => ?_,
    fun hhigh hfew hapart htop hnew hreleased =>
      dsstab_leaves (r := r) h hpriv rfl hhigh (stabRange_eq hhigh) hfew hapart htop hnew hreleased rfl rfl,
    fun hbad => ?_, fun hhigh hmem hsbuf hremote =>
      dsrel_leaves (r := r) h hpriv rfl hhigh (stabRange_eq hhigh) hmem ((Thread.performed_iff h.pend).2 ⟨hsbuf, hremote⟩)⟩
  · exact Traps.word h rfl (fun _ => hpriv) (if_pos (by rwa [hlow, hfield]))
  · refine Traps.word h rfl (fun _ => hpriv) (if_pos ?_)
    rcases lt_or_ge x.toNat (2 ^ 48) with hhigh | hhigh
    · have hr : stabRange (t.rg a.toNat) = r := stabRange_eq hhigh
      rw [hr, List.any_eq_true]
      exact hbad.imp_left hfield.2
    · exact .inl (hfield.2 hhigh)
  · refine Traps.word h rfl (fun _ => hpriv) (if_pos ?_)
    rcases lt_or_ge x.toNat (2 ^ 48) with hhigh | hhigh
    · have hr : stabRange (t.rg a.toNat) = r := stabRange_eq hhigh
      rw [hr]
      exact hbad.imp hfield.2 (by simp)
    · exact .inl (hfield.2 hhigh)
end

section
/-!
SUPPORT. Steps of the networks' messages: a message with no reserved bit set is handled as it is, and a core's message passes no credit
of the host port (R44, R154).
-/

namespace Sys2Proof.Machine

variable {s s' : State} {a : Nat}

/-- A core is no agent of the host die. -/
theorem isEci_of_core (ha : a < 64) : isEci a = false := by simp [isEci]; omega

theorem State.intake_plain {m : Msg} (hm : m.rsv = false) (cls : Nat) (f : State → State) : s.intake m cls f = f s := by
  simp [State.intake, hm]

/-- A message with no reserved bit set does what its handler does. -/
theorem steps_of_msg {i : Instr} {m : Msg} {cls : Nat} {f : State → State} (hi : exec i s = msgEvent m cls f s) (hm : m.rsv = false)
    (h : f s = s') : Steps i s s' :=
  hi.trans (congrArg _ ((State.intake_plain hm cls f).trans h))

section core
variable (ha : isEci a = false) (cls : Nat) (e : Ev)
include ha

theorem State.hostCredit_core : s.hostCredit a cls = s := by simp [State.hostCredit, ha]

theorem State.returnCredit_core : s.returnCredit a cls = s := by simp [State.returnCredit, ha]

theorem State.agentSend_core : s.agentSend a cls e = s.later e := by simp [State.agentSend, ha]

theorem State.sendRsp_core : s.sendRsp a e = s.later e := by simp [State.sendRsp, State.sendCredit, ha]

theorem State.sendSnp_core : s.sendSnp a e = s.later e := by simp [State.sendSnp, State.sendCredit, ha]

end core

end Sys2Proof.Machine
end

section
/-!
SUPPORT. Replies at a core (R46, R47, R61 to R63).
-/

namespace Sys2Proof.Machine

variable {s : State} {m : Msg}

theorem State.serveWaiting_core {a : Nat} (ha : a < 64) (line : Nat) : s.serveWaiting a line = (s.kick a line).kickAll a := if_pos ha

/-- The state of a line that a data reply installs, as its requester waits. -/
def AState.admits (st grant : AState) (data : Bool) : Prop :=
  (st = .isD ∧ data = true) ∨ (st = .imD ∧ grant = .m ∧ data = true) ∨ ((st = .smA ∨ st = .omA) ∧ grant = .m)

/-- A data reply that the line's state admits installs the line. -/
theorem State.dataReply_admitted (hdst : m.dst < 64) {grant : AState} (h : AState.admits (s.al m.dst m.line).st grant m.data.isSome) :
    s.dataReply grant m =
      (((s.setAl m.dst m.line { s.al m.dst m.line with
        st := grant, ver := m.ver, data := m.data.getD (s.al m.dst m.line).data
        poison := if m.data.isSome then m.poison else (s.al m.dst m.line).poison, used := s.clock }).kick m.dst m.line).kickAll m.dst).applyDeferred
          m.dst m.line := by
  unfold State.dataReply
  rw [← State.serveWaiting_core hdst]
  refine if_pos ?_
  rcases h with ⟨hst, hdata⟩ | ⟨hst, rfl, hdata⟩ | ⟨hst | hst, rfl⟩ <;> simp [*]

/-- A data reply to a line that waits for none is a corrected error of the interface. -/
theorem State.dataReply_odd (hdst : m.dst < 64) (h : (s.al m.dst m.line).st.transient = false) (grant : AState) :
    s.dataReply grant m = s.corrected (.netInterface m.dst) (word (64 * m.line)) := by
  have hodd : s.dataReply grant m = s.corrected (if isEci m.dst then .hostPort else .netInterface m.dst) (word (64 * m.line)) := by
    refine if_neg ?_
    cases hst : (s.al m.dst m.line).st <;> simp_all [AState.transient]
  rw [hodd, isEci_of_core hdst]
  rfl

/-- CMP for a line of a copy goes to the copy's card. -/
theorem State.onCmp_card {u : State} (hdst : m.dst < 64) (hslot : m.slot ≠ 4) (hcard : s.cardDone m.dst m.txid m.poison = some u) :
    s.onCmp m = u := by
  have hhome : ¬ 0x80 ≤ m.dst := by omega
  rw [State.onCmp, if_neg (by simp [isEci_of_core hdst]), if_neg hhome, if_neg hslot, hcard]

/-- CMP for no copy is a home's reply to a thread. -/
theorem State.onCmp_home (hdst : m.dst < 64) (hslot : m.slot ≠ 4) (hcard : s.cardDone m.dst m.txid m.poison = none) :
    s.onCmp m = s.homeReply m 0 := by
  have hhome : ¬ 0x80 ≤ m.dst := by omega
  rw [State.onCmp, if_neg (by simp [isEci_of_core hdst]), if_neg hhome, if_neg hslot, hcard]

end Sys2Proof.Machine
end

section
/-!
CERTIFICATE. Replies at a core.
-/

open Sys2Proof Sys2Proof.Machine Sys2Proof.Laws

/-- Settles O23: each reply goes to its handler, and a core's credits are no concern of the host port. -/
theorem replyResults : Obligations.ReplyResults := by
  intro s m tk l plain core installed odd mine bad part
  have hcred (hcore : core) : s.hostCredit m.dst 2 = s := State.hostCredit_core (isEci_of_core hcore.1) 2
  have hdatum {i : Instr} {grant : AState} {s' : State} (hcore : core)
      (hi : exec i s = msgEvent m 2 (fun s => (s.hostCredit m.dst 2).dataReply grant m) s) (h : s.dataReply grant m = s') : Steps i s s' :=
    steps_of_msg hi hcore.2 ((congrArg (State.dataReply · grant m) (hcred hcore)).trans h)
  have hwb {i : Instr} {s' : State} (hcore : core) (hi : exec i s = msgEvent m 2 (fun s => (s.hostCredit m.dst 2).wbReply m) s)
      (h : s.wbReply m = s') : Steps i s s' :=
    steps_of_msg hi hcore.2 ((congrArg (State.wbReply · m) (hcred hcore)).trans h)
  have hgrant (d : Vec) (hcore : core) (hdata : m.data = some d) {grant : AState} (h : AState.admits l.st grant true) :
      s.dataReply grant m = installed grant d m.poison := by
    rw [State.dataReply_admitted hcore.1 (by rwa [hdata]), hdata]
    rfl
  have hhome (hmine : mine) (data : Vec) : s.homeReply m data = s.replyLane tk m.txid data bad := by
    rw [State.homeReply, hmine.2]
    rfl
  refine ⟨fun d hcore hdata => ⟨fun hst => ⟨?_, ?_⟩, fun hst => ?_⟩, fun hcore hdata hst => ?_, fun hcore hst => ?_, fun hcore hst => ?_,
    fun hcore hst => ?_, fun hcore hst => ?_, fun hmine hslot hcard => ?_, fun u hcore hslot hcard => ?_, fun hmine hcmb => ?_,
    fun hm hcmb => ?_, fun hmine => ⟨?_, ?_⟩, fun t p k hm hthreads hfind hkind hslot => ?_, fun hm hthreads => ?_, fun hm hdst hheld => ?_,
    fun hm hdst hheld hlen => ?_, fun hm hsrc hdst => ?_⟩
  · exact hdatum hcore rfl (hgrant d hcore hdata (.inl ⟨hst, rfl⟩))
  · exact hdatum hcore rfl (hgrant d hcore hdata (.inl ⟨hst, rfl⟩))
  · refine hdatum hcore rfl (hgrant d hcore hdata ?_)
    simp only [AState.admits, and_true]
    tauto
  · refine hdatum hcore rfl ((State.dataReply_admitted hcore.1 (.inr (.inr ⟨hst, rfl⟩))).trans ?_)
    rw [hdata]
    rfl
  · have hno (grant : AState) : s.dataReply grant m = odd := State.dataReply_odd hcore.1 hst grant
    simp only [List.forall_mem_cons]
    exact ⟨hdatum hcore rfl (hno .s), hdatum hcore rfl (hno .e), hdatum hcore rfl (hno .m), hdatum hcore rfl (hno .m), by simp⟩
  · have hfree : s.wbReply m = ((s.setAl m.dst m.line { store := l.store }).kick m.dst m.line).kickAll m.dst := by
      rw [State.wbReply, if_pos hst, State.serveWaiting_core hcore.1]
    simp only [List.forall_mem_cons]
    exact ⟨hwb hcore rfl hfree, hwb hcore rfl hfree, by simp⟩
  · have hno : s.wbReply m = odd := by
      rw [State.wbReply, if_neg hst, isEci_of_core hcore.1]
      rfl
    simp only [List.forall_mem_cons]
    exact ⟨hwb hcore rfl hno, hwb hcore rfl hno, by simp⟩
  · refine steps_of_msg rfl hcore.2 ((if_neg (by simp [isEci_of_core hcore.1])).trans (if_pos ?_))
    rcases hst with hst | hst | hst | hst <;> simp [hst, l, AState.transient]
  · exact steps_of_msg rfl hmine.1.2 ((State.onCmp_home hmine.1.1 hslot hcard).trans (hhome hmine 0))
  · exact steps_of_msg rfl hcore.2 (State.onCmp_card hcore.1 hslot hcard)
  · refine steps_of_msg rfl hmine.1.2 ?_
    rw [← hhome hmine]
    simp [State.onAtr, hcmb, isEci_of_core hmine.1.1, part, bytesAt]
  · exact steps_of_msg rfl hm (if_pos hcmb)
  · exact steps_of_msg rfl hmine.1.2 (hhome hmine _)
  · exact steps_of_msg rfl hmine.1.2 (hhome hmine 1)
  · refine steps_of_msg rfl hm ?_
    simp [State.onWoke, hthreads, hfind, hkind, hslot]
  · refine steps_of_msg rfl hm ?_
    simp [State.onWoke, hthreads]
  · refine steps_of_msg rfl hm ?_
    simp [State.onCrd, hdst, hheld, State.sendHeldN]
  · refine steps_of_msg rfl hm ?_
    obtain ⟨n, hn⟩ := Nat.exists_eq_succ_of_ne_zero hlen
    simp [State.onCrd, hdst, hn, State.hostRefill, State.hostWaiting, hheld, takeFirst, hostKey]
  · have hno (cls : Nat) (f : State → State) : s.intake m cls f = s.corrected (.netInterface (m.dst % 64)) 0 := by
      simp [State.intake, hm, hsrc, hdst]
    simp only [List.forall_mem_cons]
    exact ⟨steps_of_next rfl (hno _ _), steps_of_next rfl (hno _ _), steps_of_next rfl (hno _ _), steps_of_next rfl (hno _ _), by simp⟩
end

section
/-!
SUPPORT. Probes at a core: the lines of an agent, the answer of each state, and the probe of a region (R47 to R49).
-/

namespace Sys2Proof.Machine

variable {s s' : State} {m : Msg} {a line : Nat}

/-! ## The lines of an agent -/

/-- What a table lists after a write is what it listed before, or the value written, unless that is the default. -/
theorem Tbl.mem_of_mem_put {α : Type} [DecidableEq α] {z x : α} {t : Tbl α} {n : Nat} {e : Nat × α} (h : e ∈ Tbl.put z t n x) :
    e ∈ t ∨ x ≠ z ∧ e = (n, x) := by
  induction t with
  | nil =>
    by_cases hx : x = z <;> simp_all [Tbl.put]
  | cons y t ih =>
    unfold Tbl.put at h
    split at h
    · split at h
      · exact .inl h
      · next hx => exact (List.mem_cons.1 h).symm.imp_right fun he => ⟨hx, he⟩
    · split at h
      · split at h
        · exact .inl (List.mem_cons_of_mem _ h)
        · next hx => exact (List.mem_cons.1 h).elim (fun he => .inr ⟨hx, he⟩) fun ht => .inl (List.mem_cons_of_mem _ ht)
      · rcases List.mem_cons.1 h with rfl | ht
        · exact .inl List.mem_cons_self
        · exact (ih ht).imp_left (List.mem_cons_of_mem _)

theorem Tbl.mem_put {α : Type} [DecidableEq α] {z x : α} (hx : x ≠ z) (t : Tbl α) (n : Nat) : (n, x) ∈ Tbl.put z t n x := by
  induction t with
  | nil => simp [Tbl.put, hx]
  | cons y t ih =>
    unfold Tbl.put
    (repeat' split) <;> simp_all

/-- A value that a table gives is its default, or listed. -/
theorem Tbl.get_mem {α : Type} (z : α) (t : Tbl α) (n : Nat) : Tbl.get z t n = z ∨ (n, Tbl.get z t n) ∈ t := by
  induction t with
  | nil => exact .inl rfl
  | cons y t ih =>
    unfold Tbl.get
    split
    · next hk => exact .inr (hk ▸ List.mem_cons_self)
    · split
      · exact .inl rfl
      · exact ih.imp_right (List.mem_cons_of_mem _)

theorem State.mem_linesOf_iff (hline : line < 2 ^ 42) {l : ALine} : (line, l) ∈ s.linesOf a ↔ (agentKey a line, l) ∈ s.agents := by
  simp only [State.linesOf, List.mem_filterMap, Option.ite_none_right_eq_some, Option.some.injEq, Prod.mk.injEq, agentKey]
  constructor
  · rintro ⟨⟨k, y⟩, hmem, hk, hmod, rfl⟩
    have : k = a * 2 ^ 42 + line := by omega
    exact this ▸ hmem
  · intro hmem
    exact ⟨_, hmem, by dsimp only; omega, by dsimp only; omega, rfl⟩

theorem State.lt_of_mem_linesOf {e : Nat × ALine} (h : e ∈ s.linesOf a) : e.1 < 2 ^ 42 := by
  simp only [State.linesOf, List.mem_filterMap, Option.ite_none_right_eq_some, Option.some.injEq] at h
  obtain ⟨_, _, _, rfl⟩ := h
  exact Nat.mod_lt _ (by decide)

/-- A line of an agent is in the default state, or listed. -/
theorem State.al_mem_linesOf (hline : line < 2 ^ 42) : s.al a line = {} ∨ (line, s.al a line) ∈ s.linesOf a := by
  rw [State.mem_linesOf_iff hline]
  exact Tbl.get_mem ..

/-- A line that an agent lists after a write was listed before, or is the one written. -/
theorem State.mem_linesOf_setAl {l : ALine} {e : Nat × ALine} (h : e ∈ (s.setAl a line l).linesOf a) :
    e ∈ s.linesOf a ∨ l ≠ {} ∧ e = (agentKey a line % 2 ^ 42, l) := by
  simp only [State.linesOf, State.setAl, List.mem_filterMap, Option.ite_none_right_eq_some, Option.some.injEq] at h ⊢
  obtain ⟨q, hq, hagent, rfl⟩ := h
  rcases Tbl.mem_of_mem_put hq with hold | ⟨hne, rfl⟩
  · exact .inl ⟨q, hold, hagent, rfl⟩
  · exact .inr ⟨hne, rfl⟩

theorem State.mem_linesOf_setAl_self (hline : line < 2 ^ 42) {l : ALine} (hl : l ≠ {}) : (line, l) ∈ (s.setAl a line l).linesOf a :=
  (State.mem_linesOf_iff hline).2 (Tbl.mem_put hl _ _)

/-! ## A probe at one line -/

theorem foldS_unchanged {α : Type} {f : α → State → State} {l : List α} (h : ∀ x ∈ l, f x s = s) : foldS f l s = s := by
  induction l with
  | nil => rfl
  | cons x l ih =>
    have hfirst := h x List.mem_cons_self
    simpa [foldS, hfirst] using ih fun y hy => h y (List.mem_cons_of_mem _ hy)

/-- A core's answer to a probe. -/
theorem State.probeAnswer_core (hdst : m.dst < 64) (l : ALine) (g : Moesi) (wb data : Bool) :
    s.probeAnswer m l g wb data = s.later (if data = true
      then .pdat { src := m.dst, dst := m.src, txid := m.txid, line := m.line, ver := m.ver, gnt := g, wb := wb, data := some l.data, poison := l.poison }
      else .pack { src := m.dst, dst := m.src, txid := m.txid, line := m.line, ver := m.ver, gnt := g, wb := wb }) :=
  State.agentSend_core (isEci_of_core hdst) _ _

theorem State.requestWaits_congr (h : s'.slices = s.slices) (sl : Nat) : s'.requestWaits sl a line = s.requestWaits sl a line := by
  simp [State.requestWaits, State.sl, h]

section states
variable (hver : m.ver = (s.al m.dst m.line).ver)
include hver

/-- S and E: invalidated or shared, without data. -/
theorem State.probe_clean (hst : (s.al m.dst m.line).st = .s ∨ (s.al m.dst m.line).st = .e) :
    s.probe .sinv m = (s.setAl m.dst m.line {}).probeAnswer m (s.al m.dst m.line) .i false false ∧
    s.probe .sshr m = (s.setAl m.dst m.line { s.al m.dst m.line with st := .s }).probeAnswer m (s.al m.dst m.line) .s false false := by
  rcases hst with hst | hst <;> simp [State.probe, State.probeStable, hst, hver]

/-- O and M: invalidated, or shared as O, with the data. -/
theorem State.probe_dirty (hst : (s.al m.dst m.line).st = .o ∨ (s.al m.dst m.line).st = .m) :
    s.probe .sinv m = (s.setAl m.dst m.line {}).probeAnswer m (s.al m.dst m.line) .i false true ∧
    s.probe .sshr m = (s.setAl m.dst m.line { s.al m.dst m.line with st := .o }).probeAnswer m (s.al m.dst m.line) .o false true := by
  rcases hst with hst | hst <;> simp [State.probe, State.probeStable, hst, hver]

/-- SM_A: it loses its copy and waits for data from now on, or keeps it. -/
theorem State.probe_upgrading (hst : (s.al m.dst m.line).st = .smA) :
    s.probe .sinv m = (s.setAl m.dst m.line { s.al m.dst m.line with st := .imD }).probeAnswer m (s.al m.dst m.line) .i false false ∧
    s.probe .sshr m = s.probeAnswer m (s.al m.dst m.line) .s false false := by
  simp [State.probe, State.probeStable, hst, hver]

/-- XI_A: the answer says that a write-back is under way. -/
theorem State.probe_writtenBack (hst : (s.al m.dst m.line).st = .xiA) (k : ProbeKind) :
    s.probe k m = s.probeAnswer m (s.al m.dst m.line) .i true (s.al m.dst m.line).dirty := by
  simp [State.probe, State.probeStable, hst, hver]

end states

/-- IS_D and IM_D: the probe is kept while the miss entry has room. -/
theorem State.probe_awaited (hst : (s.al m.dst m.line).st = .isD ∨ (s.al m.dst m.line).st = .imD)
    (hroom : (s.al m.dst m.line).deferred.length < 2) (k : ProbeKind) : s.probe k m = s.setAl m.dst m.line { s.al m.dst m.line with
      deferred := (s.al m.dst m.line).deferred ++ [{ m with sub := if k = .sshr then 1 else 0 }] } := by
  unfold State.probe
  rcases hst with hst | hst <;> simp only [hst, hroom, if_true]

/-- A line that is absent, or of another version and not waiting for its fill, stays as it is. -/
theorem State.probe_miss (hst : (s.al m.dst m.line).st = .i ∨
      ((s.al m.dst m.line).st ≠ .isD ∧ (s.al m.dst m.line).st ≠ .imD ∧ m.ver ≠ (s.al m.dst m.line).ver)) (k : ProbeKind) :
    s.probe k m = s.probeAnswer m (s.al m.dst m.line) .i false false := by
  unfold State.probe
  rcases hst with hst | ⟨hisD, himD, hver⟩
  · simp only [hst]
  · cases hst : (s.al m.dst m.line).st <;> simp_all

/-- A probe that a core takes at once. -/
theorem State.probeAt_core (hdst : m.dst < 64) (hwaits : s.probeWaits m.dst m.line = false) (k : ProbeKind) (e : Ev) :
    s.probeAt k e m = s.onProbe k m := by
  simp [State.probeAt, hwaits, State.hostCredit_core (isEci_of_core hdst)]

/-- A probe of one line whose agent has no request of that line waiting at the home. -/
theorem State.onProbe_line {k : ProbeKind} (hk : k ≠ .sbinv) (h : s.probe k m = s') (hslices : s'.slices = s.slices)
    (hidle : s.requestWaits (m.src - 0x80) m.dst m.line = false) : s.onProbe k m = s' := by
  have hback : s'.requestWaits (m.src - 0x80) m.dst m.line = false := (State.requestWaits_congr hslices _).trans hidle
  cases k
  case sbinv => exact absurd rfl hk
  all_goals simp [State.onProbe, h, hback]

/-! ## A probe of a region -/

/-- No request waits at the home for a line whose probe an agent keeps, so nothing that it keeps is taken back. -/
theorem State.onProbe_region (h : s.probeRegion m = s')
    (hidle : ∀ e ∈ s'.linesOf m.dst, e.2.deferred ≠ [] → s'.requestWaits (m.src - 0x80) m.dst e.1 = false) : s.onProbe .sbinv m = s' := by
  subst h
  refine foldS_unchanged fun e he => ?_
  split
  · next hkept => exact if_neg (by simp [hidle e he (by simpa using hkept.2)])
  · rfl

/-- An agent that keeps no probe answers for the region; a line that is not being written back answers I. -/
theorem State.answerRegion_none (hdst : m.dst < 64) (hdeferred : ∀ e ∈ s.linesOf m.dst, e.2.deferred = []) (hst : (s.al m.dst m.line).st ≠ .xiA) :
    s.answerRegion m = s.later (.pack { src := m.dst, dst := m.src, txid := m.txid, line := m.line, ver := m.ver }) := by
  have hnone : s.regionDeferred m = false := by
    simp only [State.regionDeferred, List.any_eq_false]
    intro e he
    simp [hdeferred e he]
  simp [State.answerRegion, hnone, hst, State.probeAnswer_core hdst]

/-- A region of which an agent keeps no line, and no probe, is answered as one line that it does not hold. -/
theorem State.onProbe_region_absent (hdst : m.dst < 64) (hst : (s.al m.dst m.line).st ≠ .xiA)
    (hnone : ∀ e ∈ s.linesOf m.dst, e.1 / 1024 ≠ m.line / 1024 ∨ homeId (homeOf e.1) ≠ m.src)
    (hdeferred : ∀ e ∈ s.linesOf m.dst, e.2.deferred = []) :
    s.onProbe .sbinv m = s.later (.pack { src := m.dst, dst := m.src, txid := m.txid, line := m.line, ver := m.ver }) := by
  refine State.onProbe_region ?_ fun e he hkept => absurd (hdeferred e he) hkept
  have hlines : foldS (fun (e : Nat × ALine) (s : State) =>
      if e.1 / 1024 = m.line / 1024 ∧ homeId (homeOf e.1) = m.src then s.probeRegionLine m e.1 else s) (s.linesOf m.dst) s = s :=
    foldS_unchanged fun e he => if_neg (not_and_or.2 (hnone e he))
  rw [State.probeRegion, hlines]
  exact State.answerRegion_none hdst hdeferred hst

section oneLine
variable (hsrc : m.src = homeId (homeOf m.line)) (hlines : s.linesOf m.dst = [(m.line, s.al m.dst m.line)])
  (hdeferred : (s.al m.dst m.line).deferred = [])
include hsrc hlines

/-- An agent's only line is of the region that is probed. -/
theorem State.probeRegion_single : s.probeRegion m = (s.probeRegionLine m m.line).answerRegion m := by
  simp [State.probeRegion, hlines, foldS, hsrc]

include hdeferred

/-- A region of which an agent holds one line, S or E and of the probe's version: the line is dropped, and the region answered. -/
theorem State.onProbe_region_shared (hdst : m.dst < 64) (hst : (s.al m.dst m.line).st = .s ∨ (s.al m.dst m.line).st = .e)
    (hver : m.ver = (s.al m.dst m.line).ver) : s.onProbe .sbinv m = (s.setAl m.dst m.line {}).later
      (.pack { src := m.dst, dst := m.src, txid := m.txid, line := m.line, ver := m.ver }) := by
  have hline : m.line < 2 ^ 42 := State.lt_of_mem_linesOf (e := (m.line, s.al m.dst m.line)) (hlines ▸ List.mem_singleton_self _)
  have hold (e : Nat × ALine) (he : e ∈ (s.setAl m.dst m.line {}).linesOf m.dst) : e = (m.line, s.al m.dst m.line) := by
    rcases State.mem_linesOf_setAl he with he | ⟨hne, _⟩
    · exact List.mem_singleton.1 (hlines ▸ he)
    · exact absurd rfl hne
  have hgone : ((s.setAl m.dst m.line {}).al m.dst m.line).st ≠ .xiA := by
    rcases State.al_mem_linesOf (s := s.setAl m.dst m.line {}) (a := m.dst) hline with h | h
    · rw [h]
      decide
    · rw [(Prod.mk.inj (hold _ h)).2]
      rcases hst with hst | hst <;> rw [hst] <;> decide
  have hdropped : s.probeRegionLine m m.line = s.setAl m.dst m.line {} := by
    rcases hst with hst | hst <;> simp [State.probeRegionLine, hst, hver]
  refine State.onProbe_region ?_ fun e he hkept => absurd (hold e he ▸ hdeferred) hkept
  rw [State.probeRegion_single hsrc hlines, hdropped]
  exact State.answerRegion_none hdst (fun e he => hold e he ▸ hdeferred) hgone

/-- A region of which an agent awaits one line's fill: the line keeps the probe. -/
theorem State.onProbe_region_awaited (hidle : s.requestWaits (m.src - 0x80) m.dst m.line = false)
    (hst : (s.al m.dst m.line).st = .isD ∨ (s.al m.dst m.line).st = .imD) : s.onProbe .sbinv m =
      s.setAl m.dst m.line { s.al m.dst m.line with deferred := [{ m with sub := 2, amount := m.line }] } := by
  have hline : m.line < 2 ^ 42 := State.lt_of_mem_linesOf (e := (m.line, s.al m.dst m.line)) (hlines ▸ List.mem_singleton_self _)
  obtain ⟨l, hl⟩ : ∃ l, l = { s.al m.dst m.line with deferred := [{ m with sub := 2, amount := m.line }] } := ⟨_, rfl⟩
  have hkeeps : s.probeRegionLine m m.line = s.setAl m.dst m.line l := by
    rcases hst with hst | hst <;> simp [State.probeRegionLine, hst, hdeferred, hl]
  rw [← hl]
  have hne : l ≠ {} := by simp [hl]
  have hwaits : (s.setAl m.dst m.line l).regionDeferred m = true := by
    rw [State.regionDeferred, List.any_eq_true]
    exact ⟨_, State.mem_linesOf_setAl_self hline hne, by simp [hl]⟩
  refine State.onProbe_region ?_ fun e he _ => ?_
  · rw [State.probeRegion_single hsrc hlines, hkeeps, State.answerRegion, if_pos hwaits]
  · have hsame : e.1 = m.line := by
      rcases State.mem_linesOf_setAl he with he | ⟨_, rfl⟩
      · rw [hlines] at he
        exact congrArg Prod.fst (List.mem_singleton.1 he)
      · simp only [agentKey]
        omega
    rw [hsame]
    exact (State.requestWaits_congr rfl _).trans hidle

end oneLine

end Sys2Proof.Machine
end

section
/-!
CERTIFICATE. Probes at a core.
-/

open Sys2Proof Sys2Proof.Machine Sys2Proof.Laws

theorem probeResults : Claims.ProbeResults := by
  intro s m l h core a plain full
  have htake {k : ProbeKind} {e : Ev} {i : Instr} {s' : State} (hcore : core) (hi : exec i s = msgEvent m 1 (fun s => s.probeAt k e m) s)
      (hprobe : s.onProbe k m = s') : Steps i s s' := by
    obtain ⟨hdst, hrsv, -, -, hwaits⟩ := hcore
    exact steps_of_msg hi hrsv ((State.probeAt_core hdst hwaits k e).trans hprobe)
  have hsource (hcore : core) : m.src = homeId h := by
    obtain ⟨-, -, -, hsrc, -⟩ := hcore
    exact hsrc
  have hidle (hcore : core) : s.requestWaits (m.src - 0x80) m.dst m.line = false := by
    obtain ⟨-, -, hidle, hsrc, -⟩ := hcore
    rw [hsrc]
    simpa [homeId] using hidle
  have hinv {s' : State} (hcore : core) (hprobe : s.probe .sinv m = s') (hslices : s'.slices = s.slices) : Steps (.sinv m) s s' :=
    htake hcore rfl (State.onProbe_line (by decide) hprobe hslices (hidle hcore))
  have hshare {s' : State} (hcore : core) (hprobe : s.probe .sshr m = s') (hslices : s'.slices = s.slices) : Steps (.sshr m) s s' :=
    htake hcore rfl (State.onProbe_line (by decide) hprobe hslices (hidle hcore))
  have hanswer (u : State) (hcore : core) (x : ALine) (g : Moesi) (wb data : Bool) := State.probeAnswer_core (s := u) hcore.1 x g wb data
  refine ⟨fun hcore hst hver => ?_, fun hcore hst hver => ?_, fun hcore hst hver => ?_, fun hcore hst hver hdirty => ?_,
    fun hcore hst hroom => ?_, fun hcore hst => ?_, fun hcore hst hnone hdeferred => ?_, fun hcore hlines hdeferred => ⟨fun hst hver => ?_, fun hst => ?_⟩⟩
  · obtain ⟨hi, hs⟩ := State.probe_clean hver hst
    exact ⟨hinv hcore (hi.trans (hanswer _ hcore l .i false false)) rfl, hshare hcore (hs.trans (hanswer _ hcore l .s false false)) rfl⟩
  · obtain ⟨hi, hs⟩ := State.probe_dirty hver hst
    exact ⟨hinv hcore (hi.trans (hanswer _ hcore l .i false true)) rfl, hshare hcore (hs.trans (hanswer _ hcore l .o false true)) rfl⟩
  · obtain ⟨hi, hs⟩ := State.probe_upgrading hver hst
    exact ⟨hinv hcore (hi.trans (hanswer _ hcore l .i false false)) rfl, hshare hcore (hs.trans (hanswer _ hcore l .s false false)) rfl⟩
  · refine hinv hcore ((State.probe_writtenBack hver hst .sinv).trans ?_) rfl
    rw [hdirty]
    exact hanswer _ hcore l .i true true
  · exact ⟨hinv hcore (State.probe_awaited hst hroom .sinv) rfl, hshare hcore (State.probe_awaited hst hroom .sshr) rfl⟩
  · have hmiss (k : ProbeKind) : s.probe k m = s.later (plain .i) := (State.probe_miss hst k).trans (hanswer _ hcore l .i false false)
    exact ⟨hinv hcore (hmiss .sinv) rfl, hshare hcore (hmiss .sshr) rfl⟩
  · exact htake hcore rfl (State.onProbe_region_absent hcore.1 hst hnone hdeferred)
  · exact htake hcore rfl (State.onProbe_region_shared (hsource hcore) hlines hdeferred hcore.1 hst hver)
  · exact htake hcore rfl (State.onProbe_region_awaited (hsource hcore) hlines hdeferred (hidle hcore) hst)
end

section
/-!
SUPPORT. Answers and write-backs at a home (R47, R48, R51, R59, R155).
-/

namespace Sys2Proof.Machine

variable {s : State} {m : Msg} {t : Txn} {n : Node}

/-! ## Answers -/

section last
variable {ver : BitVec 8} (htxns : (s.sl (m.dst - 0x80)).txns = [t]) (hprobes : t.probes = [⟨m.src, m.line, ver⟩])
include htxns hprobes

section answer
variable (hver : ver = m.ver) (hwb : m.wb = false)
include hver hwb

/-- The last answer that a slice's only transaction awaits: the transaction goes on. -/
theorem State.onProbeAnswer_last (hdata : m.data = none) :
    s.onProbeAnswer m = s.putTxn (m.dst - 0x80) { t with probes := [], result := probeResult m } := by
  simp [State.onProbeAnswer, State.awaitsWbk, htxns, hprobes, hver, hwb, hdata]

/-- The same with data, which become the slice's. -/
theorem State.onProbeAnswer_data {d : Vec} (hawait : t.awaitWb = []) (hcame : t.came = []) (hdata : m.data = some d) :
    s.onProbeAnswer m = (s.takeData (m.dst - 0x80) m.line d m.poison).putTxn (m.dst - 0x80) { t with probes := [], result := probeResult m } := by
  simp [State.onProbeAnswer, State.awaitsWbk, htxns, hprobes, hver, hawait, hcame, hwb, hdata]

end answer

/-- An agreement to a replica message is the answer of version 0. -/
theorem State.onReplicaAck_last (hver : ver = 0) (hstat : m.stat ≠ 2) : s.onReplicaAck m = s.putTxn (m.dst - 0x80) { t with probes := [] } := by
  simp [State.onReplicaAck, State.answerProbe, hstat, htxns, hprobes, hver]

end last

section alone
variable (htxns : (s.sl (m.dst - 0x80)).txns = [])
include htxns

/-- An answer that no transaction awaits is discarded. -/
theorem State.onProbeAnswer_idle : s.onProbeAnswer m = s := by simp [State.onProbeAnswer, Slice.recallOf, htxns]

/-! ## Write-backs -/

/-- A write-back that a probe's answer has crossed is refused, and takes its pair from the filter. -/
theorem State.onWriteBack_crossed (h : (m.src, m.line) ∈ (s.sl (m.dst - 0x80)).filter) : s.onWriteBack m =
    (s.setSl (m.dst - 0x80) { s.sl (m.dst - 0x80) with filter := (s.sl (m.dst - 0x80)).filter.filter (· != (m.src, m.line)) }).wbAck
      (m.dst - 0x80) m false := by
  simp [State.onWriteBack, htxns, h]

variable (hfilter : (m.src, m.line) ∉ (s.sl (m.dst - 0x80)).filter)
include hfilter

/-- A write-back of no node's line, or of another version, is refused. -/
theorem State.onWriteBack_refused
    (h : (s.sl (m.dst - 0x80)).node m.line = none ∨ ((s.sl (m.dst - 0x80)).node m.line = some n ∧ n.ver ≠ m.ver)) :
    s.onWriteBack m = s.wbAck (m.dst - 0x80) m false := by
  rcases h with h | ⟨h, hver⟩
  · simp [State.onWriteBack, Slice.recallOf, htxns, hfilter, h]
  · simp [State.onWriteBack, Slice.recallOf, htxns, hfilter, h, hver]

/-- A write-back of the node's version drops the writer's pointer, and is taken. -/
theorem State.onWriteBack_taken (h : (s.sl (m.dst - 0x80)).node m.line = some n) (hver : n.ver = m.ver) : s.onWriteBack m =
    ((s.modSl (m.dst - 0x80) fun x => x.setNode (n.dropPointer m.src)).wbTake (m.dst - 0x80) m).wbAck (m.dst - 0x80) m true := by
  simp [State.onWriteBack, Slice.recallOf, htxns, hfilter, h, hver]

end alone

theorem State.wbTake_none (hdata : m.data = none) (sl : Nat) : s.wbTake sl m = s := by simp [State.wbTake, hdata]

theorem State.wbTake_some {d : Vec} (hdata : m.data = some d) (sl : Nat) : s.wbTake sl m = s.takeData sl m.line d m.poison := by
  simp [State.wbTake, hdata]

/-- A node of several lines keeps its pointers. -/
theorem Node.dropPointer_shallow (h : n.level < 10) (a : Nat) : n.dropPointer a = n := if_neg (by omega)

/-- The node of one line, its owner the only holder, becomes UNC. -/
theorem Node.dropPointer_owner (hlevel : n.level = 10) (hst : n.st = .own) (hsh : n.sh = []) (hovf : n.ovf = false) :
    n.dropPointer n.owner = { n with st := .unc } := by
  simp [Node.dropPointer, hlevel, hst, hsh, hovf]

end Sys2Proof.Machine
end

section
/-!
CERTIFICATE. Answers and write-backs at a home.
-/

open Sys2Proof Sys2Proof.Machine Sys2Proof.Laws

theorem homeAnswerResults : Claims.HomeAnswerResults := by
  intro s m t n sl x t' last went stored r alone
  have hcore (hsrc : m.src < 64) (cls : Nat) : s.returnCredit m.src cls = s := State.returnCredit_core (isEci_of_core hsrc) cls
  have hanswer {i : Instr} {s' : State} (hsrc : m.src < 64) (hrsv : m.rsv = false)
      (hi : exec i s = msgEvent m 2 (fun s => (s.returnCredit m.src 2).onProbeAnswer m) s) (h : s.onProbeAnswer m = s') : Steps i s s' :=
    steps_of_msg hi hrsv ((congrArg (State.onProbeAnswer · m) (hcore hsrc 2)).trans h)
  have hpack (hsub : m.sub ≠ 1) : exec (.pack m) s = msgEvent m 2 (fun s => (s.returnCredit m.src 2).onProbeAnswer m) s :=
    congrArg (fun f => msgEvent m 2 f s) (funext fun _ => if_neg hsub)
  have hwrite {i : Instr} {s' : State} {ok : Bool} {ack : Ev} (hsrc : m.src < 64) (hrsv : m.rsv = false)
      (hi : exec i s = msgEvent m 3 (fun s => (s.returnCredit m.src 3).onWriteBack m) s) (h : s.onWriteBack m = s'.wbAck sl m ok)
      (hack : (if ok then Ev.wba r else .wbx r) = ack) : Steps i s (s'.later ack) :=
    steps_of_msg hi hrsv ((congrArg (State.onWriteBack · m) (hcore hsrc 3)).trans
      (h.trans ((State.sendRsp_core (isEci_of_core hsrc) _).trans (congrArg s'.later hack))))
  refine ⟨fun hlast hsub hwb hdata => ?_, fun d hlast hwb hdata => ?_, fun hlast hsub hstat => ?_, fun halone hsub hdata => ?_,
    fun halone hfilter => ?_, fun halone hfilter hnode => ?_, fun halone hfilter hnode hver hlevel => ?_,
    fun halone hfilter hnode hver hlevel hst howner hsh hovf hdata => ?_⟩
  · obtain ⟨hsrc, hrsv, htxns, hprobes, -, -⟩ := hlast
    exact hanswer hsrc hrsv (hpack hsub) (State.onProbeAnswer_last htxns hprobes rfl hwb hdata)
  · obtain ⟨hsrc, hrsv, htxns, hprobes, hawait, hcame⟩ := hlast
    exact hanswer hsrc hrsv rfl (State.onProbeAnswer_data htxns hprobes rfl hwb hawait hcame hdata)
  · obtain ⟨hsrc, hrsv, htxns, hprobes, -, -⟩ := hlast
    exact steps_of_msg rfl hrsv ((if_pos hsub).trans (State.onReplicaAck_last htxns hprobes rfl hstat))
  · obtain ⟨hsrc, hrsv, htxns⟩ := halone
    exact hanswer hsrc hrsv (hpack hsub) (State.onProbeAnswer_idle htxns)
  · obtain ⟨hsrc, hrsv, htxns⟩ := halone
    have hno := State.onWriteBack_crossed htxns hfilter
    simp only [List.forall_mem_cons]
    exact ⟨hwrite hsrc hrsv rfl hno rfl, hwrite hsrc hrsv rfl hno rfl, by simp⟩
  · obtain ⟨hsrc, hrsv, htxns⟩ := halone
    have hno := State.onWriteBack_refused htxns hfilter hnode
    simp only [List.forall_mem_cons]
    exact ⟨hwrite hsrc hrsv rfl hno rfl, hwrite hsrc hrsv rfl hno rfl, by simp⟩
  · obtain ⟨hsrc, hrsv, htxns⟩ := halone
    have htaken := State.onWriteBack_taken htxns hfilter hnode hver
    rw [Node.dropPointer_shallow hlevel] at htaken
    exact ⟨fun hdata => hwrite hsrc hrsv rfl (htaken.trans (congrArg (State.wbAck · sl m true) (State.wbTake_none hdata sl))) rfl,
      fun d hdata => hwrite hsrc hrsv rfl (htaken.trans (congrArg (State.wbAck · sl m true) (State.wbTake_some hdata sl))) rfl⟩
  · obtain ⟨hsrc, hrsv, htxns⟩ := halone
    have htaken := State.onWriteBack_taken htxns hfilter hnode hver
    rw [← howner, Node.dropPointer_owner hlevel hst hsh hovf, State.wbTake_none hdata] at htaken
    exact hwrite hsrc hrsv rfl htaken rfl

/-- Settles O47: probes at a core, and their answers and write-backs at a home. -/
theorem probeAndAnswerResults : Obligations.ProbeAndAnswerResults := ⟨probeResults, homeAnswerResults⟩
end

section
/-!
SUPPORT. Steps that a slice and an L1 take of themselves (R46, R60, R64, R98, R164 to R166).
-/

namespace Sys2Proof.Machine

variable {s : State}

/-! ## Malformed headers (R46) -/

/-- A header that stands for no message: a reserved field that is not zero, a reserved state or status, or no opcode of its class. -/
theorem eciParse_eq_none {h : BitVec 128} {payload : BitVec 512} (hbad : bits h.toNat 112 16 ≠ 0 ∨ 5 ≤ bits h.toNat 44 4 ∨ 3 ≤ bits h.toNat 109 3 ∨
    ∀ y, eciEv (bits h.toNat 0 3) (bits h.toNat 3 5) y = none) : eciParse h payload = none := by
  unfold eciParse
  split
  · next m hm =>
    obtain ⟨g, hg, rfl⟩ := Option.map_eq_some_iff.1 hm
    have hcode : bits h.toNat 44 4 < 5 := (List.getElem?_eq_some_iff.1 hg).1
    rcases hbad with hrsv | hstate | hstat | hop
    · simp [hrsv]
    · omega
    · simp [hstat]
    · rw [hop]
      exact ite_self none
  · rfl

/-! ## Replication's end (R164) -/

theorem State.onReplicaDrop_some {sl line : Nat} {hot : Hot} (h : (s.sl sl).hot.find? (fun e => e.line == line && e.active) = some hot) :
    s.onReplicaDrop sl line = if hot.last + 2 ^ 18 ≤ s.sclk ∧ !(s.sl sl).busy line then s.unreplicate sl line hot else s := by
  rw [State.onReplicaDrop, h]

/-! ## Fills (R98, R165) -/

/-- Without a bank unit in use, an access to DRAM halts no pass. -/
theorem State.pauseBanks_idle (h : s.bmv.units = []) (pa : Nat) (f : State → State) : s.pauseBanks pa f = f s := by
  unfold State.pauseBanks
  generalize s.winLo = lo, s.winHi = hi, s.bankUnits = n
  extract_lets u
  have hbank : (s.bank u).running = false := by
    rw [State.bank, h]
    rfl
  rw [if_neg (by simp [hbank])]

/-- A line that is being filled takes its DRAM bytes and poison; what waited for it is served before the replay queue. -/
theorem State.onDramFill_some {sl line : Nat} {l : List Ev} (h : (s.sl sl).filling.find? (fun f => f.1 == line) = some (line, l)) :
    s.onDramFill sl line =
      let emptied := s.setSl sl { s.sl sl with filling := (s.sl sl).filling.filter (fun f => f.1 != line), replay := [] }
      (((emptied.putLine sl line { data := emptied.dramLine line, poison := emptied.dramBad line }).serveAll sl l).modSl sl fun y =>
        { y with replay := y.replay ++ (s.sl sl).replay }).retrySoon sl := by
  rw [State.onDramFill, h]

/-! ## Probes that no agent of the host answers (R64) -/

section timeout
variable {sl line agent : Nat} {d : SLine} {t : Txn}

/-- A line that the slice holds is replaced over its copy. -/
theorem State.putLine_present (h : (s.sl sl).data line = some d) (e : SLine) :
    s.putLine sl line e = s.modSl sl fun x => x.putData line { e with used := s.sclk, way := d.way } := by
  simp [State.putLine, h]

theorem State.lineData_present (h : (s.sl sl).data line = some d) : s.lineData sl line = d := by simp [State.lineData, h]

/-- The answer to the only probe of a slice's only transaction. -/
theorem State.answerProbe_last {ver : BitVec 8} (htxns : (s.sl sl).txns = [t]) (hprobes : t.probes = [⟨agent, line, ver⟩]) (f : Txn → Txn) :
    s.answerProbe sl agent line ver f = s.putTxn sl (f { t with probes := [] }) := by
  simp [State.answerProbe, htxns, hprobes]

/-- The change of a slice's only transaction. -/
theorem State.putTxn_only (htxns : (s.sl sl).txns = [t]) {u : Txn} (hid : u.id = t.id) :
    s.putTxn sl u = (s.modSl sl fun x => { x with txns := [u] }).finishTxn sl u := by
  simp [State.putTxn, State.modSl, htxns, mapIf, hid]

/-- A probe that an agent of the host does not answer poisons the line that the slice holds, and counts as answered. -/
theorem State.onProbeTimeout_present (heci : isEci agent = true) (htxns : (s.sl sl).txns = [t]) (hprobes : t.probes = [⟨agent, line, 0⟩])
    (hdata : (s.sl sl).data line = some d) :
    let bad := (s.modSl sl fun y => y.putData line { d with poison := true, dirty := true, used := s.sclk }).logError 2 .hostPort (word (64 * line))
    s.onProbeTimeout sl line agent = (bad.modSl sl fun y => { y with txns := [{ t with probes := [] }] }).finishTxn sl { t with probes := [] } := by
  intro bad
  have hput : s.putLine sl line { s.lineData sl line with poison := true, dirty := true } =
      s.modSl sl fun y => y.putData line { d with poison := true, dirty := true, used := s.sclk } := by
    rw [State.putLine_present hdata, State.lineData_present hdata]
  have htxns' : (bad.sl sl).txns = [t] := by
    have hx : (s.sl sl).putData line { d with poison := true, dirty := true, used := s.sclk } ≠ {} := Slice.ne_default_of_lines (by simp [Slice.putData])
    exact (congrArg Slice.txns (State.sl_setSl hx)).trans htxns
  have hanswer : s.onProbeTimeout sl line agent = bad.answerProbe sl agent line 0 id := by
    rw [State.onProbeTimeout, if_neg (by simp [heci])]
    simp [htxns, hprobes, hput, bad]
  exact hanswer.trans ((State.answerProbe_last htxns' hprobes id).trans (State.putTxn_only htxns' rfl))

end timeout

/-! ## The sweep of an L1 (R60) -/

theorem State.onSweep_dirty {c : Nat} {e : Nat × ALine} (hquiet : ∀ e ∈ s.linesOf c, e.2.st ≠ .xiA)
    (hfind : (s.linesOf c).find? (fun e => (e.2.st == .m || e.2.st == .o) && e.2.tag != s.tagOfCore c) = some e) :
    s.onSweep c = s.replaceLine c e.1 := by
  have hnone : ((s.linesOf c).any fun e => e.2.st == .xiA) = false := by simpa using hquiet
  simp [State.onSweep, hnone, hfind]

end Sys2Proof.Machine
end

section
/-!
CERTIFICATE. Steps that a slice and an L1 take of themselves.
-/

open Sys2Proof Sys2Proof.Machine Sys2Proof.Laws

/-- Settles O22: each step is its handler on the state that the clause describes. -/
theorem sliceSteps : Obligations.SliceSteps := by
  intro s hd sl line agent c t hot d x n cls op fromHost m
  refine ⟨fun hhost hcls hbad => ?_, fun hhost hcls hbad => ?_, fun hfind => ⟨fun hold hidle => ?_, fun hyoung => ?_⟩, fun hunits l hfind => ?_, ?_,
    fun heci htxns hprobes hdata => ?_, fun heci => ?_, fun hquiet e hfind => ?_⟩
  · refine steps_of_next rfl ?_
    have hreject : cls = 0 ∧ (7 ≤ bits n 3 5 ∨ bits n 44 4 ≠ 0 ∨ (eciParse hd 0).isNone) := by
      refine ⟨hcls, ?_⟩
      rcases hbad with hrsv | hop | hcode
      · exact .inr (.inr (Option.isNone_iff_eq_none.2 (eciParse_eq_none (.inl hrsv))))
      · exact .inl hop
      · exact .inr (.inl hcode)
    exact (if_neg (by simpa using hhost)).trans (if_pos hreject)
  · refine steps_of_next rfl ?_
    have hnone : (eciParse hd 0).isNone := Option.isNone_iff_eq_none.2 (eciParse_eq_none hbad)
    exact (if_neg (by simpa using hhost)).trans ((if_neg fun h => hcls h.1).trans (if_pos ⟨hcls, hnone⟩))
  · exact steps_of_next rfl ((State.onReplicaDrop_some hfind).trans (if_pos ⟨hold, by simpa using hidle⟩))
  · exact steps_of_next rfl ((State.onReplicaDrop_some hfind).trans (if_neg fun h => hyoung.not_ge h.1))
  · exact steps_of_next rfl ((State.pauseBanks_idle hunits _ _).trans (State.onDramFill_some hfind))
  · exact steps_of_next rfl rfl
  · exact steps_of_next rfl (State.onProbeTimeout_present heci htxns hprobes hdata)
  · exact steps_of_next rfl (if_pos (by simp [heci]))
  · exact steps_of_next rfl (State.onSweep_dirty hquiet hfind)
end

section
/-!
SUPPORT. A request that its home can complete at once (R50, R52, R57, R58, R61 to R63).
-/

namespace Sys2Proof.Machine

variable {s : State} {sl line : Nat} {d : SLine} {e : Ev} {m : Msg} {n : Node}

/-! ## Nodes -/

theorem Node.covers_congr {a b : Node} (h : a.sameKey b = true) (line : Nat) : a.covers line = b.covers line := by
  simp only [Node.sameKey, Bool.and_eq_true, beq_iff_eq] at h
  obtain ⟨⟨hregion, hlevel⟩, hpath⟩ := h
  simp [Node.covers, hregion, hlevel, hpath]

/-- A node written over the one that covers a line covers it. -/
theorem Slice.node_setNode {x : Slice} {n' : Node} (h : x.node line = some n) (hkey : n.sameKey n' = true) : (x.setNode n').node line = some n' := by
  have hcovers : ((fun e : Node => e.covers line) ∘ fun e => if e.sameKey n' = true then n' else e) = fun e => e.covers line := by
    funext e
    by_cases he : e.sameKey n' = true
    · simp [he, Node.covers_congr he line]
    · simp [he]
  have hmap : (x.setNode n').node line = (x.node line).map fun e => if e.sameKey n' = true then n' else e := by
    simp only [Slice.node, Slice.setNode, mapIf, List.find?_map, hcovers]
  rw [hmap, h, Option.map_some, if_pos hkey]

/-- A request of a kind completes at a node without a probe, a split or a software step. -/
structure Node.Direct (n : Node) (k : ReqKind) (src : Nat) : Prop where
  shared : ¬ (n.st = .bcast ∧ k.writes = true)
  agrees : n.conflicts k src = false
  probes : (probesFor n k src).2 = []
  known : (n.ovf && k.writes) = false

/-- A node that names no possible holder. -/
theorem Node.Direct.of_idle (hst : n.st = .unc) (hsh : n.sh = []) (hovf : n.ovf = false) (k : ReqKind) (src : Nat) : n.Direct k src := by
  have hholders : n.holders = [] := by simp [Node.holders, hst, hsh]
  refine ⟨by simp [hst], ?_, ?_, by simp [hovf]⟩
  · cases k <;> simp [Node.conflicts, hst]
  · cases k <;> simp [probesFor, hst, hholders]

/-- A read for sharing meets a node directly unless another agent owns it. -/
theorem Node.Direct.rds {src : Nat} (h : n.st = .own → n.owner = src) : n.Direct .rds src := by
  have hprobes : (probesFor n .rds src).2 = [] := if_neg fun hother => hother.2 (h hother.1)
  exact ⟨by simp [ReqKind.writes], rfl, hprobes, by simp [ReqKind.writes]⟩

/-- A request for ownership meets a node whose only sharer makes it directly. -/
theorem Node.Direct.sharer {src : Nat} (hst : n.st = .shr) (hsh : n.sh = [src]) (hovf : n.ovf = false) (upg : Bool) : n.Direct (.own upg) src := by
  have hprobes : (probesFor n (.own upg) src).2 = [] := by simp [probesFor, Node.holders, hst, hsh]
  exact ⟨by simp [hst], by simp [Node.conflicts, hst], hprobes, by simp [hovf]⟩

/-- A node that nobody else holds is granted for the requester alone. -/
theorem Slice.exclusive_of_alone {x : Slice} (hstable : x.stable = []) (hst : n.st = .unc ∨ (n.st = .own ∧ n.owner = m.src)) (hsh : n.sh = [])
    (hovf : n.ovf = false) : x.exclusive n m = true := by
  rcases hst with hst | ⟨hst, howner⟩
  · simp [Slice.exclusive, Slice.isStable, hstable, hst, hsh, hovf]
  · simp [Slice.exclusive, Slice.isStable, hstable, hst, howner, hsh, hovf]

/-! ## Taking up a request -/

/-- What a request on a line finds at its home: the line's data, nothing of the slice in progress, no replica, and a place for the node. -/
structure Slice.Clear (x : Slice) (line : Nat) (d : SLine) : Prop where
  data : x.data line = some d
  txns : x.txns = []
  filling : x.filling = []
  stable : x.stable = []
  hot : ∀ h ∈ x.hot, h.active = false
  room : x.node line = none → x.setUsed (line / 1024) < 16

theorem Slice.Clear.ne_default {x : Slice} (h : x.Clear line d) : x ≠ {} := by
  refine Slice.ne_default_of_lines fun hlines => ?_
  have hdata := h.data
  simp [Slice.data, hlines] at hdata

/-- The hot table's entries without replicas, and the watches, keep a slice clear. -/
theorem Slice.Clear.of_tables {x : Slice} (h : x.Clear line d) {hot : List Hot} (hhot : ∀ e ∈ hot, e.active = false)
    (watches : List (Nat × Nat × Nat)) : Slice.Clear { x with hot := hot, watches := watches } line d := by
  obtain ⟨hdata, htxns, hfilling, hstable, -, hroom⟩ := h
  exact ⟨hdata, htxns, hfilling, hstable, hhot, hroom⟩

/-- A request on a clear line is served at once. -/
theorem State.serve_clear (h : (s.sl sl).Clear m.line d) (hm : reqMsg s sl e = m) : s.serve sl e = s.serveReady sl e m := by
  obtain ⟨hdata, htxns, hfilling, hstable, hhot, -⟩ := h
  have hnot : ¬ ((s.sl sl).isStable m.line = true ∧ (reqKind e).writes = true) := by simp [Slice.isStable, hstable]
  have hfree : ¬ ((s.sl sl).busy m.line = true ∨ (s.sl sl).nodeHeld m.line = true) := by
    simp only [Slice.busy, Slice.nodeHeld, htxns, List.any_nil]
    split <;> simp
  have hcold : (if (s.sl sl).takesLine (reqKind e) m then (s.sl sl).hot.find? fun h => h.line == m.line && h.active else none) = none := by
    split
    · exact List.find?_eq_none.2 fun h hh => by simp [hhot h hh]
    · rfl
  unfold State.serve
  simp only [hm]
  rw [if_neg hnot, if_neg hfree, hcold]
  simp [hfilling, hdata]

/-- The slice's copy of a line, used now. -/
def Slice.useData (x : Slice) (line now : Nat) (d : SLine) : Slice := x.putData line { d with used := now }

theorem Slice.useData_ne_default (x : Slice) (line now : Nat) (d : SLine) : x.useData line now d ≠ {} :=
  Slice.ne_default_of_lines (by simp [Slice.useData, Slice.putData])

/-- A node used now. -/
def Node.usedAt (n : Node) (now : Nat) : Node := { n with used := now }

theorem stillHolds_takenUp (m : Msg) : (TakenUp s sl line).stillHolds m = s.stillHolds m := by
  unfold TakenUp
  dsimp only
  split <;> rfl

section takenUp
variable (hdata : (s.sl sl).data line = some d)
include hdata

/-- A request on a line that a node covers uses the node and the line. -/
theorem takenUp_some (hnode : (s.sl sl).node line = some n) :
    TakenUp s sl line = s.touch sl line ∧
      (TakenUp s sl line).sl sl = ((s.sl sl).setNode (n.usedAt s.sclk)).useData line s.sclk d := by
  have htouch : s.touch sl line = s.setSl sl (((s.sl sl).setNode (n.usedAt s.sclk)).useData line s.sclk d) := by
    have hkept : ((s.sl sl).setNode (n.usedAt s.sclk)).data line = some d := hdata
    unfold Node.usedAt at hkept ⊢
    simp only [State.touch, State.modSl, hnode, hkept, Slice.useData]
  have hsl : (s.touch sl line).sl sl = ((s.sl sl).setNode (n.usedAt s.sclk)).useData line s.sclk d := by
    rw [htouch]
    exact State.sl_setSl (Slice.useData_ne_default _ _ _ _)
  have hcovered : ((s.touch sl line).sl sl).node line = some (n.usedAt s.sclk) := by
    rw [hsl]
    exact Slice.node_setNode hnode (by simp [Node.sameKey, Node.usedAt])
  have hup : TakenUp s sl line = s.touch sl line := if_pos (by simp [hcovered])
  exact ⟨hup, hup ▸ hsl⟩

theorem node_takenUp_some (hnode : (s.sl sl).node line = some n) : ((TakenUp s sl line).sl sl).node line = some (n.usedAt s.sclk) := by
  rw [(takenUp_some hdata hnode).2]
  exact Slice.node_setNode hnode (by simp [Node.sameKey, Node.usedAt])

/-- A request on an uncached line uses the line, and makes its node. -/
theorem takenUp_none (hnode : (s.sl sl).node line = none) :
    let x := (s.sl sl).useData line s.sclk d
    s.touch sl line = s.setSl sl x ∧ TakenUp s sl line = (s.setSl sl x).setSl sl { x with nodes := x.nodes ++ [x.freshNode line s.sclk] } ∧
      (TakenUp s sl line).sl sl = { x with nodes := x.nodes ++ [x.freshNode line s.sclk] } := by
  intro x
  have htouch : s.touch sl line = s.setSl sl x := by simp only [State.touch, State.modSl, hnode, hdata, Slice.useData, x]
  have hsl : (s.setSl sl x).sl sl = x := State.sl_setSl (Slice.useData_ne_default _ _ _ _)
  have huncovered : x.node line = none := hnode
  have hup : TakenUp s sl line = (s.setSl sl x).setSl sl { x with nodes := x.nodes ++ [x.freshNode line s.sclk] } := by
    unfold TakenUp
    rw [htouch]
    simp [hsl, huncovered]
  refine ⟨htouch, hup, ?_⟩
  rw [hup]
  exact State.sl_setSl (Slice.ne_default_of_nodes (by simp))

/-- Of the slice, taking up a request changes only the nodes and the line's copy. -/
theorem sl_takenUp : ∃ nodes, (TakenUp s sl line).sl sl = { (s.sl sl).useData line s.sclk d with nodes := nodes } := by
  cases hnode : (s.sl sl).node line with
  | some n => exact ⟨_, (takenUp_some hdata hnode).2⟩
  | none => exact ⟨_, (takenUp_none hdata hnode).2.2⟩

theorem tables_takenUp : ((TakenUp s sl line).sl sl).stable = (s.sl sl).stable ∧
    ((TakenUp s sl line).sl sl).reservations = (s.sl sl).reservations ∧ ((TakenUp s sl line).sl sl).watches = (s.sl sl).watches := by
  obtain ⟨nodes, hsl⟩ := sl_takenUp hdata
  rw [hsl]
  exact ⟨rfl, rfl, rfl⟩

theorem lineData_takenUp : (TakenUp s sl line).lineData sl line = { d with used := s.sclk } := by
  obtain ⟨nodes, hsl⟩ := sl_takenUp hdata
  have hnone : (s.sl sl).lines.find? (fun _ => false) = none := List.find?_eq_none.2 (by simp)
  simp [State.lineData, hsl, Slice.data, Slice.useData, Slice.putData, List.find?_append, List.find?_filter, hnone]

theorem State.serveReady_cached (hline : m.line = line) (hnode : (s.sl sl).node line = some n) :
    s.serveReady sl e m = (TakenUp s sl line).serveNode sl e m (n.usedAt s.sclk) := by
  subst hline
  have hused := node_takenUp_some hdata hnode
  rw [(takenUp_some hdata hnode).1] at hused ⊢
  simp [State.serveReady, hused]

/-- A request on an uncached line goes to the node that it makes, which names no holder. -/
theorem State.serveReady_uncached (hline : m.line = line) (hnode : (s.sl sl).node line = none)
    (hroom : (s.sl sl).setUsed (line / 1024) < 16) (hone : ∀ a b, e ≠ .mcrdWindowClose a b) :
    ∃ n : Node, n.st = .unc ∧ n.sh = [] ∧ n.ovf = false ∧ (((TakenUp s sl line).sl sl).node line).getD n = n ∧
      s.serveReady sl e m = (TakenUp s sl line).serveNode sl e m n := by
  subst hline
  obtain ⟨htouch, hup, hslice⟩ := takenUp_none hdata hnode
  obtain ⟨x, hx⟩ : ∃ x, x = (s.sl sl).useData m.line s.sclk d := ⟨_, rfl⟩
  rw [← hx] at htouch hup hslice
  have hsl : (s.setSl sl x).sl sl = x := State.sl_setSl (hx ▸ Slice.useData_ne_default _ _ _ _)
  have huncovered : x.nodes.find? (fun n => n.covers m.line) = none := hx ▸ hnode
  have hroom : x.setUsed (m.line / 1024) < 16 := hx ▸ hroom
  refine ⟨x.freshNode m.line s.sclk, rfl, rfl, rfl, ?_, ?_⟩
  · rw [hslice, Slice.node, List.find?_append, huncovered, Option.none_or, List.find?_singleton]
    split <;> rfl
  · unfold State.serveReady
    rw [htouch, hup]
    simp only [hsl, Slice.node, huncovered, hroom, if_true]
    rfl

end takenUp

/-- A request at a node that it meets directly is completed. -/
theorem State.serveNode_direct (hn : n.Direct (reqKind e) m.src) (hnode : ((s.sl sl).node m.line).getD n = n) :
    s.serveNode sl e m n = s.finishRequest sl e false := by
  obtain ⟨hshared, hagrees, hprobes, hknown⟩ := hn
  simp [State.serveNode, hshared, hagrees, hnode, hprobes, hknown]

/-- A request on a clear line, at a node that it meets directly or makes, is completed once it is taken up. -/
theorem State.serve_direct (h : (s.sl sl).Clear m.line d) (hm : reqMsg s sl e = m) (hone : ∀ a b, e ≠ .mcrdWindowClose a b)
    (hn : ∀ n, (s.sl sl).node m.line = some n → n.Direct (reqKind e) m.src) : s.serve sl e = (TakenUp s sl m.line).finishRequest sl e false := by
  rw [State.serve_clear h hm]
  cases hnode : (s.sl sl).node m.line with
  | some n =>
    obtain ⟨hshared, hagrees, hprobes, hknown⟩ := hn n hnode
    exact (State.serveReady_cached h.data rfl hnode).trans
      (State.serveNode_direct ⟨hshared, hagrees, hprobes, hknown⟩ (by simp [node_takenUp_some h.data hnode]))
  | none =>
    obtain ⟨n, hst, hsh, hovf, hmade, hready⟩ := State.serveReady_uncached h.data rfl hnode (h.room hnode) hone
    exact hready.trans (State.serveNode_direct (.of_idle hst hsh hovf _ _) hmade)

/-! ## Arrival (R46, R52, R163) -/

/-- The first read of a line that the hot table counts. -/
theorem State.countHot_first (h : (s.sl sl).hot = []) :
    s.countHot sl line = s.setSl sl { s.sl sl with hot := [{ line := line, count := 1, start := s.sclk, last := s.sclk }] } := by
  simp [State.countHot, Slice.newHot, h]

section arrival
variable (h : AtHome s m d)
include h

theorem atHome_clear : (s.sl (homeOf m.line)).Clear m.line d := by
  obtain ⟨-, -, -, -, -, hdata, htxns, hfilling, hstable, hhot, -, hroom, -⟩ := h
  exact ⟨hdata, htxns, hfilling, hstable, by simp [hhot], hroom⟩

theorem atHome_core : isEci m.src = false := by
  obtain ⟨hsrc, -⟩ := h
  exact isEci_of_core hsrc

theorem atHome_unreserved : m.rsv = false := by
  obtain ⟨-, -, hrsv, -⟩ := h
  exact hrsv

theorem atHome_unmarked : m.mark = false := by
  obtain ⟨-, -, -, hmark, -⟩ := h
  exact hmark

/-- A core's request at its home is admitted. -/
theorem atHome_onRequest (e : Ev) : s.onRequest e m = s.takeReq (homeOf m.line) e := by
  have hcore := atHome_core h
  obtain ⟨-, hdst, -, -, hsweep, -, -, -, -, -, hfull, -, -⟩ := h
  have hreplica : s.replicaFor e m = none := by
    cases e <;> simp [State.replicaFor, hdst, homeId]
  have hroom : (s.sl (homeOf m.line)).full = false := by simpa [Slice.full] using hfull
  simp [State.onRequest, State.returnCredit_core hcore, State.eciFault, hcore, hsweep, hreplica, hroom]

/-- No helper serves a read of a core that redirects nothing. -/
theorem atHome_helperGrant : s.helperGrant m = none := by
  obtain ⟨-, -, -, -, -, -, -, -, -, -, -, -, hredirects⟩ := h
  have hnone : s.redirected m.src m.line = none := by simp [State.redirected, hredirects]
  simp [State.helperGrant, hnone]

/-- The home counts a read of a core. -/
theorem atHome_counted : s.countHot (homeOf m.line) m.line = s.setSl (homeOf m.line) { s.sl (homeOf m.line) with
    hot := [{ line := m.line, count := 1, start := s.sclk, last := s.sclk }] } := by
  obtain ⟨-, -, -, -, -, -, -, -, -, hhot, -, -, -⟩ := h
  exact State.countHot_first hhot

/-- The home's slice with other watches, and a hot table without replicas, is as clear as it was. -/
theorem atHome_tables {hot : List Hot} (hhot : ∀ e ∈ hot, e.active = false) (watches : List (Nat × Nat × Nat)) :
    let x := { s.sl (homeOf m.line) with hot := hot, watches := watches }
    ((s.setSl (homeOf m.line) x).sl (homeOf m.line)).Clear m.line d ∧
      ((s.setSl (homeOf m.line) x).sl (homeOf m.line)).node m.line = (s.sl (homeOf m.line)).node m.line ∧
      ((s.setSl (homeOf m.line) x).sl (homeOf m.line)).watches = watches := by
  intro x
  have hx : x.Clear m.line d := (atHome_clear h).of_tables hhot watches
  rw [State.sl_setSl hx.ne_default]
  exact ⟨hx, rfl, rfl⟩

end arrival

/-! ## Completion (R52, R58, R61 to R63) -/

section grants
variable (hnode : (s.sl sl).node m.line = some n) (conflict : Bool)
include hnode

theorem State.finish_rds_exclusive (hst : n.st ≠ .bcast) (h : (s.sl sl).exclusive n m = true) :
    s.finishRequest sl (.rds m) conflict = (s.modSl sl fun y => y.setNode (n.granted m.src)).grant sl m .e (n.granted m.src).ver true := by
  simp [State.finishRequest, hnode, hst, h]

theorem State.finish_rds_shared (hst : n.st = .shr) :
    s.finishRequest sl (.rds m) conflict = (s.addSharer sl n m.src m.line).grant sl m .s n.ver true := by
  simp [State.finishRequest, hnode, Slice.exclusive, hst]

theorem State.finish_rds_bcast (hst : n.st = .bcast) : s.finishRequest sl (.rds m) conflict = s.grant sl m .s n.ver true := by
  simp [State.finishRequest, hnode, hst]

theorem State.finish_rdx :
    s.finishRequest sl (.rdx m) conflict = (s.modSl sl fun y => y.setNode (n.granted m.src)).grant sl m .m (n.granted m.src).ver true := by
  simp [State.finishRequest, hnode]

theorem State.finish_upg : s.finishRequest sl (.upg m) false =
    (s.modSl sl fun y => y.setNode (n.granted m.src)).grant sl m .m (n.granted m.src).ver (!s.stillHolds m) := by
  simp [State.finishRequest, hnode]

end grants

section answers
variable (hcore : isEci m.src = false) (conflict : Bool)
include hcore

theorem State.finish_rdnc (hmark : m.mark = false) : s.finishRequest sl (.rdnc m) conflict = s.later (.cmp { replyTo sl m with
    data := some (BitVec.ofNat 512 (bytesAt (s.lineData sl m.line).data m.off m.len)), poison := (s.lineData sl m.line).poison }) := by
  simp [State.finishRequest, hmark, State.sendRsp_core hcore]

theorem State.finish_wrnc (hmark : m.mark = false) : s.finishRequest sl (.wrnc m) conflict =
    (s.homeWrite sl m.line m.src m.off m.len (bytesAt (m.data.getD 0) 0 m.len)).later (.cmp (replyTo sl m)) := by
  simp [State.finishRequest, hmark, State.sendRsp_core hcore]

theorem State.finish_wrf (hmark : m.mark = false) (hpoison : m.poison = false) : s.finishRequest sl (.wrf m) conflict =
    (s.homeWrite sl m.line m.src 0 64 (m.data.getD 0).toNat).later (.cmp (replyTo sl m)) := by
  simp [State.finishRequest, hmark, hpoison, State.sendRsp_core hcore]

theorem State.finish_llk : s.finishRequest sl (.llk m) conflict =
    (s.modSl sl fun y => { y with reservations := keepLast 64 ((y.reservations.filter fun e =>
      !(e.agent == m.src && e.thread == m.thread && e.line == m.line)) ++ [⟨m.src, m.thread, m.epoch, m.line⟩]) }).later
        (.lkd { replyTo sl m with data := some (s.lineData sl m.line).data, poison := (s.lineData sl m.line).poison }) := by
  simp [State.finishRequest, State.sendRsp_core hcore]

/-- The answer to an atomic that is not combined, with the old value and the second operand. -/
def atomAnswer (sl : Nat) (m : Msg) (d : Vec) : Ev :=
  .atr { replyTo sl m with
    txid2 := m.txid2, src2 := m.src2, data := some (putBytes (BitVec.ofNat 512 (bytesAt d m.off m.len)) 8 8 (bytesAt (m.data.getD 0) 8 8)) }

section atom
variable (hcmb : m.cmb = false) (hpoison : (s.lineData sl m.line).poison = false)
include hcmb hpoison

theorem State.finish_atom (h : m.atop ≠ 9 ∨ bytesAt (s.lineData sl m.line).data m.off m.len = bytesAt (m.data.getD 0) 0 m.len) :
    s.finishRequest sl (.atom m) conflict = (s.homeWrite sl m.line m.src m.off m.len (atomicNew m.atop m.len
      (bytesAt (s.lineData sl m.line).data m.off m.len) (bytesAt (m.data.getD 0) 0 m.len) (bytesAt (m.data.getD 0) 8 m.len))).later
        (atomAnswer sl m (s.lineData sl m.line).data) := by
  have hwrites : ¬ ((s.lineData sl m.line).poison = true ∨
      (m.atop = 9 ∧ bytesAt (s.lineData sl m.line).data m.off m.len ≠ bytesAt (m.data.getD 0) 0 m.len ∧ (!m.cmb) = true)) := by
    simp only [hpoison, Bool.false_eq_true, false_or]
    tauto
  simp only [State.finishRequest]
  rw [if_neg hwrites, State.sendRsp_core hcore]
  simp [hcmb, hpoison, atomAnswer, replyTo]

/-- COMPARE whose operand differs from the field writes nothing. -/
theorem State.finish_atom_differs (hop : m.atop = 9)
    (h : bytesAt (s.lineData sl m.line).data m.off m.len ≠ bytesAt (m.data.getD 0) 0 m.len) :
    s.finishRequest sl (.atom m) conflict = (s.settleWrite sl m.line m.src).later (atomAnswer sl m (s.lineData sl m.line).data) := by
  simp only [State.finishRequest]
  rw [if_pos (.inr ⟨hop, h, by simp [hcmb]⟩), State.sendRsp_core hcore]
  simp [hcmb, hpoison, atomAnswer, replyTo]

end atom

/-- SCK that holds its reservation writes. -/
theorem State.finish_sck (h : (⟨m.src, m.thread, m.epoch, m.line⟩ : Reservation) ∈ (s.sl sl).reservations)
    (hpoison : (s.lineData sl m.line).poison = false) : s.finishRequest sl (.sck m) conflict =
      (s.homeWrite sl m.line m.src m.off m.len (bytesAt (m.data.getD 0) 0 m.len)).later (.cmp (replyTo sl m)) := by
  have hheld : ((s.sl sl).reservations.any fun r => r.agent == m.src && r.thread == m.thread && r.epoch == m.epoch && r.line == m.line) = true :=
    List.any_eq_true.2 ⟨_, h, by simp⟩
  simp [State.finishRequest, hheld, hpoison, State.sendRsp_core hcore]

/-- SCK without its reservation fails. -/
theorem State.finish_sck_fails (h : ∀ e ∈ (s.sl sl).reservations, e ≠ ⟨m.src, m.thread, m.epoch, m.line⟩) :
    s.finishRequest sl (.sck m) conflict = s.later (.scf (replyTo sl m)) := by
  have hnone : ((s.sl sl).reservations.any fun r => r.agent == m.src && r.thread == m.thread && r.epoch == m.epoch && r.line == m.line) = false := by
    refine List.any_eq_false.2 fun ⟨agent, thread, epoch, line⟩ he hsame => h _ he ?_
    simp only [Bool.and_eq_true, beq_iff_eq] at hsame
    obtain ⟨⟨⟨rfl, rfl⟩, rfl⟩, rfl⟩ := hsame
    rfl
  simp [State.finishRequest, hnone, State.sendRsp_core hcore]

end answers

section watch
variable (hmem : (m.src, m.thread, m.txid * 2 ^ 42 + m.line) ∈ (s.sl sl).watches) (hpoison : (s.lineData sl m.line).poison = false)
  (conflict : Bool)
include hmem hpoison

/-- WATCH on a value that has changed wakes the thread at once. -/
theorem State.finish_watch_differs (h : bytesAt (s.lineData sl m.line).data m.off 8 ≠ bytesAt (m.data.getD 0) 0 8) :
    s.finishRequest sl (.watch m) conflict =
      (s.modSl sl fun y => { y with watches := y.watches.filter (· != (m.src, m.thread, m.txid * 2 ^ 42 + m.line)) }).sendWoke sl
        (m.src, m.thread, m.line) m.txid 0 0 := by
  simp only [State.finishRequest]
  rw [if_neg (by simpa using hmem), if_neg (by simp [hpoison]), if_pos h]
  rfl

/-- WATCH on the value awaited waits. -/
theorem State.finish_watch_waits (h : bytesAt (s.lineData sl m.line).data m.off 8 = bytesAt (m.data.getD 0) 0 8) :
    s.finishRequest sl (.watch m) conflict = s := by
  simp only [State.finishRequest]
  rw [if_neg (by simpa using hmem), if_neg (by simp [hpoison]), if_neg (not_not.2 h)]

end watch

end Sys2Proof.Machine
end

section
/-!
SUPPORT. The step of each kind of request that its home can complete at once, from its arrival on.
-/

namespace Sys2Proof.Machine

variable {s u : State} {m : Msg} {d : SLine} {n : Node}

/-- A core's request at its home does what its admission does. -/
theorem steps_of_takeReq {e : Ev} {i : Instr} {s' : State} (hat : AtHome s m d)
    (hi : exec i s = msgEvent m 0 (fun s => s.onRequest e m) s) (h : s.takeReq (homeOf m.line) e = s') : Steps i s s' :=
  steps_of_msg hi (atHome_unreserved hat) ((atHome_onRequest hat e).trans h)

/-- A request whose home has no holder of the line to ask, and whose hot table and watches may have changed since, is completed. -/
theorem serve_noHolder {e : Ev} (hfree : AtHome s m d ∧ NoHolder s m) (hclear : (u.sl (homeOf m.line)).Clear m.line d)
    (hnode : (u.sl (homeOf m.line)).node m.line = (s.sl (homeOf m.line)).node m.line) (hm : reqMsg u (homeOf m.line) e = m)
    (hone : ∀ a b, e ≠ .mcrdWindowClose a b) :
    u.serve (homeOf m.line) e = (TakenUp u (homeOf m.line) m.line).finishRequest (homeOf m.line) e false := by
  refine State.serve_direct hclear hm hone fun n hn => ?_
  obtain ⟨hst, hsh, hovf⟩ := hfree.2 n (hnode.symm.trans hn)
  exact .of_idle hst hsh hovf _ _

section atNode
variable (hat : AtHome s m d) (hnode : (s.sl (homeOf m.line)).node m.line = some n)
include hat hnode

/-- RDS is counted, and completed at a node that it meets directly. -/
theorem rds_steps {s' : State} (hu : s.countHot (homeOf m.line) m.line = u) (hdirect : n.Direct .rds m.src)
    (hdone : ((TakenUp u (homeOf m.line) m.line).sl (homeOf m.line)).stable = [] →
      ((TakenUp u (homeOf m.line) m.line).sl (homeOf m.line)).node m.line = some (n.usedAt s.sclk) →
      (TakenUp u (homeOf m.line) m.line).finishRequest (homeOf m.line) (.rds m) false = s') : Steps (.rds m) s s' := by
  obtain rfl := (atHome_counted hat).symm.trans hu
  obtain ⟨hclear, hsame, -⟩ := atHome_tables hat (hot := [{ line := m.line, count := 1, start := s.sclk, last := s.sclk }]) (by simp)
    (s.sl (homeOf m.line)).watches
  have hnode' := hsame.trans hnode
  have hserve := State.serve_direct (e := .rds m) hclear rfl (by simp) fun _ hn' => Option.some.inj (hnode'.symm.trans hn') ▸ hdirect
  have hstable := (tables_takenUp hclear.data).1.trans hclear.stable
  refine steps_of_msg rfl (atHome_unreserved hat) ?_
  rw [atHome_helperGrant hat]
  refine (atHome_onRequest hat _).trans ((congrArg (State.serve · (homeOf m.line) (.rds m)) hu).trans (hserve.trans ?_))
  exact hdone hstable (node_takenUp_some hclear.data hnode')

/-- A request other than a read for sharing, at a node that it meets directly. -/
theorem serve_node {e : Ev} (hdirect : n.Direct (reqKind e) m.src) (hm : reqMsg s (homeOf m.line) e = m) (hone : ∀ a b, e ≠ .mcrdWindowClose a b) :
    s.serve (homeOf m.line) e = (TakenUp s (homeOf m.line) m.line).finishRequest (homeOf m.line) e false :=
  State.serve_direct (atHome_clear hat) hm hone fun _ hn' => Option.some.inj (hnode.symm.trans hn') ▸ hdirect

theorem rdx_steps (hdirect : n.Direct (.own false) m.src) :
    Steps (.rdx m) s (((TakenUp s (homeOf m.line) m.line).modSl (homeOf m.line) fun y =>
      y.setNode ((n.usedAt s.sclk).granted m.src)).grant (homeOf m.line) m .m ((n.usedAt s.sclk).granted m.src).ver true) :=
  steps_of_takeReq hat rfl ((serve_node (e := .rdx m) hat hnode hdirect rfl (by simp)).trans
    (State.finish_rdx (node_takenUp_some (atHome_clear hat).data hnode) false))

theorem upg_steps (hdirect : n.Direct (.own true) m.src) {holds : Bool} (hholds : s.stillHolds m = holds) :
    Steps (.upg m) s (((TakenUp s (homeOf m.line) m.line).modSl (homeOf m.line) fun y =>
      y.setNode ((n.usedAt s.sclk).granted m.src)).grant (homeOf m.line) m .m ((n.usedAt s.sclk).granted m.src).ver (!holds)) := by
  refine steps_of_takeReq hat rfl ((serve_node (e := .upg m) hat hnode hdirect rfl (by simp)).trans ?_)
  rw [State.finish_upg (node_takenUp_some (atHome_clear hat).data hnode), stillHolds_takenUp, hholds]

end atNode

section free
variable (hfree : AtHome s m d ∧ NoHolder s m)
include hfree

/-- A request other than a read, a watch or an atomic, with no holder to ask, is completed. -/
theorem served_noHolder {e : Ev} (hm : reqMsg s (homeOf m.line) e = m) (hone : ∀ a b, e ≠ .mcrdWindowClose a b) :
    s.serve (homeOf m.line) e = (TakenUp s (homeOf m.line) m.line).finishRequest (homeOf m.line) e false :=
  serve_noHolder hfree (atHome_clear hfree.1) rfl hm hone

theorem lineData_up : (TakenUp s (homeOf m.line) m.line).lineData (homeOf m.line) m.line = { d with used := s.sclk } :=
  lineData_takenUp (atHome_clear hfree.1).data

theorem rdnc_steps (hu : s.countHot (homeOf m.line) m.line = u) :
    Steps (.rdnc m) s ((TakenUp u (homeOf m.line) m.line).later (.cmp { replyTo (homeOf m.line) m with
      data := some (BitVec.ofNat 512 (bytesAt d.data m.off m.len)), poison := d.poison })) := by
  obtain rfl := (atHome_counted hfree.1).symm.trans hu
  obtain ⟨hclear, hsame, -⟩ := atHome_tables hfree.1 (hot := [{ line := m.line, count := 1, start := s.sclk, last := s.sclk }]) (by simp)
    (s.sl (homeOf m.line)).watches
  have hserve := serve_noHolder (e := .rdnc m) hfree hclear hsame rfl (by simp)
  refine steps_of_takeReq hfree.1 rfl ((congrArg (State.serve · (homeOf m.line) (.rdnc m)) hu).trans (hserve.trans ?_))
  rw [State.finish_rdnc (atHome_core hfree.1) false (atHome_unmarked hfree.1), lineData_takenUp hclear.data]

theorem wrnc_steps : Steps (.wrnc m) s (((TakenUp s (homeOf m.line) m.line).homeWrite (homeOf m.line) m.line m.src m.off
    m.len (bytesAt (m.data.getD 0) 0 m.len)).later (.cmp (replyTo (homeOf m.line) m))) :=
  steps_of_takeReq hfree.1 rfl ((served_noHolder (e := .wrnc m) hfree rfl (by simp)).trans (State.finish_wrnc (atHome_core hfree.1) false (atHome_unmarked hfree.1)))

theorem wrf_steps (hpoison : m.poison = false) : Steps (.wrf m) s (((TakenUp s (homeOf m.line) m.line).homeWrite
    (homeOf m.line) m.line m.src 0 64 (m.data.getD 0).toNat).later (.cmp (replyTo (homeOf m.line) m))) :=
  steps_of_takeReq hfree.1 rfl ((served_noHolder (e := .wrf m) hfree rfl (by simp)).trans
    (State.finish_wrf (atHome_core hfree.1) false (atHome_unmarked hfree.1) hpoison))

section atom
variable (hgood : badAtom m = false) (hcmb : m.cmb = false) (hpoison : d.poison = false)
include hgood hcmb hpoison

/-- An atomic that writes its field. -/
theorem atom_steps (h : m.atop ≠ 9 ∨ bytesAt d.data m.off m.len = bytesAt (m.data.getD 0) 0 m.len) :
    Steps (.atom m) s (((TakenUp s (homeOf m.line) m.line).homeWrite (homeOf m.line) m.line m.src m.off m.len (atomicNew m.atop m.len
      (bytesAt d.data m.off m.len) (bytesAt (m.data.getD 0) 0 m.len) (bytesAt (m.data.getD 0) 8 m.len))).later
        (atomAnswer (homeOf m.line) m d.data)) := by
  have hdata := lineData_up hfree
  refine steps_of_takeReq hfree.1 rfl ((if_neg (by simp [hgood])).trans ((served_noHolder (e := .atom m) hfree rfl (by simp)).trans ?_))
  rw [State.finish_atom (atHome_core hfree.1) false hcmb (by rw [hdata]; exact hpoison) (by rw [hdata]; exact h), hdata]

/-- COMPARE of another value. -/
theorem atom_steps_differs (hop : m.atop = 9) (h : bytesAt d.data m.off m.len ≠ bytesAt (m.data.getD 0) 0 m.len) :
    Steps (.atom m) s (((TakenUp s (homeOf m.line) m.line).settleWrite (homeOf m.line) m.line m.src).later
      (atomAnswer (homeOf m.line) m d.data)) := by
  have hdata := lineData_up hfree
  refine steps_of_takeReq hfree.1 rfl ((if_neg (by simp [hgood])).trans ((served_noHolder (e := .atom m) hfree rfl (by simp)).trans ?_))
  rw [State.finish_atom_differs (atHome_core hfree.1) false hcmb (by rw [hdata]; exact hpoison) hop (by rw [hdata]; exact h), hdata]

end atom

theorem llk_steps : Steps (.llk m) s (((TakenUp s (homeOf m.line) m.line).modSl (homeOf m.line) fun y => { y with
    reservations := keepLast 64 ((y.reservations.filter fun e => !(e.agent == m.src && e.thread == m.thread && e.line == m.line)) ++
      [⟨m.src, m.thread, m.epoch, m.line⟩]) }).later (.lkd { replyTo (homeOf m.line) m with data := some d.data, poison := d.poison })) := by
  refine steps_of_takeReq hfree.1 rfl ((served_noHolder (e := .llk m) hfree rfl (by simp)).trans ?_)
  rw [State.finish_llk (atHome_core hfree.1) false, lineData_up hfree]

theorem reservations_up : ((TakenUp s (homeOf m.line) m.line).sl (homeOf m.line)).reservations = (s.sl (homeOf m.line)).reservations :=
  (tables_takenUp (atHome_clear hfree.1).data).2.1

theorem sck_steps (hmem : (⟨m.src, m.thread, m.epoch, m.line⟩ : Reservation) ∈ (s.sl (homeOf m.line)).reservations) (hpoison : d.poison = false) :
    Steps (.sck m) s (((TakenUp s (homeOf m.line) m.line).homeWrite (homeOf m.line) m.line m.src m.off m.len
      (bytesAt (m.data.getD 0) 0 m.len)).later (.cmp (replyTo (homeOf m.line) m))) := by
  refine steps_of_takeReq hfree.1 rfl ((served_noHolder (e := .sck m) hfree rfl (by simp)).trans
    (State.finish_sck (atHome_core hfree.1) false ?_ ?_))
  · rwa [reservations_up hfree]
  · rw [lineData_up hfree]
    exact hpoison

theorem sck_steps_fails (hnone : ∀ e ∈ (s.sl (homeOf m.line)).reservations, e ≠ ⟨m.src, m.thread, m.epoch, m.line⟩) :
    Steps (.sck m) s ((TakenUp s (homeOf m.line) m.line).later (.scf (replyTo (homeOf m.line) m))) := by
  refine steps_of_takeReq hfree.1 rfl ((served_noHolder (e := .sck m) hfree rfl (by simp)).trans
    (State.finish_sck_fails (atHome_core hfree.1) false ?_))
  rwa [reservations_up hfree]

/-- WATCH takes a table entry, and is completed with the line at hand and its entry in the table. -/
theorem watch_steps {s' : State} (hroom : (s.sl (homeOf m.line)).watches.length < 128)
    (hu : (s.setSl (homeOf m.line) { s.sl (homeOf m.line) with
      watches := (s.sl (homeOf m.line)).watches ++ [(m.src, m.thread, m.txid * 2 ^ 42 + m.line)] }) = u)
    (hdone : (m.src, m.thread, m.txid * 2 ^ 42 + m.line) ∈ ((TakenUp u (homeOf m.line) m.line).sl (homeOf m.line)).watches →
      (TakenUp u (homeOf m.line) m.line).lineData (homeOf m.line) m.line = { d with used := s.sclk } →
      (TakenUp u (homeOf m.line) m.line).finishRequest (homeOf m.line) (.watch m) false = s') : Steps (.watch m) s s' := by
  subst hu
  obtain ⟨hclear, hsame, hwatches⟩ := atHome_tables hfree.1 (atHome_clear hfree.1).hot
    ((s.sl (homeOf m.line)).watches ++ [(m.src, m.thread, m.txid * 2 ^ 42 + m.line)])
  have hserve := serve_noHolder (e := .watch m) hfree hclear hsame rfl (by simp)
  have htable := (tables_takenUp hclear.data).2.2.trans hwatches
  refine steps_of_takeReq hfree.1 rfl ((if_pos hroom).trans (hserve.trans (hdone ?_ (lineData_takenUp hclear.data))))
  exact (congrArg ((m.src, m.thread, m.txid * 2 ^ 42 + m.line) ∈ ·) htable).mpr (List.mem_append_right _ List.mem_cons_self)

end free

end Sys2Proof.Machine
end

section
/-!
CERTIFICATE. A request that its home can complete at once.
-/

open Sys2Proof Sys2Proof.Machine Sys2Proof.Laws

/-- Settles O21: the request is admitted, served on a clear line, taken up, and completed at a node that it meets directly. -/
theorem homeRequestResults : Obligations.HomeRequestResults := by
  intro s m d n h x r counted up record now own bytes arg put at_ node free
  have hcounted (hat : at_) : s.countHot h m.line = counted := atHome_counted hat
  refine ⟨fun hnode => ?_, fun hnode => ?_, fun hnode => ?_, fun hnode => ?_, fun hnode => ?_,
    fun hfree => rdnc_steps hfree (hcounted hfree.1), fun hfree => wrnc_steps hfree,
    fun hfree hpoison => wrf_steps hfree hpoison, fun hat hbad => ?_,
    fun hfree hgood hcmb hpoison => ⟨fun h => atom_steps hfree hgood hcmb hpoison h, fun hop h => atom_steps_differs hfree hgood hcmb hpoison hop h⟩,
    fun hfree => llk_steps hfree, fun hfree hmem hpoison => sck_steps hfree hmem hpoison, fun hfree hnone => sck_steps_fails hfree hnone,
    fun hfree hroom hpoison => ⟨fun hsame => ?_, fun hdiffers => ?_⟩⟩
  · obtain ⟨hat, hnode, hst, hsh, hovf⟩ := hnode
    refine rds_steps hat hnode (hcounted hat) (.rds (by rcases hst with hst | hst <;> simp [hst])) fun hstable hused => ?_
    refine State.finish_rds_exclusive hused false ?_ (Slice.exclusive_of_alone hstable hst hsh hovf)
    rcases hst with hst | ⟨hst, -⟩ <;> simp [Node.usedAt, hst]
  · obtain ⟨hat, hnode, hst⟩ := hnode
    exact rds_steps hat hnode (hcounted hat) (.rds (by simp [hst])) fun _ hused => State.finish_rds_shared hused false hst
  · obtain ⟨hat, hnode, hst⟩ := hnode
    exact rds_steps hat hnode (hcounted hat) (.rds (by simp [hst])) fun _ hused => State.finish_rds_bcast hused false hst
  · obtain ⟨hat, hnode, hst, hsh, hovf⟩ := hnode
    exact rdx_steps hat hnode (.of_idle hst hsh hovf _ _)
  · obtain ⟨hat, hnode, hst, hsh, hovf⟩ := hnode
    exact ⟨rdx_steps hat hnode (.sharer hst hsh hovf _), upg_steps hat hnode (.sharer hst hsh hovf _) (holds := true),
      upg_steps hat hnode (.sharer hst hsh hovf _) (holds := false)⟩
  · exact steps_of_takeReq hat rfl ((if_pos hbad).trans (State.sendRsp_core (atHome_core hat) _))
  · refine watch_steps hfree hroom rfl fun hmem hdata => State.finish_watch_waits hmem ?_ false ?_
    · rw [hdata]
      exact hpoison
    · rw [hdata]
      exact hsame
  · refine watch_steps hfree hroom rfl fun hmem hdata => State.finish_watch_differs hmem ?_ false ?_
    · rw [hdata]
      exact hpoison
    · rw [hdata]
      exact hdiffers
end

section
/-!
SUPPORT. The translation service's answers, page requests and invalidations, one by one (R71, R73, R74, R78 to R81).
-/

namespace Sys2Proof.Machine

variable {s : State}

/-! ## The oldest element that meets a test -/

theorem takeFirst_none {α : Type} {p : α → Bool} {l : List α} (h : ∀ x ∈ l, p x = false) : takeFirst p l = none := by
  induction l with
  | nil => rfl
  | cons x l ih =>
    obtain ⟨hx, hl⟩ := List.forall_mem_cons.1 h
    simp [takeFirst, hx, ih hl]

theorem takeFirst_head {α : Type} {p : α → Bool} {x : α} (h : p x = true) (l : List α) : takeFirst p (x :: l) = some (x, l) := if_pos h

/-! ## Translation completions (R71, R79, R80) -/

section completion
variable {q : AtsReq} {c : AtsCompletion} {wt : XlatWait}

/-- The only Translation Request outstanding has been answered. -/
def State.atsAnswered (s : State) (tag : Nat) : State :=
  { s with svc := { s.svc with ats := [] }, port := { s.port with atsSent := s.port.atsSent.filter fun e => e.1 != tag } }

/-- The entry that a completion gives the page of its request. -/
def AtsReq.entry (q : AtsReq) (c : AtsCompletion) : Xlat :=
  { pasid := q.pasid, gen := q.gen, sizeLog := max c.sizeLog 12, vpn := q.vpn * 4096 / 2 ^ max c.sizeLog 12
    ppn := c.pa / 2 ^ max c.sizeLog 12, r := c.r, w := c.w, x := c.x, priv := c.priv }

theorem State.onAtsCompletion_unasked (h : ∀ e ∈ s.svc.ats, e.tag ≠ c.tag) : s.onAtsCompletion c = s := by
  rw [State.onAtsCompletion, takeFirst_none fun e he => beq_false_of_ne (h e he)]

/-- The completion of the only request: its one waiter meets the answer, or is woken where the generation is old or the PASID not bound. -/
theorem State.onAtsCompletion_only (hats : s.svc.ats = [q]) (htag : q.tag = c.tag) (hwaits : q.waits = [wt]) :
    s.onAtsCompletion c =
      if q.gen ≠ s.genOf q.pasid ∨ !s.svc.bound.contains q.pasid then (s.atsAnswered c.tag).wakeWaiter wt.w
      else (s.atsAnswered c.tag).answerAts q c (q.entry c) wt := by
  rw [State.onAtsCompletion, hats, takeFirst_head (p := fun q : AtsReq => q.tag == c.tag) (beq_iff_eq.2 htag)]
  simp only [hwaits]
  rfl

theorem State.onAtsCompletion_old (hats : s.svc.ats = [q]) (htag : q.tag = c.tag) (hwaits : q.waits = [wt])
    (hold : q.gen ≠ s.genOf q.pasid ∨ q.pasid ∉ s.svc.bound) : s.onAtsCompletion c = (s.atsAnswered c.tag).wakeWaiter wt.w :=
  (State.onAtsCompletion_only hats htag hwaits).trans (if_pos (by simpa using hold))

theorem State.onAtsCompletion_live (hats : s.svc.ats = [q]) (htag : q.tag = c.tag) (hwaits : q.waits = [wt])
    (hgen : q.gen = s.genOf q.pasid) (hbound : q.pasid ∈ s.svc.bound) :
    s.onAtsCompletion c = (s.atsAnswered c.tag).answerAts q c (q.entry c) wt :=
  (State.onAtsCompletion_only hats htag hwaits).trans (if_neg (by simp [hgen, hbound]))

theorem permits_iff {a : Access} {r w x priv : Bool} :
    permits a r w x priv = true ↔
      (a.r = true → r = true) ∧ (a.wr = true → w = true) ∧ (a.x = true → x = true) ∧ (a.priv = true → priv = true) := by
  simp only [permits, Bool.and_eq_true, Bool.or_eq_true, Bool.not_eq_true', ← Bool.not_eq_true, ← Decidable.imp_iff_not_or, and_assoc]

theorem Service.binding_iff {v : Service} {pasid : Nat} : v.binding pasid = true ↔ ∃ i ∈ v.invals, i.bindPasid = some pasid := by
  simp [Service.binding]

theorem State.answerAts_abort (h : c.abort = true) (e : Xlat) : s.answerAts q c e wt = s.failWaiter wt.w Cause.pageFail q.vpn := if_pos h

theorem AtsCompletion.present (h : c.r = true ∨ c.w = true) : (!c.r && !c.w) = false := by rcases h with h | h <;> simp [h]

section present
variable {e : Xlat} (habort : c.abort = false) (hpresent : c.r = true ∨ c.w = true)
include habort hpresent

/-- A translation that is marked untranslated-only, or leads beyond installed DRAM, gives ACCESS. -/
theorem State.answerAts_unusable (h : c.u = true ∨ ¬ e.pa (q.vpn * 4096) + 4096 ≤ s.memTop) :
    s.answerAts q c e wt = s.failWaiter wt.w Cause.access q.vpn := by
  simp only [State.answerAts, habort, AtsCompletion.present hpresent, Bool.false_eq_true, if_false]
  split
  · rfl
  · next hu => exact if_pos (by simpa [hu] using h)

/-- A translation that grants what the access needs: used once where the request is stale or a bind of the PASID is in progress, else
installed. -/
theorem State.answerAts_granted (hu : c.u = false) (hfits : e.pa (q.vpn * 4096) + 4096 ≤ s.memTop)
    (hallowed : (wt.needR = true → c.r = true) ∧ (wt.needW = true → c.w = true) ∧ (wt.needX = true → c.x = true) ∧
      (wt.priv = true → c.priv = true)) :
    s.answerAts q c e wt =
      if q.stale = true ∨ s.svc.binding q.pasid = true then
        (s.modX wt.w fun x => { x with once := x.once ++
          [{ vpn := q.vpn, ppn := e.pa (q.vpn * 4096) / 4096, r := c.r, w := c.w, x := c.x, priv := c.priv }] }).wakeWaiter wt.w
      else ((s.installAtc e).installCtu wt.cluster (e.forCtu (q.vpn * 4096))).wakeWaiter wt.w := by
  have hpermits := (permits_iff (a := { w := wt.w, cluster := wt.cluster, pasid := q.pasid, priv := wt.priv, r := wt.needR, wr := wt.needW
                                        x := wt.needX })).2 hallowed
  simp only [State.answerAts, habort, AtsCompletion.present hpresent, hu, hpermits, Nat.not_lt.2 hfits, Bool.false_eq_true, Bool.not_true, if_false]

end present
end completion

/-! ## Page requests (R73, R74) -/

section pages
variable {p : PageReq} {rest : List PageReq} {prg : Nat}

/-- The page request of an index has ended; the others stay. -/
def State.pageEnded (s : State) (prg : Nat) (rest : List PageReq) : State :=
  { s with svc := { s.svc with pages := rest }, port := { s.port with priSent := s.port.priSent.filter fun e => e.1 != prg } }

/-- The page request of an index has timed out: the index stays in use for the late response. -/
def State.pageTimedOut (s : State) (prg : Nat) (rest : List PageReq) : State :=
  { s with svc := { s.svc with pages := rest, latePrgs := s.svc.latePrgs ++ [prg] }
           port := { s.port with priSent := s.port.priSent.filter fun e => e.1 != prg } }

theorem takeFirst_page_none {l : List PageReq} (h : ∀ p ∈ l, p.sent = false ∨ p.prg ≠ prg) :
    takeFirst (fun p : PageReq => p.sent && p.prg == prg) l = none :=
  takeFirst_none fun p hp => by rcases h p hp with h | h <;> simp [h]

theorem takeFirst_page (hsent : p.sent = true) (hprg : p.prg = prg) :
    takeFirst (fun p : PageReq => p.sent && p.prg == prg) (p :: rest) = some (p, rest) :=
  takeFirst_head (by simp [hsent, hprg]) rest

theorem State.onPageResponse_late (h : ∀ p ∈ s.svc.pages, p.sent = false ∨ p.prg ≠ prg) (code : PriCode) :
    s.onPageResponse prg code = State.sendPages { s with svc := { s.svc with latePrgs := s.svc.latePrgs.filter (· != prg) } } := by
  rw [State.onPageResponse, takeFirst_page_none h]

theorem State.onPageTimeout_none (h : ∀ p ∈ s.svc.pages, p.sent = false ∨ p.prg ≠ prg) : s.onPageTimeout prg = s := by
  rw [State.onPageTimeout, takeFirst_page_none h]

section first
variable (hpages : s.svc.pages = p :: rest) (hsent : p.sent = true) (hprg : p.prg = prg)
include hpages hsent hprg

theorem State.onPageResponse_success :
    s.onPageResponse prg .success = State.sendPages (((s.pageEnded prg rest).dropPage p.pasid p.vpn).endPage p none) := by
  rw [State.onPageResponse, hpages, takeFirst_page hsent hprg]
  rfl

theorem State.onPageResponse_invalid :
    s.onPageResponse prg .invalid = State.sendPages ((s.pageEnded prg rest).endPage p (some Cause.pageFail)) := by
  rw [State.onPageResponse, hpages, takeFirst_page hsent hprg]
  rfl

/-- Response Failure stops PRI; with no fault queued for a page request, nothing else fails. -/
theorem State.onPageResponse_failure (hall : ∀ e ∈ rest, e.sent = true) :
    s.onPageResponse prg .failure =
      ({ s.pageEnded prg rest with svc := { (s.pageEnded prg rest).svc with priStopped := true } } : State).endPage p (some Cause.pageFail) := by
  have hqueued : rest.filter (fun e => !e.sent) = [] := List.filter_eq_nil_iff.2 fun e he => by simp [hall e he]
  have hkept : rest.filter PageReq.sent = rest := List.filter_eq_self.2 hall
  rw [State.onPageResponse, hpages, takeFirst_page hsent hprg]
  simp only [hqueued, hkept]
  rfl

theorem State.onPageTimeout_first :
    s.onPageTimeout prg = State.sendPages (((s.pageTimedOut prg rest).endPage p (some Cause.pageFail)).corrected .hostPort 0) := by
  rw [State.onPageTimeout, hpages, takeFirst_page hsent hprg]
  rfl

end first
end pages

/-! ## Invalidations (R78 to R81) -/

section invalidation
variable {r : AtsInvalidate} {i : Inval} {rest : List Inval} {itag : Nat}

/-- What an invalidation covers has been removed, and the accesses in flight are recorded; no bank-compute job is concerned. -/
def State.invalidated (s : State) (r : AtsInvalidate) (bind : Option Nat) : State :=
  let hit (e : Xlat) : Bool := invalCovers r e.pasid (e.vpn * 2 ^ e.sizeLog) e.sizeLog
  { s with
    svc := { s.svc with
      atc := s.svc.atc.filter fun e => !hit e
      ats := mapIf (fun q => invalCovers r q.pasid (q.vpn * 4096) 12) (fun q => { q with stale := true }) s.svc.ats
      invals := s.svc.invals ++ [{ itag := r.itag, req := r, pends := s.inFlight.1, stores := s.inFlight.2, elems := s.elemsInFlight,
                                    bindPasid := bind }] }
    clusters := s.clusters.map fun c => (c.1, { c.2 with ctu := c.2.ctu.filter fun e => !hit e }) }

theorem State.startInval_jobless (h : s.bmv.jobs = []) (bind : Option Nat) : s.startInval r bind = s.invalidated r bind := by
  have hbmv : { s.bmv with jobs := [] } = s.bmv := by rw [← h]
  rw [State.startInval]
  simp only [h, List.filter_nil, List.map_nil, List.any_nil, Bool.and_false, Bool.false_eq_true, if_false, mapIf, foldS, List.foldl_nil,
    List.foldl_fixed, hbmv]
  rfl

theorem State.onInvalidate_full (h : 32 ≤ s.svc.hostInvals) :
    s.onInvalidate r = { s with svc := { s.svc with invalWait := s.svc.invalWait ++ [r] } } := if_neg (Nat.not_lt.2 h)

theorem State.onInvalidate_jobless (h : s.svc.hostInvals < 32) (hjobs : s.bmv.jobs = []) : s.onInvalidate r = s.invalidated r none :=
  (if_pos h).trans (State.startInval_jobless hjobs none)

theorem State.nextInval_nil (h : s.svc.invalWait = []) : s.nextInval = s := by rw [State.nextInval, h]

theorem State.nextInval_cons {l : List AtsInvalidate} (h : s.svc.invalWait = r :: l) :
    s.nextInval = State.startInval { s with svc := { s.svc with invalWait := l } } r none := by
  rw [State.nextInval, h]

theorem State.onInvalDone_none (h : ∀ i ∈ s.svc.invals, i.itag = itag → s.invalDone i = false) : s.onInvalDone itag = s := by
  rw [State.onInvalDone, takeFirst_none fun i hi => ?_]
  by_cases htag : i.itag = itag
  · simp [h i hi htag]
  · simp [htag]

section first
variable (hinvals : s.svc.invals = i :: rest) (htag : i.itag = itag) (hdone : s.invalDone i = true)
include hinvals htag hdone

/-- An invalidation of the host completes, and the oldest that waits begins. -/
theorem State.onInvalDone_host (hhost : i.bindPasid = none) : s.onInvalDone itag =
    State.nextInval { s with svc := { s.svc with invals := rest }, port := { s.port with invDone := s.port.invDone ++ [itag] } } := by
  rw [State.onInvalDone, hinvals, takeFirst_head (by simp [htag, hdone])]
  simp only [hhost]

/-- The invalidation of a bind completes with the PASID's next generation, once nothing of that generation is outstanding. -/
theorem State.onInvalDone_bind {p : Nat} (hbind : i.bindPasid = some p) (hats : ∀ e ∈ s.svc.ats, e.pasid ≠ p ∨ e.gen ≠ s.genOf p + 1)
    (hpages : ∀ e ∈ s.svc.pages, e.pasid ≠ p ∨ e.gen ≠ s.genOf p + 1) : s.onInvalDone itag =
    { s with svc := { s.svc with invals := rest, gens := Tbl.put 0 s.svc.gens p (s.genOf p + 1) } } := by
  have hnoAts : (s.svc.ats.any fun q => q.pasid == p && q.gen == s.genOf p + 1) = false :=
    List.any_eq_false.2 fun e he => by simpa [← imp_iff_not_or] using hats e he
  have hnoPages : (s.svc.pages.any fun q => q.pasid == p && q.gen == s.genOf p + 1) = false :=
    List.any_eq_false.2 fun e he => by simpa [← imp_iff_not_or] using hpages e he
  rw [State.onInvalDone, hinvals, takeFirst_head (by simp [htag, hdone])]
  simp only [hbind, hnoAts, hnoPages, Bool.or_self, Bool.false_eq_true, if_false]

end first
end invalidation

/-! ## Stop markers (R81) -/

theorem State.onStopMarker_sent {pasid : Nat} (h : pasid ∈ s.svc.stopPending) (hpages : ∀ p ∈ s.svc.pages, p.pasid ≠ pasid) :
    s.onStopMarker pasid = { s with svc := { s.svc with stopPending := s.svc.stopPending.filter (· != pasid) }
                                    port := { s.port with stopMarkers := s.port.stopMarkers ++ [pasid] } } :=
  if_pos (by simpa [h] using hpages)

theorem State.onStopMarker_waits {pasid : Nat} (h : pasid ∉ s.svc.stopPending ∨ ∃ p ∈ s.svc.pages, p.pasid = pasid) :
    s.onStopMarker pasid = s :=
  if_neg fun ⟨hpending, hpages⟩ => by
    rcases h with h | ⟨p, hp, heq⟩
    · exact h (by simpa using hpending)
    · exact absurd heq (by simpa using List.all_eq_true.1 hpages p hp)

end Sys2Proof.Machine
end

section
/-!
CERTIFICATE. Completions, page responses and invalidations of the translation service.
-/

open Sys2Proof Sys2Proof.Machine Sys2Proof.Laws

/-- Settles O20: each step is its handler on the state that the clause describes. -/
theorem translationSteps : Obligations.TranslationSteps := by
  intro s on c q wt prg pasid itag r v answered k x live fits allowed once ended late
  have hanswer (hlive : live) {s' : State} (h : answered.answerAts q c x wt = s') : Steps (.atsTranslationCompletion c) s s' := by
    obtain ⟨hats, htag, hgen, hbound, hwaits⟩ := hlive
    exact steps_of_next rfl ((State.onAtsCompletion_live hats htag hwaits hgen hbound).trans h)
  refine ⟨rfl, fun hnone => steps_of_next rfl (State.onAtsCompletion_unasked hnone),
    fun hats htag hwaits hold => steps_of_next rfl (State.onAtsCompletion_old hats htag hwaits hold),
    fun hlive habort => ?_, fun hlive habort hpresent hbad => ?_, fun hlive habort hpresent hu hfits hallowed honce => ?_,
    fun hlive habort hpresent hu hfits hallowed honce => ?_,
    fun hnone => ⟨fun code => steps_of_next rfl (State.onPageResponse_late hnone code), steps_of_next rfl (State.onPageTimeout_none hnone)⟩,
    fun p rest hpages hsent hprg => ?_, fun hfull => steps_of_next rfl (State.onInvalidate_full hfull), fun hroom hjobs => ?_,
    fun i rest hinvals htag hdone => ?_, fun hnone => steps_of_next rfl (State.onInvalDone_none hnone),
    fun hpending hpages => steps_of_next rfl (State.onStopMarker_sent hpending hpages),
    fun hwaits => steps_of_next rfl (State.onStopMarker_waits hwaits)⟩
  · exact hanswer hlive (State.answerAts_abort habort x)
  · exact hanswer hlive (State.answerAts_unusable habort hpresent hbad)
  · exact hanswer hlive ((State.answerAts_granted (s := answered) habort hpresent hu hfits hallowed).trans
      (if_neg fun h => honce (h.imp_right Service.binding_iff.1)))
  · exact hanswer hlive ((State.answerAts_granted (s := answered) habort hpresent hu hfits hallowed).trans
      (if_pos (honce.imp_right Service.binding_iff.2)))
  · exact ⟨steps_of_next rfl (State.onPageResponse_success hpages hsent hprg), steps_of_next rfl (State.onPageResponse_invalid hpages hsent hprg),
      fun hall => steps_of_next rfl (State.onPageResponse_failure hpages hsent hprg hall),
      steps_of_next rfl (State.onPageTimeout_first hpages hsent hprg)⟩
  · exact ⟨s.invalidated r none, steps_of_next rfl (State.onInvalidate_jobless hroom hjobs), rfl, rfl, rfl,
      ⟨_, rfl, rfl, rfl, rfl, rfl, rfl, rfl⟩, rfl, rfl⟩
  · have hhost (h : i.bindPasid = none) := State.onInvalDone_host hinvals htag hdone h
    refine ⟨fun h hwait => ?_, fun w ws h hwait => ?_, fun p h hats hpages => ?_⟩
    · exact steps_of_next rfl ((hhost h).trans (State.nextInval_nil hwait))
    · exact steps_of_next rfl ((hhost h).trans (State.nextInval_cons hwait))
    · exact steps_of_next rfl (State.onInvalDone_bind hinvals htag hdone h hats hpages)
end

section
/-!
SUPPORT. How the packets of a queue are processed, type by type (R80, R81, R110 to R124, R203).
-/

namespace Sys2Proof.Machine

variable {s s1 s2 s3 : State} {q typ : Nat} {e : Queue} {p : Packet} {b : List Byte}

/-! ## The outcome of a packet's processing (R112, R113) -/

theorem FeRes.bind_of_ok {α β : Type} {x : FeRes α} {a : α} (h : x = .ok s a) (f : State → α → FeRes β) : x.bind f = f s a :=
  congrArg (FeRes.bind · f) h

/-- A body that fails its checks stops its queue with that status. -/
theorem State.onBody_unchecked {st : Nat} (hq : s.fq q = some e) (hcur : e.cur = some p) (hst : e.st = .active) (htyp : pktType p.body = typ)
    (hcheck : pktCheck e.entry.priv p.body = some st) (ev : Ev) (f : Queue → Packet → List Byte → FeRes Unit) :
    s.onBody q typ ev f = s.failNow q st 0 0 := by
  simp [State.onBody, hq, hcur, hst, htyp, hcheck]

/-- What becomes of a queue whose packet in hand has been processed, with this outcome. -/
def State.onOutcome (s : State) (q : Nat) (ev : Ev) : FeRes Unit → State
  | .ok s1 _ => s1.processed q
  | .park s1 => s1.parkQueue q .page
  | .busy s1 => s1.laterOnce ev
  | .hold s1 r => s1.parkQueue q r
  | .fail st c a => s.failNow q st c a

theorem State.onBody_inHand {ev : Ev} {f : Queue → Packet → List Byte → FeRes Unit} {r : FeRes Unit} (h : InHand s q typ e p)
    (hr : f e p p.body = r) : s.onBody q typ ev f = s.onOutcome q ev r := by
  obtain ⟨hq, hcur, hst, htyp, hcheck⟩ := h
  subst hr
  simp only [State.onBody, hq, hcur, hst, htyp, hcheck, ne_eq, not_true_eq_false, or_self, if_false]
  cases f e p p.body <;> rfl

/-- A packet's step: the body in hand has an outcome, and the queue goes on as that says. -/
theorem steps_of_outcome {i : Instr} {ev : Ev} {f : Queue → Packet → List Byte → FeRes Unit} {r : FeRes Unit} {s' : State}
    (hi : exec i s = .next (s.onBody q typ ev f)) (h : InHand s q typ e p) (hr : f e p p.body = r) (hs : s.onOutcome q ev r = s') :
    Steps i s s' :=
  Laws.steps_of_next hi ((State.onBody_inHand h hr).trans hs)

/-! ## Signals (R115) -/

section signal
variable {op va x pa : Nat} {r : State × List Byte}

theorem State.pktSignal_ok (hx : s.pktXlat e.q e.space va true = .ok s1 pa)
    (hr : s1.cohRmw feId pa 8 (fun l => leBytes 8 (atomicNew op 8 (leNat l) x 0)) = .ok r) : s.pktSignal e op va x = .ok r.1.pollWaits () := by
  simp only [State.pktSignal, FeRes.bind_of_ok hx, State.feAtomic, hr]

/-- WRITE_SIGNAL from its start: the data goes first, then the addition. -/
theorem State.writeSignal_start {y : Nat} (hstep : e.stepNo = 0) (hy : s.pktXlat e.q e.space (pktField b 0x30 8) true = .ok s1 y)
    (hx : s1.pktXlat e.q e.space (pktField b 8 8) true = .ok s2 pa)
    (hput : s2.cohPut feId pa ((b.drop 0x10).take (pktSubop b + 1)) false = .ok s3) :
    s.writeSignal e b = (s3.setStep e.q 1).pktSignal e 0 (pktField b 0x30 8) (pktField b 0x38 8) := by
  simp only [State.writeSignal, hstep, ne_eq, not_true_eq_false, if_false, FeRes.bind_of_ok hy, FeRes.bind_of_ok hx, hput]

end signal

/-! ## WAIT (R115) -/

section wait
variable {l : List Byte}

section read
variable (hstep : e.stepNo ≠ 1) (hread : s.pktRead e.q e.space (pktField b 8 8) 8 = .ok s1 l)
include hstep hread

theorem State.waitRead_holds (h : waitHolds b (leNat l) = true) : s.waitRead e b = .ok s1 () :=
  (if_neg hstep).trans ((FeRes.bind_of_ok hread _).trans (if_pos h))

theorem State.waitRead_waits (h : waitHolds b (leNat l) = false) : s.waitRead e b = .hold (s1.setStep e.q 2) .memory :=
  (if_neg hstep).trans ((FeRes.bind_of_ok hread _).trans (if_neg (by simp [h])))

end read

section parked
variable (hq : s.fq q = some e) (hcur : e.cur = some p) (hst : e.st = .parked) (htyp : pktType p.body = 5)
include hq hcur hst htyp

theorem State.onWaitPoll_ok (hreason : e.reason = .memory) (h : s.waitRead e p.body = .ok s1 ()) :
    s.onWaitPoll q = s1.modFq q fun y => { y with st := .ready, reason := .none, stepNo := 1 } := by
  simp [State.onWaitPoll, hq, hcur, hst, hreason, htyp, h]

theorem State.onWaitPoll_hold {r : ParkReason} (hreason : e.reason = .memory) (h : s.waitRead e p.body = .hold s1 r) : s.onWaitPoll q = s1 := by
  simp [State.onWaitPoll, hq, hcur, hst, hreason, htyp, h]

theorem State.onWaitTimeout_due (hstep : e.stepNo = 2) (hlimit : pktField p.body 0x20 4 ≠ 0) (hdue : 1024 * pktField p.body 0x20 4 ≤ e.waited) :
    s.onWaitTimeout q = s.failNow q 6 0 (pktField p.body 8 8) := by
  have hpos : waitLimit p.body ≠ 0 := Nat.mul_ne_zero (by decide) hlimit
  rw [State.onWaitTimeout, hq]
  simp only [hcur]
  exact if_pos ⟨hst, htyp, hstep, hpos, hdue⟩

end parked
end wait

/-! ## COPY (R110, R115) -/

section copy
variable {x y : Nat}

theorem State.copyBody_pattern (hsub : pktSubop b = 1) (hdst : s.pktXlat e.q e.space (pktField b 0x10 8) true = .ok s1 x) :
    s.copyBody e p b = .ok (s1.startCopy e p b) () := by
  rw [State.copyBody, if_pos hsub]
  exact FeRes.bind_of_ok hdst _

theorem State.copyBody_bytes (hsub : pktSubop b ≠ 1) (hsrc : s.pktXlat e.q e.space (pktField b 8 8) false = .ok s1 x)
    (hdst : s1.pktXlat e.q e.space (pktField b 0x10 8) true = .ok s2 y) : s.copyBody e p b = .ok (s2.startCopy e p b) () := by
  rw [State.copyBody, if_neg hsub]
  exact (FeRes.bind_of_ok hsrc _).trans (FeRes.bind_of_ok hdst _)

end copy

/-! ## CUSTOM (R119) -/

theorem State.onCustom_sorted {l : List (List Byte)} (hq : s.fq q = some e) (hcur : e.cur = some p) (hst : e.st = .active)
    (hfresh : p.sorted = false) (htyp : pktType p.bytes = 8) (hcheck : pktCheck e.entry.priv p.bytes = none) (hrun : s.sortRun e p = .ok s1 l) :
    s.onCustom q = (s1.modFq q fun y => { y with cur := some { p with sorted := true, emitted := l } }).goOn q := by
  simp [State.onCustom, hq, hcur, hst, hfresh, htyp, hcheck, hrun]

/-! ## Completion (R112, R120) -/

theorem State.reapJob_none {ser : Nat} (h : ∀ j ∈ s.bmv.jobs, j.queue ≠ some (q, ser)) : s.reapJob q ser = s := by
  have hfind : s.bmv.jobs.find? (fun j => j.queue == some (q, ser) && j.phase == .done) = none :=
    List.find?_eq_none.2 fun j hj => by simp [h j hj]
  rw [State.reapJob, hfind]

/-- A packet whose parts are done, with no addition left to make at CNTVA, completes. -/
theorem State.onComplete_done {ser : Nat} {d : Packet} (hq : s.fq q = some e) (hjobs : ∀ j ∈ s.bmv.jobs, j.queue ≠ some (q, ser))
    (hfind : e.started.find? (fun p : Packet => p.ser == ser) = some d) (hprocessed : d.processed = true) (hopen : d.open_ = 0)
    (hcount : pktCmpl d.bytes = false ∨ e.entry.cntva = 0 ∨ d.counted = true) :
    let u := s.modFq q fun y => { y with started := y.started.filter fun p : Packet => p.ser != ser }
    s.onComplete q ser = (if pktCmpl d.bytes then u.coalCount q else u).afterComplete q := by
  have hnoAdd : ¬ (pktCmpl d.bytes = true ∧ e.entry.cntva ≠ 0 ∧ (!d.counted) = true) := fun ⟨hcmpl, hcntva, hcounted⟩ => by
    rcases hcount with h | h | h
    · simp [h] at hcmpl
    · exact hcntva h
    · simp [h] at hcounted
  simp only [State.onComplete, State.reapJob_none hjobs, hq, hfind, hprocessed, hopen, Bool.not_true, Bool.false_eq_true, ne_eq,
    not_true_eq_false, or_self, if_false]
  exact if_neg hnoAdd

/-! ## LAUNCH (R122 to R124, R203) -/

theorem State.launch_full (h : 256 ≤ s.liveRegions.length) : s.launch e p b = .hold s .regions := if_pos h

theorem State.launch_unnumbered (hroom : s.liveRegions.length < 256) (hnone : s.freeRegionNumber = none) : s.launch e p b = .busy s := by
  rw [State.launch, if_neg hroom.not_ge, hnone]

/-- The region that a LAUNCH makes under a parent's values: its RCB's own and inherited values, and the packet's fields. -/
def launchedRegion (e : Queue) (p : Packet) (b : List Byte) (rcb : Nat) (parent : Option Nat) (inh : RcbVals) (depth : Nat) : Region :=
  let v := rcbValues rcb inh
  { vals := { v with prio := min v.prio inh.prio }, rcb := pktField b 8 8, parent := parent, rootVa := e.rootVa, pasid := e.pasid.getD 0
    q := e.q, pkt := p.ser, depth := depth + 1, entry := word (pktField b 0x10 8), argva := word (pktField b 0x18 8)
    gx := pktField b 0x20 2, gy := pktField b 0x22 2, gz := pktField b 0x24 2, tpc := pktField b 0x26 1, poolword := word (pktField b 0x28 8) }

/-- The values of an RCB stay within the bounds of its parent's, and the packet's threads and partition word within them. -/
structure LaunchFits (b : List Byte) (v inh : RcbVals) : Prop where
  range : rcbRange v = false
  parts : v.parts ≤ inh.parts
  tpc : v.tpc ≤ inh.tpc
  gran : v.gran ≤ inh.gran
  threads : pktField b 0x26 1 ≤ v.tpc
  access : partWordAccess (word (pktField b 0x28 8)) (pktField b 0x26 1) v.gran = false

theorem State.launch_ok {r : Nat} {l : List Byte} {parent : Option Nat} {inh : RcbVals} {depth : Nat} (hroom : s.liveRegions.length < 256)
    (hfree : s.freeRegionNumber = some r) (hlines : s.pktLines e.q e.space (pktField b 8 8) 2 = .ok s1 l) (hrcb : rcbReserved (leNat l) = false)
    (hpw : partWordReserved (word (pktField b 0x28 8)) = false) (hparent : s1.parentOf e (bits (leNat l) 0 64) = some (parent, inh, depth))
    (hdepth : depth < 8) (hfits : LaunchFits b (rcbValues (leNat l) inh) inh) :
    let x := launchedRegion e p b (leNat l) parent inh depth
    s.launch e p b = .ok ((((s1.setRegion r (some x)).setRegionState r .pending 0).wakeShort x).addPart e.q p.ser) () := by
  obtain ⟨hrange, hparts, htpc, hgran, hthreads, haccess⟩ := hfits
  rw [State.launch, if_neg hroom.not_ge, hfree]
  simp only [FeRes.bind_of_ok hlines, hrcb, hpw, Bool.false_eq_true, or_self, if_false, hparent]
  exact if_neg (by simp [hrange, haccess]; omega)

/-! ## BMV (R115) -/

section bmv
variable {l : List Byte}

theorem State.startBmv_refused (hlines : s.pktLines e.q e.space (pktField b 8 8) 2 = .ok s1 l)
    (hbad : s1.bmvBad 0 (leNat l) = true ∨ (bmvOf (leNat l)).xsp = true ∨ (bmvOf (leNat l)).ysp = true ∨ (bmvOf (leNat l)).bar ≠ 0xFFFF) :
    s.startBmv e p b = .fail 12 0 (pktField b 8 8) :=
  (FeRes.bind_of_ok hlines _).trans (if_pos hbad)

theorem State.startBmv_ok (hlines : s.pktLines e.q e.space (pktField b 8 8) 2 = .ok s1 l) (hcard : s1.bmvBad 0 (leNat l) = false)
    (hxsp : (bmvOf (leNat l)).xsp = false) (hysp : (bmvOf (leNat l)).ysp = false) (hbar : (bmvOf (leNat l)).bar = 0xFFFF) :
    s.startBmv e p b = .ok ((({ s1 with bmv := { s1.bmv with
      jobs := s1.bmv.jobs ++ [{ bmvOf (leNat l) with id := s1.bmv.nextJob, queue := some (e.q, p.ser), pasid := e.pasid.getD 0 }]
      nextJob := s1.bmv.nextJob + 1 } } : State).addPart e.q p.ser).later (.bmvJobStart s1.bmv.nextJob)) () :=
  (FeRes.bind_of_ok hlines _).trans (if_neg (by simp [hcard, hxsp, hysp, hbar]))

end bmv

/-! ## BIND and UNBIND (R80, R81, R118) -/

section bind
variable {t pasid : Nat}

/-- A BIND in hand whose PASID was not reserved before this step has no place to give up. -/
theorem State.onBind_inHand {r : FeRes Unit} (h : InHand s q 7 e p) (hstep : e.stepNo ≠ 1) (hr : s.bind e p.body = r) :
    s.onBind q = s.onOutcome q (.bindPacket q) r := by
  refine Eq.trans ?_ (State.onBody_inHand (f := fun e _ b => s.bind e b) h hr)
  obtain ⟨hq, hcur, -⟩ := h
  rw [State.onBind, hq]
  simp only [hcur]
  exact if_neg fun ⟨_, _, h⟩ => hstep h

/-- The target enters BINDING, and the entries of the PASID are being removed. -/
def State.bindBegun (s : State) (q t pasid : Nat) : State :=
  (((s.freeProc t).modFq t fun e => { e with st := .binding, reason := .none, inError := false }).setStep q 3).startInval
    { itag := bindTag q, pasid := some pasid, va := 0, sizeLog := 64 } (some pasid)

theorem State.startBind_hold (h : s.binding t = false) : s.startBind q t pasid = .hold (s.bindBegun q t pasid) .bind :=
  if_neg (by simp [h])

/-- The PASID of a BIND has its place among those bound. -/
def State.reservePasid (s : State) (pasid : Nat) : State :=
  if s.svc.bound.contains pasid then s else { s with svc := { s.svc with bound := s.svc.bound ++ [pasid] } }

theorem State.bind_begin {l : List Byte} (hstep : e.stepNo = 0) (htarget : s.bindTargetOk (pktField b 8 4) = .ok (s1, true))
    (hroom : s1.svc.bound.contains (pktField b 0x0C 4) = true ∨ s1.svc.bound.length < 1024)
    (hlines : ((s1.reservePasid (pktField b 0x0C 4)).setStep e.q 1).pktLines e.q (.pasid (pktField b 0x0C 4)) (pktField b 0x10 8) 2 = .ok s2 l)
    (hrcb : rcbReserved (leNat l) = false) (hrange : rcbRange (rcbValues (leNat l) {}) = false) :
    s.bind e b = (s2.modFq e.q fun y => { y with root := rcbValues (leNat l) {} }).startBind e.q (pktField b 8 4) (pktField b 0x0C 4) := by
  have hreserved : (if s1.svc.bound.contains (pktField b 0x0C 4) then FeRes.ok (s1.setStep e.q 1) ()
      else if 1024 ≤ s1.svc.bound.length then .fail 10 0 0
      else .ok (({ s1 with svc := { s1.svc with bound := s1.svc.bound ++ [pktField b 0x0C 4] } } : State).setStep e.q 1) ()) =
      .ok ((s1.reservePasid (pktField b 0x0C 4)).setStep e.q 1) () := by
    unfold State.reservePasid
    split
    · rfl
    · next hnew => exact if_neg (hroom.resolve_left hnew).not_ge
  simp only [State.bind, hstep, htarget, OfNat.zero_ne_ofNat, zero_ne_one, if_false, FeRes.bind_of_ok hreserved, FeRes.bind_of_ok hlines, hrcb,
    hrange, Bool.false_eq_true]

theorem State.bind_end (hstep : e.stepNo = 3) (hdone : ∀ v ∈ s.svc.invals, v.itag ≠ bindTag e.q) :
    s.bind e b = s.rebind e.q (pktField b 8 4) (some (pktField b 0x0C 4, pktField b 0x10 8, e.root)) := by
  rw [State.bind, if_pos hstep]
  exact if_neg (by simpa using hdone)

theorem State.unbind_end (hstep : e.stepNo = 3) (hdone : ∀ v ∈ s.svc.invals, v.itag ≠ bindTag e.q) :
    s.unbind e b = s.rebind e.q (pktField b 8 4) none := by
  rw [State.unbind, if_pos hstep]
  exact if_neg (by simpa using hdone)

theorem State.unbind_unbound (hstep : e.stepNo = 0) (htarget : s.bindTargetOk (pktField b 8 4) = .ok (s1, true))
    (hnone : s1.bindingOf (pktField b 8 4) = none) : s.unbind e b = .ok s1 () := by
  simp [State.unbind, hstep, htarget, hnone]

theorem State.unbind_begin {y : Nat × Nat × RcbVals} (hstep : e.stepNo = 0) (htarget : s.bindTargetOk (pktField b 8 4) = .ok (s1, true))
    (hbound : s1.bindingOf (pktField b 8 4) = some y) : s.unbind e b = s1.startBind e.q (pktField b 8 4) y.1 := by
  simp [State.unbind, hstep, htarget, hbound]

end bind

end Sys2Proof.Machine
end

section
/-!
CERTIFICATE. The packets of a queue as they are processed.
-/

open Sys2Proof Sys2Proof.Machine Sys2Proof.Laws

/-- Packets that touch memory, and the hand-off to the block copier: each one's body, from the translations and accesses that succeed. -/
theorem memoryPacketSteps : Claims.MemoryPacketSteps := by
  intro s q e p b f xlat signalled copying
  refine ⟨fun typ st hq hcur hst htyp hcheck i hi hit => ?_, fun h => steps_of_outcome rfl h rfl rfl,
    fun s1 x h hsub hdst => steps_of_outcome rfl h (State.copyBody_pattern hsub hdst) rfl,
    fun s1 s2 x y h hsub hsrc hdst => steps_of_outcome rfl h (State.copyBody_bytes hsub hsrc hdst) rfl,
    fun s2 h hsig => ?_, fun s1 s2 s3 s4 x pa h hstep hx hpa hput hsig => ?_, fun s1 l h hstep hread => ?_,
    fun s1 l hq hcur hst htyp hstep => ⟨fun hreason hread => ?_, fun hlimit hdue => ?_⟩,
    fun s1 l hq hcur hst hfresh htyp hcheck hrun => steps_of_next rfl (State.onCustom_sorted hq hcur hst hfresh htyp hcheck hrun),
    fun ser d hq hjobs hfind hprocessed hopen hcount => steps_of_next rfl (State.onComplete_done hq hjobs hfind hprocessed hopen hcount)⟩
  · have hfail (ev : Ev) (g : Queue → Packet → List Byte → FeRes Unit) : s.onBody q typ ev g = s.failNow q st 0 0 :=
      State.onBody_unchecked hq hcur hst htyp hcheck ev g
    simp only [List.mem_cons, List.not_mem_nil, or_false] at hi
    rcases hi with rfl | rfl | rfl | rfl | rfl | rfl | rfl | rfl <;> subst hit <;> exact steps_of_next rfl (hfail _ _)
  · obtain ⟨s', pa, r, hx, hr, rfl⟩ := hsig
    exact steps_of_outcome rfl h (State.pktSignal_ok hx hr) rfl
  · obtain ⟨s', pa', r, hx', hr, rfl⟩ := hsig
    exact steps_of_outcome rfl h ((State.writeSignal_start hstep hx hpa hput).trans (State.pktSignal_ok hx' hr)) rfl
  · have hnew : e.stepNo ≠ 1 := by simp [hstep]
    exact ⟨fun hholds => steps_of_outcome rfl h (State.waitRead_holds hnew hread hholds) rfl,
      fun hnot => steps_of_outcome rfl h (State.waitRead_waits hnew hread hnot) rfl⟩
  · have hnew : e.stepNo ≠ 1 := by simp [hstep]
    exact ⟨fun hholds => steps_of_next rfl (State.onWaitPoll_ok hq hcur hst htyp hreason (State.waitRead_holds hnew hread hholds)),
      fun hnot => steps_of_next rfl (State.onWaitPoll_hold hq hcur hst htyp hreason (State.waitRead_waits hnew hread hnot))⟩
  · exact steps_of_next rfl (State.onWaitTimeout_due hq hcur hst htyp hstep hlimit hdue)

/-- LAUNCH, BMV, BIND and UNBIND: each one's body, from the checks that pass or fail. -/
theorem launchAndBindSteps : Claims.LaunchAndBindSteps := by
  intro s q e p b f va target idle inval
  refine ⟨fun r s1 l parent inh depth h hroom hfree hlines hrcb hpw hparent hdepth hrange hparts htpc hgran hthreads haccess => ?_,
    fun h hfull => steps_of_outcome rfl h (State.launch_full hfull) rfl,
    fun h hroom hnone => steps_of_outcome rfl h (State.launch_unnumbered hroom hnone) rfl,
    fun s1 l h hlines => ⟨fun hbad => ?_, fun hcard hxsp hysp hbar => ?_⟩,
    fun s1 s2 l h hstep htarget hroom hlines hrcb hrange hidle => ?_,
    fun s1 h hstep hdone => ⟨fun hrebind => ?_, fun hrebind => ?_⟩,
    fun s1 h hstep htarget => ⟨fun hnone => ?_, fun y hbound hidle => ?_⟩⟩
  · exact steps_of_outcome rfl h
      (State.launch_ok hroom hfree hlines hrcb hpw hparent hdepth ⟨hrange, hparts, htpc, hgran, hthreads, haccess⟩) rfl
  · exact steps_of_outcome rfl h (State.startBmv_refused hlines hbad) rfl
  · exact steps_of_outcome rfl h (State.startBmv_ok hlines hcard hxsp hysp hbar) rfl
  · exact steps_of_next rfl (State.onBind_inHand h (by simp [hstep])
      ((State.bind_begin hstep htarget hroom hlines hrcb hrange).trans (State.startBind_hold hidle)))
  · exact steps_of_next rfl (State.onBind_inHand h (by simp [hstep]) ((State.bind_end hstep hdone).trans hrebind))
  · exact steps_of_outcome rfl h ((State.unbind_end hstep hdone).trans hrebind) rfl
  · exact steps_of_outcome rfl h (State.unbind_unbound hstep htarget hnone) rfl
  · exact steps_of_outcome rfl h ((State.unbind_begin hstep htarget hbound).trans (State.startBind_hold hidle)) rfl

/-- Settles O45: each packet in hand runs its own body, whose outcome is what becomes of the queue. -/
theorem packetSteps : Obligations.PacketSteps := ⟨memoryPacketSteps, launchAndBindSteps⟩
end

section
/-!
SUPPORT. Matrix long operations and bank compute jobs as they issue: reading the card, the held queue, the checks, and what the thread's
context core and the memory controllers then know (R88, R89, R266, R388, R390).
-/

namespace Sys2Proof.Machine

variable {s : State} {t : Thread} {x : Word} {b : Option Word} {q : Option Nat} {pr : List Range × List Range}

/-! ## The queue of cards (R388, R390) -/

theorem State.sluiceCheck_keepsUnit (ck : Nat) : KeepsUnit s (s.sluiceCheck ck) := by
  unfold State.sluiceCheck foldS
  refine foldl_keepsUnit (fun u o => ?_) _ s
  dsimp only
  split
  · exact ⟨by simp, by simp, by simp⟩
  · exact .rfl

theorem cardQueued_keepsUnit (c : Card) : KeepsUnit s (cardQueued s t q c pr) := by
  unfold cardQueued
  extract_lets tk ck c' s'
  have hk : KeepsUnit s s' := ⟨rfl, rfl, fun _ => rfl⟩
  split
  · exact hk.trans ⟨rfl, rfl, fun _ => rfl⟩
  · exact hk.trans (State.sluiceCheck_keepsUnit ck)

/-- A card enters a queue with room where no earlier store of its thread is under way. -/
theorem State.queueCard_done (hthr : s.thr s.unit.tk = some t) (hsbuf : t.sbuf = []) (hremote : t.remote = [])
    (hroom : (s.cx (ckOfTk s.unit.tk)).cards.length < 256) (c : Card) :
    s.queueCard x q c (some pr) = .done (cardQueued s t q c pr) none := by
  simp [State.queueCard, hthr, hsbuf, hremote, Nat.not_le.2 hroom, cardQueued]

@[simp] theorem heldOf_none : heldOf none = some none := rfl

theorem heldOf_lt {w : Word} (h : w.toNat < 8) : heldOf (some w) = some (some w.toNat) := if_pos h

/-! ## Reading a card (R388) -/

/-- A card of `n` bytes at an address can be read as `img`: it lies in general scratchpad, no job holds it and it has no poison. -/
def State.CardAt (s : State) (x : Word) (n img : Nat) : Prop :=
  ∃ off, s.recordAt (ckOfTk s.unit.tk) x n 64 = .ok off ∧ s.jobHolds s.unit.tk (.pool (ckOfTk s.unit.tk) off) n false = false ∧
    s.poolPoison (ckOfTk s.unit.tk) off n = none ∧ s.poolRead (ckOfTk s.unit.tk) off n = img

theorem State.CardAt.read {n img : Nat} (h : s.CardAt x n img) (k : Nat → CRes) : s.readCard x n k = k img := by
  obtain ⟨off, hplace, hfree, hclean, rfl⟩ := h
  simp [State.readCard, hplace, hfree, hclean]

/-! ## MLONG and MLONGH (R266) -/

/-- A matrix long card that does not enter the queue: a reserved bit, a count of 0 or above 256, a step that is no multiple of 64, an
unaligned status address, or a step that R258 or R260 turns away. -/
def State.MlongRefused (s : State) (t : Thread) (ck img : Nat) : Prop :=
  bits img 0 8 ≠ 4 ∨ bits img 9 7 ≠ 0 ∨ bits img 40 24 ≠ 0 ∨ (mlongOf img t).count = 0 ∨ 256 < (mlongOf img t).count ∨
    (mlongOf img t).aStep % 64 ≠ 0 ∨ (mlongOf img t).bStep % 64 ≠ 0 ∨ (mlongOf img t).stAddr.toNat % 8 ≠ 0 ∨
    s.mlongOk ck (mlongOf img t) = false

section mlong
variable {img : Nat} (hthr : s.thr s.unit.tk = some t) (hcard : s.CardAt x 64 img)
include hthr hcard

/-- A refused card raises ENGINE, whatever the held queue. -/
theorem State.issueMlong_refused (hbad : s.MlongRefused t (ckOfTk s.unit.tk) img) (b : Option Word) :
    s.issueMlong x b = .trap Cause.engine x := by
  simp only [State.issueMlong, hcard.read, hthr]
  cases heldOf b with
  | none => rfl
  | some q => exact if_pos (by simpa [State.MlongRefused, or_assoc] using hbad)

/-- Another card goes on to the queue. -/
theorem State.issueMlong_passes (hgood : ¬ s.MlongRefused t (ckOfTk s.unit.tk) img) (hq : heldOf b = some q) :
    s.issueMlong x b = s.queueCard x q (mlongOf img t) (s.mlongPrint (ckOfTk s.unit.tk) (mlongOf img t)) := by
  simp only [State.issueMlong, hcard.read, hthr, hq]
  exact if_neg fun hbad => hgood (by simpa [State.MlongRefused, or_assoc] using hbad)

end mlong

/-! ## BMVJ and BMVJH (R88, R89) -/

/-- The job that a card of the thread makes: its number, where it comes from, and the rights of its accesses. -/
def State.bankJob (s : State) (t : Thread) (img : Nat) : BmvJob :=
  { bmvOf img with
    id := s.bmv.nextJob, ck := ckOfTk s.unit.tk, card := s.clock, pasid := (s.pasidOf (ckOfTk s.unit.tk)).getD 0, priv := t.priv != 0
    untranslated := untranslated s.unit.tk t }

/-- The memory controllers know one more job. -/
def State.knowJob (s : State) (j : BmvJob) : State :=
  { s with bmv := { s.bmv with jobs := s.bmv.jobs ++ [j], nextJob := j.id + 1 } }

section bmv
variable {img : Nat} (hthr : s.thr s.unit.tk = some t) (hcard : s.CardAt x 128 img)
include hthr hcard

/-- A card that R89 turns away raises ENGINE, whatever the held queue. -/
theorem State.issueBmv_bad (hbad : s.bmvBad (ckOfTk s.unit.tk) img = true) (b : Option Word) :
    s.issueBmv x b = .trap Cause.engine x := by
  simp only [State.issueBmv, hcard.read, hthr, hbad]
  cases heldOf b <;> rfl

/-- Another card enters the queue, where there is room, and its job becomes known. -/
theorem State.issueBmv_done (hgood : s.bmvBad (ckOfTk s.unit.tk) img = false) (hq : heldOf b = some q)
    {j : BmvJob} (hj : s.bankJob t img = j) (hprint : s.bmvPrint (ckOfTk s.unit.tk) j = some pr)
    (hsbuf : t.sbuf = []) (hremote : t.remote = []) (hroom : (s.cx (ckOfTk s.unit.tk)).cards.length < 256) :
    s.issueBmv x b =
      .done ((cardQueued s t q { kind := .bmv, job := s.bmv.nextJob, stAddr := word j.staddr } pr).knowJob j) none := by
  subst hj
  rw [State.bankJob] at hprint ⊢
  simp only [State.issueBmv, hcard.read, hthr, hgood, hq, hprint, State.queueCard_done hthr hsbuf hremote hroom, State.knowJob,
    Bool.false_eq_true, if_false]

end bmv

end Sys2Proof.Machine
end

section
/-!
CERTIFICATE. Matrix long operations and bank compute jobs as they issue.
-/

open Sys2Proof Sys2Proof.Machine

theorem matrixLongIssue : Claims.MatrixLongIssue := by
  intro s t h hsbuf hremote p a b off tk ck x q hplace hfree hclean img c
  have hcard : s.CardAt x 64 img := ⟨off, hplace, hfree, hclean, rfl⟩
  refine ⟨fun hbad => ?_, fun pr htyp hlow hhigh hpos hle ha hb hst hok hprint hroom => ?_⟩
  · have htraps := State.issueMlong_refused h.thread hcard hbad
    exact ⟨Traps.word h rfl (by simp) (htraps none), Traps.word h rfl (by simp) (htraps (some (t.rg b.toNat)))⟩
  · have hgood : ¬ s.MlongRefused t ck img := by
      simp only [State.MlongRefused, not_or, ne_eq, not_not, Nat.not_lt, Bool.not_eq_false]
      exact ⟨htyp, hlow, hhigh, Nat.pos_iff_ne_zero.1 hpos, hle, ha, hb, hst, hok⟩
    have hqueued {b : Option Word} {q : Option Nat} (hq : heldOf b = some q) : s.issueMlong x b = .done (cardQueued s t q c pr) none := by
      rw [State.issueMlong_passes h.thread hcard hgood hq, show s.mlongPrint _ _ = _ from hprint]
      exact State.queueCard_done h.thread hsbuf hremote hroom c
    exact ⟨Leaves2.stays h rfl (by simp) (cardQueued_keepsUnit c) (hqueued heldOf_none),
      fun hq => Leaves2.stays h rfl (by simp) (cardQueued_keepsUnit c) (hqueued (heldOf_lt hq))⟩

theorem bankJobIssue : Claims.BankJobIssue := by
  intro s t h hsbuf hremote p a b off tk ck x q hplace hfree hclean img n j known c
  have hcard : s.CardAt x 128 img := ⟨off, hplace, hfree, hclean, rfl⟩
  refine ⟨fun hbad => ?_, fun pr hgood hprint hroom => ?_⟩
  · have htraps := State.issueBmv_bad h.thread hcard hbad
    exact ⟨Traps.word h rfl (by simp) (htraps none), fun _ => Traps.word h rfl (by simp) (htraps (some (t.rg b.toNat)))⟩
  · have hqueued {b : Option Word} {q : Option Nat} (hq : heldOf b = some q) :
        s.issueBmv x b = .done (known (cardQueued s t q c pr)) none :=
      State.issueBmv_done h.thread hcard hgood hq rfl hprint hsbuf hremote hroom
    have hk (q : Option Nat) : KeepsUnit s (known (cardQueued s t q c pr)) := (cardQueued_keepsUnit c).trans (State.bmv_keepsUnit _)
    exact ⟨Leaves2.stays h rfl (by simp) (hk none) (hqueued heldOf_none),
      fun hq => Leaves2.stays h rfl (by simp) (hk (some q)) (hqueued (heldOf_lt hq))⟩

/-- Settles O36: a card that passes its checks enters its context core's queue, and one that does not raises ENGINE. -/
theorem longJobIssue : Obligations.LongJobIssue := ⟨matrixLongIssue, bankJobIssue⟩
end

section
/-!
SUPPORT. What the handlers of the front end's queues do, case by case: doorbells and tails (R106), the loading of queues (R109), the
processors' choice and slices (R110, R111), QCTL (R104), and a coalescer's hold timer (R121).
-/

namespace Sys2Proof.Machine

variable {s s1 : State} {q pr : Nat} {e : Queue}

/-! ## A new tail of a resident queue (R106) -/

section tail
variable {t : BitVec 32} (hq : s.fq q = some e)
include hq

theorem State.ringTail_disabled (hst : e.st = .disabled) : s.ringTail q t = s := by
  rw [State.ringTail, hq]
  exact if_pos hst

theorem State.ringTail_overrun (hst : e.st ≠ .disabled) (hover : 2 ^ e.entry.logsize < (t - e.head).toNat) :
    s.ringTail q t = (s.queueError q 9 0 0 e.head.toNat 0 0).modFq q fun y =>
      { y with failedAfter := if e.st = .error then e.failedAfter else true } := by
  rw [State.ringTail, hq]
  exact (if_neg hst).trans (if_pos hover)

/-- A tail within the ring is taken, and wakes an idle queue that it leaves with packets. One equal to the head leaves in the ring the packet
there that has been read. -/
theorem State.ringTail_fits (hst : e.st ≠ .disabled) (hfits : (t - e.head).toNat ≤ 2 ^ e.entry.logsize) :
    let u := s.modFq q fun y =>
      { y with tail := if t == e.head && (e.cur.isSome || (e.st == .error && !e.failedAfter)) then t + 1 else t }
    s.ringTail q t = if e.st = .idle ∧ t ≠ e.head then u.modFq q fun y => { y with st := .ready } else u := by
  rw [State.ringTail, hq]
  exact (if_neg hst).trans (if_neg hfits.not_gt)

theorem State.ringTail_behind (hst : e.st ≠ .disabled) (hfits : (t - e.head).toNat ≤ 2 ^ e.entry.logsize) (ht : t ≠ e.head) :
    let u := s.modFq q fun y => { y with tail := t }
    s.ringTail q t = if e.st = .idle then u.modFq q fun y => { y with st := .ready } else u := by
  simp [State.ringTail_fits hq hst hfits, ht]

theorem State.ringTail_head (hst : e.st ≠ .disabled) (hfits : (t - e.head).toNat ≤ 2 ^ e.entry.logsize) (ht : t = e.head) :
    s.ringTail q t = s.modFq q fun y =>
      { y with tail := if e.cur.isSome ∨ e.st = .error ∧ e.failedAfter = false then t + 1 else t } := by
  rw [State.ringTail_fits hq hst hfits, if_neg fun h => h.2 ht]
  simp [ht]

end tail

/-! ## Doorbells (R106) -/

section doorbell
variable {off len : Nat} {v : Word}

/-- The machine once a doorbell that acts has noted the new tail. -/
def State.rung (s : State) (q : Nat) (t : BitVec 32) : State :=
  { s.abortEntries with fe := { s.fe with tails := Tbl.put 0 s.fe.tails q t } }

/-- A doorbell acts as an aligned write of 4 or 8 bytes at offset 0 of one of the 4096 queues. -/
def doorbellActs (q off len : Nat) : Prop := off = 0 ∧ (len = 4 ∨ len = 8) ∧ q < 4096

theorem State.onDoorbell_ignored (h : ¬ doorbellActs q off len) : s.onDoorbell q off len v = s := by
  refine if_pos ?_
  simp only [doorbellActs] at h
  simp only [Bool.not_eq_true', Bool.or_eq_false_iff, beq_eq_false_iff_ne]
  omega

/-- A doorbell that acts reaches a queue that is enabled: the resident one takes the tail, and an absent one keeps it pending. -/
theorem State.onDoorbell_acts (h : doorbellActs q off len) : s.onDoorbell q off len v =
    let u := s.rung q (v.setWidth 32)
    if s.fe.qtEn = false ∨ q ∈ s.fe.disabled then u
    else if (s.fq q).isSome then u.ringTail q (v.setWidth 32)
    else ({ u with fe := { u.fe with
      pending := (s.fe.pending.filter fun e : Nat × BitVec 32 => e.1 != q) ++ [(q, v.setWidth 32)] } } : State).wakeControl.laterOnce
        (.queueLoad q) := by
  obtain ⟨rfl, hlen, hq⟩ := h
  have hgood : ¬ ((0 : Nat) ≠ 0 ∨ (!(len == 4 || len == 8)) = true ∨ 4096 ≤ q) := by
    simp only [Bool.not_eq_true', Bool.or_eq_false_iff, beq_eq_false_iff_ne]
    omega
  rw [State.onDoorbell, if_neg hgood]
  exact if_congr (by simp [State.abortEntries]) rfl rfl

theorem State.onDoorbell_held (h : doorbellActs q off len) (hheld : s.fe.qtEn = false ∨ q ∈ s.fe.disabled) :
    s.onDoorbell q off len v = s.rung q (v.setWidth 32) :=
  (State.onDoorbell_acts h).trans (if_pos hheld)

section live
variable (h : doorbellActs q off len) (hlive : ¬ (s.fe.qtEn = false ∨ q ∈ s.fe.disabled))
include h hlive

theorem State.onDoorbell_absent (hnone : s.fq q = none) : s.onDoorbell q off len v =
    ({ s.rung q (v.setWidth 32) with fe := { (s.rung q (v.setWidth 32)).fe with
      pending := (s.fe.pending.filter fun e : Nat × BitVec 32 => e.1 != q) ++ [(q, v.setWidth 32)] } } : State).wakeControl.laterOnce
        (.queueLoad q) := by
  rw [State.onDoorbell_acts h]
  exact (if_neg hlive).trans (if_neg (by simp [hnone]))

theorem State.onDoorbell_resident (hq : s.fq q = some e) :
    s.onDoorbell q off len v = (s.rung q (v.setWidth 32)).ringTail q (v.setWidth 32) := by
  rw [State.onDoorbell_acts h]
  exact (if_neg hlive).trans (if_pos (by simp [hq]))

end live
end doorbell

/-! ## The loading of queues (R109) -/

section load
variable {n : BitVec 32}

theorem State.onLoad_unasked (h : ∀ e ∈ s.fe.pending, e.1 ≠ q) : s.onLoad q = s := by
  have hfind : s.fe.pending.find? (fun e => e.1 == q) = none := List.find?_eq_none.2 fun e he => by simpa using h e he
  rw [State.onLoad, hfind]

/-- The machine without what was pending for a queue. -/
def State.dropPending (s : State) (q : Nat) : State :=
  { s with fe := { s.fe with pending := s.fe.pending.filter fun e : Nat × BitVec 32 => e.1 != q } }

/-- A queue whose entry is enabled is loaded where there is room, or where another may go to make it. -/
def State.loadEntry (s : State) (q : Nat) (n : BitVec 32) (y : QEntry) : State :=
  if y.en = false then s.dropPending q
  else if s.fe.queues.length < 256 then (s.dropPending q).loadQueue q n y
  else s.loadVictim.elim s fun w => ((s.dropPending q).dropQueue w).loadQueue q n y

/-- A load goes on with what the read of the queue's entry gives: the home's answer is awaited, a refused entry is logged. -/
def onEntryRead (q : Nat) (n : BitVec 32) : Except State (State × Option QEntry) → State
  | .error s => s.later (.queueLoad q)
  | .ok (s, none) => (s.dropPending q).corrected .frontEnd (word (s.fe.qtBase.toNat * 4096 + 64 * q))
  | .ok (s, some y) => s.loadEntry q n y

section entry
variable {y : QEntry}

theorem State.loadEntry_off (hoff : y.en = false) : s.loadEntry q n y = s.dropPending q :=
  if_pos hoff

variable (hon : y.en = true)
include hon

theorem State.loadEntry_room (hroom : s.fe.queues.length < 256) : s.loadEntry q n y = (s.dropPending q).loadQueue q n y :=
  (if_neg (by simp [hon])).trans (if_pos hroom)

theorem State.loadEntry_full (hfull : 256 ≤ s.fe.queues.length) : s.loadEntry q n y =
    s.loadVictim.elim s fun w => ((s.dropPending q).dropQueue w).loadQueue q n y :=
  (if_neg (by simp [hon])).trans (if_neg hfull.not_gt)

end entry

section pending
variable (hpend : s.fe.pending.find? (fun e : Nat × BitVec 32 => e.1 == q) = some (q, n))
include hpend

theorem State.onLoad_resident (hq : (s.fq q).isSome = true) : s.onLoad q = (s.dropPending q).ringTail q n := by
  rw [State.onLoad, hpend]
  exact if_pos hq

section absent
variable (hnone : s.fq q = none)
include hnone

theorem State.onLoad_held (hheld : s.fe.qtEn = false ∨ q ∈ s.fe.disabled) : s.onLoad q = s.dropPending q := by
  rw [State.onLoad, hpend]
  exact (if_neg (by simp [hnone])).trans (if_pos (by simpa using hheld.symm))

section live
variable (hen : q ∉ s.fe.disabled) (hqt : s.fe.qtEn = true)
include hen hqt

theorem State.onLoad_binding (hbind : s.binding q = true) : s.onLoad q = s := by
  simp [State.onLoad, hpend, hnone, hen, hqt, hbind]

theorem State.onLoad_reads (hbind : s.binding q = false) : s.onLoad q = onEntryRead q n (s.readEntryOf q) := by
  have hopen : ¬ (s.fe.disabled.contains q ∨ !s.fe.qtEn) := by simp [hen, hqt]
  rw [State.onLoad, hpend]
  refine (if_neg (by simp [hnone])).trans ((if_neg hopen).trans ((if_neg (by simp [hbind])).trans ?_))
  obtain _ | ⟨s1, _ | y⟩ := s.readEntryOf q
  · rfl
  · rfl
  · simp only [onEntryRead, State.loadEntry]
    cases s1.loadVictim <;> exact if_congr (by simp) rfl rfl

end live
end absent
end pending
end load

/-! ## The processors' choice and slices (R110, R111) -/

/-- The round-robin turn of a priority passes to a queue. -/
def State.passTurn (s : State) (e : Queue) : State := { s with fe := { s.fe with rr := Tbl.put 0 s.fe.rr e.entry.prio e.q } }

/-- A queue becomes the one served most recently. -/
def State.moveLast (s : State) (q : Nat) : State :=
  { s with fe := { s.fe with queues := (s.fe.queues.filter fun y => y.q != q) ++ s.fe.queues.filter fun y => y.q == q } }

theorem State.takeQueue_passes (h : e.entry.slice < e.deficit) :
    s.takeQueue pr e = (s.passTurn e).modFq e.q fun y => { y with deficit := y.deficit - e.entry.slice } :=
  if_pos h

theorem State.takeQueue_serves (h : e.deficit ≤ e.entry.slice) : s.takeQueue pr e =
    (((((s.passTurn e).modFq e.q fun y => { y with st := .active, reason := .none, deficit := 0 }).moveLast e.q).modProc pr fun _ =>
      { queue := some e.q, left := e.entry.slice - e.deficit }).serveQueue pr e.q) :=
  if_neg h.not_gt

theorem State.onQueueSelect_absent (h : s.fe.procs[pr]? = none) : s.onQueueSelect pr = s := by
  rw [State.onQueueSelect, h]

theorem State.onQueueSlice_absent (h : s.fe.procs[pr]? = none) : s.onQueueSlice pr = s := by
  rw [State.onQueueSlice, h]

section processor
variable {p : Processor} (hproc : s.fe.procs[pr]? = some p)
include hproc

theorem State.onQueueSelect_none (hfree : p.queue = none) (hpick : s.pickQueue = none) : s.onQueueSelect pr = s := by
  simp only [State.onQueueSelect, hproc, hfree, hpick]

theorem State.onQueueSelect_takes (hfree : p.queue = none) (hpick : s.pickQueue = some e) : s.onQueueSelect pr = s.takeQueue pr e := by
  simp only [State.onQueueSelect, hproc, hfree, hpick]

theorem State.onQueueSelect_serves (hbusy : p.queue = some q) : s.onQueueSelect pr = s.serveQueue pr q := by
  simp only [State.onQueueSelect, hproc, hbusy]

theorem State.onQueueSlice_free (hfree : p.queue = none) : s.onQueueSlice pr = s := by
  simp only [State.onQueueSlice, hproc, hfree]

theorem State.onQueueSlice_early (hbusy : p.queue = some q) (h : p.left ≠ 0 ∨ s.fq q = none) : s.onQueueSlice pr = s := by
  simp only [State.onQueueSlice, hproc, hbusy]
  obtain hleft | hnone := h
  · exact if_pos hleft
  · rw [hnone]
    exact ite_self s

/-- At the end of a slice a packet in processing runs on; a queue between packets is released. -/
theorem State.onQueueSlice_over (hbusy : p.queue = some q) (hleft : p.left = 0) (hq : s.fq q = some e) :
    s.onQueueSlice pr = if e.cur.isSome then s.modProc pr fun p => { p with expired := true } else s.releaseQueue q := by
  simp only [State.onQueueSlice, hproc, hbusy, hleft, hq, ne_eq, not_true_eq_false, if_false]

end processor

/-! ## A coalescer's hold timer (R121) -/

theorem State.onHold_fires (hrun : (s.coal q).run = true) (hheld : (s.coal q).hold ≤ (s.coal q).elapsed) : s.onHold q = s.coalFire q :=
  if_pos ⟨hrun, hheld⟩

theorem State.onHold_early (h : (s.coal q).run = false ∨ (s.coal q).elapsed < (s.coal q).hold) : s.onHold q = s :=
  if_neg fun ⟨hrun, hheld⟩ => h.elim (by simp [hrun]) fun hearly => BitVec.not_le.2 hearly hheld

/-! ## QCTL (R104) -/

/-- A queue is no longer disabled. -/
def State.enableQueue (s : State) (q : Nat) : State := { s with fe := { s.fe with disabled := s.fe.disabled.filter (· != q) } }

/-- A queue starts no further packet, and its pending doorbell is gone. -/
def State.holdQueue (s : State) (q : Nat) : State :=
  { s with fe := { s.fe with
    disabled := if s.fe.disabled.contains q then s.fe.disabled else s.fe.disabled ++ [q]
    pending := s.fe.pending.filter fun e : Nat × BitVec 32 => e.1 != q } }

theorem Queue.inHand_iff : e.inHand = true ↔ ∃ p, e.cur = some p ∧ p.begun = true := by
  simp [Queue.inHand, Option.any_eq_true]

theorem Queue.incomplete_iff : e.incomplete = true ↔ e.started ≠ [] ∨ ∃ p, e.cur = some p ∧ p.begun = true := by
  simp [Queue.incomplete, Queue.inHand_iff]

section absent
variable (hnone : s.fq q = none)
include hnone

theorem State.onEvict_absent : s.onEvict q = (s.enableQueue q).qctlDone 0 := by
  rw [State.onEvict, hnone]
  rfl

theorem State.onResume_absent (skip : Bool) : s.onResume q skip = s.qctlDone 2 := by
  rw [State.onResume, hnone]

theorem State.onDisable_absent : s.onDisable q = (s.holdQueue q).qctlDone 0 := by
  rw [State.onDisable, hnone]
  rfl

end absent

section resident
variable (hq : s.fq q = some e)
include hq

theorem State.onEvict_binding (hst : e.st = .binding) : s.onEvict q = s.qctlDone 2 := by
  rw [State.onEvict, hq]
  exact if_pos hst

theorem State.onEvict_waits (hst : e.st ≠ .binding) (hrun : e.incomplete = true) :
    s.onEvict q = ({ s with fe := { s.fe with qctlBusy := some (q, 1) } } : State).later (.evict q) := by
  rw [State.onEvict, hq]
  exact (if_neg hst).trans (if_pos hrun)

theorem State.onEvict_done (hst : e.st ≠ .binding) (hrun : ¬ e.incomplete = true) :
    s.onEvict q = (((s.freeProc q).dropQueue q).enableQueue q).qctlDone 0 := by
  rw [State.onEvict, hq]
  exact (if_neg hst).trans (if_neg hrun)

theorem State.onResume_refused (h : (e.st ≠ .error ∧ e.inError = false) ∨ q ∈ s.fe.disabled) (skip : Bool) :
    s.onResume q skip = s.qctlDone 2 := by
  rw [State.onResume, hq]
  exact if_pos (by simpa using h)

/-- A queue whose packet in hand still runs leaves ERROR at once. -/
theorem State.onResume_running (hst : e.st ≠ .error) (herr : e.inError = true) (hen : q ∉ s.fe.disabled) (skip : Bool) :
    s.onResume q skip = (s.modFq q fun e => { e with inError := false, failedAfter := false }).qctlDone 0 := by
  simp [State.onResume, hq, hst, herr, hen]

/-- RESUME and SKIP take a queue out of ERROR; SKIP passes the packet at the head, where that one failed in processing. -/
theorem State.onResume_error (hst : e.st = .error) (hen : q ∉ s.fe.disabled) (skip : Bool) : s.onResume q skip =
    ((s.modFq q fun e => { (if skip = true ∧ (!e.failedAfter) = true then { e with head := e.head + 1, cur := none } else e) with
      st := .ready, failedAfter := false }).afterComplete q).qctlDone 0 := by
  simp [State.onResume, hq, hst, hen]

theorem State.onResume_skips (hst : e.st = .error) (hen : q ∉ s.fe.disabled) : s.onResume q true =
    ((s.modFq q fun e => { (if e.failedAfter then e else { e with head := e.head + 1, cur := none }) with
      st := .ready, failedAfter := false }).afterComplete q).qctlDone 0 := by
  refine (State.onResume_error hq hst hen true).trans (congrArg (fun f => ((s.modFq q f).afterComplete q).qctlDone 0) (funext fun y => ?_))
  cases y.failedAfter <;> simp

theorem State.onDisable_inHand (h : e.inHand = true) : s.onDisable q = (s.holdQueue q).qctlDone 0 := by
  rw [State.onDisable, hq]
  simp only [h, if_true]
  rfl

theorem State.onDisable_stops (h : ¬ e.inHand = true) : s.onDisable q =
    (((s.freeProc q).modFq q fun e => { e with st := .disabled, reason := .none, cur := none, inError := false }).holdQueue q).qctlDone 0 := by
  rw [State.onDisable, hq]
  simp only [h]
  rfl

end resident

end Sys2Proof.Machine
end

section
/-!
CERTIFICATE. QCTL's operations.
-/

open Sys2Proof Sys2Proof.Machine Sys2Proof.Laws

/-- Settles O59: each operation is its handler, split on whether the queue is resident, and on its state where it is. -/
theorem queueControlSteps : Obligations.QueueControlSteps := by
  intro s q result enabled held
  refine ⟨fun hnone => ?_, fun e hq => ?_, rfl⟩
  · exact ⟨steps_of_next rfl (State.onEvict_absent hnone), steps_of_next rfl (State.onResume_absent hnone false),
      steps_of_next rfl (State.onResume_absent hnone true), steps_of_next rfl (State.onDisable_absent hnone)⟩
  · intro running
    refine ⟨fun hst => steps_of_next rfl (State.onEvict_binding hq hst),
      fun hst hrun => steps_of_next rfl (State.onEvict_waits hq hst (Queue.incomplete_iff.2 hrun)),
      fun hst hrun => steps_of_next rfl (State.onEvict_done hq hst (Queue.incomplete_iff.not.2 hrun)),
      fun h => ⟨steps_of_next rfl (State.onResume_refused hq h false), steps_of_next rfl (State.onResume_refused hq h true)⟩,
      fun hst herr hen =>
        ⟨steps_of_next rfl (State.onResume_running hq hst herr hen false), steps_of_next rfl (State.onResume_running hq hst herr hen true)⟩,
      fun hst hen => ⟨steps_of_next rfl (State.onResume_error hq hst hen false), steps_of_next rfl (State.onResume_skips hq hst hen)⟩,
      fun h => steps_of_next rfl (State.onDisable_inHand hq (Queue.inHand_iff.2 h)),
      fun h => steps_of_next rfl (State.onDisable_stops hq ?_)⟩
    rw [Queue.inHand_iff]
    rintro ⟨p, hcur, hbegun⟩
    simp [h p hcur] at hbegun
end

section
/-!
CERTIFICATE. Doorbells, the loading of queues, the processors' choice and slices, and the coalescers' hold timer.
-/

open Sys2Proof Sys2Proof.Machine Sys2Proof.Laws

/-- Settles O18: each step is its handler, split on whether the queue is resident and on what the handler finds. -/
theorem queueSteps : Obligations.QueueSteps := by
  intro s q off len pr v fe t rung good live dropped
  have hopen (h : live) : doorbellActs q off len ∧ ¬ (s.fe.qtEn = false ∨ q ∈ s.fe.disabled) := by
    obtain ⟨hgood, hen, hnot⟩ := h
    exact ⟨hgood, by simp [show s.fe.qtEn = true from hen, show q ∉ s.fe.disabled from hnot]⟩
  have hring {e : Queue} {s' : State} (h : live) (hq : s.fq q = some e) (hs : rung.fq q = some e → rung.ringTail q t = s') :
      Steps (.doorbell q off len v) s s' :=
    steps_of_next rfl ((State.onDoorbell_resident (hopen h).1 (hopen h).2 hq).trans (hs hq))
  refine ⟨fun h => steps_of_next rfl (State.onDoorbell_ignored h), fun h hheld => steps_of_next rfl (State.onDoorbell_held h hheld),
    fun h hnone => steps_of_next rfl (State.onDoorbell_absent (hopen h).1 (hopen h).2 hnone),
    fun e h hq hst => hring h hq fun hq => State.ringTail_disabled hq hst,
    fun e h hq hst hfits => ⟨fun ht hidle => ?_, fun ht hidle => ?_, fun ht => hring h hq fun hq => State.ringTail_head hq hst hfits ht⟩,
    fun e h hq hst hover => hring h hq fun hq => State.ringTail_overrun hq hst hover,
    fun h => steps_of_next rfl (State.onLoad_unasked h),
    fun n hpend => ⟨fun hq => steps_of_next rfl (State.onLoad_resident hpend hq),
      fun hnone hheld => steps_of_next rfl (State.onLoad_held hpend hnone hheld),
      fun hnone hen hqt hbind => steps_of_next rfl (State.onLoad_binding hpend hnone hen hqt hbind),
      fun hnone hen hqt hbind => ?_⟩,
    fun h => ⟨steps_of_next rfl (State.onQueueSelect_absent h), steps_of_next rfl (State.onQueueSlice_absent h)⟩,
    fun p hproc => ⟨fun hfree => ⟨steps_of_next rfl (State.onQueueSlice_free hproc hfree),
        fun hpick => steps_of_next rfl (State.onQueueSelect_none hproc hfree hpick), fun e hpick => ?_⟩,
      fun hbusy => steps_of_next rfl (State.onQueueSelect_serves hproc hbusy),
      fun hbusy h => steps_of_next rfl (State.onQueueSlice_early hproc hbusy h), fun e hbusy hleft hq => ?_⟩,
    fun hrun hheld => steps_of_next rfl (State.onHold_fires hrun hheld), fun h => steps_of_next rfl (State.onHold_early h)⟩
  · exact hring h hq fun hq => (State.ringTail_behind hq hst hfits ht).trans (if_neg hidle)
  · exact hring h hq fun hq => (State.ringTail_behind hq hst hfits ht).trans (if_pos hidle)
  · have hread {r : Except State (State × Option QEntry)} {s' : State} (hr : s.readEntryOf q = r) (hs : onEntryRead q n r = s') :
        Steps (.queueLoad q) s s' :=
      steps_of_next rfl ((State.onLoad_reads hpend hnone hen hqt hbind).trans (hr ▸ hs))
    refine ⟨fun s1 hr => hread hr rfl, fun s1 hr => hread hr rfl, fun s1 y hr => ⟨fun hoff => hread hr (State.loadEntry_off hoff),
      fun hon hroom => hread hr (State.loadEntry_room hon hroom), fun hon hfull => ?_⟩⟩
    have hvictim {o : Option Nat} (ho : s1.loadVictim = o) := hread hr (ho ▸ State.loadEntry_full hon hfull)
    exact ⟨fun w hw => hvictim hw, fun hno => hvictim hno⟩
  · have htakes := State.onQueueSelect_takes hproc hfree hpick
    exact ⟨fun h => steps_of_next rfl (htakes.trans (State.takeQueue_passes h)),
      fun h => steps_of_next rfl (htakes.trans (State.takeQueue_serves h))⟩
  · have hover := State.onQueueSlice_over hproc hbusy hleft hq
    exact ⟨fun hcur => steps_of_next rfl (hover.trans (if_pos hcur)),
      fun hcur => steps_of_next rfl (hover.trans (if_neg (by simp [hcur])))⟩
end

section
/-!
SUPPORT. What one step of the machine runs: the choice of the schedule, the turn of a core down to the unit that its first thread issues,
and the oldest step of a channel (R43, R136, R195, R286, R287).
-/

namespace Sys2Proof.Machine

variable {s s3 s4 s5 : State} {rest : List Choice}

/-! ## The next step -/

/-- What becomes of the outcome of what came next: a next state settles, and a fault or a refusal is the step's own. -/
def settled : Host.Outcome State Fault Refusal → Host.Outcome State Fault Refusal
  | .next s => .next s.settleStep
  | r => r

theorem step_chosen {x : Choice} (h : s.choices = x :: rest) :
    step s = settled (({ s.tickClock.tickCycles with choices := rest } : State).choose x) := by
  have hticked : s.tickClock.tickCycles.choices = x :: rest := by simpa using h
  simp only [step, State.advance, hticked]
  rfl

theorem step_auto (h : s.choices = []) : step s = settled s.tickClock.tickCycles.autoStep := by
  have hticked : s.tickClock.tickCycles.choices = [] := by simpa using h
  simp only [step, State.advance, hticked]
  rfl

/-! ## Pending steps (R43) -/

theorem State.runEvent_of_get {i : Nat} {e : Ev} (h : s.agenda[i]? = some e) :
    s.runEvent i = exec (evInstr e) { s with agenda := s.agenda.eraseIdx i } := by
  rw [State.runEvent, h]

theorem State.autoStep_event {e : Ev} {l : List Ev} (hflip : s.flip = true) (hagenda : s.agenda = e :: l) :
    s.autoStep = exec (evInstr e) { s with flip := false, agenda := l } := by
  rw [State.autoStep, if_pos (by simp [hflip, hagenda]), State.runEvent_of_get (e := e) (by simp [hagenda])]
  simp [hagenda]

section channel
variable {l : List Ev} {n m : Nat} {a e : Ev} (ha : l[n]? = some a)
include ha

/-- A step of no channel is taken as it is chosen. -/
theorem oldestOf_unordered (hkey : channelKey a = none) : oldestOf l n = n := by
  have hnone : l.findIdx? (fun b => sameChannel b a) = none :=
    List.findIdx?_eq_none_iff.2 fun b _ => by cases hb : channelKey b <;> simp [sameChannel, hkey, hb]
  simp only [oldestOf, ha, hnone, Option.getD_none]

theorem oldestOf_first (he : l[m]? = some e) (hsame : sameChannel e a = true) (hfirst : ∀ b ∈ l.take m, sameChannel b a = false) :
    oldestOf l n = m := by
  obtain ⟨hm, rfl⟩ := List.getElem?_eq_some_iff.1 he
  have hidx : l.findIdx? (fun b => sameChannel b a) = some m :=
    List.findIdx?_eq_some_iff_getElem.2 ⟨hm, hsame, fun j hj => by simpa using hfirst l[j] (List.mem_take_iff_getElem.2 ⟨j, by omega, rfl⟩)⟩
  simp only [oldestOf, ha, hidx, Option.getD_some]

end channel

/-! ## A core's turn (R136) -/

theorem State.coreTurn_runs {c : Nat} (h : s.coreRuns c = true) : s.coreTurn c = (s.beginTurn c).issueFirst c ((s.beginTurn c).candidates c) :=
  if_pos h

section turn
variable {c k tk : Nat} {more : List (Nat × Nat)} {t : Thread} {d : Vec}

/-- A thread that takes no interrupt issues the unit in the line that its fetch gives. -/
theorem State.issueThread_line (hthr : s.thr tk = some t) (hint : t.interrupt? = none)
    (hfetch : ({ s with unit := { tk := tk, addr := t.pc, core := c } } : State).fetch tk t = .line s3 d) :
    s.issueThread c tk = s3.issueWords tk t d := by
  simp only [State.issueThread, hthr, hint, hfetch, Option.isSome_none, Bool.false_eq_true, if_false]

/-- What the turn keeps of a unit that issued: its slot, and the cycle where the unit set none of its own. -/
theorem State.issueFirst_next (hthr : s.thr tk = some t) (h : s.issueThread c tk = .next s4) (hissued : s4.unit.refused = false) :
    s.issueFirst c ((k, tk) :: more) = .next ((s4.modCore c fun x => { x with lastSlot := k }).modThr tk fun u =>
      if u.lastIssue = t.lastIssue then { u with lastIssue := some (s.clu (c / 4)).cycle.toNat } else u) := by
  simp only [State.issueFirst, h, hissued, hthr, Option.bind_some, Bool.false_eq_true, if_false]

theorem State.issueFirst_fault {f : Fault} (h : s.issueThread c tk = .fault f) : s.issueFirst c ((k, tk) :: more) = .fault f := by
  rw [State.issueFirst, h]

theorem State.issueFirst_refused {r : Refusal} (h : s.issueThread c tk = .refused r) : s.issueFirst c ((k, tk) :: more) = .refused r := by
  rw [State.issueFirst, h]

end turn

/-! ## The words of a unit (R286, R287) -/

section words
variable {tk : Nat} {t : Thread} {d : Vec} {w w1 : Nat} {i j : Instr}

theorem decodeOn_instr {f64v : Bool} (hdec : decodeWord w = some i) (hf64v : isF64vWord w = false ∨ f64v = true) :
    decodeOn f64v w = .instr i := by
  rw [decodeOn, if_neg (by rcases hf64v with h | h <;> simp [h]), hdec]

theorem State.issueLone_instr (hdec : decodeWord w = some i) (hf64v : isF64vWord w = false ∨ s.hasF64v s.unit.core = true) :
    s.issueLone tk t w = exec i s := by
  rw [State.issueLone, decodeOn_instr hdec hf64v]

/-- The A word of a pair is evaluated first, then the C word takes effect. -/
theorem State.issuePair_instr (hdec : decodeWord w = some i) (hjoins : standsAlone i = false) (hdec1 : decodeWord w1 = some j)
    (hf64v : isF64vWord w1 = false ∨ s.hasF64v s.unit.core = true)
    (ha : exec j { s with unit := { s.unit with phase := .aOfPair, cReads := vReads i } } = .next s4) :
    s.issuePair tk t w w1 = exec i { s4 with unit := { s4.unit with phase := .cOfPair } } := by
  simp only [State.issuePair, decodeFirst, hdec, decodeOn_instr hdec1 hf64v, hjoins, Bool.false_eq_true, if_false, ha]

variable (hw : bytesAt d (t.pc.toNat % 64) 4 = w)
include hw

theorem State.issueWords_lone (hlone : bits w 31 1 = 0) (hdec : decodeWord w = some i)
    (hf64v : isF64vWord w = false ∨ s.hasF64v s.unit.core = true) :
    s.issueWords tk t d = exec i { s with unit := { s.unit with word0 := BitVec.ofNat 32 w } } := by
  subst hw
  exact (if_pos hlone).trans (State.issueLone_instr hdec hf64v)

theorem State.issueWords_pair (hw1 : bytesAt d (t.pc.toNat % 64 + 4) 4 = w1) (hpair : bits w 31 1 = 1) (hcword : bits w 30 1 = 0)
    (halign : t.pc.toNat % 8 = 0) (hlast : bits w1 31 1 = 0) (haword : bits w1 30 1 = 1) (hdec : decodeWord w = some i)
    (hjoins : standsAlone i = false) (hdec1 : decodeWord w1 = some j) (hf64v : isF64vWord w1 = false ∨ s.hasF64v s.unit.core = true)
    (ha : exec j { s with unit := { s.unit with word0 := BitVec.ofNat 32 w, word1 := BitVec.ofNat 32 w1, phase := .aOfPair, cReads := vReads i } } =
      .next s4) :
    s.issueWords tk t d = exec i { s4 with unit := { s4.unit with phase := .cOfPair } } := by
  subst hw hw1
  have hframe : ¬ (bits (bytesAt d (t.pc.toNat % 64) 4) 30 1 = 1 ∨ t.pc.toNat % 64 % 8 = 4) := by omega
  have hframe1 : ¬ (bits (bytesAt d (t.pc.toNat % 64 + 4) 4) 31 1 = 1 ∨ bits (bytesAt d (t.pc.toNat % 64 + 4) 4) 30 1 = 0) := by omega
  exact (if_neg (by omega)).trans ((if_neg hframe).trans ((if_neg hframe1).trans (State.issuePair_instr hdec hjoins hdec1 hf64v ha)))

end words

end Sys2Proof.Machine
end

section
/-!
CERTIFICATE. What one step of the machine runs.
-/

open Sys2Proof Sys2Proof.Machine

/-- Settles O54: the schedule's choice leads to the unit of the first thread in turn, or to the oldest step of a channel, and the rest of the
step settles what that one left. -/
theorem stepRunsTheDecodedInstruction : Obligations.StepRunsTheDecodedInstruction := by
  intro s c k tk rest more t s3 d i j s1 s2 w w1 turn ends decodes lone pair
  have hturn (h : turn) : step s = settled (s2.issueFirst c ((k, tk) :: more)) ∧ s2.issueThread c tk = s3.issueWords tk t d ∧
      s2.thr tk = some t := by
    obtain ⟨hchoice, hc, hruns, hcand, hthr, hint, hfetch⟩ := h
    refine ⟨?_, State.issueThread_line hthr hint hfetch, hthr⟩
    rw [step_chosen hchoice, ← hcand]
    exact congrArg settled ((congrArg s1.coreTurn (Nat.mod_eq_of_lt hc)).trans (State.coreTurn_runs hruns))
  have hends {s4 : State} (h : turn) (hissue : s3.issueWords tk t d = .next s4) (hissued : s4.unit.refused = false) : step s = .next (ends s4) := by
    obtain ⟨hstep, hthread, hthr⟩ := hturn h
    rw [hstep, State.issueFirst_next hthr (hthread.trans hissue) hissued]
    rfl
  refine ⟨fun h hlone ⟨hdec, hf64v⟩ => ?_, fun h hpair hcword halign hlast haword hdec hjoins ⟨hdec1, hf64v⟩ s4 s5 ha hc hissued => ?_,
    fun e l s' hchoice hflip hagenda hexec => ?_, fun n m e a s' hchoice ha he holdest hexec => ?_⟩
  · have hissue : s3.issueWords tk t d = exec i lone := State.issueWords_lone rfl hlone hdec hf64v
    obtain ⟨hstep, hthread, -⟩ := hturn h
    refine ⟨fun s4 hexec => hends h (hissue.trans hexec), fun f hexec => ?_, fun r hexec => ?_⟩
    · rw [hstep, State.issueFirst_fault (hthread.trans (hissue.trans hexec))]
      rfl
    · rw [hstep, State.issueFirst_refused (hthread.trans (hissue.trans hexec))]
      rfl
  · exact hends h ((State.issueWords_pair rfl rfl hpair hcword halign hlast haword hdec hjoins hdec1 hf64v ha).trans hc) hissued
  · rw [step_auto hchoice, State.autoStep_event (e := e) (l := l) (by simpa using hflip) (by simpa using hagenda), hexec]
    rfl
  · have hm : oldestOf s.agenda n = m := by
      rcases holdest with ⟨hkey, rfl⟩ | ⟨hsame, hfirst⟩
      · exact oldestOf_unordered ha hkey
      · exact oldestOf_first ha he hsame hfirst
    have hagenda : s1.agenda = s.agenda := by simp [s1]
    have hrun : s1.choose (.ev n) = .next s' := by
      rw [State.choose, hagenda, hm, State.runEvent_of_get (hagenda ▸ he), hagenda, hexec]
    rw [step_chosen hchoice]
    exact congrArg settled hrun
end

section
/-!
SUPPORT. YIELD and HBEAT as they retire (R136, R320, R321).
-/

namespace Sys2Proof.Machine

variable {s : State} {t u : Thread}

/-- A unit whose C word set the thread's cycle of issue itself retires without setting it again. -/
theorem State.retire_rested {tk : Nat} {c : CSpec} {pc : Option Word} (hu : s.thr tk = some u) (hp : t.portcfg = 0) (hf : t.flumes = [])
    (hpd : t.pend = []) (hfu : u.flumes = []) (hpu : u.pend = []) (hl : u.lastIssue ≠ t.lastIssue) :
    s.retire tk t c {} 1 pc = s.setThr tk { finished s (pc.getD (s.unit.addr + 4)) u with lastIssue := u.lastIssue } := by
  rw [State.retire_plain s tk t u c {} 1 pc hu hp hf hfu rfl hpd (.inr rfl)]
  cases u
  simp only at hfu hpu hl
  subst hfu hpu
  simp only [List.foldl_nil, ageResults_nil, List.find?_nil, finished, fpRaise, hl, if_false]
  congr 2
  · exact ite_ready _
  · simp

/-- YIELD's rest stands: a thread that may issue last issued before the cycle that YIELD gives it. -/
theorem execYield_rests (h : Alone s t) (p : Bool)
    (hrested : ∀ n, t.lastIssue = some n → n + 4 ≤ (s.clu (s.unit.core / 4)).cycle.toNat) :
    exec (.yield p) s = .next (s.setThr s.unit.tk
      { finished s (s.unit.addr + 4) t with lastIssue := some ((s.clu (s.unit.core / 4)).cycle.toNat + 13) }) := by
  have hlater : some ((s.clu (s.unit.core / 4)).cycle.toNat + 13) ≠ t.lastIssue := fun e => by
    have := hrested _ e.symm
    omega
  have hrest : (s.rest 16).thr s.unit.tk = some { t with lastIssue := some ((s.clu (s.unit.core / 4)).cycle.toNat + 13) } := by
    simp [State.rest, h.thread]
  refine (issueC_alone {} (fun _ s => .done (s.rest 16) none) h (by simp)).trans (congrArg _ ?_)
  refine (State.retire_rested hrest h.ports h.flumes h.pend h.flumes h.pend hlater).trans ?_
  rw [State.rest, State.modThr_some s s.unit.tk t _ h.thread, State.setThr_setThr]
  rfl

theorem execHbeat_leaves (h : Alone s t) (p : Bool) :
    let v := s.valsOf (ckOfTk s.unit.tk)
    Leaves (.hbeat p) s (if v.hbarm then { t with hbeatwin := BitVec.ofNat 64 v.hbwin } else t) := by
  intro v
  have hbody {s' : State} (hs : (if v.hbarm then s.modThr s.unit.tk fun t => { t with hbeatwin := word v.hbwin } else s) = s') :
      execHbeat p s = issueC {} (fun _ _ => .done s' none) s := hs ▸ rfl
  cases harm : v.hbarm
  · exact Goes.stays (pc := none) h (hbody (if_neg (by simp [harm]))) (by simp) rfl
  · exact Goes.word (pc := none) h (hbody ((if_pos harm).trans (State.modThr_some s _ t _ h.thread))) (by simp) rfl h.flumes h.pend rfl

end Sys2Proof.Machine
end

section
/-!
CERTIFICATE. CNOP, YIELD, HBEAT, PPT and TRAP.
-/

open Sys2Proof Sys2Proof.Machine

/-- Settles O6: each word is its body, which leaves the thread as the rule says. -/
theorem threadControlResults : Obligations.ThreadControlResults := by
  intro s t h cycle next vals
  refine ⟨fun p => ⟨?_, execYield_rests h p, execHbeat_leaves h p⟩, fun i => ⟨Traps.word h rfl (by simp) rfl, fun hnone => ?_⟩⟩
  · exact Goes.stays (pc := none) h rfl (by simp) rfl
  · exact Goes.stays (pc := none) h rfl (by simp) (by simp [h.thread, hnone])
end

section
/-!
SUPPORT. Messages for contexts (R133, R141, R144, R168), the notices of the directory service (R404 to R407) and the network's links (R153).
-/

namespace Sys2Proof.Machine

variable {s : State} {m : Msg} {c : Nat}

/-! ## Where a message for a context goes (R141) -/

theorem State.addressed_resident (h : s.coreOfCk m.ck = some c) (e : Ev) : s.addressed e m = .core c := by
  simp only [State.addressed, h]

section absent
variable (habsent : s.coreOfCk m.ck = none)
include habsent

theorem State.addressed_deferred {x : Context} (hx : s.context (ctxKeyOfCk m.ck) = some x) (hroom : x.deferred.length < 4096) (e : Ev) :
    s.addressed e m = .ring (s.setContext (ctxKeyOfCk m.ck) (some { x with deferred := x.deferred ++ [e] })) := by
  simp only [State.addressed, habsent, hx, hroom, if_true]

theorem State.addressed_gone (hx : s.context (ctxKeyOfCk m.ck) = none) (hr : s.region (regionOfCk m.ck) = none) (e : Ev) :
    s.addressed e m = .gone := by
  simp only [State.addressed, habsent, hx, hr, Option.isSome_none, Bool.false_eq_true, if_false]

end absent

/-! ## At the core (R133, R144, R168, R169, R277) -/

section core
variable (h : s.coreOfCk m.ck = some c)
include h

theorem State.onUser_resident : s.onUser m = s.userAt c m := by simp only [State.onUser, State.addressed_resident h]

theorem State.onDec_resident : s.onDec m = s.decAt c m := by simp only [State.onDec, State.addressed_resident h]

theorem State.onNotice_resident : s.onNotice m = (s.noticeAt m).countDel c m.region := by
  simp only [State.onNotice, State.addressed_resident h]

theorem State.onLreqMsg_resident : s.onLreqMsg m = s.lreqAt c m := by simp only [State.onLreqMsg, State.addressed_resident h]

theorem State.onChunkMsg_resident : s.onChunkMsg m = s.chunkAt c m := by simp only [State.onChunkMsg, State.addressed_resident h]

end core

theorem State.userAt_inbox (hspill : (s.core c).spill = false) (hroom : (s.cx m.ck).inbox.length < 64) :
    s.userAt c m = (s.inboxPut m.ck m).countDel c m.region := by
  simp [State.userAt, State.userArrives, hspill, hroom]

theorem State.userAt_full (hspill : (s.core c).spill = true) (hfull : 16 ≤ (s.core c).spillInbox.length) :
    s.userAt c m = s.holdBack (.userMessage m) := by
  simp [State.userAt, hspill, hfull]

/-! ## Messages that are offered again (R141) -/

/-- A message that hardware sent is held by no thread, and is offered to its core as it was. -/
theorem State.onDeferredRetry_hardware (hctag : m.ctag = 1) (h : s.coreOfCk m.ck = some c) :
    s.onDeferredRetry m = if m.sub = 1 then s.decAt c { m with sub := 0 } else s.userAt c { m with sub := 0 } := by
  have haddr (e : Ev) : s.addressed e { m with sub := 0 } = .core c := State.addressed_resident h e
  have hsend : s.setSend m none = s := if_pos hctag
  have hheld : (m.ctag == 1) = true := beq_iff_eq.2 hctag
  simp only [State.onDeferredRetry, hheld, haddr, hsend, Bool.true_or, Bool.not_true, Bool.false_eq_true, if_false]

theorem State.onDeferredRetry_senderGone (hctag : m.ctag ≠ 1) (h : s.thr (mkTk m.srcCk m.thread) = none) : s.onDeferredRetry m = s := by
  simp [State.onDeferredRetry, hctag, h]

/-! ## Directory service (R404 to R407) -/

/-- The notice of a DIRSVC message joins the queue of its service core. -/
def State.noticed (s : State) (m : Msg) : State :=
  State.countDel (s.modCore m.dst fun x => { x with notices := x.notices ++
    [{ kind := m.sub, agent := m.ctag, sl := m.src - 0x80, line := m.line, level := m.chunk, ver := m.ver, token := m.txid, span := m.slot }] })
    m.dst standbyRegion

@[simp] theorem State.modCore_ckOfCore (k : Nat) (f : Core → Core) (j : Nat) : (s.modCore k f).ckOfCore j = s.ckOfCore j := rfl

@[simp] theorem State.countDel_ckOfCore (k r j : Nat) : (s.countDel k r).ckOfCore j = s.ckOfCore j := rfl

/-- A notice that finds room joins the queue, and the dispatcher of the core's context looks again. -/
theorem State.onDirsvc_room (h : (s.core m.dst).notices.length < 32) : s.onDirsvc m =
    (s.ckOfCore m.dst).elim (s.noticed m) fun k => (s.noticed m).laterOnce (.dispatch k) := by
  cases hk : s.ckOfCore m.dst <;> simp [State.onDirsvc, State.noticed, h, hk]

theorem State.onDirsvc_full (h : 32 ≤ (s.core m.dst).notices.length) : s.onDirsvc m = s.holdBack (.dirsvc m) := if_neg h.not_gt

section dsdone
variable {sl line : Nat}

/-- The home's wait for DSDONE of a line, as it is logged (R407). -/
def State.logDsdoneWait (s : State) (sl line : Nat) : State :=
  if (s.sl sl).txns.any fun t => t.awaitDs && t.line == line then s.corrected (.slice sl) (word (64 * line)) else s

theorem State.logDsdoneWait_waits (h : ∃ t ∈ (s.sl sl).txns, t.awaitDs = true ∧ t.line = line) :
    s.logDsdoneWait sl line = s.corrected (.slice sl) (word (64 * line)) :=
  if_pos (by simpa using h)

theorem State.logDsdoneWait_over (h : ∀ t ∈ (s.sl sl).txns, t.awaitDs = false ∨ t.line ≠ line) : s.logDsdoneWait sl line = s := by
  refine if_neg fun hany => ?_
  obtain ⟨t, ht, hwaits⟩ := List.any_eq_true.1 hany
  rcases h t ht with hno | hno <;> simp [hno] at hwaits

end dsdone

/-! ## Network links (R153) -/

/-- The count of failed retries in a row of a link. -/
def State.countLink (s : State) (n k : Nat) : State := { s with port := { s.port with linkFails := Tbl.put 0 s.port.linkFails n k } }

section link
variable {n : Nat}

theorem State.onLinkRetry_cured : s.onLinkRetry n true = (s.countLink n 0).corrected (.link n) 0 := rfl

theorem State.onLinkRetry_fails (h : Tbl.get 0 s.port.linkFails n + 1 < 16) :
    s.onLinkRetry n false = (s.countLink n (Tbl.get 0 s.port.linkFails n + 1)).corrected (.link n) 0 := if_pos h

theorem State.onLinkRetry_fatal (h : 16 ≤ Tbl.get 0 s.port.linkFails n + 1) :
    s.onLinkRetry n false = (s.countLink n (Tbl.get 0 s.port.linkFails n + 1)).unitFatal (.link n) 0 := if_neg h.not_gt

/-- A core that has failed stands among the failed ones of its cluster. -/
theorem State.failCore_mem (hwf : Tbl.wf {} s.clusters = true) (k : Nat) : k ∈ ((s.failCore k).clu (k / 4)).failed := by
  have hclu : (s.failCore k).clu (k / 4) =
      { s.clu (k / 4) with failed := if (s.clu (k / 4)).failed.contains k then (s.clu (k / 4)).failed else (s.clu (k / 4)).failed ++ [k] } :=
    Tbl.get_put_same _ _ _ _ hwf
  rw [hclu]
  by_cases h : k ∈ (s.clu (k / 4)).failed <;> simp [h]

/-- A failure takes no core from those that have failed. -/
theorem State.failCore_keeps (hwf : Tbl.wf {} s.clusters = true) {j i : Nat} (h : j ∈ (s.clu i).failed) (k : Nat) :
    j ∈ ((s.failCore k).clu i).failed := by
  by_cases hi : i = k / 4
  · subst hi
    have hclu : (s.failCore k).clu (k / 4) =
        { s.clu (k / 4) with failed := if (s.clu (k / 4)).failed.contains k then (s.clu (k / 4)).failed else (s.clu (k / 4)).failed ++ [k] } :=
      Tbl.get_put_same _ _ _ _ hwf
    rw [hclu]
    by_cases hk : k ∈ (s.clu (k / 4)).failed <;> simp [hk, h]
  · have hclu : (s.failCore k).clu i = s.clu i := Tbl.get_put_other _ _ 0 _ _ _ hwf hi
    exact hclu ▸ h

/-- A link that is unit-fatal takes the cores of both its tiles out, and touches no thread. -/
theorem State.unitFatal_link (hwf : Tbl.wf {} s.clusters = true) (addr : Word) :
    (linkTiles n).1 ∈ ((s.unitFatal (.link n) addr).clu ((linkTiles n).1 / 4)).failed ∧
    (linkTiles n).2 ∈ ((s.unitFatal (.link n) addr).clu ((linkTiles n).2 / 4)).failed ∧
    (s.unitFatal (.link n) addr).threads = s.threads := by
  let u := ((s.logError 2 (.link n) addr).recordFailure (.core (linkTiles n).1)).recordFailure (.core (linkTiles n).2)
  have hu : Tbl.wf {} u.clusters = true := hwf
  have hfirst : Tbl.wf {} (u.failCore (linkTiles n).1).clusters = true := Tbl.wf_put _ _ _ _ hu
  exact ⟨State.failCore_keeps hfirst (State.failCore_mem hu _) _, State.failCore_mem hfirst _, rfl⟩

end link

end Sys2Proof.Machine
end

section
/-!
SUPPORT. Capsules on the network (R169, R172, R277, R279, R282 to R284).
-/

namespace Sys2Proof.Machine

variable {s : State} {m : Msg} {c ck : Nat} {o : OutCap}

/-! ## GRANT (R169, R172, R282, R283) -/

/-- A grant that its sender gives back. -/
def grantBack (m : Msg) (ck : Nat) : Ev :=
  .alwRet { src := m.dst, dst := m.src, ctag := m.ctag, slot := m.slot, ck := m.srcCk, srcCk := ck, region := m.region }

/-- Chunk `i` of the `n` of a capsule, as it is sent for a grant. -/
def State.grantChunk (s : State) (o : OutCap) (m : Msg) (ck me n i : Nat) : Msg :=
  { src := me, dst := m.src, ctag := m.ctag, slot := m.slot, chunk := i, last := i + 1 == n, ck := o.dstCk, srcCk := ck, region := regionOfCk ck
    data := some (BitVec.ofNat 512 (s.poolRead ck (o.off + 64 * i) 64)), poison := (s.poolPoison ck (o.off + 64 * i) 64).isSome }

section grant
variable (hcore : s.coreOfCk ck = some c)
include hcore

theorem State.onGrant_resetting (h : (s.clusterOfCk ck).any (fun k => (s.clu k).resetting) = true) :
    s.onGrant ck m = s.later (grantBack m ck) :=
  (if_neg (by simp [hcore])).trans (if_pos h)

section steady
variable (hsteady : (s.clusterOfCk ck).any (fun k => (s.clu k).resetting) = false)
include hsteady

theorem State.onGrant_unasked (h : s.outCap ck m.ctag = none) : s.onGrant ck m = s.later (grantBack m ck) := by
  simp [State.onGrant, hcore, hsteady, h, grantBack]

theorem State.onGrant_again (h : s.outCap ck m.ctag = some o) (hsent : o.sent = true) : s.onGrant ck m = s.later (grantBack m ck) := by
  simp [State.onGrant, hcore, hsteady, h, hsent, grantBack]

theorem State.onGrant_sends (h : s.outCap ck m.ctag = some o) (hsent : o.sent = false) : s.onGrant ck m =
    foldS (fun i (s : State) => (s.countInj c (regionOfCk ck)).later (.chunk (s.grantChunk o m ck c ((o.length + 63) / 64) i)))
      (List.range ((o.length + 63) / 64)) (s.modOut ck m.ctag fun o => { o with granted := some m.slot, sent := true }) := by
  simp only [State.onGrant, hcore, hsteady, h, hsent, Option.isNone_some, Bool.false_eq_true, if_false, Option.getD_some]
  rfl

end steady
end grant

/-- A sequence of messages that are counted and sent keeps the threads, DRAM and what was pending, and each of them becomes pending. -/
theorem foldS_sends (c r : Nat) (f : Nat → State → Ev) (l : List Nat) (s : State) :
    let u := foldS (fun i (s : State) => (s.countInj c r).later (f i s)) l s
    u.threads = s.threads ∧ u.dram = s.dram ∧ (∀ e ∈ s.agenda, e ∈ u.agenda) ∧ ∀ i ∈ l, ∃ v, f i v ∈ u.agenda := by
  induction l generalizing s with
  | nil => exact ⟨rfl, rfl, fun _ he => he, nofun⟩
  | cons i l ih =>
    obtain ⟨hthreads, hdram, hkept, hsent⟩ := ih ((s.countInj c r).later (f i s))
    refine ⟨hthreads, hdram, fun e he => hkept e (List.mem_append_left _ he), fun j hj => ?_⟩
    rcases List.mem_cons.1 hj with rfl | hj
    · exact ⟨s, hkept _ (List.mem_append_right _ (List.mem_singleton_self _))⟩
    · exact hsent j hj

/-! ## RET, LREQ_RESEND (R169, R282) -/

/-- The slot is held for the transfer of a message. -/
def Slot.heldFor (sl : Slot) (m : Msg) : Prop := sl.st = .reserved ∧ sl.srcCk = m.srcCk ∧ sl.ctag = m.ctag

theorem State.onRet_refused (h : m.sub = 1) :
    s.onRet ck m = (s.modOut ck m.ctag fun o => { o with refused := true }).later (.lreqResend ck m.ctag) := if_pos h

theorem State.onRet_frees (h : m.sub ≠ 1) (hheld : (Tbl.get {} (s.cx ck).slots m.slot).heldFor m)
    (hempty : (Tbl.get {} (s.cx ck).slots m.slot).chunks = []) : s.onRet ck m = s.releaseSlot ck m.slot :=
  (if_neg h).trans (if_pos ⟨hheld.1, hheld.2.1, hheld.2.2, hempty⟩)

theorem State.onRet_late (h : m.sub ≠ 1) (hst : (Tbl.get {} (s.cx ck).slots m.slot).st ≠ .reserved) : s.onRet ck m = s :=
  (if_neg h).trans (if_neg fun hheld => hst hheld.1)

theorem State.onLreqResend_sends (hcore : s.coreOfCk ck = some c) {tag : Nat} (hout : s.outCap ck tag = some o) (h : o.refused = true) :
    s.onLreqResend ck tag = ((s.modOut ck tag fun o => { o with refused := false }).countInj c (regionOfCk ck)).later
      (.lreq { src := c, dst := (s.coreOfCk o.dstCk).getD 0, ctag := tag, length := o.length, region := regionOfCk ck, ck := o.dstCk, srcCk := ck,
               sub := bitOf (o.entry == word capretEntry) }) := by
  simp only [State.onLreqResend, hout, hcore, h, if_true]

/-! ## CHUNK (R277, R283) -/

/-- The answer to the last chunk of a capsule. -/
def chunkAnswer (m : Msg) (c ck stat : Nat) : Ev :=
  .cmp { src := c, dst := m.src, ctag := m.ctag, ck := m.srcCk, srcCk := ck, region := m.region, stat := stat, len := 1, slot := 4 }

theorem State.onChunk_discarded (hcore : s.coreOfCk ck = some c) (h : ¬ (Tbl.get {} (s.cx ck).slots m.slot).heldFor m) :
    s.onChunk ck m = if m.last then s.later (chunkAnswer m c ck 1) else s := by
  have hme : (s.coreOfCk ck).getD 0 = c := by simp [hcore]
  subst hme
  exact if_pos (by simpa only [Slot.heldFor, not_and_or] using h)

/-- A chunk that is not the last to come lands, and is noted in its slot. -/
theorem State.onChunk_lands {sl : Slot} (hslot : Tbl.get {} (s.cx ck).slots m.slot = sl) (h : sl.heldFor m) (hclean : m.poison = false)
    (hnew : m.chunk ∉ sl.chunks) (hmore : sl.chunks.length + 1 < (sl.length + 63) / 64) :
    s.onChunk ck m = (s.poolWrite ck (s.slotBase ck + granule * m.slot + 64 * m.chunk) (bytesOfVec (m.data.getD 0))).modCx ck fun x =>
      { x with slots := Tbl.put {} x.slots m.slot { sl with chunks := sl.chunks ++ [m.chunk] } } := by
  obtain ⟨hst, hsrc, htag⟩ := h
  simp [State.onChunk, hslot, hst, hsrc, htag, hclean, hnew, hmore]

/-! ## CMP (R277) -/

theorem State.onCmp_capsule (hdst : m.dst < 64) (hslot : m.slot = 4) : s.onCmp m = s.onCapCmp m.ck m := by
  have hhome : ¬ 0x80 ≤ m.dst := by omega
  rw [State.onCmp, if_neg (by simp [isEci_of_core hdst]), if_neg hhome, if_pos hslot]

section sent
variable {k : Nat} (hout : s.outCap ck m.ctag = some o) (hcut : o.cut = false) (hstat : m.stat = 0)
include hout hcut hstat

theorem State.onCapCmp_slot (hslot : o.slot = some k) : s.onCapCmp ck m =
    (s.modCx ck fun x => { x with outcaps := x.outcaps.filter fun (y : OutCap) => y.ctag != m.ctag }).releaseSlot ck k := by
  simp only [State.onCapCmp, hout, hcut, hslot, hstat, Bool.false_eq_true, if_false]

theorem State.onCapCmp_pending (hslot : o.slot = none) (hpend : o.pend = some k) : s.onCapCmp ck m =
    (s.modCx ck fun x => { x with outcaps := x.outcaps.filter fun (y : OutCap) => y.ctag != m.ctag }).fillLane o.tk k 0 0 none := by
  simp only [State.onCapCmp, hout, hcut, hslot, hpend, hstat, Bool.false_eq_true, if_false]

end sent

/-! ## Dead letters (R279) -/

section dead
variable {d : DeadLetter} (hdead : (s.cx ck).dead = [d])
include hdead

/-- A dead letter whose image is in the pool has its record written there first. -/
theorem State.onDeadLetter_marks (hnew : d.marked = false) (himage : d.image = none) : s.onDeadLetter ck d.id =
    ((s.poolWrite ck (s.deadOff ck d) ((d.mark (rcOfCk ck) (s.deadImage ck d)).take 64)).modCx ck fun x => { x with
      dead := mapIf (fun (y : DeadLetter) => y.id == d.id) (fun (y : DeadLetter) => { y with marked := true, image := none }) x.dead }).later
        (.deadLetter ck d.id) := by
  simp [State.onDeadLetter, hdead, hnew, himage]

theorem State.onDeadLetter_noBox (hmarked : d.marked = true) (hbox : (s.valsOf ck).dlbva = 0) : s.onDeadLetter ck d.id = s.deadEnd ck d 0 := by
  simp [State.onDeadLetter, hdead, hmarked, hbox]

end dead

end Sys2Proof.Machine
end

section
/-!
CERTIFICATE. Messages for contexts, and capsules on the network.
-/

open Sys2Proof Sys2Proof.Machine Sys2Proof.Laws

/-- Messages for contexts, directory-service notices and link retries: each one's handler, split on where the context is. -/
theorem contextMessageResults : Claims.ContextMessageResults := by
  intro s m c sl line n x clear here away gone ring noticed link fails
  refine ⟨fun ⟨hm, hc⟩ hspill hroom => steps_of_msg rfl hm ((State.onUser_resident hc).trans (State.userAt_inbox hspill hroom)),
    fun ⟨hm, hc⟩ hspill hfull => steps_of_msg rfl hm ((State.onUser_resident hc).trans (State.userAt_full hspill hfull)),
    fun ⟨hm, hc⟩ => ⟨steps_of_msg rfl hm (State.onDec_resident hc), steps_of_msg rfl hm (State.onNotice_resident hc),
      steps_of_msg rfl hm (State.onLreqMsg_resident hc), steps_of_msg rfl hm (State.onChunkMsg_resident hc)⟩,
    fun i hi => ⟨fun ⟨hm, habsent, hx, hroom⟩ => ?_, fun ⟨hm, habsent, hx, hr⟩ => ?_⟩,
    fun ⟨_, hc⟩ hctag => ⟨fun hsub => ?_, fun hsub hspill hroom => ?_⟩,
    fun hctag hthreads => steps_of_next rfl (State.onDeferredRetry_senderGone hctag ?_),
    fun hm hroom hnone => steps_of_msg rfl hm ((State.onDirsvc_room hroom).trans (by rw [hnone]; rfl)),
    fun k hm hroom hk => steps_of_msg rfl hm ((State.onDirsvc_room hroom).trans (by rw [hk]; rfl)),
    fun hm hfull => steps_of_msg rfl hm (State.onDirsvc_full hfull),
    fun hm hsrc => steps_of_msg rfl hm (if_neg (by simp [hsrc])), fun hm hsrc => steps_of_msg rfl hm (if_pos hsrc),
    fun h => steps_of_next rfl (State.logDsdoneWait_waits h), fun h => steps_of_next rfl (State.logDsdoneWait_over h),
    steps_of_next rfl State.onLinkRetry_cured, fun h => steps_of_next rfl (State.onLinkRetry_fails h), fun h hwf => ?_⟩
  · have hring := State.addressed_deferred habsent hx hroom
    simp only [List.mem_cons, List.not_mem_nil, or_false] at hi
    rcases hi with rfl | rfl | rfl | rfl | rfl <;>
      exact steps_of_msg rfl hm (by simp only [State.onUser, State.onDec, State.onNotice, State.onLreqMsg, State.onChunkMsg, hring, ring])
  · have hgone := State.addressed_gone habsent hx hr
    simp only [List.mem_cons, List.not_mem_nil, or_false] at hi
    rcases hi with rfl | rfl | rfl | rfl | rfl <;>
      exact steps_of_msg rfl hm (by simp only [State.onUser, State.onDec, State.onNotice, State.onLreqMsg, State.onChunkMsg, hgone])
  · exact steps_of_next rfl ((State.onDeferredRetry_hardware hctag hc).trans (if_pos hsub))
  · exact steps_of_next rfl ((State.onDeferredRetry_hardware hctag hc).trans ((if_neg (by simp [hsub])).trans (State.userAt_inbox hspill hroom)))
  · rw [State.thr, hthreads]
    rfl
  · exact ⟨_, steps_of_next rfl (State.onLinkRetry_fatal h), State.unitFatal_link (s := s.countLink n (fails + 1)) hwf 0⟩

/-- GRANT, RET, CHUNK, CMP and dead letters: each one's handler, split on the slot or the outgoing capsule that it finds. -/
theorem capsuleMessageResults : Claims.CapsuleMessageResults := by
  intro s m c tag id o d ck clear here steady back sl reserved off n landing cmp ended
  have hquiet (h : steady) : (s.clusterOfCk ck).any (fun k => (s.clu k).resetting) = false := by
    cases hk : s.clusterOfCk ck with
    | none => rfl
    | some k => exact h k hk
  refine ⟨fun k ⟨hm, hc⟩ hk hreset => steps_of_msg rfl hm (State.onGrant_resetting hc (by rw [hk]; exact hreset)),
    fun ⟨hm, hc⟩ h hout => steps_of_msg rfl hm ?_, fun ⟨hm, hc⟩ h hout hsent => ?_,
    fun hm hsub => steps_of_msg rfl hm (State.onRet_refused hsub),
    fun hm hsub hheld hempty => steps_of_msg rfl hm (State.onRet_frees hsub hheld hempty),
    fun hm hsub hst => steps_of_msg rfl hm (State.onRet_late hsub hst),
    fun o hout ⟨_, hc⟩ hrefused => steps_of_next rfl (State.onLreqResend_sends hc hout hrefused),
    fun ⟨hm, hc⟩ hother => steps_of_msg rfl hm ((State.onChunkMsg_resident hc).trans ?_),
    fun ⟨hm, hc⟩ hheld hclean hnew hmore => steps_of_msg rfl hm ((State.onChunkMsg_resident hc).trans ?_),
    fun k hm hslot hdst hout hcut ho hstat =>
      steps_of_msg rfl hm ((State.onCmp_capsule hdst hslot).trans (State.onCapCmp_slot hout hcut hstat ho)),
    fun k hm hslot hdst hout hcut ho hpend hstat =>
      steps_of_msg rfl hm ((State.onCmp_capsule hdst hslot).trans (State.onCapCmp_pending hout hcut hstat ho hpend)),
    fun hdead hid hnew himage => ?_, fun hdead hid hmarked hbox => ?_⟩
  · exact hout.elim (State.onGrant_unasked hc (hquiet h)) fun ⟨hout, hsent⟩ => State.onGrant_again hc (hquiet h) hout hsent
  · have hall := foldS_sends c (regionOfCk ck) (fun i s => .chunk (s.grantChunk o m ck c ((o.length + 63) / 64) i))
      (List.range ((o.length + 63) / 64)) (s.modOut ck m.ctag fun o => { o with granted := some m.slot, sent := true })
    obtain ⟨hthreads, hdram, -, hchunks⟩ := hall
    refine ⟨_, steps_of_msg rfl hm (State.onGrant_sends hc (hquiet h) hout hsent), hthreads, hdram, fun i hi => ?_⟩
    obtain ⟨v, hv⟩ := hchunks i (List.mem_range.2 hi)
    exact ⟨_, hv, rfl, rfl, rfl, rfl, rfl, beq_iff_eq⟩
  · exact congrArg (State.countDel · c m.region) (State.onChunk_discarded hc hother)
  · exact congrArg (State.countDel · c m.region) (State.onChunk_lands rfl hheld hclean hnew hmore)
  · subst hid
    exact steps_of_next rfl (State.onDeadLetter_marks hdead hnew himage)
  · subst hid
    exact steps_of_next rfl (State.onDeadLetter_noBox hdead hmarked hbox)

/-- Settles O48: each message and each step is its handler, split on where the context is and on what the handler finds there. -/
theorem messageResults : Obligations.MessageResults := ⟨contextMessageResults, capsuleMessageResults⟩
end

section
/-!
SUPPORT. The scheduler's steps, case by case (R124 to R142).
-/

namespace Sys2Proof.Machine

variable {s : State} {r : Nat} {x : Region}

/-! ## The steps of a region (R124, R125, R127) -/

theorem State.not_ended_of_quiescent (h : s.quiescent r x = true) : x.ended = false := by
  by_contra hended
  simp [State.quiescent, hended] at h

section region
variable (hfound : s.region r = some x)
include hfound

theorem State.onRunnable_waits (h : s.canRun x = false) : s.onRunnable r = s := by simp [State.onRunnable, hfound, h]

/-- A region of one partition becomes RUNNABLE with its save slot; at a priority with no other RUNNABLE region its pass stands. -/
theorem State.onRunnable_single (h : s.canRun x = true) (hparts : x.vals.parts = 1) (hpass : s.leastPass x.vals.prio = none) {n : Nat}
    (hslots : s.freeSlots.take 1 = [n]) : s.onRunnable r =
      (((s.setRegion r (some { x with saveSlots := [n] })).setContext (ctxKey r 0) (some { region := r, part := 0, saveSlot := n })).setRegionState
        r .runnable 0).schedPoint := by
  simp only [State.onRunnable, hfound, h, hparts, hpass, hslots]
  rfl

theorem State.onSliceExpiry_over (hres : x.resident = true) (hexp : x.expired = false) (hused : x.vals.slice ≤ x.used) :
    s.onSliceExpiry r = (((s.leaveRegion r).advancePass r).modRegion r fun y => { y with expired := true }).schedPoint := by
  simp [State.onSliceExpiry, hfound, hres, hexp, hused]

theorem State.onSliceExpiry_early (h : x.resident = false ∨ x.expired = true ∨ x.used < x.vals.slice) : s.onSliceExpiry r = s := by
  simp only [State.onSliceExpiry, hfound]
  refine if_neg fun ⟨hres, hexp, hused⟩ => ?_
  rcases h with h | h | h
  · simp [h] at hres
  · simp [h] at hexp
  · omega

variable {fail : State → Nat → Nat → Nat → Nat → State}

theorem State.onRegionEnd_live (hended : x.ended = false) (hquiet : s.quiescent r x = false) : State.onRegionEnd fail s r = s := by
  simp [State.onRegionEnd, hfound, hended, hquiet]

/-- A region that has ended gives up its clusters once its service threads are done with their notices. -/
theorem State.onRegionEnd_ended (hended : x.ended = true) :
    State.onRegionEnd fail s r = if s.serviceBusy r then s else (s.freeRegion r x).wakeLaunches.schedPoint := by
  simp only [State.onRegionEnd, hfound, hended, if_true]

theorem State.onRegionEnd_quiescent (hquiet : s.quiescent r x = true) (hst : x.st = .runnable) : State.onRegionEnd fail s r =
    ((((s.setRegionState r .ended 0).leaveClusters r x).partDone x.q x.pkt).laterOnce (.packetComplete x.q x.pkt)).wakeLaunches.schedPoint := by
  have hsound : (RState.runnable == RState.faulted) = false := rfl
  simp only [State.onRegionEnd, hfound, State.not_ended_of_quiescent hquiet, hquiet, hst, hsound, Bool.not_true, Bool.false_eq_true, if_false]

end region

/-! ## Halts and swaps (R130, R131, R140, R141, R146) -/

section halt
variable {k : Nat}

theorem State.onHalt_waits (h : s.haltReady k = false) : s.onHalt k = s := if_pos (by simp [h])

theorem State.haltReady_halted {y : Context} (hy : s.context k = some y) (h : y.halted = true) : s.haltReady k = false := by
  cases hc : y.cluster <;> simp [State.haltReady, hy, hc, h]

/-- The threads of a partition that stand in slots are saved in full, and it has halted. -/
def State.haltThreads (s : State) (l : List (Nat × Thread)) : State :=
  foldS (fun (e : Nat × Thread) (s : State) => match e.2.place with
    | .inSlot _ => s.saveThread e.1
    | _ => s) l s

theorem State.haltThreads_one {n : Nat} {tk : Nat} {t : Thread} (h : t.place = .inSlot n) : s.haltThreads [(tk, t)] = s.saveThread tk := by
  simp [State.haltThreads, foldS, h]

theorem State.onHalt_ready (h : s.haltReady k = true) :
    s.onHalt k = (s.haltThreads (s.threadsOf k)).modContext k fun z => { z with halted := true } := if_neg (by simp [h])

end halt

section swap
variable {c : Nat}

theorem State.onSwap_waits (h : s.swapReady c = false) : s.onSwap c = s := if_pos (by simp [h])

theorem State.standDown_absent (h : ∀ j < 4, s.thr (mkTk (mkCk standbyRegion (4 * c + j)) 15) = none) : s.standDown c = s := by
  refine foldS_unchanged fun j hj => ?_
  simp only [h j (List.mem_range.1 hj)]

/-- A cluster without a context and without a failed core takes in the one to come. -/
theorem State.onSwap_free {k : Nat} (h : s.swapReady c = true) (hfailed : (s.clu c).failed = []) (hres : (s.clu c).resident = none)
    (hin : (s.clu c).incoming = some k) (hfits : s.fits c k = true)
    (hstandby : ∀ j < 4, s.thr (mkTk (mkCk standbyRegion (4 * c + j)) 15) = none) : s.onSwap c = s.swapIn c k := by
  have hleave : s.leavers c = [] := by simp [State.leavers, hfailed]
  have hout : (s.swapOut c).mapOut c = s := by
    simp only [State.swapOut, hres, State.standDown_absent hstandby]
    simp [State.mapOut, hfailed]
  simp [State.onSwap, h, hleave, hout, hin, hfits]

end swap

section bay
variable {bay : Nat}

/-- The write of a bay's context is under way no more. -/
def State.bayWritten (s : State) (bay : Nat) : State := { s with sched := { s.sched with bayWrite := s.sched.bayWrite.filter (· != bay) } }

theorem State.onBayWrite_empty (h : (s.bayWritten bay).inBay bay = none) : s.onBayWrite bay = s.bayWritten bay := by
  rw [State.bayWritten] at h ⊢
  simp only [State.onBayWrite, h]

theorem State.onBayWrite_holds {k : Nat} (h : (s.bayWritten bay).inBay bay = some k) :
    s.onBayWrite bay = if s.isSelected k then s.bayWritten bay else (s.bayWritten bay).modContext k fun z => { z with bay := none } := by
  rw [State.bayWritten] at h ⊢
  simp only [State.onBayWrite, h]
  rfl

end bay

/-! ## Multiplexing a roster (R137) -/

section roster
variable {c ck : Nat} (hcore : s.coreOfCk ck = some c)
include hcore

theorem State.onMultiplex_restores {tk n : Nat} {t : Thread} (hhalt : s.halting ck = false) (husers : s.rosterUsers c = [(tk, t)])
    (hready : t.savedReady = true) (hslot : s.freeSlot c ck = some n) : s.onMultiplex ck = s.restoreThread tk n := by
  simp [State.onMultiplex, hcore, hhalt, husers, hready, hslot, leastBy]

theorem State.onMultiplex_halting (hhalt : s.halting ck = true) : s.onMultiplex ck = s := by simp [State.onMultiplex, hcore, hhalt]

theorem State.onMultiplex_none (h : ∀ e ∈ s.rosterUsers c, e.2.savedReady = false) : s.onMultiplex ck = s := by
  have hnone : (s.rosterUsers c).filter (fun e => e.2.savedReady) = [] := List.filter_eq_nil_iff.2 fun e he => by simp [h e he]
  simp only [State.onMultiplex, hcore, hnone, leastBy, List.foldl_nil, ite_self]

end roster

end Sys2Proof.Machine
end

section
/-!
SUPPORT. The steps that befall one thread, case by case (R3, R134, R135, R143, R198, R210, R228, R231).
-/

namespace Sys2Proof.Machine

variable {s : State} {tk n : Nat} {t : Thread}

theorem State.leaveLs1Of_thr (k : Nat) : (s.leaveLs1Of t).thr k = s.thr k := by
  unfold State.leaveLs1Of State.leaveLs1
  split <;> rfl

/-- A trap at the unit in issue, with no result of the thread pending, is taken at once. -/
theorem State.unitTrap_quiet (hthr : s.thr tk = some t) (hpend : t.pend = []) (cause : Nat) (val : Word) (wordBit : Bool) :
    s.unitTrap tk cause val wordBit = s.takeTrap tk cause val s.unit.addr wordBit false := by
  simp only [State.unitTrap, hthr, hpend]

/-! ## The dispatcher (R134) -/

theorem State.onDispatch_serves {ck : Nat} {u : State} (h : s.serveOne ck = some u) : s.onDispatch ck = u.laterOnce (.dispatch ck) := by
  simp only [State.onDispatch, h]

theorem State.onDispatch_idle {ck : Nat} (h : s.serveOne ck = none) : s.onDispatch ck = s := by simp only [State.onDispatch, h]

section mine
variable (hthr : s.thr tk = some t)
include hthr

/-! ## Pre-emption (R135) -/

theorem State.onGrace_saves (hslot : t.place = .inSlot n) (hover : t.preempt = some 0) (hquiet : t.quiet = true) (hst : t.st ≠ .long) :
    s.onGrace tk = if (s.coreOfCk t.roster).isSome then (s.saveThread tk).laterOnce (.rosterMultiplex t.roster) else s.saveThread tk := by
  cases hcore : s.coreOfCk t.roster <;> simp [State.onGrace, hthr, hslot, hover, hquiet, hst, hcore]

theorem State.onGrace_early (h : t.preempt ≠ some 0) : s.onGrace tk = s := by simp [State.onGrace, hthr, h]

/-! ## Heartbeats (R143) -/

theorem State.onHeartbeat_missed (h : s.missesHeartbeat tk t = true) :
    let stopped := (s.leaveLs1Of t).stopThread tk Cause.heartbeat
    s.onHeartbeat tk = ((if t.place.slotted then stopped.saveThread tk else stopped).faultEvent (regionOfCk (ckOfTk tk))
      ⟨Cause.heartbeat, 1, t.lin, t.pc, 0⟩).laterOnce (.rosterMultiplex t.roster) := by
  simp only [State.onHeartbeat, hthr, h, if_true]

theorem State.onHeartbeat_kept (h : s.missesHeartbeat tk t = false) : s.onHeartbeat tk = s := by
  simp only [State.onHeartbeat, hthr, h, Bool.false_eq_true, if_false]

/-! ## Wait limits (R210) -/

section expired
variable (hslot : t.place = .inSlot n) (hst : t.st = .sync) (hlimit : t.waitlimit ≠ 0) (hover : t.waitlimit.toNat ≤ t.waitcount)
include hslot hst hlimit hover

/-- A thread in SYNC, in a slot, whose limit has come: its cluster leaves LS1, and its wait ends by what it waits for. -/
theorem State.onWaitLimit_due : s.onWaitLimit tk =
    let up := s.leaveLs1Of t
    t.park.elim (t.syncWait.elim up fun p => match p.kind with
      | .waita => up.fillLane tk p.id 0 3 none
      | .fullEmpty va => up.cancelWait tk p va
      | .waitbar n _ => up.cancelWait tk p (word n)
      | _ => up) fun v =>
        ({ up with unit := { tk := tk, addr := t.pc, core := up.coreOfThread t } } : State).unitTrap tk Cause.syncTimeout v false := by
  have hdue : ¬ (t.st ≠ .sync ∨ t.waitlimit = 0 ∨ t.waitcount < t.waitlimit.toNat) := by
    rintro (h | h | h)
    exacts [h hst, hlimit h, hover.not_gt h]
  simp only [State.onWaitLimit, hthr, hslot, Bool.not_true, Bool.false_eq_true, false_or, if_neg hdue]
  cases t.park <;> cases t.syncWait <;> rfl

/-- A thread in WAITA whose limit has come: the wait ends with status 3. -/
theorem State.onWaitLimit_waita {p : Pending} (hpend : t.pend = [p]) (hopen : p.complete = false) (hwait : p.waitState = .sync)
    (hkind : p.kind = .waita) (hpark : t.park = none) : s.onWaitLimit tk = (s.leaveLs1Of t).fillLane tk p.id 0 3 none := by
  have hsync : t.syncWait = some p := by simp [Thread.syncWait, hpend, hopen, hwait]
  simp only [State.onWaitLimit_due hthr hslot hst hlimit hover, hpark, hsync, hkind, Option.elim_none, Option.elim_some]

/-- A thread whose unit waits without a pending result traps at it. -/
theorem State.onWaitLimit_parked {v : Word} (hpend : t.pend = []) (hpark : t.park = some v) :
    let up := s.leaveLs1Of t
    s.onWaitLimit tk =
      ({ up with unit := { tk := tk, addr := t.pc, core := up.coreOfThread t } } : State).takeTrap tk Cause.syncTimeout v t.pc false false := by
  intro up
  have hup : ({ up with unit := { tk := tk, addr := t.pc, core := up.coreOfThread t } } : State).thr tk = some t :=
    (State.leaveLs1Of_thr tk).trans hthr
  rw [State.onWaitLimit_due hthr hslot hst hlimit hover, hpark]
  exact State.unitTrap_quiet hup hpend _ _ _

end expired

theorem State.onWaitLimit_early (h : t.st ≠ .sync ∨ t.waitlimit = 0 ∨ t.waitcount < t.waitlimit.toNat) : s.onWaitLimit tk = s := by
  simp only [State.onWaitLimit, hthr]
  exact if_pos (.inr h)

/-! ## Interrupts (R228, R231) -/

theorem State.onTimer_due (hset : t.cyclecmp ≠ 0) (hdue : t.cyclecmp.toNat ≤ s.cycleOf t) :
    s.onTimer tk = (s.leaveLs1Of t).setThr tk { t with timer := true } := by
  simp only [State.onTimer, hthr]
  exact if_pos ⟨hset, hdue⟩

theorem State.onTimer_early (h : t.cyclecmp = 0 ∨ s.cycleOf t < t.cyclecmp.toNat) : s.onTimer tk = s := by
  simp only [State.onTimer, hthr]
  exact if_neg fun ⟨hset, hdue⟩ => h.elim hset hdue.not_gt

theorem State.onInterrupt_enters (hslot : t.place = .inSlot n) (hpend : t.pend = []) {src : Nat} (hint : t.interrupt? = some src) :
    s.onInterrupt tk = s.setThr tk (t.enterInterrupt src) := by
  simp [State.onInterrupt, hthr, hslot, hpend, hint]

theorem State.onInterrupt_none (hint : t.interrupt? = none) : s.onInterrupt tk = s := by simp only [State.onInterrupt, hthr, hint]

/-! ## Conditions of complete results (R198) -/

theorem State.onDeferred_bad (hall : ∀ q ∈ t.pend, q.complete = true) {p : Pending} (hbad : t.pend.find? Pending.bad = some p) :
    s.onDeferred tk = s.deferTrap tk p := by
  have hcomplete : t.pend.all Pending.complete = true := List.all_eq_true.2 hall
  simp only [State.onDeferred, hthr, hcomplete, hbad, Bool.not_true, Bool.false_eq_true, if_false]

theorem State.onDeferred_open (h : ∃ q ∈ t.pend, q.complete = false) : s.onDeferred tk = s := by
  have hopen : t.pend.all Pending.complete = false := List.all_eq_false.2 (by simpa using h)
  simp only [State.onDeferred, hthr, hopen, Bool.not_false, if_true]

theorem State.onDeferred_good (h : ∀ q ∈ t.pend, q.bad = false) : s.onDeferred tk = s := by
  have hnone : t.pend.find? Pending.bad = none := List.find?_eq_none.2 fun q hq => by simp [h q hq]
  simp only [State.onDeferred, hthr, hnone, ite_self]

end mine

/-! ## The source of an interrupt (R231) -/

section source
variable (hst : t.st = .ready) (hen : t.inten.getLsbD 0 = true) (hcan : t.canTrap = true)
include hst hen hcan

theorem Thread.interrupt_sluice (hwakes : t.wakes ≠ 0) (hsrc : t.inten.getLsbD 1 = true) : t.interrupt? = some 1 := by
  rw [Thread.interrupt?, if_pos ⟨hst, hen, hcan⟩, if_pos ⟨bne_iff_ne.2 hwakes, hsrc⟩]

theorem Thread.interrupt_timer (hno : t.wakes = 0 ∨ t.inten.getLsbD 1 = false) (htimer : t.timer = true) (hsrc : t.inten.getLsbD 2 = true) :
    t.interrupt? = some 2 := by
  have hsluice : ¬ ((t.wakes != 0) = true ∧ t.inten.getLsbD 1 = true) := fun ⟨hwakes, hon⟩ =>
    hno.elim (bne_iff_ne.1 hwakes) fun hoff => Bool.noConfusion (hoff.symm.trans hon)
  rw [Thread.interrupt?, if_pos ⟨hst, hen, hcan⟩, if_neg hsluice, if_pos ⟨htimer, hsrc⟩]

end source

theorem Thread.interrupt_none (h : t.st ≠ .ready ∨ t.inten.getLsbD 0 = false) : t.interrupt? = none :=
  if_neg fun ⟨hst, hen, _⟩ => h.elim (· hst) fun hoff => Bool.noConfusion (hoff.symm.trans hen)

end Sys2Proof.Machine
end

section
/-!
CERTIFICATE. The scheduler's steps, and those that befall a thread.
-/

open Sys2Proof Sys2Proof.Machine Sys2Proof.Laws

/-- The steps of regions, partitions, clusters, bays and rosters: each one's handler, split on its condition. -/
theorem schedulerSteps : Claims.SchedulerSteps := by
  intro s r p c bay ck k tk x y t key halted freed found
  refine ⟨fun hfound h => steps_of_next rfl (State.onRunnable_waits hfound h), fun hfound h hparts hpass => ?_,
    fun hfound hres hexp hused => steps_of_next rfl (State.onSliceExpiry_over hfound hres hexp hused),
    fun hfound h => steps_of_next rfl (State.onSliceExpiry_early hfound h),
    fun hfound hended hquiet => steps_of_next rfl (State.onRegionEnd_live hfound hended hquiet),
    fun hfound hended hbusy => steps_of_next rfl ((State.onRegionEnd_ended hfound hended).trans (if_pos hbusy)),
    fun hfound hended hidle => steps_of_next rfl ((State.onRegionEnd_ended hfound hended).trans (if_neg (by simp [hidle]))),
    fun hfound hquiet hst => steps_of_next rfl (State.onRegionEnd_quiescent hfound hquiet hst),
    fun h => steps_of_next rfl (State.onHalt_waits h),
    fun h hnone => steps_of_next rfl ((State.onHalt_ready h).trans (by rw [hnone]; rfl)),
    fun h hone ⟨n, hslot⟩ => steps_of_next rfl ((State.onHalt_ready h).trans (by rw [hone, State.haltThreads_one hslot])),
    fun h => steps_of_next rfl (State.onSwap_waits h),
    fun h hfailed hres hin hfits hstandby => steps_of_next rfl (State.onSwap_free h hfailed hres hin hfits hstandby),
    fun h => steps_of_next rfl (State.onBayWrite_empty h),
    fun h hsel => steps_of_next rfl ((State.onBayWrite_holds h).trans (if_pos hsel)),
    fun h hsel => steps_of_next rfl ((State.onBayWrite_holds h).trans (if_neg (by simp [hsel]))),
    fun n hcore hhalt husers hready hslot => steps_of_next rfl (State.onMultiplex_restores hcore hhalt husers hready hslot),
    fun hcore h => steps_of_next rfl (h.elim (State.onMultiplex_halting hcore) (State.onMultiplex_none hcore)),
    fun hy hhalted => steps_of_next rfl (State.onHalt_waits (State.haltReady_halted hy hhalted))⟩
  intro slots n hslots
  rw [hslots]
  exact steps_of_next rfl (State.onRunnable_single hfound h hparts hpass hslots)

/-- The steps that befall one thread: each one's handler, split on the thread's place and state. -/
theorem threadSteps : Claims.ThreadSteps := by
  intro s tk ck n t p mine slotted up watched stopped missed
  have hwatched (h : watched) : s.missesHeartbeat tk t =
      (t.missed || (t.place.slotted && t.hbeatwin == 0 && (t.st == .ready || t.st == .long))) := by
    obtain ⟨huser, hrun, harm⟩ := h
    simp [State.missesHeartbeat, huser, hrun, harm]
  refine ⟨fun hthr hslot hover hquiet hst => ⟨fun c hcore => ?_, fun hcore => ?_⟩, fun hthr h => steps_of_next rfl (State.onGrace_early hthr h),
    fun hthr hslot hw h => ?_, fun hthr hsaved hw h => ?_, fun hthr h => steps_of_next rfl (State.onHeartbeat_kept hthr ?_),
    fun u h => steps_of_next rfl (State.onDispatch_serves h), fun h => steps_of_next rfl (State.onDispatch_idle h),
    fun hthr hslot hst hlimit hover hpend hopen hwait hkind hpark =>
      steps_of_next rfl (State.onWaitLimit_waita hthr hslot hst hlimit hover hpend hopen hwait hkind hpark),
    fun v hthr hslot hst hlimit hover hpend hpark => steps_of_next rfl (State.onWaitLimit_parked hthr hslot hst hlimit hover hpend hpark),
    fun hthr h => steps_of_next rfl (State.onWaitLimit_early hthr h),
    fun hthr hset hdue => steps_of_next rfl (State.onTimer_due hthr hset hdue), fun hthr h => steps_of_next rfl (State.onTimer_early hthr h),
    fun hthr hslot hst hen hcan hpend => ⟨fun hwakes hsrc => ?_, fun hno htimer hsrc => ?_⟩,
    fun hthr h => steps_of_next rfl (State.onInterrupt_none hthr (Thread.interrupt_none h)),
    fun hthr hall hbad => steps_of_next rfl (State.onDeferred_bad hthr hall hbad),
    fun hthr h => steps_of_next rfl (h.elim (State.onDeferred_open hthr) (State.onDeferred_good hthr))⟩
  · exact steps_of_next rfl ((State.onGrace_saves hthr hslot hover hquiet hst).trans (if_pos (by simp [hcore])))
  · exact steps_of_next rfl ((State.onGrace_saves hthr hslot hover hquiet hst).trans (if_neg (by simp [hcore])))
  · have hplace : t.place.slotted = true := by rw [show t.place = _ from hslot]; rfl
    have hmiss : s.missesHeartbeat tk t = true := by
      rw [hwatched hw]
      rcases h with h | ⟨hwin, hst | hst⟩ <;> simp [*]
    refine steps_of_next rfl ((State.onHeartbeat_missed hthr hmiss).trans ?_)
    rw [if_pos hplace]
  · have hplace : t.place.slotted = false := by rw [hsaved]; rfl
    refine steps_of_next rfl ((State.onHeartbeat_missed hthr (by rw [hwatched hw, h]; rfl)).trans ?_)
    rw [hplace]
    rfl
  · rcases h with ⟨hmissed, hwin⟩ | h | h | h
    · have hruns : (t.hbeatwin == 0) = false := beq_eq_false_iff_ne.2 hwin
      simp only [State.missesHeartbeat, hmissed, hruns, Bool.and_false, Bool.false_and, Bool.or_false]
    all_goals simp [State.missesHeartbeat, h]
  · exact steps_of_next rfl (State.onInterrupt_enters hthr hslot hpend (Thread.interrupt_sluice hst hen hcan hwakes hsrc))
  · exact steps_of_next rfl (State.onInterrupt_enters hthr hslot hpend (Thread.interrupt_timer hst hen hcan hno htimer hsrc))

/-- Settles O51: each step is its handler, which does nothing before the step's condition holds. -/
theorem schedulerAndThreadSteps : Obligations.SchedulerAndThreadSteps := ⟨schedulerSteps, threadSteps⟩
end

section
/-!
SUPPORT. Masked multicast reads at a home and at a receiver (R160 to R163, R456).
-/

namespace Sys2Proof.Machine

variable {s : State} {m : Msg} {g : Merge} {d : SLine} {sl : Nat}

/-! ## Arrival of an MCRD (R160, R161) -/

theorem Slice.ne_default_of_hot {x : Slice} (h : x.hot ≠ []) : x ≠ {} := fun e => h (e ▸ rfl)

/-- A request of a host's agent reaches its handler, malformed or not (R46). -/
theorem State.intake_request (hsrc : isEci m.src = true) (f : State → State) : s.intake m 0 f = f s := by
  cases hrsv : m.rsv <;> simp [State.intake, hrsv, hsrc]

/-- An interface without redirects sends no read to a helper. -/
theorem State.redirected_none {a : Nat} (h : (s.core a).redirects = []) (line : Nat) : s.redirected a line = none := by
  simp [State.redirected, h]

/-- An MCRD of a core that redirects nothing is counted and taken at its home. -/
theorem State.onMcrd_home (hsrc : m.src < 64) (hsweep : s.pow.sweeping = false) (hways : (s.core m.src).redirects = [])
    (hroom : (s.sl (homeOf m.line)).replay.length < 256) :
    s.onMcrd m = (s.countHot (homeOf m.line) m.line).mcrdAt (homeOf m.line) m := by
  have hfull : (s.sl (homeOf m.line)).full = false := by simpa [Slice.full] using hroom
  simp [State.onMcrd, isEci_of_core hsrc, hsweep, State.redirected_none hways, hfull]

/-- The first read that the hot table counts leaves the merge table. -/
theorem State.merges_countHot (h : (s.sl sl).hot = []) (line : Nat) : ((s.countHot sl line).sl sl).merges = (s.sl sl).merges := by
  rw [State.countHot_first h, State.sl_setSl (Slice.ne_default_of_hot (by simp))]

/-- The entry that an MCRD opens in an empty merge table. -/
def Merge.openedBy (m : Msg) : Merge :=
  { id := 0, line := m.line, poff := m.poff, bar := m.bar, nobar := m.nobar, region := m.region, mask := m.mask,
    issuers := [(m.src, m.txid)], isOpen := true }

theorem State.mcrdAt_opens (h : (s.sl sl).merges = []) :
    s.mcrdAt sl m = (s.modSl sl fun x => { x with merges := [.openedBy m] }).later (.mcrdWindowClose sl 0) := by
  have hid : (s.sl sl).freshEntry = 0 := by simp [Slice.freshEntry, h, List.range_succ_eq_map]
  simp [State.mcrdAt, h, hid, State.modSl, Merge.openedBy]

theorem State.mcrdAt_joins (h : (s.sl sl).merges = [g]) (hopen : g.isOpen = true) (hfor : g.isFor m = true) (hroom : g.issuers.length < 8) :
    s.mcrdAt sl m =
      s.modSl sl fun x => { x with merges := [{ g with mask := g.mask ||| m.mask, issuers := g.issuers ++ [(m.src, m.txid)] }] } := by
  simp [State.mcrdAt, h, hopen, hfor, hroom, State.modSl, mapIf]

/-! ## The close of an entry's window (R161, R162, R456) -/

section pending
variable {α : Type} (e : α → Ev) (l : List α)

/-- Steps made pending one after the other stand in that order behind what was pending. -/
theorem foldS_later_agenda : (foldS (fun a (s : State) => s.later (e a)) l s).agenda = s.agenda ++ l.map e := by
  induction l generalizing s with
  | nil => simp [foldS]
  | cons a l ih =>
    refine (ih (s := s.later (e a))).trans ?_
    simp

theorem foldS_later_sl (k : Nat) : (foldS (fun a (s : State) => s.later (e a)) l s).sl k = s.sl k := by
  induction l generalizing s with
  | nil => rfl
  | cons a l ih => exact ih (s := s.later (e a))

end pending

/-- The close of an open entry's window at its home serves the entry. -/
theorem State.onWindowClose_serves (h : (s.sl sl).merges = [g]) (hopen : g.isOpen = true) (hsent : g.sent = false)
    (hroom : (s.sl sl).replay.length < 256) (hhome : homeOf g.line = sl) :
    s.onWindowClose sl g.id =
      (s.setSl sl { s.sl sl with merges := [{ g with isOpen := false }] }).serve sl (.mcrdWindowClose sl g.id) := by
  have hfull : (s.sl sl).full = false := by simpa [Slice.full] using hroom
  simp [State.onWindowClose, h, hopen, hsent, hfull, hhome, State.modSl, mapIf]

theorem Slice.data_useData (x : Slice) (line now : Nat) : (x.useData line now d).data line = some { d with used := now } := by
  have hnone : x.lines.find? (fun _ => false) = none := List.find?_eq_none.2 (by simp)
  simp [Slice.data, Slice.useData, Slice.putData, List.find?_append, List.find?_filter, hnone]

/-- An entry whose line is at hand, uncovered and not in progress is sent with the home's copy, which is used (R162). -/
theorem State.serve_windowClose (hmerges : (s.sl sl).merges = [g]) (hdata : (s.sl sl).data g.line = some d) (htxns : (s.sl sl).txns = [])
    (hfilling : (s.sl sl).filling = []) (hnode : (s.sl sl).node g.line = none) :
    ∃ u : State, (u.sl sl).merges = [g] ∧ (u.sl sl).lines ≠ [] ∧ u.agenda = s.agenda ∧
      s.serve sl (.mcrdWindowClose sl g.id) = u.mcdOut sl g d.data d.poison := by
  have hused := (takenUp_none hdata hnode).1
  have hsl : (s.touch sl g.line).sl sl = (s.sl sl).useData g.line s.sclk d := hused ▸ State.sl_setSl (Slice.useData_ne_default _ _ _ _)
  have huncovered : ((s.touch sl g.line).sl sl).node g.line = none := hsl ▸ hnode
  have hentry : ((s.touch sl g.line).sl sl).merges = [g] := hsl ▸ hmerges
  have hcopy : ((s.touch sl g.line).sl sl).data g.line = some { d with used := s.sclk } := hsl ▸ Slice.data_useData ..
  refine ⟨s.touch sl g.line, hentry, by simp [hsl, Slice.useData, Slice.putData], rfl, ?_⟩
  have hready (m : Msg) (hline : m.line = g.line) :
      s.serveReady sl (.mcrdWindowClose sl g.id) m = (s.touch sl g.line).mcdOut sl g d.data d.poison := by
    simp [State.serveReady, hline, huncovered, State.finishRequest, hentry, State.sendMcd, State.lineData, hcopy]
  have hmsg : (reqMsg s sl (.mcrdWindowClose sl g.id)).line = g.line := by simp [reqMsg, hmerges]
  rw [← hready _ hmsg]
  simp [State.serve, hmsg, reqKind, ReqKind.writes, Slice.takesLine, Slice.busy, Slice.nodeHeld, hnode, htxns, hfilling, hdata]

theorem Slice.ne_default_of_merges {x : Slice} (h : x.merges ≠ []) : x ≠ {} := fun e => h (e ▸ rfl)

/-- The close of an entry's window at its home sends the entry with the home's copy of its line. -/
theorem State.onWindowClose_home (hhome : homeOf g.line = sl) (hmerges : (s.sl sl).merges = [g]) (hopen : g.isOpen = true)
    (hsent : g.sent = false) (hroom : (s.sl sl).replay.length < 256) (hdata : (s.sl sl).data g.line = some d)
    (htxns : (s.sl sl).txns = []) (hfilling : (s.sl sl).filling = []) (hnode : (s.sl sl).node g.line = none) :
    ∃ u : State, (u.sl sl).merges = [{ g with isOpen := false }] ∧ (u.sl sl).lines ≠ [] ∧ u.agenda = s.agenda ∧
      s.onWindowClose sl g.id = u.mcdOut sl { g with isOpen := false } d.data d.poison := by
  rw [State.onWindowClose_serves hmerges hopen hsent hroom hhome]
  have hsl := State.sl_setSl (s := s) (n := sl) (x := { s.sl sl with merges := [{ g with isOpen := false }] })
    (Slice.ne_default_of_merges (by simp))
  exact State.serve_windowClose (congrArg Slice.merges hsl) (hsl.symm ▸ hdata) (hsl.symm ▸ htxns) (hsl.symm ▸ hfilling) (hsl.symm ▸ hnode)

/-- An entry with receivers is sent once to each of them, and awaits them. -/
theorem State.mcdOut_sends (hmerges : (s.sl sl).merges = [g]) {to_ : List Nat}
    (hto : ((List.range 64).filter fun p => g.mask.getLsbD p) = to_) (hne : to_ ≠ []) (v : Vec) (poison : Bool) :
    ((s.mcdOut sl g v poison).sl sl).merges = [{ g with isOpen := false, sent := true, awaiting := to_, poison := poison }] ∧
      (s.mcdOut sl g v poison).agenda = s.agenda ++ to_.map fun p => Ev.mcd
        { src := homeId sl, dst := p, txid := g.id, line := g.line, poff := g.poff, bar := g.bar, nobar := g.nobar, region := g.region,
          mask := g.mask, data := some v, poison := poison } := by
  have hsome : to_.isEmpty = false := by simpa using hne
  simp only [State.mcdOut, hto, hsome, Bool.false_eq_true, if_false, foldS_later_agenda, foldS_later_sl, State.modSl, hmerges, mapIf, List.map_cons, List.map_nil,
    beq_self_eq_true, if_true]
  exact ⟨congrArg Slice.merges (State.sl_setSl (Slice.ne_default_of_merges (by simp))), rfl⟩

/-- An entry without receivers is done: its issuers are answered. -/
theorem State.mcdOut_done (hmerges : (s.sl sl).merges = [g]) (hlines : (s.sl sl).lines ≠ [])
    (hto : ((List.range 64).filter fun p => g.mask.getLsbD p) = []) (v : Vec) (poison : Bool) :
    ((s.mcdOut sl g v poison).sl sl).merges = [] ∧
      (s.mcdOut sl g v poison).agenda = s.agenda ++ g.issuers.map fun i => Ev.cmp
        { src := homeId sl, dst := i.1, txid := i.2, line := g.line, poison := poison } := by
  have hleft : ([g].filter fun e => e.id != g.id) = [] := by simp
  simp only [State.mcdOut, hto, List.isEmpty_nil, if_true, State.mergeDone, foldS_later_agenda, foldS_later_sl, State.modSl, hmerges, hleft]
  exact ⟨congrArg Slice.merges (State.sl_setSl (x := { s.sl sl with merges := [] }) (Slice.ne_default_of_lines hlines)), rfl⟩

/-! ## At a receiver (R162) -/

/-- A line that a context of the entry's region receives lands in its pool and counts at its barrier. -/
theorem State.onMcd_lands {ck : Nat} (hck : s.ckOfCore m.dst = some ck) (hregion : regionOfCk ck = m.region) :
    s.onMcd m =
      let written := s.poolWrite ck (64 * m.poff) (bytesOfVec (m.data.getD 0))
      let landed := if m.poison then written.poolMark ck (64 * m.poff) 64 else written
      (if m.nobar then landed else landed.barCount ck m.bar 64).later (.cmp { src := m.dst, dst := m.src, txid := m.txid, line := m.line }) := by
  simp only [State.onMcd, hck, hregion, if_true]

/-- A receiver without a context of the entry's region only answers. -/
theorem State.onMcd_passes (h : ∀ ck, s.ckOfCore m.dst = some ck → regionOfCk ck ≠ m.region) :
    s.onMcd m = s.later (.cmp { src := m.dst, dst := m.src, txid := m.txid, line := m.line }) := by
  cases hck : s.ckOfCore m.dst with
  | none => simp only [State.onMcd, hck]
  | some ck => simp only [State.onMcd, hck, h ck hck, if_false]

end Sys2Proof.Machine
end

section
/-!
CERTIFICATE. Masked multicast reads and replicas.
-/

open Sys2Proof Sys2Proof.Machine Sys2Proof.Laws

/-- Settles O24: an arrival at the home opens or joins an entry, the close of its window sends the home's copy, and each receiver, helper
and interface answers by its own test. -/
theorem multicastAndReplicaResults : Obligations.MulticastAndReplicaResults := by
  intro s m d g h x sl y fresh plain counted clear done others ways
  have harrives (hp : plain) : m.rsv = false ∧ s.onMcrd m = counted.mcrdAt h m ∧ (counted.sl h).merges = x.merges := by
    obtain ⟨hsrc, hrsv, hsweep, hways, hroom, hhot⟩ := hp
    have hcount : s.countHot h m.line = counted := State.countHot_first hhot
    exact ⟨hrsv, hcount ▸ State.onMcrd_home hsrc hsweep hways hroom, hcount ▸ State.merges_countHot hhot m.line⟩
  refine ⟨fun hp hmerges => ?_, fun hp hmerges hopen hline hpoff hbar hnobar hregion hissuers => ?_,
    fun hsrc => ?_, fun hline hmerges hopen hsent hdata htxns hfilling _ _ hroom hnode => ?_,
    fun ck hm hck hregion => steps_of_msg rfl hm (State.onMcd_lands hck hregion),
    fun hm h => steps_of_msg rfl hm (State.onMcd_passes h),
    fun hm hroom hpoison => steps_of_msg rfl hm (if_pos ⟨hroom, by simp [hpoison]⟩),
    fun hm hrefused => steps_of_msg rfl hm (if_neg ?_),
    fun hm => steps_of_msg rfl hm rfl,
    fun hm hroom => steps_of_msg rfl hm (if_pos hroom),
    fun hm hfull => steps_of_msg rfl hm (if_neg hfull.not_gt),
    fun hm => steps_of_msg rfl hm rfl⟩
  · obtain ⟨hrsv, harrival, hkept⟩ := harrives hp
    exact steps_of_msg rfl hrsv (harrival.trans (State.mcrdAt_opens (hkept.trans hmerges)))
  · obtain ⟨hrsv, harrival, hkept⟩ := harrives hp
    have hfor : g.isFor m = true := by simp [Merge.isFor, hline, hpoff, hbar, hnobar, hregion]
    exact steps_of_msg rfl hrsv (harrival.trans (State.mcrdAt_joins (hkept.trans hmerges) hopen hfor hissuers))
  · exact congrArg Host.Outcome.next ((State.intake_request hsrc (State.onMcrd · m)).trans (if_pos hsrc))
  · have hhome : homeOf g.line = h := congrArg homeOf hline
    rw [← hline] at hdata hnode
    obtain ⟨u, hclosed, hlines, hagenda, hsends⟩ :=
      State.onWindowClose_home hhome hmerges hopen hsent hroom hdata htxns hfilling hnode
    refine ⟨fun hto => ?_, fun hto => ?_⟩
    · obtain ⟨hsent', hpending⟩ := State.mcdOut_sends hclosed rfl hto d.data d.poison
      exact ⟨_, steps_of_next rfl hsends, hsent', hpending.trans (by rw [hagenda])⟩
    · obtain ⟨hdone, hpending⟩ := State.mcdOut_done hclosed hlines hto d.data d.poison
      exact ⟨_, steps_of_next rfl hsends, hdone, hpending.trans (by rw [hagenda])⟩
  · rintro ⟨hroom, hclean⟩
    rcases hrefused with hfull | hpoison
    · exact hfull.not_gt hroom
    · simp [hpoison] at hclean
end

section
/-!
SUPPORT. Remote accesses to a pool at its owner, and their replies at the requester (R156, R171, R205, R209).
-/

namespace Sys2Proof.Machine

variable {s : State} {m : Msg}

/-! ## Writing what an array holds -/

/-- Writing the default at a key that reads as the default changes nothing. -/
theorem Tbl.put_default {α : Type} [DecidableEq α] {z : α} {lo n : Nat} {t : Tbl α} (hwf : Tbl.above z lo t = true) (h : Tbl.get z t n = z) :
    Tbl.put z t n z = t := by
  induction t generalizing lo with
  | nil => simp [Tbl.put]
  | cons e t ih =>
    obtain ⟨k, v⟩ := e
    simp only [Tbl.above, Bool.and_eq_true, decide_eq_true_eq] at hwf
    obtain ⟨⟨-, hv⟩, hrest⟩ := hwf
    by_cases hlt : n < k
    · simp [Tbl.put, hlt]
    · by_cases hkn : k = n
      · simp [Tbl.get, hkn, hv] at h
      · have hnext : Tbl.get z t n = z := by simpa [Tbl.get, hlt, hkn] using h
        simp [Tbl.put, hlt, hkn, ih hrest hnext]

/-- Writing what a key of a canonical array holds changes nothing. -/
theorem Tbl.put_self {α : Type} [DecidableEq α] {z : α} {t : Tbl α} (hwf : Tbl.wf z t = true) (n : Nat) : Tbl.put z t n (Tbl.get z t n) = t := by
  by_cases h : Tbl.get z t n = z
  · exact h.symm ▸ Tbl.put_default hwf h
  · exact Tbl.put_get z t n _ rfl h

/-- A change that leaves a core as it is changes nothing. -/
theorem State.modCore_self (hwf : Tbl.wf {} s.cores = true) {c : Nat} {f : Core → Core} (h : f (s.core c) = s.core c) : s.modCore c f = s := by
  have hcores : Tbl.put {} s.cores c (f (s.core c)) = s.cores := h.symm ▸ Tbl.put_self hwf c
  rw [State.modCore, hcores]

/-! ## At the owner (R156, R205, R209) -/

/-- Every remote access to a context that is not resident waits at its interface, or is dropped (R205). -/
theorem steps_spWaits (hm : m.rsv = false) (habsent : s.coreOfCk m.ck = none) :
    ∀ i ∈ [(Instr.spwr m, Ev.spwr m), (.sprd m, .sprd m), (.spsy m, .spsy m)], Steps i.1 s (s.spWaits i.2 m) := by
  intro i hi
  simp only [List.mem_cons, List.not_mem_nil, or_false] at hi
  rcases hi with rfl | rfl | rfl <;> exact steps_of_msg rfl hm (if_pos (by rw [habsent]; rfl))

theorem State.spWaits_away (h : (s.context (ctxKeyOfCk m.ck)).isSome = true) (e : Ev) : s.spWaits e m =
    { s with agenda := s.agenda.filter (fun a => !ofAccess m a) ++ [e] ++ s.agenda.filter (ofAccess m) } := if_pos h

theorem State.spWaits_gone (h : s.context (ctxKeyOfCk m.ck) = none) (e : Ev) : s.spWaits e m = s := if_neg (by simp [h])

/-- The full/empty operations that may park, by their codes (R156). -/
def parkCodes : List (Nat × ParkKind) := [(0xA, .ldfe), (0xB, .ldff), (0xC, .stfe)]

section resident
variable {c : Nat} (hcore : s.coreOfCk m.ck = some c)
include hcore

theorem State.onSpwr_lands : s.onSpwr m =
    let written := s.poolWrite m.ck m.poff (leBytes m.len (m.data.getD 0).toNat)
    let landed := if m.poison then written.poolMark m.ck m.poff m.len else written
    let counted := if m.nobar then landed else landed.barCount m.ck m.bar m.len
    (counted.later (.spdat (spDone counted m 0))).later (.cret { src := m.dst, dst := m.src, len := 1 }) := by
  simp only [State.onSpwr, hcore]
  rfl

theorem State.onSprd_clean (hclean : s.poolPoison m.ck m.poff m.len = none) : s.onSprd m = s.later (.spdat { spDone s m 0 with
    data := some (BitVec.ofNat 512 (s.poolRead m.ck m.poff m.len)), full := m.len == 8 && m.poff % 8 == 0 && s.fullBit m.ck m.poff }) := by
  simp [State.onSprd, hcore, hclean, spDone]

theorem State.onSpsy_atomic (hop : m.atop < 10) (hclean : s.poolPoison m.ck m.poff m.len = none) : s.onSpsy m =
    let r := s.poolAtomic m.ck m.poff m.len m.atop (bytesAt (m.data.getD 0) 0 m.len) (bytesAt (m.data.getD 0) 8 m.len)
    r.1.later (.spdat { spDone s m 0 with data := some (BitVec.ofNat 512 r.2), len := 8 }) := by
  unfold State.onSpsy
  rw [if_neg (by simp [hcore])]
  dsimp only
  split
  case h_7 => simp [hclean, spDone]
  all_goals omega

theorem State.onSpsy_parks {k : ParkKind} (hop : (m.atop, k) ∈ parkCodes) (hroom : ¬ 64 ≤ (s.cx m.ck).remoteParked) :
    s.onSpsy m = s.park m.ck { off := m.poff, kind := k, value := word (bytesAt (m.data.getD 0) 0 8), remote := true, src := m.src,
                               srcCk := m.srcCk, txid := m.txid } := by
  simp only [parkCodes, List.mem_cons, Prod.mk.injEq, List.not_mem_nil, or_false] at hop
  rcases hop with ⟨hop, rfl⟩ | ⟨hop, rfl⟩ | ⟨hop, rfl⟩ <;> simp [State.onSpsy, hcore, hop, hroom]

/-- A load that would have to park where 64 requests are parked is refused. -/
theorem State.onSpsy_load_refused (hop : m.atop = 0xA ∨ m.atop = 0xB) (hfull : 64 ≤ (s.cx m.ck).remoteParked)
    (hbit : s.fullBit m.ck m.poff = false) : s.onSpsy m = s.later (.spdat (spDone s m 2)) := by
  rcases hop with hop | hop <;> simp [State.onSpsy, hcore, hop, hfull, hbit]

/-- A store that would have to park where 64 requests are parked is refused. -/
theorem State.onSpsy_store_refused (hop : m.atop = 0xC) (hfull : 64 ≤ (s.cx m.ck).remoteParked) (hbit : s.fullBit m.ck m.poff = true) :
    s.onSpsy m = s.later (.spdat (spDone s m 2)) := by
  simp [State.onSpsy, hcore, hop, hfull, hbit]

theorem State.onSpsy_stff (hop : m.atop = 0xD) : s.onSpsy m =
    let u := s.stff m.ck m.poff (word (bytesAt (m.data.getD 0) 0 8))
    u.later (.spdat (spDone u m 0)) := by
  simp [State.onSpsy, hcore, hop]

/-- A cancel of a request that is parked no more finds it performed. -/
theorem State.onSpsy_cancel (hop : m.atop = 0xF) (hparked : (s.cx m.ck).parked = []) (hwait : (s.cx m.ck).barWait = []) :
    s.onSpsy m = s.later (.spdat (spDone s m 0)) := by
  simp [State.onSpsy, hcore, hop, State.spCancel, hparked, hwait]

/-! ### Barrier operations -/

section bar
variable (hop : m.atop = 0xE)
include hop

theorem State.onSpsy_barInit (hsub : m.sub = 0) : s.onSpsy m =
    let u := s.barInit m.ck (m.poff / 16) (word (bytesAt (m.data.getD 0) 0 8)).toNat
    u.later (.spdat (spDone u m 0)) := by
  simp [State.onSpsy, hcore, hop, hsub]

theorem State.onSpsy_barExpect (hsub : m.sub = 1) : s.onSpsy m =
    match s.barExpect m.ck (m.poff / 16) (word (bytesAt (m.data.getD 0) 0 8)).toNat with
    | some u => u.later (.spdat (spDone u m 0))
    | none => s.later (.spdat (spDone s m 1)) := by
  simp only [State.onSpsy, hcore, hop, hsub]
  rfl

theorem State.onSpsy_barCount (hsub : m.sub = 2) : s.onSpsy m =
    let u := s.barCount m.ck (m.poff / 16) (word (bytesAt (m.data.getD 0) 0 8)).toNat
    u.later (.spdat (spDone u m 0)) := by
  simp [State.onSpsy, hcore, hop, hsub]

/-- A wait for a generation that is past is over. -/
theorem State.onSpsy_barPast (hsub : m.sub = 3) (hgen : (s.bar m.ck (m.poff / 16)).gen ≠ field (word (bytesAt (m.data.getD 0) 0 8)) 0 16) :
    s.onSpsy m = s.later (.spdat (spDone s m 0)) := by
  simp only [State.onSpsy, hcore, hop, hsub]
  exact if_pos hgen

/-- A wait for the current generation where 64 requests are parked is refused. -/
theorem State.onSpsy_barRefused (hsub : m.sub = 3) (hgen : (s.bar m.ck (m.poff / 16)).gen = field (word (bytesAt (m.data.getD 0) 0 8)) 0 16)
    (hfull : 64 ≤ (s.cx m.ck).remoteParked) : s.onSpsy m = s.later (.spdat (spDone s m 2)) := by
  simp [State.onSpsy, hcore, hop, hsub, hgen, hfull]

theorem State.onSpsy_barRead (hsub : m.sub = 4) : s.onSpsy m =
    s.later (.spdat { spDone s m 0 with data := some ((s.bar m.ck (m.poff / 16)).readout.setWidth 512), len := 8 }) := by
  simp [State.onSpsy, hcore, hop, hsub]

end bar
end resident

/-! ## At the requester (R156, R209, R210) -/

/-- An answer that no thread and no card waits for is dropped. -/
theorem State.onSpdat_unasked (hthreads : s.threads = []) (hcards : (s.cx m.ck).cards = []) : s.onSpdat m = s := by
  simp [State.onSpdat, hthreads, hcards]

section mine
variable {tk : Nat} {t : Thread} (hthreads : s.threads = [(tk, some t)]) (hck : ckOfTk tk = m.ck)
include hthreads hck

theorem State.onSpdat_stored (h : t.remote.any (fun r => r.txid == m.txid) = true) :
    s.onSpdat m = (s.dropOut m).setThr tk { t with remote := t.remote.filter fun r => r.txid != m.txid } := by
  have hwaits : ∃ r ∈ t.remote, r.txid = m.txid := by simpa using h
  simp [State.onSpdat, hthreads, hck, hwaits]

theorem State.onSpdat_lane {p : Pending} {k : Nat} (hremote : t.remote = []) (hbtag : t.btag = none) (htx : t.findTx m.txid = some (p, k)) :
    s.onSpdat m = s.spdatLane tk p k m := by
  simp [State.onSpdat, hthreads, hck, hremote, hbtag, htx]

end mine

section lane
variable {tk k : Nat} {p : Pending}

/-- A request that its owner has no room for is kept, to be sent again. -/
theorem State.spdatLane_refused {q : Msg} (hstat : m.stat = 2)
    (hkept : (s.core m.dst).spsyOut.find? (fun q => q.txid == m.txid && q.srcCk == m.ck) = some q) : s.spdatLane tk p k m =
      ((s.dropOut m).modCore m.dst fun x => { x with spsyHeld := x.spsyHeld ++ [q] }).later (.spsyResend m.dst m.txid) := by
  simp only [State.spdatLane, hstat, hkept, if_true]

theorem State.spdatLane_gone (hstat : m.stat = 1) : s.spdatLane tk p k m = (s.dropOut m).waitGone tk p k m := by
  simp [State.spdatLane, hstat]

theorem State.spdatLane_fills (hstat : m.stat = 0) : s.spdatLane tk p k m =
    (s.dropOut m).fillLane tk p.id k (m.data.getD 0) (if m.poison then some (deviceForm m.srcCk (m.poff / 8 * 8)) else none) := by
  simp [State.spdatLane, hstat]

theorem State.waitGone_fullEmpty {va : Word} (hkind : p.kind = .fullEmpty va) :
    s.waitGone tk p k m = s.failPend tk p.id Cause.syncTimeout va := by
  simp only [State.waitGone, hkind]

theorem State.waitGone_barPost {ea : Word} (hkind : p.kind = .barPost ea) : s.waitGone tk p k m = s.failPend tk p.id Cause.barrier ea := by
  simp only [State.waitGone, hkind]

end lane

/-! ## What waits at an interface (R171, R209) -/

theorem State.onSpsyResend_sends {c txid : Nat} {q : Msg} (hheld : (s.core c).spsyHeld = [q]) (hq : q.txid = txid) : s.onSpsyResend c txid =
    (s.modCore c fun x => { x with spsyHeld := [] }).sendSpsy c { q with dst := (s.coreOfCk q.ck).getD 0 } := by
  simp only [State.onSpsyResend, hheld, takeFirst_head (p := fun m : Msg => m.txid == txid) (beq_iff_eq.2 hq)]

/-- With no store and no copy waiting at an interface there is nothing to try again. -/
theorem State.retryHeld_idle {c : Nat} (hheld : (s.core c).spwrHeld = []) (hwf : Tbl.wf {} s.cores = true)
    (hcards : ∀ ck ∈ s.cksOfCore c, (s.cx ck).cards = []) : s.retryHeld c = s := by
  have hkept : s.modCore c (fun x => { x with spwrHeld := [] }) = s := State.modCore_self hwf (by rw [← hheld])
  have hsent : s.sendSpwrHeld c = s := by rw [State.sendSpwrHeld, hkept, hheld]; rfl
  rw [State.retryHeld, hsent, State.goLand]
  exact foldS_unchanged fun ck hck => by rw [hcards ck hck]; rfl

/-- Allowances that come back while nothing waits for them are counted. -/
theorem State.onCret_idle (hheld : (s.core m.dst).spwrHeld = []) (hwf : Tbl.wf {} s.cores = true)
    (hcards : ∀ ck ∈ s.cksOfCore m.dst, (s.cx ck).cards = []) :
    s.onCret m = s.modCore m.dst fun c => { c with allowUsed := Tbl.upd 0 c.allowUsed m.src (· - m.len) } := by
  have hcore : (s.modCore m.dst fun c => { c with allowUsed := Tbl.upd 0 c.allowUsed m.src (· - m.len) }).core m.dst =
      { s.core m.dst with allowUsed := Tbl.upd 0 (s.core m.dst).allowUsed m.src (· - m.len) } := Tbl.get_put_same _ _ _ _ hwf
  exact State.retryHeld_idle (by rw [hcore]; exact hheld) (Tbl.wf_put _ _ _ _ hwf) hcards

end Sys2Proof.Machine
end

section
/-!
CERTIFICATE. Remote accesses to a pool.
-/

open Sys2Proof Sys2Proof.Machine Sys2Proof.Laws

/-- Settles O25: at the owner each operation is its branch of the request, at the requester each answer ends what waits for it. -/
theorem remotePoolResults : Obligations.RemotePoolResults := by
  intro s m c tk n k t p here x i done lost spsy parked full mine kept dropped
  refine ⟨fun ⟨hm, hc⟩ => steps_of_msg rfl hm (State.onSpwr_lands hc),
    fun ⟨hm, hc⟩ hclean => steps_of_msg rfl hm (State.onSprd_clean hc hclean), fun ⟨hm, hc⟩ i hi => ?_,
    fun ⟨hm, hc⟩ hop hclean => steps_of_msg rfl hm (State.onSpsy_atomic hc hop hclean),
    fun ⟨hm, hc⟩ hroom hop => steps_of_msg rfl hm (State.onSpsy_parks hc (by simp [parkCodes, hop]) hroom),
    fun ⟨hm, hc⟩ hroom hop => steps_of_msg rfl hm (State.onSpsy_parks hc (by simp [parkCodes, hop]) hroom),
    fun ⟨hm, hc⟩ hroom hop => steps_of_msg rfl hm (State.onSpsy_parks hc (by simp [parkCodes, hop]) hroom),
    fun ⟨hm, hc⟩ hfull hbit hop => steps_of_msg rfl hm (State.onSpsy_load_refused hc hop hfull hbit),
    fun ⟨hm, hc⟩ hfull hbit hop => steps_of_msg rfl hm (State.onSpsy_store_refused hc hop hfull hbit),
    fun ⟨hm, hc⟩ hop => steps_of_msg rfl hm (State.onSpsy_stff hc hop),
    fun ⟨hm, hc⟩ hop hsub => steps_of_msg rfl hm (State.onSpsy_barInit hc hop hsub),
    fun u hu ⟨hm, hc⟩ hop hsub => steps_of_msg rfl hm ((State.onSpsy_barExpect hc hop hsub).trans (by rw [hu])),
    fun hu ⟨hm, hc⟩ hop hsub => steps_of_msg rfl hm ((State.onSpsy_barExpect hc hop hsub).trans (by rw [hu])),
    fun ⟨hm, hc⟩ hop hsub => steps_of_msg rfl hm (State.onSpsy_barCount hc hop hsub),
    fun hgen ⟨hm, hc⟩ hop hsub => steps_of_msg rfl hm (State.onSpsy_barPast hc hop hsub hgen),
    fun hgen hfull ⟨hm, hc⟩ hop hsub => steps_of_msg rfl hm (State.onSpsy_barRefused hc hop hsub hgen hfull),
    fun ⟨hm, hc⟩ hop hsub => steps_of_msg rfl hm (State.onSpsy_barRead hc hop hsub),
    fun hparked hwait ⟨hm, hc⟩ hop => steps_of_msg rfl hm (State.onSpsy_cancel hc hop hparked hwait),
    fun hm hthreads hcards => steps_of_msg rfl hm (State.onSpdat_unasked hthreads hcards),
    fun ⟨hm, hthreads, hck⟩ hstored => steps_of_msg rfl hm (State.onSpdat_stored hthreads hck hstored),
    fun ⟨hm, hthreads, hck⟩ hremote hbtag htx => ?_,
    fun q hheld hq => steps_of_next rfl (State.onSpsyResend_sends hheld hq),
    fun hm hheld hwf hcards => steps_of_msg rfl hm (State.onCret_idle hheld hwf hcards)⟩
  · have hwaits : Steps i.1 s (s.spWaits i.2 m) := steps_spWaits hm hc i hi
    exact ⟨fun haway => hwaits.trans (congrArg _ (State.spWaits_away haway i.2)), fun hgone => hwaits.trans (congrArg _ (State.spWaits_gone hgone i.2))⟩
  · have hlane : s.onSpdat m = s.spdatLane tk p k m := State.onSpdat_lane hthreads hck hremote hbtag htx
    refine ⟨fun hstat hpoison => steps_of_msg rfl hm ((hlane.trans (State.spdatLane_fills hstat)).trans ?_),
      fun hstat hpoison => steps_of_msg rfl hm ((hlane.trans (State.spdatLane_fills hstat)).trans ?_),
      fun va hstat hkind => steps_of_msg rfl hm ((hlane.trans (State.spdatLane_gone hstat)).trans (State.waitGone_fullEmpty hkind)),
      fun ea hstat hkind => steps_of_msg rfl hm ((hlane.trans (State.spdatLane_gone hstat)).trans (State.waitGone_barPost hkind)),
      fun q hstat hkept => steps_of_msg rfl hm (hlane.trans (State.spdatLane_refused hstat hkept))⟩
    · rw [hpoison]; rfl
    · rw [hpoison]; rfl
end

section
/-!
SUPPORT. A device unit's read of a line (R40, R52): it leaves the threads, the context cores, the clusters and the unit in issue alone.
-/

namespace Sys2Proof.Machine

variable {s s1 s2 : State}

/-- The threads, the context cores, the clusters and the unit in issue of `s'` are those of `s`. -/
structure KeepsThreads (s s' : State) : Prop where
  threads : s'.threads = s.threads
  ctx : s'.ctx = s.ctx
  clusters : s'.clusters = s.clusters
  unit : s'.unit = s.unit

theorem KeepsThreads.rfl : KeepsThreads s s := ⟨.refl _, .refl _, .refl _, .refl _⟩

theorem KeepsThreads.trans (h : KeepsThreads s s1) (h' : KeepsThreads s1 s2) : KeepsThreads s s2 :=
  ⟨h'.threads.trans h.threads, h'.ctx.trans h.ctx, h'.clusters.trans h.clusters, h'.unit.trans h.unit⟩

theorem KeepsThreads.thr (h : KeepsThreads s s1) (tk : Nat) : s1.thr tk = s.thr tk := congrArg (Tbl.get none · tk) h.threads

theorem KeepsThreads.cx (h : KeepsThreads s s1) (ck : Nat) : s1.cx ck = s.cx ck := congrArg (Tbl.get ({} : CtxCore) · ck) h.ctx

theorem KeepsThreads.foldS {α : Type} {f : α → State → State} (hf : ∀ a s, KeepsThreads s (f a s)) (l : List α) :
    KeepsThreads s (foldS f l s) := by
  induction l generalizing s with
  | nil => exact .rfl
  | cons a l ih => exact (hf a s).trans ih

theorem KeepsThreads.ite {c : Prop} [Decidable c] (h1 : KeepsThreads s s1) (h2 : KeepsThreads s s2) :
    KeepsThreads s (if c then s1 else s2) := by
  split
  · exact h1
  · exact h2

/-! ## Slices, cores and what is pending -/

theorem State.setSl_keepsThreads (sl : Nat) (x : Slice) : KeepsThreads s (s.setSl sl x) := ⟨rfl, rfl, rfl, rfl⟩

theorem State.modSl_keepsThreads (sl : Nat) (f : Slice → Slice) : KeepsThreads s (s.modSl sl f) := ⟨rfl, rfl, rfl, rfl⟩

theorem State.later_keepsThreads (e : Ev) : KeepsThreads s (s.later e) := ⟨rfl, rfl, rfl, rfl⟩

theorem State.laterOnce_keepsThreads (e : Ev) : KeepsThreads s (s.laterOnce e) := .ite .rfl (State.later_keepsThreads e)

/-- A message to an agent takes a credit or waits for one. -/
theorem State.sendSnp_keepsThreads (a : Nat) (e : Ev) : KeepsThreads s (s.sendSnp a e) := by
  unfold State.sendSnp State.sendCredit
  dsimp only
  (repeat' split) <;> exact ⟨rfl, rfl, rfl, rfl⟩

/-! ## Transactions and evictions (R52, R56) -/

theorem State.openTxn_keepsThreads (sl : Nat) (t : Txn) (k : ProbeKind) (to_ : List (Nat × Nat)) (ver : BitVec 8) :
    KeepsThreads s (s.openTxn sl t k to_ ver) :=
  (State.modSl_keepsThreads sl _).trans (.foldS (fun _ _ => State.sendSnp_keepsThreads _ _) to_)

theorem State.postInval_keepsThreads (sl line level : Nat) (ver : BitVec 8) (token span : Nat) :
    KeepsThreads s (s.postInval sl line level ver token span) := ⟨rfl, rfl, rfl, rfl⟩

theorem State.fireWatches_keepsThreads (sl line : Nat) : KeepsThreads s (s.fireWatches sl line) :=
  (State.setSl_keepsThreads sl _).trans (.foldS (fun _ _ => State.later_keepsThreads _) _)

theorem State.freeNode_keepsThreads (sl : Nat) (n : Node) : KeepsThreads s (s.freeNode sl n) :=
  (State.modSl_keepsThreads sl _).trans
    (.foldS (fun _ _ => (State.modSl_keepsThreads sl _).trans (State.fireWatches_keepsThreads sl _)) _)

theorem State.startEvict_keepsThreads (sl : Nat) (n : Node) : KeepsThreads s (s.startEvict sl n) :=
  .ite (State.freeNode_keepsThreads sl n)
    (.ite ((State.openTxn_keepsThreads ..).trans (State.postInval_keepsThreads ..)) (State.openTxn_keepsThreads ..))

theorem State.evictFor_keepsThreads (sl line : Nat) : KeepsThreads s (s.evictFor sl line) := by
  refine .ite .rfl ?_
  cases (s.sl sl).victimNode line with
  | none => exact .rfl
  | some n => exact State.startEvict_keepsThreads sl n

theorem State.retrySoon_keepsThreads (sl : Nat) : KeepsThreads s (s.retrySoon sl) := .ite .rfl (State.laterOnce_keepsThreads _)

/-! ## A marked read at its home -/

section marked
variable {m : Msg} (sl : Nat)

theorem State.replayPut_read_keepsThreads (m' : Msg) : KeepsThreads s (s.replayPut sl (.rdnc m) m') := ⟨rfl, rfl, rfl, rfl⟩

theorem State.waitForWay_read_keepsThreads (m' : Msg) : KeepsThreads s (s.waitForWay sl (.rdnc m) m') := by
  have hput := (State.evictFor_keepsThreads (s := s) sl m'.line).trans (State.replayPut_read_keepsThreads (m := m) sl m')
  exact .ite hput (hput.trans (State.retrySoon_keepsThreads sl))

theorem State.touch_keepsThreads (line : Nat) : KeepsThreads s (s.touch sl line) := State.modSl_keepsThreads sl _

variable (hmark : m.mark = true)
include hmark

theorem State.finish_marked_keepsThreads (conflict : Bool) : KeepsThreads s (s.finishRequest sl (.rdnc m) conflict) := by
  simp only [State.finishRequest, hmark, if_true]
  exact State.modSl_keepsThreads sl _

/-- A read splits no node and asks no software. -/
theorem State.serveNode_marked_keepsThreads (n : Node) : KeepsThreads s (s.serveNode sl (.rdnc m) m n) := by
  simp only [State.serveNode, reqKind, ReqKind.writes, Node.conflicts, Bool.false_eq_true, and_false, false_and, if_false, Bool.and_false,
    Bool.not_false, and_true]
  exact .ite (State.finish_marked_keepsThreads sl hmark _) (State.openTxn_keepsThreads ..)

theorem State.serveReady_marked_keepsThreads : KeepsThreads s (s.serveReady sl (.rdnc m) m) := by
  have htouch := State.touch_keepsThreads (s := s) sl m.line
  unfold State.serveReady
  dsimp only
  split
  · exact htouch.trans (State.serveNode_marked_keepsThreads sl hmark _)
  · exact .ite (htouch.trans ((State.setSl_keepsThreads sl _).trans (State.serveNode_marked_keepsThreads sl hmark _)))
      (htouch.trans (State.waitForWay_read_keepsThreads sl m))

theorem State.serve_marked_keepsThreads : KeepsThreads s (s.serve sl (.rdnc m)) := by
  have hwaits := State.replayPut_read_keepsThreads (s := s) (m := m) sl m
  unfold State.serve
  simp only [reqMsg, reqKind, ReqKind.writes, Slice.takesLine, Bool.false_eq_true, and_false, if_false, or_false, true_and]
  refine .ite hwaits ?_
  split
  · exact .ite (State.setSl_keepsThreads sl _) hwaits
  · exact .ite (State.serveReady_marked_keepsThreads sl hmark) ((State.setSl_keepsThreads sl _).trans (State.later_keepsThreads _))

end marked

/-! ## A unit asks for a line (R40, R163) -/

theorem State.replicate_keepsThreads (sl : Nat) (h : Hot) : KeepsThreads s (s.replicate sl h) :=
  (State.modSl_keepsThreads sl _).trans
    ((KeepsThreads.foldS (fun _ _ => State.later_keepsThreads _) _).trans (.foldS (fun _ _ => State.later_keepsThreads _) _))

theorem State.countHot_keepsThreads (sl line : Nat) : KeepsThreads s (s.countHot sl line) := by
  unfold State.countHot
  dsimp only
  split
  · exact State.setSl_keepsThreads sl _
  · exact .ite (State.replicate_keepsThreads sl _) (State.setSl_keepsThreads sl _)

theorem State.askRead_keepsThreads (id line : Nat) (whole : Bool) : KeepsThreads s (s.ask id line false whole) := by
  have hforget := State.modSl_keepsThreads (s := s) (homeOf line)
    fun x => { x with ready := x.ready.filter (· != (id, line, false)) }
  exact .ite .rfl (.ite (hforget.trans (State.later_keepsThreads _))
    ((hforget.trans (State.countHot_keepsThreads ..)).trans (State.serve_marked_keepsThreads (homeOf line) rfl)))

theorem State.cohRead_keepsThreads {id line : Nat} {d : Vec} {bad : Bool} (h : s.cohRead id line = .ok (s1, d, bad)) : KeepsThreads s s1 := by
  have hasked : KeepsThreads s (s.askAll id (64 * line) 64 false) := .foldS (fun _ _ => State.askRead_keepsThreads ..) _
  unfold State.cohRead State.cohBytes at h
  dsimp only at h
  split at h <;> rename_i hbytes
  · split at hbytes
    · cases hbytes
      cases h
      exact (hasked.trans (.foldS (fun _ _ => .ite (State.modSl_keepsThreads ..) .rfl) _)).trans
        (.foldS (fun _ _ => State.modSl_keepsThreads ..) _)
    · cases hbytes
  · cases h

/-- What each step of a run that gives no error keeps, the run keeps. -/
theorem foldE_keeps {α σ ε : Type} {f : α → σ → Except ε σ} {p : σ → Prop} (hf : ∀ a s s', p s → f a s = .ok s' → p s') (l : List α)
    (s : σ) (hs : p s) {s' : σ} (h : foldE f l s = .ok s') : p s' := by
  induction l generalizing s with
  | nil => cases h; exact hs
  | cons a l ih =>
    unfold foldE at h
    split at h
    · next s1 hstep => exact ih s1 (hf a s s1 hs hstep) h
    · cases h

/-! ## What a service thread reads within its unit (R66, R411) -/

section service
variable {tk : Nat} (hservice : isService tk = true)
include hservice

/-- The addresses of a service thread are physical. -/
theorem State.xlatThread_service {t : Thread} {va pa : Nat} {r w x : Bool} (h : s.xlatThread tk t va r w x = .pa s1 pa) : s1 = s := by
  unfold State.xlatThread State.physical at h
  rw [if_pos (by simp [untranslated, hservice])] at h
  split at h
  · cases h; rfl
  · cases h

theorem State.planAll_service {t : Thread} {r w : Bool} {val : Option Word} {p : Piece} {plans : List Plan}
    (h : s.planAll tk t r w val [p] = .ok (s1, plans)) : s1 = s := by
  unfold State.planAll at h
  split at h
  · cases h; rfl
  · split at h
    · cases h
    · cases h
    · next hpa => cases h; exact State.xlatThread_service hservice hpa

/-- The bytes are of a line at hand, of a line that its home gives, or of a pool. -/
theorem State.readNow_keepsThreads {ea : Word} {x : Word} (h : s.readNow tk ea = .ok (s1, x)) : KeepsThreads s s1 := by
  unfold State.readNow at h
  split at h
  · cases h
  split at h
  · cases h
  split at h
  · cases h
  next s' plans hplan =>
  obtain rfl := State.planAll_service hservice hplan
  split at h
  · cases h
  split at h
  · split at h
    · split at h
      · cases h
      · cases h; exact .rfl
    · split at h
      · next hread =>
        split at h
        · cases h
        · cases h; exact State.cohRead_keepsThreads hread
      · cases h
  · split at h
    · cases h
    · cases h; exact .rfl
  · cases h

theorem State.readRecord_keepsThreads {ea : Word} {r : Nat} (h : s.readRecord tk ea = .ok (s1, r)) : KeepsThreads s s1 := by
  refine foldE_keeps (p := fun acc : State × Nat => KeepsThreads s acc.1) (fun i acc acc' hacc hstep => ?_) _ (s, 0) .rfl h
  split at hstep
  · next hread => cases hstep; exact hacc.trans (State.readNow_keepsThreads hservice hread)
  · cases hstep

end service

end Sys2Proof.Machine
end

section
/-!
SUPPORT. The service thread's notices (R405) and spilled messages (R168, R411): a message that enters an inbox (R220), a record in a pool
that the core serves (R204, R334), and what each word leaves.
-/

namespace Sys2Proof.Machine

variable {s s1 : State} {t : Thread} {tk ck : Nat}

/-! ## The inbox (R168) -/

/-- An entry of a canonical array is what its key reads as. -/
theorem Tbl.get_of_mem {α : Type} [DecidableEq α] {z x : α} {lo n : Nat} {t : Tbl α} (hwf : Tbl.above z lo t = true) (h : (n, x) ∈ t) :
    lo ≤ n ∧ Tbl.get z t n = x := by
  induction t generalizing lo with
  | nil => cases h
  | cons e t ih =>
    obtain ⟨k, v⟩ := e
    simp only [Tbl.above, Bool.and_eq_true, decide_eq_true_eq] at hwf
    obtain ⟨⟨hlo, -⟩, hrest⟩ := hwf
    rcases List.mem_cons.1 h with heq | h
    · cases heq
      exact ⟨hlo, by simp [Tbl.get]⟩
    · obtain ⟨hk, hget⟩ := ih hrest h
      refine ⟨by omega, ?_⟩
      rw [Tbl.get, if_neg (by omega), if_neg (by omega), hget]

/-- Waking other threads leaves a thread as it is. -/
theorem thr_foldS_wake {l : List Nat} (h : tk ∉ l) (s : State) : (foldS (fun k (s : State) => s.wake k) l s).thr tk = s.thr tk := by
  induction l generalizing s with
  | nil => rfl
  | cons k l ih =>
    obtain ⟨hne, hl⟩ := not_or.1 (List.mem_cons.not.1 h)
    refine (ih hl (s.wake k)).trans ?_
    unfold State.wake State.modThr
    split
    · exact Tbl.get_put_of_ne s.threads (by simp) hne
    · rfl

/-- Waking threads changes the threads alone. -/
theorem foldS_wake_keeps (l : List Nat) (s : State) :
    (foldS (fun k (s : State) => s.wake k) l s).unit = s.unit ∧ (foldS (fun k (s : State) => s.wake k) l s).clusters = s.clusters := by
  induction l generalizing s with
  | nil => exact ⟨rfl, rfl⟩
  | cons k l ih =>
    obtain ⟨hunit, hclusters⟩ := ih (s.wake k)
    have hwake : (s.wake k).unit = s.unit ∧ (s.wake k).clusters = s.clusters := by
      unfold State.wake State.modThr
      split <;> exact ⟨rfl, rfl⟩
    exact ⟨hunit.trans hwake.1, hclusters.trans hwake.2⟩

/-- The threads of a context core that a new message wakes (R168). -/
def State.inboxReceivers (s : State) (ck : Nat) : List Nat :=
  s.threads.filterMap fun e => match e.2 with
    | some t => if ckOfTk e.1 = ck ∧ t.st = .sync ∧ t.parkChannel.any (fun ch => (s.firstMsg e.1 t ch).isSome) then some e.1 else none
    | none => none

theorem State.wakeReceivers_eq (s : State) (ck : Nat) :
    s.wakeReceivers ck = (foldS (fun k (s : State) => s.wake k) (s.inboxReceivers ck) s).laterOnce (.dispatch ck) := rfl

/-- A READY thread waits for no message. -/
theorem State.not_mem_inboxReceivers (hthr : s.thr tk = some t) (hst : t.st = .ready) (hwf : Tbl.wf none s.threads = true) : tk ∉ s.inboxReceivers ck := by
  intro hmem
  obtain ⟨⟨k, e⟩, he, hkey⟩ := List.mem_filterMap.1 hmem
  cases e with
  | none => cases hkey
  | some t' =>
    obtain ⟨⟨-, hsync, -⟩, rfl⟩ := Option.ite_some_none_eq_some.1 hkey
    have hsame : some t = some t' := hthr.symm.trans (Tbl.get_of_mem hwf he).2
    cases hsame
    exact TState.noConfusion (hst.symm.trans hsync)

/-- A message that enters an inbox leaves a READY thread, the clusters and the unit in issue as they are. -/
theorem State.inboxPut_ready (hthr : s.thr tk = some t) (hst : t.st = .ready) (hwf : Tbl.wf none s.threads = true) (m : Msg) :
    (s.inboxPut ck m).thr tk = some t ∧ (s.inboxPut ck m).unit = s.unit ∧ (s.inboxPut ck m).clusters = s.clusters := by
  obtain ⟨u, hu⟩ : ∃ u, u = (s.modCx ck fun x => { x with inbox := x.inbox ++ [m] }).pulse ck 4 0xFFF := ⟨_, rfl⟩
  have hcheck (v : State) : KeepsThreads v (v.sluiceCheck ck) := .foldS (fun _ _ => .ite (State.laterOnce_keepsThreads _) .rfl) _
  have hthreads : u.threads = s.threads := hu ▸ (hcheck _).threads
  have hunit : u.unit = s.unit := hu ▸ (hcheck _).unit
  have hclusters : u.clusters = s.clusters := hu ▸ (hcheck _).clusters
  have hkept : u.thr tk = some t := (congrArg (Tbl.get none · tk) hthreads).trans hthr
  have hwoken := foldS_wake_keeps (u.inboxReceivers ck) u
  have hlater := State.laterOnce_keepsThreads (s := foldS (fun k (s : State) => s.wake k) (u.inboxReceivers ck) u) (.dispatch ck)
  rw [State.inboxPut, ← hu, State.wakeReceivers_eq]
  refine ⟨?_, hlater.unit.trans (hwoken.1.trans hunit), hlater.clusters.trans (hwoken.2.trans hclusters)⟩
  rw [State.laterOnce_thr, thr_foldS_wake (State.not_mem_inboxReceivers hkept hst (hthreads ▸ hwf)), hkept]

/-! ## A record in a pool that the core serves (R204, R334) -/

/-- The low bytes of a number are those of its remainder. -/
theorem leBytes_mod (n x : Nat) : leBytes n (x % 2 ^ (8 * n)) = leBytes n x := by
  induction n generalizing x with
  | zero => rfl
  | succ n ih =>
    have hpow : 2 ^ (8 * (n + 1)) = 2 ^ 8 * 2 ^ (8 * n) := by rw [← Nat.pow_add]; congr 1; omega
    have hbyte : BitVec.ofNat 8 (x % 2 ^ (8 * (n + 1))) = BitVec.ofNat 8 x :=
      BitVec.eq_of_toNat_eq (by simp only [BitVec.toNat_ofNat]; exact Nat.mod_mod_of_dvd x (hpow ▸ Nat.dvd_mul_right ..))
    have hrest : x % 2 ^ (8 * (n + 1)) / 256 = x / 256 % 2 ^ (8 * n) := hpow ▸ Nat.mod_mul_right_div_self x (2 ^ 8) _
    rw [leBytes, hbyte, hrest, ih, leBytes]

/-- The first bytes of a vector are the low bytes of its number. -/
theorem leBytes_bytesAt (n : Nat) (v : Vec) : leBytes n (bytesAt v 0 n) = leBytes n v.toNat := by
  rw [bytesAt, Nat.mul_zero, Nat.pow_zero, Nat.div_one, leBytes_mod]

theorem leBytes_ofNat {n : Nat} (hn : n ≤ 64) (x : Nat) : leBytes n (BitVec.ofNat 512 x).toNat = leBytes n x := by
  have hdvd : 2 ^ (8 * n) ∣ 2 ^ 512 := Nat.pow_dvd_pow 2 (by omega)
  rw [← leBytes_mod n x, ← leBytes_mod n (BitVec.ofNat 512 x).toNat, BitVec.toNat_ofNat, Nat.mod_mod_of_dvd x hdvd]

/-- A write to a pool moves no context core. -/
theorem State.isLocal_poolWrite (hwf : Tbl.wf {} s.ctx = true) (k off : Nat) (l : List Byte) : (s.poolWrite k off l).isLocal ck = s.isLocal ck := by
  have hhost : ((s.poolWrite k off l).cx ck).host = (s.cx ck).host := by
    by_cases hk : ck = k
    · subst hk
      have hcx : (s.poolWrite ck off l).cx ck = (s.cx ck).poolWrite off l := Tbl.get_put_same _ _ _ _ hwf
      rw [hcx]
      rfl
    · have hcx : (s.poolWrite k off l).cx ck = s.cx ck := Tbl.get_put_other _ _ 0 _ _ _ hwf hk
      rw [hcx]
  have hcluster : (s.poolWrite k off l).clusterOfCk ck = s.clusterOfCk ck := rfl
  simp only [State.isLocal, State.coreOfCk, hcluster, hhost]
  rfl

/-- One piece of a store to a pool that the core serves is written at once. -/
theorem State.storePieces_local (hlocal : s.isLocal ck = true) (off n : Nat) (v : Vec) :
    s.storePieces tk v [⟨.pool ck off, n, 0⟩] = some (s.poolWrite ck off (leBytes n v.toNat)) := by
  simp only [State.storePieces, State.storePiece, hlocal, if_true, leBytes_bytesAt]

theorem State.storeFull_local (hlocal : s.isLocal ck = true) (off off' : Nat) :
    s.storeFull t [⟨.pool ck off, 16, 0⟩, ⟨.pool ck off', 64, 0⟩] = false := by
  simp [State.storeFull, hlocal]

/-! ## Notices (R405) -/

/-- Without flumes a result for a v register is a write of the thread. -/
theorem State.bindFin_vec_plain (hthr : s.thr tk = some t) (hflumes : t.flumes = []) (r : Nat) (x : Vec) :
    s.bindFin tk (.vec r) x = s.setThr tk (t.wv r x) := by
  simp [State.bindFin, State.writeV, hthr, Thread.flumeOf_none hflumes]

section notice
variable {c : Nat} {n : Notice} {rest : List Notice} (hthr : s.thr tk = some t) (hqueue : (s.core c).notices = n :: rest)
include hthr hqueue

theorem State.takeNotice_sharer (hkind : n.kind = 1) : s.takeNotice c tk =
    some (((s.modCore c fun x => { x with notices := rest }).later (.dsack { src := c, dst := homeId n.sl })).setThr tk
      { t with noticeHeld := true }, n) := by
  simp only [State.takeNotice, hqueue, hkind, if_true, State.modThr, State.modCore_thr, hthr]
  rfl

theorem State.takeNotice_inval (hkind : n.kind ≠ 1) : s.takeNotice c tk =
    some ((s.modCore c fun x => { x with notices := rest }).setThr tk { t with noticeHeld := true, invalHeld := true }, n) := by
  simp only [State.takeNotice, hqueue, hkind, if_false, State.modThr, State.modCore_thr, hthr, State.thr_setThr, State.setThr_setThr]

end notice

/-- DSPOLL that finds a notice takes it and writes its bytes. -/
theorem dspoll_takes {s' : State} {u : Thread} {n : Notice} {p : Bool} {d : BitVec 5} {l : BitVec 4} (h : Alone s t) (hpriv : t.priv ≠ 0)
    (hservice : isService s.unit.tk = true) (hk : KeepsUnit s s')
    (htake : s.takeNotice s.unit.core s.unit.tk = some (s'.setThr s.unit.tk u, n)) (hflumes : u.flumes = []) (hpend : u.pend = [])
    (hlast : u.lastIssue = t.lastIssue) : Leaves2 (.dspoll p d l) s s' (u.wv d.toNat n.bytes) := by
  have hbind := State.bindFin_vec_plain (State.thr_setThr s' s.unit.tk u) hflumes d.toNat n.bytes
  refine Leaves2.word h rfl (fun _ => hpriv) hk ?_ hflumes hpend hlast
  simp only [hservice, htake, hbind, State.setThr_setThr, Bool.not_true, Bool.false_eq_true, if_false]

/-! ## Spilled messages (R168, R411) -/

/-- SPLTAKE of a spilled message into a pool that the core serves: both parts of the record are written at once. -/
theorem spltake_pool {p : Bool} {d a : BitVec 5} {l : BitVec 4} {off : Nat} {m : Msg} {rest : List Msg}
    (h : Alone s t) (hwf : Tbl.wf {} s.ctx = true) (hpriv : t.priv ≠ 0) (hservice : isService s.unit.tk = true)
    (htarget : s.target s.unit.tk (t.rg a.toNat) 80 16 true true = .ok (.pool ck off)) (hlocal : s.isLocal ck = true)
    (hfree : s.jobHolds s.unit.tk (.pool ck off) 80 true = false) (hspilled : (s.core s.unit.core).spillInbox = m :: rest) :
    Leaves2 (.spltake p d a l) s
      (((s.poolWrite ck off (leBytes 16 (userHeader m))).poolWrite ck (off + 16) (leBytes 64 (userPayload m).toNat)).modCore s.unit.core
        fun x => { x with spillInbox := rest })
      (t.wg d.toNat (word rest.length)) := by
  let s3 := s.poolWrite ck off (leBytes 16 (userHeader m))
  let s4 := s3.poolWrite ck (off + 16) (leBytes 64 (userPayload m).toNat)
  have hheader : s.storePieces s.unit.tk (BitVec.ofNat 512 (userHeader m)) [⟨.pool ck off, 16, 0⟩] = some s3 :=
    (State.storePieces_local hlocal off 16 _).trans (by rw [leBytes_ofNat (by decide)])
  have hpayload : s3.storePieces s.unit.tk (userPayload m) [⟨.pool ck (off + 16), 64, 0⟩] = some s4 :=
    State.storePieces_local ((State.isLocal_poolWrite hwf _ _ _).trans hlocal) (off + 16) 64 _
  have hroom := State.storeFull_local (t := t) hlocal off (off + 16)
  have hleft := State.writeG_plain (s := s4.modCore s.unit.core fun x => { x with spillInbox := rest }) s.unit.tk d.toNat (word rest.length) t
    h.thread h.ports
  refine Leaves2.word h rfl (fun _ => hpriv) ⟨rfl, rfl, fun _ => rfl⟩ ?_ (by simpa using h.flumes) (by simpa using h.pend) (by simp)
  simp only [hservice, h.thread, htarget, hspilled, Target.pieces, State.planAll, List.cons_append, List.nil_append, hfree, hroom, hheader,
    hpayload, hleft, Bool.not_true, Bool.false_eq_true, or_self, if_false]
  rfl

section lbsend
variable {p : Bool} {a : BitVec 5} {tgt : Target} {r : Nat} (h : Alone s t) (hpriv : t.priv ≠ 0)
  (hservice : isService s.unit.tk = true) (htarget : s.target s.unit.tk (t.rg a.toNat) 80 16 true true = .ok tgt)
  (hread : s.readRecord s.unit.tk (t.rg a.toNat) = .ok (s1, r))
include h hpriv hservice htarget hread

/-- LBSEND of a record that is no user message to the core. -/
theorem lbsend_traps (hbad : bits r 0 8 ≠ 4 ∨ bits r 16 8 ≠ s.unit.core) : Traps (.lbsend p a) s Cause.access (t.rg a.toNat) := by
  refine Traps.word h rfl (fun _ => hpriv) ?_
  simp only [hservice, h.thread, htarget, hread, Bool.not_true, Bool.false_eq_true, if_false]
  exact if_pos hbad

variable (hdone : t.sbuf = [] ∧ t.remote = []) (hkind : bits r 0 8 = 4) (hdst : bits r 16 8 = s.unit.core)
include hdone hkind hdst

/-- LBSEND of a user message to the core whose inbox has room. -/
theorem lbsend_enters (hst : t.st = .ready) (hwf : Tbl.wf none s.threads = true) (hroom : (s1.cx (ckOfTk s.unit.tk)).inbox.length < 64) :
    Leaves2 (.lbsend p a) s (s1.inboxPut (ckOfTk s.unit.tk)
      { src := bits r 8 8, dst := s.unit.core, region := bits r 24 8, thread := bits r 32 4, delivery := word (bits r 48 8), len := bits r 96 6 + 1,
        data := some (BitVec.ofNat 512 (bits r 128 512)), ck := ckOfTk s.unit.tk, srcCk := ckOfTk s.unit.tk }) t := by
  have hkept := State.readRecord_keepsThreads hservice hread
  obtain ⟨hthr, hunit, hclusters⟩ := State.inboxPut_ready (ck := ckOfTk s.unit.tk) ((hkept.thr _).trans h.thread) hst (hkept.threads ▸ hwf)
    { src := bits r 8 8, dst := s.unit.core, region := bits r 24 8, thread := bits r 32 4, delivery := word (bits r 48 8), len := bits r 96 6 + 1,
      data := some (BitVec.ofNat 512 (bits r 128 512)), ck := ckOfTk s.unit.tk, srcCk := ckOfTk s.unit.tk }
  have hperformed : t.performed = true := (Thread.performed_iff h.pend).2 hdone
  rw [hkept.cx] at hroom
  refine issueC_leaves (pc := none) h rfl (fun _ => hpriv) ?_ hthr h.flumes h.pend rfl (hunit.trans hkept.unit) (hclusters.trans hkept.clusters)
  simp only [hservice, h.thread, htarget, hread, hkind, hdst, hperformed, hroom.not_ge, ne_eq, not_true, or_self, Bool.not_true, Bool.false_eq_true,
    if_false]

/-- LBSEND of a user message to the core whose inbox is full. -/
theorem lbsend_waits (hfull : 64 ≤ (s1.cx (ckOfTk s.unit.tk)).inbox.length) :
    exec (.lbsend p a) s = .next (s1.setThr s.unit.tk { t with st := .sync, park := some 0x300 }) := by
  have hkept := State.readRecord_keepsThreads hservice hread
  have hperformed : t.performed = true := (Thread.performed_iff h.pend).2 hdone
  have hparked : s1.waitUnit s.unit.tk .sync (some 0x300) = s1.setThr s.unit.tk { t with st := .sync, park := some 0x300 } := by
    simp [State.waitUnit, State.modThr_some s1 _ t _ ((hkept.thr _).trans h.thread)]
  rw [hkept.cx] at hfull
  refine (issueC_alone _ _ h fun _ => hpriv).trans ?_
  simp only [hservice, h.thread, htarget, hread, hkind, hdst, hperformed, hfull, hparked, ne_eq, not_true, or_self, Bool.not_true,
    Bool.false_eq_true, if_false, if_true]

end lbsend

section spill
variable {p : Bool} {d a : BitVec 5} {l : BitVec 4} (h : Alone s t) (hpriv : t.priv ≠ 0)
  (hservice : isService s.unit.tk = true)
include h hpriv hservice

/-- SPLTAKE and LBSEND of an address that fails its checks. -/
theorem record_traps {e : Nat} (htarget : s.target s.unit.tk (t.rg a.toNat) 80 16 true true = .error e) :
    Traps (.spltake p d a l) s e (t.rg a.toNat) ∧ Traps (.lbsend p a) s e (t.rg a.toNat) := by
  refine ⟨Traps.word h rfl (fun _ => hpriv) ?_, Traps.word h rfl (fun _ => hpriv) ?_⟩ <;>
    simp only [hservice, h.thread, htarget, Bool.not_true, Bool.false_eq_true, if_false]

/-- SPLTAKE where no spilled message is left. -/
theorem spltake_empty {tgt : Target} (htarget : s.target s.unit.tk (t.rg a.toNat) 80 16 true true = .ok tgt)
    (hnone : (s.core s.unit.core).spillInbox = []) : Leaves (.spltake p d a l) s (t.wg d.toNat (BitVec.allOnes 64)) := by
  refine Goes.word (pc := none) h rfl (fun _ => hpriv) ?_ (by simpa using h.flumes) (by simpa using h.pend) (by simp)
  simp only [hservice, h.thread, htarget, hnone, State.writeG_plain s.unit.tk d.toNat _ t h.thread h.ports, Bool.not_true, Bool.false_eq_true,
    if_false]

/-- SPLEND with the spill inbox empty ends spill mode. -/
theorem splend_ends (hnone : (s.core s.unit.core).spillInbox = []) :
    Leaves2 (.splend p) s (s.modCore s.unit.core fun x => { x with spill := false }) t := by
  refine Leaves2.stays h rfl (fun _ => hpriv) ⟨rfl, rfl, fun _ => rfl⟩ ?_
  simp only [hservice, State.modCore, hnone, List.isEmpty_nil, Bool.not_true, Bool.false_eq_true, if_false, if_true]

/-- SPLEND with a spilled message left has no effect. -/
theorem splend_stays (hsome : (s.core s.unit.core).spillInbox ≠ []) : Leaves (.splend p) s t := by
  have hleft : (s.core s.unit.core).spillInbox.isEmpty = false := by simpa using hsome
  have hne : s.core s.unit.core ≠ {} := fun he => hsome (he ▸ rfl)
  have hsame : Tbl.put {} s.cores s.unit.core (s.core s.unit.core) = s.cores := Tbl.put_get _ _ _ _ rfl hne
  refine Goes.stays (pc := none) h rfl (fun _ => hpriv) ?_
  simp only [hservice, State.modCore, hleft, hsame, Bool.not_true, Bool.false_eq_true, if_false]

end spill

end Sys2Proof.Machine
end

section
/-!
CERTIFICATE. The service thread's notices and spilled messages.
-/

open Sys2Proof Sys2Proof.Machine Sys2Proof.Laws

/-- DSPOLL: the oldest notice of the core, or zero. -/
theorem noticeResults : Claims.NoticeResults := by
  intro s t h hpriv hservice p d l c
  refine ⟨fun (hnone : (s.core s.unit.core).notices = []) => ?_, fun n rest (hqueue : (s.core s.unit.core).notices = n :: rest) => ?_⟩
  · have hheld : s.modThr s.unit.tk (fun t => { t with noticeHeld := false }) = s.setThr s.unit.tk { t with noticeHeld := false } :=
      State.modThr_some s _ t _ h.thread
    have hbind := State.bindFin_vec_plain (State.thr_setThr s s.unit.tk { t with noticeHeld := false }) h.flumes d.toNat 0
    refine Goes.word (pc := none) h rfl (fun _ => hpriv) ?_ h.flumes h.pend rfl
    simp only [hservice, State.takeNotice, hnone, hheld, hbind, State.setThr_setThr, Bool.not_true, Bool.false_eq_true, if_false]
  exact ⟨fun hkind => dspoll_takes h hpriv hservice ⟨rfl, rfl, fun _ => rfl⟩ (State.takeNotice_sharer h.thread hqueue hkind) h.flumes h.pend rfl,
    fun hkind => dspoll_takes h hpriv hservice ⟨rfl, rfl, fun _ => rfl⟩ (State.takeNotice_inval h.thread hqueue hkind) h.flumes h.pend rfl⟩

/-- SPLTAKE, LBSEND and SPLEND: a spilled message to a record, a record to the inbox, and the end of spill mode. -/
theorem spillResults : Claims.SpillResults := by
  intro s t h hcanonical hpriv hservice hst hsbuf hremote p d a l tk c ea
  exact ⟨fun e htarget => record_traps h hpriv hservice htarget, fun tgt htarget hnone => spltake_empty h hpriv hservice htarget hnone,
    fun ck off m rest htarget hlocal hfree hspilled => spltake_pool h hcanonical.ctx hpriv hservice htarget hlocal hfree hspilled,
    fun tgt s1 r htarget hread hwf => ⟨lbsend_traps h hpriv hservice htarget hread,
      fun hkind hdst hroom => lbsend_enters h hpriv hservice htarget hread ⟨hsbuf, hremote⟩ hkind hdst hst hwf hroom,
      fun hkind hdst hfull => lbsend_waits h hpriv hservice htarget hread ⟨hsbuf, hremote⟩ hkind hdst hfull⟩,
    splend_ends h hpriv hservice, splend_stays h hpriv hservice⟩

/-- Settles O39: each word of the service thread is its body, which turns on the oldest notice, the oldest spilled message or the record. -/
theorem serviceNoticeResults : Obligations.ServiceNoticeResults := ⟨noticeResults, spillResults⟩
end

section
/-!
SUPPORT. The fields of a word as the statements name them, and the entry of a trap (R228).
-/

namespace Sys2Proof.Machine

variable {s : State} {t : Thread}

/-- A field of a word is zero where the bits that it names are. -/
theorem field_eq_zero_iff (x : Word) (lo n : Nat) : field x lo n = 0 ↔ x.extractLsb' lo n = 0 := by
  rw [← BitVec.toNat_inj, BitVec.extractLsb'_toNat, Nat.shiftRight_eq_div_pow]
  simp [field, bits]

/-- TRAPSTATUS after a trap holds the mode in bits [1:0], INH in bit 2, WORD in bit 3 and DEFER in bit 4 (R228). -/
theorem trapStatus_eq (mode : BitVec 2) (wordBit defer : Bool) :
    trapStatus mode wordBit defer =
      mode.setWidth 64 ||| 4 ||| (if wordBit then 8 else 0) ||| (if defer then 16 else 0) := by
  revert mode wordBit defer
  decide

/-- A trap that can be taken enters the handler. -/
theorem State.takeTrap_enters {tk : Nat} (hthr : s.thr tk = some t) (hcan : t.canTrap = true) (cause : Nat) (val pc : Word)
    (word1 defer : Bool) :
    s.takeTrap tk cause val pc word1 defer = s.setThr tk (t.enterTrap (word cause) val pc word1 defer) := by
  simp [State.takeTrap, hthr, hcan]

/-- A thread that belongs to no region and holds no capsule stops where its trap cannot be taken; no fault event arises. -/
theorem State.takeTrap_stops {tk : Nat} (hthr : s.thr tk = some t) (hcan : t.canTrap = false) (hholds : t.holds = none)
    (hregion : s.region (regionOfCk (ckOfTk tk)) = none) (cause : Nat) (val pc : Word) (word1 defer : Bool) :
    s.takeTrap tk cause val pc word1 defer = s.setThr tk { t with st := .stopped } := by
  have hdead : s.deadLetterHeld tk 1 cause pc val 0 = s := by simp [State.deadLetterHeld, hthr, hholds]
  have hregion' : (s.setThr tk { t with st := .stopped }).region (regionOfCk (ckOfTk tk)) = none := hregion
  simp only [State.takeTrap, hthr, hcan, hdead, State.modThr_some s tk t _ hthr, State.faultEvent, hregion', Bool.false_eq_true, if_false]

end Sys2Proof.Machine
end

section
/-!
CERTIFICATE. Trap entry and trap return.
-/

open Sys2Proof Sys2Proof.Machine

/-- Settles O7: a trap that can be taken enters the handler, another one stops its thread. -/
theorem trapEntry : Obligations.TrapEntry := by
  unfold Obligations.TrapEntry
  intro s tk t cause val pc word1 defer hthr _
  refine ⟨fun hinh hvec => ?_, fun hcannot hholds hregion => ?_⟩
  · have hcan : t.canTrap = true := by
      rw [Thread.canTrap, Thread.inh, hinh]
      exact bne_iff_ne.2 hvec
    rw [State.takeTrap_enters hthr hcan, Thread.enterTrap, trapStatus_eq]
    rfl
  · refine State.takeTrap_stops hthr ?_ hholds hregion cause val pc word1 defer
    rcases hcannot with hinh | hvec
    · simp [Thread.canTrap, Thread.inh, hinh]
    · simp [Thread.canTrap, hvec]

/-- Settles O8: ERET is the return of R230 in a handler, and illegal outside one. -/
theorem trapReturn : Obligations.TrapReturn := by
  unfold Obligations.TrapReturn
  intro s t h
  refine ⟨fun hinh => ?_, fun hinh => ?_⟩
  · refine Goes.word (pc := some t.trappc) (u := t.trapReturn) h rfl (by simp) ?_ h.flumes h.pend rfl
    simp only [Thread.inh, hinh, State.modThr_some s _ t _ h.thread, Bool.not_true, Bool.false_eq_true, if_false]
  · exact Traps.word h rfl (by simp) (by rw [Thread.inh, hinh]; rfl)
end

section
/-!
SUPPORT. The return store and its spill area in a pool that the core serves (R226, R317, R318).
-/

namespace Sys2Proof.Machine

variable {s : State} {t : Thread} {ck off : Nat} {ra target : Word}

/-- No register of the spill area is misaligned where each is a multiple of 8. -/
theorem Thread.retMisaligned_none (hbase : t.retbase.extractLsb' 0 3 = 0) (hlimit : t.retlimit.extractLsb' 0 3 = 0)
    (hsp : t.retsp.extractLsb' 0 3 = 0) : t.retMisaligned = none := by
  simp [Thread.retMisaligned, (field_eq_zero_iff _ _ _).2 hbase, (field_eq_zero_iff _ _ _).2 hlimit, (field_eq_zero_iff _ _ _).2 hsp]

/-- A store without release to a pool that the core serves is made at once, where no job and no pending result holds it back. -/
theorem State.store_local {tk n align : Nat} {ea : Word} (hthr : s.thr tk = some t) (hpend : t.pend = [])
    (htarget : s.target tk ea n align true true = .ok (.pool ck off)) (hlocal : s.isLocal ck = true)
    (hfree : s.jobHolds tk (.pool ck off) n true = false) (v : Vec) :
    s.store tk ea n align v false = .done (s.poolWrite ck off (leBytes n v.toNat)) none := by
  have hpieces := State.storePieces_local (tk := tk) hlocal off n v
  simp [State.store, hthr, htarget, Target.pieces, State.planAll, hfree, State.storeFull, hlocal, Thread.readHolds, hpend, hpieces]

/-- Eight bytes of a pool without poison that no job and no remote store holds back are read at once. -/
theorem State.readNow_local {tk : Nat} {ea : Word} (hthr : s.thr tk = some t) (htarget : s.target tk ea 8 8 true true = .ok (.pool ck off))
    (hfree : s.jobHolds tk (.pool ck off) 8 false = false) (hremote : t.remoteHolds (.pool ck off) = false)
    (hclean : s.poolPoison ck off 8 = none) : s.readNow tk ea = .ok (s, word (s.poolRead ck off 8)) := by
  simp [State.readNow, hthr, htarget, State.planAll, hfree, hremote, Thread.atomicHolds, hclean]

/-- The unit after a call that issues alone. -/
theorem State.returnAddress_alone (h : Alone s t) : s.returnAddress = s.unit.addr + 4 := by
  simp [State.returnAddress, UnitCtx.words, h.lone, word]

section push
variable (hthr : s.thr s.unit.tk = some t)
include hthr

/-- A store with room takes the new entry. -/
theorem State.pushReturn_room (hroom : t.retStore.length < 8) :
    s.pushReturn ra target = .done (s.setThr s.unit.tk { t with retStore := t.retStore ++ [ra] }) (some target) := by
  cases hstore : t.retStore with
  | nil => simp [State.pushReturn, hthr, hstore]
  | cons first rest =>
    rw [hstore] at hroom
    simp only [State.pushReturn, hthr, hstore, hroom, if_true]

variable {first : Word} {rest : List Word} (hstore : t.retStore = first :: rest) (hfull : rest.length = 7)
  (haligned : t.retMisaligned = none)
include hstore hfull haligned

/-- A full store whose spill area is full, too. -/
theorem State.pushReturn_limit (hlimit : t.retlimit.toNat < t.retsp.toNat + 8) :
    s.pushReturn ra target = .trap Cause.stackLimit 0 := by
  simp [State.pushReturn, hthr, hstore, hfull, haligned, hlimit]

/-- A full store spills its oldest entry at RETSP. -/
theorem State.pushReturn_spills (hlimit : t.retsp.toNat + 8 ≤ t.retlimit.toNat) (hpend : t.pend = [])
    (htarget : s.target s.unit.tk t.retsp 8 8 true true = .ok (.pool ck off)) (hlocal : s.isLocal ck = true)
    (hfree : s.jobHolds s.unit.tk (.pool ck off) 8 true = false) :
    s.pushReturn ra target = .done ((s.poolWrite ck off (leBytes 8 first.toNat)).setThr s.unit.tk
      { t with retStore := rest ++ [ra], retsp := t.retsp + 8 }) (some target) := by
  have hspill := State.store_local hthr hpend htarget hlocal hfree (first.setWidth 512)
  have hfirst : (first.setWidth 512).toNat = first.toNat := BitVec.toNat_setWidth_of_le (by decide)
  have hthr' : (s.poolWrite ck off (leBytes 8 first.toNat)).thr s.unit.tk = some t := hthr
  rw [hfirst] at hspill
  simp [State.pushReturn, hthr, hstore, hfull, haligned, Nat.not_lt.2 hlimit, Thread.acquiring, hpend, hspill,
    State.modThr_some _ _ t _ hthr']

end push

section pop
variable (hthr : s.thr s.unit.tk = some t)
include hthr

/-- A return takes the newest entry. -/
theorem State.popReturn_newest {front : List Word} {last : Word} (hstore : t.retStore = front ++ [last]) :
    s.popReturn = .done (s.setThr s.unit.tk { t with retStore := front }) (some last) := by
  simp [State.popReturn, hthr, hstore]

variable (hempty : t.retStore = []) (haligned : t.retMisaligned = none)
include hempty haligned

/-- With the store and the spill area empty there is nothing to return to. -/
theorem State.popReturn_empty (hbase : t.retsp.toNat ≤ t.retbase.toNat) : s.popReturn = .trap Cause.retEmpty 0 := by
  simp [State.popReturn, hthr, hempty, haligned, hbase]

/-- An empty store is refilled from the spill area below RETSP. -/
theorem State.popReturn_refills (hbase : t.retbase.toNat < t.retsp.toNat) (hpend : t.pend = [])
    (htarget : s.target s.unit.tk (t.retsp - 8) 8 8 true true = .ok (.pool ck off))
    (hfree : s.jobHolds s.unit.tk (.pool ck off) 8 false = false) (hremote : t.remoteHolds (.pool ck off) = false)
    (hclean : s.poolPoison ck off 8 = none) :
    s.popReturn = .done (s.setThr s.unit.tk { t with retsp := t.retsp - 8 }) (some (word (s.poolRead ck off 8))) := by
  have hacquiring : t.acquiring = false := by simp [Thread.acquiring, hpend]
  simp only [State.popReturn, hthr, hempty, haligned, List.getLast?_nil, Nat.not_le.2 hbase, hacquiring,
    State.readNow_local hthr htarget hfree hremote hclean, State.modThr_some s _ t _ hthr, Bool.false_eq_true, if_false]

end pop

end Sys2Proof.Machine
end

section
/-!
CERTIFICATE. Calls and returns.
-/

open Sys2Proof Sys2Proof.Machine

/-- Settles O5: a call is its push, a return its pop, each split on the store and the spill area. -/
theorem callAndReturnResults : Obligations.CallAndReturnResults := by
  unfold Obligations.CallAndReturnResults
  intro s t h p d a x back there aligned
  have hcall : exec (.call p d) s = issueC {} (fun _ s => s.pushReturn s.returnAddress (s.target11 d)) s := rfl
  have hback : s.returnAddress = back := State.returnAddress_alone h
  have hcallr (hx : x.extractLsb' 0 2 = 0) (s : State) (u : Thread) (hu : u.rg a.toNat = x) :
      (if field (u.rg a.toNat) 0 2 ≠ 0 then CRes.trap Cause.align (u.rg a.toNat) else s.pushReturn s.returnAddress (u.rg a.toNat)) =
        s.pushReturn s.returnAddress x := by
    rw [hu, if_neg (not_not.2 ((field_eq_zero_iff x 0 2).2 hx))]
  refine ⟨fun hroom => ?_, fun hx => ?_, fun first rest hstore hfull haligned => ?_, fun front last hstore => ?_, fun hempty haligned => ?_⟩
  · have hpush (target : Word) := State.pushReturn_room (ra := back) (target := target) h.thread hroom
    refine ⟨Goes.word (pc := some there) h rfl (by simp) ?_ h.flumes h.pend rfl, fun hx =>
      Goes.word (pc := some x) h rfl (by simp) ?_ h.flumes h.pend rfl⟩
    · rw [hback]; exact hpush there
    · rw [hcallr hx s t rfl, hback]; exact hpush x
  · exact Traps.word h rfl (by simp) (if_pos fun h0 => hx ((field_eq_zero_iff x 0 2).1 h0))
  · obtain ⟨hbase, hlimit, hsp⟩ := haligned
    have hmis := Thread.retMisaligned_none hbase hlimit hsp
    refine ⟨fun hover => ?_, fun hfits ck off htarget hlocal hfree => ?_⟩
    · have hpush (target : Word) := State.pushReturn_limit (ra := back) (target := target) h.thread hstore hfull hmis hover
      refine ⟨Traps.word h rfl (by simp) ?_, fun hx => Traps.word h rfl (by simp) ?_⟩
      · rw [hback]; exact hpush _
      · rw [hcallr hx s t rfl, hback]; exact hpush x
    · have hpush := State.pushReturn_spills (ra := back) (target := there) h.thread hstore hfull hmis hfits h.pend htarget hlocal hfree
      rw [← hback] at hpush
      have hleft := issueC_leaves h hcall (by simp) hpush (State.thr_setThr _ _ _) h.flumes h.pend rfl rfl rfl
      rw [hleft, State.setThr_setThr, hback]
      rfl
  · exact Goes.word (pc := some last) h rfl (by simp) (State.popReturn_newest h.thread hstore) h.flumes h.pend rfl
  · obtain ⟨hbase, hlimit, hsp⟩ := haligned
    have hmis := Thread.retMisaligned_none hbase hlimit hsp
    exact ⟨fun hle => Traps.word h rfl (by simp) (State.popReturn_empty h.thread hempty hmis hle),
      fun hlt ck off htarget _ hfree hremote hclean => Goes.word (pc := some _) h rfl (by simp)
        (State.popReturn_refills h.thread hempty hmis hlt h.pend htarget hfree hremote hclean) h.flumes h.pend rfl⟩
end

section
/-!
SUPPORT. Pairs: the A word is evaluated before the C word, and both take effect together or neither does (R195, R286, R287).
-/

namespace Sys2Proof.Machine

variable {s : State} {t : Thread}

/-- The A-class words that are no F64V words have majors below 0x38. -/
theorem isF64vWord_of_major_lt {w : Nat} (h : bits w 24 6 < 0x38) : isF64vWord w = false := by
  have hlow : ¬ 0x38 ≤ bits w 24 6 := by omega
  simp [isF64vWord, hlow]

theorem isF64vWord_add {d a b : BitVec 5} {w : Nat} (h : encode (.add d a b) = some w) : isF64vWord w = false := by
  have hw : 0x40000000 + d.toNat * 2 ^ 19 + a.toNat * 2 ^ 14 + b.toNat * 2 ^ 9 = w := Option.some.inj h
  refine isF64vWord_of_major_lt ?_
  simp only [bits]
  omega

theorem isF64vWord_fadd {d a b : BitVec 5} {w : Nat} (h : encode (.fadd d a b) = some w) : isF64vWord w = false := by
  have hw : 0x50000000 + d.toNat * 2 ^ 19 + a.toNat * 2 ^ 14 + b.toNat * 2 ^ 9 = w := Option.some.inj h
  refine isF64vWord_of_major_lt ?_
  simp only [bits]
  omega

/-- What an A-class word's effect is where its body raises no trap of its own, and an FP exception whose trap is enabled. -/
theorem State.evalA_fpTraps (tk : Nat) (n : Names) (sh : List Nat) (f64v : Bool) (body : Thread → AOut) {v : Word}
    (hp : t.portcfg = 0) (hf : t.flumes = []) (ht : (body t).trap = none) (hx : fpTrap t.fpcsr (body t).lanes = some v) :
    s.evalA tk t n sh f64v body = { n := n, f64v := f64v, trap := some (Cause.fp, v) } := by
  simp [State.evalA, Thread.portTrap_plain n sh hp hf, State.portDestTrap_plain tk n.gd hp, State.portWait_plain tk n sh hp hf,
    Thread.flumePoison_plain n sh hf, State.view_plain tk n sh hp hf, ht, hx]

/-- Without ports only the C word of a unit may commit a message. -/
theorem Thread.messages_plain {c : CSpec} (hp : t.portcfg = 0) (hsends : c.sends = false) (a : AEffect) : t.messages c a = 0 := by
  simp [Thread.messages, Thread.portsOf_off hp, bitOf, hsends]

/-- The unit of a pair whose C word `c` is about to take effect with the A word's effect `e`. -/
def UnitCtx.withA (u : UnitCtx) (c : Instr) (e : AEffect) : UnitCtx := { u with phase := .cOfPair, cReads := vReads c, a := e }

/-- A pair of two words that decode: the C word takes effect with what the A word gives. -/
theorem State.issuePair_words {c a : Instr} {w0 w1 : Nat} {n : Names} {body : Thread → AOut} {e : AEffect}
    (hthr : s.thr s.unit.tk = some t) (hc : decodeWord w0 = some c) (ha : decodeWord w1 = some a) (hv : isF64vWord w1 = false)
    (hpair : standsAlone c = false) (hexec : ∀ u : State, exec a u = issueA n false body u)
    (he : ∀ u : State, u.evalA s.unit.tk t n (vReads c) false body = e) :
    s.issuePair s.unit.tk t w0 w1 = exec c { s with unit := s.unit.withA c e } := by
  have hthr' (u : UnitCtx) : State.thr { s with unit := u } s.unit.tk = some t := hthr
  simp only [State.issuePair, decodeFirst, hc, decodeOn, hv, ha, hpair, hexec, issueA, hthr', he, Bool.false_eq_true, false_and, if_false]
  rfl

section cword
variable (hthr : s.thr s.unit.tk = some t) (hphase : s.unit.phase = .cOfPair) (hpend : t.pend = []) (hports : t.portcfg = 0)
  (hflumes : t.flumes = [])
include hthr hphase hpend

/-- A pair whose words name one destination register raises BUNDLE with both words. -/
theorem issueC_pair_clash {c : CSpec} {body : Thread → State → CRes} (hclash : (c.names t).clash s.unit.a.n = true) :
    issueC c body s = .next (s.takeTrap s.unit.tk Cause.bundle s.unit.bundleVal s.unit.addr false false) := by
  simp [issueC, hthr, hphase, State.finishUnit, UnitCtx.words, Thread.holdBack_none _ _ _ hpend, hclash, State.unitTrap, hpend]

include hports hflumes

/-- A C word without registers beside an A word without F64V comes to the A word's own checks. -/
theorem issueC_pair_plain {s' : State} {pc : Option Word} {body : Thread → State → CRes} (hv : s.unit.a.f64v = false)
    (hbody : body t s = .done s' pc) : issueC {} body s = .next (s.finishA s' s.unit.tk t {} s.unit.a pc) := by
  have hclash : (CSpec.names {} t).clash s.unit.a.n = false := by simp [CSpec.names, Names.clash]
  simp [issueC, hthr, hphase, State.finishUnit, UnitCtx.words, Thread.holdBack_none _ _ _ hpend, hclash, hv, Thread.messages_plain hports,
    Thread.portTrap_plain _ [] hports hflumes, State.portDestTrap_plain s.unit.tk _ hports, State.portWait_plain s.unit.tk _ [] hports hflumes,
    Thread.flumePoison_plain _ [] hflumes, State.view_plain s.unit.tk _ [] hports hflumes, hbody]

/-- An A word that traps leaves the pair without effect; TRAPSTATUS.WORD is set. -/
theorem issueC_pair_traps {s' : State} {pc : Option Word} {cause : Nat} {val : Word} {body : Thread → State → CRes}
    (hv : s.unit.a.f64v = false) (htrap : s.unit.a.trap = some (cause, val)) (hbody : body t s = .done s' pc) :
    issueC {} body s = .next (s.takeTrap s.unit.tk cause val s.unit.addr true false) := by
  rw [issueC_pair_plain hthr hphase hpend hports hflumes hv hbody]
  simp [State.finishA, htrap, UnitCtx.words, hphase, State.unitTrap, hthr, hpend]

/-- A C word that only sets the PC, beside an A word that writes a g register: both take effect. -/
theorem issueC_pair_goes {n : Names} {r : Nat} {x pc : Word} {body : Thread → State → CRes} (ha : s.unit.a = { n := n, gw := [(r, x)] })
    (hbody : body t s = .done s (some pc)) :
    issueC {} body s = .next (s.setThr s.unit.tk (finished s pc (t.wg r x))) := by
  rw [issueC_pair_plain hthr hphase hpend hports hflumes (by rw [ha]) hbody]
  have hretire := State.retire_plain s s.unit.tk t t {} s.unit.a 2 (some pc) hthr hports hflumes hflumes (by rw [ha]) hpend
    (.inl (State.openedPrecise_none s _ t t hthr hpend))
  have hdone : s.finishA s s.unit.tk t {} s.unit.a (some pc) = s.retire s.unit.tk t {} s.unit.a 2 (some pc) := by
    simp [State.finishA, ha, UnitCtx.words, hphase]
  have hkept : (t.wg r x).pend = [] ∧ (t.wg r x).lastIssue = t.lastIssue := ⟨(Thread.wg_pend r x).trans hpend, Thread.wg_lastIssue r x⟩
  rw [hdone, hretire]
  simp only [ha, List.foldl_cons, List.foldl_nil]
  generalize t.wg r x = u at hkept ⊢
  cases u
  obtain ⟨rfl, rfl⟩ := hkept
  simp [finished, fpRaise, ageResults_nil, ite_ready]

end cword

end Sys2Proof.Machine
end

section
/-!
CERTIFICATE. Pairs.
-/

open Sys2Proof Sys2Proof.Machine Sys2Proof.Laws

/-- Settles O15: the C word, JMP or SRR, comes to its checks with the A word's effect, which decides. -/
theorem pairResults : Obligations.PairResults := by
  unfold Obligations.PairResults
  intro s t hthr hphase hpend hports hflumes d a b o w0 w1 tk x y trap
  have hadd {sh : List Nat} (u : State) : u.evalA tk t { gs := [a.toNat, b.toNat], gd := [d.toNat] } sh false
      (fun t => { gw := [(d.toNat, t.rg a.toNat + t.rg b.toNat)] }) =
        { n := { gs := [a.toNat, b.toNat], gd := [d.toNat] }, gw := [(d.toNat, t.rg a.toNat + t.rg b.toNat)] } :=
    State.evalA_plain _ _ _ _ _ hports hflumes rfl (by simp [fpTrap, laneOr])
  refine ⟨fun h0 h1 => ?_, fun h0 h1 => ?_, fun h0 h1 hd => ?_⟩
  · let e : AEffect := { n := { gs := [a.toNat, b.toNat], gd := [d.toNat] }, gw := [(d.toNat, t.rg a.toNat + t.rg b.toNat)] }
    have hpair := State.issuePair_words (e := e) hthr (decodeWord_encode h0 rfl) (decodeWord_encode h1 rfl) (isF64vWord_add h1) rfl (fun _ => rfl) hadd
    exact ⟨s.unit.withA (.jmp true o) e, hpair.trans (issueC_pair_goes (s := { s with unit := s.unit.withA _ e }) hthr rfl hpend hports hflumes rfl rfl)⟩
  · intro f hf
    let e : AEffect := { n := { gs := [a.toNat, b.toNat], gd := [d.toNat] }, trap := some (Cause.fp, f.setWidth 64) }
    have hx := fpTrap_eq (fpcsr := t.fpcsr) (l := [(0, (fmtF32.add x y).2)]) (k := 0) (by decide)
      ⟨_, List.mem_singleton_self _, rfl, hf⟩ fun _ _ _ => Nat.zero_le _
    have hval : (laneOr [(0, (fmtF32.add x y).2)] &&& fpTen t.fpcsr).setWidth 64 + word (256 * 0) = f.setWidth 64 := by
      simp [laneOr, word, f, fpTen]
    have hfadd (u : State) := State.evalA_fpTraps (s := u) tk { gs := [a.toNat, b.toNat], gd := [d.toNat] } (vReads (.jmp true o)) false
      (fun t => f32Out d (fmtF32.add (f32Of (t.rg a.toNat)) (f32Of (t.rg b.toNat)))) hports hflumes rfl (hx.trans (congrArg some hval))
    have hpair := State.issuePair_words (e := e) hthr (decodeWord_encode h0 rfl) (decodeWord_encode h1 rfl) (isF64vWord_fadd h1) rfl (fun _ => rfl) hfadd
    exact ⟨s.unit.withA (.jmp true o) e, hpair.trans (issueC_pair_traps (s := { s with unit := s.unit.withA _ e }) hthr rfl hpend hports hflumes rfl rfl rfl)⟩
  · let e : AEffect := { n := { gs := [a.toNat, b.toNat], gd := [d.toNat] }, gw := [(d.toNat, t.rg a.toNat + t.rg b.toNat)] }
    have hpair := State.issuePair_words (e := e) hthr (decodeWord_encode h0 rfl) (decodeWord_encode h1 rfl) (isF64vWord_add h1) rfl (fun _ => rfl) hadd
    have hclash : (CSpec.names { n := { gd := [d.toNat] } } t).clash e.n = true := by
      have hne : d.toNat ≠ 0 := fun h => hd (BitVec.eq_of_toNat_eq h)
      simp [Names.clash, CSpec.names, e, hne]
    exact ⟨s.unit.withA (.srr true d 0x003) e, hpair.trans (issueC_pair_clash (s := { s with unit := s.unit.withA _ e }) hthr rfl hpend hclash)⟩
end

section
/-!
SUPPORT. A unit of one word that issues past one pending result, or waits for it (R135, R196, R198).
-/

namespace Sys2Proof.Machine

variable {s : State} {t : Thread} {q : Pending}

/-- The registers of a word that a pending result will write, for a word that names g registers alone. -/
def Pending.names (q : Pending) (gs gd : List Nat) : Bool :=
  q.dsts.any fun
    | .g r => r != 0 && (gs.contains r || gd.contains r)
    | _ => false

/-- A pending result without a window, or one that the word names, holds a plain word back; no other does (R196). -/
theorem Thread.holdBack_one (hpend : t.pend = [q]) (hports : t.portcfg = 0) (gs gd : List Nat) :
    t.holdBack {} { gs := gs, gd := gd } 1 = if q.window = 0 ∨ q.names gs gd = true then some q else none := by
  have hhits : (q.dsts.any fun d => d.hits (CSpec.names {} t) || d.hits { gs := gs, gd := gd }) = q.names gs gd := by
    refine congrArg (List.any q.dsts) (funext fun d => ?_)
    cases d <;> simp [Dst.hits, CSpec.names]
  simp only [Thread.holdBack, hpend, List.find?_cons, List.find?_nil, hhits, Thread.portsOf_off hports, Nat.lt_one_iff]
  by_cases h : q.window = 0 ∨ q.names gs gd = true
  · have hb : (decide (q.window = 0) || q.names gs gd) = true := by simpa using h
    simp [h, hb]
  · obtain ⟨hw, hn⟩ := not_or.1 h
    simp [hw, hn]

theorem Pending.waitState_ne_ready (q : Pending) : q.waitState ≠ .ready := by
  cases h : q.kind <;> simp [Pending.waitState, h]

/-- A thread waits for a result that has not arrived in the state of its kind. -/
theorem State.awaitResults_waits {tk : Nat} (hthr : s.thr tk = some t) (hpend : t.pend = [q]) (hopen : q.complete = false) :
    s.awaitResults tk t q = s.setThr tk { t with st := q.waitState, park := none } := by
  simp only [State.awaitResults, hpend, List.find?_cons, hopen, Bool.not_false, Bool.false_eq_true, if_false, State.waitUnit, q.waitState_ne_ready,
    State.modThr_some s tk t _ hthr]

/-- A poisoned result that has arrived is taken as a deferred trap; its register holds an unpredictable value (R198). -/
theorem State.awaitResults_poison {tk g n : Nat} {v : Word} (hthr : s.thr tk = some t) (hpend : t.pend = [q]) (hundo : q.undo = none)
    (hports : t.portcfg = 0) (hall : q.complete = true) (hpoison : q.poison = some v) (hfault : q.fault = none) (hfin : q.fin = .gz g n) :
    s.awaitResults tk t q = (({ s with free := s.free + 1 } : State).setThr tk { t.wg g (Config.freeWord s.free) with pend := [] }).takeTrap
      tk Cause.poison v t.pc false true := by
  have hbad : q.bad = true := by simp [Pending.bad, hpoison]
  have hfree : s.freeDst tk q = ({ s with free := s.free + 1 } : State).setThr tk (t.wg g (Config.freeWord s.free)) := by
    simp only [State.freeDst, hfin, Thread.portOf_off hports, Option.isSome_none, Bool.false_eq_true, if_false, State.modThr_some s tk t _ hthr]
    rfl
  have hkept : (t.wg g (Config.freeWord s.free)).pend.filter (fun p => !p.bad) = [] := by simp [hpend, hbad]
  have hdefer : s.deferTrap tk q = (({ s with free := s.free + 1 } : State).setThr tk { t.wg g (Config.freeWord s.free) with pend := [] }).takeTrap
      tk Cause.poison v t.pc false true := by
    simp only [State.deferTrap, hthr, hpend, List.filter_cons, List.filter_nil, hbad, hfault, Option.isNone_none, Bool.or_true, if_true, foldS,
      List.foldl_cons, List.foldl_nil, hfree, State.modThr_some _ tk _ _ (State.thr_setThr _ _ _), State.setThr_setThr, hkept,
      State.releaseHeld, hundo, hpoison, Option.getD_some]
  simp [State.awaitResults, hpend, hall, hbad, hdefer]

/-- A word that writes one g register retires past a pending result, whose window shrinks. -/
theorem State.retire_past {tk r : Nat} {x : Word} {n : Names} (hthr : s.thr tk = some t) (hpend : t.pend = [q]) (hundo : q.undo = none)
    (hports : t.portcfg = 0) (hflumes : t.flumes = []) (hst : t.st = .ready) (hwindow : 1 ≤ q.window) :
    s.retire tk t {} { n := n, gw := [(r, x)] } 1 none = s.setThr tk { finished s (s.unit.addr + 4) (t.wg r x) with
      pend := [{ q with window := q.window - 1, later := true }]
      st := if q.window = 1 then q.waitState else .ready } := by
  have hopened : s.openedPrecise tk t = none := by simp [State.openedPrecise, hthr, hpend]
  have hrelease : s.releaseHeld tk q = s := by simp [State.releaseHeld, hundo]
  have hpop : s.modThr tk (fun u => (u.popFlumes []).popFlumes n.vs) = s :=
    State.modThr_id s tk _ fun u hu => by
      cases hthr.symm.trans hu
      rw [Thread.popFlumes_none _ hflumes, Thread.popFlumes_none _ hflumes]
  have hnow : q.window - 1 = 0 ↔ q.window = 1 := by omega
  have hready : (t.wg r x).st = .ready := (Thread.wg_st r x).trans hst
  have hkept : (t.wg r x).pend = [q] := (Thread.wg_pend r x).trans hpend
  have hage : ageResults [q] 1 [q] = [{ q with window := q.window - 1, later := true }] := by simp [ageResults]
  have hwait : ({ q with window := q.window - 1, later := true } : Pending).waitState = q.waitState := rfl
  have hheld : s.heldUnit tk t {} { n := n, gw := [(r, x)] } = none := by simp [State.heldUnit, hopened]
  have hundo' (p : Pending) : AEffect.keepUndo { n := n, gw := [(r, x)] } t.fpcsr none p = p := rfl
  unfold State.retire
  simp only [hpend, foldS, List.foldl_cons, List.foldl_nil, hrelease, hheld, Thread.portsOf_off hports, Thread.flumesOf_none hflumes, hpop,
    AEffect.vwNow, AEffect.sendsNow, State.modThr_some s tk t _ hthr, State.modThr_some _ tk _ _ (State.thr_setThr _ _ _), State.setThr_setThr,
    hready, hkept, hage, hundo', List.map_cons, List.map_nil, Thread.wg_lastIssue, if_true, waitOf_single, hnow, hwait, Option.getD_none,
    finished, fpRaise, State.setThr_unit, State.setThr_clu]
  simp [word]

end Sys2Proof.Machine
end

section
/-!
CERTIFICATE. Issue past a pending result.
-/

open Sys2Proof Sys2Proof.Machine

/-- Settles O16: the result holds ADD back or not; held back, the thread waits for it, or takes the trap of one that has arrived. -/
theorem windowResults : Obligations.WindowResults := by
  unfold Obligations.WindowResults
  intro s t q hthr hphase hpend hundo hports hflumes hst d a b tk names
  let n : Names := { gs := [a.toNat, b.toNat], gd := [d.toNat] }
  have hadd : s.evalA tk t n [] false (fun t => { gw := [(d.toNat, t.rg a.toNat + t.rg b.toNat)] }) =
      { n := n, gw := [(d.toNat, t.rg a.toNat + t.rg b.toNat)] } :=
    State.evalA_plain _ _ _ _ _ hports hflumes rfl (by simp [fpTrap, laneOr])
  have hnames : q.names n.gs n.gd = names := by
    refine congrArg (List.any q.dsts) (funext fun d => ?_)
    cases d <;> simp [n, Bool.or_comm]
  have hback : t.holdBack {} n 1 = if q.window = 0 ∨ names = true then some q else none :=
    hnames ▸ Thread.holdBack_one hpend hports n.gs n.gd
  have hexec : exec (.add d a b) s = .next (s.finishUnit tk t {} { n := n, gw := [(d.toNat, t.rg a.toNat + t.rg b.toNat)] } fun _ s => .done s none) := by
    show issueA n false (fun t => { gw := [(d.toNat, t.rg a.toNat + t.rg b.toNat)] }) s = _
    rw [← hadd]
    simp only [issueA, hphase]
    rw [show s.thr s.unit.tk = some t from hthr]
  have hheld (h : q.window = 0 ∨ names = true) : exec (.add d a b) s = .next (s.awaitResults tk t q) := by
    rw [hexec, State.finishUnit, UnitCtx.words, if_pos hphase, hback, if_pos h]
  refine ⟨fun hwindow hfree => ?_, fun hblocks hopen => ?_, fun g m v hblocks hall hpoison hfault hfin => ?_⟩
  · have hnone : ¬ (q.window = 0 ∨ names = true) := by simp [hfree]; omega
    rw [hexec, ← State.retire_past (n := n) hthr hpend hundo hports hflumes hst hwindow]
    rw [if_neg hnone] at hback
    simp [State.finishUnit, UnitCtx.words, hphase, hback, Thread.messages_plain hports, Thread.portTrap_plain _ [] hports hflumes, State.portDestTrap_plain tk _ hports,
      State.portWait_plain tk _ [] hports hflumes, Thread.flumePoison_plain _ [] hflumes, State.finishA]
    rfl
  · exact (hheld hblocks).trans (congrArg _ (State.awaitResults_waits hthr hpend hopen))
  · exact (hheld hblocks).trans (congrArg _ (State.awaitResults_poison hthr hpend hundo hports hall hpoison hfault hfin))
end

section
/-!
SUPPORT. The geometry registers: their fields at placement, and what saves, restores and moves keep of them (R138, R139, R145, R201).
-/

namespace Sys2Proof.Machine

open Laws (digits width bits_at digits_lt)

variable {s : State} {t : Thread} {tk : Nat}

/-- A field of the word that a list of fields makes up. -/
theorem field_word_digits {l : List (Nat × Nat)} {x lo n : Nat} (hx : x = digits l) (hl : width l = 64) (i j : Nat)
    (hlo : width (l.take i) = lo) (hn : width ((l.drop i).take j) = n) : field (word x) lo n = digits ((l.drop i).take j) := by
  have hlt : x < 2 ^ 64 := hx ▸ hl ▸ digits_lt l
  rw [field, word, BitVec.toNat_ofNat, Nat.mod_eq_of_lt hlt]
  exact bits_at hx i j hlo hn

/-- A list of one field is the field's value, where it fits. -/
theorem digits_single {v n : Nat} (h : v < 2 ^ n) : digits [(v, n)] = v := by simp [digits, Nat.mod_eq_of_lt h]

/-- A word of two fields, with zeros above. -/
theorem word_fields_two {x y a b c : Nat} (h64 : a + b + c = 64) (hx : x < 2 ^ a) (hy : y < 2 ^ b) :
    field (word (x + 2 ^ a * y)) 0 a = x ∧ field (word (x + 2 ^ a * y)) a b = y ∧ field (word (x + 2 ^ a * y)) (a + b) c = 0 := by
  have hd : x + 2 ^ a * y = digits [(x, a), (y, b), (0, c)] := by simp [digits, Nat.mod_eq_of_lt hx, Nat.mod_eq_of_lt hy]
  have hw : width [(x, a), (y, b), (0, c)] = 64 := by simp only [width]; omega
  exact ⟨(field_word_digits hd hw 0 1 rfl rfl).trans (digits_single hx), (field_word_digits hd hw 1 1 rfl rfl).trans (digits_single hy),
    (field_word_digits hd hw 2 1 rfl rfl).trans (digits_single (by positivity))⟩

/-- A word of three fields of 16 bits and a fourth one, with zeros above. -/
theorem word_fields_four {x y z v k m : Nat} (h16 : k + m = 16) (hx : x < 2 ^ 16) (hy : y < 2 ^ 16) (hz : z < 2 ^ 16) (hv : v < 2 ^ k) :
    let w := word (x + 2 ^ 16 * y + 2 ^ 32 * z + 2 ^ 48 * v)
    field w 0 16 = x ∧ field w 16 16 = y ∧ field w 32 16 = z ∧ field w 48 k = v ∧ field w (48 + k) m = 0 := by
  have hd : x + 2 ^ 16 * y + 2 ^ 32 * z + 2 ^ 48 * v = digits [(x, 16), (y, 16), (z, 16), (v, k), (0, m)] := by
    simp only [digits, Nat.mod_eq_of_lt hx, Nat.mod_eq_of_lt hy, Nat.mod_eq_of_lt hz, Nat.mod_eq_of_lt hv, Nat.zero_mod]
    omega
  have hw : width [(x, 16), (y, 16), (z, 16), (v, k), (0, m)] = 64 := by simp only [width]; omega
  exact ⟨(field_word_digits hd hw 0 1 rfl rfl).trans (digits_single hx), (field_word_digits hd hw 1 1 rfl rfl).trans (digits_single hy),
    (field_word_digits hd hw 2 1 rfl rfl).trans (digits_single hz), (field_word_digits hd hw 3 1 rfl rfl).trans (digits_single hv),
    (field_word_digits hd hw 4 1 (by simp [width]; omega) rfl).trans (digits_single (by positivity))⟩

/-- GEOM0 to GEOM3. -/
def Thread.geom (t : Thread) : Word × Word × Word × Word := (t.geom0, t.geom1, t.geom2, t.geom3)

theorem Thread.wg_geom (t : Thread) (r : Nat) (x : Word) : (t.wg r x).geom = t.geom := by unfold Thread.wg; split <;> rfl
theorem Thread.wm_geom (t : Thread) (r : Nat) (x : Word) : (t.wm r x).geom = t.geom := by unfold Thread.wm; split <;> rfl

/-- A thread's geometry registers, if the thread exists. -/
def State.geomOf (s : State) (tk : Nat) : Option (Word × Word × Word × Word) := (s.thr tk).map Thread.geom

theorem State.geomOf_modThr {f : Thread → Thread} (hf : ∀ t, (f t).geom = t.geom) : (s.modThr tk f).geomOf tk = s.geomOf tk := by
  simp [State.geomOf, Function.comp_def, hf]

theorem State.geomOf_congr {s' : State} (h : s'.threads = s.threads) : s'.geomOf tk = s.geomOf tk := by
  simp [State.geomOf, State.thr, h]

/-- Firings made pending change what is under way alone. -/
theorem State.sluiceCheck_keepsThreads (ck : Nat) : KeepsThreads s (s.sluiceCheck ck) :=
  .foldS (fun _ _ => .ite (State.laterOnce_keepsThreads _) .rfl) _

/-- A pulse changes no thread. -/
theorem State.pulse_threads (ck src sel : Nat) : (s.pulse ck src sel).threads = s.threads :=
  (State.sluiceCheck_keepsThreads ck).threads

theorem foldS_keeps {α β : Type} {f : α → State → State} {p : State → β} (hf : ∀ a u, p (f a u) = p u) (l : List α) (s : State) :
    p (foldS f l s) = p s := by
  induction l generalizing s with
  | nil => rfl
  | cons a l ih => exact (ih (f a s)).trans (hf a s)

/-- The queued entries of a flume leave every thread as it is. -/
theorem drain_threads (f : Flume) (l : List Vec) (acc : State × Nat) :
    (foldS (fun (x : Vec) (acc : State × Nat) => (acc.1.poolWrite (ckOfTk tk) (f.addr acc.2) (bytesOfVec x), acc.2 + 1)) l acc).1.threads =
      acc.1.threads := by
  induction l generalizing acc with
  | nil => rfl
  | cons x l ih => exact ih _

theorem State.geomOf_drainQuiet (k : Nat) : (s.drainQuiet tk k).geomOf tk = s.geomOf tk := by
  unfold State.drainQuiet
  split
  · rfl
  · split
    · rfl
    · split
      · rfl
      · refine (State.geomOf_modThr fun _ => ?_).trans (State.geomOf_congr (drain_threads _ _ _))
        rfl

theorem State.geomOf_drainFlume (k : Nat) : (s.drainFlume tk k).geomOf tk = s.geomOf tk := by
  unfold State.drainFlume
  dsimp only
  split
  · exact (State.geomOf_congr (State.pulse_threads _ _ _)).trans (State.geomOf_drainQuiet k)
  · exact State.geomOf_drainQuiet k

theorem State.geomOf_saveEffects : (s.saveEffects tk).geomOf tk = s.geomOf tk := by
  refine (State.geomOf_modThr fun _ => ?_).trans
    (foldS_keeps (f := fun k (u : State) => u.drainFlume tk k) (p := fun u => u.geomOf tk) (fun k _ => State.geomOf_drainFlume k) _ s)
  rfl

/-- A full save keeps the geometry registers. -/
theorem State.geomOf_saveThread : (s.saveThread tk).geomOf tk = s.geomOf tk := by
  unfold State.saveThread
  split
  · rfl
  · refine (State.geomOf_modThr fun _ => ?_).trans ((State.geomOf_congr ?_).trans (State.geomOf_saveEffects (s := s)))
    · rfl
    · exact State.modCore_threads _ _ _

/-- A masked save keeps them: they are no registers of the mask. -/
theorem State.geomOf_saveMasked (l : LiveMask) : (s.saveMasked tk l).geomOf tk = s.geomOf tk := by
  unfold State.saveMasked
  split
  · rfl
  · refine (State.geomOf_modThr (s := s.saveThread tk) fun t => ?_).trans State.geomOf_saveThread
    refine (foldl_keeps _ Thread.geom (fun t r => ?_) _ _).trans ((foldl_keeps _ Thread.geom (fun t r => ?_) _ _).trans
      (foldl_keeps _ Thread.geom (fun t r => ?_) _ _))
    · split
      · rfl
      · exact t.wm_geom r _
    · split <;> rfl
    · split
      · rfl
      · exact t.wg_geom r _

/-- A restore keeps them. -/
theorem State.geomOf_restoreThread (slot : Nat) : (s.restoreThread tk slot).geomOf tk = s.geomOf tk := by
  unfold State.restoreThread
  split
  · rfl
  · refine (State.geomOf_modThr fun _ => ?_).trans (State.geomOf_congr ?_)
    · rfl
    · split <;> rfl

/-- A move keeps them. -/
theorem State.geomOf_moveThread (ck : Nat) : (s.moveThread tk ck).geomOf tk = s.geomOf tk := by
  have hsaved : ((s.saveThread tk).modThr tk fun t => { t with roster := ck }).geomOf tk = s.geomOf tk := by
    refine (State.geomOf_modThr fun _ => ?_).trans State.geomOf_saveThread
    rfl
  unfold State.moveThread
  dsimp only
  split
  · split
    · exact (State.geomOf_restoreThread _).trans hsaved
    · exact hsaved
  · exact hsaved

theorem Region.firstThread_geom (x : Region) (ck slot : Nat) :
    (x.firstThread ck slot).geom = (x.geometry (rcOfCk ck / 4) (rcOfCk ck * x.tpc + slot) {}).geom :=
  (Thread.wg_geom _ _ _).trans (Thread.wg_geom _ _ _)

end Sys2Proof.Machine
end

section
/-!
CERTIFICATE. The geometry registers.
-/

open Sys2Proof Sys2Proof.Machine Sys2Proof.Laws

/-- Settles O52: each register is made up of the fields of R201's table, and no save, restore or move changes one. -/
theorem geometryRegisters : Obligations.GeometryRegisters := by
  unfold Obligations.GeometryRegisters
  intro x ck slot s tk to_ t i n u same
  have hu : u.geom = _ := Region.firstThread_geom x ck slot
  simp only [Thread.geom, Region.geometry, Prod.mk.injEq] at hu
  obtain ⟨hu0, hu1, hu2, hu3⟩ := hu
  refine ⟨fun hx0 hx hy0 hy hz0 hz htpc hparts hslot => ?_, fun hthr => ?_⟩
  · have hrc : rcOfCk ck < 64 := Nat.mod_lt _ (by decide)
    have hi : i < 2 ^ 10 := by
      have : rcOfCk ck * x.tpc ≤ 63 * 15 := Nat.mul_le_mul (by omega) (by omega)
      omega
    have hn : n < 2 ^ 48 := by
      have hxy : x.gx * x.gy < 2 ^ 16 * 2 ^ 16 := Nat.mul_lt_mul'' hx hy
      have hxyz : x.gx * x.gy * x.gz < 2 ^ 16 * 2 ^ 16 * 2 ^ 16 := Nat.mul_lt_mul'' hxy hz
      simpa using hxyz
    have hthreads : 4 * x.vals.parts * x.tpc < 2 ^ 16 := by
      have : 4 * x.vals.parts * x.tpc ≤ 64 * 15 := Nat.mul_le_mul (by omega) (by omega)
      omega
    have hix : i % x.gx < 2 ^ 16 := (Nat.mod_lt _ hx0).trans hx
    have hiy : i / x.gx % x.gy < 2 ^ 16 := (Nat.mod_lt _ hy0).trans hy
    have hiz : i / (x.gx * x.gy) % x.gz < 2 ^ 16 := (Nat.mod_lt _ hz0).trans hz
    have hp : rcOfCk ck / 4 < 2 ^ 5 := by omega
    obtain ⟨h10, h11, h12, h13, h14⟩ := word_fields_four (k := 1) (m := 15) rfl hix hiy hiz (bitOf_lt (decide (n ≤ i)))
    rw [hu0, hu1, hu2, hu3]
    refine ⟨word_fields_four rfl hx hy hz htpc, ⟨h10, h11, h12, ?_, h14⟩, word_fields_two rfl (hi.trans (by decide)) hthreads,
      word_fields_two rfl hn hp⟩
    exact h13.symm ▸ by simp [bitOf]
  · have hkept {s' : State} (h : s'.geomOf tk = s.geomOf tk) : ∃ v, s'.thr tk = some v ∧ same v t := by
      simp only [State.geomOf, hthr, Option.map_some, Option.map_eq_some_iff, Thread.geom, Prod.mk.injEq] at h
      exact h
    exact ⟨hkept State.geomOf_saveThread, fun l => hkept (State.geomOf_saveMasked l), hkept (State.geomOf_restoreThread slot),
      hkept (State.geomOf_moveThread to_)⟩
end

section
/-!
CERTIFICATE. Flumes that read ahead: the poison kept beside each entry (R212).
-/

open Sys2Proof Sys2Proof.Machine

/-- A machine whose thread 0 is resident with an in-flume of one entry, none of it read yet. -/
def readingAhead : State :=
  { threads := [(0, some { flumes := [(0, { cnt := [1], str := [0] })], place := .inSlot 0 })] }

/-- The poison that each thread's flumes keep beside their entries. -/
def flumePoison (s : State) : List (List (Option Word)) := ((s.thr 0).map (·.flumes.map (·.2.bad))).getD []

/-- A transfer into an in-flume keeps the entry's poison beside it (R212). -/
theorem flumePoison_transfer : flumePoison (readingAhead.onFlume 0 0) = [[none]] := by rfl

/-- Refutes O26: the clause of an in-flume's transfer leaves the list of the entries' poison as it was. On `readingAhead` the
transfer appends one entry to it, with the value that it appends to the queue. -/
theorem not_engineSteps : ¬ Obligations.EngineSteps := by
  unfold Obligations.EngineSteps
  intro h
  obtain ⟨htransfer, -⟩ := h readingAhead 0 0 0 0 0 0 0 _ _ {}
  have hstate := Host.Outcome.next.inj (htransfer ⟨rfl, rfl, rfl, rfl⟩ rfl (by decide) (by decide))
  have hpoison : flumePoison (readingAhead.onFlume 0 0) = [[]] := (congrArg flumePoison hstate).trans rfl
  rw [flumePoison_transfer] at hpoison
  exact absurd hpoison (by decide)
end

section
/-!
CERTIFICATE. Flumes as operands: the poison of an entry that is taken (R212, R327).
-/

open Sys2Proof Sys2Proof.Machine

/-- A machine whose thread 0 issues with one entry in its in-flume 0, read without poison. -/
def readAhead : State :=
  { threads := [(0, some { flumes := [(0, { cnt := [1], str := [0], pos := 1, queue := [0], bad := [none] })], place := .inSlot 0 })] }

/-- The poison that flumes keep after an instruction that goes on. -/
def poisonAfter : Host.Outcome State Fault Refusal → Option (List (List (Option Word)))
  | .next s => some (flumePoison s)
  | _ => none

/-- An operand read of an in-flume takes the entry's poison with the entry (R212, R327). -/
theorem poisonAfter_vmov : poisonAfter (exec (.vmov 0 24 0 .i8) readAhead) = some [[]] := by rfl

/-- Refutes O42: the clause of an in-flume's read leaves the list of the entries' poison as it was. On `readAhead` the read takes
the one entry's poison with the entry. -/
theorem not_operandPortResults : ¬ Obligations.OperandPortResults := by
  unfold Obligations.OperandPortResults
  rintro ⟨-, hflumes⟩
  obtain ⟨-, -, htakes, -⟩ := hflumes readAhead _ 0 _ rfl rfl rfl rfl rfl rfl (by decide) 24 0 rfl (by decide)
  have hread := (htakes rfl (by decide)).2 _ _ rfl
  have hpoison : poisonAfter (exec (.vmov 0 24 0 .i8) readAhead) = some [[none]] := (congrArg poisonAfter hread).trans rfl
  rw [poisonAfter_vmov] at hpoison
  exact absurd hpoison (by decide)
end

section
/-!
CERTIFICATE. A copy card on a full queue: the thread's state (R213, R388).
-/

open Sys2Proof Sys2Proof.Machine

/-- Scratchpad bytes with a copy card at 0x3400: a card of type 2 and one dimension of one byte, from 0 to 0, with no barrier. -/
def byteCard : Tbl Byte := [(0x3400, 2), (0x3402, 1), (0x3404, 0xFF), (0x3405, 0xFF), (0x3420, 1)]

/-- A thread in LONG with the card's address in g 1. -/
def longThread : Thread := { g := [(1, 0xFFFFFFFFC0003400)], st := .long }

/-- A machine whose thread 0 of region 1 issues while its core's queue of cards is full. -/
def fullQueue : State :=
  { threads := [(1024, some longThread)], ctx := [(64, { pool := byteCard, cards := List.replicate 256 {} })]
    sched := { regions := [(1, some { poolword := 0x12048C })] }, unit := { tk := 1024 } }

/-- The state of region 1's first thread after an instruction that goes on. -/
def stateAfter : Host.Outcome State Fault Refusal → Option TState
  | .next s => (s.thr 1024).map (·.st)
  | _ => none

set_option exponentiation.threshold 2000 in
set_option maxRecDepth 10000 in
theorem stateAfter_cpyt : stateAfter (exec (.cpyt false 1) fullQueue) = some .ready := by decide

set_option exponentiation.threshold 2000 in
set_option maxRecDepth 10000 in
/-- Refutes O35: the clause of a card on a full queue keeps the thread's state. A unit that waits leaves its thread READY (R197), and
`longThread` issues from LONG, which the clause admits. -/
theorem not_copyIssue : ¬ Obligations.CopyIssue := by
  unfold Obligations.CopyIssue
  rintro ⟨hcards, -⟩
  obtain ⟨-, hcard⟩ := hcards fullQueue longThread ⟨rfl, rfl, rfl, rfl, rfl⟩ false 1 0
  obtain ⟨-, -, -, hqueue⟩ := hcard 0x3400 rfl (by decide) (by decide)
  obtain ⟨pr, hpr⟩ : ∃ pr, fullQueue.copyPrint 64 (copyOf (fullQueue.poolRead 64 0x3400 256)) = some pr := ⟨_, rfl⟩
  have hwaits := (hqueue pr (by decide) hpr).2 (by decide)
  have hstate : stateAfter (exec (.cpyt false 1) fullQueue) = some .long := (congrArg stateAfter hwaits).trans rfl
  rw [stateAfter_cpyt] at hstate
  exact absurd hstate (by decide)
end

section
/-!
SUPPORT. Registers that take a word of 64 bits, and a pending result that one reply binds (R196, R325).
-/

namespace Sys2Proof.Machine

variable {s s' : State} {t u : Thread} {tk la d : Nat} {p : Pending} {x : Word}

/-- The low 8 bytes of a word in a result buffer are the word. -/
@[simp] theorem word_bytesAt_setWidth (x : Word) : word (bytesAt (x.setWidth 512) 0 8) = x := by
  apply BitVec.eq_of_toNat_eq
  have hx : x.toNat < 2 ^ 512 := lt_trans x.isLt (Nat.pow_lt_pow_right (by decide) (by decide))
  simp [word, bytesAt, Nat.mod_eq_of_lt hx, Nat.mod_eq_of_lt x.isLt]

/-- A register of 8 bytes without a port takes a word as it is. -/
theorem State.bindFin_word (hthr : s.thr tk = some u) (hports : u.portcfg = 0) :
    s.bindFin tk (.gz d 8) (x.setWidth 512) = s.setThr tk (u.wg d x) := by
  rw [State.bindFin, word_bytesAt_setWidth, State.writeG_plain tk d x u hthr hports]

/-- A result that a thread without another one awaits. -/
theorem State.addPend_one (hlone : s.unit.phase = .lone) (hthr : s.thr tk = some u) (hpend : u.pend = []) :
    (s.addPend tk la p).1 = s.tickClock.setThr tk { u with pend := [{ p with id := s.clock, window := la + 1 }] } := by
  simp only [State.addPend, hlone, if_true]
  rw [State.modThr_some s.tickClock tk u _ hthr]
  simp [hpend]

/-- A C-class word that issues alone, does `s'` to the machine and leaves its thread as `u` with the result `q` opened now. -/
theorem Awaits.opens {i : Instr} {c : CSpec} {body : Thread → State → CRes} {q : Pending} (h : Alone s t) (hi : exec i s = issueC c body s)
    (hpriv : c.priv = true → t.priv ≠ 0) (hk : KeepsUnit s s')
    (hb : body t s = .done (s'.setThr s.unit.tk { u with pend := [{ q with window := la + 1 }] }) none) (hfu : u.flumes = [])
    (hl : u.lastIssue = t.lastIssue) (hst : u.st = .ready) : Awaits i s s' u { q with window := la } := by
  rw [Awaits, hi, issueC_alone c body h hpriv, hb]
  simp only
  rw [State.retire_awaits _ _ t u c _ (State.thr_setThr ..) h.ports h.flumes h.pend hfu hl hst, State.setThr_setThr]
  simp [finished, hk.unit, hk.cycle]

end Sys2Proof.Machine
end

section
/-!
SUPPORT. Barriers: Count and Check, the barrier words that stay short of their target, and the barrier that an instruction names (R218,
R356).
-/

namespace Sys2Proof.Machine

variable {s : State} {t : Thread} {tk ck n k : Nat} {b : Bar} {ea y : Word}

theorem Bar.count_below (h : b.arrived + k < 2 ^ 48) : b.count k = { b with arrived := b.arrived + k } := if_neg (Nat.not_le.2 h)

theorem Bar.count_saturates (h : 2 ^ 48 ≤ b.arrived + k) :
    b.count k = { b with arrived := 2 ^ 48 - 1, flags := Nat.lor b.flags 2 } := if_pos h

theorem Bar.check_stays (h : b.armed = false ∨ b.arrived < b.target) : b.check = (b, false) :=
  if_neg fun hdone => h.elim (by simp [hdone.1]) hdone.2.not_gt

theorem Bar.check_completes (harmed : b.armed = true) (hreached : b.target ≤ b.arrived) :
    b.check = ({ b with flags := if b.target < b.arrived then Nat.lor b.flags 1 else b.flags, gen := (b.gen + 1) % 65536, arrived := 0,
                        armed := false }, true) := if_pos ⟨harmed, hreached⟩

/-- Bytes that leave an armed barrier short of its target leave its generation. -/
theorem Bar.check_count_stays (hfits : b.target < 2 ^ 48) (h : b.armed = false ∨ b.arrived + k < b.target) :
    (b.count k).check = (b.count k, false) := by
  by_cases hbelow : b.arrived + k < 2 ^ 48
  · rw [Bar.count_below hbelow]
    exact Bar.check_stays h
  · rw [Bar.count_saturates (Nat.not_lt.1 hbelow)]
    exact Bar.check_stays (h.imp_right fun hshort => absurd (hshort.trans hfits) hbelow)

theorem State.bar_target_lt : (s.bar ck n).target < 2 ^ 48 := Nat.mod_lt _ (by decide)

theorem State.barCheck_stays (h : b.check = (b, false)) : s.barCheck ck n b = s.setBar ck n b := by simp [State.barCheck, h]

theorem State.barCount_stays (h : (s.bar ck n).armed = false ∨ (s.bar ck n).arrived + k < (s.bar ck n).target) :
    s.barCount ck n k = s.setBar ck n ((s.bar ck n).count k) :=
  State.barCheck_stays (Bar.check_count_stays State.bar_target_lt h)

theorem State.barExpect_none (h : 2 ^ 48 ≤ (s.bar ck n).target + k) : s.barExpect ck n k = none := if_pos h

theorem State.barExpect_stays (hfits : (s.bar ck n).target + k < 2 ^ 48) (hshort : (s.bar ck n).arrived < (s.bar ck n).target + k) :
    s.barExpect ck n k = some (s.setBar ck n { s.bar ck n with target := (s.bar ck n).target + k, armed := true }) := by
  rw [State.barExpect, if_neg (Nat.not_le.2 hfits), State.barCheck_stays (Bar.check_stays (.inr hshort))]

section target
variable (htarget : s.barTarget tk ea = .ok (ck, n))
include htarget

theorem State.barArm_traps (hy : y = 0 ∨ 2 ^ 48 ≤ y.toNat) (expect : Bool) : s.barArm tk ea y expect = .trap Cause.barrier ea := by
  simp only [State.barArm, htarget]
  exact if_pos hy

theorem State.barArm_local (hlocal : s.isLocal ck = true) (h0 : y ≠ 0) (hlt : y.toNat < 2 ^ 48) (expect : Bool) :
    s.barArm tk ea y expect = if expect then (match s.barExpect ck n y.toNat with
      | some s => .done s none
      | none => .trap Cause.barrier ea) else .done (s.barInit ck n y.toNat) none := by
  simp only [State.barArm, htarget, hlocal, if_true]
  exact if_neg (not_or_intro h0 (Nat.not_le.2 hlt))

end target
end Sys2Proof.Machine
end

section
/-!
CERTIFICATE. The barrier (R184, R218, R356 to R360).
-/

open Sys2Proof Sys2Proof.Machine

/-- R218: Count and Check. -/
theorem barrierCountAndCheck : Claims.BarrierCountAndCheck := by
  intro b k
  refine ⟨Bar.count_below, fun h => ?_, fun harmed hreached => ?_, Bar.check_stays⟩
  · rw [Bar.count_saturates h]
    exact ⟨rfl, (Nat.testBit_lor ..).trans (by simp [show Nat.testBit 2 1 = true by decide]), rfl, rfl, rfl⟩
  · rw [Bar.check_completes harmed hreached]
    refine ⟨rfl, rfl, rfl, rfl, rfl, ?_⟩
    by_cases hover : b.target < b.arrived <;> simp [hover]

/-- R184, R218, R356 to R360: the barrier instructions. -/
theorem barrierInstructions : Claims.BarrierInstructions := by
  intro s t h hready p d a b l ck n tk x y bar htarget hlocal
  refine ⟨fun hy => ⟨?_, ?_, ?_⟩, fun h0 hlt => ⟨?_, fun hover => ?_, fun hfits hshort => ?_, fun hsbuf hremote hstays => ?_⟩,
    fun hgen => ?_, fun hgen => ?_, ?_⟩
  · exact Traps.word h rfl nofun (State.barArm_traps htarget hy false)
  · exact Traps.word h rfl nofun (State.barArm_traps htarget hy true)
  · refine Traps.word h rfl nofun ?_
    simp only [h.thread, tk, x, y] at htarget hy ⊢
    simp only [htarget]
    exact if_pos hy
  · exact Leaves2.stays h rfl nofun ⟨rfl, rfl, fun _ => rfl⟩ (State.barArm_local htarget hlocal h0 hlt false)
  · refine Traps.word h rfl nofun ((State.barArm_local htarget hlocal h0 hlt true).trans ?_)
    rw [State.barExpect_none hover]; rfl
  · refine Leaves2.stays h rfl nofun ⟨rfl, rfl, fun _ => rfl⟩ ((State.barArm_local htarget hlocal h0 hlt true).trans ?_)
    rw [State.barExpect_stays hfits hshort]; rfl
  · refine Leaves2.stays h rfl nofun ⟨rfl, rfl, fun _ => rfl⟩ ?_
    have hperformed : t.performed = true := (Thread.performed_iff h.pend).2 ⟨hsbuf, hremote⟩
    have hcount : ¬ (y = 0 ∨ 2 ^ 48 ≤ y.toNat) := not_or_intro h0 (Nat.not_le.2 hlt)
    simp only [h.thread, tk, x, y] at htarget hcount ⊢
    simp only [htarget, hperformed, hlocal, if_true, Bool.not_true, Bool.false_eq_true, if_false]
    rw [if_neg hcount, State.barCount_stays hstays]
  · refine Goes.stays (pc := none) h rfl nofun ?_
    simp only [x, tk] at htarget ⊢
    simp only [htarget, hlocal, if_true, Laws.field_low]
    exact if_pos hgen
  · intro r
    let q : Pending := { id := s.clock, kind := .waitbar n bar.gen, acq := true, upc := s.unit.addr,
                         lanes := [{ src := .reply, txid := r.2, len := 8 }] }
    refine Awaits.opens (la := 0) (q := q) h rfl nofun ⟨rfl, rfl, fun _ => rfl⟩ ?_ h.flumes rfl hready
    simp only [x, tk, y, bar] at htarget hgen ⊢
    simp only [htarget, hlocal, if_true, Laws.field_low]
    rw [if_neg (not_not_intro hgen), ← hgen, State.addPend_one (s := (s.newTx s.unit.core).1) h.lone h.thread h.pend]
    rfl
  · refine Goes.word (pc := none) h rfl nofun ?_ (by simpa using h.flumes) (by simpa using h.pend) (by simp)
    simp only [x, tk] at htarget ⊢
    simp only [htarget, hlocal, if_true, State.bindFin_word h.thread h.ports, Bar.readout]
    cases hb : (s.bar ck n).armed <;> simp [bar, bitOf, word]

/-- Settles O30: the barrier's procedures, and the instructions through them. -/
theorem barrierResults : Obligations.BarrierResults := ⟨barrierCountAndCheck, barrierInstructions⟩
end

section
/-!
SUPPORT. State registers: an access that reads, one that writes, and one that a mode may not make (R200, R398, R399).
-/

namespace Sys2Proof.Machine

variable {s : State} {t : Thread} {k r : Nat} {old x w : Word}

section arms
variable (p : Bool) (d a : BitVec 5) (k : BitVec 12) (s : State)
theorem exec_srr : exec (.srr p d k) s = srOp { gd := [d.toNat] } (some d.toNat) k.toNat (fun _ _ => none) s := rfl
theorem exec_srw :
    exec (.srw p a k) s = srOp { gs := [a.toNat] } none k.toNat (fun t _ => some (t.rg a.toNat, t.rg a.toNat)) s := rfl
theorem exec_srset : exec (.srset p d a k) s =
    srOp { gs := [a.toNat], gd := [d.toNat] } (some d.toNat) k.toNat (fun t old => some (old ||| t.rg a.toNat, t.rg a.toNat)) s := rfl
theorem exec_srclr : exec (.srclr p d a k) s =
    srOp { gs := [a.toNat], gd := [d.toNat] } (some d.toNat) k.toNat (fun t old => some (old &&& ~~~t.rg a.toNat, 0)) s := rfl
end arms

section fields
variable (k : Nat) (x w : Word)
theorem Thread.putSr_flumes : (t.putSr k x w).flumes = t.flumes := by unfold Thread.putSr; split <;> rfl
theorem Thread.putSr_pend : (t.putSr k x w).pend = t.pend := by unfold Thread.putSr; split <;> rfl
theorem Thread.putSr_lastIssue : (t.putSr k x w).lastIssue = t.lastIssue := by unfold Thread.putSr; split <;> rfl
end fields

/-- A write of a state register and one of a general register commute. -/
theorem Thread.putSr_wg : (t.wg r old).putSr k x w = (t.putSr k x w).wg r old := by
  unfold Thread.putSr Thread.wg
  split <;> split <;> rfl

section access
variable {i : Instr} {n : Names} {d : Option Nat} {f : Thread → Word → Option (Word × Word)} (h : Alone s t) (hi : exec i s = srOp n d k f s)
  (hread : s.readSr s.unit.tk t k = some old)
include h hi hread

/-- An access that only reads leaves the old value in its register. -/
theorem Leaves.readSr (hd : d = some r) (hf : f t old = none) : Leaves i s (t.wg r old) := by
  refine Goes.word (pc := none) h hi nofun ?_ (by simpa using h.flumes) (by simpa using h.pend) (by simp)
  simp only [h.thread, hread, hf, hd, State.writeG_plain _ r old t h.thread h.ports]

section writes
variable (hf : f t old = some (x, w)) (htrap : s.srWriteTrap t k x = none) (hk : k < 0x100)
include hf htrap hk

/-- A write without a destination. -/
theorem Leaves.writeSr (hd : d = none) : Leaves i s (t.putSr k x w) := by
  refine Goes.word (pc := none) h hi nofun ?_ ((Thread.putSr_flumes ..).trans h.flumes) ((Thread.putSr_pend ..).trans h.pend)
    (Thread.putSr_lastIssue ..)
  simp only [h.thread, hread, hf, hd, htrap, State.writeSr, Nat.not_le.2 hk, if_false, State.modThr_some s _ t _ h.thread]

/-- A write whose destination takes the old value. -/
theorem Leaves.swapSr (hd : d = some r) : Leaves i s ((t.putSr k x w).wg r old) := by
  refine Goes.word (pc := none) h hi nofun ?_ (by simpa [Thread.putSr_flumes] using h.flumes) (by simpa [Thread.putSr_pend] using h.pend)
    (by simp [Thread.putSr_lastIssue])
  simp only [h.thread, hread, hf, hd, htrap, State.writeSr, Nat.not_le.2 hk, if_false, State.writeG_plain _ r old t h.thread h.ports]
  rw [State.modThr_some _ _ _ _ (State.thr_setThr ..), State.setThr_setThr, Thread.putSr_wg]

end writes

/-- A write that the mode may not make. -/
theorem Traps.writeSr {cause : Nat} {val : Word} (hf : f t old = some (x, w)) (htrap : s.srWriteTrap t k x = some (cause, val)) :
    Traps i s cause val := by
  refine Traps.word h hi nofun ?_
  simp only [h.thread, hread, hf, htrap]

end access

/-- SRR, SRW, SRSET and SRCLR read a register as `old`, and a write of `x` leaves the thread as `put x`. -/
def SrAccesses (s : State) (t : Thread) (p : Bool) (d a : BitVec 5) (k : BitVec 12) (old : Word) (put : Word → Thread) : Prop :=
  Leaves (.srr p d k) s (t.wg d.toNat old) ∧ Leaves (.srw p a k) s (put (t.rg a.toNat)) ∧
    Leaves (.srset p d a k) s ((put (old ||| t.rg a.toNat)).wg d.toNat old) ∧
    Leaves (.srclr p d a k) s ((put (old &&& ~~~t.rg a.toNat)).wg d.toNat old)

theorem srAccesses {k : BitVec 12} {put : Word → Thread} (h : Alone s t) (p : Bool) (d a : BitVec 5) (hk : k.toNat < 0x100)
    (hread : s.readSr s.unit.tk t k.toNat = some old) (htrap : ∀ x, s.srWriteTrap t k.toNat x = none)
    (hput : ∀ x w, t.putSr k.toNat x w = put x) : SrAccesses s t p d a k old put :=
  ⟨Leaves.readSr h (exec_srr ..) hread rfl rfl,
    hput _ (t.rg a.toNat) ▸ Leaves.writeSr h (exec_srw ..) hread rfl (htrap _) hk rfl,
    hput _ (t.rg a.toNat) ▸ Leaves.swapSr h (exec_srset ..) hread rfl (htrap _) hk rfl,
    hput _ 0 ▸ Leaves.swapSr h (exec_srclr ..) hread rfl (htrap _) hk rfl⟩

/-- The bits of an aligned code address. -/
theorem srMerge_address {n : Nat} (hn : srMask n = 0xFFFFFFFFFFFFFFFC) (x : Word) : srMerge n 0 x = x &&& ~~~3 := by
  rw [srMerge, hn, show (0 : Word) = 0#64 from rfl, BitVec.zero_and, BitVec.zero_or]
  rfl

/-- The interrupts that INTPEND shows. -/
theorem Thread.intpend_eq : t.intpend = (if t.wakes = 0 then 0 else 2) ||| (if t.timer then 4 else 0) := by
  unfold Thread.intpend
  by_cases hwakes : t.wakes = 0
  · rw [hwakes]; cases t.timer <;> rfl
  · rw [if_neg hwakes, bne_iff_ne.2 hwakes]; cases t.timer <;> rfl

/-- SRW, SRSET and SRCLR of a register that can be read and that no value may be written to. -/
theorem srRefused {k : BitVec 12} {cause : Nat} {val : Word} (h : Alone s t) (p : Bool) (d a : BitVec 5)
    (hread : s.readSr s.unit.tk t k.toNat = some old) (htrap : ∀ x, s.srWriteTrap t k.toNat x = some (cause, val)) :
    ∀ i ∈ [Instr.srw p a k, .srset p d a k, .srclr p d a k], Traps i s cause val := by
  intro i hi
  simp only [List.mem_cons, List.not_mem_nil, or_false] at hi
  obtain rfl | rfl | rfl := hi
  · exact Traps.writeSr h (exec_srw ..) hread rfl (htrap _)
  · exact Traps.writeSr h (exec_srset ..) hread rfl (htrap _)
  · exact Traps.writeSr h (exec_srclr ..) hread rfl (htrap _)

/-- The cause of a write to a register that every mode may only read. -/
theorem State.srWriteTrap_readOnly (hk : srReadOnly k = true) (x : Word) :
    s.srWriteTrap t k x = some (if t.priv = 0 then (Cause.priv, 0) else (Cause.illegalOp, s.unit.opVal)) := by
  simp [State.srWriteTrap, hk]

end Sys2Proof.Machine
end

section
/-!
CERTIFICATE. The state registers (R200, R296, R398, R399).
-/

open Sys2Proof Sys2Proof.Machine

/-- R200, R398, R399: the registers that every mode may write, HBEATWIN, TRAPSTATUS and INTPEND. -/
theorem stateRegisterAccess : Claims.StateRegisterAccess := by
  intro s t h p d a y keep regs accesses
  have haccesses : accesses = SrAccesses s t p d a := rfl
  clear_value accesses
  subst haccesses
  refine ⟨fun e he => ?_, fun hpriv => ?_, ⟨?_, fun hmode => ?_, fun hmode => ?_⟩, ?_⟩
  · simp only [regs, List.mem_cons, List.not_mem_nil, or_false] at he
    obtain rfl | rfl | rfl | rfl | rfl | rfl | rfl | rfl | rfl | rfl | rfl | rfl | rfl | rfl | rfl | rfl | rfl | rfl | rfl := he
    all_goals dsimp only
    case inr.inr.inr.inl =>
      exact srAccesses h p d a (by decide) rfl (fun _ => rfl)
        fun x _ => congrArg (fun y => ({ t with trappc := y } : Thread)) (srMerge_address (n := 0x022) rfl x)
    case inr.inr.inr.inr.inl =>
      exact srAccesses h p d a (by decide) rfl (fun _ => rfl)
        fun x _ => congrArg (fun y => ({ t with trapvec := y } : Thread)) (srMerge_address (n := 0x024) rfl x)
    all_goals exact srAccesses h p d a (by decide) rfl (fun _ => rfl) fun _ _ => rfl
  · refine srAccesses h p d a (by decide) rfl (fun x => ?_) (fun _ _ => rfl)
    simpa [State.srWriteTrap, srReadOnly] using hpriv
  · exact Leaves.readSr h (exec_srr ..) rfl rfl rfl
  · refine Leaves.writeSr h (exec_srw ..) rfl rfl ?_ (by decide) rfl
    simpa [State.srWriteTrap, srReadOnly, Laws.field_low] using hmode
  · refine Traps.writeSr h (exec_srw ..) rfl rfl ?_
    simpa [State.srWriteTrap, srReadOnly, Laws.field_low] using hmode
  · simp only [← Thread.intpend_eq]
    have hcleared : t.putSr 0x029 (t.intpend &&& ~~~y) 0 = t := by simp [Thread.putSr]
    refine ⟨Leaves.readSr h (exec_srr ..) rfl rfl rfl, Leaves.writeSr h (exec_srw ..) rfl rfl rfl (by decide) rfl,
      Leaves.swapSr h (exec_srset ..) rfl rfl rfl (by decide) rfl, ?_⟩
    have hswap : Leaves (.srclr p d a 0x029) s ((t.putSr 0x029 (t.intpend &&& ~~~y) 0).wg d.toNat t.intpend) :=
      Leaves.swapSr h (exec_srclr ..) rfl rfl rfl (by decide) rfl
    rwa [hcleared] at hswap

/-- R200, R296: the registers that every mode may only read, and HBEATWIN in user mode. -/
theorem readOnlyStateRegisters : Claims.ReadOnlyStateRegisters := by
  intro s t h p d a home regs
  refine ⟨fun e he => ?_, Leaves.readSr h (exec_srr ..) rfl rfl rfl, fun hpriv => srRefused h p d a rfl fun x => ?_⟩
  · have hregister : s.readSr s.unit.tk t (BitVec.ofNat 12 e.1).toNat = some e.2 ∧ srReadOnly (BitVec.ofNat 12 e.1).toNat = true := by
      simp only [regs, List.mem_cons, List.not_mem_nil, or_false] at he
      obtain rfl | rfl | rfl | rfl | rfl | rfl | rfl | rfl | rfl | rfl := he <;> exact ⟨rfl, rfl⟩
    obtain ⟨hread, honly⟩ := hregister
    refine ⟨Leaves.readSr h (exec_srr ..) hread rfl rfl, fun i hi => ⟨fun hpriv => ?_, fun hpriv => ?_⟩⟩
    · exact srRefused h p d a hread (fun x => by rw [State.srWriteTrap_readOnly honly, if_pos hpriv]) i hi
    · exact srRefused h p d a hread (fun x => by rw [State.srWriteTrap_readOnly honly, if_neg hpriv]; rfl) i hi
  · simp [State.srWriteTrap, srReadOnly, hpriv]

/-- Settles O33: the registers that may be written, and those that may only be read. -/
theorem stateRegisterResults : Obligations.StateRegisterResults := ⟨stateRegisterAccess, readOnlyStateRegisters⟩
end

section
/-!
SUPPORT. The sluice board: fields of a counter bit by bit, writes of its registers, and its counters cleared and counted (R219 to R222,
R394, R398).
-/

namespace Sys2Proof.Machine

variable {s : State} {t : Thread} {k : Nat} {x y w : Word}

/-- A word with a field replaced, bit by bit. -/
theorem setField_getLsbD {lo n v i : Nat} (w : Word) (hi : i < 64) :
    (setField w lo n v).getLsbD i = if lo ≤ i ∧ i < lo + n then v.testBit (i - lo) else w.getLsbD i := by
  have hlow : w.toNat % 2 ^ lo < 2 ^ lo := Nat.mod_lt _ (by positivity)
  have hparts : w.toNat - bits w.toNat lo n * 2 ^ lo + v % 2 ^ n * 2 ^ lo =
      2 ^ lo * (2 ^ n * (w.toNat / 2 ^ lo / 2 ^ n) + v % 2 ^ n) + w.toNat % 2 ^ lo := by
    have hsum : 2 ^ lo * (2 ^ n * (w.toNat / 2 ^ lo / 2 ^ n)) + 2 ^ lo * (w.toNat / 2 ^ lo % 2 ^ n) + w.toNat % 2 ^ lo = w.toNat := by
      rw [← mul_add, Nat.div_add_mod, Nat.div_add_mod]
    rw [bits, mul_comm _ (2 ^ lo), mul_comm (v % 2 ^ n), mul_add]
    omega
  simp only [setField, word, BitVec.getLsbD_ofNat, hi, decide_true, Bool.true_and, hparts]
  rw [Nat.testBit_two_pow_mul_add _ hlow, Nat.testBit_two_pow_mul_add _ (Nat.mod_lt _ (by positivity)), Nat.testBit_mod_two_pow,
    Nat.testBit_mod_two_pow, Nat.testBit_div_two_pow, Nat.testBit_div_two_pow, BitVec.getLsbD]
  rcases Nat.lt_or_ge i lo with hbelow | hfrom
  · simp [hbelow, Nat.not_le.2 hbelow]
  · rcases Nat.lt_or_ge i (lo + n) with hin | habove
    · simp [hfrom, hin, Nat.not_lt.2 hfrom, show i - lo < n by omega]
    · simp [Nat.not_lt.2 hfrom, show ¬ i - lo < n by omega, Nat.not_lt.2 habove, show i - lo - n + n + lo = i by omega]

/-! ## Counters (R220, R394) -/

/-- COUNT and SAT of a counter. -/
def countAndSat : Word := 0x10000FFFF

theorem countAndSat_getLsbD {i : Nat} (hi : i < 64) : countAndSat.getLsbD i = decide (i < 16 ∨ i = 32) := by
  revert i; decide

theorem countPulse_below {n : Nat} (h : w.toNat % 2 ^ 16 + n ≤ 0xFFFF) : countPulse w n = w + BitVec.ofNat 64 n := by
  have hsum : w.toNat - w.toNat % 2 ^ 16 + (w.toNat % 2 ^ 16 + n) = w.toNat + n := by omega
  rw [countPulse, Laws.field_low, if_neg (Nat.not_lt.2 h)]
  apply BitVec.eq_of_toNat_eq
  simp only [setField, word, bits, pow_zero, Nat.div_one, mul_one, BitVec.toNat_ofNat, BitVec.toNat_add]
  rw [Nat.mod_eq_of_lt (show w.toNat % 2 ^ 16 + n < 2 ^ 16 by omega), hsum]
  simp

theorem countPulse_saturates {n : Nat} (h : 0xFFFF < w.toNat % 2 ^ 16 + n) : countPulse w n = w ||| countAndSat := by
  rw [countPulse, Laws.field_low, if_pos h]
  apply BitVec.eq_of_getLsbD_eq
  intro i hi
  rw [setField_getLsbD _ hi, setField_getLsbD _ hi, BitVec.getLsbD_or, countAndSat_getLsbD hi]
  by_cases hsat : i = 32
  · simp [hsat]
  · have hone : ¬ (32 ≤ i ∧ i < 33) := by omega
    by_cases hcount : i < 16
    · have hones : Nat.testBit 0xFFFF i = true := (Nat.testBit_two_pow_sub_one 16 i).trans (decide_eq_true hcount)
      simp [hone, hcount, hones]
    · simp [hone, hcount, hsat]

/-- COUNT and SAT cleared. -/
theorem setField_countAndSat : setField (setField w 0 16 0) 32 1 0 = w &&& ~~~countAndSat := by
  apply BitVec.eq_of_getLsbD_eq
  intro i hi
  rw [setField_getLsbD _ hi, setField_getLsbD _ hi, BitVec.getLsbD_and, BitVec.getLsbD_not,
    countAndSat_getLsbD hi]
  by_cases hsat : i = 32
  · simp [hsat]
  · have hone : ¬ (32 ≤ i ∧ i < 33) := by omega
    by_cases hcount : i < 16 <;> simp [hi, hone, hsat, hcount]

/-- A sparse array updated where `p` holds below `n`. -/
theorem Tbl.get_foldl_upd {α : Type} [DecidableEq α] {z : α} {tbl : Tbl α} (hwf : Tbl.wf z tbl = true) (p : Nat → Bool) (f : α → α)
    (n : Nat) :
    let u := (List.range n).foldl (fun u i => if p i then Tbl.upd z u i f else u) tbl
    Tbl.wf z u = true ∧ ∀ i, Tbl.get z u i = if i < n ∧ p i = true then f (Tbl.get z tbl i) else Tbl.get z tbl i := by
  induction n with
  | zero => exact ⟨hwf, fun i => by simp⟩
  | succ n ih =>
    obtain ⟨hw, hget⟩ := ih
    simp only [List.range_succ, List.foldl_append, List.foldl_cons, List.foldl_nil]
    generalize (List.range n).foldl (fun u i => if p i then Tbl.upd z u i f else u) tbl = u at hw hget
    cases hp : p n with
    | false =>
      refine ⟨hw, fun i => (hget i).trans ?_⟩
      have hsame : (i < n + 1 ∧ p i = true) ↔ (i < n ∧ p i = true) := by
        refine and_congr_left fun hi => ⟨fun hlt => lt_of_le_of_ne (Nat.le_of_lt_succ hlt) ?_, Nat.lt_succ_of_lt⟩
        rintro rfl
        exact absurd hi (by simp [hp])
      simp only [hsame]
    | true =>
      refine ⟨Tbl.wf_put z u n _ hw, fun i => ?_⟩
      simp only [if_true, Tbl.upd]
      by_cases hi : i = n
      · subst hi
        rw [Tbl.get_put_same z u i _ hw, hget i]
        simp [hp]
      · rw [Tbl.get_put_other z u 0 n i _ hw hi, hget i]
        have hbelow : i < n + 1 ↔ i < n := by omega
        simp only [hbelow]

/-- The counters whose bits are set in `x`, with COUNT and SAT cleared (R394). -/
def clearedCounters (x : Word) (tbl : Tbl Word) : Tbl Word :=
  (List.range 32).foldl (fun u i => if x.getLsbD i then Tbl.upd 0 u i (fun w => setField (setField w 0 16 0) 32 1 0) else u) tbl

theorem clearedCounters_get {tbl : Tbl Word} (hwf : Tbl.wf 0 tbl = true) (x : Word) (i : Nat) : Tbl.get 0 (clearedCounters x tbl) i =
    if i < 32 ∧ x.getLsbD i = true then Tbl.get 0 tbl i &&& ~~~countAndSat else Tbl.get 0 tbl i := by
  obtain ⟨-, hget⟩ := Tbl.get_foldl_upd hwf x.getLsbD (fun w => setField (setField w 0 16 0) 32 1 0) 32
  rw [clearedCounters, hget i, setField_countAndSat]

/-! ## The registers (R220 to R222, R398) -/

/-- The counters, terms and outlets of the home core's board, as state registers. -/
theorem State.readSr_counter {tk n : Nat} (hn : n < 32) : s.readSr tk t (0x100 + n) = some (Tbl.get 0 (s.cx (ckOfTk tk)).sbcnt n) := by
  unfold State.readSr
  rw [if_pos ⟨Nat.le_add_right .., by omega⟩, Nat.add_sub_cancel_left]
  rfl

theorem State.readSr_term {tk n : Nat} (hn : n < 32) : s.readSr tk t (0x120 + n) = some (Tbl.get 0 (s.cx (ckOfTk tk)).sbterm n) := by
  unfold State.readSr
  rw [if_neg (by omega), if_pos ⟨Nat.le_add_right .., by omega⟩, Nat.add_sub_cancel_left]
  rfl

theorem State.readSr_outlet {tk n : Nat} (hn : n < 16) : s.readSr tk t (0x140 + n) = some (Tbl.get 0 (s.cx (ckOfTk tk)).sbout n) := by
  unfold State.readSr
  rw [if_neg (by omega), if_neg (by omega), if_pos ⟨Nat.le_add_right .., by omega⟩, Nat.add_sub_cancel_left]
  rfl

/-- A write of a board register, at the home core of its thread. -/
theorem Leaves2.writeBoard {k : BitVec 12} {old : Word} (h : Alone s t) (hk : 0x100 ≤ k.toNat)
    (hread : s.readSr s.unit.tk t k.toNat = some old) (p : Bool) (a : BitVec 5) :
    Leaves2 (.srw p a k) s
      ((s.modCx (ckOfTk s.unit.tk) fun c => c.putSb k.toNat (t.rg a.toNat) (t.rg a.toNat)).sluiceCheck (ckOfTk s.unit.tk)) t := by
  have hwritten : KeepsUnit s (s.modCx (ckOfTk s.unit.tk) fun c => c.putSb k.toNat (t.rg a.toNat) (t.rg a.toNat)) :=
    ⟨rfl, rfl, fun _ => rfl⟩
  refine Leaves2.stays h (exec_srw ..) nofun (hwritten.trans (State.sluiceCheck_keepsUnit _)) ?_
  have htrap : s.srWriteTrap t k.toNat (t.rg a.toNat) = none := by
    simp [State.srWriteTrap, srReadOnly, show ¬ k.toNat ≤ 0x10 by omega, show k.toNat ≠ 0x31 by omega, show k.toNat ≠ 0x23 by omega]
  simp only [h.thread, hread, htrap, State.writeSr, hk, if_true]

/-- A counter after a write: COUNT and its configuration are replaced, SAT is cleared by a one. -/
theorem writtenCounter {n : Nat} (hn : n < 32) (old y : Word) :
    (if y.getLsbD 32 then setField (srMerge (0x100 + n) old y) 32 1 0 else srMerge (0x100 + n) old y) =
      (old &&& 0xFFFFFFFE00000000) ||| (if y.getLsbD 32 then 0 else old &&& 0x100000000) ||| (y &&& 0xFFFFFFFF) := by
  have hmask : srMask (0x100 + n) = 0xFFFFFFFF := if_pos ⟨Nat.le_add_right .., by omega⟩
  have hhigh : ∀ i < 64, (0xFFFFFFFE00000000 : Word).getLsbD i = decide (33 ≤ i) := by decide
  have hsat : ∀ i < 64, (0x100000000 : Word).getLsbD i = decide (i = 32) := by decide
  have hlow : ∀ i < 64, (0xFFFFFFFF : Word).getLsbD i = decide (i < 32) := by decide
  rw [srMerge, hmask]
  apply BitVec.eq_of_getLsbD_eq
  intro i hi
  cases hy : y.getLsbD 32 with
  | false =>
    simp only [Bool.false_eq_true, if_false, BitVec.getLsbD_or, BitVec.getLsbD_and, BitVec.getLsbD_not, hhigh i hi, hsat i hi, hlow i hi,
      hi, decide_true, Bool.true_and]
    have hsplit : (!decide (i < 32)) = (decide (33 ≤ i) || decide (i = 32)) := by
      rw [Bool.eq_iff_iff]; simp; omega
    rw [hsplit, Bool.and_or_distrib_left]
  | true =>
    simp only [if_true, setField_getLsbD _ hi, BitVec.getLsbD_or, BitVec.getLsbD_and, BitVec.getLsbD_not, hhigh i hi, hlow i hi,
      hi, decide_true, Bool.true_and]
    by_cases h32 : i = 32
    · simp [h32]
    · have hout : ¬ (32 ≤ i ∧ i < 33) := by omega
      have hsplit : (!decide (i < 32)) = decide (33 ≤ i) := by
        rw [Bool.eq_iff_iff]; simp; omega
      have hzero : (0 : Word).getLsbD i = false := BitVec.getLsbD_zero
      simp only [hout, if_false, hsplit, hzero, Bool.or_false]

theorem CtxCore.putSb_counter (c : CtxCore) {n : Nat} (hn : n < 32) (y : Word) : c.putSb (0x100 + n) y y =
    { c with sbcnt := Tbl.put 0 c.sbcnt n ((Tbl.get 0 c.sbcnt n &&& 0xFFFFFFFE00000000) |||
      (if y.getLsbD 32 then 0 else Tbl.get 0 c.sbcnt n &&& 0x100000000) ||| (y &&& 0xFFFFFFFF)) } := by
  unfold CtxCore.putSb Tbl.upd
  rw [if_pos (by omega), Nat.add_sub_cancel_left]
  dsimp only
  rw [writtenCounter hn]

theorem CtxCore.putSb_term (c : CtxCore) {n : Nat} (hn : n < 32) (y : Word) :
    c.putSb (0x120 + n) y y = { c with sbterm := Tbl.put 0 c.sbterm n y } := by
  unfold CtxCore.putSb
  rw [if_neg (by omega), if_pos (by omega), Nat.add_sub_cancel_left]

theorem CtxCore.putSb_outlet (c : CtxCore) {n : Nat} (hn : n < 16) (y : Word) : c.putSb (0x140 + n) y y =
    { c with sbout := Tbl.put 0 c.sbout n ((Tbl.get 0 c.sbout n &&& ~~~0x000003FF07FFFFFF) ||| (y &&& 0x000003FF07FFFFFF)) } := by
  have hmask : srMask (0x140 + n) = 0x000003FF07FFFFFF := by
    unfold srMask
    rw [if_neg (by omega), if_pos ⟨Nat.le_add_right .., by omega⟩]
  unfold CtxCore.putSb Tbl.upd
  rw [if_neg (by omega), if_neg (by omega), Nat.add_sub_cancel_left]
  dsimp only [srMerge]
  rw [hmask]

end Sys2Proof.Machine
end

section
/-!
CERTIFICATE. The sluice board (R219 to R223, R394, R398).
-/

open Sys2Proof Sys2Proof.Machine

/-- R220 to R222, R398: the board's registers. -/
theorem sluiceRegisterResults : Claims.SluiceRegisterResults := by
  intro s t h p d a y ck x writes
  have hnumber (k : Nat) (hk : k < 0x150) : (BitVec.ofNat 12 k).toNat = k := by
    rw [BitVec.toNat_ofNat, Nat.mod_eq_of_lt (by omega)]
  have haccess (k : Nat) (old : Word) (c : CtxCore) (hlow : 0x100 ≤ k) (hk : k < 0x150) (hread : s.readSr s.unit.tk t k = some old)
      (hput : x.putSb k y y = c) : Leaves (.srr p d (BitVec.ofNat 12 k)) s (t.wg d.toNat old) ∧ writes k c := by
    rw [← hnumber k hk] at hread hlow hput
    exact ⟨Leaves.readSr h (exec_srr ..) hread rfl rfl, hput ▸ Leaves2.writeBoard h hlow hread p a⟩
  exact ⟨fun n hn => haccess _ _ _ (by omega) (by omega) (State.readSr_counter hn) (CtxCore.putSb_counter x hn y),
    fun n hn => haccess _ _ _ (by omega) (by omega) (State.readSr_term hn) (CtxCore.putSb_term x hn y),
    fun n hn => haccess _ _ _ (by omega) (by omega) (State.readSr_outlet hn) (CtxCore.putSb_outlet x hn y)⟩

/-- R219, R394: SBPULSE, SBCLR and a counter's pulses. -/
theorem sluiceBoardResults : Claims.SluiceBoardResults := by
  refine ⟨fun s t h p a => ⟨fun hsbuf hremote => ?_, fun hwf => ?_⟩, fun w n => ⟨countPulse_below, countPulse_saturates⟩⟩
  · have hcounted : KeepsUnit s (s.modCx (ckOfTk s.unit.tk) fun c => { c with
        sbcnt := Tbl.upd 0 c.sbcnt ((t.rg a.toNat).toNat % 32) fun w => countPulse w ((t.rg a.toNat).toNat / 256 % 256) }) :=
      ⟨rfl, rfl, fun _ => rfl⟩
    refine Leaves2.stays h rfl nofun (hcounted.trans (State.sluiceCheck_keepsUnit _)) ?_
    simp only [h.thread, (Thread.performed_iff h.pend).2 ⟨hsbuf, hremote⟩, Bool.not_true, Bool.false_eq_true, if_false, Laws.field_low]
    rfl
  · exact ⟨clearedCounters (t.rg a.toNat) (s.cx (ckOfTk s.unit.tk)).sbcnt,
      Leaves2.stays h rfl nofun ⟨rfl, rfl, fun _ => rfl⟩ rfl, clearedCounters_get hwf _⟩

/-- Settles O34: the registers, and the instructions on the counters. -/
theorem sluiceResults : Obligations.SluiceResults := ⟨sluiceRegisterResults, sluiceBoardResults⟩
end

section
/-!
SUPPORT. Sparse arrays and context cores written several times in a row, and the bytes of a result buffer.
-/

namespace Sys2Proof.Machine

variable {s : State} {ck : Nat}

/-- The last write at a key of a canonical array stands. -/
theorem Tbl.put_put_of_above {α : Type} [DecidableEq α] {z : α} {lo n : Nat} {t : Tbl α} (hwf : Tbl.above z lo t = true) (x y : α) :
    Tbl.put z (Tbl.put z t n x) n y = Tbl.put z t n y := by
  by_cases hx : x = z
  · subst hx
    induction t generalizing lo with
    | nil => simp [Tbl.put]
    | cons e t ih =>
      obtain ⟨k, v⟩ := e
      simp only [Tbl.above, Bool.and_eq_true, decide_eq_true_eq] at hwf
      obtain ⟨⟨-, hv⟩, hrest⟩ := hwf
      by_cases hlt : n < k
      · simp [Tbl.put, hlt]
      · by_cases hkn : k = n
        · subst hkn
          cases t with
          | nil => simp [Tbl.put]
          | cons e t =>
            simp only [Tbl.above, Bool.and_eq_true, decide_eq_true_eq] at hrest
            simp [Tbl.put, show k < e.1 from hrest.1.1]
        · simp [Tbl.put, hlt, hkn, ih hrest]
  · exact Tbl.put_put z t n x y hx

theorem State.cx_modCx (hwf : Tbl.wf {} s.ctx = true) (f : CtxCore → CtxCore) : (s.modCx ck f).cx ck = f (s.cx ck) :=
  Tbl.get_put_same _ _ _ _ hwf

theorem State.modCx_modCx (hwf : Tbl.wf {} s.ctx = true) (f g : CtxCore → CtxCore) :
    (s.modCx ck f).modCx ck g = s.modCx ck (g ∘ f) := by
  rw [State.modCx, State.cx_modCx hwf]
  simp only [State.modCx, State.setCx, Function.comp_apply, Tbl.put_put_of_above (lo := 0) hwf]

theorem State.modCx_congr {f g : CtxCore → CtxCore} (h : f (s.cx ck) = g (s.cx ck)) : s.modCx ck f = s.modCx ck g := by
  rw [State.modCx, h, State.modCx]

theorem State.modCx_self (hwf : Tbl.wf {} s.ctx = true) {f : CtxCore → CtxCore} (h : f (s.cx ck) = s.cx ck) : s.modCx ck f = s := by
  have hctx : Tbl.put {} s.ctx ck (s.cx ck) = s.ctx := Tbl.put_self hwf ck
  rw [State.modCx, h, State.setCx, hctx]

theorem State.wf_modCx (hwf : Tbl.wf {} s.ctx = true) (f : CtxCore → CtxCore) : Tbl.wf {} (s.modCx ck f).ctx = true :=
  Tbl.wf_put _ _ _ _ hwf

/-- A field of a spliced vector is the value spliced in. -/
theorem bytesAt_putBytes_zero (v : Vec) {n x : Nat} (hn : n ≤ 64) (hx : x < 2 ^ (8 * n)) : bytesAt (putBytes v 0 n x) 0 n = x := by
  have hlow : ∀ i < 8 * n, (putBytes v 0 n x).getLsbD i = x.testBit i := by
    intro i hi
    have hi512 : i < 512 := by omega
    simp only [putBytes, splice, mul_zero, BitVec.shiftLeft_zero, BitVec.getLsbD_or, BitVec.getLsbD_and, BitVec.getLsbD_not,
      BitVec.getLsbD_ofNat, Nat.testBit_two_pow_sub_one, hi512, hi, Nat.mod_eq_of_lt hx, decide_true, Bool.and_true, Bool.true_and,
      Bool.not_true, Bool.and_false, Bool.false_or]
  apply Nat.eq_of_testBit_eq
  intro i
  rw [bytesAt, mul_zero, pow_zero, Nat.div_one, Nat.testBit_mod_two_pow]
  by_cases hi : i < 8 * n
  · rw [decide_eq_true hi, Bool.true_and]
    exact hlow i hi
  · simp [hi, Nat.testBit_lt_two_pow (hx.trans_le (Nat.pow_le_pow_right (by decide) (Nat.le_of_not_lt hi)))]

end Sys2Proof.Machine
end

section
/-!
SUPPORT. A pending result of one reply: the reply binds it (R196, R209).
-/

namespace Sys2Proof.Machine

variable {s : State} {u : Thread} {tk n d : Nat} {p : Pending}

theorem Thread.resultBound_ready (h : u.st = .ready) : u.resultBound = u := by simp [Thread.resultBound, h]

/-- The one piece of a pending result of 8 bytes. -/
def Pending.oneReply (p : Pending) (n : Nat) : Pending := { p with lanes := [{ src := .reply, txid := n, len := 8 }] }

theorem Thread.findTx_oneReply (hn : n ≠ 0) : ({ u with pend := [p.oneReply n] } : Thread).findTx n = some (p.oneReply n, 0) := by
  simp [Thread.findTx, Pending.oneReply, hn]

section binds
variable (hthr : s.thr tk = some { u with pend := [p.oneReply n] }) (hn : n ≠ 0) (hundo : p.undo = none) (hpoison : p.poison = none)
  (hfault : p.fault = none) (hpend : u.pend = [])
include hthr hn hundo hpoison hfault hpend

/-- The reply's bytes are written to the result's register, and the result ends. -/
theorem State.replyLane_binds (x : Word) : s.replyLane tk n (x.setWidth 512) none =
    ((s.setThr tk u).bindFin tk p.fin (putBytes p.buf 0 8 (bytesAt (x.setWidth 512) 0 8))).modThr tk Thread.resultBound := by
  have hrest : ({ u with pend := [] } : Thread) = u := by rw [← hpend]
  have hfill : (p.oneReply n).fill 0 (x.setWidth 512) none =
      { p with lanes := [{ src := .reply, txid := n, len := 8, done := true }], buf := putBytes p.buf 0 8 (bytesAt (x.setWidth 512) 0 8) } := by
    simp [Pending.fill, Pending.oneReply]
  simp only [State.replyLane, hthr, Thread.findTx_oneReply hn, State.fillLane]
  rw [State.modThr_some s tk _ _ hthr]
  simp only [mapIf, List.map_cons, List.map_nil, beq_self_eq_true, if_true, hfill]
  simp only [State.bindPend, State.thr_setThr, Pending.oneReply, List.find?_cons, beq_self_eq_true, Pending.complete, Pending.bad, hpoison,
    hfault, State.releaseHeld, hundo, List.all_cons, List.all_nil, Bool.and_true, Bool.not_true, Option.isSome_none, Bool.or_false,
    Bool.false_eq_true, if_false]
  rw [State.modThr_some _ tk _ _ (State.thr_setThr ..), State.setThr_setThr]
  simp [hrest]

/-- A result without a register ends. -/
theorem State.replyLane_none (hst : u.st = .ready) (hfin : p.fin = .none) (x : Word) :
    s.replyLane tk n (x.setWidth 512) none = s.setThr tk u := by
  rw [State.replyLane_binds hthr hn hundo hpoison hfault hpend, hfin, State.bindFin, State.modThr_some _ tk u _ (State.thr_setThr ..),
    Thread.resultBound_ready hst, State.setThr_setThr]

/-- A register of 8 bytes takes the reply's word. -/
theorem State.replyLane_word (hst : u.st = .ready) (hports : u.portcfg = 0) (hfin : p.fin = .gz d 8) (x : Word) :
    s.replyLane tk n (x.setWidth 512) none = s.setThr tk (u.wg d x) := by
  have hword : word (bytesAt (putBytes p.buf 0 8 (bytesAt (x.setWidth 512) 0 8)) 0 8) = x := by
    have hlt : bytesAt (x.setWidth 512) 0 8 < 2 ^ (8 * 8) := Nat.mod_lt _ (by decide)
    rw [bytesAt_putBytes_zero _ (by decide) hlt, word_bytesAt_setWidth]
  rw [State.replyLane_binds hthr hn hundo hpoison hfault hpend, hfin, State.bindFin, hword,
    State.writeG_plain tk d x u (State.thr_setThr ..) hports, State.setThr_setThr, State.modThr_some _ tk _ _ (State.thr_setThr ..),
    Thread.resultBound_ready (by simpa using hst), State.setThr_setThr]

end binds
end Sys2Proof.Machine
end

section
/-!
SUPPORT. Full/empty words: one request on a word where none is parked, and a store that never parks (R208, R343, R344).
-/

namespace Sys2Proof.Machine

variable {s : State} {u t : Thread} {tk ck off la n d : Nat} {q : Parked} {p : Pending} {x ea : Word}

/-! ## One pass over one request -/

section pass
variable {w : Nat} (hword : q.off / 8 = w)
include hword

theorem State.settlePass_stays (h : if q.kind = .stfe then s.fullBit ck (8 * w) = true else s.fullBit ck (8 * w) = false) :
    s.settlePass ck w [q] [] = (s, [q], false) := by
  cases hkind : q.kind <;> simp only [hkind, reduceCtorEq, if_true, if_false] at h <;> simp [State.settlePass, hword, hkind, h]

theorem State.settlePass_ldff (hkind : q.kind = .ldff) (hfull : s.fullBit ck (8 * w) = true) : s.settlePass ck w [q] [] =
    (s.completeParked ck q (some (word (s.poolRead ck (8 * w) 8))) (s.poolPoison ck (8 * w) 8).isSome, [], false) := by
  simp [State.settlePass, hword, hkind, hfull]

theorem State.settlePass_ldfe (hkind : q.kind = .ldfe) (hfull : s.fullBit ck (8 * w) = true) : s.settlePass ck w [q] [] =
    ((s.completeParked ck q (some (word (s.poolRead ck (8 * w) 8))) (s.poolPoison ck (8 * w) 8).isSome).setFull ck (8 * w) false, [], true) := by
  simp [State.settlePass, hword, hkind, hfull]

theorem State.settlePass_stfe (hkind : q.kind = .stfe) (hempty : s.fullBit ck (8 * w) = false) : s.settlePass ck w [q] [] =
    (((s.poolWrite ck (8 * w) (leBytes 8 q.value.toNat)).setFull ck (8 * w) true).completeParked ck q none false, [], true) := by
  simp [State.settlePass, hword, hkind, hempty]

end pass

/-- Settling a word where nothing is parked changes nothing. -/
theorem State.settleN_idle (hwf : Tbl.wf {} s.ctx = true) (hidle : (s.cx ck).parked = []) (w fuel : Nat) : s.settleN ck w fuel = s := by
  cases fuel with
  | zero => rfl
  | succ fuel =>
    simp only [State.settleN, hidle, State.settlePass, List.reverse_nil, Bool.false_eq_true, if_false]
    exact State.modCx_self hwf (by rw [← hidle])

/-- A core with a word written and filled. -/
def CtxCore.fillWord (off : Nat) (l : List Byte) (c : CtxCore) : CtxCore :=
  { c.poolWrite off l with full := Tbl.put false c.full (off / 8) true }

theorem State.fillWord_eq (hwf : Tbl.wf {} s.ctx = true) (off : Nat) (l : List Byte) :
    (s.poolWrite ck off l).setFull ck off true = s.modCx ck (CtxCore.fillWord off l) := State.modCx_modCx hwf _ _

/-- A store that never parks. -/
theorem State.stff_idle (hwf : Tbl.wf {} s.ctx = true) (hidle : (s.cx ck).parked = []) (x : Word) :
    s.stff ck off x = (s.poolWrite ck off (leBytes 8 x.toNat)).setFull ck off true := by
  rw [State.stff, State.fillWord_eq hwf]
  exact State.settleN_idle (State.wf_modCx hwf _) (by rw [State.cx_modCx hwf]; exact hidle) _ _

/-! ## A request on a word where none is parked -/

/-- A core with one request parked, and with none. -/
def CtxCore.parkOne (q : Parked) (c : CtxCore) : CtxCore := { c with parked := [q] }
def CtxCore.parkNone (c : CtxCore) : CtxCore := { c with parked := [] }

/-- A pass that takes the one request off its list ends the settling. -/
theorem State.settleN_ends {s2 : State} {w : Nat} {moved : Bool} (hparked : (s.cx ck).parked = [q])
    (hpass : s.settlePass ck w [q] [] = (s2, [], moved)) (hwf : Tbl.wf {} s2.ctx = true) : s.settleN ck w 2 = s2.modCx ck CtxCore.parkNone := by
  rw [State.settleN, hparked, hpass]
  cases moved with
  | false => rfl
  | true => exact State.settleN_idle (State.wf_modCx hwf _) (by rw [State.cx_modCx hwf]) _ _

section park
variable (hwf : Tbl.wf {} s.ctx = true) (hidle : (s.cx ck).parked = [])
include hwf hidle

theorem State.park_settles : s.park ck q = (s.modCx ck (CtxCore.parkOne q)).settleN ck (q.off / 8) 2 := by
  have hlist : (s.modCx ck fun c => { c with parked := c.parked ++ [q] }) = s.modCx ck (CtxCore.parkOne q) :=
    State.modCx_congr (by rw [hidle]; rfl)
  have hlength : ((s.modCx ck (CtxCore.parkOne q)).cx ck).parked.length = 1 := by rw [State.cx_modCx hwf]; rfl
  rw [State.park, hlist, State.settle, hlength]

omit hidle in
/-- A parked request leaves its word as it is. -/
theorem State.parkOne_word (w : Nat) : (s.modCx ck (CtxCore.parkOne q)).fullBit ck w = s.fullBit ck w ∧
    (s.modCx ck (CtxCore.parkOne q)).poolRead ck w 8 = s.poolRead ck w 8 ∧
    (s.modCx ck (CtxCore.parkOne q)).poolPoison ck w 8 = s.poolPoison ck w 8 := by
  simp only [State.fullBit, State.poolRead, State.poolPoison, State.cx_modCx hwf]
  exact ⟨rfl, rfl, rfl⟩

/-- A request that does not proceed is parked. -/
theorem State.park_stays (h : if q.kind = .stfe then s.fullBit ck (8 * (q.off / 8)) = true else s.fullBit ck (8 * (q.off / 8)) = false) :
    s.park ck q = s.modCx ck (CtxCore.parkOne q) := by
  obtain ⟨hfull, -, -⟩ := State.parkOne_word hwf (q := q) (8 * (q.off / 8))
  have hpass := State.settlePass_stays (s := s.modCx ck (CtxCore.parkOne q)) (ck := ck) (q := q) rfl (by rwa [hfull])
  have hparked : ((s.modCx ck (CtxCore.parkOne q)).cx ck).parked = [q] := by rw [State.cx_modCx hwf]; rfl
  simp only [State.park_settles hwf hidle, State.settleN, hparked, hpass, Bool.false_eq_true, if_false]
  exact State.modCx_self (State.wf_modCx hwf _) (by rw [State.cx_modCx hwf]; rfl)

/-- What happens between a request's parking and its end is as if it had never been parked. -/
theorem State.parkOne_parkNone {g : CtxCore → CtxCore} (hg : (g ((s.cx ck).parkOne q)).parkNone = g { s.cx ck with parked := [] }) :
    ((s.modCx ck (CtxCore.parkOne q)).modCx ck g).modCx ck CtxCore.parkNone = s.modCx ck g := by
  rw [State.modCx_modCx (State.wf_modCx hwf _), State.modCx_modCx hwf]
  refine State.modCx_congr (hg.trans ?_)
  rw [← hidle]

/-- A reply to a thread whose result it binds leaves the thread as `v`, whatever the rest of the machine. -/
def State.Replies (s : State) (q : Parked) (y : Word) (v : Thread) : Prop :=
  ∀ s' : State, s'.threads = s.threads → s'.replyLane q.tk q.txid (y.setWidth 512) none = s'.setThr q.tk v

section proceeds
variable {v : Thread} {y : Word} (hremote : q.remote = false)
include hremote

omit hwf hidle in
theorem State.completeParked_local {s' : State} (hthreads : s'.threads = s.threads) {o : Option Word} (hreply : s.Replies q (o.getD 0) v) :
    s'.completeParked ck q o false = s'.setThr q.tk v := by
  simp only [State.completeParked, State.spReply, hremote, Bool.false_eq_true, if_false]
  exact hreply s' hthreads

section full
variable (hfull : s.fullBit ck (8 * (q.off / 8)) = true) (hclean : s.poolPoison ck (8 * (q.off / 8)) 8 = none)
  (hreply : s.Replies q (word (s.poolRead ck (8 * (q.off / 8)) 8)) v)
include hfull hclean hreply

/-- LDFF on a full word takes the data. -/
theorem State.park_ldff (hkind : q.kind = .ldff) : s.park ck q = s.setThr q.tk v := by
  obtain ⟨hbit, hread, hpoison⟩ := State.parkOne_word hwf (q := q) (8 * (q.off / 8))
  have hpass := State.settlePass_ldff (q := q) rfl hkind (hbit.trans hfull)
  have hreplied := State.completeParked_local (s' := s.modCx ck (CtxCore.parkOne q)) (ck := ck)
    (o := some (word (s.poolRead ck (8 * (q.off / 8)) 8))) hremote rfl hreply
  rw [hread, hpoison, hclean, Option.isSome_none, hreplied] at hpass
  have hwf1 : Tbl.wf {} (s.modCx ck (CtxCore.parkOne q)).ctx = true := State.wf_modCx hwf _
  have hparked : ((s.modCx ck (CtxCore.parkOne q)).cx ck).parked = [q] := by rw [State.cx_modCx hwf]; rfl
  rw [State.park_settles hwf hidle, State.settleN_ends hparked hpass hwf1]
  refine (State.modCx_modCx (s := s.setThr q.tk v) hwf _ _).trans (State.modCx_self (s := s.setThr q.tk v) hwf ?_)
  show ((s.cx ck).parkOne q).parkNone = s.cx ck
  rw [CtxCore.parkNone, ← hidle]; rfl

/-- LDFE on a full word takes the data and empties the word. -/
theorem State.park_ldfe (hkind : q.kind = .ldfe) : s.park ck q = (s.setFull ck (8 * (q.off / 8)) false).setThr q.tk v := by
  obtain ⟨hbit, hread, hpoison⟩ := State.parkOne_word hwf (q := q) (8 * (q.off / 8))
  have hpass := State.settlePass_ldfe (q := q) rfl hkind (hbit.trans hfull)
  have hreplied := State.completeParked_local (s' := s.modCx ck (CtxCore.parkOne q)) (ck := ck)
    (o := some (word (s.poolRead ck (8 * (q.off / 8)) 8))) hremote rfl hreply
  rw [hread, hpoison, hclean, Option.isSome_none, hreplied] at hpass
  have hwf1 : Tbl.wf {} (s.modCx ck (CtxCore.parkOne q)).ctx = true := State.wf_modCx hwf _
  have hwf2 : Tbl.wf {} ((s.modCx ck (CtxCore.parkOne q)).setFull ck (8 * (q.off / 8)) false).ctx = true := State.wf_modCx hwf1 _
  have hparked : ((s.modCx ck (CtxCore.parkOne q)).cx ck).parked = [q] := by rw [State.cx_modCx hwf]; rfl
  rw [State.park_settles hwf hidle, State.settleN_ends hparked hpass hwf2]
  exact State.parkOne_parkNone (s := s.setThr q.tk v) hwf hidle rfl

end full

/-- STFE on an empty word writes and fills it. -/
theorem State.park_stfe (hkind : q.kind = .stfe) (hempty : s.fullBit ck (8 * (q.off / 8)) = false) (hreply : s.Replies q 0 v) :
    s.park ck q =
      ((s.poolWrite ck (8 * (q.off / 8)) (leBytes 8 q.value.toNat)).setFull ck (8 * (q.off / 8)) true).setThr q.tk v := by
  obtain ⟨hbit, -, -⟩ := State.parkOne_word hwf (q := q) (8 * (q.off / 8))
  have hpass := State.settlePass_stfe (q := q) rfl hkind (hbit.trans hempty)
  have hwf1 : Tbl.wf {} (s.modCx ck (CtxCore.parkOne q)).ctx = true := State.wf_modCx hwf _
  have hreplied := State.completeParked_local (ck := ck) (o := none)
    (s' := (s.modCx ck (CtxCore.parkOne q)).modCx ck (CtxCore.fillWord (8 * (q.off / 8)) (leBytes 8 q.value.toNat))) hremote rfl hreply
  have hwf2 : Tbl.wf {} ((s.modCx ck (CtxCore.parkOne q)).modCx ck
      (CtxCore.fillWord (8 * (q.off / 8)) (leBytes 8 q.value.toNat))).ctx = true := State.wf_modCx hwf1 _
  have hparked : ((s.modCx ck (CtxCore.parkOne q)).cx ck).parked = [q] := by rw [State.cx_modCx hwf]; rfl
  rw [State.fillWord_eq hwf1, hreplied] at hpass
  rw [State.park_settles hwf hidle, State.settleN_ends hparked hpass hwf2, State.fillWord_eq hwf]
  exact State.parkOne_parkNone (s := s.setThr q.tk v) hwf hidle rfl

end proceeds

end park

/-! ## The instructions' requests (R343, R344) -/

/-- The machine with the request's tag drawn and its pending result opened, before the request is parked. -/
def State.syncOpened (s : State) (u : Thread) (la : Nat) (p : Pending) : State :=
  let r := s.newTx s.unit.core
  r.1.tickClock.setThr s.unit.tk { u with pend := [({ p with id := s.clock, window := la + 1, upc := s.unit.addr } : Pending).oneReply r.2] }

theorem State.parkLocal_eq (hlone : s.unit.phase = .lone) (hthr : s.thr s.unit.tk = some u) (hpend : u.pend = []) (k : ParkKind) :
    s.parkLocal s.unit.tk la ck off k x p = (s.syncOpened u la p).park ck
      { off := off, kind := k, value := x, tk := s.unit.tk, txid := (s.newTx s.unit.core).2 } := by
  simp only [State.parkLocal]
  rw [State.addPend_one (s := (s.newTx s.unit.core).1) hlone hthr hpend]
  rfl

section replies
variable (hundo : p.undo = none) (hpoison : p.poison = none) (hfault : p.fault = none) (hpend : u.pend = []) (hst : u.st = .ready)
  (htk : q.tk = s.unit.tk) (htx : q.txid = (s.newTx s.unit.core).2)
include hundo hpoison hfault hpend hst htk htx

theorem State.syncOpened_replies_none (hfin : p.fin = .none) : (s.syncOpened u la p).Replies q x u := by
  intro s' hthreads
  have hthr : s'.thr s.unit.tk = (s.syncOpened u la p).thr s.unit.tk := congrArg (Tbl.get none · s.unit.tk) hthreads
  rw [htk, htx]
  exact State.replyLane_none (hthr.trans (State.thr_setThr ..)) (Nat.succ_ne_zero _) hundo hpoison hfault hpend hst hfin x

theorem State.syncOpened_replies_word (hports : u.portcfg = 0) (hfin : p.fin = .gz d 8) :
    (s.syncOpened u la p).Replies q x (u.wg d x) := by
  intro s' hthreads
  have hthr : s'.thr s.unit.tk = (s.syncOpened u la p).thr s.unit.tk := congrArg (Tbl.get none · s.unit.tk) hthreads
  rw [htk, htx]
  exact State.replyLane_word (hthr.trans (State.thr_setThr ..)) (Nat.succ_ne_zero _) hundo hpoison hfault hpend hst hports hfin x

end replies

section access
variable (hthr : s.thr tk = some t) (htarget : s.target tk ea 8 8 false true = .ok (.pool ck off)) (hlocal : s.isLocal ck = true)
  (hfree : s.jobHolds tk (.pool ck off) 8 true = false)
include hthr htarget hlocal hfree

theorem State.syncLoad_local (hremote : t.remote = []) (k : ParkKind) : s.syncLoad tk la ea k d =
    .done (s.parkLocal tk la ck off k 0 { kind := .fullEmpty ea, dsts := [.g d], fin := .gz d 8, acq := true }) none := by
  simp [State.syncLoad, hthr, htarget, hlocal, hfree, Thread.remoteHolds, hremote]

section performed
variable (hperformed : t.performed = true)
include hperformed

theorem State.syncStore_waits : s.syncStore tk ea x true = .done (s.parkLocal tk 0 ck off .stfe x { kind := .fullEmpty ea }) none := by
  simp [State.syncStore, hthr, htarget, hlocal, hfree, hperformed]

theorem State.syncStore_goesOn : s.syncStore tk ea x false = .done (s.stff ck off x) none := by
  simp [State.syncStore, hthr, htarget, hlocal, hfree, hperformed]

end performed
end access
end Sys2Proof.Machine
end

section
/-!
CERTIFICATE. Full/empty loads and stores (R208, R343, R344).
-/

open Sys2Proof Sys2Proof.Machine

/-- Settles O11: one request on a word where none is parked, as it proceeds and as it waits. -/
theorem fullEmptyResults : Obligations.FullEmptyResults := by
  unfold Obligations.FullEmptyResults
  intro s t h hcanonical hready hsbuf hremote p d a l ck off tk ea x w r s1 wait result htarget hlocal hidle hfree hclean
  have hperformed : t.performed = true := (Thread.performed_iff h.pend).2 ⟨hsbuf, hremote⟩
  have hload (k : ParkKind) := (State.syncLoad_local (la := l.toNat) (d := d.toNat) h.thread htarget hlocal hfree hremote k).trans
    (congrArg (CRes.done · none) (State.parkLocal_eq h.lone h.thread h.pend k))
  have hstore := (State.syncStore_waits (x := x) h.thread htarget hlocal hfree hperformed).trans
    (congrArg (CRes.done · none) (State.parkLocal_eq h.lone h.thread h.pend .stfe))
  have hwf := hcanonical.ctx
  refine ⟨fun hfull => ⟨?_, ?_, ?_⟩, fun hempty => ⟨?_, ?_, ?_⟩, ?_⟩
  · refine Leaves2.word h rfl nofun ⟨rfl, rfl, fun _ => rfl⟩ ((hload .ldfe).trans (congrArg (CRes.done · none) ?_))
      (by simpa using h.flumes) (by simpa using h.pend) (by simp)
    refine (State.park_ldfe (s := s.syncOpened t _ _) hwf hidle rfl ?_ ?_ ?_ rfl).trans (State.setThr_setThr (s1.setFull ck w false) ..)
    · exact hfull
    · exact hclean
    · exact State.syncOpened_replies_word rfl rfl rfl h.pend hready rfl rfl h.ports rfl
  · refine Leaves2.word h rfl nofun ⟨rfl, rfl, fun _ => rfl⟩ ((hload .ldff).trans (congrArg (CRes.done · none) ?_))
      (by simpa using h.flumes) (by simpa using h.pend) (by simp)
    refine (State.park_ldff (s := s.syncOpened t _ _) hwf hidle rfl ?_ ?_ ?_ rfl).trans (State.setThr_setThr s1 ..)
    · exact hfull
    · exact hclean
    · exact State.syncOpened_replies_word rfl rfl rfl h.pend hready rfl rfl h.ports rfl
  · exact Awaits.opens (la := 0) (q := result 0 .none [] false) h rfl nofun ⟨rfl, rfl, fun _ => rfl⟩
      (hstore.trans (congrArg (CRes.done · none) (State.park_stays (s := s.syncOpened t _ _) hwf hidle hfull))) h.flumes rfl hready
  · exact Awaits.opens (la := l.toNat) (q := result 0 (.gz d.toNat 8) [.g d.toNat] true) h rfl nofun ⟨rfl, rfl, fun _ => rfl⟩
      ((hload .ldfe).trans (congrArg (CRes.done · none) (State.park_stays (s := s.syncOpened t _ _) hwf hidle hempty))) h.flumes rfl hready
  · exact Awaits.opens (la := l.toNat) (q := result 0 (.gz d.toNat 8) [.g d.toNat] true) h rfl nofun ⟨rfl, rfl, fun _ => rfl⟩
      ((hload .ldff).trans (congrArg (CRes.done · none) (State.park_stays (s := s.syncOpened t _ _) hwf hidle hempty))) h.flumes rfl hready
  · refine Leaves2.word h rfl nofun ⟨rfl, rfl, fun _ => rfl⟩ (hstore.trans (congrArg (CRes.done · none) ?_)) h.flumes h.pend rfl
    refine (State.park_stfe (s := s.syncOpened t _ _) hwf hidle rfl rfl ?_ ?_).trans
      (State.setThr_setThr ((s1.poolWrite ck w (leBytes 8 x.toNat)).setFull ck w true) ..)
    · exact hempty
    · exact State.syncOpened_replies_none rfl rfl rfl h.pend hready rfl rfl rfl
  · refine Leaves2.stays h rfl nofun ⟨rfl, rfl, fun _ => rfl⟩
      ((State.syncStore_goesOn h.thread htarget hlocal hfree hperformed).trans ?_)
    rw [State.stff_idle hwf hidle]
end

section
/-!
SUPPORT. A core's miss: what it asks the home for leaves the threads, the unit in issue, the counters and the clock as they are, and does
not depend on the threads (R47, R60).
-/

namespace Sys2Proof.Machine

variable {s : State} {a line tk : Nat} {u : Thread}

theorem State.abortEntries_keepsUnit : KeepsUnit s s.abortEntries := by
  refine ⟨rfl, rfl, fun c => ?_⟩
  have hmap (l : List (Nat × Cluster)) : (Tbl.get ({} : Cluster) (l.map fun e : Nat × Cluster =>
      (e.1, if e.2.entry = .begun then { e.2 with entry := .aborted } else e.2)) c).cycle = (Tbl.get ({} : Cluster) l c).cycle := by
    induction l with
    | nil => rfl
    | cons e l ih =>
      simp only [List.map_cons, Tbl.get]
      split
      · split <;> rfl
      · split
        · rfl
        · exact ih
  exact hmap s.clusters

/-- A message of an agent, of whatever class, changes what is under way, the host's credits and the entries to LS2. -/
theorem State.agentSend_quiet (cls : Nat) (e : Ev) : KeepsUnit s (s.agentSend a cls e) ∧ (s.agentSend a cls e).clock = s.clock := by
  by_cases hcls : cls = 0
  · subst hcls
    unfold State.agentSend
    dsimp only
    split
    · split
      · exact ⟨⟨rfl, rfl, fun _ => rfl⟩, rfl⟩
      · exact ⟨State.abortEntries_keepsUnit.trans ⟨rfl, rfl, fun _ => rfl⟩, rfl⟩
    · exact ⟨⟨rfl, rfl, fun _ => rfl⟩, rfl⟩
  · exact State.agentSend_keepsUnit hcls a e

theorem State.agentSend_setThr (cls : Nat) (e : Ev) : (s.setThr tk u).agentSend a cls e = (s.agentSend a cls e).setThr tk u := by
  have hport : (s.setThr tk u).port = s.port := rfl
  have hwaiting : (s.setThr tk u).hostWaiting a cls = s.hostWaiting a cls := rfl
  simp only [State.agentSend, hport, hwaiting]
  split
  · split
    · rfl
    · split <;> rfl
  · rfl

theorem State.replaceLine_setThr : (s.setThr tk u).replaceLine a line = (s.replaceLine a line).setThr tk u := by
  have hline : (s.setThr tk u).al a line = s.al a line := rfl
  have hset (x : ALine) : (s.setThr tk u).setAl a line x = (s.setAl a line x).setThr tk u := rfl
  simp only [State.replaceLine, hline, hset, State.agentSend_setThr]
  split <;> rfl

theorem State.makeRoom_setThr : (s.setThr tk u).makeRoom a line = (s.makeRoom a line).map (·.setThr tk u) := by
  have hlines : (s.setThr tk u).linesOf a = s.linesOf a := rfl
  have htag : (s.setThr tk u).tagOfCore a = s.tagOfCore a := rfl
  simp only [State.makeRoom, hlines, htag, State.replaceLine_setThr]
  split
  · rfl
  · split
    · rfl
    · split
      · rfl
      · rw [Option.map_map]; rfl

/-- The room that a miss of an agent finds: a core needs a miss entry and a way, a host agent nothing. -/
def State.missRoom (s : State) (a line : Nat) : Option State := if a < 64 then s.makeRoom a line else some s

theorem State.missRoom_setThr : (s.setThr tk u).missRoom a line = (s.missRoom a line).map (·.setThr tk u) := by
  unfold State.missRoom
  split
  · exact State.makeRoom_setThr
  · rfl

/-- A miss on a line that the agent does not hold. -/
theorem State.agentMiss_invalid (h : (s.al a line).st = .i) (store : Bool) : s.agentMiss a line store = match s.missRoom a line with
    | some v => (v.setAl a line { st := if store then .imD else .isD, used := v.clock, tag := v.tagOfCore a, store := (s.al a line).store }).sendCaching
        a line (if store then .imD else .isD)
    | none => s := by
  simp only [State.agentMiss, h, State.missRoom] <;> rfl

theorem State.sendCaching_setThr (k : AState) : (s.setThr tk u).sendCaching a line k = (s.sendCaching a line k).setThr tk u :=
  State.agentSend_setThr ..

theorem State.agentMiss_setThr (h : (s.al a line).st = .i) (store : Bool) :
    (s.setThr tk u).agentMiss a line store = (s.agentMiss a line store).setThr tk u := by
  rw [State.agentMiss_invalid (s := s.setThr tk u) h, State.agentMiss_invalid h, State.missRoom_setThr]
  cases s.missRoom a line with
  | none => rfl
  | some v => exact State.sendCaching_setThr (s := v.setAl a line _) _

theorem State.missRoom_quiet {v : State} (h : s.missRoom a line = some v) : KeepsUnit s v ∧ v.clock = s.clock := by
  unfold State.missRoom State.makeRoom at h
  dsimp only at h
  split at h
  · split at h
    · cases h
    · split at h
      · cases h; exact ⟨.rfl, rfl⟩
      · split at h
        · cases h
        · obtain ⟨w, -, rfl⟩ := Option.map_eq_some_iff.1 h
          exact State.replaceLine_keepsUnit a w
  · cases h; exact ⟨.rfl, rfl⟩

/-- A miss on a line that the agent does not hold changes nothing that the unit's completion reads. -/
theorem State.agentMiss_quiet (h : (s.al a line).st = .i) (store : Bool) :
    KeepsUnit s (s.agentMiss a line store) ∧ (s.agentMiss a line store).clock = s.clock := by
  rw [State.agentMiss_invalid h]
  cases hroom : s.missRoom a line with
  | none => exact ⟨.rfl, rfl⟩
  | some v =>
    obtain ⟨hk, hclock⟩ := State.missRoom_quiet hroom
    have hset (x : ALine) : KeepsUnit v (v.setAl a line x) := ⟨rfl, rfl, fun _ => rfl⟩
    exact ⟨hk.trans ((hset _).trans (State.agentSend_quiet ..).1), (State.agentSend_quiet ..).2.trans hclock⟩

end Sys2Proof.Machine
end

section
/-!
SUPPORT. Scalar loads and stores of memory: one piece of one line, found in the core's L1 or asked for (R206, R333, R334, R338).
-/

namespace Sys2Proof.Machine

variable {s s1 : State} {t u : Thread} {tk va pa n la d : Nat} {ea x : Word} {fin : Fin_} {acq : Bool} {i : Instr}

/-! ## One piece -/

/-- A size of a scalar access. -/
def ScalarSize (n : Nat) : Prop := n = 1 ∨ n = 2 ∨ n = 4 ∨ n = 8

theorem ScalarSize.le (hn : ScalarSize n) : n ≤ 8 := by rcases hn with rfl | rfl | rfl | rfl <;> decide

theorem State.target_aligned (h : s.target tk ea n n true true = .ok (.mem va)) : ea.toNat % n = 0 := by
  unfold State.target at h
  split at h
  · split at h
    · cases h
    · split at h
      · cases h
      · split at h <;> cases h
  · split at h
    · cases h
    · split at h
      · cases h
      · exact Decidable.not_not.1 ‹_›

/-- An aligned scalar access lies in one line. -/
theorem pieces_one (hn : ScalarSize n) (haligned : va % n = 0) : (Target.mem va).pieces n 0 = [⟨.mem va, n, 0⟩] := by
  have hfits : min n (64 - va % 64) = n := by
    rcases hn with rfl | rfl | rfl | rfl <;> omega
  simp [Target.pieces, pieces, hfits]

section access
variable {r w : Bool} (hn : ScalarSize n) (htarget : s.target tk ea n n true true = .ok (.mem ea.toNat))
  (hxlat : s.xlatThread tk t ea.toNat r w false = .pa s1 pa)
include hn htarget hxlat

theorem State.planAll_one : s.planAll tk t r w (some ea) ((Target.mem ea.toNat).pieces n 0) = .ok (s1, [⟨.mem pa, n, 0⟩]) := by
  rw [pieces_one hn (State.target_aligned htarget)]
  simp [State.planAll, hxlat]

end access

/-- The load of one piece, once its address translates. -/
theorem State.load_one (hn : ScalarSize n) (hthr : s.thr tk = some t) (hpend : t.pend = [])
    (htarget : s.target tk ea n n true true = .ok (.mem ea.toNat)) (hxlat : s.xlatThread tk t ea.toNat true false false = .pa s1 pa)
    (hfree : s.jobHolds tk (.mem ea.toNat) n false = false) (dsts : List Dst) :
    s.load tk ea n n la dsts fin acq = s1.startLoad tk la [⟨.mem pa, n, 0⟩] dsts fin acq := by
  simp [State.load, hthr, htarget, State.planAll_one hn htarget hxlat, hfree, Thread.remoteHolds, Thread.readHolds, Thread.atomicHolds, hpend]

/-- A register takes the bytes of a load as the instruction extends them. -/
theorem State.bindFin_extended (hthr : s.thr tk = some u) (hports : u.portcfg = 0) (hn : n ≤ 64) {x : Nat} (hx : x < 2 ^ (8 * n))
    (hfin : fin = .gz d n ∨ fin = .gs d n) : s.bindFin tk fin (putBytes 0 0 n x) = s.setThr tk (u.wg d (extended fin n x)) := by
  rcases hfin with rfl | rfl <;>
    rw [State.bindFin, bytesAt_putBytes_zero _ hn hx, State.writeG_plain tk d _ u hthr hports] <;> rfl

section load
variable {c : Nat} (hthr : s.thr tk = some t) (hsbuf : t.sbuf = []) (hcore : s.unit.core = c)
include hthr hsbuf hcore

/-- A line that the L1 holds readable gives the bytes, and becomes the last one used. -/
theorem State.startLoad_hit (hn : n ≤ 64) (hports : t.portcfg = 0) (hfin : fin = .gz d n ∨ fin = .gs d n)
    (hread : (s.al c (pa / 64)).st.readable = true) (hclean : (s.al c (pa / 64)).poison = false) (dsts : List Dst) :
    s.startLoad tk la [⟨.mem pa, n, 0⟩] dsts fin acq =
      .done ((s.setAl c (pa / 64) { s.al c (pa / 64) with used := s.clock }).setThr tk
        (t.wg d (extended fin n (bytesAt (s.al c (pa / 64)).data (pa % 64) n)))) none := by
  have hheld : (s.al c (pa / 64)).st ≠ .i := fun hi => by simp [hi, AState.readable] at hread
  have hline : s.loadLine t c (pa / 64) (pa % 64) n = some (bytesAt (s.al c (pa / 64)).data (pa % 64) n, false) := by
    simp [State.loadLine, hread, Thread.forward, hsbuf, hclean]
  have hlt : bytesAt (s.al c (pa / 64)).data (pa % 64) n < 2 ^ (8 * n) := Nat.mod_lt _ (by positivity)
  have hbind := State.bindFin_extended (s := s.setAl c (pa / 64) { s.al c (pa / 64) with used := s.clock }) hthr hports hn
    hlt hfin
  simp only [State.startLoad, State.lanesFor, State.laneFor, hthr, hcore, hline, hheld, if_false, Bool.false_eq_true, List.nil_append]
  rw [if_pos (by simp)]
  exact congrArg (CRes.done · none) hbind

/-- A line that the L1 does not hold is asked for, and the result stays open. -/
theorem State.startLoad_miss (hinvalid : (s.al c (pa / 64)).st = .i) (dsts : List Dst) :
    s.startLoad tk la [⟨.mem pa, n, 0⟩] dsts fin acq =
      .done ((s.agentMiss c (pa / 64) false).addPend tk la
        { dsts := dsts, fin := fin, lanes := [{ src := .mem pa, len := n }], acq := acq,
          upc := (s.agentMiss c (pa / 64) false).unit.addr }).1 none := by
  have hline : s.loadLine t c (pa / 64) (pa % 64) n = none := by
    simp [State.loadLine, hinvalid, AState.readable, hsbuf]
  simp only [State.startLoad, State.lanesFor, State.laneFor, hthr, hcore, hline]
  rw [if_neg (by simp)]
  rfl

end load

/-! ## Stores -/

/-- A scalar store writes no whole line. -/
theorem byteMask_ne_allOnes (hn : n ≤ 8) (off : Nat) : byteMask off n ≠ BitVec.allOnes 64 := by
  intro hall
  have hbit (j : Nat) (hj : j < 64) : off ≤ j ∧ j - off < n := by
    have hj' : (byteMask off n).getLsbD j = true := by
      rw [hall, BitVec.getLsbD_allOnes]; exact decide_eq_true hj
    rw [byteMask, BitVec.getLsbD_ofNat, Nat.testBit_mul_two_pow, Nat.testBit_two_pow_sub_one] at hj'
    simpa [hj] using hj'
  have hfirst := hbit 0 (by decide)
  have hlast := hbit 63 (by decide)
  omega

/-- The bytes of a store are the low bytes of its register. -/
theorem bytesAt_setWidth (x : Word) (n : Nat) : bytesAt (x.setWidth 512) 0 n = x.toNat % 2 ^ (8 * n) := by
  have hx : x.toNat < 2 ^ 512 := lt_trans x.isLt (Nat.pow_lt_pow_right (by decide) (by decide))
  rw [bytesAt, BitVec.toNat_setWidth, Nat.mod_eq_of_lt hx, Nat.mul_zero, pow_zero, Nat.div_one]

/-- The bytes of a store of the low `n` bytes of a word, in their line. -/
def storeBytes (x : Word) (pa n : Nat) : Vec := BitVec.ofNat 512 (x.toNat % 2 ^ (8 * n) * 2 ^ (8 * (pa % 64)))

theorem State.storePieces_one (x : Word) : s.storePieces tk (x.setWidth 512) [⟨.mem pa, n, 0⟩] =
    s.storeLine tk s.unit.core (pa / 64) (byteMask (pa % 64) n) (storeBytes x pa n) := by
  simp only [State.storePieces, State.storePiece, bytesAt_setWidth, Nat.mod_mod, storeBytes]
  cases s.storeLine tk s.unit.core (pa / 64) (byteMask (pa % 64) n) (BitVec.ofNat 512 (x.toNat % 2 ^ (8 * n) * 2 ^ (8 * (pa % 64)))) <;> rfl

/-- The store of one piece, once its address translates and the thread's earlier accesses are performed. -/
theorem State.store_one (hn : ScalarSize n) (hthr : s.thr tk = some t) (hperformed : t.performed = true) (hsbuf : t.sbuf = [])
    (htarget : s.target tk ea n n true true = .ok (.mem ea.toNat)) (hxlat : s.xlatThread tk t ea.toNat false true false = .pa s1 pa)
    (hfree : s.jobHolds tk (.mem ea.toNat) n true = false) (rel : Bool) {s2 : State}
    (hstored : s1.storeLine tk s1.unit.core (pa / 64) (byteMask (pa % 64) n) (storeBytes x pa n) = some s2) :
    s.store tk ea n n (x.setWidth 512) rel = .done s2 none := by
  simp [State.store, hthr, htarget, State.planAll_one hn htarget hxlat, hfree, hperformed, State.storeFull, hsbuf, Thread.readHolds,
    State.storePieces_one, hstored]

section store
variable {line c : Nat} (hthr : s.thr tk = some t) (hpend : t.pend = []) (hsbuf : t.sbuf = [])
include hthr hpend hsbuf

/-- A line held in M or E takes the bytes. -/
theorem State.storeLine_hit (hwritable : (s.al c line).st.writable = true) {mask : BitVec 64} (hpart : mask ≠ BitVec.allOnes 64) (d : Vec) :
    s.storeLine tk c line mask d = some (s.setAl c line
      { s.al c line with st := .m, data := mergeBytes (s.al c line).data d mask, used := s.clock, poison := (s.al c line).poison }) := by
  have hmask : (mask == BitVec.allOnes 64) = false := beq_eq_false_iff_ne.2 hpart
  have hfree : t.lineHeld line = false := by simp [Thread.lineHeld, hpend]
  simp only [State.storeLine, hthr, hfree, hwritable, hsbuf, hmask, List.all_nil, and_self, if_true, if_false, Bool.false_eq_true, Bool.not_false,
    Bool.and_true]

/-- For a line that the L1 does not hold the bytes go to the store buffer. -/
theorem State.storeLine_miss (hinvalid : (s.al c line).st = .i) (mask : BitVec 64) (d : Vec) :
    s.storeLine tk c line mask d = some ((s.agentMiss c line true).setThr tk
      { t with sbuf := [{ line := line, mask := mask, data := mergeBytes 0 d mask }] }) := by
  rw [← State.agentMiss_setThr hinvalid]
  simp [State.storeLine, hthr, Thread.lineHeld, hpend, hsbuf, hinvalid, AState.writable]

end store

/-! ## The scalar loads -/

/-- At .thr a load is an acquire where its thread runs away from its home core (R176). -/
theorem State.scopeOf_thr_bne : (s.scopeOf tk t .thr != .thr) = s.away tk t := by
  cases haway : s.away tk t <;> simp [State.scopeOf, haway]

section instruction
variable {c : CSpec} {body : Thread → State → CRes} (h : Alone s t) (hi : exec i s = issueC c body s) (hpriv : c.priv = true → t.priv ≠ 0)
  (hn : ScalarSize n) (htarget : s.target s.unit.tk ea n n true true = .ok (.mem ea.toNat)) (hsbuf : t.sbuf = [])
include h hi hpriv hn htarget hsbuf

section load
variable {l : BitVec 4} {d : BitVec 5} (hxlat : s.xlatThread s.unit.tk t ea.toNat true false false = .pa s1 pa)
  (hb : body t s = s.load s.unit.tk ea n n l.toNat [.g d.toNat] fin acq) (hfree : s.jobHolds s.unit.tk (.mem ea.toNat) n false = false)
  (hfin : fin = .gz d.toNat n ∨ fin = .gs d.toNat n)
include hxlat hb hfree hfin

theorem Leaves2.memoryLoad (hread : (s1.al s.unit.core (pa / 64)).st.readable = true) (hclean : (s1.al s.unit.core (pa / 64)).poison = false) :
    Leaves2 i s (s1.setAl s.unit.core (pa / 64) { s1.al s.unit.core (pa / 64) with used := s1.clock })
      (t.wg d.toNat (extended fin n (bytesAt (s1.al s.unit.core (pa / 64)).data (pa % 64) n))) := by
  have hk := State.xlatThread_keepsUnit hxlat
  have hcore : s1.unit.core = s.unit.core := congrArg (·.core) hk.unit
  refine Leaves2.word h hi hpriv (hk.trans ⟨rfl, rfl, fun _ => rfl⟩)
    ((hb.trans (State.load_one hn h.thread h.pend htarget hxlat hfree _)).trans ?_) (by simpa using h.flumes) (by simpa using h.pend) (by simp)
  exact State.startLoad_hit ((hk.thr _).trans h.thread) hsbuf hcore (hn.le.trans (by decide)) h.ports hfin hread hclean _

omit hfin in
theorem Awaits.memoryLoad (hready : t.st = .ready) (hinvalid : (s1.al s.unit.core (pa / 64)).st = .i) :
    Awaits i s (s1.agentMiss s.unit.core (pa / 64) false).tickClock t
      { id := s1.clock, dsts := [.g d.toNat], fin := fin, window := l.toNat, upc := s.unit.addr, acq := acq,
        lanes := [{ src := .mem pa, len := n }] } := by
  have hk := State.xlatThread_keepsUnit hxlat
  have hcore : s1.unit.core = s.unit.core := congrArg (·.core) hk.unit
  obtain ⟨hmiss, hclock⟩ := State.agentMiss_quiet hinvalid false
  have hk2 := hk.trans hmiss
  let q : Pending := { id := s1.clock, dsts := [.g d.toNat], fin := fin, upc := s.unit.addr, acq := acq, lanes := [{ src := .mem pa, len := n }] }
  refine Awaits.opens (la := l.toNat) (q := q) h hi hpriv (hk2.trans ⟨rfl, rfl, fun _ => rfl⟩)
    ((hb.trans (State.load_one hn h.thread h.pend htarget hxlat hfree _)).trans ?_) h.flumes rfl hready
  rw [State.startLoad_miss ((hk.thr _).trans h.thread) hsbuf hcore hinvalid,
    State.addPend_one ((congrArg (·.phase) hk2.unit).trans h.lone) ((hk2.thr _).trans h.thread) h.pend, hclock, hk2.unit]

end load
section store
variable {d : BitVec 5} {rel : Bool} (hxlat : s.xlatThread s.unit.tk t ea.toNat false true false = .pa s1 pa)
  (hb : body t s = s.store s.unit.tk ea n n ((t.rg d.toNat).setWidth 512) rel)
  (hfree : s.jobHolds s.unit.tk (.mem ea.toNat) n true = false) (hremote : t.remote = [])
include hxlat hb hfree hremote

theorem Leaves2.memoryStore (hwritable : (s1.al s.unit.core (pa / 64)).st.writable = true) :
    Leaves2 i s (s1.setAl s.unit.core (pa / 64) { s1.al s.unit.core (pa / 64) with
      st := .m, data := mergeBytes (s1.al s.unit.core (pa / 64)).data (storeBytes (t.rg d.toNat) pa n) (byteMask (pa % 64) n),
      used := s1.clock, poison := (s1.al s.unit.core (pa / 64)).poison }) t := by
  have hk := State.xlatThread_keepsUnit hxlat
  have hcore : s1.unit.core = s.unit.core := congrArg (·.core) hk.unit
  have hperformed : t.performed = true := (Thread.performed_iff h.pend).2 ⟨hsbuf, hremote⟩
  have hstored := State.storeLine_hit ((hk.thr _).trans h.thread) h.pend hsbuf hwritable (byteMask_ne_allOnes hn.le (pa % 64))
    (storeBytes (t.rg d.toNat) pa n)
  exact Leaves2.stays h hi hpriv (hk.trans ⟨rfl, rfl, fun _ => rfl⟩)
    (hb.trans (State.store_one hn h.thread hperformed hsbuf htarget hxlat hfree _ (hcore.symm ▸ hstored)))

theorem Leaves2.memoryStoreMiss (hinvalid : (s1.al s.unit.core (pa / 64)).st = .i) :
    Leaves2 i s (s1.agentMiss s.unit.core (pa / 64) true)
      { t with sbuf := [{ line := pa / 64, mask := byteMask (pa % 64) n,
                          data := mergeBytes 0 (storeBytes (t.rg d.toNat) pa n) (byteMask (pa % 64) n) }] } := by
  have hk := State.xlatThread_keepsUnit hxlat
  have hcore : s1.unit.core = s.unit.core := congrArg (·.core) hk.unit
  have hperformed : t.performed = true := (Thread.performed_iff h.pend).2 ⟨hsbuf, hremote⟩
  have hstored := State.storeLine_miss ((hk.thr _).trans h.thread) h.pend hsbuf hinvalid (byteMask (pa % 64) n)
    (storeBytes (t.rg d.toNat) pa n)
  exact Leaves2.word h hi hpriv (hk.trans (State.agentMiss_quiet hinvalid true).1)
    (hb.trans (State.store_one hn h.thread hperformed hsbuf htarget hxlat hfree _ (hcore.symm ▸ hstored))) h.flumes h.pend rfl

end store
end instruction

/-! ## What the listed instructions are -/

section listed
variable {p : Bool} {d a b : BitVec 5} {o : BitVec 7} {l : BitVec 4} {sc : Scope}

/-- An address without an offset. -/
theorem address_zero (x : Word) (o : BitVec 7) : x + o.signExtend 64 * BitVec.ofNat 64 0 = x := by simp

/-- A scalar load that is an acquire at .thr: LDACQ of a thread away from its home core (R176). -/
def State.acquires (s : State) (t : Thread) : Instr → Bool
  | .ldacq .. => s.away s.unit.tk t
  | _ => false

theorem scalarLoads_size {e : Instr × Word × Nat × Fin_} (he : e ∈ scalarLoads t p d a b o l sc) :
    ScalarSize e.2.2.1 ∧ (e.2.2.2 = .gz d.toNat e.2.2.1 ∨ e.2.2.2 = .gs d.toNat e.2.2.1) := by
  simp only [scalarLoads, List.mem_cons, List.not_mem_nil, or_false] at he
  obtain rfl | rfl | rfl | rfl | rfl | rfl | rfl | rfl | rfl | rfl | rfl | rfl | rfl | rfl | rfl | rfl | rfl | rfl | rfl | rfl | rfl | rfl := he <;>
    simp [ScalarSize]

theorem scalarStores_size {e : Instr × Word × Nat} (he : e ∈ scalarStores t p d a b o sc) : ScalarSize e.2.2 := by
  simp only [scalarStores, List.mem_cons, List.not_mem_nil, or_false] at he
  obtain rfl | rfl | rfl | rfl | rfl | rfl | rfl | rfl | rfl | rfl | rfl | rfl := he <;> simp [ScalarSize]

/-- LDACQ at .thr and STREL are a load and a store at their address (R350). -/
theorem ldacq_word (k : BitVec 2) : ∃ c body, exec (.ldacq p d a k .thr l) s = issueC c body s ∧ c.priv = false ∧
    body t s = s.load s.unit.tk (t.rg a.toNat + o.signExtend 64 * BitVec.ofNat 64 0) (2 ^ k.toNat) (2 ^ k.toNat) l.toNat [.g d.toNat]
      (.gs d.toNat (2 ^ k.toNat)) (s.away s.unit.tk t) :=
  ⟨_, _, rfl, rfl, by rw [address_zero, ← State.scopeOf_thr_bne]⟩

theorem strel_word (k : BitVec 2) : ∃ c body rel, exec (.strel p d a k sc) s = issueC c body s ∧ c.priv = false ∧
    body t s = s.store s.unit.tk (t.rg a.toNat + o.signExtend 64 * BitVec.ofNat 64 0) (2 ^ k.toNat) (2 ^ k.toNat)
      ((t.rg d.toNat).setWidth 512) rel :=
  ⟨_, _, _, rfl, rfl, by rw [address_zero]⟩

/-- Each listed load is a word that loads at its address. -/
theorem scalarLoads_word {e : Instr × Word × Nat × Fin_} (he : e ∈ scalarLoads t p d a b o l .thr) :
    ∃ c body, exec e.1 s = issueC c body s ∧ c.priv = false ∧
      body t s = s.load s.unit.tk e.2.1 e.2.2.1 e.2.2.1 l.toNat [.g d.toNat] e.2.2.2 (s.acquires t e.1) := by
  simp only [scalarLoads, List.mem_cons, List.not_mem_nil, or_false] at he
  obtain rfl | rfl | rfl | rfl | rfl | rfl | rfl | rfl | rfl | rfl | rfl | rfl | rfl | rfl | he := he
  case inr.inr.inr.inr.inr.inr.inr.inr.inr.inr.inr.inr.inr.inr =>
    obtain rfl | rfl | rfl | rfl | rfl | rfl | rfl | rfl := he <;> exact ldacq_word _
  all_goals exact ⟨_, _, rfl, rfl, rfl⟩

/-- Each listed store is a word that stores at its address. -/
theorem scalarStores_word {e : Instr × Word × Nat} (he : e ∈ scalarStores t p d a b o sc) :
    ∃ c body rel, exec e.1 s = issueC c body s ∧ c.priv = false ∧
      body t s = s.store s.unit.tk e.2.1 e.2.2 e.2.2 ((t.rg d.toNat).setWidth 512) rel := by
  simp only [scalarStores, List.mem_cons, List.not_mem_nil, or_false] at he
  obtain rfl | rfl | rfl | rfl | rfl | rfl | rfl | rfl | he := he
  case inr.inr.inr.inr.inr.inr.inr.inr =>
    obtain rfl | rfl | rfl | rfl := he <;> exact strel_word _
  all_goals exact ⟨_, _, false, rfl, rfl, rfl⟩

end listed

end Sys2Proof.Machine
end

section
/-!
CERTIFICATE. Loads and stores of memory (R176, R206, R333, R334, R338).
-/

open Sys2Proof Sys2Proof.Machine

/-- R176, R206, R333, R338: scalar loads that hit and that miss. -/
theorem memoryLoadResults : Claims.MemoryLoadResults := by
  intro s s1 t pa h hready hsbuf p d a b o l e he n core line htarget hxlat hfree
  obtain ⟨hsize, hfin⟩ := scalarLoads_size he
  obtain ⟨c, body, hi, hpriv, hb⟩ := scalarLoads_word (s := s) he
  have huser : c.priv = true → t.priv ≠ 0 := fun hc => absurd hc (by simp [hpriv])
  exact ⟨Leaves2.memoryLoad h hi huser hsize htarget hsbuf hxlat hb hfree hfin,
    Awaits.memoryLoad h hi huser hsize htarget hsbuf hxlat hb hfree hready⟩

/-- R206, R333, R334, R338: scalar stores that hit and that miss. -/
theorem memoryStoreResults : Claims.MemoryStoreResults := by
  intro s s1 t pa h hsbuf hremote p d a b o sc e he n core line mask data htarget hxlat hfree
  obtain ⟨c, body, rel, hi, hpriv, hb⟩ := scalarStores_word (s := s) he
  have huser : c.priv = true → t.priv ≠ 0 := fun hc => absurd hc (by simp [hpriv])
  exact ⟨Leaves2.memoryStore h hi huser (scalarStores_size he) htarget hsbuf hxlat hb hfree hremote,
    Leaves2.memoryStoreMiss h hi huser (scalarStores_size he) htarget hsbuf hxlat hb hfree hremote⟩

/-- Settles O28: each scalar load and store is one access of one piece, which hits or misses. -/
theorem memoryAccessResults : Obligations.MemoryAccessResults := ⟨memoryLoadResults, memoryStoreResults⟩
end

section
/-!
SUPPORT. Integer elements as numbers of 64 bits, and the node of R245 on them.
-/

namespace Sys2Proof.Machine

variable {op : RedOp} {ty : Ty} {p q : Int}

theorem tyWidth_le (ty : Ty) : ty.width ≤ 64 := by cases ty <;> decide

theorem tyWidth_pos (ty : Ty) : 0 < ty.width := by cases ty <;> decide

/-- The values that an integer type's node holds: 64 bits, signed or not (R245). -/
def IsNodeValue (ty : Ty) (p : Int) : Prop := if ty.isSigned then -2 ^ 63 ≤ p ∧ p < 2 ^ 63 else 0 ≤ p ∧ p < 2 ^ 64

/-- A lane's value, by R232. -/
theorem tyIval_lane (ty : Ty) (v : Vec) (k : Nat) : tyIval ty (lane ty.width v k) =
    if ty.isSigned then (BitVec.ofNat ty.width (lane ty.width v k)).toInt else (lane ty.width v k : Int) := by
  rw [tyIval, Nat.mod_eq_of_lt (lane_lt ..)]
  rfl

theorem tyIval_isNodeValue (ty : Ty) (x : Nat) : IsNodeValue ty (tyIval ty x) := by
  have hlow := BitVec.le_two_mul_toInt (x := BitVec.ofNat ty.width x)
  have hhigh := BitVec.two_mul_toInt_lt (x := BitVec.ofNat ty.width x)
  have hmod : x % 2 ^ ty.width < 2 ^ ty.width := Nat.mod_lt _ (by positivity)
  have hnat : 2 ^ ty.width ≤ 2 ^ 64 := Nat.pow_le_pow_right (by decide) (tyWidth_le ty)
  have hint : (2 : Int) ^ ty.width ≤ 2 ^ 64 := by exact_mod_cast hnat
  unfold IsNodeValue tyIval toSigned
  split <;> omega

/-- A number of 64 bits reads as the value that was stored in it. -/
theorem IsNodeValue.read (h : IsNodeValue ty p) :
    (if ty.isSigned then toSigned 64 (ofSigned 64 p) else (ofSigned 64 p : Int)) = p := by
  unfold IsNodeValue at h
  unfold toSigned ofSigned
  split at h
  · rw [if_pos ‹_›, BitVec.ofNat_toNat, BitVec.setWidth_eq]
    exact BitVec.toInt_ofInt_eq_self (by decide) h.1 h.2
  · rw [if_neg ‹_›, BitVec.toNat_ofInt, Int.toNat_of_nonneg (by omega)]
    exact Int.emod_eq_of_lt h.1 h.2

theorem IsNodeValue.ofSigned_inj (hp : IsNodeValue ty p) (hq : IsNodeValue ty q) : ofSigned 64 p = ofSigned 64 q ↔ p = q := by
  refine ⟨fun h => ?_, congrArg _⟩
  rw [← hp.read, ← hq.read, h]

/-- The value `p` wins over `q` under the operation; a sum has no winner. -/
def RedOp.Beats : RedOp → Int → Int → Prop
  | .sum, _, _ => False
  | .max, p, q => q < p
  | .min, p, q => p < q

/-- A maximum or minimum of two values keeps the first, unless the second wins. -/
theorem RedOp.node_winner (hty : ty.isI = true) (hop : op ≠ .sum) (hp : IsNodeValue ty p) (hq : IsNodeValue ty q) :
    (op.Beats q p → op.node ty (ofSigned 64 p) (ofSigned 64 q) = (ofSigned 64 q, 0)) ∧
      (¬op.Beats q p → op.node ty (ofSigned 64 p) (ofSigned 64 q) = (ofSigned 64 p, 0)) := by
  unfold RedOp.node
  simp only [hty, if_true, hp.read, hq.read]
  cases op with
  | sum => exact absurd rfl hop
  | max => exact ⟨fun h => congrArg (·, 0) (if_pos h), fun h => congrArg (·, 0) (if_neg h)⟩
  | min => exact ⟨fun h => congrArg (·, 0) (if_pos h), fun h => congrArg (·, 0) (if_neg h)⟩

/-- The identity of a maximum or minimum is a value that wins over no other. -/
theorem RedOp.ident_loses (hty : ty.isI = true) (hop : op ≠ .sum) :
    ∃ e, IsNodeValue ty e ∧ op.ident ty = ofSigned 64 e ∧ ∀ p, IsNodeValue ty p → ¬op.Beats e p := by
  unfold IsNodeValue RedOp.ident
  simp only [hty, if_true]
  cases op with
  | sum => exact absurd rfl hop
  | max =>
    by_cases hs : ty.isSigned = true
    · exact ⟨-2 ^ 63, by simp [hs], by simp only [hs]; rfl, by simp [hs, Beats]; omega⟩
    · exact ⟨0, by simp [hs], by simp only [hs]; rfl, by simp [hs, Beats]; omega⟩
  | min =>
    by_cases hs : ty.isSigned = true
    · exact ⟨2 ^ 63 - 1, by simp [hs], by simp only [hs]; rfl, by simp [hs, Beats]; omega⟩
    · exact ⟨2 ^ 64 - 1, by simp [hs], by simp only [hs]; rfl, by simp [hs, Beats]; omega⟩

/-- A sum of 64 bits. -/
theorem RedOp.node_sum (hty : ty.isI = true) (p q : Int) :
    RedOp.sum.node ty (ofSigned 64 p) (ofSigned 64 q) = (ofSigned 64 (p + q), 0) := by
  simp [RedOp.node, hty, ofSigned, BitVec.ofInt_add, BitVec.toNat_add]

end Sys2Proof.Machine
end

section
/-!
SUPPORT. The pairwise tree of R245: what holds of the leaves and passes through every node holds of the one node at its top.
-/

namespace Sys2Proof.Machine

variable {op : RedOp} {ty : Ty}

/-- One level of the tree joins each node of the lower half with its counterpart in the upper half. -/
theorem RedOp.tree_level (fuel : Nat) (lo hi : List Leaf) (fl : List (Nat × Flags)) (hlen : hi.length = lo.length) (hpos : 0 < lo.length) :
    op.tree ty (fuel + 1) (lo ++ hi) fl = op.tree ty fuel ((lo.zip hi).map fun e => (op.combine ty e.1 e.2).1)
      (fl ++ (lo.zip hi).map fun e => ((op.combine ty e.1 e.2).1.low, (op.combine ty e.1 e.2).2)) := by
  have hhalf : (lo ++ hi).length / 2 = lo.length := by rw [List.length_append]; omega
  rw [RedOp.tree, if_neg (by rw [List.length_append]; omega)]
  simp only [hhalf, List.take_left, List.drop_left, List.map_map]
  rfl

/-- Over 2^n leaves the tree has one top. A relation of a leaf to a weight that each node carries to the sum of its operands' weights
relates the top to the sum of all of them, and what every node's flags satisfy the flags of the tree do. -/
theorem RedOp.tree_top {M : Type} [AddCommMonoid M] {P : M → Leaf → Prop} {R : Flags → Prop}
    (hnode : ∀ a b x y, P a x → P b y → P (a + b) (op.combine ty x y).1 ∧ R (op.combine ty x y).2) (n : Nat) :
    ∀ fuel, n ≤ fuel → ∀ (l : List (M × Leaf)) (fl : List (Nat × Flags)), l.length = 2 ^ n → (∀ e ∈ l, P e.1 e.2) → (∀ e ∈ fl, R e.2) →
      ∃ top fl', op.tree ty fuel (l.map Prod.snd) fl = ([top], fl') ∧ P (l.map Prod.fst).sum top ∧ ∀ e ∈ fl', R e.2 := by
  induction n with
  | zero =>
    intro fuel _ l fl hlen hl hfl
    obtain ⟨e, rfl⟩ := List.length_eq_one_iff.mp hlen
    refine ⟨e.2, fl, ?_, by simpa using hl e, hfl⟩
    cases fuel <;> simp [RedOp.tree]
  | succ n ih =>
    intro fuel hfuel l fl hlen hl hfl
    obtain ⟨fuel, rfl⟩ : ∃ f, fuel = f + 1 := ⟨fuel - 1, by omega⟩
    have hpow : 2 ^ (n + 1) = 2 ^ n + 2 ^ n := by rw [pow_succ, mul_two]
    obtain ⟨lo, hi, hlo, hhi, rfl⟩ : ∃ lo hi : List (M × Leaf), lo.length = 2 ^ n ∧ hi.length = 2 ^ n ∧ l = lo ++ hi :=
      ⟨l.take (2 ^ n), l.drop (2 ^ n), by rw [List.length_take]; omega, by rw [List.length_drop]; omega, (List.take_append_drop ..).symm⟩
    have hpair : ∀ e ∈ lo.zip hi, P (e.1.1 + e.2.1) (op.combine ty e.1.2 e.2.2).1 ∧ R (op.combine ty e.1.2 e.2.2).2 := fun e he =>
      have hmem := List.of_mem_zip he
      hnode _ _ _ _ (hl _ (List.mem_append_left _ hmem.1)) (hl _ (List.mem_append_right _ hmem.2))
    obtain ⟨top, fl', htree, htop, hfl'⟩ := ih fuel (by omega)
      ((lo.zip hi).map fun e => (e.1.1 + e.2.1, (op.combine ty e.1.2 e.2.2).1))
      (fl ++ (lo.zip hi).map fun e => ((op.combine ty e.1.2 e.2.2).1.low, (op.combine ty e.1.2 e.2.2).2))
      (by simp [hlo, hhi]) (List.forall_mem_map.mpr fun e he => (hpair e he).1)
      (List.forall_mem_append.mpr ⟨hfl, List.forall_mem_map.mpr fun e he => (hpair e he).2⟩)
    refine ⟨top, fl', ?_, ?_, hfl'⟩
    · rw [List.map_append, RedOp.tree_level _ _ _ _ (by simp [hlo, hhi]) (by simp [hlo]), ← htree]
      simp [List.zip_map, Function.comp_def]
    · rw [List.map_append, List.sum_append, List.sum_add_sum_eq_sum_zipWith_of_length_eq _ _ (by simp [hlo, hhi])]
      simpa [List.zipWith_map, List.zip, List.map_zipWith] using htop

/-- A leaf of R245: an active lane's element in the node type, or the identity. -/
def RedOp.leaf (op : RedOp) (ty : Ty) (act : Nat → Bool) (v : Vec) (k : Nat) : Leaf :=
  if act k then
    { val := if ty.isI then extend64 ty (lane ty.width v k) else widen ty (lane ty.width v k), idx := some k, low := k }
  else { val := op.ident ty, idx := none, low := 255 }

/-- The leaves of a register: their number is a power of two that the levels of the tree are enough for. -/
theorem RedOp.tree_leaves {M : Type} [AddCommMonoid M] {P : M → Leaf → Prop} {R : Flags → Prop} (f : Nat → M) (leaf : Nat → Leaf)
    (hnode : ∀ a b x y, P a x → P b y → P (a + b) (op.combine ty x y).1 ∧ R (op.combine ty x y).2) (hleaf : ∀ k, P (f k) (leaf k)) :
    ∃ top fl, op.tree ty 6 ((List.range (512 / ty.width)).map leaf) [] = ([top], fl) ∧
      P ((List.range (512 / ty.width)).map f).sum top ∧ ∀ e ∈ fl, R e.2 := by
  obtain ⟨n, hn, hlanes⟩ : ∃ n ≤ 6, 512 / ty.width = 2 ^ n := by
    have hw : ty.width = 8 ∨ ty.width = 16 ∨ ty.width = 32 ∨ ty.width = 64 := by cases ty <;> decide
    obtain h | h | h | h := hw <;> rw [h]
    exacts [⟨6, by decide, rfl⟩, ⟨5, by decide, rfl⟩, ⟨4, by decide, rfl⟩, ⟨3, by decide, rfl⟩]
  have h := RedOp.tree_top hnode n 6 hn ((List.range (512 / ty.width)).map fun k => (f k, leaf k)) [] (by simp [hlanes])
    (List.forall_mem_map.mpr fun k _ => hleaf k) nofun
  simpa [Function.comp_def] using h

end Sys2Proof.Machine
end

section
/-!
SUPPORT. Reductions (R245, R382): what the top of the tree says of the active lanes.
-/

namespace Sys2Proof.Machine

variable {s : State} {t : Thread} {op : RedOp} {ty : Ty} {act : Nat → Bool} {v : Vec}

theorem flags_zero {f : Flags} (h : ∀ b, f.getLsbD b ≠ true) : f = 0 :=
  BitVec.eq_of_getLsbD_eq fun b _ => (Bool.eq_false_iff.mpr (h b)).trans BitVec.getLsbD_zero.symm

theorem laneOr_zero {l : List (Nat × Flags)} (h : ∀ e ∈ l, e.2 = 0) : laneOr l = 0 := by
  refine flags_zero fun b hb => ?_
  obtain ⟨e, he, hbit⟩ := (laneOr_bit l b).mp hb
  simp [h e he] at hbit

/-- A register write that raises no flag. -/
theorem Thread.wv_raise_none (d : Nat) (x : Vec) : { t.wv d x with fpcsr := t.fpcsr ||| (0 : Flags).setWidth 64 } = t.wv d x := by
  simp [Thread.wv]

/-- A reduction leaves the top of its tree in the whole of vd. -/
theorem Leaves.vreduce {i : Instr} {d a : BitVec 5} {m : BitVec 3} {top : Leaf} {fl : List (Nat × Flags)} (h : Alone s t)
    (hi : exec i s = vreduce d a m ty op s) (hv : ty = .f64 → s.hasF64v s.unit.core = true) (hx : fpTen t.fpcsr = 0)
    (htree : op.tree ty 6 ((List.range (512 / ty.width)).map (op.leaf ty (t.active m.toNat) (t.rv a.toNat))) [] = ([top], fl)) :
    Leaves i s { t.wv d.toNat (BitVec.ofNat 512 (top.val + 2 ^ 64 * (if op = .sum then 0 else top.idx.getD (2 ^ 64 - 1)))) with
      fpcsr := t.fpcsr ||| (laneOr fl).setWidth 64 } := by
  refine Leaves.issueA h hi (fun e => hv (by simpa using e)) hx rfl ?_
  have htree' := htree
  unfold RedOp.leaf at htree'
  simp only [htree']
  obtain ⟨val, idx, low⟩ := top
  cases op <;> cases idx <;> rfl

/-- A reduction that raises no flag. -/
theorem Leaves.vreduce_quiet {i : Instr} {d a : BitVec 5} {m : BitVec 3} {top : Leaf} {fl : List (Nat × Flags)} (h : Alone s t)
    (hi : exec i s = Machine.vreduce d a m ty op s) (hv : ty = .f64 → s.hasF64v s.unit.core = true) (hx : fpTen t.fpcsr = 0)
    (htree : op.tree ty 6 ((List.range (512 / ty.width)).map (op.leaf ty (t.active m.toNat) (t.rv a.toNat))) [] = ([top], fl))
    (hfl : laneOr fl = 0) :
    Leaves i s (t.wv d.toNat (BitVec.ofNat 512 (top.val + 2 ^ 64 * (if op = .sum then 0 else top.idx.getD (2 ^ 64 - 1))))) := by
  have hl := Leaves.vreduce h hi hv hx htree
  rwa [hfl, Thread.wv_raise_none] at hl

/-- The tree of an integer sum holds, in 64 bits, the sum of the active lanes' values. -/
theorem RedOp.sum_top (hty : ty.isI = true) : ∃ top fl,
    RedOp.sum.tree ty 6 ((List.range (512 / ty.width)).map (RedOp.sum.leaf ty act v)) [] = ([top], fl) ∧ laneOr fl = 0 ∧
      top.val = ofSigned 64 (((List.range (512 / ty.width)).filter act).map fun k => tyIval ty (lane ty.width v k)).sum := by
  obtain ⟨top, fl, htree, htop, hfl⟩ := RedOp.tree_leaves (op := .sum) (ty := ty) (P := fun z x => x.val = ofSigned 64 z) (R := (· = 0))
    (fun k => if act k then tyIval ty (lane ty.width v k) else 0) (RedOp.sum.leaf ty act v)
    (fun p q x y hx hy => by simp [RedOp.combine, hx, hy, RedOp.node_sum hty])
    (fun k => by cases hk : act k <;> simp [RedOp.leaf, RedOp.ident, hk, hty, extend64, ofSigned])
  refine ⟨top, fl, htree, laneOr_zero hfl, htop.trans ?_⟩
  rw [List.sum_map_ite]
  simp

/-- A number that is no NaN is its own maximum and minimum. -/
theorem Fmt.minmax_self {f : Fmt} {x : Nat} (hx : (f.decode x).isNan = false) (isMax : Bool) : f.minmax isMax x x = (x, 0) := by
  simp [Fmt.minmax, hx]

/-- The identity of a maximum or minimum, with itself, gives itself. -/
theorem RedOp.node_ident (hop : op ≠ .sum) (ty : Ty) : op.node ty (op.ident ty) (op.ident ty) = (op.ident ty, 0) := by
  have hinf : ∀ neg, ((nodeFmt ty).decode ((nodeFmt ty).infinity neg)).isNan = false := by
    unfold nodeFmt
    split <;> decide
  cases op with
  | sum => exact absurd rfl hop
  | max => cases hty : ty.isI <;> simp [RedOp.node, RedOp.ident, hty, Fmt.minmax_self (hinf _)]
  | min => cases hty : ty.isI <;> simp [RedOp.node, RedOp.ident, hty, Fmt.minmax_self (hinf _)]

/-- With no lane active the top of the tree is the identity, and no lane is its index. -/
theorem RedOp.inactive_top (hop : op ≠ .sum) (hact : (List.range (512 / ty.width)).filter act = []) : ∃ top fl,
    op.tree ty 6 ((List.range (512 / ty.width)).map (op.leaf ty act v)) [] = ([top], fl) ∧ laneOr fl = 0 ∧
      top.val = op.ident ty ∧ top.idx = none := by
  have hleaves : (List.range (512 / ty.width)).map (op.leaf ty act v) =
      (List.range (512 / ty.width)).map fun _ => { val := op.ident ty, idx := none, low := 255 } :=
    List.map_congr_left fun k hk => if_neg (List.filter_eq_nil_iff.mp hact k hk)
  obtain ⟨top, fl, htree, htop, hfl⟩ := RedOp.tree_leaves (M := Nat) (op := op) (ty := ty)
    (P := fun _ x => x.val = op.ident ty ∧ x.idx = none) (R := (· = 0)) (fun _ => 0)
    (fun _ => { val := op.ident ty, idx := none, low := 255 })
    (fun _ _ x y hx hy => by simp [RedOp.combine, RedOp.takesSecond, hx.1, hx.2, hy.1, hy.2, RedOp.node_ident hop])
    (fun _ => ⟨rfl, rfl⟩)
  exact ⟨top, fl, hleaves ▸ htree, laneOr_zero hfl, htop⟩

/-- Lane `j` wins over lane `k`: by its value, or as the lower of two that hold the same one (R245). -/
def RedOp.Outranks (op : RedOp) (value : Nat → Int) (j k : Nat) : Prop :=
  op.Beats (value j) (value k) ∨ value j = value k ∧ j < k

/-- A node that stands for the lanes of `A`: none of them active, and it holds the identity, or it holds the value and the index of
the one that outranks the others. -/
def RedOp.Winner (op : RedOp) (ty : Ty) (act : Nat → Bool) (value : Nat → Int) (A : Multiset Nat) (x : Leaf) : Prop :=
  match x.idx with
  | none => x.val = op.ident ty ∧ ∀ k ∈ A, act k = false
  | some j => x.val = ofSigned 64 (value j) ∧ j ∈ A ∧ act j = true ∧ ∀ k ∈ A, act k = true → k ≠ j → op.Outranks value j k

section winner
variable {value : Nat → Int} {i j k lx ly : Nat} (hop : op ≠ .sum)

theorem RedOp.Outranks.trans (hij : op.Outranks value i j) (hjk : op.Outranks value j k) : op.Outranks value i k := by
  cases op <;> simp only [RedOp.Outranks, RedOp.Beats, false_or] at * <;> omega

include hop

theorem RedOp.beats_of_not {p q : Int} (h : ¬op.Beats q p) : op.Beats p q ∨ p = q := by
  cases op with
  | sum => exact absurd rfl hop
  | max => simp only [RedOp.Beats] at *; omega
  | min => simp only [RedOp.Beats] at *; omega

theorem RedOp.outranks_of_not (h : ¬op.Outranks value j i) (hne : j ≠ i) : op.Outranks value i j := by
  obtain hb | he := RedOp.beats_of_not hop fun hb => h (.inl hb)
  · exact .inl hb
  · exact .inr ⟨he, lt_of_le_of_ne (Nat.le_of_not_lt fun hlt => h (.inr ⟨he.symm, hlt⟩)) hne.symm⟩

variable (hty : ty.isI = true) (hvalue : ∀ k, IsNodeValue ty (value k))
include hty hvalue

/-- Of two active lanes a node keeps the value of the one that outranks the other. -/
theorem RedOp.node_outranks : (op.Outranks value j i → op.node ty (ofSigned 64 (value i)) (ofSigned 64 (value j)) = (ofSigned 64 (value j), 0)) ∧
    (¬op.Outranks value j i → op.node ty (ofSigned 64 (value i)) (ofSigned 64 (value j)) = (ofSigned 64 (value i), 0)) := by
  have hnode := RedOp.node_winner hty hop (hvalue i) (hvalue j)
  refine ⟨fun h => ?_, fun h => hnode.2 fun hb => h (.inl hb)⟩
  by_cases hb : op.Beats (value j) (value i)
  · exact hnode.1 hb
  · obtain hbeats | ⟨he, -⟩ := h
    · exact absurd hbeats hb
    · rw [hnode.2 hb, he]

/-- Of two active lanes a node keeps the index of the one that outranks the other. -/
theorem RedOp.takesSecond_iff : op.takesSecond ty ⟨ofSigned 64 (value i), some i, lx⟩ ⟨ofSigned 64 (value j), some j, ly⟩ = true ↔
    op.Outranks value j i := by
  have hinj := (hvalue i).ofSigned_inj (hvalue j)
  have hnode := RedOp.node_outranks (i := i) (j := j) hop hty hvalue
  have hself : ¬op.Beats (value j) (value j) := by cases op <;> simp [RedOp.Beats]
  simp only [RedOp.takesSecond, hty, Bool.not_true, Bool.false_and, Bool.or_false, Bool.false_eq_true, if_false, beq_iff_eq]
  by_cases he : value i = value j
  · rw [if_pos (hinj.2 he), decide_eq_true_iff]
    exact ⟨fun hlt => .inr ⟨he.symm, hlt⟩, fun h => (h.resolve_left (he ▸ hself)).2⟩
  · rw [if_neg (mt hinj.1 he), beq_iff_eq]
    by_cases h : op.Outranks value j i
    · simp [hnode.1 h, h]
    · simp [hnode.2 h, h, hinj, he]

omit hvalue in
/-- The identity gives way to any value, on either side of a node. -/
theorem RedOp.node_with_ident {p : Int} (hp : IsNodeValue ty p) : op.node ty (op.ident ty) (ofSigned 64 p) = (ofSigned 64 p, 0) ∧
    op.node ty (ofSigned 64 p) (op.ident ty) = (ofSigned 64 p, 0) := by
  obtain ⟨e, he, hident, hloses⟩ := RedOp.ident_loses hty hop
  rw [hident]
  refine ⟨?_, (RedOp.node_winner hty hop hp he).2 (hloses p hp)⟩
  by_cases hb : op.Beats p e
  · exact (RedOp.node_winner hty hop he hp).1 hb
  · rw [(RedOp.node_winner hty hop he hp).2 hb, (RedOp.beats_of_not hop hb).resolve_left (hloses p hp)]

/-- A node joins the lanes that its operands stand for. -/
theorem RedOp.Winner.combine {A B : Multiset Nat} {x y : Leaf} (hx : op.Winner ty act value A x) (hy : op.Winner ty act value B y) :
    op.Winner ty act value (A + B) (op.combine ty x y).1 ∧ (op.combine ty x y).2 = 0 := by
  obtain ⟨xv, xi, lx⟩ := x
  obtain ⟨yv, yi, ly⟩ := y
  cases xi with
  | none =>
    obtain ⟨rfl, hA⟩ := hx
    cases yi with
    | none =>
      obtain ⟨rfl, hB⟩ := hy
      rw [RedOp.combine, RedOp.node_ident hop]
      exact ⟨⟨rfl, fun k hk => (Multiset.mem_add.mp hk).elim (hA k) (hB k)⟩, rfl⟩
    | some j =>
      obtain ⟨rfl, hj, hact, hbest⟩ := hy
      rw [RedOp.combine, (RedOp.node_with_ident hop hty (hvalue j)).1]
      refine ⟨⟨rfl, Multiset.mem_add.mpr (.inr hj), hact, fun k hk hk' hne => ?_⟩, rfl⟩
      exact (Multiset.mem_add.mp hk).elim (fun h => absurd hk' (by simp [hA k h])) fun h => hbest k h hk' hne
  | some i =>
    obtain ⟨rfl, hi, hacti, hbesti⟩ := hx
    cases yi with
    | none =>
      obtain ⟨rfl, hB⟩ := hy
      rw [RedOp.combine, (RedOp.node_with_ident hop hty (hvalue i)).2]
      refine ⟨⟨rfl, Multiset.mem_add.mpr (.inl hi), hacti, fun k hk hk' hne => ?_⟩, rfl⟩
      exact (Multiset.mem_add.mp hk).elim (fun h => hbesti k h hk' hne) fun h => absurd hk' (by simp [hB k h])
    | some j =>
      obtain ⟨rfl, hj, hactj, hbestj⟩ := hy
      have htakes := RedOp.takesSecond_iff (i := i) (j := j) (lx := lx) (ly := ly) hop hty hvalue
      have hnode := RedOp.node_outranks (i := i) (j := j) hop hty hvalue
      by_cases h : op.Outranks value j i
      · rw [RedOp.combine, hnode.1 h, htakes.2 h]
        refine ⟨⟨rfl, Multiset.mem_add.mpr (.inr hj), hactj, fun k hk hk' hne => ?_⟩, rfl⟩
        obtain hkA | hkB := Multiset.mem_add.mp hk
        · obtain rfl | hki := eq_or_ne k i
          · exact h
          · exact h.trans (hbesti k hkA hk' hki)
        · exact hbestj k hkB hk' hne
      · rw [RedOp.combine, hnode.2 h, Bool.eq_false_iff.mpr (mt htakes.1 h)]
        refine ⟨⟨rfl, Multiset.mem_add.mpr (.inl hi), hacti, fun k hk hk' hne => ?_⟩, rfl⟩
        obtain hkA | hkB := Multiset.mem_add.mp hk
        · exact hbesti k hkA hk' hne
        · obtain rfl | hji := eq_or_ne j i
          · exact hbestj k hkB hk' hne
          · have hij := RedOp.outranks_of_not hop h hji
            obtain rfl | hkj := eq_or_ne k j
            · exact hij
            · exact hij.trans (hbestj k hkB hk' hkj)

end winner

/-- What outranking says of the values: the other one does not win, and where the other lane is lower this one wins. -/
theorem RedOp.Outranks.beats {value : Nat → Int} {j k : Nat} (h : op.Outranks value j k) :
    ¬op.Beats (value k) (value j) ∧ (k < j → op.Beats (value j) (value k)) := by
  cases op <;> simp only [RedOp.Outranks, RedOp.Beats, false_or, not_false_eq_true, true_and, imp_false] at * <;> omega

/-- With some lane active the top of the tree holds the value and the index of the lane that outranks the others. -/
theorem RedOp.winner_top (hop : op ≠ .sum) (hty : ty.isI = true) (hact : ∃ k < 512 / ty.width, act k = true) : ∃ top fl j,
    op.tree ty 6 ((List.range (512 / ty.width)).map (op.leaf ty act v)) [] = ([top], fl) ∧ laneOr fl = 0 ∧
      top.val = ofSigned 64 (tyIval ty (lane ty.width v j)) ∧ top.idx = some j ∧ j < 512 / ty.width ∧ act j = true ∧
      ∀ k < 512 / ty.width, act k = true → k ≠ j → op.Outranks (fun k => tyIval ty (lane ty.width v k)) j k := by
  let value (k : Nat) : Int := tyIval ty (lane ty.width v k)
  obtain ⟨top, fl, htree, htop, hfl⟩ := RedOp.tree_leaves (P := op.Winner ty act value) (R := (· = 0))
    (fun k => ({k} : Multiset Nat)) (op.leaf ty act v)
    (fun A B x y => RedOp.Winner.combine hop hty fun k => tyIval_isNodeValue ty _)
    (fun k => by cases hk : act k <;> simp [RedOp.Winner, RedOp.leaf, hk, hty, extend64, value])
  have hlanes : ∀ k, k ∈ ((List.range (512 / ty.width)).map fun k => ({k} : Multiset Nat)).sum ↔ k < 512 / ty.width := by
    have hsum := Multiset.sum_map_singleton (List.range (512 / ty.width) : Multiset Nat)
    rw [Multiset.map_coe, Multiset.sum_coe] at hsum
    simp [hsum]
  unfold RedOp.Winner at htop
  split at htop
  next =>
    obtain ⟨k, hk, hk'⟩ := hact
    exact absurd hk' (by simp [htop.2 k ((hlanes k).2 hk)])
  next j hj =>
    obtain ⟨hval, hmem, hactj, hbest⟩ := htop
    exact ⟨top, fl, j, htree, laneOr_zero hfl, hval, hj, (hlanes j).1 hmem, hactj, fun k hk => hbest k ((hlanes k).2 hk)⟩

end Sys2Proof.Machine
end

section
/-!
SUPPORT. Scans (R246, R383): the running value, and the lanes it leaves.
-/

namespace Sys2Proof.Machine

variable {s : State} {t : Thread} {op : RedOp} {ty : Ty} {act : Nat → Bool} {v : Vec}

/-- One lane's step of the running value `r` (R383). -/
def RedOp.scanStep (op : RedOp) (ty : Ty) (act : Nat → Bool) (v : Vec) (r k : Nat) : Nat × Flags :=
  if act k then op.node ty r (if ty.isI then extend64 ty (lane ty.width v k) else widen ty (lane ty.width v k)) else (r, 0)

/-- The running value before lane `k`. -/
def RedOp.running (op : RedOp) (ty : Ty) (act : Nat → Bool) (v : Vec) : Nat → Nat
  | 0 => op.ident ty
  | k + 1 => (op.scanStep ty act v (RedOp.running op ty act v k) k).1

/-- What a scan gives lane `k`, with its flags. -/
def RedOp.scanLane (op : RedOp) (ty : Ty) (act : Nat → Bool) (v : Vec) (k : Nat) : Nat × Flags :=
  let o := toElement ty (op.running ty act v (k + 1))
  (o.1, (op.scanStep ty act v (op.running ty act v k) k).2 ||| o.2)

theorem RedOp.scan_eq (fuel i : Nat) : op.scan ty act v fuel i (op.running ty act v i) = (List.range' i fuel).map (op.scanLane ty act v) := by
  induction fuel generalizing i with
  | zero => rfl
  | succ fuel ih =>
    rw [List.range'_succ, List.map_cons, ← ih (i + 1)]
    rfl

/-- The running value of an integer sum is, in 64 bits, the sum of the active lanes passed. -/
theorem RedOp.running_sum (hty : ty.isI = true) (k : Nat) : RedOp.sum.running ty act v k =
    ofSigned 64 (((List.range k).filter act).map fun k => tyIval ty (lane ty.width v k)).sum := by
  induction k with
  | zero => simp [RedOp.running, RedOp.ident, hty, ofSigned]
  | succ k ih =>
    rw [RedOp.running, ih, RedOp.scanStep, List.range_succ]
    cases hk : act k <;> simp [hk, hty, extend64, RedOp.node_sum]

/-- The element of a number of 64 bits is the number's low bits. -/
theorem toElement_ofSigned (hty : ty.isI = true) (z : Int) : toElement ty (ofSigned 64 z) = (ofSigned ty.width z, 0) := by
  have hdvd : ((2 ^ ty.width : Nat) : Int) ∣ ((2 ^ 64 : Nat) : Int) := by exact_mod_cast pow_dvd_pow 2 (tyWidth_le ty)
  have hmod : ofSigned 64 z % 2 ^ ty.width = ofSigned ty.width z := by
    rw [ofSigned, ofSigned, BitVec.toNat_ofInt, BitVec.toNat_ofInt, ← Int.toNat_natCast (2 ^ ty.width),
      ← Int.toNat_emod (Int.emod_nonneg _ (by decide)) (by positivity), Int.emod_emod_of_dvd _ hdvd, Int.toNat_natCast]
  rw [toElement, if_pos hty, hmod]

/-- No step of an integer scan raises a flag. -/
theorem RedOp.scanLane_flags (hty : ty.isI = true) (k : Nat) : (op.scanLane ty act v k).2 = 0 := by
  cases op <;> cases hk : act k <;> simp [RedOp.scanLane, RedOp.scanStep, RedOp.node, toElement, hty, hk]

/-- A scan leaves each lane's element in vd, and the flags of every lane. -/
theorem Leaves.vscan {i : Instr} {d a : BitVec 5} {m : BitVec 3} (h : Alone s t) (hi : exec i s = vscan d a m ty op s)
    (hx : fpTen t.fpcsr = 0) :
    ∃ (x : Vec) (fl : Flags), Leaves i s { t.wv d.toNat x with fpcsr := t.fpcsr ||| fl.setWidth 64 } ∧
      (∀ k < 512 / ty.width, lane ty.width x k = (op.scanLane ty (t.active m.toNat) (t.rv a.toNat) k).1 % 2 ^ ty.width) ∧
      ∀ b, fl.getLsbD b = true ↔ ∃ k < 512 / ty.width, (op.scanLane ty (t.active m.toNat) (t.rv a.toNat) k).2.getLsbD b = true := by
  have hscan : op.scan ty (t.active m.toNat) (t.rv a.toNat) (512 / ty.width) 0 (op.ident ty) =
      (List.range (512 / ty.width)).map (op.scanLane ty (t.active m.toNat) (t.rv a.toNat)) := by
    rw [List.range_eq_range']
    exact RedOp.scan_eq (512 / ty.width) 0
  refine ⟨_, _, Leaves.issueA h hi nofun hx rfl rfl, fun k hk => ?_, fun b => ?_⟩
  · rw [lane_ofLanes _ _ _ hk, hscan]
    simp [hk]
  · rw [laneOr_bit, hscan]
    constructor
    · rintro ⟨e, he, hb⟩
      obtain ⟨k, hk, rfl⟩ := List.mem_mapIdx.mp he
      simp only [List.length_map, List.length_range] at hk
      exact ⟨k, hk, by simpa using hb⟩
    · rintro ⟨k, hk, hb⟩
      exact ⟨_, List.mem_mapIdx.mpr ⟨k, by simpa using hk, rfl⟩, by simpa using hb⟩

end Sys2Proof.Machine
end

section
/-!
CERTIFICATE. Reductions and scans (R245, R246, R382, R383, R386).
-/

open Sys2Proof Sys2Proof.Machine

/-- R245, R382, R386: the tree of each reduction, the integer sum, and the identities. -/
theorem vectorReductionResults : Claims.VectorReductionResults := by
  intro s t h hx d a m act lanes value leaves reduces
  have hreduces : ∀ (i : Instr) (op : RedOp) (ty : Ty), exec i s = vreduce d a m ty op s → (ty = .f64 → s.hasF64v s.unit.core = true) →
      reduces i op ty := fun i op ty hi hv => by
    obtain ⟨top, fl, htree, -, -⟩ := RedOp.tree_leaves (op := op) (ty := ty) (M := Nat) (P := fun _ _ => True) (R := fun _ => True)
      (fun _ => 0) (op.leaf ty act (t.rv a.toNat)) (fun _ _ _ _ _ _ => ⟨trivial, trivial⟩) fun _ => trivial
    exact ⟨top, fl, htree, Leaves.vreduce h hi hv hx htree⟩
  have hinactive : ∀ (i : Instr) (op : RedOp) (ty : Ty), exec i s = vreduce d a m ty op s → op ≠ .sum → ty ≠ .f64 → lanes ty = [] →
      Leaves i s (t.wv d.toNat (BitVec.ofNat 512 (op.ident ty + 2 ^ 64 * (2 ^ 64 - 1)))) := fun i op ty hi hop hty hnone => by
    obtain ⟨top, fl, htree, hfl, hval, hidx⟩ := RedOp.inactive_top (v := t.rv a.toNat) hop hnone
    have hl := Leaves.vreduce_quiet h hi (fun e => absurd e hty) hx htree hfl
    rwa [if_neg hop, hval, hidx] at hl
  refine ⟨fun ty hty => ⟨hreduces _ _ ty rfl fun e => absurd e hty, hreduces _ _ ty rfl fun e => absurd e hty,
    hreduces _ _ ty rfl fun e => absurd e hty, fun hI => ?_, fun hnone => ⟨hinactive _ _ ty rfl nofun hty hnone,
    hinactive _ _ ty rfl nofun hty hnone⟩⟩, fun hv => hreduces _ _ .f64 rfl fun _ => hv⟩
  obtain ⟨top, fl, htree, hfl, hval⟩ := RedOp.sum_top (act := act) (v := t.rv a.toNat) hI
  have hl := Leaves.vreduce_quiet h (i := .vrsum d a m ty) rfl (fun e => absurd e hty) hx htree hfl
  have hvalue : value ty = fun k => tyIval ty (lane ty.width (t.rv a.toNat) k) := funext fun k => (tyIval_lane ty _ k).symm
  rw [if_pos rfl, mul_zero, add_zero, hval, ofSigned, BitVec.ofNat_toNat, ← hvalue] at hl
  exact hl

/-- R245, R382: the extreme value and its lane. -/
theorem vectorReductionFindsTheWinner : Claims.VectorReductionFindsTheWinner := by
  intro s t h hx d a m ty hty L act value finds hact
  have hvalue : (fun k => tyIval ty (lane ty.width (t.rv a.toNat) k)) = value := funext (tyIval_lane ty _)
  have hf64 : ty ≠ .f64 := by rintro rfl; exact absurd hty (by decide)
  have hfinds : ∀ (i : Instr) (op : RedOp), exec i s = vreduce d a m ty op s → op ≠ .sum → finds i op.Beats := fun i op hi hop => by
    obtain ⟨top, fl, j, htree, hfl, hval, hidx, hj, hactj, hbest⟩ := RedOp.winner_top (v := t.rv a.toNat) hop hty hact
    have hl := Leaves.vreduce_quiet h hi (fun e => absurd e hf64) hx htree hfl
    rw [hvalue] at hbest
    refine ⟨j, hj, hactj, fun k hk hk' => ?_, fun k hk hk' => ?_, ?_⟩
    · obtain rfl | hne := eq_or_ne k j
      · cases op <;> simp [RedOp.Beats]
      · exact (hbest k hk hk' hne).beats.1
    · exact (hbest k (hk.trans hj) hk' hk.ne).beats.2 hk
    · rw [if_neg hop, hval, hidx, tyIval_lane] at hl
      exact hl
  exact ⟨hfinds _ .max rfl nofun, hfinds _ .min rfl nofun⟩

/-- R246, R383: the running value of each scan, and the integer sums. -/
theorem vectorScanResults : Claims.VectorScanResults := by
  intro s t h hx d a m ty w L act x value scans
  have hscans : ∀ (i : Instr) (op : RedOp), exec i s = vscan d a m ty op s → scans i op := fun i op hi => by
    obtain ⟨v, fl, hl, hlane, hfl⟩ := Leaves.vscan h hi hx
    exact ⟨v, fl, op.running ty act (t.rv a.toNat), hl, rfl, fun _ _ => rfl, hlane, hfl⟩
  refine ⟨hscans _ .sum rfl, hscans _ .max rfl, hscans _ .min rfl, fun hI => ?_⟩
  have hvalue : (fun k => tyIval ty (lane ty.width (t.rv a.toNat) k)) = value := funext (tyIval_lane ty _)
  obtain ⟨v, fl, hl, hlane, hfl⟩ := Leaves.vscan (i := .vscsum d a m ty) h rfl hx
  have hzero : fl = 0 := flags_zero fun b hb => by
    obtain ⟨k, -, hk⟩ := (hfl b).mp hb
    simp [RedOp.scanLane_flags hI] at hk
  rw [hzero, Thread.wv_raise_none] at hl
  refine ⟨v, hl, fun k hk => (hlane k hk).trans ?_⟩
  rw [RedOp.scanLane, RedOp.running_sum hI, toElement_ofSigned hI, hvalue]
  exact Nat.mod_eq_of_lt (BitVec.isLt _)

/-- Settles O31: each reduction is the top of its tree, and each scan its running value. -/
theorem vectorReductionAndScanResults : Obligations.VectorReductionAndScanResults :=
  ⟨vectorReductionResults, vectorReductionFindsTheWinner, vectorScanResults⟩
end

section
/-!
SUPPORT. Conversions (R240, R379): the results under a mask, and the lanes that take them.
-/

namespace Sys2Proof.Machine

variable {s : State} {t : Thread}

/-- A result under a mask, by its number. -/
theorem getD_masked {α : Type} (n : Nat) (act : Nat → Bool) (f : Nat → α) (k : Nat) :
    ((List.range n).map fun k => if act k then some (f k) else none).getD k none = if k < n ∧ act k = true then some (f k) else none := by
  by_cases hk : k < n <;> simp [List.getD_eq_getElem?_getD, hk]

/-- The flags of the results under a mask. -/
theorem laneOr_masked (n : Nat) (act : Nat → Bool) (f : Nat → Nat × Flags) (b : Nat) :
    (laneOr ((List.range n).filterMap fun k =>
      (((List.range n).map fun k => if act k then some (f k) else none).getD k none).map fun y => (k, y.2))).getLsbD b = true ↔
      ∃ k < n, act k = true ∧ (f k).2.getLsbD b = true := by
  rw [laneOr_bit]
  simp only [getD_masked, List.mem_filterMap, List.mem_range, Option.map_eq_some_iff, Option.ite_none_right_eq_some, Option.some.injEq]
  constructor
  · rintro ⟨_, ⟨k, hk, _, ⟨⟨-, hact⟩, rfl⟩, rfl⟩, hb⟩
    exact ⟨k, hk, hact, hb⟩
  · rintro ⟨k, hk, hact, hb⟩
    exact ⟨(k, (f k).2), ⟨k, hk, f k, ⟨⟨hk, hact⟩, rfl⟩, rfl⟩, hb⟩

/-- The result that lane `l` of register `r` takes, if any (R379): from `d` on in order where a conversion widens, else from lane
`half` on. -/
def resultAt (ws wd d half n : Nat) (result : Nat → Option (Nat × Flags)) (r l : Nat) : Option (Nat × Flags) :=
  if ws < wd then result ((r - d) * (512 / wd) + l) else if half ≤ l ∧ l < half + n then result (l - half) else none

section resultAt
variable {ws wd d half n r l k : Nat} {result : Nat → Option (Nat × Flags)}

theorem resultAt_group (hw : ws < wd) : resultAt ws wd d half n result (d + k / (512 / wd)) (k % (512 / wd)) = result k := by
  rw [resultAt, if_pos hw, Nat.add_sub_cancel_left, Nat.mul_comm, Nat.div_add_mod]

theorem resultAt_half (hw : ¬ws < wd) (hk : k < n) : resultAt ws wd d half n result r (half + k) = result k := by
  rw [resultAt, if_neg hw, if_pos (by omega), Nat.add_sub_cancel_left]

theorem resultAt_outside (hw : ¬ws < wd) (hl : l < half ∨ half + n ≤ l) : resultAt ws wd d half n result r l = none := by
  rw [resultAt, if_neg hw, if_neg (by omega)]

end resultAt

/-- The registers of a conversion: each lane takes its result, or keeps its contents. -/
def convertedReg (t : Thread) (wd : Nat) (at_ : Nat → Nat → Option (Nat × Flags)) (r : Nat) : Vec :=
  ofLanes wd fun l => match at_ r l with
    | some y => y.1
    | none => lane wd (t.rv r) l

theorem lane_convertedReg {wd r l : Nat} {at_ : Nat → Nat → Option (Nat × Flags)} (hl : l < 512 / wd) :
    lane wd (convertedReg t wd at_ r) l = ((at_ r l).map fun y => y.1 % 2 ^ wd).getD (lane wd (t.rv r) l) := by
  rw [convertedReg, lane_ofLanes _ _ _ hl]
  cases at_ r l with
  | none => exact Nat.mod_eq_of_lt (lane_lt ..)
  | some y => rfl

/-- A word that writes whole registers and raises the flags of its lanes. -/
theorem Leaves.registers {i : Instr} {n : Names} {f64v : Bool} {body : Thread → AOut} {regs : List Nat} {v : Nat → Vec}
    {lanes : List (Nat × Flags)} (h : Alone s t) (hi : exec i s = Machine.issueA n f64v body s)
    (hv : f64v = true → s.hasF64v s.unit.core = true) (hx : fpTen t.fpcsr = 0)
    (hb : body t = { vw := regs.map fun r => (r, v r), lanes := lanes }) :
    Leaves i s { regs.foldl (fun u r => u.wv r (v r)) t with fpcsr := t.fpcsr ||| (laneOr lanes).setWidth 64 } := by
  refine Leaves.issueA h hi hv hx (by rw [hb]) ?_
  rw [hb, Thread.takeOut, List.foldl_map]
  rfl

end Sys2Proof.Machine
end

section
/-!
SUPPORT. Scaled blocks (R238, R241, R380, R381): the bounds of a quantised block, and the fields of a packed one.
-/

namespace Sys2Proof.Machine

variable {f : SbFmt} {rm : Rm} {sat : Bool} {xs : List FVal}

/-- The search for an exponent ends before its fuel does. -/
theorem SbFmt.leastExp_lt {fuel e r : Nat} (h : f.leastExp rm xs fuel e = some r) : r < e + fuel := by
  induction fuel generalizing e with
  | zero => exact absurd h nofun
  | succ fuel ih =>
    rw [SbFmt.leastExp] at h
    split at h
    · obtain rfl := Option.some.inj h
      omega
    · have hr := ih h
      omega

/-- The exponents of a quantised block are bytes. -/
theorem SbFmt.quantise_exponents : (f.quantise rm sat xs).2.1 < 2 ^ 8 ∧ (f.quantise rm sat xs).2.2.1 < 2 ^ 8 := by
  have hfound : (f.leastExp rm xs 255 0).getD 254 < 255 := by
    cases h : f.leastExp rm xs 255 0 with
    | none => decide
    | some e => exact (SbFmt.leastExp_lt h).trans_eq (by decide)
  have hnan : 0xFF < 2 ^ 8 := by decide
  unfold SbFmt.quantise
  split
  · exact ⟨hnan, hnan⟩
  · dsimp only
    split
    · exact ⟨hnan, hnan⟩
    · constructor <;> dsimp only <;> omega

/-- The elements of a quantised block fit their width. -/
theorem SbFmt.quantise_elements (hf : 2 ^ (f.ewidth - 1) + 2 ^ (f.ewidth - 2) + f.mmax < 2 ^ f.ewidth) :
    (f.quantise rm sat xs).1.length = xs.length ∧ ∀ e ∈ (f.quantise rm sat xs).1, e < 2 ^ f.ewidth := by
  have hzero : ∀ e ∈ xs.map fun _ => 0, e < 2 ^ f.ewidth := List.forall_mem_map.mpr fun _ _ => by positivity
  unfold SbFmt.quantise
  split
  · exact ⟨List.length_map _, hzero⟩
  · dsimp only
    split
    · exact ⟨List.length_map _, hzero⟩
    · refine ⟨by simp, List.forall_mem_map.mpr fun r hr => ?_⟩
      obtain ⟨x, -, rfl⟩ := List.mem_map.mp hr
      have hsign : bitOf x.neg * 2 ^ (f.ewidth - 2) ≤ 2 ^ (f.ewidth - 2) := by cases x.neg <;> simp [bitOf]
      refine lt_of_le_of_lt (Nat.add_le_add (Nat.add_le_add ?_ hsign) (Nat.min_le_right ..)) hf
      split
      · exact Nat.zero_le _
      · exact le_rfl

/-- Elements packed side by side are the sum that assembles a vector's lanes. -/
theorem packed_eq_laneSum {w : Nat} {l : List Nat} (hl : ∀ e ∈ l, e < 2 ^ w) :
    (l.mapIdx fun i e => e * 2 ^ (w * i)).foldl (· + ·) 0 =
      (List.range l.length).foldl (fun acc i => acc + l.getD i 0 % 2 ^ w * 2 ^ (w * i)) 0 := by
  have hmap : (l.mapIdx fun i e => e * 2 ^ (w * i)) = (List.range l.length).map fun i => l.getD i 0 % 2 ^ w * 2 ^ (w * i) := by
    refine List.ext_getElem (by simp) fun i hi hi' => ?_
    simp only [List.length_mapIdx] at hi
    simp [hi, Nat.mod_eq_of_lt (hl _ (List.getElem_mem hi))]
  rw [hmap, List.foldl_map]

/-- A lane of a vector given as a number. -/
theorem lane_ofNat {w k : Nat} (hk : w * k + w ≤ 512) (x : Nat) : lane w (BitVec.ofNat 512 x) k = x / 2 ^ (w * k) % 2 ^ w := by
  refine Nat.eq_of_testBit_eq fun b => ?_
  simp only [lane, BitVec.toNat_ofNat, Nat.testBit_mod_two_pow, Nat.testBit_div_two_pow]
  by_cases hb : b < w
  · simp [hb, show b + w * k < 512 by omega]
  · simp [hb]

/-- What stands above `n` bits is not in the lanes below. -/
theorem lane_below {w k n : Nat} (hk : w * k + w ≤ n) (x y : Nat) : (x + 2 ^ n * y) / 2 ^ (w * k) % 2 ^ w = x / 2 ^ (w * k) % 2 ^ w := by
  obtain ⟨r, rfl⟩ := Nat.exists_eq_add_of_le hk
  rw [Nat.pow_add, Nat.pow_add, mul_assoc, mul_assoc, Nat.add_mul_div_left _ _ (by positivity), Nat.add_mul_mod_self_left]

theorem byteAt_eq_lane (v : Vec) (n : Nat) : byteAt v n = BitVec.ofNat 8 (lane 8 v n) := by
  refine BitVec.eq_of_toNat_eq ?_
  simp [byteAt, lane, Nat.shiftRight_eq_div_pow]

/-- The vector of a block: its elements in the bytes below 48, and its two exponents in the bytes after them (R380). -/
def blockOf (elements e0 e1 : Nat) : Vec := BitVec.ofNat 512 (elements + e0 * 2 ^ 384 + e1 * 2 ^ 392)

section blockOf
variable {w elements e0 e1 k n : Nat}

theorem blockOf_eq : blockOf elements e0 e1 = BitVec.ofNat 512 (elements + 2 ^ 384 * (e0 + 2 ^ 8 * e1)) := by
  have hsplit : ∀ b, elements + e0 * 2 ^ b + e1 * 2 ^ (b + 8) = elements + 2 ^ b * (e0 + 2 ^ 8 * e1) := fun b => by rw [pow_add]; ring
  rw [blockOf, ← hsplit]

/-- A lane that ends below byte 48 is one of the elements'. -/
theorem lane_blockOf (hk : w * k + w ≤ 384) : lane w (blockOf elements e0 e1) k = elements / 2 ^ (w * k) % 2 ^ w := by
  rw [blockOf_eq, lane_ofNat (hk.trans (by decide)), lane_below hk]

/-- A byte from 48 on is one of the exponents'. -/
theorem byteAt_blockOf (helements : elements < 2 ^ 384) (hn : n < 16) :
    byteAt (blockOf elements e0 e1) (48 + n) = BitVec.ofNat 8 ((e0 + 2 ^ 8 * e1) / 2 ^ (8 * n)) := by
  have hsplit : ∀ b, elements < 2 ^ b → ∀ x, (elements + 2 ^ b * x) / 2 ^ (b + 8 * n) = x / 2 ^ (8 * n) := fun b hb x => by
    rw [Nat.pow_add, ← Nat.div_div_eq_div_mul, Nat.add_mul_div_left _ _ (by positivity), Nat.div_eq_of_lt hb, Nat.zero_add]
  rw [byteAt_eq_lane, blockOf_eq, lane_ofNat (by omega), show 8 * (48 + n) = 384 + 8 * n by ring, hsplit 384 helements]
  exact BitVec.eq_of_toNat_eq (by simp)

/-- A byte above the elements and below 48 is zero. -/
theorem byteAt_blockOf_gap (helements : elements < 2 ^ (8 * n)) (hn : n < 48) : byteAt (blockOf elements e0 e1) n = 0 := by
  rw [byteAt_eq_lane, lane_blockOf (by omega), Nat.div_eq_of_lt helements]
  rfl

end blockOf

/-- The block of 48 quantised values (R380). -/
theorem SbFmt.quantise_block (hf : f = sb8 ∨ f = sb4) (hxs : xs.length = 48) :
    let q := f.quantise rm sat xs
    let v := blockOf ((q.1.mapIdx fun i e => e * 2 ^ (f.ewidth * i)).foldl (· + ·) 0) q.2.1 q.2.2.1
    (∀ k < 48, lane f.ewidth v k = q.1.getD k 0) ∧ (∀ n < 64, 6 * f.ewidth ≤ n → n ≠ 48 → n ≠ 49 → byteAt v n = 0) ∧
      byteAt v 48 = BitVec.ofNat 8 q.2.1 ∧ byteAt v 49 = BitVec.ofNat 8 q.2.2.1 := by
  intro q v
  have hwidth : f.ewidth ≤ 8 := by obtain rfl | rfl := hf <;> decide
  obtain ⟨hlen, helem⟩ : q.1.length = xs.length ∧ ∀ e ∈ q.1, e < 2 ^ f.ewidth :=
    SbFmt.quantise_elements (by obtain rfl | rfl := hf <;> decide)
  obtain ⟨he0, he1⟩ : q.2.1 < 2 ^ 8 ∧ q.2.2.1 < 2 ^ 8 := SbFmt.quantise_exponents
  have hsum := packed_eq_laneSum helem
  rw [hlen, hxs] at hsum
  have hlt := laneSum_lt f.ewidth 48 fun i => q.1.getD i 0
  rw [← hsum] at hlt
  have hlt' : ∀ b, f.ewidth * 48 ≤ b → (q.1.mapIdx fun i e => e * 2 ^ (f.ewidth * i)).foldl (· + ·) 0 < 2 ^ b := fun b hb =>
    hlt.trans_le (Nat.pow_le_pow_right (by decide) hb)
  have hexponents : ∀ j < 16, byteAt v (48 + j) = BitVec.ofNat 8 ((q.2.1 + 2 ^ 8 * q.2.2.1) / 2 ^ (8 * j)) := fun j hj =>
    byteAt_blockOf (hlt' 384 (by omega)) hj
  refine ⟨fun k hk => ?_, fun n hn hw h48 h49 => ?_, ?_, ?_⟩
  · have hfits : f.ewidth * k + f.ewidth ≤ 384 := (Nat.mul_le_mul hwidth hk : f.ewidth * (k + 1) ≤ 8 * 48)
    rw [lane_blockOf hfits, hsum, laneSum_lane _ _ _ _ hk, Nat.mod_eq_of_lt]
    rw [List.getD_eq_getElem _ _ (by omega)]
    exact helem _ (List.getElem_mem _)
  · obtain hlow | ⟨j, rfl⟩ : n < 48 ∨ ∃ j, n = 48 + j := by
      by_cases h : n < 48
      · exact .inl h
      · exact .inr ⟨n - 48, by omega⟩
    · exact byteAt_blockOf_gap (hlt' _ (by omega)) hlow
    · have hsmall : q.2.1 + 2 ^ 8 * q.2.2.1 < 2 ^ (8 * j) :=
        lt_of_lt_of_le (by omega : _ < 2 ^ 16) (Nat.pow_le_pow_right (by decide) (by omega))
      rw [hexponents j (by omega), Nat.div_eq_of_lt hsmall]
      rfl
  · rw [hexponents 0 (by decide)]
    exact BitVec.eq_of_toNat_eq (by simp)
  · rw [hexponents 1 (by decide)]
    exact BitVec.eq_of_toNat_eq (by simp; omega)

end Sys2Proof.Machine
end

section
/-!
CERTIFICATE. Conversions and scaled blocks (R238, R240, R379 to R381, R386).
-/

open Sys2Proof Sys2Proof.Machine

/-- R379, R240, R386: the results of a conversion and where they go. -/
theorem vectorConversionResults : Claims.VectorConversionResults := by
  intro s t h hx d a td ts rm sat hi m wS wD LS LD N half src regs reg at_ converts
  let result (k : Nat) : Option (Nat × Flags) :=
    ((List.range N).map fun k => if t.active m.toNat k then some (convert td ts (Rm.ofCode rm) sat (src k)) else none).getD k none
  have hresult : ∀ k < N, result k = if t.active m.toNat k then some (convert td ts (Rm.ofCode rm) sat (src k)) else none :=
    fun k hk => (getD_masked ..).trans (by simp only [hk, true_and])
  have hfits : ¬wS < wD → ∀ k < N, half + k < LD := fun hw k hk => by
    by_cases he : wS = wD
    · have hN : N = LD := by simp only [N, LS, LD, if_pos he, he]
      have hhalf : half = 0 := if_neg fun hc => hc.2 he
      omega
    · have hN : N = LD / 2 := by simp only [N, if_neg he, if_pos (by omega : wD < wS)]
      have hhalf : half ≤ N := by simp only [half]; split <;> omega
      omega
  have hconverts : ∀ (i : Instr) (f64v : Bool), exec i s = vcvtOp d a td rm sat hi m ts f64v s →
      (f64v = true → s.hasF64v s.unit.core = true) → converts i := fun i f64v hi hv => by
    refine ⟨convertedReg t wD (resultAt wS wD d.toNat half N result), _, Leaves.registers h hi hv hx rfl, fun k hk => ?_,
      fun hw l hl hout => ?_, laneOr_masked _ _ _⟩
    · have hat : at_ k < LD ∧ resultAt wS wD d.toNat half N result (reg k) (at_ k) = result k := by
        by_cases hw : wS < wD
        · have hLD : 0 < LD := Nat.div_pos ((tyWidth_le td).trans (by decide)) (tyWidth_pos td)
          simp only [reg, at_, if_pos hw]
          exact ⟨Nat.mod_lt _ hLD, resultAt_group hw⟩
        · simp only [reg, at_, if_neg hw]
          exact ⟨hfits hw k hk, resultAt_half hw hk⟩
      rw [lane_convertedReg hat.1, hat.2, hresult k hk]
      cases t.active m.toNat k <;> rfl
    · rw [lane_convertedReg hl, resultAt_outside (Nat.lt_asymm hw) hout]
      rfl
  exact ⟨hconverts _ false rfl nofun, fun hv => hconverts _ true rfl fun _ => hv⟩

/-- R380, R381, R238: packing 48 values into a block, and spreading a block over three registers. -/
theorem vectorBlockResults : Claims.VectorBlockResults := by
  intro s t h hx d a
  constructor
  · intro rm sat i f he xs q
    obtain ⟨hi, hf⟩ : exec i s = vqblkOp d a rm sat f s ∧ (f = sb8 ∨ f = sb4) := by
      simp only [List.mem_cons, List.not_mem_nil, or_false, Prod.mk.injEq] at he
      obtain ⟨rfl, rfl⟩ | ⟨rfl, rfl⟩ := he
      exacts [⟨rfl, .inl rfl⟩, ⟨rfl, .inr rfl⟩]
    have hl := Leaves.registers (regs := [d.toNat]) (v := fun _ => blockOf _ q.2.1 q.2.2.1) h hi nofun hx rfl
    have hflags : laneOr [(0, q.2.2.2)] = q.2.2.2 := BitVec.zero_or
    exact ⟨_, hflags ▸ hl, SbFmt.quantise_block hf (by simp [xs])⟩
  · intro i f he x
    have hi : exec i s = vdqblkOp d a f s := by
      simp only [List.mem_cons, List.not_mem_nil, or_false, Prod.mk.injEq] at he
      obtain ⟨rfl, rfl⟩ | ⟨rfl, rfl⟩ := he <;> rfl
    refine ⟨fun j => ofLanes 32 fun k => f32OfVal (f.value (bytesAt x 48 1) (bytesAt x 49 1) (lane f.ewidth x (16 * j + k))),
      Leaves.issueA h hi nofun hx rfl (Thread.takeOut_noflags _ rfl), fun j _ k hk => lane_ofLanes _ _ _ hk⟩

/-- Settles O32: each conversion puts its results where R379 says, and a block's fields are those of its number. -/
theorem vectorConversionAndBlockResults : Obligations.VectorConversionAndBlockResults :=
  ⟨vectorConversionResults, vectorBlockResults⟩
end

section
/-!
SUPPORT. A word that writes one g register, and the bit counts and byte order of R307.
-/

namespace Sys2Proof.Machine

variable {s : State} {t : Thread}

/-- A word of the A class that writes one g register and raises no flag. -/
theorem Leaves.written {i : Instr} {n : Names} {d : Nat} {f : Thread → Word} {r : Word} (h : Alone s t)
    (hi : exec i s = Machine.issueA n false (fun t => { gw := [(d, f t)] }) s) (hr : f t = r) : Leaves i s (t.wg d r) := by
  refine hi.trans ?_
  rw [issueA_alone _ _ _ h (by simp) rfl (by simp [fpTrap, laneOr]), Thread.takeOut_noflags _ rfl, ← hr]
  rfl

/-- The bit length of a number bounds it: it is the least power of two above it. -/
theorem bitLength_spec {x : Nat} : x < 2 ^ bitLength x ∧ (0 < bitLength x → 2 ^ (bitLength x - 1) ≤ x) := by
  unfold bitLength
  split
  case isTrue h => simp [h]
  case isFalse h => exact ⟨Nat.lt_log2_self, fun _ => Nat.log2_self_le h⟩

theorem bitLength_le {x n : Nat} (h : x < 2 ^ n) : bitLength x ≤ n := by
  unfold bitLength
  split
  case isTrue => omega
  case isFalse hx => exact (Nat.log2_lt hx).2 h

theorem clz64_spec (x : Word) : clz64 x ≤ 64 ∧ x.toNat < 2 ^ (64 - clz64 x) ∧ (clz64 x < 64 → 2 ^ (63 - clz64 x) ≤ x.toNat) := by
  have hle := bitLength_le x.isLt
  obtain ⟨hlt, hge⟩ := bitLength_spec (x := x.toNat)
  unfold clz64
  refine ⟨Nat.sub_le .., ?_, fun h => ?_⟩
  · rwa [Nat.sub_sub_self hle]
  · rw [show 63 - (64 - bitLength x.toNat) = bitLength x.toNat - 1 by omega]
    exact hge (by omega)

/-- The count of trailing zeros: as many low bits are zero, and the next one, if it is one of the `n`, is not. -/
theorem trailingZeros_spec (n x : Nat) :
    trailingZeros n x ≤ n ∧ x % 2 ^ trailingZeros n x = 0 ∧ (trailingZeros n x < n → x.testBit (trailingZeros n x) = true) := by
  induction n generalizing x with
  | zero => exact ⟨Nat.le_refl 0, Nat.mod_one x, nofun⟩
  | succ n ih =>
    obtain ⟨hle, hmod, hbit⟩ := ih (x / 2)
    unfold trailingZeros
    split
    case isTrue h => exact ⟨Nat.zero_le _, Nat.mod_one x, fun _ => by simpa [Nat.testBit_zero] using h⟩
    case isFalse h =>
      refine ⟨by omega, ?_, fun h => ?_⟩
      · rw [Nat.add_comm, Nat.pow_succ', Nat.mod_mul, hmod]
        omega
      · rw [Nat.add_comm, Nat.testBit_succ]
        exact hbit (by omega)

theorem popCount_eq_countP (n x : Nat) : popCount n x = (List.range n).countP x.testBit := by
  induction n generalizing x with
  | zero => rfl
  | succ n ih =>
    have htail : x.testBit ∘ Nat.succ = (x / 2).testBit := funext fun i => Nat.testBit_succ x i
    rw [popCount, ih, List.range_succ_eq_map, List.countP_cons, List.countP_map, htail, Nat.testBit_zero, Nat.add_comm]
    rcases Nat.mod_two_eq_zero_or_one x with h | h <;> simp [h]

/-- Byte `i` of the word that a list of bytes makes up. -/
theorem word_leNat_byte {l : List Byte} {i : Nat} (hi : i < l.length) (h8 : i < 8) : (word (leNat l)).extractLsb' (8 * i) 8 = l[i] := by
  suffices h : leNat l / 2 ^ (8 * i) % 256 = l[i].toNat by
    apply BitVec.eq_of_toNat_eq
    rw [BitVec.extractLsb'_toNat, Nat.shiftRight_eq_div_pow, word, BitVec.toNat_ofNat, ← h]
    rw [show 64 = 8 * i + (64 - 8 * i) by omega, Nat.pow_add, Nat.mod_mul_right_div_self, show (64 - 8 * i) = 8 + (56 - 8 * i) by omega,
      Nat.pow_add, Nat.mod_mul_right_mod]
  clear h8
  induction l generalizing i with
  | nil => exact absurd hi (Nat.not_lt_zero i)
  | cons b l ih =>
    have hb := b.isLt
    cases i with
    | zero => simp only [leNat, List.getElem_cons_zero]; omega
    | succ i =>
      have hdiv : (b.toNat + 256 * leNat l) / 2 ^ (8 * (i + 1)) = leNat l / 2 ^ (8 * i) := by
        rw [Nat.mul_succ, Nat.add_comm (8 * i), Nat.pow_add, ← Nat.div_div_eq_div_mul,
          show (b.toNat + 256 * leNat l) / 2 ^ 8 = leNat l by omega]
      rw [leNat, hdiv, List.getElem_cons_succ]
      exact ih (Nat.lt_of_succ_lt_succ hi)

@[simp] theorem leBytes_length (n x : Nat) : (leBytes n x).length = n := by
  induction n generalizing x with
  | zero => rfl
  | succ n ih => simp [leBytes, ih]

theorem leBytes_getElem {n x i : Nat} (hi : i < (leBytes n x).length) : (leBytes n x)[i] = BitVec.ofNat 8 (x / 2 ^ (8 * i)) := by
  induction n generalizing x i with
  | zero => exact absurd hi (Nat.not_lt_zero i)
  | succ n ih =>
    cases i with
    | zero => simp [leBytes]
    | succ i =>
      simp only [leBytes, List.getElem_cons_succ]
      rw [ih, Nat.div_div_eq_div_mul, Nat.mul_succ, Nat.add_comm, Nat.pow_add]

theorem bswap64_byte (x : Word) {i : Nat} (hi : i < 8) : (bswap64 x).extractLsb' (8 * i) 8 = x.extractLsb' (56 - 8 * i) 8 := by
  rw [bswap64, word_leNat_byte (by simpa using hi) hi, List.getElem_reverse, leBytes_getElem]
  simp only [leBytes_length, BitVec.extractLsb', Nat.shiftRight_eq_div_pow]
  congr 3
  omega

end Sys2Proof.Machine
end

section
/-!
CERTIFICATE. R305 to R308: the scalar integer instructions.
-/

open Sys2Proof Sys2Proof.Machine

/-- Settles O1: each word is its shape, with the operation that the rule names. -/
theorem scalarIntegerResults : Obligations.ScalarIntegerResults := by
  intro s t h
  have one {i : Instr} {d a : BitVec 5} (f : Word → Word) {r : Word} (hi : exec i s = alu1 d a f s) (hr : f (t.rg a.toNat) = r) :
      Leaves i s (t.wg d.toNat r) := Leaves.alu1 h hi hr
  have two {i : Instr} {d a b : BitVec 5} (f : Word → Word → Word) {r : Word} (hi : exec i s = alu2 d a b f s)
      (hr : f (t.rg a.toNat) (t.rg b.toNat) = r) : Leaves i s (t.wg d.toNat r) := Leaves.alu2 h hi hr
  have three {i : Instr} {d a b c : BitVec 5} (f : Word → Word → Word → Word) {r : Word} (hi : exec i s = alu3 d a b c f s)
      (hr : f (t.rg a.toNat) (t.rg b.toNat) (t.rg c.toNat) = r) : Leaves i s (t.wg d.toNat r) := Leaves.alu3 h hi hr
  refine ⟨fun d a b => ?_, fun d a b c => ?_, fun d a => ?_, fun d a i => ?_, fun d a n => ?_, fun d i => ?_, fun d i => ?_⟩
  · intro x y sh puts
    have hs (u v : Word) : (if x.slt y = true then u else v) = if x.toInt < y.toInt then u else v := if_congr decide_eq_true_iff rfl rfl
    have hu (u v : Word) : (if x.ult y = true then u else v) = if x.toNat < y.toNat then u else v := if_congr decide_eq_true_iff rfl rfl
    exact ⟨two (· + ·) rfl rfl, two (· - ·) rfl rfl, two (· &&& ·) rfl rfl, two (· ||| ·) rfl rfl, two (· ^^^ ·) rfl rfl,
      two (· &&& ~~~·) rfl rfl, two (· <<< shAmt ·) rfl rfl, two (· >>> shAmt ·) rfl rfl, two (·.sshiftRight <| shAmt ·) rfl rfl,
      two (·.rotateLeft <| shAmt ·) rfl rfl, two (·.rotateRight <| shAmt ·) rfl rfl, two (boolWord <| ·.slt ·) rfl (hs 1 0),
      two (boolWord <| ·.ult ·) rfl (hu 1 0), two (boolWord <| · == ·) rfl (if_congr beq_iff_eq rfl rfl),
      two (fun x y => if x.slt y then x else y) rfl (hs x y), two (fun x y => if x.slt y then y else x) rfl (hs y x),
      two (fun x y => if x.ult y then x else y) rfl (hu x y), two (fun x y => if x.ult y then y else x) rfl (hu y x),
      two (· * ·) rfl rfl, two mulHigh rfl rfl, two mulHighU rfl rfl, two divS rfl rfl, two divU rfl rfl, two remS rfl rfl,
      two remU rfl rfl, two (sext32 <| · + ·) rfl rfl, two (sext32 <| · - ·) rfl rfl, two (sext32 <| · * ·) rfl rfl⟩
  · exact ⟨three (· * · + ·) rfl rfl, three (fun x y z => z - x * y) rfl rfl, three (fun x y z => if z ≠ 0 then x else y) rfl rfl⟩
  · intro x puts
    exact ⟨⟨clz64 x, one (word <| clz64 ·) rfl rfl, clz64_spec x⟩, ⟨ctz64 x, one (word <| ctz64 ·) rfl rfl, trailingZeros_spec 64 x.toNat⟩,
      one (word <| popCount 64 <| ·.toNat) rfl (congrArg word (popCount_eq_countP 64 x.toNat)),
      ⟨bswap64 x, one bswap64 rfl rfl, fun i => bswap64_byte x⟩, one (fun x => (x.setWidth 8).signExtend 64) rfl rfl,
      one (fun x => (x.setWidth 16).signExtend 64) rfl rfl, one sext32 rfl rfl, one (fun x => (x.setWidth 32).setWidth 64) rfl rfl⟩
  · intro x k z puts
    exact ⟨one (· + simm i) rfl rfl, one (· &&& simm i) rfl rfl, one (· ||| zimm i) rfl rfl, one (· ^^^ zimm i) rfl rfl,
      one (boolWord <| ·.slt (simm i)) rfl (if_congr decide_eq_true_iff rfl rfl),
      one (boolWord <| ·.ult (simm i)) rfl (if_congr decide_eq_true_iff rfl rfl)⟩
  · exact ⟨one (· <<< n.toNat) rfl rfl, one (· >>> n.toNat) rfl rfl, one (·.sshiftRight n.toNat) rfl rfl,
      one (·.rotateRight n.toNat) rfl rfl⟩
  · refine Leaves.written h rfl ?_
    rw [sext]
    congr 1
    apply BitVec.eq_of_toNat_eq
    simp [Nat.shiftLeft_eq]
  · exact Leaves.written h rfl rfl
end

section
/-!
SUPPORT. The scalar f32 instructions: a result with its exceptions, and the sign operations.
-/

namespace Sys2Proof.Machine

variable {s : State} {t : Thread}

/-- A word of the A class that writes one g register and raises flags, no FP trap being enabled. -/
theorem Leaves.raising {i : Instr} {n : Names} {body : Thread → AOut} {d : Nat} {r : Word} {fl : Flags} (h : Alone s t)
    (hx : fpTen t.fpcsr = 0) (hi : exec i s = Machine.issueA n false body s) (hb : body t = { gw := [(d, r)], lanes := [(0, fl)] }) :
    Leaves i s { t.wg d r with fpcsr := t.fpcsr ||| fl.setWidth 64 } := by
  have hflags : laneOr [(0, fl)] = fl := BitVec.zero_or
  refine Leaves.issueA h hi nofun hx (by rw [hb]) ?_
  rw [hb, Thread.takeOut, hflags]
  simp [fpRaise]

theorem fmtF32_neg {x : Nat} (hx : x < 2 ^ 32) : fmtF32.neg x = x ^^^ 0x80000000 := by
  rw [Fmt.neg, show fmtF32.width = 32 from rfl, Nat.mod_eq_of_lt hx]
  rfl

theorem fmtF32_cpsgn (x : Nat) {y : Nat} (hy : y < 2 ^ 32) : fmtF32.cpsgn x y = x % 2 ^ 31 + y / 2 ^ 31 * 2 ^ 31 := by
  rw [Fmt.cpsgn, show fmtF32.width = 32 from rfl, bits, Nat.mod_eq_of_lt (a := y / 2 ^ (32 - 1)) (by omega)]

end Sys2Proof.Machine
end

section
/-!
CERTIFICATE. R309 to R311, R235: the scalar f32 instructions.
-/

open Sys2Proof Sys2Proof.Machine

/-- Settles O2: each word is its shape, with the operation of its format that the rule names. -/
theorem scalarFloatResults : Obligations.ScalarFloatResults := by
  intro s t h hx
  refine ⟨fun d a b c => ?_, fun d a td r sat ts => ?_⟩
  · intro x y z puts test
    have f32 {i : Instr} {n : Names} (f : Thread → Nat × Flags) {r : Nat × Flags}
        (hi : exec i s = issueA n false (fun t => f32Out d (f t)) s) (hr : f t = r) : puts i r :=
      Leaves.raising h hx hi (by rw [hr]; rfl)
    have one {i : Instr} (f : Nat → Nat × Flags) {r : Nat × Flags} (hi : exec i s = fop1 d a f s) (hr : f x = r) : puts i r := f32 _ hi hr
    have two {i : Instr} (f : Nat → Nat → Nat × Flags) {r : Nat × Flags} (hi : exec i s = fop2 d a b f s) (hr : f x y = r) : puts i r :=
      f32 _ hi hr
    have three {i : Instr} (f : Nat → Nat → Nat → Nat × Flags) (hi : exec i s = fop3 d a b c f s) : puts i (f x y z) := f32 _ hi rfl
    have hlt (w : Word) : w.toNat % 2 ^ 32 < 2 ^ 32 := Nat.mod_lt _ (by decide)
    exact ⟨two fmtF32.add rfl rfl, two fmtF32.sub rfl rfl, two fmtF32.mul rfl rfl, two fmtF32.div rfl rfl, one fmtF32.sqrt rfl rfl,
      two (fmtF32.minmax false) rfl rfl, two (fmtF32.minmax true) rfl rfl, one (fmtF32.neg ·, 0) rfl (by rw [fmtF32_neg (hlt _)]),
      one (fmtF32.abs ·, 0) rfl rfl, two (fmtF32.cpsgn · ·, 0) rfl (by rw [fmtF32_cpsgn _ (hlt _)]),
      two (fun x y => (bitOf (fmtF32.cmpEq x y).1, (fmtF32.cmpEq x y).2)) rfl rfl,
      two (fun x y => (bitOf (fmtF32.cmpLt x y).1, (fmtF32.cmpLt x y).2)) rfl rfl,
      two (fun x y => (bitOf (fmtF32.cmpLe x y).1, (fmtF32.cmpLe x y).2)) rfl rfl, three fmtF32.fma rfl, three fmtF32.fms rfl,
      three fmtF32.fnma rfl, three fmtF32.fnms rfl, fun r => one (frintF32 (Rm.ofCode r)) rfl rfl⟩
  · exact Leaves.raising h hx rfl rfl
end

section
/-!
SUPPORT. Branches (R312 to R315): each goes one of two ways on its condition.
-/

namespace Sys2Proof.Machine

variable {s : State} {t : Thread}

/-- A branch goes to its target where its condition holds, and on where it does not. -/
def Branches (s : State) (t : Thread) (o : BitVec 11) (i : Instr) (c : Prop) : Prop :=
  (c → Goes i s (s.unit.addr + 4 * o.signExtend 64) t) ∧ (¬c → Goes i s (s.unit.addr + 4) t)

/-- A word that changes nothing but the PC branches on what its body tests. -/
theorem Branches.word {i : Instr} {o : BitVec 11} {c : CSpec} {body : Thread → State → CRes} {q : Prop} [Decidable q] (h : Alone s t)
    (hi : exec i s = issueC c body s) (hpriv : c.priv = false) (hb : body t s = .done s (if q then some (s.target11 o) else none)) :
    Branches s t o i q := by
  exact ⟨fun hq => Goes.stays (pc := some (s.target11 o)) h hi (by simp [hpriv]) (by rw [hb, if_pos hq]),
    fun hq => Goes.stays (pc := none) h hi (by simp [hpriv]) (by rw [hb, if_neg hq])⟩

/-- An address whose bytes are a pool's is a scratchpad address. -/
theorem State.target_pool {tk n align ck off : Nat} {ea : Word} {memOk poolOk : Bool}
    (htarget : s.target tk ea n align memOk poolOk = .ok (.pool ck off)) : isSp ea = true := by
  by_contra hsp
  rw [State.target, if_neg hsp] at htarget
  split_ifs at htarget
  cases htarget

/-- A branch on the full/empty bit of a word of the core's own pool (R314). -/
theorem State.btagOp_local {ck off : Nat} {ea : Word} (htarget : s.target s.unit.tk ea 8 8 false true = .ok (.pool ck off))
    (hlocal : s.isLocal ck = true) (o : BitVec 11) (full : Bool) :
    s.btagOp t ea o full = .done s (if s.fullBit ck off = full then some (s.target11 o) else none) := by
  simp [State.btagOp, State.target_pool htarget, htarget, hlocal]

/-- A branch on a test of the registers. -/
theorem Branches.test {i : Instr} {n : Names} {o : BitVec 11} (cond : Thread → Bool) {q : Prop} (h : Alone s t)
    (hi : exec i s = branchOp n o cond s) (hq : cond t = true ↔ q) : Branches s t o i q := by
  have hb : Branches s t o i (cond t = true) := Branches.word h hi rfl rfl
  exact ⟨fun h => hb.1 (hq.2 h), fun h => hb.2 fun hc => h (hq.1 hc)⟩

end Sys2Proof.Machine
end

section
/-!
CERTIFICATE. Branches and jumps.
-/

open Sys2Proof Sys2Proof.Machine

/-- Settles O4: each branch is its test, each jump its target. -/
theorem branchResults : Obligations.BranchResults := by
  intro s t h p o there next branches
  refine ⟨fun a b => ?_, fun a n => ?_, fun a => ?_, fun d => ?_, fun a => ?_, fun a => ?_⟩
  · intro x y
    have two {i : Instr} (cond : Word → Word → Bool) {q : Prop} (hi : exec i s = branch2 a b o cond s) (hq : cond x y = true ↔ q) :
        branches i q := Branches.test _ h hi hq
    exact ⟨two (· == ·) rfl beq_iff_eq, two (· != ·) rfl bne_iff_ne, two (·.slt ·) rfl decide_eq_true_iff,
      two (fun x y => y.sle x) rfl decide_eq_true_iff, two (·.ult ·) rfl decide_eq_true_iff, two (fun x y => y.ule x) rfl decide_eq_true_iff⟩
  · intro x
    have hpc : (if x ≠ 0 ∧ x.toNat < n.toNat + 1 then there else next) =
        (if x ≠ 0 ∧ x.toNat < n.toNat + 1 then some (s.target11 o) else none).getD (s.unit.addr + 4) := by
      split <;> rfl
    rw [hpc]
    refine Goes.word h rfl (by simp) (congrArg₂ CRes.done (State.writeG_plain _ _ _ _ h.thread h.ports) rfl) ?_ ?_ ?_
    · simp [h.flumes]
    · simp [h.pend]
    · simp
  · intro x
    have one {i : Instr} (cond : Word → Bool) {q : Prop} (hi : exec i s = branchOp {} o (fun t => cond (t.rm a.toNat)) s)
        (hq : cond x = true ↔ q) : branches i q := Branches.test _ h hi hq
    exact ⟨one (· != 0) rfl bne_iff_ne, one (· == 0) rfl beq_iff_eq, one (· == BitVec.allOnes 64) rfl beq_iff_eq,
      one (· != BitVec.allOnes 64) rfl bne_iff_ne⟩
  · exact Goes.stays (pc := some _) h rfl (by simp) rfl
  · intro x
    exact ⟨fun hx => Goes.stays (pc := some x) h rfl (by simp) (if_neg (not_not.2 ((field_eq_zero_iff x 0 2).2 hx))),
      fun hx => Traps.word h rfl (by simp) (if_pos fun h0 => hx ((field_eq_zero_iff x 0 2).1 h0))⟩
  · intro x
    have hno (full : Bool) (hsp : isSp x = false) : s.btagOp t x o full = .trap Cause.access x := by simp [State.btagOp, hsp]
    exact ⟨fun hsp => ⟨Traps.word h rfl (by simp) (hno true hsp), Traps.word h rfl (by simp) (hno false hsp)⟩,
      fun ck off htarget hlocal => ⟨Branches.word h rfl rfl (State.btagOp_local htarget hlocal o true),
        Branches.word h rfl rfl (State.btagOp_local htarget hlocal o false)⟩⟩
end

section
/-!
CERTIFICATE. ICINV of a thread that runs away from its home core: the caches that it empties (R145, R401).
-/

open Sys2Proof Sys2Proof.Machine

/-- A machine whose partition of region 1 is resident on cluster 0. The first thread of its core 0 issues on core 1, where it is
rostered, while core 0 holds a line in its instruction cache. -/
def rosteredAway : State :=
  { threads := [(1024, some { roster := 65 })], cores := [(0, { icache := [(5, 0)] })]
    sched := { contexts := [(16, some { cluster := some 0 })] }, unit := { tk := 1024, core := 1 } }

/-- The lines in core 0's instruction cache after an instruction that goes on. -/
def homeLinesAfter : Host.Outcome State Fault Refusal → Option (List Nat)
  | .next s => some ((s.core 0).icache.map (·.1))
  | _ => none

/-- ICINV also empties the instruction cache of the thread's home core (R401). -/
theorem homeLinesAfter_icinv : homeLinesAfter (exec (.icinv false) rosteredAway) = some [] := by rfl

/-- Refutes O9: the clause of ICINV empties the cache of the issuing core alone. On `rosteredAway` the home core's cache is emptied
with it, which the clause leaves as it was. -/
theorem not_messageAndSystemResults : ¬ Obligations.MessageAndSystemResults := by
  unfold Obligations.MessageAndSystemResults
  intro h
  obtain ⟨-, -, -, -, -, -, hicinv, -⟩ := h rosteredAway _ ⟨rfl, rfl, rfl, rfl, rfl⟩ false 0 0 0 0
  have hlines : homeLinesAfter (exec (.icinv false) rosteredAway) = some [5] :=
    (congrArg homeLinesAfter (hicinv rfl rfl nofun)).trans rfl
  rw [homeLinesAfter_icinv] at hlines
  exact absurd hlines (by decide)
end

section
/-!
CERTIFICATE. Words of the listings, decoded (R285, R288, R290).
-/

open Sys2Proof Sys2Proof.Machine

/-- Settles O55: each word is evaluated. -/
theorem sampleWordsDecode : Obligations.SampleWordsDecode :=
  ⟨rfl, rfl, rfl, rfl, rfl, rfl, rfl, rfl, rfl, rfl, rfl, rfl, rfl, rfl, rfl, rfl, rfl⟩
end

section
/-!
SUPPORT. The integer operations of the vector chapter (R367, R369, R375) on elements as bit vectors.
-/

namespace Sys2Proof.Machine

variable {s : State} {t : Thread} {ty : Ty} {w : Nat}

/-- A lane-by-lane result is known from the low bits of each lane's value and from its flags. -/
theorem Lanewise.congr {i : Instr} {d m : Nat} {f g : Nat → Nat × Flags} (h : Lanewise i s t d m w f)
    (hvalue : ∀ k, (f k).1 % 2 ^ w = (g k).1 % 2 ^ w) (hflags : ∀ k, (f k).2 = (g k).2) : Lanewise i s t d m w g := by
  obtain ⟨v, fl, hleaves, hlanes, hfl⟩ := h
  simp only [hflags, hvalue] at hlanes hfl
  exact ⟨v, fl, hleaves, hlanes, hfl⟩

/-- The number that an element of an integer type stands for (R232). -/
def tyValue (ty : Ty) (z : BitVec ty.width) : Int := if ty.isSigned then z.toInt else z.toNat

theorem tyIval_toNat (z : BitVec ty.width) : tyIval ty z.toNat = tyValue ty z := by
  rw [tyIval, toSigned, BitVec.ofNat_toNat, BitVec.setWidth_eq, Nat.mod_eq_of_lt z.isLt]
  rfl

@[simp] theorem ofInt_tyValue (z : BitVec ty.width) : BitVec.ofInt ty.width (tyValue ty z) = z := by
  unfold tyValue
  split <;> simp

theorem ofNat_of_toNat {n : Nat} {z : BitVec w} (h : n = z.toNat) : BitVec.ofNat w n = z := by
  rw [h, BitVec.ofNat_toNat, BitVec.setWidth_eq]

theorem ofNat_ofSigned (p : Int) : BitVec.ofNat w (ofSigned w p) = BitVec.ofInt w p := ofNat_of_toNat rfl

theorem ofNat_ivalOp (f : Int → Int → Int) (x y : BitVec ty.width) :
    BitVec.ofNat ty.width (ivalOp ty f x.toNat y.toNat) = BitVec.ofInt ty.width (f (tyValue ty x) (tyValue ty y)) := by
  rw [ivalOp, tyIval_toNat, tyIval_toNat, ofNat_ofSigned]

theorem tyClamp_eq (v : Int) : tyClamp ty v = max (if ty.isSigned then -2 ^ (ty.width - 1) else 0)
    (min (if ty.isSigned then 2 ^ (ty.width - 1) - 1 else 2 ^ ty.width - 1) v) := by
  unfold tyClamp tyMinVal tyMaxVal
  push_cast
  rfl

theorem ofNat_intDiv (x y : BitVec ty.width) : BitVec.ofNat ty.width (intDiv ty x.toNat y.toNat) =
    if y = 0 then BitVec.allOnes ty.width else BitVec.ofInt ty.width ((tyValue ty x).tdiv (tyValue ty y)) := by
  have hzero : y.toNat = 0 ↔ y = 0 := (BitVec.toNat_eq (y := 0#_)).symm
  rw [intDiv]
  by_cases hy : y = 0
  · rw [if_pos (hzero.2 hy), if_pos hy]
    exact ofNat_of_toNat BitVec.toNat_allOnes.symm
  · rw [if_neg (mt hzero.1 hy), if_neg hy, ofNat_ivalOp]

theorem ofInt_min (x y : BitVec ty.width) : BitVec.ofInt ty.width (min (tyValue ty x) (tyValue ty y)) =
    if tyValue ty y < tyValue ty x then y else x := by
  split
  case isTrue h => rw [min_eq_right h.le, ofInt_tyValue]
  case isFalse h => rw [min_eq_left (not_lt.1 h), ofInt_tyValue]

theorem ofInt_max (x y : BitVec ty.width) : BitVec.ofInt ty.width (max (tyValue ty x) (tyValue ty y)) =
    if tyValue ty x < tyValue ty y then y else x := by
  split
  case isTrue h => rw [max_eq_right h.le, ofInt_tyValue]
  case isFalse h => rw [max_eq_left (not_lt.1 h), ofInt_tyValue]

theorem ofInt_natAbs (x : BitVec ty.width) : BitVec.ofInt ty.width (tyValue ty x).natAbs = if ty.isSigned ∧ x.msb then -x else x := by
  have hval := ofInt_tyValue x
  unfold tyValue at hval ⊢
  split at hval
  case isFalse h => simp [h]
  case isTrue h =>
    cases hx : x.msb with
    | true =>
      have hneg : x.toInt < 0 := BitVec.toInt_neg_of_msb_true hx
      rw [if_pos h, if_pos ⟨h, rfl⟩, Int.ofNat_natAbs_of_nonpos hneg.le, BitVec.ofInt_neg, hval]
    | false =>
      have hpos : 0 ≤ x.toInt := BitVec.toInt_nonneg_of_msb_false hx
      rw [if_pos h, if_neg (by simp), Int.natAbs_of_nonneg hpos, hval]

/-! ## Logic and shifts (R369) -/

theorem ofNat_andn (x y : BitVec w) : BitVec.ofNat w (Nat.land x.toNat (ones w - y.toNat)) = x &&& ~~~y := by
  refine ofNat_of_toNat ?_
  rw [BitVec.toNat_and, BitVec.toNat_not]
  rfl

theorem ofNat_shl (x y : BitVec w) : BitVec.ofNat w (shiftOp w (fun x s => x * 2 ^ s) (fun _ => 0) x.toNat y.toNat) = x <<< y.toNat := by
  apply BitVec.eq_of_toNat_eq
  rw [BitVec.toNat_ofNat, BitVec.toNat_shiftLeft, Nat.shiftLeft_eq, shiftOp]
  split
  case isFalse => rfl
  case isTrue h => rw [Nat.zero_mod, Nat.mod_eq_zero_of_dvd (Dvd.dvd.mul_left (Nat.pow_dvd_pow 2 h) _)]

theorem ofNat_shr (x y : BitVec w) : BitVec.ofNat w (shiftOp w (fun x s => x / 2 ^ s) (fun _ => 0) x.toNat y.toNat) = x >>> y.toNat := by
  refine ofNat_of_toNat ?_
  rw [BitVec.toNat_ushiftRight, Nat.shiftRight_eq_div_pow, shiftOp]
  split
  case isFalse => rfl
  case isTrue h => rw [Nat.div_eq_of_lt (x.isLt.trans_le (Nat.pow_le_pow_right (by decide) h))]

theorem ofNat_sraBits (x : BitVec w) (n : Nat) : BitVec.ofNat w (sraBits w x.toNat n) = x.sshiftRight n := by
  rw [sraBits, ofNat_ofSigned, toSigned, ofNat_of_toNat rfl, BitVec.sshiftRight, Int.shiftRight_eq_div_pow]
  rfl

/-- An arithmetic shift by all the bits but one leaves the sign alone, as does any further one. -/
theorem sshiftRight_last (x : BitVec w) {n : Nat} (h : w ≤ n) : x.sshiftRight (w - 1) = x.sshiftRight n := by
  refine BitVec.eq_of_getLsbD_eq fun i hi => ?_
  rw [BitVec.getLsbD_sshiftRight, BitVec.getLsbD_sshiftRight, if_neg (c := n + i < w) (by omega), BitVec.msb_eq_getLsbD_last]
  split
  case isTrue h0 => rw [show w - 1 + i = w - 1 by omega]
  case isFalse => rfl

theorem ofNat_sra (x y : BitVec w) :
    BitVec.ofNat w (shiftOp w (sraBits w) (fun x => sraBits w x (w - 1)) x.toNat y.toNat) = x.sshiftRight y.toNat := by
  rw [shiftOp]
  split
  case isFalse => exact ofNat_sraBits ..
  case isTrue h => exact (ofNat_sraBits ..).trans (sshiftRight_last x h)

theorem ofNat_rolBits (hw : 0 < w) (x : BitVec w) (n : Nat) : BitVec.ofNat w (rolBits w x.toNat n) = x.rotateLeft n := by
  have hsplit : 2 ^ w = 2 ^ (n % w) * 2 ^ (w - n % w) := by rw [← Nat.pow_add, Nat.add_sub_cancel' (Nat.mod_lt n hw).le]
  have hhigh : x.toNat * 2 ^ (n % w) % 2 ^ w = 2 ^ (n % w) * (x.toNat % 2 ^ (w - n % w)) := by
    rw [Nat.mul_comm, hsplit, Nat.mul_mod_mul_left]
  have hlow : x.toNat / 2 ^ (w - n % w) < 2 ^ (n % w) := by
    rw [Nat.div_lt_iff_lt_mul (by positivity), ← hsplit]
    exact x.isLt
  have hsum : 2 ^ (n % w) * (x.toNat % 2 ^ (w - n % w)) + x.toNat / 2 ^ (w - n % w) < 2 ^ w := by
    have hmod : x.toNat % 2 ^ (w - n % w) < 2 ^ (w - n % w) := Nat.mod_lt _ (by positivity)
    calc _ < 2 ^ (n % w) * (x.toNat % 2 ^ (w - n % w) + 1) := by rw [Nat.mul_succ]; omega
      _ ≤ 2 ^ (n % w) * 2 ^ (w - n % w) := Nat.mul_le_mul_left _ hmod
      _ = 2 ^ w := hsplit.symm
  refine ofNat_of_toNat ?_
  rw [BitVec.toNat_rotateLeft, rolBits, Nat.shiftLeft_eq, Nat.shiftRight_eq_div_pow, hhigh, ← Nat.two_pow_add_eq_or_of_lt hlow,
    ← Nat.mod_add_mod, hhigh, Nat.mod_eq_of_lt hsum]

/-! ## Integer instructions, lane by lane -/

/-- An element of a lane as a bit vector. -/
theorem toNat_ofNat_lane (v : Vec) (k : Nat) : (BitVec.ofNat w (lane w v k)).toNat = lane w v k := by
  rw [BitVec.toNat_ofNat, Nat.mod_eq_of_lt (lane_lt ..)]

section integer
variable {i : Instr} {d a b : BitVec 5} {m : BitVec 3}

/-- vd := f(va, vb) on an integer type is an operation on the elements' bits. -/
theorem Lanewise.integer2 {f : Nat → Nat → Nat × Flags} (g : BitVec ty.width → BitVec ty.width → BitVec ty.width) (h : Alone s t)
    (hty : ty.isI = true) (hx : fpTen t.fpcsr = 0) (hi : exec i s = Machine.vop2 d a b m ty f s)
    (hf : ∀ p q : BitVec ty.width, BitVec.ofNat ty.width (f p.toNat q.toNat).1 = g p q ∧ (f p.toNat q.toNat).2 = 0) :
    Lanewise i s t d.toNat m.toNat ty.width fun k =>
      ((g (BitVec.ofNat ty.width (lane ty.width (t.rv a.toNat) k)) (BitVec.ofNat ty.width (lane ty.width (t.rv b.toNat) k))).toNat, 0) := by
  have hf' (k : Nat) := hf (BitVec.ofNat ty.width (lane ty.width (t.rv a.toNat) k)) (BitVec.ofNat ty.width (lane ty.width (t.rv b.toNat) k))
  simp only [toNat_ofNat_lane] at hf'
  refine Lanewise.congr (Lanewise.vop2 h hi (fun he => by simp [he, Ty.isI] at hty) hx) (fun k => ?_) fun k => (hf' k).2
  rw [← (hf' k).1, BitVec.toNat_ofNat, Nat.mod_mod]

/-- vd := f(va) on an integer type is an operation on the element's bits. -/
theorem Lanewise.integer1 {f : Nat → Nat × Flags} (g : BitVec ty.width → BitVec ty.width) (h : Alone s t) (hty : ty.isI = true)
    (hx : fpTen t.fpcsr = 0) (hi : exec i s = Machine.vop1 d a m ty f s)
    (hf : ∀ p : BitVec ty.width, BitVec.ofNat ty.width (f p.toNat).1 = g p ∧ (f p.toNat).2 = 0) :
    Lanewise i s t d.toNat m.toNat ty.width fun k => ((g (BitVec.ofNat ty.width (lane ty.width (t.rv a.toNat) k))).toNat, 0) := by
  have hf' (k : Nat) := hf (BitVec.ofNat ty.width (lane ty.width (t.rv a.toNat) k))
  simp only [toNat_ofNat_lane] at hf'
  refine Lanewise.congr (Lanewise.vop1 h hi (fun he => by simp [he, Ty.isI] at hty) hx) (fun k => ?_) fun k => (hf' k).2
  rw [← (hf' k).1, BitVec.toNat_ofNat, Nat.mod_mod]

end integer

end Sys2Proof.Machine
end

section
/-!
CERTIFICATE. Element-wise vector instructions (R362, R367 to R370, R375, R384, R386).
-/

open Sys2Proof Sys2Proof.Machine

/-- R362, R367, R369, R375: the integer types. -/
theorem vectorIntegerResults : Claims.VectorIntegerResults := by
  intro s t h hx d a b m ty hty w x y lo hi value puts
  have plain {i : Instr} (op : Nat → Nat → Nat) (g : BitVec w → BitVec w → BitVec w) (hi : exec i s = vop2 d a b m ty (pure2 op) s)
      (hop : ∀ p q : BitVec w, BitVec.ofNat w (op p.toNat q.toNat) = g p q) : puts i fun k => g (x k) (y k) :=
    Lanewise.integer2 g h hty hx hi fun p q => ⟨hop p q, rfl⟩
  have classed {i : Instr} (op : Nat → Nat → Nat) (f : Nat → Nat → Nat × Flags) (g : BitVec w → BitVec w → BitVec w)
      (hi : exec i s = vop2 d a b m ty (byClass ty op f) s) (hop : ∀ p q : BitVec w, BitVec.ofNat w (op p.toNat q.toNat) = g p q) :
      puts i fun k => g (x k) (y k) :=
    Lanewise.integer2 g h hty hx hi fun p q => by rw [byClass, if_pos hty]; exact ⟨hop p q, rfl⟩
  have unary {i : Instr} (op : Int → Int) (f : Nat → Nat) (g : BitVec w → BitVec w)
      (hi : exec i s = vop1 d a m ty (fun x => (if ty.isI then ofSigned ty.width (op (tyIval ty x)) else f x, 0)) s)
      (hop : ∀ p : BitVec w, BitVec.ofInt w (op (tyValue ty p)) = g p) : puts i fun k => g (x k) :=
    Lanewise.integer1 g h hty hx hi fun p => by rw [if_pos hty, tyIval_toNat, ofNat_ofSigned]; exact ⟨hop p, rfl⟩
  refine ⟨?_, ?_, ?_, ?_, ?_, ?_, ?_, ?_, ?_, ?_, ?_, ?_, ?_, ?_, ?_, ?_, ?_, ?_, ?_⟩
  · exact classed _ _ (· + ·) rfl fun p q => by rw [ofNat_ivalOp, BitVec.ofInt_add, ofInt_tyValue, ofInt_tyValue]
  · exact classed _ _ (· - ·) rfl fun p q => by
      rw [ofNat_ivalOp, Int.sub_eq_add_neg, BitVec.ofInt_add, BitVec.ofInt_neg, ofInt_tyValue, ofInt_tyValue, BitVec.sub_eq_add_neg]
  · exact plain _ (fun p q => BitVec.ofInt w (max lo (min hi (value p + value q)))) rfl fun p q => by
      rw [ofNat_ivalOp, tyClamp_eq]; rfl
  · exact plain _ (fun p q => BitVec.ofInt w (max lo (min hi (value p - value q)))) rfl fun p q => by
      rw [ofNat_ivalOp, tyClamp_eq]; rfl
  · exact classed _ _ (· * ·) rfl fun p q => by rw [ofNat_ivalOp, BitVec.ofInt_mul, ofInt_tyValue, ofInt_tyValue]
  · exact plain _ (fun p q => BitVec.ofInt w (value p * value q / 2 ^ w)) rfl fun p q => ofNat_ivalOp _ p q
  · exact classed _ _ (fun p q => if q = 0 then BitVec.allOnes w else BitVec.ofInt w ((value p).tdiv (value q))) rfl ofNat_intDiv
  · exact classed _ _ (fun p q => if value q < value p then q else p) rfl fun p q => (ofNat_ivalOp _ p q).trans (ofInt_min p q)
  · exact classed _ _ (fun p q => if value p < value q then q else p) rfl fun p q => (ofNat_ivalOp _ p q).trans (ofInt_max p q)
  · exact plain _ (· &&& ·) rfl fun p q => ofNat_of_toNat (BitVec.toNat_and ..).symm
  · exact plain _ (· ||| ·) rfl fun p q => ofNat_of_toNat (BitVec.toNat_or ..).symm
  · exact plain _ (· ^^^ ·) rfl fun p q => ofNat_of_toNat (BitVec.toNat_xor ..).symm
  · exact plain _ (· &&& ~~~·) rfl ofNat_andn
  · exact plain _ (fun p q => p <<< q.toNat) rfl ofNat_shl
  · exact plain _ (fun p q => p >>> q.toNat) rfl ofNat_shr
  · exact plain _ (fun p q => p.sshiftRight q.toNat) rfl ofNat_sra
  · exact plain _ (fun p q => p.rotateLeft q.toNat) rfl fun p q => ofNat_rolBits (tyWidth_pos ty) p q.toNat
  · exact unary (- ·) (fmtOf ty).neg (- ·) rfl fun p => by rw [BitVec.ofInt_neg, ofInt_tyValue]
  · exact unary (·.natAbs) (fmtOf ty).abs (fun p => if ty.isSigned ∧ p.msb then -p else p) rfl ofInt_natAbs
end

section
/-!
SUPPORT. Vector compares (R370): the mask they write, bit by bit, and the invalid flag.
-/

namespace Sys2Proof.Machine

variable {s : State} {t : Thread} {ty : Ty}

theorem fmtOf_width (hty : ty.isI = false) : (fmtOf ty).width = ty.width := by
  revert hty
  cases ty <;> decide

theorem isSnan_eq (v : FVal) : v.isSnan = (v == .nan true) := by
  rcases v with (_ | _) | _ | _ <;> rfl

theorem testBit_leBits (l : List Bool) (k : Nat) : (leBits l).testBit k = l.getD k false := by
  induction l generalizing k with
  | nil => simp [leBits]
  | cons b l ih =>
    cases k with
    | zero => cases b <;> simp [leBits, Nat.testBit_zero]
    | succ k =>
      have hdiv : leBits (b :: l) / 2 = leBits l := by
        simp only [leBits]
        split <;> omega
      rw [Nat.testBit_succ, hdiv, ih, List.getD_cons_succ]

/-- What a compare gives each lane of its operands. -/
def cmpLane (ty : Ty) (ints : Int → Int → Bool) (f : Nat → Nat → Bool × Flags) (p q : Nat) : Bool × Flags :=
  if ty.isI then (ints (tyIval ty p) (tyIval ty q), 0) else f p q

/-- A compare writes one bit for each lane: what the lane's elements compare to in an active lane, 0 elsewhere; and it raises the
invalid flag where a lane does. -/
theorem Leaves.vcmp {i : Instr} {d : BitVec 3} {a b : BitVec 5} {m : BitVec 3} {ints : Int → Int → Bool} {f : Nat → Nat → Bool × Flags}
    {holds invalid : Nat → Bool} (h : Alone s t) (hx : fpTen t.fpcsr = 0) (hi : exec i s = Machine.vcmp d a b m ty ints f s)
    (hlane : ∀ k, cmpLane ty ints f (lane ty.width (t.rv a.toNat) k) (lane ty.width (t.rv b.toNat) k) =
      (holds k, if invalid k then Flags.iv else 0)) :
    ∃ (r : Word) (fl : Flags), Leaves i s { t.wm d.toNat r with fpcsr := t.fpcsr ||| fl.setWidth 64 } ∧
      (∀ k < 64, r.getLsbD k = (decide (k < 512 / ty.width) && t.active m.toNat k && holds k)) ∧
      ∀ n, fl.getLsbD n = true ↔ n = 0 ∧ ∃ k < 512 / ty.width, t.active m.toNat k = true ∧ invalid k = true := by
  let result (k : Nat) : Bool × Flags := if !t.active m.toNat k then (false, 0) else (holds k, if invalid k then Flags.iv else 0)
  let results := (List.range (512 / ty.width)).map result
  refine ⟨word (leBits (results.map Prod.fst)), laneOr (results.mapIdx fun k r => (k, r.2)), ?_, fun k hk => ?_, fun n => ?_⟩
  · have hbody (k : Nat) : (if !t.active m.toNat k then (false, (0 : Flags)) else
        cmpLane ty ints f (lane ty.width (t.rv a.toNat) k) (lane ty.width (t.rv b.toNat) k)) = result k := by rw [hlane k]
    refine Leaves.issueA (f64v := false) h hi nofun hx rfl ?_
    simp only [Thread.takeOut, List.foldl_nil, List.foldl_cons, fpRaise]
    rw [show results = _ from List.map_congr_left fun k _ => (hbody k).symm]
    rfl
  · have hget : (results.map Prod.fst).getD k false = if k < 512 / ty.width then (result k).1 else false := by
      by_cases hk : k < 512 / ty.width <;> simp [results, List.getD_eq_getElem?_getD, hk]
    rw [word, BitVec.getLsbD_ofNat, testBit_leBits, hget]
    cases hact : t.active m.toNat k <;> simp [result, hact, hk]
  · have hraises (k : Nat) : (result k).2.getLsbD n = true ↔ n = 0 ∧ t.active m.toNat k = true ∧ invalid k = true := by
      cases hact : t.active m.toNat k <;> cases hinv : invalid k <;> simp [result, hact, hinv, Flags.iv]
    rw [laneOr_bit]
    simp only [List.mem_mapIdx, results, List.length_map, List.length_range, List.getElem_map, List.getElem_range]
    constructor
    · rintro ⟨_, ⟨k, hk, rfl⟩, hbit⟩
      obtain ⟨hn, hact, hinv⟩ := (hraises k).1 hbit
      exact ⟨hn, k, hk, hact, hinv⟩
    · rintro ⟨hn, k, hk, hact, hinv⟩
      exact ⟨_, ⟨k, hk, rfl⟩, (hraises k).2 ⟨hn, hact, hinv⟩⟩

end Sys2Proof.Machine
end

section
/-!
CERTIFICATE. Element-wise vector instructions on floating types, and compares (R368, R370, R384, R386).
-/

open Sys2Proof Sys2Proof.Machine

/-- R362, R367, R368, R375, R384, R386: the floating types. -/
theorem vectorFloatResults : Claims.VectorFloatResults := by
  intro s t h hx d a b m lanes sign
  have two {i : Instr} {ty : Ty} (f : Nat → Nat → Nat × Flags) (hv : ty = .f64 → s.hasF64v s.unit.core = true)
      (hi : exec i s = vop2 d a b m ty f s) : lanes i ty fun x y _ => f x y := Lanewise.vop2 h hi hv hx
  have one {i : Instr} {ty : Ty} (f : Nat → Nat × Flags) (hv : ty = .f64 → s.hasF64v s.unit.core = true)
      (hi : exec i s = vop1 d a m ty f s) : lanes i ty fun x _ _ => f x := Lanewise.vop1 h hi hv hx
  have three {i : Instr} {ty : Ty} (f : Nat → Nat → Nat → Nat × Flags) (hv : ty = .f64 → s.hasF64v s.unit.core = true)
      (hi : exec i s = vop3 d a b m ty f s) : lanes i ty f := Lanewise.vop3 h hi hv hx
  refine ⟨fun ty hty hf64 => ?_, fun ty hf64 => one (·, 0) (fun he => absurd he hf64) rfl, fun hv => ?_⟩
  · have hwidth := fmtOf_width hty
    have hv : ty = .f64 → s.hasF64v s.unit.core = true := fun he => absurd he hf64
    have classed {i : Instr} {op : Nat → Nat → Nat} (f : Nat → Nat → Nat × Flags) (hi : exec i s = vop2 d a b m ty (byClass ty op f) s) :
        lanes i ty fun x y _ => f x y := by
      have hf : byClass ty op f = f := funext fun x => funext fun y => if_neg (by simp [hty])
      exact two f hv (hf ▸ hi)
    have hlt (v : Vec) (k : Nat) : lane ty.width v k < 2 ^ ty.width := lane_lt ..
    refine ⟨classed (fmtOf ty).add rfl, classed (fmtOf ty).sub rfl, classed (fmtOf ty).mul rfl, classed (fmtOf ty).div rfl,
      classed ((fmtOf ty).minmax false) rfl, classed ((fmtOf ty).minmax true) rfl, one (fmtOf ty).sqrt hv rfl, three (fmtOf ty).fma hv rfl,
      three (fmtOf ty).fms hv rfl, three (fmtOf ty).fnma hv rfl, three (fmtOf ty).fnms hv rfl,
      Lanewise.congr (one (fun x => (if ty.isI then ofSigned ty.width (-tyIval ty x) else (fmtOf ty).neg x, 0)) hv rfl) (fun k => ?_)
        fun k => rfl,
      Lanewise.congr (one (fun x => (if ty.isI then ofSigned ty.width (tyIval ty x).natAbs else (fmtOf ty).abs x, 0)) hv rfl) (fun k => ?_)
        fun k => rfl,
      Lanewise.congr (two (pure2 (fmtOf ty).cpsgn) hv rfl) (fun k => ?_) fun k => rfl, one (viaF32 vexp2F32 ty) hv rfl,
      one (viaF32 vlog2F32 ty) hv rfl, one (viaF32 vrcpF32 ty) hv rfl, one (viaF32 vrsqrtF32 ty) hv rfl⟩
    · simp only [hty, Bool.false_eq_true, if_false, Fmt.neg, hwidth, Nat.mod_eq_of_lt (hlt _ _)]
      rfl
    · simp only [hty, Bool.false_eq_true, if_false, Fmt.abs, hwidth]
      rfl
    · have hsign (v : Vec) (k : Nat) : lane ty.width v k / 2 ^ (ty.width - 1) < 2 ^ 1 := by
        rw [Nat.div_lt_iff_lt_mul (by positivity), ← Nat.pow_add, Nat.add_sub_cancel' (tyWidth_pos ty)]
        exact hlt v k
      simp only [pure2, Fmt.cpsgn, bits, hwidth, Nat.mod_eq_of_lt (hsign _ _)]
      rfl
  · have hv (_ : Ty.f64 = .f64) : s.hasF64v s.unit.core = true := hv
    exact ⟨two fmtF64.add hv rfl, two fmtF64.sub hv rfl, two fmtF64.mul hv rfl, two fmtF64.div hv rfl, three fmtF64.fma hv rfl,
      three fmtF64.fms hv rfl, three fmtF64.fnma hv rfl, three fmtF64.fnms hv rfl, two (fmtF64.minmax false) hv rfl,
      two (fmtF64.minmax true) hv rfl, one fmtF64.sqrt hv rfl⟩

/-- R370: the compares. -/
theorem vectorCompareResults : Claims.VectorCompareResults := by
  intro s t h hx d a b m ty w x y compares nan signalling value
  have hval (v : Vec) (k : Nat) : tyIval ty (lane w v k) = value (lane w v k) := tyIval_lane ty v k
  refine ⟨fun hty => ?_, fun hty => ?_⟩
  · have integer {i : Instr} (f : Nat → Nat → Bool × Flags) (ints holds : Int → Int → Bool) (hi : exec i s = vcmp d a b m ty ints f s)
        (hholds : ∀ p q, ints p q = holds p q) : compares i (fun k => holds (value (x k)) (value (y k))) fun _ => false :=
      Leaves.vcmp h hx hi fun k => by rw [cmpLane, if_pos hty, hval, hval, hholds]; rfl
    exact ⟨integer (fmtOf ty).cmpEq (· == ·) (fun p q => decide (p = q)) rfl fun p q => rfl,
      integer (fun x y => (!((fmtOf ty).cmpEq x y).1, ((fmtOf ty).cmpEq x y).2)) (· != ·) (fun p q => decide (p ≠ q)) rfl
        fun p q => (decide_not ..).symm,
      integer (fmtOf ty).cmpLt (fun p q => decide (p < q)) (fun p q => decide (p < q)) rfl fun p q => rfl,
      integer (fmtOf ty).cmpLe (fun p q => decide (p ≤ q)) (fun p q => decide (p ≤ q)) rfl fun p q => rfl⟩
  · intro anyNan anySignalling
    have hsnan (p q : Nat) : snanFlag [(fmtOf ty).decode p, (fmtOf ty).decode q] =
        if signalling p || signalling q then Flags.iv else 0 := by
      rw [snanFlag, List.any_cons, List.any_cons, List.any_nil, Bool.or_false, isSnan_eq, isSnan_eq]
    have floating {i : Instr} (ints : Int → Int → Bool) (f : Nat → Nat → Bool × Flags) (iv : Nat → Bool)
        (hi : exec i s = vcmp d a b m ty ints f s) (hf : ∀ k, (f (x k) (y k)).2 = if iv k then Flags.iv else 0) :
        compares i (fun k => (f (x k) (y k)).1) iv :=
      Leaves.vcmp h hx hi fun k => by rw [cmpLane, if_neg (by simp [hty]), ← hf k]
    exact ⟨floating (· == ·) (fmtOf ty).cmpEq anySignalling rfl fun k => hsnan _ _,
      floating (· != ·) (fun x y => (!((fmtOf ty).cmpEq x y).1, ((fmtOf ty).cmpEq x y).2)) anySignalling rfl fun k => hsnan _ _,
      floating (fun x y => decide (x < y)) (fmtOf ty).cmpLt anyNan rfl fun k => by rw [Fmt.cmpLt], 
      floating (fun x y => decide (x ≤ y)) (fmtOf ty).cmpLe anyNan rfl fun k => by rw [Fmt.cmpLe]⟩

/-- Settles O50: integer types, floating types, compares. -/
theorem vectorLaneResults : Obligations.VectorLaneResults := ⟨vectorIntegerResults, vectorFloatResults, vectorCompareResults⟩
end

section
/-!
SUPPORT. Whole vectors and masks (R371 to R374, R376, R377): lanes of a splice, packed lanes, and words that write a mask.
-/

namespace Sys2Proof.Machine

variable {s : State} {t : Thread} {w : Nat}

/-- A word of the A class that writes the whole of one v register and raises no flag. -/
theorem Leaves.wholeVector {i : Instr} {n : Names} {body : Thread → AOut} {d : Nat} {v : Vec} (h : Alone s t) (hx : fpTen t.fpcsr = 0)
    (hi : exec i s = Machine.issueA n false body s) (hb : body t = { vw := [(d, v)] }) : Leaves i s (t.wv d v) :=
  Leaves.issueA h hi nofun hx (by rw [hb]) (by rw [hb, Thread.takeOut_noflags _ rfl]; rfl)

/-- A word of the A class that writes one mask and raises no flag. -/
theorem Leaves.mask {i : Instr} {n : Names} {body : Thread → AOut} {d : Nat} {r : Word} (h : Alone s t) (hx : fpTen t.fpcsr = 0)
    (hi : exec i s = Machine.issueA n false body s) (hb : body t = { mw := [(d, r)] }) : Leaves i s (t.wm d r) :=
  Leaves.issueA h hi nofun hx (by rw [hb]) (by rw [hb, Thread.takeOut_noflags _ rfl]; rfl)

/-- A vector assembled of elements of `w` bits has them as its lanes. -/
theorem lane_ofLanes_lt {f : Nat → Nat} {k : Nat} (hk : k < 512 / w) (hf : f k < 2 ^ w) : lane w (ofLanes w f) k = f k := by
  rw [lane_ofLanes w k f hk, Nat.mod_eq_of_lt hf]

theorem testBit_lane (v : Vec) (k b : Nat) : (lane w v k).testBit b = (decide (b < w) && v.getLsbD (w * k + b)) := by
  rw [lane, Nat.testBit_mod_two_pow, Nat.testBit_div_two_pow, Nat.add_comm b]
  rfl

/-- The lanes of a vector with one of them replaced. -/
theorem lane_splice {k j x : Nat} (v : Vec) (hk : k < 512 / w) :
    lane w (splice v (w * j) w x) k = if k = j then x % 2 ^ w else lane w v k := by
  refine Nat.eq_of_testBit_eq fun b => ?_
  rw [testBit_lane]
  by_cases hb : b < w
  · have hbit : w * k + b < 512 := by
      calc w * k + b < w * (k + 1) := by rw [Nat.mul_succ]; omega
        _ ≤ w * (512 / w) := Nat.mul_le_mul_left w hk
        _ ≤ 512 := Nat.mul_div_le 512 w
    simp only [splice, BitVec.getLsbD_or, BitVec.getLsbD_and, BitVec.getLsbD_not, BitVec.getLsbD_shiftLeft, BitVec.getLsbD_ofNat,
      hb, hbit, decide_true, Bool.true_and, Nat.testBit_two_pow_sub_one, Nat.testBit_mod_two_pow]
    rcases lt_trichotomy k j with hlt | rfl | hgt
    · have hbelow : w * k + b < w * j := lt_of_lt_of_le (by rw [Nat.mul_succ]; omega) (Nat.mul_le_mul_left w hlt)
      simp [hbelow, hlt.ne, testBit_lane, hb]
    · simp [hb, show w * k + b - w * k = b by omega, show b < 512 by omega]
    · have habove : w * j + w ≤ w * k := by rw [← Nat.mul_succ]; exact Nat.mul_le_mul_left w hgt
      simp [hgt.ne', testBit_lane, hb, show ¬ w * k + b - w * j < w by omega]
  · split <;> simp [hb, testBit_lane]

/-- Elements taken where a mask is set are those of the lanes that it keeps, in order. -/
theorem filterMap_active (act : Nat → Bool) (x : Nat → Nat) (l : List Nat) :
    (l.filterMap fun k => if act k then some (x k) else none) = (l.filter act).map x := by
  induction l with
  | nil => rfl
  | cons k l ih => cases h : act k <;> simp [h, ih]

theorem getD_lanes_lt (v : Vec) (l : List Nat) (k : Nat) : (l.map (lane w v)).getD k 0 < 2 ^ w := by
  rw [List.getD_eq_getElem?_getD, List.getElem?_map]
  cases l[k]? with
  | none => exact Nat.two_pow_pos w
  | some j => exact lane_lt ..

/-- The ones of a word below a place, counted. -/
theorem popCount_below (x : Word) (n : Nat) : popCount n x.toNat = ((List.range n).filter fun j => x.getLsbD j).length := by
  rw [popCount_eq_countP, List.countP_eq_length_filter]
  rfl

end Sys2Proof.Machine
end

section
/-!
CERTIFICATE. Moves of lanes and masks, and the mixer (R371 to R374, R376, R377, R385).
-/

open Sys2Proof Sys2Proof.Machine

/-- Settles O3: each word writes one register, whose lanes or bits are the rule's. -/
theorem vectorMoveResults : Obligations.VectorMoveResults := by
  intro s t h hx
  refine ⟨fun d a b m ty => ?_, fun d a b m => ?_, fun d a b => ?_, fun g m ty => ?_⟩
  · intro w L x y index whole packed masked
    have hlt (v : Vec) (k : Nat) : lane w v k < 2 ^ w := lane_lt ..
    refine ⟨⟨_, Leaves.wholeVector h hx rfl rfl, fun k hk => lane_ofLanes_lt hk ?_⟩, Lanewise.masked h rfl rfl nofun hx,
      ⟨_, Leaves.wholeVector h hx rfl rfl, fun k hk => ?_⟩, ?_, Lanewise.masked h rfl rfl nofun hx,
      ⟨_, Leaves.wholeVector h hx rfl rfl, fun k hk => lane_splice _ hk⟩, Leaves.written h rfl rfl, ?_⟩
    · split <;> exact hlt ..
    · rw [filterMap_active]
      exact lane_ofLanes_lt hk (getD_lanes_lt ..)
    · exact Lanewise.congr (Lanewise.masked h rfl rfl nofun hx) (fun k => Nat.mod_mod ..) fun k => rfl
    · refine Lanewise.congr (Lanewise.masked h rfl rfl nofun hx) (fun k => congrArg (· % 2 ^ w) (popCount_below _ k)) fun k => rfl
  · intro key x
    exact ⟨Lanewise.masked h rfl rfl nofun hx, Lanewise.masked h rfl rfl nofun hx, fun e => Lanewise.masked h rfl rfl nofun hx⟩
  · intro p q
    exact ⟨Leaves.mask h hx rfl rfl, Leaves.mask h hx rfl rfl, Leaves.mask h hx rfl rfl, Leaves.mask h hx rfl rfl⟩
  · intro L p
    refine ⟨Leaves.written h rfl rfl, Leaves.mask h hx rfl rfl, Leaves.written h rfl ?_, Leaves.written h rfl rfl⟩
    exact congrArg word (popCount_eq_countP ..)
end

section
/-!
SUPPORT. Loads and stores of a pool that the core serves (R333, R337, R338, R340, R350), and the frame of a write to a pool.
-/

namespace Sys2Proof.Machine

open Sys2Proof.Laws

variable {s : State} {t u : Thread} {tk ck off n align la : Nat} {ea : Word} {fin : Fin_} {acq rel : Bool} {i : Instr}

/-! ## The bytes of a pool -/

theorem leNat_lt (l : List Byte) : leNat l < 2 ^ (8 * l.length) := by
  induction l with
  | nil => simp [leNat]
  | cons b l ih =>
    have hb := b.isLt
    have hpow : 2 ^ (8 * (l.length + 1)) = 256 * 2 ^ (8 * l.length) := by rw [Nat.mul_succ, Nat.pow_add, Nat.mul_comm]
    rw [leNat, List.length_cons, hpow]
    omega

theorem leNat_one (b : Byte) : leNat [b] = b.toNat := by simp [leNat]

/-- One byte of a pool. -/
theorem State.poolRead_one (s : State) (ck off : Nat) : s.poolRead ck off 1 = (Tbl.get 0 (s.cx ck).pool off).toNat := by
  simp [State.poolRead, leNat_one]

/-- `n` bytes of a pool are a number of `8 n` bits. -/
theorem State.poolRead_lt (s : State) (ck off n : Nat) : s.poolRead ck off n < 2 ^ (8 * n) := by
  have h := leNat_lt ((List.range n).map fun i => Tbl.get 0 (s.cx ck).pool (off + i))
  rwa [List.length_map, List.length_range] at h

/-- A key of an array reads the default or a value that the array lists. -/
theorem Tbl.get_default_or_mem {α : Type} (z : α) (t : Tbl α) (n : Nat) : Tbl.get z t n = z ∨ (n, Tbl.get z t n) ∈ t := by
  induction t with
  | nil => exact .inl rfl
  | cons e t ih =>
    obtain ⟨k, v⟩ := e
    simp only [Tbl.get]
    split
    next hk => exact .inr (by simp [hk])
    next =>
      split
      · exact .inl rfl
      · exact ih.imp_right (List.mem_cons_of_mem _)

/-- Every pool of a canonical state is canonical. -/
theorem State.pool_wf (h : Canonical s) (ck : Nat) : Tbl.wf 0 (s.cx ck).pool = true := by
  rcases Tbl.get_default_or_mem {} s.ctx ck with hz | hm
  · rw [State.cx, hz]
    rfl
  · exact h.pools _ hm

/-- The context core whose pool is written. -/
theorem State.cx_poolWrite_same (hwf : Tbl.wf {} s.ctx = true) (ck off : Nat) (l : List Byte) :
    (s.poolWrite ck off l).cx ck = (s.cx ck).poolWrite off l := State.cx_modCx hwf _

/-- Every other context core. -/
theorem State.cx_poolWrite_other {ck' : Nat} (hwf : Tbl.wf {} s.ctx = true) (hck : ck' ≠ ck) (off : Nat) (l : List Byte) :
    (s.poolWrite ck off l).cx ck' = s.cx ck' := Tbl.get_put_other _ _ 0 _ _ _ hwf hck

/-- A vector all of whose bytes are written. -/
theorem putBytes_whole {x : Nat} (hx : x < 2 ^ (8 * 64)) : putBytes 0 0 64 x = BitVec.ofNat 512 x := by
  have hbytes := bytesAt_putBytes_zero 0 (by decide : 64 ≤ 64) hx
  rw [bytesAt, Nat.mul_zero, Nat.pow_zero, Nat.div_one, Nat.mod_eq_of_lt (BitVec.isLt _)] at hbytes
  exact BitVec.eq_of_toNat_eq (hbytes.trans (Nat.mod_eq_of_lt hx).symm)

/-! ## A load and a store of one piece -/

/-- A load of bytes at hand in a pool that the core serves binds them at once. -/
theorem State.load_local (hthr : s.thr tk = some t) (hpend : t.pend = []) (htarget : s.target tk ea n align true true = .ok (.pool ck off))
    (hlocal : s.isLocal ck = true) (hfree : s.jobHolds tk (.pool ck off) n false = false) (hremote : t.remoteHolds (.pool ck off) = false)
    (hclean : s.poolPoison ck off n = none) (dsts : List Dst) :
    s.load tk ea n align la dsts fin acq = .done (s.bindFin tk fin (putBytes 0 0 n (s.poolRead ck off n))) none := by
  simp [State.load, hthr, htarget, Target.pieces, State.planAll, hfree, hremote, Thread.readHolds, hpend, Thread.atomicHolds,
    State.startLoad, State.lanesFor, State.laneFor, hlocal, hclean]

/-- An address that fails a check of R333 traps, before anything is read. -/
theorem State.load_error {c : Nat} (hthr : s.thr tk = some t) (htarget : s.target tk ea n align true true = .error c) (dsts : List Dst) :
    s.load tk ea n align la dsts fin acq = .trap c ea := by
  simp only [State.load, hthr, htarget]

/-- A store to a pool that the core serves is made at once by a thread that has nothing outstanding, with release as without. -/
theorem State.store_local_performed (hthr : s.thr tk = some t) (hpend : t.pend = []) (hsbuf : t.sbuf = []) (hremote : t.remote = [])
    (htarget : s.target tk ea n align true true = .ok (.pool ck off)) (hlocal : s.isLocal ck = true)
    (hfree : s.jobHolds tk (.pool ck off) n true = false) (v : Vec) :
    s.store tk ea n align v rel = .done (s.poolWrite ck off (leBytes n v.toNat)) none := by
  have hperformed : t.performed = true := (Thread.performed_iff hpend).2 ⟨hsbuf, hremote⟩
  have hpieces := State.storePieces_local (tk := tk) hlocal off n v
  simp [State.store, hthr, htarget, Target.pieces, State.planAll, hfree, hperformed, State.storeFull, hlocal, Thread.readHolds, hpend, hpieces]

theorem State.store_error {c : Nat} (hthr : s.thr tk = some t) (htarget : s.target tk ea n align true true = .error c) (v : Vec) :
    s.store tk ea n align v rel = .trap c ea := by
  simp only [State.store, hthr, htarget]

/-! ## The instructions -/

/-- LDACQ of any scope is a load at its address. -/
theorem ldacq_body {p : Bool} {d a : BitVec 5} {o : BitVec 7} {l : BitVec 4} {sc : Scope} (k : BitVec 2) :
    ∃ c body acq, exec (.ldacq p d a k sc l) s = issueC c body s ∧ c.priv = false ∧
      body t s = s.load s.unit.tk (t.rg a.toNat + o.signExtend 64 * BitVec.ofNat 64 0) (2 ^ k.toNat) (2 ^ k.toNat) l.toNat [.g d.toNat]
        (.gs d.toNat (2 ^ k.toNat)) acq :=
  ⟨_, _, _, rfl, rfl, by rw [address_zero]⟩

/-- Each listed load, of any scope, is a word that loads at its address. -/
theorem scalarLoads_body {p : Bool} {d a b : BitVec 5} {o : BitVec 7} {l : BitVec 4} {sc : Scope} {e : Instr × Word × Nat × Fin_}
    (he : e ∈ scalarLoads t p d a b o l sc) : ∃ c body acq, exec e.1 s = issueC c body s ∧ c.priv = false ∧
      body t s = s.load s.unit.tk e.2.1 e.2.2.1 e.2.2.1 l.toNat [.g d.toNat] e.2.2.2 acq := by
  have hsplit : scalarLoads t p d a b o l sc = (scalarLoads t p d a b o l .thr).take 18 ++ (scalarLoads t p d a b o l sc).drop 18 := rfl
  rw [hsplit, List.mem_append] at he
  rcases he with he | he
  · obtain ⟨c, body, hbody⟩ := scalarLoads_word (s := s) (List.mem_of_mem_take he)
    exact ⟨c, body, _, hbody⟩
  · simp only [scalarLoads, List.drop_succ_cons, List.drop_zero, List.mem_cons, List.not_mem_nil, or_false] at he
    obtain rfl | rfl | rfl | rfl := he <;> exact ldacq_body _

/-- A scalar load that finds its bytes in the core's own pool. -/
theorem Leaves.poolLoad {c : CSpec} {body : Thread → State → CRes} {d : BitVec 5} {dsts : List Dst} (h : Alone s t)
    (hi : exec i s = issueC c body s) (hpriv : c.priv = false) (hn : n ≤ 64)
    (hb : body t s = s.load s.unit.tk ea n n la dsts fin acq) (hfin : fin = .gz d.toNat n ∨ fin = .gs d.toNat n)
    (htarget : s.target s.unit.tk ea n n true true = .ok (.pool ck off)) (hlocal : s.isLocal ck = true)
    (hfree : s.jobHolds s.unit.tk (.pool ck off) n false = false) (hremote : t.remoteHolds (.pool ck off) = false)
    (hclean : s.poolPoison ck off n = none) : Leaves i s (t.wg d.toNat (extended fin n (s.poolRead ck off n))) := by
  refine Goes.word (pc := none) h hi (by simp [hpriv]) (hb.trans ?_) (by simpa using h.flumes) (by simpa using h.pend) (by simp)
  rw [State.load_local h.thread h.pend htarget hlocal hfree hremote hclean,
    State.bindFin_extended h.thread h.ports hn (State.poolRead_lt ..) hfin]

theorem Leaves.poolVectorLoad {p : Bool} {d a : BitVec 5} {o : BitVec 7} {l : BitVec 4} (h : Alone s t)
    (htarget : s.target s.unit.tk (t.rg a.toNat + o.signExtend 64 * 64) 64 8 true true = .ok (.pool ck off)) (hlocal : s.isLocal ck = true)
    (hfree : s.jobHolds s.unit.tk (.pool ck off) 64 false = false) (hremote : t.remoteHolds (.pool ck off) = false)
    (hclean : s.poolPoison ck off 64 = none) : Leaves (.vld p d a o l) s (t.wv d.toNat (BitVec.ofNat 512 (s.poolRead ck off 64))) := by
  refine Goes.word (pc := none) h rfl (by simp) (State.load_local h.thread h.pend htarget hlocal hfree hremote hclean _ |>.trans ?_)
    (by simpa using h.flumes) (by simpa using h.pend) (by simp)
  rw [State.bindFin_vec_plain h.thread h.flumes, putBytes_whole (State.poolRead_lt ..)]

end Sys2Proof.Machine
end

section
/-!
CERTIFICATE. Loads and stores of the core's own pool.
-/

open Sys2Proof Sys2Proof.Machine Sys2Proof.Laws

/-- R333, R337, R338, R340, R350: loads of the core's own pool. -/
theorem poolLoadResults : Claims.PoolLoadResults := by
  intro s t h p d a b o l sc tk vea
  refine ⟨fun e he => ?_, fun ck off => Leaves.poolVectorLoad h, fun c hc => Traps.word h rfl (by simp) (State.load_error h.thread hc _)⟩
  obtain ⟨hsize, hfin⟩ := scalarLoads_size he
  obtain ⟨c, body, acq, hi, hpriv, hb⟩ := scalarLoads_body (s := s) he
  exact ⟨fun ck off => Leaves.poolLoad h hi hpriv (hsize.le.trans (by decide)) hb hfin,
    fun c hc => Traps.word h hi (by simp [hpriv]) (hb.trans (State.load_error h.thread hc _))⟩

/-- R333, R337, R338, R340, R350: stores to the core's own pool. -/
theorem poolStoreResults : Claims.PoolStoreResults := by
  intro s t h hsbuf hremote p d a b o sc tk vea
  refine ⟨fun e he => ?_, fun ck off htarget hlocal hfree => ?_, fun c hc => Traps.word h rfl (by simp) (State.store_error h.thread hc _)⟩
  · obtain ⟨c, body, rel, hi, hpriv, hb⟩ := scalarStores_word (s := s) he
    have hdata : (BitVec.setWidth 512 (t.rg d.toNat)).toNat = (t.rg d.toNat).toNat := BitVec.toNat_setWidth_of_le (by decide)
    refine ⟨fun ck off htarget hlocal hfree => Leaves2.stays h hi (by simp [hpriv]) ⟨rfl, rfl, fun _ => rfl⟩ (hb.trans ?_),
      fun c hc => Traps.word h hi (by simp [hpriv]) (hb.trans (State.store_error h.thread hc _))⟩
    rw [State.store_local_performed h.thread h.pend hsbuf hremote htarget hlocal hfree, hdata]
  · exact Leaves2.stays h rfl (by simp) ⟨rfl, rfl, fun _ => rfl⟩
      (State.store_local_performed h.thread h.pend hsbuf hremote htarget hlocal hfree _)

/-- The frame of a store to a pool. -/
theorem poolWriteFrame : Claims.PoolWriteFrame := by
  intro s ck off l hc u
  have hsame : u.cx ck = (s.cx ck).poolWrite off l := State.cx_poolWrite_same hc.ctx ck off l
  refine ⟨fun i hi => ?_, fun ck' a ha => ?_, rfl, rfl, rfl, rfl, fun ck' => ?_⟩
  · rw [State.poolRead_one, hsame, CtxCore.poolWrite, putList_get_inside _ off i l (State.pool_wf hc ck) hi, List.getD_eq_getElem _ _ hi]
  · rw [State.poolRead_one, State.poolRead_one]
    by_cases hck : ck' = ck
    · subst hck
      rw [hsame, CtxCore.poolWrite, putList_get_outside _ off a l (State.pool_wf hc ck') (by omega)]
    · rw [State.cx_poolWrite_other hc.ctx hck]
  · by_cases hck : ck' = ck
    · subst hck
      rw [hsame]
      exact ⟨rfl, rfl, rfl, rfl, rfl⟩
    · rw [State.cx_poolWrite_other hc.ctx hck]
      exact ⟨rfl, rfl, rfl, rfl, rfl⟩

/-- Settles O27: each access is one piece of the core's own pool, read or written at once. -/
theorem poolAccessResults : Obligations.PoolAccessResults := ⟨poolLoadResults, poolStoreResults, poolWriteFrame⟩
end

section
/-!
SUPPORT. Gathers, scatters and masked accesses whose active lanes lie in pools that the core serves (R341, R342).
-/

namespace Sys2Proof.Machine

variable {s : State} {t : Thread} {tk e L : Nat} {mask : Word} {addr : Nat → Word} {ck off : Nat → Nat} {v : Vec}

/-! ## The active lanes and their targets -/

/-- The lanes below `L` that a mask selects. -/
def activeBelow (mask : Word) (L : Nat) : List Nat := (List.range L).filter fun i => mask.getLsbD i

theorem mem_activeBelow {i : Nat} : i ∈ activeBelow mask L ↔ i < L ∧ mask.getLsbD i = true := by simp [activeBelow]

theorem activeLanes_eq : activeLanes mask L addr = (activeBelow mask L).map fun i => (i, addr i) := by
  rw [activeLanes, activeBelow]
  induction List.range L with
  | nil => rfl
  | cons i l ih => cases h : mask.getLsbD i <;> simp [h, ih]

/-- Where every lane of a list has a pool for its target. -/
theorem State.laneTargets_pools {l : List Nat} (h : ∀ i ∈ l, s.target tk (addr i) e e true true = .ok (.pool (ck i) (off i))) :
    s.laneTargets tk e (l.map fun i => (i, addr i)) = .ok (l.map fun i => (i, .pool (ck i) (off i))) := by
  induction l with
  | nil => rfl
  | cons i l ih =>
    rw [List.map_cons, State.laneTargets, h i List.mem_cons_self, ih fun j hj => h j (List.mem_cons_of_mem _ hj)]
    rfl

/-- The first lane of a list that fails its check. -/
theorem State.laneTargets_error {l l' : List Nat} {i c : Nat} (h : ∀ j ∈ l, ∃ g, s.target tk (addr j) e e true true = .ok g)
    (hi : s.target tk (addr i) e e true true = .error c) :
    s.laneTargets tk e ((l ++ i :: l').map fun i => (i, addr i)) = .error (c, addr i) := by
  induction l with
  | nil => rw [List.nil_append, List.map_cons, State.laneTargets, hi]
  | cons j l ih =>
    obtain ⟨g, hg⟩ := h j List.mem_cons_self
    rw [List.cons_append, List.map_cons, State.laneTargets, hg, ih fun k hk => h k (List.mem_cons_of_mem _ hk)]

/-- The lowest active lane that fails its check. -/
theorem State.laneTargets_lowest {i c : Nat} (hi : i < L) (hact : mask.getLsbD i = true)
    (hlow : ∀ j < i, mask.getLsbD j = true → ∃ g, s.target tk (addr j) e e true true = .ok g)
    (hbad : s.target tk (addr i) e e true true = .error c) : s.laneTargets tk e (activeLanes mask L addr) = .error (c, addr i) := by
  obtain ⟨k, rfl⟩ := Nat.exists_eq_add_of_lt hi
  have hlist : activeBelow mask (i + k + 1) =
      activeBelow mask i ++ i :: ((List.range k).map fun j => i + 1 + j).filter fun j => mask.getLsbD j := by
    rw [activeBelow, activeBelow, show i + k + 1 = i + 1 + k by omega, List.range_add, List.range_succ, List.filter_append,
      List.filter_append, List.filter_cons_of_pos (by exact hact), List.filter_nil, List.append_assoc, List.singleton_append]
  rw [activeLanes_eq, hlist]
  exact State.laneTargets_error (fun j hj => hlow j (mem_activeBelow.1 hj).1 (mem_activeBelow.1 hj).2) hbad

/-! ## Their pieces -/

/-- The piece of a lane in a pool. -/
def poolPlan (e : Nat) (ck off : Nat → Nat) (i : Nat) : Plan := ⟨.pool (ck i) (off i), e, i * e⟩

theorem pieces_pools (l : List Nat) :
    ((l.map fun i => (i, Target.pool (ck i) (off i))).flatMap fun x => x.2.pieces e (x.1 * e)) =
      l.map fun i => ⟨.pool (ck i) (off i), e, i * e⟩ := by
  rw [List.flatMap_map]
  exact List.map_eq_flatMap.symm

theorem planAll_pools (l : List Nat) (r w : Bool) (val : Option Word) :
    s.planAll tk t r w val (l.map fun i => ⟨.pool (ck i) (off i), e, i * e⟩) = .ok (s, l.map (poolPlan e ck off)) := by
  induction l with
  | nil => rfl
  | cons i l ih =>
    simp only [List.map_cons, State.planAll, ih]
    rfl

/-- The buffer of a load with the bytes of each lane of a list. -/
def gathered (s : State) (e : Nat) (ck off : Nat → Nat) (l : List Nat) (buf : Vec) : Vec :=
  l.foldl (fun buf i => putBytes buf (i * e) e (s.poolRead (ck i) (off i) e)) buf

/-- Lanes at hand are brought, and no poison is found. -/
theorem lanesFor_pools {l : List Nat} (hthr : s.thr tk = some t) (hlocal : ∀ i ∈ l, s.isLocal (ck i) = true)
    (hclean : ∀ i ∈ l, s.poolPoison (ck i) (off i) e = none) (lanes : List Lane) (buf : Vec) :
    s.lanesFor tk (l.map (poolPlan e ck off)) (lanes, buf, none) =
      some (s, lanes ++ l.map fun i => { src := .pool (ck i) (off i), len := e, at_ := i * e, done := true },
        gathered s e ck off l buf, none) := by
  induction l generalizing lanes buf with
  | nil => simp [State.lanesFor, gathered]
  | cons i l ih =>
    have hfirst : s.laneFor tk (poolPlan e ck off i) (lanes, buf, none) =
        some (s, lanes ++ [{ src := .pool (ck i) (off i), len := e, at_ := i * e, done := true }],
          putBytes buf (i * e) e (s.poolRead (ck i) (off i) e), none) := by
      simp only [State.laneFor, hthr, poolPlan, hlocal i List.mem_cons_self, hclean i List.mem_cons_self, if_true, Option.map_none]
    rw [List.map_cons, State.lanesFor, hfirst]
    simp only
    rw [ih (fun j hj => hlocal j (List.mem_cons_of_mem _ hj)) fun j hj => hclean j (List.mem_cons_of_mem _ hj),
      List.append_assoc, List.singleton_append]
    rfl

/-- A lane of the buffer holds its bytes, if it is in the list. -/
theorem lane_gathered {k : Nat} (hk : k < 512 / (8 * e)) (l : List Nat) (buf : Vec) :
    lane (8 * e) (gathered s e ck off l buf) k = if k ∈ l then s.poolRead (ck k) (off k) e else lane (8 * e) buf k := by
  induction l generalizing buf with
  | nil => rfl
  | cons i l ih =>
    have hput : putBytes buf (i * e) e (s.poolRead (ck i) (off i) e) = splice buf (8 * e * i) (8 * e) (s.poolRead (ck i) (off i) e) := by
      rw [putBytes, Nat.mul_comm i e, Nat.mul_assoc]
    have hread := Nat.mod_eq_of_lt (State.poolRead_lt s (ck i) (off i) e)
    rw [gathered, List.foldl_cons, ← gathered, ih, hput, lane_splice _ hk, hread]
    by_cases hki : k = i
    · subst hki
      simp
    · simp [hki]

/-- The lanes of a list that no later lane overwrites. -/
theorem storePieces_pools {l : List Nat} (hwf : Tbl.wf {} s.ctx = true) (hlocal : ∀ i ∈ l, s.isLocal (ck i) = true) :
    s.storePieces tk v (l.map (poolPlan e ck off)) =
      some (l.foldl (fun s i => s.poolWrite (ck i) (off i) (leBytes e (lane (8 * e) v i))) s) := by
  induction l generalizing s with
  | nil => rfl
  | cons i l ih =>
    have hbytes : bytesAt v (i * e) e = lane (8 * e) v i := by rw [bytesAt, lane, Nat.mul_comm i e, Nat.mul_assoc]
    have hpiece : s.storePiece tk (poolPlan e ck off i) (lane (8 * e) v i) =
        some (s.poolWrite (ck i) (off i) (leBytes e (lane (8 * e) v i))) := by
      simp only [State.storePiece, poolPlan, hlocal i List.mem_cons_self, if_true]
    have hlist : bytesAt v (poolPlan e ck off i).at_ (poolPlan e ck off i).len = lane (8 * e) v i := hbytes
    rw [List.map_cons, State.storePieces, hlist, hpiece]
    simp only [List.foldl_cons]
    exact ih (State.wf_modCx hwf _) fun j hj => (State.isLocal_poolWrite hwf _ _ _).trans (hlocal j (List.mem_cons_of_mem _ hj))

/-- Among the active lanes, those that no higher active lane overwrites. -/
theorem last_pools (he : 0 < e) :
    (((activeBelow mask L).map (poolPlan e ck off)).filter fun p =>
      ((activeBelow mask L).map (poolPlan e ck off)).all fun q => !(q.src == p.src && decide (p.at_ < q.at_))) =
    ((List.range L).filter fun i => mask.getLsbD i && !(List.range L).any fun j =>
      decide (i < j) && mask.getLsbD j && ck j == ck i && off j == off i).map (poolPlan e ck off) := by
  rw [List.filter_map, activeBelow, List.filter_filter]
  refine congrArg _ (List.filter_congr fun i _ => ?_)
  rw [Bool.and_comm]
  refine congrArg _ ?_
  rw [Bool.eq_iff_iff]
  simp only [Function.comp_apply, List.all_map, List.all_filter, poolPlan, Bool.not_eq_true', List.any_eq_false, List.all_eq_true]
  refine forall₂_congr fun j _ => ?_
  have hlt : i * e < j * e ↔ i < j := Nat.mul_lt_mul_right he
  simp only [hlt, Bool.not_eq_true', Bool.or_eq_true, Bool.and_eq_false_iff, beq_eq_false_iff_ne, ne_eq, LaneSrc.pool.injEq,
    decide_eq_false_iff_not, decide_eq_true_eq, Bool.and_eq_true, beq_iff_eq]
  rw [← Bool.not_eq_true]
  tauto

/-! ## The accesses -/

/-- What the statement asks of each active lane. -/
structure PoolLane (s : State) (t : Thread) (tk e : Nat) (ea : Word) (ck off : Nat) : Prop where
  target : s.target tk ea e e true true = .ok (.pool ck off)
  served : s.isLocal ck = true
  storeFree : s.jobHolds tk (.pool ck off) e true = false
  loadFree : s.jobHolds tk (.pool ck off) e false = false
  remote : t.remoteHolds (.pool ck off) = false
  clean : s.poolPoison ck off e = none

section access
variable (hthr : s.thr tk = some t)
include hthr

/-- The lowest active lane that fails its check traps with its address, in a gather as in a scatter. -/
theorem State.gather_error {la d c : Nat} {ea : Word} {lanes : List (Nat × Word)} (h : s.laneTargets tk e lanes = .error (c, ea)) :
    s.gather tk e la lanes d = .trap c ea := by
  simp only [State.gather, hthr, h]

theorem State.scatter_error {c : Nat} {ea : Word} {lanes : List (Nat × Word)} (h : s.laneTargets tk e lanes = .error (c, ea)) :
    s.scatter tk e lanes v = .trap c ea := by
  simp only [State.scatter, hthr, h]

variable (hpend : t.pend = []) (hlanes : ∀ i ∈ activeBelow mask L, PoolLane s t tk e (addr i) (ck i) (off i))
include hpend hlanes

theorem State.gather_pools (la d : Nat) : s.gather tk e la (activeLanes mask L addr) d =
    .done (s.bindFin tk (.vec d) (gathered s e ck off (activeBelow mask L) 0)) none := by
  have htargets := State.laneTargets_pools fun i hi => (hlanes i hi).target
  have hheld : (((activeBelow mask L).map fun i => (i, Target.pool (ck i) (off i))).any fun x =>
      s.jobHolds tk x.2 e false || t.remoteHolds x.2 || t.readHolds x.2 e false) = false := by
    simp only [List.any_map, List.any_eq_false, Function.comp_apply]
    intro i hi
    simp [(hlanes i hi).loadFree, (hlanes i hi).remote, Thread.readHolds, hpend]
  have hatomic : t.atomicHolds ((activeBelow mask L).map (poolPlan e ck off)) = false := by
    simp [Thread.atomicHolds, poolPlan]
  simp only [State.gather, hthr, activeLanes_eq, htargets, pieces_pools, planAll_pools, hheld, hatomic, Bool.false_eq_true, or_self, if_false]
  rw [State.startLoad, lanesFor_pools hthr (fun i hi => (hlanes i hi).served) fun i hi => (hlanes i hi).clean]
  simp

theorem State.scatter_pools (he : 0 < e) (hwf : Tbl.wf {} s.ctx = true) : s.scatter tk e (activeLanes mask L addr) v =
    .done (((List.range L).filter fun i => mask.getLsbD i && !(List.range L).any fun j =>
      decide (i < j) && mask.getLsbD j && ck j == ck i && off j == off i).foldl
        (fun s i => s.poolWrite (ck i) (off i) (leBytes e (lane (8 * e) v i))) s) none := by
  have htargets := State.laneTargets_pools fun i hi => (hlanes i hi).target
  have hheld : (((activeBelow mask L).map fun i => (i, Target.pool (ck i) (off i))).any fun x =>
      s.jobHolds tk x.2 e true || t.readHolds x.2 e true) = false := by
    simp only [List.any_map, List.any_eq_false, Function.comp_apply]
    intro i hi
    simp [(hlanes i hi).storeFree, Thread.readHolds, hpend]
  have hfull : s.storeFull t ((activeBelow mask L).map (poolPlan e ck off)) = false := by
    simp only [State.storeFull, List.any_map, List.any_eq_false, Function.comp_apply, poolPlan]
    intro i hi
    simp [(hlanes i hi).served]
  simp only [State.scatter, hthr, activeLanes_eq, htargets, pieces_pools, planAll_pools, hheld, hfull, Bool.false_eq_true, or_self, if_false,
    last_pools he]
  rw [storePieces_pools hwf fun i hi => (hlanes i (mem_activeBelow.2 ?_)).served]
  simp only [List.mem_filter, List.mem_range, Bool.and_eq_true] at hi
  exact ⟨hi.1, hi.2.1⟩

end access

/-- Writes to pools leave the unit in issue as it is. -/
theorem poolWrites_keepsUnit (s : State) (data : Nat → List Byte) (l : List Nat) :
    KeepsUnit s (l.foldl (fun s i => s.poolWrite (ck i) (off i) (data i)) s) := by
  induction l generalizing s with
  | nil => exact ⟨rfl, rfl, fun _ => rfl⟩
  | cons i l ih =>
    have hfirst : KeepsUnit s (s.poolWrite (ck i) (off i) (data i)) := ⟨rfl, rfl, fun _ => rfl⟩
    exact hfirst.trans (ih _)

section instruction
variable {i : Instr} {c : CSpec} {body : Thread → State → CRes} {d : BitVec 5} {la k : Nat}
  (h : Alone s t) (hi : exec i s = issueC c body s) (hpriv : c.priv = false)
  (hlanes : ∀ i ∈ activeBelow mask L, PoolLane s t s.unit.tk e (addr i) (ck i) (off i))
include h hi hpriv hlanes

theorem Leaves.gathers (hL : L = 64 / e) (hb : body t s = s.gather s.unit.tk e la (activeLanes mask L addr) d.toNat) :
    ∃ v : Vec, Leaves i s (t.wv d.toNat v) ∧
      ∀ i < L, lane (8 * e) v i = if mask.getLsbD i then s.poolRead (ck i) (off i) e else 0 := by
  refine ⟨gathered s e ck off (activeBelow mask L) 0, Goes.word (pc := none) h hi (by simp [hpriv]) (hb.trans ?_)
    (by simpa using h.flumes) (by simpa using h.pend) (by simp), fun k hk => ?_⟩
  · rw [State.gather_pools h.thread h.pend hlanes, State.bindFin_vec_plain h.thread h.flumes]
  · have hk512 : k < 512 / (8 * e) := by
      rw [hL] at hk
      rwa [← Nat.div_div_eq_div_mul]
    rw [lane_gathered hk512]
    have hzero : lane (8 * e) 0 k = 0 := by
      simp only [lane, BitVec.ofNat_eq_ofNat, BitVec.toNat_ofNat, Nat.zero_mod, Nat.zero_div]
    simp only [mem_activeBelow, hk, true_and, hzero]

theorem Leaves2.scatters (he : 0 < e) (hwf : Tbl.wf {} s.ctx = true) (hb : body t s = s.scatter s.unit.tk e (activeLanes mask L addr) v) :
    Leaves2 i s (((List.range L).filter fun i => mask.getLsbD i && !(List.range L).any fun j =>
      decide (i < j) && mask.getLsbD j && ck j == ck i && off j == off i).foldl
        (fun s i => s.poolWrite (ck i) (off i) (leBytes e (lane (8 * e) v i))) s) t := by
  exact Leaves2.stays h hi (by simp [hpriv]) (poolWrites_keepsUnit ..) (hb.trans (State.scatter_pools h.thread h.pend hlanes he hwf))

end instruction

end Sys2Proof.Machine
end

section
/-!
CERTIFICATE. Gathers, scatters and masked accesses.
-/

open Sys2Proof Sys2Proof.Machine

/-- Settles O10: the active lanes are so many pieces of pools that the core serves. -/
theorem vectorLaneAccessResults : Obligations.VectorLaneAccessResults := by
  unfold Obligations.VectorLaneAccessResults
  intro s t h hc p d a b m es l tk e L act strided indexed
  have he : 0 < e := Nat.two_pow_pos _
  refine ⟨fun ea ck off hlanes => ?_, fun i hi c hact hlow hbad => ?_, fun i hi c hact hlow hbad => ?_⟩
  · intro loads last stores
    have hpools : ∀ i ∈ activeBelow (t.rm m.toNat) L, PoolLane s t s.unit.tk e (ea i) (ck i) (off i) := fun i hi => by
      obtain ⟨hlt, hact⟩ := mem_activeBelow.1 hi
      obtain ⟨htarget, hlocal, hstore, hload, hremote, hclean⟩ := hlanes i hlt hact
      exact ⟨htarget, hlocal, hstore, hload, hremote, hclean⟩
    constructor <;> rintro rfl
    · exact ⟨Leaves.gathers h rfl rfl hpools rfl rfl, Leaves2.scatters h rfl rfl hpools he hc.ctx rfl⟩
    · exact ⟨Leaves.gathers h rfl rfl hpools rfl rfl, Leaves2.scatters h rfl rfl hpools he hc.ctx rfl⟩
  · have herror := State.laneTargets_lowest hi hact hlow hbad
    exact ⟨Traps.word h rfl (by simp) (State.gather_error h.thread herror), Traps.word h rfl (by simp) (State.scatter_error h.thread herror)⟩
  · have herror := State.laneTargets_lowest hi hact hlow hbad
    exact ⟨Traps.word h rfl (by simp) (State.gather_error h.thread herror), Traps.word h rfl (by simp) (State.scatter_error h.thread herror)⟩
end

section
/-!
SUPPORT. Far atomics on a field of a pool that the core serves, and by request to a line's home (R345, R346, R348).
-/

namespace Sys2Proof.Machine

variable {s s1 s' : State} {t u : Thread} {tk ck off w op x y d la pa : Nat} {ea : Word} {sc : Scope}

/-! ## The new field values -/

theorem toSigned_toNat {n : Nat} (x : BitVec n) : toSigned n x.toNat = x.toInt := by rw [toSigned, BitVec.ofNat_toNat, BitVec.setWidth_eq]

theorem toNat_ite {n : Nat} (c : Prop) [Decidable c] (x y : BitVec n) : (if c then x else y).toNat = if c then x.toNat else y.toNat :=
  apply_ite BitVec.toNat c x y

/-! ## A field of a pool -/

/-- The bytes of a number that they hold. -/
theorem bytesAt_ofNat {n x : Nat} (hn : n ≤ 64) (hx : x < 2 ^ (8 * n)) : bytesAt (BitVec.ofNat 512 x) 0 n = x := by
  have hdvd : 2 ^ (8 * n) ∣ 2 ^ 512 := Nat.pow_dvd_pow 2 (by omega)
  rw [bytesAt, Nat.mul_zero, Nat.pow_zero, Nat.div_one, BitVec.toNat_ofNat, Nat.mod_mod_of_dvd x hdvd, Nat.mod_eq_of_lt hx]

/-- A register takes the sign-extended old value. -/
theorem State.bindFin_old (hthr : s'.thr tk = some u) (hports : u.portcfg = 0) (hw : w ≤ 64) (s : State) :
    s'.bindFin tk (.gs d w) (BitVec.ofNat 512 (s.poolRead ck off w)) =
      s'.setThr tk (u.wg d ((BitVec.ofNat (8 * w) (s.poolRead ck off w)).signExtend 64)) := by
  rw [State.bindFin, bytesAt_ofNat hw (State.poolRead_lt ..), State.writeG_plain tk d _ u hthr hports]
  rfl

/-- What an atomic on an unpoisoned field leaves: a failed AMOCAS writes nothing. -/
theorem State.poolAtomic_clean (hclean : s.poolPoison ck off w = none) : s.poolAtomic ck off w op x y =
    (if op = 9 ∧ s.poolRead ck off w ≠ x then s else s.poolWrite ck off (leBytes w (atomicNew op w (s.poolRead ck off w) x y)),
      s.poolRead ck off w) := by
  simp only [State.poolAtomic, hclean, Option.isSome_none, Bool.false_eq_true, false_or]
  split <;> rfl

section thread
variable (h : Alone s t) (hsbuf : t.sbuf = []) (hremote : t.remote = [])
include h hsbuf hremote

theorem State.atomic_local (htarget : s.target s.unit.tk ea w w true true = .ok (.pool ck off)) (hlocal : s.isLocal ck = true)
    (hfree : s.jobHolds s.unit.tk (.pool ck off) w true = false) (hclean : s.poolPoison ck off w = none) :
    s.atomic s.unit.tk la op w ea x y sc d =
      .done ((s.poolAtomic ck off w op (x % 2 ^ (8 * w)) y).1.bindFin s.unit.tk (.gs d w)
        (BitVec.ofNat 512 (s.poolRead ck off w))) none := by
  have hperformed : t.performed = true := (Thread.performed_iff h.pend).2 ⟨hsbuf, hremote⟩
  have hold : (s.poolAtomic ck off w op (x % 2 ^ (8 * w)) y).2 = s.poolRead ck off w := by rw [State.poolAtomic_clean hclean]
  simp [State.atomic, h.thread, htarget, State.planAll, hfree, hperformed, Thread.remoteHolds, hremote, Thread.readHolds, h.pend, hlocal,
    hclean, hold]

/-- An atomic on memory is a request to the line's home. -/
theorem State.atomic_memory (htarget : s.target s.unit.tk ea w w true true = .ok (.mem ea.toNat))
    (hxlat : s.xlatThread s.unit.tk t ea.toNat false true false = .pa s1 pa)
    (hfree : s.jobHolds s.unit.tk (.mem ea.toNat) w true = false) :
    s.atomic s.unit.tk la op w ea x y sc d =
      .done ((s1.setThr s.unit.tk t).homePend s.unit.tk la
        { kind := .atomic, dsts := [.g d], fin := .gs d w, acq := s.scopeOf s.unit.tk t sc != .thr, line := some (pa / 64) } fun tx =>
        .atom { src := s.unit.core, dst := homeId (homeOf (pa / 64)), txid := tx, line := pa / 64, off := pa % 64, len := w, atop := op,
                data := some (putBytes (BitVec.ofNat 512 (x % 2 ^ (8 * w))) 8 8 y), thread := slotOfTk s.unit.tk,
                cel := op == 0 && (sc == .dev || sc == .sys) }) none := by
  have hk := State.xlatThread_keepsUnit hxlat
  have hperformed : t.performed = true := (Thread.performed_iff h.pend).2 ⟨hsbuf, hremote⟩
  rw [State.setThr_self s1 _ t ((hk.thr _).trans h.thread)]
  simp [State.atomic, h.thread, htarget, State.planAll, hxlat, hfree, hperformed, Thread.remoteHolds, Thread.readHolds,
    Thread.lineClear_of_idle h.pend hsbuf, State.homePend, State.newTx, hk.unit]

section word
variable {i : Instr} {c : CSpec} {body : Thread → State → CRes} (hst : t.st = .ready) (hi : exec i s = issueC c body s)
  (hpriv : c.priv = false) (hb : body t s = s.atomic s.unit.tk la op w ea x y sc d)
include hi hpriv hb

theorem Leaves2.poolAtomic (hw : w ≤ 64) (htarget : s.target s.unit.tk ea w w true true = .ok (.pool ck off))
    (hlocal : s.isLocal ck = true) (hfree : s.jobHolds s.unit.tk (.pool ck off) w true = false) (hclean : s.poolPoison ck off w = none) :
    Leaves2 i s (s.poolAtomic ck off w op (x % 2 ^ (8 * w)) y).1
      (t.wg d ((BitVec.ofNat (8 * w) (s.poolRead ck off w)).signExtend 64)) := by
  have hk : KeepsUnit s (s.poolAtomic ck off w op (x % 2 ^ (8 * w)) y).1 := by
    rw [State.poolAtomic_clean hclean]
    simp only
    split <;> exact ⟨rfl, rfl, fun _ => rfl⟩
  refine Leaves2.word h hi (by simp [hpriv]) hk (hb.trans ?_) (by simpa using h.flumes) (by simpa using h.pend) (by simp)
  rw [State.atomic_local h hsbuf hremote htarget hlocal hfree hclean,
    State.bindFin_old ((hk.thr _).trans h.thread) h.ports hw]

include hst in
theorem Awaits.atom (htarget : s.target s.unit.tk ea w w true true = .ok (.mem ea.toNat))
    (hxlat : s.xlatThread s.unit.tk t ea.toNat false true false = .pa s1 pa)
    (hfree : s.jobHolds s.unit.tk (.mem ea.toNat) w true = false) :
    Awaits i s ((s1.newTx s.unit.core).1.tickClock.later (.atom
      { src := s.unit.core, dst := homeId (homeOf (pa / 64)), txid := (s1.newTx s.unit.core).2, line := pa / 64, off := pa % 64, len := w,
        atop := op, thread := slotOfTk s.unit.tk, data := some (putBytes (BitVec.ofNat 512 (x % 2 ^ (8 * w))) 8 8 y),
        cel := decide (op = 0 ∧ (sc = .dev ∨ sc = .sys)) })) t
      { id := s1.clock, kind := .atomic, dsts := [.g d], fin := .gs d w, acq := s.scopeOf s.unit.tk t sc != .thr, line := some (pa / 64),
        window := la, upc := s.unit.addr, lanes := [{ src := .reply, txid := (s1.newTx s.unit.core).2, len := 8 }] } := by
  have hcel : decide (op = 0 ∧ (sc = .dev ∨ sc = .sys)) = (op == 0 && (sc == .dev || sc == .sys)) := by
    rw [Bool.eq_iff_iff]
    simp
  rw [hcel]
  exact Awaits.homePend h hi (by simp [hpriv]) (State.xlatThread_keepsUnit hxlat)
    (hb.trans (State.atomic_memory h hsbuf hremote htarget hxlat hfree)) h.flumes h.pend rfl hst

end word
end thread

/-- Each listed atomic is a word that performs its operation with the operand of g d. -/
theorem farAtomics_word {p : Bool} {d a : BitVec 5} {z : Bool} {l : BitVec 4} {i : Instr × Nat} (hi : i ∈ farAtomics p d a sc z l) :
    i.2 ≠ 9 ∧ ∃ c body, exec i.1 s = issueC c body s ∧ c.priv = false ∧
      body t s = s.atomic s.unit.tk l.toNat i.2 (if z then 8 else 4) (t.rg a.toNat) (t.rg d.toNat).toNat 0 sc d.toNat := by
  simp only [farAtomics, List.mem_cons, List.not_mem_nil, or_false] at hi
  obtain rfl | rfl | rfl | rfl | rfl | rfl | rfl | rfl | rfl := hi <;> exact ⟨by simp, _, _, rfl, rfl, rfl⟩

end Sys2Proof.Machine
end

section
/-!
CERTIFICATE. Far atomics.
-/

open Sys2Proof Sys2Proof.Machine

/-- R345: the new field values, operation by operation. -/
theorem atomicOperations : Claims.AtomicOperations := by
  intro w _ x y new r
  refine ⟨(BitVec.toNat_add x y).symm, (BitVec.toNat_and x y).symm, (BitVec.toNat_or x y).symm, (BitVec.toNat_xor x y).symm,
    ?_, ?_, ?_, ?_, rfl, ?_⟩
  · simp only [r, atomicNew, toSigned_toNat, toNat_ite]
  · simp only [r, atomicNew, toSigned_toNat, toNat_ite]
  · simp only [r, atomicNew, toNat_ite]
    split <;> omega
  · simp only [r, atomicNew, toNat_ite]
    split <;> omega
  · simp only [r, atomicNew, toNat_ite, BitVec.toNat_inj]

/-- R345, R346: the far atomics at a pool and by request. -/
theorem farAtomicResults : Claims.FarAtomicResults := by
  intro s t h hst hsbuf hremote p d a e sc z l tk w ea old bound
  have hw : w ≤ 64 := by simp only [w]; split <;> decide
  refine ⟨fun ck off htarget hlocal hfree hclean => ⟨fun i hi => ?_, ?_⟩, fun s1 pa htarget hxlat hfree => ?_⟩
  · obtain ⟨hop, c, body, hexec, hpriv, hb⟩ := farAtomics_word (s := s) (t := t) hi
    have hdone := Leaves2.poolAtomic h hsbuf hremote hexec hpriv hb hw htarget hlocal hfree hclean
    rwa [State.poolAtomic_clean hclean, if_neg (by simp [hop])] at hdone
  · intro r expected
    have hdone := Leaves2.poolAtomic (i := .amocas p e a sc z l) (w := w) h hsbuf hremote rfl rfl rfl hw htarget hlocal hfree hclean
    rw [State.poolAtomic_clean hclean] at hdone
    refine ⟨fun heq => ?_, fun hne => ?_⟩
    · have hnew : atomicNew 9 w (s.poolRead ck off w) ((t.rg (2 * e.toNat)).toNat % 2 ^ (8 * w)) (t.rg (2 * e.toNat + 1)).toNat =
          (t.rg (2 * e.toNat + 1)).toNat := if_pos heq
      rwa [if_neg (fun hfail => hfail.2 heq), hnew] at hdone
    · rwa [if_pos ⟨rfl, hne⟩] at hdone
  · intro r home request result
    refine ⟨fun i hi => ?_, Awaits.atom h hsbuf hremote hst rfl rfl rfl htarget hxlat hfree⟩
    obtain ⟨hop, c, body, hexec, hpriv, hb⟩ := farAtomics_word (s := s) (t := t) hi
    exact Awaits.atom h hsbuf hremote hst hexec hpriv hb htarget hxlat hfree

/-- Settles O29: the operations are those of bit vectors, and each instruction is one access of its field or one request. -/
theorem atomicResults : Obligations.AtomicResults := ⟨atomicOperations, farAtomicResults⟩
end

section
/-!
SUPPORT. Units of one word that name no vector register, in a thread with flumes (R392, R393).
-/

namespace Sys2Proof.Machine

variable {s s' : State} {t u : Thread} {tk : Nat} {c : CSpec}

theorem Thread.popFlumes_nil (t : Thread) : t.popFlumes [] = t := by simp [Thread.popFlumes]

theorem Thread.flumesOf_nil (t : Thread) : t.flumesOf [] = [] := rfl

/-- The retiring of a unit of one C word that names no vector register, with nothing pending. -/
theorem State.retire_noVector (pc : Option Word) (hu : s.thr tk = some u) (hp : t.portcfg = 0) (hvs : c.n.vs = []) (hpd : t.pend = [])
    (hpu : u.pend = []) (hl : u.lastIssue = t.lastIssue) :
    s.retire tk t c {} 1 pc = s.setThr tk (finished s (pc.getD (s.unit.addr + 4)) u) := by
  have hheld (held : Option (Nat × Undo)) : AEffect.vwNow {} held = [] ∧ AEffect.sendsNow {} held = [] := by cases held <;> exact ⟨rfl, rfl⟩
  have hsame (v : Thread) : (v.popFlumes []).popFlumes [] = v := by rw [Thread.popFlumes_nil, Thread.popFlumes_nil]
  have hid : s.modThr tk (fun v => v) = s := State.modThr_id s tk _ fun _ _ => rfl
  unfold State.retire
  simp only [hpd, hvs, Thread.portsOf_off hp, (hheld _).1, (hheld _).2, List.append_nil, Thread.flumesOf_nil, foldS, List.foldl_nil, hsame, hid]
  rw [State.modThr_some s tk u _ hu]
  simp only [hpu, hl, ageResults_nil, List.map_nil, List.find?_nil, if_true, finished, fpRaise]
  congr 2
  · exact ite_ready _
  · simp

section alone
variable (hthr : s.thr s.unit.tk = some t) (hlone : s.unit.phase = .lone) (hpend : t.pend = []) (hports : t.portcfg = 0)
  {i : Instr} {body : Thread → State → CRes} (hi : exec i s = issueC c body s) (hvs : c.n.vs = []) (hvd : c.n.vd = []) (hpriv : c.priv = false)
include hthr hlone hpend hports hi hvs hvd hpriv

/-- Such a word issues alone; flumes hold nothing back. -/
theorem issueC_noVector : exec i s = .next (match body t s with
    | .trap cause val => s.takeTrap s.unit.tk cause val s.unit.addr false false
    | .wait s' st park => s'.waitUnit s.unit.tk st park
    | .done s' pc => s'.retire s.unit.tk t c {} 1 pc) := by
  have hm : ¬ 1 < t.messages c {} := by
    simp [Thread.messages, Thread.portsOf_off hports, bitOf]; cases c.sends <;> simp
  have htrap : t.portTrap c.n [] = none := by simp [Thread.portTrap, Thread.portsOf_off hports, hvs, hvd, Thread.flumesOf_nil]
  have hwait : s.portWait s.unit.tk t c.n [] = none := by
    simp [State.portWait, Thread.portsOf_off hports, hvs, hvd, Thread.flumesOf_nil]
  have hpoison : t.flumePoison c.n [] = none := by simp [Thread.flumePoison, hvs, Thread.flumesOf_nil]
  have hview : s.view s.unit.tk t c.n [] = t := by simp [State.view, Thread.portsOf_off hports, hvs, Thread.flumesOf_nil]
  simp only [hi, issueC, hthr, hlone, State.finishUnit, UnitCtx.words, reduceCtorEq, if_false, if_true, Thread.holdBack_none c _ _ hpend,
    OfNat.one_ne_ofNat, false_and, Bool.false_eq_true, hpriv, hm, htrap, State.portDestTrap_plain s.unit.tk c.n.gd hports, hwait, hpoison,
    hview]
  cases body t s with
  | trap cause val => simp [State.unitTrap, hthr, hpend]
  | wait s' st park => rfl
  | done s' pc => simp [State.finishA, UnitCtx.words, hlone]

theorem Traps.noVector {cause : Nat} {val : Word} (hb : body t s = .trap cause val) : Traps i s cause val := by
  rw [Traps, issueC_noVector hthr hlone hpend hports hi hvs hvd hpriv, hb]

theorem Leaves2.noVector (hk : KeepsUnit s s') (hb : body t s = .done (s'.setThr s.unit.tk u) none) (hpu : u.pend = [])
    (hl : u.lastIssue = t.lastIssue) : Leaves2 i s s' u := by
  rw [Leaves2, issueC_noVector hthr hlone hpend hports hi hvs hvd hpriv, hb]
  simp only
  rw [State.retire_noVector none (State.thr_setThr ..) hports hvs hpend hpu hl, State.setThr_setThr]
  simp only [finished, State.setThr_unit, State.setThr_clu, hk.unit, hk.cycle, Option.getD_none]

end alone

/-! ## Flumes -/

section flume
variable {k ck off : Nat} {a : BitVec 5} {p : Bool} {f : Flume}

/-- The writes of an out-flume's entries in push order. -/
def drained (s : State) (ck : Nat) (f : Flume) (l : List (Vec × Nat)) : State :=
  l.foldl (fun s e => s.poolWrite ck (f.addr (f.pos + e.2)) (bytesOfVec e.1)) s

theorem drained_keepsUnit (s : State) (ck : Nat) (f : Flume) (l : List (Vec × Nat)) : KeepsUnit s (drained s ck f l) := by
  induction l generalizing s with
  | nil => exact .rfl
  | cons e l ih =>
    have hfirst : KeepsUnit s (s.poolWrite ck (f.addr (f.pos + e.2)) (bytesOfVec e.1)) := ⟨rfl, rfl, fun _ => rfl⟩
    exact hfirst.trans (ih _)

theorem drained_free (s : State) (ck : Nat) (f : Flume) (l : List (Vec × Nat)) : (drained s ck f l).free = s.free :=
  foldl_keeps (fun (s : State) (e : Vec × Nat) => s.poolWrite ck (f.addr (f.pos + e.2)) (bytesOfVec e.1)) State.free (fun _ _ => rfl) l s

/-- The drain writes each entry at the pattern's next address. -/
theorem foldS_drained (l : List Vec) (s : State) (n : Nat) :
    foldS (fun (x : Vec) (acc : State × Nat) => (acc.1.poolWrite ck (f.addr acc.2) (bytesOfVec x), acc.2 + 1)) l (s, f.pos + n) =
      (drained s ck f (l.zipIdx n), f.pos + n + l.length) := by
  induction l generalizing s n with
  | nil => rfl
  | cons x l ih =>
    have hrest := ih (s.poolWrite ck (f.addr (f.pos + n)) (bytesOfVec x)) (n + 1)
    simp only [foldS, List.foldl_cons, List.zipIdx_cons, drained, List.length_cons] at hrest ⊢
    rw [Nat.add_assoc f.pos n 1, hrest]
    refine Prod.ext rfl ?_
    simp only
    omega

theorem State.laterOnce_setThr (s : State) (e : Ev) (tk : Nat) (u : Thread) : (s.setThr tk u).laterOnce e = (s.laterOnce e).setThr tk u := by
  unfold State.laterOnce
  split <;> rename_i he <;> [rw [if_pos (by exact he)]; (rw [if_neg (by exact he)]; rfl)]

theorem State.modThr_setThr_free (s : State) (tk n : Nat) (u : Thread) (g : Thread → Thread) :
    ({ s.setThr tk u with free := n } : State).modThr tk g = ({ s with free := n } : State).setThr tk (g u) := by
  have hself : ({ s.setThr tk u with free := n } : State) = ({ s with free := n } : State).setThr tk u := rfl
  rw [hself, State.modThr_some _ _ u _ (State.thr_setThr ..), State.setThr_setThr]

section instruction
variable (hthr : s.thr s.unit.tk = some t) (hlone : s.unit.phase = .lone) (hpend : t.pend = []) (hports : t.portcfg = 0) {k : BitVec 3}
include hthr hlone hpend hports

/-- FBIND of a record at a wrong place. -/
theorem fbind_misplaced {e : Nat} (hplace : s.recordAt (ckOfTk s.unit.tk) (t.rg a.toNat) 32 32 = .error e) :
    Traps (.fbind p k a) s e (t.rg a.toNat) :=
  Traps.noVector hthr hlone hpend hports rfl rfl rfl rfl (by simp only [hplace])

variable (hplace : s.recordAt (ckOfTk s.unit.tk) (t.rg a.toNat) 32 32 = .ok off)

include hplace in
/-- FBIND of a flume that is bound. -/
theorem fbind_bound (hbound : (k.toNat, f) ∈ t.flumes) : Traps (.fbind p k a) s Cause.port (word (16 + k.toNat)) := by
  have hany : (t.flumes.any fun e => e.1 == k.toNat) = true := List.any_eq_true.2 ⟨_, hbound, by simp⟩
  exact Traps.noVector hthr hlone hpend hports rfl rfl rfl rfl (by simp only [hplace, hthr, hany, if_true])

section record
variable (hflumes : t.flumes = []) (hfree : s.jobHolds s.unit.tk (.pool (ckOfTk s.unit.tk) off) 32 false = false)
  (hclean : s.poolPoison (ckOfTk s.unit.tk) off 32 = none)
include hplace hflumes hfree hclean

/-- FBIND of a record that R211 turns away. -/
theorem fbind_turnedAway {e : Nat} (hbad : s.flumeTrap (ckOfTk s.unit.tk) (s.poolRead (ckOfTk s.unit.tk) off 32) = some e) :
    Traps (.fbind p k a) s e (t.rg a.toNat) :=
  Traps.noVector hthr hlone hpend hports rfl rfl rfl rfl
    (by simp only [hplace, hthr, hflumes, List.any_nil, Bool.false_eq_true, if_false, hfree, hclean, hbad])

/-- FBIND of a record that R211 accepts. -/
theorem fbind_binds (hgood : s.flumeTrap (ckOfTk s.unit.tk) (s.poolRead (ckOfTk s.unit.tk) off 32) = none)
    (hf : flumeOf (s.poolRead (ckOfTk s.unit.tk) off 32) = f) :
    Leaves2 (.fbind p k a) s
      (if f.out then { s with free := s.free + 1 }
        else ({ s with free := s.free + 1 } : State).laterOnce (.flumeTransfer s.unit.tk k.toNat))
      { t.wv (24 + k.toNat) (Config.freeVec s.free) with flumes := [(k.toNat, f)] } := by
  have hthr' : ({ s with free := s.free + 1 } : State).thr s.unit.tk = some t := hthr
  have hk : KeepsUnit s (if f.out then { s with free := s.free + 1 }
      else ({ s with free := s.free + 1 } : State).laterOnce (.flumeTransfer s.unit.tk k.toNat)) := by
    split
    · exact ⟨rfl, rfl, fun _ => rfl⟩
    · unfold State.laterOnce
      split <;> exact ⟨rfl, rfl, fun _ => rfl⟩
  refine Leaves2.noVector hthr hlone hpend hports rfl rfl rfl rfl hk ?_ hpend rfl
  simp only [hplace, hthr, hflumes, List.any_nil, Bool.false_eq_true, if_false, hfree, hclean, hgood, hf,
    State.modThr_some _ _ t _ hthr', List.nil_append, State.laterOnce_setThr]
  split <;> rfl

end record
end instruction

/-! ## FUNBIND -/

/-- The entries that FUNBIND writes. -/
def Flume.unwritten (f : Flume) : List (Vec × Nat) := if f.out then f.queue.zipIdx else []

/-- Draining the one bound flume writes its entries and leaves its queue empty. -/
theorem State.drainQuiet_one {k : Nat} (hthr : s.thr tk = some t) (hflumes : t.flumes = [(k, f)]) :
    ∃ g, (if f.out then s.drainQuiet tk k else s) = (drained s (ckOfTk tk) f f.unwritten).setThr tk { t with flumes := [(k, g)] } := by
  have hsame : { t with flumes := [(k, f)] } = t := by rw [← hflumes]
  have hself : s.setThr tk { t with flumes := [(k, f)] } = s := by rw [hsame, State.setThr_self s tk t hthr]
  have hfind : (t.flumes.find? fun e => e.1 == k) = some (k, f) := by simp [hflumes]
  cases hout : f.out
  case false => exact ⟨f, by simp [Flume.unwritten, hout, drained, hself]⟩
  case true =>
    cases hqueue : f.queue with
    | nil => exact ⟨f, by simp [State.drainQuiet, hthr, hfind, hqueue, Flume.unwritten, drained, hself]⟩
    | cons x l =>
      have hall := foldS_drained (ck := ckOfTk tk) (f := f) (x :: l) s 0
      have hthr' : (drained s (ckOfTk tk) f ((x :: l).zipIdx 0)).thr tk = some t := ((drained_keepsUnit ..).thr tk).trans hthr
      refine ⟨{ f with queue := [], pos := f.pos + (l.length + 1) }, ?_⟩
      rw [Nat.add_zero] at hall
      rw [if_pos rfl, State.drainQuiet, hthr]
      simp only [hfind]
      simp only [hqueue, hout, List.isEmpty_cons, Bool.not_true, Bool.false_eq_true, or_self, if_false, if_true, Flume.unwritten, hall,
        State.modThr_some _ _ t _ hthr', hflumes, mapIf, List.map_cons, List.map_nil, BEq.rfl]
      rfl

/-- FUNBIND of the one bound flume. -/
theorem funbind_drains {k : BitVec 3} (hthr : s.thr s.unit.tk = some t) (hlone : s.unit.phase = .lone) (hpend : t.pend = [])
    (hports : t.portcfg = 0) (hflumes : t.flumes = [(k.toNat, f)]) :
    Leaves2 (.funbind p k) s { drained s (ckOfTk s.unit.tk) f f.unwritten with free := s.free + 1 }
      { t.wv (24 + k.toNat) (Config.freeVec s.free) with flumes := [] } := by
  have hk := drained_keepsUnit s (ckOfTk s.unit.tk) f f.unwritten
  have hfind : (t.flumes.find? fun e => e.1 == k.toNat) = some (k.toNat, f) := by simp [hflumes]
  have hfree : (drained s (ckOfTk s.unit.tk) f f.unwritten).free = s.free :=
    drained_free ..
  obtain ⟨g, hdrain⟩ := State.drainQuiet_one hthr hflumes
  refine Leaves2.noVector hthr hlone hpend hports rfl rfl rfl rfl ⟨hk.threads, hk.unit, hk.cycle⟩ ?_ hpend rfl
  simp only [hthr, hfind, hdrain]
  have hgone : ([(k.toNat, g)].filter fun e => e.1 != k.toNat) = [] := by simp
  rw [State.modThr_setThr_free, State.setThr_free, hfree, hgone]
  rfl

end flume

end Sys2Proof.Machine
end

section
/-!
CERTIFICATE. Binding and unbinding a flume.
-/

open Sys2Proof Sys2Proof.Machine

/-- Settles O12: FBIND by its checks in their order, FUNBIND by what the flume holds. -/
theorem flumeBindResults : Obligations.FlumeBindResults := by
  unfold Obligations.FlumeBindResults
  intro s t p k a hthr hlone hpend hports tk ck x
  refine ⟨fun e => fbind_misplaced hthr hlone hpend hports, fun off hplace => ⟨fun ⟨f, hf⟩ => fbind_bound hthr hlone hpend hports hplace hf,
    fun hflumes hfree hclean => ⟨fun e => fbind_turnedAway hthr hlone hpend hports hplace hflumes hfree hclean,
      fun hgood => fbind_binds hthr hlone hpend hports hplace hflumes hfree hclean hgood rfl⟩⟩, fun hflumes => ?_,
    fun f hflumes => funbind_drains hthr hlone hpend hports hflumes⟩
  exact Goes.stays (pc := none) ⟨hthr, hlone, hpend, hports, hflumes⟩ rfl (by simp) (by simp only [hthr, hflumes, List.find?_nil])
end

section
/-!
SUPPORT. The directory service at a home: operands, a probe's transaction beside the thread that asks, and the end of an eviction (R403,
R406 to R409).
-/

namespace Sys2Proof.Machine

variable {s s' : State} {t : Thread} {x y : Word}

/-! ## Operands -/

/-- A field that reaches the top of the word is 0 exactly where the word is below it. -/
theorem field_top_eq_zero (x : Word) {lo n : Nat} (h : lo + n = 64) : field x lo n = 0 ↔ x.toNat < 2 ^ lo := by
  have hlt : x.toNat / 2 ^ lo < 2 ^ n := by
    rw [Nat.div_lt_iff_lt_mul (Nat.two_pow_pos lo), ← Nat.pow_add, Nat.add_comm, h]
    exact x.isLt
  rw [field, bits, Nat.mod_eq_of_lt hlt, Nat.div_eq_zero_iff_lt (Nat.two_pow_pos lo)]

theorem lineBad_eq_true (x : Word) : lineBad x = true ↔ 2 ^ 48 ≤ x.toNat := by
  rw [lineBad, bne_iff_ne, ne_eq, field_top_eq_zero x rfl, not_lt]

theorem lineBad_eq_false (h : x.toNat < 2 ^ 48) : lineBad x = false := by
  rw [← Bool.not_eq_true, lineBad_eq_true, not_le]
  exact h

theorem lineOf_eq (h : x.toNat < 2 ^ 48) : lineOf x = x.toNat / 64 := by
  simp only [lineOf, field, bits]
  omega

/-! ## A transaction opened beside a thread -/

theorem State.sendCredit_setThr (s : State) (tk : Nat) (u : Thread) (cls dst : Nat) (e : Ev) :
    (s.setThr tk u).sendCredit cls dst e = (s.sendCredit cls dst e).setThr tk u := by
  unfold State.sendCredit
  simp only [State.setThr_port]
  rw [apply_ite (State.setThr · tk u), apply_ite (State.setThr · tk u)]
  rfl

theorem State.sendProbe_setThr (s : State) (tk : Nat) (u : Thread) (sl : Nat) (k : ProbeKind) (agent line : Nat) (ver : BitVec 8) :
    (s.setThr tk u).sendProbe sl k agent line ver = (s.sendProbe sl k agent line ver).setThr tk u := State.sendCredit_setThr ..

theorem foldS_sendProbe_setThr (s : State) (tk : Nat) (u : Thread) (sl : Nat) (k : ProbeKind) (l : List (Nat × Nat)) (ver : BitVec 8) :
    foldS (fun p s => s.sendProbe sl k p.1 p.2 ver) l (s.setThr tk u) = (foldS (fun p s => s.sendProbe sl k p.1 p.2 ver) l s).setThr tk u := by
  induction l generalizing s with
  | nil => rfl
  | cons p l ih =>
    simp only [foldS, List.foldl_cons] at ih ⊢
    rw [State.sendProbe_setThr]
    exact ih _

theorem State.openTxn_setThr (s : State) (tk : Nat) (u : Thread) (sl : Nat) (q : Txn) (k : ProbeKind) (l : List (Nat × Nat)) (ver : BitVec 8) :
    (s.setThr tk u).openTxn sl q k l ver = (s.openTxn sl q k l ver).setThr tk u := by
  unfold State.openTxn
  rw [← foldS_sendProbe_setThr]
  rfl

/-! ## The end of an eviction -/

/-- An eviction without answers outstanding frees its node. -/
theorem State.finishTxn_evict_keepsThreads {sl : Nat} {q : Txn} (hkind : q.kind = .evict) : KeepsThreads s (s.finishTxn sl q) := by
  have hdrop := State.modSl_keepsThreads (s := s) sl fun y => { y with txns := y.txns.filter fun u => u.id != q.id }
  unfold State.finishTxn
  simp only [hkind]
  refine .ite .rfl ((hdrop.trans ?_).trans (State.retrySoon_keepsThreads sl))
  split
  · exact State.freeNode_keepsThreads sl _
  · exact .rfl

/-- A transaction that waits for an answer or a write-back goes on waiting. -/
theorem State.finishTxn_waits {sl : Nat} {q : Txn} (h : q.probes ≠ [] ∨ q.awaitWb ≠ []) : s.finishTxn sl q = s := by
  refine if_pos ?_
  simpa [← or_assoc] using Or.inl h

/-- What an instruction leaves besides its thread may be given with any content of its thread. -/
theorem State.leaves2_setThr {i : Instr} {u v : Thread} (h : Leaves2 i s (s'.setThr s.unit.tk v) u) : Leaves2 i s s' u := by
  rwa [Leaves2, State.setThr_setThr] at h

/-! ## The instructions -/

section instruction
variable {p : Bool} {d a b : BitVec 5} {l : BitVec 4} (h : Alone s t) (hpriv : t.priv ≠ 0)
include h hpriv

/-- DSREAD of a line address. -/
theorem dsread_leaves {home : Slice} {node : Option Node} (hx : (t.rg a.toNat).toNat < 2 ^ 48)
    (hhome : s.sl (homeOf ((t.rg a.toNat).toNat / 64)) = home)
    (hnode : home.node ((t.rg a.toNat).toNat / 64) = node) : Leaves (.dsread p d a l) s (t.wv d.toNat (node.elim 0 (nodeRecord home))) := by
  refine Goes.word (pc := none) h rfl (fun _ => hpriv) ?_ (by simpa using h.flumes) (by simpa using h.pend) (by simp)
  simp only [lineBad_eq_false hx, Bool.false_eq_true, if_false, lineOf_eq hx, hhome, hnode]
  rw [State.bindFin_vec_plain h.thread h.flumes]
  cases node <;> rfl

/-- DSPROBE of an agent and a line address. -/
theorem dsprobe_awaits (hready : t.st = .ready) (hx : (t.rg a.toNat).toNat < 2 ^ 16) (hagent : (t.rg a.toNat).toNat % 256 < 0x50)
    (hy : (t.rg b.toNat).toNat < 2 ^ 48) :
    Awaits (.dsprobe p d a b l) s
      (s.tickClock.openTxn (homeOf ((t.rg b.toNat).toNat / 64))
        { kind := .dsprobe, line := (t.rg b.toNat).toNat / 64, tk := s.unit.tk, pend := s.clock } .sinv
        [((t.rg a.toNat).toNat % 256, (t.rg b.toNat).toNat / 64)] (BitVec.ofNat 8 ((t.rg a.toNat).toNat / 256))) t
      { id := s.clock, kind := .dirsvc, dsts := [.g d.toNat], fin := .gz d.toNat 8, lanes := [{}], window := l.toNat, upc := s.unit.addr } := by
  have hk := State.openTxn_keepsThreads (s := s.tickClock) (homeOf ((t.rg b.toNat).toNat / 64))
        { kind := .dsprobe, line := (t.rg b.toNat).toNat / 64, tk := s.unit.tk, pend := s.clock } .sinv
        [((t.rg a.toNat).toNat % 256, (t.rg b.toNat).toNat / 64)] (BitVec.ofNat 8 ((t.rg a.toNat).toNat / 256))
  have hlow : field (t.rg a.toNat) 0 8 = (t.rg a.toNat).toNat % 256 := Laws.field_low _ 8
  have htop : field (t.rg a.toNat) 16 48 = 0 := (field_top_eq_zero _ rfl).2 hx
  have hver : field (t.rg a.toNat) 8 8 = (t.rg a.toNat).toNat / 256 := by
    simp only [field, bits]
    omega
  refine Awaits.opens (u := t) (la := l.toNat) (q := { id := s.clock, kind := .dirsvc, dsts := [.g d.toNat], fin := .gz d.toNat 8, lanes := [{}], upc := s.unit.addr })
    h rfl (fun _ => hpriv) ⟨hk.threads, hk.unit, fun c => congrArg (fun l => (Tbl.get {} l c).cycle) hk.clusters⟩ ?_ h.flumes rfl hready
  simp only [htop, hlow, Nat.not_le.2 hagent, lineBad_eq_false hy, lineOf_eq hy, hver, ne_eq, not_true_eq_false, or_self,
    Bool.false_eq_true, if_false]
  rw [State.addPend_one h.lone h.thread h.pend, State.openTxn_setThr]
  rfl

/-- The transaction that DSDONE names no longer waits for software. -/
def State.endSoftware (s : State) (sl : Nat) (q : Txn) : State :=
  s.modSl sl fun y => { y with txns := mapIf (fun (u : Txn) => u.id == q.id) (fun _ => { q with awaitDs := false }) y.txns }

section done
variable {sl token : Nat} (hsl : (t.rg a.toNat).toNat / 2 ^ 16 = sl) (hlow : sl < 64) (htoken : (t.rg a.toNat).toNat % 2 ^ 16 = token)
include hsl hlow htoken

omit h hpriv in
theorem dsdone_fields : field (t.rg a.toNat) 22 42 = 0 ∧ field (t.rg a.toNat) 16 6 = sl ∧ field (t.rg a.toNat) 0 16 = token := by
  refine ⟨(field_top_eq_zero _ rfl).2 (by omega), ?_, (Laws.field_low _ 16).trans htoken⟩
  simp only [field, bits]
  omega

/-- DSDONE with a token that no transaction of the home has. -/
theorem dsdone_unknown (hnone : ((s.sl sl).txns.find? fun u => u.awaitDs && u.token == token) = none) :
    Traps (.dsdone p a) s Cause.access (t.rg a.toNat) := by
  obtain ⟨htop, hhome, htok⟩ := dsdone_fields hsl hlow htoken
  refine Traps.word h rfl (fun _ => hpriv) ?_
  simp only [htop, hhome, htok, hnone, ne_eq, not_true_eq_false, if_false]

/-- A transaction that DSDONE names goes on. -/
theorem dsdone_finishes {q : Txn} (hfind : ((s.sl sl).txns.find? fun u => u.awaitDs && u.token == token) = some q)
    (hk : ∀ v : State, KeepsThreads v (v.finishTxn sl { q with awaitDs := false })) :
    Leaves2 (.dsdone p a) s (((s.endSoftware sl q).setThr s.unit.tk { t with invalHeld := false }).finishTxn sl { q with awaitDs := false })
      { t with invalHeld := false } := by
  obtain ⟨htop, hhome, htok⟩ := dsdone_fields hsl hlow htoken
  have hk := hk ((s.endSoftware sl q).setThr s.unit.tk { t with invalHeld := false })
  refine issueC_leaves (pc := none) h rfl (fun _ => hpriv) ?_ ((hk.thr _).trans (State.thr_setThr ..)) h.flumes h.pend rfl hk.unit hk.clusters
  simp only [htop, hhome, htok, hfind, ne_eq, not_true_eq_false, if_false, State.modThr_some s _ t _ h.thread]
  rfl

end done

omit h in
/-- DSCLR of a line address. -/
theorem dsclr_body (hx : (t.rg a.toNat).toNat < 2 ^ 48) : ∃ c body, exec (.dsclr p a) s = issueC c body s ∧ (c.priv = true → t.priv ≠ 0) ∧
    body t s = .done (((s.sl (homeOf ((t.rg a.toNat).toNat / 64))).node ((t.rg a.toNat).toNat / 64)).elim s fun n =>
      if n.ovf = true ∧ (!(s.sl (homeOf ((t.rg a.toNat).toNat / 64))).nodeBusy n) = true ∧ (s.sl (homeOf ((t.rg a.toNat).toNat / 64))).unacked = 0
      then s.setSl (homeOf ((t.rg a.toNat).toNat / 64)) ((s.sl (homeOf ((t.rg a.toNat).toNat / 64))).setNode { n with ovf := false })
      else s) none := by
  refine ⟨_, _, rfl, fun _ => hpriv, ?_⟩
  simp only [lineBad_eq_false hx, Bool.false_eq_true, if_false, lineOf_eq hx]
  cases (s.sl (homeOf ((t.rg a.toNat).toNat / 64))).node ((t.rg a.toNat).toNat / 64) <;> rfl

end instruction

end Sys2Proof.Machine
end

section
/-!
CERTIFICATE. Reading and probing a directory, and the ends of its software steps.
-/

open Sys2Proof Sys2Proof.Machine

/-- R406, R409: DSREAD and DSPROBE. -/
theorem directoryReadResults : Claims.DirectoryReadResults := by
  intro s t h hpriv hst p d a b l x y agent
  have hagent : field x 0 8 = agent := Laws.field_low x 8
  have hhigh : field x 16 48 ≠ 0 ↔ 2 ^ 16 ≤ x.toNat := by rw [ne_eq, field_top_eq_zero x rfl, not_lt]
  refine ⟨fun hbad => Traps.word h rfl (fun _ => hpriv) (if_pos ((lineBad_eq_true x).2 hbad)), fun hgood => ?_,
    fun hbad => Traps.word h rfl (fun _ => hpriv) (if_pos (by rwa [hhigh, hagent])),
    fun hlow hag hbad => ?_, fun hlow hag hgood => dsprobe_awaits h hpriv hst hlow hag hgood⟩
  · intro home
    exact ⟨fun hnone => dsread_leaves (node := none) h hpriv hgood rfl hnone, fun n hsome => dsread_leaves (node := some n) h hpriv hgood rfl hsome⟩
  · have hoperand : ¬ (field x 16 48 ≠ 0 ∨ 0x50 ≤ field x 0 8) := by
      rw [hhigh, hagent]
      omega
    exact Traps.word h rfl (fun _ => hpriv) ((if_neg hoperand).trans (if_pos ((lineBad_eq_true y).2 hbad)))

/-- R407, R408: DSDONE and DSCLR. -/
theorem directoryCompletionResults : Claims.DirectoryCompletionResults := by
  intro s t h hpriv p a x token sl mine
  refine ⟨fun hbad => ?_, fun hsl hnone => ?_, fun q hsl hfind => ?_,
    fun hbad => Traps.word h rfl (fun _ => hpriv) (if_pos ((lineBad_eq_true x).2 hbad)), fun hgood => ?_⟩
  · exact Traps.word h rfl (fun _ => hpriv) (if_pos (by rwa [ne_eq, field_top_eq_zero x rfl, not_lt]))
  · exact dsdone_unknown h hpriv rfl hsl rfl hnone
  · intro q' s'
    have hdone := dsdone_finishes (p := p) h hpriv rfl hsl rfl hfind
    refine ⟨fun hwaits => ?_, fun _ _ hkind => hdone fun v => State.finishTxn_evict_keepsThreads hkind⟩
    have hgoes (v : State) : v.finishTxn sl q' = v := State.finishTxn_waits hwaits
    exact State.leaves2_setThr (hgoes (s'.setThr s.unit.tk { t with invalHeld := false }) ▸ hdone fun v => (hgoes v).symm ▸ .rfl)
  · intro line home
    obtain ⟨c, body, hi, hpriv, hb⟩ := dsclr_body (s := s) (p := p) hpriv hgood
    refine ⟨fun hnone => ?_, fun n hsome => ⟨fun hovf hbusy hacked => ?_, fun hkept => ?_⟩⟩
    · exact Goes.stays (pc := none) h hi hpriv (hb.trans (by rw [hnone]; rfl))
    · refine Leaves2.stays h hi hpriv ⟨rfl, rfl, fun _ => rfl⟩ (hb.trans ?_)
      rw [hsome, Option.elim_some, if_pos ⟨hovf, congrArg Bool.not hbusy, hacked⟩]
    · refine Goes.stays (pc := none) h hi hpriv (hb.trans ?_)
      rw [hsome, Option.elim_some, if_neg]
      rintro ⟨hovf, hbusy, hacked⟩
      have hidle : home.nodeBusy n = false := by simpa using hbusy
      rcases hkept with hno | hyes | hun
      · exact absurd (hovf.symm.trans hno) (by decide)
      · exact absurd (hyes.symm.trans hidle) (by decide)
      · exact hun hacked

/-- Settles O40: each instruction checks its operand and does its one operation at the line's home. -/
theorem directoryResults : Obligations.DirectoryResults := ⟨directoryReadResults, directoryCompletionResults⟩
end

section
/-!
SUPPORT. The end of a held capsule (R276, R279, R396), and slip edits (R397).
-/

namespace Sys2Proof.Machine

variable {s s' : State} {t u : Thread} {tk ck k off : Nat} {a : BitVec 5}

/-! ## Landing slots -/

/-- A slot that is given to the oldest request is given so beside any thread. -/
theorem State.grantOldest_setThr (s : State) (tk : Nat) (u : Thread) (ck : Nat) :
    (s.setThr tk u).grantOldest ck = (s.grantOldest ck).setThr tk u := by
  have hqueue : ((s.setThr tk u).cx ck).lreqs = (s.cx ck).lreqs := rfl
  have hfree : (s.setThr tk u).freeLanding ck = s.freeLanding ck := rfl
  unfold State.grantOldest
  rw [hqueue, hfree]
  cases (s.cx ck).lreqs with
  | nil => rfl
  | cons l rest => cases s.freeLanding ck <;> rfl

theorem State.releaseSlot_setThr (s : State) (tk : Nat) (u : Thread) (ck k : Nat) :
    (s.setThr tk u).releaseSlot ck k = (s.releaseSlot ck k).setThr tk u := by
  unfold State.releaseSlot
  rw [← State.grantOldest_setThr]
  rfl

theorem State.releaseSlot_keepsUnit (s : State) (ck k : Nat) : KeepsUnit s (s.releaseSlot ck k) := by
  unfold State.releaseSlot State.grantOldest
  split <;> exact ⟨rfl, rfl, fun _ => rfl⟩

/-- Two changes of a context core in turn, the first of which leaves it other than at reset. -/
theorem State.modCx_modCx_of_ne (f g : CtxCore → CtxCore) (hf : f (s.cx ck) ≠ {}) : (s.modCx ck f).modCx ck g = s.modCx ck (g ∘ f) := by
  have hread : Tbl.get {} (Tbl.put {} s.ctx ck (f (s.cx ck))) ck = f (s.cx ck) := Tbl.get_put_ne_default _ _ _ _ hf
  have hwrite : Tbl.put {} (Tbl.put {} s.ctx ck (f (s.cx ck))) ck (g (f (s.cx ck))) = Tbl.put {} s.ctx ck (g (f (s.cx ck))) :=
    Tbl.put_put _ _ _ _ _ hf
  simp only [State.modCx, State.setCx, State.cx, Function.comp_apply] at hread hwrite ⊢
  rw [hread, hwrite]

/-- A written value other than the default makes an array non-empty. -/
theorem Tbl.put_ne_nil {α : Type} [DecidableEq α] {z x : α} (t : Tbl α) (n : Nat) (hx : x ≠ z) : Tbl.put z t n x ≠ [] := by
  intro hnil
  have hread := Tbl.get_put_ne_default z t n x hx
  rw [hnil] at hread
  exact hx hread.symm

/-- A slot whose capsule is written to the dead-letter buffer. -/
def CtxCore.killSlot (k : Nat) (c : CtxCore) : CtxCore :=
  { c with slots := Tbl.upd {} c.slots k fun y => { y with st := .deadwrite, holder := none } }

theorem CtxCore.killSlot_ne (k : Nat) (c : CtxCore) : c.killSlot k ≠ {} :=
  fun h => Tbl.put_ne_nil _ _ (by simp) (congrArg CtxCore.slots h)

/-- A slot that becomes a dead letter, with its entry. -/
theorem State.deadSlot_eq (s : State) (ck k : Nat) (d : DeadLetter) : s.deadSlot ck k d =
    (s.tickClock.modCx ck fun c => { c.killSlot k with dead := c.dead ++ [{ d with slot := some k, id := s.clock }] }).later
      (.deadLetter ck s.clock) := by
  have htwice := State.modCx_modCx_of_ne (s := s.tickClock) (ck := ck) (CtxCore.killSlot k)
    (fun c => { c with dead := c.dead ++ [{ d with slot := some k, id := s.clock }] }) (CtxCore.killSlot_ne k _)
  exact congrArg (State.later · (.deadLetter ck s.clock)) htwice

theorem State.imageAt_slot {a : Word} {n : Nat} (h : s.imageAt tk t a n = some (off, some k)) : a.toNat % 64 = 0 ∧ t.holds = some k := by
  simp only [State.imageAt] at h
  split at h
  · cases h
  next hplace =>
    refine ⟨by_contra fun hbad => hplace (.inr hbad), ?_⟩
    split at h
    · cases h
    · split at h
      · cases h
      · split at h
        · cases h
        · split at h
          · split at h
            next hheld => simp only [Option.some.injEq, Prod.mk.injEq] at h; exact h.2 ▸ hheld.1
            · cases h
          · cases h

/-- An address that names a held slot is its start. -/
theorem State.heldStart_some {a : Word} (h : s.heldStart tk t a = some k) : a.toNat % 64 = 0 ∧ t.holds = some k := by
  unfold State.heldStart at h
  split at h
  next hi =>
    split at h
    · cases h
      exact State.imageAt_slot hi
    · cases h
  · cases h

/-! ## Slip edits -/

section edit
variable {n : Names} {d : Option Nat} {f : Thread → CapHead → Option (Word × List (Nat × Nat × Nat))} {i : Instr} {w : Option Nat}
  (h : Alone s t) (hi : exec i s = slipOp n d a f s)
  (himage : s.imageAt s.unit.tk t (t.rg a.toNat) 256 = some (off, w))
include h hi himage

/-- A slip edit whose header or whose own condition fails. -/
theorem Traps.slip (hbad : (24 < capNslip (s.poolRead (ckOfTk s.unit.tk) off 256) ∨
      capNslip (s.poolRead (ckOfTk s.unit.tk) off 256) < capPos (s.poolRead (ckOfTk s.unit.tk) off 256)) ∨
      f t (s.poolRead (ckOfTk s.unit.tk) off 256) = none) : Traps i s Cause.capsule (t.rg a.toNat) := by
  refine Traps.word h hi (by simp) ?_
  simp only [h.thread, himage]
  rcases hbad with hhead | hnone
  · rw [if_pos hhead]
  · rw [hnone]
    exact ite_self _

/-- The writes of a slip edit, in order. -/
def slipWrites (s : State) (ck off : Nat) (l : List (Nat × Nat × Nat)) : State :=
  l.foldl (fun s w => s.poolWrite ck (off + w.1) (leBytes w.2.1 w.2.2)) s

variable (hfree : s.jobHolds s.unit.tk (.pool (ckOfTk s.unit.tk) off) 256 true = false)
  (hclean : s.poolPoison (ckOfTk s.unit.tk) off 256 = none) {r : Word} {writes : List (Nat × Nat × Nat)}
  (hhead : capNslip (s.poolRead (ckOfTk s.unit.tk) off 256) ≤ 24 ∧
    capPos (s.poolRead (ckOfTk s.unit.tk) off 256) ≤ capNslip (s.poolRead (ckOfTk s.unit.tk) off 256))
  (hf : f t (s.poolRead (ckOfTk s.unit.tk) off 256) = some (r, writes))
include hfree hclean hhead hf

omit h hi in
theorem slip_body (hthr : s.thr s.unit.tk = some t) : ∃ body, slipOp n d a f s = issueC { n := n, mem := true } body s ∧ body t s =
    .done (d.elim (slipWrites s (ckOfTk s.unit.tk) off writes) fun k =>
      (slipWrites s (ckOfTk s.unit.tk) off writes).writeG s.unit.tk k r) none := by
  have hgood : ¬ (24 < capNslip (s.poolRead (ckOfTk s.unit.tk) off 256) ∨
      capNslip (s.poolRead (ckOfTk s.unit.tk) off 256) < capPos (s.poolRead (ckOfTk s.unit.tk) off 256)) := by omega
  refine ⟨_, rfl, ?_⟩
  simp only [hthr, himage, hgood, hf, hfree, hclean, Bool.false_eq_true, if_false]
  cases d <;> rfl

omit hfree hclean hhead hf h hi himage in
theorem slipWrites_keepsUnit (s : State) (ck off : Nat) (l : List (Nat × Nat × Nat)) : KeepsUnit s (slipWrites s ck off l) := by
  induction l generalizing s with
  | nil => exact .rfl
  | cons w l ih =>
    have hfirst : KeepsUnit s (s.poolWrite ck (off + w.1) (leBytes w.2.1 w.2.2)) := ⟨rfl, rfl, fun _ => rfl⟩
    exact hfirst.trans (ih _)

/-- A slip edit with a register for its result. -/
theorem Leaves2.slipRead (hd : d = some k) : Leaves2 i s (slipWrites s (ckOfTk s.unit.tk) off writes) (t.wg k r) := by
  obtain ⟨body, hbody, hb⟩ := slip_body (n := n) (d := d) himage hfree hclean hhead hf h.thread
  have hk := slipWrites_keepsUnit s (ckOfTk s.unit.tk) off writes
  refine Leaves2.word h (hi.trans hbody) (by simp) hk (hb.trans ?_) (by simpa using h.flumes) (by simpa using h.pend) (by simp)
  rw [hd, Option.elim_some, State.writeG_plain _ _ _ t ((hk.thr _).trans h.thread) h.ports]

/-- A slip edit without one. -/
theorem Leaves2.slipWrite (hd : d = none) : Leaves2 i s (slipWrites s (ckOfTk s.unit.tk) off writes) t := by
  obtain ⟨body, hbody, hb⟩ := slip_body (n := n) (d := d) himage hfree hclean hhead hf h.thread
  exact Leaves2.stays h (hi.trans hbody) (by simp) (slipWrites_keepsUnit ..) (hb.trans (by rw [hd]; rfl))

end edit

/-! ## What each edit does to the header (R397) -/

/-- CAPPOP. -/
def popEdit (_ : Thread) (h : CapHead) : Option (Word × List (Nat × Nat × Nat)) :=
  if capNslip h ≤ capPos h then none else some (word (capSlip h (capPos h)), [(6, 1, capPos h + 1)])

/-- CAPPUSH: the entries from POS move up by one, and the new one takes its place. -/
def pushEdit (b : BitVec 5) (v : Thread) (h : CapHead) : Option (Word × List (Nat × Nat × Nat)) :=
  if capNslip h = 24 then none
  else some (0, ((List.range (capNslip h - capPos h)).map fun i => (0x48 + 8 * (capPos h + i), 8, capSlip h (capPos h + i))) ++
    [(0x40 + 8 * capPos h, 8, (v.rg b.toNat).toNat), (7, 1, capNslip h + 1)])

/-- CAPSET. -/
def setEdit (b c : BitVec 5) (v : Thread) (h : CapHead) : Option (Word × List (Nat × Nat × Nat)) :=
  if capNslip h - capPos h ≤ (v.rg c.toNat).toNat then none
  else some (0, [(0x40 + 8 * (capPos h + (v.rg c.toNat).toNat), 8, (v.rg b.toNat).toNat)])

/-- CAPGET. -/
def getEdit (c : BitVec 5) (v : Thread) (h : CapHead) : Option (Word × List (Nat × Nat × Nat)) :=
  if capNslip h - capPos h ≤ (v.rg c.toNat).toNat then none else some (word (capSlip h (capPos h + (v.rg c.toNat).toNat)), [])

/-- CAPSKIP. -/
def skipEdit (b : BitVec 5) (v : Thread) (h : CapHead) : Option (Word × List (Nat × Nat × Nat)) :=
  if capNslip h - capPos h < (v.rg b.toNat).toNat then none else some (0, [(6, 1, capPos h + (v.rg b.toNat).toNat)])

section form
variable {p : Bool} {d b c : BitVec 5}

theorem cappop_edit : exec (.cappop p d a) s = slipOp { gs := [a.toNat], gd := [d.toNat] } (some d.toNat) a popEdit s := rfl
theorem cappush_edit : exec (.cappush p a b) s = slipOp { gs := [a.toNat, b.toNat] } none a (pushEdit b) s := rfl
theorem capset_edit : exec (.capset p a b c) s = slipOp { gs := [a.toNat, b.toNat, c.toNat] } none a (setEdit b c) s := rfl
theorem capget_edit : exec (.capget p d a c) s = slipOp { gs := [a.toNat, c.toNat], gd := [d.toNat] } (some d.toNat) a (getEdit c) s := rfl
theorem capskip_edit : exec (.capskip p a b) s = slipOp { gs := [a.toNat, b.toNat] } none a (skipEdit b) s := rfl

end form

/-- The writes of CAPPUSH: entry by entry, then the new one, then NSLIP. -/
theorem slipWrites_push (s : State) (ck off pos m nslip x : Nat) (entry : Nat → Nat) :
    slipWrites s ck off (((List.range m).map fun i => (0x48 + 8 * (pos + i), 8, entry i)) ++
      [(0x40 + 8 * pos, 8, x), (7, 1, nslip + 1)]) =
    ((((List.range m).foldl (fun s i => s.poolWrite ck (off + (0x40 + 8 * (pos + i + 1))) (leBytes 8 (entry i))) s).poolWrite ck
      (off + (0x40 + 8 * pos)) (leBytes 8 x)).poolWrite ck (off + 7) (leBytes 1 (nslip + 1))) := by
  have hplace (i : Nat) : 0x48 + 8 * (pos + i) = 0x40 + 8 * (pos + i + 1) := by omega
  simp only [slipWrites, List.foldl_append, List.foldl_map, List.foldl_cons, List.foldl_nil, hplace]

end Sys2Proof.Machine
end

section
/-!
CERTIFICATE. The end of a held capsule, and slip edits.
-/

open Sys2Proof Sys2Proof.Machine

/-- R276, R279, R396: CAPDROP and CAPDEAD. -/
theorem capsuleEndResults : Claims.CapsuleEndResults := by
  intro s t h p a b tk ck x
  refine ⟨fun hnone => ⟨Traps.word h rfl (by simp) ?_, Traps.word h rfl (by simp) ?_⟩,
    fun k hsome => ⟨State.heldStart_some hsome, Leaves2.word h rfl (by simp) (State.releaseSlot_keepsUnit s ck k) ?_ h.flumes h.pend rfl,
      Leaves2.word h rfl (by simp) ⟨rfl, rfl, fun _ => rfl⟩ ?_ h.flumes h.pend rfl⟩⟩
  · simp only [h.thread]
    rw [show s.heldStart s.unit.tk t (t.rg a.toNat) = none from hnone]
  · simp only [h.thread]
    rw [show s.heldStart s.unit.tk t (t.rg a.toNat) = none from hnone]
  · simp only [h.thread]
    rw [show s.heldStart s.unit.tk t (t.rg a.toNat) = some k from hsome, State.modThr_some s _ t _ h.thread]
    simp only [State.releaseSlot_setThr]
    rfl
  · have hcode : field (t.rg b.toNat) 0 8 = (t.rg b.toNat).toNat % 256 := Laws.field_low _ 8
    simp only [h.thread]
    rw [show s.heldStart s.unit.tk t (t.rg a.toNat) = some k from hsome]
    simp only [State.deadLetterHeld, h.thread, (State.heldStart_some hsome).2, State.deadSlot_eq, hcode]
    rw [State.modThr_some _ _ t _ (by exact h.thread)]
    rfl

/-- R397: the slip edits. -/
theorem slipEditResults : Claims.SlipEditResults := by
  intro s t h p d a b c off w tk ck x himage hfree hclean hd pos nslip entry nb nc pos1 put
  refine ⟨fun hbad i hi => ?_, fun hfits hpos => ⟨fun hmore => ?_, fun hend => ?_, fun hroom => ?_, fun hfull => ?_,
    fun hin => ⟨?_, ?_⟩, fun hout => ⟨?_, ?_⟩, fun hskip => ?_, fun hover => ?_⟩⟩
  · simp only [List.mem_cons, List.not_mem_nil, or_false] at hi
    obtain rfl | rfl | rfl | rfl | rfl := hi
    · exact Traps.slip h cappop_edit himage (.inl hbad)
    · exact Traps.slip h cappush_edit himage (.inl hbad)
    · exact Traps.slip h capset_edit himage (.inl hbad)
    · exact Traps.slip h capget_edit himage (.inl hbad)
    · exact Traps.slip h capskip_edit himage (.inl hbad)
  · exact Leaves2.slipRead h cappop_edit himage hfree hclean ⟨hfits, hpos⟩ (if_neg (Nat.not_le.2 hmore)) rfl
  · exact Traps.slip h cappop_edit himage (.inr (if_pos hend.ge))
  · have hdone := Leaves2.slipWrite h (cappush_edit (p := p) (b := b)) himage hfree hclean ⟨hfits, hpos⟩ (if_neg hroom.ne) rfl
    rwa [slipWrites_push] at hdone
  · exact Traps.slip h cappush_edit himage (.inr (if_pos hfull))
  · exact Leaves2.slipWrite h capset_edit himage hfree hclean ⟨hfits, hpos⟩ (if_neg (Nat.not_le.2 hin)) rfl
  · exact Leaves2.slipRead h capget_edit himage hfree hclean ⟨hfits, hpos⟩ (if_neg (Nat.not_le.2 hin)) rfl
  · exact Traps.slip h capset_edit himage (.inr (if_pos hout))
  · exact Traps.slip h capget_edit himage (.inr (if_pos hout))
  · exact Leaves2.slipWrite h capskip_edit himage hfree hclean ⟨hfits, hpos⟩ (if_neg (Nat.not_lt.2 hskip)) rfl
  · exact Traps.slip h capskip_edit himage (.inr (if_pos hover))

/-- Settles O43: the ends of a hold by the slot they name, the edits by their writes to the header. -/
theorem capsuleEndAndSlipResults : Obligations.CapsuleEndAndSlipResults := ⟨capsuleEndResults, slipEditResults⟩
end

section
/-!
SUPPORT. Sending a capsule: the checks, the dead letters of the sender, and the hand-over to the interface (R274 to R276, R281).
-/

namespace Sys2Proof.Machine

variable {s s' : State} {t u : Thread} {tk ck off la : Nat} {x : Word} {ret : Bool} {slot : Option Nat}

/-! ## Dead letters of the sender -/

/-- What the thread holds after its capsule has left: nothing, where it was in a slot. -/
def Thread.afterSend (t : Thread) (slot : Option Nat) : Thread := { t with holds := if slot.isSome then none else t.holds }

theorem State.deadSend_keeps (hthr : s.thr tk = some t) (slot : Option Nat) (reason : Nat) (val : Word) :
    (s.deadSend tk off slot reason val).thr tk = some (t.afterSend slot) ∧ (s.deadSend tk off slot reason val).unit = s.unit ∧
      (s.deadSend tk off slot reason val).clusters = s.clusters := by
  cases slot with
  | none => exact ⟨hthr, rfl, rfl⟩
  | some k =>
    have hheld (d : DeadLetter) : (s.deadSlot (ckOfTk tk) k d).thr tk = some t := hthr
    simp only [State.deadSend, State.modThr_some _ _ t _ (hheld _)]
    exact ⟨State.thr_setThr .., rfl, rfl⟩

/-- A word after which the thread's capsule is a dead letter. -/
theorem Leaves2.deadLetters {i : Instr} {c : CSpec} {body : Thread → State → CRes} {reason : Nat} {val : Word} (h : Alone s t)
    (hi : exec i s = issueC c body s) (hpriv : c.priv = false) (hk : KeepsUnit s s')
    (hclusters : s'.clusters = s.clusters) (hb : body t s = .done (s'.deadSend s.unit.tk off slot reason val) none) :
    Leaves2 i s (s'.deadSend s.unit.tk off slot reason val) (t.afterSend slot) := by
  obtain ⟨hthr, hunit, hkept⟩ := State.deadSend_keeps (off := off) ((hk.thr _).trans h.thread) slot reason val
  exact issueC_leaves (pc := none) h hi (by simp [hpriv]) hb hthr h.flumes h.pend rfl (hunit.trans hk.unit) (hkept.trans hclusters)

/-! ## The entry's destination (R273, R281) -/

/-- The counter of DKIND 1 advances. -/
def State.advanceCtr (s : State) (ck : Nat) : Option Nat → State
  | some c => s.modCx ck fun x => { x with capCtr := Tbl.upd 0 x.capCtr c fun n => (n + 1) % 4 }
  | none => s

theorem State.advanceCtr_keepsUnit (s : State) (ck : Nat) (ctr : Option Nat) : KeepsUnit s (s.advanceCtr ck ctr) := by
  cases ctr <;> exact ⟨rfl, rfl, fun _ => rfl⟩

section entry
variable {h : CapHead} {e k : Nat} {ctr : Option Nat}

theorem State.sendEntry_unresolved (hdest : s.capDest (ckOfTk tk) h e = none) :
    s.sendEntry tk la off slot h e ret = s.deadSend tk off slot 4 (word e) := by
  simp only [State.sendEntry, hdest]

theorem State.sendEntry_unreachable (hdest : s.capDest (ckOfTk tk) h e = some (k, ctr)) (hgone : s.unreachable k = true) :
    s.sendEntry tk la off slot h e ret = s.deadSend tk off slot 4 (word e) := by
  simp only [State.sendEntry, hdest, hgone, if_true]

theorem State.sendEntry_reachable (hdest : s.capDest (ckOfTk tk) h e = some (k, ctr)) (hthere : s.unreachable k = false) :
    s.sendEntry tk la off slot h e ret = (s.advanceCtr (ckOfTk tk) ctr).handOver tk la off slot k e ret := by
  simp only [State.sendEntry, hdest, hthere, Bool.false_eq_true, if_false]
  cases ctr <;> rfl

end entry

/-! ## The hand-over -/

theorem State.handOver_slot {j k e : Nat} (hthr : s.thr s.unit.tk = some t) :
    s.handOver s.unit.tk la off (some j) k e ret = (capsuleHanded s off (some j) none k e ret).setThr s.unit.tk { t with holds := none } := by
  simp only [State.handOver]
  rw [State.modThr_some _ _ t _ (by exact hthr)]
  rfl

theorem State.handOver_general {k e : Nat} (hlone : s.unit.phase = .lone) (hthr : s.thr s.unit.tk = some t) (hpend : t.pend = []) :
    s.handOver s.unit.tk la off none k e ret = (capsuleHanded s off none (some s.clock) k e ret).setThr s.unit.tk
      { t with pend := [{ id := s.clock, kind := .capsule, window := la + 1, upc := s.unit.addr, lanes := [{}] }] } := by
  simp only [State.handOver]
  rw [State.addPend_one hlone hthr hpend]
  rfl

theorem capsuleHanded_keepsUnit (s : State) (off : Nat) (slot pend : Option Nat) (k e : Nat) (ret : Bool) :
    KeepsUnit s (capsuleHanded s off slot pend k e ret) := by
  cases slot <;> exact ⟨rfl, rfl, fun _ => rfl⟩

/-! ## The checks (R274, R275) -/

/-- The entry that names the destination: the owner's for CAPRET, that at POS for CAPSEND. -/
def sendEntryOf (ret : Bool) (h : CapHead) : Nat := if ret then capretEntry else capSlip h (capPos h)

/-- A header that R275 turns away. -/
def SendBad (ret : Bool) (h : CapHead) : Prop :=
  capTlen h % 64 ≠ 0 ∨ 16384 < capTlen h ∨ 24 < capNslip h ∨ capNslip h < capPos h ∨ capReserved h = true ∨
    (ret = false ∧ capPos h < capNslip h ∧ entryBad (sendEntryOf ret h) = true)

section checks
variable {w : Option Nat} {off' : Nat} {h : CapHead} (hthr : s.thr s.unit.tk = some t)
include hthr

theorem State.capsend_misplaced (himage : s.imageAt s.unit.tk t x 256 = none) : s.capsend x la ret = .trap Cause.capsule x := by
  simp only [State.capsend, hthr, himage]

variable (himage : s.imageAt s.unit.tk t x 256 = some (off, w)) (hh : s.poolRead (ckOfTk s.unit.tk) off 256 = h)
include himage hh

theorem State.capsend_cut (hwhole : s.imageAt s.unit.tk t x (256 + capTlen h) = none) : s.capsend x la ret = .trap Cause.capsule x := by
  simp only [State.capsend, hthr, himage, hh, hwhole]

variable (hwhole : s.imageAt s.unit.tk t x (256 + capTlen h) = some (off', slot))
include hwhole

theorem State.capsend_bad (hbad : SendBad ret h) : s.capsend x la ret = .trap Cause.capsule x := by
  simp only [State.capsend, hthr, himage, hh, hwhole]
  refine if_pos ?_
  simpa [SendBad, sendEntryOf] using hbad

/-- The machine with the region number, and for CAPSEND the advanced POS, in the header (R276). -/
def State.sendMarked (s : State) (ck off pos : Nat) (ret : Bool) : State :=
  if ret then s.poolWrite ck (off + 4) (leBytes 1 (regionOfCk ck))
  else (s.poolWrite ck (off + 4) (leBytes 1 (regionOfCk ck))).poolWrite ck (off + 6) (leBytes 1 (pos + 1))

omit hthr himage hh hwhole in
theorem State.sendMarked_keeps (s : State) (ck off pos : Nat) (ret : Bool) :
    KeepsUnit s (s.sendMarked ck off pos ret) ∧ (s.sendMarked ck off pos ret).clusters = s.clusters := by
  cases ret <;> exact ⟨⟨rfl, rfl, fun _ => rfl⟩, rfl⟩

/-- What CAPSEND and CAPRET do with an image that passes the checks, at a free interface. -/
theorem State.capsend_good (hgood : ¬ SendBad ret h) (hclean : s.poolPoison (ckOfTk s.unit.tk) off 256 = none)
    (hroom : (s.cx (ckOfTk s.unit.tk)).outcaps.length < 8)
    (hfree : s.jobHolds s.unit.tk (.pool (ckOfTk s.unit.tk) off) (256 + capTlen h) true = false) (hperformed : t.performed = true) :
    s.capsend x la ret = .done (
      if ret = false ∧ capPos h = capNslip h then s.deadSend s.unit.tk off slot 3 0
      else if capHops h = 255 then s.deadSend s.unit.tk off slot 5 0
      else (s.sendMarked (ckOfTk s.unit.tk) off (capPos h) ret).sendEntry s.unit.tk la off slot h (sendEntryOf ret h) ret) none := by
  simp only [State.capsend, hthr, himage, hh, hwhole]
  rw [if_neg (by simpa [SendBad, sendEntryOf] using hgood)]
  simp only [hclean, hperformed, hfree, Nat.not_le.2 hroom, Bool.not_true, Bool.false_eq_true, or_self, if_false, Bool.not_eq_true',
    apply_ite (CRes.done · none)]
  rfl

end checks

/-! ## The instructions -/

section word
variable {i : Instr} {c : CSpec} {body : Thread → State → CRes} {h' : CapHead} {w : Option Nat} {off' : Nat} (h : Alone s t)
  (hi : exec i s = issueC c body s) (hpriv : c.priv = false) (hb : body t s = s.capsend x la ret)
  (himage : s.imageAt s.unit.tk t x 256 = some (off, w)) (hh : s.poolRead (ckOfTk s.unit.tk) off 256 = h')
  (hwhole : s.imageAt s.unit.tk t x (256 + capTlen h') = some (off', slot)) (hgood : ¬ SendBad ret h')
  (hclean : s.poolPoison (ckOfTk s.unit.tk) off 256 = none) (hroom : (s.cx (ckOfTk s.unit.tk)).outcaps.length < 8)
  (hfree : s.jobHolds s.unit.tk (.pool (ckOfTk s.unit.tk) off) (256 + capTlen h') true = false) (hperformed : t.performed = true)
include h hi hpriv hb himage hh hwhole hgood hclean hroom hfree hperformed

theorem Leaves2.slipEnds (hsend : ret = false) (hend : capPos h' = capNslip h') :
    Leaves2 i s (s.deadSend s.unit.tk off slot 3 0) (t.afterSend slot) :=
  Leaves2.deadLetters h hi hpriv .rfl rfl (hb.trans ((State.capsend_good h.thread himage hh hwhole hgood hclean hroom hfree hperformed).trans
    (by rw [if_pos ⟨hsend, hend⟩])))

variable (hmore : ret = true ∨ capPos h' ≠ capNslip h')
include hmore

theorem Leaves2.hopsEnd (hhops : capHops h' = 255) : Leaves2 i s (s.deadSend s.unit.tk off slot 5 0) (t.afterSend slot) := by
  have hnot : ¬ (ret = false ∧ capPos h' = capNslip h') := fun ⟨hsend, hend⟩ => hmore.elim (by simp [hsend]) (absurd hend)
  exact Leaves2.deadLetters h hi hpriv .rfl rfl (hb.trans ((State.capsend_good h.thread himage hh hwhole hgood hclean hroom hfree hperformed).trans
    (by rw [if_neg hnot, if_pos hhops])))

variable (hhops : capHops h' ≠ 255)
include hhops

omit hi hpriv in
/-- With hops left the entry decides. -/
theorem sends_entry : body t s = .done ((s.sendMarked (ckOfTk s.unit.tk) off (capPos h') ret).sendEntry s.unit.tk la off slot h'
    (sendEntryOf ret h') ret) none := by
  have hnot : ¬ (ret = false ∧ capPos h' = capNslip h') := fun ⟨hsend, hend⟩ => hmore.elim (by simp [hsend]) (absurd hend)
  rw [hb, State.capsend_good h.thread himage hh hwhole hgood hclean hroom hfree hperformed, if_neg hnot, if_neg hhops]

end word

section handed
variable {i : Instr} {c : CSpec} {body : Thread → State → CRes} {k e : Nat} (h : Alone s t) (hi : exec i s = issueC c body s)
  (hpriv : c.priv = false) (hk : KeepsUnit s s')
include h hi hpriv hk

/-- A capsule that leaves a landing slot. -/
theorem Leaves2.handsSlot {j : Nat} (hb : body t s = .done (s'.handOver s.unit.tk la off (some j) k e ret) none) :
    Leaves2 i s (capsuleHanded s' off (some j) none k e ret) { t with holds := none } := by
  refine Leaves2.word h hi (by simp [hpriv]) (hk.trans (capsuleHanded_keepsUnit ..)) (hb.trans ?_) h.flumes h.pend rfl
  have hthr : s'.thr s'.unit.tk = some t := hk.unit.symm ▸ (hk.thr _).trans h.thread
  rw [← hk.unit, State.handOver_slot hthr]

/-- A capsule that leaves general scratchpad. -/
theorem Awaits.handsGeneral (hready : t.st = .ready) (hb : body t s = .done (s'.handOver s.unit.tk la off none k e ret) none) :
    Awaits i s (capsuleHanded s' off none (some s'.clock) k e ret) t
      { id := s'.clock, kind := .capsule, window := la, upc := s.unit.addr, lanes := [{}] } := by
  have hlone : s'.unit.phase = .lone := hk.unit.symm ▸ h.lone
  refine Awaits.opens (u := t) (la := la) (q := { id := s'.clock, kind := .capsule, upc := s.unit.addr, lanes := [{}] }) h hi (by simp [hpriv])
    (hk.trans (capsuleHanded_keepsUnit ..)) (hb.trans ?_) h.flumes rfl hready
  have hthr : s'.thr s'.unit.tk = some t := hk.unit.symm ▸ (hk.thr _).trans h.thread
  rw [← hk.unit, State.handOver_general hlone hthr h.pend]

end handed

/-- CAPSEND and CAPRET are words that send the image at g a. -/
theorem capsends_word {p : Bool} {a : BitVec 5} {l : BitVec 4} {i : Instr}
    (hi : (i, ret, la) ∈ [(Instr.capsend p a l, false, l.toNat), (.capret p a, true, 0)]) :
    ∃ c body, exec i s = issueC c body s ∧ c.priv = false ∧ body t s = s.capsend (t.rg a.toNat) la ret := by
  simp only [List.mem_cons, Prod.mk.injEq, List.not_mem_nil, or_false] at hi
  obtain ⟨rfl, rfl, rfl⟩ | ⟨rfl, rfl, rfl⟩ := hi <;> exact ⟨_, _, rfl, rfl, rfl⟩

end Sys2Proof.Machine
end

section
/-!
CERTIFICATE. Sending a capsule.
-/

open Sys2Proof Sys2Proof.Machine

/-- Settles O13: the image and its header are checked in order, then the slip's end, the hop limit and the entry's destination. -/
theorem capsuleSendResults : Obligations.CapsuleSendResults := by
  unfold Obligations.CapsuleSendResults
  intro s t h hready hsbuf hremote p a l i ret la hform tk ck x
  obtain ⟨c, body, hi, hpriv, hb⟩ := capsends_word (s := s) (t := t) hform
  have hperformed : t.performed = true := (Thread.performed_iff h.pend).2 ⟨hsbuf, hremote⟩
  have htrap (hcause : s.capsend x la ret = .trap Cause.capsule x) : Traps i s Cause.capsule x :=
    Traps.word h hi (by simp [hpriv]) (hb.trans hcause)
  refine ⟨fun hnone => htrap (State.capsend_misplaced h.thread hnone), fun off w himage => ?_⟩
  intro hd pos e
  refine ⟨fun hnone => htrap (State.capsend_cut h.thread himage rfl hnone), fun slot hwhole => ?_⟩
  intro bad left
  refine ⟨fun hbad => htrap (State.capsend_bad h.thread himage rfl hwhole hbad), fun hgood hclean hroom hfree => ?_⟩
  refine ⟨Leaves2.slipEnds h hi hpriv hb himage rfl hwhole hgood hclean hroom hfree hperformed,
    Leaves2.hopsEnd h hi hpriv hb himage rfl hwhole hgood hclean hroom hfree hperformed, fun hmore hhops => ?_⟩
  have hsent := sends_entry h hb himage rfl hwhole hgood hclean hroom hfree hperformed hmore hhops
  obtain ⟨hk, hclusters⟩ := State.sendMarked_keeps s ck off pos ret
  intro s0 s1
  have hdead (hcase : s1.sendEntry tk la off slot hd e ret = s1.deadSend tk off slot 4 (word e)) :
      Leaves2 i s (s1.deadSend tk off slot 4 (word e)) left :=
    Leaves2.deadLetters h hi hpriv hk hclusters (hsent.trans (congrArg (CRes.done · none) hcase))
  refine ⟨fun hdest => hdead (State.sendEntry_unresolved hdest), fun k ctr hdest =>
    ⟨fun hgone => hdead (State.sendEntry_unreachable hdest hgone), fun hthere => ?_⟩⟩
  have hgoes : body t s = .done ((s1.advanceCtr ck ctr).handOver tk la off slot k e ret) none :=
    hsent.trans (congrArg (CRes.done · none) (State.sendEntry_reachable hdest hthere))
  have hk2 := hk.trans (State.advanceCtr_keepsUnit s1 ck ctr)
  intro s2
  have hs2 : s2 = s1.advanceCtr ck ctr := by cases ctr <;> rfl
  rw [hs2]
  refine ⟨fun j hj => hj.symm ▸ Leaves2.handsSlot h hi hpriv hk2 (hj ▸ hgoes), fun hnone => Awaits.handsGeneral h hi hpriv hk2 hready (hnone ▸ hgoes)⟩
end

section
/-!
SUPPORT. Tile moves and the matrix context (R263, R416, R420 to R422).
-/

namespace Sys2Proof.Machine

variable {s : State} {t : Thread} {x : Word} {ty : Ty} {z : BitVec 4} {ck n : Nat}

/-! ## Tiles and control words -/

/-- The tile that an operand names. -/
theorem Thread.tile_eq (t : Thread) (z : BitVec 4) : t.tile z = t.zbase.toNat % 256 + z.toNat := by
  rw [Thread.tile, Laws.field_low]
  rfl

/-- A job that leaves an access to store alone leaves one to load alone. -/
theorem State.jobHolds_load {tk n : Nat} {tgt : Target} (h : s.jobHolds tk tgt n true = false) : s.jobHolds tk tgt n false = false := by
  simp only [State.jobHolds, List.any_eq_false, Bool.true_and, Bool.false_and, Bool.or_false, Bool.and_eq_true, Bool.or_eq_true,
    not_and, not_or] at h ⊢
  exact fun c hc htk => (h c hc htk).1

/-- The element of a lane, as R422 gives it. -/
theorem moveEl_eq (x : Word) (w k : Nat) : moveEl x w k =
    if w = 32 then (x.toNat % 32, 16 * (x.toNat / 32 % 2) + k) else if w = 16 then (x.toNat % 32, k) else (x.toNat % 32 + k / 32, k % 32) := by
  simp only [moveEl, field, bits, Nat.pow_zero, Nat.div_one]
  rfl

/-! ## Reading and writing a tile -/

/-- Writes whose places the writes themselves do not move. -/
theorem foldS_poolWrite {f : State → Nat → Nat} (hf : ∀ (u : State) off l, f (u.poolWrite ck off l) = f u) (data : Nat → List Byte) (l : List Nat)
    (s : State) : foldS (fun i (u : State) => u.poolWrite ck (f u i) (data i)) l s =
      l.foldl (fun (u : State) i => u.poolWrite ck (f s i) (data i)) s := by
  induction l generalizing s with
  | nil => rfl
  | cons i l ih =>
    simp only [foldS, List.foldl_cons] at ih ⊢
    rw [ih, hf]

/-- The rows of a tile of zeros. -/
theorem tileWrite_zero (s : State) (ck n : Nat) : s.tileWrite ck n 32 32 (Tile.ofFn fun _ _ => 0) =
    (List.range 32).foldl (fun (u : State) i => u.poolWrite ck (s.tileOff ck n i 0) (List.replicate 128 0)) s := by
  have hrow {i : Nat} (hi : i < 32) : (((Tile.ofFn fun _ _ => 0).getD i []).take 32).flatMap (leBytes 4) = List.replicate 128 0 := by
    have hzeros : (Tile.ofFn fun _ _ => 0).getD i [] = List.replicate 32 0 := by
      rw [Tile.ofFn, List.getD_eq_getElem _ _ (by simpa using hi), List.getElem_map]
      rfl
    rw [hzeros]
    rfl
  unfold State.tileWrite
  rw [foldS_poolWrite (f := fun (u : State) i => u.tileOff ck n i 0) (fun _ _ _ => rfl)]
  exact List.foldl_ext _ _ _ fun u i hi => by rw [hrow (List.mem_range.1 hi)]

theorem leNat_append (l l' : List Byte) : leNat (l ++ l') = leNat l + 2 ^ (8 * l.length) * leNat l' := by
  induction l with
  | nil => simp [leNat]
  | cons b l ih =>
    have hpow : 2 ^ (8 * (l.length + 1)) = 256 * 2 ^ (8 * l.length) := by rw [Nat.mul_succ, Nat.pow_add, Nat.mul_comm]
    rw [List.cons_append, leNat, leNat, ih, List.length_cons, hpow, Nat.mul_add, Nat.add_assoc, Nat.mul_assoc]

/-- Bytes of a pool in two parts. -/
theorem State.poolRead_add (s : State) (ck off m n : Nat) :
    s.poolRead ck off (m + n) = s.poolRead ck off m + 2 ^ (8 * m) * s.poolRead ck (off + m) n := by
  rw [State.poolRead, List.range_add, List.map_append, leNat_append, List.map_map, List.length_map, List.length_range]
  simp only [State.poolRead, Function.comp_def, Nat.add_assoc]

theorem bytesAt_poolRead_halves (s : State) (ck off : Nat) :
    bytesAt (putBytes 0 0 16 (s.poolRead ck off 16)) 0 8 = s.poolRead ck off 8 ∧
      bytesAt (putBytes 0 0 16 (s.poolRead ck off 16)) 8 8 = s.poolRead ck (off + 8) 8 := by
  have hwhole := bytesAt_putBytes_zero 0 (by decide : 16 ≤ 64) (s.poolRead_lt ck off 16)
  have hparts := s.poolRead_add ck off 8 8
  have hlow := s.poolRead_lt ck off 8
  have hhigh := s.poolRead_lt ck (off + 8) 8
  simp only [bytesAt, Nat.reduceMul, Nat.reduceAdd, Nat.pow_zero, Nat.div_one] at hwhole hparts hlow hhigh ⊢
  omega

section move
variable {p : Bool} {v a : BitVec 5} {l : BitVec 4} (h : Alone s t)
include h

/-- A tile beyond the store. -/
theorem tile_beyond (hbeyond : s.tileCount (ckOfTk s.unit.tk) ≤ t.tile z) :
    Traps (.zrd p v a z ty l) s Cause.access (word (t.tile z)) ∧ Traps (.zwr p v a z ty l) s Cause.access (word (t.tile z)) ∧
      Traps (.mclr p z l) s Cause.access (word (t.tile z)) :=
  ⟨Traps.word h rfl (by simp) (if_pos hbeyond), Traps.word h rfl (by simp) (if_pos hbeyond), Traps.word h rfl (by simp) (if_pos hbeyond)⟩

variable (hin : t.tile z < s.tileCount (ckOfTk s.unit.tk))
include hin

/-- A control word that R422 turns away. -/
theorem zrd_badControl (hbad : moveBad (t.rg a.toNat) ty (moveAcc (t.rg a.toNat)) ty = true) :
    Traps (.zrd p v a z ty l) s Cause.matrixFmt (t.rg a.toNat) :=
  Traps.word h rfl (by simp) ((if_neg (Nat.not_le.2 hin)).trans (if_pos hbad))

theorem zwr_badControl (hbad : moveBad (t.rg a.toNat) ty ty (moveAcc (t.rg a.toNat)) = true) :
    Traps (.zwr p v a z ty l) s Cause.matrixFmt (t.rg a.toNat) :=
  Traps.word h rfl (by simp) ((if_neg (Nat.not_le.2 hin)).trans (if_pos hbad))

variable (hidle : s.factOn (ckOfTk s.unit.tk) (t.tile z) = false)
  (hfree : s.jobHolds s.unit.tk (.pool (ckOfTk s.unit.tk) (s.tileBase (ckOfTk s.unit.tk) (t.tile z))) 4096 true = false)
include hidle hfree

/-- The offset of a lane's element in the pool. -/
def State.elementAt (s : State) (ck n : Nat) (x : Word) (w k : Nat) : Nat := s.tileOff ck n (moveEl x w k).1 (moveEl x w k).2

theorem zrd_leaves (hgood : moveBad (t.rg a.toNat) ty (moveAcc (t.rg a.toNat)) ty = false)
    (hclean : ∀ k < 512 / ty.width, s.poolPoison (ckOfTk s.unit.tk)
      (s.elementAt (ckOfTk s.unit.tk) (t.tile z) (t.rg a.toNat) ty.width k) 4 = none) :
    Leaves (.zrd p v a z ty l) s (t.wv v.toNat (ofLanes ty.width fun k => moveConv (t.rg a.toNat) (moveAcc (t.rg a.toNat)) ty
      (s.poolRead (ckOfTk s.unit.tk) (s.elementAt (ckOfTk s.unit.tk) (t.tile z) (t.rg a.toNat) ty.width k) 4))) := by
  have hnone : ((List.range ty.lanes).findSome? fun k => s.poolPoison (ckOfTk s.unit.tk)
      (s.elementAt (ckOfTk s.unit.tk) (t.tile z) (t.rg a.toNat) ty.width k) 4) = none := by
    rw [List.findSome?_eq_none_iff]
    exact fun k hk => hclean k (List.mem_range.1 hk)
  refine Goes.word (pc := none) h rfl (by simp) ?_ (by simpa using h.flumes) (by simpa using h.pend) (by simp)
  refine (if_neg (Nat.not_le.2 hin)).trans ((if_neg (by rw [hgood]; decide)).trans ((if_neg (by simp [hidle, State.jobHolds_load hfree])).trans ?_))
  simp only [State.elementAt] at hnone
  simp only [hnone, State.bindFin_vec_plain h.thread h.flumes]
  rfl

theorem zwr_leaves (hgood : moveBad (t.rg a.toNat) ty ty (moveAcc (t.rg a.toNat)) = false) :
    Leaves2 (.zwr p v a z ty l) s ((List.range (512 / ty.width)).foldl (fun (u : State) k =>
      u.poolWrite (ckOfTk s.unit.tk) (s.elementAt (ckOfTk s.unit.tk) (t.tile z) (t.rg a.toNat) ty.width k)
        (leBytes 4 (moveConv (t.rg a.toNat) ty (moveAcc (t.rg a.toNat)) (lane ty.width (t.rv v.toNat) k)))) s) t := by
  refine Leaves2.stays h rfl (by simp) (poolWrites_keepsUnit (ck := fun _ => _) ..) ?_
  refine (if_neg (Nat.not_le.2 hin)).trans ((if_neg (by rw [hgood]; decide)).trans ((if_neg (by simp [hidle, hfree])).trans ?_))
  exact congrArg (CRes.done · none) (foldS_poolWrite (f := fun (u : State) k =>
    u.elementAt (ckOfTk s.unit.tk) (t.tile z) (t.rg a.toNat) ty.width k) (fun _ _ _ => rfl) ..)

omit v a in
theorem mclr_leaves : Leaves2 (.mclr p z l) s ((List.range 32).foldl (fun (u : State) i =>
    u.poolWrite (ckOfTk s.unit.tk) (s.tileOff (ckOfTk s.unit.tk) (t.tile z) i 0) (List.replicate 128 0)) s) t := by
  refine Leaves2.stays h rfl (by simp) (poolWrites_keepsUnit (ck := fun _ => _) ..) ?_
  refine (if_neg (Nat.not_le.2 hin)).trans ((if_neg (by simp [hidle, hfree])).trans ?_)
  exact congrArg (CRes.done · none) (tileWrite_zero ..)

end move

/-! ## The matrix context -/

theorem field_geom_low (w : Word) : field w 0 16 = w.toNat % 2 ^ 16 := Laws.field_low w 16

theorem field_geom_high (w : Word) : field w 16 16 = w.toNat / 2 ^ 16 % 2 ^ 16 := rfl

/-- The edge word of a tile whose coordinates fit their fields. -/
theorem medge_eq (g h : Nat) (m n r : Int) (k : Nat) : medge (g % 2 ^ 16) (h % 2 ^ 16) m n r k =
    BitVec.ofNat 64 ((if min 32 (max 0 (m - 32 * (h % 2 ^ 16 : Nat))) = 0 ∨ min 32 (max 0 (n - 32 * (g % 2 ^ 16 : Nat))) = 0 ∨
        min (k : Int) (max 0 r) = 0 then 2 ^ 63
      else (min 32 (max 0 (m - 32 * (h % 2 ^ 16 : Nat)))).toNat % 32 +
        (min 32 (max 0 (n - 32 * (g % 2 ^ 16 : Nat)))).toNat % 32 * 2 ^ 6 + (min (k : Int) (max 0 r)).toNat % k * 2 ^ 12) +
      h % 2 ^ 16 * 2 ^ 24 + g % 2 ^ 16 * 2 ^ 42) := by
  have hfits (y : Nat) : y % 2 ^ 16 % 2 ^ 18 = y % 2 ^ 16 := Nat.mod_eq_of_lt ((Nat.mod_lt y (by decide)).trans (by decide))
  simp only [medge, hfits, Bool.or_eq_true, beq_iff_eq, or_assoc]
  rfl

section context
variable {p : Bool} {d a b c : BitVec 5} (h : Alone s t)
include h

/-- MEDGE where the formats of FMTCTX pair. -/
theorem medge_leaves {k : Nat × Bool} (hk : shapeK t.fmtctx = some k) {e : Word}
    (he : medge (field t.geom1 0 16) (field t.geom1 16 16) (t.rg a.toNat).toInt (t.rg b.toNat).toInt (t.rg c.toNat).toInt k.1 = e) :
    Leaves (.medge p d a b c) s (t.wg d.toNat e) := by
  refine Goes.word (pc := none) h rfl (by simp) ?_ (by simpa using h.flumes) (by simpa using h.pend) (by simp)
  simp only [hk]
  rw [State.writeG_plain _ _ _ t h.thread h.ports, he]

/-- MCTLD of 16 bytes of a pool that the core serves. -/
theorem mctld_leaves {ck off : Nat} (htarget : s.target s.unit.tk (t.rg a.toNat) 16 16 true true = .ok (.pool ck off))
    (hlocal : s.isLocal ck = true) (hfree : s.jobHolds s.unit.tk (.pool ck off) 16 false = false) (hremote : t.remote = [])
    (hclean : s.poolPoison ck off 16 = none) :
    Leaves (.mctld p a) s { t with codetab0 := word (s.poolRead ck off 8), codetab1 := word (s.poolRead ck (off + 8) 8) } := by
  have hnone : t.remoteHolds (.pool ck off) = false := by simp [Thread.remoteHolds, hremote]
  refine Goes.word (pc := none) h rfl (by simp) (State.load_local h.thread h.pend htarget hlocal hfree hnone hclean _ |>.trans ?_)
    h.flumes h.pend rfl
  obtain ⟨hlow, hhigh⟩ := bytesAt_poolRead_halves s ck off
  rw [State.bindFin, State.modThr_some s _ t _ h.thread, hlow, hhigh]

end context

end Sys2Proof.Machine
end

section
/-!
CERTIFICATE. Tile moves and the matrix context.
-/

open Sys2Proof Sys2Proof.Machine

/-- R421, R422: ZRD, ZWR and MCLR. -/
theorem tileMoveResults : Claims.TileMoveResults := by
  intro s t h p v a z ty l tk ck x n acc row el at_
  have hn : t.tile z = n := Thread.tile_eq t z
  have hat (k : Nat) : s.elementAt (ckOfTk s.unit.tk) n (t.rg a.toNat) ty.width k = at_ (el k) := by
    rw [State.elementAt, moveEl_eq]
    rfl
  refine ⟨fun hbeyond => ?_, fun hin hidle hfree => ?_⟩
  · rw [← hn] at hbeyond ⊢
    exact tile_beyond h hbeyond
  · rw [← hn] at hin hidle hfree
    refine ⟨zrd_badControl h hin, zwr_badControl h hin, fun hgood hwidth hclean => ?_, fun hgood hwidth => ?_, ?_⟩
    · have hread := zrd_leaves (p := p) (v := v) (l := l) h hin hidle hfree hgood fun k hk => by
        rw [hn]
        exact hat k ▸ hclean k hk
      refine ⟨_, hread, fun k hk => ?_⟩
      rw [lane_ofLanes _ k _ hk, hn, hat]
      rfl
    · have hwrite := zwr_leaves (p := p) (v := v) (l := l) h hin hidle hfree hgood
      simp only [hn, hat] at hwrite
      exact hwrite
    · have hclear := mclr_leaves (p := p) (l := l) h hin hidle hfree
      rwa [hn] at hclear

/-- R263, R416, R420: MEDGE, MFMT, MCTLD and MCTSET. -/
theorem matrixContextResults : Claims.MatrixContextResults := by
  intro s t h p d a b c tk x
  refine ⟨fun hnone => Traps.word h rfl (by simp) (by simp only [hnone]), fun k int hk => ?_, fun hbad => ?_, fun hzero hshape => ?_, ?_,
    fun e he => Traps.word h rfl (by simp) (State.load_error h.thread he _),
    fun ck off htarget hlocal hremote hfree hclean => mctld_leaves h htarget hlocal hfree hremote hclean⟩
  · intro tc tr rows cols kv low
    refine medge_leaves h hk ?_
    rw [field_geom_low, field_geom_high]
    exact medge_eq ..
  · refine Traps.word h rfl (by simp) (if_pos ?_)
    exact hbad.imp id Option.isNone_iff_eq_none.2
  · refine Goes.word (pc := none) h rfl (by simp) ?_ h.flumes h.pend rfl
    have hgood : ¬ (field (t.rg a.toNat) 10 6 ≠ 0 ∨ (shapeOf (t.rg a.toNat)).isNone = true) := by
      rw [Option.isNone_iff_eq_none]
      exact fun hbad => hbad.elim (fun hne => hne hzero) hshape
    rw [if_neg hgood, State.modThr_some s _ t _ h.thread]
  · exact Goes.word (pc := none) h rfl (by simp) (by rw [State.modThr_some s _ t _ h.thread]) h.flumes h.pend rfl

/-- Settles O38: a move is one access to its tile's elements, and the context is what MEDGE reads and the others write. -/
theorem tileAndContextResults : Obligations.TileAndContextResults := ⟨tileMoveResults, matrixContextResults⟩
end

section
/-!
SUPPORT. Requests that join the queue of the matrix unit (R258, R262, R412, R418, R424, R425).
-/

namespace Sys2Proof.Machine

variable {s s' : State} {t : Thread} {c la : Nat} {r : MxReq} {dsts : List Dst}

/-! ## The queue -/

/-- A request joins the queue of a core at a cluster's unit, which serves it later. -/
def State.queueRequest (s : State) (c j : Nat) (r : MxReq) : State :=
  (s.modClu c fun x => { x with mxQueue := Tbl.upd [] x.mxQueue j (· ++ [r]) }).laterOnce (.matrixRequestServe c)

theorem State.queueRequest_setThr (s : State) (tk : Nat) (u : Thread) (c j : Nat) (r : MxReq) :
    (s.setThr tk u).queueRequest c j r = (s.queueRequest c j r).setThr tk u := by
  unfold State.queueRequest
  rw [← State.laterOnce_setThr]
  rfl

/-- A request that joins a cluster's queue changes no cluster's cycle. -/
theorem State.queueRequest_keepsUnit (s : State) (c j : Nat) (r : MxReq) : KeepsUnit s (s.queueRequest c j r) := by
  have hqueued : ({ s.clu c with mxQueue := Tbl.upd [] (s.clu c).mxQueue j (· ++ [r]) } : Cluster) ≠ {} :=
    fun h => Tbl.put_ne_nil _ _ (by simp) (congrArg Cluster.mxQueue h)
  have hcycle (m : Nat) : ((s.modClu c fun x => { x with mxQueue := Tbl.upd [] x.mxQueue j (· ++ [r]) }).clu m).cycle = (s.clu m).cycle := by
    by_cases hm : m = c
    · rw [hm, State.modClu, State.clu, Tbl.get_put_ne_default _ _ _ _ hqueued]
    · exact congrArg Cluster.cycle (Tbl.get_put_of_ne s.clusters hqueued hm)
  have hlater := State.laterOnce_keepsThreads (s := s.modClu c fun x => { x with mxQueue := Tbl.upd [] x.mxQueue j (· ++ [r]) })
    (.matrixRequestServe c)
  exact ⟨hlater.threads, hlater.unit, fun m => (congrArg (fun l => (Tbl.get {} l m).cycle) hlater.clusters).trans (hcycle m)⟩

/-- The request with what its thread and its time of issue add. -/
def MxReq.issued (r : MxReq) (s : State) (t : Thread) : MxReq :=
  { r with id := s.clock, ck := ckOfTk s.unit.tk, tk := s.unit.tk, pend := s.clock, fmt := t.fmtctx, ct0 := t.codetab0, ct1 := t.codetab1 }

theorem requestQueued_eq (s : State) (t : Thread) (c : Nat) (r : MxReq) :
    requestQueued s t c r = s.tickClock.queueRequest c (ckOfTk s.unit.tk % 4) (r.issued s t) := rfl

theorem requestQueued_keepsUnit (s : State) (t : Thread) (c : Nat) (r : MxReq) : KeepsUnit s (requestQueued s t c r) :=
  have hk := State.queueRequest_keepsUnit s.tickClock c (ckOfTk s.unit.tk % 4) (r.issued s t)
  ⟨hk.threads, hk.unit, hk.cycle⟩

/-- A request of a unit of one word joins the queue beside its pending result. -/
theorem State.mxSubmit_eq (h : Alone s t) (hc : s.clusterOfCk (ckOfTk s.unit.tk) = some c) (hr : r.paired = false) :
    s.mxSubmit s.unit.tk la t dsts r = (requestQueued s t c r).setThr s.unit.tk
      { t with pend := [{ id := s.clock, kind := .matrix, dsts := dsts, lanes := [{}], window := la + 1, upc := s.unit.addr }] } := by
  have hissued : { r with
      id := s.clock, ck := ckOfTk s.unit.tk, tk := s.unit.tk, pend := s.clock, fmt := t.fmtctx, ct0 := t.codetab0, ct1 := t.codetab1
      paired := s.unit.phase != .lone } = r.issued s t := by
    have hpaired : (s.unit.phase != .lone) = r.paired := by rw [h.lone, hr]; rfl
    rw [hpaired]
    rfl
  have hcluster (u : Thread) : (s.tickClock.setThr s.unit.tk u).clusterOfCk (ckOfTk s.unit.tk) = some c := hc
  have hid : (s.addPend s.unit.tk la { kind := .matrix, dsts := dsts, lanes := [{}], upc := s.unit.addr }).2 = s.clock := rfl
  simp only [State.mxSubmit, hid, hissued, State.mxQueuePut]
  rw [State.addPend_one h.lone h.thread h.pend, requestQueued_eq, ← State.queueRequest_setThr]
  simp only [hcluster]
  rfl

/-- A word that hands a request to the matrix unit. -/
theorem Awaits.matrix {i : Instr} {c' : CSpec} {body : Thread → State → CRes} (h : Alone s t) (hready : t.st = .ready)
    (hi : exec i s = issueC c' body s) (hpriv : c'.priv = false) (hc : s.clusterOfCk (ckOfTk s.unit.tk) = some c) (hr : r.paired = false)
    (hb : body t s = .done (s.mxSubmit s.unit.tk la t dsts r) none) :
    Awaits i s (requestQueued s t c r) t { id := s.clock, kind := .matrix, dsts := dsts, lanes := [{}], window := la, upc := s.unit.addr } :=
  Awaits.opens (u := t) (la := la) (q := { id := s.clock, kind := .matrix, dsts := dsts, lanes := [{}], upc := s.unit.addr }) h hi (by simp [hpriv])
    (requestQueued_keepsUnit ..) (hb.trans (by rw [State.mxSubmit_eq h hc hr])) h.flumes rfl hready

/-! ## MMA and MMAZ (R258, R418) -/

section mma
variable {clear : Bool} {z : BitVec 4} {ab bb edge x : Word} {oa ob : MxOperand} {n : Nat}

theorem mmaTrap_badEdge {fc : Word} {tiles : Nat} (h : edgeBad edge = true) : mmaTrap fc edge ab bb n tiles = some (Cause.matrixFmt, edge) := by
  simp [mmaTrap, h]

theorem shapeOf_none {fc : Word} (h : shapeK fc = none) : shapeOf fc = none := by
  unfold shapeK at h
  unfold shapeOf
  split at h
  · simp [h]
  · rfl

/-- Formats that do not pair, with an edge that is not empty. -/
theorem mmaTrap_badFormat {fc : Word} {tiles : Nat} (hedge : edgeBad edge = false) (hfull : edge.getLsbD 63 = false) (h : shapeK fc = none) :
    mmaTrap fc edge ab bb n tiles = some (Cause.matrixFmt, fc) := by
  simp only [mmaTrap, hedge, h, edgeEmpty, hfull, shapeOf_none h, Option.isNone_none, Bool.or_false, Bool.false_eq_true, Bool.not_false,
    Bool.and_true, if_false, if_true]

variable (hthr : s.thr s.unit.tk = some t) (hn : t.tile z = n)
include hthr hn

theorem State.mma_traps {cause : Nat} {v : Word} (htrap : mmaTrap t.fmtctx edge ab bb n (s.tileCount (ckOfTk s.unit.tk)) = some (cause, v)) :
    s.mma clear z ab bb edge la = .trap cause v := by
  simp only [State.mma, hthr, hn, htrap]

variable (hgood : mmaTrap t.fmtctx edge ab bb n (s.tileCount (ckOfTk s.unit.tk)) = none)
include hgood

theorem State.mma_badOperand (hop : s.operands (ckOfTk s.unit.tk) t.fmtctx edge ab bb = .error x) :
    s.mma clear z ab bb edge la = .trap Cause.access x := by
  simp only [State.mma, hthr, hn, hgood, hop]

theorem State.mma_submits (hop : s.operands (ckOfTk s.unit.tk) t.fmtctx edge ab bb = .ok (oa, ob))
    (hfree : s.mxHeld s.unit.tk t (oa.ranges ++ ob.ranges) [n] = false) :
    s.mma clear z ab bb edge la = .done (s.mxSubmit s.unit.tk la t [.z n]
      { op := .mma clear, tile := n, a := ab, b := bb, edge := edge, aRuns := oa.runs, bRuns := ob.runs,
        bad := match oa.bad with | some x => some x | none => ob.bad }) none := by
  simp only [State.mma, hthr, hn, hgood, hop, hfree, Bool.false_eq_true, if_false] <;> rfl

end mma

/-! ## Factorisations (R424, R425) -/

theorem factValid_eq (w : Word) : factValid w = w.getLsbD 9 := rfl

theorem factOp_eq (w : Word) : factOp w = w.toNat / 64 % 8 := rfl

theorem factStepOf_eq (w : Word) : factStepOf w = w.toNat % 64 := Laws.field_low w 6

theorem ofNat_factAmax (w : Word) : BitVec.ofNat 32 (factAmax w) = w.extractLsb' 32 32 := by
  apply BitVec.eq_of_toNat_eq
  simp [factAmax, field, bits, Nat.shiftRight_eq_div_pow]

section fact
variable {op : MxOp} {z : BitVec 4} {z2 : Option (BitVec 4)} {vds tiles : List Nat} {gd n : Nat} (hthr : s.thr s.unit.tk = some t)
  (hn : t.tile z = n)
include hthr hn

theorem State.fact_beyond (hbeyond : s.tileCount (ckOfTk s.unit.tk) ≤ n) : s.fact op z z2 vds gd la = .trap Cause.access (word n) := by
  simp only [State.fact, hthr, hn, List.find?_cons, decide_eq_true hbeyond]

variable (htiles : n :: z2.toList.map t.tile = tiles) (hin : ∀ x ∈ tiles, x < s.tileCount (ckOfTk s.unit.tk))
include htiles hin

omit hthr hn htiles in
theorem tiles_inStore : (tiles.find? fun n => decide (s.tileCount (ckOfTk s.unit.tk) ≤ n)) = none := by
  rw [List.find?_eq_none]
  exact fun x hx => by simp [hin x hx]

theorem State.fact_oneTile (hsame : z2 = some z) : s.fact op z z2 vds gd la = .trap Cause.matrixFmt (word n) := by
  simp only [State.fact, hthr, hn, htiles, tiles_inStore hin]
  exact if_pos hsame

variable (hdiff : z2 ≠ some z)
include hdiff

theorem State.fact_other (hother : t.factstep.getLsbD 9 = true ∧ t.factstep.toNat / 64 % 8 ≠ op.code) :
    s.fact op z z2 vds gd la = .trap Cause.matrixFmt t.factstep := by
  simp only [State.fact, hthr, hn, htiles, tiles_inStore hin, hdiff, if_false, factValid_eq, factOp_eq, hother, ne_eq, not_false_eq_true,
    and_self, if_true]

theorem State.fact_submits (hflumes : t.flumes = []) (hsame : ¬ (t.factstep.getLsbD 9 = true ∧ t.factstep.toNat / 64 % 8 ≠ op.code))
    (hfree : s.mxHeld s.unit.tk t [] tiles = false) : s.fact op z z2 vds gd la =
      .done (s.mxSubmit s.unit.tk la t (tiles.map Dst.z ++ vds.map Dst.v ++ if gd = 0 then [] else [.g gd])
        { op := op, tile := n, tile2 := (z2.map t.tile).getD 0, vd := vds.headD 0, gd := gd
          step := if t.factstep.getLsbD 9 then t.factstep.toNat % 64 else 0, s0 := if t.factstep.getLsbD 9 then t.factstep.toNat % 64 else 0
          resume := t.factstep.getLsbD 9
          perm := if t.factstep.getLsbD 9 = true ∧ op = .mlu then t.rv (vds.headD 0) else 0
          amax := if t.factstep.getLsbD 9 then t.factstep.extractLsb' 32 32 else 0
          umax := if t.factstep.getLsbD 9 = true ∧ op = .mlu then (t.rg gd).setWidth 32 else 0 }) none := by
  have hamax : BitVec.ofNat 32 (if factValid t.factstep then factAmax t.factstep else 0) =
      if t.factstep.getLsbD 9 then t.factstep.extractLsb' 32 32 else 0 := by
    rw [factValid_eq]
    split
    · exact ofNat_factAmax _
    · rfl
  have hsame : ¬ (factValid t.factstep = true ∧ factOp t.factstep ≠ op.code) := hsame
  simp only [State.fact, hthr, hn, htiles, tiles_inStore hin, hdiff, if_false, factStepOf_eq, hsame, Thread.flumesOf_none hflumes, hfree,
    Bool.false_eq_true, hamax] <;> rfl

end fact

/-- What the four factorisations hand to the matrix unit. -/
theorem factorisations_word {p : Bool} {z y : BitVec 4} {v g : BitVec 5} {q : BitVec 4} {sd up un : Bool} {l : BitVec 4} {i : Instr}
    {op : MxOp} {code gd n n2 : Nat} {tiles vds : List Nat} (hn : t.tile z = n) (hn2 : t.tile y = n2)
    (hi : (i, op, code, tiles, vds, gd) ∈
        [(Instr.mlu p z v g l, MxOp.mlu, 1, [n], [v.toNat], g.toNat), (.mchol p z l, .mchol, 2, [n], [], 0),
         (.mqr p z q l, .mqr, 3, [n], [2 * q.toNat, 2 * q.toNat + 1], 0), (.mtrsm p z y sd up un l, .mtrsm sd up un, 4, [n, n2], [], 0)]) :
    ∃ (z2 : Option (BitVec 4)) (c : CSpec) (body : Thread → State → CRes), exec i s = issueC c body s ∧ c.priv = false ∧
      body t s = s.fact op z z2 vds gd l.toNat ∧ op.code = code ∧ n :: z2.toList.map t.tile = tiles ∧ (tiles = [n, n] ↔ z2 = some z) ∧
      (z2.map t.tile).getD 0 = tiles.getD 1 0 := by
  have hsame : n2 = n ↔ y = z := by
    rw [← hn, ← hn2, Thread.tile_eq, Thread.tile_eq, Nat.add_left_cancel_iff, BitVec.toNat_inj]
  simp only [List.mem_cons, Prod.mk.injEq, List.not_mem_nil, or_false] at hi
  obtain ⟨rfl, rfl, rfl, rfl, rfl, rfl⟩ | ⟨rfl, rfl, rfl, rfl, rfl, rfl⟩ | ⟨rfl, rfl, rfl, rfl, rfl, rfl⟩ | ⟨rfl, rfl, rfl, rfl, rfl, rfl⟩ := hi
  case inr.inr.inr => exact ⟨some y, _, _, rfl, rfl, rfl, rfl, by simp [hn2], by simp [hsame], by simp [hn2]⟩
  all_goals exact ⟨none, _, _, rfl, rfl, rfl, rfl, rfl, by simp, rfl⟩

end Sys2Proof.Machine
end

section
/-!
CERTIFICATE. The matrix unit's instructions as they issue.
-/

open Sys2Proof Sys2Proof.Machine

/-- R258, R262, R412, R418: MMA and MMAZ. -/
theorem matrixAccumulateIssue : Claims.MatrixAccumulateIssue := by
  intro s t h hready hremote p z a b e l i clear hform tk ck ab bb edge n
  have hn : t.tile z = n := Thread.tile_eq t z
  obtain ⟨c, body, hi, hpriv, hb⟩ : ∃ (c : CSpec) (body : Thread → State → CRes), exec i s = issueC c body s ∧ c.priv = false ∧
      body t s = s.mma clear z ab bb edge l.toNat := by
    simp only [List.mem_cons, Prod.mk.injEq, List.not_mem_nil, or_false] at hform
    obtain ⟨rfl, rfl⟩ | ⟨rfl, rfl⟩ := hform <;> exact ⟨_, _, rfl, rfl, rfl⟩
  have htraps {cause : Nat} {v : Word} (hcause : s.mma clear z ab bb edge l.toNat = .trap cause v) : Traps i s cause v :=
    Traps.word h hi (by simp [hpriv]) (hb.trans hcause)
  refine ⟨fun hbad => htraps (State.mma_traps h.thread hn (mmaTrap_badEdge hbad)),
    fun hedge hfull hk => htraps (State.mma_traps h.thread hn (mmaTrap_badFormat hedge hfull hk)),
    fun c v htrap => htraps (State.mma_traps h.thread hn htrap), fun hgood =>
    ⟨fun x hop => htraps (State.mma_badOperand h.thread hn hgood hop), fun oa ob c hop hc hfree => ?_⟩⟩
  exact Awaits.matrix h hready hi hpriv hc rfl (hb.trans (State.mma_submits h.thread hn hgood hop hfree))

/-- R412, R424, R425: MLU, MCHOL, MQR and MTRSM. -/
theorem factorisationIssue : Claims.FactorisationIssue := by
  intro s t h hready hremote p z y v g q sd up un l i op code tiles vds gd n n2 hform tk ck valid other
  have hn : t.tile z = n := Thread.tile_eq t z
  obtain ⟨z2, c', body, hi, hpriv, hb, hcode, htiles, hsame, htile2⟩ := factorisations_word (s := s) (t := t) hn (Thread.tile_eq t y) hform
  have htraps {cause : Nat} {x : Word} (hcause : s.fact op z z2 vds gd l.toNat = .trap cause x) : Traps i s cause x :=
    Traps.word h hi (by simp [hpriv]) (hb.trans hcause)
  refine ⟨fun hbeyond => htraps (State.fact_beyond h.thread hn hbeyond), fun hin =>
    ⟨fun hone => htraps (State.fact_oneTile h.thread hn htiles hin (hsame.1 hone)), fun hdiff hother => ?_, fun c hdiff hother hc hfree => ?_⟩⟩
  · exact htraps (State.fact_other h.thread hn htiles hin (fun hz => hdiff (hsame.2 hz)) ⟨hother.1, hcode ▸ hother.2⟩)
  · intro s0
    have hsubmit := State.fact_submits (la := l.toNat) (vds := vds) (gd := gd) h.thread hn htiles hin (fun hz => hdiff (hsame.2 hz)) h.flumes
      (fun ⟨hv, hne⟩ => hother ⟨hv, hcode ▸ hne⟩) hfree
    rw [htile2] at hsubmit
    exact Awaits.matrix h hready hi hpriv hc rfl (hb.trans hsubmit)

/-- Settles O37: each instruction's checks in order, then one request in the queue of its core. -/
theorem matrixIssue : Obligations.MatrixIssue := ⟨matrixAccumulateIssue, factorisationIssue⟩
end
